-- ==== Sys2Proof/Word.lean ====
section
/-! DEFINITION. The word types of the V4 and its sparse tables: registers are 64 bits wide (00 R6), memory is bytes (00 R7),
an accumulator entry and a vector element are FP32 words (03 R67). -/
namespace Sys2Proof

/-- A register, a bundle word, a descriptor word (00 R6). -/
abbrev Word := BitVec 64

/-- One byte of a memory (00 R7). -/
abbrev Byte := BitVec 8

/-- An FP32 value as its bits (02 R38). -/
abbrev F32 := BitVec 32

/-- A sparse table: (key, value) pairs, keys strictly rising. -/
abbrev Tab (α : Type) := List (Nat × α)

end Sys2Proof
end

