-- ==== Sys2Proof/Syntax.lean ====
section
/-! DEFINITION. The commands of the V4: one constructor of `Instr` per row of spec/opcode_table.json, with the row's
operands, and the types of those operands. Every docstring names the governing rule. -/
namespace Sys2Proof

/-- The grade of the part (00 R1, R3). -/
inductive Grade where
  | full | lite
  deriving DecidableEq, Repr

/-- The status codes; the table of R534 is the one complete list (00 R14). -/
inductive Status where
  | ok | doneBeforeAbort | range | staleHandle | engineAbsent | noResource | rearmPending | busy | timeout
  | integrity | auth | state | nonfiniteSkip | stepSkew | format | syncCycle | snapshotMismatch | minimalMode
  deriving DecidableEq, Repr

/-- Compute die CDd (01 R15). -/
abbrev Die := Fin 4

/-- A logical tensor core number as a naming field holds it, 0-127 (15 R550), on a compute die. -/
structure CoreId where
  die : Die
  core : Fin 128
  deriving DecidableEq, Repr

/-- Which part of a matrix array (03 R94). -/
inductive Half where
  | lower | upper
  deriving DecidableEq, Repr

/-- A link receiver: a die by its selector of R31 and a port of it (01, Link registers). -/
structure LinkEnd where
  sel : Fin 26
  port : Fin 4
  deriving DecidableEq, Repr

/-- The traffic classes of a link (01 R23). -/
inductive LinkClass where
  | request | reply | collective | management
  deriving DecidableEq, Repr

/-- A 512-byte row as it reaches a link receiver: its bytes, the number of symbols in error of each of its sixteen words,
its poison bit, the request of this device that it belongs to, and for another access the core whose kernel made it, where one did (01 R19-R21). -/
structure LinkRow where
  bytes : List Byte
  errs : List Nat
  poison : Bool
  request : Option Nat
  requester : Option CoreId
  deriving DecidableEq, Repr

/-- A bank of the row memories (05 R183, R193): bank index 0-21 of a core, or shared bank 0-95 of a die. -/
inductive BankId where
  | core (c : CoreId) (b : Fin 22)
  | shared (d : Die) (b : Fin 96)
  deriving DecidableEq, Repr

/-- What a scrub covers (05 R209): a core, or a partition entry of a die. -/
inductive ScrubTarget where
  | core (c : CoreId)
  | part (d : Die) (p : Fin 32)
  deriving DecidableEq, Repr

/-- An arbitration point (06 R248, R240): memory controller k of a die (0-3 HBM3E, 4-5 LPDDR5X), a shared bank, or
the crossing of a core's own memory. -/
inductive GrantPoint where
  | ctl (d : Die) (k : Fin 6)
  | shared (d : Die) (b : Fin 96)
  | core (c : CoreId)
  deriving DecidableEq, Repr

/-- An Ethernet port: a peer port or a host port (01 R16). -/
inductive EthPort where
  | peer (q : Fin 16)
  | host (h : Fin 2)
  deriving DecidableEq, Repr

/-- An interrupt controller: a compute die's, or the concentrator on SV0 or on SV1 (13 R491). -/
inductive IcId where
  | die (d : Die)
  | sv0
  | sv1
  deriving DecidableEq, Repr

/-- A host-class core (12 R457). -/
structure HcId where
  die : Die
  h : Fin 16
  deriving DecidableEq, Repr

/-- Who makes an access: management firmware, a DCP command of a management session, a DCP command of a session of
lease `n`, or a load or store of a host-class core `h` bound to lease `n` (00 R25 and each register's own access rule). -/
inductive Actor where
  | firmware | mgmt | leaseDcp (n : Fin 256) | hostCore (n : Fin 256) (h : HcId)
  deriving DecidableEq, Repr

/-- A connection's state is kept per peer unit and virtual channel (11 R427). -/
structure ConnId where
  unit : BitVec 16
  vc : Fin 8
  deriving DecidableEq, Repr

/-- A payload row of a DFT packet (11 R419): its 512 data bytes and whether its POISON bit is set. -/
structure PayRow where
  bytes : List Byte
  poison : Bool
  deriving DecidableEq, Repr

/-- The UDP checksum that a frame carries (11 R419): the one its sender computed, or a word. -/
inductive PktSum where
  | formed
  | given (v : Nat)
  deriving DecidableEq, Repr

/-- What stands around a DFT packet in its Ethernet frame (11 R419, R422): whether the FCS fits, VLAN tags, IPv6 extension
headers, the IPv6 addresses, the UDP ports and checksum, the bytes after the last whole payload row, and bits 1:0 of
FLAGS. -/
structure DftFrame where
  fcsOk : Bool := true
  tags : Nat := 0
  extensions : Nat := 0
  srcIp : BitVec 128 := 0#128
  dstIp : BitVec 128 := 0#128
  srcPort : Nat
  dstPort : Nat
  sum : PktSum := .formed
  trail : Nat := 0
  resv : Nat := 0
  deriving DecidableEq, Repr

/-- A DFT packet (11 R419-R421): the frame around it, the fields of its header, its hop limit and its rows; and the FEC
codewords corrected and uncorrectable that the port it is received at met with it (R411). -/
structure DftPacket where
  frame : DftFrame
  ver : Nat
  type : Nat
  vc : Fin 8
  resp : Bool
  dateline : Bool
  ackv : Bool
  src : BitVec 16
  dst : BitVec 16
  lease : Fin 256
  rows : Nat
  seq : Nat
  ack : Nat
  addr : Word
  tag : Nat
  credit : Nat
  status : Status
  epoch : Nat
  hop : Nat
  pay : List PayRow
  fecCorr : Nat := 0
  fecUncorr : Nat := 0
  deriving DecidableEq, Repr

/-- A 256-bit word in error of a FIFO row of a packet (14 R533): the row within the packet, and whether the word is
uncorrectable. -/
structure FifoUpset where
  row : Nat
  uncorr : Bool
  deriving DecidableEq, Repr

/-- What a frame at a host port carries above Ethernet (14 R505): a UDP datagram over IPv6, with extension headers or not,
or over IPv4, with options or in fragments or not; an echo request over either; an ARP request for an IPv4 address; a
neighbour solicitation for an IPv6 address; or anything else. -/
inductive HostNet where
  | udp6 (src dst : BitVec 128) (extensions : Bool)
  | udp4 (src dst : BitVec 32) (options fragment : Bool)
  | echo6 (src dst : BitVec 128) (data : List Byte)
  | echo4 (src dst : BitVec 32) (data : List Byte)
  | arp (target : BitVec 32)
  | solicit (target : BitVec 128)
  | other
  deriving DecidableEq, Repr

/-- How the protected body of a packet came (14 R511, R515): as what the host's sealing of the clear bytes beside it gives,
under the session's own key and salt, the packet's PN and its header; or as bytes that the device's tag check judges. -/
inductive HostSeal where
  | sealed
  | given (body : List Byte)
  deriving DecidableEq, Repr

/-- How the signature of an AUTH came (14 R509): as the one that the presented key makes over H and the AUTH parameter block,
or as bytes that the device judges. -/
inductive HostSig where
  | signed
  | given (bytes : List Byte)
  deriving DecidableEq, Repr

/-- The destination MAC of a frame at a host port (14 R506): the port's own HP_MAC, an ARP or neighbour-solicitation
multicast, or an address as given. -/
inductive HostDst where
  | own
  | multicast
  | mac (a : BitVec 48)
  deriving DecidableEq, Repr

/-- A frame as it reaches a host port (14 R506, R515, R516): its MAC addresses, the identifiers of its 802.1Q tags, what it
carries, its UDP ports; then the fields of the DCP header, the clear parameter and data bytes, how the body came, whether FCS
and checksum are good and the packet is whole, the FEC codewords corrected and uncorrectable that the port met with it
(R411), and the words of its FIFO rows that are read in error (R533). -/
structure HostPacket where
  dstMac : HostDst
  srcMac : BitVec 48
  tags : List Nat
  net : HostNet
  srcPort : Nat
  udpPort : Nat
  fcsOk : Bool
  body : HostSeal
  complete : Bool
  unit : BitVec 16
  session : Nat
  pn : Nat
  seq : Nat
  opcode : Nat
  lease : Fin 256
  verMajor : Nat
  verMinor : Nat
  flags : Nat
  status : Nat
  resv : Nat
  params : List Byte
  data : List Byte
  fecCorr : Nat := 0
  fecUncorr : Nat := 0
  fifo : List FifoUpset := []
  deriving DecidableEq, Repr

/-- The header of a command whose turn has come (14 R516, R519, R520): the host port and session it came by, its SEQ,
LEASE and version, its PLEN and DLEN, whether a reserved field is non-zero, and whether a row that carried it was read
poisoned (R533). -/
structure DcpHdr where
  port : Fin 2
  session : Nat
  seq : Nat
  lease : Fin 256
  verMajor : Nat
  verMinor : Nat
  plen : Nat
  dlen : Nat
  resv : Bool
  poisoned : Bool
  deriving DecidableEq, Repr

/-- The operation of an atomic memory operation (12 R457, R461). -/
inductive AmoOp where
  | swap | add | and | or | xor | min | max | minu | maxu
  deriving DecidableEq, Repr

/-- An access of a host-class core (12 R459, R461): a load of 8 bytes, an instruction fetch, a store, or a load-reserved,
store-conditional or atomic operation on 8 bytes (`wide`) or 4. -/
inductive HcAccess where
  | load
  | fetch
  | store (bytes : List Byte)
  | loadReserved (wide : Bool)
  | storeConditional (wide : Bool) (v : Word)
  | amo (op : AmoOp) (wide : Bool) (v : Word)
  deriving DecidableEq, Repr

/-- What the page tables of an invocation of customer code map (12 R478), in device addresses: its image, its heap, and the
rows of its input item and of its output item. -/
structure ExtMap where
  image : BitVec 48
  heap : BitVec 48
  input : BitVec 48
  inRows : Nat
  output : BitVec 48
  outRows : Nat
  deriving DecidableEq, Repr

/-- How an invocation of customer code ended (12 R475, R479): returned with its output, with an output that fails its
end-to-end check, in an access fault outside its mapping or at an illegal instruction, or in a fault of R472. -/
inductive ExtOutcome where
  | returned (out : List Byte)
  | badOutput
  | faultOutside
  | faultPoison
  deriving DecidableEq, Repr

/-- What becomes of an invocation of customer code (12 R475, R478, R479): it is started on a core with its mapping, its heap
grows to `bytes`, or it ends. -/
inductive ExtStep where
  | start (core : HcId) (map : ExtMap)
  | heap (bytes : Nat)
  | ends (o : ExtOutcome)
  deriving DecidableEq, Repr

/-- A die whose junction is sampled (20 R670): the kinds of sensor with their trip values. -/
inductive Sensor where
  | compute | dram | ioService | regulator
  deriving DecidableEq, Repr

/-- What the energy estimators give for a millisecond, in microjoules before calibration (15 R559, 16 R585): the islands'
work for each lease, the idle power of one tensor core, one host-class core, one bank of shared die memory and one page
frame, the memory controllers, I/O dies and bridges together, and what is charged to no lease. -/
structure EnergySample where
  work : List (Fin 256 × Nat)
  core : Nat := 0
  hostCore : Nat := 0
  bank : Nat := 0
  frame : Nat := 0
  common : Nat := 0
  uncharged : Nat := 0
  deriving DecidableEq, Repr

/-- A receiver whose credit return a perturbation holds (19 R648). -/
inductive CreditHolder where
  | links (d : Die)
  | peer (q : Fin 16)
  deriving DecidableEq, Repr

/-- Test access instructions (19 R655). -/
inductive TapInstr where
  | bypass | idcode | samplePreload | extest
  | privRead (addr : BitVec 48)
  | privWrite (addr : BitVec 48) (v : Word)
  deriving DecidableEq, Repr

/-- A start stage's result as the stage's own work gives it (17 R587, R598): a stage that passed, and what the reads of the
store found. -/
inductive StageResult where
  | passed
  | failed (detail : Nat)
  deriving DecidableEq, Repr

/-- The commands of the V4, one constructor per row of the opcode table. -/
inductive Instr where
  -- registers and links
  /-- REGISTER_WRITE (00 R8-R10). -/
  | registerWrite (a : Actor) (addr : BitVec 48) (v : Word)
  /-- LINK_ROW_RECEIVE (01 R19-R21). -/
  | linkRowReceive (e : LinkEnd) (cls : LinkClass) (r : LinkRow)
  /-- LINK_REPLAY (01 R21): the replayed row as received. -/
  | linkReplay (e : LinkEnd) (r : LinkRow)
  /-- LINK_ERR_CLR (01 R27). -/
  | linkErrClr (a : Actor) (e : LinkEnd) (v : Word)
  -- the tensor core
  /-- WLD (03 R76): the WLD in slot MAa of the bundle at core `c`'s issue point. -/
  | wld (c : CoreId) (ma : Fin 4)
  /-- WLD_COMPLETE (03 R79). -/
  | wldComplete (c : CoreId) (ma : Fin 4) (h : Half)
  /-- PASS (03 R80). -/
  | pass (c : CoreId) (ma : Fin 4)
  /-- PASS_VECTOR (03 R84). -/
  | passVector (c : CoreId) (ma : Fin 4) (h : Half)
  /-- PASS_RELEASE (03 R84). -/
  | passRelease (c : CoreId) (ma : Fin 4) (h : Half)
  /-- FREEZE_END (03 R110). -/
  | freezeEnd (c : CoreId)
  /-- ELEM (04 R122). -/
  | elem (c : CoreId)
  /-- CONVERT (04 R128). -/
  | convert (c : CoreId)
  /-- SPLIT (04 R129). -/
  | split (c : CoreId)
  /-- DRAIN (04 R130), without a soft-maximum descriptor. -/
  | drain (c : CoreId)
  /-- VEC_ROW_WRITE (03 R97): the next destination row of pipeline 0 (VEC0) or 1 (VEC1). -/
  | vecRowWrite (c : CoreId) (pipe : Fin 2)
  /-- EMPTY_BUNDLE (04 R118, R135). -/
  | emptyBundle (c : CoreId)
  /-- LOOP (04 R132). -/
  | loop (c : CoreId)
  /-- WRMASK (04 R133). -/
  | wrmask (c : CoreId)
  /-- DPRE (04 R134). -/
  | dpre (c : CoreId)
  /-- DESC_FILL_DONE (04 R145). -/
  | descFillDone (c : CoreId) (handle : BitVec 16)
  /-- PRED (04 R135). -/
  | pred (c : CoreId)
  /-- MARK (04 R136). -/
  | mark (c : CoreId)
  /-- END (04 R137). -/
  | endKernel (c : CoreId)
  /-- KERNEL_COMPLETE (04 R137). -/
  | kernelComplete (c : CoreId)
  /-- SET (04 R170). -/
  | set (c : CoreId)
  /-- CLEAR (04 R170). -/
  | clear (c : CoreId)
  /-- WAIT (04 R170). -/
  | wait (c : CoreId)
  /-- WAIT_CLR (04 R170). -/
  | waitClr (c : CoreId)
  /-- TEST (04 R170). -/
  | test (c : CoreId)
  /-- CLAIM (04 R170). -/
  | claim (c : CoreId)
  /-- FLAG_DELIVERY (04 R172): the oldest operation of core `src` for core `dst` not yet delivered. -/
  | flagDelivery (src dst : CoreId)
  /-- SYNC_WAIT_TIMEOUT (04 R164). -/
  | syncWaitTimeout (c : CoreId)
  /-- KERNEL_START (15 R554). -/
  | kernelStart (c : CoreId)
  /-- RING_FETCH (04 R162): up to eight words arrive. -/
  | ringFetch (c : CoreId)
  -- rings
  /-- RING_BASE_WRITE (04 R150). -/
  | ringBaseWrite (a : Actor) (d : Die) (i : Fin 16384) (v : Word)
  /-- RING_CFG_WRITE (04 R151, R152). -/
  | ringCfgWrite (a : Actor) (d : Die) (i : Fin 16384) (v : Word)
  /-- RING_PROD_WRITE (04 R155). -/
  | ringProdWrite (a : Actor) (d : Die) (i : Fin 16384) (v : Word)
  /-- SKIP_KERNEL (04 R166). -/
  | skipKernel (a : Actor) (d : Die) (i : Fin 16384)
  /-- DISCARD (04 R166). -/
  | discard (a : Actor) (d : Die) (i : Fin 16384)
  /-- CLEAR_FAULT (04 R166). -/
  | clearFault (a : Actor) (d : Die) (i : Fin 16384)
  /-- MONITOR_SAMPLE (04 R176). -/
  | monitorSample
  /-- PREFIX_DUMP (04 R181). -/
  | prefixDump (c : CoreId)
  -- row memories
  /-- PATROL_READ (05 R196): row `row` of the bank. -/
  | patrolRead (b : BankId) (row : Nat)
  /-- PATROL_WRITEBACK (05 R196). -/
  | patrolWriteback (b : BankId)
  /-- ROW_ECC_CLR (05 R195): of a core, or of the shared banks. -/
  | rowEccClr (a : Actor) (d : Die) (core : Option (Fin 128)) (v : Word)
  /-- SDM_PART_WRITE (05 R205). -/
  | sdmPartWrite (a : Actor) (d : Die) (p : Fin 32) (v : Word)
  /-- SCRUB_COMPLETE (05 R209). -/
  | scrubComplete (t : ScrubTarget)
  /-- SDM_WCACHE_CFG_WRITE (05 R212). -/
  | sdmWcacheCfgWrite (a : Actor) (d : Die) (v : Word)
  /-- ASTK_CFG_WRITE (05 R219, R220). -/
  | astkCfgWrite (a : Actor) (d : Die) (g : Fin 64) (v : Word)
  /-- ASTK_TOP_WRITE (05 R219). -/
  | astkTopWrite (a : Actor) (d : Die) (g : Fin 64) (v : Word)
  /-- ASTK_PUSH (05 R223): the oldest half handed over by channel `ch` of core `c`. -/
  | astkPush (d : Die) (g : Fin 64) (c : CoreId) (ch : Fin 16)
  /-- ASTK_SPILL (05 R223). -/
  | astkSpill (d : Die) (g : Fin 64)
  /-- ASTK_REFILL (05 R225). -/
  | astkRefill (d : Die) (g : Fin 64)
  /-- ASTK_REFILL_LAND (05 R225). -/
  | astkRefillLand (d : Die) (g : Fin 64)
  /-- ASTK_POP (05 R226): for the next half of channel `ch` of core `c`. -/
  | astkPop (d : Die) (g : Fin 64) (c : CoreId) (ch : Fin 16)
  -- streams
  /-- ARM (06 R234): in slot STRM0 or STRM1. -/
  | arm (c : CoreId) (e : Fin 2)
  /-- REL (06 R237). -/
  | rel (c : CoreId) (e : Fin 2)
  /-- STREAM_REQUEST (06 R239): engine `e` forms one request. -/
  | streamRequest (c : CoreId) (e : Fin 2)
  /-- STREAM_ROW_LAND (06 R240). -/
  | streamRowLand (c : CoreId) (ch : Fin 16)
  /-- STORE_ROW_WRITTEN (06 R240). -/
  | storeRowWritten (c : CoreId) (ch : Fin 16)
  /-- TRANSFER_COMPLETE (06 R243). -/
  | transferComplete (c : CoreId) (ch : Fin 16)
  /-- TEMPER_GRANT (06 R250). -/
  | temperGrant (p : GrantPoint)
  /-- STARVE_PROMOTE (06 R252). -/
  | starvePromote (p : GrantPoint)
  /-- MCQ_CLR (06 R256). -/
  | mcqClr (a : Actor) (d : Die) (v : Word)
  /-- AWL (06 R261). -/
  | awl (c : CoreId) (e : Fin 2)
  /-- AWL_PIECE_REQUEST (06 R263). -/
  | awlPieceRequest (c : CoreId)
  /-- AWL_PIECE_LAND (06 R265). -/
  | awlPieceLand (c : CoreId) (t : Fin 16)
  -- DRAM
  /-- ROW_PERFORM (07 R298). -/
  | rowPerform (d : Die) (k : Fin 6)
  /-- MEMC_PATROL (07 R280): pseudo-channel `p` (0 for a site), row `row`. -/
  | memcPatrol (d : Die) (k : Fin 6) (p : Fin 32) (row : Nat)
  /-- MEMC_ECC_CLR (07 R283). -/
  | memcEccClr (a : Actor) (d : Die) (k : Fin 6) (v : Word)
  /-- FAILED_PC_WRITE (07 R286). -/
  | failedPcWrite (a : Actor) (d : Die) (k : Fin 6) (v : Word)
  /-- HBM_SPARE_START (07 R286). -/
  | hbmSpareStart (a : Actor) (d : Die) (k : Fin 6) (v : Word)
  /-- SPARE_COPY_ROW (07 R287). -/
  | spareCopyRow (d : Die) (k : Fin 4)
  /-- DOWN_REQ (07 R291). -/
  | downReq (a : Actor) (d : Die) (k : Fin 6) (v : Word)
  /-- PDN_ENTER (07 R292). -/
  | pdnEnter (d : Die) (k : Fin 4)
  /-- PDN_TIMEOUT (07 R292). -/
  | pdnTimeout (d : Die) (k : Fin 4)
  /-- CHANNEL_WAKE (07 R293). -/
  | channelWake (d : Die) (k : Fin 4) (ch : Fin 16)
  /-- TAG_FILL (07 R297). -/
  | tagFill (d : Die) (k : Fin 4)
  /-- TAG_FILL_COMPLETE (07 R297). -/
  | tagFillComplete (d : Die) (k : Fin 4)
  /-- BACKGROUND_TAG_FILL (07 R299): tag block `blk` of the stack. -/
  | backgroundTagFill (d : Die) (k : Fin 4) (blk : Nat)
  /-- PER_BANK_REFRESH (07 R300): pseudo-channel `p`, bank `b`. -/
  | perBankRefresh (d : Die) (k : Fin 6) (p : Fin 32) (b : Fin 64)
  /-- TEMP_SAMPLE (07 R301): the hottest DRAM die reads `t` degrees. -/
  | tempSample (d : Die) (k : Fin 6) (t : Fin 256)
  -- frames of an activation stack
  /-- FRAME_OPEN (08 R321). -/
  | frameOpen (a : Actor) (d : Die) (g : Fin 64) (v : Word)
  /-- FRAME_DRAIN (08 R323). -/
  | frameDrain (a : Actor) (d : Die) (g : Fin 64) (v : Word)
  /-- FRAME_NO_ACTION (08 R320). -/
  | frameNoAction (a : Actor) (d : Die) (g : Fin 64) (v : Word)
  /-- FRAME_CMD_RESERVED (08 R320). -/
  | frameCmdReserved (a : Actor) (d : Die) (g : Fin 64) (v : Word)
  -- Welt units
  /-- NORM (09 R348). -/
  | norm (a : Actor) (hs : Fin 16) (g : Fin 128)
  /-- APPLY (09 R351). -/
  | apply (a : Actor) (hs : Fin 16) (g : Fin 128)
  /-- FINISH (09 R357). -/
  | finish (a : Actor) (hs : Fin 16) (g : Fin 128)
  /-- WELT_CLOSE (09 R345). -/
  | weltClose (a : Actor) (hs : Fin 16) (g : Fin 128)
  /-- WELT_CMD_END (09 R344). -/
  | weltCmdEnd (hs : Fin 16)
  /-- FAC_EXCHANGE_READY (09 R356): of layer `l` on the Welt units that hold it with HS `hs`. -/
  | facExchangeReady (hs : Fin 16) (l : Fin 4096)
  /-- WELT_LAYER_COMMIT (09 R361). -/
  | weltLayerCommit (hs : Fin 16)
  /-- WELT_STEP_TIMEOUT (09 R345). -/
  | weltStepTimeout (hs : Fin 16)
  /-- WELT_EPOCH_WRITE (09 R363). -/
  | weltEpochWrite (a : Actor) (hs : Fin 16) (l : Fin 4096) (v : Word)
  -- KV pools
  /-- KVP_ENABLE (10 R366): a write of KVP_CFG with ENABLE 1. -/
  | kvpEnable (a : Actor) (d : Die) (p : Fin 16) (v : Word)
  /-- KVP_INIT_DONE (10 R366). -/
  | kvpInitDone (d : Die) (p : Fin 16)
  /-- KVP_GO (10 R370). -/
  | kvpGo (a : Actor) (d : Die) (p : Fin 16) (v : Word)
  /-- ALLOC (10 R368). -/
  | alloc (d : Die) (p : Fin 16)
  /-- SHARE (10 R368). -/
  | share (d : Die) (p : Fin 16)
  /-- FREE (10 R368). -/
  | free (d : Die) (p : Fin 16)
  /-- PRIVATE (10 R368). -/
  | makePrivate (d : Die) (p : Fin 16)
  /-- APPEND (10 R369). -/
  | append (d : Die) (p : Fin 16)
  /-- KVP_BATCH_COMPLETE (10 R371). -/
  | kvpBatchComplete (d : Die) (p : Fin 16)
  /-- SOFTMAX_STEP (10 R392). -/
  | softmaxStep (c : CoreId)
  /-- SOFTMAX_FINAL (10 R393). -/
  | softmaxFinal (c : CoreId)
  /-- SOFTMAX_MERGE (10 R394). -/
  | softmaxMerge (c : CoreId)
  -- peer fabric
  /-- PORT_RETRAIN (11 R409): the lanes that failed. -/
  | portRetrain (p : EthPort) (failed : BitVec 4)
  /-- PORT_TRAIN_END (11 R409): the lanes that trained and the speed code of R410. -/
  | portTrainEnd (p : EthPort) (lanes : BitVec 4) (speed : Fin 4)
  /-- PEER_PORT_CLR (11 R411). -/
  | peerPortClr (a : Actor) (q : Fin 16) (v : Word)
  /-- FAB_CFG_WRITE (11 R412). -/
  | fabCfgWrite (a : Actor) (v : Word)
  /-- FAB_COORD_WRITE (11 R414). -/
  | fabCoordWrite (a : Actor) (u : BitVec 16) (v : Word)
  /-- FAB_VC_WRITE (11 R424). -/
  | fabVcWrite (a : Actor) (vc : Fin 8) (v : Word)
  /-- FAB_STAT_CLR (11 R432). -/
  | fabStatClr (a : Actor) (v : Word)
  /-- DFT_WRITE (11 R428). -/
  | dftWrite (q : Fin 16) (p : DftPacket)
  /-- DFT_READ (11 R433). -/
  | dftRead (q : Fin 16) (p : DftPacket)
  /-- READ_DATA (11 R438). -/
  | readData (q : Fin 16) (p : DftPacket)
  /-- NAK (11 R433). -/
  | nak (q : Fin 16) (p : DftPacket)
  /-- ACK (11 R429). -/
  | ack (q : Fin 16) (p : DftPacket)
  /-- CREDIT (11 R425). -/
  | credit (q : Fin 16) (p : DftPacket)
  /-- PACKET_FORWARD (11 R415). -/
  | packetForward (q : Fin 16) (p : DftPacket)
  /-- CREDIT_RETURN (11 R425): port, virtual channel, class (bit 0 DATELINE, bit 1 RESP). -/
  | creditReturn (q : Fin 16) (vc : Fin 8) (cls : Fin 4)
  /-- RETRANSMIT_TIMEOUT (11 R429). -/
  | retransmitTimeout (conn : ConnId) (seq : Nat)
  /-- RESYNC (17 R608). -/
  | resync (q : Fin 16) (p : DftPacket)
  /-- RESYNC_ACK (17 R608). -/
  | resyncAck (q : Fin 16) (p : DftPacket)
  /-- RESYNC_REPEAT (17 R608). -/
  | resyncRepeat (conn : ConnId)
  /-- COLL_GROUP_WRITE (11 R442): the two words of an entry. -/
  | collGroupWrite (a : Actor) (io : Die) (g : Fin 64) (v members : Word)
  /-- COLL_SUBMIT (11 R444). -/
  | collSubmit (a : Actor) (io : Die) (v : Word)
  /-- REDUCE_SCATTER (11 R447). -/
  | reduceScatter (io : Die)
  /-- ALL_GATHER (11 R448). -/
  | allGather (io : Die)
  /-- ALL_REDUCE (11 R448). -/
  | allReduce (io : Die)
  /-- NORMRED (11 R449). -/
  | normred (io : Die)
  /-- COLL_READY (11 R451). -/
  | collReady (q : Fin 16) (p : DftPacket)
  /-- COLL_DATA (11 R447). -/
  | collData (q : Fin 16) (p : DftPacket)
  /-- COLL_ABORT (11 R452). -/
  | collAbort (q : Fin 16) (p : DftPacket)
  /-- COLL_TIMEOUT (11 R452). -/
  | collTimeout (io : Die)
  /-- COLL_END (11 R453). -/
  | collEnd (io : Die)
  -- host-class cores
  /-- CBO_INVAL (12 R463): in user mode it acts as CBO.FLUSH. -/
  | cboInval (h : HcId) (addr : BitVec 48) (user : Bool)
  /-- CBO_CLEAN (12 R463). -/
  | cboClean (h : HcId) (addr : BitVec 48)
  /-- CBO_FLUSH (12 R463). -/
  | cboFlush (h : HcId) (addr : BitVec 48)
  /-- CBO_ZERO (12 R463). -/
  | cboZero (h : HcId) (addr : BitVec 48)
  /-- FENCE (12 R464). -/
  | fence (h : HcId)
  /-- L3_DEMAND_FILL (12 R459-R462): an access of a core through its home L3. -/
  | l3DemandFill (h : HcId) (addr : BitVec 48) (acc : HcAccess)
  /-- L3_RANGE_INVAL (12 R470). -/
  | l3RangeInval (a : Actor) (d : Die) (rows : BitVec 24)
  /-- L3_RANGE_CLEAN (12 R470). -/
  | l3RangeClean (a : Actor) (d : Die) (rows : BitVec 24)
  /-- L3_RANGE_FLUSH (12 R470). -/
  | l3RangeFlush (a : Actor) (d : Die) (rows : BitVec 24)
  /-- L3_RANGE_END (12 R470). -/
  | l3RangeEnd (d : Die)
  /-- HC_BIND_WRITE (12 R474). -/
  | hcBindWrite (a : Actor) (h : HcId) (v : Word)
  /-- EXTENSION_INVOKE (12 R478, R479): the item, and the invocation's start, its heap or its end. -/
  | extensionInvoke (lease : Fin 256) (slot : Fin 5) (item : Nat) (step : ExtStep)
  /-- CODE_TIME_LIMIT (12 R479). -/
  | codeTimeLimit (lease : Fin 256) (slot : Fin 5)
  -- mailboxes and interrupts
  /-- EYE_MSG_WRITE (13 R485): words 0-6. -/
  | eyeMsgWrite (a : Actor) (d : Die) (m : Fin 512) (k : Fin 7) (v : Word)
  /-- EYE_COMMIT (13 R484). -/
  | eyeCommit (a : Actor) (d : Die) (m : Fin 512) (v : Word)
  /-- EYE_TAKE (13 R484). -/
  | eyeTake (a : Actor) (d : Die) (m : Fin 512)
  /-- EYE_TIMEOUT (13 R487). -/
  | eyeTimeout (d : Die) (m : Fin 512)
  /-- EYE_DB_SET (13 R488). -/
  | eyeDbSet (a : Actor) (d : Die) (m : Fin 512) (v : Word)
  /-- EYE_CFG_WRITE (13 R490). -/
  | eyeCfgWrite (a : Actor) (d : Die) (m : Fin 512) (v : Word)
  /-- IC_RING_NOTE_READ (13 R493). -/
  | icRingNoteRead (a : Actor) (c : CoreId)
  /-- IC_SWSET (13 R497). -/
  | icSwset (a : Actor) (ic : IcId) (v : Word)
  /-- IC_CLAIM (13 R499): by target `t`. -/
  | icClaim (ic : IcId) (t : Fin 16)
  /-- IC_COMPLETE (13 R500). -/
  | icComplete (ic : IcId) (t : Fin 16) (v : Word)
  /-- IC_PENDING_WRITE (13 R502). -/
  | icPendingWrite (a : Actor) (ic : IcId) (w : Fin 16) (v : Word)
  /-- RR_ADVANCE (13 R501). -/
  | rrAdvance (ic : IcId) (s : Fin 1024)
  -- host ports
  /-- HOST_PACKET_RECEIVE (14 R530). -/
  | hostPacketReceive (h : Fin 2) (p : HostPacket)
  /-- FIFO_PACKET_TIMEOUT (14 R530). -/
  | fifoPacketTimeout (h : Fin 2)
  /-- HP_FIFO_HEAD_WRITE (14 R531). -/
  | hpFifoHeadWrite (a : Actor) (h : Fin 2) (v : Word)
  /-- HP_LAND_HEAD_WRITE (14 R531). -/
  | hpLandHeadWrite (a : Actor) (h : Fin 2) (v : Word)
  /-- DROP_REST (14 R532). -/
  | dropRest (a : Actor) (h : Fin 2) (v : Word)
  /-- HP_CLR (14 R508). -/
  | hpClr (a : Actor) (h : Fin 2) (v : Word)
  -- DCP commands (14 R523)
  /-- HELLO (14 R509): version range, window and encapsulation key. -/
  | hello (h : Fin 2) (verMin verMax : Nat) (window : Nat) (key : List Byte)
  /-- AUTH (14 R513): the role and the presented key's digest, and whether its signature and tag are good. -/
  | auth (q : DcpHdr) (role : Nat) (keyDigest : List Byte) (sig : HostSig)
  /-- AUTH_TIMEOUT (14 R514). -/
  | authTimeout (h : Fin 2) (session : Nat)
  /-- CLOSE (14 R522). -/
  | close (q : DcpHdr)
  /-- KEEPALIVE (14 R523). -/
  | keepalive (q : DcpHdr)
  /-- EVENT_ACK (14 R526). -/
  | eventAck (q : DcpHdr) (evseq : Nat)
  /-- IDENTIFY (14 R523). -/
  | identify (q : DcpHdr)
  /-- ATTEST (17 R601). -/
  | attest (q : DcpHdr) (nonce : List Byte)
  /-- START_RECORD (17 R602). -/
  | startRecord (q : DcpHdr)
  /-- REG_READ (14 R524). -/
  | regRead (q : DcpHdr) (addrs : List Word)
  /-- REG_WRITE (14 R524). -/
  | regWrite (q : DcpHdr) (writes : List (Word × Word))
  /-- MEM_READ (14 R675). -/
  | memRead (q : DcpHdr) (addr : Word) (len : Nat)
  /-- MEM_WRITE (14 R675). -/
  | memWrite (q : DcpHdr) (addr : Word) (len : Nat) (data : List Byte)
  /-- LEASE_CREATE (15 R538). -/
  | leaseCreate (q : DcpHdr) (lease : Fin 256) (vc shares : Nat) (seed : Word)
  /-- LEASE_BIND (15 R541). -/
  | leaseBind (q : DcpHdr) (lease : Fin 256) (kind : Nat) (first count : Word)
  /-- LEASE_UNBIND (15 R543). -/
  | leaseUnbind (q : DcpHdr) (lease : Fin 256) (kind : Nat) (first count : Word)
  /-- LEASE_REBIND (15 R542). -/
  | leaseRebind (q : DcpHdr) (src dst : Fin 256) (kind : Nat) (first count : Word)
  /-- QUIESCE_COMPLETE (15 R543). -/
  | quiesceComplete (lease : Fin 256)
  /-- QUIESCE_TIMEOUT (15 R545). -/
  | quiesceTimeout (lease : Fin 256)
  /-- LEASE_ABORT (15 R547). -/
  | leaseAbort (q : DcpHdr) (lease : Fin 256) (scope : Nat) (target : Word)
  /-- LEASE_KEY (15 R538). -/
  | leaseKey (q : DcpHdr) (lease : Fin 256) (digest : List Byte)
  /-- LEASE_ACCT (15 R557). -/
  | leaseAcct (q : DcpHdr) (lease : Fin 256)
  /-- PROMPT_SUBMIT (14 R523). -/
  | promptSubmit (q : DcpHdr) (prompt : Word) (adapter maxNew : Nat) (more : Bool) (text : List Byte)
  /-- ROLLOUT_FETCH (14 R523). -/
  | rolloutFetch (q : DcpHdr) (prompt : Word) (maxBytes : Nat)
  /-- DATA_PUSH (14 R523). -/
  | dataPush (q : DcpHdr) (stream : Nat) (records : Nat) (data : List Byte)
  /-- CODE_LOAD (14 R523). -/
  | codeLoad (q : DcpHdr) (slot : Nat) (final : Bool) (offset total : Nat) (chunk : List Byte)
  /-- CODE_LIMITS (12 R479). -/
  | codeLimits (q : DcpHdr) (slot timeMs heap : Nat)
  /-- SNAPSHOT_TAKE (18 R625). -/
  | snapshotTake (q : DcpHdr)
  /-- SNAPSHOT_STOP_END (18 R626). -/
  | snapshotStopEnd (lease : Fin 256)
  /-- SNAPSHOT_PULL (18 R627). -/
  | snapshotPull (q : DcpHdr) (id : Word) (offset len : Nat)
  /-- SNAPSHOT_PUSH (18 R633). -/
  | snapshotPush (q : DcpHdr) (id : Word) (offset : Nat) (data : List Byte)
  /-- SNAPSHOT_RESTORE (18 R635). -/
  | snapshotRestore (q : DcpHdr) (id : Word) (rederive : Bool)
  /-- IMAGE_BEGIN (17 R590). -/
  | imageBegin (q : DcpHdr) (total : Nat)
  /-- IMAGE_CHUNK (17 R590). -/
  | imageChunk (q : DcpHdr) (offset : Nat) (data : List Byte)
  /-- IMAGE_COMMIT (17 R590). -/
  | imageCommit (q : DcpHdr)
  /-- RESTART (17 R592). -/
  | restart (q : DcpHdr)
  /-- UNIT_ADDRESS (17 R611). -/
  | unitAddress (q : DcpHdr) (addr : BitVec 16)
  /-- COMMAND_TIMEOUT (14 R521). -/
  | commandTimeout (h : Fin 2) (session : Nat)
  /-- SESSION_IDLE_TIMEOUT (14 R522). -/
  | sessionIdleTimeout (h : Fin 2) (session : Nat)
  /-- EVENT_RETRANSMIT (14 R526). -/
  | eventRetransmit (h : Fin 2) (session : Nat)
  -- accounting, availability, snapshots
  /-- ENERGY_ACCRUE (15 R559): what the estimators give for this millisecond, and the input energy. -/
  | energyAccrue (e : EnergySample) (input : Nat)
  /-- SPARE_CORE_MAP (18 R616). -/
  | spareCoreMap (c : CoreId)
  /-- RAS_SAMPLE (18 R615). -/
  | rasSample
  /-- BANK_RETIRE (18 R617). -/
  | bankRetire (d : Die) (b : Fin 96)
  /-- AUTO_SNAPSHOT (18 R631). -/
  | autoSnapshot (lease : Fin 256)
  /-- EPOCH_CHECK (18 R638): of group `g` of a lease. -/
  | epochCheck (lease : Fin 256) (g : Fin 128)
  -- clocks and power
  /-- REF_WINDOW (16 R569): the reference edges counted in the window. -/
  | refWindow (edges : Nat)
  /-- REF_LOSS (16 R570). -/
  | refLoss
  /-- ROOT_SV0_LOST (16 R572). -/
  | rootSv0Lost
  /-- RELOCK (16 R573). -/
  | relock (a : Actor) (v : Word)
  /-- RELOCK_COMPLETE (16 R573). -/
  | relockComplete
  /-- RELOCK_TIMEOUT (16 R573). -/
  | relockTimeout
  /-- ROOT_SV0 (16 R573). -/
  | rootSv0 (a : Actor) (v : Word)
  /-- ISLAND_WAKE (16 R567): by island number. -/
  | islandWake (c : CoreId)
  /-- POWER_SAMPLE (16 R579): watts at the 48 V input. -/
  | powerSample (watts : Nat)
  /-- DUTY_DECISION (16 R581): the estimated STEP_W and the hottest compute-die junction. -/
  | dutyDecision (stepW tj : Nat)
  /-- CLUSTER_POWER_OFF (16 R577). -/
  | clusterPowerOff (d : Die) (cl : Fin 4)
  -- start and identity
  /-- START_BEGIN (17 R586). -/
  | startBegin
  /-- START_STAGE (17 R587): the stage in progress ends with a result. -/
  | startStage (r : StageResult)
  /-- STAGE_TIMEOUT (17 R587). -/
  | stageTimeout
  /-- HEARTBEAT (17 R595). -/
  | heartbeat
  /-- SV1_TAKEOVER (17 R595). -/
  | sv1Takeover
  /-- RETAINED_STORE_WRITE (17 R597): copies 0 to `copies` - 1 are completed. -/
  | retainedStoreWrite (copies : Fin 4)
  /-- RECOVERY_MIRROR (17 R594). -/
  | recoveryMirror
  /-- NEIGHBOUR_ADVERTISEMENT (17 R604). -/
  | neighbourAdvertisement (h : Fin 2)
  /-- ANNOUNCE_SEND (17 R607). -/
  | announceSend
  /-- ANNOUNCE (17 R606). -/
  | announce (q : Fin 16) (p : DftPacket)
  /-- ENUM_START (17 R609). -/
  | enumStart
  /-- TOKEN (17 R609). -/
  | token (q : Fin 16) (p : DftPacket)
  /-- TOKEN_END (17 R609). -/
  | tokenEnd (q : Fin 16) (p : DftPacket)
  /-- ENUM_STRAP_FALLBACK (17 R609). -/
  | enumStrapFallback
  /-- ADDRESS_RECLAIM (17 R610). -/
  | addressReclaim
  -- debug and test
  /-- VERIFY (19 R642). -/
  | verify (a : Actor) (v : Word)
  /-- VERIFY_COMPLETE (19 R642). -/
  | verifyComplete
  /-- LOCK (19 R643). -/
  | lock (a : Actor) (v : Word)
  /-- PERT_WRITE (19 R649). -/
  | pertWrite (a : Actor) (addr : BitVec 48) (v : Word)
  /-- INJ_ARM (19 R652). -/
  | injArm (a : Actor) (v : Word)
  /-- TAP_INSTRUCTION (19 R655). -/
  | tapInstruction (t : TapInstr)
  -- pins
  /-- RESET_ASSERT (20 R661). -/
  | resetAssert
  /-- RESET_RELEASE (20 R661): the straps read at that edge. -/
  | resetRelease (straps : BitVec 7)
  /-- POWER_LOSS (20 R665). -/
  | powerLoss
  /-- POWER_RESTORE (20 R664). -/
  | powerRestore
  /-- VIN_OVERVOLTAGE (20 R666). -/
  | vinOvervoltage
  /-- JUNCTION_SAMPLE (20 R670): one sensor of a die (selector of R31) reads `t` degrees. -/
  | junctionSample (k : Sensor) (sel : Fin 64) (t : Fin 256)
  /-- THERMTRIP_EXTERNAL (20 R672). -/
  | thermtripExternal
  /-- ALERT_HOLD_EXPIRE (20 R669). -/
  | alertHoldExpire (i : Fin 4)
  /-- PEER_SIG_WRITE (11 R439). -/
  | peerSigWrite (a : Actor) (d : Die) (k : Fin 1024) (v : Word)
  /-- AUTO_NEGOTIATION (11 R409). -/
  | autoNegotiation (p : EthPort)
  /-- STANDBY_ROOT_LOST (16 R572). -/
  | standbyRootLost
  /-- THERMTRIP_EXTERNAL_RELEASE (20 R672). -/
  | thermtripExternalRelease
  /-- CREDIT_HOLD_END (19 R648). -/
  | creditHoldEnd (w : CreditHolder)
  /-- FILTERED_LINE_CHANGE (13 R495): the raw line of a filtered source holds `level`. -/
  | filteredLineChange (ic : IcId) (s : Fin 1024) (level : Bool)
  deriving DecidableEq, Repr

end Sys2Proof
end

