-- ==== Sys2Proof/Decode.lean ====
section
/-! DEFINITION. The V4 is modelled as a block that takes commands; spec/opcode_table.json gives no row any bits, so no word spells a command. -/
namespace Sys2Proof

/-- The command a word of `nbits` bits spells by the opcode table's bits: none, since no row of the table gives any. -/
def decodeTableWord (nbits w : Nat) : Option Instr := match nbits, w with | _, _ => none

end Sys2Proof
end

