-- ==== Sys2Proof/Config.lean ====
section
/-! DEFINITION. What the manual leaves open: each constant is opaque (no body), so a statement about a value it gives holds
whatever the value is. Each names the rule that leaves the value open and its entry of the assumption log. -/
namespace Sys2Proof.Config

/-- DESIGN CHOICE (log 3): the data of a 256-bit word read with three or more symbols in error, or of an uncorrectable word, by row, word and number of the read
(05 R187: the device may detect, miss or miscorrect). -/
opaque eccData : Nat → Nat → Nat → BitVec 256

/-- DESIGN CHOICE (log 3): whether a word with three or more symbols in error is detected (05 R187). -/
opaque eccDetects : Nat → Nat → Nat → Bool

/-- DESIGN CHOICE (log 3): the 32 check bits of a 256-bit word (05 R187): the manual gives the code's strength and not its symbols. -/
opaque eccCheck : BitVec 256 → BitVec 32

/-- DESIGN CHOICE (log 4): the result of a function that 02 R60 or 10 R381 bounds and does not round, by function code and operands; the use holds it to the bound. -/
opaque approx : Nat → F32 → F32 → F32

/-- DESIGN CHOICE (log 4): the result of such a function where the manual states none (a zero divisor, an infinite operand, a root or logarithm of a number not above zero, an exact result beyond the format), by function code and operands (02 R60). -/
opaque cornerFun : Nat → F32 → F32 → F32

/-- DESIGN CHOICE (log 4): whether min or max of zeros of unlike sign is its first operand, by function code and operands (02 R60). -/
opaque zeroPick : Nat → F32 → F32 → Bool

/-- DESIGN CHOICE (log 6): a power of an FP32 base, in a Welt unit (09 R352); the use holds it to the bound. -/
opaque power : F32 → Nat → F32

/-- DESIGN CHOICE (log 17): the activation count at which a controller issues refresh management to a bank, by controller: it stands in the mode registers of the DRAM (07 R300). -/
opaque refreshAfter : Nat → Nat

/-- DESIGN CHOICE (log 20): the rows a link buffer of a class holds beyond one, by die selector, port and class (01 R23). -/
opaque linkRoom : Nat → Nat → Nat → Nat

/-- DESIGN CHOICE (log 20): the failed wires of a link's receive direction that its training finds, by die selector, port and start number (01 R24). -/
opaque wiresFailed : Nat → Nat → Nat → List Nat

/-- DESIGN CHOICE (log 7): a word nothing in the manual gives, by the count of such words so far. -/
opaque freeWord : Nat → Word

/-- DESIGN CHOICE (log 17): what a crossing takes beyond its least in arbitrary-ratio mode, by the cycle and a number of the crossing; the manual gives the range. -/
opaque ratioExtra : Nat → Nat → Nat

/-- DESIGN CHOICE (log 35): whether host-class core k waits for an interrupt in a cycle, as the program it runs decides. -/
opaque hcWaits : Nat → Nat → Bool

/-- DESIGN CHOICE (log 33): the token identifiers that the service's sampler chooses for a sequence, by a number that stands for its logits and by the random values drawn for its positions (12 R476, R477). -/
opaque rolloutTokens : Nat → List Word → List Byte

/-- DESIGN CHOICE (log 7): a byte nothing in the manual gives, by the count of such reads so far and position. -/
opaque freeByte : Nat → Nat → Byte

/-- PRESUMED (log 8): SHAKE256 of a byte string, first 64 bytes, by the published standard. -/
opaque shake512 : List Byte → List Byte

/-- PRESUMED (log 8): whether a signature of the published scheme verifies, by public key digest and message. -/
opaque sigOk : List Byte → List Byte → Bool

/-- PRESUMED (log 8): SHAKE256 of a byte string, first 72 bytes (14 R510). -/
opaque shake576 : List Byte → List Byte

/-- PRESUMED (log 8): the ciphertext of a HELLO reply, by the encapsulation key and the count of free values so far (14 R509). -/
opaque kemCipher : List Byte → Nat → List Byte

/-- PRESUMED (log 8): the shared secret that such a ciphertext carries (14 R510). -/
opaque kemSecret : List Byte → Nat → List Byte

/-- PRESUMED (log 8): a signature of the unit's identity key over a message (17 R600, R601). -/
opaque sign : List Byte → List Byte

/-- PRESUMED (log 8): AES-256-GCM (14 R511): the ciphertext and then the tag, by key, nonce, associated data and clear bytes. -/
opaque gcmSeal : List Byte → List Byte → List Byte → List Byte → List Byte

/-- PRESUMED (log 8): whether the key of a digest made a signature over a message (14 R509). -/
opaque authSig : List Byte → List Byte → List Byte → Bool

/-- PRESUMED (log 8): the digest of the chosen SETTINGS contents, whose layout the manual does not give, by those contents as numbers (17 R601 CONFIG_DIGEST). -/
opaque settingsDigest : List Nat → List Byte

/-- DESIGN CHOICE (log 21): the unit's identity public key, derived from the fused seed (17 R600). -/
opaque identityKey : List Byte

/-- DESIGN CHOICE (log 21): the boot ROM's version (17 R601 ROM_VERSION). -/
opaque romVersion : BitVec 32

/-- DESIGN CHOICE (log 21): the fused minimum security version (17 R589). -/
opaque minSecurity : BitVec 32

/-- DESIGN CHOICE (log 21): the signer digest fused into the service dies (17 R589). -/
opaque signerDigest : List Byte

/-- DESIGN CHOICE (log 21): the debug signer digest fused into the service dies (19 R642). -/
opaque debugSigner : List Byte

/-- DESIGN CHOICE (log 21): the fused MAC address of a host port (14 R508 HP_MAC). -/
opaque portMac : Nat → BitVec 48

end Sys2Proof.Config
end

