-- ==== Sys2Proof/Machine/Bits.lean ====
section
/-! DEFINITION. Bit fields, byte order and small arithmetic shared by every unit (00 R6, R7). -/
namespace Sys2Proof.Machine

/-- Bits hi..lo of a number (00 R6: a field hi:lo occupies both ends). -/
def bits (w : Nat) (hi lo : Nat) : Nat := w / 2 ^ lo % 2 ^ (hi + 1 - lo)

/-- Bit `k` of a number. -/
def bitAt (w k : Nat) : Bool := w / 2 ^ k % 2 == 1

/-- `w` with bits hi..lo replaced by the low bits of `v`: above them what `w` has there, below them its low bits. -/
def setBits (w : Nat) (hi lo v : Nat) : Nat :=
  2 ^ lo * (2 ^ (hi + 1 - lo) * (w / 2 ^ lo / 2 ^ (hi + 1 - lo)) + v % 2 ^ (hi + 1 - lo)) + w % 2 ^ lo

/-- `w` with bit `k` at `b`. -/
def setBit (w k : Nat) (b : Bool) : Nat := setBits w k k (if b then 1 else 0)

/-- 1 for true, 0 for false: a one-bit field. -/
def flag (b : Bool) : Nat := if b then 1 else 0

/-- Round a quotient up. -/
def ceilDiv (a b : Nat) : Nat := (a + b - 1) / b

/-- A saturating count of `w` bits (every counter that names a maximum). -/
def satAdd (w a b : Nat) : Nat := min (a + b) (2 ^ w - 1)

/-- The number a little-endian byte list holds (00 R7). -/
def leNat : List Byte → Nat
  | [] => 0
  | b :: l => b.toNat + 256 * leNat l

/-- `n` little-endian bytes of a number (00 R7). -/
def leBytes : Nat → Nat → List Byte
  | 0, _ => []
  | n + 1, w => BitVec.ofNat 8 w :: leBytes n (w / 256)

/-- The number a big-endian byte list holds (14 R515). -/
def beNat (l : List Byte) : Nat := leNat l.reverse

/-- `n` big-endian bytes of a number (14 R515). -/
def beBytes (n w : Nat) : List Byte := (leBytes n w).reverse

/-- A difference of two free-running 32-bit counts, as a signed value (04 R155). -/
def diff32 (a b : Nat) : Int :=
  let d : Nat := (a + 2 ^ 32 - b % 2 ^ 32) % 2 ^ 32
  if d < 2 ^ 31 then (d : Int) else (d : Int) - 2 ^ 32

/-- floor of the base-2 logarithm, 0 of 0. -/
def log2 (n : Nat) : Nat := Nat.log2 n

/-- The mixing step of the counter-based generator (18 R620). -/
def mix64 (z : BitVec 64) : BitVec 64 :=
  let z := (z ^^^ (z >>> 30)) * 0xBF58476D1CE4E5B9#64
  let z := (z ^^^ (z >>> 27)) * 0x94D049BB133111EB#64
  z ^^^ (z >>> 31)

/-- A draw of the counter-based generator from a seed, a domain and three 32-bit keys (18 R620). -/
def rngDraw (seed : Word) (domain k1 k2 k3 : Nat) : Word :=
  let x := mix64 (seed ^^^ (BitVec.ofNat 64 (domain * 2 ^ 56) + BitVec.ofNat 64 k1))
  let x := mix64 (x ^^^ (BitVec.ofNat 64 (k2 * 2 ^ 32) + BitVec.ofNat 64 k3))
  mix64 x

/-- A draw with a 64-bit index j: K3 takes its low half, and its high half shifts K2 (18 R621). -/
def rngIndexed (seed : Word) (domain k1 k2 j : Nat) : Word :=
  rngDraw seed domain k1 ((k2 + j / 2 ^ 32 * 2 ^ 12) % 2 ^ 32) (j % 2 ^ 32)

/-- The 16-bit value of a draw (18 R620). -/
def rng16 (w : Word) : Nat := bits w.toNat 63 48

end Sys2Proof.Machine
end

