-- ==== Sys2Proof/Machine/Exact.lean ====
section
/-! DEFINITION. The real functions the manual names with an error bound (02 R60, 09 R352, 10 R381), as fixed-point numbers of 640 fractional bits: what a result is held to the bound against.
Every value here lies far closer to the real one than any FP32 result can lie to the edge of its bound. -/
namespace Sys2Proof.Machine

/-- Fractional bits of a fixed-point number. -/
def fxBits : Nat := 640

/-- One. -/
def fxOne : Int := 2 ^ 640

/-- The product of two fixed-point numbers. -/
def fxMul (a b : Int) : Int := a * b / 2 ^ 640

/-- The quotient of two fixed-point numbers. -/
def fxDiv (a b : Int) : Int := a * 2 ^ 640 / b

/-- m times 2 to the e. -/
def fxOf (m : Nat) (e : Int) : Int := if -640 ≤ e then (m : Int) * 2 ^ (e + 640).toNat else (m : Int) / 2 ^ (-(e + 640)).toNat

/-- The natural logarithm of 2. -/
def fxLn2 : Int := 0xb17217f7d1cf79abc9e3b39803f2f6af40f343267298b62d8a0d175b8baafa2be7b876206debac98559552fb4afa1b10ed2eae35c138214427573b291169b8253e96ca16224ae8c51acbda11317c387e

/-- The circle constant. -/
def fxPi : Int := 0x3243f6a8885a308d313198a2e03707344a4093822299f31d0082efa98ec4e6c89452821e638d01377be5466cf34e90c6cc0ac29b7c97c50dd3f84d5b5b54709179216d5d98979fb1bd1310ba698dfb5ac

/-- 2 over the square root of the circle constant. -/
def fxTwoOverRootPi : Int := 0x120dd750429b6d11ae3a914fed7fd8688281341d7587cea2e7342b06199cc416180eb39f0b24e1e2281806c12d98f35d77a3e9ddc91c394f0e9eedf0efffd84a2a4ac3b98489b8cbd3845e8fef6ff6af9

/-- The terms of the exponential series from the k-th on. -/
def expTail : Nat → Nat → Int → Int → Int
  | 0, _, _, _ => 0
  | n + 1, k, t, r => t + expTail n (k + 1) (fxMul t r / k) r

/-- exp of r, for r from 0 up to the logarithm of 2. -/
def expSmall (r : Int) : Int := expTail 130 1 fxOne r

/-- exp of x as a mantissa and the power of two it is scaled by. -/
def expParts (x : Int) : Nat × Int := ((expSmall (x - x / fxLn2 * fxLn2)).toNat, x / fxLn2)

/-- exp of x, as a fixed-point number. -/
def fxExp (x : Int) : Int :=
  let p := expParts x
  if 0 ≤ p.2 then (p.1 : Int) * 2 ^ p.2.toNat else (p.1 : Int) / 2 ^ (min 2000 (-p.2)).toNat

/-- The terms of the series of the inverse hyperbolic tangent from degree k on. -/
def atanhTail : Nat → Nat → Int → Int → Int
  | 0, _, _, _ => 0
  | n + 1, k, t, z => t / k + atanhTail n (k + 2) (fxMul t z) z

/-- The natural logarithm of m over 2 to its own exponent, a number from 1 up to 2. -/
def lnMantissa (m : Nat) : Int :=
  let f := fxOf m (-(log2 m : Int))
  let z := fxDiv (f - fxOne) (f + fxOne)
  2 * atanhTail 210 1 z (fxMul z z)

/-- The natural logarithm of m times 2 to the e, m above 0. -/
def fxLn (m : Nat) (e : Int) : Int := ((log2 m : Int) + e) * fxLn2 + lnMantissa m

/-- The base-2 logarithm of m times 2 to the e, m above 0. -/
def fxLog2 (m : Nat) (e : Int) : Int := ((log2 m : Int) + e) * fxOne + fxDiv (lnMantissa m) fxLn2

/-- exp of -x, x not below 0, and never 0. -/
def fxExpNeg (x : Int) : Int := max 1 (fxExp (-(min x (1000 * fxOne))))

/-- tanh of x, x not below 0. -/
def fxTanh (x : Int) : Int :=
  let u := fxExpNeg (2 * x)
  fxDiv (fxOne - u) (fxOne + u)

/-- The logistic sigmoid of x. -/
def fxSigmoid (x : Int) : Int :=
  if 0 ≤ x then fxDiv fxOne (fxOne + fxExpNeg x)
  else
    let u := fxExpNeg (-x)
    fxDiv u (fxOne + u)

/-- The terms of the all-positive series of erf from the n-th on, t the term and y twice the square of the argument. -/
def erfTail : Nat → Nat → Int → Int → Int
  | 0, _, _, _ => 0
  | n + 1, k, t, y => t + erfTail n (k + 2) (fxMul t y / (k + 2)) y

/-- erf of x, x not below 0; from 8 on it differs from 1 by less than 2 to the -90. -/
def fxErf (x : Int) : Int :=
  if 8 * fxOne ≤ x then fxOne - 2 ^ 540
  else fxMul (fxMul (erfTail 480 1 x (2 * fxMul x x)) (fxExpNeg (fxMul x x))) fxTwoOverRootPi

/-- The terms of the alternating series of sine and cosine: t the term of degree k - 1, y the square of the argument. -/
def circleTail : Nat → Nat → Int → Int → Int
  | 0, _, _, _ => 0
  | n + 1, k, t, y => t - circleTail n (k + 2) (fxMul t y / (k * (k + 1))) y

/-- cos of x (10 R381: reduced modulo twice the circle constant). -/
def fxCos (x : Int) : Int :=
  let r := x % (2 * fxPi)
  circleTail 100 1 fxOne (fxMul r r)

/-- sin of x. -/
def fxSin (x : Int) : Int :=
  let r := x % (2 * fxPi)
  circleTail 100 2 r (fxMul r r)

end Sys2Proof.Machine
end

