-- ==== Sys2Proof/Machine/Table.lean ====
section
/-! DEFINITION. Sparse tables in canonical order, used for register files, cores, channels and every other indexed state. -/
namespace Sys2Proof.Machine

/-- The value listed at key `k`. -/
def tget? {α : Type} : Tab α → Nat → Option α
  | [], _ => none
  | (j, v) :: t, k => if j = k then some v else tget? t k

/-- The value at key `k`, or `d` where none is listed. -/
def tget {α : Type} (d : α) (t : Tab α) (k : Nat) : α := (tget? t k).getD d

/-- The table with `v` at key `k`, keys still rising. -/
def tset {α : Type} : Tab α → Nat → α → Tab α
  | [], k, v => [(k, v)]
  | (j, w) :: t, k, v => if k < j then (k, v) :: (j, w) :: t else if j = k then (k, v) :: t else (j, w) :: tset t k v

/-- The table without key `k`. -/
def tdel {α : Type} (t : Tab α) (k : Nat) : Tab α := t.filter (fun p => p.1 != k)

/-- A rising list of numbers with `k` in it. -/
def sins : List Nat → Nat → List Nat
  | [], k => [k]
  | j :: l, k => if k < j then k :: j :: l else if j = k then j :: l else j :: sins l k

/-- A rising list of numbers without `k`. -/
def sdel (l : List Nat) (k : Nat) : List Nat := l.filter (· != k)

/-- `f` applied n times, with the index of each time. -/
def iter {α : Type} : Nat → (Nat → α → α) → α → α
  | 0, _, a => a
  | n + 1, f, a => f n (iter n f a)

/-- The first index below `n` with `p`. -/
def findIdx (p : Nat → Bool) (n : Nat) : Option Nat := (List.range n).find? p

end Sys2Proof.Machine
end

