-- ==== Sys2Proof/Machine/Fp.lean ====
section
/-! DEFINITION. Number formats, rounding and accumulation (02): exact values, their encodings, FP32 arithmetic, conversion
with its events, MX blocks, and the sum of one pass. -/
namespace Sys2Proof.Machine

/-- The exact value of an element: NaN, an infinity, or a signed dyadic number (sign, m, e) of magnitude m times 2 to the e. -/
inductive FVal where
  | nan
  | inf (neg : Bool)
  | fin (neg : Bool) (m : Nat) (e : Int)
  deriving DecidableEq, Repr

/-- How the codes of a format mean (02 R38, R41): with infinities and NaN, with NaN only, finite only, or integers. -/
inductive FmtKind where
  | ieee | e4m3 | finite | int
  deriving DecidableEq, Repr

/-- A format of 02 R38: element bits, exponent and mantissa bits, bias, kind, whether it is an MX format, and for integers the
power of two that the code counts. -/
structure Fmt where
  width : Nat
  ebits : Nat
  mbits : Nat
  bias : Nat
  kind : FmtKind
  mx : Bool
  step : Int
  deriving DecidableEq, Repr

/-- The formats by FORMAT code (02 R38); codes 0xD-0xF name none (R39). -/
def fmtOf : Nat → Option Fmt
  | 0x0 => some ⟨32, 8, 23, 127, .ieee, false, 0⟩
  | 0x1 => some ⟨16, 8, 7, 127, .ieee, false, 0⟩
  | 0x2 => some ⟨16, 5, 10, 15, .ieee, false, 0⟩
  | 0x3 => some ⟨8, 4, 3, 7, .e4m3, false, 0⟩
  | 0x4 => some ⟨8, 5, 2, 15, .ieee, false, 0⟩
  | 0x5 => some ⟨8, 4, 3, 7, .e4m3, true, 0⟩
  | 0x6 => some ⟨8, 5, 2, 15, .ieee, true, 0⟩
  | 0x7 => some ⟨6, 3, 2, 3, .finite, true, 0⟩
  | 0x8 => some ⟨6, 2, 3, 1, .finite, true, 0⟩
  | 0x9 => some ⟨4, 2, 1, 1, .finite, true, 0⟩
  | 0xA => some ⟨8, 0, 0, 0, .int, true, -6⟩
  | 0xB => some ⟨8, 0, 0, 0, .int, false, 0⟩
  | 0xC => some ⟨4, 0, 0, 0, .int, false, 0⟩
  | _ => none

/-- FP32 (code 0x0). -/
def fmt32 : Fmt := ⟨32, 8, 23, 127, .ieee, false, 0⟩

/-- BF16 (code 0x1). -/
def fmtBf16 : Fmt := ⟨16, 8, 7, 127, .ieee, false, 0⟩

/-- Element bits of a FORMAT code, 0 for a code that names none. -/
def fmtWidth (c : Nat) : Nat := ((fmtOf c).map (·.width)).getD 0

/-- Whether a FORMAT code is an MX format (02 R38). -/
def fmtMx (c : Nat) : Bool := ((fmtOf c).map (·.mx)).getD false

/-- 2 to an integer power, as a multiplier of a dyadic number. -/
def FVal.scale (v : FVal) (k : Int) : FVal :=
  match v with
  | .fin n m e => .fin n m (e + k)
  | w => w

/-- The value of an element code (02 R38, R40, R41). -/
def decodeVal (f : Fmt) (code : Nat) : FVal :=
  match f.kind with
  | .int =>
    let h := 2 ^ (f.width - 1)
    let c := code % 2 ^ f.width
    if c < h then .fin false c f.step else .fin true (2 ^ f.width - c) f.step
  | k =>
    let neg := bitAt code (f.width - 1)
    let ex := bits code (f.width - 2) f.mbits
    let ma := code % 2 ^ f.mbits
    let top := 2 ^ f.ebits - 1
    if k == .ieee && ex == top then (if ma == 0 then .inf neg else .nan)
    else if k == .e4m3 && ex == top && ma == 7 then .nan
    else if ex == 0 then .fin neg ma (1 - (f.bias : Int) - f.mbits)
    else .fin neg (2 ^ f.mbits + ma) ((ex : Int) - f.bias - f.mbits)

/-- The FP32 value of a word. -/
def val32 (x : F32) : FVal := decodeVal fmt32 x.toNat

/-- The canonical NaN of FP32 (02 R59). -/
def nan32 : F32 := 0x7FC00000#32

/-- The largest code of a finite magnitude of a floating-point format. -/
def maxCode (f : Fmt) : Nat :=
  match f.kind with
  | .ieee => (2 ^ f.ebits - 1) * 2 ^ f.mbits - 1
  | .e4m3 => 2 ^ (f.width - 1) - 2
  | _ => 2 ^ (f.width - 1) - 1

/-- m times 2 to the e as a count of units of 2 to the q, rounded to nearest even. -/
def roundRne (m : Nat) (e q : Int) : Nat :=
  if q ≤ e then m * 2 ^ (e - q).toNat
  else
    let sh := (q - e).toNat
    let n := m / 2 ^ sh
    let r := m % 2 ^ sh * 2
    if r < 2 ^ sh then n else if r = 2 ^ sh then n + n % 2 else n + 1

/-- m times 2 to the e as a count of units of 2 to the q, rounded down. -/
def roundDown (m : Nat) (e q : Int) : Nat :=
  if q ≤ e then m * 2 ^ (e - q).toNat else m / 2 ^ (q - e).toNat

/-- floor of log2 of m times 2 to the e. -/
def expOf (m : Nat) (e : Int) : Int := (log2 m : Int) + e

/-- The quantum exponent of a non-zero magnitude in a floating-point format: one unit in the last place, subnormals included (02 R40). -/
def quantum (f : Fmt) (m : Nat) (e : Int) : Int := max (expOf m e) (1 - (f.bias : Int)) - f.mbits

/-- The magnitude code of `n` units of the quantum of (m, e) in a floating-point format. -/
def codeOf (f : Fmt) (m : Nat) (e : Int) (n : Nat) : Nat :=
  ((max (expOf m e) (1 - (f.bias : Int)) + f.bias - 1).toNat) * 2 ^ f.mbits + n

/-- The code with a sign. -/
def withSign (f : Fmt) (neg : Bool) (c : Nat) : Nat := if neg then 2 ^ (f.width - 1) + c else c

/-- An exact value as FP32, rounded to nearest even once (02 R48, R49, R60). -/
def to32 (v : FVal) : F32 :=
  match v with
  | .nan => nan32
  | .inf n => BitVec.ofNat 32 (withSign fmt32 n 0x7F800000)
  | .fin n 0 _ => BitVec.ofNat 32 (withSign fmt32 n 0)
  | .fin n m e =>
    let c := codeOf fmt32 m e (roundRne m e (quantum fmt32 m e))
    BitVec.ofNat 32 (withSign fmt32 n (min c 0x7F800000))

/-- The exact sum of two values (02 R58): opposite infinities give NaN, and an exact zero sum of unequal signs is +0. -/
def FVal.add : FVal → FVal → FVal
  | .nan, _ => .nan
  | _, .nan => .nan
  | .inf a, .inf b => if a = b then .inf a else .nan
  | .inf a, _ => .inf a
  | _, .inf b => .inf b
  | .fin na ma ea, .fin nb mb eb =>
    let e := min ea eb
    let a := ma * 2 ^ (ea - e).toNat
    let b := mb * 2 ^ (eb - e).toNat
    if na = nb then .fin na (a + b) e
    else if b ≤ a then .fin (if a = b then false else na) (a - b) e
    else .fin nb (b - a) e

/-- The negated value. -/
def FVal.neg : FVal → FVal
  | .nan => .nan
  | .inf n => .inf (!n)
  | .fin n m e => .fin (!n) m e

/-- The exact product (02 R58): infinity times zero gives NaN. -/
def FVal.mul : FVal → FVal → FVal
  | .nan, _ => .nan
  | _, .nan => .nan
  | .inf a, .inf b => .inf (a != b)
  | .inf a, .fin b m _ => if m = 0 then .nan else .inf (a != b)
  | .fin a m _, .inf b => if m = 0 then .nan else .inf (a != b)
  | .fin na ma ea, .fin nb mb eb => .fin (na != nb) (ma * mb) (ea + eb)

/-- Whether a value is NaN. -/
def FVal.isNan : FVal → Bool
  | .nan => true
  | _ => false

/-- Whether a < b, false when either is NaN (04 R123). -/
def FVal.lt : FVal → FVal → Bool
  | .nan, _ => false
  | _, .nan => false
  | .inf a, .inf b => a && !b
  | .inf a, .fin .. => a
  | .fin .., .inf b => !b
  | .fin na ma ea, .fin nb mb eb =>
    let e := min ea eb
    let a := ma * 2 ^ (ea - e).toNat
    let b := mb * 2 ^ (eb - e).toNat
    if na then (if nb then b < a else !(a == 0 && b == 0)) else (if nb then false else a < b)

/-- FP32 addition, rounded to nearest even (02 R49, R60). -/
def add32 (a b : F32) : F32 := to32 ((val32 a).add (val32 b))

/-- FP32 subtraction. -/
def sub32 (a b : F32) : F32 := to32 ((val32 a).add (val32 b).neg)

/-- FP32 multiplication. -/
def mul32 (a b : F32) : F32 := to32 ((val32 a).mul (val32 b))

/-- FP32 fused multiply-add a times b plus d, rounded once. -/
def fma32 (a b d : F32) : F32 := to32 (((val32 a).mul (val32 b)).add (val32 d))

/-- The negated FP32 value; NaN stays the canonical NaN (02 R59). -/
def neg32 (a : F32) : F32 := to32 (val32 a).neg

/-- Whether both operands are zeros of unlike sign. -/
def unlikeZeros (a b : F32) : Bool := a.toNat % 2 ^ 31 == 0 && b.toNat % 2 ^ 31 == 0 && a != b

/-- min of a and b; NaN where either is NaN (02 R58); of zeros of unlike sign the manual does not say which. -/
def min32 (a b : F32) : F32 :=
  if (val32 a).isNan || (val32 b).isNan then nan32
  else if unlikeZeros a b then (if Config.zeroPick 0x04 a b then a else b)
  else if (val32 b).lt (val32 a) then b else a

/-- max of a and b; NaN where either is NaN (02 R58); of zeros of unlike sign the manual does not say which. -/
def max32 (a b : F32) : F32 :=
  if (val32 a).isNan || (val32 b).isNan then nan32
  else if unlikeZeros a b then (if Config.zeroPick 0x05 a b then a else b)
  else if (val32 a).lt (val32 b) then b else a

/-- The FP32 one. -/
def one32 : F32 := 0x3F800000#32

/-- A small non-negative integer as FP32. -/
def ofNat32 (n : Nat) : F32 := to32 (.fin false n 0)

/-- A dyadic quotient a ÷ b with 64 extra bits and a sticky bit, enough for one correct rounding. -/
def divVal : FVal → FVal → FVal
  | .nan, _ => .nan
  | _, .nan => .nan
  | .inf _, .inf _ => .nan
  | .inf a, .fin b _ _ => .inf (a != b)
  | .fin a _ _, .inf b => .fin (a != b) 0 0
  | .fin na ma ea, .fin nb mb eb =>
    if mb = 0 then (if ma = 0 then .nan else .inf (na != nb))
    else
      let n := ma * 2 ^ 300
      .fin (na != nb) (2 * (n / mb) + (if n % mb = 0 then 0 else 1)) (ea - eb - 301)

/-- A dyadic square root with a sticky bit; NaN below zero, and the zero keeps its sign. -/
def sqrtVal : FVal → FVal
  | .nan => .nan
  | .inf n => if n then .nan else .inf false
  | .fin n m e =>
    if m = 0 then .fin n 0 0
    else if n then .nan
    else
      let (m', e') := if e % 2 = 0 then (m, e) else (2 * m, e - 1)
      let k := m' * 2 ^ 200
      let r := Nat.sqrt k
      .fin false (2 * r + (if r * r = k then 0 else 1)) (e' / 2 - 101)

/-- Whether a word is a zero, of either sign. -/
def isZero32 (a : F32) : Bool := a.toNat % 2 ^ 31 == 0

/-- Whether a word is an infinity. -/
def isInf32 (a : F32) : Bool := a.toNat % 2 ^ 31 == 0x7F800000

/-- A free word as a result: a NaN the device produces is the canonical one (02 R59). -/
def canon32 (a : F32) : F32 := if (val32 a).isNan then nan32 else a

/-- Whether a word's value lies within `tol` of an exact value. -/
def FVal.within (x : FVal) (tol : FVal) (r : F32) : Bool :=
  match (val32 r).add x.neg with
  | .fin _ m e => !tol.lt (.fin false m e)
  | _ => false

/-- The spacing of FP32 values at an exact value (02 R60). -/
def ulpOf (m : Nat) (e : Int) : FVal := .fin false 1 (if m = 0 then -149 else quantum fmt32 m e)

/-- A result within k units in the last place of an exact value: the free word r where it is one, else the exact value rounded to nearest even. Where the exact result is no finite number, or lies beyond the format, the manual states none. -/
def bounded (k : Nat) (x : FVal) (corner r : F32) : F32 :=
  match x with
  | .fin _ m e =>
    if isInf32 (to32 x) then canon32 corner
    else if x.within ((ulpOf m e).mul (.fin false k 0)) r then r else to32 x
  | _ => canon32 corner

/-- Division within 2 units in the last place (02 R60); NaN of NaN (02 R58); free where the manual states no result. -/
def div32 (a b : F32) : F32 :=
  if (val32 a).isNan || (val32 b).isNan then nan32
  else if isZero32 b || isInf32 a || isInf32 b then canon32 (Config.cornerFun 0x14 a b)
  else bounded 2 (divVal (val32 a) (val32 b)) (Config.cornerFun 0x14 a b) (Config.approx 0x14 a b)

/-- Reciprocal within 1 unit in the last place. -/
def recip32 (a : F32) : F32 :=
  if (val32 a).isNan then nan32
  else if isZero32 a || isInf32 a then canon32 (Config.cornerFun 0x08 a a)
  else bounded 1 (divVal (val32 one32) (val32 a)) (Config.cornerFun 0x08 a a) (Config.approx 0x08 a a)

/-- Square root within 1 unit in the last place. -/
def sqrt32 (a : F32) : F32 :=
  if (val32 a).isNan then nan32
  else if bitAt a.toNat 31 && !isZero32 a || isInf32 a then canon32 (Config.cornerFun 0x09 a a)
  else bounded 1 (sqrtVal (val32 a)) (Config.cornerFun 0x09 a a) (Config.approx 0x09 a a)

/-- Reciprocal square root within 1 unit in the last place. -/
def rsqrt32 (a : F32) : F32 :=
  if (val32 a).isNan then nan32
  else if isZero32 a || bitAt a.toNat 31 || isInf32 a then canon32 (Config.cornerFun 0x0A a a)
  else bounded 1 (divVal (val32 one32) (sqrtVal (val32 a))) (Config.cornerFun 0x0A a a) (Config.approx 0x0A a a)

/-- A fixed-point number as an exact value. -/
def ofFx (x : Int) : FVal := .fin (x < 0) x.natAbs (-640)

/-- exp of a fixed-point number as an exact value; beyond 2 to the ±1000 it is taken there. -/
def expVal (x : Int) : FVal :=
  let p := expParts x
  .fin false p.1 (max (-1640) (min 1640 (p.2 - 640)))

/-- The exact value of a function of 04 R123 at a finite number: none where the function has no real value there. -/
def exactFun (func : Nat) (neg : Bool) (m : Nat) (e : Int) : FVal :=
  let a := fxOf m e
  let x := if neg then -a else a
  let c := max (-1000 * fxOne) (min (1000 * fxOne) x)
  match func with
  | 0x10 => expVal c
  | 0x11 => .fin false (expSmall (fxMul (c % fxOne) fxLn2)).toNat (c / fxOne - 640)
  | 0x12 => if neg || m = 0 then .nan else ofFx (fxLn m e)
  | 0x13 => if neg || m = 0 then .nan else ofFx (fxLog2 m e)
  | 0x15 => ofFx (if m = 0 then 0 else if neg then -(fxTanh a) else fxTanh a)
  | 0x16 => ofFx (fxSigmoid x)
  | _ => ofFx (if neg then -(fxErf a) else fxErf a)

/-- The bound of a function in units in the last place (02 R60). -/
def ulpBound (func : Nat) : Nat := if func == 0x15 || func == 0x16 then 3 else if func == 0x17 then 4 else 2

/-- exp, exp2, log, log2, tanh, sigmoid, erf (04 R123) within their bounds (02 R60): NaN of NaN (02 R58), free where the manual states no result. -/
def fun32 (func : Nat) (a : F32) : F32 :=
  match val32 a with
  | .nan => nan32
  | .inf _ => canon32 (Config.cornerFun func a a)
  | .fin n m e => bounded (ulpBound func) (exactFun func n m e) (Config.cornerFun func a a) (Config.approx func a a)

/-- cos (code 0x20) or sin (code 0x21) of an angle, within 2 to the -23 of exact (10 R381). -/
def circle32 (func : Nat) (a : F32) : F32 :=
  match val32 a with
  | .nan => nan32
  | .inf _ => canon32 (Config.cornerFun func a a)
  | .fin n m e =>
    let x := if n then -(fxOf m e) else fxOf m e
    let v := ofFx (if func == 0x20 then fxCos x else fxSin x)
    if v.within (.fin false 1 (-23)) (Config.approx func a a) then Config.approx func a a else to32 v

/-- The exact t-th power of a finite number; below 2 to the -1000 or above 2 to the 1000 it is taken there. -/
def powVal (neg : Bool) (m : Nat) (e : Int) (t : Nat) : FVal :=
  let n := neg && t % 2 == 1
  if t = 0 then .fin false 1 0
  else if m = 0 then .fin n 0 0
  else if t ≤ 32 then .fin n (m ^ t) (e * t)
  else
    let p := expParts (lnMantissa m * t)
    .fin n p.1 (max (-1640) (min 1640 (p.2 + ((log2 m : Int) + e) * t - 640)))

/-- A power within 4 units in the last place (09 R352), free where the manual states no result (log 6). -/
def pow32 (b : F32) (t : Nat) : F32 :=
  match val32 b with
  | .nan => nan32
  | .inf _ => canon32 (Config.power b t)
  | .fin n m e => bounded 4 (powVal n m e t) (Config.power b t) (Config.power b t)

/-- x times 2 to the s, rounded to nearest even where it falls below the subnormal range (02 R63). -/
def shift32 (x : F32) (s : Int) : F32 := to32 ((val32 x).scale s)

/-- Events of a conversion (02 R57): bit 0 SCALE_NAN, bit 1 OVF_NONFINITE, bit 2 OVF_SAT, bit 3 NAN_TO_INT. -/
structure Conv where
  code : Nat
  events : Nat
  deriving DecidableEq, Repr

/-- The magnitude in units of the quantum under ROUND.MODE: nearest even, or stochastic with the random 16 bits `u` (02 R52, R53). -/
def roundMag (stoch : Bool) (u m : Nat) (e q : Int) : Nat :=
  if stoch then (roundDown m e (q - 16) + u) / 2 ^ 16 else roundRne m e q

/-- The two's complement value in units of 2 to the q under ROUND.MODE (02 R53). -/
def roundInt (stoch : Bool) (u : Nat) (neg : Bool) (m : Nat) (e q : Int) : Int :=
  if stoch then
    let t := roundDown m e (q - 16)
    let exact : Bool := decide (q - 16 ≤ e) || m % 2 ^ (q - 16 - e).toNat == 0
    let t' : Int := if neg then (if exact then -(t : Int) else -(t : Int) - 1) else t
    Int.fdiv (t' + u) (2 ^ 16)
  else if neg then -(roundRne m e q : Int) else roundRne m e q

/-- The NaN code a destination writes (02 R59). -/
def nanCode (f : Fmt) : Nat :=
  match f.kind with
  | .ieee => if f.width = 8 then 0x7E else (2 ^ f.ebits - 1) * 2 ^ f.mbits + 2 ^ (f.mbits - 1)
  | .e4m3 => 0x7F
  | _ => 0

/-- What an overflow of a sign writes (02 R55), with its event; elements of the finite MX formats saturate under either SAT.
DESIGN CHOICE (log 37): an MXFP8 element (E4M3 or E5M2) that overflows under SAT 0 follows the table of 02 R55 and gives NaN or an infinity, where 02 R46 speaks of saturating. -/
def overflowCode (f : Fmt) (sat neg : Bool) : Conv :=
  if sat || f.kind == .finite then ⟨withSign f neg (maxCode f), 4⟩
  else match f.kind with
    | .ieee => ⟨withSign f neg (maxCode f + 1), 2⟩
    | _ => ⟨nanCode f, 2⟩

/-- An exact value converted to one element of a format under ROUND (mode, SAT) with the random bits `u` (02 R52-R56). `lim` is the smallest integer an
integer destination takes (-127 for MXINT8, R41). -/
def convVal (f : Fmt) (stoch sat : Bool) (u : Nat) (v : FVal) : Conv :=
  match f.kind with
  | .int =>
    let top : Int := 2 ^ (f.width - 1) - 1
    let low : Int := if f.mx then -top else -top - 1
    match v with
    | .nan => ⟨0, 8⟩
    | .inf n => ⟨(Int.toNat ((if n then low else top) % (2 ^ f.width : Int))), 4⟩
    | .fin n m e =>
      let r := roundInt stoch u n m e f.step
      let c := max low (min top r)
      ⟨Int.toNat (c % (2 ^ f.width : Int)), if c = r then 0 else 4⟩
  | k =>
    match v with
    | .nan => ⟨nanCode f, 0⟩
    | .inf n => if k == .ieee then ⟨withSign f n (maxCode f + 1), 0⟩ else overflowCode f sat n
    | .fin n m e =>
      if m = 0 then ⟨withSign f n 0, 0⟩
      else
        let c := codeOf f m e (roundMag stoch u m e (quantum f m e))
        if maxCode f < c then overflowCode f sat n else ⟨withSign f n c, 0⟩

/-- emax of an MX element format (02 R46). -/
def mxEmax (f : Fmt) : Int :=
  match f.kind with
  | .e4m3 => 8
  | .ieee => 15
  | .int => 0
  | .finite => if f.ebits = 3 then 4 else 2

/-- The magnitude comparison that finds amax of a block. -/
def magMax (a b : FVal) : FVal :=
  let pos : FVal → FVal := fun v => match v with | .fin _ m e => .fin false m e | .inf _ => .inf false | .nan => .nan
  if (pos a).lt (pos b) then pos b else pos a

/-- A block of values converted into an MX format: its scale byte, element codes and events (02 R46, R55, R57). -/
def convBlock (f : Fmt) (stoch sat : Bool) (us : List Nat) (vs : List FVal) : Nat × List Conv × Nat :=
  let bad := vs.any (fun v => match v with | .fin .. => false | _ => true)
  let amax := vs.foldl magMax (.fin false 0 0)
  if bad then (0xFF, vs.map (fun _ => ⟨0, 0⟩), 1)
  else match amax with
    | .fin _ 0 _ => (0, vs.map (fun _ => ⟨0, 0⟩), 0)
    | .fin _ m e =>
      let x := max (-127) (min 127 (expOf m e - mxEmax f))
      let cs := (vs.zip us).map (fun p => convVal f stoch sat p.2 (p.1.scale (-x)))
      ((x + 127).toNat, cs, (cs.foldl (fun a c => a ||| c.events) 0))
    | _ => (0xFF, vs.map (fun _ => ⟨0, 0⟩), 1)

/-- The FP32 value of an element with its block's scale byte (02 R42, R45). -/
def mxVal (f : Fmt) (scale code : Nat) : FVal :=
  if f.mx then (if scale = 0xFF then .nan else (decodeVal f code).scale ((scale : Int) - 127)) else decodeVal f code

/-- The sum of one pass over its products (02 R48): truncated to 2 to the (e_max - 32), summed exactly, rounded once; NaN and infinity by R58. -/
def passSum (ps : List FVal) : F32 :=
  if ps.any FVal.isNan then nan32
  else
    let pinf := ps.any (· == .inf false)
    let ninf := ps.any (· == .inf true)
    if pinf && ninf then nan32
    else if pinf then to32 (.inf false)
    else if ninf then to32 (.inf true)
    else
      let exps := ps.filterMap (fun v => match v with | .fin _ (m + 1) e => some (expOf (m + 1) e) | _ => none)
      match exps with
      | [] => 0#32
      | x :: xs =>
        let q := xs.foldl max x - 32
        let sum : Int := ps.foldl (fun a v => match v with
          | .fin n m e => if n then a - roundDown m e q else a + roundDown m e q
          | _ => a) 0
        to32 (.fin (sum < 0) sum.natAbs q)

/-- A value converted to FP32, exact but for the range of the format: an MX element above it overflows under SAT (02 R55, 04 R128). -/
def conv32 (sat : Bool) (v : FVal) : Conv := convVal fmt32 false sat 0 v

/-- The pass depth of an operand pair, either order (02 R47); none where the pair is not accepted. FP32 products are three BF16
passes, so an FP32 operand forms no pair (03 R75). -/
def pairDepth (a b : Nat) : Option Nat :=
  let c := fun x => if x == 0x1 then 0 else if x == 0x2 then 1 else if x == 0x3 || x == 0x4 then 2 else if x == 0x5 || x == 0x6 then 3
    else if x == 0x7 || x == 0x8 || x == 0x9 then 4 else if x == 0xA then 5 else if x == 0xB then 6 else if x == 0xC then 7 else 8
  match c a, c b with
  | 0, 0 => some 64
  | 1, 1 => some 64
  | 2, 2 => some 128
  | 3, 3 => some 128
  | 4, 4 => some 256
  | 3, 4 => some 128
  | 4, 3 => some 128
  | 5, 5 => some 128
  | 6, 6 => some 128
  | 6, 7 => some 128
  | 7, 6 => some 128
  | 7, 7 => some 256
  | _, _ => none

/-- The pass depth of a weight format paired with itself (03 R76), 64 for FP32. -/
def selfDepth (f : Nat) : Nat := (pairDepth f f).getD 64

/-- The split conversion (02 R62): hi and lo' as BF16 codes. DESIGN CHOICE (log 37): 02 R62 names round to nearest even alone, so ROUND of the BF16 descriptor is not used and SAT is taken as 0 when hi overflows. -/
def splitPair (a : F32) : Nat × Nat :=
  let hi := (convVal fmtBf16 false false 0 (val32 a)).code
  let rest := ((val32 a).add (decodeVal fmtBf16 hi).neg).scale 8
  (hi, (convVal fmtBf16 false false 0 rest).code)

/-- The sum of a list by the pairwise tree (02 R61), `n` levels over a list of 2^n. -/
def treeSum : Nat → List F32 → F32
  | 0, l => l.headD 0#32
  | n + 1, l =>
    let rec pair : List F32 → List F32
      | a :: b :: t => add32 a b :: pair t
      | [a] => [a]
      | [] => []
    treeSum n (pair l)

/-- A lane's partial of a row sum: its elements in ascending order, +0 for none (02 R61). -/
def laneSum (xs : List F32) : F32 :=
  match xs with
  | [] => 0#32
  | x :: t => t.foldl add32 x

/-- A row sum over 256 lanes and eight levels (02 R61). -/
def rowSum (xs : List F32) : F32 :=
  let lanes := (List.range 256).map (fun k => laneSum ((List.range (ceilDiv (xs.length - k) 256)).map (fun i => xs.getD (k + 256 * i) 0#32)))
  treeSum 8 lanes

/-- A row maximum (02 R61: exact); NaN where any element is NaN (02 R58). -/
def rowMax (xs : List F32) : F32 :=
  match xs with
  | [] => 0#32
  | x :: t => t.foldl max32 x

end Sys2Proof.Machine
end

