-- ==== Sys2Proof/Machine/Regs.lean ====
section
/-! DEFINITION. The register map of the V4: every register the manual names, where it lies (00 R29-R31 and each chapter's
offsets) and its fields with their access codes, ranges and reset values (00 R8, R10, R11). -/
namespace Sys2Proof.Machine

/-- The registers, by the manual's names. The words of a layer-table, group or hyperparameter entry of a Welt unit carry the
entry's name and the word's; the shared-memory counters of 05 R193 and their clear of R195 are SDM_ECC_CNT and SDM_ECC_CLR;
the word +0x08 of COLL_GROUP is COLL_MEMBERS; the rows and tags of a host FIFO (14 R527) are HP_FIFO_ROW and HP_FIFO_TAG. -/
inductive RegName where
  | LINK_STATUS | LINK_ERR_CNT | LINK_ERR_CLR | CORE_ID | CORE_STATUS | CORE_ECC_STALLS
  | CORE_FMT_EVENTS | CORE_DI_EVENT | CORE_DI_ROW | MA_MASK_ROW | MA_MASK_COL | CTX_TABLE
  | RING_BASE | RING_CFG | RING_PROD | RING_CONS | RING_DEPTH | RING_STATUS
  | RING_CTRL | RING_FAULT_AT | RING_KSTAT | RING_MARK | RING_PREFIX | RING_DUMP
  | SYNC_CYC_HDR | SYNC_CYC_ENT | ROW_ECC_CNT | SDM_ECC_CNT | ROW_ECC_CLR | SDM_ECC_CLR
  | SDM_WCACHE_CFG | SDM_WCACHE_STAT | SDM_PART | SDM_DI_EVENT | ASTK_CFG | ASTK_SPILL
  | ASTK_SPILL_ROWS | ASTK_TOP | ASTK_FLOOR | ASTK_STAT | ASTK_FCMD | ASTK_FSTAT
  | ASTK_FRAME | ASTK_FACCT | ASTK_FEXP | STRM_CH_STATUS | AWL_STATUS | TEMPER_CFG
  | MCQ_STAT | MCQ_CLR | MEMC_DI_EVENT | MEMC_ECC_CLR | HBM_SPARE | HBM_PDN_CTRL
  | HBM_PDN_STATUS | MEMC_THERM | MEMC_ECC_CNT | WELT_CMD | WELT_STATUS | WELT_FREEZE
  | WELT_GROUP_CFG | WELT_GROUP_CLIP | WELT_GROUP_PART | WELT_GROUP_RED | WELT_GROUP_NORM | WELT_HP_B1
  | WELT_HP_EPS | WELT_HP_WD | WELT_HP_LEASE | WELT_LAYER_SHAPE | WELT_LAYER_P | WELT_LAYER_G
  | WELT_LAYER_S1 | WELT_LAYER_S2 | WELT_LAYER_COPY | WELT_LAYER_XCH | WELT_LAYER_STATE | KVP_CFG
  | KVP_BASE | KVP_META | KVP_FREE | KVP_LIST | KVP_GO | KVP_STATUS
  | ATTN_STATUS | PEER_PORT_CFG | PEER_PORT_STATUS | PEER_PORT_ERR | PEER_PORT_CLR | FAB_CFG
  | FAB_PREFIX | FAB_COORD | FAB_VC | FAB_TMO | FAB_STAT | FAB_STAT_CLR
  | PEER_SIG | COLL_GROUP | COLL_MEMBERS | COLL_SUBMIT | COLL_STATUS | L3_RANGE_BASE
  | L3_RANGE_CTL | L3_RANGE_STATUS | L3_ECC_CNT | HC_BIND | HC_STATUS | HC_ECC_CNT
  | HC_DI_EVENT | EYE_MSG | EYE_STATUS | EYE_CFG | EYE_DB | EYE_DB_SET
  | EYE_DB_MASK | EYE_TXSUM | IC_CFG | IC_SWSET | IC_ENABLE | IC_PENDING
  | IC_ACTIVE | IC_SRC | IC_TGT_CFG | IC_CLAIM | IC_COMPLETE | IC_RING_NOTE
  | HP_CFG | HP_STATUS | HP_ERR | HP_CLR | HP_SEC | HP_MAC
  | HP_IPV4 | HP_IPV6_HI | HP_IPV6_LO | HP_FIFO_PTR | HP_FIFO_CTRL | HP_FIFO_STAT
  | HP_LAND_BASE | HP_LAND_ROWS | HP_LAND_PTR | HP_FIFO_ROW | HP_FIFO_TAG | LEASE_CFG
  | LEASE_SEED | TC_BIND | TC_SHARE | ACCT | CLK_CFG | CLK_MON_STATUS
  | CLK_CTRL | PWR_LIMIT | PWR_STATUS | PWR_ENERGY | START_STATUS | UNIT_ADDR
  | RAS_SPARE | RAS_CTRL | SNAP_STAGE | SNAP_POLICY | SNAP_STAT | SNAP_RESTORE
  | RNG_STEP | DBG_STATUS | DBG_CTRL | PERT_SEED | DBG_NONCE | INJ_LOC
  | INJ_CTRL | INJ_STATUS | DBG_TOKEN | PERT_XING | PERT_MEMLAT | PERT_LINKCR
  | PERT_CREDIT | PKG_PIN_STATUS | PKG_ALERT_CFG | PKG_TRIP
  deriving DecidableEq, Repr

/-- A register of the unit: its name, its die selector (01 R31) and its indices (the entry, then the word or sub-entry). -/
structure Reg where
  name : RegName
  sel : Nat
  i : Nat := 0
  j : Nat := 0
  deriving DecidableEq, Repr

/-- Which dies hold a register: compute dies, base dies, I/O dies, SV0, both service dies, link-bearing dies, the dies with
an interrupt controller, the I/O dies with a host port (01 R15-R17, R31; 13 R491; 14 R508). -/
inductive SelKind where
  | cd | hs | io | sv0 | sv | link | ic | hp
  deriving DecidableEq, Repr

/-- Where a register lies in its die's block: the offset of entry (0, 0), and the strides and counts of the two indices. -/
structure Layout where
  kind : SelKind
  base : Nat
  strideI : Nat := 0
  countI : Nat := 1
  strideJ : Nat := 0
  countJ : Nat := 1
  deriving DecidableEq, Repr

/-- The place of each register (each chapter's offset rules). -/
def RegName.layout : RegName → Layout
  | .LINK_STATUS => ⟨.link, 0x100000, 0x20, 4, 0x0, 1⟩
  | .LINK_ERR_CNT => ⟨.link, 0x100008, 0x20, 4, 0x0, 1⟩
  | .LINK_ERR_CLR => ⟨.link, 0x100010, 0x20, 4, 0x0, 1⟩
  | .CORE_ID => ⟨.cd, 0x1000000, 0x10000, 128, 0x0, 1⟩
  | .CORE_STATUS => ⟨.cd, 0x1000008, 0x10000, 128, 0x0, 1⟩
  | .CORE_ECC_STALLS => ⟨.cd, 0x1000010, 0x10000, 128, 0x0, 1⟩
  | .CORE_FMT_EVENTS => ⟨.cd, 0x1000018, 0x10000, 128, 0x0, 1⟩
  | .CORE_DI_EVENT => ⟨.cd, 0x1000020, 0x10000, 128, 0x0, 1⟩
  | .CORE_DI_ROW => ⟨.cd, 0x1000028, 0x10000, 128, 0x0, 1⟩
  | .MA_MASK_ROW => ⟨.cd, 0x1000100, 0x10000, 128, 0x8, 16⟩
  | .MA_MASK_COL => ⟨.cd, 0x1000180, 0x10000, 128, 0x8, 16⟩
  | .CTX_TABLE => ⟨.cd, 0x3000000, 0x8, 1024, 0x0, 1⟩
  | .RING_BASE => ⟨.cd, 0x2000000, 0x80, 16384, 0x0, 1⟩
  | .RING_CFG => ⟨.cd, 0x2000008, 0x80, 16384, 0x0, 1⟩
  | .RING_PROD => ⟨.cd, 0x2000010, 0x80, 16384, 0x0, 1⟩
  | .RING_CONS => ⟨.cd, 0x2000018, 0x80, 16384, 0x0, 1⟩
  | .RING_DEPTH => ⟨.cd, 0x2000020, 0x80, 16384, 0x0, 1⟩
  | .RING_STATUS => ⟨.cd, 0x2000028, 0x80, 16384, 0x0, 1⟩
  | .RING_CTRL => ⟨.cd, 0x2000030, 0x80, 16384, 0x0, 1⟩
  | .RING_FAULT_AT => ⟨.cd, 0x2000038, 0x80, 16384, 0x0, 1⟩
  | .RING_KSTAT => ⟨.cd, 0x2000040, 0x80, 16384, 0x0, 1⟩
  | .RING_MARK => ⟨.cd, 0x2000048, 0x80, 16384, 0x0, 1⟩
  | .RING_PREFIX => ⟨.cd, 0x2000050, 0x80, 16384, 0x0, 1⟩
  | .RING_DUMP => ⟨.cd, 0x2000058, 0x80, 16384, 0x0, 1⟩
  | .SYNC_CYC_HDR => ⟨.sv0, 0x400000, 0x0, 1, 0x0, 1⟩
  | .SYNC_CYC_ENT => ⟨.sv0, 0x400008, 0x8, 8, 0x0, 1⟩
  | .ROW_ECC_CNT => ⟨.cd, 0x4000000, 0x100, 128, 0x8, 22⟩
  | .SDM_ECC_CNT => ⟨.cd, 0x5000000, 0x8, 96, 0x0, 1⟩
  | .ROW_ECC_CLR => ⟨.cd, 0x40000F8, 0x100, 128, 0x0, 1⟩
  | .SDM_ECC_CLR => ⟨.cd, 0x5000300, 0x0, 1, 0x0, 1⟩
  | .SDM_WCACHE_CFG => ⟨.cd, 0x5000400, 0x0, 1, 0x0, 1⟩
  | .SDM_WCACHE_STAT => ⟨.cd, 0x5000408, 0x0, 1, 0x0, 1⟩
  | .SDM_PART => ⟨.cd, 0x5000500, 0x8, 32, 0x0, 1⟩
  | .SDM_DI_EVENT => ⟨.cd, 0x5000600, 0x0, 1, 0x0, 1⟩
  | .ASTK_CFG => ⟨.cd, 0x6000000, 0x40, 64, 0x0, 1⟩
  | .ASTK_SPILL => ⟨.cd, 0x6000008, 0x40, 64, 0x0, 1⟩
  | .ASTK_SPILL_ROWS => ⟨.cd, 0x6000010, 0x40, 64, 0x0, 1⟩
  | .ASTK_TOP => ⟨.cd, 0x6000018, 0x40, 64, 0x0, 1⟩
  | .ASTK_FLOOR => ⟨.cd, 0x6000020, 0x40, 64, 0x0, 1⟩
  | .ASTK_STAT => ⟨.cd, 0x6000028, 0x40, 64, 0x0, 1⟩
  | .ASTK_FCMD => ⟨.cd, 0x6100000, 0x400, 64, 0x0, 1⟩
  | .ASTK_FSTAT => ⟨.cd, 0x6100008, 0x400, 64, 0x0, 1⟩
  | .ASTK_FRAME => ⟨.cd, 0x6100100, 0x400, 64, 0x20, 16⟩
  | .ASTK_FACCT => ⟨.cd, 0x6100108, 0x400, 64, 0x20, 16⟩
  | .ASTK_FEXP => ⟨.cd, 0x6100110, 0x400, 64, 0x20, 16⟩
  | .STRM_CH_STATUS => ⟨.cd, 0x7000000, 0x100, 128, 0x8, 16⟩
  | .AWL_STATUS => ⟨.cd, 0x7000080, 0x100, 128, 0x0, 1⟩
  | .TEMPER_CFG => ⟨.cd, 0x7008000, 0x0, 1, 0x0, 1⟩
  | .MCQ_STAT => ⟨.cd, 0x7008100, 0x8, 6, 0x0, 1⟩
  | .MCQ_CLR => ⟨.cd, 0x7008180, 0x0, 1, 0x0, 1⟩
  | .MEMC_DI_EVENT => ⟨.cd, 0x8000000, 0x10000, 6, 0x0, 1⟩
  | .MEMC_ECC_CLR => ⟨.cd, 0x8000008, 0x10000, 6, 0x0, 1⟩
  | .HBM_SPARE => ⟨.cd, 0x8000010, 0x10000, 6, 0x0, 1⟩
  | .HBM_PDN_CTRL => ⟨.cd, 0x8000018, 0x10000, 6, 0x0, 1⟩
  | .HBM_PDN_STATUS => ⟨.cd, 0x8000020, 0x10000, 6, 0x0, 1⟩
  | .MEMC_THERM => ⟨.cd, 0x8000028, 0x10000, 6, 0x0, 1⟩
  | .MEMC_ECC_CNT => ⟨.cd, 0x8000100, 0x10000, 6, 0x8, 33⟩
  | .WELT_CMD => ⟨.hs, 0x0, 0x0, 1, 0x0, 1⟩
  | .WELT_STATUS => ⟨.hs, 0x8, 0x0, 1, 0x0, 1⟩
  | .WELT_FREEZE => ⟨.hs, 0x100, 0x8, 64, 0x0, 1⟩
  | .WELT_GROUP_CFG => ⟨.hs, 0x1000, 0x40, 128, 0x0, 1⟩
  | .WELT_GROUP_CLIP => ⟨.hs, 0x1008, 0x40, 128, 0x0, 1⟩
  | .WELT_GROUP_PART => ⟨.hs, 0x1010, 0x40, 128, 0x0, 1⟩
  | .WELT_GROUP_RED => ⟨.hs, 0x1018, 0x40, 128, 0x0, 1⟩
  | .WELT_GROUP_NORM => ⟨.hs, 0x1020, 0x40, 128, 0x0, 1⟩
  | .WELT_HP_B1 => ⟨.hs, 0x4000, 0x20, 64, 0x0, 1⟩
  | .WELT_HP_EPS => ⟨.hs, 0x4008, 0x20, 64, 0x0, 1⟩
  | .WELT_HP_WD => ⟨.hs, 0x4010, 0x20, 64, 0x0, 1⟩
  | .WELT_HP_LEASE => ⟨.hs, 0x4018, 0x20, 64, 0x0, 1⟩
  | .WELT_LAYER_SHAPE => ⟨.hs, 0x100000, 0x40, 4096, 0x0, 1⟩
  | .WELT_LAYER_P => ⟨.hs, 0x100008, 0x40, 4096, 0x0, 1⟩
  | .WELT_LAYER_G => ⟨.hs, 0x100010, 0x40, 4096, 0x0, 1⟩
  | .WELT_LAYER_S1 => ⟨.hs, 0x100018, 0x40, 4096, 0x0, 1⟩
  | .WELT_LAYER_S2 => ⟨.hs, 0x100020, 0x40, 4096, 0x0, 1⟩
  | .WELT_LAYER_COPY => ⟨.hs, 0x100028, 0x40, 4096, 0x0, 1⟩
  | .WELT_LAYER_XCH => ⟨.hs, 0x100030, 0x40, 4096, 0x0, 1⟩
  | .WELT_LAYER_STATE => ⟨.hs, 0x100038, 0x40, 4096, 0x0, 1⟩
  | .KVP_CFG => ⟨.cd, 0x9000000, 0x100, 16, 0x0, 1⟩
  | .KVP_BASE => ⟨.cd, 0x9000008, 0x100, 16, 0x0, 1⟩
  | .KVP_META => ⟨.cd, 0x9000010, 0x100, 16, 0x0, 1⟩
  | .KVP_FREE => ⟨.cd, 0x9000018, 0x100, 16, 0x0, 1⟩
  | .KVP_LIST => ⟨.cd, 0x9000020, 0x100, 16, 0x0, 1⟩
  | .KVP_GO => ⟨.cd, 0x9000028, 0x100, 16, 0x0, 1⟩
  | .KVP_STATUS => ⟨.cd, 0x9000030, 0x100, 16, 0x0, 1⟩
  | .ATTN_STATUS => ⟨.cd, 0x7100000, 0x8, 128, 0x0, 1⟩
  | .PEER_PORT_CFG => ⟨.io, 0x1000000, 0x1000, 4, 0x0, 1⟩
  | .PEER_PORT_STATUS => ⟨.io, 0x1000008, 0x1000, 4, 0x0, 1⟩
  | .PEER_PORT_ERR => ⟨.io, 0x1000010, 0x1000, 4, 0x0, 1⟩
  | .PEER_PORT_CLR => ⟨.io, 0x1000018, 0x1000, 4, 0x0, 1⟩
  | .FAB_CFG => ⟨.sv0, 0x500000, 0x0, 1, 0x0, 1⟩
  | .FAB_PREFIX => ⟨.sv0, 0x500008, 0x0, 1, 0x0, 1⟩
  | .FAB_COORD => ⟨.sv0, 0x600000, 0x8, 65536, 0x0, 1⟩
  | .FAB_VC => ⟨.sv0, 0x500100, 0x8, 8, 0x0, 1⟩
  | .FAB_TMO => ⟨.sv0, 0x500040, 0x0, 1, 0x0, 1⟩
  | .FAB_STAT => ⟨.sv0, 0x500048, 0x0, 1, 0x0, 1⟩
  | .FAB_STAT_CLR => ⟨.sv0, 0x500050, 0x0, 1, 0x0, 1⟩
  | .PEER_SIG => ⟨.cd, 0xA000000, 0x8, 1024, 0x0, 1⟩
  | .COLL_GROUP => ⟨.io, 0x2000000, 0x20, 64, 0x0, 1⟩
  | .COLL_MEMBERS => ⟨.io, 0x2000008, 0x20, 64, 0x0, 1⟩
  | .COLL_SUBMIT => ⟨.io, 0x2001000, 0x0, 1, 0x0, 1⟩
  | .COLL_STATUS => ⟨.io, 0x2001008, 0x0, 1, 0x0, 1⟩
  | .L3_RANGE_BASE => ⟨.cd, 0xC100000, 0x0, 1, 0x0, 1⟩
  | .L3_RANGE_CTL => ⟨.cd, 0xC100008, 0x0, 1, 0x0, 1⟩
  | .L3_RANGE_STATUS => ⟨.cd, 0xC100010, 0x0, 1, 0x0, 1⟩
  | .L3_ECC_CNT => ⟨.cd, 0xC100018, 0x0, 1, 0x0, 1⟩
  | .HC_BIND => ⟨.cd, 0xC000000, 0x100, 16, 0x0, 1⟩
  | .HC_STATUS => ⟨.cd, 0xC000008, 0x100, 16, 0x0, 1⟩
  | .HC_ECC_CNT => ⟨.cd, 0xC000010, 0x100, 16, 0x0, 1⟩
  | .HC_DI_EVENT => ⟨.cd, 0xC000018, 0x100, 16, 0x0, 1⟩
  | .EYE_MSG => ⟨.cd, 0xD000000, 0x80, 512, 0x8, 8⟩
  | .EYE_STATUS => ⟨.cd, 0xD000040, 0x80, 512, 0x0, 1⟩
  | .EYE_CFG => ⟨.cd, 0xD000048, 0x80, 512, 0x0, 1⟩
  | .EYE_DB => ⟨.cd, 0xD000050, 0x80, 512, 0x0, 1⟩
  | .EYE_DB_SET => ⟨.cd, 0xD000058, 0x80, 512, 0x0, 1⟩
  | .EYE_DB_MASK => ⟨.cd, 0xD000060, 0x80, 512, 0x0, 1⟩
  | .EYE_TXSUM => ⟨.cd, 0xD010000, 0x8, 64, 0x0, 1⟩
  | .IC_CFG => ⟨.ic, 0xE000000, 0x0, 1, 0x0, 1⟩
  | .IC_SWSET => ⟨.ic, 0xE000008, 0x0, 1, 0x0, 1⟩
  | .IC_ENABLE => ⟨.ic, 0xE000100, 0x8, 16, 0x0, 1⟩
  | .IC_PENDING => ⟨.ic, 0xE000200, 0x8, 16, 0x0, 1⟩
  | .IC_ACTIVE => ⟨.ic, 0xE000300, 0x8, 16, 0x0, 1⟩
  | .IC_SRC => ⟨.ic, 0xE001000, 0x8, 1024, 0x0, 1⟩
  | .IC_TGT_CFG => ⟨.ic, 0xE003000, 0x40, 16, 0x0, 1⟩
  | .IC_CLAIM => ⟨.ic, 0xE003008, 0x40, 16, 0x0, 1⟩
  | .IC_COMPLETE => ⟨.ic, 0xE003010, 0x40, 16, 0x0, 1⟩
  | .IC_RING_NOTE => ⟨.cd, 0xE004000, 0x8, 128, 0x0, 1⟩
  | .HP_CFG => ⟨.hp, 0x3000000, 0x0, 1, 0x0, 1⟩
  | .HP_STATUS => ⟨.hp, 0x3000008, 0x0, 1, 0x0, 1⟩
  | .HP_ERR => ⟨.hp, 0x3000010, 0x0, 1, 0x0, 1⟩
  | .HP_CLR => ⟨.hp, 0x3000018, 0x0, 1, 0x0, 1⟩
  | .HP_SEC => ⟨.hp, 0x3000020, 0x0, 1, 0x0, 1⟩
  | .HP_MAC => ⟨.hp, 0x3000028, 0x0, 1, 0x0, 1⟩
  | .HP_IPV4 => ⟨.hp, 0x3000030, 0x0, 1, 0x0, 1⟩
  | .HP_IPV6_HI => ⟨.hp, 0x3000038, 0x0, 1, 0x0, 1⟩
  | .HP_IPV6_LO => ⟨.hp, 0x3000040, 0x0, 1, 0x0, 1⟩
  | .HP_FIFO_PTR => ⟨.hp, 0x3000048, 0x0, 1, 0x0, 1⟩
  | .HP_FIFO_CTRL => ⟨.hp, 0x3000050, 0x0, 1, 0x0, 1⟩
  | .HP_FIFO_STAT => ⟨.hp, 0x3000058, 0x0, 1, 0x0, 1⟩
  | .HP_LAND_BASE => ⟨.hp, 0x3000060, 0x0, 1, 0x0, 1⟩
  | .HP_LAND_ROWS => ⟨.hp, 0x3000068, 0x0, 1, 0x0, 1⟩
  | .HP_LAND_PTR => ⟨.hp, 0x3000070, 0x0, 1, 0x0, 1⟩
  | .HP_FIFO_ROW => ⟨.hp, 0x3200000, 0x40, 4096, 0x8, 8⟩
  | .HP_FIFO_TAG => ⟨.hp, 0x3280000, 0x8, 4096, 0x0, 1⟩
  | .LEASE_CFG => ⟨.sv0, 0x700000, 0x10, 256, 0x0, 1⟩
  | .LEASE_SEED => ⟨.sv0, 0x700008, 0x10, 256, 0x0, 1⟩
  | .TC_BIND => ⟨.cd, 0xB000000, 0x10, 128, 0x0, 1⟩
  | .TC_SHARE => ⟨.cd, 0xB000008, 0x10, 128, 0x0, 1⟩
  | .ACCT => ⟨.sv0, 0x1000000, 0x200, 256, 0x8, 64⟩
  | .CLK_CFG => ⟨.sv0, 0x800000, 0x0, 1, 0x0, 1⟩
  | .CLK_MON_STATUS => ⟨.sv0, 0x800008, 0x0, 1, 0x0, 1⟩
  | .CLK_CTRL => ⟨.sv0, 0x800010, 0x0, 1, 0x0, 1⟩
  | .PWR_LIMIT => ⟨.sv0, 0x900000, 0x0, 1, 0x0, 1⟩
  | .PWR_STATUS => ⟨.sv0, 0x900008, 0x0, 1, 0x0, 1⟩
  | .PWR_ENERGY => ⟨.sv0, 0x900010, 0x0, 1, 0x0, 1⟩
  | .START_STATUS => ⟨.sv, 0xA00000, 0x0, 1, 0x0, 1⟩
  | .UNIT_ADDR => ⟨.sv, 0xA00008, 0x0, 1, 0x0, 1⟩
  | .RAS_SPARE => ⟨.sv0, 0xC00000, 0x8, 4, 0x0, 1⟩
  | .RAS_CTRL => ⟨.sv0, 0xC00040, 0x0, 1, 0x0, 1⟩
  | .SNAP_STAGE => ⟨.sv0, 0xB00000, 0x0, 1, 0x0, 1⟩
  | .SNAP_POLICY => ⟨.sv0, 0xB10000, 0x20, 256, 0x0, 1⟩
  | .SNAP_STAT => ⟨.sv0, 0xB10008, 0x20, 256, 0x0, 1⟩
  | .SNAP_RESTORE => ⟨.sv0, 0xB10010, 0x20, 256, 0x0, 1⟩
  | .RNG_STEP => ⟨.sv0, 0xB10018, 0x20, 256, 0x0, 1⟩
  | .DBG_STATUS => ⟨.sv0, 0xD00000, 0x0, 1, 0x0, 1⟩
  | .DBG_CTRL => ⟨.sv0, 0xD00008, 0x0, 1, 0x0, 1⟩
  | .PERT_SEED => ⟨.sv0, 0xD00010, 0x0, 1, 0x0, 1⟩
  | .DBG_NONCE => ⟨.sv0, 0xD00020, 0x8, 4, 0x0, 1⟩
  | .INJ_LOC => ⟨.sv0, 0xD00100, 0x0, 1, 0x0, 1⟩
  | .INJ_CTRL => ⟨.sv0, 0xD00108, 0x0, 1, 0x0, 1⟩
  | .INJ_STATUS => ⟨.sv0, 0xD00110, 0x0, 1, 0x0, 1⟩
  | .DBG_TOKEN => ⟨.sv0, 0xD01000, 0x8, 401, 0x0, 1⟩
  | .PERT_XING => ⟨.cd, 0xF000000, 0x0, 1, 0x0, 1⟩
  | .PERT_MEMLAT => ⟨.cd, 0xF000100, 0x8, 6, 0x0, 1⟩
  | .PERT_LINKCR => ⟨.cd, 0xF000200, 0x0, 1, 0x0, 1⟩
  | .PERT_CREDIT => ⟨.io, 0x4000000, 0x8, 4, 0x0, 1⟩
  | .PKG_PIN_STATUS => ⟨.sv0, 0xE00000, 0x0, 1, 0x0, 1⟩
  | .PKG_ALERT_CFG => ⟨.sv0, 0xE00008, 0x0, 1, 0x0, 1⟩
  | .PKG_TRIP => ⟨.sv0, 0xE00010, 0x0, 1, 0x0, 1⟩
/-- Register names, part 0. -/
def RegName.all0 : List RegName := [RegName.LINK_STATUS, RegName.LINK_ERR_CNT, RegName.LINK_ERR_CLR, RegName.CORE_ID, RegName.CORE_STATUS, RegName.CORE_ECC_STALLS, RegName.CORE_FMT_EVENTS, RegName.CORE_DI_EVENT, RegName.CORE_DI_ROW, RegName.MA_MASK_ROW, RegName.MA_MASK_COL, RegName.CTX_TABLE]
/-- Register names, part 1. -/
def RegName.all1 : List RegName := [RegName.RING_BASE, RegName.RING_CFG, RegName.RING_PROD, RegName.RING_CONS, RegName.RING_DEPTH, RegName.RING_STATUS, RegName.RING_CTRL, RegName.RING_FAULT_AT, RegName.RING_KSTAT, RegName.RING_MARK, RegName.RING_PREFIX, RegName.RING_DUMP]
/-- Register names, part 2. -/
def RegName.all2 : List RegName := [RegName.SYNC_CYC_HDR, RegName.SYNC_CYC_ENT, RegName.ROW_ECC_CNT, RegName.SDM_ECC_CNT, RegName.ROW_ECC_CLR, RegName.SDM_ECC_CLR, RegName.SDM_WCACHE_CFG, RegName.SDM_WCACHE_STAT, RegName.SDM_PART, RegName.SDM_DI_EVENT, RegName.ASTK_CFG, RegName.ASTK_SPILL]
/-- Register names, part 3. -/
def RegName.all3 : List RegName := [RegName.ASTK_SPILL_ROWS, RegName.ASTK_TOP, RegName.ASTK_FLOOR, RegName.ASTK_STAT, RegName.ASTK_FCMD, RegName.ASTK_FSTAT, RegName.ASTK_FRAME, RegName.ASTK_FACCT, RegName.ASTK_FEXP, RegName.STRM_CH_STATUS, RegName.AWL_STATUS, RegName.TEMPER_CFG]
/-- Register names, part 4. -/
def RegName.all4 : List RegName := [RegName.MCQ_STAT, RegName.MCQ_CLR, RegName.MEMC_DI_EVENT, RegName.MEMC_ECC_CLR, RegName.HBM_SPARE, RegName.HBM_PDN_CTRL, RegName.HBM_PDN_STATUS, RegName.MEMC_THERM, RegName.MEMC_ECC_CNT, RegName.WELT_CMD, RegName.WELT_STATUS, RegName.WELT_FREEZE]
/-- Register names, part 5. -/
def RegName.all5 : List RegName := [RegName.WELT_GROUP_CFG, RegName.WELT_GROUP_CLIP, RegName.WELT_GROUP_PART, RegName.WELT_GROUP_RED, RegName.WELT_GROUP_NORM, RegName.WELT_HP_B1, RegName.WELT_HP_EPS, RegName.WELT_HP_WD, RegName.WELT_HP_LEASE, RegName.WELT_LAYER_SHAPE, RegName.WELT_LAYER_P, RegName.WELT_LAYER_G]
/-- Register names, part 6. -/
def RegName.all6 : List RegName := [RegName.WELT_LAYER_S1, RegName.WELT_LAYER_S2, RegName.WELT_LAYER_COPY, RegName.WELT_LAYER_XCH, RegName.WELT_LAYER_STATE, RegName.KVP_CFG, RegName.KVP_BASE, RegName.KVP_META, RegName.KVP_FREE, RegName.KVP_LIST, RegName.KVP_GO, RegName.KVP_STATUS]
/-- Register names, part 7. -/
def RegName.all7 : List RegName := [RegName.ATTN_STATUS, RegName.PEER_PORT_CFG, RegName.PEER_PORT_STATUS, RegName.PEER_PORT_ERR, RegName.PEER_PORT_CLR, RegName.FAB_CFG, RegName.FAB_PREFIX, RegName.FAB_COORD, RegName.FAB_VC, RegName.FAB_TMO, RegName.FAB_STAT, RegName.FAB_STAT_CLR]
/-- Register names, part 8. -/
def RegName.all8 : List RegName := [RegName.PEER_SIG, RegName.COLL_GROUP, RegName.COLL_MEMBERS, RegName.COLL_SUBMIT, RegName.COLL_STATUS, RegName.L3_RANGE_BASE, RegName.L3_RANGE_CTL, RegName.L3_RANGE_STATUS, RegName.L3_ECC_CNT, RegName.HC_BIND, RegName.HC_STATUS, RegName.HC_ECC_CNT]
/-- Register names, part 9. -/
def RegName.all9 : List RegName := [RegName.HC_DI_EVENT, RegName.EYE_MSG, RegName.EYE_STATUS, RegName.EYE_CFG, RegName.EYE_DB, RegName.EYE_DB_SET, RegName.EYE_DB_MASK, RegName.EYE_TXSUM, RegName.IC_CFG, RegName.IC_SWSET, RegName.IC_ENABLE, RegName.IC_PENDING]
/-- Register names, part 10. -/
def RegName.all10 : List RegName := [RegName.IC_ACTIVE, RegName.IC_SRC, RegName.IC_TGT_CFG, RegName.IC_CLAIM, RegName.IC_COMPLETE, RegName.IC_RING_NOTE, RegName.HP_CFG, RegName.HP_STATUS, RegName.HP_ERR, RegName.HP_CLR, RegName.HP_SEC, RegName.HP_MAC]
/-- Register names, part 11. -/
def RegName.all11 : List RegName := [RegName.HP_IPV4, RegName.HP_IPV6_HI, RegName.HP_IPV6_LO, RegName.HP_FIFO_PTR, RegName.HP_FIFO_CTRL, RegName.HP_FIFO_STAT, RegName.HP_LAND_BASE, RegName.HP_LAND_ROWS, RegName.HP_LAND_PTR, RegName.HP_FIFO_ROW, RegName.HP_FIFO_TAG, RegName.LEASE_CFG]
/-- Register names, part 12. -/
def RegName.all12 : List RegName := [RegName.LEASE_SEED, RegName.TC_BIND, RegName.TC_SHARE, RegName.ACCT, RegName.CLK_CFG, RegName.CLK_MON_STATUS, RegName.CLK_CTRL, RegName.PWR_LIMIT, RegName.PWR_STATUS, RegName.PWR_ENERGY, RegName.START_STATUS, RegName.UNIT_ADDR]
/-- Register names, part 13. -/
def RegName.all13 : List RegName := [RegName.RAS_SPARE, RegName.RAS_CTRL, RegName.SNAP_STAGE, RegName.SNAP_POLICY, RegName.SNAP_STAT, RegName.SNAP_RESTORE, RegName.RNG_STEP, RegName.DBG_STATUS, RegName.DBG_CTRL, RegName.PERT_SEED, RegName.DBG_NONCE, RegName.INJ_LOC]
/-- Register names, part 14. -/
def RegName.all14 : List RegName := [RegName.INJ_CTRL, RegName.INJ_STATUS, RegName.DBG_TOKEN, RegName.PERT_XING, RegName.PERT_MEMLAT, RegName.PERT_LINKCR, RegName.PERT_CREDIT, RegName.PKG_PIN_STATUS, RegName.PKG_ALERT_CFG, RegName.PKG_TRIP]
/-- Every register name. -/
def RegName.all : List RegName :=
  List.flatten [RegName.all0, RegName.all1, RegName.all2, RegName.all3, RegName.all4, RegName.all5, RegName.all6, RegName.all7, RegName.all8, RegName.all9, RegName.all10, RegName.all11, RegName.all12, RegName.all13, RegName.all14]

/-- The place of a field in its register: bits hi down to lo (00 R6). -/
structure Fld where
  hi : Nat
  lo : Nat
  deriving DecidableEq, Repr

/-- The access codes of 00 R8 (RSV fields are not listed: they read zero and ignore writes). -/
inductive Acc where
  | ro | rw | w1c | wo
  deriving DecidableEq, Repr

/-- A field of a register: its place, its access code, the values an RW field takes (multiples of `mult` from `min` to
`max`, 00 R10), and its reset value, for a field whose reset is "retained" the factory default (00 R11). -/
structure FieldSpec where
  fld : Fld
  acc : Acc
  min : Nat
  max : Nat
  mult : Nat
  dflt : Nat
  deriving DecidableEq, Repr

/-- REPAIRED of LINK_STATUS (01 R25). -/
def LINK_STATUS.REPAIRED : Fld := ⟨23, 16⟩
/-- REPLAYING of LINK_STATUS (01 R25). -/
def LINK_STATUS.REPLAYING : Fld := ⟨1, 1⟩
/-- UP of LINK_STATUS (01 R25). -/
def LINK_STATUS.UP : Fld := ⟨0, 0⟩
/-- UNCORR of LINK_ERR_CNT (01 R26). -/
def LINK_ERR_CNT.UNCORR : Fld := ⟨63, 48⟩
/-- REPLAY of LINK_ERR_CNT (01 R26). -/
def LINK_ERR_CNT.REPLAY : Fld := ⟨47, 32⟩
/-- CORR of LINK_ERR_CNT (01 R26). -/
def LINK_ERR_CNT.CORR : Fld := ⟨31, 0⟩
/-- CLEAR of LINK_ERR_CLR (01 R27). -/
def LINK_ERR_CLR.CLEAR : Fld := ⟨0, 0⟩
/-- GRADE of CORE_ID (03 R71). -/
def CORE_ID.GRADE : Fld := ⟨16, 16⟩
/-- LOGICAL of CORE_ID (03 R71). -/
def CORE_ID.LOGICAL : Fld := ⟨15, 8⟩
/-- DIE of CORE_ID (03 R71). -/
def CORE_ID.DIE : Fld := ⟨1, 0⟩
/-- HALF_BUSY of CORE_STATUS (03 R72). -/
def CORE_STATUS.HALF_BUSY : Fld := ⟨31, 24⟩
/-- PORT_BUSY of CORE_STATUS (03 R72). -/
def CORE_STATUS.PORT_BUSY : Fld := ⟨17, 16⟩
/-- FROZEN of CORE_STATUS (03 R72). -/
def CORE_STATUS.FROZEN : Fld := ⟨2, 2⟩
/-- ISSUING of CORE_STATUS (03 R72). -/
def CORE_STATUS.ISSUING : Fld := ⟨1, 1⟩
/-- BOUND of CORE_STATUS (03 R72). -/
def CORE_STATUS.BOUND : Fld := ⟨0, 0⟩
/-- FREEZES of CORE_ECC_STALLS (03 R113). -/
def CORE_ECC_STALLS.FREEZES : Fld := ⟨63, 48⟩
/-- CYCLES of CORE_ECC_STALLS (03 R113). -/
def CORE_ECC_STALLS.CYCLES : Fld := ⟨47, 0⟩
/-- NAN_TO_INT of CORE_FMT_EVENTS (02 R57). -/
def CORE_FMT_EVENTS.NAN_TO_INT : Fld := ⟨3, 3⟩
/-- OVF_SAT of CORE_FMT_EVENTS (02 R57). -/
def CORE_FMT_EVENTS.OVF_SAT : Fld := ⟨2, 2⟩
/-- OVF_NONFINITE of CORE_FMT_EVENTS (02 R57). -/
def CORE_FMT_EVENTS.OVF_NONFINITE : Fld := ⟨1, 1⟩
/-- SCALE_NAN of CORE_FMT_EVENTS (02 R57). -/
def CORE_FMT_EVENTS.SCALE_NAN : Fld := ⟨0, 0⟩
/-- COUNT of CORE_DI_EVENT (03 R106). -/
def CORE_DI_EVENT.COUNT : Fld := ⟨63, 48⟩
/-- BUNDLE of CORE_DI_EVENT (03 R106). -/
def CORE_DI_EVENT.BUNDLE : Fld := ⟨47, 16⟩
/-- POISON_MAP of CORE_DI_EVENT (03 R106). -/
def CORE_DI_EVENT.POISON_MAP : Fld := ⟨15, 8⟩
/-- SOURCE of CORE_DI_EVENT (03 R106). -/
def CORE_DI_EVENT.SOURCE : Fld := ⟨7, 5⟩
/-- VALID of CORE_DI_EVENT (03 R106). -/
def CORE_DI_EVENT.VALID : Fld := ⟨0, 0⟩
/-- ROW of CORE_DI_ROW (03 R107). -/
def CORE_DI_ROW.ROW : Fld := ⟨12, 0⟩
/-- MASK of MA_MASK_ROW (03 R89). -/
def MA_MASK_ROW.MASK : Fld := ⟨63, 0⟩
/-- MASK of MA_MASK_COL (03 R89). -/
def MA_MASK_COL.MASK : Fld := ⟨63, 0⟩
/-- LEASE of CTX_TABLE (04 R147). -/
def CTX_TABLE.LEASE : Fld := ⟨63, 56⟩
/-- VALID of CTX_TABLE (04 R147). -/
def CTX_TABLE.VALID : Fld := ⟨55, 55⟩
/-- BASE_ROW of CTX_TABLE (04 R147). -/
def CTX_TABLE.BASE_ROW : Fld := ⟨19, 0⟩
/-- BASE of RING_BASE (04 R150). -/
def RING_BASE.BASE : Fld := ⟨47, 0⟩
/-- LEASE of RING_CFG (04 R151). -/
def RING_CFG.LEASE : Fld := ⟨63, 56⟩
/-- CONTEXT of RING_CFG (04 R151). -/
def RING_CFG.CONTEXT : Fld := ⟨55, 46⟩
/-- CORE of RING_CFG (04 R151). -/
def RING_CFG.CORE : Fld := ⟨45, 39⟩
/-- SIZE_LOG2 of RING_CFG (04 R151). -/
def RING_CFG.SIZE_LOG2 : Fld := ⟨38, 34⟩
/-- WAIT_TMO of RING_CFG (04 R151). -/
def RING_CFG.WAIT_TMO : Fld := ⟨33, 29⟩
/-- WHOLE of RING_CFG (04 R151). -/
def RING_CFG.WHOLE : Fld := ⟨1, 1⟩
/-- ENABLE of RING_CFG (04 R151). -/
def RING_CFG.ENABLE : Fld := ⟨0, 0⟩
/-- PRODUCED of RING_PROD (04 R154). -/
def RING_PROD.PRODUCED : Fld := ⟨63, 32⟩
/-- TAIL of RING_PROD (04 R154). -/
def RING_PROD.TAIL : Fld := ⟨31, 0⟩
/-- CONSUMED of RING_CONS (04 R157). -/
def RING_CONS.CONSUMED : Fld := ⟨63, 32⟩
/-- HEAD of RING_CONS (04 R157). -/
def RING_CONS.HEAD : Fld := ⟨31, 0⟩
/-- DEPTH of RING_DEPTH (04 R157). -/
def RING_DEPTH.DEPTH : Fld := ⟨31, 0⟩
/-- FAULT_STATUS of RING_STATUS (04 R159). -/
def RING_STATUS.FAULT_STATUS : Fld := ⟨63, 48⟩
/-- WAIT_FLAG of RING_STATUS (04 R159). -/
def RING_STATUS.WAIT_FLAG : Fld := ⟨47, 38⟩
/-- UNDERRUN_SEEN of RING_STATUS (04 R159). -/
def RING_STATUS.UNDERRUN_SEEN : Fld := ⟨7, 7⟩
/-- PUSH_REFUSED of RING_STATUS (04 R159). -/
def RING_STATUS.PUSH_REFUSED : Fld := ⟨6, 6⟩
/-- STATE of RING_STATUS (04 R159). -/
def RING_STATUS.STATE : Fld := ⟨2, 0⟩
/-- SKIP_KERNEL of RING_CTRL (04 R166). -/
def RING_CTRL.SKIP_KERNEL : Fld := ⟨2, 2⟩
/-- DISCARD of RING_CTRL (04 R166). -/
def RING_CTRL.DISCARD : Fld := ⟨1, 1⟩
/-- CLEAR_FAULT of RING_CTRL (04 R166). -/
def RING_CTRL.CLEAR_FAULT : Fld := ⟨0, 0⟩
/-- SLOT of RING_FAULT_AT (04 R165). -/
def RING_FAULT_AT.SLOT : Fld := ⟨35, 32⟩
/-- BUNDLE of RING_FAULT_AT (04 R165). -/
def RING_FAULT_AT.BUNDLE : Fld := ⟨31, 0⟩
/-- KERNELS of RING_KSTAT (04 R165). -/
def RING_KSTAT.KERNELS : Fld := ⟨63, 32⟩
/-- LAST_STATUS of RING_KSTAT (04 R165). -/
def RING_KSTAT.LAST_STATUS : Fld := ⟨15, 0⟩
/-- VALUE of RING_MARK (04 R165). -/
def RING_MARK.VALUE : Fld := ⟨31, 0⟩
/-- EN of RING_PREFIX (04 R179). -/
def RING_PREFIX.EN : Fld := ⟨32, 32⟩
/-- N of RING_PREFIX (04 R179). -/
def RING_PREFIX.N : Fld := ⟨31, 0⟩
/-- COUNT of RING_DUMP (04 R179). -/
def RING_DUMP.COUNT : Fld := ⟨55, 48⟩
/-- LIST of RING_DUMP (04 R179). -/
def RING_DUMP.LIST : Fld := ⟨47, 0⟩
/-- LEASE of SYNC_CYC_HDR (04 R178). -/
def SYNC_CYC_HDR.LEASE : Fld := ⟨63, 56⟩
/-- LENGTH of SYNC_CYC_HDR (04 R178). -/
def SYNC_CYC_HDR.LENGTH : Fld := ⟨55, 48⟩
/-- VALID of SYNC_CYC_HDR (04 R178). -/
def SYNC_CYC_HDR.VALID : Fld := ⟨0, 0⟩
/-- RING of SYNC_CYC_ENT (04 R178). -/
def SYNC_CYC_ENT.RING : Fld := ⟨63, 48⟩
/-- DIE of SYNC_CYC_ENT (04 R178). -/
def SYNC_CYC_ENT.DIE : Fld := ⟨47, 46⟩
/-- CORE of SYNC_CYC_ENT (04 R178). -/
def SYNC_CYC_ENT.CORE : Fld := ⟨45, 39⟩
/-- FLAG of SYNC_CYC_ENT (04 R178). -/
def SYNC_CYC_ENT.FLAG : Fld := ⟨38, 29⟩
/-- EDGE of SYNC_CYC_ENT (04 R178). -/
def SYNC_CYC_ENT.EDGE : Fld := ⟨0, 0⟩
/-- UNCORR of ROW_ECC_CNT (05 R194). -/
def ROW_ECC_CNT.UNCORR : Fld := ⟨63, 48⟩
/-- LAST_ROW of ROW_ECC_CNT (05 R194). -/
def ROW_ECC_CNT.LAST_ROW : Fld := ⟨44, 32⟩
/-- CORR of ROW_ECC_CNT (05 R194). -/
def ROW_ECC_CNT.CORR : Fld := ⟨31, 0⟩
/-- UNCORR of SDM_ECC_CNT (05 R193). -/
def SDM_ECC_CNT.UNCORR : Fld := ⟨63, 48⟩
/-- LAST_ROW of SDM_ECC_CNT (05 R193). -/
def SDM_ECC_CNT.LAST_ROW : Fld := ⟨44, 32⟩
/-- CORR of SDM_ECC_CNT (05 R193). -/
def SDM_ECC_CNT.CORR : Fld := ⟨31, 0⟩
/-- CLEAR of ROW_ECC_CLR (05 R195). -/
def ROW_ECC_CLR.CLEAR : Fld := ⟨0, 0⟩
/-- CLEAR of SDM_ECC_CLR (05 R195). -/
def SDM_ECC_CLR.CLEAR : Fld := ⟨0, 0⟩
/-- BANKS of SDM_WCACHE_CFG (05 R211). -/
def SDM_WCACHE_CFG.BANKS : Fld := ⟨5, 0⟩
/-- HITS of SDM_WCACHE_STAT (05 R217). -/
def SDM_WCACHE_STAT.HITS : Fld := ⟨63, 32⟩
/-- MISSES of SDM_WCACHE_STAT (05 R217). -/
def SDM_WCACHE_STAT.MISSES : Fld := ⟨31, 0⟩
/-- LEASE of SDM_PART (05 R204). -/
def SDM_PART.LEASE : Fld := ⟨63, 56⟩
/-- VALID of SDM_PART (05 R204). -/
def SDM_PART.VALID : Fld := ⟨55, 55⟩
/-- FIRST_BANK of SDM_PART (05 R204). -/
def SDM_PART.FIRST_BANK : Fld := ⟨14, 8⟩
/-- BANKS of SDM_PART (05 R204). -/
def SDM_PART.BANKS : Fld := ⟨6, 0⟩
/-- COUNT of SDM_DI_EVENT (05 R192). -/
def SDM_DI_EVENT.COUNT : Fld := ⟨63, 48⟩
/-- LEASE of SDM_DI_EVENT (05 R192). -/
def SDM_DI_EVENT.LEASE : Fld := ⟨47, 40⟩
/-- BANK of SDM_DI_EVENT (05 R192). -/
def SDM_DI_EVENT.BANK : Fld := ⟨38, 32⟩
/-- ROW of SDM_DI_EVENT (05 R192). -/
def SDM_DI_EVENT.ROW : Fld := ⟨28, 16⟩
/-- VALID of SDM_DI_EVENT (05 R192). -/
def SDM_DI_EVENT.VALID : Fld := ⟨0, 0⟩
/-- LEASE of ASTK_CFG (05 R218). -/
def ASTK_CFG.LEASE : Fld := ⟨63, 56⟩
/-- ENABLE of ASTK_CFG (05 R218). -/
def ASTK_CFG.ENABLE : Fld := ⟨55, 55⟩
/-- LIMIT of ASTK_CFG (05 R218). -/
def ASTK_CFG.LIMIT : Fld := ⟨39, 20⟩
/-- BASE_ROW of ASTK_CFG (05 R218). -/
def ASTK_CFG.BASE_ROW : Fld := ⟨19, 0⟩
/-- SPILL_BASE of ASTK_SPILL (05 R218). -/
def ASTK_SPILL.SPILL_BASE : Fld := ⟨47, 0⟩
/-- ROWS of ASTK_SPILL_ROWS (05 R218). -/
def ASTK_SPILL_ROWS.ROWS : Fld := ⟨31, 0⟩
/-- TOP of ASTK_TOP (05 R218). -/
def ASTK_TOP.TOP : Fld := ⟨31, 0⟩
/-- FLOOR of ASTK_FLOOR (05 R218). -/
def ASTK_FLOOR.FLOOR : Fld := ⟨31, 0⟩
/-- HWM of ASTK_STAT (05 R218). -/
def ASTK_STAT.HWM : Fld := ⟨63, 32⟩
/-- SPILLED of ASTK_STAT (05 R218). -/
def ASTK_STAT.SPILLED : Fld := ⟨31, 0⟩
/-- EXPECT of ASTK_FCMD (08 R319). -/
def ASTK_FCMD.EXPECT : Fld := ⟨63, 32⟩
/-- MB of ASTK_FCMD (08 R319). -/
def ASTK_FCMD.MB : Fld := ⟨31, 16⟩
/-- CMD of ASTK_FCMD (08 R319). -/
def ASTK_FCMD.CMD : Fld := ⟨1, 0⟩
/-- MISMATCHES of ASTK_FSTAT (08 R319). -/
def ASTK_FSTAT.MISMATCHES : Fld := ⟨63, 48⟩
/-- LAST_MB of ASTK_FSTAT (08 R319). -/
def ASTK_FSTAT.LAST_MB : Fld := ⟨47, 32⟩
/-- REFUSED of ASTK_FSTAT (08 R319). -/
def ASTK_FSTAT.REFUSED : Fld := ⟨5, 5⟩
/-- NFRAMES of ASTK_FSTAT (08 R319). -/
def ASTK_FSTAT.NFRAMES : Fld := ⟨4, 0⟩
/-- STATE of ASTK_FRAME (08 R319). -/
def ASTK_FRAME.STATE : Fld := ⟨63, 62⟩
/-- MISMATCH of ASTK_FRAME (08 R319). -/
def ASTK_FRAME.MISMATCH : Fld := ⟨61, 61⟩
/-- MB of ASTK_FRAME (08 R319). -/
def ASTK_FRAME.MB : Fld := ⟨47, 32⟩
/-- BASE of ASTK_FRAME (08 R319). -/
def ASTK_FRAME.BASE : Fld := ⟨31, 0⟩
/-- SEALED of ASTK_FACCT (08 R319). -/
def ASTK_FACCT.SEALED : Fld := ⟨63, 32⟩
/-- PEAK of ASTK_FACCT (08 R319). -/
def ASTK_FACCT.PEAK : Fld := ⟨31, 0⟩
/-- SPILLED of ASTK_FEXP (08 R319). -/
def ASTK_FEXP.SPILLED : Fld := ⟨63, 32⟩
/-- EXPECT of ASTK_FEXP (08 R319). -/
def ASTK_FEXP.EXPECT : Fld := ⟨31, 0⟩
/-- LANDED of STRM_CH_STATUS (06 R268). -/
def STRM_CH_STATUS.LANDED : Fld := ⟨63, 32⟩
/-- HANDLE of STRM_CH_STATUS (06 R268). -/
def STRM_CH_STATUS.HANDLE : Fld := ⟨31, 16⟩
/-- HALF_A of STRM_CH_STATUS (06 R268). -/
def STRM_CH_STATUS.HALF_A : Fld := ⟨11, 10⟩
/-- HALF_B of STRM_CH_STATUS (06 R268). -/
def STRM_CH_STATUS.HALF_B : Fld := ⟨9, 8⟩
/-- PENDING of STRM_CH_STATUS (06 R268). -/
def STRM_CH_STATUS.PENDING : Fld := ⟨2, 2⟩
/-- NEXT of STRM_CH_STATUS (06 R268). -/
def STRM_CH_STATUS.NEXT : Fld := ⟨1, 1⟩
/-- ACTIVE of STRM_CH_STATUS (06 R268). -/
def STRM_CH_STATUS.ACTIVE : Fld := ⟨0, 0⟩
/-- OOB_COUNT of AWL_STATUS (06 R267). -/
def AWL_STATUS.OOB_COUNT : Fld := ⟨63, 48⟩
/-- BUSY of AWL_STATUS (06 R267). -/
def AWL_STATUS.BUSY : Fld := ⟨31, 16⟩
/-- STARVE_LIMIT of TEMPER_CFG (06 R254). -/
def TEMPER_CFG.STARVE_LIMIT : Fld := ⟨15, 0⟩
/-- PEAK of MCQ_STAT (06 R255). -/
def MCQ_STAT.PEAK : Fld := ⟨63, 52⟩
/-- INFLIGHT of MCQ_STAT (06 R255). -/
def MCQ_STAT.INFLIGHT : Fld := ⟨51, 40⟩
/-- CAP_DEFERS of MCQ_STAT (06 R255). -/
def MCQ_STAT.CAP_DEFERS : Fld := ⟨39, 20⟩
/-- STARVE_GRANTS of MCQ_STAT (06 R255). -/
def MCQ_STAT.STARVE_GRANTS : Fld := ⟨19, 0⟩
/-- CLEAR of MCQ_CLR (06 R256). -/
def MCQ_CLR.CLEAR : Fld := ⟨0, 0⟩
/-- COUNT of MEMC_DI_EVENT (07 R284). -/
def MEMC_DI_EVENT.COUNT : Fld := ⟨63, 48⟩
/-- LEASE of MEMC_DI_EVENT (07 R284). -/
def MEMC_DI_EVENT.LEASE : Fld := ⟨47, 40⟩
/-- PCH of MEMC_DI_EVENT (07 R284). -/
def MEMC_DI_EVENT.PCH : Fld := ⟨37, 32⟩
/-- ROW of MEMC_DI_EVENT (07 R284). -/
def MEMC_DI_EVENT.ROW : Fld := ⟨31, 4⟩
/-- VALID of MEMC_DI_EVENT (07 R284). -/
def MEMC_DI_EVENT.VALID : Fld := ⟨0, 0⟩
/-- CLEAR of MEMC_ECC_CLR (07 R283). -/
def MEMC_ECC_CLR.CLEAR : Fld := ⟨0, 0⟩
/-- PROGRESS of HBM_SPARE (07 R285). -/
def HBM_SPARE.PROGRESS : Fld := ⟨40, 18⟩
/-- STATE of HBM_SPARE (07 R285). -/
def HBM_SPARE.STATE : Fld := ⟨17, 16⟩
/-- FAILED_PC of HBM_SPARE (07 R285). -/
def HBM_SPARE.FAILED_PC : Fld := ⟨13, 9⟩
/-- START of HBM_SPARE (07 R285). -/
def HBM_SPARE.START : Fld := ⟨0, 0⟩
/-- DOWN_REQ of HBM_PDN_CTRL (07 R290). -/
def HBM_PDN_CTRL.DOWN_REQ : Fld := ⟨8, 8⟩
/-- GROUP of HBM_PDN_CTRL (07 R290). -/
def HBM_PDN_CTRL.GROUP : Fld := ⟨3, 0⟩
/-- DOWN of HBM_PDN_STATUS (07 R290). -/
def HBM_PDN_STATUS.DOWN : Fld := ⟨31, 16⟩
/-- RESULT of HBM_PDN_STATUS (07 R290). -/
def HBM_PDN_STATUS.RESULT : Fld := ⟨2, 1⟩
/-- PENDING of HBM_PDN_STATUS (07 R290). -/
def HBM_PDN_STATUS.PENDING : Fld := ⟨0, 0⟩
/-- THROTTLE of MEMC_THERM (07 R302). -/
def MEMC_THERM.THROTTLE : Fld := ⟨17, 17⟩
/-- REFX2 of MEMC_THERM (07 R302). -/
def MEMC_THERM.REFX2 : Fld := ⟨16, 16⟩
/-- TEMP of MEMC_THERM (07 R302). -/
def MEMC_THERM.TEMP : Fld := ⟨7, 0⟩
/-- UNCORR of MEMC_ECC_CNT (07 R282). -/
def MEMC_ECC_CNT.UNCORR : Fld := ⟨63, 48⟩
/-- ODECC of MEMC_ECC_CNT (07 R282). -/
def MEMC_ECC_CNT.ODECC : Fld := ⟨47, 32⟩
/-- CORR of MEMC_ECC_CNT (07 R282). -/
def MEMC_ECC_CNT.CORR : Fld := ⟨31, 0⟩
/-- GROUP of WELT_CMD (09 R342). -/
def WELT_CMD.GROUP : Fld := ⟨10, 4⟩
/-- OP of WELT_CMD (09 R342). -/
def WELT_CMD.OP : Fld := ⟨3, 0⟩
/-- LAST_STATUS of WELT_STATUS (09 R342). -/
def WELT_STATUS.LAST_STATUS : Fld := ⟨63, 48⟩
/-- BAD_LAYER of WELT_STATUS (09 R342). -/
def WELT_STATUS.BAD_LAYER : Fld := ⟨47, 36⟩
/-- OPEN_GROUP of WELT_STATUS (09 R342). -/
def WELT_STATUS.OPEN_GROUP : Fld := ⟨35, 29⟩
/-- PHASE of WELT_STATUS (09 R342). -/
def WELT_STATUS.PHASE : Fld := ⟨28, 27⟩
/-- LAST_OP of WELT_STATUS (09 R342). -/
def WELT_STATUS.LAST_OP : Fld := ⟨26, 24⟩
/-- POISON of WELT_STATUS (09 R342). -/
def WELT_STATUS.POISON : Fld := ⟨1, 1⟩
/-- BUSY of WELT_STATUS (09 R342). -/
def WELT_STATUS.BUSY : Fld := ⟨0, 0⟩
/-- MASK of WELT_FREEZE (09 R337). -/
def WELT_FREEZE.MASK : Fld := ⟨63, 0⟩
/-- LEASE of WELT_GROUP_CFG (09 R339). -/
def WELT_GROUP_CFG.LEASE : Fld := ⟨63, 56⟩
/-- VALID of WELT_GROUP_CFG (09 R339). -/
def WELT_GROUP_CFG.VALID : Fld := ⟨55, 55⟩
/-- STEP of WELT_GROUP_CFG (09 R339). -/
def WELT_GROUP_CFG.STEP : Fld := ⟨31, 0⟩
/-- SKIPS of WELT_GROUP_CLIP (09 R339). -/
def WELT_GROUP_CLIP.SKIPS : Fld := ⟨63, 32⟩
/-- CLIP of WELT_GROUP_CLIP (09 R339). -/
def WELT_GROUP_CLIP.CLIP : Fld := ⟨31, 0⟩
/-- PART_BASE of WELT_GROUP_PART (09 R339). -/
def WELT_GROUP_PART.PART_BASE : Fld := ⟨47, 0⟩
/-- RED_BASE of WELT_GROUP_RED (09 R339). -/
def WELT_GROUP_RED.RED_BASE : Fld := ⟨47, 0⟩
/-- LAST_NORM of WELT_GROUP_NORM (09 R339). -/
def WELT_GROUP_NORM.LAST_NORM : Fld := ⟨31, 0⟩
/-- B1 of WELT_HP_B1 (09 R340). -/
def WELT_HP_B1.B1 : Fld := ⟨63, 32⟩
/-- LR of WELT_HP_B1 (09 R340). -/
def WELT_HP_B1.LR : Fld := ⟨31, 0⟩
/-- EPS of WELT_HP_EPS (09 R340). -/
def WELT_HP_EPS.EPS : Fld := ⟨63, 32⟩
/-- B2 of WELT_HP_EPS (09 R340). -/
def WELT_HP_EPS.B2 : Fld := ⟨31, 0⟩
/-- WD of WELT_HP_WD (09 R340). -/
def WELT_HP_WD.WD : Fld := ⟨31, 0⟩
/-- LEASE of WELT_HP_LEASE (09 R340). -/
def WELT_HP_LEASE.LEASE : Fld := ⟨63, 56⟩
/-- NESTEROV of WELT_HP_LEASE (09 R340). -/
def WELT_HP_LEASE.NESTEROV : Fld := ⟨1, 1⟩
/-- BIASCORR of WELT_HP_LEASE (09 R340). -/
def WELT_HP_LEASE.BIASCORR : Fld := ⟨0, 0⟩
/-- ROWS of WELT_LAYER_SHAPE (09 R335). -/
def WELT_LAYER_SHAPE.ROWS : Fld := ⟨63, 44⟩
/-- COLS of WELT_LAYER_SHAPE (09 R335). -/
def WELT_LAYER_SHAPE.COLS : Fld := ⟨43, 24⟩
/-- VALID of WELT_LAYER_SHAPE (09 R335). -/
def WELT_LAYER_SHAPE.VALID : Fld := ⟨23, 23⟩
/-- GROUP of WELT_LAYER_SHAPE (09 R335). -/
def WELT_LAYER_SHAPE.GROUP : Fld := ⟨22, 16⟩
/-- HP of WELT_LAYER_SHAPE (09 R335). -/
def WELT_LAYER_SHAPE.HP : Fld := ⟨15, 10⟩
/-- WELT_RULE_SEL of WELT_LAYER_SHAPE (09 R335). -/
def WELT_LAYER_SHAPE.WELT_RULE_SEL : Fld := ⟨9, 8⟩
/-- ORDER of WELT_LAYER_SHAPE (09 R335). -/
def WELT_LAYER_SHAPE.ORDER : Fld := ⟨7, 7⟩
/-- COPY_SR of WELT_LAYER_SHAPE (09 R335). -/
def WELT_LAYER_SHAPE.COPY_SR : Fld := ⟨6, 6⟩
/-- P_BASE of WELT_LAYER_P (09 R335). -/
def WELT_LAYER_P.P_BASE : Fld := ⟨47, 0⟩
/-- G_BASE of WELT_LAYER_G (09 R335). -/
def WELT_LAYER_G.G_BASE : Fld := ⟨47, 0⟩
/-- S1_BASE of WELT_LAYER_S1 (09 R335). -/
def WELT_LAYER_S1.S1_BASE : Fld := ⟨47, 0⟩
/-- S2_BASE of WELT_LAYER_S2 (09 R335). -/
def WELT_LAYER_S2.S2_BASE : Fld := ⟨47, 0⟩
/-- COPY_BASE of WELT_LAYER_COPY (09 R335). -/
def WELT_LAYER_COPY.COPY_BASE : Fld := ⟨47, 0⟩
/-- XCH_BASE of WELT_LAYER_XCH (09 R335). -/
def WELT_LAYER_XCH.XCH_BASE : Fld := ⟨47, 0⟩
/-- EPOCH of WELT_LAYER_STATE (09 R335). -/
def WELT_LAYER_STATE.EPOCH : Fld := ⟨63, 32⟩
/-- APPLYING of WELT_LAYER_STATE (09 R335). -/
def WELT_LAYER_STATE.APPLYING : Fld := ⟨31, 31⟩
/-- ORT_WAIT of WELT_LAYER_STATE (09 R335). -/
def WELT_LAYER_STATE.ORT_WAIT : Fld := ⟨30, 30⟩
/-- DAMAGED of WELT_LAYER_STATE (09 R335). -/
def WELT_LAYER_STATE.DAMAGED : Fld := ⟨29, 29⟩
/-- LEASE of KVP_CFG (10 R365). -/
def KVP_CFG.LEASE : Fld := ⟨63, 56⟩
/-- ENABLE of KVP_CFG (10 R365). -/
def KVP_CFG.ENABLE : Fld := ⟨55, 55⟩
/-- KFMT of KVP_CFG (10 R365). -/
def KVP_CFG.KFMT : Fld := ⟨51, 48⟩
/-- VFMT of KVP_CFG (10 R365). -/
def KVP_CFG.VFMT : Fld := ⟨47, 44⟩
/-- DIM of KVP_CFG (10 R365). -/
def KVP_CFG.DIM : Fld := ⟨43, 42⟩
/-- REGIONS of KVP_CFG (10 R365). -/
def KVP_CFG.REGIONS : Fld := ⟨35, 24⟩
/-- PAGES of KVP_CFG (10 R365). -/
def KVP_CFG.PAGES : Fld := ⟨23, 0⟩
/-- BASE of KVP_BASE (10 R365). -/
def KVP_BASE.BASE : Fld := ⟨47, 0⟩
/-- META of KVP_META (10 R365). -/
def KVP_META.META : Fld := ⟨47, 0⟩
/-- FREE of KVP_FREE (10 R365). -/
def KVP_FREE.FREE : Fld := ⟨23, 0⟩
/-- LIST of KVP_LIST (10 R365). -/
def KVP_LIST.LIST : Fld := ⟨47, 0⟩
/-- COUNT of KVP_GO (10 R365). -/
def KVP_GO.COUNT : Fld := ⟨59, 48⟩
/-- FLAG of KVP_GO (10 R365). -/
def KVP_GO.FLAG : Fld := ⟨47, 38⟩
/-- SETFLAG of KVP_GO (10 R365). -/
def KVP_GO.SETFLAG : Fld := ⟨37, 37⟩
/-- GO of KVP_GO (10 R365). -/
def KVP_GO.GO : Fld := ⟨0, 0⟩
/-- LAST_STATUS of KVP_STATUS (10 R365). -/
def KVP_STATUS.LAST_STATUS : Fld := ⟨63, 48⟩
/-- DONE of KVP_STATUS (10 R365). -/
def KVP_STATUS.DONE : Fld := ⟨47, 36⟩
/-- INIT of KVP_STATUS (10 R365). -/
def KVP_STATUS.INIT : Fld := ⟨2, 2⟩
/-- REFUSED of KVP_STATUS (10 R365). -/
def KVP_STATUS.REFUSED : Fld := ⟨1, 1⟩
/-- BUSY of KVP_STATUS (10 R365). -/
def KVP_STATUS.BUSY : Fld := ⟨0, 0⟩
/-- EMPTY_ROWS of ATTN_STATUS (10 R391). -/
def ATTN_STATUS.EMPTY_ROWS : Fld := ⟨63, 48⟩
/-- OPEN of ATTN_STATUS (10 R391). -/
def ATTN_STATUS.OPEN : Fld := ⟨15, 0⟩
/-- MODE of PEER_PORT_CFG (11 R408). -/
def PEER_PORT_CFG.MODE : Fld := ⟨7, 5⟩
/-- DIR of PEER_PORT_CFG (11 R408). -/
def PEER_PORT_CFG.DIR : Fld := ⟨4, 2⟩
/-- STANDBY of PEER_PORT_CFG (11 R408). -/
def PEER_PORT_CFG.STANDBY : Fld := ⟨1, 1⟩
/-- ENABLE of PEER_PORT_CFG (11 R408). -/
def PEER_PORT_CFG.ENABLE : Fld := ⟨0, 0⟩
/-- PARTNER of PEER_PORT_STATUS (11 R410). -/
def PEER_PORT_STATUS.PARTNER : Fld := ⟨63, 48⟩
/-- LANES of PEER_PORT_STATUS (11 R410). -/
def PEER_PORT_STATUS.LANES : Fld := ⟨35, 32⟩
/-- RETRAINS of PEER_PORT_STATUS (11 R410). -/
def PEER_PORT_STATUS.RETRAINS : Fld := ⟨31, 16⟩
/-- SPEED of PEER_PORT_STATUS (11 R410). -/
def PEER_PORT_STATUS.SPEED : Fld := ⟨3, 2⟩
/-- DEGRADED of PEER_PORT_STATUS (11 R410). -/
def PEER_PORT_STATUS.DEGRADED : Fld := ⟨1, 1⟩
/-- UP of PEER_PORT_STATUS (11 R410). -/
def PEER_PORT_STATUS.UP : Fld := ⟨0, 0⟩
/-- DISCARDS of PEER_PORT_ERR (11 R411). -/
def PEER_PORT_ERR.DISCARDS : Fld := ⟨63, 48⟩
/-- FEC_UNCORR of PEER_PORT_ERR (11 R411). -/
def PEER_PORT_ERR.FEC_UNCORR : Fld := ⟨47, 32⟩
/-- FEC_CORR of PEER_PORT_ERR (11 R411). -/
def PEER_PORT_ERR.FEC_CORR : Fld := ⟨31, 0⟩
/-- CLEAR of PEER_PORT_CLR (11 R411). -/
def PEER_PORT_CLR.CLEAR : Fld := ⟨0, 0⟩
/-- UDP_PORT of FAB_CFG (11 R412). -/
def FAB_CFG.UDP_PORT : Fld := ⟨63, 48⟩
/-- WRAP of FAB_CFG (11 R412). -/
def FAB_CFG.WRAP : Fld := ⟨46, 44⟩
/-- EXT_Z_M1 of FAB_CFG (11 R412). -/
def FAB_CFG.EXT_Z_M1 : Fld := ⟨43, 38⟩
/-- EXT_Y_M1 of FAB_CFG (11 R412). -/
def FAB_CFG.EXT_Y_M1 : Fld := ⟨37, 32⟩
/-- EXT_X_M1 of FAB_CFG (11 R412). -/
def FAB_CFG.EXT_X_M1 : Fld := ⟨31, 26⟩
/-- ENABLE of FAB_CFG (11 R412). -/
def FAB_CFG.ENABLE : Fld := ⟨0, 0⟩
/-- PREFIX of FAB_PREFIX (11 R413). -/
def FAB_PREFIX.PREFIX : Fld := ⟨63, 0⟩
/-- VALID of FAB_COORD (11 R414). -/
def FAB_COORD.VALID : Fld := ⟨18, 18⟩
/-- Z of FAB_COORD (11 R414). -/
def FAB_COORD.Z : Fld := ⟨17, 12⟩
/-- Y of FAB_COORD (11 R414). -/
def FAB_COORD.Y : Fld := ⟨11, 6⟩
/-- X of FAB_COORD (11 R414). -/
def FAB_COORD.X : Fld := ⟨5, 0⟩
/-- WEIGHT of FAB_VC (11 R424). -/
def FAB_VC.WEIGHT : Fld := ⟨23, 16⟩
/-- CELLS of FAB_VC (11 R424). -/
def FAB_VC.CELLS : Fld := ⟨11, 0⟩
/-- RTO_US of FAB_TMO (11 R430). -/
def FAB_TMO.RTO_US : Fld := ⟨15, 8⟩
/-- RETRY of FAB_TMO (11 R430). -/
def FAB_TMO.RETRY : Fld := ⟨3, 0⟩
/-- CONN_FAIL of FAB_STAT (11 R432). -/
def FAB_STAT.CONN_FAIL : Fld := ⟨63, 52⟩
/-- UNKNOWN_SRC of FAB_STAT (11 R432). -/
def FAB_STAT.UNKNOWN_SRC : Fld := ⟨51, 40⟩
/-- ROUTE_DROP of FAB_STAT (11 R432). -/
def FAB_STAT.ROUTE_DROP : Fld := ⟨39, 32⟩
/-- RETRANSMITS of FAB_STAT (11 R432). -/
def FAB_STAT.RETRANSMITS : Fld := ⟨31, 0⟩
/-- CLEAR of FAB_STAT_CLR (11 R432). -/
def FAB_STAT_CLR.CLEAR : Fld := ⟨0, 0⟩
/-- LEASE of PEER_SIG (11 R439). -/
def PEER_SIG.LEASE : Fld := ⟨63, 56⟩
/-- VALID of PEER_SIG (11 R439). -/
def PEER_SIG.VALID : Fld := ⟨55, 55⟩
/-- ROW of PEER_SIG (11 R439). -/
def PEER_SIG.ROW : Fld := ⟨36, 17⟩
/-- CORE of PEER_SIG (11 R439). -/
def PEER_SIG.CORE : Fld := ⟨16, 10⟩
/-- FLAG of PEER_SIG (11 R439). -/
def PEER_SIG.FLAG : Fld := ⟨9, 0⟩
/-- LEASE of COLL_GROUP (11 R441). -/
def COLL_GROUP.LEASE : Fld := ⟨63, 56⟩
/-- VALID of COLL_GROUP (11 R441). -/
def COLL_GROUP.VALID : Fld := ⟨55, 55⟩
/-- E2_M1 of COLL_GROUP (11 R441). -/
def COLL_GROUP.E2_M1 : Fld := ⟨47, 42⟩
/-- E1_M1 of COLL_GROUP (11 R441). -/
def COLL_GROUP.E1_M1 : Fld := ⟨41, 36⟩
/-- E0_M1 of COLL_GROUP (11 R441). -/
def COLL_GROUP.E0_M1 : Fld := ⟨35, 30⟩
/-- RANK of COLL_GROUP (11 R441). -/
def COLL_GROUP.RANK : Fld := ⟨27, 16⟩
/-- TMO_LOG2 of COLL_GROUP (11 R441). -/
def COLL_GROUP.TMO_LOG2 : Fld := ⟨15, 12⟩
/-- MEMBERS of COLL_MEMBERS (11 R441). -/
def COLL_MEMBERS.MEMBERS : Fld := ⟨47, 0⟩
/-- DESC of COLL_SUBMIT (11 R444). -/
def COLL_SUBMIT.DESC : Fld := ⟨47, 0⟩
/-- LAST_STATUS of COLL_STATUS (11 R444). -/
def COLL_STATUS.LAST_STATUS : Fld := ⟨63, 48⟩
/-- DONE of COLL_STATUS (11 R444). -/
def COLL_STATUS.DONE : Fld := ⟨47, 32⟩
/-- QUEUED of COLL_STATUS (11 R444). -/
def COLL_STATUS.QUEUED : Fld := ⟨7, 3⟩
/-- REFUSED of COLL_STATUS (11 R444). -/
def COLL_STATUS.REFUSED : Fld := ⟨2, 2⟩
/-- BUSY of COLL_STATUS (11 R444). -/
def COLL_STATUS.BUSY : Fld := ⟨0, 0⟩
/-- BASE of L3_RANGE_BASE (12 R469). -/
def L3_RANGE_BASE.BASE : Fld := ⟨47, 0⟩
/-- ROWS of L3_RANGE_CTL (12 R469). -/
def L3_RANGE_CTL.ROWS : Fld := ⟨63, 40⟩
/-- OP of L3_RANGE_CTL (12 R469). -/
def L3_RANGE_CTL.OP : Fld := ⟨2, 1⟩
/-- GO of L3_RANGE_CTL (12 R469). -/
def L3_RANGE_CTL.GO : Fld := ⟨0, 0⟩
/-- LAST_STATUS of L3_RANGE_STATUS (12 R469). -/
def L3_RANGE_STATUS.LAST_STATUS : Fld := ⟨63, 48⟩
/-- REFUSED of L3_RANGE_STATUS (12 R469). -/
def L3_RANGE_STATUS.REFUSED : Fld := ⟨1, 1⟩
/-- BUSY of L3_RANGE_STATUS (12 R469). -/
def L3_RANGE_STATUS.BUSY : Fld := ⟨0, 0⟩
/-- UNCORR of L3_ECC_CNT (12 R473). -/
def L3_ECC_CNT.UNCORR : Fld := ⟨63, 48⟩
/-- CORR of L3_ECC_CNT (12 R473). -/
def L3_ECC_CNT.CORR : Fld := ⟨31, 0⟩
/-- LEASE of HC_BIND (12 R473). -/
def HC_BIND.LEASE : Fld := ⟨63, 56⟩
/-- VALID of HC_BIND (12 R473). -/
def HC_BIND.VALID : Fld := ⟨55, 55⟩
/-- QUIESCED of HC_STATUS (12 R473). -/
def HC_STATUS.QUIESCED : Fld := ⟨2, 2⟩
/-- WFI of HC_STATUS (12 R473). -/
def HC_STATUS.WFI : Fld := ⟨1, 1⟩
/-- BOUND of HC_STATUS (12 R473). -/
def HC_STATUS.BOUND : Fld := ⟨0, 0⟩
/-- UNCORR of HC_ECC_CNT (12 R473). -/
def HC_ECC_CNT.UNCORR : Fld := ⟨63, 48⟩
/-- CORR of HC_ECC_CNT (12 R473). -/
def HC_ECC_CNT.CORR : Fld := ⟨31, 0⟩
/-- COUNT of HC_DI_EVENT (12 R473). -/
def HC_DI_EVENT.COUNT : Fld := ⟨63, 48⟩
/-- ROW of HC_DI_EVENT (12 R473). -/
def HC_DI_EVENT.ROW : Fld := ⟨47, 9⟩
/-- SOURCE of HC_DI_EVENT (12 R473). -/
def HC_DI_EVENT.SOURCE : Fld := ⟨2, 1⟩
/-- VALID of HC_DI_EVENT (12 R473). -/
def HC_DI_EVENT.VALID : Fld := ⟨0, 0⟩
/-- WORD of EYE_MSG (13 R480). -/
def EYE_MSG.WORD : Fld := ⟨63, 0⟩
/-- TIMEOUT of EYE_STATUS (13 R483). -/
def EYE_STATUS.TIMEOUT : Fld := ⟨3, 3⟩
/-- COLLISION of EYE_STATUS (13 R483). -/
def EYE_STATUS.COLLISION : Fld := ⟨2, 2⟩
/-- EMPTIED of EYE_STATUS (13 R483). -/
def EYE_STATUS.EMPTIED : Fld := ⟨1, 1⟩
/-- FULL of EYE_STATUS (13 R483). -/
def EYE_STATUS.FULL : Fld := ⟨0, 0⟩
/-- LEASE of EYE_CFG (13 R481). -/
def EYE_CFG.LEASE : Fld := ⟨63, 56⟩
/-- VALID of EYE_CFG (13 R481). -/
def EYE_CFG.VALID : Fld := ⟨55, 55⟩
/-- CLASS of EYE_CFG (13 R481). -/
def EYE_CFG.CLASS : Fld := ⟨54, 54⟩
/-- RX_IE of EYE_CFG (13 R481). -/
def EYE_CFG.RX_IE : Fld := ⟨53, 53⟩
/-- TX_IE of EYE_CFG (13 R481). -/
def EYE_CFG.TX_IE : Fld := ⟨52, 52⟩
/-- TMO_US of EYE_CFG (13 R481). -/
def EYE_CFG.TMO_US : Fld := ⟨15, 0⟩
/-- BELLS of EYE_DB (13 R488). -/
def EYE_DB.BELLS : Fld := ⟨31, 0⟩
/-- RING of EYE_DB_SET (13 R488). -/
def EYE_DB_SET.RING : Fld := ⟨31, 0⟩
/-- MASK of EYE_DB_MASK (13 R488). -/
def EYE_DB_MASK.MASK : Fld := ⟨31, 0⟩
/-- LINES of EYE_TXSUM (13 R489). -/
def EYE_TXSUM.LINES : Fld := ⟨7, 0⟩
/-- FORCE_RR of IC_CFG (13 R497). -/
def IC_CFG.FORCE_RR : Fld := ⟨8, 8⟩
/-- FILTER of IC_CFG (13 R497). -/
def IC_CFG.FILTER : Fld := ⟨7, 0⟩
/-- SOURCE of IC_SWSET (13 R497). -/
def IC_SWSET.SOURCE : Fld := ⟨9, 0⟩
/-- BITS of IC_ENABLE (13 R497). -/
def IC_ENABLE.BITS : Fld := ⟨63, 0⟩
/-- BITS of IC_PENDING (13 R497). -/
def IC_PENDING.BITS : Fld := ⟨63, 0⟩
/-- BITS of IC_ACTIVE (13 R497). -/
def IC_ACTIVE.BITS : Fld := ⟨63, 0⟩
/-- TARGET of IC_SRC (13 R497). -/
def IC_SRC.TARGET : Fld := ⟨31, 16⟩
/-- ESC of IC_SRC (13 R497). -/
def IC_SRC.ESC : Fld := ⟨5, 5⟩
/-- FILTERED of IC_SRC (13 R497). -/
def IC_SRC.FILTERED : Fld := ⟨4, 4⟩
/-- LEVEL of IC_SRC (13 R497). -/
def IC_SRC.LEVEL : Fld := ⟨3, 3⟩
/-- PRIO of IC_SRC (13 R497). -/
def IC_SRC.PRIO : Fld := ⟨2, 0⟩
/-- SUPV of IC_TGT_CFG (13 R497). -/
def IC_TGT_CFG.SUPV : Fld := ⟨4, 4⟩
/-- EN of IC_TGT_CFG (13 R497). -/
def IC_TGT_CFG.EN : Fld := ⟨3, 3⟩
/-- THRESHOLD of IC_TGT_CFG (13 R497). -/
def IC_TGT_CFG.THRESHOLD : Fld := ⟨2, 0⟩
/-- SOURCE of IC_CLAIM (13 R499). -/
def IC_CLAIM.SOURCE : Fld := ⟨9, 0⟩
/-- SOURCE of IC_COMPLETE (13 R500). -/
def IC_COMPLETE.SOURCE : Fld := ⟨9, 0⟩
/-- VALID of IC_RING_NOTE (13 R493). -/
def IC_RING_NOTE.VALID : Fld := ⟨63, 63⟩
/-- OVERFLOW of IC_RING_NOTE (13 R493). -/
def IC_RING_NOTE.OVERFLOW : Fld := ⟨62, 62⟩
/-- STATUS of IC_RING_NOTE (13 R493). -/
def IC_RING_NOTE.STATUS : Fld := ⟨47, 32⟩
/-- RING of IC_RING_NOTE (13 R493). -/
def IC_RING_NOTE.RING : Fld := ⟨13, 0⟩
/-- UDP_PORT of HP_CFG (14 R508). -/
def HP_CFG.UDP_PORT : Fld := ⟨63, 48⟩
/-- VLAN of HP_CFG (14 R508). -/
def HP_CFG.VLAN : Fld := ⟨47, 36⟩
/-- WINDOW_MAX of HP_CFG (14 R508). -/
def HP_CFG.WINDOW_MAX : Fld := ⟨23, 16⟩
/-- MODE of HP_CFG (14 R508). -/
def HP_CFG.MODE : Fld := ⟨7, 5⟩
/-- IP of HP_CFG (14 R508). -/
def HP_CFG.IP : Fld := ⟨4, 3⟩
/-- ENABLE of HP_CFG (14 R508). -/
def HP_CFG.ENABLE : Fld := ⟨0, 0⟩
/-- SESSIONS of HP_STATUS (14 R508). -/
def HP_STATUS.SESSIONS : Fld := ⟨63, 48⟩
/-- LANES of HP_STATUS (14 R508). -/
def HP_STATUS.LANES : Fld := ⟨35, 32⟩
/-- RETRAINS of HP_STATUS (14 R508). -/
def HP_STATUS.RETRAINS : Fld := ⟨31, 16⟩
/-- SPEED of HP_STATUS (14 R508). -/
def HP_STATUS.SPEED : Fld := ⟨3, 2⟩
/-- DEGRADED of HP_STATUS (14 R508). -/
def HP_STATUS.DEGRADED : Fld := ⟨1, 1⟩
/-- UP of HP_STATUS (14 R508). -/
def HP_STATUS.UP : Fld := ⟨0, 0⟩
/-- DISCARDS of HP_ERR (14 R508). -/
def HP_ERR.DISCARDS : Fld := ⟨63, 48⟩
/-- FEC_UNCORR of HP_ERR (14 R508). -/
def HP_ERR.FEC_UNCORR : Fld := ⟨47, 32⟩
/-- FEC_CORR of HP_ERR (14 R508). -/
def HP_ERR.FEC_CORR : Fld := ⟨31, 0⟩
/-- CLEAR of HP_CLR (14 R508). -/
def HP_CLR.CLEAR : Fld := ⟨0, 0⟩
/-- AUTH_FAIL of HP_SEC (14 R508). -/
def HP_SEC.AUTH_FAIL : Fld := ⟨63, 48⟩
/-- REPLAY of HP_SEC (14 R508). -/
def HP_SEC.REPLAY : Fld := ⟨47, 32⟩
/-- WINDOW_REFUSED of HP_SEC (14 R508). -/
def HP_SEC.WINDOW_REFUSED : Fld := ⟨31, 16⟩
/-- STALE of HP_SEC (14 R508). -/
def HP_SEC.STALE : Fld := ⟨15, 0⟩
/-- MAC of HP_MAC (14 R508). -/
def HP_MAC.MAC : Fld := ⟨47, 0⟩
/-- PREFIX of HP_IPV4 (14 R508). -/
def HP_IPV4.PREFIX : Fld := ⟨37, 32⟩
/-- ADDR of HP_IPV4 (14 R508). -/
def HP_IPV4.ADDR : Fld := ⟨31, 0⟩
/-- ADDR of HP_IPV6_HI (14 R508). -/
def HP_IPV6_HI.ADDR : Fld := ⟨63, 0⟩
/-- ADDR of HP_IPV6_LO (14 R508). -/
def HP_IPV6_LO.ADDR : Fld := ⟨63, 0⟩
/-- TAIL of HP_FIFO_PTR (14 R508). -/
def HP_FIFO_PTR.TAIL : Fld := ⟨63, 32⟩
/-- HEAD of HP_FIFO_PTR (14 R508). -/
def HP_FIFO_PTR.HEAD : Fld := ⟨31, 0⟩
/-- DROP_REST of HP_FIFO_CTRL (14 R508). -/
def HP_FIFO_CTRL.DROP_REST : Fld := ⟨0, 0⟩
/-- UNCORR of HP_FIFO_STAT (14 R508). -/
def HP_FIFO_STAT.UNCORR : Fld := ⟨63, 48⟩
/-- CORR of HP_FIFO_STAT (14 R508). -/
def HP_FIFO_STAT.CORR : Fld := ⟨47, 32⟩
/-- OVERRUN of HP_FIFO_STAT (14 R508). -/
def HP_FIFO_STAT.OVERRUN : Fld := ⟨31, 16⟩
/-- DROPPED of HP_FIFO_STAT (14 R508). -/
def HP_FIFO_STAT.DROPPED : Fld := ⟨15, 0⟩
/-- BASE of HP_LAND_BASE (14 R508). -/
def HP_LAND_BASE.BASE : Fld := ⟨47, 0⟩
/-- ROWS of HP_LAND_ROWS (14 R508). -/
def HP_LAND_ROWS.ROWS : Fld := ⟨31, 0⟩
/-- TAIL of HP_LAND_PTR (14 R508). -/
def HP_LAND_PTR.TAIL : Fld := ⟨63, 32⟩
/-- HEAD of HP_LAND_PTR (14 R508). -/
def HP_LAND_PTR.HEAD : Fld := ⟨31, 0⟩
/-- WORD of HP_FIFO_ROW (14 R527). -/
def HP_FIFO_ROW.WORD : Fld := ⟨63, 0⟩
/-- POISON of HP_FIFO_TAG (14 R529). -/
def HP_FIFO_TAG.POISON : Fld := ⟨8, 8⟩
/-- LAST of HP_FIFO_TAG (14 R529). -/
def HP_FIFO_TAG.LAST : Fld := ⟨7, 7⟩
/-- VALID_BYTES of HP_FIFO_TAG (14 R529). -/
def HP_FIFO_TAG.VALID_BYTES : Fld := ⟨6, 0⟩
/-- STATE of LEASE_CFG (15 R537). -/
def LEASE_CFG.STATE : Fld := ⟨63, 62⟩
/-- VC of LEASE_CFG (15 R537). -/
def LEASE_CFG.VC : Fld := ⟨58, 56⟩
/-- SHARES of LEASE_CFG (15 R537). -/
def LEASE_CFG.SHARES : Fld := ⟨55, 40⟩
/-- HCORES of LEASE_CFG (15 R537). -/
def LEASE_CFG.HCORES : Fld := ⟨39, 32⟩
/-- FAULTS of LEASE_CFG (15 R537). -/
def LEASE_CFG.FAULTS : Fld := ⟨31, 16⟩
/-- SEED of LEASE_SEED (15 R537). -/
def LEASE_SEED.SEED : Fld := ⟨63, 0⟩
/-- HOLDER of TC_BIND (15 R552). -/
def TC_BIND.HOLDER : Fld := ⟨63, 56⟩
/-- MODE of TC_BIND (15 R552). -/
def TC_BIND.MODE : Fld := ⟨55, 54⟩
/-- SLOTS of TC_BIND (15 R552). -/
def TC_BIND.SLOTS : Fld := ⟨7, 0⟩
/-- MEMBERS of TC_SHARE (15 R552). -/
def TC_SHARE.MEMBERS : Fld := ⟨63, 0⟩
/-- COUNT of ACCT (15 R557). -/
def ACCT.COUNT : Fld := ⟨63, 0⟩
/-- HOST_MHZ of CLK_CFG (16 R564). -/
def CLK_CFG.HOST_MHZ : Fld := ⟨31, 20⟩
/-- ARITH_MHZ of CLK_CFG (16 R564). -/
def CLK_CFG.ARITH_MHZ : Fld := ⟨19, 8⟩
/-- RATIO_MODE of CLK_CFG (16 R564). -/
def CLK_CFG.RATIO_MODE : Fld := ⟨0, 0⟩
/-- FAILS of CLK_MON_STATUS (16 R575). -/
def CLK_MON_STATUS.FAILS : Fld := ⟨39, 32⟩
/-- LAST_COUNT of CLK_MON_STATUS (16 R575). -/
def CLK_MON_STATUS.LAST_COUNT : Fld := ⟨31, 8⟩
/-- CAUSE of CLK_MON_STATUS (16 R575). -/
def CLK_MON_STATUS.CAUSE : Fld := ⟨4, 3⟩
/-- STANDBY of CLK_MON_STATUS (16 R575). -/
def CLK_MON_STATUS.STANDBY : Fld := ⟨2, 2⟩
/-- HOLDOVER of CLK_MON_STATUS (16 R575). -/
def CLK_MON_STATUS.HOLDOVER : Fld := ⟨1, 1⟩
/-- REF_OK of CLK_MON_STATUS (16 R575). -/
def CLK_MON_STATUS.REF_OK : Fld := ⟨0, 0⟩
/-- ROOT_SV0 of CLK_CTRL (16 R575). -/
def CLK_CTRL.ROOT_SV0 : Fld := ⟨1, 1⟩
/-- RELOCK of CLK_CTRL (16 R575). -/
def CLK_CTRL.RELOCK : Fld := ⟨0, 0⟩
/-- PEAK_W of PWR_LIMIT (16 R580). -/
def PWR_LIMIT.PEAK_W : Fld := ⟨31, 16⟩
/-- SUST_W of PWR_LIMIT (16 R580). -/
def PWR_LIMIT.SUST_W : Fld := ⟨15, 0⟩
/-- POWER_W of PWR_STATUS (16 R584). -/
def PWR_STATUS.POWER_W : Fld := ⟨63, 48⟩
/-- TJ_MAX of PWR_STATUS (16 R584). -/
def PWR_STATUS.TJ_MAX : Fld := ⟨47, 40⟩
/-- DUTY of PWR_STATUS (16 R584). -/
def PWR_STATUS.DUTY : Fld := ⟨36, 32⟩
/-- THERMAL of PWR_STATUS (16 R584). -/
def PWR_STATUS.THERMAL : Fld := ⟨2, 2⟩
/-- LIMITED of PWR_STATUS (16 R584). -/
def PWR_STATUS.LIMITED : Fld := ⟨1, 1⟩
/-- FLOOR of PWR_STATUS (16 R584). -/
def PWR_STATUS.FLOOR : Fld := ⟨0, 0⟩
/-- ENERGY_UJ of PWR_ENERGY (16 R584). -/
def PWR_ENERGY.ENERGY_UJ : Fld := ⟨63, 0⟩
/-- FAIL_COUNT of START_STATUS (17 R603). -/
def START_STATUS.FAIL_COUNT : Fld := ⟨55, 48⟩
/-- STAGE of START_STATUS (17 R603). -/
def START_STATUS.STAGE : Fld := ⟨47, 40⟩
/-- RS_START of START_STATUS (17 R603). -/
def START_STATUS.RS_START : Fld := ⟨35, 34⟩
/-- RS_SETTINGS of START_STATUS (17 R603). -/
def START_STATUS.RS_SETTINGS : Fld := ⟨33, 32⟩
/-- MODE of START_STATUS (17 R603). -/
def START_STATUS.MODE : Fld := ⟨1, 0⟩
/-- ADDRESS of UNIT_ADDR (17 R603). -/
def UNIT_ADDR.ADDRESS : Fld := ⟨63, 48⟩
/-- CHAIN_POS of UNIT_ADDR (17 R603). -/
def UNIT_ADDR.CHAIN_POS : Fld := ⟨47, 32⟩
/-- CHAIN_LEN of UNIT_ADDR (17 R603). -/
def UNIT_ADDR.CHAIN_LEN : Fld := ⟨31, 16⟩
/-- STRAP of UNIT_ADDR (17 R603). -/
def UNIT_ADDR.STRAP : Fld := ⟨15, 9⟩
/-- CHAIN_SRC of UNIT_ADDR (17 R603). -/
def UNIT_ADDR.CHAIN_SRC : Fld := ⟨8, 7⟩
/-- RECLAIMED of UNIT_ADDR (17 R603). -/
def UNIT_ADDR.RECLAIMED : Fld := ⟨2, 2⟩
/-- CHAIN_ERR of UNIT_ADDR (17 R603). -/
def UNIT_ADDR.CHAIN_ERR : Fld := ⟨1, 1⟩
/-- CONFLICT of UNIT_ADDR (17 R603). -/
def UNIT_ADDR.CONFLICT : Fld := ⟨0, 0⟩
/-- SPARES_LEFT of RAS_SPARE (18 R619). -/
def RAS_SPARE.SPARES_LEFT : Fld := ⟨47, 44⟩
/-- PENDING of RAS_SPARE (18 R619). -/
def RAS_SPARE.PENDING : Fld := ⟨43, 40⟩
/-- UNCOVERED of RAS_SPARE (18 R619). -/
def RAS_SPARE.UNCOVERED : Fld := ⟨39, 36⟩
/-- HBM_SPARED of RAS_SPARE (18 R619). -/
def RAS_SPARE.HBM_SPARED : Fld := ⟨35, 32⟩
/-- BANKS_RETIRED of RAS_SPARE (18 R619). -/
def RAS_SPARE.BANKS_RETIRED : Fld := ⟨6, 0⟩
/-- AUTO_SPARE of RAS_CTRL (18 R619). -/
def RAS_CTRL.AUTO_SPARE : Fld := ⟨0, 0⟩
/-- FREE_MIB of SNAP_STAGE (18 R629). -/
def SNAP_STAGE.FREE_MIB : Fld := ⟨47, 24⟩
/-- GIB_PER_SITE of SNAP_STAGE (18 R629). -/
def SNAP_STAGE.GIB_PER_SITE : Fld := ⟨5, 0⟩
/-- MIN_S of SNAP_POLICY (18 R632). -/
def SNAP_POLICY.MIN_S : Fld := ⟨63, 48⟩
/-- MAX_S of SNAP_POLICY (18 R632). -/
def SNAP_POLICY.MAX_S : Fld := ⟨47, 32⟩
/-- PRIOR_H of SNAP_POLICY (18 R632). -/
def SNAP_POLICY.PRIOR_H : Fld := ⟨31, 16⟩
/-- AUTO of SNAP_POLICY (18 R632). -/
def SNAP_POLICY.AUTO : Fld := ⟨0, 0⟩
/-- INTERVAL_S of SNAP_STAT (18 R632). -/
def SNAP_STAT.INTERVAL_S : Fld := ⟨63, 44⟩
/-- LAST_STOP_US of SNAP_STAT (18 R632). -/
def SNAP_STAT.LAST_STOP_US : Fld := ⟨43, 24⟩
/-- FAILURES of SNAP_STAT (18 R632). -/
def SNAP_STAT.FAILURES : Fld := ⟨23, 8⟩
/-- HELD of SNAP_STAT (18 R632). -/
def SNAP_STAT.HELD : Fld := ⟨1, 0⟩
/-- LAST_STATUS of SNAP_RESTORE (18 R632). -/
def SNAP_RESTORE.LAST_STATUS : Fld := ⟨63, 48⟩
/-- SEED_DIFF of SNAP_RESTORE (18 R632). -/
def SNAP_RESTORE.SEED_DIFF : Fld := ⟨23, 23⟩
/-- FIRST_STREAM of SNAP_RESTORE (18 R632). -/
def SNAP_RESTORE.FIRST_STREAM : Fld := ⟨19, 16⟩
/-- REDERIVED of SNAP_RESTORE (18 R632). -/
def SNAP_RESTORE.REDERIVED : Fld := ⟨15, 8⟩
/-- DELTA of SNAP_RESTORE (18 R632). -/
def SNAP_RESTORE.DELTA : Fld := ⟨7, 0⟩
/-- STEP of RNG_STEP (18 R622). -/
def RNG_STEP.STEP : Fld := ⟨31, 0⟩
/-- DETAIL of DBG_STATUS (19 R643). -/
def DBG_STATUS.DETAIL : Fld := ⟨11, 9⟩
/-- ACTIVE of DBG_STATUS (19 R643). -/
def DBG_STATUS.ACTIVE : Fld := ⟨8, 8⟩
/-- GRANTED of DBG_STATUS (19 R643). -/
def DBG_STATUS.GRANTED : Fld := ⟨7, 5⟩
/-- RESULT of DBG_STATUS (19 R643). -/
def DBG_STATUS.RESULT : Fld := ⟨2, 1⟩
/-- BUSY of DBG_STATUS (19 R643). -/
def DBG_STATUS.BUSY : Fld := ⟨0, 0⟩
/-- LOCK of DBG_CTRL (19 R643). -/
def DBG_CTRL.LOCK : Fld := ⟨1, 1⟩
/-- VERIFY of DBG_CTRL (19 R643). -/
def DBG_CTRL.VERIFY : Fld := ⟨0, 0⟩
/-- SEED of PERT_SEED (19 R640). -/
def PERT_SEED.SEED : Fld := ⟨63, 0⟩
/-- NONCE of DBG_NONCE (19 R640). -/
def DBG_NONCE.NONCE : Fld := ⟨63, 0⟩
/-- LOC of INJ_LOC (19 R651). -/
def INJ_LOC.LOC : Fld := ⟨63, 0⟩
/-- WORD of INJ_CTRL (19 R651). -/
def INJ_CTRL.WORD : Fld := ⟨31, 28⟩
/-- PATTERN of INJ_CTRL (19 R651). -/
def INJ_CTRL.PATTERN : Fld := ⟨23, 16⟩
/-- SYM_B of INJ_CTRL (19 R651). -/
def INJ_CTRL.SYM_B : Fld := ⟨15, 10⟩
/-- SYM_A of INJ_CTRL (19 R651). -/
def INJ_CTRL.SYM_A : Fld := ⟨9, 4⟩
/-- TARGET of INJ_CTRL (19 R651). -/
def INJ_CTRL.TARGET : Fld := ⟨3, 2⟩
/-- MODE of INJ_CTRL (19 R651). -/
def INJ_CTRL.MODE : Fld := ⟨1, 1⟩
/-- ARM of INJ_CTRL (19 R651). -/
def INJ_CTRL.ARM : Fld := ⟨0, 0⟩
/-- FIRES of INJ_STATUS (19 R651). -/
def INJ_STATUS.FIRES : Fld := ⟨15, 8⟩
/-- FIRED of INJ_STATUS (19 R651). -/
def INJ_STATUS.FIRED : Fld := ⟨0, 0⟩
/-- TOKEN of DBG_TOKEN (19 R640). -/
def DBG_TOKEN.TOKEN : Fld := ⟨63, 0⟩
/-- CLASSES of PERT_XING (19 R645). -/
def PERT_XING.CLASSES : Fld := ⟨15, 12⟩
/-- RANDOM of PERT_XING (19 R645). -/
def PERT_XING.RANDOM : Fld := ⟨11, 11⟩
/-- DELAY of PERT_XING (19 R645). -/
def PERT_XING.DELAY : Fld := ⟨7, 0⟩
/-- RANDOM of PERT_MEMLAT (19 R645). -/
def PERT_MEMLAT.RANDOM : Fld := ⟨15, 15⟩
/-- ADD of PERT_MEMLAT (19 R645). -/
def PERT_MEMLAT.ADD : Fld := ⟨9, 0⟩
/-- PERIOD of PERT_LINKCR (19 R645). -/
def PERT_LINKCR.PERIOD : Fld := ⟨47, 32⟩
/-- HOLD of PERT_LINKCR (19 R645). -/
def PERT_LINKCR.HOLD : Fld := ⟨31, 16⟩
/-- MASK of PERT_LINKCR (19 R645). -/
def PERT_LINKCR.MASK : Fld := ⟨7, 0⟩
/-- PERIOD of PERT_CREDIT (19 R645). -/
def PERT_CREDIT.PERIOD : Fld := ⟨47, 32⟩
/-- HOLD of PERT_CREDIT (19 R645). -/
def PERT_CREDIT.HOLD : Fld := ⟨31, 16⟩
/-- MASK of PERT_CREDIT (19 R645). -/
def PERT_CREDIT.MASK : Fld := ⟨7, 0⟩
/-- VIN_10MV of PKG_PIN_STATUS (20 R673). -/
def PKG_PIN_STATUS.VIN_10MV : Fld := ⟨63, 48⟩
/-- ALERT of PKG_PIN_STATUS (20 R673). -/
def PKG_PIN_STATUS.ALERT : Fld := ⟨8, 5⟩
/-- TRIP_IN of PKG_PIN_STATUS (20 R673). -/
def PKG_PIN_STATUS.TRIP_IN : Fld := ⟨4, 4⟩
/-- ENABLE of PKG_ALERT_CFG (20 R673). -/
def PKG_ALERT_CFG.ENABLE : Fld := ⟨3, 0⟩
/-- TEMP of PKG_TRIP (20 R673). -/
def PKG_TRIP.TEMP : Fld := ⟨23, 16⟩
/-- DIE of PKG_TRIP (20 R673). -/
def PKG_TRIP.DIE : Fld := ⟨13, 8⟩
/-- CAUSE of PKG_TRIP (20 R673). -/
def PKG_TRIP.CAUSE : Fld := ⟨3, 1⟩
/-- VALID of PKG_TRIP (20 R673). -/
def PKG_TRIP.VALID : Fld := ⟨0, 0⟩

/-- The fields of each register (each chapter's register tables). -/
def RegName.fields : RegName → List FieldSpec
  | .LINK_STATUS => [⟨LINK_STATUS.REPAIRED, .ro, 0, 255, 1, 0⟩,
      ⟨LINK_STATUS.REPLAYING, .ro, 0, 1, 1, 0⟩,
      ⟨LINK_STATUS.UP, .ro, 0, 1, 1, 0⟩]
  | .LINK_ERR_CNT => [⟨LINK_ERR_CNT.UNCORR, .ro, 0, 65535, 1, 0⟩,
      ⟨LINK_ERR_CNT.REPLAY, .ro, 0, 65535, 1, 0⟩,
      ⟨LINK_ERR_CNT.CORR, .ro, 0, 0xffffffff, 1, 0⟩]
  | .LINK_ERR_CLR => [⟨LINK_ERR_CLR.CLEAR, .wo, 0, 1, 1, 0⟩]
  | .CORE_ID => [⟨CORE_ID.GRADE, .ro, 0, 1, 1, 0⟩,
      ⟨CORE_ID.LOGICAL, .ro, 0, 255, 1, 0⟩,
      ⟨CORE_ID.DIE, .ro, 0, 3, 1, 0⟩]
  | .CORE_STATUS => [⟨CORE_STATUS.HALF_BUSY, .ro, 0, 255, 1, 0⟩,
      ⟨CORE_STATUS.PORT_BUSY, .ro, 0, 3, 1, 0⟩,
      ⟨CORE_STATUS.FROZEN, .ro, 0, 1, 1, 0⟩,
      ⟨CORE_STATUS.ISSUING, .ro, 0, 1, 1, 0⟩,
      ⟨CORE_STATUS.BOUND, .ro, 0, 1, 1, 0⟩]
  | .CORE_ECC_STALLS => [⟨CORE_ECC_STALLS.FREEZES, .ro, 0, 65535, 1, 0⟩,
      ⟨CORE_ECC_STALLS.CYCLES, .ro, 0, 0xffffffffffff, 1, 0⟩]
  | .CORE_FMT_EVENTS => [⟨CORE_FMT_EVENTS.NAN_TO_INT, .w1c, 0, 1, 1, 0⟩,
      ⟨CORE_FMT_EVENTS.OVF_SAT, .w1c, 0, 1, 1, 0⟩,
      ⟨CORE_FMT_EVENTS.OVF_NONFINITE, .w1c, 0, 1, 1, 0⟩,
      ⟨CORE_FMT_EVENTS.SCALE_NAN, .w1c, 0, 1, 1, 0⟩]
  | .CORE_DI_EVENT => [⟨CORE_DI_EVENT.COUNT, .ro, 0, 65535, 1, 0⟩,
      ⟨CORE_DI_EVENT.BUNDLE, .ro, 0, 0xffffffff, 1, 0⟩,
      ⟨CORE_DI_EVENT.POISON_MAP, .ro, 0, 255, 1, 0⟩,
      ⟨CORE_DI_EVENT.SOURCE, .ro, 0, 7, 1, 0⟩,
      ⟨CORE_DI_EVENT.VALID, .w1c, 0, 1, 1, 0⟩]
  | .CORE_DI_ROW => [⟨CORE_DI_ROW.ROW, .ro, 0, 8191, 1, 0⟩]
  | .MA_MASK_ROW => [⟨MA_MASK_ROW.MASK, .rw, 0, 0xffffffffffffffff, 1, 0xffffffffffffffff⟩]
  | .MA_MASK_COL => [⟨MA_MASK_COL.MASK, .rw, 0, 0xffffffffffffffff, 1, 0xffffffffffffffff⟩]
  | .CTX_TABLE => [⟨CTX_TABLE.LEASE, .rw, 0, 255, 1, 0⟩,
      ⟨CTX_TABLE.VALID, .rw, 0, 1, 1, 0⟩,
      ⟨CTX_TABLE.BASE_ROW, .rw, 0, 785920, 1, 0⟩]
  | .RING_BASE => [⟨RING_BASE.BASE, .rw, 0, 0xffffffffffff, 4096, 0⟩]
  | .RING_CFG => [⟨RING_CFG.LEASE, .rw, 0, 255, 1, 0⟩,
      ⟨RING_CFG.CONTEXT, .rw, 0, 1023, 1, 0⟩,
      ⟨RING_CFG.CORE, .rw, 0, 127, 1, 0⟩,
      ⟨RING_CFG.SIZE_LOG2, .rw, 9, 24, 1, 0⟩,
      ⟨RING_CFG.WAIT_TMO, .rw, 0, 16, 1, 0⟩,
      ⟨RING_CFG.WHOLE, .rw, 0, 1, 1, 0⟩,
      ⟨RING_CFG.ENABLE, .rw, 0, 1, 1, 0⟩]
  | .RING_PROD => [⟨RING_PROD.PRODUCED, .rw, 0, 0xffffffff, 1, 0⟩,
      ⟨RING_PROD.TAIL, .rw, 0, 0xffffffff, 1, 0⟩]
  | .RING_CONS => [⟨RING_CONS.CONSUMED, .ro, 0, 0xffffffff, 1, 0⟩,
      ⟨RING_CONS.HEAD, .ro, 0, 0xffffffff, 1, 0⟩]
  | .RING_DEPTH => [⟨RING_DEPTH.DEPTH, .ro, 0, 0xffffffff, 1, 0⟩]
  | .RING_STATUS => [⟨RING_STATUS.FAULT_STATUS, .ro, 0, 65535, 1, 0⟩,
      ⟨RING_STATUS.WAIT_FLAG, .ro, 0, 1023, 1, 0⟩,
      ⟨RING_STATUS.UNDERRUN_SEEN, .w1c, 0, 1, 1, 0⟩,
      ⟨RING_STATUS.PUSH_REFUSED, .w1c, 0, 1, 1, 0⟩,
      ⟨RING_STATUS.STATE, .ro, 0, 7, 1, 0⟩]
  | .RING_CTRL => [⟨RING_CTRL.SKIP_KERNEL, .wo, 0, 1, 1, 0⟩,
      ⟨RING_CTRL.DISCARD, .wo, 0, 1, 1, 0⟩,
      ⟨RING_CTRL.CLEAR_FAULT, .wo, 0, 1, 1, 0⟩]
  | .RING_FAULT_AT => [⟨RING_FAULT_AT.SLOT, .ro, 0, 15, 1, 0⟩,
      ⟨RING_FAULT_AT.BUNDLE, .ro, 0, 0xffffffff, 1, 0⟩]
  | .RING_KSTAT => [⟨RING_KSTAT.KERNELS, .ro, 0, 0xffffffff, 1, 0⟩,
      ⟨RING_KSTAT.LAST_STATUS, .ro, 0, 65535, 1, 0⟩]
  | .RING_MARK => [⟨RING_MARK.VALUE, .ro, 0, 0xffffffff, 1, 0⟩]
  | .RING_PREFIX => [⟨RING_PREFIX.EN, .rw, 0, 1, 1, 0⟩,
      ⟨RING_PREFIX.N, .rw, 1, 0xffffffff, 1, 0⟩]
  | .RING_DUMP => [⟨RING_DUMP.COUNT, .rw, 0, 64, 1, 0⟩,
      ⟨RING_DUMP.LIST, .rw, 0, 0xffffffffffff, 16, 0⟩]
  | .SYNC_CYC_HDR => [⟨SYNC_CYC_HDR.LEASE, .ro, 0, 255, 1, 0⟩,
      ⟨SYNC_CYC_HDR.LENGTH, .ro, 0, 255, 1, 0⟩,
      ⟨SYNC_CYC_HDR.VALID, .w1c, 0, 1, 1, 0⟩]
  | .SYNC_CYC_ENT => [⟨SYNC_CYC_ENT.RING, .ro, 0, 65535, 1, 0⟩,
      ⟨SYNC_CYC_ENT.DIE, .ro, 0, 3, 1, 0⟩,
      ⟨SYNC_CYC_ENT.CORE, .ro, 0, 127, 1, 0⟩,
      ⟨SYNC_CYC_ENT.FLAG, .ro, 0, 1023, 1, 0⟩,
      ⟨SYNC_CYC_ENT.EDGE, .ro, 0, 1, 1, 0⟩]
  | .ROW_ECC_CNT => [⟨ROW_ECC_CNT.UNCORR, .ro, 0, 65535, 1, 0⟩,
      ⟨ROW_ECC_CNT.LAST_ROW, .ro, 0, 8191, 1, 0⟩,
      ⟨ROW_ECC_CNT.CORR, .ro, 0, 0xffffffff, 1, 0⟩]
  | .SDM_ECC_CNT => [⟨SDM_ECC_CNT.UNCORR, .ro, 0, 65535, 1, 0⟩,
      ⟨SDM_ECC_CNT.LAST_ROW, .ro, 0, 8191, 1, 0⟩,
      ⟨SDM_ECC_CNT.CORR, .ro, 0, 0xffffffff, 1, 0⟩]
  | .ROW_ECC_CLR => [⟨ROW_ECC_CLR.CLEAR, .wo, 0, 1, 1, 0⟩]
  | .SDM_ECC_CLR => [⟨SDM_ECC_CLR.CLEAR, .wo, 0, 1, 1, 0⟩]
  | .SDM_WCACHE_CFG => [⟨SDM_WCACHE_CFG.BANKS, .rw, 0, 32, 1, 16⟩]
  | .SDM_WCACHE_STAT => [⟨SDM_WCACHE_STAT.HITS, .ro, 0, 0xffffffff, 1, 0⟩,
      ⟨SDM_WCACHE_STAT.MISSES, .ro, 0, 0xffffffff, 1, 0⟩]
  | .SDM_PART => [⟨SDM_PART.LEASE, .rw, 0, 255, 1, 0⟩,
      ⟨SDM_PART.VALID, .rw, 0, 1, 1, 0⟩,
      ⟨SDM_PART.FIRST_BANK, .rw, 0, 95, 1, 0⟩,
      ⟨SDM_PART.BANKS, .rw, 1, 96, 1, 0⟩]
  | .SDM_DI_EVENT => [⟨SDM_DI_EVENT.COUNT, .ro, 0, 65535, 1, 0⟩,
      ⟨SDM_DI_EVENT.LEASE, .ro, 0, 255, 1, 0⟩,
      ⟨SDM_DI_EVENT.BANK, .ro, 0, 127, 1, 0⟩,
      ⟨SDM_DI_EVENT.ROW, .ro, 0, 8191, 1, 0⟩,
      ⟨SDM_DI_EVENT.VALID, .w1c, 0, 1, 1, 0⟩]
  | .ASTK_CFG => [⟨ASTK_CFG.LEASE, .rw, 0, 255, 1, 0⟩,
      ⟨ASTK_CFG.ENABLE, .rw, 0, 1, 1, 0⟩,
      ⟨ASTK_CFG.LIMIT, .rw, 128, 786432, 64, 0⟩,
      ⟨ASTK_CFG.BASE_ROW, .rw, 0, 1048575, 1, 0⟩]
  | .ASTK_SPILL => [⟨ASTK_SPILL.SPILL_BASE, .rw, 0, 0xfffffffffff, 4096, 0⟩]
  | .ASTK_SPILL_ROWS => [⟨ASTK_SPILL_ROWS.ROWS, .rw, 0, 0xffffffff, 64, 0⟩]
  | .ASTK_TOP => [⟨ASTK_TOP.TOP, .rw, 0, 0, 1, 0⟩]
  | .ASTK_FLOOR => [⟨ASTK_FLOOR.FLOOR, .ro, 0, 0xffffffff, 1, 0⟩]
  | .ASTK_STAT => [⟨ASTK_STAT.HWM, .ro, 0, 0xffffffff, 1, 0⟩,
      ⟨ASTK_STAT.SPILLED, .ro, 0, 0xffffffff, 1, 0⟩]
  | .ASTK_FCMD => [⟨ASTK_FCMD.EXPECT, .wo, 0, 0xffffffff, 1, 0⟩,
      ⟨ASTK_FCMD.MB, .wo, 0, 65535, 1, 0⟩,
      ⟨ASTK_FCMD.CMD, .wo, 0, 3, 1, 0⟩]
  | .ASTK_FSTAT => [⟨ASTK_FSTAT.MISMATCHES, .ro, 0, 65535, 1, 0⟩,
      ⟨ASTK_FSTAT.LAST_MB, .ro, 0, 65535, 1, 0⟩,
      ⟨ASTK_FSTAT.REFUSED, .w1c, 0, 1, 1, 0⟩,
      ⟨ASTK_FSTAT.NFRAMES, .ro, 0, 31, 1, 0⟩]
  | .ASTK_FRAME => [⟨ASTK_FRAME.STATE, .ro, 0, 3, 1, 0⟩,
      ⟨ASTK_FRAME.MISMATCH, .ro, 0, 1, 1, 0⟩,
      ⟨ASTK_FRAME.MB, .ro, 0, 65535, 1, 0⟩,
      ⟨ASTK_FRAME.BASE, .ro, 0, 0xffffffff, 1, 0⟩]
  | .ASTK_FACCT => [⟨ASTK_FACCT.SEALED, .ro, 0, 0xffffffff, 1, 0⟩,
      ⟨ASTK_FACCT.PEAK, .ro, 0, 0xffffffff, 1, 0⟩]
  | .ASTK_FEXP => [⟨ASTK_FEXP.SPILLED, .ro, 0, 0xffffffff, 1, 0⟩,
      ⟨ASTK_FEXP.EXPECT, .ro, 0, 0xffffffff, 1, 0⟩]
  | .STRM_CH_STATUS => [⟨STRM_CH_STATUS.LANDED, .ro, 0, 0xffffffff, 1, 0⟩,
      ⟨STRM_CH_STATUS.HANDLE, .ro, 0, 65535, 1, 0⟩,
      ⟨STRM_CH_STATUS.HALF_A, .ro, 0, 3, 1, 0⟩,
      ⟨STRM_CH_STATUS.HALF_B, .ro, 0, 3, 1, 0⟩,
      ⟨STRM_CH_STATUS.PENDING, .ro, 0, 1, 1, 0⟩,
      ⟨STRM_CH_STATUS.NEXT, .ro, 0, 1, 1, 0⟩,
      ⟨STRM_CH_STATUS.ACTIVE, .ro, 0, 1, 1, 0⟩]
  | .AWL_STATUS => [⟨AWL_STATUS.OOB_COUNT, .ro, 0, 65535, 1, 0⟩,
      ⟨AWL_STATUS.BUSY, .ro, 0, 65535, 1, 0⟩]
  | .TEMPER_CFG => [⟨TEMPER_CFG.STARVE_LIMIT, .rw, 1024, 65535, 1, 8192⟩]
  | .MCQ_STAT => [⟨MCQ_STAT.PEAK, .ro, 0, 4095, 1, 0⟩,
      ⟨MCQ_STAT.INFLIGHT, .ro, 0, 4095, 1, 0⟩,
      ⟨MCQ_STAT.CAP_DEFERS, .ro, 0, 1048575, 1, 0⟩,
      ⟨MCQ_STAT.STARVE_GRANTS, .ro, 0, 1048575, 1, 0⟩]
  | .MCQ_CLR => [⟨MCQ_CLR.CLEAR, .wo, 0, 1, 1, 0⟩]
  | .MEMC_DI_EVENT => [⟨MEMC_DI_EVENT.COUNT, .ro, 0, 65535, 1, 0⟩,
      ⟨MEMC_DI_EVENT.LEASE, .ro, 0, 255, 1, 0⟩,
      ⟨MEMC_DI_EVENT.PCH, .ro, 0, 63, 1, 0⟩,
      ⟨MEMC_DI_EVENT.ROW, .ro, 0, 268435455, 1, 0⟩,
      ⟨MEMC_DI_EVENT.VALID, .w1c, 0, 1, 1, 0⟩]
  | .MEMC_ECC_CLR => [⟨MEMC_ECC_CLR.CLEAR, .wo, 0, 1, 1, 0⟩]
  | .HBM_SPARE => [⟨HBM_SPARE.PROGRESS, .ro, 0, 8388607, 1, 0⟩,
      ⟨HBM_SPARE.STATE, .ro, 0, 3, 1, 0⟩,
      ⟨HBM_SPARE.FAILED_PC, .rw, 0, 31, 1, 0⟩,
      ⟨HBM_SPARE.START, .wo, 0, 1, 1, 0⟩]
  | .HBM_PDN_CTRL => [⟨HBM_PDN_CTRL.DOWN_REQ, .wo, 0, 1, 1, 0⟩,
      ⟨HBM_PDN_CTRL.GROUP, .rw, 0, 15, 1, 0⟩]
  | .HBM_PDN_STATUS => [⟨HBM_PDN_STATUS.DOWN, .ro, 0, 65535, 1, 0⟩,
      ⟨HBM_PDN_STATUS.RESULT, .ro, 0, 3, 1, 0⟩,
      ⟨HBM_PDN_STATUS.PENDING, .ro, 0, 1, 1, 0⟩]
  | .MEMC_THERM => [⟨MEMC_THERM.THROTTLE, .ro, 0, 1, 1, 0⟩,
      ⟨MEMC_THERM.REFX2, .ro, 0, 1, 1, 0⟩,
      ⟨MEMC_THERM.TEMP, .ro, 0, 255, 1, 0⟩]
  | .MEMC_ECC_CNT => [⟨MEMC_ECC_CNT.UNCORR, .ro, 0, 65535, 1, 0⟩,
      ⟨MEMC_ECC_CNT.ODECC, .ro, 0, 65535, 1, 0⟩,
      ⟨MEMC_ECC_CNT.CORR, .ro, 0, 0xffffffff, 1, 0⟩]
  | .WELT_CMD => [⟨WELT_CMD.GROUP, .wo, 0, 127, 1, 0⟩,
      ⟨WELT_CMD.OP, .wo, 0, 15, 1, 0⟩]
  | .WELT_STATUS => [⟨WELT_STATUS.LAST_STATUS, .ro, 0, 65535, 1, 0⟩,
      ⟨WELT_STATUS.BAD_LAYER, .ro, 0, 4095, 1, 0⟩,
      ⟨WELT_STATUS.OPEN_GROUP, .ro, 0, 127, 1, 0⟩,
      ⟨WELT_STATUS.PHASE, .ro, 0, 3, 1, 0⟩,
      ⟨WELT_STATUS.LAST_OP, .ro, 0, 7, 1, 0⟩,
      ⟨WELT_STATUS.POISON, .w1c, 0, 1, 1, 0⟩,
      ⟨WELT_STATUS.BUSY, .ro, 0, 1, 1, 0⟩]
  | .WELT_FREEZE => [⟨WELT_FREEZE.MASK, .rw, 0, 0xffffffffffffffff, 1, 0⟩]
  | .WELT_GROUP_CFG => [⟨WELT_GROUP_CFG.LEASE, .rw, 0, 255, 1, 0⟩,
      ⟨WELT_GROUP_CFG.VALID, .rw, 0, 1, 1, 0⟩,
      ⟨WELT_GROUP_CFG.STEP, .rw, 0, 0xffffffff, 1, 0⟩]
  | .WELT_GROUP_CLIP => [⟨WELT_GROUP_CLIP.SKIPS, .ro, 0, 0xffffffff, 1, 0⟩,
      ⟨WELT_GROUP_CLIP.CLIP, .rw, 0, 0xffffffff, 1, 0⟩]
  | .WELT_GROUP_PART => [⟨WELT_GROUP_PART.PART_BASE, .rw, 0, 0xffffffffffff, 512, 0⟩]
  | .WELT_GROUP_RED => [⟨WELT_GROUP_RED.RED_BASE, .rw, 0, 0xffffffffffff, 512, 0⟩]
  | .WELT_GROUP_NORM => [⟨WELT_GROUP_NORM.LAST_NORM, .ro, 0, 0xffffffff, 1, 0⟩]
  | .WELT_HP_B1 => [⟨WELT_HP_B1.B1, .rw, 0, 0xffffffff, 1, 0⟩,
      ⟨WELT_HP_B1.LR, .rw, 0, 0xffffffff, 1, 0⟩]
  | .WELT_HP_EPS => [⟨WELT_HP_EPS.EPS, .rw, 0, 0xffffffff, 1, 0⟩,
      ⟨WELT_HP_EPS.B2, .rw, 0, 0xffffffff, 1, 0⟩]
  | .WELT_HP_WD => [⟨WELT_HP_WD.WD, .rw, 0, 0xffffffff, 1, 0⟩]
  | .WELT_HP_LEASE => [⟨WELT_HP_LEASE.LEASE, .rw, 0, 255, 1, 0⟩,
      ⟨WELT_HP_LEASE.NESTEROV, .rw, 0, 1, 1, 0⟩,
      ⟨WELT_HP_LEASE.BIASCORR, .rw, 0, 1, 1, 0⟩]
  | .WELT_LAYER_SHAPE => [⟨WELT_LAYER_SHAPE.ROWS, .rw, 1, 1048575, 1, 0⟩,
      ⟨WELT_LAYER_SHAPE.COLS, .rw, 1, 1048575, 1, 0⟩,
      ⟨WELT_LAYER_SHAPE.VALID, .rw, 0, 1, 1, 0⟩,
      ⟨WELT_LAYER_SHAPE.GROUP, .rw, 0, 127, 1, 0⟩,
      ⟨WELT_LAYER_SHAPE.HP, .rw, 0, 63, 1, 0⟩,
      ⟨WELT_LAYER_SHAPE.WELT_RULE_SEL, .rw, 0, 3, 1, 0⟩,
      ⟨WELT_LAYER_SHAPE.ORDER, .rw, 0, 1, 1, 0⟩,
      ⟨WELT_LAYER_SHAPE.COPY_SR, .rw, 0, 1, 1, 0⟩]
  | .WELT_LAYER_P => [⟨WELT_LAYER_P.P_BASE, .rw, 0, 0xffffffffffff, 1, 0⟩]
  | .WELT_LAYER_G => [⟨WELT_LAYER_G.G_BASE, .rw, 0, 0xffffffffffff, 1, 0⟩]
  | .WELT_LAYER_S1 => [⟨WELT_LAYER_S1.S1_BASE, .rw, 0, 0xffffffffffff, 1, 0⟩]
  | .WELT_LAYER_S2 => [⟨WELT_LAYER_S2.S2_BASE, .rw, 0, 0xffffffffffff, 1, 0⟩]
  | .WELT_LAYER_COPY => [⟨WELT_LAYER_COPY.COPY_BASE, .rw, 0, 0xffffffffffff, 1, 0⟩]
  | .WELT_LAYER_XCH => [⟨WELT_LAYER_XCH.XCH_BASE, .rw, 0, 0xffffffffffff, 1, 0⟩]
  | .WELT_LAYER_STATE => [⟨WELT_LAYER_STATE.EPOCH, .rw, 0, 0xffffffff, 1, 0⟩,
      ⟨WELT_LAYER_STATE.APPLYING, .ro, 0, 1, 1, 0⟩,
      ⟨WELT_LAYER_STATE.ORT_WAIT, .ro, 0, 1, 1, 0⟩,
      ⟨WELT_LAYER_STATE.DAMAGED, .ro, 0, 1, 1, 0⟩]
  | .KVP_CFG => [⟨KVP_CFG.LEASE, .rw, 0, 255, 1, 0⟩,
      ⟨KVP_CFG.ENABLE, .rw, 0, 1, 1, 0⟩,
      ⟨KVP_CFG.KFMT, .rw, 0, 15, 1, 0⟩,
      ⟨KVP_CFG.VFMT, .rw, 1, 4, 1, 0⟩,
      ⟨KVP_CFG.DIM, .rw, 0, 2, 1, 0⟩,
      ⟨KVP_CFG.REGIONS, .rw, 1, 4095, 1, 0⟩,
      ⟨KVP_CFG.PAGES, .rw, 1, 16777215, 1, 0⟩]
  | .KVP_BASE => [⟨KVP_BASE.BASE, .rw, 0, 0x1fffffffffff, 4096, 0⟩]
  | .KVP_META => [⟨KVP_META.META, .rw, 0, 0xffffffffffff, 512, 0⟩]
  | .KVP_FREE => [⟨KVP_FREE.FREE, .ro, 0, 16777215, 1, 0⟩]
  | .KVP_LIST => [⟨KVP_LIST.LIST, .rw, 0, 0xffffffffffff, 16, 0⟩]
  | .KVP_GO => [⟨KVP_GO.COUNT, .wo, 0, 4095, 1, 0⟩,
      ⟨KVP_GO.FLAG, .wo, 0, 1023, 1, 0⟩,
      ⟨KVP_GO.SETFLAG, .wo, 0, 1, 1, 0⟩,
      ⟨KVP_GO.GO, .wo, 0, 1, 1, 0⟩]
  | .KVP_STATUS => [⟨KVP_STATUS.LAST_STATUS, .ro, 0, 65535, 1, 0⟩,
      ⟨KVP_STATUS.DONE, .ro, 0, 4095, 1, 0⟩,
      ⟨KVP_STATUS.INIT, .ro, 0, 1, 1, 0⟩,
      ⟨KVP_STATUS.REFUSED, .w1c, 0, 1, 1, 0⟩,
      ⟨KVP_STATUS.BUSY, .ro, 0, 1, 1, 0⟩]
  | .ATTN_STATUS => [⟨ATTN_STATUS.EMPTY_ROWS, .ro, 0, 65535, 1, 0⟩,
      ⟨ATTN_STATUS.OPEN, .ro, 0, 65535, 1, 0⟩]
  | .PEER_PORT_CFG => [⟨PEER_PORT_CFG.MODE, .rw, 0, 4, 1, 0⟩,
      ⟨PEER_PORT_CFG.DIR, .rw, 0, 7, 1, 7⟩,
      ⟨PEER_PORT_CFG.STANDBY, .rw, 0, 1, 1, 0⟩,
      ⟨PEER_PORT_CFG.ENABLE, .rw, 0, 1, 1, 1⟩]
  | .PEER_PORT_STATUS => [⟨PEER_PORT_STATUS.PARTNER, .ro, 0, 65535, 1, 0⟩,
      ⟨PEER_PORT_STATUS.LANES, .ro, 0, 15, 1, 0⟩,
      ⟨PEER_PORT_STATUS.RETRAINS, .ro, 0, 65535, 1, 0⟩,
      ⟨PEER_PORT_STATUS.SPEED, .ro, 0, 3, 1, 0⟩,
      ⟨PEER_PORT_STATUS.DEGRADED, .ro, 0, 1, 1, 0⟩,
      ⟨PEER_PORT_STATUS.UP, .ro, 0, 1, 1, 0⟩]
  | .PEER_PORT_ERR => [⟨PEER_PORT_ERR.DISCARDS, .ro, 0, 65535, 1, 0⟩,
      ⟨PEER_PORT_ERR.FEC_UNCORR, .ro, 0, 65535, 1, 0⟩,
      ⟨PEER_PORT_ERR.FEC_CORR, .ro, 0, 0xffffffff, 1, 0⟩]
  | .PEER_PORT_CLR => [⟨PEER_PORT_CLR.CLEAR, .wo, 0, 1, 1, 0⟩]
  | .FAB_CFG => [⟨FAB_CFG.UDP_PORT, .rw, 1, 65535, 1, 47089⟩,
      ⟨FAB_CFG.WRAP, .rw, 0, 7, 1, 0⟩,
      ⟨FAB_CFG.EXT_Z_M1, .rw, 0, 63, 1, 0⟩,
      ⟨FAB_CFG.EXT_Y_M1, .rw, 0, 63, 1, 0⟩,
      ⟨FAB_CFG.EXT_X_M1, .rw, 0, 63, 1, 0⟩,
      ⟨FAB_CFG.ENABLE, .rw, 0, 1, 1, 0⟩]
  | .FAB_PREFIX => [⟨FAB_PREFIX.PREFIX, .rw, 0, 0xffffffffffffffff, 1, 0xfd00000000000000⟩]
  | .FAB_COORD => [⟨FAB_COORD.VALID, .rw, 0, 1, 1, 0⟩,
      ⟨FAB_COORD.Z, .rw, 0, 63, 1, 0⟩,
      ⟨FAB_COORD.Y, .rw, 0, 63, 1, 0⟩,
      ⟨FAB_COORD.X, .rw, 0, 63, 1, 0⟩]
  | .FAB_VC => [⟨FAB_VC.WEIGHT, .rw, 1, 255, 1, 32⟩,
      ⟨FAB_VC.CELLS, .rw, 64, 2048, 64, 448⟩]
  | .FAB_TMO => [⟨FAB_TMO.RTO_US, .rw, 1, 255, 1, 16⟩,
      ⟨FAB_TMO.RETRY, .rw, 1, 15, 1, 7⟩]
  | .FAB_STAT => [⟨FAB_STAT.CONN_FAIL, .ro, 0, 4095, 1, 0⟩,
      ⟨FAB_STAT.UNKNOWN_SRC, .ro, 0, 4095, 1, 0⟩,
      ⟨FAB_STAT.ROUTE_DROP, .ro, 0, 255, 1, 0⟩,
      ⟨FAB_STAT.RETRANSMITS, .ro, 0, 0xffffffff, 1, 0⟩]
  | .FAB_STAT_CLR => [⟨FAB_STAT_CLR.CLEAR, .wo, 0, 1, 1, 0⟩]
  | .PEER_SIG => [⟨PEER_SIG.LEASE, .rw, 0, 255, 1, 0⟩,
      ⟨PEER_SIG.VALID, .rw, 0, 1, 1, 0⟩,
      ⟨PEER_SIG.ROW, .rw, 0, 786431, 1, 0⟩,
      ⟨PEER_SIG.CORE, .rw, 0, 127, 1, 0⟩,
      ⟨PEER_SIG.FLAG, .rw, 0, 1023, 1, 0⟩]
  | .COLL_GROUP => [⟨COLL_GROUP.LEASE, .rw, 0, 255, 1, 0⟩,
      ⟨COLL_GROUP.VALID, .rw, 0, 1, 1, 0⟩,
      ⟨COLL_GROUP.E2_M1, .rw, 0, 63, 1, 0⟩,
      ⟨COLL_GROUP.E1_M1, .rw, 0, 63, 1, 0⟩,
      ⟨COLL_GROUP.E0_M1, .rw, 0, 63, 1, 0⟩,
      ⟨COLL_GROUP.RANK, .rw, 0, 4095, 1, 0⟩,
      ⟨COLL_GROUP.TMO_LOG2, .rw, 0, 12, 1, 0⟩]
  | .COLL_MEMBERS => [⟨COLL_MEMBERS.MEMBERS, .rw, 0, 0xffffffffffff, 512, 0⟩]
  | .COLL_SUBMIT => [⟨COLL_SUBMIT.DESC, .wo, 0, 0xffffffffffff, 1, 0⟩]
  | .COLL_STATUS => [⟨COLL_STATUS.LAST_STATUS, .ro, 0, 65535, 1, 0⟩,
      ⟨COLL_STATUS.DONE, .ro, 0, 65535, 1, 0⟩,
      ⟨COLL_STATUS.QUEUED, .ro, 0, 31, 1, 0⟩,
      ⟨COLL_STATUS.REFUSED, .w1c, 0, 1, 1, 0⟩,
      ⟨COLL_STATUS.BUSY, .ro, 0, 1, 1, 0⟩]
  | .L3_RANGE_BASE => [⟨L3_RANGE_BASE.BASE, .rw, 0, 0xffffffffffff, 1, 0⟩]
  | .L3_RANGE_CTL => [⟨L3_RANGE_CTL.ROWS, .wo, 0, 16777215, 1, 0⟩,
      ⟨L3_RANGE_CTL.OP, .wo, 0, 3, 1, 0⟩,
      ⟨L3_RANGE_CTL.GO, .wo, 0, 1, 1, 0⟩]
  | .L3_RANGE_STATUS => [⟨L3_RANGE_STATUS.LAST_STATUS, .ro, 0, 65535, 1, 0⟩,
      ⟨L3_RANGE_STATUS.REFUSED, .w1c, 0, 1, 1, 0⟩,
      ⟨L3_RANGE_STATUS.BUSY, .ro, 0, 1, 1, 0⟩]
  | .L3_ECC_CNT => [⟨L3_ECC_CNT.UNCORR, .ro, 0, 65535, 1, 0⟩,
      ⟨L3_ECC_CNT.CORR, .ro, 0, 0xffffffff, 1, 0⟩]
  | .HC_BIND => [⟨HC_BIND.LEASE, .rw, 0, 255, 1, 0⟩,
      ⟨HC_BIND.VALID, .rw, 0, 1, 1, 0⟩]
  | .HC_STATUS => [⟨HC_STATUS.QUIESCED, .ro, 0, 1, 1, 0⟩,
      ⟨HC_STATUS.WFI, .ro, 0, 1, 1, 0⟩,
      ⟨HC_STATUS.BOUND, .ro, 0, 1, 1, 0⟩]
  | .HC_ECC_CNT => [⟨HC_ECC_CNT.UNCORR, .ro, 0, 65535, 1, 0⟩,
      ⟨HC_ECC_CNT.CORR, .ro, 0, 0xffffffff, 1, 0⟩]
  | .HC_DI_EVENT => [⟨HC_DI_EVENT.COUNT, .ro, 0, 65535, 1, 0⟩,
      ⟨HC_DI_EVENT.ROW, .ro, 0, 0x7fffffffff, 1, 0⟩,
      ⟨HC_DI_EVENT.SOURCE, .ro, 0, 3, 1, 0⟩,
      ⟨HC_DI_EVENT.VALID, .w1c, 0, 1, 1, 0⟩]
  | .EYE_MSG => [⟨EYE_MSG.WORD, .rw, 0, 0xffffffffffffffff, 1, 0⟩]
  | .EYE_STATUS => [⟨EYE_STATUS.TIMEOUT, .w1c, 0, 1, 1, 0⟩,
      ⟨EYE_STATUS.COLLISION, .w1c, 0, 1, 1, 0⟩,
      ⟨EYE_STATUS.EMPTIED, .w1c, 0, 1, 1, 0⟩,
      ⟨EYE_STATUS.FULL, .ro, 0, 1, 1, 0⟩]
  | .EYE_CFG => [⟨EYE_CFG.LEASE, .rw, 0, 255, 1, 0⟩,
      ⟨EYE_CFG.VALID, .rw, 0, 1, 1, 0⟩,
      ⟨EYE_CFG.CLASS, .rw, 0, 1, 1, 0⟩,
      ⟨EYE_CFG.RX_IE, .rw, 0, 1, 1, 0⟩,
      ⟨EYE_CFG.TX_IE, .rw, 0, 1, 1, 0⟩,
      ⟨EYE_CFG.TMO_US, .rw, 1, 65535, 1, 0⟩]
  | .EYE_DB => [⟨EYE_DB.BELLS, .w1c, 0, 0xffffffff, 1, 0⟩]
  | .EYE_DB_SET => [⟨EYE_DB_SET.RING, .wo, 0, 0xffffffff, 1, 0⟩]
  | .EYE_DB_MASK => [⟨EYE_DB_MASK.MASK, .rw, 0, 0xffffffff, 1, 0⟩]
  | .EYE_TXSUM => [⟨EYE_TXSUM.LINES, .ro, 0, 255, 1, 0⟩]
  | .IC_CFG => [⟨IC_CFG.FORCE_RR, .rw, 0, 1, 1, 0⟩,
      ⟨IC_CFG.FILTER, .rw, 2, 255, 1, 8⟩]
  | .IC_SWSET => [⟨IC_SWSET.SOURCE, .wo, 0, 1023, 1, 0⟩]
  | .IC_ENABLE => [⟨IC_ENABLE.BITS, .rw, 0, 0xffffffffffffffff, 1, 0⟩]
  | .IC_PENDING => [⟨IC_PENDING.BITS, .rw, 0, 0xffffffffffffffff, 1, 0⟩]
  | .IC_ACTIVE => [⟨IC_ACTIVE.BITS, .ro, 0, 0xffffffffffffffff, 1, 0⟩]
  | .IC_SRC => [⟨IC_SRC.TARGET, .rw, 0, 65535, 1, 0⟩,
      ⟨IC_SRC.ESC, .rw, 0, 1, 1, 0⟩,
      ⟨IC_SRC.FILTERED, .ro, 0, 1, 1, 0⟩,
      ⟨IC_SRC.LEVEL, .ro, 0, 1, 1, 0⟩,
      ⟨IC_SRC.PRIO, .rw, 0, 7, 1, 0⟩]
  | .IC_TGT_CFG => [⟨IC_TGT_CFG.SUPV, .rw, 0, 1, 1, 0⟩,
      ⟨IC_TGT_CFG.EN, .rw, 0, 1, 1, 0⟩,
      ⟨IC_TGT_CFG.THRESHOLD, .rw, 0, 7, 1, 0⟩]
  | .IC_CLAIM => [⟨IC_CLAIM.SOURCE, .ro, 0, 1023, 1, 0⟩]
  | .IC_COMPLETE => [⟨IC_COMPLETE.SOURCE, .wo, 0, 1023, 1, 0⟩]
  | .IC_RING_NOTE => [⟨IC_RING_NOTE.VALID, .ro, 0, 1, 1, 0⟩,
      ⟨IC_RING_NOTE.OVERFLOW, .ro, 0, 1, 1, 0⟩,
      ⟨IC_RING_NOTE.STATUS, .ro, 0, 65535, 1, 0⟩,
      ⟨IC_RING_NOTE.RING, .ro, 0, 16383, 1, 0⟩]
  | .HP_CFG => [⟨HP_CFG.UDP_PORT, .rw, 1, 65535, 1, 47088⟩,
      ⟨HP_CFG.VLAN, .rw, 0, 4094, 1, 0⟩,
      ⟨HP_CFG.WINDOW_MAX, .rw, 1, 255, 1, 64⟩,
      ⟨HP_CFG.MODE, .rw, 0, 4, 1, 0⟩,
      ⟨HP_CFG.IP, .rw, 1, 3, 1, 1⟩,
      ⟨HP_CFG.ENABLE, .rw, 0, 1, 1, 1⟩]
  | .HP_STATUS => [⟨HP_STATUS.SESSIONS, .ro, 0, 65535, 1, 0⟩,
      ⟨HP_STATUS.LANES, .ro, 0, 15, 1, 0⟩,
      ⟨HP_STATUS.RETRAINS, .ro, 0, 65535, 1, 0⟩,
      ⟨HP_STATUS.SPEED, .ro, 0, 3, 1, 0⟩,
      ⟨HP_STATUS.DEGRADED, .ro, 0, 1, 1, 0⟩,
      ⟨HP_STATUS.UP, .ro, 0, 1, 1, 0⟩]
  | .HP_ERR => [⟨HP_ERR.DISCARDS, .ro, 0, 65535, 1, 0⟩,
      ⟨HP_ERR.FEC_UNCORR, .ro, 0, 65535, 1, 0⟩,
      ⟨HP_ERR.FEC_CORR, .ro, 0, 0xffffffff, 1, 0⟩]
  | .HP_CLR => [⟨HP_CLR.CLEAR, .wo, 0, 1, 1, 0⟩]
  | .HP_SEC => [⟨HP_SEC.AUTH_FAIL, .ro, 0, 65535, 1, 0⟩,
      ⟨HP_SEC.REPLAY, .ro, 0, 65535, 1, 0⟩,
      ⟨HP_SEC.WINDOW_REFUSED, .ro, 0, 65535, 1, 0⟩,
      ⟨HP_SEC.STALE, .ro, 0, 65535, 1, 0⟩]
  | .HP_MAC => [⟨HP_MAC.MAC, .ro, 0, 0xffffffffffff, 1, 0⟩]
  | .HP_IPV4 => [⟨HP_IPV4.PREFIX, .rw, 0, 32, 1, 0⟩,
      ⟨HP_IPV4.ADDR, .rw, 0, 0xffffffff, 1, 0⟩]
  | .HP_IPV6_HI => [⟨HP_IPV6_HI.ADDR, .rw, 0, 0xffffffffffffffff, 1, 0⟩]
  | .HP_IPV6_LO => [⟨HP_IPV6_LO.ADDR, .rw, 0, 0xffffffffffffffff, 1, 0⟩]
  | .HP_FIFO_PTR => [⟨HP_FIFO_PTR.TAIL, .ro, 0, 0xffffffff, 1, 0⟩,
      ⟨HP_FIFO_PTR.HEAD, .rw, 0, 0xffffffff, 1, 0⟩]
  | .HP_FIFO_CTRL => [⟨HP_FIFO_CTRL.DROP_REST, .wo, 0, 1, 1, 0⟩]
  | .HP_FIFO_STAT => [⟨HP_FIFO_STAT.UNCORR, .ro, 0, 65535, 1, 0⟩,
      ⟨HP_FIFO_STAT.CORR, .ro, 0, 65535, 1, 0⟩,
      ⟨HP_FIFO_STAT.OVERRUN, .ro, 0, 65535, 1, 0⟩,
      ⟨HP_FIFO_STAT.DROPPED, .ro, 0, 65535, 1, 0⟩]
  | .HP_LAND_BASE => [⟨HP_LAND_BASE.BASE, .rw, 0, 0xffffffffffff, 512, 0⟩]
  | .HP_LAND_ROWS => [⟨HP_LAND_ROWS.ROWS, .rw, 64, 2097152, 64, 0⟩]
  | .HP_LAND_PTR => [⟨HP_LAND_PTR.TAIL, .ro, 0, 0xffffffff, 1, 0⟩,
      ⟨HP_LAND_PTR.HEAD, .rw, 0, 0xffffffff, 1, 0⟩]
  | .HP_FIFO_ROW => [⟨HP_FIFO_ROW.WORD, .ro, 0, 0xffffffffffffffff, 1, 0⟩]
  | .HP_FIFO_TAG => [⟨HP_FIFO_TAG.POISON, .ro, 0, 1, 1, 0⟩,
      ⟨HP_FIFO_TAG.LAST, .ro, 0, 1, 1, 0⟩,
      ⟨HP_FIFO_TAG.VALID_BYTES, .ro, 0, 127, 1, 0⟩]
  | .LEASE_CFG => [⟨LEASE_CFG.STATE, .ro, 0, 3, 1, 0⟩,
      ⟨LEASE_CFG.VC, .ro, 0, 7, 1, 0⟩,
      ⟨LEASE_CFG.SHARES, .ro, 0, 65535, 1, 0⟩,
      ⟨LEASE_CFG.HCORES, .ro, 0, 255, 1, 0⟩,
      ⟨LEASE_CFG.FAULTS, .ro, 0, 65535, 1, 0⟩]
  | .LEASE_SEED => [⟨LEASE_SEED.SEED, .ro, 0, 0xffffffffffffffff, 1, 0⟩]
  | .TC_BIND => [⟨TC_BIND.HOLDER, .ro, 0, 255, 1, 0⟩,
      ⟨TC_BIND.MODE, .ro, 0, 3, 1, 0⟩,
      ⟨TC_BIND.SLOTS, .ro, 0, 255, 1, 0⟩]
  | .TC_SHARE => [⟨TC_SHARE.MEMBERS, .ro, 0, 0xffffffffffffffff, 1, 0⟩]
  | .ACCT => [⟨ACCT.COUNT, .ro, 0, 0xffffffffffffffff, 1, 0⟩]
  | .CLK_CFG => [⟨CLK_CFG.HOST_MHZ, .rw, 1100, 2200, 1, 2200⟩,
      ⟨CLK_CFG.ARITH_MHZ, .rw, 550, 1100, 1, 1100⟩,
      ⟨CLK_CFG.RATIO_MODE, .rw, 0, 1, 1, 0⟩]
  | .CLK_MON_STATUS => [⟨CLK_MON_STATUS.FAILS, .ro, 0, 255, 1, 0⟩,
      ⟨CLK_MON_STATUS.LAST_COUNT, .ro, 0, 16777215, 1, 0⟩,
      ⟨CLK_MON_STATUS.CAUSE, .ro, 0, 3, 1, 0⟩,
      ⟨CLK_MON_STATUS.STANDBY, .ro, 0, 1, 1, 0⟩,
      ⟨CLK_MON_STATUS.HOLDOVER, .ro, 0, 1, 1, 0⟩,
      ⟨CLK_MON_STATUS.REF_OK, .ro, 0, 1, 1, 0⟩]
  | .CLK_CTRL => [⟨CLK_CTRL.ROOT_SV0, .wo, 0, 1, 1, 0⟩,
      ⟨CLK_CTRL.RELOCK, .wo, 0, 1, 1, 0⟩]
  | .PWR_LIMIT => [⟨PWR_LIMIT.PEAK_W, .rw, 2000, 4200, 1, 4200⟩,
      ⟨PWR_LIMIT.SUST_W, .rw, 2000, 3800, 1, 3800⟩]
  | .PWR_STATUS => [⟨PWR_STATUS.POWER_W, .ro, 0, 65535, 1, 0⟩,
      ⟨PWR_STATUS.TJ_MAX, .ro, 0, 255, 1, 0⟩,
      ⟨PWR_STATUS.DUTY, .ro, 0, 31, 1, 16⟩,
      ⟨PWR_STATUS.THERMAL, .ro, 0, 1, 1, 0⟩,
      ⟨PWR_STATUS.LIMITED, .ro, 0, 1, 1, 0⟩,
      ⟨PWR_STATUS.FLOOR, .ro, 0, 1, 1, 0⟩]
  | .PWR_ENERGY => [⟨PWR_ENERGY.ENERGY_UJ, .ro, 0, 0xffffffffffffffff, 1, 0⟩]
  | .START_STATUS => [⟨START_STATUS.FAIL_COUNT, .ro, 0, 255, 1, 0⟩,
      ⟨START_STATUS.STAGE, .ro, 0, 255, 1, 0⟩,
      ⟨START_STATUS.RS_START, .ro, 0, 3, 1, 0⟩,
      ⟨START_STATUS.RS_SETTINGS, .ro, 0, 3, 1, 0⟩,
      ⟨START_STATUS.MODE, .ro, 0, 3, 1, 0⟩]
  | .UNIT_ADDR => [⟨UNIT_ADDR.ADDRESS, .ro, 0, 65535, 1, 0⟩,
      ⟨UNIT_ADDR.CHAIN_POS, .ro, 0, 65535, 1, 65535⟩,
      ⟨UNIT_ADDR.CHAIN_LEN, .ro, 0, 65535, 1, 0⟩,
      ⟨UNIT_ADDR.STRAP, .ro, 0, 127, 1, 127⟩,
      ⟨UNIT_ADDR.CHAIN_SRC, .ro, 0, 3, 1, 0⟩,
      ⟨UNIT_ADDR.RECLAIMED, .ro, 0, 1, 1, 0⟩,
      ⟨UNIT_ADDR.CHAIN_ERR, .w1c, 0, 1, 1, 0⟩,
      ⟨UNIT_ADDR.CONFLICT, .w1c, 0, 1, 1, 0⟩]
  | .RAS_SPARE => [⟨RAS_SPARE.SPARES_LEFT, .ro, 0, 15, 1, 8⟩,
      ⟨RAS_SPARE.PENDING, .ro, 0, 15, 1, 0⟩,
      ⟨RAS_SPARE.UNCOVERED, .ro, 0, 15, 1, 0⟩,
      ⟨RAS_SPARE.HBM_SPARED, .ro, 0, 15, 1, 0⟩,
      ⟨RAS_SPARE.BANKS_RETIRED, .ro, 0, 127, 1, 0⟩]
  | .RAS_CTRL => [⟨RAS_CTRL.AUTO_SPARE, .rw, 0, 1, 1, 1⟩]
  | .SNAP_STAGE => [⟨SNAP_STAGE.FREE_MIB, .ro, 0, 16777215, 1, 0⟩,
      ⟨SNAP_STAGE.GIB_PER_SITE, .rw, 0, 32, 1, 8⟩]
  | .SNAP_POLICY => [⟨SNAP_POLICY.MIN_S, .rw, 1, 65535, 1, 30⟩,
      ⟨SNAP_POLICY.MAX_S, .rw, 1, 65535, 1, 3600⟩,
      ⟨SNAP_POLICY.PRIOR_H, .rw, 1, 65535, 1, 168⟩,
      ⟨SNAP_POLICY.AUTO, .rw, 0, 1, 1, 1⟩]
  | .SNAP_STAT => [⟨SNAP_STAT.INTERVAL_S, .ro, 0, 1048575, 1, 0⟩,
      ⟨SNAP_STAT.LAST_STOP_US, .ro, 0, 1048575, 1, 0⟩,
      ⟨SNAP_STAT.FAILURES, .ro, 0, 65535, 1, 0⟩,
      ⟨SNAP_STAT.HELD, .ro, 0, 3, 1, 0⟩]
  | .SNAP_RESTORE => [⟨SNAP_RESTORE.LAST_STATUS, .ro, 0, 65535, 1, 0⟩,
      ⟨SNAP_RESTORE.SEED_DIFF, .ro, 0, 1, 1, 0⟩,
      ⟨SNAP_RESTORE.FIRST_STREAM, .ro, 0, 15, 1, 0⟩,
      ⟨SNAP_RESTORE.REDERIVED, .ro, 0, 255, 1, 0⟩,
      ⟨SNAP_RESTORE.DELTA, .ro, 0, 255, 1, 0⟩]
  | .RNG_STEP => [⟨RNG_STEP.STEP, .rw, 0, 0xffffffff, 1, 0⟩]
  | .DBG_STATUS => [⟨DBG_STATUS.DETAIL, .ro, 0, 7, 1, 0⟩,
      ⟨DBG_STATUS.ACTIVE, .ro, 0, 1, 1, 0⟩,
      ⟨DBG_STATUS.GRANTED, .ro, 0, 7, 1, 0⟩,
      ⟨DBG_STATUS.RESULT, .ro, 0, 3, 1, 0⟩,
      ⟨DBG_STATUS.BUSY, .ro, 0, 1, 1, 0⟩]
  | .DBG_CTRL => [⟨DBG_CTRL.LOCK, .wo, 0, 1, 1, 0⟩,
      ⟨DBG_CTRL.VERIFY, .wo, 0, 1, 1, 0⟩]
  | .PERT_SEED => [⟨PERT_SEED.SEED, .rw, 0, 0xffffffffffffffff, 1, 0⟩]
  | .DBG_NONCE => [⟨DBG_NONCE.NONCE, .ro, 0, 0xffffffffffffffff, 1, 0⟩]
  | .INJ_LOC => [⟨INJ_LOC.LOC, .rw, 0, 0xffffffffffffffff, 1, 0⟩]
  | .INJ_CTRL => [⟨INJ_CTRL.WORD, .rw, 0, 15, 1, 0⟩,
      ⟨INJ_CTRL.PATTERN, .rw, 1, 255, 1, 0⟩,
      ⟨INJ_CTRL.SYM_B, .rw, 0, 63, 1, 0⟩,
      ⟨INJ_CTRL.SYM_A, .rw, 0, 35, 1, 0⟩,
      ⟨INJ_CTRL.TARGET, .rw, 0, 2, 1, 0⟩,
      ⟨INJ_CTRL.MODE, .rw, 0, 1, 1, 0⟩,
      ⟨INJ_CTRL.ARM, .rw, 0, 1, 1, 0⟩]
  | .INJ_STATUS => [⟨INJ_STATUS.FIRES, .ro, 0, 255, 1, 0⟩,
      ⟨INJ_STATUS.FIRED, .w1c, 0, 1, 1, 0⟩]
  | .DBG_TOKEN => [⟨DBG_TOKEN.TOKEN, .rw, 0, 0xffffffffffffffff, 1, 0⟩]
  | .PERT_XING => [⟨PERT_XING.CLASSES, .rw, 0, 15, 1, 0⟩,
      ⟨PERT_XING.RANDOM, .rw, 0, 1, 1, 0⟩,
      ⟨PERT_XING.DELAY, .rw, 0, 255, 1, 0⟩]
  | .PERT_MEMLAT => [⟨PERT_MEMLAT.RANDOM, .rw, 0, 1, 1, 0⟩,
      ⟨PERT_MEMLAT.ADD, .rw, 0, 1023, 1, 0⟩]
  | .PERT_LINKCR => [⟨PERT_LINKCR.PERIOD, .rw, 1024, 65535, 1, 0⟩,
      ⟨PERT_LINKCR.HOLD, .rw, 0, 65535, 1, 0⟩,
      ⟨PERT_LINKCR.MASK, .rw, 0, 255, 1, 0⟩]
  | .PERT_CREDIT => [⟨PERT_CREDIT.PERIOD, .rw, 1024, 65535, 1, 0⟩,
      ⟨PERT_CREDIT.HOLD, .rw, 0, 65535, 1, 0⟩,
      ⟨PERT_CREDIT.MASK, .rw, 0, 255, 1, 0⟩]
  | .PKG_PIN_STATUS => [⟨PKG_PIN_STATUS.VIN_10MV, .ro, 0, 65535, 1, 0⟩,
      ⟨PKG_PIN_STATUS.ALERT, .ro, 0, 15, 1, 0⟩,
      ⟨PKG_PIN_STATUS.TRIP_IN, .ro, 0, 1, 1, 0⟩]
  | .PKG_ALERT_CFG => [⟨PKG_ALERT_CFG.ENABLE, .rw, 0, 15, 1, 15⟩]
  | .PKG_TRIP => [⟨PKG_TRIP.TEMP, .ro, 0, 255, 1, 0⟩,
      ⟨PKG_TRIP.DIE, .ro, 0, 63, 1, 0⟩,
      ⟨PKG_TRIP.CAUSE, .ro, 0, 7, 1, 0⟩,
      ⟨PKG_TRIP.VALID, .w1c, 0, 1, 1, 0⟩]

end Sys2Proof.Machine
end

