-- ==== Sys2Proof/Machine/State.lean ====
section
/-! DEFINITION. The state of the V4: every register, memory, buffer, queue, counter, mode and pin the manual gives the unit, as plain data, and the state right after power-on reset. Registers live
in one file keyed by device address (`regs`); what a register shows of an engine's state is computed when it is read. Cycles are
arithmetic-clock cycles (00, Numbers). Keys: a core is die * 128 + logical number; a controller die * 6 + k; a stack die * 64 + g;
a ring die * 16384 + i. -/
namespace Sys2Proof.Machine

/-- Why a command stops the model with a fault: no rule of the manual does so, and no meaning raises one (safe: a fault stops, it claims nothing). -/
inductive Fault where
  /-- Raised by no command: an access outside every memory is refused with a status, never a fault (01 R32). Safe. -/
  | noSuchMemory
  deriving DecidableEq, Repr

/-- Why a command is refused by the model. -/
inductive Refusal where
  /-- An arm whose command has no meaning yet, by its mnemonic. Raised by Dispatch.lean alone; safe: nothing is claimed of the command. -/
  | notModelled (mnemonic : String)
  deriving DecidableEq, Repr

/-- The result of the register access a command makes: its status (ST_OK, or the refusal a reply or an access fault carries) and the value a read returns (00 R8, R32; 14 R534). -/
structure Access where
  status : Status
  value : Word
  deriving DecidableEq, Repr

/-- A 512-byte row as a memory delivers it: its bytes and its poison bit (03 R98). -/
structure RowImg where
  bytes : List Byte
  poison : Bool
  deriving DecidableEq, Repr

/-- Symbols in error of one stored word: (symbol 0-35, the bits flipped in it) (05 R187). -/
structure Damage where
  row : Nat
  word : Nat
  syms : List (Nat × Nat)
  deriving DecidableEq, Repr

/-- Every memory of the unit in one key space: stacks, sites, shared die memory, core memory and operand buffers (00 R7,
01 R29, 05 R183). `cells` is canonical (`Memory.wf`): keys strictly rising, no byte equal to what an unlisted byte reads as.
`poison`: rows stored poisoned (05 R189, 07 R278). `damage`: words whose stored symbols are in error (05 R187).
`clean`: of a DRAM row stored poisoned, the words (bits) stored since without poison (07 R278). `untagged`: tag blocks whose tag is clear (07 R294, R295: at start every tag is set). -/
structure Memory where
  cells : List Host.Cell
  poison : List Nat
  clean : List (Nat × Nat)
  damage : List Damage
  untagged : List Nat
  deriving DecidableEq, Repr

/-- A half of a weight tile in an array's registers: the format and depth it was loaded at, 32 columns of element codes in
reduction order, each column's scale bytes, and whether the load made a poisoned read (03 R73, R76-R79, R100). -/
structure Tile where
  fmt : Nat
  depth : Nat
  cols : List (List Nat)
  scales : List (List Nat)
  poison : Bool
  deriving DecidableEq, Repr

/-- A WLD in progress: the half it loads (0 whole, 1 lower, 2 upper), the rows it reads, the core cycle in which it
completes and the tiles it brings (03 R77). -/
structure Load where
  half : Nat
  row : Nat
  rows : Nat
  due : Nat
  lower : Option Tile
  upper : Option Tile
  deriving DecidableEq, Repr

/-- The sums of one vector of a pass between its broadcast and their addition (03 R84): the vector, the results of columns 0-31 of each half, and the halves that come out poisoned (bit 0 lower, bit 1 upper). -/
structure PassSums where
  vec : Nat
  lower : List F32
  upper : List F32
  bad : Nat
  deriving DecidableEq, Repr

/-- The read of a vector that a pass of a shared broadcast has made for the others (03 R85, R101, R105): the vector, the depth it was read at, the bytes of its rows, and whether the read was poisoned. -/
structure SharedRead where
  vec : Nat
  depth : Nat
  rows : List (List Byte)
  poison : Bool
  deriving DecidableEq, Repr

/-- A pass in flight (03 R80-R92): its half, the core cycle of issue, M, the next vector, the activation block (format,
first row, transposed), shift, sign, INIT, the latched masks, the global slot, the port, the reads that another pass of its
broadcast has made for it, the halves in which it has made a poisoned read (bit 0 lower, bit 1 upper), the issued-bundle index, the sums not added yet, and how many vectors have been added. -/
structure PassRun where
  half : Nat
  issued : Nat
  count : Nat
  next : Nat
  fmt : Nat
  row : Nat
  transposed : Bool
  shift : Nat
  neg : Bool
  init : Bool
  maskRow : Nat
  maskCol : Nat
  slot : Nat
  port : Nat
  reads : List SharedRead
  bad : Nat
  bundle : Nat
  sums : List PassSums
  added : Nat
  deriving DecidableEq, Repr

/-- A matrix array: the active and shadow tiles of its halves (03 R67, R79), its loads and its passes in flight. -/
structure MatArray where
  activeL : Option Tile
  activeU : Option Tile
  shadowL : Option Tile
  shadowU : Option Tile
  loads : List Load
  passes : List PassRun
  deriving DecidableEq, Repr

/-- What a vector-unit operation does (04 R122-R130, 10 R390-R394). `func`: the code of R123; `fmt`, `round`, `index`: FORMAT,
ROUND and handle INDEX of the operation's descriptor; a soft-maximum drain names its descriptor's fields. -/
inductive VecKind where
  | elem (func : Nat) (bcast : Bool)
  | toNarrow (fmt round index : Nat)
  | toWide (fmt round : Nat)
  | split (index : Nat)
  | rotated (fmt round index block dim posMode pos0 posRow : Nat) (theta pscale : F32)
  | soft (mode fmt round index oSlots stateRow mergeRow qrows qgroup mask : Nat) (init causal : Bool) (scale : F32)
  deriving DecidableEq, Repr

/-- A source row of a vector-unit operation (03 R97, R103): the cycle after issue in which it is taken in, its buffer and row, and its contents. -/
structure HeldRow where
  cycle : Nat
  buf : Nat
  row : Nat
  img : RowImg
  deriving DecidableEq, Repr

/-- A vector-unit operation in flight (03 R97): its kind, core cycle of issue, operands (buffer code, first row), FP32 rows,
the next destination row and how many there are, the source rows taken in (R97, R103), the
MX scales collected, the issued-bundle index and its place in the core's order of writes (04 R171). -/
structure VecRun where
  kind : VecKind
  issued : Nat
  aBuf : Nat
  aRow : Nat
  bBuf : Nat
  bRow : Nat
  dBuf : Nat
  dRow : Nat
  rows : Nat
  next : Nat
  total : Nat
  extraLat : Nat
  held : List HeldRow
  scales : List Byte
  bundle : Nat
  seq : Nat
  deriving DecidableEq, Repr

/-- A scoreboard entry (05 R198): the memory (buffer code of R121, or 8 + d for the shared memory of CDd), first row, row count, whether
it is a write, and the port class (0 WIDE, 1 ROW, 2 NARROW, 3 none) of R197; 4 marks a slot that holds no entry (10 R395). -/
structure SbEntry where
  mem : Nat
  row : Nat
  count : Nat
  write : Bool
  cls : Nat
  deriving DecidableEq, Repr

/-- A level of the loop stack (04 R132): where the body starts in the fetch buffer, its bundles, the bundles left in this
iteration and the iterations left after it. -/
structure LoopFrame where
  start : Nat
  body : Nat
  left : Nat
  iters : Nat
  deriving DecidableEq, Repr

/-- The kernel a core runs (04 R160-R166): its ring's index on the die, its lease, the core cycle its first bundle may issue
in, the issued-bundle index, the word position of the next bundle and the highest position consumed, the words fetched from
position `fbase` on, the loop stack, the predicate and the window it was latched for, the slots of the next bundle already
issued (bits) and whether that bundle was admitted, the core cycle of the last issue, the prefix length, whether END has
issued with NOTIFY, how it ended, whether a data-integrity event marked it (03 R105), the refusal to report (status, bundle,
slot), whether the ring ends STOPPED, what its dump came to once it is written and the entries written so far (R181, R182), when the core became free for it (15 R557), and since when its next bundle waits on a flag (R151). -/
structure Kernel where
  ring : Nat
  lease : Nat
  startAt : Nat
  idx : Nat
  pos : Nat
  high : Nat
  fbase : Nat
  fetched : List Word
  loops : List LoopFrame
  pred : Bool
  window : Nat
  squash : Bool
  slots : Nat
  admitted : Bool
  lastIssue : Option Nat
  prefixLen : Option Nat
  ended : Bool
  notify : Bool
  integrity : Bool
  refusal : Option (Status × Nat × Nat)
  stopStatus : Option Status
  stopped : Bool
  dump : Option (Option Status)
  dumped : Nat
  freeAt : Nat
  waitSince : Option Nat
  deriving DecidableEq, Repr

/-- A latched stream descriptor (06 R229). -/
structure StreamDesc where
  unit : Nat
  rate : Nat
  far : Nat
  ext : List Nat
  stride : List Nat
  nearBuf : Nat
  nearRow : Nat
  halfRows : Nat
  dir : Nat
  stack : Nat
  cache : Bool
  deriving DecidableEq, Repr

/-- A transfer of a channel (06 R230, R243): its handle and descriptor, T, the half its first row goes to, the rows requested,
landed or written, handed over, the bundle of its ARM and the core cycle it starts in (R234, R244); every row below `upTo`, and the rows of `beyond`, have landed or been written. -/
structure Xfer where
  id : Nat
  handle : Nat
  d : StreamDesc
  total : Nat
  first : Nat
  formed : Nat
  done : Nat
  handed : Nat
  bundle : Nat
  start : Nat
  upTo : Nat
  beyond : List Nat
  deriving DecidableEq, Repr

/-- A half of a pair that is not EMPTY (06 R235-R238): the transfer, buffer and first row, its rows, its state (1 FILLING, 2 FULL,
3 DRAINING; 0 a store half named by a REL that waits for scoreboard entries on its rows, or a load half whose pop has not formed its first request), the rows landed or read out, the core cycle of the REL that waits to take effect,
which half of its pair it is, the rows of a half, and while a push or pop moves it the logical stack row of its row 0 (05 R222, R226). -/
structure HalfFill where
  xfer : Nat
  buf : Nat
  row : Nat
  n : Nat
  st : Nat
  got : Nat
  rel : Option Nat
  side : Nat
  size : Nat
  low : Option Nat
  deriving DecidableEq, Repr

/-- A stream channel (06 R228): the running transfer, the pending re-arm, the halves that are not EMPTY in the order they take
rows, the last transfer, which its status register keeps showing while the kernel runs (R268, log 47), and whether it forms no further requests (R247). -/
structure Chan where
  cur : Option Xfer
  pend : Option Xfer
  halves : List HalfFill
  last : Option Xfer
  stopped : Bool
  deriving DecidableEq, Repr

/-- A thread of the Awl engine (06 R260-R266): its descriptor's fields, the next entry and piece to request, pieces
outstanding and landed, the index values in hand (from entry 16 * (entry / 16)), the near pieces gathered and which are poisoned, the bundle and slot of its AWL, its order among the core's writes, and the scoreboard's memory of its index list (05 R198). -/
structure AwlThread where
  indexBase : Nat
  tableBase : Nat
  count : Nat
  tableRows : Nat
  stride : Nat
  span : Nat
  nearRow : Nat
  nearBuf : Nat
  scatter : Bool
  entry : Nat
  piece : Nat
  landed : Nat
  outstanding : Nat
  ixs : List Nat
  buf : List (Nat × List Byte)
  poison : List Nat
  bundle : Nat
  slot : Nat
  stopped : Bool
  seq : Nat
  ixMem : Nat
  deriving DecidableEq, Repr

/-- A descriptor-cache fill in progress: the handle's INDEX, the core cycle it is due, and the handle and bundle of the DPRE that started it, if one did (04 R134, R145). -/
structure DescFill where
  index : Nat
  due : Nat
  dpre : Option (Nat × Nat)
  deriving DecidableEq, Repr

/-- What waits at a core's crossing during a freeze for its end (03 R109): a flag update. Rows that wait there are performed requests that have not landed. -/
inductive Crossing where
  | flag (f : Nat) (set : Bool)
  deriving DecidableEq, Repr

/-- An entry of a core's ring notification queue (13 R493). -/
structure RingNote where
  ring : Nat
  status : Nat
  overflow : Bool
  deriving DecidableEq, Repr

/-- A logical tensor core (03 R67). `chans` and `awl` are keyed by channel and thread; `dcache` is most recently used first (04 R145). `slotPoison`: bit 2s + h is the
poison bit of half h of slot s (03 R98). `frozen`: core cycles lost to completed freezes; `freezeAt`: the cycle of the detection
whose freeze has not ended (R108-R111); `corrections`: the core cycles to come in which a read of an operation in flight detects a correction. `sbTail`: scoreboard entries released at a core cycle to come (05 R200).
`claims`: flag to claiming global ring (04 R170). `setAt`: the cycle of a flag's last SET and whether it was 1 before that cycle (04 R172, R173). `charge`: tensor-core time charged to each lease since it joined (15 R554).
`shared`: leases that joined a shared core keep their charge; `lastRing`: the ring each lease started last. `busyVec0`/`busyVec1`:
core cycle up to which a pipeline takes in rows (03 R97). `ports`: the core cycle after an engine's last request (key e), the first in which it may land or read out a row (2 + e), the bank of its last landing (4 + e), and the cycle after the Awl engine's last request (6) (06 R239, R263). `scrubDue`: a scrub in progress and the lease that becomes holder (05 R208-R210). `switchAt`: the cycle a change of holder began in, until the new holder's kernel starts (15 R555). `stale`: the holder has left the core, which no kernel has been scrubbed for since (04 R174). `openSlots`: open soft-maximum slots (10 R390). -/
structure Core where
  arrays : Tab MatArray
  slotPoison : Nat
  vec0 : List VecRun
  vec1 : List VecRun
  busyVec0 : Nat
  busyVec1 : Nat
  sbTail : List (SbEntry × Nat)
  kernel : Option Kernel
  dcache : List (Nat × List Word)
  fills : List DescFill
  chans : Tab Chan
  awl : Tab AwlThread
  awlCur : Nat
  opSeq : Nat
  flags : List Nat
  setAt : Tab (Nat × Bool)
  claims : Tab Nat
  frozen : Nat
  freezeAt : Option Nat
  corrections : List Nat
  crossing : List Crossing
  notes : List RingNote
  noteLost : Bool
  charge : Tab Nat
  lastRing : Tab Nat
  freeAt : Nat
  scrubDue : Option Nat
  openSlots : Nat
  lastFetch : Nat
  gated : Bool
  ports : Tab Nat
  switchAt : Option Nat
  stale : Bool
  deriving DecidableEq, Repr

/-- What a fenced SET or CLEAR waits for (04 R171): the vector and Awl operations issued before order number `seq`, and of each channel's transfer (channel, identifier) its rows below a number. -/
structure Fence where
  seq : Nat
  rows : List (Nat × Nat × Nat)
  deriving DecidableEq, Repr

/-- A SET or CLEAR on its way (04 R171-R173): source and target core, whether it is remote (REMOTE 1), flag, value, what it is fenced on, bridge hops, and the cycle
of its delivery, from which the route's delay counts, once its fence has been met. -/
structure FlagOp where
  src : Nat
  dst : Nat
  remote : Bool
  flag : Nat
  set : Bool
  fence : Option Fence
  hops : Nat
  ready : Option Nat
  deriving DecidableEq, Repr

/-- The units beside the tensor cores whose accesses are requests (05 R197, 06 R253): a Welt unit, a KV pool, a collective engine, a host-class core's L3, a DCP command, a packet from another unit, a core's ring fetch, its descriptor reads, a weight-cache fill, a dump and an Awl thread's index list. -/
inductive Engine where
  | welt | pool | coll | host | dcp | peer | ring | desc | cache | dump | index
  deriving DecidableEq, Repr

/-- Who made a memory request (06 R250, R253): row t of a channel's transfer for a near row, a thread's piece at a place of its list, a spill's read of a row of SRAM (for a row of the extent) or its write there, a refill's read of the extent (for a row of SRAM) or its write to SRAM,
or another engine, by its number, on a die: such a request is a grant that its access waits for (log 16). -/
inductive ReqOwner where
  | chan (core ch xfer t : Nat) (buf row : Nat)
  | awl (core thread : Nat) (pos : Nat)
  | spillOut (die g dram : Nat)
  | spill (die g : Nat)
  | refill (die g sram : Nat)
  | refillIn (die g : Nat)
  | engine (e : Engine) (die i : Nat)
  deriving DecidableEq, Repr

/-- A request at an arbitration point (06 R248-R253): its point, row key and device address, the byte offset and bytes it covers, read or write, its port class there (1 ROW, 2 NARROW; 05 R197) and the bank cycles it still needs, requester and its rank, lease, formation cycle,
deadline, the cycle it reached the point and the cycle it becomes eligible, whether it was promoted (R252), its stage (0 waiting, 1 granted, 2 performed), the cycle of its grant and of its landing or acknowledgement,
the contents it carries (for a read, those of the cycle of its grant, R257), the words its read corrected and found uncorrectable, whether it met a new uncorrectable word, whether it installs a weight-cache row (05 R214), and the cycles perturbation adds at its memory (19 R647). -/
structure MemReq where
  id : Nat
  point : GrantPoint
  row : Nat
  addr : Nat
  off : Nat
  bytes : Nat
  write : Bool
  cls : Nat
  beats : Nat
  owner : ReqOwner
  rank : Nat
  lease : Option Nat
  f : Nat
  deadline : Option Nat
  reached : Nat
  eligible : Nat
  promoted : Bool
  stage : Nat
  grantedAt : Nat
  due : Nat
  img : RowImg
  corr : Nat
  unc : Nat
  fresh : Bool
  install : Bool
  extra : Nat
  deriving DecidableEq, Repr

/-- A bank of shared die memory, or a core's crossing (05 R202, R203): the cycle after its last grant, the ROW grants made since a NARROW request has waited, and the rank after which NARROW requesters take their turn. -/
structure BankRun where
  next : Nat
  rows : Nat
  turn : Nat
  deriving DecidableEq, Repr

/-- The fill of a tagged block (07 R297): the block, the demand write's request, the cycle of its grant, and whether the fill has started. -/
structure TagFill where
  blk : Nat
  req : Nat
  at' : Nat
  started : Bool
  deriving DecidableEq, Repr

/-- A memory controller's own state (07): the fills of tagged blocks in progress, oldest first, the request for power-down (channel, cycle accepted), waking channels (channel, due),
banks refreshed (key, cycle), rows activated in each bank since its last refresh management (R300), the first cycle in which it may grant again, patrol reads (pseudo-channel, cycle), the cycle of the last copy and the rows the copier wrote otherwise than they are stored, with their words that are not poisoned (R287). -/
structure Controller where
  fills : List TagFill
  pdn : Option (Nat × Nat)
  wakes : List (Nat × Nat)
  refreshed : Tab Nat
  acts : Tab Nat
  nextGrant : Nat
  patrolled : Tab Nat
  lastCopy : Option Nat
  copied : Tab (RowImg × Nat)
  deriving DecidableEq, Repr

/-- A physical error that the next access to a DRAM row meets (07 R271): whether the stack reports the read as corrected by its on-die ECC, and how many times in a row the command's parity fails. -/
structure Upset where
  row : Nat
  onDie : Bool
  parity : Nat
  deriving DecidableEq, Repr

/-- What has reached a stack and waits for its turn (05 R222, 08 R325): a push or pop of a core's channel, a frame command posted with its word, or a DCP command of a session that writes one and waits to be replied to. -/
inductive StackOp where
  | move (core ch : Nat)
  | posted (v : Nat)
  | held (ses seq : Nat)
  deriving DecidableEq, Repr

/-- A stack's moves in progress (05 R222-R226, 08 R325): the cycle by which the last spilled chunk has been read out, whether a refill is on its way, and what waits, in the order of its arrival. -/
structure StackRun where
  readOut : Nat
  refill : Bool
  waiting : List StackOp
  deriving DecidableEq, Repr

/-- A line of the shared weight cache (05 R213): its address key, lease, the valid bits of its rows and its way in its set. -/
structure CacheLine where
  addr : Nat
  lease : Nat
  rows : Nat
  way : Nat
  deriving DecidableEq, Repr

/-- A patrol correction waiting for its write-back (05 R196): the bank's key and the symbols it repairs. -/
structure PatrolFix where
  bank : Nat
  fixes : List Damage
  deriving DecidableEq, Repr

/-- A scrub of shared die memory in progress (05 R208-R210): its partition entry, first bank and banks. -/
structure Scrub where
  die : Nat
  part : Nat
  first : Nat
  banks : Nat
  deriving DecidableEq, Repr

/-- An armed error injection (19 R651-R653): the row key, or the link receiver, the word, the symbols and the bits flipped in each, and whether it fires on a write. -/
structure Inject where
  row : Option Nat
  link : Option (Nat × Nat)
  word : Nat
  syms : List (Nat × Nat)
  write : Bool
  deriving DecidableEq, Repr
/-- HBM3E frames bound together (07 R275, R276, 15 R540): die view or package view, the compute die of a die-view range, the first frame, how many, and the lease. -/
structure FrameRange where
  pkg : Bool
  die : Nat
  first : Nat
  count : Nat
  lease : Nat
  deriving DecidableEq, Repr

/-- An LPDDR5X extent bound to a lease (15 R540 KIND 0x06): site LP0-LP7, first byte, bytes. -/
structure Extent where
  site : Nat
  first : Nat
  count : Nat
  lease : Nat
  deriving DecidableEq, Repr

/-- A raw line of a filtered interrupt source: its level and the cycle it last changed (13 R495). -/
structure RawLine where
  level : Bool
  since : Nat
  deriving DecidableEq, Repr

/-- What a sequenced packet of this unit carries for one row (11 R435, R436): row t of the channel's transfer, and the near row it serves. -/
structure PktRow where
  core : Nat
  ch : Nat
  xfer : Nat
  t : Nat
  buf : Nat
  row : Nat
  deriving DecidableEq, Repr

/-- A sequenced packet not yet acknowledged (11 R427-R431): the packet, the channel rows it serves, when it was last sent, how often it has been sent again, and whether a SACK has already sent it again. -/
structure OutPkt where
  pkt : DftPacket
  rows : List PktRow
  sent : Nat
  tries : Nat
  fast : Bool
  deriving DecidableEq, Repr

/-- Rows of one channel that an I/O die packs into one WRITE or READ (11 R435): their lease, virtual channel, unit and first address there, the rows, a WRITE's contents, and the cycle the last of them came. -/
structure Packing where
  lease : Nat
  vc : Nat
  unit : Nat
  addr : Nat
  write : Bool
  rows : List PktRow
  pay : List PayRow
  last : Nat
  deriving DecidableEq, Repr

/-- The training of an Ethernet port (11 R409): the lanes it excludes, and the cycle a retrain ends by. -/
structure Training where
  excluded : Nat
  due : Option Nat
  deriving DecidableEq, Repr

/-- A READ whose data have not come (11 R420 TAG): its tag, channel rows and first address. -/
structure ReadWait where
  tag : Nat
  rows : List PktRow
  deriving DecidableEq, Repr

/-- The send and receive state of a connection (11 R427, R431, 17 R608): epoch, next sequence number, unacknowledged packets, packets waiting for room, READs waiting for data, the next number expected, numbers received
above it, the channel row that each tag was given last for, and the RESYNC this unit has sent and not seen acknowledged (new epoch, cycle). -/
structure Conn where
  epoch : Nat
  next : Nat
  out : List OutPkt
  waiting : List (DftPacket × List PktRow)
  reads : List ReadWait
  tags : Nat
  expected : Nat
  got : List Nat
  tagOf : Tab PktRow
  resync : Option (Nat × Nat)
  deriving DecidableEq, Repr

/-- The arbitration of a peer port's egress (11 R426): frames of other channels since the last one of VC0 (up to 15), the frames left to each channel in this round, the channel served last, and whether the last frame was a forwarded one. -/
structure PortArb where
  others : Nat
  left : Tab Nat
  last : Nat
  fwd : Bool
  deriving DecidableEq, Repr

/-- An egress that has sent nothing. -/
def PortArb.fresh : PortArb := ⟨15, [], 0, false⟩

/-- An access of another unit whose rows are still to be performed at their memories (11 R428, R433): the port and packet it came by, the identifiers of its requests (from the first up to the one after the last), and its rows. -/
structure PeerDue where
  q : Nat
  pkt : DftPacket
  lo : Nat
  hi : Nat
  rows : List Nat
  deriving DecidableEq, Repr

/-- A packet waiting at an egress for a usable port or for credits (11 R416, R425): its direction code of R408, or a port for a link-scope packet, and the receive cells it holds at the port it came by (port, class key, cells). -/
structure Egress where
  dir : Nat
  port : Option Nat
  pkt : DftPacket
  cells : Option (Nat × Nat × Nat)
  deriving DecidableEq, Repr

/-- A link receiver's held-back delivery (01 R21): the class, the request whose row was asked for again, and the rows of the class that follow it. -/
structure Replay where
  sel : Nat
  port : Nat
  cls : LinkClass
  request : Option Nat
  held : List LinkRow
  deriving DecidableEq, Repr
/-- A Welt unit's own state (09 R341-R362): the running command (0 none), its group and cycle of acceptance, the cycle the open step opened in, the latched freeze mask and hyperparameter sets (number, four words),
the layers the command has still to pass over or commit (the first is in progress), the local rows of it that are done, c and t, its stage (0 its rows are in progress, 4 its FAC partials are, 1 they and 2 its rsum row are written, 5 its FAC elements are in progress, 3 its elements are written), the FAC sums by row and column (partials in stage 4, ra and ca in stage 5) and rsum, NORM's lane sums, elements passed over and NONFINITE, whether the layer in progress, or NORM,
has read poison, whether any layer of the step has, the rows of ORT layers (layer, row) that APPLY found poisoned, the status and PHASE the command ends with, and whether STEP advances. -/
structure WeltRun where
  op : Nat
  group : Nat
  since : Nat
  opened : Nat
  freeze : Nat
  hps : Tab (List Word)
  todo : List Nat
  pos : Nat
  clip : F32
  t : Nat
  stage : Nat
  facR : Tab F32
  facC : Tab F32
  rsum : F32
  lanes : Tab F32
  seen : Nat
  nonfin : Nat
  bad : Bool
  damaged : Bool
  ortBad : List (Nat × Nat)
  status : Status
  toPhase : Nat
  advance : Bool
  deriving DecidableEq, Repr
/-- A batch of a KV pool (10 R370, R371): its entries, the next one, the flag to set on completion, and the cycle it started in. -/
structure PoolRun where
  count : Nat
  next : Nat
  flag : Option Nat
  since : Nat
  deriving DecidableEq, Repr
/-- A step of a collective at this member (11 R447-R449): the unit it sends rows to and those rows, the unit it receives rows from and those rows, and what it does with them (0 adds in FP32, 1 copies, 2 combines records, 3 converts the shard and writes it). -/
structure CollStep where
  dst : Option Nat
  sFirst : Nat
  sCount : Nat
  src : Option Nat
  rFirst : Nat
  rCount : Nat
  mode : Nat
  deriving DecidableEq, Repr

/-- A running collective (11 R443-R453): its group and lease, operation, formats (0 FP32, 1 BF16), elements, addresses, flag and flag die, members in rank order, this unit's rank, the group's collective count, the cycle it started in, TMO_LOG2, the steps left (the first
is in progress), whether its rows have been sent, how many it has received, the READYs at hand (unit, row), the rows held by number, whether a poisoned row was written, and how it ended. -/
structure CollRun where
  group : Nat
  lease : Nat
  op : Nat
  ifmt : Nat
  ofmt : Nat
  count : Nat
  src : Nat
  dst : Nat
  flag : Option Nat
  flagDie : Nat
  members : List Nat
  rank : Nat
  number : Nat
  since : Nat
  tmo : Nat
  steps : List CollStep
  sent : Bool
  got : List Nat
  ready : List (Nat × Nat)
  vec : Tab RowImg
  poison : Bool
  ended : Option Status
  deriving DecidableEq, Repr

/-- A collective engine (11 R444): descriptors queued (address, submitting lease), the running collective, and READY and ABORT packets of collectives this member has not started (R451). -/
structure CollEngine where
  queue : List (Nat × Option Nat)
  run : Option CollRun
  early : List DftPacket
  deriving DecidableEq, Repr
/-- A row in the coherent caches of the host-class cores (12 R458-R461): its contents, whether it is dirty, the core that last stored to it (die * 16 + h), and where it was found poisoned (SOURCE of 12 R473: 0 L2, 1 L3, 2 delivered). -/
structure CachedRow where
  img : RowImg
  dirty : Bool
  core : Nat
  source : Nat
  deriving DecidableEq, Repr

/-- Errors in the cached words of a row that its next access meets (12 R471): in the L3 (none) or the L1 and L2 of a core (die * 16 + h), the errors repaired, and the words of its lines that are uncorrectable. -/
structure CacheUpset where
  row : Nat
  core : Option Nat
  corr : Nat
  unc : Nat
  deriving DecidableEq, Repr

/-- The 64-byte lines (row key * 8 + line) in the own caches of a host-class core (12 R458): L1I, L1D, and L2, which holds every line of both. -/
structure HcCaches where
  l1i : List Nat
  l1d : List Nat
  l2 : List Nat
  deriving DecidableEq, Repr

/-- A write-back on its way to memory (12 R464, R470): who caused it (a core's die * 16 + h, or 64 + die for a range operation), the row, its contents and the lease charged. -/
structure WriteBack where
  by' : Nat
  row : Nat
  img : RowImg
  lease : Option Nat
  deriving DecidableEq, Repr

/-- Message words of a mailbox written in a cycle (13 R484-R486): the cycle, whether FULL was 1 before, word 7, COLLISION and the commit's cycle before, and whether word 7 was written. -/
structure EyeWrite where
  cycle : Nat
  full : Bool
  word : Word
  collided : Bool
  committed : Bool
  deriving DecidableEq, Repr

/-- An extension slot of a lease (12 R478, R479, 14 R523): its committed image, the chunks arrived so far and TOTAL, and its time (ms) and heap (bytes) limits. -/
structure CodeSlot where
  image : Option (List Byte)
  staging : List (Nat × List Byte)
  total : Nat
  timeMs : Nat
  heap : Nat
  deriving DecidableEq, Repr

/-- An invocation of customer code (12 R475, R478, R479): its lease, slot and item, the core (die * 16 + h) it runs on (none until its second run starts) and the core of a first run that failed, its mapping, the heap it has taken, and the cycle this run started in. -/
structure ExtRun where
  lease : Nat
  slot : Nat
  item : Nat
  core : Option Nat
  first : Option Nat
  map : ExtMap
  heap : Nat
  since : Nat
  deriving DecidableEq, Repr

/-- The recorded end of an invocation (12 R479): lease, slot, item and status. -/
structure ExtDone where
  lease : Nat
  slot : Nat
  item : Nat
  status : Status
  deriving DecidableEq, Repr
/-- A packet in a port's ingress FIFO (14 R527, R530): its first FIFO row and rows, first landing row and rows (free-running), the cycle its first word was stored in, the length word it will have, and whether its last row is stored. -/
structure FifoPkt where
  row : Nat
  rows : Nat
  land : Nat
  landRows : Nat
  since : Nat
  lenWord : Nat
  closed : Bool
  deriving DecidableEq, Repr

/-- Where packets of a session go (14 R506): the Ethernet and IP source of its latest authenticated packet as a frame to it carries them, that packet's VLAN and its UDP source port. -/
structure HostPeer where
  mac : BitVec 48
  vlan : Nat
  net : HostNet
  port : Nat
  deriving DecidableEq, Repr

/-- A good HELLO packet not answered yet (14 R509, R525): whether a reserved field of it is not zero, its PLEN, and where it came from. -/
structure HelloIn where
  resv : Bool
  plen : Nat
  peer : HostPeer
  deriving DecidableEq, Repr

/-- The ingress side of a host port (14 R527-R532): packets not freed, oldest first, whether a DROP_REST waits for a last row, the tags of the rows (LAST, VALID_BYTES), the good HELLO packets not answered, oldest first, the rows that were read with an uncorrectable word, the answer to an ARP request, neighbour solicitation or echo that the port sent last (R505), and the announcements of its addresses that it sent last (17 R604). -/
structure HostRx where
  pkts : List FifoPkt
  dropping : Bool
  tags : Tab (Bool × Nat)
  hellos : List HelloIn
  spoiled : List Nat := []
  answer : Option HostPeer := none
  announced : List HostPeer := []
  deriving DecidableEq, Repr

/-- A memory command under way (14 R675): its address and length, and the number of the first request of its rows. -/
structure DcpMem where
  addr : Nat
  len : Nat
  first : Nat
  deriving DecidableEq, Repr

/-- An accepted command not yet replied to (14 R518-R521): its header's SEQ, OPCODE, LEASE and version, when its performance began and its bound, the status it was ended with before its reply, whether a FIFO row that carried it was read with an uncorrectable word (R533), whether FLAGS, STATUS or the reserved bytes of its header are not zero (R516), the landing rows of its data: the first and how many (R527), where it has begun and waits for what its effect needs, the register writes it has performed, the accesses of a memory command under way, its parameters, and whether it arrived while its session's lease was QUIESCING (15 R546). -/
structure DcpCmd where
  seq : Nat
  opcode : Nat
  lease : Nat
  verMajor : Nat
  verMinor : Nat
  begun : Option (Nat × Nat)
  ended : Option Status
  spoiled : Bool := false
  odd : Bool := false
  landing : Nat × Nat := (0, 0)
  held : Option Nat := none
  mem : Option DcpMem := none
  params : List Byte := []
  inQuiesce : Bool := false
  deriving DecidableEq, Repr

/-- A reply (14 R521). -/
structure DcpReply where
  seq : Nat
  opcode : Nat
  status : Status
  params : List Byte
  data : List Byte
  deriving DecidableEq, Repr

/-- An event not yet acknowledged (14 R526): when it was last sent and how often again. -/
structure DcpEvent where
  seq : Nat
  code : Nat
  status : Status
  params : List Byte
  sent : Nat
  tries : Nat
  deriving DecidableEq, Repr

/-- A packet as a host port sent it last: where it goes (14 R506), its session, PN, SEQ, OPCODE, whether it is an event, status, parameters and data in clear, and its UDP payload as it left (R511, R515, R516). -/
structure HostOut where
  dest : HostPeer
  session : Nat
  pn : Nat
  seq : Nat
  opcode : Nat
  event : Bool
  status : Status
  params : List Byte
  data : List Byte
  payload : List Byte
  deriving DecidableEq, Repr

/-- A session slot (14 R509-R526): SESSION, whether AUTH has opened it, its lease (none: management), version, window W, the cycles of the HELLO reply and of the last authenticated packet, the highest PN accepted and the PNs accepted less than
1,024 below it, the next PN to send, L, the accepted commands, the last 2W replies, the next event number, unacknowledged events, how many were dropped, K: the keys and salts of both directions (R510), H (R509), and where its packets go (R506). -/
structure Session where
  id : Nat
  open' : Bool
  lease : Option Nat
  verMajor : Nat
  verMinor : Nat
  window : Nat
  since : Nat
  lastPkt : Nat
  high : Nat
  pns : List Nat
  sendPn : Nat
  next : Nat
  cmds : List DcpCmd
  replies : List DcpReply
  evNext : Nat
  events : List DcpEvent
  dropped : Nat
  keys : List Byte
  digest : List Byte
  peer : HostPeer
  deriving DecidableEq, Repr

/-- What a quiesce covers (15 R543): all work of the lease, cores (keys), rings (global index), host-class cores (die * 16 + h), activation stacks (die * 64 + g), KV pools (die * 16 + p), Welt groups, hyperparameter sets, a collective group (I/O die, group), or nothing that works. -/
inductive Scope where
  | all
  | cores (l : List Nat)
  | rings (l : List Nat)
  | hcs (l : List Nat)
  | stacks (l : List Nat)
  | pools (l : List Nat)
  | groups (l : List Nat)
  | sets (l : List Nat)
  | coll (io g : Nat)
  | idle
  deriving DecidableEq, Repr

/-- What follows a quiesce: the binding command in progress goes on, a LEASE_ABORT is replied to (session key, SEQ), or nothing. -/
inductive QuiesceJob where
  | binding
  | abort (ses seq : Nat)
  | none
  deriving DecidableEq, Repr

/-- A quiesce in progress (15 R543-R546): its lease, what it covers, the status of its cause, the cycle it began in, and what follows. -/
structure Quiesce where
  lease : Nat
  scope : Scope
  cause : Status
  since : Nat
  job : QuiesceJob
  deriving DecidableEq, Repr

/-- The binding command in progress (15 R542): its session's key, SEQ and opcode, its lease, the lease a re-bind binds to, KIND, FIRST and COUNT, whether its resources have left the lease, and the status it will reply. -/
structure Binding where
  ses : Nat
  seq : Nat
  opcode : Nat
  lease : Nat
  dest : Option Nat
  kind : Nat
  first : Nat
  count : Nat
  released : Bool
  status : Status
  deriving DecidableEq, Repr

/-- An edge of the wait-for graph (04 R175, R178): the waiting ring, the die and core and flag awaited, and whether it waits for a held core. -/
structure MonEdge where
  ring : Nat
  die : Nat
  core : Nat
  flag : Nat
  held : Bool
  deriving DecidableEq, Repr

/-- A snapshot stop in progress (18 R625, R635): its lease, the command it replies to (session key, SEQ), none for an automatic one, whether it restores, the snapshot's identifier and bytes, REDERIVE, and the cycle it began in. -/
structure SnapOp where
  lease : Nat
  cmd : Option (Nat × Nat)
  restore : Bool
  id : Nat
  bytes : Nat
  rederive : Bool
  since : Nat
  deriving DecidableEq, Repr
/-- A snapshot image held in the staging area (18 R627-R633): its lease, SNAP_ID, bytes B, the 2 MiB units it occupies in order, and the byte ranges present (first, past the last), rising and apart. -/
structure SnapImage where
  lease : Nat
  id : Nat
  bytes : Nat
  units : List Nat
  got : List (Nat × Nat)
  deriving DecidableEq, Repr

/-- How the unit stands towards its supply, reset line and clock roots (20 R661, R664-R666, R671; 16 R572). -/
inductive Life where
  | running
  | inReset
  | rootsLost
  | unpowered
  | tripped
  | overvolted
  deriving DecidableEq, Repr

/-- A failure entry of the start record (17 R602). -/
structure FailEntry where
  number : Nat
  reason : Nat
  stage : Nat
  detail : Nat
  deriving DecidableEq, Repr

/-- The START area of the retained-state store (17 R596): FAIL_COUNT, the start number and the last eight failures, newest first. -/
structure StartArea where
  failCount : Nat
  number : Nat
  fails : List FailEntry
  deriving DecidableEq, Repr

/-- The record an assigned address leaves (17 R610): the address, and UP and PARTNER of each peer port. -/
structure AddrRecord where
  addr : Nat
  ports : List (Bool × Nat)
  deriving DecidableEq, Repr

/-- The SETTINGS area of the retained-state store (17 R596): retained registers by device address, masked to their retained fields (the lease skeleton, the spare map of the stacks and the spare state of R619 among them), the address
record, key digests of management and leases, absent cores, retired banks, withdrawn host-class cores and rows due for repair. -/
structure Settings where
  regs : Tab Word
  addr : Option AddrRecord
  mgmtKeys : List (List Byte)
  leaseKeys : Tab (List Byte)
  absent : List Nat
  retired : List (Nat × Nat)
  withdrawn : List Nat
  repairs : List Nat
  links : Tab (List Nat)
  deriving DecidableEq, Repr

/-- A copy of an area of the store (17 R597): its SEQ, whether its CHECK matches, and its contents. -/
structure StoreCopy (α : Type) where
  seq : Nat
  intact : Bool
  contents : α
  deriving DecidableEq, Repr

/-- The recovery store on SV1 (17 R594): the start area, the management key digests and H0's settings. -/
structure Recovery where
  area : StartArea
  keys : List (List Byte)
  regs : Tab Word
  deriving DecidableEq, Repr

/-- An image being staged (17 R590): TOTAL and the chunks that have arrived (offset, bytes). -/
structure StagedImage where
  total : Nat
  chunks : List (Nat × List Byte)
  deriving DecidableEq, Repr

/-- The image slot being written (17 R590): the session and the SEQ of the IMAGE_COMMIT that writes it, and the image. -/
structure FlashWrite where
  session : Nat
  seq : Nat
  bytes : List Byte
  deriving DecidableEq, Repr

/-- The running image (17 R588): FW_VERSION and BODY_DIGEST. -/
structure RunImage where
  version : Nat
  digest : List Byte
  deriving DecidableEq, Repr

/-- A prompt handed to the rollout service (14 R523): its lease, PROMPT_ID, ADAPTER, MAX_NEW, whether more text follows, and its text. -/
structure Prompt where
  lease : Nat
  id : Nat
  adapter : Nat
  maxNew : Nat
  more : Bool
  text : List Byte
  deriving DecidableEq, Repr

/-- A completion record ready to be fetched (14 R523, R526). -/
structure Completion where
  lease : Nat
  id : Nat
  bytes : List Byte
  deriving DecidableEq, Repr
set_option maxRecDepth 4000 in
/-- The state of the unit. -/
structure State where
  /-- Commands waiting, first in first out (the block's queue). -/
  pending : List Instr
  /-- Arithmetic-clock cycles since reset (00, Numbers); the model's clock. -/
  now : Nat
  /-- Cycles the tensor-core clock has run (16 R581: DUTY of sixteen cycles). -/
  coreClock : Nat
  /-- How many free values have been drawn; the model's own counter. -/
  fresh : Nat
  /-- The grade of the part, fused (00 R1-R3). -/
  grade : Grade
  /-- The last register access's result. -/
  access : Access
  /-- The register file: values written since reset, by device address (00 R8). -/
  regs : Tab Word
  /-- What hardware has set, counted or recorded in a register in its latest such cycle, by device address: the cycle and the bits, counts or record (00 R9, 01 R28). -/
  latest : Tab (Nat × Word)
  /-- Every memory (01 R29). -/
  mem : Memory
  /-- The tensor cores (03 R67). -/
  cores : Tab Core
  /-- Flag operations not yet delivered (04 R171, R172), oldest first. -/
  flagOps : List FlagOp
  /-- Requests at arbitration points, oldest first (06 R248). -/
  reqs : List MemReq
  /-- The next request or transfer identifier; the model's own. -/
  nextId : Nat
  /-- The memory controllers (07 R281). -/
  ctls : Tab Controller
  /-- The activation stacks' moves in progress (05 R223-R226). -/
  stackRuns : Tab StackRun
  /-- The weight-cache lines of each die, least recently used last (05 R213). -/
  wcache : Tab (List CacheLine)
  /-- Row-memory patrol corrections waiting for their write-back (05 R196). -/
  patrol : List PatrolFix
  /-- Scrubs of shared die memory in progress (05 R209). -/
  scrubs : List Scrub
  /-- HBM3E frames bound to leases (15 R540). -/
  frames : List FrameRange
  /-- LPDDR5X extents bound to leases (15 R540). -/
  extents : List Extent
  /-- The cycle of the last pulse of each filtered event source, by controller * 1024 + source (13 R495); controller 4 is SV0's. -/
  pulses : Tab Nat
  /-- Raw levels of the filtered level lines, by the same key (13 R494, R495). -/
  rawLines : Tab RawLine
  /-- Filtered sources whose filtered line is 1 (13 R495, R496). -/
  filteredHigh : List Nat
  /-- The injection armed, if one is (19 R652). -/
  inject : Option Inject
  /-- Shared banks and cores' crossings, by row key of the first row (05 R203, 06 R248). -/
  banks : Tab BankRun
  /-- Physical errors that accesses to DRAM rows to come meet (07 R271, R282). -/
  upsets : List Upset
  /-- Shared banks retired (18 R617): (die, bank). -/
  retired : List (Nat × Nat)
  /-- Logical cores absent because no spare was left (18 R616), by key. -/
  absent : List Nat
  /-- Perturbed transfers of each crossing and controller (19 R646, R647): how many, and the cycle the last one left. -/
  perturbed : Tab (Nat × Nat)
  /-- The words that PERT_ registers written in a cycle held before it, by address, with that cycle (19 R649): transfers formed in the cycle of the write keep them. -/
  pertOld : Tab (Nat × Word)
  /-- Connections by unit * 8 + virtual channel (11 R427). -/
  conns : Tab Conn
  /-- Packets waiting to leave, oldest first (11 R425, R426). -/
  egress : List Egress
  /-- The arbitration of each peer port's egress (11 R426). -/
  arbiters : Tab PortArb
  /-- Accesses of other units still to be performed, oldest first (11 R428). -/
  peerDue : List PeerDue
  /-- Credits spent at the far end of each port's link, by port * 32 + vc * 4 + class (11 R425). -/
  spent : Tab Nat
  /-- Cells freed and not yet returned to each port's partner, by the same key (11 R425). -/
  freed : Tab Nat
  /-- The last frame each peer port has sent. -/
  wire : Tab DftPacket
  /-- Ethernet ports in training (11 R409, 14 R505), by port number (host port h is 16 + h). -/
  training : Tab Training
  /-- The uncorrectable FEC codewords of each port in the last millisecond (11 R409), by the same number: (cycle, codewords). -/
  fecRecent : Tab (List (Nat × Nat))
  /-- Rows that the I/O dies are packing, oldest first (11 R435). -/
  packing : List Packing
  /-- Link receivers waiting for a replay (01 R21). -/
  replays : List Replay
  /-- The Welt units, by stack (09 R330). -/
  welts : Tab WeltRun
  /-- Batches running in KV pools, by die * 16 + pool (10 R370). -/
  pools : Tab PoolRun
  /-- Credits a link receiver has freed and withholds under perturbation (19 R648), by selector * 16 + port * 4 + class. -/
  linkHeld : Tab Nat
  /-- The spare map of the links (01 R24, 17 R596): the wires of each receive direction that spares replace, by selector * 4 + port. -/
  linkSpares : Tab (List Nat)
  /-- Rows in the buffers of the link receivers (01 R23), by the same key: the request of each, which it leaves the buffer with. -/
  linkBuf : List (Nat × Nat)
  /-- The collective engines, by I/O die (11 R444). -/
  colls : Tab CollEngine
  /-- Collectives started of each group, modulo 2^16, by I/O die * 64 + group (11 R451). -/
  collCounts : Tab Nat
  /-- Rows in the host-class cores' caches, by row key (12 R458). -/
  cached : Tab CachedRow
  /-- Write-backs not yet performed, oldest first (12 R464). -/
  writeBacks : List WriteBack
  /-- Errors in the caches that accesses to come meet (12 R471). -/
  cacheUpsets : List CacheUpset
  /-- The lines in the host-class cores' own caches, by die * 16 + h (12 R458). -/
  hcCaches : Tab HcCaches
  /-- The line each host-class core holds a reservation on, by die * 16 + h (12 R461). -/
  hcReserved : Tab Nat
  /-- Extension slots, by lease * 8 + slot (12 R478). -/
  codeSlots : Tab CodeSlot
  /-- Invocations of customer code in progress, oldest first (12 R479). -/
  extRuns : List ExtRun
  /-- Ends of invocations recorded, oldest first (12 R479). -/
  extDone : List ExtDone
  /-- The cycle of the last commit of each mailbox, by die * 512 + m (13 R487). -/
  eyeCommits : Tab Nat
  /-- The cycle of the last expiry of each mailbox's timeout, and whether TIMEOUT was set before it, by the same key (13 R486). -/
  eyeExpired : Tab (Nat × Bool)
  /-- The last cycle in which a message word of each mailbox was written, by the same key (13 R484-R486). -/
  eyeWrites : Tab EyeWrite
  /-- The target that claimed each ACTIVE source, by controller * 1024 + source (13 R500). -/
  claimedBy : Tab Nat
  /-- The target after the one that last claimed each source, by the same key (13 R501). -/
  lastClaim : Tab Nat
  /-- The target from which round robin looks for an enabled one for a source it has moved on, by the same key (13 R501). -/
  roundRobin : Tab Nat
  /-- The cycle since which round robin offers each source to its present target, by the same key (13 R501). -/
  rrSince : Tab Nat
  /-- The cycle in which the last row of a die's range operation is examined (12 R470). -/
  rangeDue : Tab Nat
  /-- The lease whose range operation runs on a die, by die (12 R470, 18 R624). -/
  rangeOwner : Tab Nat
  /-- The ingress FIFOs of the host ports (14 R527). -/
  hostRx : Tab HostRx
  /-- Session slots, by port * 256 + slot (14 R514). -/
  sessions : Tab Session
  /-- The last packet each host port sent (14 R515). -/
  hostWire : Tab HostOut
  /-- Management key digests held, at most eight (14 R513). -/
  mgmtKeys : List (List Byte)
  /-- Key digests of leases (14 R513, 15 R538). -/
  leaseKeys : Tab (List Byte)
  /-- Resources without a VALID field of their own bound to leases, by KIND * 2^20 + index: rings, stacks, pools, hyperparameter sets, signal rows (15 R540). -/
  owned : Tab Nat
  /-- Quiesces in progress, oldest first (15 R543). -/
  quiesces : List Quiesce
  /-- The binding command in progress (15 R542). -/
  binding : Option Binding
  /-- Cycles found in the last two samples of the wait-for monitor, newest first (04 R176). -/
  monitor : List (List (List MonEdge))
  /-- The cycle of the monitor's last sample (04 R176). -/
  monitorAt : Nat
  /-- The snapshot stop in progress (18 R624, R625). -/
  snapOp : Option SnapOp
  /-- Leases of which a Welt step has ended since the learning service last judged whether a snapshot is due (18 R631). -/
  stepEnds : List Nat
  /-- Host-class cores withdrawn from allotment, by die * 16 + h (18 R618). -/
  withdrawn : List Nat
  /-- GIB_PER_SITE as the last start applied it (18 R629). -/
  stageGib : Nat
  /-- Snapshot images held, oldest first (18 R627, R628). -/
  snaps : List SnapImage
  /-- Snapshots taken since start (18 R627). -/
  snapCount : Nat
  /-- POS and DRAWS of the data-loader streams, by lease * 16 + stream (18 R623). -/
  streams : Tab (Nat × Nat)
  /-- Records delivered to the data-loader streams, oldest first, by the same key (14 R523). -/
  records : Tab (List (List Byte))
  /-- The cycle a lease was created in (18 R631). -/
  leaseBorn : Tab Nat
  /-- The cycle of a lease's last snapshot (18 R631). -/
  lastSnap : Tab Nat
  /-- The cycles of a lease's failures (18 R631). -/
  failures : Tab (List Nat)
  /-- Leases whose recovery has begun and that have not started a NORM since (18 R637-R639). -/
  recovering : List Nat
  /-- Prompts handed to the rollout service, oldest first (14 R523). -/
  prompts : List Prompt
  /-- The cycles of the last power sample and of the last decision on DUTY (16 R579, R581). -/
  powerAt : Nat
  dutyAt : Nat
  /-- The cycle in which a core of each host cluster was last bound, left its lease or made an access, by die * 4 + cluster (16 R577). -/
  clusterUsed : Tab Nat
  /-- The cycle of the last accrual of energy (15 R559). -/
  energyAt : Nat
  /-- The bytes charged to each lease up to that accrual (15 R558, R559). -/
  energyBytes : Tab Nat
  /-- Completion records ready (14 R523). -/
  completions : List Completion
  /-- The cycle a relock in progress began in (16 R573). -/
  relockAt : Option Nat
  /-- Successive windows that judged the reference good (16 R569). -/
  goodWindows : Nat
  /-- Whether SV1's standby root has lost lock (16 R572). -/
  standbyLost : Bool
  /-- ARITH_MHZ as the last start applied it, 1,100 in native mode (16 R564). -/
  arithMhz : Nat
  /-- RATIO_MODE as the last start applied it (16 R564). -/
  ratioMode : Bool
  /-- Watts of the last samples of the 48 V input, newest first, at most 1,000 (16 R579). -/
  watts : List Nat
  /-- Decisions in a row at DUTY 4 with a lowering condition (16 R583). -/
  floorRun : Nat
  /-- Host clusters powered off, by die * 4 + cluster (16 R577). -/
  clustersOff : List Nat
  /-- The cycle each alert output was last driven low in (20 R669). -/
  alertSince : Tab Nat
  /-- Supply, reset and clock roots (20 R661-R671). -/
  life : Life
  /-- Whether RESET_N is filtered low (20 R661). -/
  resetLow : Bool
  /-- CHAIN_STRAP as sampled (20 R662). -/
  strap : Nat
  /-- Sensors whose last sample reached the trip value, by kind * 64 + selector (20 R671). -/
  hot : List Nat
  /-- Whether a start is due (17 R586). -/
  startDue : Bool
  /-- The cycle the start began in (17 R602). -/
  startAt : Nat
  /-- The cycle the stage in progress began in (17 R587). -/
  stageAt : Nat
  /-- DURATION_MS of the last completed start (17 R602). -/
  lastDuration : Option Nat
  /-- The START area as the device holds it (17 R591, R596). -/
  startArea : StartArea
  /-- The three copies of the START area (17 R596, R597). -/
  storeStart : List (StoreCopy StartArea)
  /-- The three copies of the SETTINGS area (17 R596, R597). -/
  storeSettings : List (StoreCopy Settings)
  /-- The SETTINGS contents the start chose (17 R598, R601). -/
  chosen : Settings
  /-- The recovery store on SV1 (17 R594). -/
  recovery : Recovery
  /-- Whether SV1 holds management (17 R595). -/
  sv1 : Bool
  /-- Whether SV0's self-test has failed in this start (17 R587, R595). -/
  sv0Failed : Bool
  /-- The cycle of the last heartbeat, or of the release of reset (17 R595). -/
  heartbeatAt : Nat
  /-- The image slot of the flash (17 R588). -/
  flash : List Byte
  /-- The running image (17 R601). -/
  running : Option RunImage
  /-- The image slot as it is being written (17 R590). -/
  flashWrite : Option FlashWrite
  /-- The image being staged (17 R590). -/
  staged : Option StagedImage
  /-- The cycle the start completed in (17 R609). -/
  completeAt : Option Nat
  /-- The cycle enumeration started in (17 R609). -/
  enumAt : Option Nat
  /-- Whether the reclaim decision is pending (17 R610, R611). -/
  reclaimDue : Bool
  /-- Whether an ANNOUNCE has carried the recorded address with another identity (17 R610). -/
  foreign : Bool
  /-- The recorded address (17 R610). -/
  addrRecord : Option AddrRecord
  /-- The cycle of the last ANNOUNCE sent (17 R607). -/
  announcedAt : Option Nat
  /-- Rounds of neighbour advertisements sent since a host port came up, and the cycle of the last (17 R604). -/
  adverts : Tab (Nat × Nat)
  /-- The cycle of the last sample of the error counters (18 R615). -/
  rasAt : Nat
  /-- CORR and UNCORR of each counter at the last sample, by its device address (18 R615). -/
  rasSeen : Tab (Nat × Nat)
  /-- Rises of CORR, and of UNCORR for host-class cores, still within the span of the policy (cycle, rise), by the same key (18 R615). -/
  rasCorr : Tab (List (Nat × Nat))
  /-- Uncorrectable words met in row memories and DRAM (cycle, row key), newest first, those of the last 24 h at a sample (18 R615). -/
  uncRows : List (Nat × Nat)
  /-- Resources that have met a trigger while no action was raised (18 R615). -/
  rasMet : List Nat
  /-- Cores marked for sparing (18 R616). -/
  marked : List Nat
  /-- Shared banks that have met their trigger and are not retired yet, by (die, bank) (18 R617). -/
  retireDue : List (Nat × Nat)
  /-- Pseudo-channels and sites due for post-package repair at the next start, by the device address of their counter (18 R615). -/
  repairs : List Nat
  /-- The cycle the VERIFY in progress began in (19 R642). -/
  verifyAt : Option Nat
  deriving DecidableEq, Repr

/-- A matrix array with no tile. -/
def MatArray.empty : MatArray := ⟨none, none, none, none, [], []⟩

/-- An idle channel (06 R228). -/
def Chan.idle : Chan := ⟨none, none, [], none, false⟩

/-- A core right after reset. -/
def Core.reset : Core :=
  ⟨[], 0, [], [], 0, 0, [], none, [], [], [], [], 0, 0, [], [], [], 0, none, [], [], [], false, [], [], 0, none, 0, 0, true, [], none, false⟩

/-- An idle controller. -/
def Controller.idle : Controller := ⟨[], none, [], [], [], 0, [], none, []⟩

/-- A stack with nothing in progress. -/
def StackRun.idle : StackRun := ⟨0, false, []⟩

/-- A connection in its first epoch (11 R427). -/
def Conn.fresh : Conn := ⟨0, 0, [], [], [], 0, 0, [], [], none⟩

/-- A Welt unit with nothing in progress. -/
def WeltRun.idle : WeltRun := ⟨0, 0, 0, 0, 0, [], [], 0, 0#32, 0, 0, [], [], 0#32, [], 0, 0, false, false, [], .ok, 0, false⟩

/-- An extension slot with no image and the factory limits (12 R479). -/
def CodeSlot.empty : CodeSlot := ⟨none, [], 0, 1000, 268435456⟩


/-- An empty ingress FIFO. -/
def HostRx.empty : HostRx := ⟨[], false, [], [], [], none, []⟩

/-- The unit right after its reset line is released, before the start that this begins (17 R586, 20 R661): every die at its reset state, memories zeroed and tags set (05 R207, 07 R295), no session, lease or kernel; the store and the flash
as made (17 R596); CHAIN_STRAP unconnected (20 R660). Values the manual does not give are in the assumption log (log 1). -/
def State.reset : State :=
  { pending := []
    now := 0
    coreClock := 0
    fresh := 0
    grade := .full
    access := ⟨.ok, 0⟩
    regs := []
    latest := []
    mem := ⟨[], [], [], [], []⟩
    cores := []
    flagOps := []
    reqs := []
    nextId := 0
    ctls := []
    stackRuns := []
    wcache := []
    patrol := []
    scrubs := []
    frames := []
    extents := []
    pulses := []
    rawLines := []
    filteredHigh := []
    inject := none
    banks := []
    upsets := []
    retired := []
    absent := []
    perturbed := []
    pertOld := []
    conns := []
    egress := []
    arbiters := []
    peerDue := []
    spent := []
    freed := []
    wire := []
    training := []
    fecRecent := []
    packing := []
    replays := []
    welts := []
    pools := []
    linkHeld := []
    linkSpares := []
    linkBuf := []
    colls := []
    collCounts := []
    cached := []
    writeBacks := []
    cacheUpsets := []
    hcCaches := []
    hcReserved := []
    codeSlots := []
    extRuns := []
    extDone := []
    eyeCommits := []
    eyeExpired := []
    eyeWrites := []
    claimedBy := []
    lastClaim := []
    roundRobin := []
    rrSince := []
    rangeDue := []
    rangeOwner := []
    hostRx := []
    sessions := []
    hostWire := []
    mgmtKeys := []
    leaseKeys := []
    owned := []
    quiesces := []
    binding := none
    monitor := []
    monitorAt := 0
    snapOp := none
    stepEnds := []
    withdrawn := []
    stageGib := 8
    snaps := []
    snapCount := 0
    streams := []
    records := []
    leaseBorn := []
    lastSnap := []
    failures := []
    recovering := []
    prompts := []
    powerAt := 0
    dutyAt := 0
    clusterUsed := []
    energyAt := 0
    energyBytes := []
    completions := []
    relockAt := none
    goodWindows := 0
    standbyLost := false
    arithMhz := 1100
    ratioMode := false
    watts := []
    floorRun := 0
    clustersOff := []
    alertSince := []
    life := .running
    resetLow := false
    strap := 127
    hot := []
    startDue := true
    startAt := 0
    stageAt := 0
    lastDuration := none
    startArea := ⟨0, 0, []⟩
    storeStart := List.replicate 3 ⟨0, true, ⟨0, 0, []⟩⟩
    storeSettings := List.replicate 3 ⟨0, true, ⟨[], none, [], [], [], [], [], [], []⟩⟩
    chosen := ⟨[], none, [], [], [], [], [], [], []⟩
    recovery := ⟨⟨0, 0, []⟩, [], []⟩
    sv1 := false
    sv0Failed := false
    heartbeatAt := 0
    flash := []
    running := none
    flashWrite := none
    staged := none
    completeAt := none
    enumAt := none
    reclaimDue := false
    foreign := false
    addrRecord := none
    announcedAt := none
    adverts := []
    rasAt := 0
    rasSeen := []
    rasCorr := []
    uncRows := []
    rasMet := []
    marked := []
    retireDue := []
    repairs := []
    verifyAt := none }
end Sys2Proof.Machine
end

