-- ==== Sys2Proof/Machine/Mem.lean ====
section
/-! DEFINITION. The unit's memories (00 R7, 01 R29, 05, 07): bytes and 512-byte rows in one canonical list, poison, symbols in error, and where each memory lies in the key space. -/
namespace Sys2Proof.Machine

/-- What a byte nothing has written reads as: row memories are zeroed at start (05 R207), tagged stacks read zero (07 R296); for LPDDR5X a DESIGN CHOICE (log 2). -/
def Memory.fill : Byte := 0#8

/-- The byte at key `a` of a canonical cell list. -/
def cget : List Host.Cell → Nat → Byte
  | [], _ => Memory.fill
  | (k, b) :: t, a => if k < a then cget t a else if k = a then b else Memory.fill

/-- The cell list with byte `b` at key `a`, still canonical. -/
def cset : List Host.Cell → Nat → Byte → List Host.Cell
  | [], a, b => if b = Memory.fill then [] else [(a, b)]
  | (k, c) :: t, a, b =>
    if k < a then (k, c) :: cset t a b
    else if k = a then (if b = Memory.fill then t else (a, b) :: t)
    else (if b = Memory.fill then (k, c) :: t else (a, b) :: (k, c) :: t)

/-- The cell list with a run of bytes from key `a`. -/
def csetAll : List Host.Cell → Nat → List Byte → List Host.Cell
  | m, _, [] => m
  | m, a, b :: l => csetAll (cset m a b) (a + 1) l

/-- Keys strictly rise from above `lo`, and no byte is the one an unlisted key reads as. -/
def cellsWf : Option Nat → List Host.Cell → Bool
  | _, [] => true
  | lo, (k, b) :: t => (match lo with | none => true | some l => l < k) && b != Memory.fill && cellsWf (some k) t

/-- The canonical form of the memory. -/
def Memory.wf (m : Memory) : Bool := cellsWf none m.cells

/-- The byte at key `a`. -/
def Memory.byte (m : Memory) (a : Nat) : Byte := cget m.cells a

/-- `n` bytes from key `a`. -/
def Memory.read (m : Memory) (a n : Nat) : List Byte := (List.range n).map (fun i => m.byte (a + i))

/-- A run of bytes written from key `a`. -/
def Memory.write (m : Memory) (a : Nat) (l : List Byte) : Memory := { m with cells := csetAll m.cells a l }

/-- A little-endian word of `n` bytes at key `a` (00 R7). -/
def Memory.word (m : Memory) (a n : Nat) : Nat := leNat (m.read a n)

/-- Row key of the first row of stack HS(n). -/
def stackRow (n : Nat) : Nat := n * 2 ^ 31
/-- Row key of the first row of site LP(n). -/
def siteRow (n : Nat) : Nat := (16 + n) * 2 ^ 31
/-- Row key of the first row of CDd's shared die memory. -/
def sdmRow (d : Nat) : Nat := (24 + d) * 2 ^ 31
/-- Row key of the first row of a core's SRAM (03 R67): core memory, then activation buffer, accumulator and weight buffers. -/
def coreRow (c : Nat) : Nat := 28 * 2 ^ 31 + c * 2 ^ 15
/-- Row key of the first 64-byte FIFO row of host port h, eight FIFO rows to a 512-byte row (14 R527). -/
def fifoKey (h : Nat) : Nat := 29 * 2 ^ 40 + h * 2 ^ 20

/-- Where a buffer's rows begin within a core's SRAM, by buffer code (04 R121). -/
def bufBase (buf : Nat) : Nat :=
  match buf with
  | 0 => 8192
  | 1 => 8448
  | 2 => 0
  | b => 8960 + 128 * (b - 3)

/-- Rows of a buffer code, 0 for the reserved code (04 R121). -/
def bufRows (buf : Nat) : Nat :=
  match buf with
  | 0 => 256
  | 1 => 512
  | 2 => 8192
  | 3 => 128
  | 4 => 128
  | 5 => 128
  | 6 => 128
  | _ => 0

/-- Row key of a buffer row of a core. -/
def bufRow (c buf row : Nat) : Nat := coreRow c + bufBase buf + row

/-- A row of zeros. -/
def zeroRow : List Byte := List.replicate 512 0#8

/-- A row of 512 bytes, a shorter list completed with zeros (05 R184). -/
def padRow (l : List Byte) : List Byte := (l ++ List.replicate (512 - l.length) 0#8).take 512

/-- What a read of a row finds: the row as delivered, the words corrected, the words uncorrectable, and whether the row was stored poisoned. -/
structure RowRead where
  img : RowImg
  corr : Nat
  unc : Nat
  stored : Bool
  deriving DecidableEq, Repr

/-- The damage of a stored row, by word. -/
def Memory.damageOf (m : Memory) (row : Nat) : List Damage := m.damage.filter (fun d => d.row == row && d.syms != [])

/-- Whether a stored word is detected as uncorrectable by the read with number `nth`: two symbols in error, or three and more that the device happens to detect (05 R187). -/
def Damage.detected (d : Damage) (nth : Nat) : Bool := d.syms.length == 2 || (3 ≤ d.syms.length && Config.eccDetects d.row d.word nth)

/-- Whether word w of a row is stored poisoned: of a DRAM row, one not stored since without poison (05 R189, 07 R278). -/
def Memory.badWord (m : Memory) (row w : Nat) : Bool := m.poison.contains row && !bitAt (tget 0 m.clean row) w

/-- A read of words `ws` of row key `row` (05 R187, R189, 03 R99, 07 R278): one symbol in error is corrected, two are uncorrectable, three or more are free; a poisoned row, or one with an uncorrectable word, is delivered poisoned. A DRAM row is read as stored poisoned when a word read decodes as poisoned (07 R278). DESIGN CHOICE (log 3): a word with three or more symbols in error that is not detected counts as none: it is in no CORR, freezes no core and adds no cycles, whatever data it gives; R187 guarantees nothing for it. -/
def Memory.readWords (m : Memory) (row : Nat) (ws : Nat → Bool) (nth : Nat) : RowRead :=
  let ds := (m.damageOf row).filter (fun d => ws d.word)
  let lost := ds.filter (fun d => d.detected nth)
  let unc := lost.length
  let stored := if 24 * 2 ^ 31 ≤ row then m.poison.contains row else (List.range 16).any (fun w => ws w && m.badWord row w && lost.all (fun d => d.word != w))
  let corr := (ds.filter (fun d => d.syms.length == 1)).length
  let base := m.read (row * 512) 512
  let bytes := ds.foldl (fun (b : List Byte) d =>
    if d.syms.length ≤ 1 then b
    else b.take (32 * d.word) ++ leBytes 32 (Config.eccData row d.word nth).toNat ++ b.drop (32 * d.word + 32)) base
  ⟨⟨bytes, stored || 0 < unc⟩, corr, unc, stored⟩

/-- A read of a whole row. -/
def Memory.readRow (m : Memory) (row : Nat) (nth : Nat) : RowRead := m.readWords row (fun _ => true) nth

/-- Words of a row that the read with number `nth` finds uncorrectable. -/
def Memory.uncWords (m : Memory) (row nth : Nat) : List Nat := ((m.damageOf row).filter (fun d => d.detected nth)).map (·.word)

/-- Words of a row written, with fresh check bits for those words alone (05 R188): `words` lists (word, its 32 bytes). -/
def Memory.writeWords (m : Memory) (row : Nat) (words : List (Nat × List Byte)) : Memory :=
  { m with
    cells := words.foldl (fun c w => csetAll c (row * 512 + 32 * w.1) w.2) m.cells
    damage := m.damage.filter (fun d => !(d.row == row && words.any (fun w => w.1 == d.word))) }

/-- Words of a DRAM row written poisoned or not: the row stays poisoned while some word of it is (07 R278). -/
def Memory.writePiece (m : Memory) (row : Nat) (words : List (Nat × List Byte)) (bad : Bool) : Memory :=
  let m := m.writeWords row words
  let put := fun (k : Nat) (b : Bool) => words.foldl (fun k w => setBit k w.1 b) k
  if bad then
    let k := put (if m.poison.contains row then tget 0 m.clean row else 65535) false
    { m with poison := sins m.poison row, clean := tset m.clean row k }
  else if !m.poison.contains row then m
  else
    let k := put (tget 0 m.clean row) true
    if k == 65535 then { m with poison := sdel m.poison row, clean := tdel m.clean row } else { m with clean := tset m.clean row k }

/-- A whole row written with fresh check bits and its poison state (05 R188, R189). -/
def Memory.writeRow (m : Memory) (row : Nat) (r : RowImg) : Memory :=
  { m with
    cells := csetAll m.cells (row * 512) (padRow r.bytes)
    poison := if r.poison then sins m.poison row else sdel m.poison row
    clean := tdel m.clean row
    damage := m.damage.filter (fun d => d.row != row) }

/-- Symbols in error with further bits flipped; a symbol whose bits cancel is in error no more. -/
def xorSyms (old new : List (Nat × Nat)) : List (Nat × Nat) :=
  new.foldl (fun l p =>
    match l.find? (fun q => q.1 == p.1) with
    | none => l ++ [p]
    | some q => if q.2 ^^^ p.2 == 0 then l.filter (fun x => x.1 != p.1) else l.map (fun x => if x.1 == p.1 then (x.1, x.2 ^^^ p.2) else x)) old

/-- A stored word with further symbols in error (19 R653). -/
def Memory.hurt (m : Memory) (row word : Nat) (syms : List (Nat × Nat)) : Memory :=
  let old := (m.damage.find? (fun d => d.row == row && d.word == word)).map (·.syms)
  let rest := m.damage.filter (fun d => !(d.row == row && d.word == word))
  let new := xorSyms (old.getD []) syms
  { m with damage := if new == [] then rest else rest ++ [⟨row, word, new⟩] }

/-- `n` rows from a row key written to zero with their poison bits clear (05 R207, R208). -/
def Memory.zeroRows (m : Memory) (row n : Nat) : Memory :=
  { m with
    cells := m.cells.filter (fun c => !(row * 512 ≤ c.1 && c.1 < (row + n) * 512))
    poison := m.poison.filter (fun r => !(row ≤ r && r < row + n))
    clean := m.clean.filter (fun p => !(row ≤ p.1 && p.1 < row + n))
    damage := m.damage.filter (fun d => !(row ≤ d.row && d.row < row + n)) }

/-- The tag block of a stack row key (07 R294). -/
def tagBlock (row : Nat) : Nat := row / 256

/-- Whether a row key lies in a tagged block of a stack (07 R294-R296). -/
def Memory.tagged (m : Memory) (row : Nat) : Bool := row < 16 * 2 ^ 31 && !m.untagged.contains (tagBlock row)

/-- The tags of `n` blocks from `blk` set: their rows read as zero until written (07 R295, R296). -/
def Memory.setTags (m : Memory) (blk n : Nat) : Memory :=
  { m.zeroRows (blk * 256) (n * 256) with untagged := m.untagged.filter (fun b => !(blk ≤ b && b < blk + n)) }

/-- FP32 elements of a row. -/
def rowF32 : Nat → List Byte → List F32
  | 0, _ => []
  | n + 1, l => BitVec.ofNat 32 (leNat (l.take 4)) :: rowF32 n (l.drop 4)

/-- The bytes of FP32 elements. -/
def f32Bytes (l : List F32) : List Byte := (l.map (fun x => leBytes 4 x.toNat)).flatten

/-- Element codes of `w` bits packed little-endian in bytes (02 R44: element 0 lowest). -/
def unpackCodes (w n : Nat) (l : List Byte) : List Nat :=
  let v := leNat l
  (List.range n).map (fun i => v / 2 ^ (w * i) % 2 ^ w)

/-- Bytes of packed element codes of `w` bits. -/
def packCodes (w : Nat) (cs : List Nat) : List Byte :=
  let v := (cs.foldr (fun c a => c % 2 ^ w + 2 ^ w * a) 0)
  leBytes (ceilDiv (w * cs.length) 8) v

end Sys2Proof.Machine
end

