-- ==== Sys2Proof/Machine/Ops.lean ====
section
/-! DEFINITION. The named operations over State that every unit shares: status codes, the register file, cores, interrupt
pending bits, correction freezes, error counters and data-integrity records. -/
namespace Sys2Proof.Machine

/-- The 16-bit code of a status (14 R534). -/
def code : Status → Nat
  | .ok => 0x0000
  | .doneBeforeAbort => 0x0001
  | .range => 0x0201
  | .staleHandle => 0x0202
  | .engineAbsent => 0x0301
  | .noResource => 0x0302
  | .rearmPending => 0x0401
  | .busy => 0x0402
  | .timeout => 0x0501
  | .integrity => 0x0601
  | .auth => 0x0701
  | .state => 0x0801
  | .nonfiniteSkip => 0x0901
  | .stepSkew => 0x0902
  | .format => 0x0903
  | .syncCycle => 0x0A01
  | .snapshotMismatch => 0x0B01
  | .minimalMode => 0x0C01

/-- The status with a code, as packets carry it (14 R534). -/
def statusOf (c : Nat) : Status :=
  ([Status.doneBeforeAbort, .range, .staleHandle, .engineAbsent, .noResource, .rearmPending, .busy, .timeout, .integrity, .auth, .state, .nonfiniteSkip, .stepSkew, .format, .syncCycle, .snapshotMismatch, .minimalMode].find?
    (fun x => code x == c)).getD .ok

/-! Die selectors (01 R31). -/

/-- Selector of CDd. -/
def selCd (d : Nat) : Nat := d
/-- Selector of the base die of HSn. -/
def selHs (n : Nat) : Nat := 4 + n
/-- Selector of IOd. -/
def selIo (d : Nat) : Nat := 20 + d
/-- Selector of SV0. -/
def selSv0 : Nat := 24
/-- Selector of SV1. -/
def selSv1 : Nat := 25

/-- Whether a die carries registers of a kind (01 R31 and each chapter). -/
def SelKind.holds (k : SelKind) (sel : Nat) : Bool :=
  match k with
  | .cd => sel < 4
  | .hs => 4 ≤ sel && sel < 20
  | .io => 20 ≤ sel && sel < 24
  | .sv0 => sel == 24
  | .sv => sel == 24 || sel == 25
  | .link => sel < 4 || sel == 24 || sel == 25
  | .ic => sel < 4 || sel == 24 || sel == 25
  | .hp => sel == 20 || sel == 21

/-- The device address of a register (01 R29, R30). -/
def Reg.addr (r : Reg) : Nat :=
  let l := r.name.layout
  8 * 2 ^ 44 + r.sel * 2 ^ 38 + l.base + l.strideI * r.i + l.strideJ * r.j

/-- The entry of a layout that lies at offset `o`, if one does. -/
def Layout.find (l : Layout) (o : Nat) : Option (Nat × Nat) :=
  if o < l.base then none
  else
    let x := o - l.base
    let i := if l.countI ≤ 1 then 0 else x / l.strideI
    let y := x - l.strideI * i
    let j := if l.countJ ≤ 1 then 0 else y / l.strideJ
    if i < l.countI && j < l.countJ && y - l.strideJ * j == 0 then some (i, j) else none

/-- The register at a device address of space 0x8, if the manual lists one there (01 R30, R674). -/
def Reg.ofAddr (a : Nat) : Option Reg :=
  if bits a 47 44 != 8 then none
  else
    let sel := bits a 43 38
    let o := bits a 37 0
    RegName.all.findSome? (fun n =>
      if n.layout.kind.holds sel then (n.layout.find o).map (fun p => ⟨n, sel, p.1, p.2⟩) else none)

/-- Whether an offset of a die lies in the window of a logical core, and of which (03 R68). -/
def windowCore (sel o : Nat) : Option Nat := if sel < 4 && 0x1000000 ≤ o && o < 0x1800000 then some ((o - 0x1000000) / 0x10000) else none

/-- The registers of a ring (04 R149). -/
def RegName.isRing : RegName → Bool
  | .RING_BASE => true
  | .RING_CFG => true
  | .RING_PROD => true
  | .RING_CONS => true
  | .RING_DEPTH => true
  | .RING_STATUS => true
  | .RING_CTRL => true
  | .RING_FAULT_AT => true
  | .RING_KSTAT => true
  | .RING_MARK => true
  | .RING_PREFIX => true
  | .RING_DUMP => true
  | _ => false

/-- The registers of an activation stack (05 R218, 08 R319). -/
def RegName.isStack : RegName → Bool
  | .ASTK_CFG => true
  | .ASTK_SPILL => true
  | .ASTK_SPILL_ROWS => true
  | .ASTK_TOP => true
  | .ASTK_FLOOR => true
  | .ASTK_STAT => true
  | .ASTK_FCMD => true
  | .ASTK_FSTAT => true
  | .ASTK_FRAME => true
  | .ASTK_FACCT => true
  | .ASTK_FEXP => true
  | _ => false

/-- The value an RW, RO or W1C field set has at reset (00 R8, R11). -/
def RegName.resetNat (n : RegName) : Nat :=
  n.fields.foldl (fun w f => if f.acc == .wo then w else setBits w f.fld.hi f.fld.lo f.dflt) 0

/-- The factory default of DIR at peer port q (11 R416). -/
def factoryDir (q : Nat) : Nat := [0, 1, 0, 1, 2, 3, 2, 3, 4, 5, 4, 5].getD q 7

/-- The value a register has at reset: its fields' reset values; FAB_VC's defaults differ by channel (11 R424), and DIR's by port (11 R416). -/
def Reg.resetWord (r : Reg) : Word :=
  match r.name with
  | .FAB_VC =>
    let w := if r.i == 1 then 64 else 32
    let c := if r.i == 0 then 128 else if r.i == 1 then 1024 else 448
    BitVec.ofNat 64 (setBits (setBits 0 23 16 w) 11 0 c)
  | .PEER_PORT_CFG => BitVec.ofNat 64 (setBits (RegName.resetNat .PEER_PORT_CFG) PEER_PORT_CFG.DIR.hi PEER_PORT_CFG.DIR.lo (factoryDir (4 * (r.sel - 20) + r.i)))
  | n => BitVec.ofNat 64 n.resetNat

/-- The stored value of a register. -/
def State.reg (s : State) (r : Reg) : Word := (tget? s.regs r.addr).getD r.resetWord

/-- A register set whole. -/
def State.setReg (s : State) (r : Reg) (v : Word) : State := { s with regs := tset s.regs r.addr v }

/-- The value of a field. -/
def State.fld (s : State) (r : Reg) (f : Fld) : Nat := bits (s.reg r).toNat f.hi f.lo

/-- A field set by hardware. -/
def State.setFld (s : State) (r : Reg) (f : Fld) (v : Nat) : State :=
  s.setReg r (BitVec.ofNat 64 (setBits (s.reg r).toNat f.hi f.lo v))

/-- A field that counts, saturating at its maximum. -/
def State.bump (s : State) (r : Reg) (f : Fld) (n : Nat) : State :=
  s.setFld r f (satAdd (f.hi + 1 - f.lo) (s.fld r f) n)

/-- A field that counts and wraps. -/
def State.count (s : State) (r : Reg) (f : Fld) (n : Nat) : State :=
  s.setFld r f ((s.fld r f + n) % 2 ^ (f.hi + 1 - f.lo))

/-- What hardware has done to a register in the present cycle, 0 for nothing. -/
def State.thisCycle (s : State) (r : Reg) : Nat :=
  match tget? s.latest r.addr with
  | some (t, w) => if t == s.now then w.toNat else 0
  | none => 0

/-- What hardware has done to a register in the present cycle noted. -/
def State.noteCycle (s : State) (r : Reg) (w : Nat) : State := { s with latest := tset s.latest r.addr (s.now, BitVec.ofNat 64 w) }

/-- A value that hardware gives a field in the present cycle noted. -/
def State.noteFld (s : State) (r : Reg) (f : Fld) (v : Nat) : State := s.noteCycle r (setBits (s.thisCycle r) f.hi f.lo v)

/-- A W1C bit set by hardware: a write of 1 in the same cycle leaves it set (00 R9). -/
def State.setW1c (s : State) (r : Reg) (f : Fld) : State := (s.setFld r f 1).noteFld r f 1

/-- A counter that a CLEAR zeroes counts: an increment in the cycle of the clear is counted after it (01 R28). -/
def State.tally (s : State) (r : Reg) (f : Fld) (n : Nat) : State :=
  (s.bump r f n).noteFld r f (satAdd (f.hi + 1 - f.lo) (bits (s.thisCycle r) f.hi f.lo) n)

/-- A register back at its reset value. -/
def State.resetReg (s : State) (r : Reg) : State := { s with regs := tdel s.regs r.addr }

/-- A counter register cleared: it then reads what it has counted in this cycle (01 R28). -/
def State.clearReg (s : State) (r : Reg) : State := if s.thisCycle r == 0 then s.resetReg r else s.setReg r (BitVec.ofNat 64 (s.thisCycle r))

/-- Some fields of a counter register cleared (01 R28). -/
def State.clearTally (s : State) (r : Reg) (fs : List Fld) : State := fs.foldl (fun s f => s.setFld r f (bits (s.thisCycle r) f.hi f.lo)) s

/-- A word from the values of some of its fields, zero elsewhere. -/
def ofFields (l : List (Fld × Nat)) : Nat := l.foldl (fun w x => setBits w x.1.hi x.1.lo x.2) 0

/-- An event register with a record put in it, its COUNT kept. -/
def State.putRecord (s : State) (e : Reg) (count : Fld) (w : Nat) : State := s.setReg e (BitVec.ofNat 64 (setBits w count.hi count.lo (s.fld e count)))

/-- An event recorded (03 R106, 05 R192): the record is taken while VALID is 0, and kept for this cycle, in which a write of 1 to VALID makes room for it. `more`: further registers of the record. -/
def State.record (s : State) (e : Reg) (valid count : Fld) (w : Nat) (more : List (Reg × Nat)) : State :=
  let s' := if s.fld e valid == 1 then s else more.foldl (fun s p => s.setReg p.1 (BitVec.ofNat 64 p.2)) (s.putRecord e count w)
  if s.thisCycle e == 0 then more.foldl (fun s p => s.noteCycle p.1 p.2) (s'.noteCycle e w) else s'

/-- A write to an event register: a 1 in VALID clears it, or shows the event of this cycle (00 R9, 03 R106, 05 R192). -/
def State.recordWrite (s : State) (e : Reg) (valid count : Fld) (v : Nat) (more : List Reg) : State :=
  if bits v valid.hi valid.lo == 0 then s
  else if s.thisCycle e == 0 then s.setFld e valid 0
  else more.foldl (fun s r => s.setReg r (BitVec.ofNat 64 (s.thisCycle r))) (s.putRecord e count (s.thisCycle e))

/-- The access's result (the reply or fault a command's sender sees). -/
def State.answer (s : State) (st : Status) (v : Word) : State := { s with access := ⟨st, v⟩ }

/-- One free value drawn (log 7). -/
def State.draw (s : State) : Word × State := (Config.freeWord s.fresh, { s with fresh := s.fresh + 1 })

/-- A command acts only on a unit that runs: with a reset held, no power or no clock root, no island does anything (16 R572, 20 R661, R665, R671). -/
def State.live (s : State) (f : State → Host.Outcome State Fault Refusal) : Host.Outcome State Fault Refusal := if s.life = .running then f s else .next s

/-- The state a meaning leaves. -/
def outcomeState (s : State) : Host.Outcome State Fault Refusal → State
  | .next t => t
  | _ => s

/-- Whether the condition of ALERT_N[i] holds (20 R668). -/
def State.alertCond (s : State) (i : Nat) : Bool :=
  let st : Reg := ⟨.START_STATUS, selSv0, 0, 0⟩
  let pw : Reg := ⟨.PWR_STATUS, selSv0, 0, 0⟩
  let ck : Reg := ⟨.CLK_MON_STATUS, selSv0, 0, 0⟩
  match i with
  | 0 => s.life != .running || s.fld st START_STATUS.STAGE != 9 || s.fld st START_STATUS.MODE != 0
  | 1 => s.fld pw PWR_STATUS.LIMITED == 1
  | 2 => s.fld pw PWR_STATUS.THERMAL == 1 || (List.range 24).any (fun k => s.fld ⟨.MEMC_THERM, selCd (k / 6), k % 6, 0⟩ MEMC_THERM.THROTTLE == 1)
  | _ => s.fld ck CLK_MON_STATUS.HOLDOVER == 1 || s.fld ck CLK_MON_STATUS.STANDBY == 1

/-- Whether an alert output is to be driven low: its condition holds and it is enabled; ALERT_N[0] ignores ENABLE before stage 3 and while RESET_N is low (20 R661, R668). -/
def State.alertWanted (s : State) (i : Nat) : Bool :=
  if s.resetLow then i == 0
  else s.alertCond i &&
    (bitAt (s.fld ⟨.PKG_ALERT_CFG, selSv0, 0, 0⟩ PKG_ALERT_CFG.ENABLE) i || (i == 0 && s.fld ⟨.START_STATUS, selSv0, 0, 0⟩ START_STATUS.STAGE < 3))

/-- The alert outputs follow their conditions, each staying low for at least 1 ms (20 R668, R669). -/
def State.syncAlerts (s : State) : State :=
  let r : Reg := ⟨.PKG_PIN_STATUS, selSv0, 0, 0⟩
  (List.range 4).foldl (fun s i =>
    let low := bitAt (s.fld r PKG_PIN_STATUS.ALERT) i
    let put := fun (s : State) b => s.setFld r PKG_PIN_STATUS.ALERT (setBit (s.fld r PKG_PIN_STATUS.ALERT) i b)
    if s.alertWanted i then (if low then s else put { s with alertSince := tset s.alertSince i s.now } true)
    else if low && tget 0 s.alertSince i + 1100000 ≤ s.now then put s false
    else s) s

/-! Cores. -/

/-- The key of a logical core. -/
def coreKey (d c : Nat) : Nat := d * 128 + c

/-- The key of a core named by a command. -/
def ckey (c : CoreId) : Nat := coreKey c.die.val c.core.val

/-- The die of a core key. -/
def coreDie (k : Nat) : Nat := k / 128

/-- The logical number of a core key. -/
def coreNum (k : Nat) : Nat := k % 128

/-- Logical cores exposed on each die (00 R1, R2). -/
def coresOf : Grade → Nat
  | .full => 72
  | .lite => 56

/-- Whether a logical core of a die is exposed: below the grade's count, and not absent for want of a spare (00 R2, R4, 15 R550, 18 R616). -/
def State.exposed (s : State) (d n : Nat) : Bool := n < coresOf s.grade && !s.absent.contains (coreKey d n)

/-- The core at a key. -/
def State.core (s : State) (k : Nat) : Core := tget Core.reset s.cores k

/-- The core at a key replaced. -/
def State.setCore (s : State) (k : Nat) (c : Core) : State := { s with cores := tset s.cores k c }

/-- The core at a key changed. -/
def State.onCore (s : State) (k : Nat) (f : Core → Core) : State := s.setCore k (f (s.core k))

/-- An array of a core. -/
def Core.arr (c : Core) (a : Nat) : MatArray := tget MatArray.empty c.arrays a

/-- An array of a core replaced. -/
def Core.setArr (c : Core) (a : Nat) (m : MatArray) : Core := { c with arrays := tset c.arrays a m }

/-- A channel of a core. -/
def Core.chan (c : Core) (k : Nat) : Chan := tget Chan.idle c.chans k

/-- A channel of a core replaced. -/
def Core.setChan (c : Core) (k : Nat) (x : Chan) : Core := { c with chans := tset c.chans k x }

/-- Core cycles: the tensor-core clock less the cycles frozen; constant from a detection to the end of its freeze (03 R108-R111). -/
def Core.time (c : Core) (clock : Nat) : Nat :=
  match c.freezeAt with
  | some t => t - c.frozen
  | none => clock - c.frozen

/-- The core cycle a core is in. -/
def State.ctime (s : State) (k : Nat) : Nat := (s.core k).time s.coreClock

/-- Whether a core is in the two frozen cycles, or past them with their end not yet taken (03 R109, R110). -/
def State.frozen (s : State) (k : Nat) : Bool :=
  match (s.core k).freezeAt with
  | some t => t < s.coreClock
  | none => false

/-- TC_BIND of a core (15 R552). -/
def tcBind (k : Nat) : Reg := ⟨.TC_BIND, selCd (coreDie k), coreNum k, 0⟩

/-- TC_SHARE of a core (15 R552). -/
def tcShare (k : Nat) : Reg := ⟨.TC_SHARE, selCd (coreDie k), coreNum k, 0⟩

/-- The lease whose rows a core keeps: its exclusive lease or holder (15 R552); none while unbound or being scrubbed (05 R210). -/
def State.holder (s : State) (k : Nat) : Option Nat :=
  if s.fld (tcBind k) TC_BIND.MODE == 0 || (s.core k).scrubDue.isSome then none else some (s.fld (tcBind k) TC_BIND.HOLDER)

/-- The members of a shared core (15 R552). -/
def State.members (s : State) (k : Nat) : List Nat :=
  (List.range 8).filterMap (fun i =>
    if bitAt (s.fld (tcBind k) TC_BIND.SLOTS) i then some (bits (s.reg (tcShare k)).toNat (8 * i + 7) (8 * i)) else none)

/-- Whether a core is bound to a lease: exclusively, or as a shared member (15 R553). -/
def State.boundTo (s : State) (k n : Nat) : Bool :=
  if (s.core k).scrubDue.isSome then false
  else if s.fld (tcBind k) TC_BIND.MODE == 1 then s.fld (tcBind k) TC_BIND.HOLDER == n
  else s.fld (tcBind k) TC_BIND.MODE == 2 && (s.members k).contains n

/-- The compute die that forwards traffic between two compute dies with no bridge of their own: CD1 between CD0 and CD3, CD0 between CD1 and CD2 (01 R22). -/
def via (a b : Nat) : Option Nat := if a + b != 3 then none else if a == 0 || b == 0 then some 1 else some 0

/-- The compute dies that a transfer from compute die a to compute die b leaves over a bridge, in order (01 R22). -/
def bridges (a b : Nat) : List Nat := if a == b then [] else a :: (via a b).toList

/-- The compute die through which a die selector's traffic goes: SV0's through CD0, SV1's through CD3, a compute die's through itself (01 R22). -/
def gateway (sel : Nat) : Nat := if sel == selSv0 then 0 else if sel == selSv1 then 3 else sel

/-- The dies that a transfer from a compute die or service die to another leaves, in order (01 R22). -/
def route (a b : Nat) : List Nat := (if gateway a == a then [] else [a]) ++ bridges (gateway a) (gateway b) ++ (if gateway b == b || a == b then [] else [gateway b])

/-- Bridge hops between compute dies on the routes of 01 R22. -/
def hops (a b : Nat) : Nat := (bridges a b).length

/-- Root ticks of `c` cycles of the arithmetic domain (16 R563, R565). -/
def State.arithTicks (s : State) (c : Nat) : Nat := if s.ratioMode then ceilDiv (c * 1100) (max 1 s.arithMhz) else c

/-- A bridge hop: 20 cycles, and in arbitrary-ratio mode 26 to 28 (01 R22, 16 R565). -/
def State.hopCycles (s : State) (n : Nat) : Nat := if s.ratioMode then s.arithTicks (26 + Config.ratioExtra s.now n % 3) else 20

/-- What a crossing between islands adds in arbitrary-ratio mode: 3 to 4 cycles (16 R565). -/
def State.crossCycles (s : State) (n : Nat) : Nat := if s.ratioMode then s.arithTicks (3 + Config.ratioExtra s.now n % 2) else 0

/-! Interrupt controllers (13). Controller keys 0-3 are the compute dies', 4 is the concentrator of SV0 and 5 that of SV1. -/

/-- The selector of a controller key. -/
def icSel (ic : Nat) : Nat := if ic < 4 then ic else 20 + ic

/-- The controller key of a selector. -/
def icOf (sel : Nat) : Nat := if sel < 4 then sel else if sel == 25 then 5 else 4

/-- Whether a controller works: SV1's concentrator once SV1 has taken over, and SV0's until then (13 R491). -/
def State.icLive (s : State) (ic : Nat) : Bool := ic < 4 || (ic == 5) == s.sv1

/-- Whether a source is in use (13 R492, R494), by controller key. -/
def State.sourceUsed (s : State) (ic src : Nat) : Bool :=
  if ic < 4 then
    (src < 0x50 && s.exposed ic src) || (0x50 ≤ src && src < 0xA0 && s.exposed ic (src - 0x50)) || (0xA0 ≤ src && src ≤ 0xC2) || (0xC4 ≤ src && src ≤ 0xD3) ||
      (0x100 ≤ src && src ≤ 0x37F)
  else src ≤ 0x0C

/-- Whether a source is filtered (13 R492, R494). -/
def sourceFiltered (ic src : Nat) : Bool :=
  if ic < 4 then (0xB0 ≤ src && src ≤ 0xB3) || src == 0xC1 else src == 0 || (3 ≤ src && src ≤ 0x0C)

/-- Whether a source is a level source (13 R492, R494). -/
def sourceLevel (ic src : Nat) : Bool :=
  if ic < 4 then (0x50 ≤ src && src < 0xA0) || (0x100 ≤ src && src ≤ 0x33F) else (4 ≤ src && src ≤ 7) || src == 0x0C

/-- IC_PENDING of a source's word. -/
def icPending (ic src : Nat) : Reg := ⟨.IC_PENDING, icSel ic, src / 64, 0⟩

/-- IC_ACTIVE of a source's word. -/
def icActive (ic src : Nat) : Reg := ⟨.IC_ACTIVE, icSel ic, src / 64, 0⟩

/-- PENDING of a source. -/
def State.isPending (s : State) (ic src : Nat) : Bool := bitAt (s.reg (icPending ic src)).toNat (src % 64)

/-- ACTIVE of a source. -/
def State.isActive (s : State) (ic src : Nat) : Bool := bitAt (s.reg (icActive ic src)).toNat (src % 64)

/-- A bit of a register set to `b`. -/
def State.putBit (s : State) (r : Reg) (k : Nat) (b : Bool) : State := s.setReg r (BitVec.ofNat 64 (setBit (s.reg r).toNat k b))

/-- The escalation line of CDd: some source with ESC set is PENDING (13 R498). -/
def State.escLine (s : State) (d : Nat) : Bool :=
  (List.range 16).any (fun w =>
    let p := (s.reg ⟨.IC_PENDING, d, w, 0⟩).toNat
    p != 0 && (List.range 64).any (fun b => bitAt p b && s.fld ⟨.IC_SRC, d, 64 * w + b, 0⟩ IC_SRC.ESC == 1))

/-- A raw line of a filtered level source noted at its present level (13 R495). -/
def State.noteLine (s : State) (key : Nat) (level : Bool) : State :=
  if (tget ⟨false, 0⟩ s.rawLines key).level == level then s else { s with rawLines := tset s.rawLines key ⟨level, s.now⟩ }

/-- The escalation line of a compute die's controller noted after a change of PENDING or ESC. -/
def State.noteEsc (s : State) (ic : Nat) : State := if ic < 4 then s.noteLine (4 * 1024 + 4 + ic) (s.escLine ic) else s

/-- A hardware update of PENDING noted for this cycle (13 R502): under IC_PENDING the sources set, under IC_ACTIVE those claimed. -/
def State.notePending (s : State) (ic src : Nat) (set : Bool) : State :=
  let p := icPending ic src
  let a := icActive ic src
  (s.noteCycle p (setBit (s.thisCycle p) (src % 64) set)).noteCycle a (setBit (s.thisCycle a) (src % 64) !set)

/-- The cycle noted from which round robin offers a source to its present target (13 R501). -/
def State.rrMark (s : State) (ic src : Nat) : State := { s with rrSince := tset s.rrSince (ic * 1024 + src) s.now }

/-- A source offered anew by round robin: it starts after the target that last claimed it (13 R501). -/
def State.rrBegin (s : State) (ic src : Nat) : State := ({ s with roundRobin := tdel s.roundRobin (ic * 1024 + src) } : State).rrMark ic src

/-- PENDING of a source set (13 R496). -/
def State.setPending (s : State) (ic src : Nat) : State := (((if s.isPending ic src then s else s.rrBegin ic src).putBit (icPending ic src) (src % 64) true).noteEsc ic).notePending ic src true

/-- An event of a source (13 R492-R496): an unfiltered one sets PENDING; a filtered one starts its pulse of 256 cycles. A source that no block of the grade raises stays idle; what the concentrator meets goes to SV1's once SV1 has taken over (R491). -/
def State.raise (s : State) (ic src : Nat) : State :=
  let ic := if ic == 4 && s.sv1 then 5 else ic
  if !s.sourceUsed ic src then s
  else if sourceFiltered ic src then { s with pulses := tset s.pulses (ic * 1024 + src) s.now }
  else s.setPending ic src

/-! Error records of the row memories. -/

/-- Whether a request is one of a core's own engines in the core's own memory: it crosses no island and lands by the core's cycles (03 R111, 06 R240). -/
def MemReq.within (r : MemReq) (k : Nat) : Bool :=
  let own := match r.owner with | .chan c _ _ _ _ _ => c == k | .awl c _ _ => c == k | _ => false
  own && (match r.point with | .core c => ckey c == k | _ => false)

/-- The core whose own engine a request within its memory belongs to. -/
def MemReq.inner (r : MemReq) : Option Nat :=
  match r.point with
  | .core c => if r.within (ckey c) then some (ckey c) else none
  | _ => none

/-- Whether a performed request of a core has landed, or has been acknowledged: what its engines have under way in its own memory counts the core's cycles, which its freezes shift (03 R111). -/
def State.landed (s : State) (k : Nat) (r : MemReq) : Bool := r.stage == 2 && r.due ≤ (if r.within k then s.ctime k else s.now)

/-- A core's freeze for a correction detected now (03 R108-R113): corrections of one cycle share a freeze of the two cycles that follow. -/
def State.freeze (s : State) (k : Nat) : State :=
  if (s.core k).freezeAt.isSome then s
  else
    let r : Reg := ⟨.CORE_ECC_STALLS, selCd (coreDie k), coreNum k, 0⟩
    let s := s.onCore k (fun c => { c with freezeAt := some s.coreClock })
    (s.bump r CORE_ECC_STALLS.FREEZES 1).bump r CORE_ECC_STALLS.CYCLES 2

/-- A correction in a read that falls in core cycle t of an operation whose reads one command makes (log 12): its freeze begins in that cycle. -/
def State.correctAt (s : State) (k t : Nat) : State :=
  if t ≤ s.ctime k then s.freeze k else s.onCore k (fun c => { c with corrections := sins c.corrections t })

/-- The corrections that fall in the core cycle a core has come to (03 R108, R110). -/
def State.detect (s : State) (k : Nat) : State :=
  let c := s.core k
  if c.corrections.isEmpty || c.freezeAt.isSome then s
  else
    let t := s.ctime k
    if c.corrections.any (· ≤ t) then (s.onCore k (fun c => { c with corrections := c.corrections.filter (fun x => t < x) })).freeze k else s

/-- The bank index of a buffer row in ROW_ECC_CNT of a core (05 R193), and its row within the bank. -/
def bankOf (buf row : Nat) : Nat × Nat :=
  match buf with
  | 0 => (20, row)
  | 1 => (21, row)
  | 2 => (row / 512, row % 512)
  | b => (16 + (b - 3), row)

/-- An uncorrectable word of a row kept for the sparing policy (18 R615). -/
def State.noteUnc (s : State) (row unc : Nat) : State := if unc == 0 then s else { s with uncRows := (s.now, row) :: s.uncRows }

/-- Words counted in a core bank's ROW_ECC_CNT (05 R194). -/
def State.countCoreEcc (s : State) (k buf row corr unc : Nat) : State :=
  if corr == 0 && unc == 0 then s
  else
    let b := bankOf buf row
    let r : Reg := ⟨.ROW_ECC_CNT, selCd (coreDie k), coreNum k, b.1⟩
    (((s.noteUnc (bufRow k buf row) unc).tally r ROW_ECC_CNT.CORR corr).tally r ROW_ECC_CNT.UNCORR unc).setFld r ROW_ECC_CNT.LAST_ROW b.2 |>.noteFld r ROW_ECC_CNT.LAST_ROW b.2

/-- Words counted in a shared bank's ROW_ECC_CNT (05 R194). -/
def State.countSdmEcc (s : State) (d row corr unc : Nat) : State :=
  if corr == 0 && unc == 0 then s
  else
    let r : Reg := ⟨.SDM_ECC_CNT, selCd d, row / 8192, 0⟩
    (((s.noteUnc (sdmRow d + row) unc).tally r SDM_ECC_CNT.CORR corr).tally r SDM_ECC_CNT.UNCORR unc).setFld r SDM_ECC_CNT.LAST_ROW (row % 8192) |>.noteFld r SDM_ECC_CNT.LAST_ROW (row % 8192)

/-- A word of a lease's accounting record: 256 leases of 64 words (15 R557). -/
def acct (n w : Nat) : Reg := ⟨.ACCT, selSv0, n % 256, w % 64⟩

/-- A charge to an account word, saturating (15 R557, R558). -/
def State.charge (s : State) (n w v : Nat) : State := s.bump (acct n w) ACCT.COUNT v

/-- The running kernel of a core marked to complete with ST_INTEGRITY (03 R105). -/
def State.markKernel (s : State) (k : Nat) : State :=
  s.onCore k (fun c => { c with kernel := c.kernel.map (fun q => { q with integrity := true }) })

/-- A data-integrity event of a core's own SRAM (03 R105-R107): counted, recorded while no record is held, raised, and the kernel marked. -/
def State.coreEvent (s : State) (k buf row bundle map : Nat) : State :=
  let d := selCd (coreDie k)
  let e : Reg := ⟨.CORE_DI_EVENT, d, coreNum k, 0⟩
  let src := match buf with | 0 => 1 | 1 => 2 | 2 => 3 | _ => 0
  let s := s.bump e CORE_DI_EVENT.COUNT 1
  let rec' := ofFields [(CORE_DI_EVENT.BUNDLE, bundle), (CORE_DI_EVENT.POISON_MAP, map), (CORE_DI_EVENT.SOURCE, src), (CORE_DI_EVENT.VALID, 1)]
  let s := s.record e CORE_DI_EVENT.VALID CORE_DI_EVENT.COUNT rec' [(⟨.CORE_DI_ROW, d, coreNum k, 0⟩, row)]
  let s := match s.holder k with | some n => s.charge n 45 1 | none => s
  (s.raise (coreDie k) (coreNum k)).markKernel k

/-- INJ_CTRL (19 R651). -/
def injCtrl : Reg := ⟨.INJ_CTRL, selSv0, 0, 0⟩

/-- INJ_STATUS (19 R651). -/
def injStatus : Reg := ⟨.INJ_STATUS, selSv0, 0, 0⟩

/-- The armed injection fires (19 R651, R653). -/
def State.fired (s : State) : State :=
  ((({ s with inject := none }).setFld injCtrl INJ_CTRL.ARM 0).bump injStatus INJ_STATUS.FIRES 1).setW1c injStatus INJ_STATUS.FIRED

/-- Whether an injection armed for the next read of a row applies to a read of words `ws` (19 R653). -/
def Inject.onRead (i : Inject) (row : Nat) (ws : Nat → Bool) : Bool := i.row == some row && !i.write && ws i.word

/-- The memory as the next read of words `ws` of a row decodes it: an injection armed for it is applied, and the stored row stays unchanged (19 R653); a read of a tagged block decodes no stored word (07 R296). -/
def State.seen (s : State) (row : Nat) (ws : Nat → Bool) : Memory :=
  match s.inject with
  | some i => if i.onRead row ws && !s.mem.tagged row then s.mem.hurt row i.word i.syms else s.mem
  | none => s.mem

/-- Whether a read of words `ws` of a row would correct a symbol now (03 R108). -/
def State.corrects (s : State) (row : Nat) (ws : Nat → Bool) : Bool := 0 < ((s.seen row ws).readWords row ws s.fresh).corr

/-- What a read of words `ws` of a row meets, and the state after an injection it fires (05 R187, 19 R653). -/
def State.readWords (s : State) (row : Nat) (ws : Nat → Bool) : State × RowRead :=
  let r := (s.seen row ws).readWords row ws s.fresh
  match s.inject with
  | some i => (if i.onRead row ws && !s.mem.tagged row then s.fired else s, r)
  | none => (s, r)

/-- A write has stored words `ws` of a row: an injection armed for the next write of the row damages its word (19 R653). -/
def State.wrote (s : State) (row : Nat) (ws : Nat → Bool) : State :=
  match s.inject with
  | some i => if i.row == some row && i.write && ws i.word then { s.fired with mem := s.mem.hurt row i.word i.syms } else s
  | none => s

/-- A whole row stored (05 R188, R189). -/
def State.storeRow (s : State) (row : Nat) (img : RowImg) : State :=
  ({ s with mem := s.mem.writeRow row img }).wrote row (fun _ => true)

/-- Whether word w of an accumulator row lies in a poisoned slot half; a buffer row has its own poison bit (03 R98). -/
def State.slotBad (s : State) (k buf row w : Nat) : Bool := buf == 1 && bitAt (s.core k).slotPoison (2 * (row / 32) + w % 8 / 4)

/-- What a read of a row of a core's own SRAM finds: the row, whether a word was corrected, the uncorrectable words, whether the row was stored poisoned, and whether an uncorrectable word is new (03 R99, R105). -/
structure OwnRead where
  s : State
  img : RowImg
  corr : Bool
  bad : List Nat
  stored : Bool
  fresh : Bool

/-- A read of words `ws` of a row of a core's own SRAM, its words counted (03 R99, R105; 05 R194); the freeze and the event are the caller's. -/
def State.readRaw (s : State) (k buf row : Nat) (ws : Nat → Bool) : OwnRead :=
  let bad := ((s.seen (bufRow k buf row) ws).uncWords (bufRow k buf row) s.fresh).filter ws
  let p := s.readWords (bufRow k buf row) ws
  let r := p.2
  let new := !r.stored && bad.any (fun w => !s.slotBad k buf row w)
  let s := if r.unc == 0 then p.1 else { p.1 with fresh := p.1.fresh + 1 }
  ⟨s.countCoreEcc k buf row r.corr r.unc, r.img, 0 < r.corr, bad, r.stored, new⟩

/-- A read of words `ws` of a row of a core's own SRAM by its engines (03 R99, R105, R108; 05 R190): corrected words freeze the core, a new uncorrectable word is an event, with POISON_MAP zero. -/
def State.readOwnWords (s : State) (k buf row bundle : Nat) (ws : Nat → Bool) : State × RowImg :=
  let r := s.readRaw k buf row ws
  let s := if r.corr then r.s.freeze k else r.s
  (if r.fresh then s.coreEvent k buf row bundle 0 else s, r.img)

/-- A read of a whole row of a core's own SRAM by its engines. -/
def State.readOwn (s : State) (k buf row bundle : Nat) : State × RowImg :=
  s.readOwnWords k buf row bundle (fun _ => true)

/-- A read of a row of a core's memory from outside the core (05 R202): corrections freeze the core; the row is delivered poisoned without a record of the core's. Whether a new uncorrectable word was met, and whether a symbol was corrected, is returned. -/
def State.readCoreFar (s : State) (k row : Nat) : State × RowImg × Bool × Bool :=
  let p := s.readWords (bufRow k 2 row) (fun _ => true)
  let s := p.1
  let r := p.2
  let s := if r.unc == 0 then s else { s with fresh := s.fresh + 1 }
  let s := s.countCoreEcc k 2 row r.corr r.unc
  let s := if r.corr == 0 then s else s.freeze k
  (s, r.img, 0 < r.unc && !r.stored, 0 < r.corr)

/-- A row of a core's own SRAM written. -/
def State.writeOwn (s : State) (k buf row : Nat) (img : RowImg) : State :=
  s.storeRow (bufRow k buf row) img

/-- A data-integrity event charged to the lease whose access met it, if a lease made it (15 R536, R557). -/
def State.chargeEvent (s : State) (lease : Option Nat) : State := match lease with | some n => s.charge n 45 1 | none => s

/-- A read of a row of shared die memory (05 R190-R192, R194): an event is recorded with the lease whose access met the word, 0 for firmware. Whether a new uncorrectable word was met is returned. -/
def State.readSdm (s : State) (d row : Nat) (lease : Option Nat) : State × RowImg × Bool :=
  let p := s.readWords (sdmRow d + row) (fun _ => true)
  let s := p.1
  let r := p.2
  let s := if r.unc == 0 then s else { s with fresh := s.fresh + 1 }
  let s := s.countSdmEcc d row r.corr r.unc
  let new := 0 < r.unc && !r.stored
  if !new then (s, r.img, false)
  else
    let e : Reg := ⟨.SDM_DI_EVENT, selCd d, 0, 0⟩
    let s := (s.bump e SDM_DI_EVENT.COUNT 1).chargeEvent lease
    let s := s.record e SDM_DI_EVENT.VALID SDM_DI_EVENT.COUNT (ofFields [(SDM_DI_EVENT.LEASE, lease.getD 0), (SDM_DI_EVENT.BANK, row / 8192), (SDM_DI_EVENT.ROW, row % 8192), (SDM_DI_EVENT.VALID, 1)]) []
    ((s.raise d 0xC0), r.img, true)

/-- A row of shared die memory written. -/
def State.writeSdm (s : State) (d row : Nat) (img : RowImg) : State :=
  s.storeRow (sdmRow d + row) img

/-- PENDING of a level source set while its line is 1 and it is not ACTIVE (13 R496). -/
def State.syncLevel (s : State) (ic src : Nat) (line : Bool) : State :=
  if line && !s.isActive ic src && s.sourceUsed ic src then s.setPending ic src else s

/-! Register writes. Each register's own write answers the state after it and the status that a DCP command's reply carries (00 R8-R10, 14 R524); any other writer's refused write is ignored. -/

/-- Whether an access comes by a DCP command. -/
def isDcp : Actor → Bool
  | .mgmt => true
  | .leaseDcp _ => true
  | _ => false

/-- Whether a writer has the rights of management firmware: firmware itself, or a management session's REG_WRITE (14 R524). -/
def isMgmt : Actor → Bool
  | .firmware => true
  | .mgmt => true
  | _ => false

/-- The lease an access is made for, if any. -/
def actorLease : Actor → Option Nat
  | .leaseDcp n => some n.val
  | .hostCore n _ => some n.val
  | _ => none

/-- Whether a value lies in the range of an RW field (00 R10). -/
def FieldSpec.takes (f : FieldSpec) (v : Nat) : Bool := decide (f.min ≤ v) && decide (v ≤ f.max) && v % Nat.max 1 f.mult == 0

/-- The value an RW field of a write names. -/
def FieldSpec.of (f : FieldSpec) (v : Nat) : Nat := bits v f.fld.hi f.fld.lo

/-- Whether a value of an RW field of a register is in range: of DIR, every one but 6 (00 R10, 11 R408). -/
def RegName.takes (n : RegName) (f : FieldSpec) (v : Nat) : Bool := f.takes v && !(n == .PEER_PORT_CFG && f.fld == PEER_PORT_CFG.DIR && v == 6)

/-- Whether every RW field of a written value is in its range. -/
def RegName.inRange (n : RegName) (v : Nat) : Bool := n.fields.all (fun f => f.acc != .rw || n.takes f (f.of v))

/-- The value of a W1C bit or field after a write: the bits written 1 are cleared, but for those hardware has set in this cycle (00 R9). -/
def w1cKept (old v latest : Nat) : Nat := old &&& ((2 ^ 64 - 1) ^^^ (v &&& ((2 ^ 64 - 1) ^^^ latest)))

/-- The value of a register after a plain write: RW fields in range are set, W1C bits written 1 are cleared, but for those of `latest`, which hardware has set in this cycle; everything else keeps its value (00 R8-R10). -/
def RegName.written (n : RegName) (old v : Nat) (latest : Nat := 0) : Nat :=
  n.fields.foldl (fun w f =>
    match f.acc with
    | .rw => if n.takes f (f.of v) then setBits w f.fld.hi f.fld.lo (f.of v) else w
    | .w1c => setBits w f.fld.hi f.fld.lo (bits (w1cKept w v latest) f.fld.hi f.fld.lo)
    | _ => w) old

/-- A write to a register that has no behaviour of its own (00 R8-R10): over DCP a value out of range changes no field. -/
def State.plainWrite (s : State) (a : Actor) (r : Reg) (v : Nat) : State × Status :=
  if isDcp a && !r.name.inRange v then (s, .range)
  else (s.setReg r (BitVec.ofNat 64 (r.name.written (s.reg r).toNat v (s.thisCycle r))), .ok)

/-- A written value with some fields at the values the register holds. -/
def keepFields (old v : Nat) (fs : List Fld) : Nat := fs.foldl (fun v f => setBits v f.hi f.lo (bits old f.hi f.lo)) v

/-- Whether a written value would change one of some fields. -/
def changes (old v : Nat) (fs : List Fld) : Bool := fs.any (fun f => bits v f.hi f.lo != bits old f.hi f.lo)

/-- A write by an actor that may not set some fields: over DCP one that would change them is refused, otherwise they keep their values (00 R10, 14 R524). -/
def State.guardedWrite (s : State) (a : Actor) (r : Reg) (v : Nat) (fs : List Fld) : State × Status :=
  let old := (s.reg r).toNat
  if isDcp a && changes old v fs then (s, .range) else s.plainWrite a r (keepFields old v fs)

end Sys2Proof.Machine
end

