-- ==== Sys2Proof/Machine/Operands.lean ====
section
/-! DEFINITION. What a command's operands name: device addresses and the memory bound to a lease (01 R29-R36, 05 R204, 07 R273-R276), descriptors (04 R139-R144, 06 R229, R260, 10 R379, R383, R387) and the
words of a bundle (04 R114-R117). -/
namespace Sys2Proof.Machine

/-- Where an address lies: a stack byte (with its view, die and frame), a site byte, a byte of shared die memory, a byte of a core's memory, or a register (01 R30). -/
inductive Place where
  | hbm (pkg : Bool) (die frame stack s : Nat)
  | site (n o : Nat)
  | sdm (d o : Nat)
  | core (k o : Nat)
  | reg (a : Nat)
  deriving DecidableEq, Repr

/-- Addressable bytes of the die view of the stacks (07 R274). -/
def dieViewBytes : Nat := 319998132224
/-- Addressable bytes of the package view (07 R274). -/
def pkgViewBytes : Nat := 1279992528896
/-- Data bytes of a site (01 R30). -/
def siteBytes : Nat := 64000000000
/-- Bytes of a die's shared memory (01 R30). -/
def sdmBytes : Nat := 0x18000000

/-- A device address decoded, or the status it is refused with (01 R29-R33). -/
def State.place (s : State) (a : Nat) : Except Status Place :=
  let d := bits a 41 40
  let v := bits a 43 42
  match bits a 47 44 with
  | 0x0 =>
    if v == 0 then
      let o := bits a 39 0
      if o < dieViewBytes then .ok (.hbm false d (o / 2097152) (4 * d + o / 4096 % 4) (o / 16384 * 4096 + o % 4096)) else .error .range
    else if v == 1 then
      let o := bits a 41 0
      if o < pkgViewBytes then .ok (.hbm true 0 (o / 2097152) (o / 4096 % 16) (o / 65536 * 4096 + o % 4096)) else .error .range
    else .error .range
  | 0x1 =>
    if v == 0 && bits a 39 37 == 0 && bits a 35 0 < siteBytes then .ok (.site (2 * d + bits a 36 36) (bits a 35 0)) else .error .range
  | 0x2 => if v == 0 && bits a 39 0 < sdmBytes then .ok (.sdm d (bits a 39 0)) else .error .range
  | 0x3 =>
    if v != 0 || bits a 39 39 != 0 || bits a 31 22 != 0 then .error .range
    else if s.exposed d (bits a 38 32) then .ok (.core (coreKey d (bits a 38 32)) (bits a 21 0)) else .error .engineAbsent
  | 0x8 => if bits a 43 38 ≤ 0x19 && a % 8 == 0 then .ok (.reg a) else .error .range
  | _ => .error .range

/-- The byte key of a memory place (registers have none). -/
def Place.key : Place → Nat
  | .hbm _ _ _ st o => stackRow st * 512 + o
  | .site n o => siteRow n * 512 + o
  | .sdm d o => sdmRow d * 512 + o
  | .core k o => coreRow k * 512 + o
  | .reg _ => 0

/-- The row key of a memory place. -/
def Place.row (p : Place) : Nat := p.key / 512

/-- The compute die whose memory a place is (01 R15). -/
def Place.die : Place → Nat
  | .hbm _ _ _ st _ => st / 4
  | .site n _ => n / 2
  | .sdm d _ => d
  | .core k _ => coreDie k
  | .reg _ => 0

/-- The compute die of a row key. -/
def dieOfRow (r : Nat) : Nat :=
  let b := r / 2 ^ 31
  if b < 16 then b / 4 else if b < 24 then (b - 16) / 2 else if b < 28 then b - 24 else coreDie (r % 2 ^ 31 / 2 ^ 15)

/-- SDM_PART of entry p of a die (05 R204). -/
def sdmPart (d p : Nat) : Reg := ⟨.SDM_PART, selCd d, p, 0⟩

/-- The valid partition entry that holds a bank, if one does and no scrub covers it (05 R204, R210). -/
def State.partOf (s : State) (d bank : Nat) : Option Nat :=
  if s.scrubs.any (fun x => x.die == d && x.first ≤ bank && bank < x.first + x.banks) then none
  else (List.range 32).find? (fun p =>
    let r := sdmPart d p
    s.fld r SDM_PART.VALID == 1 && s.fld r SDM_PART.FIRST_BANK ≤ bank && bank < s.fld r SDM_PART.FIRST_BANK + s.fld r SDM_PART.BANKS)

/-- Whether shared-die-memory rows from `row` lie in one valid partition of a lease (05 R220, 04 R148). -/
def State.inPartition (s : State) (d row n lease : Nat) : Bool :=
  match s.partOf d (row / 8192) with
  | none => false
  | some p => s.fld (sdmPart d p) SDM_PART.LEASE == lease && n != 0 && (row + n - 1) / 8192 < s.fld (sdmPart d p) SDM_PART.FIRST_BANK + s.fld (sdmPart d p) SDM_PART.BANKS

/-- Whether the memory at a place is bound to a lease (01 R32, R34, 05 R210). -/
def State.isBound (s : State) (n : Nat) : Place → Bool
  | .hbm pkg d f _ _ => s.frames.any (fun r => r.pkg == pkg && (pkg || r.die == d) && r.first ≤ f && f < r.first + r.count && r.lease == n)
  | .site k o => s.extents.any (fun e => e.site == k && e.first ≤ o && o < e.first + e.count && e.lease == n)
  | .sdm d o => match s.partOf d (o / 512 / 8192) with | some p => s.fld (sdmPart d p) SDM_PART.LEASE == n | none => false
  | .core k _ => s.boundTo k n
  | .reg _ => false

/-- An access to memory by a lease, or by firmware where none is named: the place, or the status it is refused with (01 R32-R34). -/
def State.find (s : State) (lease : Option Nat) (a : Nat) : Except Status Place :=
  match s.place a with
  | .error e => .error e
  | .ok (.reg _) => .error .range
  | .ok p => match lease with
    | none => .ok p
    | some n => if s.isBound n p then .ok p else .error .range

/-- Every byte of a span of addresses checked at its ends and at every 2 MiB page between (06 R232). -/
def State.findSpan (s : State) (lease : Option Nat) (lo hi : Nat) : Option Status :=
  let pts := lo :: hi :: (List.range (hi / 2097152 - lo / 2097152)).map (fun i => (lo / 2097152 + 1 + i) * 2097152)
  pts.findSome? (fun a => match s.find lease a with | .error e => some e | .ok _ => none)

/-- The first status of a list of checks in order (04 R120). -/
def firstFail (l : List (Option Status)) : Option Status := l.findSome? id

/-- A check that fails with a status unless `b`. -/
def need (b : Bool) (st : Status) : Option Status := if b then none else some st

/-! Descriptors. -/

/-- The 64-bit word at index i of a descriptor. -/
def dword (d : List Word) (i : Nat) : Nat := (d.getD i 0).toNat

/-- The little-endian 32-bit value at byte offset o of a descriptor (00 R7). -/
def dhalf (d : List Word) (o : Nat) : Nat := bits (dword d (o / 8)) (8 * (o % 8) + 31) (8 * (o % 8))

/-- VERSION of any descriptor. -/
def dVersion (d : List Word) : Nat := bits (dword d 0) 31 28
/-- GEN of any descriptor. -/
def dGen (d : List Word) : Nat := bits (dword d 0) 27 24

/-- A tensor descriptor's fields (04 R140). -/
structure TensorDesc where
  fmt : Nat
  rank : Nat
  round : Nat
  layout : Nat
  transpose : Bool
  aux : Nat
  base : Nat
  scaleBase : Nat
  ext : List Nat
  stride : List Nat
  deriving DecidableEq, Repr

/-- The fields of a tensor descriptor (04 R140). -/
def tensorDesc (d : List Word) : TensorDesc :=
  let w := dword d 0
  { fmt := bits w 23 20, rank := bits w 19 17, round := bits w 16 14, layout := bits w 13 12, transpose := bitAt w 11, aux := bits w 63 48
    base := bits (dword d 1) 47 0, scaleBase := bits (dword d 2) 47 0
    ext := (List.range 5).map (fun k => dhalf d (24 + 4 * k)), stride := (List.range 5).map (fun k => dhalf d (44 + 4 * k)) }

/-- ROUND.SAT of a ROUND field (02 R52). -/
def roundSat (r : Nat) : Bool := bitAt r 2
/-- Whether ROUND.MODE is stochastic (02 R52). -/
def roundStoch (r : Nat) : Bool := r % 4 == 1

/-- The contents of a tensor descriptor that ST_RANGE refuses (04 R143, 02 R39, R52). -/
def tensorRange (d : List Word) : Option Status :=
  let t := tensorDesc d
  let e := fun k => t.ext.getD k 0
  let st := fun k => t.stride.getD k 0
  let below := (List.range 5).all (fun k => if k < t.rank then e k != 0 else e k == 0 && st k == 0)
  let space := bits t.base 47 44
  firstFail
    [ need (dVersion d == 1) .range
    , need (bits (dword d 0) 47 32 == 0 && bits (dword d 0) 10 0 == 0 && bits (dword d 1) 63 48 == 0 && bits (dword d 2) 63 48 == 0) .range
    , need (t.fmt ≤ 0xC) .range
    , need (1 ≤ t.rank && t.rank ≤ 5) .range
    , need (t.layout ≤ 2) .range
    , need (t.round % 4 ≤ 1) .range
    , need (!(t.transpose && t.rank == 1)) .range
    , need below .range
    , need (t.layout != 0 || st 0 == 1) .range
    , need (t.layout != 1 || (2 ≤ t.rank && st 1 == 1 && e 1 ≤ st 0)) .range
    , need (t.layout != 2 || (st 0 == 0 && st 1 == 0 && (List.range 5).all (fun k => k < 2 || st k % 4096 == 0))) .range
    , need (space ≤ 3 && (space ≤ 1 || t.base % 512 == 0)) .range
    , need (fmtMx t.fmt == (t.scaleBase != 0)) .range ]

/-- The contents of a tensor descriptor that ST_FORMAT refuses: the innermost extent of an MX format is a multiple of 32 (04 R143, 02 R43). -/
def tensorFormat (d : List Word) : Option Status :=
  let t := tensorDesc d
  need (!fmtMx t.fmt || t.ext.getD 0 0 % 32 == 0) .format

/-- The contents checks of a tensor descriptor: ST_RANGE, then ST_FORMAT (04 R120). -/
def tensorCheck (d : List Word) : Option Status := firstFail [tensorRange d, tensorFormat d]

/-- A stream descriptor's fields (06 R229). -/
def streamDesc (d : List Word) : StreamDesc :=
  let w := dword d 0
  let w2 := dword d 2
  { unit := bits w 63 48, rate := bits w 47 32, far := bits (dword d 1) 47 0
    ext := (List.range 4).map (fun k => dhalf d (24 + 4 * k)), stride := 0 :: (List.range 3).map (fun k => dhalf d (40 + 4 * k))
    nearBuf := bits w 23 21, nearRow := bits w2 31 19, halfRows := bits w2 18 6, dir := bits w 20 19, stack := bits w 14 9, cache := bitAt w 15 }

/-- RANK of a stream descriptor. -/
def streamRank (d : List Word) : Nat := bits (dword d 0) 18 16

/-- Extent k of a stream descriptor as R230 reads it: 1 at RANK and above. -/
def StreamDesc.e (x : StreamDesc) (k : Nat) : Nat := max 1 (x.ext.getD k 0)

/-- T, the rows a transfer moves (06 R230). -/
def StreamDesc.total (x : StreamDesc) : Nat := x.e 0 * x.e 1 * x.e 2 * x.e 3

/-- The far address of transfer row t (06 R230). -/
def StreamDesc.farRow (x : StreamDesc) (t : Nat) : Nat :=
  let i0 := t % x.e 0
  let i1 := t / x.e 0 % x.e 1
  let i2 := t / x.e 0 / x.e 1 % x.e 2
  let i3 := t / x.e 0 / x.e 1 / x.e 2
  x.far + 512 * (i0 + i1 * x.stride.getD 1 0 + i2 * x.stride.getD 2 0 + i3 * x.stride.getD 3 0)

/-- The highest far address of a transfer. -/
def StreamDesc.farTop (x : StreamDesc) : Nat := x.farRow (x.total - 1)

/-- An Awl descriptor's fields (06 R260). -/
structure AwlDesc where
  indexBase : Nat
  tableBase : Nat
  count : Nat
  tableRows : Nat
  stride : Nat
  span : Nat
  nearRow : Nat
  nearBuf : Nat
  scatter : Bool
  resv : Bool
  deriving DecidableEq, Repr

/-- The fields of an Awl descriptor (06 R260). -/
def awlDesc (d : List Word) : AwlDesc :=
  let w := dword d 0
  { indexBase := bits (dword d 1) 47 0, tableBase := bits (dword d 2) 47 0, count := dhalf d 24, tableRows := dhalf d 28, stride := dhalf d 32
    span := bits (dword d 4) 47 32, nearRow := bits w 23 11, nearBuf := bits w 10 8, scatter := bitAt w 7
    resv := bits w 63 32 != 0 || bits w 6 0 != 0 || bits (dword d 1) 63 48 != 0 || bits (dword d 2) 63 48 != 0 || bits (dword d 4) 63 48 != 0 ||
      dword d 5 != 0 || dword d 6 != 0 || dword d 7 != 0 }

/-- A rotation descriptor's fields (10 R379). -/
structure RotDesc where
  dim : Nat
  block : Nat
  posMode : Nat
  theta : F32
  pscale : F32
  pos0 : Nat
  posList : Nat
  resv : Bool
  deriving DecidableEq, Repr

/-- The fields of a rotation descriptor (10 R379). -/
def rotDesc (d : List Word) : RotDesc :=
  let w := dword d 0
  { dim := bits w 23 22, block := bits w 21 20, posMode := bits w 19 19, theta := BitVec.ofNat 32 (dhalf d 8), pscale := BitVec.ofNat 32 (dhalf d 12)
    pos0 := dhalf d 16, posList := bits (dword d 3) 47 0
    resv := bits w 63 32 != 0 || bits w 18 0 != 0 || dhalf d 20 != 0 || bits (dword d 3) 63 48 != 0 || (List.range 4).any (fun i => dword d (4 + i) != 0) }

/-- A KV plane descriptor's fields (10 R383). -/
structure PlaneDesc where
  qfmt : Nat
  plane : Nat
  pool : Nat
  resv : Bool
  deriving DecidableEq, Repr

/-- The fields of a KV plane descriptor (10 R383). -/
def planeDesc (d : List Word) : PlaneDesc :=
  let w := dword d 0
  { qfmt := bits w 23 20, plane := bits w 19 19, pool := bits w 18 15
    resv := bits w 63 32 != 0 || bits w 14 0 != 0 || (List.range 7).any (fun i => dword d (1 + i) != 0) }

/-- A soft-maximum step descriptor's fields (10 R387). -/
structure SoftDesc where
  oSlots : Nat
  scale : F32
  stateRow : Nat
  mergeRow : Nat
  mode : Nat
  init : Bool
  causal : Bool
  maskSel : Nat
  qrows : Nat
  qgroup : Nat
  resv : Bool
  deriving DecidableEq, Repr

/-- The fields of a soft-maximum step descriptor (10 R387). -/
def softDesc (d : List Word) : SoftDesc :=
  let w := dword d 0
  let v := dword d 1
  { oSlots := bits w 63 48, scale := BitVec.ofNat 32 (bits v 31 0), stateRow := bits v 44 32, mergeRow := bits v 60 48
    mode := bits w 23 22, init := bitAt w 21, causal := bitAt w 20, maskSel := bits w 19 16, qrows := bits w 15 10 + 1, qgroup := bits w 9 4 + 1
    resv := bits w 47 32 != 0 || bits w 3 0 != 0 || bits v 47 45 != 0 || bits v 63 61 != 0 || (List.range 6).any (fun i => dword d (2 + i) != 0) }

/-- Whether an FP32 word is finite and above the word `lo` (both positive). -/
def finiteAbove (x lo : F32) : Bool := x.toNat < 0x7F800000 && (val32 lo).lt (val32 x)

/-! Bundles. -/

/-- Slots of a bundle (04 R115). -/
def slotCount : Nat := 10

/-- The largest OP code of a slot (04 R115, 06 R233). -/
def slotMaxOp (k : Nat) : Nat :=
  if k < 4 then 2 else if k == 4 then 1 else if k == 5 then 3 else if k < 8 then 3 else 6

/-- PRESENT bits set below bit k. -/
def presentBelow (p k : Nat) : Nat := ((List.range k).filter (fun i => bitAt p i)).length

/-- A bundle as fetched: its header and operation words (04 R114, R116). -/
structure Bundle where
  present : Nat
  len : Nat
  resv : Bool
  ops : List Word
  deriving DecidableEq, Repr

/-- The bundle that words begin with: once its header has come where that is malformed (04 R117), else once all its words have. -/
def Bundle.ofWords (l : List Word) : Option Bundle :=
  match l with
  | [] => none
  | h :: t =>
    let n := bits h.toNat 15 10
    if n ≤ 1 || n != presentBelow (bits h.toNat 9 0) 10 + 1 || bits h.toNat 63 16 != 0 then some ⟨bits h.toNat 9 0, n, bits h.toNat 63 16 != 0, []⟩
    else if t.length < n - 1 then none
    else some ⟨bits h.toNat 9 0, n, bits h.toNat 63 16 != 0, t.take (n - 1)⟩

/-- Whether slot k carries an operation. -/
def Bundle.has (b : Bundle) (k : Nat) : Bool := bitAt b.present k

/-- The operation word of slot k, zero when it carries none. -/
def Bundle.op (b : Bundle) (k : Nat) : Nat := if b.has k then (b.ops.getD (presentBelow b.present k) 0).toNat else 0

/-- OP of slot k. -/
def Bundle.code (b : Bundle) (k : Nat) : Nat := b.op k % 16

/-- The header check (04 R117): LENGTH is the number of PRESENT bits plus one, and no reserved bit is set. -/
def Bundle.headerOk (b : Bundle) : Bool := b.len == presentBelow b.present 10 + 1 && !b.resv

/-- Whether the bundle carries END in slot SCAL (04 R131). -/
def Bundle.isEnd (b : Bundle) : Bool := b.has 8 && b.code 8 == 6

/-- The bundle that starts at word position `pos` of a kernel's fetch buffer, once all its words have arrived (04 R162). -/
def Kernel.bundleAt (k : Kernel) (pos : Nat) : Option Bundle :=
  if pos < k.fbase then none else Bundle.ofWords (k.fetched.drop (pos - k.fbase))

/-- The next bundle of a kernel. -/
def Kernel.bundle (k : Kernel) : Option Bundle := k.bundleAt k.pos

/-- INDEX and GEN of a handle (04 R139). -/
def hIndex (h : Nat) : Nat := h % 4096
/-- GEN of a handle. -/
def hGen (h : Nat) : Nat := h / 4096 % 16

/-- The cached descriptor of an INDEX (04 R145). -/
def Core.desc (c : Core) (i : Nat) : Option (List Word) := (c.dcache.find? (fun p => p.1 == i)).map (·.2)

/-- The descriptor a handle names as cached, or no words. -/
def Core.descOf (c : Core) (h : Nat) : List Word := (c.desc (hIndex h)).getD []

/-- The handle check of 04 R139, R143: null is ST_RANGE among the contents checks, another generation ST_STALE_HANDLE. -/
def Core.handleGen (c : Core) (h : Nat) : Option Status :=
  if hIndex h == 0 then some .range else need (dGen (c.descOf h) == hGen h) .staleHandle

end Sys2Proof.Machine
end

