-- ==== Sys2Proof/Machine/Rows.lean ====
section
/-! DEFINITION. Rows of the memories behind the controllers and banks, as every requester reads and writes them: correction, poison, data-integrity records, tags, sparing, the weight cache's invalidation, latency and charging (05 R191, R202, R215, 06 R240, 07 R277-R298, 15 R558). -/
namespace Sys2Proof.Machine

/-- Whether a row key lies in DRAM. -/
def isDram (row : Nat) : Bool := row < 24 * 2 ^ 31

/-- The controller of a DRAM row: its die and index (07 R281). -/
def ctlOf (row : Nat) : Nat × Nat :=
  let b := row / 2 ^ 31
  if b < 16 then (b / 4, b % 4) else ((b - 16) / 2, 4 + (b - 16) % 2)

/-- The row within its stack or site. -/
def localRow (row : Nat) : Nat := row % 2 ^ 31

/-- The row key of row r of controller k of die d. -/
def ctlRow (d k r : Nat) : Nat := (if k < 4 then stackRow (4 * d + k) else siteRow (2 * d + (k - 4))) + r

/-- A register of controller k of CDd (07 R281). -/
def memc (n : RegName) (d k : Nat) (p : Nat := 0) : Reg := ⟨n, selCd d, k, p⟩

/-- The key of a controller. -/
def ctlKey (d k : Nat) : Nat := 6 * d + k

/-- A controller's own state. -/
def State.ctl (s : State) (d k : Nat) : Controller := tget Controller.idle s.ctls (ctlKey d k)

/-- A controller's own state changed. -/
def State.onCtl (s : State) (d k : Nat) (f : Controller → Controller) : State := { s with ctls := tset s.ctls (ctlKey d k) (f (s.ctl d k)) }

/-- The physical pseudo-channel of a row of a stack, 0 for a site (07 R273, R288). -/
def State.physPc (s : State) (row : Nat) : Nat :=
  let c := ctlOf row
  if 4 ≤ c.2 then 0
  else
    let p := localRow row % 32
    let r := memc .HBM_SPARE c.1 c.2
    if s.fld r HBM_SPARE.STATE == 2 && s.fld r HBM_SPARE.FAILED_PC == p then 32 else p

/-- The bank of a DRAM row, numbered within its controller (07 R273). -/
def bankKey (row : Nat) : Nat :=
  let r := localRow row
  if (ctlOf row).2 < 4 then (r % 32) * 64 + r / 32 % 64 else r % 16

/-- The power-down channel of an HBM3E row: pseudo-channels 2c and 2c + 1 (07 R290). -/
def chanOfRow (row : Nat) : Nat := localRow row % 32 / 2

/-- Whether a row's channel is in self refresh (07 R290). -/
def State.isDown (s : State) (row : Nat) : Bool :=
  let c := ctlOf row
  c.2 < 4 && bitAt (s.fld (memc .HBM_PDN_STATUS c.1 c.2) HBM_PDN_STATUS.DOWN) (chanOfRow row)

/-- Words corrected and uncorrectable counted for a DRAM row (07 R282). -/
def State.countDram (s : State) (row corr unc : Nat) : State :=
  if corr == 0 && unc == 0 then s
  else
    let c := ctlOf row
    let r := memc .MEMC_ECC_CNT c.1 c.2 (s.physPc row)
    ((s.noteUnc row unc).tally r MEMC_ECC_CNT.CORR corr).tally r MEMC_ECC_CNT.UNCORR unc

/-- MEMC_DI_EVENT records an event, and the controller's source is raised (07 R279, R284). -/
def State.dramEvent (s : State) (row : Nat) (lease : Option Nat) : State :=
  let c := ctlOf row
  let e := memc .MEMC_DI_EVENT c.1 c.2
  let s := (s.bump e MEMC_DI_EVENT.COUNT 1).chargeEvent lease
  let s := s.record e MEMC_DI_EVENT.VALID MEMC_DI_EVENT.COUNT (ofFields [(MEMC_DI_EVENT.LEASE, lease.getD 0), (MEMC_DI_EVENT.PCH, s.physPc row), (MEMC_DI_EVENT.ROW, localRow row), (MEMC_DI_EVENT.VALID, 1)]) []
  s.raise c.1 (0xB4 + c.2)

/-- A row as read from far memory: the state after it, the row, whether a new uncorrectable word was met, and whether a symbol was corrected (06 R242, 07 R277). -/
structure FarRead where
  s : State
  img : RowImg
  fresh : Bool
  corrected : Bool

/-- The physical error that the next access to a row of a stack meets, if it is to meet one (07 R271). -/
def State.upset (s : State) (row : Nat) : Option Upset := if row < 16 * 2 ^ 31 then s.upsets.find? (fun u => u.row == row) else none

/-- A read of words of a DRAM row as its controller makes it (07 R271, R282, R296): a corrected read the stack reports is counted in ODECC, a command whose parity fails once is sent again, and one whose parity fails twice makes the access uncorrectable, its data free. A tagged block makes no access. -/
def State.readCells (s : State) (row : Nat) (ws : Nat → Bool) : State × RowRead :=
  let p := s.readWords row ws
  match s.upset row with
  | none => p
  | some u =>
    if s.mem.tagged row then p
    else
      let c := ctlOf row
      let t : State := { p.1 with upsets := p.1.upsets.erase u }
      let t := if u.onDie then t.tally (memc .MEMC_ECC_CNT c.1 c.2 (s.physPc row)) MEMC_ECC_CNT.ODECC 1 else t
      if u.parity < 2 then (t, p.2)
      else (t, ⟨⟨(List.range 16).flatMap (fun w => leBytes 32 (Config.eccData row w s.fresh).toNat), true⟩, p.2.corr, p.2.unc + 1, false⟩)

/-- A row on its way into a DRAM row: poisoned where the command's parity fails twice, since the access is then uncorrectable (07 R271; log 45). -/
def State.meetParity (s : State) (row : Nat) (img : RowImg) : State × RowImg :=
  match s.upset row with
  | none => (s, img)
  | some u => ({ s with upsets := s.upsets.erase u }, if u.parity < 2 then img else { img with poison := true })

/-- A demand read of a DRAM row for a lease (07 R277-R279, R296). -/
def State.readDram (s : State) (row : Nat) (lease : Option Nat) : FarRead :=
  let p := s.readCells row (fun _ => true)
  let s := p.1
  let r := p.2
  let s := if r.unc == 0 then s else { s with fresh := s.fresh + 1 }
  let s := s.countDram row r.corr r.unc
  let new := 0 < r.unc && !r.stored
  ⟨if new then s.dramEvent row lease else s, r.img, new, 0 < r.corr⟩

/-- The core whose memory holds a row key. -/
def coreOfRow (row : Nat) : Nat := row % 2 ^ 31 / 2 ^ 15

/-- A read of a row of any memory for a lease, from outside the core that holds it (05 R191, R202, 07 R277). -/
def State.readFar (s : State) (row : Nat) (lease : Option Nat) : FarRead :=
  if isDram row then s.readDram row lease
  else if row < 28 * 2 ^ 31 then
    let r := s.readSdm (row / 2 ^ 31 - 24) (row % 2 ^ 31) lease
    ⟨r.1, r.2.1, r.2.2, s.corrects row (fun _ => true)⟩
  else
    let r := s.readCoreFar (coreOfRow row) (row % 2 ^ 15)
    ⟨r.1, r.2.1, r.2.2.1, r.2.2.2⟩

/-- Whether a weight-cache line holds a row (05 R213). -/
def State.lineHolds (s : State) (l : CacheLine) (row : Nat) : Bool :=
  match s.place l.addr with
  | .ok p => p.row / 8 == row / 8
  | .error _ => false

/-- Weight-cache lines that match a written DRAM row invalidated; a fill in flight of such a line installs nothing (05 R215). -/
def State.dropLines (s : State) (row : Nat) : State :=
  let d := (ctlOf row).1
  let ls := tget [] s.wcache d
  let s := if ls.any (fun l => s.lineHolds l row) then { s with wcache := tset s.wcache d (ls.filter (fun l => !s.lineHolds l row)) } else s
  if s.reqs.any (fun r => r.install && r.row / 8 == row / 8) then { s with reqs := s.reqs.map (fun r => if r.row / 8 == row / 8 then { r with install := false } else r) } else s

/-- Weight-cache lines of n DRAM rows of one site or stack from a row key invalidated (05 R215). -/
def State.dropRange (s : State) (row n : Nat) : State :=
  let d := (ctlOf row).1
  let hit := fun (l : CacheLine) => match s.place l.addr with | .ok p => row / 8 ≤ p.row / 8 && p.row < row + n | .error _ => false
  let inside := fun (r : MemReq) => row / 8 ≤ r.row / 8 && r.row < row + n
  { s with wcache := s.wcache.map (fun w => if w.1 == d then (w.1, w.2.filter (fun l => !hit l)) else w)
           reqs := s.reqs.map (fun r => if r.install && inside r then { r with install := false } else r) }

/-- A tag cleared: the block's rows hold zeros but for what is written next (07 R297). -/
def State.clearTag (s : State) (row : Nat) : State :=
  if s.mem.tagged row then { s with mem := { s.mem with untagged := sins s.mem.untagged (tagBlock row) } } else s

/-- The copier's own copy of a row forgotten, once a demand write has gone to both (07 R287). -/
def State.uncopy (s : State) (row : Nat) : State :=
  let c := ctlOf row
  if (tget? (s.ctl c.1 c.2).copied row).isSome then s.onCtl c.1 c.2 (fun x => { x with copied := tdel x.copied row }) else s

/-- A row written to DRAM (05 R215, 07 R287, R297, R298). -/
def State.writeDram (s : State) (row : Nat) (img : RowImg) : State :=
  let p := (((s.clearTag row).dropLines row).uncopy row).meetParity row img
  p.1.storeRow row p.2

/-- A row written to any memory from outside the core that holds it. -/
def State.writeFar (s : State) (row : Nat) (img : RowImg) : State :=
  if isDram row then s.writeDram row img else s.storeRow row img

/-- Bytes of a row performed for a lease, charged at the tier that serves it (15 R558). -/
def State.chargeBytes (s : State) (lease : Option Nat) (row n : Nat) : State :=
  match lease with
  | none => s
  | some lease =>
  let b := row / 2 ^ 31
  if b < 16 then s.charge lease 5 n else if b < 24 then s.charge lease 6 n else if b < 28 then s.charge lease 7 n else s

/-- Rows read in order from a row key for a lease, charged, with whether any is poisoned and whether any met a new uncorrectable word. -/
def State.readRun (s : State) (lease : Option Nat) (row : Nat) : Nat → State × List RowImg × Bool
  | 0 => (s, [], false)
  | n + 1 =>
    let p := s.readRun lease row n
    let r := p.1.readFar (row + n) lease
    (r.s.chargeBytes lease row 512, p.2.1 ++ [r.img], p.2.2 || r.fresh)

/-- Rows written in order from a row key for a lease, charged. -/
def State.writeRun (s : State) (lease : Option Nat) (row : Nat) : List RowImg → State
  | [] => s
  | i :: t => ((s.writeFar row i).chargeBytes lease row 512).writeRun lease (row + 1) t

/-- The row key of a device address, if it names memory. -/
def State.rowAt (s : State) (a : Nat) : Option Nat :=
  match s.place a with
  | .ok (.reg _) => none
  | .ok p => some p.row
  | .error _ => none

/-- A 64-bit word of memory as stored at a device address, 0 where there is no memory. -/
def State.peek (s : State) (a : Nat) : Word :=
  match s.place a with
  | .ok (.reg _) => 0
  | .ok p => BitVec.ofNat 64 (s.mem.word p.key 8)
  | .error _ => 0

end Sys2Proof.Machine
end

