-- ==== Sys2Proof/Machine/Request.lean ====
section
/-! DEFINITION. Memory requests as they are formed and sent to their arbitration points (05 R197, R202, R203, 06 R248-R253), and the perturbation of crossings and memories on their way (19 R646-R649). -/
namespace Sys2Proof.Machine

/-- The core named by a key. -/
def coreIdOf (k : Nat) : CoreId := ⟨Fin.ofNat 4 (k / 128), Fin.ofNat 128 k⟩

/-- The arbitration point of a row: its controller, its shared bank, or the crossing of the core that holds it (06 R248, 05 R202). -/
def pointOf (row : Nat) : GrantPoint :=
  if isDram row then .ctl (Fin.ofNat 4 (ctlOf row).1) (Fin.ofNat 6 (ctlOf row).2)
  else if row < 28 * 2 ^ 31 then .shared (Fin.ofNat 4 (row / 2 ^ 31 - 24)) (Fin.ofNat 96 (row % 2 ^ 31 / 8192))
  else .core (coreIdOf (coreOfRow row))

/-- The key of a point that is no controller: the row key of its first row. -/
def pointKey : GrantPoint → Nat
  | .ctl d k => ctlRow d.val k.val 0
  | .shared d b => sdmRow d.val + 8192 * b.val
  | .core c => coreRow (ckey c)

/-- Whether a point has made its grant of this cycle (05 R203). -/
def State.justGranted (s : State) (p : GrantPoint) : Bool := (tget ⟨0, 0, 0⟩ s.banks (pointKey p)).next == s.now + 1

/-- The die of an arbitration point. -/
def pointDie : GrantPoint → Nat
  | .ctl d _ => d.val
  | .shared d _ => d.val
  | .core c => c.die.val

/-- The die a requester stands on. -/
def ReqOwner.die : ReqOwner → Nat
  | .chan k _ _ _ _ _ => coreDie k
  | .awl k _ _ => coreDie k
  | .spillOut d _ _ => d
  | .spill d _ => d
  | .refill d _ _ => d
  | .refillIn d _ => d
  | .engine _ d _ => d

/-- The order of the engines that belong to no core, after the cores of their die. DESIGN CHOICE (log 36): 06 R250 orders the engines of cores only. -/
def Engine.order : Engine → Nat
  | .welt => 0
  | .pool => 1
  | .coll => 2
  | .host => 3
  | .dcp => 4
  | .peer => 5
  | .ring => 6
  | .desc => 7
  | .cache => 8
  | .dump => 9
  | .index => 10

/-- A place in the order die, core, engine, channel (06 R250). -/
def rankOf (die core engine chan : Nat) : Nat := ((die * 1024 + core) * 16 + engine) * 4096 + chan

/-- The rank of a requester (06 R250): the stream engines of a core come before its Awl engine; the activation stacks, then the other engines, after the cores of their die (log 36). -/
def ReqOwner.rank : ReqOwner → Nat
  | .chan k ch _ _ _ _ => rankOf (coreDie k) (coreNum k) (ch / 8) (ch % 8)
  | .awl k t _ => rankOf (coreDie k) (coreNum k) 2 t
  | .spillOut d g _ => rankOf d 128 0 g
  | .spill d g => rankOf d 128 0 g
  | .refill d g _ => rankOf d 128 0 g
  | .refillIn d g => rankOf d 128 0 g
  | .engine e d i => rankOf d (129 + e.order) 0 i

/-- Whether a request is one of an engine that belongs to no core's streams: a read of its has been made by the command that asked for it (log 16), a write of its carries the bytes it writes. -/
def ReqOwner.isEngine : ReqOwner → Bool
  | .engine .. => true
  | _ => false

/-- The kind of engine that a request is one of. -/
def ReqOwner.kind : ReqOwner → Option Engine
  | .engine e _ _ => some e
  | _ => none

/-! Perturbation (19 R646-R649). -/

/-- The word of a PERT_ register that transfers formed now follow: a write applies from the cycle after it (19 R649). -/
def State.pert (s : State) (r : Reg) (f : Fld) : Nat :=
  match tget? s.pertOld r.addr with
  | some p => if p.1 == s.now then bits p.2.toNat f.hi f.lo else s.fld r f
  | none => s.fld r f

/-- A PERT_ register's word before a write in this cycle kept for the transfers of the cycle; of several writes in it, the word before the first. -/
def State.pertKeep (s : State) (r : Reg) : State :=
  match tget? s.pertOld r.addr with
  | some p => if p.1 == s.now then s else { s with pertOld := tset s.pertOld r.addr (s.now, s.reg r) }
  | none => { s with pertOld := tset s.pertOld r.addr (s.now, s.reg r) }

/-- The cycle in which a transfer that meets a perturbation in cycle t leaves it, and the state after it: `most` added, or a draw from 0 to `most` by the numbered transfer of the crossing, and never before the one ahead of it (19 R646, R647). Numbers of crossings are the model's own (log 17). -/
def State.perturb (s : State) (domain k1 k2 most : Nat) (random : Bool) (t : Nat) : Nat × State :=
  if most == 0 then (t, s)
  else
    let key := domain * 2 ^ 40 + k1 * 2 ^ 32 + k2
    let p := tget (0, 0) s.perturbed key
    let w := (rngDraw (BitVec.ofNat 64 (s.pert ⟨.PERT_SEED, selSv0, 0, 0⟩ ⟨63, 0⟩)) domain k1 k2 p.1).toNat
    let leave := max p.2 (t + (if random then w % (most + 1) else most))
    (leave, { s with perturbed := tset s.perturbed key (p.1 + 1, leave) })

/-- The cycle in which a transfer that reaches one crossing of class bit `cls` on a die in cycle t leaves it: 12 for the bridges and I/O-die links the die sends over. -/
def State.cross (s : State) (d cls idx t : Nat) : Nat × State :=
  let r : Reg := ⟨.PERT_XING, selCd d, 0, 0⟩
  if bitAt (s.pert r PERT_XING.CLASSES) (cls - 12) then s.perturb 0xD0 d (cls * 8192 + idx) (s.pert r PERT_XING.DELAY) (s.pert r PERT_XING.RANDOM == 1) t else (t, s)

/-- The class bit and the number of the crossing by which a requester's transfers leave it: of a tensor core to its stream fabric, of the host cluster to its L3, of a Welt unit, a KV pool engine or a collective engine to its fabric (19 R645). -/
def ReqOwner.crossing : ReqOwner → Option (Nat × Nat)
  | .chan k _ _ _ _ _ => some (13, coreNum k)
  | .awl k _ _ => some (13, coreNum k)
  | .engine .host _ i => some (14, i % 1024)
  | .engine .welt _ i => some (15, i % 1024)
  | .engine .pool _ i => some (15, 1024 + i % 1024)
  | .engine .coll _ i => some (15, 2048 + i % 1024)
  | _ => none

/-- The cycle in which a transfer that sets out from die a in cycle t has passed the bridges to die b, each perturbed on the die that sends over it, the one that forwards the transfer included (01 R22, 19 R646; log 17). -/
def State.bridged (s : State) (a b t : Nat) : Nat × State := (bridges a b).foldl (fun (p : Nat × State) d => p.2.cross d 12 (4 * a + b) p.1) (t, s)

/-- The cycle in which a transfer has passed the crossing between its requester and the fabric, on the way out or back. -/
def State.ownCrossing (s : State) (o : ReqOwner) (back : Bool) (t : Nat) : Nat × State :=
  match o.crossing with
  | some x => s.cross o.die x.1 (2 * x.2 + back.toNat) t
  | none => (t, s)

/-- The cycle in which a request that sets out in cycle t has passed its crossings: its requester's own, and the bridges to its home. -/
def State.crossings (s : State) (o : ReqOwner) (home t : Nat) : Nat × State :=
  let a := s.ownCrossing o false t
  a.2.bridged o.die home a.1

/-- The cycle in which a reply that sets out from a request's home in cycle t has passed the crossings of its way back. -/
def State.crossingsBack (s : State) (o : ReqOwner) (home t : Nat) : Nat × State :=
  let a := s.bridged home o.die t
  a.2.ownCrossing o true a.1

/-- The cycles added at a memory controller. -/
def State.memDelay (s : State) (p : GrantPoint) : Nat × State :=
  match p with
  | .ctl d k =>
    let r : Reg := ⟨.PERT_MEMLAT, selCd d.val, k.val, 0⟩
    let x := s.perturb 0xD1 d.val k.val (s.pert r PERT_MEMLAT.ADD) (s.pert r PERT_MEMLAT.RANDOM == 1) s.now
    (x.1 - s.now, x.2)
  | _ => (0, s)

/-! Requests. -/

/-- A request as it is formed now, of class ROW (06 R249, R253). -/
def State.newReq (s : State) (row addr : Nat) (write : Bool) (owner : ReqOwner) (lease : Option Nat) (deadline : Option Nat) (img : RowImg) : MemReq :=
  { id := s.nextId, point := pointOf row, row := row, addr := addr, off := 0, bytes := 512, write := write, cls := 1, beats := 1, owner := owner, rank := owner.rank, lease := lease, f := s.now
    deadline := deadline, reached := s.now, eligible := s.now, promoted := false, stage := 0, grantedAt := 0, due := 0, img := img, corr := 0, unc := 0, fresh := false, install := false, extra := 0 }

/-- A request of class NARROW at a shared bank: it moves its whole row in eight cycles (05 R184, R197, 06 R263). DESIGN CHOICE (log 36): only the engines that R197 lists as NARROW, and the index reads of the Awl engine, ask so; DCP, pool-engine, peer, ring, descriptor and dump accesses, which its table does not list, are of class ROW. -/
def MemReq.narrow (r : MemReq) : MemReq := match r.point with | .shared _ _ => { r with cls := 2, beats := 8 } | _ => r

/-- A request sent to its arbitration point, perturbed on its way where that is granted. -/
def State.submit (s : State) (r : MemReq) : State :=
  let t : State := { s with nextId := s.nextId + 1 }
  let x := if r.inner.isSome then (r.reached, t) else t.crossings r.owner (pointDie r.point) r.reached
  let m := x.2.memDelay r.point
  { m.2 with reqs := m.2.reqs ++ [{ r with reached := x.1, eligible := x.1, extra := m.1 }] }

/-- The request of an engine's read of a row: the read itself is made by the command that asks for it, and the engine's next step waits until the request has been granted and performed (log 16). -/
def State.book (s : State) (e : Engine) (die i row : Nat) (narrow : Bool) (lease deadline : Option Nat) : State :=
  let r := s.newReq row 0 false (.engine e die i) lease deadline ⟨[], false⟩
  s.submit (if narrow then r.narrow else r)

/-- An engine that makes accesses: which it is, its die and number, the lease they are made for, the cycles from a request's formation to its deadline, if it has one, and whether its requests are of class NARROW (05 R197, 06 R253). -/
structure Agent where
  eng : Engine
  die : Nat
  i : Nat
  lease : Option Nat
  within : Option Nat
  narrow : Bool
  deriving DecidableEq, Repr

/-- The request of an engine's read of a row (log 16). -/
def State.bookFor (s : State) (g : Agent) (row : Nat) : State := s.book g.eng g.die g.i row g.narrow g.lease (g.within.map (s.now + ·))

/-- The request of an engine's write to the bytes of a row from an offset: it is made in its grant (06 R257, 07 R298). -/
def State.bookWrite (s : State) (g : Agent) (row off : Nat) (img : RowImg) : State :=
  let r := s.newReq row 0 true (.engine g.eng g.die g.i) g.lease (g.within.map (s.now + ·)) img
  s.submit { (if g.narrow then r.narrow else r) with off := off, bytes := img.bytes.length }

/-- What a write puts into a row: its bytes from its offset; a row written in part keeps its poison. -/
def MemReq.over (r : MemReq) (i : RowImg) : RowImg := ⟨i.bytes.take r.off ++ r.img.bytes ++ i.bytes.drop (r.off + r.bytes), r.img.poison || (r.bytes != 512 && i.poison)⟩

/-- A row with the writes to it that engines of a kind have under way: they see their own writes before these are granted (log 16). -/
def State.overlaid (s : State) (e : Engine) (row : Nat) (img : RowImg) : RowImg :=
  s.reqs.foldl (fun i r => if r.stage == 0 && r.write && r.row == row && r.owner.kind == some e then r.over i else i) img

/-- The row at an address read for an engine; a row of zeros where there is no memory. -/
def State.agentRead (s : State) (g : Agent) (a : Nat) : State × RowImg :=
  match s.rowAt a with
  | none => (s, ⟨zeroRow, false⟩)
  | some row => let r := s.readFar row g.lease; (r.s.bookFor g row, r.s.overlaid g.eng row r.img)

/-- Bytes of the row at an address, from an offset, written for an engine. -/
def State.agentPut (s : State) (g : Agent) (a off : Nat) (bytes : List Byte) (poison : Bool) : State :=
  match s.rowAt a with
  | none => s
  | some row => s.bookWrite g row off ⟨bytes, poison⟩

/-- The row at an address written for an engine. -/
def State.agentWrite (s : State) (g : Agent) (a : Nat) (img : RowImg) : State := s.agentPut g a 0 img.bytes img.poison

/-- Whether an engine still waits for a request of its own. -/
def State.engineBusy (s : State) (e : Engine) (die i : Nat) : Bool := s.reqs.any (fun r => r.owner == .engine e die i)

end Sys2Proof.Machine
end

