-- ==== Sys2Proof/Machine/Score.lean ====
section
/-! DEFINITION. Row ranges of in-flight operations, the range scoreboard and the interlocks of a tensor core (03 R84-R88, R95, R97, 05 R198-R200, 06 R236, R238). -/
namespace Sys2Proof.Machine

/-- Rows that FP32 rows of 128 elements occupy in a format of `b` bits (04 R128). -/
def narrowRows (r b : Nat) : Nat := ceilDiv (r * 128 * b) 4096

/-- Whether a VEC0 function takes two cycles for 256 elements (03 R97). -/
def slowFunc (f : Nat) : Bool := 0x10 ≤ f && f ≤ 0x17

/-- Whether a VEC0 function reads operand b (04 R126). -/
def readsB (f : Nat) : Bool := f ≤ 0x06 || f == 0x14

/-- Whether a VEC0 function reduces its rows to one element (04 R125). -/
def reduces (f : Nat) : Bool := f == 0x18 || f == 0x19

/-- Latency of a VEC0 function from issue to its first written row (03 R97). -/
def funcLatency (f : Nat) : Nat := if f ≤ 0x07 then 4 else if f ≤ 0x0A then 8 else 12

/-- Cycles a vector operation takes in its source rows (03 R97); a soft-maximum step occupies its pipeline for the cycles of 10 R396. -/
def VecRun.takeIn (v : VecRun) : Nat :=
  match v.kind with
  | .elem f _ => if slowFunc f then v.rows else ceilDiv v.rows 2
  | .soft mode _ _ _ o _ _ q _ _ _ _ _ =>
    let r := ceilDiv q 4
    let j := presentBelow o 16
    if mode == 0 then 12 + 3 * r + j * r else if mode == 1 then 10 + 2 * r * j else 12 + 2 * r * j
  | _ => ceilDiv v.rows 2

/-- Where the j-th row a vector operation writes lies among its destination rows: a SPLIT writes each hi row and its lo row in turn, since both hold the same source elements (03 R97, 04 R129). -/
def VecRun.place (v : VecRun) (j : Nat) : Nat :=
  match v.kind with
  | .split _ => if j % 2 == 0 then j / 2 else narrowRows v.rows 16 + j / 2
  | _ => j

/-- The last source row that the j-th row written needs (03 R97). -/
def VecRun.lastSource (v : VecRun) (j : Nat) : Nat :=
  let last := fun b => min (ceilDiv ((j + 1) * 4096) (128 * b)) v.rows - 1
  match v.kind with
  | .elem f _ => if reduces f then v.rows - 1 else j
  | .toNarrow f .. => last (fmtWidth f)
  | .rotated f .. => last (fmtWidth f)
  | .toWide .. => j
  | .split _ => min (2 * (j / 2) + 1) (v.rows - 1)
  | .soft .. => v.rows - 1

/-- The core cycle in which the j-th row is written (03 R97, 10 R382, R396). -/
def VecRun.dueAt (v : VecRun) (j : Nat) : Nat :=
  let l := v.lastSource j
  match v.kind with
  | .elem f _ => v.issued + funcLatency f + (if slowFunc f then l else l / 2)
  | .soft .. => v.issued + v.takeIn - 1
  | _ => v.issued + 6 + v.extraLat + l / 2

/-- Destination rows of a vector operation. -/
def VecKind.destRows (k : VecKind) (rows : Nat) : Nat :=
  let mx := fun f => if fmtMx f then 1 else 0
  match k with
  | .elem f _ => if reduces f then 1 else rows
  | .toNarrow f .. => narrowRows rows (fmtWidth f) + mx f
  | .rotated f .. => narrowRows rows (fmtWidth f) + mx f
  | .toWide .. => rows
  | .split _ => 2 * narrowRows rows 16
  | .soft mode f .. => if mode == 0 then 16 else if mode == 1 then narrowRows rows (fmtWidth f) + mx f else 0

/-- Source rows of operand a. -/
def VecKind.sourceRows (k : VecKind) (rows : Nat) : Nat :=
  match k with
  | .toWide f _ => narrowRows rows (fmtWidth f) + (if fmtMx f then 1 else 0)
  | _ => rows

/-- The row ranges a vector operation names (05 R198): operand a, operand b where it is read, the destination, a position list (10 R382) and a step's state rows (10 R395). -/
def VecRun.ranges (v : VecRun) : List SbEntry :=
  let dst : List SbEntry := if v.kind.destRows v.rows == 0 then [] else [⟨v.dBuf, v.dRow, v.kind.destRows v.rows, true, 0⟩]
  let src : List SbEntry := [⟨v.aBuf, v.aRow, v.kind.sourceRows v.rows, false, 0⟩]
  let more : List SbEntry := match v.kind with
    | .elem f bc => if readsB f then [⟨v.bBuf, v.bRow, if bc then 1 else v.rows, false, 0⟩] else []
    | .rotated _ _ _ _ _ pm _ pr _ _ => if pm == 1 then [⟨2, pr, 1, false, 0⟩] else []
    | .soft mode _ _ _ _ sr mr _ _ _ _ _ _ =>
      [⟨2, sr, 1, false, 0⟩, ⟨2, sr, 1, true, 0⟩] ++ (if mode == 2 then [⟨2, mr, 1, false, 0⟩] else [])
    | _ => []
  src ++ more ++ dst

/-- The entries a vector operation still holds at a core cycle: reads until its last row is taken in, writes until it is done (05 R200). -/
def VecRun.entries (v : VecRun) (t : Nat) : List SbEntry := v.ranges.filter (fun e => e.write || t < v.issued + v.takeIn)

/-- Rows an activation block occupies (03 R74, 08 R307). -/
def blockRows (m depth fmt : Nat) (transposed : Bool) : Nat :=
  if transposed then 16 else ceilDiv (m * (depth * fmtWidth fmt / 8)) 512 + (if fmtMx fmt then 1 else 0)

/-- The depth of the tile a pass uses. -/
def MatArray.depth (m : MatArray) (half : Nat) : Nat :=
  let t := if half == 2 then m.activeU.orElse (fun _ => m.shadowU) else m.activeL.orElse (fun _ => m.shadowL)
  ((t.map (·.depth)).getD 64)

/-- The scoreboard's memory for an index list, from its address: 2 for the core's own memory, 8 + d for the shared memory of CDd, 7 for another core's memory, of which the core keeps no entry (05 R198, 06 R262). -/
def listMem (k addr : Nat) : Nat :=
  if bits addr 47 44 == 2 then 8 + bits addr 41 40 else if coreKey (bits addr 41 40) (bits addr 38 32) == k then 2 else 7

/-- The row ranges of an AWL: its near range and its index range, where the core keeps an entry of it (06 R262). -/
def awlEntries (mem indexBase count span nearBuf nearRow : Nat) (scatter : Bool) : List SbEntry :=
  ⟨nearBuf, nearRow, ceilDiv (count * span) 8, !scatter, 2⟩ :: (if mem == 7 then [] else [⟨mem, bits indexBase 28 0 / 512, ceilDiv (count * 4) 512, false, 2⟩])

/-- The row ranges of a thread. -/
def AwlThread.ranges (a : AwlThread) : List SbEntry := awlEntries a.ixMem a.indexBase a.count a.span a.nearBuf a.nearRow a.scatter

/-- Whether a thread holds its entries: a scatter until its last near row is read, a gather until its last near row is written (06 R262). -/
def AwlThread.held (a : AwlThread) : Bool := !(a.scatter && a.count ≤ a.entry)

/-- The entries a core's operations in flight hold at a core cycle (05 R198, R200, 06 R238, R262). -/
def Core.entries (c : Core) (t : Nat) : List SbEntry :=
  let mas := (c.arrays.map (fun p =>
    (p.2.loads.filter (fun l => t < l.due)).map (fun l => (⟨3 + p.1, l.row, l.rows, false, 3⟩ : SbEntry)) ++
    (p.2.passes.filter (fun q => q.next < q.count || t < q.issued + q.count)).map (fun q => (⟨0, q.row, blockRows q.count (p.2.depth q.half) q.fmt q.transposed, false, 3⟩ : SbEntry)))).flatten
  let vs := ((c.vec0 ++ c.vec1).map (fun v => v.entries t)).flatten
  let hs := (c.chans.map (fun p => p.2.halves.filterMap (fun h =>
    if h.st == 1 then some (⟨h.buf, h.row, h.n, true, 1⟩ : SbEntry) else if h.st == 3 then some ⟨h.buf, h.row, h.n, false, 1⟩ else none))).flatten
  let ws := (c.awl.map (fun p => if p.2.held then p.2.ranges else [])).flatten
  let tail := (c.sbTail.filter (fun e => t < e.2 && e.1.cls != 4)).map (·.1)
  mas ++ vs ++ hs ++ ws ++ tail

/-- Whether two row ranges of one memory meet. -/
def SbEntry.meets (a b : SbEntry) : Bool := a.mem == b.mem && a.row < b.row + b.count && b.row < a.row + a.count

/-- Whether two core-memory ranges of different port classes share a bank (05 R199). -/
def SbEntry.bankClash (a b : SbEntry) : Bool :=
  a.mem == 2 && b.mem == 2 && a.cls != b.cls && a.cls != 3 && b.cls != 3 && a.row / 512 ≤ (b.row + b.count - 1) / 512 && b.row / 512 ≤ (a.row + a.count - 1) / 512

/-- Whether a new range must wait for an in-flight one (05 R199). -/
def SbEntry.blocks (held new : SbEntry) : Bool := (held.meets new && (held.write || new.write)) || held.bankClash new

/-- Whether the ranges an operation or bundle needs are free, with enough entries left of the 64 (05 R199, R200). -/
def Core.clear (c : Core) (t : Nat) (new : List SbEntry) : Bool :=
  let held := c.entries t
  held.length + new.length ≤ 64 && new.all (fun n => held.all (fun h => !h.blocks n))

/-- The first row of half `h` of a channel's pair (06 R229, R230). -/
def StreamDesc.halfRow (x : StreamDesc) (h : Nat) : Nat := x.nearRow + h * x.halfRows

/-- Whether a transfer loads (06 R231: load and pop). -/
def StreamDesc.loads (x : StreamDesc) : Bool := x.dir == 0 || x.dir == 3

/-- The half and row count of fill u of a transfer (06 R230, R235). -/
def Xfer.fill (x : Xfer) (u : Nat) : Nat × Nat := ((x.first + u) % 2, min x.d.halfRows (x.total - u * x.d.halfRows))

/-- The logical stack row for which a push or pop forms its next request: a push's rows go up, a pop's come down (05 R222, R226). -/
def Xfer.level (x : Xfer) (h : HalfFill) : Option Nat := h.low.map (· + (if x.d.loads then h.n - 1 - x.formed % max 1 x.d.halfRows else h.got))

/-- The rows of a half, whether or not it is due as many (06 R229). -/
def HalfFill.range (h : HalfFill) : SbEntry := ⟨h.buf, h.row, h.size, true, 3⟩

/-- Ranges an operation of the core may not touch now, because of a channel's pair (06 R236): load halves FILLING or EMPTY and due rows of the running or pending transfer; store halves FULL or DRAINING. -/
def Chan.locked (k : Chan) : List SbEntry :=
  let fill := (k.halves.filter (fun h => h.st == 1 || (h.st == 0 && h.rel.isNone))).map HalfFill.range
  let due := fun (x : Xfer) (u : Nat) =>
    if x.d.loads && u * x.d.halfRows < x.total then
      let f := x.fill u
      let r := x.d.halfRow f.1
      if k.halves.any (fun h => h.buf == x.d.nearBuf && h.row == r) then [] else [(⟨x.d.nearBuf, r, x.d.halfRows, true, 3⟩ : SbEntry)]
    else []
  let empties := fun (x : Xfer) => let u := ceilDiv x.formed (max 1 x.d.halfRows); due x u ++ due x (u + 1)
  let loads := (match k.cur with | some x => empties x | none => []) ++ (match k.pend with | some x => empties x | none => [])
  let store := match k.cur with
    | some x => if x.d.loads then [] else (k.halves.filter (fun h => 2 ≤ h.st)).map HalfFill.range
    | none => []
  fill ++ loads ++ store

/-- A half that a REL named, once no entry of the core lies on its rows: a load half leaves, a store half is FULL (06 R237). -/
def Core.settleHalf (c : Core) (t : Nat) (h : HalfFill) : Option HalfFill :=
  match h.rel with
  | none => some h
  | some r =>
    if t ≤ r || (c.entries (t - 1)).any (fun e => e.meets h.range) then some h
    else if h.st == 0 then some { h with st := 2, rel := none } else none

/-- Every REL that has come due takes effect (06 R237). -/
def Core.settle (c : Core) (t : Nat) : Core :=
  if c.chans.all (fun p => p.2.halves.all (fun h => h.rel.isNone)) then c
  else { c with chans := c.chans.map (fun p => (p.1, { p.2 with halves := p.2.halves.filterMap (c.settleHalf t) })) }

/-- Whether a range is kept from the core's operations by some pair (06 R236). -/
def Core.pairLocked (c : Core) (e : SbEntry) : Bool := c.chans.any (fun p => p.2.locked.any (fun l => l.meets e))

/-! Interlocks of the arrays and slots (03 R84-R88). -/

/-- Whether half selections (0 whole, 1 lower, 2 upper) share a half (03 R95). -/
def halvesMeet (a b : Nat) : Bool := a == 0 || b == 0 || a == b

/-- Whether a pass still holds its port and array (03 R85): until the cycle of its last broadcast. -/
def PassRun.holds (p : PassRun) (t : Nat) : Bool := t < p.issued + p.count

/-- Whether an accumulator slot has a pass in flight that has not released it (03 R84, R88). -/
def Core.slotInPass (c : Core) (slot : Nat) : Bool := c.arrays.any (fun p => p.2.passes.any (fun q => q.slot == slot))

/-- Accumulator slots a row range covers (04 R121). -/
def slotsOf (e : SbEntry) : List Nat :=
  if e.mem != 1 || e.count == 0 then [] else (List.range 16).filter (fun s => e.row < 32 * s + 32 && 32 * s < e.row + e.count)

/-- Accumulator slots a vector operation reads (03 R88, 04 R123): those of its source rows, and of the destination of a fused multiply-add. -/
def VecRun.readSlots (v : VecRun) : List Nat :=
  ((v.ranges.filter (fun e => !e.write || (match v.kind with | .elem f _ => f == 0x03 | _ => false))).map slotsOf).flatten

/-- The O slots of a soft-maximum step (10 R390). -/
def VecRun.oSlots (v : VecRun) : List Nat := match v.kind with | .soft _ _ _ _ o .. => (List.range 16).filter (fun s => bitAt o s) | _ => []

/-- Accumulator slots a vector operation in flight has not finished with (03 R88, 10 R395): those it still reads, and the O slots of a step. -/
def VecRun.slots (v : VecRun) (t : Nat) : List Nat := (if t < v.issued + v.takeIn then v.readSlots else []) ++ v.oSlots

/-- Whether some issued vector operation still reads a slot, or a step holds it as an O slot, in the cycle of its last row too (03 R88, 10 R395). -/
def Core.slotInVec (c : Core) (t slot : Nat) : Bool :=
  (c.vec0 ++ c.vec1).any (fun v => (v.slots t).contains slot) || c.sbTail.any (fun e => t < e.2 && e.1.cls == 4 && (slotsOf e.1).contains slot)

/-- What a vector operation keeps until the cycle after its last row (05 R200): its write entries, and as class 4 the O slots of a step, which hold no entry (10 R395). -/
def VecRun.tail (v : VecRun) : List SbEntry :=
  v.ranges.filter (·.write) ++ v.oSlots.map (fun s => (⟨1, 32 * s, 32, true, 4⟩ : SbEntry))

/-! Accesses to a core's memory from outside (05 R202). -/

/-- Whether a request to a core's memory may be taken in: the core is not frozen, no entry of another class holds the bank, and no engine of the core lands or reads out a row there in this cycle; always so elsewhere (03 R109, 05 R202). -/
def State.rowPortFree (s : State) (r : MemReq) : Bool :=
  match r.point with
  | .core c =>
    let k := ckey c
    let x := s.core k
    let t := s.ctime k
    let row := r.row % 2 ^ 15
    !s.frozen k && (x.entries t).all (fun e => !(⟨2, row, 1, false, 1⟩ : SbEntry).bankClash e) &&
      (List.range 2).all (fun e => tget 0 x.ports (2 + e) ≤ t || tget 0 x.ports (4 + e) != row / 512)
  | _ => true

/-- Whether an access made by one command may reach a row now: a core's memory takes in no access while the core is frozen or its bank or ROW port is held (03 R109, 05 R202). -/
def State.mayReach (s : State) (row : Nat) : Bool := s.rowPortFree (s.newReq row 0 false (.engine .dcp 0 0) none none ⟨[], false⟩)

/-- Whether such an access may reach n rows from a row key now. -/
def State.mayReachRun (s : State) (row n : Nat) : Bool := isDram row || row < 28 * 2 ^ 31 || (List.range n).all (fun i => s.mayReach (row + i))

end Sys2Proof.Machine
end

