-- ==== Sys2Proof/Machine/Check.lean ====
section
/-! DEFINITION. The checks the device makes on a bundle before issue, in the order of 04 R120, and the waits at issue (04 R119). -/
namespace Sys2Proof.Machine

/-- A field of an operation word. -/
def opf (w hi lo : Nat) : Nat := bits w hi lo

/-- Whether a unit address names this unit (01 R35): 0xFFFF or the assigned ADDRESS. -/
def State.ownUnit (s : State) (u : Nat) : Bool :=
  let a := s.fld ⟨.UNIT_ADDR, selSv0, 0, 0⟩ UNIT_ADDR.ADDRESS
  u == 0xFFFF || (u != 0 && u == a)

/-- The tile a pass on a half will use: that of the last load in progress, else the shadow tile, else the active one (03 R79, R87). -/
def MatArray.next (m : MatArray) (upper : Bool) : Option Tile :=
  let l := m.loads.filterMap (fun x => if upper then x.upper else x.lower)
  match l.getLast? with
  | some t => some t
  | none => if upper then m.shadowU.orElse (fun _ => m.activeU) else m.shadowL.orElse (fun _ => m.activeL)

/-- The tiles a pass on a half selection uses. -/
def MatArray.tiles (m : MatArray) (half : Nat) : List (Option Tile) :=
  if half == 0 then [m.next false, m.next true] else [m.next (half == 2)]

/-- Whether a descriptor is a tensor descriptor that names a companion (04 R144): a descriptor of another VERSION has no AUX_HANDLE. -/
def companion (d : List Word) : Bool := dVersion d == 1 && hIndex (tensorDesc d).aux != 0

/-- Whether a WLD is a widening load: its tensor descriptor names a companion (10 R384). -/
def Core.wideDesc (c : Core) (t : TensorDesc) : Option PlaneDesc := if hIndex t.aux == 0 then none else some (planeDesc (c.descOf t.aux))

/-- The depth a WLD loads at (03 R76, 10 R384). -/
def wldDepth (fmt depthField : Nat) (wide : Option PlaneDesc) : Nat :=
  match wide with
  | some p => selfDepth p.qfmt
  | none => if depthField == 1 then 128 else selfDepth fmt

/-- Element rows of a WLD, without a scale row (03 R73, R77, 08 R306, 10 R384). -/
def wldElemRows (fmt depth half : Nat) (transposed : Bool) (wide : Option PlaneDesc) : Nat :=
  if transposed then 16
  else if wide.isSome then fmtWidth fmt
  else (depth * fmtWidth fmt / 8) / (if half == 0 then 8 else 16)

/-- Rows a WLD reads (03 R77). -/
def wldRows (fmt depth half : Nat) (transposed : Bool) (wide : Option PlaneDesc) : Nat :=
  wldElemRows fmt depth half transposed wide + (if fmtMx fmt then 1 else 0)

/-- KVP_CFG of a pool (10 R365). -/
def kvpCfg (d p : Nat) : Reg := ⟨.KVP_CFG, selCd d, p, 0⟩

/-- The contents of a plane descriptor that ST_RANGE refuses a widening load for (10 R385). -/
def State.wideRange (s : State) (k lease half : Nat) (d : List Word) : Option Status :=
  let p := planeDesc d
  firstFail
    [ need (dVersion d == 5 && !p.resv) .range
    , need (half == 0 && (p.qfmt == 1 || p.qfmt == 2)) .range
    , need (s.fld (kvpCfg (coreDie k) p.pool) KVP_CFG.LEASE == lease) .range ]

/-- The formats that ST_FORMAT refuses a widening load for (10 R385, R386). -/
def State.wideFormat (s : State) (k fmt : Nat) (transpose : Bool) (d : List Word) : Option Status :=
  let p := planeDesc d
  let r := kvpCfg (coreDie k) p.pool
  let combo := (fmt == 1 && p.qfmt == 1) || (fmt == 2 && p.qfmt == 2) || ((fmt == 3 || fmt == 4) && (p.qfmt == 1 || p.qfmt == 2)) ||
    ((fmt == 5 || fmt == 9) && p.plane == 0 && p.qfmt == 1)
  firstFail
    [ need (!transpose) .format
    , need combo .format
    , need (s.fld r KVP_CFG.ENABLE == 0 || fmt == (if p.plane == 0 then s.fld r KVP_CFG.KFMT else s.fld r KVP_CFG.VFMT)) .format ]

/-! The encoding ranges that an operation's own fields decide (04 R117, R120). -/

/-- Those of a WLD (03 R76, R83). -/
def wldOwn (w : Nat) : Option Status := need (opf w 38 6 == 0 && opf w 40 39 != 3 && opf w 5 4 ≤ 1 && hIndex (opf w 63 48) != 0) .range

/-- Those of a PASS (03 R80, R83). -/
def passOwn (w : Nat) : Option Status :=
  need (opf w 14 4 == 0 && opf w 19 18 != 3 && opf w 21 20 != 3 && opf w 33 28 ≤ 32 && (opf w 21 20 == 0 || opf w 22 22 == 0) && hIndex (opf w 63 48) != 0) .range

/-- Two passes of one bundle on one port name the same block (03 R83). -/
def passPorts (w : Nat) (others : List Nat) : Option Status :=
  need (others.all (fun o => opf o 15 15 != opf w 15 15 || (opf o 63 48 == opf w 63 48 && opf o 47 40 == opf w 47 40 && opf o 39 34 == opf w 39 34))) .range

/-- Those of a stream-slot operation (06 R233). -/
def strmOwn (w : Nat) : Option Status :=
  let h := opf w 63 48
  firstFail
    [ need (opf w 47 7 == 0) .range
    , match opf w 3 0 with
      | 1 => need (hIndex h != 0) .range
      | 2 => need (h == 0) .range
      | _ => need (hIndex h != 0 && opf w 6 4 == 0) .range ]

/-- Those of a SCAL operation (04 R131, R133). -/
def scalOwn (w : Nat) : Option Status :=
  match opf w 3 0 with
  | 1 => need (opf w 63 32 == 0 && opf w 15 4 != 0) .range
  | 2 => need (opf w 31 12 == 0 && opf w 5 4 == 0 && opf w 11 8 != 0) .range
  | 3 => need (opf w 15 4 == 0) .range
  | 4 => need (opf w 63 14 == 0 && opf w 13 4 != 0) .range
  | 5 => need (opf w 31 4 == 0) .range
  | _ => need (opf w 63 5 == 0) .range

/-- Those of a SYNC operation (04 R168, R169). -/
def syncOwn (w : Nat) : Option Status :=
  let op := opf w 3 0
  let remote := opf w 4 4 == 1
  firstFail
    [ need (opf w 63 25 == 0) .range
    , need (!(remote && (op == 3 || op == 4 || op == 5)) && (opf w 24 24 == 0 || op ≤ 2)) .range
    , need (remote || (opf w 6 5 == 0 && opf w 13 7 == 0)) .range ]

/-- The checks of a WLD (03 R83, 08 R305, 10 R385, R386). -/
def State.checkWld (s : State) (k lease w : Nat) : Option Status :=
  let c := s.core k
  let h := opf w 63 48
  let half := opf w 40 39
  let df := opf w 5 4
  let d := c.descOf h
  let t := tensorDesc d
  let wide := if companion d then c.wideDesc t else none
  let x := c.descOf t.aux
  firstFail
    [ wldOwn w
    , need (dGen d == hGen h) .staleHandle
    , if wide.isSome then need (dGen x == hGen t.aux) .staleHandle else none
    , tensorRange d
    , if wide.isSome then s.wideRange k lease half x else none
    , tensorFormat d
    , if wide.isSome then s.wideFormat k t.fmt t.transpose x else none
    , need (!t.transpose || ((t.fmt == 1 || t.fmt == 2) && t.layout == 2)) .format
    , need (df == 0 || ((7 ≤ t.fmt && t.fmt ≤ 9) || t.fmt == 0xC)) .format
    , need (df == 0 || (wide.isNone && !t.transpose)) .format
    , need (opf w 47 41 + wldRows t.fmt (wldDepth t.fmt df wide) half t.transpose wide ≤ 128) .range
    , match wide with | some p => need (s.fld (kvpCfg (coreDie k) p.pool) KVP_CFG.ENABLE == 1) .state | none => none ]

/-- The global accumulator slot a PASS targets (03 R80, R82). -/
def passSlot (a w : Nat) : Nat := 4 * a + opf w 23 22 + (if opf w 21 20 == 2 then 1 else 0)

/-- The checks of a PASS on array a (03 R83, 08 R305, R307, 10 R390). `others` holds the PASS words of lower slots of the bundle. -/
def State.checkPass (s : State) (k a w : Nat) (others : List Nat) : Option Status :=
  let c := s.core k
  let h := opf w 63 48
  let half := opf w 19 18
  let d := c.descOf h
  let t := tensorDesc d
  let ts := (c.arr a).tiles half
  let tile := (ts.headD none)
  let wf := (tile.map (·.fmt)).getD t.fmt
  let depth := (pairDepth t.fmt wf).getD (selfDepth t.fmt)
  let m := opf w 39 34 + 1
  firstFail
    [ passOwn w
    , passPorts w others
    , need (dGen d == hGen h) .staleHandle
    , tensorRange d
    , need (hIndex t.aux == 0) .range
    , tensorFormat d
    , need (!t.transpose || ((t.fmt == 1 || t.fmt == 2) && t.layout == 2)) .format
    , need (opf w 47 40 + blockRows m depth t.fmt t.transpose ≤ 256) .range
    , if ts.any Option.isNone then none else need (pairDepth t.fmt wf == tile.map (·.depth)) .format
    , if ts.any Option.isNone then none else need (ts.all (fun x => x.map (fun y => (y.fmt, y.depth)) == tile.map (fun y => (y.fmt, y.depth)))) .format
    , need (ts.all Option.isSome) .state
    , need (!(opf w 16 16 == 1 && bitAt c.openSlots (passSlot a w))) .state ]

/-- The VEC0 operation a word encodes (04 R122). -/
def elemRun (w t idx seq : Nat) : VecRun :=
  let f := opf w 23 19
  { kind := .elem f (opf w 24 24 == 1), issued := t, aBuf := opf w 12 10, aRow := opf w 37 25, bBuf := opf w 15 13, bRow := opf w 50 38
    dBuf := opf w 18 16, dRow := opf w 63 51, rows := opf w 9 4 + 1, next := 0, total := if reduces f then 1 else opf w 9 4 + 1
    extraLat := 0, held := [], scales := [], bundle := idx, seq := seq }

/-- Whether a range runs past the end of its buffer (04 R126). -/
def SbEntry.inBuf (e : SbEntry) : Bool := e.row + e.count ≤ bufRows e.mem

/-- Whether a destination overlaps a source without starting at the same row (04 R126). -/
def badOverlap (d a : SbEntry) : Bool := d.meets a && d.row != a.row

/-- Whether a range touches an open slot (10 R390). -/
def Core.touchesOpen (c : Core) (e : SbEntry) : Bool := (slotsOf e).any (fun x => bitAt c.openSlots x)

/-- The FUNC codes of 04 R123. -/
def funcOk (f : Nat) : Bool := f ≤ 0x0A || (0x10 ≤ f && f ≤ 0x19)

/-- The encoding ranges of an ELEM (04 R123-R126). -/
def elemOwn (w : Nat) : Option Status :=
  let v := elemRun w 0 0 0
  let f := opf w 23 19
  let src := v.ranges.filter (fun e => !e.write)
  let dst := v.ranges.filter (·.write)
  firstFail
    [ need (funcOk f && (opf w 24 24 == 0 || readsB f)) .range
    , need (v.aBuf != 7 && v.bBuf != 7 && v.dBuf != 7) .range
    , need (v.ranges.all SbEntry.inBuf) .range
    , need (dst.all (fun d => src.all (fun a => !badOverlap d a))) .range ]

/-- The checks of an ELEM (04 R123-R126, 10 R390). -/
def State.checkElem (s : State) (k w : Nat) : Option Status :=
  firstFail [elemOwn w, need ((elemRun w 0 0 0).ranges.all (fun e => !(s.core k).touchesOpen e)) .state]

/-- The kind of a VEC1 operation, from its word and its descriptors (04 R127-R130, 10 R380, R387). -/
def Core.vec1Kind (c : Core) (w : Nat) : VecKind :=
  let h := opf w 63 48
  let t := tensorDesc (c.descOf h)
  let x := c.descOf t.aux
  match opf w 3 0 with
  | 2 => .split (hIndex h)
  | 3 =>
    if hIndex t.aux == 0 then .toNarrow t.fmt t.round (hIndex h)
    else if dVersion x == 6 then
      let q := softDesc x
      .soft q.mode t.fmt t.round (hIndex h) q.oSlots q.stateRow q.mergeRow q.qrows q.qgroup q.maskSel q.init q.causal q.scale
    else
      let r := rotDesc x
      .rotated t.fmt t.round (hIndex h) r.block (64 * 2 ^ r.dim) r.posMode r.pos0 (bits r.posList 21 0 / 512) r.theta r.pscale
  | _ => if opf w 9 9 == 1 then .toWide t.fmt t.round else .toNarrow t.fmt t.round (hIndex h)

/-- The VEC1 operation a word encodes (04 R127). -/
def Core.vec1Run (c : Core) (w t idx seq : Nat) : VecRun :=
  let kd := c.vec1Kind w
  let rows := opf w 15 10 + 1
  { kind := kd, issued := t, aBuf := opf w 21 19, aRow := opf w 47 35, bBuf := 0, bRow := 0, dBuf := opf w 18 16, dRow := opf w 34 22, rows := rows, next := 0
    total := (match kd with | .soft .. => 1 | _ => kd.destRows rows), extraLat := (match kd with | .rotated .. => 10 | _ => 0)
    held := [], scales := [], bundle := idx, seq := seq }

/-- The checks of a rotation descriptor (10 R379, R380). -/
def rotCheck (k rows : Nat) (d : List Word) : Option Status :=
  let r := rotDesc d
  let here := bits r.posList 47 44 == 3 && bits r.posList 43 42 == 0 && bits r.posList 41 40 == coreDie k && bits r.posList 38 32 == coreNum k &&
    bits r.posList 39 39 == 0 && bits r.posList 31 22 == 0 && r.posList % 512 == 0
  firstFail
    [ need (dVersion d == 4 && !r.resv) .range
    , need (finiteAbove r.theta one32 && finiteAbove r.pscale 0#32 && r.dim != 3) .range
    , need (r.block + rows / 32 ≤ 2 ^ r.dim) .range
    , need (r.posMode == 0 || here) .range ]

/-- The contents of a soft-maximum step that ST_RANGE refuses (10 R388, R389). -/
def softRange (w : Nat) (t : TensorDesc) (d : List Word) : Option Status :=
  let q := softDesc d
  let s := opf w 47 35 / 32
  let n := (opf w 15 10 + 1) / 32
  let os := presentBelow q.oSlots 16
  let src := (List.range n).map (fun i => s + i)
  let inO := fun x => bitAt q.oSlots x
  firstFail
    [ need (dVersion d == 6 && !q.resv && q.mode != 3 && (q.mode == 0 || (!q.init && !q.causal))) .range
    , need (q.mode != 0 || finiteAbove q.scale 0#32) .range
    , need (src.all (fun x => x < 16)) .range
    , match q.mode with
      | 0 => need (n == 1 && 1 ≤ os && os ≤ 4 && !inO s && (opf w 18 16 == 0 || opf w 18 16 == 2) && t.round == 0) .range
      | 1 => need ((List.range 16).all (fun x => inO x == src.contains x)) .range
      | _ => need (os == n && src.all (fun x => !inO x) && opf w 18 16 == 0 && opf w 34 22 == 0) .range ]

/-- The state checks of a soft-maximum step (10 R389). -/
def Core.softState (c : Core) (w : Nat) (d : List Word) : Option Status :=
  let q := softDesc d
  let s := opf w 47 35 / 32
  let n := (opf w 15 10 + 1) / 32
  let openAll := (List.range 16).all (fun x => !bitAt q.oSlots x || bitAt c.openSlots x)
  if q.mode == 0 then need (q.init || openAll) .state
  else if q.mode == 1 then need openAll .state
  else need (openAll && (List.range n).all (fun i => !bitAt c.openSlots (s + i))) .state

/-- The encoding ranges of a VEC1 operation (04 R126, R127, R129, R130): both ranges of a SPLIT, which always writes BF16 rows, and the wide side of a CONVERT or DRAIN. -/
def vec1Own (w : Nat) : Option Status :=
  let op := opf w 3 0
  let rows := opf w 15 10 + 1
  let a : SbEntry := ⟨opf w 21 19, opf w 47 35, rows, false, 0⟩
  let d : SbEntry := ⟨opf w 18 16, opf w 34 22, if op == 2 then 2 * narrowRows rows 16 else rows, true, 0⟩
  firstFail
    [ need (opf w 8 4 == 0 && hIndex (opf w 63 48) != 0 && a.mem != 7 && d.mem != 7) .range
    , need (op != 3 || (a.mem == 1 && a.row % 32 == 0 && (rows == 32 || rows == 64) && opf w 9 9 == 0)) .range
    , need (op != 2 || opf w 9 9 == 0) .range
    , need (if opf w 9 9 == 1 then d.inBuf else a.inBuf) .range
    , need (op != 2 || (d.inBuf && !badOverlap d a)) .range ]

/-- The checks of a VEC1 operation (04 R126-R130, R144, 10 R380, R389, R390). -/
def State.checkVec1 (s : State) (k w : Nat) : Option Status :=
  let c := s.core k
  let h := opf w 63 48
  let op := opf w 3 0
  let d := c.descOf h
  let t := tensorDesc d
  let x := c.descOf t.aux
  let hasAux := companion d
  let soft := op == 3 && hasAux && dVersion x == 6
  let v := c.vec1Run w 0 0 0
  let src := v.ranges.filter (fun e => !e.write)
  let dst := v.ranges.filter (·.write)
  let rows := opf w 15 10 + 1
  firstFail
    [ vec1Own w
    , need (dGen d == hGen h) .staleHandle
    , if op == 3 && hasAux then need (dGen x == hGen t.aux) .staleHandle else none
    , tensorRange d
    , need (op == 3 || !hasAux) .range
    , if op == 3 && hasAux then (if dVersion x == 6 then softRange w t x else rotCheck k rows x) else none
    , tensorFormat d
    , need (!soft || (softDesc x).mode != 0 || t.fmt == 1 || t.fmt == 2) .format
    , need (op != 2 || t.fmt == 1) .format
    , need (v.ranges.all SbEntry.inBuf) .range
    , need (dst.all (fun e => src.all (fun a => !badOverlap e a))) .range
    , if soft then c.softState w x else need (v.ranges.all (fun e => !c.touchesOpen e)) .state ]

/-- ASTK_CFG of a stack (05 R218). -/
def astkCfg (d g : Nat) : Reg := ⟨.ASTK_CFG, selCd d, g, 0⟩

/-- The pair of a transfer as a row range (06 R229). -/
def StreamDesc.pair (x : StreamDesc) : SbEntry := ⟨x.nearBuf, x.nearRow, 2 * x.halfRows, true, 1⟩

/-- The rows of a transfer modulo 128, the rows of one turn of the package view over the stacks (07 R273). -/
def StreamDesc.residues (x : StreamDesc) : List Nat :=
  (List.range 4).foldl (fun acc j =>
    let n := min 128 (max 1 (x.ext.getD j 0))
    let st := if j == 0 then 1 else x.stride.getD j 0
    (List.range 128).filter (fun r => acc.any (fun a => (List.range n).any (fun i => (a + i * st) % 128 == r)))) [x.far / 512 % 128]

/-- Whether the far range of a transfer lies wholly in the stacks and sites of one die (06 R232, 07 R273). -/
def State.farOfDie (s : State) (x : StreamDesc) (die : Nat) : Bool :=
  match s.place x.far, s.place x.farTop with
  | .ok (.hbm false d1 _ _ _), .ok (.hbm false d2 _ _ _) => d1 == die && d2 == die
  | .ok (.hbm true ..), .ok (.hbm true ..) => x.residues.all (fun r => r / 32 == die)
  | .ok (.site n1 _), .ok (.site n2 _) => n1 / 2 == die && n2 / 2 == die
  | _, _ => false

/-- The checks of an ARM that its descriptor decides alone (06 R231, R232). -/
def State.armContents (s : State) (k : Nat) (d : List Word) : Option Status :=
  let x := streamDesc d
  let rank := streamRank d
  let w := dword d 0
  let shape := (List.range 4).all (fun j => if j < rank then x.ext.getD j 0 != 0 else x.ext.getD j 0 == 0 && x.stride.getD j 0 == 0)
  let space := bits x.far 47 44
  let stackKind := x.dir == 2 || x.dir == 3
  let own := s.ownUnit x.unit
  let nearOk := if x.dir == 0 then x.nearBuf == 0 || (2 ≤ x.nearBuf && x.nearBuf ≤ 6) else if x.dir == 3 then x.nearBuf == 0 || x.nearBuf == 2 else x.nearBuf == 2
  firstFail
    [ need (dVersion d == 2) .range
    , need (bits w 8 0 == 0 && bits (dword d 1) 63 48 == 0 && bits (dword d 2) 63 32 == 0 && bits (dword d 2) 5 0 == 0 && dhalf d 52 == 0 && dword d 7 == 0) .range
    , need (2 ≤ rank && rank ≤ 4 && shape) .range
    , need (1 ≤ x.halfRows && x.halfRows ≤ 4096 && nearOk && x.nearRow + 2 * x.halfRows ≤ bufRows x.nearBuf) .range
    , need (x.unit != 0) .range
    , if stackKind then need (rank == 2 && x.ext.getD 1 0 == 1 && x.far == 0 && x.stride.all (· == 0) && own) .range
      else firstFail [need (space ≤ 3 && (own || x.farTop < 3 * 2 ^ 44) && x.far % 512 == 0) .range, need (x.stack == 0) .range]
    , need (!x.cache || x.dir == 0) .range
    , need (!x.cache || (own && s.farOfDie x (coreDie k))) .range ]

/-- The checks of an ARM against the memory bound to its lease, the fabric to another unit, the stack it names and the channels of its core (06 R232, R245, R246, 11 R434). -/
def State.armState (s : State) (k lease ch : Nat) (d : List Word) : Option Status :=
  let c := s.core k
  let x := streamDesc d
  let me := c.chan ch
  let stackKind := x.dir == 2 || x.dir == 3
  let cfg := astkCfg (coreDie k) x.stack
  let overlaps := fun (o : Chan) => (match o.cur with | some y => y.d.pair.meets x.pair | none => false) || (match o.pend with | some y => y.d.pair.meets x.pair | none => false)
  let ref : Option StreamDesc := (match me.cur with | some y => some y.d | none => if me.halves.isEmpty then none else me.last.map (·.d))
  let pairOk := fun (p : SbEntry) => !p.meets x.pair || (p.mem == x.nearBuf && p.row == x.nearRow && p.count == 2 * x.halfRows)
  let heldOk := match ref with
    | some y => y.loads == x.loads && pairOk y.pair
    | none => true
  let coord : Reg := ⟨.FAB_COORD, selSv0, x.unit, 0⟩
  let fabric := s.fld ⟨.FAB_CFG, selSv0, 0, 0⟩ FAB_CFG.ENABLE == 1 && s.fld coord FAB_COORD.VALID == 1
  firstFail
    [ if stackKind then none else if !s.ownUnit x.unit then need fabric .range else s.findSpan (some lease) x.far (x.farTop + 511)
    , need (!stackKind || s.fld cfg ASTK_CFG.LEASE == lease) .range
    , need (c.chans.all (fun p => p.1 == ch || !overlaps p.2)) .range
    , need heldOk .range
    , need (!(me.cur.isSome && me.pend.isSome)) .rearmPending
    , need (!stackKind || s.fld cfg ASTK_CFG.ENABLE == 1) .state ]

/-- Whether a channel has rows for which a half may still be released (06 R237). -/
def Chan.releasable (k : Chan) : Bool :=
  let rows := fun (x : Xfer) => if x.d.loads then x.formed < x.total else x.handed < x.total
  k.halves.any (fun h => h.rel.isNone && (match k.cur with | some x => x.d.loads | none => true)) ||
    (match k.cur with | some x => rows x | none => false) || (match k.pend with | some x => rows x | none => false)

/-- The status with which a table row of an AWL fails the checks of an address (06 R261, 01 R32-R34): the rows of the table, which leave no whole page between them where their stride is below a page. -/
def State.tableCheck (s : State) (lease : Nat) (a : AwlDesc) : Option Status :=
  let at' := fun (r : Nat) => a.tableBase + 64 * (r * a.stride)
  if 64 * (a.stride - a.span) < 2097152 then s.findSpan (some lease) (at' 0) (at' (a.tableRows - 1) + 64 * a.span - 1)
  else (List.range a.tableRows).findSome? (fun r => s.findSpan (some lease) (at' r) (at' r + 64 * a.span - 1))

/-- The checks of an AWL (06 R261). -/
def State.awlCheck (s : State) (lease : Nat) (d : List Word) : Option Status :=
  let a := awlDesc d
  let isp := bits a.indexBase 47 44
  let tsp := bits a.tableBase 47 44
  let nearOk := if a.scatter then a.nearBuf == 2 else a.nearBuf == 0 || (2 ≤ a.nearBuf && a.nearBuf ≤ 6)
  firstFail
    [ need (dVersion d == 3 && !a.resv) .range
    , need (a.indexBase % 512 == 0 && (isp == 2 || isp == 3) && a.tableBase % 64 == 0 && tsp ≤ 2) .range
    , need (1 ≤ a.count && a.count ≤ 65536 && 1 ≤ a.tableRows && a.span ≤ a.stride && 1 ≤ a.span && a.span ≤ 512 && nearOk) .range
    , need (a.nearRow + ceilDiv (a.count * a.span) 8 ≤ bufRows a.nearBuf) .range
    , need (!a.scatter || tsp ≤ 1) .range
    , s.tableCheck lease a
    , s.findSpan (some lease) a.indexBase (a.indexBase + 4 * a.count - 1) ]

/-- The checks of a stream-slot operation of engine e (06 R232, R237, R261). -/
def State.checkStrm (s : State) (k lease e w : Nat) : Option Status :=
  let c := s.core k
  let h := opf w 63 48
  let ch := 8 * e + opf w 6 4
  let d := c.descOf h
  match opf w 3 0 with
  | 1 => firstFail [strmOwn w, need (dGen d == hGen h) .staleHandle, s.armContents k d, s.armState k lease ch d]
  | 2 => firstFail [strmOwn w, need (c.chan ch).releasable .state]
  | _ => firstFail [strmOwn w, need (dGen d == hGen h) .staleHandle, s.awlCheck lease d]

/-- The bundles of a loop body as far as they are fetched: the bundles, and the words they take (04 R132). -/
def Kernel.body (k : Kernel) : Nat → Nat → List Bundle × Nat
  | 0, _ => ([], 0)
  | n + 1, pos => match k.bundleAt pos with
    | none => ([], 0)
    | some b => let r := k.body n (pos + max 1 b.len); (b :: r.1, r.2 + max 1 b.len)

/-- The refusals of loops nested in a body (04 R132): an END, a fifth level, or a body that runs past its enclosing one. `st` holds what is left of the enclosing bodies, innermost first. -/
def nestCheck : List Bundle → List Nat → Option Status
  | [], _ => none
  | b :: t, st =>
    let st' := (st.map (· - 1)).filter (· != 0)
    if b.isEnd then some .range
    else if b.has 8 && b.code 8 == 1 then
      let m := opf (b.op 8) 15 4
      if 4 ≤ st'.length || m == 0 || (st.headD 0 ≤ m) then some .range else nestCheck t (m :: st')
    else nestCheck t st'

/-- Whether a LOOP's body has been fetched whole, or 16 KiB of it without its end (04 R132). -/
def Kernel.loopFetched (k : Kernel) (b : Bundle) : Bool :=
  let n := opf (b.op 8) 15 4
  let p := k.pos + max 1 b.len
  let r := k.body n p
  r.1.length == n || 2048 ≤ k.fbase + k.fetched.length - p

/-- The checks of a SCAL operation (04 R131-R137, 06 R247). -/
def State.checkScal (s : State) (k : Nat) (q : Kernel) (b : Bundle) : Option Status :=
  let c := s.core k
  let w := b.op 8
  match opf w 3 0 with
  | 1 =>
    let n := opf w 15 4
    let r := q.body n (q.pos + max 1 b.len)
    let room := match q.loops with | [] => true | f :: _ => n ≤ f.left - 1
    firstFail
      [ scalOwn w
      , need (q.window == 0) .range
      , need (q.loops.length < 4 && room) .range
      , need (r.1.length == n && r.2 ≤ 2048) .range
      , nestCheck r.1 (n :: (q.loops.map (·.left))) ]
  | 6 =>
    firstFail
      [ scalOwn w
      , need (q.window == 0) .range
      , need (c.chans.all (fun p => p.2.pend.isNone && (match p.2.cur with
          | some x => if x.d.loads then x.formed == x.total else x.handed == x.total
          | none => true))) .state ]
  | _ => scalOwn w

/-- The core a SYNC operation names (04 R168). -/
def syncTarget (k w : Nat) : Nat := if opf w 4 4 == 1 then coreKey (opf w 6 5) (opf w 13 7) else k

/-- The checks of a SYNC operation (04 R168, R169). -/
def State.checkSync (s : State) (k lease w : Nat) : Option Status :=
  firstFail
    [ syncOwn w
    , need (s.exposed (coreDie (syncTarget k w)) (coreNum (syncTarget k w))) .engineAbsent
    , need (s.boundTo (syncTarget k w) lease) .range ]

/-- What an operation's own fields decide of slot j of a bundle (04 R117, R120): its operation code, its reserved fields and its encoding ranges. -/
def Bundle.own (b : Bundle) (j : Nat) : Option Status :=
  let w := b.op j
  if b.code j == 0 || slotMaxOp j < b.code j then some .range
  else if j < 4 then
    if b.code j == 1 then wldOwn w else firstFail [passOwn w, passPorts w (((List.range j).filter (fun i => b.has i && b.code i == 2)).map b.op)]
  else if j == 4 then elemOwn w
  else if j == 5 then vec1Own w
  else if j < 8 then strmOwn w
  else if j == 8 then scalOwn w
  else syncOwn w

/-- The check of slot j of a bundle (04 R117, R120): its operation code, then the operation's own checks. -/
def State.checkSlot (s : State) (k : Nat) (q : Kernel) (b : Bundle) (j : Nat) : Option Status :=
  let w := b.op j
  if b.code j == 0 || slotMaxOp j < b.code j then some .range
  else if j < 4 then
    if b.code j == 1 then s.checkWld k q.lease w
    else s.checkPass k j w (((List.range j).filter (fun i => b.has i && b.code i == 2)).map b.op)
  else if j == 4 then s.checkElem k w
  else if j == 5 then s.checkVec1 k w
  else if j < 8 then s.checkStrm k q.lease (j - 6) w
  else if j == 8 then s.checkScal k q b
  else s.checkSync k q.lease w

/-- The first failed check of a bundle and its slot, 15 for the header (04 R117, R120, R165). -/
def State.checkBundle (s : State) (k : Nat) (q : Kernel) (b : Bundle) : Option (Status × Nat) :=
  if !b.headerOk then some (.range, 15)
  else ((List.range 10).filter b.has).findSome? (fun j => (s.checkSlot k q b j).map (fun st => (st, j)))

/-! Descriptors a bundle names (04 R145). -/

/-- The handles slot j of a bundle names directly. -/
def Bundle.handle (b : Bundle) (j : Nat) : List Nat :=
  if !b.has j then [] else if j < 4 || j == 5 || ((j == 6 || j == 7) && b.code j != 2) then [bits (b.op j) 63 48] else []

/-- The INDEX values a bundle needs cached: of its handles and of the companions its cached tensor descriptors name. -/
def Core.needed (c : Core) (b : Bundle) : List Nat :=
  let hs := ((List.range 10).map b.handle).flatten
  let auxs := hs.filterMap (fun h => match c.desc (hIndex h) with
    | some d => if dVersion d == 1 && dGen d == hGen h then some (tensorDesc d).aux else none
    | none => none)
  ((hs ++ auxs).map hIndex).filter (· != 0)

/-- INDEX values a bundle needs that are not cached. -/
def Core.missing (c : Core) (b : Bundle) : List Nat := (c.needed b).filter (fun i => (c.desc i).isNone)

/-! Waits (04 R119). -/

/-- Whether a WLD waits (03 R95, 05 R199, 06 R236): for a load in progress on the same array, and for its rows. -/
def Core.waitsWld (c : Core) (t a w : Nat) : Bool :=
  let d := tensorDesc (c.descOf (opf w 63 48))
  let wide := c.wideDesc d
  let e : SbEntry := ⟨3 + a, opf w 47 41, wldRows d.fmt (wldDepth d.fmt (opf w 5 4) wide) (opf w 40 39) d.transpose wide, false, 3⟩
  (c.arr a).loads.any (fun l => t < l.due) || c.pairLocked e

/-- The row range a WLD reads. -/
def Core.wldRange (c : Core) (a w : Nat) : SbEntry :=
  let d := tensorDesc (c.descOf (opf w 63 48))
  let wide := c.wideDesc d
  ⟨3 + a, opf w 47 41, wldRows d.fmt (wldDepth d.fmt (opf w 5 4) wide) (opf w 40 39) d.transpose wide, false, 3⟩

/-- The row range a PASS reads (03 R74, 08 R307). -/
def Core.passRange (c : Core) (a w : Nat) : SbEntry :=
  let d := tensorDesc (c.descOf (opf w 63 48))
  let depth := ((((c.arr a).tiles (opf w 19 18)).headD none).map (·.depth)).getD 64
  ⟨0, opf w 47 40, blockRows (opf w 39 34 + 1) depth d.fmt d.transpose, false, 3⟩

/-- Whether a PASS waits (03 R85-R88, R95, 06 R236): its port or array half is held, a load to its half is in progress, or an issued vector operation still uses its slot. -/
def Core.waitsPass (c : Core) (t a w : Nat) : Bool :=
  let half := opf w 19 18
  let m := c.arr a
  let port := opf w 15 15
  c.arrays.any (fun p => p.2.passes.any (fun q => q.holds t && (q.port == port || (p.1 == a && halvesMeet q.half half)))) ||
    m.loads.any (fun l => halvesMeet l.half half) || c.slotInVec t (passSlot a w) || c.pairLocked (c.passRange a w)

/-- Whether a vector operation waits for its slots' passes, its pipeline or a pair (03 R88, R97, 06 R236, 10 R395). -/
def Core.waitsVec (c : Core) (t : Nat) (v : VecRun) (pipe : Nat) : Bool :=
  let slots := v.readSlots ++ v.oSlots
  t < (if pipe == 0 then c.busyVec0 else c.busyVec1) || slots.any c.slotInPass || v.ranges.any c.pairLocked ||
    (match v.kind with | .soft .. => slots.any (c.slotInVec t) | _ => false)

/-- The transfer of a store channel whose rows are handed over next: the running one, or once it has handed over all of its rows the pending re-arm (06 R237). -/
def Chan.giver (k : Chan) : Option Xfer := k.cur.bind (fun x => if x.handed == x.total then k.pend else some x)

/-- The half that a transfer's next row to be handed over lies in (06 R230, R237). -/
def Xfer.givesFrom (x : Xfer) : Nat := (x.first + x.handed / max 1 x.d.halfRows) % 2

/-- The fill a load channel's REL acts on, or the store half to be handed over, waits (06 R237). -/
def Chan.relWaits (k : Chan) : Bool :=
  let isLoad := match k.cur with | some x => x.d.loads | none => (match k.pend with | some x => x.d.loads | none => true)
  if isLoad then
    match k.halves.find? (fun h => h.rel.isNone) with
    | some h => h.st != 2
    | none => true
  else
    match k.giver with
    | some x => k.halves.any (fun y => y.buf == x.d.nearBuf && y.row == x.d.halfRow x.givesFrom)
    | none => true

/-- The row ranges an AWL names (06 R262). -/
def awlRanges (k : Nat) (d : List Word) : List SbEntry :=
  let a := awlDesc d
  awlEntries (listMem k a.indexBase) a.indexBase a.count a.span a.nearBuf a.nearRow a.scatter

/-- Whether a WAIT sees a flag set: since an earlier cycle (04 R172). -/
def Core.sees (c : Core) (clock f : Nat) : Bool :=
  c.flags.contains f && (match tget? c.setAt f with | some (t, was) => t < clock || was | none => true)

/-- Whether slot j of a bundle waits for anything but the scoreboard. -/
def State.waitsSlot (s : State) (k t : Nat) (q : Kernel) (b : Bundle) (j : Nat) : Bool :=
  let c := s.core k
  let w := b.op j
  if !b.has j then false
  else if j < 4 then (if b.code j == 1 then c.waitsWld t j w else c.waitsPass t j w)
  else if j == 4 then c.waitsVec t (elemRun w t 0 0) 0
  else if j == 5 then c.waitsVec t (c.vec1Run w t 0 0) 1
  else if j < 8 then
    match b.code j with
    | 2 => (c.chan (8 * (j - 6) + opf w 6 4)).relWaits
    | 3 => 16 < c.awl.length + ((List.range 2).filter (fun e => b.has (6 + e) && b.code (6 + e) == 3)).length || (awlRanges k (c.descOf (opf w 63 48))).any c.pairLocked
    | _ => false
  else if j == 8 then b.code j == 1 && !q.loopFetched b
  else (b.code j == 3 || b.code j == 4) && !c.sees s.coreClock (opf w 23 14)

/-- The scoreboard entries a bundle takes (05 R198, R200). -/
def Core.bundleRanges (c : Core) (k : Nat) (b : Bundle) : List SbEntry :=
  ((List.range 10).map (fun j =>
    let w := b.op j
    if !b.has j then []
    else if j < 4 then (if b.code j == 1 then [c.wldRange j w] else [c.passRange j w])
    else if j == 4 then (elemRun w 0 0 0).ranges
    else if j == 5 then (c.vec1Run w 0 0 0).ranges
    else if (j == 6 || j == 7) && b.code j == 3 then awlRanges k (c.descOf (opf w 63 48))
    else [])).flatten

/-- Whether a bundle waits at issue (04 R119, 05 R199, R200). -/
def State.waitsBundle (s : State) (k t : Nat) (q : Kernel) (b : Bundle) : Bool :=
  (List.range 10).any (s.waitsSlot k t q b) || !(s.core k).clear t ((s.core k).bundleRanges k b)

/-- Whether the only wait of a bundle's SYNC slot is its flag (04 R159: STATE WAITING). -/
def State.waitsFlag (s : State) (k : Nat) (b : Bundle) : Bool :=
  b.has 9 && (b.code 9 == 3 || b.code 9 == 4) && !(s.core k).sees s.coreClock (opf (b.op 9) 23 14)

end Sys2Proof.Machine
end

