-- ==== Sys2Proof/Machine/Issue.lean ====
section
/-! DEFINITION. Issue of a bundle, its refusal, and its consumption (04 R114-R120, R132, R135, R145, R157, R164, R181). Each slot operation of a bundle is one command; the first one makes the checks and waits of the whole bundle, and the last one consumes it
(log 9). -/
namespace Sys2Proof.Machine

/-- A register of ring i of CDd (04 R149). -/
def ringReg (n : RegName) (d i : Nat) : Reg := ⟨n, selCd d, i, 0⟩

/-- STATE of a ring as stored: 3 RUNNING, 4 WAITING, 5 STOPPED, 6 FAULTED, 7 UNDERRUN, or 0 where it follows from ENABLE and the produced bundles (04 R159). -/
def State.ringStored (s : State) (d i : Nat) : Nat := s.fld (ringReg .RING_STATUS d i) RING_STATUS.STATE

/-- Produced bundles not yet consumed (04 R157). -/
def State.ringDepth (s : State) (d i : Nat) : Nat :=
  (s.fld (ringReg .RING_PROD d i) RING_PROD.PRODUCED + 2 ^ 32 - s.fld (ringReg .RING_CONS d i) RING_CONS.CONSUMED) % 2 ^ 32

/-- A ring faulted with a status at a bundle and slot (04 R164, R165). -/
def State.faultRing (s : State) (d i : Nat) (st : Status) (bundle slot : Nat) : State :=
  let r := ringReg .RING_STATUS d i
  let s := (s.setFld r RING_STATUS.STATE 6).setFld r RING_STATUS.FAULT_STATUS (code st)
  let s := s.setFld r RING_STATUS.WAIT_FLAG 0
  let s := s.setFld (ringReg .RING_CFG d i) RING_CFG.ENABLE 0
  let f := ringReg .RING_FAULT_AT d i
  (s.setFld f RING_FAULT_AT.BUNDLE (bundle % 2 ^ 32)).setFld f RING_FAULT_AT.SLOT slot

/-- A core's channels form no further requests and drop pending re-arms (04 R164, 06 R247). -/
def Core.stopChans (c : Core) : Core :=
  { c with chans := c.chans.map (fun p => (p.1, { p.2 with pend := none, stopped := p.2.cur.isSome })) }

/-- As for the channels; the Awl threads form no further piece requests either (04 R164). -/
def Core.stopEngines (c : Core) : Core :=
  { c.stopChans with awl := (c.awl.filter (fun p => p.2.outstanding != 0)).map (fun p => (p.1, { p.2 with stopped := true })) }

/-- A bundle of the running kernel refused: no further bundle issues, the engines stop, and the ring faults (04 R164). -/
def State.refuse (s : State) (k : Nat) (st : Status) (bundle slot : Nat) : State :=
  match (s.core k).kernel with
  | none => s
  | some q =>
    if q.refusal.isSome then s
    else
      let s := s.onCore k (fun c => { c.stopEngines with kernel := some { q with refusal := some (st, bundle, slot), ended := true } })
      s.faultRing (coreDie k) q.ring st bundle slot

/-- Loop frames after `n` bundles of the innermost body have issued, and the position of the next bundle (04 R132). -/
def unwind : List LoopFrame → Nat → Nat → List LoopFrame × Nat
  | [], _, p => ([], p)
  | f :: t, n, p =>
    if n < f.left then ({ f with left := f.left - n } :: t, p)
    else if 0 < f.iters then ({ f with left := f.body, iters := f.iters - 1 } :: t, f.start)
    else unwind t f.body p

/-- Where the next bundle lies once a bundle has issued; `loops`: it was a LOOP that took effect. -/
def Kernel.after (q : Kernel) (b : Bundle) (loops : Bool) : List LoopFrame × Nat :=
  let p := q.pos + max 1 b.len
  if loops then
    let n := opf (b.op 8) 15 4
    let up := match q.loops with | [] => [] | f :: t => { f with left := f.left - 1 } :: t
    (⟨p, n, n, opf (b.op 8) 31 16⟩ :: up, p)
  else unwind q.loops 1 p

/-- The next bundle consumed: counted, its words freed, the loop stack, window and prefix advanced (04 R132, R135, R157, R181). `squashed`: it issued as an empty bundle; a PRED in it starts a new window all the same (R135). DESIGN CHOICE (log 44): a prefix kernel whose
N-th issued bundle is its END has reached its END and completes normally, with no dump and without STOPPED; R181 names both cases and does not say which it is. DESIGN CHOICE (log 44): with N 0, its reset value, which lies outside its range, a prefix is never cut (R179). -/
def State.consume (s : State) (k : Nat) (b : Bundle) (squashed : Bool) : State :=
  match (s.core k).kernel with
  | none => s
  | some q =>
    let d := coreDie k
    let live := !squashed
    let lp := q.after b (live && b.has 8 && b.code 8 == 1)
    let pred := b.has 8 && b.code 8 == 4
    let first := q.high ≤ q.pos
    let cons := ringReg .RING_CONS d q.ring
    let s := if first then (s.count cons RING_CONS.CONSUMED 1).count cons RING_CONS.HEAD (max 1 b.len) else s
    let idx := q.idx + 1
    let cut := !q.ended && q.prefixLen == some idx
    let q' := { q with
      idx := idx, pos := lp.2, high := if first then q.pos + max 1 b.len else q.high, loops := lp.1
      window := if pred then (if live then q.window else opf (b.op 8) 13 4) else q.window - 1, squash := if pred && !live then !q.pred else q.squash, slots := 0, admitted := false
      lastIssue := some (s.ctime k), ended := q.ended || cut, stopped := q.stopped || cut, waitSince := none }
    let s := s.onCore k (fun c => let c := { c with kernel := some q' }; if cut then c.stopChans else c)
    let st := ringReg .RING_STATUS d q.ring
    let dry := s.fld cons RING_CONS.CONSUMED == s.fld (ringReg .RING_PROD d q.ring) RING_PROD.PRODUCED && !q'.ended
    if s.fld st RING_STATUS.STATE == 6 then s
    else if dry then if s.fld st RING_STATUS.STATE == 7 then s else (s.setFld st RING_STATUS.STATE 7).setW1c st RING_STATUS.UNDERRUN_SEEN
    else (s.setFld st RING_STATUS.STATE 3).setFld st RING_STATUS.WAIT_FLAG 0

/-- Descriptor fills started for INDEX values not cached (04 R134, R145); each takes 48 cycles. -/
def Core.startFills (c : Core) (t : Nat) (ixs : List Nat) : Core :=
  ixs.foldl (fun c i => if (c.desc i).isSome || c.fills.any (fun f => f.index == i) then c
    else { c with fills := c.fills ++ [⟨i, t + 48, none⟩] }) c

/-- Cached descriptors a bundle names become the most recently used (04 R145). -/
def Core.touch (c : Core) (ixs : List Nat) : Core :=
  ixs.foldl (fun c i => match c.dcache.find? (fun p => p.1 == i) with
    | some p => { c with dcache := p :: c.dcache.filter (fun x => x.1 != i) }
    | none => c) c

/-- Whether a core may issue in this cycle: a kernel runs and has not ended before the bundle that is being issued, the core is not frozen, its first bundle's cycle has come, and its next bundle is a repeat of a loop body or one made available by PRODUCED (03 R109, 04 R154, R159, R161). -/
def State.mayIssue (s : State) (k : Nat) : Option (Kernel × Bundle) :=
  match (s.core k).kernel with
  | none => none
  | some q =>
    if (q.ended && !q.admitted) || s.frozen k || s.ctime k < q.startAt || (q.high ≤ q.pos && s.ringDepth (coreDie k) q.ring == 0) then none
    else q.bundle.map (fun b => (q, b))

/-- What admission of the next bundle decides (04 R119, R120): the bundle is admitted, is refused, or waits with what the wait does to the state. -/
inductive Admit where
  | go
  | no (st : Status) (slot : Nat)
  | wait (s : State)

/-- Whether a bundle lies in a squashed window (04 R135). -/
def Kernel.squashed (q : Kernel) : Bool := q.squash && 0 < q.window

/-- Whether a bundle carries LOOP or END. -/
def Bundle.loopOrEnd (b : Bundle) : Bool := b.has 8 && (b.code 8 == 1 || b.code 8 == 6)

/-- The checks of a bundle in a squashed window (04 R117, R120, R135): its header; of each operation what its own fields decide, its reserved fields among them; a LOOP or END, which no window may hold; and the core that a SYNC names (R120 step 5, 15 R550).
DESIGN CHOICE (log 44): its handles, descriptors and state are not checked, since it issues as an empty bundle. -/
def State.squashCheck (s : State) (k : Nat) (b : Bundle) : Option (Status × Nat) :=
  if !b.headerOk then some (.range, 15)
  else ((List.range 10).filter b.has).findSome? (fun j =>
    let t := syncTarget k (b.op j)
    (firstFail [b.own j, need (j != 8 || !b.loopOrEnd) .range, need (j != 9 || s.exposed (coreDie t) (coreNum t)) .engineAbsent]).map (fun st => (st, j)))

/-- Admission of the next bundle. -/
def State.admission (s : State) (k : Nat) (q : Kernel) (b : Bundle) : Admit :=
  let t := s.ctime k
  let c := s.core k
  if q.lastIssue == some t then .wait s
  else if q.squashed then (match s.squashCheck k b with | some (st, j) => .no st j | none => .go)
  else if !b.headerOk then .no .range 15
  else if c.missing b != [] then .wait (s.setCore k (c.startFills t (c.missing b)))
  else if b.has 8 && b.code 8 == 1 && !q.loopFetched b then .wait s
  else match s.checkBundle k q b with
    | some (st, sl) => .no st sl
    | none =>
      if s.waitsBundle k t q b then
        if s.waitsFlag k b then
          let r := ringReg .RING_STATUS (coreDie k) q.ring
          let s := s.onCore k (fun c => { c with kernel := some { q with waitSince := some (q.waitSince.getD s.now) } })
          .wait ((s.setFld r RING_STATUS.STATE 4).setFld r RING_STATUS.WAIT_FLAG (opf (b.op 9) 23 14))
        else .wait s
      else .go

/-- The bundle admitted: its descriptors become the most recently used. -/
def State.admitted (s : State) (k : Nat) (q : Kernel) (b : Bundle) : State :=
  s.onCore k (fun c => { c.touch (c.needed b) with kernel := some { q with admitted := true } })

/-- Slot `j` of the next bundle noted as issued; the last one consumes the bundle. -/
def State.slotDone (s : State) (k j : Nat) (b : Bundle) : State :=
  match (s.core k).kernel with
  | none => s
  | some q =>
    let m := setBit q.slots j true
    let s := s.onCore k (fun c => { c with kernel := some { q with slots := m } })
    if m == b.present then s.consume k b false else s

/-- Every REL of a core that has come due takes effect (06 R237). -/
def State.settle (s : State) (k : Nat) : State :=
  let c := s.core k
  let c' := c.settle (s.ctime k)
  if c'.chans == c.chans then s else s.setCore k c'

/-- One operation of the next bundle, in slot order (log 9): slot `j` with code `op` and effect `eff` of the kernel and the operation word. An END or PRED in slot 8 leaves the SYNC of its own bundle to issue with it (04 R119). Where the bundle may not issue now, or carries no such operation, nothing changes. -/
def State.issue (s : State) (k j op : Nat) (eff : Kernel → Nat → State → State) : State :=
  match s.mayIssue k with
  | none => s
  | some (q, b) =>
    if !b.has j || b.code j != op || bitAt q.slots j || (q.squashed && !q.admitted) || (List.range j).any (fun i => b.has i && !bitAt q.slots i) then s
    else if q.admitted then (eff q (b.op j) s).slotDone k j b
    else
      let s := s.settle k
      match s.admission k q b with
      | .wait s' => s'
      | .no st sl => s.refuse k st q.idx sl
      | .go => (eff q (b.op j) (s.admitted k q b)).slotDone k j b

/-- The place of an operation issued now in its core's order of writes, and the core after it (04 R171). -/
def Core.nextSeq (c : Core) : Nat × Core := (c.opSeq, { c with opSeq := c.opSeq + 1 })

end Sys2Proof.Machine
end

