-- ==== Sys2Proof/Machine/Tensor.lean ====
section
/-! DEFINITION. The matrix arrays (03 R73-R104, 08 R305-R307, 10 R383-R384): weight loads, passes and their release. -/
namespace Sys2Proof.Machine

/-! Weight loads. -/

/-- Column n's element codes of an untransposed tile image whose bytes are `l`, with columns of `c` bytes of elements of `w` bits (03 R73). -/
def imageCol (l : List Byte) (c w depth n : Nat) : List Nat := unpackCodes w depth ((l.drop (c * n)).take c)

/-- Column n of a transposed stored tile of 16-bit elements: element n of each of the 64 stored lines (08 R306). -/
def lineCol (l : List Byte) (n : Nat) : List Nat := (List.range 64).map (fun k => leNat ((l.drop (128 * k + 2 * n)).take 2))

/-- Codes of a column widened to QFMT (10 R384): exact in range, else rounded to nearest even. -/
def widenCol (src dst : Nat) (scales : List Nat) (codes : List Nat) : List Nat :=
  match fmtOf src, fmtOf dst with
  | some f, some q => (List.range codes.length).map (fun i => (convVal q false false 0 (mxVal f (scales.getD (i / 32) 0x7F) (codes.getD i 0))).code)
  | _, _ => codes

/-- Which halves (bit 0 lower, bit 1 upper) a damaged word of row r of a WLD's image describes (03 R100): `er` element rows, half selection `half`, `sb` scale bytes of a column; `w` the word, or none for a row stored poisoned. -/
def wldHalves (half er sb : Nat) (transposed : Bool) (r : Nat) (w : Option Nat) : Nat :=
  if half != 0 then half
  else match w with
    | none => if r < er && !transposed then (if r < er / 2 then 1 else 2) else 3
    | some x =>
      if transposed then (if x % 4 < 2 then 1 else 2)
      else if r < er then (if r < er / 2 then 1 else 2)
      else if 32 * x < 32 * sb then 1 else if 32 * x < 64 * sb then 2 else 0

/-- POISON_MAP bits of halves of array `a` (03 R106). -/
def mapBits (a halves : Nat) : Nat := halves * 4 ^ a

/-- The rows of a WLD read in order, one a cycle from core cycle t, with the halves poisoned by them (03 R77, R99, R100, R105, R108). -/
def State.wldRead (s : State) (k a bundle t row half er sb : Nat) (transposed : Bool) : Nat → State × List (List Byte) × Nat
  | 0 => (s, [], 0)
  | n + 1 =>
    let p := s.wldRead k a bundle t row half er sb transposed n
    let r := p.1.readRaw k (3 + a) (row + n) (fun _ => true)
    let hs := r.bad.foldl (fun m w => m ||| wldHalves half er sb transposed n (some w)) (if r.stored then wldHalves half er sb transposed n none else 0)
    let s := if r.corr then r.s.correctAt k (t + n) else r.s
    let s := if r.fresh then s.coreEvent k (3 + a) (row + n) bundle (mapBits a hs) else s
    (s, p.2.1 ++ [r.img.bytes], p.2.2 ||| hs)

/-- The tile of one half from the bytes a WLD read: columns from `first` (03 R73, R77, 08 R306, 10 R384). -/
def halfTile (t : TensorDesc) (wide : Option PlaneDesc) (depth : Nat) (elems scaleRow : List Byte) (first fileCol : Nat) (poison : Bool) : Tile :=
  let w := fmtWidth t.fmt
  let c := depth * w / 8
  let sb := depth / 32
  let scale := fun n => if fmtMx t.fmt then ((scaleRow.drop (sb * n)).take sb).map (·.toNat) else []
  let cols := (List.range 32).map (fun j => if t.transpose then lineCol elems (first + j) else imageCol elems c w depth (fileCol + j))
  let scs := (List.range 32).map (fun j => scale (fileCol + j))
  match wide with
  | some p => ⟨p.qfmt, depth, (List.range 32).map (fun j => widenCol t.fmt p.qfmt (scs.getD j []) (cols.getD j [])), List.replicate 32 [], poison⟩
  | none => ⟨t.fmt, depth, cols, scs, poison⟩

/-- A WLD starts: its rows are read, and the load completes one cycle per row later (03 R76-R78, 08 R306, 10 R384). DESIGN CHOICE (log 37): a widening load whose value lies beyond QFMT's range loads an infinity (10 R384) and sets no bit of CORE_FMT_EVENTS; 02 R57 sets OVF_NONFINITE for an overflow under R55, and no rule says whether this is one. -/
def State.startLoad (s : State) (k a : Nat) (q : Kernel) (w : Nat) : State :=
  let c := s.core k
  let t := tensorDesc (c.descOf (opf w 63 48))
  let wide := c.wideDesc t
  let half := opf w 40 39
  let depth := wldDepth t.fmt (opf w 5 4) wide
  let er := wldElemRows t.fmt depth half t.transpose wide
  let n := wldRows t.fmt depth half t.transpose wide
  let row := opf w 47 41
  let now := s.ctime k
  let r := s.wldRead k a q.idx now row half er (depth / 32) t.transpose n
  let elems := (r.2.1.take er).flatten
  let scaleRow := (r.2.1.drop er).headD []
  let ev := fmtMx t.fmt && (scaleRow.take (if half == 0 then 2 * depth else depth)).any (· == 0xFF#8)
  let lo := halfTile t wide depth elems scaleRow 0 0 (bitAt r.2.2 0)
  let up := halfTile t wide depth elems scaleRow 32 (if half == 0 then 32 else 0) (bitAt r.2.2 1)
  let load : Load := ⟨half, row, n, now + n, if half == 2 then none else some lo, if half == 1 then none else some up⟩
  let s := r.1.onCore k (fun c => c.setArr a { c.arr a with loads := (c.arr a).loads ++ [load] })
  if ev then s.setW1c ⟨.CORE_FMT_EVENTS, selCd (coreDie k), coreNum k, 0⟩ CORE_FMT_EVENTS.SCALE_NAN else s

/-- WLD (03 R76). -/
def execWld (c : CoreId) (ma : Fin 4) (s : State) : Host.Outcome State Fault Refusal := s.live fun s =>
  .next (s.issue (ckey c) ma.val 1 (fun q w s => s.startLoad (ckey c) ma.val q w))

/-- The half selection a half name stands for. -/
def halfSel : Half → Nat
  | .lower => 1
  | .upper => 2

/-- The first load in progress that touches a half, once it is due and no pass still waits for the tile it replaces (03 R77, R79, R87). -/
def MatArray.dueLoad (m : MatArray) (t half : Nat) : Option Load :=
  m.loads.find? (fun l => halvesMeet l.half half && l.due ≤ t && !m.passes.any (fun p => p.next == 0 && halvesMeet p.half l.half))

/-- A completed load's tiles in the shadow registers, replacing earlier ones (03 R79). -/
def MatArray.loaded (m : MatArray) (l : Load) : MatArray :=
  { m with
    shadowL := l.lower.orElse (fun _ => m.shadowL)
    shadowU := l.upper.orElse (fun _ => m.shadowU)
    loads := m.loads.erase l }

/-- WLD_COMPLETE (03 R79): the load in progress on the half; a whole-tile load completes both halves. -/
def execWldComplete (c : CoreId) (ma : Fin 4) (h : Half) (s : State) : Host.Outcome State Fault Refusal := s.live fun s =>
  let k := ckey c
  if s.frozen k then .next s
  else match ((s.core k).arr ma.val).dueLoad (s.ctime k) (halfSel h) with
    | none => .next s
    | some l => .next (s.onCore k (fun x => x.setArr ma.val ((x.arr ma.val).loaded l)))

/-! Passes. -/

/-- A register of a core's window. -/
def coreReg (n : RegName) (k : Nat) (j : Nat := 0) : Reg := ⟨n, selCd (coreDie k), coreNum k, j⟩

/-- A PASS starts: port, half and slot are claimed and the mask pair is latched (03 R80-R82, R85, R90). -/
def State.startPass (s : State) (k a : Nat) (q : Kernel) (w : Nat) : State :=
  let c := s.core k
  let t := tensorDesc (c.descOf (opf w 63 48))
  let n := opf w 27 24
  let port := opf w 15 15
  let run : PassRun :=
    { half := opf w 19 18, issued := s.ctime k, count := opf w 39 34 + 1, next := 0, fmt := t.fmt, row := opf w 47 40, transposed := t.transpose
      shift := opf w 33 28, neg := opf w 17 17 == 1, init := opf w 16 16 == 1, maskRow := (s.reg (coreReg .MA_MASK_ROW k n)).toNat
      maskCol := (s.reg (coreReg .MA_MASK_COL k n)).toNat, slot := passSlot a w, port := port, reads := [], bad := 0, bundle := q.idx, sums := [], added := 0 }
  s.onCore k (fun c => c.setArr a { c.arr a with passes := (c.arr a).passes ++ [run] })

/-- PASS (03 R80). -/
def execPass (c : CoreId) (ma : Fin 4) (s : State) : Host.Outcome State Fault Refusal := s.live fun s =>
  .next (s.issue (ckey c) ma.val 2 (fun q w s => s.startPass (ckey c) ma.val q w))

/-- The halves a pass feeds: bit 0 lower, bit 1 upper (03 R94). -/
def PassRun.halves (p : PassRun) : Nat := if p.half == 0 then 3 else p.half

/-- The shadow tiles of a pass's halves become active at its first broadcast (03 R79). -/
def MatArray.activate (m : MatArray) (p : PassRun) : MatArray :=
  let m := if bitAt p.halves 0 && m.shadowL.isSome then { m with activeL := m.shadowL, shadowL := none } else m
  if bitAt p.halves 1 && m.shadowU.isSome then { m with activeU := m.shadowU, shadowU := none } else m

/-- The active tile of half h. -/
def MatArray.active (m : MatArray) (h : Nat) : Option Tile := if h == 0 then m.activeL else m.activeU

/-- The depth a pass runs at: that of its active tile (03 R83). -/
def MatArray.passDepth (m : MatArray) (p : PassRun) : Nat := ((m.active (if bitAt p.halves 0 then 0 else 1)).map (·.depth)).getD 64

/-- The columns 0-31 of half h that a pass writes (03 R92). -/
def PassRun.cols (p : PassRun) (h : Nat) : List Nat := (List.range 32).filter (fun j => bitAt p.maskCol (32 * h + j))

/-- The halves a pass feeds in which it writes a column (03 R92). -/
def PassRun.written (p : PassRun) : Nat := p.halves &&& (flag (!(p.cols 0).isEmpty) + 2 * flag (!(p.cols 1).isEmpty))

/-- Halves the arrays fed by a pass's broadcast carry and write, as a POISON_MAP (03 R92, R101, R106). -/
def Core.broadcastMap (c : Core) (p : PassRun) : Nat :=
  c.arrays.foldl (fun m x => x.2.passes.foldl (fun m y => if y.bundle == p.bundle && y.port == p.port then m ||| mapBits x.1 y.written else m) m) 0

/-- Rows and words of the activation buffer that vector m of a pass reads (03 R74, 08 R307). -/
def PassRun.lines (p : PassRun) (depth m : Nat) : List (Nat × (Nat → Bool)) :=
  if p.transposed then (List.range 16).map (fun r => (p.row + r, fun w => w % 4 == m / 16))
  else
    let a := depth * fmtWidth p.fmt / 8
    let b0 := a * m
    let b1 := a * m + a - 1
    let el := (List.range (b1 / 512 + 1 - b0 / 512)).map (fun i =>
      let r := b0 / 512 + i
      (p.row + r, fun (w : Nat) => decide (b0 ≤ 512 * r + 32 * w + 31) && decide (512 * r + 32 * w ≤ b1)))
    let sb := depth / 32
    if fmtMx p.fmt then el ++ [(p.row + ceilDiv (p.count * a) 512, fun w => decide (sb * m / 32 ≤ w) && decide (w ≤ (sb * m + sb - 1) / 32))] else el

/-- What the reads of a vector find: the bytes of each row, and whether any read was poisoned. -/
structure VecRead where
  s : State
  rows : List (List Byte)
  poison : Bool

/-- The reads of a list of rows and words of the activation buffer in one cycle, in order; (03 R85, R105, R108). -/
def State.readList (s : State) (k bundle map : Nat) : List (Nat × (Nat → Bool)) → VecRead
  | [] => ⟨s, [], false⟩
  | (r, ws) :: t =>
    let q := s.readRaw k 0 r ws
    let s := if q.corr then q.s.freeze k else q.s
    let s := if q.fresh then s.coreEvent k 0 r bundle map else s
    let p := s.readList k bundle map t
    ⟨p.s, q.img.bytes :: p.rows, q.img.poison || p.poison⟩

/-- Whether two passes share one broadcast: of one bundle, on one port (03 R85). -/
def PassRun.sharesWith (p q : PassRun) : Bool := p.bundle == q.bundle && p.port == q.port

/-- The read of vector m of a pass, made once for every pass of its broadcast (03 R85, R101, R105): the one that another pass has made for it, else its own, kept for the others that have not come to the vector. -/
def State.readVector (s : State) (k : Nat) (p : PassRun) (depth m : Nat) : VecRead :=
  match p.reads.find? (fun r => r.vec == m && r.depth == depth) with
  | some r => ⟨s, r.rows, r.poison⟩
  | none =>
    let rd := s.readList k p.bundle ((s.core k).broadcastMap p) (p.lines depth m)
    let keep := fun (x : PassRun) => if x != p && x.sharesWith p && x.next ≤ m then { x with reads := x.reads ++ [⟨m, depth, rd.rows, rd.poison⟩] } else x
    { rd with s := rd.s.onCore k (fun c => { c with arrays := c.arrays.map (fun a => (a.1, { a.2 with passes := a.2.passes.map keep })) }) }

/-- The values of vector m from the rows read for it. -/
def PassRun.vector (p : PassRun) (depth m : Nat) (rows : List (List Byte)) : List FVal :=
  match fmtOf p.fmt with
  | none => []
  | some f =>
    if p.transposed then (List.range 64).map (fun l => decodeVal f (leNat (((rows.getD (l / 4) []).drop (128 * (l % 4) + 2 * m)).take 2)))
    else
      let a := depth * f.width / 8
      let el := (if f.mx then rows.dropLast else rows).flatten
      let codes := unpackCodes f.width depth ((el.drop (a * m % 512)).take a)
      let sb := depth / 32
      let sc := if f.mx then (((rows.getLast?).getD []).drop (sb * m)).take sb else []
      (List.range depth).map (fun i => mxVal f ((sc.getD (i / 32) 0x7F#8).toNat) (codes.getD i 0))

/-- The weights of column j of a tile. -/
def Tile.column (t : Tile) (j : Nat) : List FVal :=
  match fmtOf t.fmt with
  | none => []
  | some f =>
    let sc := t.scales.getD j []
    let cs := t.cols.getD j []
    (List.range t.depth).map (fun i => mxVal f (sc.getD (i / 32) 0x7F) (cs.getD i 0))

/-- Whether a vector is vector m of the identity block: 1.0 at place m and zero elsewhere (08, before R309). -/
def identityRow (m : Nat) (vec : List FVal) : Bool :=
  let one := fun (v : FVal) => match v with | .fin n _ _ => !n && !v.lt (val32 one32) && !(val32 one32).lt v | _ => false
  let zero := fun (v : FVal) => match v with | .fin _ 0 _ => true | _ => false
  (List.range 64).all (fun i => let v := vec.getD i (.fin false 0 0); if i == m then one v else zero v)

/-- Whether a pass is an identity pass (08, before R309): the 64 vectors of the identity block, of 16-bit elements in rows 0-15 of its block, as stored now, through untransposed stored lines with no mask. -/
def State.identityPass (s : State) (k : Nat) (p : PassRun) (depth : Nat) : Bool :=
  depth == 64 && p.count == 64 && !p.transposed && (p.fmt == 1 || p.fmt == 2) && p.maskRow == 2 ^ 64 - 1 &&
    (List.range 64).all (fun m => identityRow m (p.vector 64 m ((p.lines 64 m).map (fun r => s.mem.read (512 * bufRow k 0 r.1) 512))))

/-- The result of one column of a pass: the masked products summed, scaled and negated (03 R81, R91, 02 R48, R58, R63). In an identity pass a stored line that holds an infinity or a NaN gives NaN in every place, the infinity's own among them (08 R309; log 37). -/
def PassRun.column (p : PassRun) (depth : Nat) (ident : Bool) (vec col : List FVal) : F32 :=
  let ps := (List.range depth).filterMap (fun i =>
    if bitAt p.maskRow (i / (depth / 64)) then some ((vec.getD i (.fin false 0 0)).mul (col.getD i (.fin false 0 0))) else none)
  let line := col.any (fun v => match v with | .fin .. => false | _ => true) && ident
  let x := if line then nan32 else shift32 (passSum ps) (-(p.shift : Int))
  if p.neg then neg32 x else x

/-- Whether a pass with no poisoned read so far clears a poisoned half (03 R102). -/
def PassRun.clears (p : PassRun) (h : Nat) : Bool := p.init && p.count == 64 && (p.cols h).length == 32 && !bitAt p.bad h

/-- The words of its slot row that a pass writes for vector m in half h: those with a column it writes (03 R81, R92). -/
def PassRun.words (p : PassRun) (m h : Nat) : List Nat :=
  ((List.range 4).map (fun w => 8 * (m % 2) + 4 * h + w)).filter (fun w => (p.cols h).any (fun j => 8 * (m % 2) + 4 * h + j / 8 == w))

/-- The read of a read-modify-write of vector m's entries, and the halves in which it meets an uncorrectable word (03 R101, R105, R108): one read of both halves, one event. -/
def State.readEntries (s : State) (k a : Nat) (p : PassRun) (m : Nat) : State × Nat :=
  let ws := (if bitAt p.halves 0 then p.words m 0 else []) ++ (if bitAt p.halves 1 then p.words m 1 else [])
  if p.init || ws.isEmpty then (s, 0)
  else
    let row := 32 * p.slot + m / 2
    let r := s.readRaw k 1 row (fun w => ws.contains w)
    let half := fun (l : List Nat) => l.foldl (fun m w => m ||| (if w % 8 < 4 then 1 else 2)) 0
    let map := mapBits a (half (r.bad.filter (fun w => !s.slotBad k 1 row w)))
    let s := if r.corr then r.s.freeze k else r.s
    (if r.fresh then s.coreEvent k 1 row p.bundle map else s, half r.bad)

/-- A slot half becomes poisoned: its entries are zero (03 R98, R102). -/
def State.poisonSlot (s : State) (k slot h : Nat) : State :=
  if bitAt (s.core k).slotPoison (2 * slot + h) then s
  else
  let m := (List.range 32).foldl (fun (m : Memory) r =>
    m.writeWords (bufRow k 1 (32 * slot + r)) ((List.range 8).map (fun w => (8 * (w / 4) + 4 * h + w % 4, List.replicate 32 0#8)))) s.mem
  { s.onCore k (fun c => { c with slotPoison := setBit c.slotPoison (2 * slot + h) true }) with mem := m }

/-- The results of vector m in half h of a pass, by column; 0 where a column is masked, nothing where the half holds no tile (03 R81, R92). -/
def PassRun.results (p : PassRun) (tile : Option Tile) (depth h : Nat) (ident : Bool) (vec : List FVal) : List F32 :=
  match tile with
  | none => []
  | some t => (List.range 32).map (fun j => if (p.cols h).contains j then p.column depth ident vec (t.column j) else 0#32)

/-- The results `xs` of vector m of a pass into half h of its slot row (03 R81, R92, R101, R102); a half whose columns are all masked is not written. DESIGN CHOICE (log 43): what an INIT pass writes into a poisoned half without meeting the conditions of R102 is discarded, as later additions are; the rule names the additions alone. -/
def State.passHalf (s : State) (k : Nat) (p : PassRun) (m h : Nat) (xs : List F32) (poisoned : Bool) : State :=
  let slot := p.slot
  let row := 32 * slot + m / 2
  let cols := p.cols h
  let words := p.words m h
  if cols.isEmpty || xs.isEmpty then s
  else if poisoned then s.poisonSlot k slot h
  else
    let s := if p.clears h && m == 0 then s.onCore k (fun c => { c with slotPoison := setBit c.slotPoison (2 * slot + h) false }) else s
    if bitAt (s.core k).slotPoison (2 * slot + h) then s
    else
      let old := s.mem.read (bufRow k 1 row * 512) 512
      let newB := fun (j : Nat) =>
        let o := 4 * (64 * (m % 2) + 32 * h + j)
        let prev : F32 := BitVec.ofNat 32 (leNat ((old.drop o).take 4))
        if cols.contains j then leBytes 4 (if p.init then xs.getD j 0#32 else add32 prev (xs.getD j 0#32)).toNat
        else (old.drop o).take 4
      let outs := words.map (fun w => (w, ((List.range 8).map (fun i => newB (8 * (w % 4) + i))).flatten))
      let full := fun (w : Nat) => (List.range 8).all (fun i => cols.contains (8 * (w % 4) + i))
      let keep := s.mem.damage
      let mem := s.mem.writeWords (bufRow k 1 row) outs
      let s := { s with mem := if p.init then { mem with damage := keep.filter (fun d => !(d.row == bufRow k 1 row && words.contains d.word && full d.word)) } else mem }
      s.wrote (bufRow k 1 row) (fun w => words.contains w)

/-- The pass whose next vector is due on a half (03 R84, R86): the oldest that has vectors left. -/
def MatArray.duePass (m : MatArray) (t half : Nat) : Option PassRun :=
  match m.passes.find? (fun p => halvesMeet p.half half && p.next < p.count) with
  | some p => if p.issued + p.next ≤ t then some p else none
  | none => none

/-- A pass of an array replaced by a later state of it. -/
def MatArray.putPass (m : MatArray) (p q : PassRun) : MatArray := { m with passes := m.passes.map (fun x => if x == p then q else x) }

/-- The sums of a vector added to the slot, ten cycles after its read (03 R84, R101). -/
def State.addVector (s : State) (k a : Nat) (p : PassRun) (x : PassSums) : State × PassRun :=
  let en := s.readEntries k a p x.vec
  let bad := x.bad ||| en.2
  let p' := { p with bad := p.bad ||| bad, added := p.added + 1, sums := p.sums.erase x }
  let s := if bitAt p.halves 0 then en.1.passHalf k p' x.vec 0 x.lower (bitAt bad 0) else en.1
  (if bitAt p.halves 1 then s.passHalf k p' x.vec 1 x.upper (bitAt bad 1) else s, p')

/-- The sums of a pass that are due by core cycle t added, in order (03 R84). -/
def State.addPass (s : State) (k a t : Nat) (p : PassRun) : State :=
  let r := (p.sums.filter (fun x => p.issued + x.vec + 10 ≤ t)).foldl (fun q x => q.1.addVector k a q.2 x) (s, p)
  r.1.onCore k (fun c => c.setArr a ((c.arr a).putPass p r.2))

/-- The due sums of an array's passes on a half added, those of earlier passes first (03 R84, R86). -/
def State.addDue (s : State) (k a half : Nat) : State :=
  (((s.core k).arr a).passes.filter (fun p => halvesMeet p.half half && p.sums != [])).foldl (fun s p' => s.addPass k a (s.ctime k) p') s

/-- The next vector of a pass: read and broadcast; its results wait for their addition (03 R84). -/
def State.passVector (s : State) (k a : Nat) (p : PassRun) : State :=
  let s := if p.next == 0 then s.onCore k (fun c => c.setArr a ((c.arr a).activate p)) else s
  let c := s.core k
  let arr := c.arr a
  let depth := arr.passDepth p
  let m := p.next
  let rd := s.readVector k p depth m
  let ident := s.identityPass k p depth
  let vec := p.vector depth m rd.rows
  let scaleNan := fmtMx p.fmt && (rd.rows.getLast?).any (fun l => ((l.drop (depth / 32 * m)).take (depth / 32)).any (· == 0xFF#8))
  let s := if scaleNan then rd.s.setW1c (coreReg .CORE_FMT_EVENTS k) CORE_FMT_EVENTS.SCALE_NAN else rd.s
  let bad := fun (h : Nat) => rd.poison || ((arr.active h).map (·.poison)).getD false
  let half := fun (h : Nat) => if bitAt p.halves h then p.results (arr.active h) depth h ident vec else []
  let x : PassSums := ⟨m, half 0, half 1, p.halves &&& (flag (bad 0) + 2 * flag (bad 1))⟩
  let q := { p with reads := p.reads.filter (fun r => r.vec != m), bad := p.bad ||| x.bad, next := m + 1, sums := p.sums ++ [x] }
  s.onCore k (fun c => c.setArr a ((c.arr a).putPass p q))

/-- PASS_VECTOR (03 R84): the sums that are due are added, and the next vector of the oldest pass on the half is read and broadcast; a whole-array pass serves both halves. -/
def execPassVector (c : CoreId) (ma : Fin 4) (h : Half) (s : State) : Host.Outcome State Fault Refusal := s.live fun s =>
  let k := ckey c
  if s.frozen k then .next s
  else
    let s := s.addDue k ma.val (halfSel h)
    match ((s.core k).arr ma.val).duePass (s.ctime k) (halfSel h) with
    | none => .next s
    | some p => .next (s.passVector k ma.val p)

/-- A pass that has added its last vector and is due to release its slot, M + 10 cycles after issue (03 R84). -/
def MatArray.doneRun (m : MatArray) (t half : Nat) : Option PassRun :=
  m.passes.find? (fun p => halvesMeet p.half half && p.added == p.count && p.issued + p.count + 10 ≤ t)

/-- PASS_RELEASE (03 R84): the sums that are due are added, and a pass that has added its last gives its slot up. -/
def execPassRelease (c : CoreId) (ma : Fin 4) (h : Half) (s : State) : Host.Outcome State Fault Refusal := s.live fun s =>
  let k := ckey c
  if s.frozen k then .next s
  else
    let s := s.addDue k ma.val (halfSel h)
    match ((s.core k).arr ma.val).doneRun (s.ctime k) (halfSel h) with
    | none => .next s
    | some p => .next (s.onCore k (fun x => x.setArr ma.val { x.arr ma.val with passes := (x.arr ma.val).passes.erase p }))

end Sys2Proof.Machine
end

