-- ==== Sys2Proof/Machine/Softmax.lean ====
section
/-! DEFINITION. The online soft-maximum (10 R387-R396): what a STEP, FINAL or MERGE computes, on plain rows of FP32 values. -/
namespace Sys2Proof.Machine

/-- Minus infinity in FP32. -/
def minusInf : F32 := 0xFF800000#32

/-- The larger of two maxima of a step; a comparison with NaN gives NaN (10 R392). -/
def stepMax (a b : F32) : F32 := max32 a b

/-- exp(a - b), or 0 where a is minus infinity (10 R392). -/
def stepScale (a b : F32) : F32 := if a == minusInf then 0#32 else fun32 0x10 (sub32 a b)

/-- An O entry rescaled: 0 where the factor is 0 (10 R392). -/
def rescale (a x : F32) : F32 := if isZero32 a then 0#32 else mul32 a x

/-- A row of a STEP: the new maximum and sum, the factor of the O slots, and the probabilities as codes of the destination format (10 R392). -/
structure StepRow where
  m : F32
  l : F32
  a : F32
  p : List Nat
  deriving DecidableEq, Repr

/-- One row of a STEP, from the row's scores, the valid columns and the running maximum and sum (10 R392). -/
def stepRow (fmt : Nat) (scale mo lo : F32) (valid : Nat → Bool) (scores : List F32) : StepRow :=
  match fmtOf fmt with
  | none => ⟨mo, lo, one32, []⟩
  | some f =>
    let s := fun n => mul32 (scores.getD n 0#32) scale
    let b := (List.range 64).foldl (fun b n => if valid n then stepMax b (s n) else b) minusInf
    let mn := stepMax mo b
    let dead := mn == minusInf
    let a := if dead then one32 else stepScale mo mn
    let p := (List.range 64).map (fun n => if dead || !valid n then 0 else (convVal f false false 0 (val32 (fun32 0x10 (sub32 (s n) mn)))).code)
    let sum := add32 (mul32 a lo) (p.foldl (fun x c => add32 x (to32 (decodeVal f c))) 0#32)
    ⟨mn, sum, a, p⟩

/-- The state row's maximum of row m. -/
def stateM (row : List F32) (m : Nat) : F32 := row.getD m 0#32
/-- The state row's sum of row m. -/
def stateL (row : List F32) (m : Nat) : F32 := row.getD (64 + m) 0#32

/-- The rows of a slot from 32 rows of 128 entries: row m of 64. -/
def slotRow (rows : List (List F32)) (m : Nat) : List F32 := ((rows.getD (m / 2) []).drop (64 * (m % 2))).take 64

/-- Two slot rows joined into the FP32 rows that store them. -/
def joinRows (rows : List (List F32)) : List (List F32) :=
  (List.range (rows.length / 2)).map (fun r => rows.getD (2 * r) [] ++ rows.getD (2 * r + 1) [])

/-- A row of a MERGE: the new maximum and sum, the factor of the O slots and that of the partial rows (10 R394). -/
def mergeRow (ma la mu lu : F32) : Option (F32 × F32 × F32 × F32) :=
  let mn := stepMax ma mu
  if mn == minusInf then none
  else
    let a := stepScale ma mn
    let w := mul32 (stepScale mu mn) lu
    some (mn, add32 (mul32 a la) w, a, w)

end Sys2Proof.Machine
end

