-- ==== Sys2Proof/Machine/Vector.lean ====
section
/-! DEFINITION. The vector unit (03 R96, R97, R103, 04 R121-R130, 10 R379-R396): issue of its operations and the writing of each destination row. -/
namespace Sys2Proof.Machine

/-- A row written by the vector unit; a poisoned row of the accumulator poisons both halves of its slot (03 R98, R103). DESIGN CHOICE (log 43): a row that is not poisoned is stored in a slot half that is, and the half stays poisoned; 03 R102 speaks of
additions and passes only. -/
def State.writeVec (s : State) (k buf row : Nat) (img : RowImg) : State :=
  if buf == 1 then
    if img.poison then (s.poisonSlot k (row / 32) 0).poisonSlot k (row / 32) 1
    else s.writeOwn k 1 row img
  else s.writeOwn k buf row img

/-- Whether a row of a buffer is poisoned by its slot: a row of the accumulator is where either half of its slot is (03 R98, R103). -/
def State.slotPoisoned (s : State) (k buf row : Nat) : Bool := buf == 1 && bits (s.core k).slotPoison (2 * (row / 32) + 1) (2 * (row / 32)) != 0

/-- Rows of a core's own SRAM read in order by an operation issued in core cycle t0, each named by the cycle after its issue in which it is taken in, its buffer and its row (03 R97, R105, R108): a correction freezes the core in the cycle of its read. -/
def State.readHeld (s : State) (k bundle t0 : Nat) : List (Nat × Nat × Nat) → State × List HeldRow
  | [] => (s, [])
  | (t, buf, row) :: l =>
    let r := s.readRaw k buf row (fun _ => true)
    let img : RowImg := ⟨r.img.bytes, r.img.poison || s.slotPoisoned k buf row⟩
    let s := if r.corr then r.s.correctAt k (t0 + t) else r.s
    let s := if r.fresh then s.coreEvent k buf row bundle 0 else s
    let p := s.readHeld k bundle t0 l
    (p.1, ⟨t, buf, row, img⟩ :: p.2)

/-- The reads of n rows from a row of a buffer, two to a cycle, from cycle t on. -/
def pairReads (t buf row n : Nat) : List (Nat × Nat × Nat) := (List.range n).map (fun i => (t + i / 2, buf, row + i))

/-- Slots named by a bit mask, ascending. -/
def slotList (m : Nat) : List Nat := (List.range 16).filter (bitAt m)

/-- The reads of slots in order, 32 rows each, from cycle t on. -/
def slotReads (t : Nat) (l : List Nat) : List (Nat × Nat × Nat) := ((List.range l.length).map (fun i => pairReads (t + 16 * i) 1 (32 * l.getD i 0) 32)).flatten

/-- The source rows a vector operation takes in, with their cycles (03 R97, 04 R124-R129, 10 R381): 256 elements a cycle, or 128 where a function takes two cycles for 256. A row that holds for the whole operation is taken in first: a broadcast row, the scale
row of a narrow source, a position list. A soft-maximum STEP takes in its score slot, then the state row and the O slots, a FINAL the state row and the O slots, a MERGE the two state rows, the O slots and the partial slots (10 R392-R394). -/
def VecRun.reads (v : VecRun) : List (Nat × Nat × Nat) :=
  match v.kind with
  | .elem f bc =>
    let row := fun (i : Nat) =>
      let t := if slowFunc f then i else i / 2
      (t, v.aBuf, v.aRow + i) :: ((if readsB f && !bc then [(t, v.bBuf, v.bRow + i)] else []) ++ (if f == 0x03 then [(t, v.dBuf, v.dRow + i)] else []))
    (if readsB f && bc then [(0, v.bBuf, v.bRow)] else []) ++ ((List.range v.rows).map row).flatten
  | .toWide f _ =>
    let b := fmtWidth f
    let n := narrowRows v.rows b
    (if fmtMx f then [(0, v.aBuf, v.aRow + n)] else []) ++ (List.range n).map (fun i => (4096 * i / b / 256, v.aBuf, v.aRow + i))
  | .rotated _ _ _ _ _ pm _ pr _ _ => (if pm == 1 then [(0, 2, pr)] else []) ++ pairReads 0 v.aBuf v.aRow v.rows
  | .soft mode _ _ _ o sr mr _ _ _ init _ _ =>
    let xs := slotList o
    if mode == 0 then slotReads 0 [v.aRow / 32] ++ (if init then [] else (16, 2, sr) :: slotReads 17 xs)
    else if mode == 1 then (0, 2, sr) :: slotReads 1 xs
    else (0, 2, sr) :: (1, 2, mr) :: (slotReads 2 xs ++ slotReads (2 + 16 * xs.length) ((List.range xs.length).map (fun i => v.aRow / 32 + i)))
  | _ => pairReads 0 v.aBuf v.aRow v.rows

/-- The i-th source row held. -/
def VecRun.at' (v : VecRun) (i : Nat) : List Byte := match v.held[i]? with | some x => x.img.bytes | none => []

/-- Whether the j-th row is written poisoned: some poisoned row was taken in before it is written (03 R103). -/
def VecRun.poisonAt (v : VecRun) (j : Nat) : Bool := v.held.any (fun x => x.img.poison && v.issued + x.cycle < v.dueAt j)

/-- The function of an ELEM on elements a, b and the old destination d (04 R123). -/
def elemFun (f : Nat) (a b d : F32) : F32 :=
  match f with
  | 0x00 => add32 a b
  | 0x01 => sub32 a b
  | 0x02 => mul32 a b
  | 0x03 => fma32 a b d
  | 0x04 => min32 a b
  | 0x05 => max32 a b
  | 0x06 => if (val32 b).lt (val32 a) then one32 else 0#32
  | 0x07 => if (val32 a).isNan then nan32 else a
  | 0x08 => recip32 a
  | 0x09 => sqrt32 a
  | 0x0A => rsqrt32 a
  | 0x14 => div32 a b
  | g => fun32 g a

/-- The random bits of element e of a conversion (02 R53, R54; 18 R620, R621). -/
def State.roundBits (s : State) (lease index e : Nat) : Nat :=
  rng16 (rngIndexed (s.reg ⟨.LEASE_SEED, selSv0, lease, 0⟩) 0x01 (s.fld ⟨.RNG_STEP, selSv0, lease, 0⟩ RNG_STEP.STEP) index e)

/-- The FP32 rows r0 to r1 that destination row j of a packing conversion reads (04 R128). -/
def packSpan (b rows j : Nat) : Nat × Nat :=
  let e0 := 4096 * j / b
  let e1 := min (128 * rows) (ceilDiv (4096 * (j + 1)) b) - 1
  (e0 / 128, e1 / 128)

/-- A packed destination row j of FORMAT f: its bytes, the scale bytes of the MX blocks it completes, and the conversion events of the elements it completes (04 R128, 02 R46, R55, R57). `val e` is source element e, `u e` its random bits. -/
def packRow (fc : Nat) (stoch sat : Bool) (rows j : Nat) (val : Nat → FVal) (u : Nat → Nat) : List Byte × List Byte × Nat :=
  match fmtOf fc with
  | none => ([], [], 0)
  | some f =>
    let b := f.width
    let e0 := 4096 * j / b
    let e1 := min (128 * rows) (ceilDiv (4096 * (j + 1)) b)
    let whole := fun e => 4096 * j < (e + 1) * b && (e + 1) * b ≤ 4096 * (j + 1)
    if f.mx then
      let blocks := (List.range (ceilDiv e1 32 - e0 / 32)).map (fun i =>
        let k := e0 / 32 + i
        (k, convBlock f stoch sat ((List.range 32).map (fun n => u (32 * k + n))) ((List.range 32).map (fun n => val (32 * k + n)))))
      let codes := (List.range (e1 - e0)).map (fun i =>
        let e := e0 + i
        (((blocks.find? (fun x => x.1 == e / 32)).map (fun x => ((x.2.2.1.getD (e % 32) ⟨0, 0⟩).code))).getD 0))
      let done := blocks.filter (fun x => whole (32 * x.1 + 31))
      let packed := codes.foldr (fun c a => c % 2 ^ b + 2 ^ b * a) 0
      (leBytes 512 (packed / 2 ^ (4096 * j - e0 * b)), done.map (fun x => BitVec.ofNat 8 x.2.1), done.foldl (fun a x => a ||| x.2.2.2 ||| (if x.2.1 == 0xFF then 1 else 0)) 0)
    else
      let cs := (List.range (e1 - e0)).map (fun i => convVal f stoch sat (u (e0 + i)) (val (e0 + i)))
      let packed := cs.foldr (fun c a => c.code % 2 ^ b + 2 ^ b * a) 0
      let ev := ((List.range (e1 - e0)).filter (fun i => whole (e0 + i))).foldl (fun a i => a ||| (cs.getD i ⟨0, 0⟩).events) 0
      (leBytes 512 (packed / 2 ^ (4096 * j - e0 * b)), [], ev)

/-- Conversion events noted in CORE_FMT_EVENTS (02 R57). -/
def State.fmtEvents (s : State) (k ev : Nat) : State :=
  if ev == 0 then s
  else
    let r := coreReg .CORE_FMT_EVENTS k
    (s.setReg r (s.reg r ||| BitVec.ofNat 64 ev)).noteCycle r (s.thisCycle r ||| ev)

/-- An element pair rotated by the angle of its position and feature pair (10 R381). -/
def rotatePair (theta pscale pos : F32) (dim kx : Nat) (x0 x1 : F32) : F32 × F32 :=
  let e := neg32 (to32 (.fin false (2 * kx) (-(log2 dim : Int))))
  let th := fun32 0x11 (mul32 e (fun32 0x13 theta))
  let phi := mul32 (mul32 pos pscale) th
  let c := circle32 0x20 phi
  let sn := circle32 0x21 phi
  (sub32 (mul32 x0 c) (mul32 x1 sn), add32 (mul32 x0 sn) (mul32 x1 c))

/-- FP32 row r of a drain rotated (10 R381): its elements are columns 0-63 of two slot rows. -/
def rotateRow (block dim posMode pos0 : Nat) (theta pscale : F32) (list : List Byte) (r : Nat) (xs : List F32) : List F32 :=
  ((List.range 64).map (fun i =>
    let e := 2 * i
    let m := 2 * (r % 32) + e / 64
    let n := e % 64
    let p : Nat := if posMode == 0 then (pos0 + m) % 2 ^ 32 else leNat ((list.drop (4 * m)).take 4)
    let q := rotatePair theta pscale (ofNat32 p) dim ((64 * (block + r / 32) + n) / 2) (xs.getD e 0#32) (xs.getD (e + 1) 0#32)
    [q.1, q.2])).flatten

/-- What one destination row comes to: its bytes, the scale bytes it completes, and its conversion events (02 R57). -/
structure RowOut where
  bytes : List Byte
  scales : List Byte
  events : Nat

/-- A row of a packing conversion or a drain (04 R128, 02 R54, 10 R381). `first`: how many held rows come before the sources; `turn`: what is done to a source row before it is packed. -/
def State.packOut (s : State) (lease : Nat) (v : VecRun) (fc round index first : Nat) (turn : Nat → List F32 → List F32) : RowOut :=
  let b := fmtWidth fc
  if narrowRows v.rows b ≤ v.next then ⟨padRow v.scales, [], 0⟩
  else
    let sp := packSpan b v.rows v.next
    let rows := (List.range (sp.2 + 1 - sp.1)).map (fun i => turn (sp.1 + i) (rowF32 128 (v.at' (first + sp.1 + i))))
    let val := fun e => val32 ((rows.getD (e / 128 - sp.1) []).getD (e % 128) 0#32)
    let p := packRow fc (roundStoch round) (roundSat round) v.rows v.next val (fun e => if roundStoch round then s.roundBits lease index e else 0)
    ⟨p.1, p.2.1, p.2.2⟩

/-- A row of a CONVERT from a narrow format (04 R128); an MX element beyond FP32's range overflows under the descriptor's SAT (02 R55, R57). -/
def VecRun.wideOut (v : VecRun) (fc round : Nat) : RowOut :=
  match fmtOf fc with
  | none => ⟨zeroRow, [], 0⟩
  | some f =>
    let first := if f.mx then 1 else 0
    let bytes := ((List.range (narrowRows v.rows f.width)).map (fun i => v.at' (first + i))).flatten
    let codes := unpackCodes f.width 128 ((bytes.drop (16 * f.width * v.next)).take (16 * f.width))
    let sc := fun i => if f.mx then ((v.at' 0).getD ((128 * v.next + i) / 32) 0x7F#8).toNat else 0x7F
    let cs := (List.range 128).map (fun i => conv32 (roundSat round) (mxVal f (sc i) (codes.getD i 0)))
    ⟨f32Bytes (cs.map (fun c => BitVec.ofNat 32 c.code)), [], cs.foldl (fun a c => a ||| c.events) (flag (f.mx && (List.range 4).any (fun i => sc (32 * i) == 0xFF)))⟩

/-- A row of a SPLIT (04 R129, 02 R62): a hi row and its lo row in turn. -/
def VecRun.splitOut (v : VecRun) : RowOut :=
  let i := v.next / 2
  let xs := rowF32 128 (v.at' (2 * i)) ++ (if 2 * i + 1 < v.rows then rowF32 128 (v.at' (2 * i + 1)) else [])
  let row := fun (l : List Nat) => padRow ((l.map (leBytes 2)).flatten)
  if v.next % 2 == 0 then ⟨row (xs.map (fun x => (splitPair x).1)), [], xs.foldl (fun a x => a ||| (convVal fmtBf16 false false 0 (val32 x)).events) 0⟩
  else ⟨row (xs.map (fun x => (splitPair x).2)), [], 0⟩

/-- A row of an ELEM (04 R123-R126). -/
def VecRun.elemOut (v : VecRun) (f : Nat) (bc : Bool) : RowOut :=
  if reduces f then
    let xs := ((List.range v.rows).map (fun i => rowF32 128 (v.at' i))).flatten
    ⟨f32Bytes ((if f == 0x18 then rowSum xs else rowMax xs) :: List.replicate 127 0#32), [], 0⟩
  else
    let first := flag (readsB f && bc)
    let each := 1 + flag (readsB f && !bc) + flag (f == 0x03)
    let row := fun (i : Nat) => rowF32 128 (v.at' i)
    let xa := row (first + each * v.next)
    let xb := if !readsB f then [] else if bc then row 0 else row (first + each * v.next + 1)
    let xd := if f == 0x03 then row (first + each * v.next + each - 1) else []
    ⟨f32Bytes ((List.range 128).map (fun i => elemFun f (xa.getD i 0#32) (xb.getD (if bc then 0 else i) 0#32) (xd.getD i 0#32))), [], 0⟩

/-- Rows written in order by the vector unit. -/
def State.writeRows (s : State) (k buf row : Nat) (poison : Bool) (rows : List (List Byte)) : State :=
  (List.range rows.length).foldl (fun s i => s.writeVec k buf (row + i) ⟨padRow (rows.getD i []), poison⟩) s

/-- The FP32 elements of n held rows from index i. -/
def heldF32 (h : List HeldRow) (i n : Nat) : List (List F32) := ((h.drop i).take n).map (fun x => rowF32 128 x.img.bytes)

/-- A slot's 64 rows replaced. -/
def State.writeSlot (s : State) (k x : Nat) (poison : Bool) (rows : List (List F32)) : State :=
  if poison then (s.poisonSlot k x 0).poisonSlot k x 1 else s.writeRows k 1 (32 * x) false ((joinRows rows).map f32Bytes)

/-- Slots whose halves hold zero entries. -/
def zeroSlot : List (List F32) := List.replicate 64 (List.replicate 64 0#32)

/-- The 64 maxima, then the 64 sums, as a state row (10 R387). -/
def stateRowBytes (ms ls : List F32) : List Byte := f32Bytes (ms ++ ls)

/-- A soft-maximum step (10 R392). -/
def State.softStep (s : State) (k : Nat) (v : VecRun) (fc oSlots stateRow qrows qgroup mask : Nat) (init causal : Bool) (scale : F32) : State :=
  let xs := slotList oSlots
  let bad := v.held.any (·.img.poison)
  let src := heldF32 v.held 0 32
  let old := (heldF32 v.held 32 1).headD []
  let cols := mask
  let rows := (List.range 64).map (fun m =>
    if qrows ≤ m then (⟨if init then minusInf else stateM old m, if init then 0#32 else stateL old m, one32, List.replicate 64 0⟩ : StepRow)
    else
      let mo := if init then minusInf else stateM old m
      let lo := if init then 0#32 else stateL old m
      stepRow fc scale mo lo (fun n => bitAt cols n && (!causal || n ≤ m / qgroup)) (slotRow src m))
  let p := (List.range 16).map (fun r => ((List.range 4).map (fun i => ((rows.getD (4 * r + i) ⟨0#32, 0#32, 0#32, []⟩).p.map (leBytes 2)).flatten)).flatten)
  let s := s.writeRows k v.dBuf v.dRow bad p
  let s := s.writeVec k 2 stateRow ⟨stateRowBytes (rows.map (·.m)) (rows.map (·.l)), bad⟩
  (List.range xs.length).foldl (fun s i =>
    s.writeSlot k (xs.getD i 0) bad ((List.range 64).map (fun m =>
      let row := if init then zeroSlot.getD m [] else slotRow (heldF32 v.held (33 + 32 * i) 32) m
      if qrows ≤ m then row else row.map (rescale ((rows.getD m ⟨0#32, 0#32, one32, []⟩).a))))) s

/-- The end of the rows of open slots (10 R393). -/
def State.softFinal (s : State) (k lease : Nat) (v : VecRun) (fc round index oSlots stateRow qrows : Nat) : State :=
  let xs := slotList oSlots
  let bad := v.held.any (·.img.poison)
  let old := (heldF32 v.held 0 1).headD []
  let os := (List.range xs.length).map (fun i => heldF32 v.held (1 + 32 * i) 32)
  let out := (os.map (fun o => (List.range 64).map (fun m =>
    if qrows ≤ m || isZero32 (stateL old m) then List.replicate 64 0#32 else (slotRow o m).map (fun x => div32 x (stateL old m))))).flatten
  let rows := joinRows out
  let empty := ((List.range 64).filter (fun m => m < qrows && isZero32 (stateL old m))).length
  let n := narrowRows v.rows (fmtWidth fc)
  let val := fun e => val32 ((rows.getD (e / 128) []).getD (e % 128) 0#32)
  let packed := (List.range n).map (fun j => packRow fc (roundStoch round) (roundSat round) v.rows j val (fun e => if roundStoch round then s.roundBits lease index e else 0))
  let scales := (packed.map (·.2.1)).flatten
  let all := packed.map (·.1) ++ (if fmtMx fc then [scales] else [])
  let s := s.writeRows k v.dBuf v.dRow bad all
  let s := s.fmtEvents k (packed.foldl (fun a p => a ||| p.2.2) 0)
  let s := s.bump ⟨.ATTN_STATUS, selCd (coreDie k), coreNum k, 0⟩ ATTN_STATUS.EMPTY_ROWS empty
  s.onCore k (fun c => { c with openSlots := (slotList oSlots).foldl (fun m x => setBit m x false) c.openSlots })

/-- Another unit's partial result folded in (10 R394). -/
def State.softMerge (s : State) (k : Nat) (v : VecRun) (oSlots stateRow qrows : Nat) : State :=
  let xs := slotList oSlots
  let n := 32 * xs.length
  let bad := v.held.any (·.img.poison)
  let a := (heldF32 v.held 0 1).headD []
  let u := (heldF32 v.held 1 1).headD []
  let fold := fun m => if qrows ≤ m then none else mergeRow (stateM a m) (stateL a m) (stateM u m) (stateL u m)
  let ms := (List.range 64).map (fun m => match fold m with | some r => r.1 | none => stateM a m)
  let ls := (List.range 64).map (fun m => match fold m with | some r => r.2.1 | none => stateL a m)
  let s := s.writeVec k 2 stateRow ⟨stateRowBytes ms ls, bad⟩
  (List.range xs.length).foldl (fun s i =>
    let o := heldF32 v.held (2 + 32 * i) 32
    let x := heldF32 v.held (2 + n + 32 * i) 32
    s.writeSlot k (xs.getD i 0) bad ((List.range 64).map (fun m => match fold m with
      | none => slotRow o m
      | some r => ((slotRow o m).zip (slotRow x m)).map (fun y => add32 (rescale r.2.2.1 y.1) (mul32 r.2.2.2 y.2))))) s

/-- The runs of a pipeline. -/
def Core.pipe (c : Core) (p : Nat) : List VecRun := if p == 0 then c.vec0 else c.vec1

/-- The runs of a pipeline replaced. -/
def Core.setPipe (c : Core) (p : Nat) (l : List VecRun) : Core := if p == 0 then { c with vec0 := l } else { c with vec1 := l }

/-- The first run of a pipeline whose next destination row is due (03 R97). -/
def dueRun (t : Nat) (l : List VecRun) : Option VecRun := l.find? (fun v => v.next < v.total && v.dueAt v.next ≤ t)

/-- The lease of the kernel a core runs. -/
def Core.lease (c : Core) : Nat := (c.kernel.map (·.lease)).getD 0

/-- A run once its next row is written: rows of its own source that the row overwrites before they are taken in are those it reads (03 R97, 04 R126). -/
def VecRun.wrote (v : VecRun) (o : RowOut) (img : RowImg) : VecRun :=
  let row := v.dRow + v.place v.next
  { v with next := v.next + 1, scales := v.scales ++ o.scales
           held := v.held.map (fun x => if x.buf == v.dBuf && x.row == row && v.dueAt v.next ≤ v.issued + x.cycle then { x with img := img } else x) }

/-- The next destination row of a run: computed and written (03 R97, R103). -/
def State.vecRow (s : State) (k : Nat) (v : VecRun) : State × VecRun :=
  let lease := (s.core k).lease
  let put := fun (o : RowOut) =>
    let img : RowImg := ⟨o.bytes, v.poisonAt v.next⟩
    (((s.fmtEvents k o.events).writeVec k v.dBuf (v.dRow + v.place v.next) img), v.wrote o img)
  match v.kind with
  | .elem f bc => put (v.elemOut f bc)
  | .toNarrow f r ix => put (s.packOut lease v f r ix 0 (fun _ x => x))
  | .toWide f round => put (v.wideOut f round)
  | .split _ => put v.splitOut
  | .rotated f r ix block dim pm p0 _ th ps => put (s.packOut lease v f r ix pm (rotateRow block dim pm p0 th ps (v.at' 0)))
  | .soft mode f r ix o sr _ q qg msk ini ca sc =>
    let s := if mode == 0 then s.softStep k v f o sr q qg msk ini ca sc
      else if mode == 1 then s.softFinal k lease v f r ix o sr q
      else s.softMerge k v o sr q
    (s, { v with next := 1 })

/-- VEC_ROW_WRITE (03 R97): the next destination row of a pipeline; a run leaves with its last row. -/
def execVecRowWrite (c : CoreId) (pipe : Fin 2) (s : State) : Host.Outcome State Fault Refusal := s.live fun s =>
  let k := ckey c
  if s.frozen k then .next s
  else match dueRun (s.ctime k) ((s.core k).pipe pipe.val) with
    | none => .next s
    | some v =>
      let r := s.vecRow k v
      let more := r.2.next < r.2.total
      let t := s.ctime k + 1
      .next (r.1.onCore k (fun x =>
        let x := x.setPipe pipe.val ((x.pipe pipe.val).filterMap (fun y => if y == v then (if more then some r.2 else none) else some y))
        if more then x else { x with sbTail := x.sbTail.filter (fun e => t ≤ e.2) ++ v.tail.map (fun e => (e, t)) }))

/-- A step's mask pair latched at issue: the selector becomes the column mask it names (03 R90, 10 R392). -/
def State.latchMask (s : State) (k : Nat) (v : VecRun) : VecRun :=
  match v.kind with
  | .soft m f r ix o sr mr q qg sel ini ca sc => { v with kind := .soft m f r ix o sr mr q qg (s.reg (coreReg .MA_MASK_COL k sel)).toNat ini ca sc }
  | _ => v

/-- A vector operation starts on its pipeline and takes the contents of its source rows (log 12); a STEP with INIT opens its slots (03 R97, 10 R390). -/
def State.startVec (s : State) (k pipe : Nat) (v : VecRun) : State :=
  let rd := s.readHeld k v.bundle v.issued v.reads
  let v := { s.latchMask k v with held := rd.2 }
  rd.1.onCore k (fun c =>
    let p := c.nextSeq
    let v := { v with seq := p.1 }
    let c := p.2.setPipe pipe (p.2.pipe pipe ++ [v])
    let c := if pipe == 0 then { c with busyVec0 := v.issued + v.takeIn } else { c with busyVec1 := v.issued + v.takeIn }
    match v.kind with
    | .soft _ _ _ _ o _ _ _ _ _ true _ _ => { c with openSlots := c.openSlots ||| o }
    | _ => c)

/-- ELEM (04 R122). -/
def execElem (c : CoreId) (s : State) : Host.Outcome State Fault Refusal := s.live fun s =>
  .next (s.issue (ckey c) 4 1 (fun q w s => s.startVec (ckey c) 0 (elemRun w (s.ctime (ckey c)) q.idx 0)))

/-- The VEC1 operation a word encodes starts (04 R127). -/
def State.startVec1 (s : State) (k : Nat) (q : Kernel) (w : Nat) : State := s.startVec k 1 ((s.core k).vec1Run w (s.ctime k) q.idx 0)

/-- A VEC1 operation of the next bundle with code `op` starts. -/
def State.issueVec1 (s : State) (k op : Nat) : State := s.issue k 5 op (fun q w s => s.startVec1 k q w)

/-- CONVERT (04 R128). -/
def execConvert (c : CoreId) (s : State) : Host.Outcome State Fault Refusal := s.live fun s => .next (s.issueVec1 (ckey c) 1)

/-- SPLIT (04 R129). -/
def execSplit (c : CoreId) (s : State) : Host.Outcome State Fault Refusal := s.live fun s => .next (s.issueVec1 (ckey c) 2)

/-- What the DRAIN of the next bundle is by its cached descriptors: none while they are not cached, some none without a soft-maximum descriptor, else its MODE (10 R387). -/
def State.drainMode (s : State) (k : Nat) : Option (Option Nat) :=
  match s.mayIssue k with
  | none => none
  | some (_, b) =>
    let c := s.core k
    let d := c.descOf (opf (b.op 5) 63 48)
    let x := c.descOf (tensorDesc d).aux
    if c.missing b != [] then none
    else if hIndex (tensorDesc d).aux != 0 && dVersion x == 6 then some (some (softDesc x).mode) else some none

/-- DRAIN (04 R130, 10 R380) without a soft-maximum step descriptor; one whose MODE is reserved is refused here (10 R389). -/
def execDrain (c : CoreId) (s : State) : Host.Outcome State Fault Refusal := s.live fun s =>
  match s.drainMode (ckey c) with
  | some (some 0) => .next s
  | some (some 1) => .next s
  | some (some 2) => .next s
  | _ => .next (s.issueVec1 (ckey c) 3)

/-- A DRAIN of a soft-maximum MODE; one of another kind is left to its own command. -/
def State.issueSoft (s : State) (k mode : Nat) : State :=
  match s.drainMode k with
  | none => s.issueVec1 k 3
  | some m => if m == some mode then s.issueVec1 k 3 else s

/-- SOFTMAX_STEP (10 R392). -/
def execSoftmaxStep (c : CoreId) (s : State) : Host.Outcome State Fault Refusal := s.live fun s => .next (s.issueSoft (ckey c) 0)

/-- SOFTMAX_FINAL (10 R393). -/
def execSoftmaxFinal (c : CoreId) (s : State) : Host.Outcome State Fault Refusal := s.live fun s => .next (s.issueSoft (ckey c) 1)

/-- SOFTMAX_MERGE (10 R394). -/
def execSoftmaxMerge (c : CoreId) (s : State) : Host.Outcome State Fault Refusal := s.live fun s => .next (s.issueSoft (ckey c) 2)

end Sys2Proof.Machine
end

