-- ==== Sys2Proof/Machine/Flags.lean ====
section
/-! DEFINITION. Flags between cores (04 R168-R174): the SYNC operations, delivery of a SET or CLEAR, and a wait's timeout. -/
namespace Sys2Proof.Machine

/-- A SET of flag f in the present cycle; a flag set in a cycle is not cleared in it (04 R172, R173). -/
def Core.setFlag (c : Core) (clock f : Nat) : Core :=
  let was := c.flags.contains f && (match tget? c.setAt f with | some (t, w) => t < clock || w | none => true)
  { c with flags := sins c.flags f, setAt := tset c.setAt f (clock, was) }

/-- A clear of flag f in the present cycle (04 R173). -/
def Core.clearFlag (c : Core) (clock f : Nat) : Core :=
  match tget? c.setAt f with
  | some (t, _) => if t == clock then { c with setAt := tset c.setAt f (clock, false) } else { c with flags := sdel c.flags f }
  | none => { c with flags := sdel c.flags f }

/-- A flag update at a core. -/
def Core.applyFlag (c : Core) (clock f : Nat) (set : Bool) : Core := if set then c.setFlag clock f else c.clearFlag clock f

/-- Rows done in order: `u` rows, and of the sorted list above them those that follow on (04 R171). -/
def absorb : Nat → List Nat → Nat × List Nat
  | u, [] => (u, [])
  | u, t :: l => if t ≤ u then absorb (max u (t + 1)) l else (u, t :: l)

/-- A transfer once its row t has landed or been written (06 R243). -/
def Xfer.rowDone (x : Xfer) (t : Nat) : Xfer :=
  let r := absorb x.upTo (sins x.beyond t)
  { x with done := x.done + 1, upTo := r.1, beyond := r.2 }

/-- The rows of each channel's transfer that count as written earlier (04 R171): those of a load once requested, those of a store once handed over. -/
def Core.fence (c : Core) : Fence :=
  ⟨c.opSeq, c.chans.filterMap (fun p => p.2.cur.map (fun x => (p.1, x.id, if x.d.loads then x.formed else x.handed)))⟩

/-- Whether every write a fence names has completed (04 R171). -/
def Core.fenceMet (c : Core) (f : Fence) : Bool :=
  (c.vec0 ++ c.vec1).all (fun v => f.seq ≤ v.seq) && c.awl.all (fun p => f.seq ≤ p.2.seq) &&
    f.rows.all (fun r => match (c.chan r.1).cur with
      | some x => x.id != r.2.1 || r.2.2 ≤ x.upTo
      | none => true)

/-- The cycles by which the crossings of its route delay a remote operation that is delivered now: those of its core, of the bridges and of its target (19 R646, R650). DEDUCED (log 17). -/
def State.flagDelay (s : State) (src dst : Nat) (remote : Bool) : Nat × State :=
  if !remote then (0, s)
  else
    let a := s.cross (coreDie src) 13 (2 * coreNum src) s.now
    let b := a.2.bridged (coreDie src) (coreDie dst) a.1
    let c := b.2.cross (coreDie dst) 13 (2 * coreNum dst + 1) b.1
    (c.1 - s.now, c.2)

/-- An operation as it is delivered now: the delay of its route runs from the time its crossings leave it (04 R172). -/
def State.delivered (s : State) (o : FlagOp) : State × FlagOp :=
  let x := s.flagDelay o.src o.dst o.remote
  (x.2, { o with ready := some (s.coreClock + x.1) })

/-- A SET or CLEAR issued: an operation on its way to its target (04 R170-R172). -/
def State.sendFlag (s : State) (k w : Nat) (set : Bool) : State :=
  let dst := syncTarget k w
  let op : FlagOp := ⟨k, dst, opf w 4 4 == 1, opf w 23 14, set, if opf w 24 24 == 1 then some (s.core k).fence else none, hops (coreDie k) (coreDie dst), none⟩
  let x := if op.fence.isSome then (s, op) else s.delivered op
  { x.1 with flagOps := x.1.flagOps ++ [x.2] }

/-- SET (04 R170). -/
def execSet (c : CoreId) (s : State) : Host.Outcome State Fault Refusal := s.live fun s =>
  .next (s.issue (ckey c) 9 1 (fun _ w s => s.sendFlag (ckey c) w true))

/-- CLEAR (04 R170). -/
def execClear (c : CoreId) (s : State) : Host.Outcome State Fault Refusal := s.live fun s =>
  .next (s.issue (ckey c) 9 2 (fun _ w s => s.sendFlag (ckey c) w false))

/-- WAIT (04 R170): the wait itself is made at issue. -/
def execWait (c : CoreId) (s : State) : Host.Outcome State Fault Refusal := s.live fun s =>
  .next (s.issue (ckey c) 9 3 (fun _ _ s => s))

/-- WAIT_CLR (04 R170): the flag is cleared in the issue cycle. -/
def execWaitClr (c : CoreId) (s : State) : Host.Outcome State Fault Refusal := s.live fun s =>
  .next (s.issue (ckey c) 9 4 (fun _ w s => s.onCore (ckey c) (fun x => x.clearFlag s.coreClock (opf w 23 14))))

/-- The predicate of the kernel a core runs, set (04 R170). -/
def Core.setPred (c : Core) (b : Bool) : Core := { c with kernel := c.kernel.map (fun q => { q with pred := b }) }

/-- TEST (04 R170). -/
def execTest (c : CoreId) (s : State) : Host.Outcome State Fault Refusal := s.live fun s =>
  .next (s.issue (ckey c) 9 5 (fun _ w s => s.onCore (ckey c) (fun x => x.setPred (x.flags.contains (opf w 23 14)))))

/-- The unit-wide number of ring i of CDd (04, Command rings). -/
def globalRing (d i : Nat) : Nat := 16384 * d + i

/-- CLAIM (04 R170): the issuing ring becomes the flag's producer, in place of an earlier one. -/
def execClaim (c : CoreId) (s : State) : Host.Outcome State Fault Refusal := s.live fun s =>
  .next (s.issue (ckey c) 9 6 (fun q w s =>
    s.onCore (syncTarget (ckey c) w) (fun x => { x with claims := tset x.claims (opf w 23 14) (globalRing (coreDie (ckey c)) q.ring) })))

/-- Whether an operation may be delivered or take effect now (04 R171, R172; 16 R565 in arbitrary-ratio mode): its fence is met; once delivered, the local or route delay has passed. -/
def State.flagDue (s : State) (o : FlagOp) : Bool :=
  match o.ready with
  | none => (o.fence.map (s.core o.src).fenceMet).getD true
  | some t => t + (if !o.remote then 1 else if s.ratioMode then 18 + 26 * o.hops else 12 + 20 * o.hops) ≤ s.coreClock

/-- The oldest operation from a core to a target that is due; of the remote ones only the oldest of all may be (04 R172). -/
def State.dueFlag (s : State) (src dst : Nat) : Option FlagOp :=
  let ops := s.flagOps.filter (fun o => o.src == src && o.dst == dst)
  let first := ops.find? (·.remote)
  ops.find? (fun o => s.flagDue o && (!o.remote || first == some o))

/-- FLAG_DELIVERY (04 R171-R173): a fenced operation whose fence is met is delivered, and the delay of its route runs from then; a delivered one whose delay has passed takes effect, or waits at a frozen core's crossing (03 R109). -/
def execFlagDelivery (src dst : CoreId) (s : State) : Host.Outcome State Fault Refusal := s.live fun s =>
  match s.dueFlag (ckey src) (ckey dst) with
  | none => .next s
  | some o =>
    if o.ready.isNone then
      let x := s.delivered o
      .next { x.1 with flagOps := s.flagOps.map (fun z => if z == o then x.2 else z) }
    else
      let s' := { s with flagOps := s.flagOps.erase o }
      if s.frozen o.dst then .next (s'.onCore o.dst (fun c => { c with crossing := c.crossing ++ [.flag o.flag o.set] }))
      else .next (s'.onCore o.dst (fun c => c.applyFlag s.coreClock o.flag o.set))

/-- Arithmetic-clock cycles of n milliseconds (00, Numbers; 16 R563). -/
def ms (n : Nat) : Nat := 1100000 * n

/-- SYNC_WAIT_TIMEOUT (04 R151, R164): a wait of 2^(n - 1) ms under WAIT_TMO n ends the kernel with ST_TIMEOUT. -/
def execSyncWaitTimeout (c : CoreId) (s : State) : Host.Outcome State Fault Refusal := s.live fun s =>
  let k := ckey c
  match s.mayIssue k with
  | none => .next s
  | some (q, b) =>
    let n := s.fld (ringReg .RING_CFG (coreDie k) q.ring) RING_CFG.WAIT_TMO
    match q.waitSince with
    | none => .next s
    | some t =>
      if n == 0 || 16 < n || !s.waitsFlag k b || s.now < t + ms (2 ^ (n - 1)) then .next s
      else .next (s.refuse k .timeout q.idx 9)

end Sys2Proof.Machine
end

