-- ==== Sys2Proof/Machine/Kernel.lean ====
section
/-! DEFINITION. Kernels (04 R131-R146, R157-R166, R179-R182, 15 R552-R555): the scalar sequencer's operations, descriptor fills, ring memory, start, fetch, completion and prefix dumps. -/
namespace Sys2Proof.Machine

/-! Ring memory and ring state. -/

/-- Words of a ring (04 R151). -/
def State.ringSize (s : State) (d i : Nat) : Nat := 2 ^ s.fld (ringReg .RING_CFG d i) RING_CFG.SIZE_LOG2

/-- The ring word at a free-running count (04 R116, R154). -/
def State.ringWord (s : State) (d i n : Nat) : Word :=
  s.peek (s.fld (ringReg .RING_BASE d i) RING_BASE.BASE + 8 * (n % s.ringSize d i))

/-- Bundles and words from count `n` up to and including the next END, among `m` bundles: bundles passed, words passed, whether an END was found (04 R166). -/
def State.scanEnd (s : State) (d i : Nat) : Nat → Nat → Nat × Nat × Bool
  | 0, _ => (0, 0, false)
  | m + 1, n =>
    let h := (s.ringWord d i n).toNat
    let len := max 1 (bits h 15 10)
    let op := s.ringWord d i (n + 1 + presentBelow (bits h 9 0) 8)
    if bitAt h 8 && op.toNat % 16 == 6 then (1, len, true)
    else
      let r := s.scanEnd d i m (n + len)
      (r.1 + 1, r.2.1 + len, r.2.2)

/-- The device addresses of the words that such a search looks at. -/
def State.scanAddrs (s : State) (d i : Nat) : Nat → Nat → List Nat
  | 0, _ => []
  | m + 1, n =>
    let at' := fun (n : Nat) => s.fld (ringReg .RING_BASE d i) RING_BASE.BASE + 8 * (n % s.ringSize d i)
    let h := (s.ringWord d i n).toNat
    let o := n + 1 + presentBelow (bits h 9 0) 8
    if !bitAt h 8 then at' n :: s.scanAddrs d i m (n + max 1 (bits h 15 10))
    else if (s.ringWord d i o).toNat % 16 == 6 then [at' n, at' o]
    else at' n :: at' o :: s.scanAddrs d i m (n + max 1 (bits h 15 10))

/-- HEAD of a ring. -/
def State.ringHead (s : State) (d i : Nat) : Nat := s.fld (ringReg .RING_CONS d i) RING_CONS.HEAD

/-- Whether an END lies within the produced bundles (04 R151, R163). -/
def State.ringHasEnd (s : State) (d i : Nat) : Bool := (s.scanEnd d i (s.ringDepth d i) (s.ringHead d i)).2.2

/-- The core, if any, whose kernel comes from a ring (04 R160); RING_CFG may name another core by now (R151, R153). -/
def State.ringCore (s : State) (d i : Nat) : Option Nat :=
  ((List.range 72).map (coreKey d)).find? (fun k => match (s.core k).kernel with | some q => q.ring == i | none => false)

/-- STATE of a ring (04 R159): as stored, or DISABLED, IDLE or READY by ENABLE and what has been produced. -/
def State.ringState (s : State) (d i : Nat) : Nat :=
  let st := s.ringStored d i
  if st != 0 then st
  else if s.fld (ringReg .RING_CFG d i) RING_CFG.ENABLE == 0 then 0
  else if s.ringDepth d i == 0 then 1
  else if s.fld (ringReg .RING_CFG d i) RING_CFG.WHOLE == 1 && !s.ringHasEnd d i then 1
  else 2

/-- The words at some device addresses as their rows are read for a lease, each row once; `held`: the row read last. Whether a new uncorrectable word was met is returned (05 R191, 07 R279). -/
def State.rowWords (s : State) (lease : Nat) (held : Option (Nat × List Byte)) : List Nat → State × List Word × Bool
  | [] => (s, [], false)
  | a :: l =>
    match s.rowAt a with
    | none => let p := s.rowWords lease held l; (p.1, 0 :: p.2.1, p.2.2)
    | some row =>
      let word := fun (b : List Byte) => BitVec.ofNat 64 (leNat ((b.drop (a % 512)).take 8))
      match held.filter (fun h => h.1 == row) with
      | some h => let p := s.rowWords lease held l; (p.1, word h.2 :: p.2.1, p.2.2)
      | none =>
        let f := s.readFar row (some lease)
        let p := f.s.rowWords lease (some (row, f.img.bytes)) l
        (p.1, word f.img.bytes :: p.2.1, f.fresh || p.2.2)

/-- The rows that a search for the next END among `m` bundles from count `n` reads, met as any read meets them (05 R191, 07 R279); whether a new uncorrectable word was met. -/
def State.scanRead (s : State) (d i m n : Nat) : State × Bool :=
  let r := s.rowWords (s.fld (ringReg .RING_CFG d i) RING_CFG.LEASE) none (s.scanAddrs d i m n)
  (r.1, r.2.2)

/-- Ring indices of CDd whose RING_CFG has been written. -/
def State.rings (s : State) (d : Nat) : List Nat :=
  let b := (ringReg .RING_CFG d 0).addr
  s.regs.filterMap (fun p => if b ≤ p.1 && p.1 < b + 0x80 * 16384 && (p.1 - b) % 0x80 == 0 then some ((p.1 - b) / 0x80) else none)

/-- A ring full without an END under WHOLE faults before any bundle issues (04 R163). -/
def State.wholeFault (s : State) (d i : Nat) : State :=
  let full := (s.fld (ringReg .RING_PROD d i) RING_PROD.TAIL + 2 ^ 32 - s.ringHead d i) % 2 ^ 32 == s.ringSize d i
  if s.fld (ringReg .RING_CFG d i) RING_CFG.ENABLE == 1 && s.fld (ringReg .RING_CFG d i) RING_CFG.WHOLE == 1 && full && !s.ringHasEnd d i && (s.ringCore d i).isNone && s.ringStored d i == 0 then
    s.faultRing d i .range 0 15
  else s

/-! The scalar sequencer. -/

/-- EMPTY_BUNDLE (04 R118, R135): an empty bundle, or one in a squashed window; a malformed bundle whose first operation no command can name is refused here (04 R117). -/
def execEmptyBundle (c : CoreId) (s : State) : Host.Outcome State Fault Refusal := s.live fun s =>
  let k := ckey c
  match s.mayIssue k with
  | none => .next s
  | some (q, b) =>
    let first := (List.range 10).find? b.has
    let dud := match first with | none => true | some j => b.code j == 0 || slotMaxOp j < b.code j
    if !(q.squashed || !b.headerOk || dud) || q.slots != 0 then .next s
    else match s.admission k q b with
      | .wait s' => .next s'
      | .no st sl => .next (s.refuse k st q.idx sl)
      | .go => .next (s.consume k b true)

/-- LOOP (04 R132): the loop stack is advanced when its bundle is consumed. -/
def execLoop (c : CoreId) (s : State) : Host.Outcome State Fault Refusal := s.live fun s =>
  .next (s.issue (ckey c) 8 1 (fun _ _ s => s))

/-- Half of a mask register written by a WRMASK's word (04 R133). -/
def State.writeMask (s : State) (k w : Nat) : State :=
  let r := coreReg (if opf w 7 7 == 1 then .MA_MASK_COL else .MA_MASK_ROW) k (opf w 11 8)
  let lo := if opf w 6 6 == 1 then 32 else 0
  s.setReg r (BitVec.ofNat 64 (setBits (s.reg r).toNat (lo + 31) lo (opf w 63 32)))

/-- WRMASK (04 R133): 32 bits of a mask register. -/
def execWrmask (c : CoreId) (s : State) : Host.Outcome State Fault Refusal := s.live fun s =>
  .next (s.issue (ckey c) 8 2 (fun _ w s => s.writeMask (ckey c) w))

/-- Fills started for the handles of a DPRE that are not cached (04 R134, R145). DESIGN CHOICE (log 44): a handle that is cached already is not used by a DPRE and keeps its place in the order of use; R145 does not say. -/
def Core.prefetch (c : Core) (t bundle w : Nat) : Core :=
  [opf w 63 48, opf w 47 32, opf w 31 16].foldl (fun c h =>
    if hIndex h == 0 || (c.desc (hIndex h)).isSome || c.fills.any (fun f => f.index == hIndex h) then c
    else { c with fills := c.fills ++ [⟨hIndex h, t + 48, some (h, bundle)⟩] }) c

/-- DPRE (04 R134). -/
def execDpre (c : CoreId) (s : State) : Host.Outcome State Fault Refusal := s.live fun s =>
  .next (s.issue (ckey c) 8 3 (fun q w s => s.onCore (ckey c) (fun x => x.prefetch (s.ctime (ckey c)) q.idx w)))

/-- PRED (04 R135): the predicate is latched, and the next WINDOW bundles are squashed when it is 0. -/
def execPred (c : CoreId) (s : State) : Host.Outcome State Fault Refusal := s.live fun s =>
  .next (s.issue (ckey c) 8 4 (fun _ w s =>
    s.onCore (ckey c) (fun x => { x with kernel := x.kernel.map (fun q => { q with window := opf w 13 4, squash := !q.pred }) })))

/-- MARK (04 R136). -/
def execMark (c : CoreId) (s : State) : Host.Outcome State Fault Refusal := s.live fun s =>
  .next (s.issue (ckey c) 8 5 (fun q w s => s.setFld (ringReg .RING_MARK (coreDie (ckey c)) q.ring) RING_MARK.VALUE (opf w 63 32)))

/-- END (04 R137, 06 R247): no further bundle issues. -/
def execEndKernel (c : CoreId) (s : State) : Host.Outcome State Fault Refusal := s.live fun s =>
  .next (s.issue (ckey c) 8 6 (fun _ w s =>
    s.onCore (ckey c) (fun x => { x with kernel := x.kernel.map (fun q => { q with ended := true, notify := opf w 4 4 == 1 }) })))

/-! Descriptor fills. -/

/-- The context entry of a ring (04 R147, R151). -/
def State.ringCtx (s : State) (d i : Nat) : Reg := ⟨.CTX_TABLE, selCd d, s.fld (ringReg .RING_CFG d i) RING_CFG.CONTEXT, 0⟩

/-- The checks of a descriptor that its own contents decide (04 R134, R143, 06 R232, R261, 10 R380, R386, R389). -/
def State.contentsCheck (s : State) (k lease : Nat) (d : List Word) : Option Status :=
  match dVersion d with
  | 1 => tensorCheck d
  | 2 => s.armContents k d
  | 3 => s.awlCheck lease d
  | 4 => let r := rotDesc d; need (!r.resv && finiteAbove r.theta one32 && finiteAbove r.pscale 0#32 && r.dim != 3) .range
  | 5 => let p := planeDesc d; need (!p.resv && (p.qfmt == 1 || p.qfmt == 2)) .range
  | 6 => let q := softDesc d; need (!q.resv && q.mode != 3) .range
  | _ => some .range

/-- The slot of a bundle that names an INDEX, for a refusal of its descriptor read. -/
def Core.namingSlot (c : Core) (b : Bundle) (i : Nat) : Nat :=
  ((List.range 10).find? (fun j => (b.handle j).any (fun h => hIndex h == i || hIndex (tensorDesc (c.descOf h)).aux == i))).getD 15

/-- A descriptor in the cache as the most recently used of at most 256 (04 R145). -/
def Core.cacheDesc (c : Core) (i : Nat) (d : List Word) : Core :=
  { c with dcache := ((i, d) :: c.dcache.filter (fun p => p.1 != i)).take 256 }

/-- DESC_FILL_DONE (04 R145, R148): the fill of the handle's INDEX ends; a DPRE's fill is checked, and a table row outside the lease's memory is refused (R134, 01 R32). -/
def execDescFillDone (c : CoreId) (handle : BitVec 16) (s : State) : Host.Outcome State Fault Refusal := s.live fun s =>
  let k := ckey c
  let x := s.core k
  let i := hIndex handle.toNat
  match x.kernel, x.fills.find? (fun f => f.index == i) with
  | some q, some f =>
    if s.frozen k || s.ctime k < f.due || s.engineBusy .desc (coreDie k) (coreNum k) then .next s
    else
      let d := coreDie k
      let row := s.fld (s.ringCtx d q.ring) CTX_TABLE.BASE_ROW + i / 8
      let s := s.onCore k (fun x => { x with fills := x.fills.erase f })
      if !s.inPartition d row 1 q.lease then
        match f.dpre with
        | some (_, n) => .next (s.refuse k .range n 8)
        | none => .next (s.refuse k .range q.idx (match q.bundle with | some b => x.namingSlot b i | none => 15))
      else
        let r := (s.book .desc d (coreNum k) (sdmRow d + row) true (some q.lease) none).readFar (sdmRow d + row) (some q.lease)
        let s := if r.fresh then r.s.markKernel k else r.s
        let words := (List.range 8).map (fun j => BitVec.ofNat 64 (leNat ((r.img.bytes.drop (64 * (i % 8) + 8 * j)).take 8)))
        let s := s.onCore k (fun x => x.cacheDesc i words)
        match f.dpre with
        | none => .next s
        | some (h, n) =>
          match firstFail [need (dGen words == hGen h) .staleHandle, s.contentsCheck k q.lease words] with
          | none => .next s
          | some st => .next (s.refuse k st n 8)
  | _, _ => .next s

/-! Start and fetch. -/

/-- Cycles from a core becoming free to its first bundle, by the memory of the ring (04 R161); in arbitrary-ratio mode those of a DRAM keep their time, and the crossings and hops, there and back, take longer (16 R565). -/
def State.startLatency (s : State) (k i : Nat) : Nat :=
  match s.rowAt (s.fld (ringReg .RING_BASE (coreDie k) i) RING_BASE.BASE) with
  | none => 32
  | some r =>
    let b := r / 2 ^ 31
    let dram := fun (c : Nat) => if s.ratioMode then c * s.arithMhz / 1100 else c
    (if b < 16 then dram 480 else if b < 24 then dram 700 else 32) + s.crossCycles 0 + s.crossCycles 1 + hops (coreDie k) (dieOfRow r) * (s.hopCycles 0 + s.hopCycles 1)

/-- A core scrubbed and its state reset for another lease (03 R70, 04 R174, 05 R208, 06 R267, 10 R391, 13 R493): rows zero without poison, flags, claims, tiles, masks and records cleared. -/
def State.scrubCore (s : State) (k : Nat) : State :=
  let s := { s with mem := s.mem.zeroRows (coreRow k) 9472 }
  let s := s.onCore k (fun c => { Core.reset with charge := c.charge, lastRing := c.lastRing, frozen := c.frozen, freezeAt := c.freezeAt, freeAt := c.freeAt, gated := c.gated, scrubDue := c.scrubDue, switchAt := c.switchAt })
  let one := [coreReg .CORE_ECC_STALLS k, coreReg .CORE_FMT_EVENTS k, coreReg .CORE_DI_EVENT k, coreReg .CORE_DI_ROW k, coreReg .AWL_STATUS k, coreReg .ATTN_STATUS k]
  let masks := (List.range 16).map (fun n => coreReg .MA_MASK_ROW k n) ++ (List.range 16).map (fun n => coreReg .MA_MASK_COL k n)
  (one ++ masks).foldl State.resetReg s

/-- LEASE_CFG of a lease (15 R537). -/
def leaseCfg (n : Nat) : Reg := ⟨.LEASE_CFG, selSv0, n, 0⟩

/-- Whether a lease is ACTIVE (15 R537). -/
def State.active (s : State) (n : Nat) : Bool := s.fld (leaseCfg n) LEASE_CFG.STATE == 1

/-- Whether a quiesce that covers some rings or cores holds a ring: it starts no kernel until the quiesce ends (15 R544). -/
def State.ringHeld (s : State) (d i k : Nat) : Bool :=
  s.quiesces.any (fun q => match q.scope with | .cores l => l.contains k | .rings l => l.contains (globalRing d i) | _ => false)

/-- Whether a snapshot stop keeps a lease's kernels from starting (18 R625). -/
def State.snapStopped (s : State) (n : Nat) : Bool := match s.snapOp with | some o => o.lease == n | none => false

/-- Rings of a core that are READY for a lease the core is bound to and that may start a kernel (04 R160, 15 R546, R554, 18 R625). -/
def State.readyRings (s : State) (k : Nat) : List (Nat × Nat) :=
  let d := coreDie k
  (s.rings d).filterMap (fun i =>
    let r := ringReg .RING_CFG d i
    let n := s.fld r RING_CFG.LEASE
    if s.fld r RING_CFG.CORE == coreNum k && s.ringState d i == 2 && s.boundTo k n && s.active n && !s.ringHeld d i k && !s.snapStopped n then some (n, i) else none)

/-- Whether lease a is chosen before lease b: the lesser virtual time, then the holder, then the lower number (15 R554). -/
def State.before (s : State) (k a b : Nat) : Bool :=
  let c := (s.core k).charge
  let va := tget 0 c a * s.fld (leaseCfg b) LEASE_CFG.SHARES
  let vb := tget 0 c b * s.fld (leaseCfg a) LEASE_CFG.SHARES
  let h := s.fld (tcBind k) TC_BIND.HOLDER
  va < vb || (va == vb && (a == h || (b != h && a < b)))

/-- The lease and ring the scheduler chooses on a free core (15 R554); after the scrub of a change of holder, a ring of the lease it was chosen for, while that lease has one (R555). -/
def State.choose (s : State) (k : Nat) : Option (Nat × Nat) :=
  let all := s.readyRings k
  let own := all.filter (fun x => x.1 == s.fld (tcBind k) TC_BIND.HOLDER)
  let rs := if (s.core k).switchAt.isNone || own.isEmpty then all else own
  match rs with
  | [] => none
  | r :: t =>
    let n := t.foldl (fun n x => if s.before k x.1 n then x.1 else n) r.1
    let mine := (rs.filter (fun x => x.1 == n)).map (·.2)
    let up := match tget? (s.core k).lastRing n with | some l => mine.filter (fun i => l < i) | none => mine
    ((up.head?).orElse (fun _ => mine.head?)).map (fun i => (n, i))

/-- KERNEL_START (04 R161, 15 R554, R555): the chosen ring's kernel starts on a free core. Where its lease is not the holder, or the holder has left the core since, the core's scrub begins instead, during which the core is bound to no lease (05 R210); once it has completed, the lease is holder and its kernel starts. -/
def execKernelStart (c : CoreId) (s : State) : Host.Outcome State Fault Refusal := s.live fun s =>
  let k := ckey c
  let d := coreDie k
  if (s.core k).kernel.isSome || (s.core k).scrubDue.isSome || !s.exposed (coreDie k) (coreNum k) then .next s
  else match s.choose k with
    | none => .next s
    | some (n, i) =>
      if s.fld (tcBind k) TC_BIND.HOLDER != n || (s.core k).stale then .next (s.onCore k (fun c => { c with scrubDue := some n, switchAt := some s.now }))
      else
      let pre := ringReg .RING_PREFIX d i
      let h := s.ringHead d i
      let q : Kernel :=
        { ring := i, lease := n, startAt := s.ctime k + s.startLatency k i, idx := 0, pos := h, high := h, fbase := h
          fetched := [], loops := [], pred := false, window := 0, squash := false, slots := 0, admitted := false, lastIssue := none
          prefixLen := if s.fld pre RING_PREFIX.EN == 1 then some (s.fld pre RING_PREFIX.N) else none
          ended := false, notify := false, integrity := false, refusal := none, stopStatus := none, stopped := false, dump := none, dumped := 0, freeAt := (s.core k).switchAt.getD s.now, waitSince := none }
      let s := if s.fld (ringReg .RING_CFG d i) RING_CFG.WHOLE == 1 then (s.scanRead d i (s.ringDepth d i) h).1 else s
      let s := s.onCore k (fun c => { c with kernel := some q, dcache := [], fills := [], chans := [], awl := [], awlCur := 0, lastRing := tset c.lastRing n i, lastFetch := 0, gated := false, ports := [], switchAt := none })
      .next ((s.setFld (ringReg .RING_STATUS d i) RING_STATUS.STATE 3).setFld (ringReg .RING_STATUS d i) RING_STATUS.WAIT_FLAG 0)

/-- Words of the fetch buffer no longer needed, dropped: those before the next bundle and before the outermost loop's body (04 R132, R162). -/
def Kernel.trim (q : Kernel) : Kernel :=
  let lo := q.loops.foldl (fun m f => min m f.start) q.pos
  { q with fbase := max q.fbase lo, fetched := q.fetched.drop (lo - q.fbase) }

/-- The position from which the 16 KiB of the fetch buffer count: the outermost loop's body, the body of a LOOP that waits to issue, or the next bundle (04 R132, R162). -/
def Kernel.room (q : Kernel) : Nat :=
  match q.loops.getLast? with
  | some f => f.start
  | none => match q.bundle with
    | some b => if b.has 8 && b.code 8 == 1 then q.pos + max 1 b.len else q.pos
    | none => q.pos

/-- RING_FETCH (04 R162): up to eight produced words arrive in a cycle, at most the first bundle's eleven before the first issue, within 16 KiB. A row that holds them is read as any row is, and an uncorrectable word marks the kernel (05 R191, 07 R279). -/
def execRingFetch (c : CoreId) (s : State) : Host.Outcome State Fault Refusal := s.live fun s =>
  let k := ckey c
  let d := coreDie k
  match (s.core k).kernel with
  | none => .next s
  | some q0 =>
    let q := q0.trim
    let t := s.ctime k
    let at' := q.fbase + q.fetched.length
    let have' := (diff32 (s.fld (ringReg .RING_PROD d q.ring) RING_PROD.TAIL) (at' % 2 ^ 32)).toNat
    let room := q.room + 2048 - at'
    let early := t < q.startAt
    let n := if early then min have' (11 - q.fetched.length) else min have' (min 8 room)
    if s.frozen k || n == 0 || (!early && (s.core k).lastFetch == t + 1) || s.engineBusy .ring d (coreNum k) then .next s
    else
      let addrs := (List.range n).map (fun j => s.fld (ringReg .RING_BASE d q.ring) RING_BASE.BASE + 8 * ((at' + j) % s.ringSize d q.ring))
      let r := s.rowWords q.lease none addrs
      let rows := (addrs.filterMap s.rowAt).dedup
      let s := rows.foldl (fun s row => s.book .ring d (coreNum k) row true (some q.lease) none) r.1
      let q := { q with fetched := q.fetched ++ r.2.1, integrity := q.integrity || r.2.2 }
      .next (s.onCore k (fun c => { c with kernel := some q, lastFetch := if early then c.lastFetch else t + 1 }))

/-! Completion. -/

/-- Whether every operation a core's kernel issued has completed (04 R137): loads, passes, vector operations, transfers, Awl threads, flags at its crossing, and its SETs and CLEARs. DESIGN CHOICE (log 47): a SET or CLEAR of another core's flag counts once it has taken effect there, not already once it is delivered. -/
def State.drained (s : State) (k : Nat) : Bool :=
  let c := s.core k
  c.arrays.all (fun p => p.2.loads.isEmpty && p.2.passes.isEmpty) && c.vec0.isEmpty && c.vec1.isEmpty &&
    c.chans.all (fun p => p.2.cur.isNone && p.2.pend.isNone) && c.awl.isEmpty && c.crossing.isEmpty && s.flagOps.all (fun o => o.src != k)

/-- An entry appended to a core's notification queue, or dropped when 16 are held (13 R493). -/
def State.appendNote (s : State) (k ring : Nat) (st : Status) : State :=
  let c := s.core k
  let c := if 16 ≤ c.notes.length then { c with noteLost := true } else { c with notes := c.notes ++ [⟨ring, code st, c.noteLost⟩], noteLost := false }
  (s.setCore k c).syncLevel (coreDie k) (0x50 + coreNum k) true

/-- Open soft-maximum slots set to zero and closed (10 R390). -/
def State.closeSlots (s : State) (k : Nat) : State :=
  let s := (slotList (s.core k).openSlots).foldl (fun s x => { s with mem := s.mem.zeroRows (bufRow k 1 (32 * x)) 32 }) s
  s.onCore k (fun c => { c with openSlots := 0 })

/-- The status a kernel completes with (04 R138): that of the fault or stop that ended it, else ST_INTEGRITY where an event marked it. -/
def Kernel.status (q : Kernel) : Status :=
  match q.refusal, q.stopStatus with
  | some r, _ => r.1
  | none, some st => st
  | none, none => if q.integrity then .integrity else .ok

/-- A kernel completes with a status: KERNELS and LAST_STATUS, the notification, open slots, its charge, and the core free again (04 R137, R138, 10 R390, 15 R554, R557). DESIGN CHOICE (log 47): its channels are as after reset (06 R228), LANDED and HANDLE of their status at zero with the rest. -/
def State.finishKernel (s : State) (k : Nat) (q : Kernel) (st : Status) : State :=
  let d := coreDie k
  let ks := ringReg .RING_KSTAT d q.ring
  let s := (s.count ks RING_KSTAT.KERNELS 1).setFld ks RING_KSTAT.LAST_STATUS (code st)
  let s := if q.notify then s.appendNote k q.ring st else s
  let s := s.closeSlots k
  let n := s.now - q.freeAt
  let s := s.charge q.lease 0 n
  s.onCore k (fun c => { c with
    kernel := none, chans := [], awl := [], fills := [], dcache := [], sbTail := [], freeAt := s.now, gated := true
    charge := tset c.charge q.lease (tget 0 c.charge q.lease + n) })

/-- Whether a kernel has ended, not as a prefix, and all its operations have completed: it completes now (04 R137, R164). -/
def State.kernelOver (s : State) (k : Nat) (q : Kernel) : Bool := q.ended && !q.admitted && (!q.stopped || q.refusal.isSome) && !s.frozen k && s.drained k

/-- KERNEL_COMPLETE (04 R137, R164): a kernel that has ended, not as a prefix, and whose operations have all completed. DESIGN CHOICE (log 44): EN is cleared for a prefix kernel that ends in a fault too; R181 clears it where a prefix kernel completes. -/
def execKernelComplete (c : CoreId) (s : State) : Host.Outcome State Fault Refusal := s.live fun s =>
  let k := ckey c
  match (s.core k).kernel with
  | none => .next s
  | some q =>
    if !s.kernelOver k q then .next s
    else
      let d := coreDie k
      let s := s.finishKernel k q q.status
      let s := if q.prefixLen.isSome then s.setFld (ringReg .RING_PREFIX d q.ring) RING_PREFIX.EN 0 else s
      let st := ringReg .RING_STATUS d q.ring
      if s.fld st RING_STATUS.STATE == 6 then .next s else .next ((s.setFld st RING_STATUS.STATE 0).wholeFault d q.ring)

/-! Prefix dumps. -/

/-- The device addresses of the bytes of element e, of b bits, of a tensor at a base, and the rows they lie in (02 R44). -/
def State.elemAt (s : State) (base b e : Nat) : List Nat × List Nat :=
  let at' := (List.range (ceilDiv (e * b % 8 + b) 8)).map (fun j => base + e * b / 8 + j)
  (at', at'.filterMap s.rowAt)

/-- The code of an element from rows as read, and whether one of its rows is poisoned. -/
def State.elemIn (s : State) (rows : List (Nat × RowImg)) (base b e : Nat) : Nat × Bool :=
  let x := s.elemAt base b e
  let img := fun (r : Nat) => (rows.find? (fun p => p.1 == r)).map (·.2)
  let byte := fun (a : Nat) => (((s.rowAt a).bind img).map (fun i => (i.bytes.getD (a % 512) 0#8).toNat)).getD 0
  (x.1.foldr (fun a v => byte a + 256 * v) 0 / 2 ^ (e * b % 8) % 2 ^ b, x.2.any (fun r => ((img r).map (·.poison)).getD false))

/-- The element offset of indices under a tensor descriptor (04 R141). -/
def TensorDesc.offset (t : TensorDesc) (ix : List Nat) : Nat :=
  let i := fun k => ix.getD k 0
  let st := fun k => t.stride.getD k 0
  if t.layout == 2 then
    let tiles0 := (t.ext.getD 0 0 + 63) / 64
    ((i 1 / 64) * tiles0 + i 0 / 64) * 4096 + (i 1 % 64) * 64 + i 0 % 64 + ((List.range 5).filter (fun k => 2 ≤ k && k < t.rank)).foldl (fun a k => a + i k * st k) 0
  else ((List.range 5).filter (· < t.rank)).foldl (fun a k => a + i k * st k) 0

/-- Element n of a tensor in element order, dimension 0 innermost, as its offset (04 R140, R181). -/
def TensorDesc.nth (t : TensorDesc) (n : Nat) : Nat :=
  let rec go : Nat → List Nat → Nat → List Nat
    | _, [], _ => []
    | 0, _, _ => []
    | f + 1, e :: es, m => (m % max 1 e) :: go f es (m / max 1 e)
  t.offset (go 5 (t.ext.take t.rank) n)

/-- Elements of a tensor. -/
def TensorDesc.size (t : TensorDesc) : Nat := (t.ext.take t.rank).foldl (· * ·) 1

/-- What writes and reads a core's dumps, as an agent. -/
def dumpAgent (k lease : Nat) : Agent := ⟨.dump, coreDie k, coreNum k, some lease, none, false⟩

/-- A row read for a dump (04 R181): of the core's own memory as its engines read it (03 R105), else as any row is read for the kernel's lease (05 R191, 07 R279). -/
def State.dumpRead (s : State) (k : Nat) (q : Kernel) (row : Nat) : State × RowImg :=
  if 28 * 2 ^ 31 ≤ row && coreOfRow row == k then s.readOwn k 2 (row % 2 ^ 15) q.idx
  else
    let x := (s.bookFor (dumpAgent k q.lease) row).readFar row (some q.lease)
    (if x.fresh then x.s.markKernel k else x.s, x.s.overlaid .dump row x.img)

/-- Bytes written from a device address that the lease may write; `bad`: whether the bytes between two offsets are poisoned. Of a row covered in part, a row memory is given zeros (05 R184) and DRAM keeps the rest (log 36).
ST_RANGE where they may not be written, or where a memory of whole rows is named off a row boundary (01 R32, 04 R181, R182, 05 R184, R188). -/
def State.dumpSpan (s : State) (k lease dest : Nat) (l : List Byte) (bad : Nat → Nat → Bool) : Except Status State :=
  if (2 ≤ bits dest 47 44 && dest % 512 != 0) || (s.findSpan (some lease) dest (dest + l.length - 1)).isSome then .error .range
  else .ok ((List.range ((dest + l.length - 1) / 512 + 1 - dest / 512)).foldl (fun s i =>
    let a := 512 * (dest / 512 + i)
    let lo := max dest a
    let hi := min (dest + l.length) (a + 512)
    let new := (l.drop (lo - dest)).take (hi - lo)
    match s.rowAt a with
    | none => s
    | some row =>
      let b := bad (lo - dest) (hi - dest)
      s.bookWrite (dumpAgent k lease) row (lo - a) (if isDram row then ⟨new, b⟩ else ⟨padRow new, b⟩)) s)

/-- The descriptor words a handle names, from the cache or the context's table, read as any row is; a table row outside the lease's memory is refused (01 R32, 04 R145, R148, 05 R191). -/
def State.descWords (s : State) (k : Nat) (q : Kernel) (h : Nat) : Except Status (State × List Word) :=
  match (s.core k).desc (hIndex h) with
  | some d => .ok (s, d)
  | none =>
    let row := s.fld (s.ringCtx (coreDie k) q.ring) CTX_TABLE.BASE_ROW + hIndex h / 8
    if !s.inPartition (coreDie k) row 1 q.lease then .error .range
    else
      let r := s.dumpRead k q (sdmRow (coreDie k) + row)
      .ok (r.1, (List.range 8).map (fun j => BitVec.ofNat 64 (leNat ((r.2.bytes.drop (64 * (hIndex h % 8) + 8 * j)).take 8))))

/-- What came of a dump entry: written, refused with a status, or waiting for another core's memory to take an access in (05 R202). -/
inductive Dumped where
  | done (s : State)
  | bad (st : Status)
  | wait

/-- A dump entry's bytes written, or refused. -/
def Dumped.of : Except Status State → Dumped
  | .ok s => .done s
  | .error e => .bad e

/-- A tensor of a dump list written densely in element order (04 R181). DESIGN CHOICE (log 44): the AUX_HANDLE of its descriptor is not looked at (R144 speaks of operations), the element codes alone are written, without the scale plane of an MX format, and TRANSPOSE does not change their order. -/
def State.dumpTensor (s : State) (k : Nat) (q : Kernel) (dest : Nat) (t : TensorDesc) : Dumped :=
  let b := fmtWidth t.fmt
  let bytes := ceilDiv (t.size * b) 8
  let offs := (List.range t.size).map t.nth
  match offs.findSome? (fun e => match s.find (some q.lease) (t.base + e * b / 8) with | .error x => some x | .ok _ => none) with
  | some e => .bad e
  | none =>
    let rowsOf := (offs.flatMap (fun e => (s.elemAt t.base b e).2)).dedup
    if rowsOf.any (fun r => 28 * 2 ^ 31 ≤ r && coreOfRow r != k && !s.mayReach r) then .wait
    else
      let rd := rowsOf.foldl (fun (p : State × List (Nat × RowImg)) r => let x := p.1.dumpRead k q r; (x.1, (r, x.2) :: p.2)) (s, [])
      let cells := offs.map (s.elemIn rd.2 t.base b)
      let packed := leBytes bytes ((cells.map (·.1)).foldr (fun c a => c % 2 ^ b + 2 ^ b * a) 0)
      Dumped.of (rd.1.dumpSpan k q.lease dest packed (fun lo hi => (List.range t.size).any (fun e => 8 * lo < (e + 1) * b && e * b < 8 * hi && (cells.getD e (0, false)).2)))

/-- One entry of a dump list (04 R180-R182): a tensor, or buffer rows with their poison bits. -/
def State.dumpEntry (s : State) (k : Nat) (q : Kernel) (w0 w1 : Nat) : Dumped :=
  let dest := bits w0 47 0
  if bits w0 63 48 != 0 || bits w1 61 45 != 0 then .bad .range
  else match bits w1 63 62 with
    | 0 =>
      let h := bits w1 15 0
      if bits w1 44 16 != 0 || hIndex h == 0 then .bad .range
      else match s.descWords k q h with
        | .error e => .bad e
        | .ok (s, d) =>
          match firstFail [need (dGen d == hGen h) .staleHandle, tensorCheck d] with
          | some e => .bad e
          | none => s.dumpTensor k q dest (tensorDesc d)
    | 1 =>
      let buf := bits w1 18 16
      let row := bits w1 31 19
      let n := bits w1 44 32 + 1
      if bits w1 15 0 != 0 || buf == 7 || bufRows buf < row + n then .bad .range
      else
        let rd := s.readHeld k q.idx (s.ctime k) ((List.range n).map (fun j => (j, buf, row + j)))
        Dumped.of (rd.1.dumpSpan k q.lease dest (rd.2.flatMap (fun r => r.img.bytes)) (fun lo hi => (List.range n).any (fun j => lo < 512 * (j + 1) && 512 * j < hi && ((rd.2.map (fun r => r.img.poison)).getD j false))))
    | _ => .bad .range

/-- The words of a dump list's entry, read as any row is for the kernel's lease. -/
def State.dumpWords (s : State) (k : Nat) (q : Kernel) (a : Nat) : State × List Word :=
  let r := s.rowWords q.lease none [a, a + 8]
  let s := ((([a, a + 8].filterMap s.rowAt).dedup).foldl (fun s row => s.bookFor (dumpAgent k q.lease) row) r.1)
  (if r.2.2 then s.markKernel k else s, r.2.1)

/-- The entries of a dump list written in order, up to the first invalid one or one that has to wait (04 R181, R182): the entries written, and once nothing is left of the list what it came to. -/
def State.dumpList (s : State) (k : Nat) (q : Kernel) (a : Nat) : Nat → State × Nat × Option (Option Status)
  | 0 => (s, 0, some none)
  | n + 1 =>
    match s.find (some q.lease) a with
    | .error _ => (s, 0, some (some .range))
    | .ok _ =>
      let r := s.dumpWords k q a
      match r.1.dumpEntry k q ((r.2.getD 0 0).toNat) ((r.2.getD 1 0).toNat) with
      | .bad e => (r.1, 0, some (some e))
      | .wait => (s, 0, none)
      | .done s' => let x := s'.dumpList k q (a + 16) n; (x.1, x.2.1 + 1, x.2.2)

/-- The entries of a prefix kernel's dump that are left written as far as they can be, and what the dump came to noted (04 R181, R182). -/
def State.writeDump (s : State) (k : Nat) (q : Kernel) : State :=
  let dr := ringReg .RING_DUMP (coreDie k) q.ring
  let r := s.dumpList k q (s.fld dr RING_DUMP.LIST + 16 * q.dumped) (s.fld dr RING_DUMP.COUNT - q.dumped)
  r.1.onCore k (fun c => { c with kernel := c.kernel.map (fun q => { q with dump := r.2.2, dumped := q.dumped + r.2.1 }) })

/-- PREFIX_DUMP (04 R181, R182): once its operations have completed, a prefix kernel writes its dump; once its END has been produced and the dump's accesses are through, it consumes the rest of the kernel and completes, STOPPED or with the invalid entry's status FAULTED. DESIGN CHOICE (log 44): NOTIFY of the END it passes over raises nothing. -/
def execPrefixDump (c : CoreId) (s : State) : Host.Outcome State Fault Refusal := s.live fun s =>
  let k := ckey c
  match (s.core k).kernel with
  | none => .next s
  | some q =>
    let d := coreDie k
    if !q.stopped || q.refusal.isSome || q.stopStatus.isSome || s.frozen k || !s.drained k then .next s
    else
      let s := if q.dump.isNone then s.writeDump k q else s
      let q := ((s.core k).kernel).getD q
      let rest := s.scanEnd d q.ring (s.ringDepth d q.ring) q.high
      if q.dump.isNone || !rest.2.2 || s.engineBusy .dump d (coreNum k) then .next s
      else
        let r := s.scanRead d q.ring (s.ringDepth d q.ring) q.high
        let s := if r.2 then r.1.markKernel k else r.1
        let q := ((s.core k).kernel).getD q
        let cons := ringReg .RING_CONS d q.ring
        let s := (s.count cons RING_CONS.CONSUMED rest.1).count cons RING_CONS.HEAD rest.2.1
        let s := s.setFld (ringReg .RING_PREFIX d q.ring) RING_PREFIX.EN 0
        let s := s.setFld (ringReg .RING_CFG d q.ring) RING_CFG.ENABLE 0
        let st := ringReg .RING_STATUS d q.ring
        match q.dump.bind id with
        | none => .next ((s.finishKernel k q q.status).setFld st RING_STATUS.STATE 5)
        | some e => .next (((s.finishKernel k q e).setFld st RING_STATUS.STATE 6).setFld st RING_STATUS.FAULT_STATUS (code e))

end Sys2Proof.Machine
end

