-- ==== Sys2Proof/Machine/Rings.lean ====
section
/-! DEFINITION. Writes to the ring registers (04 R149-R157, R163, R166, R167). -/
namespace Sys2Proof.Machine

/-- The lease that owns a ring (04 R151). -/
def State.ringLease (s : State) (d i : Nat) : Nat := s.fld (ringReg .RING_CFG d i) RING_CFG.LEASE

/-- A write to RING_BASE (04 R150): ignored while the ring is enabled or a kernel of it runs; an accepted one zeroes TAIL, PRODUCED, HEAD and CONSUMED. -/
def State.ringBaseWrite (s : State) (d i v : Nat) : State × Status :=
  let b := bits v 47 0
  if s.fld (ringReg .RING_CFG d i) RING_CFG.ENABLE == 1 || (s.ringCore d i).isSome then (s, .state)
  else if b % 4096 != 0 || 2 < bits b 47 44 then (s, .range)
  else
    let s := s.setReg (ringReg .RING_BASE d i) (BitVec.ofNat 64 b)
    ((s.setReg (ringReg .RING_PROD d i) 0).setReg (ringReg .RING_CONS d i) 0, .ok)

/-- Claims of a ring end on every core (04 R170). -/
def State.dropClaims (s : State) (g : Nat) : State :=
  { s with cores := s.cores.map (fun p => (p.1, { p.2 with claims := p.2.claims.filter (fun x => x.2 != g) })) }

/-- Whether RING_BASE is valid for a ring of a lease and size (04 R150, R152). -/
def State.ringBaseOk (s : State) (d i lease size : Nat) : Bool :=
  let b := s.fld (ringReg .RING_BASE d i) RING_BASE.BASE
  b % 4096 == 0 && bits b 47 44 ≤ 2 && (s.findSpan (some lease) b (b + 8 * 2 ^ size - 1)).isNone

/-- The status an ENABLE is refused with, by the conditions of 04 R152 and 15 R546, for the configuration word `w`. -/
def State.enableCheck (s : State) (d i w : Nat) : Option Status :=
  let f := fun (x : Fld) => bits w x.hi x.lo
  let lease := f RING_CFG.LEASE
  let size := f RING_CFG.SIZE_LOG2
  let ctx : Reg := ⟨.CTX_TABLE, selCd d, f RING_CFG.CONTEXT, 0⟩
  let k := coreKey d (f RING_CFG.CORE)
  firstFail
    [ need (s.exposed d (f RING_CFG.CORE)) .engineAbsent
    , need (s.ringStored d i != 6) .state
    , need (s.active lease) .state
    , need (!s.snapStopped lease) .busy
    , need (9 ≤ size && size ≤ 24 && s.fld ctx CTX_TABLE.VALID == 1 && s.fld ctx CTX_TABLE.LEASE == lease && s.boundTo k lease && s.ringBaseOk d i lease size) .range ]

/-- The fields of RING_CFG that only firmware writes (04 R151, 14 R524). -/
def ringOwn : List Fld := [RING_CFG.LEASE, RING_CFG.CONTEXT, RING_CFG.CORE, RING_CFG.SIZE_LOG2]

/-- A write to RING_CFG (04 R151-R153, R163): one that names an absent core has no effect (15 R550, R551); the ownership fields by firmware while ENABLE is 0, ENABLE = 1 only when its conditions hold; claims end when the ring is disabled or reconfigured (those of a ring that a fault or a prefix disabled, which nothing reads till then, when it is enabled again). -/
def State.ringCfgWrite (s : State) (a : Actor) (d i v : Nat) : State × Status :=
  let r := ringReg .RING_CFG d i
  let old := (s.reg r).toNat
  let on := s.fld r RING_CFG.ENABLE == 1
  let owned := ringOwn.any (fun f => bits v f.hi f.lo != bits old f.hi f.lo)
  let tmo := bits v RING_CFG.WAIT_TMO.hi RING_CFG.WAIT_TMO.lo
  let want := bits v RING_CFG.ENABLE.hi RING_CFG.ENABLE.lo == 1
  if !s.exposed d (bits v RING_CFG.CORE.hi RING_CFG.CORE.lo) then (s, .engineAbsent)
  else if isDcp a && (owned || 16 < tmo) then (s, .range)
  else
    let size := bits v RING_CFG.SIZE_LOG2.hi RING_CFG.SIZE_LOG2.lo
    let w := if a == .firmware && !on then
        ringOwn.foldl (fun w f =>
          if f == RING_CFG.SIZE_LOG2 && !(9 ≤ size && size ≤ 24) then w else setBits w f.hi f.lo (bits v f.hi f.lo)) old
      else old
    let w := if tmo ≤ 16 then setBits w RING_CFG.WAIT_TMO.hi RING_CFG.WAIT_TMO.lo tmo else w
    let w := setBits w RING_CFG.WHOLE.hi RING_CFG.WHOLE.lo (bits v RING_CFG.WHOLE.hi RING_CFG.WHOLE.lo)
    let bad := if want && !on then s.enableCheck d i w else none
    let enable := want && bad.isNone
    if isDcp a && bad.isSome then (s, bad.getD .range)
    else
      let s' := s.setReg r (BitVec.ofNat 64 (setBits w RING_CFG.ENABLE.hi RING_CFG.ENABLE.lo (flag enable)))
      let s' := if on != enable || ringOwn.any (fun f => bits w f.hi f.lo != bits old f.hi f.lo) then s'.dropClaims (globalRing d i) else s'
      let s' := if enable && !on && s.ringStored d i == 5 then s'.setFld (ringReg .RING_STATUS d i) RING_STATUS.STATE 0 else s'
      (s'.wholeFault d i, bad.getD .ok)

/-- A write to RING_DUMP (04 R179): LIST lies in space 0x0-0x2. -/
def State.ringDumpWrite (s : State) (a : Actor) (r : Reg) (v : Nat) : State × Status :=
  if bits v RING_DUMP.LIST.hi RING_DUMP.LIST.lo / 2 ^ 44 ≤ 2 then s.plainWrite a r v
  else if isDcp a then (s, .range)
  else s.plainWrite a r (keepFields (s.reg r).toNat v [RING_DUMP.LIST])

/-- A refused push (04 R155). -/
def State.pushRefused (s : State) (d i : Nat) : State := s.setW1c (ringReg .RING_STATUS d i) RING_STATUS.PUSH_REFUSED

/-- UNDERRUN ends when a bundle is available again (04 R159). -/
def State.underrunOver (s : State) (d i : Nat) : State :=
  if s.ringStored d i == 7 && s.ringDepth d i != 0 then s.setFld (ringReg .RING_STATUS d i) RING_STATUS.STATE 3 else s

/-- A write to RING_PROD (04 R154, R155, R163; 15 R546). -/
def State.ringProdWrite (s : State) (d i v : Nat) : State × Status :=
  let r := ringReg .RING_PROD d i
  let tail := bits v 31 0
  let prod := bits v 63 32
  let dt := diff32 tail (s.fld r RING_PROD.TAIL)
  let dp := diff32 prod (s.fld r RING_PROD.PRODUCED)
  if !s.active (s.ringLease d i) then (s, .state)
  else if s.snapStopped (s.ringLease d i) then (s, .busy)
  else if (s.ringSize d i : Int) < diff32 tail (s.ringHead d i) then (s.pushRefused d i, .busy)
  else if dt < 0 || dp < 0 || dt < dp then (s.pushRefused d i, .range)
  else (((s.setReg r (BitVec.ofNat 64 v)).underrunOver d i).wholeFault d i, .ok)

/-- RING_CTRL CLEAR_FAULT: FAULTED is left for DISABLED (04 R166). -/
def State.clearFault (s : State) (d i : Nat) : State :=
  let r := ringReg .RING_STATUS d i
  if s.fld r RING_STATUS.STATE == 6 then (s.setFld r RING_STATUS.STATE 0).setFld r RING_STATUS.FAULT_STATUS 0 else s

/-- RING_CTRL SKIP_KERNEL: the bundles up to and including the next produced END are consumed, or all produced (04 R166). -/
def State.skipKernel (s : State) (d i : Nat) : State :=
  let n := s.scanEnd d i (s.ringDepth d i) (s.ringHead d i)
  let r := ringReg .RING_CONS d i
  let s := (s.scanRead d i (s.ringDepth d i) (s.ringHead d i)).1
  (s.count r RING_CONS.CONSUMED n.1).count r RING_CONS.HEAD n.2.1

/-- RING_CTRL DISCARD: HEAD becomes TAIL and CONSUMED PRODUCED (04 R166). -/
def State.discard (s : State) (d i : Nat) : State :=
  let r := ringReg .RING_CONS d i
  let p := ringReg .RING_PROD d i
  (s.setFld r RING_CONS.HEAD (s.fld p RING_PROD.TAIL)).setFld r RING_CONS.CONSUMED (s.fld p RING_PROD.PRODUCED)

/-- A write to RING_CTRL (04 R166, R167): the clear first; nothing while a kernel of the ring runs. -/
def State.ringCtrlWrite (s : State) (d i v : Nat) : State × Status :=
  if (s.ringCore d i).isSome then (s, .state)
  else
    let s := if bitAt v 0 then s.clearFault d i else s
    let s := if bitAt v 2 then s.skipKernel d i else s
    (if bitAt v 1 then s.discard d i else s, .ok)

end Sys2Proof.Machine
end

