-- ==== Sys2Proof/Machine/RowMem.lean ====
section
/-! DEFINITION. Patrol, error-counter clears, partitions, scrubs, the weight cache's configuration and the rows of the activation stacks (05 R193-R226). -/
namespace Sys2Proof.Machine

/-! Patrol. -/

/-- The row key of a row of a bank, if the bank has it and its core is exposed (05 R183, R193). -/
def State.bankRow (s : State) (b : BankId) (row : Nat) : Option Nat :=
  match b with
  | .core c b =>
    let buf := if b.val < 16 then 2 else if b.val < 20 then b.val - 13 else if b.val == 20 then 0 else 1
    let first := if b.val < 16 then 512 * b.val else 0
    let n := if b.val < 16 then 512 else bufRows buf
    if s.exposed c.die.val c.core.val && row < n then some (bufRow (ckey c) buf (first + row)) else none
  | .shared d b => if row < 8192 then some (sdmRow d.val + 8192 * b.val + row) else none

/-- The key of a bank: the row key of its first row. -/
def State.bankId (s : State) (b : BankId) : Nat := (s.bankRow b 0).getD 0

/-- The counter of a bank (05 R193). -/
def bankCount (b : BankId) : Reg :=
  match b with
  | .core c b => ⟨.ROW_ECC_CNT, selCd c.die.val, c.core.val, b.val⟩
  | .shared d b => ⟨.SDM_ECC_CNT, selCd d.val, b.val, 0⟩

/-- Words counted for a bank (05 R194). -/
def State.countBank (s : State) (b : BankId) (row corr unc : Nat) : State :=
  match b with
  | .core c i =>
    let n := if i.val < 16 then 2 else if i.val < 20 then i.val - 13 else if i.val == 20 then 0 else 1
    s.countCoreEcc (ckey c) n (if i.val < 16 then 512 * i.val + row else row) corr unc
  | .shared d i => s.countSdmEcc d.val (8192 * i.val + row) corr unc

/-- Whether the accumulator of a core is in use beside what the scoreboard holds (05 R196): by a pass that has sums to add, or by the O slots of a soft-maximum operation (10 R395). -/
def State.slotsBusy (s : State) (k : Nat) : Bool :=
  let c := s.core k
  let t := s.ctime k
  c.arrays.any (fun a => a.2.passes.any (fun p => p.added < p.count)) || (c.vec0 ++ c.vec1).any (fun v => !(v.slots t).isEmpty) || c.sbTail.any (fun e => t < e.2 && e.1.cls == 4)

/-- Whether no other access uses a bank now (05 R196): no operation of its core holds an entry in it or uses its slots, and it has made no grant in this cycle. -/
def State.bankIdle (s : State) (b : BankId) : Bool :=
  match b with
  | .core c i =>
    let k := ckey c
    let bank := fun (e : SbEntry) (r : Nat) => (bankOf e.mem r).1 == i.val
    ((s.core k).entries (s.ctime k)).all (fun e => e.count == 0 || 7 ≤ e.mem || !(List.range e.count).any (fun j => bank e (e.row + j))) &&
      (i.val != 21 || !s.slotsBusy k) && (15 < i.val || !s.justGranted (.core c))
  | .shared d i => !s.justGranted (.shared d i)

/-- PATROL_READ (05 R196): a row read in a cycle in which its bank is idle: words counted, and a corrected row waits for its write-back; no freeze, no event. -/
def execPatrolRead (b : BankId) (row : Nat) (s : State) : Host.Outcome State Fault Refusal := s.live fun s =>
  match s.bankRow b row with
  | none => .next s
  | some r =>
    if !s.bankIdle b then .next s
    else
    let rd := s.mem.readRow r s.fresh
    let s := if rd.unc == 0 then s else { s with fresh := s.fresh + 1 }
    let s := s.countBank b row rd.corr rd.unc
    let ones := (s.mem.damageOf r).filter (fun d => d.syms.length == 1)
    if ones.isEmpty then .next s else .next { s with patrol := s.patrol ++ [⟨s.bankId b, ones⟩] }

/-- PATROL_WRITEBACK (05 R196): the oldest corrected row of a bank is written back in an idle cycle of the bank; where a row has been written meanwhile there is nothing left to repair. -/
def execPatrolWriteback (b : BankId) (s : State) : Host.Outcome State Fault Refusal := s.live fun s =>
  match s.patrol.find? (fun p => p.bank == s.bankId b) with
  | none => .next s
  | some p =>
    if !s.bankIdle b then .next s
    else .next { s with
      patrol := s.patrol.erase p
      mem := { s.mem with damage := s.mem.damage.filter (fun d => !p.fixes.contains d) } }

/-- ROW_ECC_CLR of a core or of the shared banks (05 R195). -/
def State.rowEccClr (s : State) (d : Nat) (core : Option Nat) (v : Nat) : State × Status :=
  if !bitAt v 0 then (s, .ok)
  else match core with
    | some c => ((List.range 22).foldl (fun s b => s.clearReg ⟨.ROW_ECC_CNT, selCd d, c, b⟩) s, .ok)
    | none => ((List.range 96).foldl (fun s b => s.clearReg ⟨.SDM_ECC_CNT, selCd d, b, 0⟩) s, .ok)

/-! Partitions and the weight-cache carve-out. -/

/-- SDM_WCACHE_CFG of a die (05 R211). -/
def wcacheCfg (d : Nat) : Reg := ⟨.SDM_WCACHE_CFG, selCd d, 0, 0⟩

/-- SDM_WCACHE_STAT of a die (05 R217). -/
def wcacheStat (d : Nat) : Reg := ⟨.SDM_WCACHE_STAT, selCd d, 0, 0⟩

/-- BANKS of the carve-out (05 R211). -/
def State.carve (s : State) (d : Nat) : Nat := s.fld (wcacheCfg d) SDM_WCACHE_CFG.BANKS

/-- Whether a valid partition other than entry `p` holds a bank of a range (05 R205). -/
def State.partsMeet (s : State) (d p first n : Nat) : Bool :=
  (List.range 32).any (fun i =>
    let r := sdmPart d i
    let f := s.fld r SDM_PART.FIRST_BANK
    i != p && s.fld r SDM_PART.VALID == 1 && f < first + n && first < f + s.fld r SDM_PART.BANKS)

/-- Whether a range of banks takes in a retired bank of the die (18 R617). -/
def State.hasRetired (s : State) (d first n : Nat) : Bool := s.retired.any (fun b => b.1 == d && first ≤ b.2 && b.2 < first + n)

/-- The status a range of banks is refused with as a valid partition in entry `p` (05 R205, 18 R617). -/
def State.partCheck (s : State) (d p first n : Nat) : Option Status :=
  firstFail [need (first + n ≤ 96 && !s.partsMeet d p first n && first + n ≤ 96 - s.carve d) .range, need (!s.hasRetired d first n) .noResource]

/-- The fields of a register that record which lease owns a resource, beside those that the register's own write rule keeps: they change only through the lease opcodes (14 R524). -/
def RegName.ownerFlds : RegName → List Fld
  | .CTX_TABLE => [CTX_TABLE.LEASE, CTX_TABLE.VALID]
  | .SDM_PART => [SDM_PART.LEASE, SDM_PART.VALID]
  | _ => []

/-- Whether a write changes an owner field of a register. -/
def State.changesOwner (s : State) (r : Reg) (v : Nat) : Bool := r.name.ownerFlds.any (fun f => bits v f.hi f.lo != s.fld r f)

/-- The lines of rows that `p` selects, in a core's own caches, discarded (12 R458). -/
def HcCaches.drop (c : HcCaches) (p : Nat → Bool) : HcCaches :=
  let keep := fun (l : List Nat) => l.filter (fun x => !p (x / 8))
  ⟨keep c.l1i, keep c.l1d, keep c.l2⟩

/-- Every cached copy of the rows that `p` selects discarded, dirty or not, at every level of the caches, and errors in the copies with them (12 R463). -/
def State.dropCopies (s : State) (p : Nat → Bool) : State :=
  { s with cached := s.cached.filter (fun c => !p c.1), hcCaches := s.hcCaches.map (fun c => (c.1, c.2.drop p)), cacheUpsets := s.cacheUpsets.filter (fun u => !p u.row) }

/-- Cached copies of rows of memory that changes its lease discarded without write-back (12 R468). -/
def State.dropRows (s : State) (p : Nat → Bool) : State :=
  { s.dropCopies p with writeBacks := s.writeBacks.filter (fun w => !p w.row) }

/-- A partition about to leave its lease: cached copies of its rows are discarded, and its scrub begins (05 R208, 12 R468). -/
def State.scrubPart (s : State) (d p : Nat) : State :=
  let first := s.fld (sdmPart d p) SDM_PART.FIRST_BANK
  let n := s.fld (sdmPart d p) SDM_PART.BANKS
  let s := s.dropRows (fun row => sdmRow d + 8192 * first ≤ row && row < sdmRow d + 8192 * (first + n))
  { s with scrubs := s.scrubs ++ [⟨d, p, first, n⟩] }

/-- A write to a partition entry (05 R204, R205, 18 R617). DESIGN CHOICE (log 46): a write that takes a valid entry from its lease acts on the rows as a binding command's release does. -/
def State.sdmPartWrite (s : State) (a : Actor) (d p v : Nat) : State × Status :=
  let r := sdmPart d p
  let w := RegName.written .SDM_PART (s.reg r).toNat v
  let f := fun (x : Fld) => bits w x.hi x.lo
  let leaves := s.fld r SDM_PART.VALID == 1 && (f SDM_PART.VALID == 0 || f SDM_PART.LEASE != s.fld r SDM_PART.LEASE)
  if isDcp a && (!RegName.inRange .SDM_PART v || s.changesOwner r v) then (s, .range)
  else match (if bits v SDM_PART.VALID.hi SDM_PART.VALID.lo == 1 then s.partCheck d p (f SDM_PART.FIRST_BANK) (f SDM_PART.BANKS) else none) with
    | some st => (s, st)
    | none => ((if leaves then s.scrubPart d p else s).setReg r (BitVec.ofNat 64 w), .ok)

/-- A scrub completed (05 R208-R210): the rows are zero with their poison bits clear, and the resource counts as bound from now on; after a change of holder the chosen lease is holder (15 R555). -/
def State.scrubDone (s : State) (t : ScrubTarget) : State :=
  match t with
  | .core c =>
    let k := ckey c
    if (s.core k).scrubDue.isNone then s
    else
      let s := match (s.core k).switchAt, (s.core k).scrubDue with
        | some _, some n => s.setFld (tcBind k) TC_BIND.HOLDER n
        | _, _ => s
      (s.scrubCore k).onCore k (fun x => { x with scrubDue := none })
  | .part d p =>
    match s.scrubs.find? (fun x => x.die == d.val && x.part == p.val) with
    | none => s
    | some x => { s with scrubs := s.scrubs.erase x, mem := s.mem.zeroRows (sdmRow d.val + 8192 * x.first) (8192 * x.banks) }

/-- A write to SDM_WCACHE_CFG (05 R212): an accepted one invalidates every line and clears the statistics. -/
def State.wcacheCfgWrite (s : State) (d v : Nat) : State × Status :=
  let n := bits v SDM_WCACHE_CFG.BANKS.hi SDM_WCACHE_CFG.BANKS.lo
  if 32 < n then (s, .range)
  else if s.partsMeet d 32 (96 - n) n then (s, .state)
  else
    let s := { s with wcache := tset s.wcache d [], reqs := s.reqs.map (fun (r : MemReq) => if dieOfRow r.row == d then { r with install := false } else r) }
    ((s.setFld (wcacheCfg d) SDM_WCACHE_CFG.BANKS n).resetReg (wcacheStat d), .ok)

/-! The weight cache (05 R213, R214, R217). -/

/-- The set of a line address (05 R213). -/
def State.lineSet (s : State) (d a : Nat) : Nat := a / 4096 % (64 * s.carve d)

/-- Whether the cache of a die holds a row of a lease valid. -/
def State.cacheHit (s : State) (d addr lease : Nat) : Bool :=
  (tget [] s.wcache d).any (fun l => l.addr == addr / 4096 * 4096 && l.lease == lease && bitAt l.rows (addr / 512 % 8))

/-- A line used: it becomes the most recent of its die's list. -/
def State.cacheTouch (s : State) (d addr lease : Nat) : State :=
  let ls := tget [] s.wcache d
  match ls.find? (fun l => l.addr == addr / 4096 * 4096 && l.lease == lease) with
  | none => s
  | some l => { s with wcache := tset s.wcache d (l :: ls.filter (fun x => x != l)) }

/-- The shared bank that holds a line's set: the carve-out is the top BANKS banks, 64 sets in each (05 R211, R213). -/
def State.lineBank (s : State) (d addr : Nat) : Nat := 96 - s.carve d + s.lineSet d addr / 64

/-- The row of shared die memory in which a line keeps its row j. DESIGN CHOICE (log 45): within its bank, set after set, way after way, row after row; the manual names the bank alone (05 R211, R213). -/
def State.lineRow (s : State) (d : Nat) (l : CacheLine) (j : Nat) : Nat := 8192 * s.lineBank d l.addr + s.lineSet d l.addr % 64 * 128 + l.way * 8 + j

/-- The line that holds an address for a lease. -/
def State.lineOf (s : State) (d addr lease : Nat) : Option CacheLine :=
  (tget [] s.wcache d).find? (fun l => l.addr == addr / 4096 * 4096 && l.lease == lease)

/-- Where a row goes in the cache: its line, which takes a free way of its set or that of the set's least recent line, and the other lines that stay (05 R213). -/
def State.linePlace (s : State) (d addr lease : Nat) : CacheLine × List CacheLine :=
  let ls := tget [] s.wcache d
  match s.lineOf d addr lease with
  | some l => (l, ls.filter (fun x => x != l))
  | none =>
    let a := addr / 4096 * 4096
    let mates := ls.filter (fun l => s.lineSet d l.addr == s.lineSet d a)
    match (List.range 16).find? (fun w => mates.all (fun l => l.way != w)), mates.getLast? with
    | some w, _ => (⟨a, lease, 0, w⟩, ls)
    | none, some old => (⟨a, lease, 0, old.way⟩, ls.filter (fun x => x != old))
    | none, none => (⟨a, lease, 0, 0⟩, ls)

/-- A row installed in the cache, but in a retired bank (18 R617): it is written to its place in the carve-out, its line's valid bit is set, and the line becomes the most recent (05 R197, R213, R214). -/
def State.cacheInstall (s : State) (d addr lease : Nat) (img : RowImg) : State :=
  if s.carve d == 0 || s.retired.contains (d, s.lineBank d addr) then s
  else
    let j := addr / 512 % 8
    let p := s.linePlace d addr lease
    let row := s.lineRow d p.1 j
    let s := { s with wcache := tset s.wcache d ({ p.1 with rows := setBit p.1.rows j true } :: p.2) }
    (s.writeSdm d row img).bookWrite ⟨.cache, d, 0, some lease, none, false⟩ (sdmRow d + row) 0 img

/-! Activation stacks (05 R218-R226): their registers, and when a row of a push or pop may move. -/

/-- A register of stack g of CDd (05 R218). -/
def astk (n : RegName) (d g : Nat) : Reg := ⟨n, selCd d, g, 0⟩
/-- ASTK_FSTAT of a stack (08 R319). -/
def fstat (d g : Nat) : Reg := ⟨.ASTK_FSTAT, selCd d, g, 0⟩
/-- A register of frame f of a stack (08 R319). -/
def frameReg (n : RegName) (d g f : Nat) : Reg := ⟨n, selCd d, g, f⟩

/-- TOP of a stack. -/
def State.stackTop (s : State) (d g : Nat) : Nat := s.fld (astk .ASTK_TOP d g) ASTK_TOP.TOP
/-- FLOOR of a stack. -/
def State.stackFloor (s : State) (d g : Nat) : Nat := s.fld (astk .ASTK_FLOOR d g) ASTK_FLOOR.FLOOR
/-- LIMIT of a stack. -/
def State.stackLimit (s : State) (d g : Nat) : Nat := s.fld (astkCfg d g) ASTK_CFG.LIMIT
/-- The lease that owns a stack. -/
def State.stackLease (s : State) (d g : Nat) : Nat := s.fld (astkCfg d g) ASTK_CFG.LEASE

/-- The shared-die-memory row of logical row x (05 R221). -/
def State.stackRow (s : State) (d g x : Nat) : Nat := s.fld (astkCfg d g) ASTK_CFG.BASE_ROW + x % max 1 (s.stackLimit d g)

/-- The device address of logical row x in the spill extent (05 R221). -/
def State.spillAddr (s : State) (d g x : Nat) : Nat := s.fld (astk .ASTK_SPILL d g) ASTK_SPILL.SPILL_BASE + 512 * x

/-- A stack's moves in progress. -/
def State.stackRun (s : State) (d g : Nat) : StackRun := tget StackRun.idle s.stackRuns (d * 64 + g)

/-- A stack's moves in progress replaced. -/
def State.setRun (s : State) (d g : Nat) (r : StackRun) : State := { s with stackRuns := tset s.stackRuns (d * 64 + g) r }

/-- The push or pop that a stack moves a row a cycle (05 R222): the core and channel, the transfer, and the half whose rows it moves. A stopped channel moves none (06 R247). -/
def State.stackMove (s : State) (d g : Nat) : Option (Nat × Nat × Xfer × HalfFill) :=
  s.cores.findSome? (fun p => if coreDie p.1 != d then none else p.2.chans.findSome? (fun c => match c.2.cur with
    | some x => if c.2.stopped || x.d.stack != g || x.d.dir < 2 then none else (c.2.halves.find? (fun h => h.low.isSome && h.xfer == x.id)).map (fun h => (p.1, c.1, x, h))
    | none => none))

/-- Whether a request moves a row of some stack, pair or chunk, and waits to be granted. -/
def MemReq.movesRow (r : MemReq) : Bool := r.stage == 0 && (match r.owner with | .chan .. => true | .spillOut .. => true | .refillIn .. => true | _ => false)

/-- Whether a stack lets the request for logical row r be formed (05 R222, R223, R225, R226): a push writes a row once the chunk whose SRAM row it reuses has been read out, a pop reads a row that lies at or above FLOOR, and neither overtakes a request for the same SRAM row that has not been granted. -/
def State.stackReady (s : State) (d g : Nat) (push : Bool) (r : Nat) : Bool :=
  let run := s.stackRun d g
  let f := s.stackFloor d g
  let lim := s.stackLimit d g
  let sram := sdmRow d + s.stackRow d g r
  (if push then r < f + lim - (if run.refill then 64 else 0) && (r + 64 < f + lim || run.readOut ≤ s.now) else f ≤ r) &&
    !s.reqs.any (fun q => q.movesRow && q.row == sram && (push || q.write))

/-- Whether the push or pop that a stack moves waits for a spill or refill (06 R253). -/
def State.stackWaits (s : State) (d g : Nat) : Bool :=
  match s.stackMove d g with
  | some (_, _, x, h) => (x.level h).any (fun r => !s.stackReady d g (x.d.dir == 2) r)
  | none => false

end Sys2Proof.Machine
end

