-- ==== Sys2Proof/Machine/Temper.lean ====
section
/-! DEFINITION. The Temper arbiter (06 R248-R257, 05 R202, R203): which requests are granted in a cycle, and what a grant does. -/
namespace Sys2Proof.Machine

/-- Cycles from a request's grant to its landing or the return of its acknowledgement, on a unit in native mode and within the die that holds the row (06 R240). -/
def MemReq.latency (r : MemReq) : Nat :=
  let base := match r.point with
    | .ctl _ k => if k.val < 4 then 440 else 660
    | .shared _ _ => 24
    | .core c => match r.owner with
      | .chan k .. => if k == ckey c then 4 else 16
      | .awl k _ _ => if k == ckey c then 4 else 16
      | _ => 16
  base

/-- Cycles from a request's grant to its landing or the return of its acknowledgement (06 R240): 40 more for each bridge hop; in arbitrary-ratio mode its crossings and hops, there and back, take longer, and within a tensor core nothing does (16 R565). -/
def State.latency (s : State) (r : MemReq) : Nat :=
  if r.inner.isSome then r.latency
  else r.latency + s.crossCycles (2 * r.id) + s.crossCycles (2 * r.id + 1) + hops r.owner.die (pointDie r.point) * (s.hopCycles (2 * r.id) + s.hopCycles (2 * r.id + 1))

/-- The deadline a request ranks by now: a spill's or refill's is its formation cycle while a push or pop waits on it (06 R253). -/
def State.deadlineOf (s : State) (r : MemReq) : Option Nat :=
  let at' := fun (d g : Nat) => if s.stackWaits d g then some r.f else none
  match r.owner with
  | .spillOut d g _ => at' d g
  | .spill d g => at' d g
  | .refill d g _ => at' d g
  | .refillIn d g => at' d g
  | _ => r.deadline

/-- Whether request a ranks before request b (06 R250, R252): promoted requests first, the oldest of them first; then the earlier deadline, the earlier formation, the lower requester. -/
def State.ranksBefore (s : State) (a b : MemReq) : Bool :=
  if a.promoted != b.promoted then a.promoted
  else if a.promoted then a.reached < b.reached || (a.reached == b.reached && a.rank < b.rank)
  else
    let byF := a.f < b.f || (a.f == b.f && a.rank < b.rank)
    match s.deadlineOf a, s.deadlineOf b with
    | some x, some y => x < y || (x == y && byF)
    | some _, none => true
    | none, some _ => false
    | none, none => byF

/-- Requests in the order of rank. -/
def State.rankReqs (s : State) (l : List MemReq) : List MemReq :=
  l.foldl (fun acc r => acc.takeWhile (fun x => !s.ranksBefore r x) ++ r :: acc.dropWhile (fun x => !s.ranksBefore r x)) []

/-- MCQ_STAT of a controller (06 R255). -/
def mcqStat (d k : Nat) : Reg := ⟨.MCQ_STAT, selCd d, k, 0⟩

/-- Slots of a controller in use: requests granted and not yet performed (06 R251). -/
def State.slotsUsed (s : State) (p : GrantPoint) : List MemReq := s.reqs.filter (fun r => r.point == p && r.stage == 1)

/-- The slots of a controller in use, noted after a change (06 R255). -/
def State.noteSlots (s : State) (p : GrantPoint) : State :=
  match p with
  | .ctl d k => s.setFld (mcqStat d.val k.val) MCQ_STAT.INFLIGHT (s.slotsUsed p).length
  | _ => s

/-- Requests that `p` selects discarded; the slots of those granted are free (06 R255, 15 R545). -/
def State.dropReqs (s : State) (p : MemReq → Bool) : State :=
  ((s.reqs.filter (fun r => p r && r.stage == 1)).map (·.point)).eraseDups.foldl State.noteSlots { s with reqs := s.reqs.filter (fun r => !p r) }

/-- Whether a DRAM request may be granted now but for the bank cap: its bank is not being refreshed, its channel is up, and no fill of its block is in progress (07 R292, R293, R297, R300). -/
def State.dramReady (s : State) (d k : Nat) (r : MemReq) : Bool :=
  let c := s.ctl d k
  tget? c.refreshed (bankKey r.row) != some s.now && !s.isDown r.row && c.fills.all (fun f => f.blk != tagBlock r.row)

/-- Whether a bank is at its cap: a quarter of the controller's slots (06 R251). -/
def State.atCap (s : State) (p : GrantPoint) (k : Nat) (r : MemReq) : Bool :=
  let n := ((s.slotsUsed p).filter (fun x => bankKey x.row == bankKey r.row)).length
  (if k < 4 then 800 else 100) ≤ n

/-- Rows a controller may grant in a cycle and the cycles until the next grants (06 R251, 07 R301). -/
def State.grantRate (s : State) (d k : Nat) : Nat × Nat :=
  let hot := s.fld (memc .MEMC_THERM d k) MEMC_THERM.THROTTLE == 1
  if k < 4 then (if hot then (2, 1) else (4, 1)) else if hot then (1, 2) else (1, 1)

/-- A channel in self refresh woken: it is up 440 cycles from now, unless it is waking already (07 R293). -/
def State.wake (s : State) (d k ch : Nat) : State :=
  if (s.ctl d k).wakes.any (fun w => w.1 == ch) then s else s.onCtl d k (fun c => { c with wakes := c.wakes ++ [(ch, s.now + 440)] })

/-- Channels in self refresh woken by the requests that have reached them: each is up 440 cycles later, and its requests are then eligible (07 R293). -/
def State.meetDown (s : State) : State :=
  s.reqs.foldl (fun s r =>
    match r.point with
    | .ctl d k =>
      if r.stage != 0 || s.now < r.reached || !s.isDown r.row then s else s.wake d.val k.val (chanOfRow r.row)
    | _ => s) s

/-- The words of a piece that a request writes: (word, its 32 bytes). -/
def MemReq.words (r : MemReq) : List (Nat × List Byte) := (List.range (r.bytes / 32)).map (fun i => (r.off / 32 + i, (r.img.bytes.drop (32 * i)).take 32))

/-- The copier's own copy of a DRAM row brought up to a demand write of some of its words, which is performed on both (07 R278, R287). -/
def State.patchCopy (s : State) (r : MemReq) (bad : Bool) : State :=
  let c := ctlOf r.row
  match tget? (s.ctl c.1 c.2).copied r.row with
  | none => s
  | some i =>
    let bytes := r.words.foldl (fun b w => b.take (32 * w.1) ++ w.2 ++ b.drop (32 * w.1 + 32)) i.1.bytes
    let clean := r.words.foldl (fun k w => setBit k w.1 (!bad)) (if i.1.poison then i.2 else 65535)
    s.onCtl c.1 c.2 (fun x => { x with copied := tset x.copied r.row (⟨bytes, clean != 65535⟩, clean) })

/-- An engine's write of a part of a row as one of the whole row: laid over the row as it is read in the grant, which is charged as a read (15 R558). -/
def State.wholeWrite (s : State) (r : MemReq) : State × MemReq :=
  if !r.owner.isEngine || r.bytes == 512 then (s, r)
  else
    let f := s.readFar r.row r.lease
    (f.s.chargeBytes r.lease r.row 512, { r with off := 0, bytes := 512, img := r.over (⟨padRow f.img.bytes, f.img.poison⟩) })

/-- A granted write's data become what reads see (07 R278, R298): the row, or the words of a piece, of the far memory. -/
def State.applyWrite (s : State) (r : MemReq) : State :=
  let ws := fun (x : Nat) => r.off / 32 ≤ x && x < r.off / 32 + r.bytes / 32
  if isDram r.row then
    let s := s.dropLines r.row
    if r.bytes == 512 then
      let p := (s.uncopy r.row).meetParity r.row r.img
      p.1.storeRow r.row p.2
    else
      let p := s.meetParity r.row r.img
      let s := p.1.patchCopy r p.2.poison
      ({ s with mem := s.mem.writePiece r.row r.words p.2.poison }).wrote r.row ws
  else if r.bytes == 512 then s.storeRow r.row r.img
  else
    let m := s.mem.writeWords r.row r.words
    ({ s with mem := if r.img.poison then { m with poison := sins m.poison r.row } else m }).wrote r.row ws

/-- A request's contents taken out of the row it reads. -/
def MemReq.taking (r : MemReq) (img : RowImg) : MemReq := { r with img := if r.bytes == 512 then img else ⟨(img.bytes.drop r.off).take r.bytes, img.poison⟩ }

/-- A granted read's contents taken (06 R257), with what its correction finds. -/
def State.applyRead (s : State) (r : MemReq) : State × MemReq :=
  let p := s.readCells r.row (fun w => r.off ≤ 32 * w && 32 * w < r.off + r.bytes)
  let rd := p.2
  let s := if rd.unc == 0 then p.1 else { p.1 with fresh := p.1.fresh + 1 }
  (s, { r.taking rd.img with corr := rd.corr, unc := rd.unc, fresh := 0 < rd.unc && !rd.stored })

/-- A request granted at a bank or crossing, with the cycle of its landing or acknowledgement. -/
def State.grantMade (s : State) (r : MemReq) : State × MemReq :=
  match r.inner with
  | some k => (s, { r with stage := 2, grantedAt := s.now, due := s.ctime k + s.latency r })
  | none =>
    let x := s.crossingsBack r.owner (pointDie r.point) (s.now + s.latency r)
    (x.2, { r with stage := 2, grantedAt := s.now, due := x.1 })

/-- A row of a shared bank or of a core's memory read for a request: a correction adds two cycles to its landing (03 R112, 05 R191, R202), those of the freeze where the core reads its own memory (03 R108, R111). -/
def State.readFor (s : State) (r : MemReq) (row : Nat) : State × MemReq :=
  let f := s.readFar row r.lease
  (f.s.chargeBytes r.lease row r.bytes, { r.taking f.img with due := r.due + (if f.corrected && r.inner.isNone then 2 else 0), fresh := f.fresh })

/-- A weight-cache hit whose line has left the cache before its grant reads DRAM. DESIGN CHOICE (log 45): the manual does not say what becomes of it (05 R214, R215). -/
def State.missLate (s : State) (r : MemReq) : State × MemReq := (s, { r with point := pointOf r.row, reached := s.now, eligible := s.now, install := true })

/-- A weight-cache hit served as a read of shared die memory: the row its line keeps, charged as such (05 R214, R217, 15 R558). -/
def State.serveHit (s : State) (r : MemReq) : State × MemReq :=
  let d := pointDie r.point
  let n := r.lease.getD 0
  match s.lineOf d r.addr n with
  | none => s.missLate r
  | some l =>
    if !bitAt l.rows (r.addr / 512 % 8) then s.missLate r
    else
      let p := (s.cacheTouch d r.addr n).grantMade r
      p.1.readFor p.2 (sdmRow d + s.lineRow d l (r.addr / 512 % 8))

/-- The bytes a request is charged when it is performed (15 R558): 64 for a piece of the Awl engine, else a row; a row that the weight cache installs is part of the stream's own read. -/
def MemReq.charged (r : MemReq) : Nat := if r.owner.kind == some .cache then 0 else if r.owner.isEngine then 512 else r.bytes

/-- Whether a performed request is kept for what answers it: the memory command of the session it belongs to (14 R675), whose numbers follow the leases' own, or the response to another unit's packet (11 R428). -/
def ReqOwner.keeps : ReqOwner → Bool
  | .engine .dcp _ i => 256 ≤ i
  | .engine .peer _ _ => true
  | _ => false

/-- A granted read of an engine: it has been made by the command that asked for it (log 16), but for one that is kept, whose contents are those of its grant (06 R257). -/
def State.engineRead (s : State) (r : MemReq) : State × MemReq :=
  if r.owner.keeps then let f := s.readFar r.row r.lease; (f.s, { r with img := f.img }) else (s, r)

/-- A request of a shared bank or a core's crossing performed in its grant: corrections, events and charges (05 R191, R202, 06 R240). -/
def State.performSram (s : State) (r : MemReq) : State × MemReq :=
  if isDram r.row then s.serveHit r
  else
    let p := s.grantMade r
    if r.write then
      let w := p.1.wholeWrite p.2
      ((w.1.applyWrite w.2).chargeBytes r.lease r.row r.charged, w.2)
    else if r.owner.isEngine then
      let f := p.1.engineRead p.2
      (f.1.chargeBytes r.lease r.row r.charged, f.2)
    else p.1.readFor p.2 r.row

/-- A granted request put after every request granted before it. -/
def State.putGranted (s : State) (old new : MemReq) : State := { s with reqs := s.reqs.erase old ++ [new] }

/-- A request that has been performed: an engine's is done with, unless it is kept, and so is a spill's write; a spill's row goes on to the spill extent and a refilled row to its bank, as requests of their own (05 R223, R225, R227). -/
def State.passOn (s : State) (old r : MemReq) : State :=
  let gone : State := { s with reqs := s.reqs.erase old }
  let next := fun (s : State) (row addr : Nat) (o : ReqOwner) => s.submit { s.newReq row addr true o r.lease none r.img with reached := r.due }
  match r.owner with
  | .engine .. => if r.owner.keeps then s.putGranted old r else gone
  | .spill .. => gone
  | .spillOut d g dram => next gone dram r.addr (.spill d g)
  | .refill d g sram => next gone (sdmRow d + sram) 0 (.refillIn d g)
  | _ => s.putGranted old r

/-- Rows activated in a bank counted: at the threshold refresh management takes the bank in the next cycle (07 R300; log 17). -/
def State.activate (s : State) (d k row : Nat) : State :=
  let b := bankKey row
  let n := tget 0 (s.ctl d k).acts b + 1
  if Config.refreshAfter k ≤ n then s.onCtl d k (fun c => { c with acts := tdel c.acts b, refreshed := tset c.refreshed b (s.now + 1) })
  else s.onCtl d k (fun c => { c with acts := tset c.acts b n })

/-- The slots of a controller noted after a grant: INFLIGHT, PEAK, and a promoted grant (06 R252, R255). -/
def State.noteGrant (s : State) (d k : Nat) (p : GrantPoint) (promoted : Bool) : State :=
  let m := mcqStat d k
  let n := (s.slotsUsed p).length
  let s := (s.setFld m MCQ_STAT.INFLIGHT n).setFld m MCQ_STAT.PEAK (max n (s.fld m MCQ_STAT.PEAK))
  let s := s.noteFld m MCQ_STAT.PEAK n
  if promoted then s.tally m MCQ_STAT.STARVE_GRANTS 1 else s

/-- One grant of a DRAM request (06 R251, R255, R257, 07 R297, R298): a write to a tagged block starts the block's fill, which takes the grants of 64 cycles. -/
def State.grantDram (s : State) (d k : Nat) (r : MemReq) : State :=
  let tagged := r.write && s.mem.tagged r.row
  let x := s.crossingsBack r.owner (pointDie r.point) (s.now + s.latency r + r.extra)
  let q := if r.write then let w := x.2.wholeWrite r; (w.1.applyWrite w.2, w.2) else if r.owner.isEngine then x.2.engineRead r else x.2.applyRead r
  let s := q.1.putGranted r { q.2 with stage := 1, grantedAt := s.now, due := x.1 }
  let s := s.activate d k r.row
  let s := if tagged then s.onCtl d k (fun c => { c with fills := c.fills ++ [⟨tagBlock r.row, r.id, s.now, false⟩] }) else s
  s.noteGrant d k r.point r.promoted

/-- The grants of one cycle at a controller: the requests of rank order, at most `left` of them; capped ones that rank before a granted one are passed over, and a write to a tagged block ends the cycle's grants. Returns the requests passed over so far. -/
def State.grantLoop (s : State) (d k : Nat) (p : GrantPoint) : List MemReq → Nat → Nat → State × Nat
  | [], _, _ => (s, 0)
  | r :: t, left, passed =>
    if left == 0 || (if k < 4 then 3200 else 400) ≤ (s.slotsUsed p).length then (s, 0)
    else if s.atCap p k r then s.grantLoop d k p t left (passed + 1)
    else
      let tagged := r.write && s.mem.tagged r.row
      let s' := s.grantDram d k r
      if tagged then (s', passed)
      else
        let q := s'.grantLoop d k p t (left - 1) 0
        (q.1, passed + q.2)

/-- Whether a request has no earlier one of its Awl thread for the same row before it (06 R264). -/
def State.inTurn (s : State) (r : MemReq) : Bool :=
  match r.owner with
  | .awl k t _ => !s.reqs.any (fun x => x.stage == 0 && x.id < r.id && x.row == r.row && (match x.owner with | .awl k' t' _ => k' == k && t' == t | _ => false))
  | _ => true

/-- The requests that have reached a point and are eligible. -/
def State.readyReqs (s : State) (p : GrantPoint) : List MemReq :=
  s.reqs.filter (fun r => r.point == p && r.stage == 0 && r.reached ≤ s.now && r.eligible ≤ s.now && s.inTurn r)

/-- The NARROW request whose turn it is: its requester is the next in rank after the one served last (05 R203). -/
def narrowTurn (l : List MemReq) (turn : Nat) : Option MemReq :=
  let least := fun (l : List MemReq) => l.foldl (fun (m : Option MemReq) r => match m with | some x => if r.rank < x.rank then some r else m | none => some r) none
  match least (l.filter (fun r => turn < r.rank)) with
  | some r => some r
  | none => least l

/-- A request granted a bank cycle: one of several cycles, or its last (05 R184, R197). -/
def State.serve (s : State) (r : MemReq) : State :=
  if 1 < r.beats then { s with reqs := s.reqs.map (fun x => if x.id == r.id then { x with beats := x.beats - 1 } else x) }
  else
    let q := s.performSram r
    if q.2.stage == 0 then q.1.putGranted r q.2 else q.1.passOn r q.2

/-- One grant at a shared bank or a core's crossing (05 R202, R203): the ROW class goes first, by rank, but a NARROW request that waits is served in at least one cycle of eight, and NARROW requesters take turns, a bank cycle each. -/
def State.grantBank (s : State) (p : GrantPoint) (ready : List MemReq) : State :=
  let key := pointKey p
  let b := tget (⟨0, 0, 0⟩ : BankRun) s.banks key
  let narrow := ready.filter (fun r => r.cls == 2)
  let row := (s.rankReqs (ready.filter (fun r => r.cls != 2))).head?
  let put := fun (s : State) (b : BankRun) => { s with banks := tset s.banks key b }
  match row, narrowTurn narrow b.turn with
  | none, none => s
  | some r, none => put (s.serve r) ⟨s.now + 1, 0, b.turn⟩
  | some r, some n => if b.rows < 7 then put (s.serve r) ⟨s.now + 1, b.rows + 1, b.turn⟩ else put (s.serve n) ⟨s.now + 1, 0, n.rank⟩
  | none, some n => put (s.serve n) ⟨s.now + 1, 0, n.rank⟩

/-- TEMPER_GRANT (06 R248-R253, R257): the grants of one cycle at a controller, or one grant at a shared bank or a core's crossing. -/
def execTemperGrant (p : GrantPoint) (s : State) : Host.Outcome State Fault Refusal := s.live fun s =>
  let s := s.meetDown
  let ready := s.readyReqs p
  match p with
  | .ctl d k =>
    let c := s.ctl d.val k.val
    if s.now < c.nextGrant || c.fills.any (fun f => !f.started) then .next s
    else
      let rs := s.rankReqs (ready.filter (s.dramReady d.val k.val))
      if rs.isEmpty then .next s
      else
        let rate := s.grantRate d.val k.val
        let q := s.grantLoop d.val k.val p rs rate.1 0
        let s := q.1.tally (mcqStat d.val k.val) MCQ_STAT.CAP_DEFERS q.2
        .next (s.onCtl d.val k.val (fun c => { c with nextGrant := s.now + rate.2 }))
  | _ => if s.justGranted p then .next s else .next (s.grantBank p (ready.filter s.rowPortFree))

/-- TEMPER_CFG of a die (06 R254). -/
def temperCfg (d : Nat) : Reg := ⟨.TEMPER_CFG, selCd d, 0, 0⟩

/-- STARVE_PROMOTE (06 R252): every request of a point that has waited STARVE_LIMIT cycles ranks before every other from now on. -/
def execStarvePromote (p : GrantPoint) (s : State) : Host.Outcome State Fault Refusal := s.live fun s =>
  let lim := s.fld (temperCfg (pointDie p)) TEMPER_CFG.STARVE_LIMIT
  .next { s with reqs := s.reqs.map (fun r => if r.point == p && r.stage == 0 && r.reached + lim ≤ s.now then { r with promoted := true } else r) }

/-- A write to MCQ_CLR (06 R256): what is counted in the cycle of the clear is counted after it (01 R28). -/
def State.mcqClr (s : State) (d v : Nat) : State × Status :=
  if !bitAt v 0 then (s, .ok)
  else ((List.range 6).foldl (fun s k => s.clearTally (mcqStat d k) [MCQ_STAT.PEAK, MCQ_STAT.CAP_DEFERS, MCQ_STAT.STARVE_GRANTS]) s, .ok)

end Sys2Proof.Machine
end

