-- ==== Sys2Proof/Machine/Fabric.lean ====
section
/-! DEFINITION. The peer fabric's routes, credits and connections (11 R412-R431): how this unit forms, routes, sends and keeps packets. -/
namespace Sys2Proof.Machine

/-- FAB_CFG (11 R412). -/
def fabCfg : Reg := ⟨.FAB_CFG, selSv0, 0, 0⟩
/-- FAB_COORD of a unit (11 R414). -/
def fabCoord (u : Nat) : Reg := ⟨.FAB_COORD, selSv0, u, 0⟩
/-- FAB_VC of a virtual channel (11 R424). -/
def fabVc (v : Nat) : Reg := ⟨.FAB_VC, selSv0, v, 0⟩
/-- FAB_STAT (11 R432). -/
def fabStat : Reg := ⟨.FAB_STAT, selSv0, 0, 0⟩
/-- FAB_TMO (11 R430). -/
def fabTmo : Reg := ⟨.FAB_TMO, selSv0, 0, 0⟩
/-- UNIT_ADDR (17 R603). -/
def unitAddr : Reg := ⟨.UNIT_ADDR, selSv0, 0, 0⟩
/-- A register of peer port q (11 R407). -/
def peerPort (n : RegName) (q : Nat) : Reg := ⟨n, selIo (q / 4), q % 4, 0⟩

/-- Whether lease and collective traffic may use the fabric (11 R412). -/
def State.fabOn (s : State) : Bool := s.fld fabCfg FAB_CFG.ENABLE == 1

/-- Whether a packet may use the fabric: VC0 flows whatever ENABLE holds (11 R412). -/
def State.carries (s : State) (p : DftPacket) : Bool := p.vc.val == 0 || s.fabOn

/-- The UDP port of DFT (11 R412). -/
def State.dftPort (s : State) : Nat := s.fld fabCfg FAB_CFG.UDP_PORT

/-- The IPv6 address of port q of a unit (11 R413). -/
def State.portIp6 (s : State) (u q : Nat) : BitVec 128 := BitVec.ofNat 128 (s.fld ⟨.FAB_PREFIX, selSv0, 0, 0⟩ FAB_PREFIX.PREFIX * 2 ^ 64 + u * 65536 + q)

/-- This unit's address, 0 while unassigned. -/
def State.self (s : State) : Nat := s.fld unitAddr UNIT_ADDR.ADDRESS

/-- Whether a unit is a member of the fabric (11 R414). -/
def State.member (s : State) (u : Nat) : Bool := u != 0 && u != 0xFFFF && s.fld (fabCoord u) FAB_COORD.VALID == 1

/-! Routes (11 R415-R417). -/

/-- A coordinate of a unit: dimension 0 X, 1 Y, 2 Z. -/
def State.coord (s : State) (u k : Nat) : Nat :=
  s.fld (fabCoord u) (if k == 0 then FAB_COORD.X else if k == 1 then FAB_COORD.Y else FAB_COORD.Z)

/-- The extent of a dimension (11 R412). -/
def State.extent (s : State) (k : Nat) : Nat :=
  1 + s.fld fabCfg (if k == 0 then FAB_CFG.EXT_X_M1 else if k == 1 then FAB_CFG.EXT_Y_M1 else FAB_CFG.EXT_Z_M1)

/-- Whether a dimension is a ring (11 R412). -/
def State.wraps (s : State) (k : Nat) : Bool := bitAt (s.fld fabCfg FAB_CFG.WRAP) k

/-- Whether a packet in a dimension goes up towards its destination (11 R415). -/
def State.goesUp (s : State) (k c t : Nat) : Bool :=
  if s.wraps k then
    let e := s.extent k
    let up := (t + e - c % e) % e
    up ≤ e - up
  else c < t

/-- The direction code of R408 a packet for a unit leaves by, or none where this unit takes it (11 R415). -/
def State.route (s : State) (dst : Nat) : Option Nat :=
  ((List.range 3).find? (fun k => s.coord s.self k != s.coord dst k)).map (fun k =>
    2 * k + (if s.goesUp k (s.coord s.self k) (s.coord dst k) then 1 else 0))

/-- Whether a port is usable for a direction (11 R416): STANDBY ports only where no other is. -/
def State.usablePorts (s : State) (dir : Nat) : List Nat :=
  let up := (List.range 16).filter (fun q =>
    s.fld (peerPort .PEER_PORT_CFG q) PEER_PORT_CFG.ENABLE == 1 && s.fld (peerPort .PEER_PORT_STATUS q) PEER_PORT_STATUS.UP == 1 &&
      s.fld (peerPort .PEER_PORT_CFG q) PEER_PORT_CFG.DIR == dir)
  let main := up.filter (fun q => s.fld (peerPort .PEER_PORT_CFG q) PEER_PORT_CFG.STANDBY == 0)
  if main.isEmpty then up else main

/-- The port a packet leaves by: the k usable ports of its direction in ascending order, by (SRC_UNIT + DST_UNIT + VC) mod k (11 R416). -/
def State.portFor (s : State) (dir : Nat) (p : DftPacket) : Option Nat :=
  let ps := s.usablePorts dir
  if ps.isEmpty then none else ps[(p.src.toNat + p.dst.toNat + p.vc.val) % ps.length]?

/-- Whether the link a packet came in by crosses its dimension's dateline: between coordinates E - 1 and 0 (11 R417). -/
def State.cameOverDateline (s : State) (q : Nat) : Bool :=
  let dir := s.fld (peerPort .PEER_PORT_CFG q) PEER_PORT_CFG.DIR
  let k := dir / 2
  let c := s.coord s.self k
  dir < 6 && s.wraps k && (if dir % 2 == 0 then c == 0 else c + 1 == s.extent k)

/-! Frames (11 R419-R422). -/

/-- The flag bits of some values, bit i for the i-th. -/
def flagBits (l : List Bool) : Nat := l.foldr (fun b n => flag b + 2 * n) 0

/-- The 32 bytes of a DFT header (11 R420). -/
def dftHeader (p : DftPacket) : List Byte :=
  beBytes 1 (16 * p.ver + p.type) ++ beBytes 1 (32 * p.vc.val + 16 * flag p.resp + 8 * flag p.dateline + 4 * flag p.ackv + p.frame.resv) ++ beBytes 2 p.src.toNat ++ beBytes 2 p.dst.toNat ++
    beBytes 1 p.lease.val ++ beBytes 1 p.rows ++ beBytes 4 p.seq ++ beBytes 4 p.ack ++ beBytes 8 p.addr.toNat ++ beBytes 2 p.tag ++ beBytes 1 (flagBits (p.pay.map (·.poison))) ++ beBytes 1 p.epoch ++
    beBytes 2 p.credit ++ beBytes 2 (code p.status)

/-- A payload row on the wire: each codeword's 32 data bytes and 4 check bytes (11 R419). The code's check symbols are the part's own (log 3). -/
def rowWire (bytes : List Byte) : List Byte :=
  (List.range 16).flatMap (fun w => let d := (bytes.drop (32 * w)).take 32; d ++ leBytes 4 (Config.eccCheck (BitVec.ofNat 256 (leNat d))).toNat)

/-- The bytes of a packet: its header and its payload rows (11 R419). -/
def dftBytes (p : DftPacket) : List Byte := dftHeader p ++ p.pay.flatMap (fun r => rowWire r.bytes)

/-- The packet that a header's 32 bytes and the rows after them spell, in a frame (11 R419, R420). -/
def dftRead (f : DftFrame) (hop : Nat) (b : List Byte) : DftPacket :=
  let w := fun o n => beNat ((b.drop o).take n)
  let rows := (b.length - 32) / 576
  { frame := { f with trail := (b.length - 32) % 576, resv := w 1 1 % 4 }, ver := w 0 1 / 16, type := w 0 1 % 16, vc := Fin.ofNat 8 (w 1 1 / 32), resp := bitAt (w 1 1) 4, dateline := bitAt (w 1 1) 3, ackv := bitAt (w 1 1) 2
    src := BitVec.ofNat 16 (w 2 2), dst := BitVec.ofNat 16 (w 4 2), lease := Fin.ofNat 256 (w 6 1), rows := w 7 1, seq := w 8 4, ack := w 12 4, addr := BitVec.ofNat 64 (w 16 8), tag := w 24 2
    credit := w 28 2, status := statusOf (w 30 2), epoch := w 27 1, hop := hop
    pay := (List.range rows).map (fun r => ⟨(List.range 16).flatMap (fun c => (b.drop (32 + 576 * r + 36 * c)).take 32), bitAt (w 26 1) r⟩) }

/-- The sum of bytes taken as big-endian 16-bit words. -/
def sum16 : List Byte → Nat
  | a :: b :: t => 256 * a.toNat + b.toNat + sum16 t
  | [a] => 256 * a.toNat
  | [] => 0

/-- The UDP checksum of a packet over its pseudo-header, UDP header and bytes (11 R419). -/
def udpSum (p : DftPacket) : Nat :=
  let b := dftBytes p
  let n := b.length + p.frame.trail + 8
  let t := sum16 (beBytes 16 p.frame.srcIp.toNat ++ beBytes 16 p.frame.dstIp.toNat) + 2 * n + 17 + p.frame.srcPort + p.frame.dstPort + sum16 b
  65535 - t % 65535

/-- The bytes of the IPv6 header, the UDP header and the packet, which follow the Ethernet header (11 R419). -/
def ipBytes (p : DftPacket) : List Byte :=
  let b := dftBytes p
  let n := b.length + 8
  [0x60#8, 0#8, 0#8, 0#8] ++ beBytes 2 n ++ [17#8] ++ beBytes 1 p.hop ++ beBytes 16 p.frame.srcIp.toNat ++ beBytes 16 p.frame.dstIp.toNat ++
    beBytes 2 p.frame.srcPort ++ beBytes 2 p.frame.dstPort ++ beBytes 2 n ++ beBytes 2 (match p.frame.sum with | .formed => udpSum p | .given v => v) ++ b

/-- A packet as it leaves port q (11 R413, R419). DESIGN CHOICE (log 20): the destination address is that of the port of the same number. -/
def State.framed (s : State) (q : Nat) (p : DftPacket) : DftPacket :=
  { p with frame := { srcIp := s.portIp6 s.self q, dstIp := s.portIp6 p.dst.toNat q, srcPort := s.dftPort, dstPort := s.dftPort } }

/-! Credits (11 R424, R425). -/

/-- The class of a packet: bit 0 DATELINE, bit 1 RESP (11 R420, R424). -/
def pktClass (p : DftPacket) : Nat := flag p.dateline + 2 * flag p.resp

/-- The cells a packet occupies (11 R425). -/
def pktCells (p : DftPacket) : Nat := p.pay.length + 1

/-- The key of a port's class of a virtual channel. -/
def creditKey (q vc cls : Nat) : Nat := q * 32 + vc * 4 + cls

/-- The cells of one class at a port: a quarter of its channel's (11 R424). -/
def State.classCells (s : State) (vc : Nat) : Nat := s.fld (fabVc vc) FAB_VC.CELLS / 4

/-- Bytes of the Ethernet frame of a packet (11 R419): 98 without payload and 576 for each row, 4,706 bytes for eight. -/
def frameBytes (p : DftPacket) : Nat := 98 + 576 * p.pay.length

/-- Whether a lease is charged for a packet: any on the channels of lease traffic or of the collectives (11 R423, 15 R557). -/
def pktCharged (p : DftPacket) : Bool := p.vc.val != 0

/-- Cells freed at a receiver for return to its partner (11 R425). -/
def State.freeCells (s : State) (q vc cls n : Nat) : State :=
  let k := creditKey q vc cls
  { s with freed := tset s.freed k (tget 0 s.freed k + n) }

/-- A packet put on a port's link: its credits are spent, its bytes charged, and the cells it held on arrival freed (11 R425, 15 R557). -/
def State.putOnWire (s : State) (q : Nat) (e : Egress) : State :=
  let k := creditKey q e.pkt.vc.val (pktClass e.pkt)
  let s := { s with spent := tset s.spent k (tget 0 s.spent k + pktCells e.pkt), wire := tset s.wire q (s.framed q e.pkt) }
  let s := if pktCharged e.pkt then s.charge e.pkt.lease.val (12 + q) (frameBytes e.pkt) else s
  match e.cells with
  | some c => s.freeCells c.1 (c.2.1 / 4) (c.2.1 % 4) c.2.2
  | none => s

/-- The port a waiting packet may leave by now: a usable one of its direction, with credits for it (11 R416, R425), once the packet may use the fabric (R412). -/
def State.mayLeave (s : State) (e : Egress) : Option Nat :=
  let q := match e.port with
    | some q => if s.fld (peerPort .PEER_PORT_STATUS q) PEER_PORT_STATUS.UP == 1 then some q else none
    | none => s.portFor e.dir e.pkt
  q.filter (fun q => s.carries e.pkt && tget 0 s.spent (creditKey q e.pkt.vc.val (pktClass e.pkt)) + pktCells e.pkt ≤ s.classCells e.pkt.vc.val)

/-- The arbitration of a port's egress. -/
def State.arbiter (s : State) (q : Nat) : PortArb := tget PortArb.fresh s.arbiters q

/-- The frames left to a channel in this round: its WEIGHT when the round begins (11 R426). -/
def State.framesLeft (s : State) (a : PortArb) (vc : Nat) : Nat := (tget? a.left vc).getD (s.fld (fabVc vc) FAB_VC.WEIGHT)

/-- The channel that is served next of those that wait, and the frames left to each channel after it: the first one after the channel served last that has frames left; where none has, a new round begins. DESIGN CHOICE (log 20): the shares are counted in frames. -/
def State.nextChannel (s : State) (a : PortArb) (vcs : List Nat) : Nat × Tab Nat :=
  let order := (List.range 8).map (fun i => (a.last + 1 + i) % 8)
  let pick := fun (a : PortArb) => (order.filter vcs.contains).find? (fun v => 0 < s.framesLeft a v)
  let a := if (pick a).isSome then a else { a with left := [] }
  let v := (pick a).getD (vcs.headD 0)
  (v, tset a.left v (s.framesLeft a v - 1))

/-- The packet that leaves a port next of those that may, oldest first, and the arbitration after it (11 R426): VC0 first, but no more than one frame in sixteen while other channels wait; the others by weight; within a channel the response class; and forwarded packets and this unit's own take turns. -/
def State.pickEgress (s : State) (q : Nat) (l : List Egress) : Option (Egress × PortArb) :=
  let a := s.arbiter q
  let rest := l.filter (fun e => e.pkt.vc.val != 0)
  let first := fun (l : List Egress) =>
    let l := if l.any (fun e => e.pkt.resp) then l.filter (fun e => e.pkt.resp) else l
    (l.find? (fun e => e.cells.isSome != a.fwd)).or l.head?
  if rest.isEmpty || (rest.length < l.length && 15 ≤ a.others) then
    (first (l.filter (fun e => e.pkt.vc.val == 0))).map (fun e => (e, { a with others := 0, fwd := e.cells.isSome }))
  else
    let c := s.nextChannel a (rest.map (fun e => e.pkt.vc.val))
    (first (rest.filter (fun e => e.pkt.vc.val == c.1))).map (fun e => (e, ⟨min 15 (a.others + 1), c.2, c.1, e.cells.isSome⟩))

/-- One waiting packet sent, where credits and ports let one go: of the port by which the oldest such packet leaves, the one its arbitration picks. -/
def State.sendEgress (s : State) : State :=
  let ready := s.egress.filterMap (fun e => (s.mayLeave e).map (fun q => (q, e)))
  match ready.head? with
  | none => s
  | some h => match s.pickEgress h.1 ((ready.filter (fun x => x.1 == h.1)).map (·.2)) with
    | none => s
    | some x => ({ s with egress := s.egress.erase x.1, arbiters := tset s.arbiters h.1 x.2 } : State).putOnWire h.1 x.1

/-- Waiting packets sent as far as credits and ports allow; one that waits holds back none of another class (11 R425, R426). -/
def State.drainEgress (s : State) : State := iter s.egress.length (fun _ s => s.sendEgress) s

/-- A packet of this unit given to the fabric (11 R415-R418, R425); with no route it goes nowhere. -/
def State.emit (s : State) (p : DftPacket) : State :=
  match s.route p.dst.toNat with
  | none => s
  | some dir => ({ s with egress := s.egress ++ [(⟨dir, none, p, none⟩ : Egress)] }).drainEgress

/-- A link-scope packet given to a peer port (17 R606). -/
def State.emitOn (s : State) (q : Nat) (p : DftPacket) : State :=
  ({ s with egress := s.egress ++ [(⟨0, some q, p, none⟩ : Egress)] }).drainEgress

/-! Connections (11 R427-R431). -/

/-- The key of a connection. -/
def connKey (u vc : Nat) : Nat := u * 8 + vc

/-- A connection's state. -/
def State.conn (s : State) (u vc : Nat) : Conn := tget Conn.fresh s.conns (connKey u vc)

/-- A connection's state replaced. -/
def State.setConn (s : State) (u vc : Nat) (c : Conn) : State := { s with conns := tset s.conns (connKey u vc) c }

/-- A packet of this unit, its fields but for type, target and contents at their resting values (11 R420). -/
def State.packet (s : State) (type vc dst lease : Nat) : DftPacket :=
  { frame := { srcPort := s.dftPort, dstPort := s.dftPort }, ver := 1, type := type, vc := Fin.ofNat 8 vc, resp := type == 3 || type == 5, dateline := false, ackv := false
    src := BitVec.ofNat 16 s.self, dst := BitVec.ofNat 16 dst, lease := Fin.ofNat 256 lease, rows := 0, seq := 0, ack := 0, addr := 0, tag := 0, credit := 0
    status := .ok, epoch := (s.conn dst vc).epoch, hop := 255, pay := [] }

/-- Whether a type is sequenced (11 R421). -/
def sequenced (type : Nat) : Bool := type == 1 || type == 2 || type == 3 || type == 5 || type == 7 || type == 8

/-- The I/O die whose port a packet for a unit would leave by. -/
def State.ioFor (s : State) (p : DftPacket) : Nat := ((s.route p.dst.toNat).bind (fun d => s.portFor d p)).getD 0 / 4

/-- Unacknowledged payload bytes of the connections that leave by an I/O die (11 R427). -/
def State.unacked (s : State) (io : Nat) : Nat :=
  s.conns.foldl (fun n c => c.2.out.foldl (fun n o => if s.ioFor o.pkt == io then n + 512 * o.pkt.pay.length else n) n) 0

/-- Whether a connection has room for another packet (11 R427), and no resynchronisation holds it back (R431). -/
def State.connRoom (s : State) (p : DftPacket) : Bool :=
  let c := s.conn p.dst.toNat p.vc.val
  c.out.length < 1024 && c.resync.isNone && s.unacked (s.ioFor p) + 512 * p.pay.length ≤ 16777216

/-- A sequenced packet numbered, kept until it is acknowledged, and sent (11 R427). -/
def State.sendNow (s : State) (p : DftPacket) (rows : List PktRow) : State :=
  let u := p.dst.toNat
  let c := s.conn u p.vc.val
  let p := { p with seq := c.next, epoch := c.epoch }
  let reads := if p.type == 2 then c.reads ++ [⟨p.tag, rows⟩] else c.reads
  let c := { c with next := (c.next + 1) % 2 ^ 32, out := c.out ++ [⟨p, rows, s.now, 0, false⟩], reads := reads }
  (s.setConn u p.vc.val c).emit p

/-- A sequenced packet sent, or kept waiting until its connection has room (11 R427). -/
def State.sendPkt (s : State) (p : DftPacket) (rows : List PktRow) : State :=
  let u := p.dst.toNat
  let c := s.conn u p.vc.val
  if c.waiting.isEmpty && s.connRoom p then s.sendNow p rows
  else s.setConn u p.vc.val { c with waiting := c.waiting ++ [(p, rows)] }

/-- Waiting packets of one connection sent while there is room. -/
def State.sendWaitingOn (s : State) (u vc : Nat) : State :=
  let c := s.conn u vc
  let go := fun (s : State) (x : DftPacket × List PktRow) =>
    let c := s.conn u vc
    if c.waiting.isEmpty && s.connRoom x.1 then s.sendNow x.1 x.2 else s.setConn u vc { c with waiting := c.waiting ++ [x] }
  c.waiting.foldl go (s.setConn u vc { c with waiting := [] })

/-- Waiting packets of every connection sent while there is room: room that one connection's packets leave on an I/O die serves the others (11 R427, R454). -/
def State.sendWaiting (s : State) : State :=
  ((s.conns.filter (fun c => !c.2.waiting.isEmpty)).map (·.1)).foldl (fun s k => s.sendWaitingOn (k / 8) (k % 8)) s

/-- Rows packed so far sent as one WRITE or READ (11 R420, R433, R435). -/
def State.sendPacked (s : State) (x : Packing) : State :=
  let c := s.conn x.unit x.vc
  let s := match x.rows.head? with
    | some o => s.setConn x.unit x.vc { c with tags := (c.tags + 1) % 65536, tagOf := tset c.tagOf c.tags o }
    | none => s
  s.sendPkt { s.packet (if x.write then 1 else 2) x.vc x.unit x.lease with rows := x.rows.length, addr := BitVec.ofNat 64 x.addr, tag := c.tags, pay := x.pay } x.rows

/-- Whether rows of a channel are packed: those of its transfer. -/
def Packing.of (x : Packing) (o : PktRow) : Bool := x.rows.any (fun r => r.core == o.core && r.ch == o.ch)

/-- Whether a row joins the rows packed before it: of the same transfer, the next far row, within 16 cycles of the last, eight at most (11 R435). -/
def Packing.joins (x : Packing) (now : Nat) (lease vc unit addr : Nat) (write : Bool) (o : PktRow) : Bool :=
  x.rows.all (fun r => r.core == o.core && r.ch == o.ch && r.xfer == o.xfer) && x.lease == lease && x.vc == vc && x.unit == unit && x.write == write && x.addr + 512 * x.rows.length == addr && x.rows.length < 8 && now ≤ x.last + 16

/-- A row of a channel's transfer to or from another unit (11 R433, R435): it joins the rows that the I/O die packs for its channel, or they are sent and it begins new ones; the eighth row completes the packet. `addr`: the address in the target unit. -/
def State.sendRow (s : State) (lease vc unit addr : Nat) (write : Bool) (owner : PktRow) (img : RowImg) : State :=
  let pay : List PayRow := if write then [⟨img.bytes, img.poison⟩] else []
  match s.packing.find? (fun x => x.of owner) with
  | some x =>
    let rest := s.packing.filter (fun x => !x.of owner)
    if x.joins s.now lease vc unit addr write owner then
      let x := { x with rows := x.rows ++ [owner], pay := x.pay ++ pay, last := s.now }
      if x.rows.length == 8 then ({ s with packing := rest } : State).sendPacked x else { s with packing := rest ++ [x] }
    else ({ s with packing := rest ++ [⟨lease, vc, unit, addr, write, [owner], pay, s.now⟩] } : State).sendPacked x
  | none => { s with packing := s.packing ++ [⟨lease, vc, unit, addr, write, [owner], pay, s.now⟩] }

/-- Rows packed that no row has joined for 16 cycles are sent (11 R435). -/
def State.packedOn (s : State) : State :=
  let old := s.packing.filter (fun x => x.last + 16 ≤ s.now)
  if old.isEmpty then s else old.foldl State.sendPacked { s with packing := s.packing.filter (fun x => !(x.last + 16 ≤ s.now)) }

end Sys2Proof.Machine
end

