-- ==== Sys2Proof/Machine/Streams.lean ====
section
/-! DEFINITION. Stream channels (06 R228-R247): ARM, REL, requests, landings, acknowledgements, completion, and the end of a core's freeze (03 R109, R110). -/
namespace Sys2Proof.Machine

/-- Fills of a transfer: groups of HALF_ROWS rows (06 R230). -/
def Xfer.groups (x : Xfer) : Nat := ceilDiv x.total (max 1 x.d.halfRows)

/-- The half after the one that receives a transfer's last row (06 R246). -/
def Xfer.after (x : Xfer) : Nat := (x.first + x.groups) % 2

/-- Whether two descriptors name the same pair (06 R246). -/
def StreamDesc.samePair (a b : StreamDesc) : Bool := a.nearBuf == b.nearBuf && a.nearRow == b.nearRow && a.halfRows == b.halfRows

/-- The half a new transfer's first row goes to: after a transfer still held on the identical pair, the half that follows its last; else half A (06 R246). -/
def firstHalf (prev : Option Xfer) (d : StreamDesc) : Nat :=
  match prev with
  | some y => if y.d.samePair d then y.after else 0
  | none => 0

/-- The half that a transfer's next row to be requested or handed over belongs to, of `n` so far; past its last row, that of the pending re-arm, or the one that follows. DESIGN CHOICE (log 47): so also on an idle channel, where 06 R268 does not say what NEXT reads. -/
def Chan.following (k : Chan) (x : Xfer) (n : Nat) : Nat :=
  if n < x.total then (x.first + n / max 1 x.d.halfRows) % 2 else (k.pend.map Xfer.givesFrom).getD x.after

/-- The half REL acts on next (06 R237, R268): for a load the oldest unreleased or next due half, for a store the next to be handed over. -/
def Chan.nextHalf (k : Chan) : Nat :=
  match k.cur.orElse (fun _ => k.last) with
  | none => 0
  | some x =>
    if x.d.loads then (match k.halves.find? (fun h => h.rel.isNone) with | some h => h.side | none => k.following x x.formed) else k.following x x.handed

/-! ARM and REL. -/

/-- The transfer an ARM's word starts (06 R229-R231, R234, R235): it runs at once, or is held as the pending re-arm while one runs. -/
def State.startXfer (s : State) (k n : Nat) (q : Kernel) (w : Nat) : State :=
  let x := s.core k
  let ch := x.chan n
  let h := opf w 63 48
  let d := streamDesc (x.descOf h)
  let prev := if ch.cur.isSome then ch.cur else if ch.halves.isEmpty then none else ch.last
  let t : Xfer := ⟨s.nextId, h, d, d.total, firstHalf prev d, 0, 0, 0, q.idx, s.ctime k + 1, 0, []⟩
  let ch := if ch.cur.isSome then { ch with pend := some t } else { ch with cur := some t }
  { s with nextId := s.nextId + 1 }.setCore k (x.setChan n ch)

/-- ARM (06 R234, R244): the descriptor is latched; the transfer starts in the next cycle, or waits as the channel's re-arm. -/
def execArm (c : CoreId) (e : Fin 2) (s : State) : Host.Outcome State Fault Refusal := s.live fun s =>
  .next (s.issue (ckey c) (6 + e.val) 1 (fun q w s => s.startXfer (ckey c) (8 * e.val + opf w 6 4) q w))

/-- A channel after a REL in core cycle t (06 R237): a load half waits to become EMPTY, a store half is handed over with its rows. -/
def Chan.release (k : Chan) (t : Nat) : Chan :=
  match k.halves.find? (fun h => h.rel.isNone), k.cur with
  | some h, none => { k with halves := k.halves.map (fun y => if y == h then { y with rel := some t } else y) }
  | none, none => k
  | oldest, some x =>
    if x.d.loads then
      match oldest with
      | some h => { k with halves := k.halves.map (fun y => if y == h then { y with rel := some t } else y) }
      | none => k
    else match k.giver with
      | none => k
      | some y =>
        let n := min y.d.halfRows (y.total - y.handed)
        let k := { k with halves := k.halves ++ [(⟨y.id, y.d.nearBuf, y.d.halfRow y.givesFrom, n, 0, 0, some t, y.givesFrom, y.d.halfRows, none⟩ : HalfFill)] }
        let given := { y with handed := y.handed + n }
        if y.id == x.id then { k with cur := some given } else { k with pend := some given }

/-- The oldest half of a channel released by a REL (06 R237). -/
def State.releaseHalf (s : State) (k n : Nat) : State := s.onCore k (fun x => x.setChan n ((x.chan n).release (s.ctime k)))

/-- REL (06 R237). -/
def execRel (c : CoreId) (e : Fin 2) (s : State) : Host.Outcome State Fault Refusal := s.live fun s =>
  .next (s.issue (ckey c) (6 + e.val) 2 (fun _ w s => s.releaseHalf (ckey c) (8 * e.val + opf w 6 4)))

/-! Requests. -/

/-- F of R249 for the running transfer. A store half that a REL has named and that waits for scoreboard entries is EMPTY still, and due the rows handed over. -/
def Chan.ahead (k : Chan) (x : Xfer) : Nat :=
  let hr := max 1 x.d.halfRows
  if x.d.loads then
    (x.formed - x.done) + (k.halves.filter (fun h => h.rel.isNone)).foldl (fun n h => n + h.got) 0
  else
    let g := ceilDiv x.handed hr
    let due := fun (h : Nat) => match k.halves.find? (fun y => y.buf == x.d.nearBuf && y.row == x.d.halfRow h) with
      | none => let u := g + (h + 2 - (x.first + g) % 2) % 2; min hr (x.total - u * hr)
      | some y => if y.st == 0 && y.xfer == x.id then y.n else 0
    due 0 + due 1 + (k.halves.filter (fun h => h.st == 3)).foldl (fun n h => n + h.got) 0

/-- What a channel's next request is: its half as it becomes, whether the half enters a state by it, its near row, the row of the transfer it moves, and of a push or pop the logical row of the stack (06 R235, R238, R239, R241). -/
structure NextReq where
  half : HalfFill
  enters : Bool
  near : Nat
  idx : Nat
  level : Option Nat

/-- The next row of a load (06 R235, R238): of the half that fills, or of an EMPTY half that is due rows. -/
def Core.nextIn (c : Core) (t n : Nat) (x : Xfer) : Option NextReq :=
  let hr := max 1 x.d.halfRows
  let f := x.fill (x.formed / hr)
  let row := x.d.halfRow f.1
  let near := row + x.formed % hr
  if x.total ≤ x.formed then none
  else match (c.chan n).halves.find? (fun h => h.buf == x.d.nearBuf && h.row == row) with
    | some h => if h.st == 1 && h.xfer == x.id && h.rel.isNone then some ⟨h, false, near, x.formed, none⟩ else none
    | none => if c.clear t [⟨x.d.nearBuf, row, f.2, true, 1⟩] then some ⟨⟨x.id, x.d.nearBuf, row, f.2, 1, 0, none, f.1, x.d.halfRows, none⟩, true, near, x.formed, none⟩ else none

/-- The next row that a FULL or DRAINING half of a store or push gives (06 R235, R238). -/
def Core.nextOut (c : Core) (t : Nat) (x : Xfer) (h : HalfFill) : Option NextReq :=
  if h.st == 3 || (h.st == 2 && c.clear t [⟨h.buf, h.row, h.n, false, 1⟩]) then some ⟨{ h with st := 3, got := h.got + 1 }, h.st == 2, h.row + h.got, x.formed, x.level h⟩
  else none

/-- The next row that the half of a pop takes, the highest first: half row j takes logical row low + j (05 R226, 06 R241). -/
def Core.nextPop (c : Core) (t : Nat) (x : Xfer) (h : HalfFill) : Option NextReq :=
  let i := x.formed % max 1 x.d.halfRows
  let j := h.n - 1 - i
  if h.st == 1 || c.clear t [⟨h.buf, h.row, h.n, true, 1⟩] then some ⟨{ h with st := 1, low := if j == 0 then none else h.low }, h.st == 0, h.row + j, x.formed - i + j, x.level h⟩
  else none

/-- The next request of a channel with a transfer running, if one may be formed in core cycle t, but for what its stack says: the halves of a push or pop wait until it has been their turn. -/
def Core.nextReq (c : Core) (t n : Nat) : Option (Xfer × NextReq) :=
  let k := c.chan n
  match k.cur with
  | none => none
  | some x =>
    let moving := k.halves.find? (fun h => h.xfer == x.id && h.low.isSome)
    if k.stopped || t < x.start then none
    else match x.d.dir with
      | 0 => (c.nextIn t n x).map (fun q => (x, q))
      | 1 => ((k.halves.find? (fun h => h.xfer == x.id)).bind (c.nextOut t x)).map (fun q => (x, q))
      | 2 => (moving.bind (c.nextOut t x)).map (fun q => (x, q))
      | _ => (moving.bind (c.nextPop t x)).map (fun q => (x, q))

/-- The next request of a channel of core k, if one may be formed now: of a push or pop, once its stack lets the row move (05 R223, R226). -/
def State.nextReq (s : State) (k n : Nat) : Option (Xfer × NextReq) :=
  ((s.core k).nextReq (s.ctime k) n).filter (fun p => match p.2.level with | some r => s.stackReady (coreDie k) p.1.d.stack (p.1.d.dir == 2) r | none => true)

/-- The slack of a channel: the cycles to the deadline that its next request would carry; none without a rate (06 R239, R249). -/
def Chan.slack (k : Chan) : Option Nat := k.cur.bind (fun x => if x.d.rate == 0 then none else some (k.ahead x * 1024 / x.d.rate))

/-- The channel of an engine that forms a request now: the one of least slack, ties to the lower number (06 R239, R249). -/
def State.pickChan (s : State) (k e : Nat) : Option Nat :=
  let c := s.core k
  let less := fun (a b : Nat) => match (c.chan a).slack, (c.chan b).slack with
    | some x, some y => decide (x < y)
    | some _, none => true
    | _, _ => false
  match ((List.range 8).map (8 * e + ·)).filter (fun n => (s.nextReq k n).isSome) with
  | [] => none
  | n :: t => some (t.foldl (fun m j => if less j m then j else m) n)

/-- A channel after its request: the half in its new state, the row counted; a store half whose rows have all been read out is EMPTY (06 R235). -/
def Chan.requested (k : Chan) (x : Xfer) (q : NextReq) : Chan :=
  let hs := if q.enters && x.d.dir == 0 then k.halves ++ [q.half] else k.halves.map (fun h => if h.buf == q.half.buf && h.row == q.half.row && h.xfer == q.half.xfer then q.half else h)
  let hs := if !x.d.loads && q.half.got == q.half.n then hs.filter (fun h => !(h.buf == q.half.buf && h.row == q.half.row)) else hs
  { k with cur := some { x with formed := x.formed + 1 }, halves := hs }

/-- A stream request sent in this unit's memory, `wait` cycles late (03 R108); through the weight cache where the descriptor asks for it (05 R213, R214). -/
def State.localRequest (s : State) (k n : Nat) (x : Xfer) (q : NextReq) (lease row addr wait : Nat) (img : RowImg) : State :=
  let f := s.newReq row addr (!x.d.loads) (.chan k n x.id q.idx x.d.nearBuf q.near) (some lease) (((s.core k).chan n).slack.map (s.now + ·)) img
  let r := { f with reached := s.now + wait }
  let d := coreDie k
  if !x.d.cache then s.submit r
  else if s.cacheHit d addr lease then
    (s.bump (wcacheStat d) SDM_WCACHE_STAT.HITS 1).submit { r with point := .shared (Fin.ofNat 4 d) (Fin.ofNat 96 (s.lineBank d addr)) }
  else (s.bump (wcacheStat d) SDM_WCACHE_STAT.MISSES 1).submit { r with install := true }

/-- Where a request of a transfer goes: the row of its stack, of this unit's memory, or none where the row lies in another unit or names no memory. -/
def State.farRowOf (s : State) (k : Nat) (x : Xfer) (q : NextReq) : Option Nat :=
  match q.level with
  | some r => some (sdmRow (coreDie k) + s.stackRow (coreDie k) x.d.stack r)
  | none => if s.ownUnit x.d.unit then s.rowAt (x.d.farRow x.formed) else none

/-- A channel's next request sent (06 R239, R249): a store's row is read out of its pair, two cycles late where a symbol of it is corrected (03 R108). -/
def State.formReq (s : State) (k n lease : Nat) (x : Xfer) (q : NextReq) : State :=
  let rd := if x.d.loads then (s, (⟨[], false⟩ : RowImg)) else s.readOwn k q.half.buf q.near x.bundle
  let wait := if !x.d.loads && s.corrects (bufRow k q.half.buf q.near) (fun _ => true) then 2 else 0
  let addr := if q.level.isSome then 0 else x.d.farRow x.formed
  match rd.1.farRowOf k x q with
  | some row => rd.1.localRequest k n x q lease row addr wait rd.2
  | none =>
    if s.ownUnit x.d.unit then rd.1
    else rd.1.sendRow lease (s.fld (leaseCfg lease) LEASE_CFG.VC) x.d.unit addr (!x.d.loads) ⟨k, n, x.id, q.idx, x.d.nearBuf, q.near⟩ rd.2

/-- Whether an engine may still form a request in this core cycle, and land or read out a row (06 R239). -/
def Core.engineFree (c : Core) (t e : Nat) : Bool := tget 0 c.ports e ≤ t

/-- An engine has formed its request of core cycle t. -/
def Core.formed (c : Core) (t e : Nat) : Core := { c with ports := tset c.ports e (t + 1) }

/-- An engine has landed or read out its row of core cycle t, in a bank. -/
def Core.moved (c : Core) (t e bank : Nat) : Core := { c with ports := tset (tset c.ports (2 + e) (t + 1)) (4 + e) bank }

/-- The core after a channel's request of core cycle t: an engine has formed it, and of a store read a row out; the last row of a store half releases the half's entry (05 R200). -/
def Core.afterReq (c : Core) (t n : Nat) (x : Xfer) (q : NextReq) : Core :=
  let e := n / 8
  let c := (c.setChan n ((c.chan n).requested x q)).formed t e
  let c := if x.d.loads then c else c.moved t e (bankOf q.half.buf q.near).1
  if !x.d.loads && q.half.got == q.half.n then { c with sbTail := c.sbTail ++ [(⟨q.half.buf, q.half.row, q.half.n, false, 1⟩, t + 1)] } else c

/-- STREAM_REQUEST (06 R235, R238, R239, R241, R249): an engine forms one request in a cycle; a store's or push's row is read out of the pair. -/
def execStreamRequest (c : CoreId) (e : Fin 2) (s : State) : Host.Outcome State Fault Refusal := s.live fun s =>
  let k := ckey c
  let s := s.settle k
  let t := s.ctime k
  match (s.core k).kernel, (s.pickChan k e.val).bind (fun n => (s.nextReq k n).map (fun p => (n, p))) with
  | some q, some (n, x, nr) =>
    if s.frozen k || !(s.core k).engineFree t e.val || (!x.d.loads && !(s.core k).engineFree t (2 + e.val)) then .next s
    else .next ((s.formReq k n q.lease x nr).onCore k (fun c => c.afterReq t n x nr))
  | _, _ => .next s

/-! Landings. -/

/-- Row t of a channel's transfer landed in its near half (06 R235, R240, R242): written, counted, and the half FULL when it holds all its rows. -/
def State.landRow (s : State) (k n i buf row : Nat) (img : RowImg) (fresh : Bool) : State :=
  let s := s.writeOwn k buf row img
  let s := if fresh then s.markKernel k else s
  let t := s.ctime k
  s.onCore k (fun c =>
    let ch := c.chan n
    let mine := fun (h : HalfFill) => h.st == 1 && h.buf == buf && h.row ≤ row && row < h.row + h.n
    let hs := ch.halves.map (fun h => if mine h then { h with got := h.got + 1, st := if h.got + 1 == h.n then 2 else 1 } else h)
    let full := ch.halves.filter (fun h => mine h && h.got + 1 == h.n)
    let c := c.setChan n { ch with halves := hs, cur := ch.cur.map (fun x => x.rowDone i) }
    { c with sbTail := c.sbTail ++ full.map (fun h => ((⟨h.buf, h.row, h.n, true, 1⟩ : SbEntry), t + 1)) })

/-- The oldest performed request of a channel whose time has come. -/
def State.dueReq (s : State) (k n : Nat) (write : Bool) : Option MemReq :=
  s.reqs.find? (fun r => match r.owner with
    | .chan c ch _ _ _ _ => c == k && ch == n && r.write == write && s.landed k r
    | _ => false)

/-- A landed row installed in the weight cache where its read asked for it (05 R214). -/
def State.installRow (s : State) (k : Nat) (r : MemReq) : State :=
  if r.install then s.cacheInstall (coreDie k) r.addr (r.lease.getD 0) r.img else s

/-- The near bank of the row that a channel lands next. -/
def State.landBank (s : State) (k n : Nat) : Option Nat :=
  (s.dueReq k n false).bind (fun r => match r.owner with | .chan _ _ _ _ buf row => some (bankOf buf row).1 | _ => none)

/-- Whether an engine may land a row of a bank in core cycle t: it lands one row a cycle, and engine 1 lands none in a bank in which engine 0 has landed one, or may still, in that cycle (06 R239). -/
def State.landFree (s : State) (k t e bank : Nat) : Bool :=
  let c := s.core k
  let first := (List.range 8).any (fun j => s.landBank k j == some bank)
  c.engineFree t (2 + e) && (e == 0 || (if c.engineFree t 2 then !first else tget 0 c.ports 4 != bank))

/-- STREAM_ROW_LAND (06 R239, R240, R242): the oldest row of a channel that is due lands; at a frozen core it waits at the crossing (03 R109). -/
def execStreamRowLand (c : CoreId) (ch : Fin 16) (s : State) : Host.Outcome State Fault Refusal := s.live fun s =>
  let k := ckey c
  match s.dueReq k ch.val false with
  | none => .next s
  | some r =>
    match r.owner with
    | .chan _ n _ i buf row =>
      let e := n / 8
      let t := s.ctime k
      if s.frozen k || !s.landFree k t e (bankOf buf row).1 then .next s
      else
        let s' := ({ s with reqs := s.reqs.erase r }).installRow k r
        let s' := if r.within k && r.fresh then s'.coreEvent k 2 (r.row % 2 ^ 15) (match ((s.core k).chan n).cur with | some x => x.bundle | none => 0) 0 else s'
        .next ((s'.landRow k n i buf row r.img r.fresh).onCore k (fun c => c.moved t e (bankOf buf row).1))
    | _ => .next s

/-- STORE_ROW_WRITTEN (06 R240): the acknowledgement of a store row returns; a frozen core counts it after its freeze (03 R109). -/
def execStoreRowWritten (c : CoreId) (ch : Fin 16) (s : State) : Host.Outcome State Fault Refusal := s.live fun s =>
  let k := ckey c
  match s.dueReq k ch.val true with
  | none => .next s
  | some r =>
    match r.owner with
    | .chan _ n _ i _ _ =>
      if s.frozen k then .next s
      else .next (State.onCore { s with reqs := s.reqs.erase r } k (fun x =>
        let y := x.chan n
        x.setChan n { y with cur := y.cur.map (fun z => z.rowDone i) }))
    | _ => .next s

/-- Whether rows of a channel's transfer are still on their way, in this unit or in packets. -/
def State.rowsOut (s : State) (k n : Nat) : Bool :=
  s.reqs.any (fun r => match r.owner with | .chan c ch _ _ _ _ => c == k && ch == n | _ => false) ||
    s.conns.any (fun c => c.2.out.any (fun o => o.pkt.type == 1 && o.rows.any (fun r => r.core == k && r.ch == n)) || c.2.reads.any (fun w => w.rows.any (fun r => r.core == k && r.ch == n)) ||
      c.2.waiting.any (fun w => w.2.any (fun r => r.core == k && r.ch == n))) ||
    s.packing.any (fun x => x.rows.any (fun r => r.core == k && r.ch == n))

/-- TRANSFER_COMPLETE (06 R243, R244, R246, R247): the transfer's last row has landed or been written, and a pending re-arm takes effect in the next cycle; a stopped channel becomes idle once its requested rows are in. -/
def execTransferComplete (c : CoreId) (ch : Fin 16) (s : State) : Host.Outcome State Fault Refusal := s.live fun s =>
  let k := ckey c
  let s := s.settle k
  let n := (s.core k).chan ch.val
  match n.cur with
  | none => .next s
  | some x =>
    let ended := x.done == x.total || (n.stopped && !s.rowsOut k ch.val)
    if !ended || s.frozen k then .next s
    else
      let next := n.pend.map (fun y => { y with first := firstHalf (some x) y.d, start := s.ctime k + 1 })
      .next (s.onCore k (fun c => c.setChan ch.val { n with cur := next, pend := none, last := some x, stopped := n.stopped && next.isSome }))

/-- What waited at a core's crossing taken in, in order. -/
def State.takeCrossing (s : State) (k : Nat) : State :=
  (s.core k).crossing.foldl (fun s x => match x with
    | .flag f set => s.onCore k (fun c => c.applyFlag s.coreClock f set)) s

/-- FREEZE_END (03 R108-R110): the two frozen cycles are over; what waited at the crossing is taken in, and a correction of the core cycle that follows is met. -/
def execFreezeEnd (c : CoreId) (s : State) : Host.Outcome State Fault Refusal := s.live fun s =>
  let k := ckey c
  match (s.core k).freezeAt with
  | none => .next s
  | some t =>
    if s.coreClock ≤ t + 2 then .next s
    else
      let s := s.onCore k (fun x => { x with freezeAt := none, frozen := x.frozen + 2 })
      let s' := s.takeCrossing k
      .next ((s'.onCore k (fun x => { x with crossing := [] })).detect k)

end Sys2Proof.Machine
end

