-- ==== Sys2Proof/Machine/Stack.lean ====
section
/-! DEFINITION. Activation stacks and their frames (05 R218-R227, 06 R231, R241, 08 R319-R326). -/
namespace Sys2Proof.Machine

/-! Frames (08 R319-R326). -/

/-- Frames in use. -/
def State.frameCount (s : State) (d g : Nat) : Nat := s.fld (fstat d g) ASTK_FSTAT.NFRAMES

/-- STATE of a frame. -/
def State.frameState (s : State) (d g f : Nat) : Nat := s.fld (frameReg .ASTK_FRAME d g f) ASTK_FRAME.STATE

/-- The number and STATE of the top frame, if a frame is in use. -/
def State.topFrame (s : State) (d g : Nat) : Option (Nat × Nat) :=
  let n := s.frameCount d g
  if n == 0 then none else some (n - 1, s.frameState d g (n - 1))

/-- A frame sealed at its present height (08 R322). -/
def State.seal (s : State) (d g f : Nat) : State :=
  let r := frameReg .ASTK_FRAME d g f
  let h := s.stackTop d g - s.fld r ASTK_FRAME.BASE
  let want := s.fld (frameReg .ASTK_FEXP d g f) ASTK_FEXP.EXPECT
  let s := (s.setFld (frameReg .ASTK_FACCT d g f) ASTK_FACCT.SEALED h).setFld r ASTK_FRAME.STATE 2
  if want != 0 && want != h then (s.setFld r ASTK_FRAME.MISMATCH 1).bump (fstat d g) ASTK_FSTAT.MISMATCHES 1 else s

/-- A refused frame command (08 R320). -/
def State.frameRefused (s : State) (d g : Nat) (st : Status) : State × Status := (s.setW1c (fstat d g) ASTK_FSTAT.REFUSED, st)

/-- ASTK_FCMD OPEN (08 R321). -/
def State.frameOpen (s : State) (d g v : Nat) : State × Status :=
  let n := s.frameCount d g
  if s.fld (astkCfg d g) ASTK_CFG.ENABLE == 0 then s.frameRefused d g .state
  else if n == 16 then s.frameRefused d g .noResource
  else if (s.topFrame d g).any (fun f => f.2 == 3) then s.frameRefused d g .state
  else
    let s := match s.topFrame d g with | some (f, st) => if st == 1 then s.seal d g f else s | none => s
    let r := frameReg .ASTK_FRAME d g n
    let s := (((s.setFld r ASTK_FRAME.BASE (s.stackTop d g)).setFld r ASTK_FRAME.MB (bits v 31 16)).setFld r ASTK_FRAME.MISMATCH 0).setFld r ASTK_FRAME.STATE 1
    let s := (s.resetReg (frameReg .ASTK_FACCT d g n)).resetReg (frameReg .ASTK_FEXP d g n)
    let s := s.setFld (frameReg .ASTK_FEXP d g n) ASTK_FEXP.EXPECT (bits v 63 32)
    (s.setFld (fstat d g) ASTK_FSTAT.NFRAMES (n + 1), .ok)

/-- ASTK_FCMD DRAIN (08 R323). -/
def State.frameDrain (s : State) (d g v : Nat) : State × Status :=
  if s.fld (astkCfg d g) ASTK_CFG.ENABLE == 0 then s.frameRefused d g .state
  else match s.topFrame d g with
    | none => s.frameRefused d g .state
    | some (f, st) =>
      let r := frameReg .ASTK_FRAME d g f
      if s.fld r ASTK_FRAME.MB != bits v 31 16 || st == 3 then s.frameRefused d g .state
      else
        let s := if st == 1 then s.seal d g f else s
        if s.fld r ASTK_FRAME.MISMATCH == 1 then s.frameRefused d g .state else (s.setFld r ASTK_FRAME.STATE 3, .ok)

/-- A frame command applied (08 R320). -/
def State.frameApply (s : State) (d g v : Nat) : State × Status :=
  match bits v 1 0 with
  | 0 => (s, .ok)
  | 1 => s.frameOpen d g v
  | 2 => s.frameDrain d g v
  | _ => s.frameRefused d g .range

/-- TOP, FLOOR, HWM, SPILLED and every frame of a stack at zero (05 R219, 08 R326). -/
def State.clearStack (s : State) (d g : Nat) : State :=
  let s := (((s.resetReg (astk .ASTK_TOP d g)).resetReg (astk .ASTK_FLOOR d g)).resetReg (astk .ASTK_STAT d g)).resetReg (fstat d g)
  (List.range 16).foldl (fun s f => ((s.resetReg (frameReg .ASTK_FRAME d g f)).resetReg (frameReg .ASTK_FACCT d g f)).resetReg (frameReg .ASTK_FEXP d g f)) s

/-! Writes to the stack's registers (05 R218-R220). -/

/-- The conditions of ENABLE = 1 for the configuration word `w` (05 R220). -/
def State.stackOk (s : State) (d g w : Nat) : Bool :=
  let f := fun (x : Fld) => bits w x.hi x.lo
  let lim := f ASTK_CFG.LIMIT
  let rows := s.fld (astk .ASTK_SPILL_ROWS d g) ASTK_SPILL_ROWS.ROWS
  let base := s.fld (astk .ASTK_SPILL d g) ASTK_SPILL.SPILL_BASE
  128 ≤ lim && lim ≤ 786432 && lim % 64 == 0 && s.inPartition d (f ASTK_CFG.BASE_ROW) lim (f ASTK_CFG.LEASE) && rows % 64 == 0 &&
    (rows == 0 || (bits base 47 44 == 0 && (s.findSpan (some (f ASTK_CFG.LEASE)) base (base + 512 * rows - 1)).isNone))

/-- A stack's moves discarded (15 R545): no row of a spill or refill is still to be performed, and FLOOR stays. -/
def State.stackHalt (s : State) (d g : Nat) : State :=
  let mine := fun (r : MemReq) => match r.owner with | .spillOut e h _ => e == d && h == g | .spill e h => e == d && h == g | .refill e h _ => e == d && h == g | .refillIn e h => e == d && h == g | _ => false
  let s := s.dropReqs mine
  { s with stackRuns := if (tget? s.stackRuns (d * 64 + g)).isSome then tset s.stackRuns (d * 64 + g) StackRun.idle else s.stackRuns }

/-- A stack disabled for good as its lease leaves it: TOP and FLOOR are cleared and its moves are discarded (05 R227, 15 R540). -/
def State.stackOff (s : State) (d g : Nat) : State := ((s.setFld (astkCfg d g) ASTK_CFG.ENABLE 0).clearStack d g).stackHalt d g

/-- A write to ASTK_CFG (05 R218-R220): LEASE by firmware alone; while ENABLE is 1 no other field changes. -/
def State.astkCfgWrite (s : State) (a : Actor) (d g v : Nat) : State × Status :=
  let r := astkCfg d g
  let old := (s.reg r).toNat
  let f := fun (x : Fld) => bits v x.hi x.lo
  let differs := fun (x : Fld) => f x != bits old x.hi x.lo
  let en := ASTK_CFG.ENABLE
  if s.fld r en == 1 then
    if isDcp a && (differs ASTK_CFG.LEASE || differs ASTK_CFG.LIMIT || differs ASTK_CFG.BASE_ROW) then (s, .state)
    else (s.setFld r en (f en), .ok)
  else if isDcp a && (!RegName.inRange .ASTK_CFG v || differs ASTK_CFG.LEASE) then (s, .range)
  else
    let w := RegName.written .ASTK_CFG old v
    let w := if a == .firmware then w else setBits w ASTK_CFG.LEASE.hi ASTK_CFG.LEASE.lo (bits old ASTK_CFG.LEASE.hi ASTK_CFG.LEASE.lo)
    let ok := f en == 0 || s.stackOk d g w
    if isDcp a && !ok then (s, .range)
    else (s.setReg r (BitVec.ofNat 64 (setBits w en.hi en.lo (flag (f en == 1 && ok)))), if ok then .ok else .range)

/-- A write to ASTK_SPILL or ASTK_SPILL_ROWS (05 R219). -/
def State.astkExtentWrite (s : State) (a : Actor) (r : Reg) (v : Nat) : State × Status :=
  if s.fld (astkCfg r.sel r.i) ASTK_CFG.ENABLE == 1 then (s, .state) else s.plainWrite a r v

/-- A write to ASTK_TOP (05 R219). -/
def State.astkTopWrite (s : State) (d g v : Nat) : State × Status :=
  if s.fld (astkCfg d g) ASTK_CFG.ENABLE == 1 then (s, .state)
  else if bits v 31 0 != 0 then (s, .range)
  else (s.clearStack d g, .ok)

/-! Pushes and pops (05 R222-R226, 06 R241, 08 R324). -/

/-- A push or pop refused: the channel and its kernel stop, as a refusal of the bundle of the ARM (06 R241). -/
def State.stackRefuse (s : State) (k n : Nat) (x : Xfer) (st : Status) : State := s.refuse k st x.bundle (6 + n / 8)

/-- The checks every push and pop meets (05 R222). -/
def State.stackUse (s : State) (d g k lease : Nat) : Option Status :=
  firstFail [need (coreDie k == d && s.stackLease d g == lease) .range, need (s.fld (astkCfg d g) ASTK_CFG.ENABLE == 1) .state]

/-- The half a pop fills with fill `u` of its transfer, EMPTY still: its buffer, first row and rows, and the logical row of the stack that its row 0 takes (06 R235, R241). -/
def Xfer.popHalf (x : Xfer) (u low : Nat) : HalfFill :=
  let f := x.fill u
  ⟨x.id, x.d.nearBuf, x.d.halfRow f.1, f.2, 0, 0, none, f.1, x.d.halfRows, some low⟩

/-- The fill of a pop's transfer that no turn has been taken for yet (05 R226). -/
def Chan.nextFill (k : Chan) (x : Xfer) : Nat :=
  let hr := max 1 x.d.halfRows
  if k.halves.any (fun h => h.low.isSome) then x.formed / hr + 1 else ceilDiv x.formed hr

/-- Pushes or pops of stack g that a channel has at hand in core cycle t: halves handed over, or EMPTY halves due rows (06 R241). -/
def Chan.stackOps (k : Chan) (t g : Nat) : Nat :=
  match k.cur with
  | none => 0
  | some x =>
    if k.stopped || x.d.stack != g || t < x.start then 0
    else if x.d.dir == 2 then (k.halves.filter (fun h => h.st == 2 && h.low.isNone && h.xfer == x.id)).length
    else if x.d.dir == 3 then
      let u := k.nextFill x
      let free := fun (u : Nat) => u * x.d.halfRows < x.total && !k.halves.any (fun y => y.buf == x.d.nearBuf && y.row == x.d.halfRow (x.fill u).1)
      if !free u then 0 else if free (u + 1) then 2 else 1
    else 0

/-- The pushes and pops of stack g of a die that are at hand, by core and channel in ascending order (05 R222). -/
def State.stackOps (s : State) (d g : Nat) : List StackOp :=
  (s.cores.filter (fun p => coreDie p.1 == d && p.2.kernel.isSome)).flatMap (fun p => p.2.chans.flatMap (fun c => List.replicate (c.2.stackOps (s.ctime p.1) g) (.move p.1 c.1)))

/-- A list with the entries of another that it does not hold as often. -/
def addMissing (l new : List StackOp) : List StackOp := new.foldl (fun l e => if l.count e < new.count e then l ++ [e] else l) l

/-- Whether a frame command's DCP command still waits for its turn (08 R325). -/
def State.frameHeld (s : State) (ses seq : Nat) : Bool := match tget? s.sessions ses with | some x => x.cmds.any (fun c => c.seq == seq && c.held.isSome) | none => false

/-- What waits at a stack and still stands: pushes and pops that are at hand, and frame commands (05 R222, 08 R325). -/
def State.stackKept (s : State) (ops : List StackOp) (l : List StackOp) : List StackOp :=
  l.foldl (fun l e => match e with
    | .move .. => if l.count e < ops.count e then l ++ [e] else l
    | .posted _ => l ++ [e]
    | .held ses seq => if s.frameHeld ses seq then l ++ [e] else l) []

/-- The frame commands posted at the head of a stack's queue applied, as far as nothing waits before them (08 R325). -/
def State.applyPosted (s : State) (d g : Nat) : List StackOp → State
  | .posted v :: t => (s.frameApply d g v).1.applyPosted d g t
  | l => s.setRun d g { s.stackRun d g with waiting := l }

/-- What has reached a stack and waits: the pushes and pops that have come in this cycle stand behind the others, by ascending core (05 R222); those whose channel has ended are gone. -/
def State.arrivals (s : State) (d g : Nat) : State :=
  let ops := s.stackOps d g
  let w := s.stackRun d g |>.waiting
  let new := addMissing (s.stackKept ops w) ops
  if new == w then s else s.applyPosted d g new

/-- The arrivals of this cycle at every stack (05 R222). -/
def State.stackArrivals (s : State) : State :=
  let named := s.cores.flatMap (fun p => p.2.chans.filterMap (fun c => match c.2.cur with | some x => if 2 ≤ x.d.dir then some (coreDie p.1, x.d.stack) else none | none => none))
  named.foldl (fun s e => s.arrivals e.1 e.2) s

/-- A stack's oldest push, pop or frame command done with, or refused. -/
def State.stackNext (s : State) (d g : Nat) : State := s.applyPosted d g ((s.stackRun d g).waiting.drop 1)

/-- The place of a REG_WRITE whose turn at the stack has come; no command has SEQ 0 (14 R518). -/
def turnTicket : StackOp := .held 0 0

/-- A write to ASTK_FCMD (08 R320, R325): the command is applied in its turn, behind the pushes and pops that have reached the stack. A REG_WRITE that waits is held by its session (log 48) and comes here in its turn. -/
def State.fcmdWrite (s : State) (d g v : Nat) : State × Status :=
  if (s.stackRun d g).waiting.head? == some turnTicket then let p := s.frameApply d g v; (p.1.stackNext d g, p.2)
  else
    let s := s.arrivals d g
    let run := s.stackRun d g
    if run.waiting.isEmpty then s.frameApply d g v else (s.setRun d g { run with waiting := run.waiting ++ [.posted v] }, .ok)

/-- A REG_WRITE of a session about to write a frame command (08 R325): whether it must wait, with its place kept in the stack's queue; at the head of the queue its turn has come. -/
def State.frameTurn (s : State) (d g ses seq : Nat) : State × Bool :=
  let s := s.arrivals d g
  let run := s.stackRun d g
  let mine : StackOp := .held ses seq
  if run.waiting.isEmpty then (s, false)
  else if run.waiting.head? == some mine then (s.setRun d g { run with waiting := turnTicket :: run.waiting.drop 1 }, false)
  else if run.waiting.contains mine then (s, true)
  else (s.setRun d g { run with waiting := run.waiting ++ [mine] }, true)

/-- The FLOOR a push of n rows needs: the lowest reached by chunks of 64 rows at which it fits (05 R223). -/
def State.floorFor (s : State) (d g n : Nat) : Nat :=
  let f := s.stackFloor d g
  let over' := s.stackTop d g + n - f - s.stackLimit d g
  f + 64 * ceilDiv over' 64

/-- TOP raised to a new value: HWM and the top frame's PEAK follow it (05 R218, 08 R319). -/
def State.raiseTop (s : State) (d g top : Nat) : State :=
  let st := astk .ASTK_STAT d g
  let s := (s.setFld (astk .ASTK_TOP d g) ASTK_TOP.TOP top).setFld st ASTK_STAT.HWM (max top (s.fld st ASTK_STAT.HWM))
  match s.topFrame d g with
  | some (f, _) =>
    let r := frameReg .ASTK_FACCT d g f
    s.setFld r ASTK_FACCT.PEAK (max (s.fld r ASTK_FACCT.PEAK) (top - s.fld (frameReg .ASTK_FRAME d g f) ASTK_FRAME.BASE))
  | none => s

/-- A push's turn (05 R222, 08 R324): TOP rises by the rows of the half, which then go to their logical rows one a cycle. -/
def State.pushHalf (s : State) (d g k n : Nat) (h : HalfFill) : State :=
  let top := s.stackTop d g
  (s.raiseTop d g (top + h.n)).onCore k (fun c =>
    let y := c.chan n
    c.setChan n { y with halves := y.halves.map (fun z => if z == h then { z with low := some top } else z) })

/-- ASTK_PUSH (05 R222-R224, 06 R241, 08 R324): the oldest half handed over by the channel is pushed, if it is the stack's turn for it and the rows of the push or pop before it have all been asked for; or it is refused. Its rows follow one a cycle, each once the chunk whose SRAM row it reuses has been spilled (R223, R239). -/
def execAstkPush (d : Die) (g : Fin 64) (c : CoreId) (ch : Fin 16) (s : State) : Host.Outcome State Fault Refusal := s.live fun s =>
  let k := ckey c
  let s := (s.settle k).arrivals d.val g.val
  let n := ch.val
  match (s.core k).kernel, ((s.core k).chan n).cur with
  | some q, some x =>
    match ((s.core k).chan n).halves.find? (fun h => h.st == 2 && h.low.isNone && h.xfer == x.id) with
    | some h =>
      if x.d.dir != 2 || (s.stackRun d.val g.val).waiting.head? != some (.move k n) || s.frozen k || (s.stackMove d.val g.val).isSome then .next s
      else match s.stackUse d.val g.val k q.lease with
        | some st => .next ((s.stackNext d.val g.val).stackRefuse k n x st)
        | none =>
          let f := s.floorFor d.val g.val h.n
          if (s.topFrame d.val g.val).any (fun t => t.2 == 2) then .next ((s.stackNext d.val g.val).stackRefuse k n x .state)
          else if s.stackFloor d.val g.val < f && s.fld (astk .ASTK_SPILL_ROWS d.val g.val) ASTK_SPILL_ROWS.ROWS < f then .next ((s.stackNext d.val g.val).stackRefuse k n x .noResource)
          else .next ((s.pushHalf d.val g.val k n h).stackNext d.val g.val)
    | none => .next s
  | _, _ => .next s

/-- Whether a move of a stack's rows still waits to be granted in the SRAM rows of the chunk from logical row f: a read or write, or a write alone. -/
def State.chunkBusy (s : State) (d g f : Nat) (reads : Bool) : Bool :=
  let lo := sdmRow d + s.stackRow d g f
  s.reqs.any (fun r => r.movesRow && lo ≤ r.row && r.row < lo + 64 && (reads || r.write))

/-- Requests for the rows of a chunk, a row a cycle (05 R223, R225, R227): a spill's reads of SRAM, or a refill's reads of the spill extent. -/
def State.chunk (s : State) (d g lease first : Nat) (spill : Bool) : Nat → State
  | 0 => s
  | j + 1 =>
    let s := s.chunk d g lease first spill j
    let addr := s.spillAddr d g (first + j)
    let sram := s.stackRow d g (first + j)
    match s.rowAt addr with
    | none => s
    | some row =>
      let r := if spill then s.newReq (sdmRow d + sram) addr false (.spillOut d g row) (some lease) none ⟨[], false⟩ else s.newReq row addr false (.refill d g sram) (some lease) none ⟨[], false⟩
      s.submit { r with reached := s.now + j }

/-- Whether the rows of the chunk from logical row f have all been asked for: those that a push has not come to yet are not in SRAM (05 R223). -/
def State.chunkFormed (s : State) (d g f : Nat) : Bool :=
  match s.stackMove d g with
  | some (_, _, x, h) => x.d.dir != 2 || (x.level h).any (fun r => f + 64 ≤ r)
  | none => true

/-- ASTK_SPILL (05 R223, R227): while TOP - FLOOR exceeds LIMIT, the lowest 64 rows in SRAM are read out towards the spill extent and FLOOR rises by 64. -/
def execAstkSpill (d : Die) (g : Fin 64) (s : State) : Host.Outcome State Fault Refusal := s.live fun s =>
  let d := d.val
  let g := g.val
  let run := s.stackRun d g
  let f := s.stackFloor d g
  if s.stackTop d g - f ≤ s.stackLimit d g || run.refill || s.now < run.readOut || !s.chunkFormed d g f || s.chunkBusy d g f false then .next s
  else
    let s := s.chunk d g (s.stackLease d g) f true 64
    let s := s.setFld (astk .ASTK_FLOOR d g) ASTK_FLOOR.FLOOR (f + 64)
    let s := match s.topFrame d g with | some (t, _) => s.bump (frameReg .ASTK_FEXP d g t) ASTK_FEXP.SPILLED 64 | none => s
    .next (s.setRun d g { run with readOut := s.now + 64 })

/-- Whether a request moves a row of a stack's spill. -/
def MemReq.spills (r : MemReq) (d g : Nat) : Bool := match r.owner with | .spillOut a b _ => a == d && b == g | .spill a b => a == d && b == g | _ => false

/-- The height of a stack's rows that are still needed in SRAM: TOP, or the row after the next that a pop has to read (05 R225, R226). -/
def State.stackHeight (s : State) (d g : Nat) : Nat :=
  match s.stackMove d g with
  | some (_, _, x, h) => if x.d.dir == 3 then max (s.stackTop d g) ((x.level h).getD 0 + 1) else s.stackTop d g
  | none => s.stackTop d g

/-- ASTK_REFILL (05 R225, R227): while FLOOR is above 0 and there is room for two chunks, the 64 rows below FLOOR are asked for, once no row spilled waits to be granted and no row popped from the chunk's place in SRAM waits to be read. -/
def execAstkRefill (d : Die) (g : Fin 64) (s : State) : Host.Outcome State Fault Refusal := s.live fun s =>
  let d := d.val
  let g := g.val
  let run := s.stackRun d g
  let f := s.stackFloor d g
  if run.refill || f == 0 || s.stackLimit d g < s.stackHeight d g - f + 128 || s.reqs.any (fun r => r.stage == 0 && r.spills d g) || s.chunkBusy d g (f - 64) true then .next s
  else .next ((s.chunk d g (s.stackLease d g) (f - 64) false 64).setRun d g { run with refill := true })

/-- Whether a request moves a row of a stack's refill. -/
def MemReq.refills (r : MemReq) (d g : Nat) : Bool := match r.owner with | .refill a b _ => a == d && b == g | .refillIn a b => a == d && b == g | _ => false

/-- ASTK_REFILL_LAND (05 R225): the refill's rows are in SRAM and FLOOR falls by 64. -/
def execAstkRefillLand (d : Die) (g : Fin 64) (s : State) : Host.Outcome State Fault Refusal := s.live fun s =>
  let d := d.val
  let g := g.val
  let run := s.stackRun d g
  let landed := fun (r : MemReq) => r.owner == .refillIn d g && r.stage == 2 && r.due ≤ s.now
  if !run.refill || s.reqs.any (fun r => r.refills d g && !landed r) then .next s
  else
    let s := ({ s with reqs := s.reqs.filter (fun r => !r.refills d g) }).setFld (astk .ASTK_FLOOR d g) ASTK_FLOOR.FLOOR (s.stackFloor d g - 64)
    .next (s.setRun d g { run with refill := false })

/-- TOP lowered by a pop; a frame that it empties is retired (08 R324). -/
def State.lowerTop (s : State) (d g top : Nat) : State :=
  let s := s.setFld (astk .ASTK_TOP d g) ASTK_TOP.TOP top
  match s.topFrame d g with
  | some (f, _) =>
    let r := frameReg .ASTK_FRAME d g f
    if s.fld r ASTK_FRAME.BASE == top then
      ((s.setFld r ASTK_FRAME.STATE 0).setFld (fstat d g) ASTK_FSTAT.LAST_MB (s.fld r ASTK_FRAME.MB)).setFld (fstat d g) ASTK_FSTAT.NFRAMES f
    else s
  | none => s

/-- A pop's turn (05 R226, 08 R324): TOP falls by the rows of the half, which then takes them one a cycle, the highest first. -/
def State.popRows (s : State) (d g k n : Nat) (x : Xfer) (h : HalfFill) : State :=
  (s.lowerTop d g (s.stackTop d g - h.n)).onCore k (fun c => c.setChan n { c.chan n with cur := some x, halves := (c.chan n).halves ++ [h] })

/-- ASTK_POP (05 R226, 06 R241, 08 R324): the channel's next half takes the top rows, if it is the stack's turn for it and the rows of the push or pop before it have all been asked for; or it is refused. Its rows follow one a cycle, those below FLOOR once they have been refilled (R225, R239). -/
def execAstkPop (d : Die) (g : Fin 64) (c : CoreId) (ch : Fin 16) (s : State) : Host.Outcome State Fault Refusal := s.live fun s =>
  let k := ckey c
  let s := (s.settle k).arrivals d.val g.val
  let n := ch.val
  match (s.core k).kernel, ((s.core k).chan n).cur with
  | some q, some x =>
    let top := s.stackTop d.val g.val
    let u := ((s.core k).chan n).nextFill x
    let rows := (x.fill u).2
    if x.d.dir != 3 || (s.stackRun d.val g.val).waiting.head? != some (.move k n) || s.frozen k || (s.stackMove d.val g.val).isSome then .next s
    else match s.stackUse d.val g.val k q.lease with
      | some st => .next ((s.stackNext d.val g.val).stackRefuse k n x st)
      | none =>
        let frameOk := match s.topFrame d.val g.val with
          | none => true
          | some (f, st) => st == 3 && rows ≤ top - s.fld (frameReg .ASTK_FRAME d.val g.val f) ASTK_FRAME.BASE
        if top < rows || !frameOk then .next ((s.stackNext d.val g.val).stackRefuse k n x .range)
        else .next ((s.popRows d.val g.val k n x (x.popHalf u (top - rows))).stackNext d.val g.val)
  | _, _ => .next s

end Sys2Proof.Machine
end

