-- ==== Sys2Proof/Machine/Awl.lean ====
section
/-! DEFINITION. The Awl engine (06 R260-R267). -/
namespace Sys2Proof.Machine

/-- The thread an AWL's word starts, on the first free of 16 (06 R260, R261). -/
def State.startThread (s : State) (k e : Nat) (q : Kernel) (w : Nat) : State :=
  let x := s.core k
  match findIdx (fun t => (tget? x.awl t).isNone) 16 with
  | none => s
  | some t =>
    let a := awlDesc (x.descOf (opf w 63 48))
    let n := x.nextSeq
    let th : AwlThread :=
      { indexBase := a.indexBase, tableBase := a.tableBase, count := a.count, tableRows := a.tableRows, stride := a.stride, span := a.span, nearRow := a.nearRow, nearBuf := a.nearBuf
        scatter := a.scatter, entry := 0, piece := 0, landed := 0, outstanding := 0, ixs := [], buf := [], poison := [], bundle := q.idx, slot := 6 + e, stopped := false, seq := n.1, ixMem := listMem k a.indexBase }
    s.setCore k { n.2 with awl := tset n.2.awl t th }

/-- AWL (06 R261, R262): the operation runs as the lowest free of 16 threads. -/
def execAwl (c : CoreId) (e : Fin 2) (s : State) : Host.Outcome State Fault Refusal := s.live fun s =>
  .next (s.issue (ckey c) (6 + e.val) 3 (fun q w s => s.startThread (ckey c) e.val q w))

/-- Pieces of a thread's list. -/
def AwlThread.total (a : AwlThread) : Nat := a.count * a.span

/-- Whether a thread may form its next request (06 R263). -/
def AwlThread.ready (a : AwlThread) : Bool := !a.stopped && a.entry < a.count && a.outstanding < 32

/-- Whether a thread waits for a row of its index list that it has asked for. -/
def State.indexBusy (s : State) (k t : Nat) : Bool := s.engineBusy .index (coreDie k) (16 * coreNum k + t)

/-- The thread the engine serves: the current one, or the next ready one in ascending order, wrapping (06 R263). -/
def State.awlThread (s : State) (k : Nat) : Option Nat :=
  let c := s.core k
  ((List.range 16).map (fun i => (c.awlCur + i) % 16)).find? (fun t => (tget? c.awl t).any (·.ready) && !s.indexBusy k t)

/-- Near rows of a gather whose pieces have all landed are written whole, a last part row completed with zeros; a row with a poisoned piece is poisoned (06 R265, 03 R103). -/
def State.awlRows (s : State) (k : Nat) (a : AwlThread) (rows : List Nat) : State × AwlThread :=
  rows.foldl (fun p r =>
    let need := (List.range 8).filterMap (fun i => if 8 * r + i < a.total then some (8 * r + i) else none)
    let have' := need.filterMap (fun i => p.2.buf.find? (fun b => b.1 == i))
    if need.isEmpty || have'.length != need.length then p
    else
      let img : RowImg := ⟨padRow (have'.map (·.2)).flatten, need.any (fun i => p.2.poison.contains i)⟩
      (p.1.writeOwn k a.nearBuf (a.nearRow + r) img,
        { p.2 with buf := p.2.buf.filter (fun b => !need.contains b.1), poison := p.2.poison.filter (fun i => !need.contains i) })) (s, a)

/-- A thread as it has become: it ends once all its pieces are in, or once its last outstanding piece is in after a stop; its entries are released then, or, of a scatter, once its last near row has been read (06 R262, 05 R200). -/
def State.awlSettle (s : State) (k t : Nat) (a : AwlThread) : State :=
  let ends := a.landed == a.total || (a.stopped && a.outstanding == 0)
  let u := s.ctime k + 1
  s.onCore k (fun c =>
    let frees := (tget? c.awl t).any (·.held) && (ends || !a.held)
    { c with awl := if ends then tdel c.awl t else tset c.awl t a, sbTail := if frees then c.sbTail ++ a.ranges.map (fun e => (e, u)) else c.sbTail })

/-- The index values of sixteen entries read (06 R263): from the core's own memory 64 bytes at a time; from shared die memory by the whole row through the NARROW port, or from another core's memory, in an access that the thread waits for (log 16). -/
def State.awlIndices (s : State) (k t lease : Nat) (a : AwlThread) : State × List Nat :=
  let addr := a.indexBase + 64 * (a.entry / 16)
  let pick := fun (l : List Byte) => (List.range 16).map (fun i => leNat ((l.drop (addr % 512 + 4 * i)).take 4))
  match s.rowAt addr with
  | none => (s, [])
  | some row =>
    if 28 * 2 ^ 31 ≤ row && coreOfRow row == k then
      let r := s.readOwnWords k 2 (row % 2 ^ 15) a.bundle (fun w => w / 2 == addr % 512 / 64)
      (r.1, pick r.2.bytes)
    else
      let f := s.readFar row (some lease)
      let s := f.s.book .index (coreDie k) (16 * coreNum k + t) row true (some lease) (some (s.now + 512))
      (if f.fresh then s.markKernel k else s, pick f.img.bytes)

/-- Whether the index values of a thread's next sixteen entries may be read now (05 R202). -/
def State.indexReach (s : State) (a : AwlThread) : Bool :=
  !a.ixs.isEmpty || (match s.rowAt (a.indexBase + 64 * (a.entry / 16)) with | some row => a.ixMem != 7 || s.mayReach row | none => true)

/-- A thread at its next entry: the index values of sixteen entries are let go with the last of them. -/
def AwlThread.advance (a : AwlThread) : AwlThread := { a with entry := a.entry + 1, ixs := if (a.entry + 1) % 16 == 0 then [] else a.ixs }

/-- An entry passed over as null: a gather's pieces are zero, a scatter writes nothing (06 R266). -/
def AwlThread.skip (a : AwlThread) : AwlThread :=
  let zeros := (List.range a.span).map (fun p => (a.entry * a.span + p, List.replicate 64 (0#8 : Byte)))
  { a.advance with piece := 0, landed := a.landed + a.span, buf := if a.scatter then a.buf else a.buf ++ zeros }

/-- Whether the read of a thread's next sixteen index values corrects a word of the core's own memory: it takes two cycles more, those of the freeze (03 R108). -/
def State.indexCorrects (s : State) (k : Nat) (a : AwlThread) : Bool :=
  let addr := a.indexBase + 64 * (a.entry / 16)
  match s.rowAt addr with
  | some row => 28 * 2 ^ 31 ≤ row && coreOfRow row == k && s.corrects row (fun w => w / 2 == addr % 512 / 64)
  | none => false

/-- An entry without a piece to move passed over (06 R264): a gather's entry reads as zeros. -/
def State.skipEntry (s : State) (k : Nat) (a : AwlThread) : State × AwlThread :=
  if a.scatter then (s, a.skip) else s.awlRows k a.skip ((List.range (a.span / 8 + 2)).map (fun i => a.entry * a.span / 8 + i))

/-- The oldest performed request of a thread whose time has come. -/
def State.duePiece (s : State) (k t : Nat) : Option MemReq :=
  s.reqs.find? (fun r => match r.owner with | .awl o th _ => o == k && th == t && r.stage == 2 && r.due ≤ s.now | _ => false)

/-- A thread reads the index values of its next sixteen entries (06 R263). The cycle is the read's: the entry they begin with follows in it only where they come from the core's own memory and needed no correction. -/
def State.readIndices (s : State) (k t lease : Nat) (a : AwlThread) : State × AwlThread × Bool :=
  let late := s.indexCorrects k a
  let r := s.awlIndices k t lease a
  let a := { a with ixs := r.2 }
  (r.1, a, !late && !r.1.indexBusy k t)

/-- The piece request of a thread's entry `ix` (06 R263, R264): a scatter's near row is read with it, which takes two cycles more where it corrects a word (03 R108). -/
def State.formPiece (s : State) (k t lease ix : Nat) (a : AwlThread) : State :=
  let pos := a.entry * a.span + a.piece
  let addr := a.tableBase + 64 * (ix * a.stride + a.piece)
  match s.rowAt addr with
  | none => s
  | some row =>
    let half := fun (w : Nat) => w / 2 == pos % 8
    let late := if a.scatter && s.corrects (bufRow k a.nearBuf (a.nearRow + pos / 8)) half then 2 else 0
    let src := if a.scatter then s.readOwnWords k a.nearBuf (a.nearRow + pos / 8) a.bundle half else (s, (⟨[], false⟩ : RowImg))
    let img : RowImg := ⟨(src.2.bytes.drop (64 * (pos % 8))).take 64, src.2.poison⟩
    let s := src.1
    let r := s.newReq row addr a.scatter (.awl k t pos) (some lease) (some (s.now + 512)) img
    let s := s.submit { r.narrow with off := addr % 512, bytes := 64, reached := r.reached + late }
    let a := { (if a.piece + 1 == a.span then { a.advance with piece := 0 } else { a with piece := a.piece + 1 }) with outstanding := a.outstanding + 1 }
    (s.awlSettle k t a).onCore k (fun c => { c.formed (s.ctime k) 6 with awlCur := (t + 1) % 16 })

/-- The entry at hand of a thread taken (06 R264, R266): a null one is passed over, an index out of range ends the kernel, any other forms a piece request. `read`: its index values were read in this cycle, which a passed entry then takes (06 R263). -/
def State.awlEntry (s : State) (k t lease : Nat) (a : AwlThread) (read : Bool) : State :=
  let ix := a.ixs.getD (a.entry % 16) 0
  let spend := fun (s : State) => if read then s.onCore k (fun c => c.formed (s.ctime k) 6) else s
  if ix == 0xFFFFFFFF then
    let p := s.skipEntry k a
    spend (p.1.awlSettle k t p.2)
  else if a.tableRows ≤ ix then
    let p := (s.bump (coreReg .AWL_STATUS k) AWL_STATUS.OOB_COUNT 1).skipEntry k a
    (spend (p.1.awlSettle k t p.2)).refuse k .range a.bundle a.slot
  else s.formPiece k t lease ix a

/-- AWL_PIECE_REQUEST (06 R263, R264, R266): the current thread takes its next entry: a piece request, one in a cycle, or none for a null entry. -/
def execAwlPieceRequest (c : CoreId) (s : State) : Host.Outcome State Fault Refusal := s.live fun s =>
  let k := ckey c
  match (s.core k).kernel, s.awlThread k with
  | some q, some t =>
    if s.frozen k || !(s.core k).engineFree (s.ctime k) 6 then .next s
    else match tget? (s.core k).awl t with
      | none => .next s
      | some a =>
        if !s.indexReach a then .next s
        else if !a.ixs.isEmpty then .next (s.awlEntry k t q.lease a false)
        else
          let r := s.readIndices k t q.lease a
          if r.2.2 then .next (r.1.awlEntry k t q.lease r.2.1 true)
          else .next ((r.1.awlSettle k t r.2.1).onCore k (fun c => c.formed (s.ctime k) 6))
  | _, _ => .next s

/-- AWL_PIECE_LAND (06 R264, R265): a performed piece of a thread is in: gathered, or written and acknowledged. -/
def execAwlPieceLand (c : CoreId) (t : Fin 16) (s : State) : Host.Outcome State Fault Refusal := s.live fun s =>
  let k := ckey c
  match s.duePiece k t.val, tget? (s.core k).awl t.val with
  | some r, some a =>
    match r.owner with
    | .awl _ _ pos =>
      if s.frozen k then .next s
      else
        let s := { s with reqs := s.reqs.erase r }
        let s := if r.fresh then s.markKernel k else s
        let a := { a with landed := a.landed + 1, outstanding := a.outstanding - 1 }
        if a.scatter then .next (s.awlSettle k t.val a)
        else
          let a := { a with buf := a.buf ++ [(pos, r.img.bytes)], poison := if r.img.poison then a.poison ++ [pos] else a.poison }
          let p := s.awlRows k a [pos / 8]
          .next (p.1.awlSettle k t.val p.2)
    | _ => .next s
  | _, _ => .next s

end Sys2Proof.Machine
end

