-- ==== Sys2Proof/Machine/Dram.lean ====
section
/-! DEFINITION. The memory controllers (07 R277-R302): performance of granted rows, patrol, sparing, channel power-down, page tags, refresh and temperature. -/
namespace Sys2Proof.Machine

/-- Rows of a stack's spill counted when their write is performed (05 R223). -/
def State.countSpill (s : State) (r : MemReq) : State :=
  match r.owner with
  | .spill d g => s.bump (astk .ASTK_STAT d g) ASTK_STAT.SPILLED 1
  | _ => s

/-- A request performed in place of `old`: one that goes on, or is done with, leaves the requests; the others keep their place (05 R223, R225). -/
def State.donePerform (s : State) (old r : MemReq) : State :=
  match r.owner with
  | .chan .. => { s with reqs := s.reqs.map (fun x => if x.id == r.id then r else x) }
  | .awl .. => { s with reqs := s.reqs.map (fun x => if x.id == r.id then r else x) }
  | _ => s.passOn old r

/-- A granted row performed `late` cycles after its time: its slot is free; a read's words are counted and its event recorded, and a correction adds 8 cycles to its landing (07 R277-R279, R282, R298; 15 R558). What an engine's read met was counted when it was made (log 16). -/
def State.performDram (s : State) (r : MemReq) (late : Nat) : State :=
  if r.owner.isEngine then (((s.chargeBytes r.lease r.row r.charged).passOn r { r with stage := 2, due := r.due + late })).noteSlots r.point
  else
    let s := s.countDram r.row r.corr r.unc
    let s := if r.fresh then s.dramEvent r.row r.lease else s
    let s := (s.chargeBytes r.lease r.row r.charged).countSpill r
    (s.donePerform r { r with stage := 2, due := r.due + late + (if 0 < r.corr then 8 else 0) }).noteSlots r.point

/-- Cycles from grant to performance at a controller (06 R240, 07 R298). -/
def performTime (k : Nat) : Nat := if k < 4 then 440 else 660

/-- ROW_PERFORM (07 R298): the oldest granted row of a controller whose time has come is performed; the demand write of a tag fill is performed with the fill. -/
def execRowPerform (d : Die) (k : Fin 6) (s : State) : Host.Outcome State Fault Refusal := s.live fun s =>
  let p := GrantPoint.ctl d k
  let fills := (s.ctl d.val k.val).fills
  match (s.slotsUsed p).find? (fun r => fills.all (fun f => f.req != r.id)) with
  | none => .next s
  | some r => if s.now < r.grantedAt + performTime k.val + r.extra then .next s else .next (s.performDram r 0)

/-! Patrol. -/

/-- Single symbols in error of a row repaired by a write-back (07 R280). -/
def Memory.repair (m : Memory) (row : Nat) : Memory := { m with damage := m.damage.filter (fun x => !(x.row == row && x.syms.length == 1)) }

/-- A read of a whole DRAM row that fires no injection (07 R280, 19 R653). -/
def State.readQuiet (s : State) (row : Nat) : State × RowRead :=
  let p := State.readCells { s with inject := none } row (fun _ => true)
  ({ p.1 with inject := s.inject }, p.2)

/-- MEMC_PATROL (07 R280): one row of a pseudo-channel or site is read; corrected words are counted and written back, an uncorrectable word is counted and recorded with LEASE 0; tagged blocks and powered-down channels are skipped. -/
def execMemcPatrol (d : Die) (k : Fin 6) (p : Fin 32) (row : Nat) (s : State) : Host.Outcome State Fault Refusal := s.live fun s =>
  let key := ctlRow d.val k.val row
  let last := tget? (s.ctl d.val k.val).patrolled p.val
  let every := if k.val < 4 then 65536 else 512
  let early := match last with | some t => s.now < t + every | none => false
  let inRange := if k.val < 4 then row % 32 == p.val && row < 156250016 else p.val == 0 && row < 125000000
  if early || !inRange || s.isDown key || s.mem.tagged key then .next s
  else
    let s := s.onCtl d.val k.val (fun c => { c with patrolled := tset c.patrolled p.val s.now })
    let rd := s.readQuiet key
    let s := rd.1
    let r := rd.2
    let s := if r.unc == 0 then s else { s with fresh := s.fresh + 1 }
    let s := s.countDram key r.corr r.unc
    let s := if 0 < r.unc && !r.stored then s.dramEvent key none else s
    .next (if r.corr == 0 then s else { s with mem := s.mem.repair key })

/-- A write to MEMC_ECC_CLR (07 R283). -/
def State.memcEccClr (s : State) (d k v : Nat) : State × Status :=
  if !bitAt v 0 then (s, .ok)
  else ((List.range (if k < 4 then 33 else 1)).foldl (fun s p => s.clearReg (memc .MEMC_ECC_CNT d k p)) s, .ok)

/-! Field sparing. -/

/-- STATE of HBM_SPARE: 0 NONE, 1 COPYING, 2 MAPPED (07 R285). -/
def State.spareState (s : State) (d k : Nat) : Nat := s.fld (memc .HBM_SPARE d k) HBM_SPARE.STATE

/-- A write to HBM_SPARE (07 R285, R286): FAILED_PC while STATE is NONE; START = 1 starts a copy unless one runs or the spare is used. -/
def State.spareWrite (s : State) (d k v : Nat) : State × Status :=
  let r := memc .HBM_SPARE d k
  let pc := bits v HBM_SPARE.FAILED_PC.hi HBM_SPARE.FAILED_PC.lo
  match s.spareState d k with
  | 0 =>
    let s := s.setFld r HBM_SPARE.FAILED_PC pc
    if bitAt v 0 then (((s.setFld r HBM_SPARE.STATE 1).setFld r HBM_SPARE.PROGRESS 0).onCtl d k (fun c => { c with lastCopy := none, copied := [] }), .ok) else (s, .ok)
  | 1 => (s, if bitAt v 0 || pc != s.fld r HBM_SPARE.FAILED_PC then .busy else .ok)
  | _ => (s, if bitAt v 0 || pc != s.fld r HBM_SPARE.FAILED_PC then .noResource else .ok)

/-- Rows of a pseudo-channel, the metadata area's included (07 R288). -/
def pcRows : Nat := 4882813

/-- A memory with a row as the copier wrote it (07 R287). -/
def Memory.copyIn (m : Memory) (row : Nat) (c : RowImg × Nat) : Memory :=
  let m := m.writeRow row c.1
  if c.1.poison && c.2 != 0 then { m with clean := tset m.clean row c.2 } else m

/-- The spare mapped in (07 R288): requests use it from now on; it holds the rows as the copier and the demand writes left them, with fresh check bits. -/
def State.mapSpare (s : State) (d k pc : Nat) : State :=
  let mine := fun (row : Nat) => ctlRow d k 0 ≤ row && row < ctlRow d k 0 + 2 ^ 31 && localRow row % 32 == pc
  let s := { s with mem := (s.ctl d k).copied.foldl (fun (m : Memory) (c : Nat × RowImg × Nat) => m.copyIn c.1 c.2) { s.mem with damage := s.mem.damage.filter (fun x => !mine x.row) } }
  let ras : Reg := ⟨.RAS_SPARE, selSv0, d, 0⟩
  let s := s.setFld ras RAS_SPARE.HBM_SPARED (setBit (s.fld ras RAS_SPARE.HBM_SPARED) k true)
  (s.setFld (memc .HBM_SPARE d k) HBM_SPARE.STATE 2).onCtl d k (fun c => { c with copied := [], lastCopy := none })

/-- The copier's row as it writes it, kept where it is not as the row is stored: a read that corrected nothing and met nothing uncorrectable copies what is there (07 R287). -/
def State.keepCopy (s : State) (d k row : Nat) (img : RowImg) : State :=
  let same := img.bytes == s.mem.read (row * 512) 512 && img.poison == s.mem.poison.contains row && tget 0 s.mem.clean row == 0
  s.onCtl d k (fun c => { c with copied := if same then tdel c.copied row else tset c.copied row (img, 0) })

/-- Whether the copier may work: the start has trained the stacks in its stage 7, and is none of minimal mode (07 R289, 17 R587). -/
def State.copierRuns (s : State) : Bool :=
  let st : Reg := ⟨.START_STATUS, selSv0, 0, 0⟩
  7 < s.fld st START_STATUS.STAGE && s.fld st START_STATUS.MODE == 0

/-- SPARE_COPY_ROW (07 R287-R289): the copier copies the next row of the failing pseudo-channel, at most once every 16 cycles, waking a channel in self refresh first (R293); the last row maps the spare in. -/
def execSpareCopyRow (d : Die) (k : Fin 4) (s : State) : Host.Outcome State Fault Refusal := s.live fun s =>
  let r := memc .HBM_SPARE d.val k.val
  let early := match (s.ctl d.val k.val).lastCopy with | some t => s.now < t + 16 | none => false
  if s.spareState d.val k.val != 1 || early || !s.copierRuns then .next s
  else
    let n := s.fld r HBM_SPARE.PROGRESS
    let pc := s.fld r HBM_SPARE.FAILED_PC
    let key := ctlRow d.val k.val (32 * n + pc)
    if s.isDown key then .next (s.wake d.val k.val (chanOfRow key))
    else
      let p := s.readCells key (fun _ => true)
      let rd := p.2
      let s := p.1
      let s := if rd.unc == 0 then s else { s with fresh := s.fresh + 1 }
      let s := s.countDram key rd.corr rd.unc
      let s := if 0 < rd.unc && !rd.stored then s.dramEvent key none else s
      let s := (s.keepCopy d.val k.val key rd.img).onCtl d.val k.val (fun c => { c with lastCopy := some s.now })
      let s := s.setFld r HBM_SPARE.PROGRESS (n + 1)
      .next (if n + 1 == pcRows then s.mapSpare d.val k.val pc else s)

/-! Channel power-down. -/

/-- HBM_PDN_STATUS of a controller (07 R290). -/
def pdnStatus (d k : Nat) : Reg := memc .HBM_PDN_STATUS d k

/-- A power-down request ended with a result (07 R291, R292). -/
def State.pdnEnd (s : State) (d k result : Nat) : State :=
  (((s.setFld (pdnStatus d k) HBM_PDN_STATUS.PENDING 0).setFld (pdnStatus d k) HBM_PDN_STATUS.RESULT result).onCtl d k (fun c => { c with pdn := none }))

/-- A write to HBM_PDN_CTRL (07 R290, R291). -/
def State.pdnWrite (s : State) (d k v : Nat) : State × Status :=
  let g := bits v HBM_PDN_CTRL.GROUP.hi HBM_PDN_CTRL.GROUP.lo
  if !bitAt v 8 then (s.setFld (memc .HBM_PDN_CTRL d k) HBM_PDN_CTRL.GROUP g, .ok)
  else if s.fld (pdnStatus d k) HBM_PDN_STATUS.PENDING == 1 || s.spareState d k == 1 then (s, .busy)
  else
    let s := s.setFld (memc .HBM_PDN_CTRL d k) HBM_PDN_CTRL.GROUP g
    if bitAt (s.fld (pdnStatus d k) HBM_PDN_STATUS.DOWN) g then (s.pdnEnd d k 1, .ok)
    else ((s.setFld (pdnStatus d k) HBM_PDN_STATUS.PENDING 1).onCtl d k (fun c => { c with pdn := some (g, s.now) }), .ok)

/-- Writes granted to a channel and not yet performed (07 R292), the rows of fills of tagged blocks among them: sixteen of each block (R294, R297), of which the demand write's own may be one. -/
def State.outstandingWrites (s : State) (d : Die) (k : Fin 4) (ch : Nat) : Nat :=
  let ws := (s.slotsUsed (.ctl d (k.castLE (by decide)))).filter (fun r => r.write && chanOfRow r.row == ch)
  ws.length + (s.ctl d.val k.val).fills.foldl (fun n f => n + 16 - (ws.filter (fun r => r.id == f.req)).length) 0

/-- A channel enters self refresh and the power-down request ends done (07 R292). -/
def State.channelDown (s : State) (d k ch : Nat) : State :=
  let r := pdnStatus d k
  (s.setFld r HBM_PDN_STATUS.DOWN (setBit (s.fld r HBM_PDN_STATUS.DOWN) ch true)).pdnEnd d k 1

/-- Whether a power-down request may take its channel down now: within 110,000 cycles of its acceptance its counter is zero (07 R292). -/
def State.pdnReady (s : State) (d : Die) (k : Fin 4) (p : Nat × Nat) : Bool := s.now < p.2 + 110000 && s.outstandingWrites d k p.1 == 0

/-- The counters read after the grants of a cycle: every requested channel whose counter is zero goes down in it (07 R292). -/
def State.pdnOn (s : State) : State :=
  if s.ctls.all (fun c => c.2.pdn.isNone) then s
  else (List.range 16).foldl (fun s i =>
    match (s.ctl (i / 4) (i % 4)).pdn with
    | some p => if s.pdnReady (Fin.ofNat 4 (i / 4)) (Fin.ofNat 4 i) p then s.channelDown (i / 4) (i % 4) p.1 else s
    | none => s) s

/-- PDN_ENTER (07 R292): within 110,000 cycles of acceptance, the counter of the requested channel is zero: the channel enters self refresh and the request ends done. -/
def execPdnEnter (d : Die) (k : Fin 4) (s : State) : Host.Outcome State Fault Refusal := s.live fun s =>
  match (s.ctl d.val k.val).pdn with
  | none => .next s
  | some p => .next (if s.pdnReady d k p then s.channelDown d.val k.val p.1 else s)

/-- PDN_TIMEOUT (07 R292): 110,000 cycles have passed since acceptance without a cycle in which the counter was zero, which would have ended the request (`pdnOn`): the channel stays up. -/
def execPdnTimeout (d : Die) (k : Fin 4) (s : State) : Host.Outcome State Fault Refusal := s.live fun s =>
  match (s.ctl d.val k.val).pdn with
  | none => .next s
  | some (_, t) => if s.now < t + 110000 then .next s else .next (s.pdnEnd d.val k.val 2)

/-- CHANNEL_WAKE (07 R293): 440 cycles after a request reached a channel in self refresh, the channel is up again and the request eligible. -/
def execChannelWake (d : Die) (k : Fin 4) (ch : Fin 16) (s : State) : Host.Outcome State Fault Refusal := s.live fun s =>
  match (s.ctl d.val k.val).wakes.find? (fun w => w.1 == ch.val) with
  | none => .next s
  | some w =>
    if s.now < w.2 then .next s
    else
      let r := pdnStatus d.val k.val
      let s := s.setFld r HBM_PDN_STATUS.DOWN (setBit (s.fld r HBM_PDN_STATUS.DOWN) ch.val false)
      .next (s.onCtl d.val k.val (fun c => { c with wakes := c.wakes.filter (fun x => x.1 != ch.val) }))

/-! Page tags. -/

/-- TAG_FILL (07 R297): the fill of the block of a write granted to a tagged block: 256 rows at four a cycle, which hold the controller's other grants; the other rows hold zeros, the write's row its data. -/
def execTagFill (d : Die) (k : Fin 4) (s : State) : Host.Outcome State Fault Refusal := s.live fun s =>
  match (s.ctl d.val k.val).fills.find? (fun f => !f.started) with
  | none => .next s
  | some f => .next (s.onCtl d.val k.val (fun c => { c with fills := c.fills.map (fun x => if x == f then { f with started := true } else x), nextGrant := max c.nextGrant (f.at' + 64) }))

/-- TAG_FILL_COMPLETE (07 R297): the last fill rows are performed, the demand write with them, and the tag is cleared. -/
def execTagFillComplete (d : Die) (k : Fin 4) (s : State) : Host.Outcome State Fault Refusal := s.live fun s =>
  match (s.ctl d.val k.val).fills.head? with
  | none => .next s
  | some f =>
    if !f.started || s.now < f.at' + 504 then .next s
    else
      let s := { s with mem := { s.mem with untagged := sins s.mem.untagged f.blk } }
      let s := s.onCtl d.val k.val (fun c => { c with fills := c.fills.drop 1 })
      match s.reqs.find? (fun r => r.id == f.req && r.stage == 1) with
      | some r => .next (s.performDram r 63)
      | none => .next s

/-- Whether a tag block lies in a bound frame (07 R275, R294, R299). -/
def State.blockBound (s : State) (d k blk : Nat) : Bool :=
  s.frames.any (fun f =>
    if f.pkg then f.first ≤ blk && blk < f.first + f.count
    else f.die == d && 4 * f.first ≤ blk && blk < 4 * (f.first + f.count)) && k < 4

/-- BACKGROUND_TAG_FILL (07 R299): a tagged block of a bound frame is filled with zeros in the background and its tag cleared. -/
def execBackgroundTagFill (d : Die) (k : Fin 4) (blk : Nat) (s : State) : Host.Outcome State Fault Refusal := s.live fun s =>
  let key := tagBlock (ctlRow d.val k.val 0) + blk
  let busy := !(s.ctl d.val k.val).fills.isEmpty
  if busy || 610348 ≤ blk || s.mem.untagged.contains key || !s.blockBound d.val k.val blk then .next s
  else .next { s with mem := { s.mem with untagged := sins s.mem.untagged key } }

/-! Refresh and temperature. -/

/-- PER_BANK_REFRESH (07 R300; log 17): the bank is refreshed in this cycle, and its requests are not eligible. -/
def execPerBankRefresh (d : Die) (k : Fin 6) (p : Fin 32) (b : Fin 64) (s : State) : Host.Outcome State Fault Refusal := s.live fun s =>
  let key := if k.val < 4 then p.val * 64 + b.val else b.val % 16
  .next (s.onCtl d.val k.val (fun c => { c with refreshed := tset c.refreshed key s.now }))

/-- TEMP_SAMPLE (07 R300-R302): the temperature is noted; refresh is doubled above 85 and throttling starts above 95 degrees, each until 3 degrees below its threshold; entry to throttling raises the thermal source (13 R492). -/
def execTempSample (d : Die) (k : Fin 6) (t : Fin 256) (s : State) : Host.Outcome State Fault Refusal := s.live fun s =>
  let r := memc .MEMC_THERM d.val k.val
  let was := s.fld r MEMC_THERM.THROTTLE == 1
  let keep := fun (on : Bool) (lim : Nat) => lim < t.val || (on && lim - 3 < t.val)
  let hot := keep was 95
  let s := ((s.setFld r MEMC_THERM.TEMP t.val).setFld r MEMC_THERM.REFX2 (flag (keep (s.fld r MEMC_THERM.REFX2 == 1) 85))).setFld r MEMC_THERM.THROTTLE (flag hot)
  .next (if hot && !was then s.raise d.val (0xBA + k.val) else s).syncAlerts

end Sys2Proof.Machine
end

