-- ==== Sys2Proof/Machine/Welt.lean ====
section
/-! DEFINITION. The Welt units: their registers, checks, the fused norm's partial records, the update rules and commits (09 R330-R363). A command's memory accesses are made in one step each (log 16). -/
namespace Sys2Proof.Machine

/-- A register of the Welt unit on HS(n) (09 R333). -/
def welt (n : RegName) (hs : Nat) (i : Nat := 0) : Reg := ⟨n, selHs hs, i, 0⟩

/-- A Welt unit's own state. -/
def State.welt (s : State) (hs : Nat) : WeltRun := tget WeltRun.idle s.welts hs

/-- A Welt unit's own state changed. -/
def State.onWelt (s : State) (hs : Nat) (f : WeltRun → WeltRun) : State := { s with welts := tset s.welts hs (f (s.welt hs)) }

/-- A field of WELT_STATUS. -/
def State.wstat (s : State) (hs : Nat) (f : Fld) : Nat := s.fld (Machine.welt .WELT_STATUS hs) f

/-- Whether a command runs on a Welt unit. -/
def State.weltBusy (s : State) (hs : Nat) : Bool := s.wstat hs WELT_STATUS.BUSY == 1

/-- The lease a valid group belongs to (09 R339). -/
def State.groupLease (s : State) (hs g : Nat) : Option Nat :=
  let r := Machine.welt .WELT_GROUP_CFG hs g
  if s.fld r WELT_GROUP_CFG.VALID == 1 then some (s.fld r WELT_GROUP_CFG.LEASE) else none

/-- Whether the step of a group is open on a Welt unit (09 R342). -/
def State.stepOpen (s : State) (hs g : Nat) : Bool := s.wstat hs WELT_STATUS.PHASE != 0 && s.wstat hs WELT_STATUS.OPEN_GROUP == g

/-! Layers. -/

/-- A layer entry's fields (09 R335). -/
structure WeltLayer where
  rows : Nat
  cols : Nat
  valid : Bool
  group : Nat
  hp : Nat
  rule : Nat
  tiled : Bool
  copySr : Bool
  p : Nat
  g : Nat
  s1 : Nat
  s2 : Nat
  copy : Nat
  xch : Nat
  deriving DecidableEq, Repr

/-- The layer entry l of a Welt unit. -/
def State.weltLayer (s : State) (hs l : Nat) : WeltLayer :=
  let f := s.fld (Machine.welt .WELT_LAYER_SHAPE hs l)
  { rows := f WELT_LAYER_SHAPE.ROWS, cols := f WELT_LAYER_SHAPE.COLS, valid := f WELT_LAYER_SHAPE.VALID == 1, group := f WELT_LAYER_SHAPE.GROUP, hp := f WELT_LAYER_SHAPE.HP
    rule := f WELT_LAYER_SHAPE.WELT_RULE_SEL, tiled := f WELT_LAYER_SHAPE.ORDER == 1, copySr := f WELT_LAYER_SHAPE.COPY_SR == 1
    p := s.fld (Machine.welt .WELT_LAYER_P hs l) WELT_LAYER_P.P_BASE, g := s.fld (Machine.welt .WELT_LAYER_G hs l) WELT_LAYER_G.G_BASE
    s1 := s.fld (Machine.welt .WELT_LAYER_S1 hs l) WELT_LAYER_S1.S1_BASE, s2 := s.fld (Machine.welt .WELT_LAYER_S2 hs l) WELT_LAYER_S2.S2_BASE
    copy := s.fld (Machine.welt .WELT_LAYER_COPY hs l) WELT_LAYER_COPY.COPY_BASE, xch := s.fld (Machine.welt .WELT_LAYER_XCH hs l) WELT_LAYER_XCH.XCH_BASE }

/-- ELEMS of a layer. -/
def WeltLayer.elems (x : WeltLayer) : Nat := x.rows * x.cols
/-- Whether a layer lies in package view. -/
def WeltLayer.pkg (x : WeltLayer) : Bool := bits x.p 43 42 == 1
/-- K, the stacks that hold a layer (09 R336). -/
def WeltLayer.k (x : WeltLayer) : Nat := if x.pkg then 16 else 4
/-- Rows of row partials in a block of the exchange area. -/
def WeltLayer.ra (x : WeltLayer) : Nat := ceilDiv x.rows 128
/-- Rows of column partials in a block. -/
def WeltLayer.ca (x : WeltLayer) : Nat := ceilDiv x.cols 128
/-- B, the rows of a block of the exchange area (09 R336). -/
def WeltLayer.b (x : WeltLayer) : Nat := x.ra + x.ca + 1
/-- Whether HS(n) is one of the K stacks that hold a layer. -/
def WeltLayer.holds (x : WeltLayer) (hs : Nat) : Bool := x.pkg || bits x.p 41 40 == hs / 4
/-- The rank of HS(n) among the holding stacks (09 R356). -/
def WeltLayer.rank (x : WeltLayer) (hs : Nat) : Nat := if x.pkg then hs else hs % 4
/-- Row i and column j of element e (09 R338). -/
def WeltLayer.ij (x : WeltLayer) (e : Nat) : Nat × Nat :=
  if !x.tiled then (e / x.cols, e % x.cols)
  else
    let t := ceilDiv x.cols 64
    (e / 4096 / t * 64 + e % 4096 / 64, e / 4096 % t * 64 + e % 64)

/-- Whether the row of element 128 r lies in HS(n) (09 R338). -/
def State.weltHere (s : State) (hs a : Nat) : Bool :=
  match s.place a with
  | .ok (.hbm _ _ _ st _) => st == hs
  | _ => false

/-- The rows of a layer's P whose elements are local to HS(n). -/
def State.weltRows (s : State) (hs : Nat) (x : WeltLayer) : List Nat :=
  (List.range (ceilDiv x.elems 128)).filter (fun r => s.weltHere hs (x.p + 512 * r))

/-- Elements of row r of a layer. -/
def WeltLayer.count (x : WeltLayer) (r : Nat) : Nat := min 128 (x.elems - 128 * r)

/-! Checks (09 R336-R338, R343). -/

/-- Whether a range of bytes lies in HBM3E of this unit in the view (and, in die view, on the die) of address `like`, bound to a lease (09 R337, R332). -/
def State.weltRange (s : State) (lease a n like : Nat) : Bool :=
  bits a 47 44 == 0 && bits a 43 42 == bits like 43 42 && (bits a 43 42 == 1 || bits a 41 40 == bits like 41 40) && n != 0 && (s.findSpan (some lease) a (a + n - 1)).isNone

/-- Whether a layer of a Welt unit meets R336 to R338, names a hyperparameter set of its lease, and has its ranges bound. -/
def State.weltLayerOk (s : State) (hs lease : Nat) (x : WeltLayer) : Bool :=
  let bytes := 4 * x.elems
  let unit := if x.pkg then 65536 else 16384
  let tensor := fun a => s.weltRange lease a bytes x.p && a % unit == 0
  let acc := fun a n => bits a 43 42 == bits x.p 43 42 && s.weltRange lease a n a && a % 512 == 0
  x.rows != 0 && x.cols != 0 && bits x.p 63 42 ≤ 1 && tensor x.p && tensor x.g &&
    s.fld (Machine.welt .WELT_HP_LEASE hs x.hp) WELT_HP_LEASE.LEASE == lease &&
    (if x.rule == 2 then acc x.s1 (4 * x.rows) && acc x.s2 (4 * x.cols) && acc x.xch (512 * x.k * x.b)
     else tensor x.s1 && (if x.rule == 0 then x.s2 == 0 else tensor x.s2) && x.xch == 0) &&
    (x.rule < 2 || !x.tiled || (x.rows % 64 == 0 && x.cols % 64 == 0)) &&
    (x.copy == 0 || (x.copy % 512 == 0 && s.weltRange lease x.copy (2 * x.elems) x.copy))

/-- The layers of a group that are valid. -/
def State.groupLayers (s : State) (hs g : Nat) : List Nat :=
  (List.range 4096).filter (fun l => let x := s.weltLayer hs l; x.valid && x.group == g)

/-- The lowest valid layer of a group that NORM or APPLY refuses (09 R343). -/
def State.badLayer (s : State) (hs g lease : Nat) : Option Nat :=
  (s.groupLayers hs g).find? (fun l => !s.weltLayerOk hs lease (s.weltLayer hs l))

/-! Accesses (09 R331, R332). -/

/-- The Welt unit on HS(n) as an agent: its requests carry the deadline f + 4,096 (09 R331, R332). -/
def weltAgent (hs lease : Nat) : Agent := ⟨.welt, hs / 4, hs, some lease, some 4096, false⟩

/-- Whether a Welt unit waits for requests of its own (log 16). -/
def State.weltWaits (s : State) (hs : Nat) : Bool := s.engineBusy .welt (hs / 4) hs

/-- Whether the rows at some addresses are bound to a lease (01 R32-R34, 09 R332). -/
def State.allBound (s : State) (lease : Nat) (l : List Nat) : Bool := l.all (fun a => match s.find (some lease) a with | .ok _ => true | .error _ => false)

/-- The row at an address written poisoned, its bytes as stored. -/
def State.weltPoison (s : State) (g : Agent) (a : Nat) : State := s.agentPut g a 0 [] true

/-- `n` FP32 values in rows from an address, and whether a row read poisoned. -/
def State.weltVec (s : State) (g : Agent) (a n : Nat) : State × List F32 × Bool :=
  let p := (List.range (ceilDiv n 128)).foldl (fun (p : State × List F32 × Bool) r =>
    let q := p.1.agentRead g (a + 512 * r)
    (q.1, p.2.1 ++ rowF32 128 q.2.bytes, p.2.2 || q.2.poison)) (s, [], false)
  (p.1, p.2.1.take n, p.2.2)

/-- FP32 values written in whole rows from an address, zeros after the last. -/
def State.weltPut (s : State) (g : Agent) (a : Nat) (xs : List F32) (poison : Bool) : State :=
  (List.range (ceilDiv xs.length 128)).foldl (fun s r => s.agentWrite g (a + 512 * r) ⟨padRow (f32Bytes ((xs.drop (128 * r)).take 128)), poison⟩) s

/-! Step parameters. -/

/-- A hyperparameter set as an update uses it (09 R340). -/
structure WeltHp where
  b1 : F32
  lr : F32
  eps : F32
  b2 : F32
  wd : F32
  nesterov : Bool
  biascorr : Bool
  deriving DecidableEq, Repr

/-- The fields of a latched set. -/
def weltHp (d : List Word) : WeltHp :=
  let w := fun k => dword d k
  let f := fun k (x : Fld) => BitVec.ofNat 32 (bits (w k) x.hi x.lo)
  ⟨f 0 WELT_HP_B1.B1, f 0 WELT_HP_B1.LR, f 1 WELT_HP_EPS.EPS, f 1 WELT_HP_EPS.B2, f 2 WELT_HP_WD.WD, bitAt (w 3) WELT_HP_LEASE.NESTEROV.lo, bitAt (w 3) WELT_HP_LEASE.BIASCORR.lo⟩

/-- The sets of a list of layers, as they stand. -/
def State.latchHps (s : State) (hs : Nat) (ls : List Nat) : Tab (List Word) :=
  ls.foldl (fun t l =>
    let h := (s.weltLayer hs l).hp
    tset t h ([RegName.WELT_HP_B1, RegName.WELT_HP_EPS, RegName.WELT_HP_WD, RegName.WELT_HP_LEASE].map (fun n => s.reg (Machine.welt n hs h)))) []

/-- One minus the t-th power of a base (09 R352). -/
def biasCorr (b : F32) (t : Nat) : F32 := sub32 one32 (pow32 b t)

/-! Rule arithmetic (09 R353-R357). -/

/-- An element after SGD: P and S1 (09 R354). -/
def sgdElem (h : WeltHp) (c p g s1 : F32) : F32 × F32 :=
  let g := add32 (mul32 c g) (mul32 h.wd p)
  let m := add32 (mul32 h.b1 s1) g
  let d := if h.nesterov then add32 g (mul32 h.b1 m) else m
  (sub32 p (mul32 h.lr d), m)

/-- An element after ADW: P, S1 and S2 (09 R355). -/
def adwElem (h : WeltHp) (c : F32) (t : Nat) (p g s1 s2 : F32) : F32 × F32 × F32 :=
  let g := mul32 c g
  let m := add32 (mul32 h.b1 s1) (mul32 (sub32 one32 h.b1) g)
  let v := add32 (mul32 h.b2 s2) (mul32 (sub32 one32 h.b2) (mul32 g g))
  let mh := if h.biascorr then div32 m (biasCorr h.b1 t) else m
  let vh := if h.biascorr then div32 v (biasCorr h.b2 t) else v
  (sub32 p (mul32 h.lr (add32 (div32 mh (add32 (sqrt32 vh) h.eps)) (mul32 h.wd p))), m, v)

/-- q of an element under FAC (09 R356 step 1). -/
def facQ (h : WeltHp) (c g : F32) : F32 := add32 (mul32 (mul32 c g) (mul32 c g)) h.eps

/-- P of an element under FAC (09 R356 step 4). -/
def facElem (h : WeltHp) (c : F32) (t : Nat) (p g ra ca rsum : F32) : F32 :=
  let g := mul32 c g
  let v := div32 (mul32 ra ca) rsum
  let v := if h.biascorr then div32 v (biasCorr h.b2 t) else v
  sub32 p (mul32 h.lr (add32 (div32 g (sqrt32 v)) (mul32 h.wd p)))

/-- S1 and S2 of an element under the first part of ORT (09 R357). -/
def ortElem (h : WeltHp) (c g s1 : F32) : F32 × F32 :=
  let g := mul32 c g
  let m := add32 (mul32 h.b1 s1) g
  (m, if h.nesterov then add32 g (mul32 h.b1 m) else m)

/-- sc of an ORT layer (09 R357). -/
def ortScale (x : WeltLayer) : F32 := sqrt32 (max32 one32 (div32 (ofNat32 x.rows) (ofNat32 x.cols)))

/-- P of an element under the second part of ORT (09 R357). -/
def ortFinish (h : WeltHp) (sc p s2 : F32) : F32 :=
  sub32 p (mul32 h.lr (add32 (mul32 sc s2) (mul32 h.wd p)))

/-! Updates of a layer. -/

/-- The narrow copy of P rows just written, each with whether it is poisoned (09 R359, R360): two rows of P fill one row of the copy. -/
def State.weltCopy (s : State) (g : Agent) (l t : Nat) (x : WeltLayer) (rows : List (Nat × List F32 × Bool)) : State :=
  if x.copy == 0 then s
  else
    let seed := s.reg ⟨.LEASE_SEED, selSv0, g.lease.getD 0, 0⟩
    let conv := fun e v => (convVal fmtBf16 x.copySr false (if x.copySr then rng16 (rngIndexed seed 0x03 t l e) else 0) (val32 v)).code
    let heads := rows.filter (fun r => r.1 % 2 == 0)
    heads.foldl (fun s r =>
      let next := rows.find? (fun y => y.1 == r.1 + 1)
      let vs := r.2.1 ++ (match next with | some y => y.2.1 | none => [])
      let bad := r.2.2 || (match next with | some y => y.2.2 | none => false)
      let a := x.copy + 256 * r.1
      let new := ((List.range vs.length).map (fun i => leBytes 2 (conv (128 * r.1 + i) (vs.getD i 0#32)))).flatten
      s.agentPut g a 0 new bad) s

/-- The result of a layer's update: the state, whether poison was read, and the rows found poisoned. -/
structure WeltOut where
  s : State
  bad : Bool
  rows : List Nat

/-- The first row of a tensor of a layer: 0 P, 1 G, 2 S1, 3 S2. -/
def WeltLayer.base (x : WeltLayer) (k : Nat) : Nat := if k == 0 then x.p else if k == 1 then x.g else if k == 2 then x.s1 else x.s2

/-- The element-wise update of local rows of a layer (09 R354, R355, R357, R360): the tensors read, those written, those whose row is written poisoned where the row is found so, rows known to be poisoned, and what the elements of a row become, by tensor. -/
def State.weltUpdate (s : State) (g : Agent) (l t : Nat) (x : WeltLayer) (rows reads writes marks known : List Nat)
    (f : Nat → F32 → F32 → F32 → F32 → F32) : WeltOut :=
  let step := fun (a : State × List (Nat × List F32 × Bool)) r =>
    let rd := reads.foldl (fun (p : State × List (Nat × RowImg)) k => let q := p.1.agentRead g (x.base k + 512 * r); (q.1, p.2 ++ [(k, q.2)])) (a.1, [])
    let bad := known.contains r || rd.2.any (fun q => q.2.poison)
    let vals := fun k => match rd.2.find? (fun q => q.1 == k) with | some q => rowF32 (x.count r) q.2.bytes | none => []
    let p := vals 0
    let g' := vals 1
    let s1 := vals 2
    let s2 := vals 3
    let new := fun k => (List.range (x.count r)).map (fun i => f k (p.getD i 0#32) (g'.getD i 0#32) (s1.getD i 0#32) (s2.getD i 0#32))
    let s :=
      if bad then marks.foldl (fun (s : State) k => s.weltPoison g (x.base k + 512 * r)) rd.1
      else writes.foldl (fun (s : State) k => s.agentPut g (x.base k + 512 * r) 0 (f32Bytes (new k)) false) rd.1
    (s, a.2 ++ [(r, if bad then p else new 0, bad)])
  let out := rows.foldl step (s, [])
  let s := if writes.contains 0 then out.1.weltCopy g l t x out.2 else out.1
  ⟨s, out.2.any (fun q => q.2.2), (out.2.filter (fun q => q.2.2)).map (·.1)⟩

/-- Partial sums of q over local elements by row or column, in ascending e (09 R356 step 1). -/
def addAt (t : Tab F32) (i : Nat) (q : F32) : Tab F32 := tset t i (match tget? t i with | some v => add32 v q | none => q)

/-- A table of partial sums as a vector, zeros where nothing was added. -/
def partials (t : Tab F32) (n : Nat) : List F32 := (List.range n).map (tget 0#32 t)

/-- FAC step 1 over some local rows of a layer (09 R356): their q added into the unit's partial sums by row and by column, in ascending e. -/
def State.facPartials (s : State) (g : Agent) (x : WeltLayer) (h : WeltHp) (rows : List Nat) (w : WeltRun) : State × WeltRun :=
  rows.foldl (fun (a : State × WeltRun) r =>
    let q := a.1.agentRead g (x.g + 512 * r)
    let gs := rowF32 (x.count r) q.2.bytes
    let add := (List.range (x.count r)).foldl (fun (t : Tab F32 × Tab F32) i =>
      let ij := x.ij (128 * r + i)
      let v := facQ h w.clip (gs.getD i 0#32)
      (addAt t.1 ij.1 v, addAt t.2 ij.2 v)) (a.2.facR, a.2.facC)
    (q.1, { a.2 with facR := add.1, facC := add.2, bad := a.2.bad || q.2.poison })) (s, w)

/-- The unit's partial sums written to its block of the exchange area, which ends FAC step 1 (09 R356). -/
def State.facBlock (s : State) (g : Agent) (hs : Nat) (x : WeltLayer) (w : WeltRun) : State :=
  let blk := x.xch + 512 * x.b * x.rank hs
  (s.weltPut g blk (partials w.facR x.rows) w.bad).weltPut g (blk + 512 * x.ra) (partials w.facC x.cols) w.bad

/-- K partial vectors added entry by entry in ascending k (09 R356 step 2). -/
def sumVecs (n : Nat) : List (List F32) → List F32
  | [] => List.replicate n 0#32
  | v :: t => t.foldl (fun a b => (List.range n).map (fun i => add32 (a.getD i 0#32) (b.getD i 0#32))) v

/-- An accumulator's entries in the unit's own stack updated (09 R356 step 2): the state, the updated entries in ascending order, and whether poison was read. -/
def State.facAcc (s : State) (g : Agent) (hs : Nat) (x : WeltLayer) (h : WeltHp) (base n off : Nat) (bad : Bool) : State × List F32 × Bool :=
  (List.range (ceilDiv n 128)).foldl (fun (a : State × List F32 × Bool) r =>
    if !s.weltHere hs (base + 512 * r) then a
    else
      let m := min 128 (n - 128 * r)
      let parts := (List.range x.k).foldl (fun (p : State × List (List F32) × Bool) k =>
        let q := p.1.agentRead g (x.xch + 512 * (x.b * k + off + r))
        (q.1, p.2.1 ++ [rowF32 m q.2.bytes], p.2.2 || q.2.poison)) (a.1, [], a.2.2)
      let xs := sumVecs m parts.2.1
      let old := parts.1.agentRead g (base + 512 * r)
      let os := rowF32 m old.2.bytes
      let new := (List.range m).map (fun i => add32 (mul32 h.b2 (os.getD i 0#32)) (mul32 (sub32 one32 h.b2) (xs.getD i 0#32)))
      let bad := parts.2.2 || old.2.poison
      (old.1.agentPut g (base + 512 * r) 0 (f32Bytes new) bad, a.2.1 ++ new, bad)) (s, [], bad)

/-- FAC step 2: the accumulators and the unit's rsum row (09 R356). -/
def State.facAccumulate (s : State) (g : Agent) (hs : Nat) (x : WeltLayer) (h : WeltHp) (bad : Bool) : State × Bool :=
  let r := s.facAcc g hs x h x.s1 x.rows 0 bad
  let c := r.1.facAcc g hs x h x.s2 x.cols x.ra r.2.2
  (c.1.weltPut g (x.xch + 512 * (x.b * x.rank hs + x.b - 1)) [laneSum r.2.1] c.2.2, c.2.2)

/-- FAC step 3 (09 R356): the K rsum rows added in ascending k, and ra and ca read for the elements. -/
def State.facFactors (s : State) (g : Agent) (x : WeltLayer) (w : WeltRun) : State × WeltRun :=
  let sums := (List.range x.k).foldl (fun (p : State × List F32 × Bool) k =>
    let q := p.1.agentRead g (x.xch + 512 * (x.b * k + x.b - 1))
    (q.1, p.2.1 ++ rowF32 1 q.2.bytes, p.2.2 || q.2.poison)) (s, [], w.bad)
  let ra := sums.1.weltVec g x.s1 x.rows
  let ca := ra.1.weltVec g x.s2 x.cols
  (ca.1, { w with rsum := laneSum sums.2.1, facR := (List.range x.rows).zip ra.2.1, facC := (List.range x.cols).zip ca.2.1, bad := sums.2.2 || ra.2.2 || ca.2.2 })

/-- FAC step 4 over some local rows of a layer (09 R356, R360). -/
def State.facElems (s : State) (g : Agent) (l : Nat) (x : WeltLayer) (h : WeltHp) (rows : List Nat) (w : WeltRun) : State × Bool :=
  let rd := rows.foldl (fun (a : State × List (Nat × RowImg × RowImg)) r =>
    let p := a.1.agentRead g (x.p + 512 * r)
    let q := p.1.agentRead g (x.g + 512 * r)
    (q.1, a.2 ++ [(r, p.2, q.2)])) (s, [])
  let bad := w.bad || rd.2.any (fun q => q.2.1.poison || q.2.2.poison)
  let new := rd.2.map (fun q =>
    let ps := rowF32 (x.count q.1) q.2.1.bytes
    let gs := rowF32 (x.count q.1) q.2.2.bytes
    (q.1, (List.range (x.count q.1)).map (fun i =>
      let ij := x.ij (128 * q.1 + i)
      facElem h w.clip w.t (ps.getD i 0#32) (gs.getD i 0#32) (tget 0#32 w.facR ij.1) (tget 0#32 w.facC ij.2) w.rsum), bad))
  let s := new.foldl (fun s q => s.agentPut g (x.p + 512 * q.1) 0 (f32Bytes q.2.1) bad) rd.1
  (s.weltCopy g l w.t x new, bad)

/-- Every row that FAC wrote in this step on a unit poisoned, where any read of it was (09 R360): of P, the copy, the unit's block and its part of ra and ca. -/
def State.facPoison (s : State) (g : Agent) (hs : Nat) (x : WeltLayer) : State :=
  let own := (List.range x.b).map (fun r => x.xch + 512 * x.b * x.rank hs + 512 * r)
  let acc := ((List.range x.ra).map (fun r => x.s1 + 512 * r) ++ (List.range x.ca).map (fun r => x.s2 + 512 * r)).filter (s.weltHere hs)
  let rows := (s.weltRows hs x).flatMap (fun r => (x.p + 512 * r) :: (if x.copy != 0 && r % 2 == 0 then [x.copy + 256 * r] else []))
  (rows ++ own ++ acc).foldl (fun s a => s.weltPoison g a) s

/-- Whether a layer has work on a Welt unit: local elements, or under FAC a block of the exchange area. -/
def State.weltWorks (s : State) (hs : Nat) (x : WeltLayer) : Bool := if x.rule == 2 then x.holds hs else !(s.weltRows hs x).isEmpty

/-- The lease of the group of a Welt unit's running command. -/
def State.weltLease (s : State) (hs : Nat) : Nat := s.fld (Machine.welt .WELT_GROUP_CFG hs (s.welt hs).group) WELT_GROUP_CFG.LEASE

/-- Whether the layer in progress is in the first part of ORT (09 R357, R358). -/
def WeltRun.ortPart (w : WeltRun) (x : WeltLayer) : Bool := w.op == 2 && x.rule == 3

/-- The running command ends with a status: BUSY clears, the source of CD(s / 4) is raised and the lease is charged (09 R344, 15 R557). -/
def State.weltDone (s : State) (hs : Nat) (st : Status) : State :=
  let r := Machine.welt .WELT_STATUS hs
  let s := s.charge (s.weltLease hs) 2 (s.now - (s.welt hs).since)
  let s := ((s.setFld r WELT_STATUS.BUSY 0).setFld r WELT_STATUS.LAST_STATUS (code st)).onWelt hs (fun w => { w with op := 0, todo := [], pos := 0, stage := 0 })
  s.raise (hs / 4) (0xB0 + hs % 4)

/-- The addresses that an update of local rows touches (09 R332): of the tensors of each row, and of the narrow copy. -/
def WeltLayer.touched (x : WeltLayer) (rows ks : List Nat) : List Nat :=
  rows.flatMap (fun r => ks.map (fun k => x.base k + 512 * r) ++ (if x.copy != 0 && ks.contains 0 then [x.copy + 256 * r] else []))

/-- Whether every row that FAC touches on a Welt unit is bound to the lease (09 R332, R356). -/
def State.facBound (s : State) (hs : Nat) (x : WeltLayer) : Bool :=
  s.allBound (s.weltLease hs) (x.touched (s.weltRows hs x) [0, 1] ++ (List.range x.ra).map (fun r => x.s1 + 512 * r) ++ (List.range x.ca).map (fun r => x.s2 + 512 * r) ++ (List.range (x.k * x.b)).map (fun r => x.xch + 512 * r))

/-- A layer's update begun (09 R358, R361): APPLYING is set where it has work here, ORT_WAIT in the first part of ORT; FAC begins with its partials. -/
def State.weltStart (s : State) (hs l : Nat) : State :=
  let w := s.welt hs
  let x := s.weltLayer hs l
  let r := Machine.welt .WELT_LAYER_STATE hs l
  let s := if w.ortPart x then s.setFld r WELT_LAYER_STATE.ORT_WAIT 1 else s
  if !s.weltWorks hs x then s.onWelt hs (fun w => { w with stage := if w.ortPart x then 0 else 3, pos := 0, bad := false })
  else (s.setFld r WELT_LAYER_STATE.APPLYING 1).onWelt hs (fun w => { w with stage := if x.rule == 2 then 4 else 0, pos := 0, bad := false, facR := [], facC := [] })

/-- The next layer of a running APPLY or FINISH started. -/
def State.weltNext (s : State) (hs : Nat) : State := match (s.welt hs).todo with | l :: _ => s.weltStart hs l | [] => s

/-- The update of the layer in progress for some of its local rows, by its rule (09 R354, R355, R357). -/
def State.weltRule (s : State) (hs l : Nat) (x : WeltLayer) (rows : List Nat) : WeltOut :=
  let w := s.welt hs
  let g := weltAgent hs (s.weltLease hs)
  let h := weltHp (tget [] w.hps x.hp)
  let known := (w.ortBad.filter (fun q => q.1 == l)).map (·.2)
  match x.rule with
  | 0 => s.weltUpdate g l w.t x rows [0, 1, 2] [0, 2] [0, 2] [] (fun k p g s1 _ => let r := sgdElem h w.clip p g s1; if k == 0 then r.1 else r.2)
  | 1 => s.weltUpdate g l w.t x rows [0, 1, 2, 3] [0, 2, 3] [0, 2, 3] [] (fun k p g s1 s2 => let r := adwElem h w.clip w.t p g s1 s2; if k == 0 then r.1 else if k == 2 then r.2.1 else r.2.2)
  | _ =>
    if w.op == 2 then s.weltUpdate g l w.t x rows [1, 2] [2, 3] [2, 3] [] (fun k _ g s1 _ => let r := ortElem h w.clip g s1; if k == 2 then r.1 else r.2)
    else s.weltUpdate g l w.t x rows [0, 3] [0] [0, 2, 3] known (fun _ p _ _ s2 => ortFinish h (ortScale x) p s2)

/-- The layer in progress of an APPLY or FINISH taken on by the next 1,024 local elements (09 R332, R346, R360): a row that is not bound to the lease ends the command with ST_RANGE. DESIGN CHOICE (log 16): the manual does not say what such an access does to the command. -/
def State.weltRowsOn (s : State) (hs l : Nat) : State :=
  let w := s.welt hs
  let x := s.weltLayer hs l
  let all := s.weltRows hs x
  let rows := (all.drop w.pos).take 8
  let part := w.ortPart x
  let ks := if part then [1, 2, 3] else if x.rule == 0 then [0, 1, 2] else if x.rule == 1 then [0, 1, 2, 3] else [0, 2, 3]
  if !s.allBound (s.weltLease hs) (x.touched rows ks) then s.weltDone hs .range
  else
    let o := s.weltRule hs l x rows
    let s := o.s.onWelt hs (fun w => if part then { w with pos := w.pos + 8, damaged := w.damaged || o.bad, ortBad := w.ortBad ++ o.rows.map (fun r => (l, r)) } else { w with pos := w.pos + 8, bad := w.bad || o.bad })
    if w.pos + 8 < all.length then s
    else if part then (s.onWelt hs (fun w => { w with todo := w.todo.drop 1 })).weltNext hs
    else s.onWelt hs (fun w => { w with stage := 3 })

/-- A factored layer taken on by the next 1,024 local elements (09 R332, R346, R356): its partials, then, past both exchanges, its elements. The last of them writes the block of partials, or ends the elements. -/
def State.weltFacOn (s : State) (hs l : Nat) : State :=
  let w := s.welt hs
  let x := s.weltLayer hs l
  let g := weltAgent hs (s.weltLease hs)
  let h := weltHp (tget [] w.hps x.hp)
  let all := s.weltRows hs x
  let rows := (all.drop w.pos).take 8
  let ends := all.length ≤ w.pos + 8
  if !s.facBound hs x then s.weltDone hs .range
  else if w.stage == 4 then
    let o := s.facPartials g x h rows w
    let s := if ends then o.1.facBlock g hs x o.2 else o.1
    s.onWelt hs (fun _ => { o.2 with pos := w.pos + 8, stage := if ends then 1 else 4 })
  else
    let o := s.facElems g l x h rows w
    let s := if ends && o.2 then o.1.facPoison g hs x else o.1
    s.onWelt hs (fun _ => { w with pos := w.pos + 8, stage := if ends then 3 else 5, bad := o.2 })

/-! Commands (09 R343-R345, R348-R352). -/

/-- Whether a layer is frozen in a mask. -/
def frozenIn (mask l : Nat) : Bool := bitAt mask l

/-- WELT_FREEZE of a Welt unit as one mask (09 R341). -/
def State.freezeMask (s : State) (hs : Nat) : Nat :=
  (List.range 64).foldl (fun m k => m + (s.reg (Machine.welt .WELT_FREEZE hs k)).toNat * 2 ^ (64 * k)) 0

/-- A refused command (09 R343). -/
def State.weltRefuse (s : State) (hs op : Nat) (st : Status) (bad : Option Nat) : State :=
  let r := Machine.welt .WELT_STATUS hs
  let s := (s.setFld r WELT_STATUS.LAST_OP op).setFld r WELT_STATUS.LAST_STATUS (code st)
  match bad with | some l => s.setFld r WELT_STATUS.BAD_LAYER l | none => s

/-- An accepted command (09 R344). -/
def State.weltAccept (s : State) (hs op g : Nat) : State :=
  let r := Machine.welt .WELT_STATUS hs
  ((s.setFld r WELT_STATUS.LAST_OP op).setFld r WELT_STATUS.BUSY 1).onWelt hs (fun w => { w with op := op, group := g, since := s.now, todo := [], pos := 0, stage := 0, lanes := [], seen := 0, nonfin := 0, bad := false, status := .ok, advance := false })

/-- Sums of squares and non-finite elements of the rows of a layer's local G (09 R348): the lane sums, the elements passed so far, NONFINITE, and whether a row read poisoned. -/
structure NormAcc where
  s : State
  lanes : Tab F32
  n : Nat
  nonfin : Nat
  poison : Bool

/-- One row of a gradient taken into the norm (09 R348). -/
def NormAcc.row (a : NormAcc) (g : Agent) (addr count : Nat) : NormAcc :=
  let q := a.s.agentRead g addr
  if q.2.poison then { a with s := q.1, n := a.n + count, nonfin := satAdd 32 a.nonfin 128, poison := true }
  else
    let gs := rowF32 count q.2.bytes
    let o := (List.range count).foldl (fun (t : Tab F32 × Nat) i =>
      let g := gs.getD i 0#32
      if g.toNat % 2 ^ 31 < 0x7F800000 then (tset t.1 ((a.n + i) % 64) (add32 (tget 0#32 t.1 ((a.n + i) % 64)) (mul32 g g)), t.2)
      else (t.1, t.2 + 1)) (a.lanes, 0)
    { a with s := q.1, lanes := o.1, n := a.n + count, nonfin := satAdd 32 a.nonfin o.2 }

/-- NORM's partial record (09 R349). -/
def normRecord (sumsq : F32) (nonfin step unit g flags : Nat) : List Byte :=
  leBytes 4 sumsq.toNat ++ leBytes 4 nonfin ++ leBytes 4 step ++ leBytes 4 step ++ leBytes 2 unit ++ leBytes 2 unit ++ leBytes 2 g ++ leBytes 1 flags ++ leBytes 9 0

/-- NORM's partial record written, once every layer has been passed over (09 R349). -/
def State.normEnd (s : State) (hs : Nat) : State :=
  let w := s.welt hs
  let g := w.group
  let a := s.fld (Machine.welt .WELT_GROUP_PART hs g) WELT_GROUP_PART.PART_BASE + 512 * hs
  if !s.allBound (s.weltLease hs) [a] then s.weltDone hs .range
  else
    let rec32 := normRecord (treeSum 6 (partials w.lanes 64)) w.nonfin (s.fld (Machine.welt .WELT_GROUP_CFG hs g) WELT_GROUP_CFG.STEP) (s.fld unitAddr UNIT_ADDR.ADDRESS) g (flag w.bad)
    s.agentWrite (weltAgent hs (s.weltLease hs)) a ⟨padRow rec32, false⟩

/-- NORM taken on by the next 1,024 local elements of a layer (09 R332, R346, R348). -/
def State.normOn (s : State) (hs l : Nat) : State :=
  let w := s.welt hs
  let x := s.weltLayer hs l
  let all := s.weltRows hs x
  let rows := (all.drop w.pos).take 8
  if !s.allBound (s.weltLease hs) (rows.map (fun r => x.g + 512 * r)) then s.weltDone hs .range
  else
    let o := rows.foldl (fun (a : NormAcc) r => a.row (weltAgent hs (s.weltLease hs)) (x.g + 512 * r) (x.count r)) ⟨s, w.lanes, w.seen, w.nonfin, w.bad⟩
    let ends := all.length ≤ w.pos + 8
    let s := if o.poison then o.s.setW1c (Machine.welt .WELT_STATUS hs) WELT_STATUS.POISON else o.s
    let s := s.onWelt hs (fun w => { w with lanes := o.lanes, seen := o.n, nonfin := o.nonfin, bad := o.poison, pos := if ends then 0 else w.pos + 8, todo := if ends then w.todo.drop 1 else w.todo })
    if ends && w.todo.length ≤ 1 then s.normEnd hs else s

/-- NORM on a Welt unit (09 R341, R348, R349): it passes over the group's layers that are not frozen. -/
def State.weltNorm (s : State) (hs g lease : Nat) : State :=
  let mask := s.freezeMask hs
  let ls := (s.groupLayers hs g).filter (fun l => !frozenIn mask l)
  let s := ({ s with recovering := s.recovering.filter (fun n => n != lease) } : State).onWelt hs (fun w => { w with freeze := mask, toPhase := 1, damaged := false, ortBad := [], todo := ls })
  if ls.isEmpty then s.normEnd hs else s

/-- A Welt unit's running command goes on by 1,024 local elements of the layer in progress, once the accesses it has made have been performed (09 R331, R346). DESIGN CHOICE (log 9): it does so as a cycle passes, since no command of the table stands for it. -/
def State.weltOn (s : State) (hs : Nat) : State :=
  let w := s.welt hs
  match w.todo with
  | [] => s
  | l :: _ => if s.weltWaits hs then s else if w.op == 1 then s.normOn hs l else if w.stage == 0 then s.weltRowsOn hs l else if w.stage == 4 || w.stage == 5 then s.weltFacOn hs l else s

/-- Every Welt unit goes on. -/
def State.weltsOn (s : State) : State := (s.welts.map (·.1)).foldl State.weltOn s

/-- APPLY's checks of the reduced record, in order (09 R351). -/
def applyCheck (r : List Byte) (g step : Nat) : Option Status :=
  let f := fun o n => leNat ((r.drop o).take n)
  firstFail
    [ need (f 20 2 == g) .state
    , need (f 8 4 == f 12 4) .stepSkew
    , need (f 8 4 == step) .state
    , need (f 4 4 == 0 && f 0 4 % 2 ^ 31 < 0x7F800000) .nonfiniteSkip ]

/-- APPLY on a Welt unit (09 R351, R352, R358): the checks, of which the first three suffice for LAST_NORM; c and t, and the first layer. -/
def State.weltApply (s : State) (hs g lease : Nat) : State :=
  let cfg := Machine.welt .WELT_GROUP_CFG hs g
  let cr := Machine.welt .WELT_GROUP_CLIP hs g
  let step := s.fld cfg WELT_GROUP_CFG.STEP
  let p := s.agentRead (weltAgent hs lease) (s.fld (Machine.welt .WELT_GROUP_RED hs g) WELT_GROUP_RED.RED_BASE)
  let s := p.1
  let sumsq : F32 := BitVec.ofNat 32 (leNat (p.2.bytes.take 4))
  let n := sqrt32 sumsq
  let ran := fun (s : State) => s.setFld (Machine.welt .WELT_GROUP_NORM hs g) WELT_GROUP_NORM.LAST_NORM n.toNat
  match applyCheck p.2.bytes g step with
  | some st =>
    let s := if st == .nonfiniteSkip then (ran s).count cr WELT_GROUP_CLIP.SKIPS 1 else s
    s.onWelt hs (fun w => { w with status := st, toPhase := 0 })
  | none =>
    let s := ran s
    let clip : F32 := BitVec.ofNat 32 (s.fld cr WELT_GROUP_CLIP.CLIP)
    let c := if isZero32 clip || !(val32 clip).lt (val32 n) then one32 else div32 clip n
    let ls := (s.groupLayers hs g).filter (fun l => !frozenIn (s.welt hs).freeze l)
    let isOrt := fun l => (s.weltLayer hs l).rule == 3
    let ort := ls.filter isOrt
    let s := s.onWelt hs (fun w => { w with
      todo := ls.filter (fun l => !isOrt l) ++ ort, hps := s.latchHps hs ls, clip := c, t := (step + 1) % 2 ^ 32, toPhase := if ort.isEmpty then 0 else 2, advance := ort.isEmpty, damaged := false })
    s.weltNext hs

/-- FINISH on a Welt unit (09 R357, R358). -/
def State.weltFinish (s : State) (hs g : Nat) : State :=
  let ls := (s.groupLayers hs g).filter (fun l => !frozenIn (s.welt hs).freeze l && (s.weltLayer hs l).rule == 3)
  let s := s.onWelt hs (fun w => { w with todo := ls, hps := s.latchHps hs ls, toPhase := 0, advance := true })
  s.weltNext hs

/-- An open step ended without applying it (09 R345). -/
def State.weltCloseStep (s : State) (hs : Nat) : State :=
  let r := Machine.welt .WELT_STATUS hs
  let g := s.wstat hs WELT_STATUS.OPEN_GROUP
  let s := if s.wstat hs WELT_STATUS.PHASE == 2 then
      (s.groupLayers hs g).foldl (fun s l => if (s.weltLayer hs l).rule == 3 then s.setFld (Machine.welt .WELT_LAYER_STATE hs l) WELT_LAYER_STATE.ORT_WAIT 0 else s) s
    else s
  s.setFld r WELT_STATUS.PHASE 0

/-- The status WELT_CMD is refused with, if it is, and the layer BAD_LAYER takes (09 R343; 15 R546 for a quiescing lease). -/
def State.weltCheck (s : State) (a : Actor) (hs op g : Nat) : Option (Status × Option Nat) :=
  let phase := s.wstat hs WELT_STATUS.PHASE
  if op == 0 || 4 < op then some (.range, none)
  else match s.groupLease hs g with
    | none => some (.range, none)
    | some lease =>
      if (actorLease a).isSome && actorLease a != some lease then some (.range, none)
      else if op != 4 && !s.active lease then some (.state, none)
      else if op == 1 && phase != 0 then some (.state, none)
      else if (op == 2 && phase != 1) || (op == 3 && phase != 2) || (op == 4 && phase == 0) then some (.state, none)
      else if op != 1 && s.wstat hs WELT_STATUS.OPEN_GROUP != g then some (.state, none)
      else if op ≤ 2 then
        match s.badLayer hs g lease with
        | some l => some (.range, some l)
        | none =>
          let a := if op == 1 then s.fld (Machine.welt .WELT_GROUP_PART hs g) WELT_GROUP_PART.PART_BASE + 512 * hs else s.fld (Machine.welt .WELT_GROUP_RED hs g) WELT_GROUP_RED.RED_BASE
          match s.find (some lease) a with | .ok _ => none | .error _ => some (.range, none)
      else none

/-- A write to WELT_CMD (09 R342-R345). -/
def State.weltCmd (s : State) (a : Actor) (hs op g : Nat) : State × Status :=
  if s.weltBusy hs || (match s.groupLease hs g with | some n => s.snapStopped n | none => false) then (s, .busy)
  else match s.weltCheck a hs op g with
    | some e => (s.weltRefuse hs op e.1 e.2, e.1)
    | none =>
      let lease := s.fld (Machine.welt .WELT_GROUP_CFG hs g) WELT_GROUP_CFG.LEASE
      let s := s.weltAccept hs op g
      if op == 1 then (s.weltNorm hs g lease, .ok)
      else if op == 2 then (s.weltApply hs g lease, .ok)
      else if op == 3 then (s.weltFinish hs g, .ok)
      else ((s.weltCloseStep hs).onWelt hs (fun w => { w with toPhase := 0 }), .ok)

/-- The end of a step noted for its lease (09 R362, 18 R631). -/
def State.stepEnd (s : State) (lease : Option Nat) : State := match lease with | some n => { s with stepEnds := sins s.stepEnds n } | none => s

/-- WELT_CMD_END (09 R344, R349, R351, R360, R362): a command with nothing left to do ends; NORM opens the step, and the command that ends the step advances STEP. -/
def execWeltCmdEnd (hs : Fin 16) (s : State) : Host.Outcome State Fault Refusal := s.live fun s =>
  let hs := hs.val
  let w := s.welt hs
  if w.op == 0 || !w.todo.isEmpty || s.weltWaits hs then .next s
  else
    let r := Machine.welt .WELT_STATUS hs
    let s := s.setFld r WELT_STATUS.PHASE w.toPhase
    let s := if w.op == 1 then (s.setFld r WELT_STATUS.OPEN_GROUP w.group).onWelt hs (fun w => { w with opened := s.now }) else s
    let s := if w.advance then (s.setFld (Machine.welt .WELT_GROUP_CFG hs w.group) WELT_GROUP_CFG.STEP w.t).stepEnd (s.groupLease hs w.group) else s
    let st := if w.status == .ok && w.advance && w.damaged then Status.integrity else w.status
    .next (s.weltDone hs st)

/-- WELT_LAYER_COMMIT (09 R361): the layer in progress commits and the next begins. -/
def execWeltLayerCommit (hs : Fin 16) (s : State) : Host.Outcome State Fault Refusal := s.live fun s =>
  let hs := hs.val
  let w := s.welt hs
  match w.todo with
  | [] => .next s
  | l :: t =>
    if w.stage != 3 || w.op == 1 || s.weltWaits hs then .next s
    else
      let r := Machine.welt .WELT_LAYER_STATE hs l
      let bad := w.bad || w.ortBad.any (fun q => q.1 == l)
      let s := (((s.setFld r WELT_LAYER_STATE.EPOCH w.t).setFld r WELT_LAYER_STATE.APPLYING 0).setFld r WELT_LAYER_STATE.ORT_WAIT 0).setFld r WELT_LAYER_STATE.DAMAGED (flag bad)
      let s := s.onWelt hs (fun w => { w with todo := t, stage := 0, bad := false, damaged := w.damaged || bad })
      .next (s.weltNext hs)

/-- The stacks that hold a layer with HS(n). -/
def State.holders (s : State) (hs l : Nat) : List Nat :=
  let x := s.weltLayer hs l
  if x.pkg then List.range 16 else (List.range 4).map (fun k => 4 * (bits x.p 41 40) + k)

/-- Whether the APPLY of a Welt unit has a layer in progress at an exchange: 1 its partials written, 2 its rsum row (09 R356). -/
def State.facAt (s : State) (l u k : Nat) : Bool := (s.welt u).op == 2 && (s.welt u).todo.head? == some l && (s.welt u).stage == k && !s.weltWaits u

/-- A unit past an exchange of a factored layer (09 R356): it adds the partials up, or, past the second, reads the factors and begins its elements. -/
def State.facGo (s : State) (l u : Nat) (second : Bool) : State :=
  let w := s.welt u
  let x := s.weltLayer u l
  let g := weltAgent u (s.weltLease u)
  if !s.facBound u x then s.weltDone u .range
  else if second then
    let o := s.facFactors g x w
    o.1.onWelt u (fun _ => { o.2 with stage := 5, pos := 0 })
  else
    let o := s.facAccumulate g u x (weltHp (tget [] w.hps x.hp)) w.bad
    o.1.onWelt u (fun w => { w with stage := 2, bad := o.2 })

/-- FAC_EXCHANGE_READY (09 R356): every holding unit has written its block, or its rsum row, and each goes on. -/
def execFacExchangeReady (hs : Fin 16) (l : Fin 4096) (s : State) : Host.Outcome State Fault Refusal := s.live fun s =>
  let us := s.holders hs.val l.val
  if us.all (fun u => s.facAt l.val u 1) then .next (us.foldl (fun s u => s.facGo l.val u false) s)
  else if us.all (fun u => s.facAt l.val u 2) then .next (us.foldl (fun s u => s.facGo l.val u true) s)
  else .next s

/-- WELT_STEP_TIMEOUT (09 R345): a step open for 10 s is closed; a command still running ends with it. -/
def execWeltStepTimeout (hs : Fin 16) (s : State) : Host.Outcome State Fault Refusal := s.live fun s =>
  let hs := hs.val
  if s.wstat hs WELT_STATUS.PHASE == 0 || s.now < (s.welt hs).opened + 11000000000 then .next s
  else
    let s := s.weltCloseStep hs
    if s.weltBusy hs then .next (s.weltDone hs .timeout) else .next (s.setFld (Machine.welt .WELT_STATUS hs) WELT_STATUS.LAST_STATUS (code .timeout))

/-- A running command of a lease stopped at its next boundary (09 R346, 15 R543, R544): the layer in progress keeps APPLYING. -/
def State.weltStop (s : State) (hs : Nat) (st : Status) : State :=
  if (s.welt hs).op == 0 then s else s.weltDone hs st

/-! Register writes (09 R334-R341, R363). -/

/-- Whether an actor may use what belongs to a group's lease (09 R334). -/
def mayUse (a : Actor) (owner : Option Nat) : Bool := (actorLease a).isNone || actorLease a == owner

/-- A refused write's status, or the plain write of the word. -/
def State.weltPlain (s : State) (a : Actor) (ok : Bool) (st : Status) (r : Reg) (v : Nat) (keep : List Fld) : State × Status :=
  if ok then s.guardedWrite a r v keep else (s, st)

/-- Whether an FP32 word is finite and not below zero (09 R339, R340). -/
def nonNeg32 (v : Nat) : Bool := v < 0x7F800000 || v == 0x80000000
/-- Whether an FP32 word lies in [0, 1). -/
def below1 (v : Nat) : Bool := v < 0x3F800000 || v == 0x80000000

/-- A write to a register with FP32 fields: each keeps its value where the new one is out of range, and over DCP such a write is refused (00 R10, 09 R339, R340). -/
def State.rangedWrite (s : State) (a : Actor) (r : Reg) (v : Nat) (fs : List (Fld × (Nat → Bool))) (fixed : List Fld) : State × Status :=
  let bad := (fs.filter (fun f => !f.2 (bits v f.1.hi f.1.lo))).map (·.1)
  if isDcp a && !bad.isEmpty then (s, .range)
  else s.guardedWrite a r (keepFields (s.reg r).toNat v bad) fixed

/-- A write to a word of WELT_GROUP (09 R334, R339): LEASE and VALID by firmware only, STEP not while the step is open. -/
def State.weltGroupWrite (s : State) (a : Actor) (hs g : Nat) (n : RegName) (v : Nat) : State × Status :=
  let r := Machine.welt n hs g
  if !mayUse a (s.groupLease hs g) then (s, .range)
  else match n with
    | .WELT_GROUP_CFG =>
      let fixed := if a == .firmware then [] else [WELT_GROUP_CFG.LEASE, WELT_GROUP_CFG.VALID]
      let old := (s.reg r).toNat
      if s.stepOpen hs g then
        if isDcp a && changes old v (WELT_GROUP_CFG.STEP :: fixed) then (s, if changes old v fixed then .range else .state)
        else s.guardedWrite a r (keepFields old v [WELT_GROUP_CFG.STEP]) fixed
      else s.guardedWrite a r v fixed
    | .WELT_GROUP_CLIP => s.rangedWrite a r v [(WELT_GROUP_CLIP.CLIP, nonNeg32)] []
    | _ => s.plainWrite a r v

/-- A write to a word of WELT_HP (09 R334, R340). -/
def State.weltHpWrite (s : State) (a : Actor) (hs h : Nat) (n : RegName) (v : Nat) : State × Status :=
  let r := Machine.welt n hs h
  if !mayUse a (some (s.fld (Machine.welt .WELT_HP_LEASE hs h) WELT_HP_LEASE.LEASE)) then (s, .range)
  else match n with
    | .WELT_HP_B1 => s.rangedWrite a r v [(WELT_HP_B1.B1, below1), (WELT_HP_B1.LR, nonNeg32)] []
    | .WELT_HP_EPS => s.rangedWrite a r v [(WELT_HP_EPS.EPS, fun x => 0 < x && x < 0x7F800000), (WELT_HP_EPS.B2, below1)] []
    | .WELT_HP_WD => s.rangedWrite a r v [(WELT_HP_WD.WD, nonNeg32)] []
    | _ => s.guardedWrite a r v (if a == .firmware then [] else [WELT_HP_LEASE.LEASE])

/-- A write to WELT_FREEZE (09 R334, R341): a lease changes only bits of layers that no other lease's group names. -/
def State.weltFreezeWrite (s : State) (a : Actor) (hs k v : Nat) : State × Status :=
  let r := Machine.welt .WELT_FREEZE hs k
  let diff := (s.reg r).toNat ^^^ v
  let other := (List.range 64).any (fun b => bitAt diff b && (match s.groupLease hs (s.weltLayer hs (64 * k + b)).group with | some n => actorLease a != some n | none => false))
  if (actorLease a).isSome && other then (s, .range) else s.plainWrite a r v

/-- Whether an actor may write a word of a layer entry: of its lease's group, or word 0 of an entry whose group is not valid; the group a write names must be its own (09 R334). -/
def State.mayLayer (s : State) (a : Actor) (hs l : Nat) (names : Option Nat) : Bool :=
  let old := s.groupLease hs (s.weltLayer hs l).group
  (actorLease a).isNone ||
    ((actorLease a == old || (old.isNone && names.isSome)) && (match names with | some g => s.groupLease hs g == actorLease a | none => true))

/-- A write to words 0x00 to 0x30 of a layer entry (09 R334, R335). -/
def State.weltLayerWrite (s : State) (a : Actor) (hs l : Nat) (n : RegName) (v : Nat) : State × Status :=
  let names := if n == .WELT_LAYER_SHAPE then some (bits v WELT_LAYER_SHAPE.GROUP.hi WELT_LAYER_SHAPE.GROUP.lo) else none
  if !s.mayLayer a hs l names then (s, .range)
  else if s.stepOpen hs (s.weltLayer hs l).group then (s, .state)
  else s.plainWrite a (Machine.welt n hs l) v

/-- A write to word 0x38 of a layer entry (09 R363). -/
def State.weltEpochWrite (s : State) (a : Actor) (hs l v : Nat) : State × Status :=
  let r := Machine.welt .WELT_LAYER_STATE hs l
  if !s.mayLayer a hs l none then (s, .range)
  else if s.stepOpen hs (s.weltLayer hs l).group then (s, .state)
  else (((s.setFld r WELT_LAYER_STATE.EPOCH (bits v 63 32)).setFld r WELT_LAYER_STATE.APPLYING 0 |>.setFld r WELT_LAYER_STATE.ORT_WAIT 0).setFld r WELT_LAYER_STATE.DAMAGED 0, .ok)

/-- A Welt unit's part of a lease's release (09 R347): groups, and layers that name them, lose VALID, and an open step of one closes. -/
def State.weltRelease (s : State) (hs first n : Nat) : State :=
  let inGroups := fun g => first ≤ g && g < first + n
  let s := if s.wstat hs WELT_STATUS.PHASE != 0 && inGroups (s.wstat hs WELT_STATUS.OPEN_GROUP) then s.weltCloseStep hs else s
  let s := (List.range n).foldl (fun s i => s.setFld (Machine.welt .WELT_GROUP_CFG hs (first + i)) WELT_GROUP_CFG.VALID 0) s
  (List.range 4096).foldl (fun s l => if inGroups (s.weltLayer hs l).group && (s.weltLayer hs l).valid then s.setFld (Machine.welt .WELT_LAYER_SHAPE hs l) WELT_LAYER_SHAPE.VALID 0 else s) s

end Sys2Proof.Machine
end

