-- ==== Sys2Proof/Machine/KvPool.lean ====
section
/-! DEFINITION. KV pools: pages, reference counts, batches and their entries (10 R364-R374). -/
namespace Sys2Proof.Machine

/-- A register of pool p of CDd (10 R365). -/
def kvp (n : RegName) (d p : Nat) : Reg := ⟨n, selCd d, p, 0⟩

/-- The shape of a pool (10 R364, R365). -/
structure PoolShape where
  lease : Nat
  kfmt : Nat
  vfmt : Nat
  dim : Nat
  regions : Nat
  pages : Nat
  base : Nat
  meta' : Nat
  deriving DecidableEq, Repr

/-- The shape a configuration word, a base and a metadata address give. -/
def poolShape (w base m : Nat) : PoolShape :=
  let f := fun (x : Fld) => bits w x.hi x.lo
  ⟨f KVP_CFG.LEASE, f KVP_CFG.KFMT, f KVP_CFG.VFMT, 64 * 2 ^ f KVP_CFG.DIM, f KVP_CFG.REGIONS, f KVP_CFG.PAGES, base, m⟩

/-- The shape of a pool as configured. -/
def State.pool (s : State) (d p : Nat) : PoolShape :=
  poolShape (s.reg (kvp .KVP_CFG d p)).toNat (s.fld (kvp .KVP_BASE d p) KVP_BASE.BASE) (s.fld (kvp .KVP_META d p) KVP_META.META)

/-- IMG_K, the bytes of a K sub-plane (10 R364). -/
def PoolShape.imgK (x : PoolShape) : Nat := 512 * fmtWidth x.kfmt + (if fmtMx x.kfmt then 512 else 0)
/-- IMG_V, the bytes of a V sub-plane. -/
def PoolShape.imgV (x : PoolShape) : Nat := 512 * fmtWidth x.vfmt
/-- PAGE_BYTES (10 R364). -/
def PoolShape.pageBytes (x : PoolShape) : Nat := x.dim / 64 * (x.imgK + x.imgV)
/-- The address of page n of region r (10 R364). -/
def PoolShape.page (x : PoolShape) (r n : Nat) : Nat := x.base + (r * x.pages + n) * x.pageBytes
/-- The bytes of the region area. -/
def PoolShape.area (x : PoolShape) : Nat := x.regions * x.pages * x.pageBytes
/-- The bytes of the metadata area, whole rows (10 R366). -/
def PoolShape.metaBytes (x : PoolShape) : Nat := ceilDiv (6 * x.pages) 512 * 512

/-- Whether a key or value format is listed (10 R365). -/
def kfmtOk (f : Nat) : Bool := f == 1 || f == 2 || f == 3 || f == 4 || f == 5 || f == 9
/-- Whether a value format is listed. -/
def vfmtOk (f : Nat) : Bool := 1 ≤ f && f ≤ 4

/-- Whether two ranges of addresses meet. -/
def spansMeet (a n b m : Nat) : Bool := a < b + m && b < a + n

/-- Whether no other enabled pool of the die has an area that meets one of this shape's (10 R366). -/
def State.poolApart (s : State) (d p : Nat) (x : PoolShape) : Bool :=
  (List.range 16).all (fun i =>
    i == p || s.fld (kvp .KVP_CFG d i) KVP_CFG.ENABLE == 0 ||
      (let y := s.pool d i
       !spansMeet x.base x.area y.base y.area && !spansMeet x.base x.area y.meta' y.metaBytes && !spansMeet x.meta' x.metaBytes y.base y.area && !spansMeet x.meta' x.metaBytes y.meta' y.metaBytes))

/-- The status ENABLE = 1 is refused with (10 R366). -/
def State.poolCheck (s : State) (d p : Nat) (x : PoolShape) (dim : Nat) : Option Status :=
  firstFail
    [ need (kfmtOk x.kfmt && vfmtOk x.vfmt) .format
    , need (dim ≤ 2 && x.regions != 0 && x.pages != 0) .range
    , need (bits x.base 47 44 ≤ 1 && bits x.meta' 47 44 ≤ 2 && (s.findSpan (some x.lease) x.base (x.base + x.area - 1)).isNone && (s.findSpan (some x.lease) x.meta' (x.meta' + x.metaBytes - 1)).isNone) .range
    , need (s.poolApart d p x) .range ]

/-! Accesses. -/

/-- A pool engine as an agent: its requests carry the deadline f + 2,048 (10 R372). -/
def poolAgent (d p lease : Nat) : Agent := ⟨.pool, d, p, some lease, some 2048, false⟩

/-- The engine of a pool, for its lease. -/
def State.poolUser (s : State) (d p : Nat) : Agent := poolAgent d p (s.pool d p).lease

/-- Whether a pool's engine waits for requests of its own (log 16). -/
def State.poolWaits (s : State) (d p : Nat) : Bool := s.engineBusy .pool d p

/-- Whether an address lies in memory of a die, or in the package view (10 R365, R367). -/
def State.ofDie (s : State) (d a : Nat) : Bool := match s.place a with | .ok p => p.die == d || bits a 47 42 == 1 | .error _ => false

/-- Whether the rows of n bytes from an address may be reached now (03 R109, 05 R202). -/
def State.spanReach (s : State) (a n : Nat) : Bool := match s.rowAt a with | some row => s.mayReachRun row ((a % 512 + n + 511) / 512) | none => true

/-- Bytes read from memory for an engine, row by row, and whether a row was delivered poisoned. -/
def State.poolRead (s : State) (g : Agent) (a n : Nat) : State × List Byte × Bool :=
  let first := a / 512
  let p := (List.range ((a + n - 1) / 512 + 1 - first)).foldl (fun (p : State × List Byte × Bool) i =>
    let q := p.1.agentRead g (512 * (first + i))
    (q.1, p.2.1 ++ q.2.bytes, p.2.2 || q.2.poison)) (s, [], false)
  (p.1, (p.2.1.drop (a % 512)).take n, p.2.2)

/-- Bytes written to memory for an engine: whole rows are read, changed and rewritten (10 R369), their poison kept where only a part changes. -/
def State.poolWrite (s : State) (g : Agent) (a : Nat) (l : List Byte) (bad : Bool) : State :=
  let first := a / 512
  (List.range ((a + l.length - 1) / 512 + 1 - first)).foldl (fun s i =>
    let r := 512 * (first + i)
    let lo := Nat.max a r
    let hi := Nat.min (a + l.length) (r + 512)
    if lo == r && hi == r + 512 then s.agentWrite g r ⟨(l.drop (r - a)).take 512, bad⟩
    else
      let q := s.agentRead g r
      q.1.agentWrite g r ⟨q.2.bytes.take (lo - r) ++ (l.drop (lo - a)).take (hi - lo) ++ q.2.bytes.drop (hi - r), q.2.poison || bad⟩) s

/-- A pool's reference count of a page. -/
def State.pageCount (s : State) (g : Agent) (x : PoolShape) (n : Nat) : State × Nat :=
  let p := s.poolRead g (x.meta' + 2 * n) 2
  (p.1, leNat p.2.1)

/-- A page's reference count written. -/
def State.setCount (s : State) (g : Agent) (x : PoolShape) (n v : Nat) : State := s.poolWrite g (x.meta' + 2 * n) (leBytes 2 v) false

/-- The address of free-stack entry j, counted from the bottom (10 R365). -/
def PoolShape.slot (x : PoolShape) (j : Nat) : Nat := x.meta' + 2 * x.pages + 4 * j

/-- FREE of a pool. -/
def State.freePages (s : State) (d p : Nat) : Nat := s.fld (kvp .KVP_FREE d p) KVP_FREE.FREE

/-- A page number popped from the free stack (10 R368). -/
def State.popPage (s : State) (d p : Nat) (x : PoolShape) : State × Nat :=
  let n := s.freePages d p
  let r := s.poolRead (poolAgent d p x.lease) (x.slot (n - 1)) 4
  (r.1.setFld (kvp .KVP_FREE d p) KVP_FREE.FREE (n - 1), leNat r.2.1 % 2 ^ 24)

/-- A page number pushed onto the free stack. -/
def State.pushPage (s : State) (d p : Nat) (x : PoolShape) (q : Nat) : State :=
  let n := s.freePages d p
  (s.poolWrite (poolAgent d p x.lease) (x.slot n) (leBytes 4 q) false).setFld (kvp .KVP_FREE d p) KVP_FREE.FREE (n + 1)

/-! Configuration and initialisation (10 R365, R366). -/

/-- The metadata of a pool just enabled: every count zero, page numbers 0 to PAGES - 1 with 0 on top (10 R366). -/
def PoolShape.initial (x : PoolShape) : List Byte :=
  let l := List.replicate (2 * x.pages) (0#8) ++ ((List.range x.pages).map (fun j => leBytes 4 (x.pages - 1 - j))).flatten
  l ++ List.replicate (x.metaBytes - l.length) 0#8

/-- Whether an actor may write a pool's registers (10 R365). -/
def State.mayPool (s : State) (a : Actor) (d p : Nat) : Bool := (actorLease a).isNone || actorLease a == some (s.fld (kvp .KVP_CFG d p) KVP_CFG.LEASE)

/-- A write to KVP_CFG (10 R365, R366). -/
def State.kvpCfgWrite (s : State) (a : Actor) (d p v : Nat) : State × Status :=
  let r := kvp .KVP_CFG d p
  let old := (s.reg r).toNat
  let g := fun (x : Fld) => bits v x.hi x.lo
  let want := g KVP_CFG.ENABLE == 1
  let fixed := if a == .firmware then [] else [KVP_CFG.LEASE]
  if !s.mayPool a d p then (s, .range)
  else if s.fld r KVP_CFG.ENABLE == 1 && want then (s, .state)
  else if isDcp a && changes old v fixed then (s, .range)
  else
    let fmts := (if kfmtOk (g KVP_CFG.KFMT) then [] else [KVP_CFG.KFMT]) ++ (if vfmtOk (g KVP_CFG.VFMT) then [] else [KVP_CFG.VFMT])
    let outs := (if g KVP_CFG.DIM ≤ 2 then [] else [KVP_CFG.DIM]) ++ (if g KVP_CFG.REGIONS != 0 then [] else [KVP_CFG.REGIONS]) ++ (if g KVP_CFG.PAGES != 0 then [] else [KVP_CFG.PAGES])
    if isDcp a && !(fmts ++ outs).isEmpty then (s, if want && !fmts.isEmpty then .format else .range)
    else
      let w := keepFields old v (fixed ++ fmts ++ outs)
      let w := keepFields 0 w [⟨54, 52⟩, ⟨41, 36⟩]
      if !want then (s.setReg r (BitVec.ofNat 64 w), .ok)
      else
        let x := poolShape w (s.fld (kvp .KVP_BASE d p) KVP_BASE.BASE) (s.fld (kvp .KVP_META d p) KVP_META.META)
        match s.poolCheck d p x (bits w KVP_CFG.DIM.hi KVP_CFG.DIM.lo) with
        | some st => if isDcp a then (s, st) else (s.setReg r (BitVec.ofNat 64 (setBits w KVP_CFG.ENABLE.hi KVP_CFG.ENABLE.lo 0)), st)
        | none =>
          let s := s.setReg r (BitVec.ofNat 64 w)
          ((s.poolWrite (poolAgent d p x.lease) x.meta' x.initial false).setFld (kvp .KVP_STATUS d p) KVP_STATUS.INIT 1, .ok)

/-- KVP_INIT_DONE (10 R366): INIT clears and FREE becomes PAGES. -/
def execKvpInitDone (d : Die) (p : Fin 16) (s : State) : Host.Outcome State Fault Refusal := s.live fun s =>
  let st := kvp .KVP_STATUS d.val p.val
  if s.fld st KVP_STATUS.INIT == 0 || s.poolWaits d.val p.val then .next s
  else .next ((s.setFld st KVP_STATUS.INIT 0).setFld (kvp .KVP_FREE d.val p.val) KVP_FREE.FREE (s.pool d.val p.val).pages)

/-- A write to KVP_BASE or KVP_META (10 R365): not while the pool is enabled. -/
def State.kvpAddrWrite (s : State) (a : Actor) (n : RegName) (d p v : Nat) : State × Status :=
  if !s.mayPool a d p then (s, .range)
  else if s.fld (kvp .KVP_CFG d p) KVP_CFG.ENABLE == 1 then (s, .state)
  else if n == .KVP_META && 2 < bits v 47 44 then (s, .range)
  else s.plainWrite a (kvp n d p) v

/-- A write to KVP_LIST (10 R365): an address of this die in spaces 0 to 3. -/
def State.kvpListWrite (s : State) (a : Actor) (d p v : Nat) : State × Status :=
  if !s.mayPool a d p || 3 < bits v 47 44 || !s.ofDie d (bits v 47 0) then (s, .range) else s.plainWrite a (kvp .KVP_LIST d p) v

/-- A write to KVP_STATUS: REFUSED alone is W1C. -/
def State.kvpStatusWrite (s : State) (a : Actor) (d p v : Nat) : State × Status :=
  if !s.mayPool a d p then (s, .range) else s.plainWrite a (kvp .KVP_STATUS d p) v

/-! Batches (10 R370, R371). -/

/-- The batch of a pool. -/
def State.poolRun (s : State) (d p : Nat) : Option PoolRun := tget? s.pools (16 * d + p)

/-- A write to KVP_GO (10 R370; 15 R546 for a lease that is not ACTIVE). -/
def State.kvpGo (s : State) (a : Actor) (d p v : Nat) : State × Status :=
  let st := kvp .KVP_STATUS d p
  let n := bits v KVP_GO.COUNT.hi KVP_GO.COUNT.lo
  let refuse := fun (s : State) => s.setW1c st KVP_STATUS.REFUSED
  if !s.mayPool a d p then (s, .range)
  else if !bitAt v 0 then (s, .ok)
  else if s.fld st KVP_STATUS.BUSY == 1 || s.fld st KVP_STATUS.INIT == 1 then (refuse s, .busy)
  else if s.fld (kvp .KVP_CFG d p) KVP_CFG.ENABLE == 0 then (refuse s, .state)
  else if !s.active (s.fld (kvp .KVP_CFG d p) KVP_CFG.LEASE) then (refuse s, .state)
  else if s.snapStopped (s.fld (kvp .KVP_CFG d p) KVP_CFG.LEASE) then (refuse s, .busy)
  else if n == 0 then (refuse s, .range)
  else
    let flag := if bitAt v KVP_GO.SETFLAG.lo then some (bits v KVP_GO.FLAG.hi KVP_GO.FLAG.lo) else none
    let s := (((s.setFld st KVP_STATUS.BUSY 1).setFld st KVP_STATUS.DONE 0).setFld st KVP_STATUS.LAST_STATUS 0)
    ({ s with pools := tset s.pools (16 * d + p) ⟨n, 0, flag, s.now⟩ }, .ok)

/-- A batch list entry's fields (10 R367). -/
structure PoolEntry where
  op : Nat
  stage : Nat
  page : Nat
  region : Nat
  count : Nat
  offset : Nat
  src : Nat
  resv : Nat
  deriving DecidableEq, Repr

/-- The fields of an entry's two words. -/
def poolEntry (w0 w1 : Nat) : PoolEntry :=
  ⟨bits w0 51 48, bits w0 47 0, bits w1 63 40, bits w1 39 28, bits w1 27 21, bits w0 63 58, bits w0 57 52, bits w1 20 16⟩

/-- Whether an OP is listed (10 R368). -/
def opListed (op : Nat) : Bool := 1 ≤ op && op ≤ 5

/-- Whether fields an entry does not use are zero (10 R367). ALLOC reads no page number, and writes one over whatever PAGE holds (10 R368). -/
def PoolEntry.clean (e : PoolEntry) : Bool :=
  e.resv == 0 && (e.op == 5 || (e.stage == 0 && e.region == 0 && e.count == 0 && e.offset == 0 && e.src == 0))

/-- LAST_STATUS takes the first status of a batch other than ST_OK (10 R365). -/
def State.firstStatus (s : State) (d p : Nat) (st : Status) : State :=
  let sr := kvp .KVP_STATUS d p
  if st != .ok && s.fld sr KVP_STATUS.LAST_STATUS == 0 then s.setFld sr KVP_STATUS.LAST_STATUS (code st) else s

/-- An entry done: its status, the page number where one results, LAST_STATUS's first refusal, and DONE (10 R365, R367). -/
def State.entryDone (s : State) (d p addr : Nat) (st : Status) (page : Option Nat) : State :=
  let x := s.pool d p
  let sr := kvp .KVP_STATUS d p
  let s := match s.find (some x.lease) addr with
    | .error _ => s
    | .ok _ =>
      let g := poolAgent d p x.lease
      let s := s.poolWrite g (addr + 8) (leBytes 2 (code st)) false
      match page with | some n => s.poolWrite g (addr + 13) (leBytes 3 n) false | none => s
  let s := s.firstStatus d p st
  let s := s.setFld sr KVP_STATUS.DONE (s.fld sr KVP_STATUS.DONE + 1)
  match s.poolRun d p with
  | some r => { s with pools := tset s.pools (16 * d + p) { r with next := r.next + 1 } }
  | none => s

/-- The address of entry i of a pool's list (10 R367). -/
def State.listAt (s : State) (d p i : Nat) : Nat := s.fld (kvp .KVP_LIST d p) KVP_LIST.LIST + 16 * i

/-- Entry i of a pool's list, as it is read (10 R367). -/
def State.nextEntry (s : State) (d p i : Nat) : PoolEntry :=
  let b := (s.poolRead (s.poolUser d p) (s.listAt d p i) 16).2.1
  poolEntry (leNat (b.take 8)) (leNat (b.drop 8))

/-- The next entry of a pool's batch, taken when it is of OP `op` or of no listed OP: refused under 10 R368, or given to its operation. An entry of another OP is left; the batch waits until the accesses of the entry before have been performed, and for core memory that takes in no access now. -/
def State.entry (s : State) (d p op : Nat) (eff : Agent → PoolShape → PoolEntry → State → State × Status × Option Nat) : State :=
  match s.poolRun d p with
  | none => s
  | some r =>
    if r.count ≤ r.next || s.poolWaits d p || !s.spanReach (s.listAt d p r.next) 16 then s
    else
      let x := s.pool d p
      let addr := s.listAt d p r.next
      match s.find (some x.lease) addr with
      | .error st => s.entryDone d p addr st none
      | .ok _ =>
        let rd := s.poolRead (s.poolUser d p) addr 16
        let e := s.nextEntry d p r.next
        if (opListed e.op && e.op != op) || (e.op == 5 && !s.spanReach e.stage x.pageBytes) then s
        else if !opListed e.op || !e.clean || (e.op != 1 && x.pages ≤ e.page) then rd.1.entryDone d p addr .range none
        else
          let o := eff (s.poolUser d p) x e rd.1
          o.1.entryDone d p addr o.2.1 o.2.2

/-- ALLOC (10 R368). -/
def execAlloc (d : Die) (p : Fin 16) (s : State) : Host.Outcome State Fault Refusal := s.live fun s =>
  .next (s.entry d.val p.val 1 (fun g x _ s =>
    if s.freePages d.val p.val == 0 then (s, .noResource, none)
    else
      let q := s.popPage d.val p.val x
      (q.1.setCount g x q.2 1, .ok, some q.2)))

/-- SHARE (10 R368). -/
def execShare (d : Die) (p : Fin 16) (s : State) : Host.Outcome State Fault Refusal := s.live fun s =>
  .next (s.entry d.val p.val 2 (fun g x e s =>
    let c := s.pageCount g x e.page
    if c.2 == 0 then (c.1, .state, none)
    else if c.2 == 0xFFFF then (c.1, .noResource, none)
    else (c.1.setCount g x e.page (c.2 + 1), .ok, none)))

/-- FREE (10 R368). -/
def execFree (d : Die) (p : Fin 16) (s : State) : Host.Outcome State Fault Refusal := s.live fun s =>
  .next (s.entry d.val p.val 3 (fun g x e s =>
    let c := s.pageCount g x e.page
    if c.2 == 0 then (c.1, .state, none)
    else
      let s := c.1.setCount g x e.page (c.2 - 1)
      (if c.2 == 1 then s.pushPage d.val p.val x e.page else s, .ok, none)))

/-- A page copied to another in every region, poison with it (10 R368, R372). -/
def State.copyPage (s : State) (g : Agent) (x : PoolShape) (a b : Nat) : State :=
  (List.range x.regions).foldl (fun s r =>
    (List.range (x.pageBytes / 512)).foldl (fun s i =>
      let q := s.agentRead g (x.page r a + 512 * i)
      q.1.agentWrite g (x.page r b + 512 * i) q.2) s) s

/-- PRIVATE (10 R368). -/
def execMakePrivate (d : Die) (p : Fin 16) (s : State) : Host.Outcome State Fault Refusal := s.live fun s =>
  .next (s.entry d.val p.val 4 (fun g x e s =>
    let c := s.pageCount g x e.page
    if c.2 == 0 then (c.1, .state, none)
    else if c.2 == 1 then (c.1, .ok, some e.page)
    else if s.freePages d.val p.val == 0 then (c.1, .noResource, none)
    else
      let q := c.1.popPage d.val p.val x
      (((q.1.copyPage g x e.page q.2).setCount g x e.page (c.2 - 1)).setCount g x q.2 1, .ok, some q.2)))

/-- The bits of `n` elements of `w` bits from element `i` replaced by those of `new` (10 R369). -/
def putElems (w i n : Nat) (old new : List Byte) : List Byte :=
  let v := leNat old
  leBytes old.length (setBits v (w * (i + n) - 1) (w * i) (leNat new))

/-- `n` elements of `w` bits from element `i` of a byte list. -/
def getElems (w i n : Nat) (l : List Byte) : Nat := bits (leNat l) (w * (i + n) - 1) (w * i)

/-- A K sub-plane with staging tokens in it (10 R364, R369): token-major, an MX format's scales in the last row. -/
def appendK (w : Nat) (mx : Bool) (src off n : Nat) (stage page : List Byte) : List Byte :=
  let data := putElems (64 * w) off n (page.take (512 * w)) (leBytes (8 * w * n) (getElems (64 * w) src n (stage.take (512 * w))))
  if mx then data ++ putElems 16 off n (page.drop (512 * w)) (leBytes (2 * n) (getElems 16 src n (stage.drop (512 * w)))) else data

/-- A V sub-plane with staging tokens in it, rearranged into feature-major order (10 R369). -/
def appendV (w src off n : Nat) (stage page : List Byte) : List Byte :=
  let v := leNat stage
  let new := (List.range 64).foldl (fun a f => (List.range n).foldl (fun a i =>
    let e := w * (64 * f + off + i)
    setBits a (e + w - 1) e (bits v (w * (64 * (src + i) + f) + w - 1) (w * (64 * (src + i) + f)))) a) (leNat page)
  leBytes page.length new

/-- A sub-plane read, changed by a staging image and rewritten in whole rows, poisoned where a row of either read poisoned. -/
def State.appendPlane (s : State) (g : Agent) (stage page n : Nat) (f : List Byte → List Byte → List Byte) : State :=
  let st := s.poolRead g stage n
  let rows := (List.range (n / 512)).foldl (fun (a : State × List RowImg) i => let q := a.1.agentRead g (page + 512 * i); (q.1, a.2 ++ [q.2])) (st.1, [])
  let new := f st.2.1 ((rows.2.map (·.bytes)).flatten)
  (List.range (n / 512)).foldl (fun s i => s.agentWrite g (page + 512 * i) ⟨(new.drop (512 * i)).take 512, st.2.2 || ((rows.2.getD i ⟨[], false⟩).poison)⟩) rows.1

/-- The status a staging block is refused with: in an absent core's memory (15 R550), or not aligned, outside this die's spaces 0 to 3, or not bound (10 R367). -/
def State.stageCheck (s : State) (d : Nat) (x : PoolShape) (a : Nat) : Option Status :=
  firstFail
    [ match s.findSpan (some x.lease) a (a + x.pageBytes - 1) with | some .engineAbsent => some .engineAbsent | _ => none
    , need (a % 512 == 0 && bits a 47 44 ≤ 3 && (s.findSpan (some x.lease) a (a + x.pageBytes - 1)).isNone && s.ofDie d a) .range ]

/-- The staging tokens of an entry put into its page: the K sub-planes, then the V sub-planes (10 R364, R369). -/
def State.appendTokens (s : State) (g : Agent) (x : PoolShape) (e : PoolEntry) : State :=
  let n := x.dim / 64
  let page := x.page e.region e.page
  let k := (List.range n).foldl (fun s j => s.appendPlane g (e.stage + j * x.imgK) (page + j * x.imgK) x.imgK (appendK (fmtWidth x.kfmt) (fmtMx x.kfmt) e.src e.offset e.count)) s
  (List.range n).foldl (fun s j => s.appendPlane g (e.stage + n * x.imgK + j * x.imgV) (page + n * x.imgK + j * x.imgV) x.imgV (appendV (fmtWidth x.vfmt) e.src e.offset e.count)) k

/-- APPEND (10 R368, R369). -/
def execAppend (d : Die) (p : Fin 16) (s : State) : Host.Outcome State Fault Refusal := s.live fun s =>
  .next (s.entry d.val p.val 5 (fun g x e s =>
    let c := s.pageCount g x e.page
    let stage := s.stageCheck d.val x e.stage
    if stage == some .engineAbsent then (s, .engineAbsent, none)
    else if c.2 != 1 then (c.1, .state, none)
    else if e.count == 0 || 64 < e.offset + e.count || 64 < e.src + e.count || x.regions ≤ e.region || stage.isSome then (c.1, .range, none)
    else (c.1.appendTokens g x e, .ok, none)))

/-- A flag set at a core from outside it; a frozen core takes it in at the end of its freeze (03 R109). -/
def State.landFlag (s : State) (k f : Nat) : State :=
  if s.frozen k then s.onCore k (fun c => { c with crossing := c.crossing ++ [.flag f true] }) else s.onCore k (fun c => c.applyFlag s.coreClock f true)

/-- A flag set on every exposed core of a die that is bound to a lease (10 R371, 11 R453). -/
def State.flagDie (s : State) (d lease f : Nat) : State :=
  (List.range 72).foldl (fun s c => if s.exposed d c && s.boundTo (coreKey d c) lease then s.landFlag (coreKey d c) f else s) s

/-- A batch ended: BUSY clears, the source is raised and the lease is charged (10 R371, 15 R557). -/
def State.batchEnd (s : State) (d p : Nat) (r : PoolRun) : State :=
  let s := { s with pools := tdel s.pools (16 * d + p) }
  let s := s.charge (s.fld (kvp .KVP_CFG d p) KVP_CFG.LEASE) 4 (s.now - r.since)
  (s.setFld (kvp .KVP_STATUS d p) KVP_STATUS.BUSY 0).raise d (0xA0 + p)

/-- Whether every entry of a batch has been processed and its writes performed (10 R371). -/
def State.batchOver (s : State) (d p : Nat) (r : PoolRun) : Bool := r.count ≤ r.next && !s.poolWaits d p

/-- A batch that has completed: ended, and its flag set (10 R371). -/
def State.batchDone (s : State) (d p : Nat) (r : PoolRun) : State :=
  let s := s.batchEnd d p r
  match r.flag with
  | some f => s.flagDie d (s.fld (kvp .KVP_CFG d p) KVP_CFG.LEASE) f
  | none => s

/-- KVP_BATCH_COMPLETE (10 R371). -/
def execKvpBatchComplete (d : Die) (p : Fin 16) (s : State) : Host.Outcome State Fault Refusal := s.live fun s =>
  match s.poolRun d.val p.val with
  | none => .next s
  | some r =>
    .next (if s.batchOver d.val p.val r then s.batchDone d.val p.val r else s)

/-- A pool stopped at its entry boundary, its ENABLE cleared (10 R374, 15 R543, R544); a batch that has completed keeps its status (R548). -/
def State.poolStop (s : State) (d p : Nat) (st : Status) : State :=
  let s := match s.poolRun d p with
    | none => s
    | some r => if s.batchOver d p r then s.batchDone d p r else (s.batchEnd d p r).firstStatus d p st
  s.setFld (kvp .KVP_CFG d p) KVP_CFG.ENABLE 0

end Sys2Proof.Machine
end

