-- ==== Sys2Proof/Machine/Links.lean ====
section
/-! DEFINITION. Die-to-die links: correction, replay and counters (01 R19-R28), the buffers of a link receiver and the credits it withholds (19 R648). -/
namespace Sys2Proof.Machine

/-- Whether a die has a link port: four on a compute die, its port 2 on CD0 and CD3 alone, one on a service die (01, Link registers). -/
def linkPort (sel p : Nat) : Bool := if sel < 4 then (if p == 2 then sel == 0 || sel == 3 else p < 4) else (sel == 24 || sel == 25) && p == 0

/-- A link register. -/
def linkReg (n : RegName) (sel p : Nat) : Reg := ⟨n, sel, p, 0⟩

/-- The code of a traffic class. -/
def classCode : LinkClass → Nat
  | .request => 0
  | .reply => 1
  | .collective => 2
  | .management => 3

/-- Whether perturbation holds back the credits a receiver frees now: within the first HOLD cycles of a window, for a class of MASK (19 R648). -/
def holding (now period hold mask bit : Nat) : Bool := period != 0 && now % period < hold && bitAt mask bit

/-- The key of a class's buffer at a receiver (01 R23). -/
def linkKey (sel p : Nat) (c : LinkClass) : Nat := sel * 16 + p * 4 + classCode c

/-- The credit of a delivered row returned to the sender, or withheld (01 R23, 19 R648). -/
def State.linkCredit (s : State) (sel p : Nat) (c : LinkClass) : State :=
  let r : Reg := ⟨.PERT_LINKCR, sel, 0, 0⟩
  if sel < 4 && holding s.now (s.pert r PERT_LINKCR.PERIOD) (s.pert r PERT_LINKCR.HOLD) (s.pert r PERT_LINKCR.MASK) (classCode c) then
    { s with linkHeld := tset s.linkHeld (linkKey sel p c) (tget 0 s.linkHeld (linkKey sel p c) + 1) }
  else s

/-- Whether a received row has a word the receiver finds uncorrectable (01 R21, 05 R187): two symbols in error, or three and more that it happens to detect. -/
def rowUncorrectable (r : LinkRow) (nth : Nat) : Bool :=
  (List.range r.errs.length).any (fun w => r.errs.getD w 0 == 2 || (3 ≤ r.errs.getD w 0 && Config.eccDetects 0 w nth))

/-- Words of a received row corrected in flight. -/
def rowCorrected (r : LinkRow) : Nat := (r.errs.filter (· == 1)).length

/-- The replay a class of a receiver waits for. -/
def State.replayOf (s : State) (sel p : Nat) (c : LinkClass) : Option Replay := s.replays.find? (fun x => x.sel == sel && x.port == p && x.cls == c)

/-- The places of a class's buffer in use (01 R23): by rows whose request has not been completed, by rows held back behind a replay and its own row, and by rows whose credit is withheld (19 R648). -/
def State.linkUsed (s : State) (sel p : Nat) (c : LinkClass) : Nat :=
  (s.linkBuf.filter (fun x => x.1 == linkKey sel p c && s.reqs.any (fun r => r.id == x.2))).length +
    ((s.replayOf sel p c).map (fun x => x.held.length + 1)).getD 0 + tget 0 s.linkHeld (linkKey sel p c)

/-- Whether a class's buffer is full: its sender holds its rows of that class back, and those of no other (01 R23). The number of places is `Config.linkRoom` and two, so that a row can be held behind one that is replayed (log 20). -/
def State.linkFull (s : State) (sel p : Nat) (c : LinkClass) : Bool := Config.linkRoom sel p (classCode c) + 1 < s.linkUsed sel p c

/-- A request whose row has crossed a link (01 R19, R21): codewords cross unchanged, and a row delivered poisoned makes what the request carries poisoned. -/
def MemReq.crossed (r : MemReq) (x : LinkRow) (bad : Bool) : MemReq :=
  let bytes := if x.bytes.length == 512 then (if r.bytes == 512 then x.bytes else (x.bytes.drop r.off).take r.bytes) else r.img.bytes
  if r.write && r.stage != 0 then r else { r with img := ⟨bytes, r.img.poison || x.poison || bad⟩, fresh := r.fresh || bad }

/-- What became of the requester of a row that its link delivered poisoned (01 R21): its operation ends with ST_INTEGRITY. A DCP memory command and a packet's access find it in the request that answers them (14 R675, 11 R433), and a stack's row carries its poison on. -/
def State.linkIntegrity (s : State) (o : ReqOwner) (row : Nat) : State :=
  match o with
  | .chan k _ _ _ _ _ => s.markKernel k
  | .awl k _ _ => s.markKernel k
  | .engine e d i =>
    match e with
    | .welt => s.onWelt i (fun w => if w.op == 0 then w else { w with bad := true, damaged := true })
    | .pool => s.firstStatus d i .integrity
    | .coll => { s with colls := s.colls.map (fun c => if c.1 == i then (c.1, { c.2 with run := c.2.run.map (fun r => { r with poison := true }) }) else c) }
    | .host => { s with cached := s.cached.map (fun c => if c.1 == row then (c.1, { c.2 with img := ⟨c.2.img.bytes, true⟩ }) else c) }
    | .index => s.markKernel (coreKey d (i / 16))
    | .ring => s.markKernel (coreKey d i)
    | .desc => s.markKernel (coreKey d i)
    | .dump => s.markKernel (coreKey d i)
    | .cache => s
    | .dcp => s
    | .peer => s
  | _ => s

/-- A row delivered (01 R19, R21): its request takes what came over the link; a row poisoned by its link ends the operation that asked for it. -/
def State.linkDeliver (s : State) (sel p : Nat) (c : LinkClass) (r : LinkRow) (bad : Bool) : State :=
  let s := s.linkCredit sel p c
  match r.request.bind (fun n => s.reqs.find? (fun x => x.id == n)) with
  | none =>
    match r.requester with
    | some k => if bad then s.markKernel (ckey k) else s
    | none => s
  | some q =>
    let s := { s with reqs := s.reqs.map (fun x => if x.id == q.id then x.crossed r bad else x), linkBuf := (s.linkBuf.filter (fun b => s.reqs.any (fun x => x.id == b.2))) ++ [(linkKey sel p c, q.id)] }
    if bad then s.linkIntegrity q.owner q.row else s

/-- A request's row put off: it reaches its point, or lands, not before cycle t. -/
def State.linkLate (s : State) (n : Option Nat) (t : Nat) : State :=
  match n with
  | none => s
  | some n => { s with reqs := s.reqs.map (fun x => if x.id == n then (if x.stage == 0 then { x with reached := max x.reached t, eligible := max x.eligible t } else { x with due := max x.due t }) else x) }

/-- The cycle a request's row reaches its point or lands in. -/
def State.linkDue (s : State) (n : Option Nat) : Nat :=
  match n.bind (fun n => s.reqs.find? (fun x => x.id == n)) with
  | none => s.now
  | some x => max s.now (if x.stage == 0 then x.reached else x.due)

/-- A row taken in: its corrected words counted (01 R20), and a replay asked for where a word is uncorrectable, which takes 40 cycles (R21). -/
def State.linkTake (s : State) (sel p : Nat) (c : LinkClass) (r : LinkRow) : State × Bool :=
  let cnt := linkReg .LINK_ERR_CNT sel p
  let s := s.tally cnt LINK_ERR_CNT.CORR (rowCorrected r)
  if rowUncorrectable r s.fresh then
    let s := { s with fresh := s.fresh + 1, replays := s.replays ++ [(⟨sel, p, c, r.request, []⟩ : Replay)] }.tally cnt LINK_ERR_CNT.REPLAY 1
    ((s.linkLate r.request (s.linkDue r.request + 40)).setFld (linkReg .LINK_STATUS sel p) LINK_STATUS.REPLAYING 1, false)
  else (s.linkDeliver sel p c r false, true)

/-- A row as an injection armed for the receiver makes it, and the state after the injection fires (19 R653). -/
def State.linkSeen (s : State) (sel p : Nat) (r : LinkRow) : State × LinkRow :=
  match s.inject with
  | some i => if i.link == some (sel, p) then (s.fired, { r with errs := (List.range 16).map (fun w => r.errs.getD w 0 + (if w == i.word then i.syms.length else 0)) }) else (s, r)
  | none => (s, r)

/-- LINK_ROW_RECEIVE (01 R19-R21, R23): a row of a class that waits for a replay is held back behind it, and one of a class whose buffer is full is not sent. -/
def execLinkRowReceive (e : LinkEnd) (cls : LinkClass) (r : LinkRow) (s : State) : Host.Outcome State Fault Refusal := s.live fun s =>
  let sel := e.sel.val
  let p := e.port.val
  if !linkPort sel p || s.fld (linkReg .LINK_STATUS sel p) LINK_STATUS.UP == 0 || s.linkFull sel p cls then .next s
  else
    let i := s.linkSeen sel p r
    match i.1.replayOf sel p cls with
    | some x => .next ({ i.1 with replays := i.1.replays.map (fun y => if y == x then { y with held := y.held ++ [i.2] } else y) }.linkLate r.request (i.1.linkDue x.request))
    | none => .next (i.1.linkTake sel p cls i.2).1

/-- Rows held back behind a replay delivered in their order, until one needs a replay of its own (01 R21). DESIGN CHOICE (log 20): the words of a held row are checked, corrected and counted when it is delivered; the manual does not say whether that is so or they are on receipt. -/
def State.linkHeldRows (s : State) (sel p : Nat) (c : LinkClass) : List LinkRow → State
  | [] => s
  | r :: t =>
    let x := s.linkTake sel p c r
    if x.2 then x.1.linkHeldRows sel p c t
    else { x.1 with replays := x.1.replays.map (fun y => if y.sel == sel && y.port == p && y.cls == c then { y with held := t } else y) }

/-- LINK_REPLAY (01 R21): the replayed row of the oldest replay; uncorrectable again, it is delivered poisoned. -/
def execLinkReplay (e : LinkEnd) (r : LinkRow) (s : State) : Host.Outcome State Fault Refusal := s.live fun s =>
  let sel := e.sel.val
  let p := e.port.val
  match s.replays.find? (fun x => x.sel == sel && x.port == p) with
  | none => .next s
  | some x =>
    let cnt := linkReg .LINK_ERR_CNT sel p
    let s := { s with replays := s.replays.erase x }
    let s := s.tally cnt LINK_ERR_CNT.CORR (rowCorrected r)
    let bad := rowUncorrectable r s.fresh
    let s := if bad then ({ s with fresh := s.fresh + 1 }).tally cnt LINK_ERR_CNT.UNCORR 1 else s
    let s := (s.linkDeliver sel p x.cls { r with request := x.request } bad).linkHeldRows sel p x.cls x.held
    .next (if s.replays.any (fun y => y.sel == sel && y.port == p) then s else s.setFld (linkReg .LINK_STATUS sel p) LINK_STATUS.REPLAYING 0)

/-- A write to LINK_ERR_CLR (01 R27). -/
def State.linkErrClr (s : State) (sel p v : Nat) : State × Status :=
  if linkPort sel p && bitAt v 0 then (s.clearReg (linkReg .LINK_ERR_CNT sel p), .ok) else (s, .ok)

end Sys2Proof.Machine
end

