-- ==== Sys2Proof/Machine/FabricRx.lean ====
section
/-! DEFINITION. The peer fabric: ports and their training, packets received, forwarded and acknowledged, failures and resynchronisation, and the fabric's registers (11 R406-R440, 17 R605-R608). -/
namespace Sys2Proof.Machine

/-! Ports (11 R407-R411, 14 R505-R508). -/

/-- The configuration, status and error registers of an Ethernet port. -/
def portRegs : EthPort → Reg × Reg × Reg
  | .peer q => (peerPort .PEER_PORT_CFG q.val, peerPort .PEER_PORT_STATUS q.val, peerPort .PEER_PORT_ERR q.val)
  | .host h => (⟨.HP_CFG, selIo h.val, 0, 0⟩, ⟨.HP_STATUS, selIo h.val, 0, 0⟩, ⟨.HP_ERR, selIo h.val, 0, 0⟩)

/-- The key of a port in `training`. -/
def portKey : EthPort → Nat
  | .peer q => q.val
  | .host h => 16 + h.val

/-- START_STATUS (17 R603). -/
def startStatus : Reg := ⟨.START_STATUS, selSv0, 0, 0⟩
/-- STAGE of START_STATUS. -/
def State.stage (s : State) : Nat := s.fld startStatus START_STATUS.STAGE

/-- Whether the unit is in minimal mode (17 R591, R603). -/
def State.minimal (s : State) : Bool := s.fld startStatus START_STATUS.MODE != 0

/-- MODE of a port: the same code for both kinds (11 R408, 14 R508); H0 trains under AUTO in minimal mode (14 R507). -/
def State.portMode (s : State) (p : EthPort) : Nat :=
  match p with
  | .peer _ => s.fld (portRegs p).1 PEER_PORT_CFG.MODE
  | .host h => if h == 0 && s.minimal then 0 else s.fld (portRegs p).1 HP_CFG.MODE

/-- Whether a port may train (11 R408, 14 R507, R508): in minimal mode H0 alone (17 R593), and none before the start completes (17 R587). -/
def State.portEnabled (s : State) (p : EthPort) : Bool :=
  if s.minimal then p == .host 0
  else s.stage == 9 && s.portMode p != 4 && (match p with | .peer _ => s.fld (portRegs p).1 PEER_PORT_CFG.ENABLE == 1 | .host _ => s.fld (portRegs p).1 HP_CFG.ENABLE == 1)

/-- Whether a port is UP; the fields of both status registers lie alike (14 R508). -/
def State.portUp (s : State) (p : EthPort) : Bool := s.fld (portRegs p).2.1 PEER_PORT_STATUS.UP == 1

/-- The I/O die of a port. -/
def portDie : EthPort → Nat
  | .peer q => q.val / 4
  | .host h => h.val

/-- A change of UP or DEGRADED of a peer port raises its I/O die's source (13 R494). -/
def State.portChanged (s : State) (p : EthPort) : State :=
  match p with
  | .peer _ => s.raise 4 (8 + portDie p)
  | .host _ => s

/-- UP, DEGRADED, SPEED and LANES of a port set; the source is raised where UP or DEGRADED changes. -/
def State.setPort (s : State) (p : EthPort) (up degraded : Bool) (speed lanes : Nat) : State :=
  let r := (portRegs p).2.1
  let changed := s.portUp p != up || s.fld r PEER_PORT_STATUS.DEGRADED != flag degraded
  let s := (((s.setFld r PEER_PORT_STATUS.UP (flag up)).setFld r PEER_PORT_STATUS.DEGRADED (flag degraded)).setFld r PEER_PORT_STATUS.SPEED speed).setFld r PEER_PORT_STATUS.LANES lanes
  if changed then s.portChanged p else s

/-- FEC codewords that a port met with a frame, counted (11 R411, 14 R508), and those of the last millisecond noted (11 R409). -/
def State.fecCount (s : State) (p : EthPort) (corr uncorr : Nat) : State :=
  if corr == 0 && uncorr == 0 then s
  else
    let s := (s.tally (portRegs p).2.2 PEER_PORT_ERR.FEC_CORR corr).tally (portRegs p).2.2 PEER_PORT_ERR.FEC_UNCORR uncorr
    if uncorr == 0 then s
    else { s with fecRecent := tset s.fecRecent (portKey p) ((tget [] s.fecRecent (portKey p)).filter (fun x => s.now < x.1 + ms 1) ++ [(s.now, uncorr)]) }

/-- Whether FEC_UNCORR has risen by 64 or more within 1 ms (11 R409). -/
def State.fecSurge (s : State) (p : EthPort) : Bool := 64 ≤ (((tget [] s.fecRecent (portKey p)).filter (fun x => s.now < x.1 + ms 1)).map (·.2)).sum

/-- PORT_RETRAIN (11 R409): an UP port of which a lane has lost lock, or whose FEC_UNCORR surges, goes down to train again; under AUTO it excludes the failed lanes. Packets queued for it leave by another usable port of the direction. -/
def execPortRetrain (p : EthPort) (failed : BitVec 4) (s : State) : Host.Outcome State Fault Refusal := s.live fun s =>
  if !s.portUp p || (failed == 0#4 && !s.fecSurge p) then .next s
  else
    let s := s.setPort p false (s.portMode p == 0 && failed != 0#4) 0 0
    let s := s.bump (portRegs p).2.1 PEER_PORT_STATUS.RETRAINS 1
    let x : Training := ⟨if s.portMode p == 0 then failed.toNat else 0, some (s.now + ms 200)⟩
    .next ({ s with training := tset s.training (portKey p) x, fecRecent := tdel s.fecRecent (portKey p) } : State).drainEgress

/-- The rates in the order in which AUTO tries them (11 R409, R410): SPEED and LANES. -/
def rateOrder : List (Nat × Nat) := [(3, 15), (1, 3), (1, 12), (2, 15)]

/-- The first rate of those MODE allows that the partner and the working lanes allow, with lanes excluded (11 R408, R409): SPEED and LANES. `best`: the highest rate of the partner, who takes those after it too (DESIGN CHOICE, log 20). -/
def trainRate (mode excluded best working : Nat) : Option (Nat × Nat) :=
  ((rateOrder.dropWhile (fun r => r.1 != best)).filter (fun r => mode == 0 || (mode == 1 && r.1 == 3) || (mode == 2 && r.1 == 1) || (mode == 3 && r.1 == 2))).find? (fun r => r.2 &&& (working &&& (15 - excluded)) == r.2)

/-- Lanes MODE asks for. -/
def modeLanes (mode : Nat) : Nat := if mode == 2 then 2 else 4

/-- PORT_TRAIN_END (11 R409, R410): the port is UP at the highest rate that the partner and its working lanes allow, DEGRADED with fewer lanes than MODE asks, or down; down when a retrain has taken 200 ms. A link just trained starts with every credit (11 R425). -/
def execPortTrainEnd (p : EthPort) (lanes : BitVec 4) (speed : Fin 4) (s : State) : Host.Outcome State Fault Refusal := s.live fun s =>
  match tget? s.training (portKey p) with
  | none => .next s
  | some x =>
    let s := { s with training := tdel s.training (portKey p), adverts := tdel s.adverts (portKey p) }
    match (if s.portEnabled p && x.due.all (fun d => s.now ≤ d) then trainRate (s.portMode p) x.excluded speed.val lanes.toNat else none) with
    | none => .next (s.setPort p false false 0 0).drainEgress
    | some r =>
      let n := (if r.1 == 1 then 2 else 4)
      let s := s.setPort p true (n < modeLanes (s.portMode p)) r.1 r.2
      match p with
      | .peer q =>
        let mine := fun (x : Nat × Nat) => x.1 / 32 != q.val
        .next ({ s with spent := s.spent.filter mine, freed := s.freed.filter mine }).drainEgress
      | .host _ => .next s

/-- AUTO_NEGOTIATION (11 R409): a down, enabled port starts to train. -/
def execAutoNegotiation (p : EthPort) (s : State) : Host.Outcome State Fault Refusal := s.live fun s =>
  if s.portUp p || !s.portEnabled p || (tget? s.training (portKey p)).isSome then .next s
  else .next { s with training := tset s.training (portKey p) ⟨0, none⟩ }

/-- Retrains that have taken 200 ms given up: their ports are down (11 R409). -/
def State.trainingOn (s : State) : State := { s with training := s.training.filter (fun x => x.2.due.all (fun d => s.now ≤ d)) }

/-- Every port but H0 taken down, as minimal mode has it (14 R507, 17 R593). -/
def State.portsDown (s : State) : State :=
  let ps := (List.finRange 16).map EthPort.peer ++ [EthPort.host 1]
  ps.foldl (fun s p => if s.portUp p then s.setPort p false false 0 0 else s) { s with training := s.training.filter (fun x => x.1 == 16) }

/-- A write to PEER_PORT_CLR (11 R411). -/
def State.peerPortClr (s : State) (q v : Nat) : State × Status :=
  if bitAt v 0 then (s.clearReg (peerPort .PEER_PORT_ERR q), .ok) else (s, .ok)

/-! Fabric registers (11 R412-R414, R424, R432, R439). -/

/-- A write to FAB_CFG (11 R412): the other fields only while ENABLE is 0; ENABLE only when the unit's own FAB_COORD entry is VALID. Packets that waited for ENABLE then leave. -/
def State.fabCfgWrite (s : State) (a : Actor) (v : Nat) : State × Status :=
  let old := (s.reg fabCfg).toNat
  let rest := [FAB_CFG.UDP_PORT, FAB_CFG.WRAP, FAB_CFG.EXT_Z_M1, FAB_CFG.EXT_Y_M1, FAB_CFG.EXT_X_M1]
  let on := s.fld fabCfg FAB_CFG.ENABLE == 1
  let want := bitAt v FAB_CFG.ENABLE.lo
  let write := fun v => let r := s.plainWrite a fabCfg v; (if !on && r.1.fabOn then r.1.drainEgress else r.1, r.2)
  if on then
    if isDcp a && changes old v rest then (s, .state) else write (keepFields old v rest)
  else if want && !s.member s.self then
    if isDcp a then (s, .state) else write (setBit v FAB_CFG.ENABLE.lo false)
  else write v

/-- VALID entries of FAB_COORD. -/
def State.coordCount (s : State) : Nat :=
  let base := (fabCoord 0).addr
  (s.regs.filter (fun p => base ≤ p.1 && p.1 < base + 8 * 65536 && bitAt p.2.toNat FAB_COORD.VALID.lo)).length

/-- A write to a FAB_COORD entry (11 R414). -/
def State.fabCoordWrite (s : State) (a : Actor) (u v : Nat) : State × Status :=
  let x := bits v FAB_COORD.X.hi FAB_COORD.X.lo
  let y := bits v FAB_COORD.Y.hi FAB_COORD.Y.lo
  let z := bits v FAB_COORD.Z.hi FAB_COORD.Z.lo
  if u == 0 || u == 0xFFFF then (s, .ok)
  else if s.extent 0 ≤ x || s.extent 1 ≤ y || s.extent 2 ≤ z then (s, .range)
  else if u == s.self && s.fld fabCfg FAB_CFG.ENABLE == 1 then (s, .state)
  else if bitAt v FAB_COORD.VALID.lo && s.fld (fabCoord u) FAB_COORD.VALID == 0 && 4096 ≤ s.coordCount then (s, .noResource)
  else s.plainWrite a (fabCoord u) v

/-- A write to FAB_VC (11 R424). -/
def State.fabVcWrite (s : State) (a : Actor) (vc v : Nat) : State × Status :=
  let sum := (List.range 8).foldl (fun n i => n + (if i == vc then bits v FAB_VC.CELLS.hi FAB_VC.CELLS.lo else s.fld (fabVc i) FAB_VC.CELLS)) 0
  if s.fld fabCfg FAB_CFG.ENABLE == 1 then (s, .state)
  else if 4096 < sum then (s, .range)
  else s.plainWrite a (fabVc vc) v

/-- A write to FAB_STAT_CLR (11 R432). -/
def State.fabStatClr (s : State) (v : Nat) : State × Status := if bitAt v 0 then (s.clearReg fabStat, .ok) else (s, .ok)

/-- PEER_SIG[k] of CDd (11 R439). -/
def peerSig (d k : Nat) : Reg := ⟨.PEER_SIG, selCd d, k, 0⟩

/-- The status a PEER_SIG entry written VALID is refused with (11 R439). -/
def State.sigCheck (s : State) (d w : Nat) : Option Status :=
  let f := fun (x : Fld) => bits w x.hi x.lo
  let core := f PEER_SIG.CORE
  firstFail
    [ need (s.exposed d core) .engineAbsent
    , need (f PEER_SIG.ROW < 786432 && s.inPartition d (f PEER_SIG.ROW) 1 (f PEER_SIG.LEASE) && s.boundTo (coreKey d core) (f PEER_SIG.LEASE)) .range ]

/-- A write to PEER_SIG (11 R439): LEASE by management firmware only. -/
def State.peerSigWrite (s : State) (a : Actor) (d k v : Nat) : State × Status :=
  let r := peerSig d k
  let old := (s.reg r).toNat
  let fixed := if a == .firmware then [] else [PEER_SIG.LEASE]
  if !s.exposed d (bits v PEER_SIG.CORE.hi PEER_SIG.CORE.lo) then (s, .engineAbsent)
  else if (actorLease a).isSome && actorLease a != some (s.fld r PEER_SIG.LEASE) then (s, .range)
  else if isDcp a && changes old v fixed then (s, .range)
  else
    let w := keepFields old v fixed
    match (if bitAt w PEER_SIG.VALID.lo then s.sigCheck d w else none) with
    | some st => if isDcp a then (s, st) else s.plainWrite a r (setBit w PEER_SIG.VALID.lo false)
    | none => s.plainWrite a r w

/-! Acknowledgements (11 R428, R429). -/

/-- How far number `b` lies after number `a` modulo 2^32. -/
def seqAfter (a b : Nat) : Nat := (b + 2 ^ 32 - a % 2 ^ 32) % 2 ^ 32

/-- Whether a cumulative number and a SACK bitmap acknowledge a packet: ACK is the next number expected (11 R420). -/
def ackCovers (ack sack seq : Nat) : Bool :=
  let d := seqAfter seq ack
  let u := seqAfter ack seq
  (d != 0 && d < 2 ^ 31) || (1 ≤ u && u ≤ 64 && bitAt sack (u - 1))

/-- Cycles between an I/O die and a compute die inside the unit (11 R438, 16 R565). -/
def State.localPath (s : State) (io d : Nat) : Nat := 20 + s.crossCycles 0 + s.hopCycles 0 * hops io d

/-- The number of the crossing by which a die's I/O-die link brings rows in; those of bridges are below it (19 R645; log 17). -/
def ioLink : Nat := 16

/-- Rows of a channel that an acknowledgement or a READ_DATA brings: they land or count as written after the path inside the unit (11 R436, R438) and its crossings (19 R646; log 17). A row that arrives poisoned ends its kernel with ST_INTEGRITY (07 R279): a packet does not say whether the damage is new. DEDUCED (log 46). -/
def State.bringRow (s : State) (q : Nat) (o : PktRow) (write : Bool) (lease : Nat) (img : RowImg) : State :=
  let r := s.newReq 0 0 write (.chan o.core o.ch o.xfer o.t o.buf o.row) (some lease) none img
  let a := s.cross (q / 4) 12 ioLink (s.now + s.localPath (q / 4) (coreDie o.core))
  let x := a.2.crossingsBack r.owner (q / 4) a.1
  { x.2 with nextId := s.nextId + 1, reqs := s.reqs ++ [{ r with stage := 2, grantedAt := s.now, due := x.1, fresh := img.poison }] }

/-- A packet sent again (11 R429). -/
def State.resend (s : State) (u vc seq : Nat) (fast : Bool) : State :=
  let c := s.conn u vc
  match c.out.find? (fun o => o.pkt.seq == seq) with
  | none => s
  | some o =>
    let s := s.setConn u vc { c with out := c.out.map (fun x => if x.pkt.seq == seq then { x with sent := s.now, tries := x.tries + 1, fast := x.fast || fast } else x) }
    (s.tally fabStat FAB_STAT.RETRANSMITS 1).emit o.pkt

/-- Acknowledged packets of a connection leave; the rows of WRITEs count as written (11 R428, R436). -/
def State.acked (s : State) (q u vc ack sack : Nat) : State :=
  let c := s.conn u vc
  let done := c.out.filter (fun o => ackCovers ack sack o.pkt.seq)
  let s := s.setConn u vc { c with out := c.out.filter (fun o => !ackCovers ack sack o.pkt.seq) }
  let s := done.foldl (fun s o => if o.pkt.type == 1 then o.rows.foldl (fun s r => s.bringRow q r true o.pkt.lease.val ⟨[], false⟩) s else s) s
  s.sendWaiting

/-- Packets that a SACK shows passed by eight later ones, sent again at once the first time (11 R429). -/
def State.fastResend (s : State) (u vc ack sack : Nat) : State :=
  let late := (s.conn u vc).out.filter (fun o => !o.fast && 8 ≤ ((List.range 64).filter (fun i => bitAt sack i && seqAfter o.pkt.seq (ack + 1 + i) != 0 && seqAfter o.pkt.seq (ack + 1 + i) < 2 ^ 31)).length)
  late.foldl (fun s o => s.resend u vc o.pkt.seq true) s

/-- Whether number `a` lies before number `b` modulo 2^32. -/
def seqBefore (a b : Nat) : Bool := seqAfter a b != 0 && seqAfter a b < 2 ^ 31

/-- The numbers of a connection's WRITEs that are received and whose rows are still to be performed (11 R428). -/
def State.unperformed (s : State) (u vc : Nat) : List Nat :=
  (s.peerDue.filter (fun d => d.pkt.type == 1 && d.pkt.src.toNat == u && d.pkt.vc.val == vc && d.pkt.epoch == (s.conn u vc).epoch)).map (fun d => d.pkt.seq)

/-- What a connection acknowledges (11 R420, R428): the number up to which every packet is received and every WRITE performed, and the bitmap of those after it that are. -/
def Conn.acks (c : Conn) (open' : List Nat) : Nat × Nat :=
  let ack := open'.foldl (fun m n => if seqBefore n m then n else m) c.expected
  let has := fun (n : Nat) => (c.got.contains n || seqBefore n c.expected) && !open'.contains n
  (ack, (List.range 64).foldl (fun m i => if has ((ack + 1 + i) % 2 ^ 32) then m + 2 ^ i else m) 0)

/-- An ACK packet for a connection (11 R420, R428). It carries the lease of the packet that it answers. -/
def State.sendAck (s : State) (p : DftPacket) : State :=
  let u := p.src.toNat
  let a := (s.conn u p.vc.val).acks (s.unperformed u p.vc.val)
  s.emit { s.packet 4 p.vc.val u p.lease.val with ackv := true, ack := a.1, addr := BitVec.ofNat 64 a.2 }

/-- Whether a packet is a WRITE that is acknowledged only later, once its rows are performed (11 R428). -/
def State.ackLater (s : State) (p : DftPacket) : Bool := p.type == 1 && s.peerDue.any (fun d => d.pkt == p)

/-! Reception (11 R422, R425, R427). -/

/-- Whether a packet is of link scope (17 R606): a management packet for unit 0. -/
def linkScope (p : DftPacket) : Bool := p.type == 8 && p.dst == 0#16 && p.vc.val == 0

/-- Whether the fields of a header that R420 leaves no use hold zero (11 R420, R422). -/
def headerZeros (p : DftPacket) : Bool :=
  p.frame.resv == 0 && (!(p.type == 1 || p.type == 2 || p.type == 3) || bits p.addr.toNat 63 48 == 0) && (sequenced p.type || p.seq == 0) && (p.type == 5 || p.status == .ok)

/-- Whether a frame passes the checks of 11 R422: FCS and UDP checksum, no tag and no extension header, the UDP ports, a length that agrees with ROWS, VER and TYPE, and the reserved fields. -/
def State.frameOk (s : State) (p : DftPacket) : Bool :=
  let f := p.frame
  f.fcsOk && (match f.sum with | .formed => true | .given v => v == udpSum p) && f.tags == 0 && f.extensions == 0 && f.srcPort == s.dftPort && f.dstPort == s.dftPort && f.trail == 0 &&
    p.rows ≤ 8 && (if p.type == 2 then 1 ≤ p.rows && p.pay.isEmpty else p.rows == p.pay.length) && p.ver == 1 && 1 ≤ p.type && p.type ≤ 8 && headerZeros p

/-- Credits returned in a frame (11 R420, R425). -/
def State.creditIn (s : State) (q credit : Nat) : State :=
  let n := bits credit 10 0
  if n == 0 then s
  else
    let k := creditKey q (bits credit 15 13) (bits credit 12 11)
    ({ s with spent := tset s.spent k (tget 0 s.spent k - n) }).drainEgress

/-- The cells of a packet that this unit takes no further freed; a CREDIT packet holds none (11 R425). -/
def State.freePkt (s : State) (q : Nat) (p : DftPacket) : State := if p.type == 6 then s else s.freeCells q p.vc.val (pktClass p) (pktCells p)

/-- A frame received at a port (11 R411, R422, R425, 15 R557): its codewords counted, and it is discarded, or its bytes charged and its credits taken; none where the frame goes no further. DESIGN CHOICE (log 20): one that may not use the fabric (R412) gives up its cells and has no other effect. -/
def State.frameIn (s : State) (q : Fin 16) (p : DftPacket) : State × Bool :=
  let s := s.fecCount (.peer q) p.fecCorr p.fecUncorr
  let q := q.val
  if !s.frameOk p then (s.tally (peerPort .PEER_PORT_ERR q) PEER_PORT_ERR.DISCARDS 1, false)
  else
    let s := if pktCharged p then s.charge p.lease.val (28 + q) (frameBytes p) else s
    let s := s.creditIn q p.credit
    if !linkScope p && !s.member p.src.toNat then ((s.tally fabStat FAB_STAT.UNKNOWN_SRC 1).freePkt q p, false)
    else if p.type != 6 && !s.carries p then (s.freePkt q p, false)
    else (s, true)

/-- Whether a sequenced packet's number is new to its connection, and the connection after it: within 1,024 above the next expected, not seen before (11 R427). -/
def Conn.receive (c : Conn) (seq : Nat) : Option Conn :=
  let d := seqAfter c.expected seq
  if 1024 < d || c.got.contains seq then none
  else
    let got := c.got ++ [seq]
    let run := iter 1025 (fun _ (x : Nat × List Nat) => if x.2.contains x.1 then ((x.1 + 1) % 2 ^ 32, x.2.filter (· != x.1)) else x) (c.expected, got)
    some { c with expected := run.1, got := run.2 }

/-- A packet taken by this unit (11 R415, R425, R427-R431): cells freed, an older epoch dropped, a reverse acknowledgement taken, its number recorded. The flag says whether its contents are to be acted on. -/
def State.takeIn (s : State) (q : Nat) (p : DftPacket) : State × Bool :=
  let u := p.src.toNat
  let vc := p.vc.val
  let s := s.freePkt q p
  if p.type == 6 then (s, true)
  else if p.epoch != (s.conn u vc).epoch then (s, false)
  else
    let s := if p.ackv then s.acked q u vc p.ack (if p.type == 4 then p.addr.toNat else 0) else s
    if !sequenced p.type then (s, true)
    else match (s.conn u vc).receive p.seq with
      | none => (s.sendAck p, false)
      | some c => (s.setConn u vc c, true)

/-- A packet of a type for this unit received at a port: `act` gives its effect, after which the packet is acknowledged, a WRITE once its rows are performed (11 R428). A port that is not UP receives nothing, and a packet of another type or unit is none of this command. -/
def State.receive (s : State) (q : Fin 16) (p : DftPacket) (type : Nat) (act : State → State) : State :=
  if !s.portUp (.peer q) then s
  else if s.frameOk p && (p.type != type || (p.dst.toNat != s.self && type != 6)) then s
  else
    let f := s.frameIn q p
    if !f.2 then f.1
    else
      let t := f.1.takeIn q.val p
      if !t.2 then t.1
      else
        let s := act t.1
        if sequenced p.type && !s.ackLater p then s.sendAck p else s

/-- The rows a packet's access names, or the status it is refused with (11 R433): every row is checked before any is performed, and core memory and registers are not to be reached from another unit (01 R36). -/
def State.remoteRows (s : State) (p : DftPacket) : Except Status (List Nat) :=
  let addrs := (List.range p.rows).map (fun i => p.addr.toNat + 512 * i)
  match addrs.findSome? (fun a => if 2 < bits a 47 44 then some Status.range else match s.find (some p.lease.val) a with | .error e => some e | .ok _ => none) with
  | some st => .error st
  | none => .ok (addrs.filterMap s.rowAt)

/-- A response to a packet on the reverse connection (11 R428, R433). -/
def State.respond (s : State) (p : DftPacket) (type : Nat) (st : Status) (pay : List PayRow) : State :=
  s.sendPkt { s.packet type p.vc.val p.src.toNat p.lease.val with rows := pay.length, addr := if type == 3 then p.addr else 0, tag := p.tag, status := st, pay := pay } []

/-- Signal rows: each VALID entry of a die for a row written by another unit with its lease sets its flag (11 R440). -/
def State.signals (s : State) (row lease : Nat) : State :=
  let b := row / 2 ^ 31
  if b < 24 || 28 ≤ b then s
  else
    let d := b - 24
    let base := (peerSig d 0).addr
    let hits := s.regs.filter (fun p => base ≤ p.1 && p.1 < base + 8 * 1024 && bitAt p.2.toNat PEER_SIG.VALID.lo && bits p.2.toNat PEER_SIG.LEASE.hi PEER_SIG.LEASE.lo == lease &&
      bits p.2.toNat PEER_SIG.ROW.hi PEER_SIG.ROW.lo == row % 2 ^ 31)
    hits.foldl (fun s p => s.landFlag (coreKey d (bits p.2.toNat PEER_SIG.CORE.hi PEER_SIG.CORE.lo)) (bits p.2.toNat PEER_SIG.FLAG.hi PEER_SIG.FLAG.lo)) s

/-- The engine that the accesses of a packet are requests of: they carry no deadline (06 R253). -/
def peerAgent (q : Nat) (p : DftPacket) : Agent := ⟨.peer, q / 4, q, some p.lease.val, none, false⟩

/-- The rows of a packet for this unit asked for, once every one of them may be reached; else a NAK with the status (11 R433). The packet is answered when the requests of its rows have been performed (R428). -/
def State.remoteRun (s : State) (q : Nat) (p : DftPacket) (ask : State → List Nat → State) : State :=
  match s.remoteRows p with
  | .error st => s.respond p 5 st []
  | .ok rows =>
    let t := ask s rows
    { t with peerDue := t.peerDue ++ [⟨q, p, s.nextId, t.nextId, rows⟩] }

/-- The rows of a WRITE for this unit written (11 R433). -/
def State.remoteWrite (s : State) (q : Nat) (p : DftPacket) : State :=
  s.remoteRun q p (fun s rows => (rows.zip p.pay).foldl (fun s x => s.bookWrite (peerAgent q p) x.1 0 ⟨x.2.bytes, x.2.poison⟩) s)

/-- DFT_WRITE (11 R428, R433, R437, R440). -/
def execDftWrite (q : Fin 16) (p : DftPacket) (s : State) : Host.Outcome State Fault Refusal := s.live fun s => .next (s.receive q p 1 (fun s => s.remoteWrite q.val p))

/-- The rows of a READ for this unit read (11 R433). -/
def State.remoteRead (s : State) (q : Nat) (p : DftPacket) : State :=
  s.remoteRun q p (fun s rows => rows.foldl (fun s row => s.bookFor (peerAgent q p) row) s)

/-- The requests of an access of another unit. -/
def State.peerReqs (s : State) (d : PeerDue) : List MemReq := (s.reqs.filter (fun r => r.owner.kind == some .peer && d.lo ≤ r.id && r.id < d.hi)).foldl (fun l r => l.takeWhile (fun x => x.id < r.id) ++ r :: l.dropWhile (fun x => x.id < r.id)) []

/-- An access of another unit performed (11 R428, R431, R433): the flags of signal rows it wrote are set (R440); the rows of a READ are returned; a WRITE is acknowledged, and a NAK says that a row of it was delivered poisoned by a link inside the unit (01 R21); one of an epoch that has ended since is answered no more. -/
def State.peerDone (s : State) (d : PeerDue) : State :=
  let l := s.peerReqs d
  let s := { s with reqs := s.reqs.filter (fun r => !l.contains r) }
  let s := if d.pkt.type == 1 then d.rows.foldl (fun s row => s.signals row d.pkt.lease.val) s else s
  if d.pkt.epoch != (s.conn d.pkt.src.toNat d.pkt.vc.val).epoch then s
  else if d.pkt.type == 1 then (let s := s.sendAck d.pkt; if l.any (·.fresh) then s.respond d.pkt 5 .integrity [] else s)
  else s.respond d.pkt 3 .ok (l.map (fun r => ⟨r.img.bytes, r.img.poison⟩))

/-- Accesses of other units whose requests have all been performed, answered (11 R428). -/
def State.peersOn (s : State) : State :=
  let done := s.peerDue.filter (fun d => (s.peerReqs d).all (fun r => r.stage == 2 && r.due ≤ s.now))
  if done.isEmpty then s else done.foldl State.peerDone { s with peerDue := s.peerDue.filter (fun d => !done.contains d) }

/-- DFT_READ (11 R433, R437). -/
def execDftRead (q : Fin 16) (p : DftPacket) (s : State) : Host.Outcome State Fault Refusal := s.live fun s => .next (s.receive q p 2 (fun s => s.remoteRead q.val p))

/-- The rows of a READ_DATA brought to the channels whose READ it answers (11 R433, R436). -/
def State.takeData (s : State) (q : Nat) (p : DftPacket) : State :=
  let u := p.src.toNat
  let c := s.conn u p.vc.val
  match c.reads.find? (fun w => w.tag == p.tag) with
  | none => s
  | some w =>
    let s := s.setConn u p.vc.val { c with reads := c.reads.erase w }
    (w.rows.zip p.pay).foldl (fun s x => s.bringRow q x.1 false p.lease.val ⟨x.2.bytes, x.2.poison⟩) s

/-- READ_DATA (11 R437, R438): the rows of the request with its tag land after the path inside the unit. -/
def execReadData (q : Fin 16) (p : DftPacket) (s : State) : Host.Outcome State Fault Refusal := s.live fun s => .next (s.receive q p 3 (fun s => s.takeData q.val p))

/-- The operation of a channel row ends with a status: its kernel, as a refused push ends it (11 R431, R433, 06 R241). -/
def State.rowFailed (s : State) (o : PktRow) (st : Status) : State :=
  match ((s.core o.core).chan o.ch).cur with
  | some x => if x.id == o.xfer then s.refuse o.core st x.bundle (6 + o.ch / 8) else s
  | none => s

/-- A NAK ends the operation of the request with its TAG (11 R433). -/
def State.takeNak (s : State) (p : DftPacket) : State :=
  let u := p.src.toNat
  let c := s.conn u p.vc.val
  let s := s.setConn u p.vc.val { c with reads := c.reads.filter (fun w => w.tag != p.tag) }
  match tget? c.tagOf p.tag with
  | some o => s.rowFailed o p.status
  | none => s

/-- NAK (11 R433): the channel that made the request stops and its kernel ends with the carried status. -/
def execNak (q : Fin 16) (p : DftPacket) (s : State) : Host.Outcome State Fault Refusal := s.live fun s => .next (s.receive q p 5 (fun s => s.takeNak p))

/-- ACK (11 R428, R429). -/
def execAck (q : Fin 16) (p : DftPacket) (s : State) : Host.Outcome State Fault Refusal := s.live fun s =>
  .next (s.receive q p 4 (fun s => if p.ackv then s.fastResend p.src.toNat p.vc.val p.ack p.addr.toNat else s))

/-- CREDIT (11 R425): the credits of its CREDIT field are taken like those of any frame. -/
def execCredit (q : Fin 16) (p : DftPacket) (s : State) : Host.Outcome State Fault Refusal := s.live fun s =>
  .next (s.receive q p 6 id)

/-- A packet sent on in a direction, its hop limit lowered (11 R415, R417). -/
def State.forward (s : State) (q : Nat) (p : DftPacket) (dir : Nat) : State :=
  let came := s.fld (peerPort .PEER_PORT_CFG q) PEER_PORT_CFG.DIR
  let line := came / 2 == dir / 2 && (p.dateline || s.cameOverDateline q)
  let e : Egress := ⟨dir, none, { p with hop := p.hop - 1, dateline := line, credit := 0 }, some (q, p.vc.val * 4 + pktClass p, pktCells p)⟩
  ({ s with egress := s.egress ++ [e] } : State).drainEgress

/-- PACKET_FORWARD (11 R415, R417, R418, R425): a packet for another unit goes on by its route, or is dropped at hop limit 0. -/
def execPacketForward (q : Fin 16) (p : DftPacket) (s : State) : Host.Outcome State Fault Refusal := s.live fun s =>
  if !s.portUp (.peer q) || (s.frameOk p && (p.dst.toNat == s.self || linkScope p)) then .next s
  else
    let f := s.frameIn q p
    if !f.2 then .next f.1
    else if p.hop ≤ 1 then .next ((f.1.tally fabStat FAB_STAT.ROUTE_DROP 1).freeCells q.val p.vc.val (pktClass p) (pktCells p))
    else match (if f.1.member p.dst.toNat then f.1.route p.dst.toNat else none) with
      | none => .next (f.1.freeCells q.val p.vc.val (pktClass p) (pktCells p))
      | some dir => .next (f.1.forward q.val p dir)

/-- Whether a receiver withholds the credits of a channel now (19 R648). -/
def State.creditsHeld (s : State) (q vc : Nat) : Bool :=
  let r : Reg := ⟨.PERT_CREDIT, selIo (q / 4), q % 4, 0⟩
  vc != 0 && holding s.now (s.pert r PERT_CREDIT.PERIOD) (s.pert r PERT_CREDIT.HOLD) (s.pert r PERT_CREDIT.MASK) vc

/-- A CREDIT packet put on a port's link for cells freed there; it holds no cells itself (11 R425). -/
def State.returnCells (s : State) (q vc cls : Nat) : State :=
  let k := creditKey q vc cls
  let n := tget 0 s.freed k
  if n == 0 || !s.portUp (.peer (Fin.ofNat 16 q)) then s
  else
    let m := Nat.min n 2047
    let p := { s.packet 6 vc (s.fld (peerPort .PEER_PORT_STATUS q) PEER_PORT_STATUS.PARTNER) 0 with credit := vc * 2 ^ 13 + cls * 2 ^ 11 + m }
    { s with freed := tset s.freed k (n - m), wire := tset s.wire q p }

/-- CREDIT_RETURN (11 R425). -/
def execCreditReturn (q : Fin 16) (vc : Fin 8) (cls : Fin 4) (s : State) : Host.Outcome State Fault Refusal := s.live fun s =>
  if s.creditsHeld q.val vc.val then .next s else .next (s.returnCells q.val vc.val cls.val)

/-- CREDIT_HOLD_END (19 R648): every credit freed and withheld is returned. -/
def execCreditHoldEnd (w : CreditHolder) (s : State) : Host.Outcome State Fault Refusal := s.live fun s =>
  match w with
  | .links d => .next { s with linkHeld := s.linkHeld.filter (fun x => x.1 / 16 != d.val) }
  | .peer q =>
    .next ((List.range 32).foldl (fun s k => if s.creditsHeld q.val (k / 4) then s else s.returnCells q.val (k / 4) (k % 4)) s)

/-! Failure and resynchronisation (11 R431, 17 R605, R608). -/

/-- A management payload row (17 R605). -/
def mgmtRow (bytes : List Byte) : PayRow := ⟨padRow bytes, false⟩

/-- A RESYNC or RESYNC_ACK sent on VC0 with SEQ 0 (17 R608). -/
def State.sendResync (s : State) (kind u vc epoch : Nat) : State :=
  s.emit { s.packet 8 0 u 0 with rows := 1, pay := [mgmtRow (leBytes 2 kind ++ leBytes 1 vc ++ leBytes 1 epoch)] }

/-- A connection after a failure (11 R431): its operations end with ST_TIMEOUT, and RESYNC is sent. -/
def State.connFail (s : State) (u vc : Nat) : State :=
  let c := s.conn u vc
  let rows := (c.out.map (·.rows)).flatten ++ (c.reads.map (·.rows)).flatten
  let e := (c.epoch + 1) % 256
  let s := s.setConn u vc { c with out := [], reads := [], resync := some (e, s.now) }
  let s := rows.foldl (fun s o => s.rowFailed o .timeout) s
  let s := (s.tally fabStat FAB_STAT.CONN_FAIL 1).raise 4 1
  (s.sendResync 4 u vc e).sendWaiting

/-- Cycles of a connection's timeout after `tries` retransmissions (11 R429, R430). -/
def State.rto (s : State) (tries : Nat) : Nat := s.fld fabTmo FAB_TMO.RTO_US * 1100 * 2 ^ tries

/-- RETRANSMIT_TIMEOUT (11 R429, R431). -/
def State.retransmitTimeout (s : State) (u vc seq : Nat) (fail : State → State) : State :=
  match (s.conn u vc).out.find? (fun o => o.pkt.seq == seq) with
  | none => s
  | some o =>
    if s.now < o.sent + s.rto o.tries then s
    else if s.fld fabTmo FAB_TMO.RETRY ≤ o.tries then fail s
    else s.resend u vc seq false

/-- Both directions of a connection reset to sequence number 0 at an epoch; packets not yet acknowledged are sent again under the new numbers (11 R431, 17 R608). A READ that was acknowledged has lost its data with the old epoch: its operation ends with ST_TIMEOUT (11 R456). -/
def State.connReset (s : State) (u vc epoch : Nat) : State :=
  let c := s.conn u vc
  let again := c.out.map (fun o => (o.pkt, o.rows))
  let lost := c.reads.filter (fun w => !c.out.any (fun o => o.pkt.type == 2 && o.pkt.tag == w.tag))
  let s := s.setConn u vc { Conn.fresh with epoch := epoch, waiting := again ++ c.waiting, tags := c.tags, tagOf := c.tagOf }
  let s := (lost.flatMap (·.rows)).foldl (fun s o => s.rowFailed o .timeout) s
  s.sendWaiting

/-- VC and NEW_EPOCH of a resynchronisation payload (17 R605). -/
def resyncOf (p : DftPacket) : Nat × Nat :=
  let b := ((p.pay.headD ⟨[], false⟩).bytes)
  ((b.getD 2 0#8).toNat % 8, (b.getD 3 0#8).toNat)

/-- KIND of a management payload (17 R605). -/
def mgmtKind (p : DftPacket) : Nat := leNat ((p.pay.headD ⟨[], false⟩).bytes.take 2)

/-- A resynchronisation message received: it stands outside the sequence of VC0 (17 R608). -/
def State.mgmtIn (s : State) (q : Fin 16) (p : DftPacket) (kind : Nat) (act : State → State) : State :=
  if !s.portUp (.peer q) then s
  else if s.frameOk p && (p.type != 8 || p.dst.toNat != s.self || linkScope p) then s
  else
    let f := s.frameIn q p
    if !f.2 then f.1
    else
      let k := mgmtKind p
      let t := f.1.freeCells q.val 0 (pktClass p) (pktCells p)
      if k == 0 || 5 < k then t.tally (peerPort .PEER_PORT_ERR q.val) PEER_PORT_ERR.DISCARDS 1
      else if k != kind then s
      else act t

/-- A RESYNC taken: both directions reset where its epoch is new, and answered (11 R431). -/
def State.takeResync (s : State) (p : DftPacket) : State :=
  let u := p.src.toNat
  let r := resyncOf p
  let c := s.conn u r.1
  let s := match c.resync with
    | some (e, t) => if e < r.2 then (s.connReset u r.1 r.2).setConn u r.1 { (s.connReset u r.1 r.2).conn u r.1 with resync := some (e, t) } else s
    | none => if c.epoch == r.2 then s else s.connReset u r.1 r.2
  s.sendResync 5 u r.1 r.2

/-- RESYNC (17 R608): the connection is reset at the new epoch and the message acknowledged; where both ends have sent one, the higher epoch is taken. -/
def execResync (q : Fin 16) (p : DftPacket) (s : State) : Host.Outcome State Fault Refusal := s.live fun s => .next (s.mgmtIn q p 4 (fun s => s.takeResync p))

/-- A RESYNC_ACK taken: the epoch this unit asked for begins (11 R431). -/
def State.takeResyncAck (s : State) (p : DftPacket) : State :=
  let u := p.src.toNat
  let r := resyncOf p
  let c := s.conn u r.1
  match c.resync with
  | none => s
  | some (e, _) =>
    if e != r.2 then s
    else
      let s := s.setConn u r.1 { c with resync := none }
      if c.epoch < e || (c.epoch == 255 && e == 0) then s.connReset u r.1 e else s.sendWaiting

/-- RESYNC_ACK (17 R608): the sender resets both directions, at the higher epoch where the messages crossed. -/
def execResyncAck (q : Fin 16) (p : DftPacket) (s : State) : Host.Outcome State Fault Refusal := s.live fun s => .next (s.mgmtIn q p 5 (fun s => s.takeResyncAck p))

/-- RESYNC_REPEAT (17 R608). -/
def execResyncRepeat (conn : ConnId) (s : State) : Host.Outcome State Fault Refusal := s.live fun s =>
  let u := conn.unit.toNat
  let vc := conn.vc.val
  let c := s.conn u vc
  match c.resync with
  | none => .next s
  | some (e, t) =>
    if s.now < t + s.rto 0 then .next s
    else .next ((s.setConn u vc { c with resync := some (e, s.now) }).sendResync 4 u vc e)

end Sys2Proof.Machine
end

