-- ==== Sys2Proof/Machine/Coll.lean ====
section
/-! DEFINITION. The collective engines of the I/O dies: groups, submission, the ring and tree schedules, packets between members and ends (11 R441-R453). -/
namespace Sys2Proof.Machine

/-- COLL_GROUP[g] of IOd (11 R441). -/
def collGroup (io g : Nat) : Reg := ⟨.COLL_GROUP, selIo io, g, 0⟩
/-- COLL_STATUS of IOd (11 R444). -/
def collStatus (io : Nat) : Reg := ⟨.COLL_STATUS, selIo io, 0, 0⟩

/-- An engine's own state. -/
def State.coll (s : State) (io : Nat) : CollEngine := tget ⟨[], none, []⟩ s.colls io
/-- An engine's own state changed. -/
def State.onColl (s : State) (io : Nat) (f : CollEngine → CollEngine) : State := { s with colls := tset s.colls io (f (s.coll io)) }

/-- The collective engine of an I/O die, for a lease: its requests carry a deadline (06 R253, 11 R453). -/
def collAgent (io : Nat) (lease : Option Nat) : Agent := ⟨.coll, io, io, lease, some 4096, false⟩

/-- Whether a collective engine waits for requests of its own (log 16). -/
def State.collWaits (s : State) (io : Nat) : Bool := s.engineBusy .coll io io

/-- The rows of a block of memory read by a collective engine, and whether one is poisoned (05 R191, 07 R279). -/
def State.collBlock (s : State) (g : Agent) (a n : Nat) : State × Bool :=
  (List.range ((a + n - 1) / 512 + 1 - a / 512)).foldl (fun (p : State × Bool) i => let q := p.1.agentRead g (512 * (a / 512 + i)); (q.1, p.2 || q.2.poison)) (s, false)

/-! Groups (11 R441, R442). -/

/-- The extents of a group word. -/
def groupExt (w : Nat) : Nat × Nat × Nat :=
  (bits w COLL_GROUP.E0_M1.hi COLL_GROUP.E0_M1.lo + 1, bits w COLL_GROUP.E1_M1.hi COLL_GROUP.E1_M1.lo + 1, bits w COLL_GROUP.E2_M1.hi COLL_GROUP.E2_M1.lo + 1)

/-- N of a group word. -/
def groupSize (w : Nat) : Nat := let e := groupExt w; e.1 * e.2.1 * e.2.2

/-- The member list of a group: N unit addresses of 16 bits in rank order (11 R441). -/
def State.memberList (s : State) (a n : Nat) : List Nat :=
  match s.place a with
  | .ok p => (List.range n).map (fun i => s.mem.word (p.key + 2 * i) 2)
  | .error _ => []

/-- Whether a group may become VALID (11 R442). -/
def State.groupOk (s : State) (io w a : Nat) : Bool :=
  let n := groupSize w
  let rank := bits w COLL_GROUP.RANK.hi COLL_GROUP.RANK.lo
  let inSdm := match s.place a, s.place (a + 2 * n - 1) with
    | .ok (.sdm d _), .ok (.sdm e _) => d == io && e == io
    | _, _ => false
  let ms := s.memberList a n
  n ≤ 4096 && rank < n && inSdm && ms.getD rank 0 == s.self && ms.all s.member

/-- A group's collective count back at zero, with nothing received for it (11 R441, R451). -/
def State.collFresh (s : State) (io g : Nat) : State :=
  ({ s with collCounts := tdel s.collCounts (64 * io + g) } : State).onColl io (fun e => { e with early := e.early.filter (fun p => bits p.addr.toNat 55 50 != g) })

/-- A write to a word of COLL_GROUP (11 R441, R442). DESIGN CHOICE (log 46): a member list with a poisoned row makes no group VALID. -/
def State.collGroupWrite (s : State) (a : Actor) (io g v : Nat) : State × Status :=
  let r := collGroup io g
  let old := (s.reg r).toNat
  let want := bitAt v COLL_GROUP.VALID.lo
  if s.fld r COLL_GROUP.VALID == 1 then
    (s.setFld r COLL_GROUP.VALID (flag want), .ok)
  else
    let tmo := bits v COLL_GROUP.TMO_LOG2.hi COLL_GROUP.TMO_LOG2.lo
    if isDcp a && 12 < tmo then (s, .range)
    else
      let w := r.name.written old v
      if !want then (s.setReg r (BitVec.ofNat 64 w), .ok)
      else
        let list := s.fld ⟨.COLL_MEMBERS, selIo io, g, 0⟩ COLL_MEMBERS.MEMBERS
        let f := s.collBlock (collAgent io (some (bits w COLL_GROUP.LEASE.hi COLL_GROUP.LEASE.lo))) list (2 * groupSize w)
        if s.groupOk io w list && !f.2 then ((f.1.collFresh io g).setReg r (BitVec.ofNat 64 w), .ok)
        else if isDcp a then (f.1, .range)
        else (f.1.setReg r (BitVec.ofNat 64 (setBit w COLL_GROUP.VALID.lo false)), .range)

/-- A write to COLL_MEMBERS (11 R441, R442): not while VALID is 1. -/
def State.collMembersWrite (s : State) (a : Actor) (io g v : Nat) : State × Status :=
  if s.fld (collGroup io g) COLL_GROUP.VALID == 1 then (s, .ok)
  else if bits v 47 44 != 2 || bits v 43 42 != 0 || bits v 41 40 != io then (if bits v 47 0 == 0 then s.plainWrite a ⟨.COLL_MEMBERS, selIo io, g, 0⟩ v else (s, .range))
  else s.plainWrite a ⟨.COLL_MEMBERS, selIo io, g, 0⟩ v

/-- A write to COLL_SUBMIT (11 R444; 15 R546 for a lease that is not ACTIVE). -/
def State.collSubmit (s : State) (a : Actor) (io v : Nat) : State × Status :=
  let d := bits v COLL_SUBMIT.DESC.hi COLL_SUBMIT.DESC.lo
  let e := s.coll io
  if d % 64 != 0 then (s, .range)
  else if (match actorLease a with | some n => !s.active n | none => false) then (s, .state)
  else if (match actorLease a with | some n => s.snapStopped n | none => false) then (s, .busy)
  else if 16 ≤ e.queue.length then (s.setW1c (collStatus io) COLL_STATUS.REFUSED, .busy)
  else
    let s := s.onColl io (fun e => { e with queue := e.queue ++ [(d, actorLease a)] })
    (s.setFld (collStatus io) COLL_STATUS.QUEUED (e.queue.length + 1), .ok)

/-! Descriptors and schedules (11 R443, R445-R449). -/

/-- Bytes of an element of a format: 0 FP32, 1 BF16 (11 R443). -/
def collBytes (f : Nat) : Nat := if f == 0 then 4 else 2

/-- Rank strides of the three dimensions. -/
def rankStride (e : Nat × Nat × Nat) (k : Nat) : Nat := if k == 0 then 1 else if k == 1 then e.1 else e.1 * e.2.1
/-- Extent of a dimension. -/
def extOf (e : Nat × Nat × Nat) (k : Nat) : Nat := if k == 0 then e.1 else if k == 1 then e.2.1 else e.2.2
/-- Coordinate of a rank in a dimension. -/
def coordOf (e : Nat × Nat × Nat) (rank k : Nat) : Nat := rank / rankStride e k % extOf e k

/-- The steps of a ring phase of dimension k over shards of `rows` rows (11 R447, R448): position p sends to p + 1. A reducing phase starts from sub-block p - 1, a copying one from sub-block p. -/
def ringSteps (e : Nat × Nat × Nat) (members : List Nat) (rank rows k : Nat) (reduce : Bool) : List CollStep :=
  let n := extOf e k
  let st := rankStride e k
  let p := coordOf e rank k
  let base := (rank / (st * n)) * (st * n) * rows
  let peer := fun q => members.getD (rank - p * st + q * st) 0
  let sub := fun b => base + b * st * rows
  (List.range (n - 1)).map (fun t =>
    let out := (p + n * 2 - (if reduce then t + 1 else t)) % n
    let in' := (out + n - 1) % n
    ⟨some (peer ((p + 1) % n)), sub out, st * rows, some (peer ((p + n - 1) % n)), sub in', st * rows, if reduce then 0 else 1⟩)

/-- The tree steps of NORMRED (11 R449): records come up from rank i + 2^j at level j, then go to the parent; the result comes back down the same tree. -/
def treeSteps (members : List Nat) (rank : Nat) : List CollStep :=
  let n := members.length
  let m := fun i => members.getD i 0
  let low := if rank == 0 then 4096 else (List.range 13).foldr (fun j a => if bitAt rank j then 2 ^ j else a) 4096
  let kids := (List.range 12).filter (fun j => 2 ^ j < low && rank + 2 ^ j < n)
  let up := kids.map (fun j => (⟨none, 0, 0, some (m (rank + 2 ^ j)), 0, 1, 2⟩ : CollStep))
  let own := if rank == 0 then [] else [(⟨some (m (rank - low)), 0, 1, none, 0, 0, 1⟩ : CollStep), ⟨none, 0, 0, some (m (rank - low)), 0, 1, 4⟩]
  let down := kids.reverse.map (fun j => (⟨some (m (rank + 2 ^ j)), 0, 1, none, 0, 0, 1⟩ : CollStep))
  up ++ own ++ [(⟨none, 0, 0, none, 0, 0, 3⟩ : CollStep)] ++ down

/-- The steps of an operation (11 R446-R449): shard rows of the reducing part are FP32, of the gathering part OFMT. -/
def collSteps (op count ofmt : Nat) (e : Nat × Nat × Nat) (members : List Nat) (rank : Nat) : List CollStep :=
  let n := members.length
  let rs := count / Nat.max 1 n * 4 / 512
  let ag := count / Nat.max 1 n * collBytes ofmt / 512
  let reduce := ([2, 1, 0].map (fun k => ringSteps e members rank rs k true)).flatten
  let gather := ([0, 1, 2].map (fun k => ringSteps e members rank ag k false)).flatten
  let conv : CollStep := ⟨none, 0, 0, none, 0, 0, 3⟩
  if op == 1 then reduce ++ [conv] else if op == 2 then conv :: gather else if op == 3 then reduce ++ [conv] ++ gather else treeSteps members rank

/-! Rows (11 R446, R450). -/

/-- BF16 codes of a row widened exactly to FP32, as two rows; a NaN is the canonical one (11 R446, R450, 02 R59). -/
def widenRow (r : RowImg) : List RowImg :=
  let codes := unpackCodes 16 256 r.bytes
  let row := fun (l : List Nat) => (⟨f32Bytes (l.map (fun c => canon32 (BitVec.ofNat 32 (c * 65536)))), r.poison⟩ : RowImg)
  [row (codes.take 128), row (codes.drop 128)]

/-- FP32 sums converted to an output format; a NaN is the canonical one, of a single member's sum too (11 R446, R450, 02 R59). -/
def narrowVec (ofmt : Nat) : List RowImg → List RowImg
  | [] => []
  | a :: t =>
    if ofmt == 0 then ⟨f32Bytes ((rowF32 128 a.bytes).map canon32), a.poison⟩ :: narrowVec ofmt t
    else match t with
      | [] => [⟨padRow (packCodes 16 ((rowF32 128 a.bytes).map (fun x => (convVal fmtBf16 false false 0 (val32 x)).code))), a.poison⟩]
      | b :: u => ⟨packCodes 16 ((rowF32 128 a.bytes ++ rowF32 128 b.bytes).map (fun x => (convVal fmtBf16 false false 0 (val32 x)).code)), a.poison || b.poison⟩ :: narrowVec ofmt u

/-- Two FP32 rows added, the left operand first (11 R447). -/
def addRows (a b : RowImg) : RowImg := ⟨f32Bytes ((rowF32 128 a.bytes).zipWith add32 (rowF32 128 b.bytes)), a.poison || b.poison⟩

/-- Two records combined (09 R349). -/
def combineRec (a b : List Byte) : List Byte :=
  let f := fun (l : List Byte) o n => leNat ((l.drop o).take n)
  let pick := fun (less : Bool) (o u : Nat) =>
    let x := f a o 4; let y := f b o 4; let ux := f a u 2; let uy := f b u 2
    if x == y then Nat.min ux uy else if (x < y) == less then ux else uy
  leBytes 4 (add32 (BitVec.ofNat 32 (f a 0 4)) (BitVec.ofNat 32 (f b 0 4))).toNat ++ leBytes 4 (satAdd 32 (f a 4 4) (f b 4 4)) ++ leBytes 4 (Nat.min (f a 8 4) (f b 8 4)) ++ leBytes 4 (Nat.max (f a 12 4) (f b 12 4)) ++
    leBytes 2 (pick true 8 16) ++ leBytes 2 (pick false 12 18) ++ leBytes 2 (if f a 20 2 == f b 20 2 then f a 20 2 else 0xFFFF) ++ leBytes 1 (f a 22 1 ||| f b 22 1) ++ leBytes 9 0

/-- Record rows combined. -/
def combineRows (a b : RowImg) : RowImg := ⟨padRow (combineRec a.bytes b.bytes), a.poison || b.poison⟩

/-- Rows of memory read for a collective. -/
def State.collRead (s : State) (g : Agent) (a n : Nat) : State × List RowImg :=
  (List.range n).foldl (fun (p : State × List RowImg) i => let q := p.1.agentRead g (a + 512 * i); (q.1, p.2 ++ [q.2])) (s, [])

/-- Rows numbered from `first` put in a table. -/
def putRows (t : Tab RowImg) (first : Nat) (l : List RowImg) : Tab RowImg := (List.range l.length).foldl (fun t i => tset t (first + i) (l.getD i ⟨[], false⟩)) t

/-- What a member holds when a collective starts: its input rows as FP32, its shard, or its sixteen partial records folded in ascending s (11 R446, R449). -/
def State.collInput (s : State) (io : Nat) (r : CollRun) : State × Tab RowImg :=
  let n := Nat.max 1 r.members.length
  if r.op == 4 then
    let p := s.collRead (collAgent io (some r.lease)) r.src 16
    let one := match p.2 with | [] => (⟨zeroRow, false⟩ : RowImg) | a :: t => t.foldl combineRows a
    (p.1, putRows [] 0 [⟨padRow (one.bytes.take 32), one.poison⟩])
  else if r.op == 2 then
    let m := r.count / n * collBytes r.ofmt / 512
    let p := s.collRead (collAgent io (some r.lease)) r.src m
    (p.1, putRows [] (r.rank * m) p.2)
  else
    let p := s.collRead (collAgent io (some r.lease)) r.src (r.count * collBytes r.ifmt / 512)
    (p.1, putRows [] 0 (if r.ifmt == 0 then p.2 else (p.2.map widenRow).flatten))

/-! Packets between members (11 R451). -/

/-- The ADDR field of a COLL packet. -/
def collAddr (cop group io number row : Nat) : Word := BitVec.ofNat 64 (cop * 2 ^ 56 + group * 2 ^ 50 + io * 2 ^ 48 + number % 65536 * 2 ^ 32 + row % 2 ^ 32)

/-- A COLL packet sent to a member. -/
def State.collSend (s : State) (io : Nat) (r : CollRun) (u cop row : Nat) (pay : List PayRow) : State :=
  s.sendPkt { s.packet 7 1 u r.lease with rows := pay.length, addr := collAddr cop r.group io r.number row, pay := pay } []

/-- The row a READY carries: OP, IFMT, OFMT and COUNT where the descriptor has them (11 R443, R451). -/
def readyRow (op ifmt ofmt count : Nat) : PayRow := ⟨padRow (leBytes 8 (op + 64 * ifmt + 256 * ofmt) ++ leBytes 16 0 ++ leBytes 4 count), false⟩

/-- ABORT sent to every other member, with a status (11 R452). -/
def State.collAbortAll (s : State) (io : Nat) (r : CollRun) (st : Status) : State :=
  (r.members.filter (· != s.self)).foldl (fun s u => s.collSend io r u 2 0 [⟨padRow (leBytes 2 (code st)), false⟩]) s

/-- The running collective of an engine changed. -/
def State.onRun (s : State) (io : Nat) (f : CollRun → CollRun) : State := s.onColl io (fun e => { e with run := e.run.map f })

/-- A running collective ended with a status; ABORT goes to the members where this member ends it (11 R452). -/
def State.collStopRun (s : State) (io : Nat) (st : Status) (tell : Bool) : State :=
  match (s.coll io).run with
  | none => s
  | some r =>
    if r.ended.isSome then s
    else
      let s := s.onRun io (fun r => { r with ended := some st })
      if tell then s.collAbortAll io r st else s

/-- Rows written to DST, and whether one is poisoned (11 R446, R450). -/
def State.collWrite (s : State) (io : Nat) (r : CollRun) (first : Nat) (l : List RowImg) : State :=
  let s := (List.range l.length).foldl (fun s i => s.agentWrite (collAgent io (some r.lease)) (r.dst + 512 * (first + i)) (l.getD i ⟨[], false⟩)) s
  if l.any (·.poison) then s.onRun io (fun r => { r with poison := true }) else s

/-- Rows of a table by number. -/
def rowsOf (t : Tab RowImg) (first n : Nat) : List RowImg := (List.range n).map (fun i => tget ⟨zeroRow, false⟩ t (first + i))

/-- The shard converted and written, or the record, or the member's own shard of a gather (11 R446, R449). -/
def State.collConvert (s : State) (io : Nat) (r : CollRun) : State :=
  let n := Nat.max 1 r.members.length
  if r.op == 4 then s.collWrite io r 0 (rowsOf r.vec 0 1)
  else if r.op == 2 then
    let m := r.count / n * collBytes r.ofmt / 512
    s.collWrite io r (r.rank * m) (rowsOf r.vec (r.rank * m) m)
  else
    let m := r.count / n * 4 / 512
    let out := narrowVec r.ofmt (rowsOf r.vec (r.rank * m) m)
    let first := if r.op == 1 then 0 else r.rank * out.length
    (s.collWrite io r first out).onRun io (fun r => { r with vec := putRows [] first out })

/-- The rows of the step in progress sent, in packets of up to eight rows, once the receiving member has sent READY for it (11 R419, R451). -/
def State.collTrySend (s : State) (io : Nat) : State :=
  match (s.coll io).run with
  | none => s
  | some r =>
    match r.steps with
    | [] => s
    | st :: _ =>
      match st.dst with
      | none => s
      | some u =>
        if r.sent || r.ended.isSome || !r.ready.contains (u, st.sFirst) then s
        else
          let s := s.onRun io (fun r => { r with sent := true, ready := r.ready.erase (u, st.sFirst) })
          (List.range (ceilDiv st.sCount 8)).foldl (fun s i =>
            let k := Nat.min 8 (st.sCount - 8 * i)
            s.collSend io r u 0 (st.sFirst + 8 * i) ((rowsOf r.vec (st.sFirst + 8 * i) k).map (fun x => ⟨x.bytes, x.poison⟩))) s

/-- Whether the step in progress has sent and received all its rows. -/
def CollRun.stepDone (r : CollRun) (st : CollStep) : Bool := (st.dst.isNone || r.sent || st.sCount == 0) && (st.src.isNone || r.got.length == st.rCount)

/-- The steps of a collective carried on as far as they can go (11 R447-R451): entering a step sends READY to the member it receives from. -/
def State.collRun (s : State) (io : Nat) : Nat → State
  | 0 => s
  | fuel + 1 =>
    let s := s.collTrySend io
    match (s.coll io).run with
    | none => s
    | some r =>
      if r.ended.isSome then s
      else match r.steps with
        | [] => s.onRun io (fun r => { r with ended := some (if r.poison then .integrity else .ok) })
        | st :: rest =>
          if !r.stepDone st then s
          else
            let s := if st.mode == 3 then s.collConvert io r else s
            let s := s.onRun io (fun r => { r with steps := rest, sent := false, got := [] })
            let s := match rest with
              | nx :: _ => (match nx.src with
                | some u => if nx.rCount == 0 then s else s.collSend io r u 1 nx.rFirst [readyRow r.op r.ifmt r.ofmt r.count]
                | none => s)
              | [] => s
            s.collRun io fuel

/-- Carries a collective on. -/
def State.collGo (s : State) (io : Nat) : State :=
  match (s.coll io).run with
  | none => s
  | some r => s.collRun io (r.steps.length + 1)

/-- A READY with fields that differ from the member's own ends its collective (11 R452); a like one is kept for its step. -/
def State.collReadyIn (s : State) (io : Nat) (p : DftPacket) : State :=
  match (s.coll io).run with
  | none => s
  | some r =>
    let b := (p.pay.headD ⟨[], false⟩).bytes
    if b != (readyRow r.op r.ifmt r.ofmt r.count).bytes then s.collStopRun io .state true
    else (s.onRun io (fun r => { r with ready := r.ready ++ [(p.src.toNat, p.addr.toNat % 2 ^ 32)] })).collGo io

/-- An ABORT received ends the member's collective with the status it carries (11 R452). -/
def State.collAbortIn (s : State) (io : Nat) (p : DftPacket) : State :=
  s.collStopRun io (statusOf (leNat (((p.pay.headD ⟨[], false⟩).bytes).take 2))) false

/-- Whether a COLL packet belongs to a run. -/
def CollRun.takes (r : CollRun) (p : DftPacket) : Bool :=
  bits p.addr.toNat 55 50 == r.group && bits p.addr.toNat 47 32 == r.number && r.members.contains p.src.toNat

/-- The engine a COLL packet names. -/
def collEngine (p : DftPacket) : Nat := bits p.addr.toNat 49 48
/-- COP of a COLL packet. -/
def collCop (p : DftPacket) : Nat := bits p.addr.toNat 63 56

/-! Starting a collective (11 R445). -/

/-- The descriptor at an address as a lease reads it. -/
def State.collDesc (s : State) (lease : Option Nat) (a : Nat) : Option (List Word) :=
  match s.find lease a with
  | .error _ => none
  | .ok p => some ((List.range 8).map (fun i => BitVec.ofNat 64 (s.mem.word (p.key + 8 * i) 8)))

/-- Whether a range of a collective may be accessed (11 R443, R445). -/
def State.collSpan (s : State) (lease a n : Nat) : Bool :=
  a % 512 == 0 && bits a 47 44 ≤ 2 && (n == 0 || (s.findSpan (some lease) a (a + n - 1)).isNone)

/-- The collective a descriptor asks for, or none where it is refused with ST_RANGE (11 R445). -/
def State.collOf (s : State) (io : Nat) (who : Option Nat) (d : List Word) : Option CollRun :=
  let w := dword d 0
  let g := bits w 15 10
  let gr := collGroup io g
  let gw := (s.reg gr).toNat
  let lease := s.fld gr COLL_GROUP.LEASE
  let op := bits w 3 0
  let ifmt := bits w 7 6
  let ofmt := bits w 9 8
  let c := dhalf d 24
  let n := groupSize gw
  let e := groupExt gw
  let src := bits (dword d 1) 47 0
  let dst := bits (dword d 2) 47 0
  let resv := bits w 63 48 != 0 || bits w 34 16 != 0 || bits w 5 4 != 0 || bits (dword d 1) 63 48 != 0 || bits (dword d 2) 63 48 != 0 || dhalf d 28 != 0 || (List.range 4).any (fun i => dword d (4 + i) != 0)
  let bi := collBytes ifmt
  let bo := collBytes ofmt
  let ok := !resv && 1 ≤ op && op ≤ 4 && ifmt ≤ 1 && ofmt ≤ 1 && s.fld gr COLL_GROUP.VALID == 1 && (who.isNone || who == some lease) &&
    (if op == 4 then c == 0 && ifmt == 0 && ofmt == 0 && s.collSpan lease src 8192 && s.collSpan lease dst 512
     else c * bi % (512 * n) == 0 && c * bo % (512 * n) == 0 && (op != 2 || ifmt == ofmt) &&
       s.collSpan lease src (if op == 2 then c / n * bi else c * bi) && s.collSpan lease dst (if op == 1 then c / n * bo else c * bo))
  if !ok then none
  else
    let members := s.memberList (s.fld ⟨.COLL_MEMBERS, selIo io, g, 0⟩ COLL_MEMBERS.MEMBERS) n
    let rank := bits gw COLL_GROUP.RANK.hi COLL_GROUP.RANK.lo
    some { group := g, lease := lease, op := op, ifmt := ifmt, ofmt := ofmt, count := c, src := src, dst := dst, flag := if bitAt w 37 then some (bits w 47 38) else none, flagDie := bits w 36 35
           members := members, rank := rank, number := tget 0 s.collCounts (64 * io + g), since := s.now, tmo := bits gw COLL_GROUP.TMO_LOG2.hi COLL_GROUP.TMO_LOG2.lo
           steps := ⟨none, 0, 0, none, 0, 0, 5⟩ :: collSteps op c ofmt e members rank, sent := false, got := [], ready := [], vec := [], poison := false, ended := none }

/-- A collective refused at its start: it ends with ST_RANGE. -/
def State.collRefused (s : State) (who : Option Nat) : CollRun :=
  { group := 0, lease := who.getD 0, op := 0, ifmt := 0, ofmt := 0, count := 0, src := 0, dst := 0, flag := none, flagDie := 0, members := [], rank := 0, number := 0, since := s.now, tmo := 0
    steps := [], sent := false, got := [], ready := [], vec := [], poison := false, ended := some .range }

/-- READY and ABORT packets that came before this member started its collective, taken in (11 R451, R452). -/
def State.collEarly (s : State) (io : Nat) : State :=
  match (s.coll io).run with
  | none => s
  | some r =>
    let mine := (s.coll io).early.filter r.takes
    let s := s.onColl io (fun e => { e with early := e.early.filter (fun p => !r.takes p) })
    mine.foldl (fun s p => if collCop p == 2 then s.collAbortIn io p else s.collReadyIn io p) s

/-- An engine that has taken the descriptor at the head of its queue (11 R444). -/
def State.collQueued (s : State) (io : Nat) (rest : List (Nat × Option Nat)) : State :=
  ((s.onColl io (fun e => { e with queue := rest })).setFld (collStatus io) COLL_STATUS.QUEUED rest.length).setFld (collStatus io) COLL_STATUS.BUSY 1

/-- A sound collective begun (11 R446, R451): the group's count, the rows it brings, what it may do at once, and the packets that came early. -/
def State.collBegin (s : State) (io : Nat) (r : CollRun) : State :=
  let s := { s with collCounts := tset s.collCounts (64 * io + r.group) ((r.number + 1) % 65536) }
  let x := s.collInput io r
  let s := x.1.onColl io (fun e => { e with run := some { r with vec := x.2 } })
  (s.collGo io).collEarly io

/-- An engine that has taken the descriptor at the head of its queue and read it, and whether it was read poisoned (05 R191, 07 R279). -/
def State.collTaken (s : State) (io a : Nat) (who : Option Nat) (rest : List (Nat × Option Nat)) : State × Bool :=
  let t := s.collQueued io rest
  if (s.collDesc who a).isSome then t.collBlock (collAgent io who) a 64 else (t, false)

/-- The descriptor at the head of an engine's queue started when its operation is `op`, or is none (11 R444, R445). DESIGN CHOICE (log 46): one read poisoned, or one whose group's member list is, ends with ST_INTEGRITY. -/
def State.collStart (s : State) (io op : Nat) : State :=
  let e := s.coll io
  match e.run, e.queue with
  | none, (a, who) :: rest =>
    let d := (s.collDesc who a).getD []
    let named := dword d 0 % 16
    if s.collWaits io || (1 ≤ named && named ≤ 4 && named != op) then s
    else
      let t := s.collTaken io a who rest
      let stop := fun (st : Status) => t.1.onColl io (fun e => { e with run := some { t.1.collRefused who with ended := some st } })
      if t.2 then stop .integrity
      else match (if (s.collDesc who a).isSome then t.1.collOf io who d else none) with
        | none => stop .range
        | some r =>
          let l := t.1.collBlock (collAgent io who) (t.1.fld ⟨.COLL_MEMBERS, selIo io, r.group, 0⟩ COLL_MEMBERS.MEMBERS) (2 * r.members.length)
          if l.2 then l.1.onColl io (fun e => { e with run := some { l.1.collRefused who with ended := some .integrity } }) else l.1.collBegin io r
  | _, _ => s

/-- REDUCE_SCATTER (11 R445-R447). -/
def execReduceScatter (io : Die) (s : State) : Host.Outcome State Fault Refusal := s.live fun s => .next (s.collStart io.val 1)

/-- ALL_GATHER (11 R445, R448). -/
def execAllGather (io : Die) (s : State) : Host.Outcome State Fault Refusal := s.live fun s => .next (s.collStart io.val 2)

/-- ALL_REDUCE (11 R445, R448). -/
def execAllReduce (io : Die) (s : State) : Host.Outcome State Fault Refusal := s.live fun s => .next (s.collStart io.val 3)

/-- NORMRED (11 R445, R449, 09 R350). -/
def execNormred (io : Die) (s : State) : Host.Outcome State Fault Refusal := s.live fun s => .next (s.collStart io.val 4)

/-! Packets received (11 R447, R451, R452). -/

/-- Whether a COLL packet belongs to a collective of its group that this member has not started (11 R451): its count is the next one, or a later one. -/
def State.collAhead (s : State) (p : DftPacket) : Bool :=
  (bits p.addr.toNat 47 32 + 65536 - tget 0 s.collCounts (64 * collEngine p + bits p.addr.toNat 55 50)) % 65536 < 32768

/-- A COLL packet received: `act` where it belongs to the engine's run; a READY or ABORT of a collective not started is kept, and one of a collective that has ended here has no effect. -/
def State.collReceive (s : State) (q : Fin 16) (p : DftPacket) (cop : Nat) (act : State → Nat → CollRun → State) : State :=
  if s.frameOk p && p.type == 7 && collCop p != cop then s
  else
    s.receive q p 7 (fun s =>
      let io := collEngine p
      let keep := if cop == 0 || !s.collAhead p then s else s.onColl io (fun e => { e with early := e.early ++ [p] })
      match (s.coll io).run with
      | some r => if r.takes p then act s io r else keep
      | none => keep)

/-- COLL_READY (11 R451, R452). -/
def execCollReady (q : Fin 16) (p : DftPacket) (s : State) : Host.Outcome State Fault Refusal := s.live fun s =>
  .next (s.collReceive q p 1 (fun s io _ => s.collReadyIn io p))

/-- A row of DATA taken into the step in progress: added, copied and written to DST, or combined (11 R447-R449). -/
def State.collRow (s : State) (io : Nat) (row : Nat) (x : RowImg) : State :=
  match (s.coll io).run with
  | none => s
  | some r =>
    match r.steps with
    | [] => s
    | st :: _ =>
      if r.ended.isSome || r.got.contains row || row < st.rFirst || st.rFirst + st.rCount ≤ row then s
      else
        let own := tget ⟨zeroRow, false⟩ r.vec row
        let new := if st.mode == 0 then addRows x own else if st.mode == 2 then combineRows own x else x
        let s := s.onRun io (fun r => { r with got := r.got ++ [row], vec := tset r.vec row new })
        if st.mode == 1 then s.collWrite io r row [new] else s

/-- The rows of a DATA packet from the member the step takes from (11 R447, R449). -/
def State.collDataIn (s : State) (io : Nat) (p : DftPacket) (r : CollRun) : State :=
  match r.steps with
  | st :: _ =>
    if st.src != some p.src.toNat then s
    else
      let s := (List.range p.pay.length).foldl (fun s i => let x := p.pay.getD i ⟨[], false⟩; s.collRow io (p.addr.toNat % 2 ^ 32 + i) ⟨x.bytes, x.poison⟩) s
      s.collGo io
  | [] => s

/-- COLL_DATA (11 R447-R449). -/
def execCollData (q : Fin 16) (p : DftPacket) (s : State) : Host.Outcome State Fault Refusal := s.live fun s => .next (s.collReceive q p 0 (fun s io r => s.collDataIn io p r))

/-- COLL_ABORT (11 R452). -/
def execCollAbort (q : Fin 16) (p : DftPacket) (s : State) : Host.Outcome State Fault Refusal := s.live fun s =>
  .next (s.collReceive q p 2 (fun s io _ => s.collAbortIn io p))

/-- COLL_TIMEOUT (11 R452). -/
def execCollTimeout (io : Die) (s : State) : Host.Outcome State Fault Refusal := s.live fun s =>
  match (s.coll io.val).run with
  | none => .next s
  | some r => if r.ended.isSome || s.now < r.since + ms (2 ^ r.tmo) then .next s else .next (s.collStopRun io.val .timeout true)

/-- A collective's end recorded: LAST_STATUS, DONE, the source, and the lease's engine time (11 R453, 15 R557). -/
def State.collRecord (s : State) (io : Nat) (st : Status) : State :=
  let r := collStatus io
  ((s.setFld r COLL_STATUS.LAST_STATUS (code st)).count r COLL_STATUS.DONE 1).raise io 0xC1

/-- A collective that has ended leaves its engine (11 R453). -/
def State.collFinish (s : State) (io : Nat) (r : CollRun) (st : Status) : State :=
  let s := (s.onColl io (fun e => { e with run := none })).setFld (collStatus io) COLL_STATUS.BUSY 0
  let s := (s.charge r.lease 3 (s.now - r.since)).collRecord io st
  match r.flag with
  | some f => if st == .ok then s.flagDie r.flagDie r.lease f else s
  | none => s

/-- COLL_END (11 R453): once every DST write has been performed. -/
def execCollEnd (io : Die) (s : State) : Host.Outcome State Fault Refusal := s.live fun s =>
  match (s.coll io.val).run with
  | none => .next s
  | some r =>
    match r.ended with
    | none => .next s
    | some st => .next (if s.collWaits io.val then s else s.collFinish io.val r st)

/-- The group a queued descriptor names, and that group's lease (11 R445). -/
def State.queuedGroup (s : State) (io : Nat) (x : Nat × Option Nat) : Nat × Nat :=
  let g := match s.collDesc x.2 x.1 with | some d => bits (dword d 0) 15 10 | none => 0
  (g, x.2.getD (s.fld (collGroup io g) COLL_GROUP.LEASE))

/-- The collectives that `p` selects by group and lease, running and queued, ended by quiescing, and the members told (15 R543, R544); one that has ended already keeps its status (R548). -/
def State.collQuiesce (s : State) (io : Nat) (p : Nat → Nat → Bool) (st : Status) : State :=
  let s := match (s.coll io).run with
    | some r => if p r.group r.lease then (s.collStopRun io st true).collFinish io r (r.ended.getD st) else s
    | none => s
  let mine := fun (x : Nat × Option Nat) => let g := s.queuedGroup io x; p g.1 g.2
  let n := ((s.coll io).queue.filter mine).length
  let s := s.onColl io (fun e => { e with queue := e.queue.filter (fun x => !mine x) })
  let s := s.setFld (collStatus io) COLL_STATUS.QUEUED (s.coll io).queue.length
  iter n (fun _ s => s.collRecord io st) s

/-- A connection failed: its operations end, and the running collectives with packets outstanding on it (11 R431, R452). -/
def State.connLost (s : State) (u vc : Nat) : State :=
  let mine := fun (io : Nat) => match (s.coll io).run with
    | some r => (s.conn u vc).out.any (fun o => o.pkt.type == 7 && collEngine o.pkt == io && r.takes o.pkt)
    | none => false
  ((List.range 4).filter mine).foldl (fun s io => s.collStopRun io .timeout true) (s.connFail u vc)

/-- RETRANSMIT_TIMEOUT (11 R429, R431): a connection that fails also ends the collectives with packets outstanding on it. -/
def execRetransmitTimeout (conn : ConnId) (seq : Nat) (s : State) : Host.Outcome State Fault Refusal := s.live fun s => .next (s.retransmitTimeout conn.unit.toNat conn.vc.val seq (fun s => s.connLost conn.unit.toNat conn.vc.val))

end Sys2Proof.Machine
end

