-- ==== Sys2Proof/Machine/HostCore.lean ====
section
/-! DEFINITION. Host-class cores as the manual describes them: their coherent caches, range operations, errors and bindings (12 R457-R474). -/
namespace Sys2Proof.Machine

/-- The key of a host-class core. -/
def hcKey (h : HcId) : Nat := h.die.val * 16 + h.h.val

/-- A register of host-class core k (12 R473). -/
def hcReg (n : RegName) (k : Nat) : Reg := ⟨n, selCd (k / 16), k % 16, 0⟩

/-- The lease a host-class core is bound to; none while it runs firmware (12 R473, R476). -/
def State.hcLease (s : State) (k : Nat) : Option Nat :=
  if s.fld (hcReg .HC_BIND k) HC_BIND.VALID == 1 then some (s.fld (hcReg .HC_BIND k) HC_BIND.LEASE) else none

/-- Whether a core's code is paused by a snapshot stop of its lease (18 R625). -/
def State.hcPaused (s : State) (k : Nat) : Bool := match s.hcLease k with | some n => s.snapStopped n | none => false

/-- The memory row a cached access by a core names, or the status of its access fault (12 R459, R474). -/
def State.hcRow (s : State) (k addr : Nat) : Except Status Nat :=
  if 2 < bits addr 47 44 then .error .range
  else match s.find (s.hcLease k) addr with
    | .error e => .error e
    | .ok p => .ok p.row

/-! Write-backs. -/

/-- The engine that a write-back is a request of, without a deadline (12 R462). -/
def WriteBack.agent (w : WriteBack) : Agent := ⟨.host, if w.by' < 64 then w.by' / 16 else w.by' - 64, w.by', w.lease, none, true⟩

/-- A write-back sent to its memory, where it replaces the whole row (12 R464, R467). -/
def State.performBack (s : State) (w : WriteBack) : State := s.bookWrite w.agent w.row 0 w.img

/-- The write-backs that `p` selects performed, oldest first. -/
def State.performBacks (s : State) (p : WriteBack → Bool) : State :=
  (s.writeBacks.filter p).foldl State.performBack { s with writeBacks := s.writeBacks.filter (fun w => !p w) }

/-! Errors in the caches (12 R471). -/

/-- The register that counts a cache's errors: of a core's L1 and L2, or of the row's home L3 (12 R471, R473). -/
def cacheCnt (u : CacheUpset) : Reg := match u.core with | some c => hcReg .HC_ECC_CNT c | none => ⟨.L3_ECC_CNT, selCd (dieOfRow u.row), 0, 0⟩

/-- A row's cached copies discarded (12 R463). -/
def State.dropCached (s : State) (row : Nat) : State := s.dropCopies (fun r => r == row)

/-- Errors in a row's cached words met (12 R471): repaired errors and uncorrectable words are counted; a clean row with an uncorrectable word is discarded, to be fetched again, and a dirty one is poisoned. -/
def State.meetUpset (s : State) (u : CacheUpset) : State :=
  let s := { s with cacheUpsets := s.cacheUpsets.erase u }
  let s := (s.tally (cacheCnt u) HC_ECC_CNT.CORR u.corr).tally (cacheCnt u) HC_ECC_CNT.UNCORR u.unc
  if u.unc == 0 then s
  else match tget? s.cached u.row with
    | none => s
    | some c =>
      if c.dirty then { s with cached := tset s.cached u.row { c with img := ⟨c.img.bytes, true⟩, source := if u.core.isSome then 0 else 1 } }
      else s.dropCached u.row

/-- The lines that a core's own caches hold. -/
def State.hcLines (s : State) (k : Nat) : HcCaches := tget ⟨[], [], []⟩ s.hcCaches k

/-- The errors that an access of core k to a line of a cached row meets: those of its own caches where its L2 holds the line, and those of the row's home L3 where it does not (12 R458, R460, R471). -/
def State.meetCache (s : State) (k row line : Nat) : State :=
  match tget? s.cached row, s.cacheUpsets.find? (fun u => u.row == row && u.core == (if (s.hcLines k).l2.contains line then some k else none)) with
  | some _, some u => s.meetUpset u
  | _, _ => s

/-- The errors that a write-back of a dirty row meets: those of the home L3, and those of the caches of the core that last stored to it. -/
def State.meetBack (s : State) (row : Nat) (c : CachedRow) : State :=
  (s.cacheUpsets.filter (fun u => u.row == row && (u.core.isNone || u.core == some c.core))).foldl State.meetUpset s

/-- A cached row's dirty contents on their way to memory, with the errors that reading them out meets (12 R471): a row found poisoned is written back poisoned (R472). -/
def State.startBack (s : State) (by' row : Nat) (lease : Option Nat) : State :=
  match tget? s.cached row with
  | none => s
  | some c =>
    if !c.dirty then s
    else
      let s := s.meetBack row c
      let c := tget c s.cached row
      { s with writeBacks := s.writeBacks ++ [⟨by', row, c.img, lease⟩], cached := tset s.cached row { c with dirty := false } }

/-! Cache-block operations (12 R463). -/

/-- What a cache-block operation does to a row: 0 INVAL, 1 CLEAN, 2 FLUSH. -/
def State.cbo (s : State) (op by' row : Nat) (lease : Option Nat) : State :=
  let s := s.performBacks (fun w => w.row == row)
  if op == 0 then s.dropCached row else if op == 1 then s.startBack by' row lease else (s.startBack by' row lease).dropCached row

/-! Demand fills (12 R460, R462). -/

/-- The L3 set of a row: 4,096 sets of 16 rows in each die's L3 (12 R458). -/
def l3Set (row : Nat) : Nat := dieOfRow row * 4096 + row % 4096

/-- Room for a row in its home L3: a full set gives up one row, which the manual does not name, written back when dirty. -/
def State.l3Room (s : State) (k row : Nat) : State :=
  let mates := s.cached.filter (fun c => l3Set c.1 == l3Set row)
  if mates.length < 16 then s
  else
    let p := s.draw
    match mates[p.1.toNat % mates.length]? with
    | none => s
    | some c => (p.2.startBack k c.1 (s.hcLease k)).dropCached c.1

/-- The engine that a core's demand fills are requests of: NARROW at a shared bank, their deadline 1,024 cycles after they are formed (12 R462, 05 R197). -/
def State.hcAgent (s : State) (k : Nat) : Agent := ⟨.host, k / 16, k, s.hcLease k, some 1024, true⟩

/-- A row in the caches, filled from memory where it is not (12 R462): a demand fill sees every write-back of the row before it. -/
def State.l3Fill (s : State) (k row : Nat) : State × CachedRow :=
  match tget? s.cached row with
  | some c => (s, c)
  | none =>
    let s := (s.performBacks (fun w => w.row == row)).l3Room k row
    let g := s.hcAgent k
    let r := s.readFar row g.lease
    let c : CachedRow := ⟨s.overlaid .host row r.img, false, k, 2⟩
    ({ r.s.bookFor g row with cached := tset s.cached row c }, c)

/-- The `time` CSR of every host-class core (12 R457): arithmetic-clock cycles, the same on all dies. -/
def State.timeCsr (s : State) : Word := BitVec.ofNat 64 s.now

/-! The cores' own caches (12 R458). -/

/-- A line in a cache of `sets` sets of `ways` lines. DESIGN CHOICE (log 35): a full set gives up the line that `pick` selects, since the manual names none. -/
def lineIn (sets ways pick line : Nat) (l : List Nat) : List Nat :=
  if l.contains line then l
  else
    let mates := l.filter (fun x => x % sets == line % sets)
    line :: (if mates.length < ways then l else l.erase (mates.getD (pick % mates.length) line))

/-- A line brought into the caches: the L2 of 2,048 sets of 16, and of its L1I (256 sets of 4) or L1D (128 sets of 8) the one that serves the access; a line that leaves the L2 leaves both. -/
def HcCaches.bring (c : HcCaches) (fetch : Bool) (pick line : Nat) : HcCaches :=
  let l2 := lineIn 2048 16 pick line c.l2
  let held := fun (l : List Nat) => l.filter l2.contains
  if fetch then ⟨held (lineIn 256 4 pick line c.l1i), held c.l1d, l2⟩ else ⟨held c.l1i, held (lineIn 128 8 pick line c.l1d), l2⟩

/-- A line that a core's access brings into its own caches. -/
def State.hcTouch (s : State) (k line : Nat) (fetch : Bool) : State :=
  let c := s.hcLines k
  if c.l2.contains line && (if fetch then c.l1i else c.l1d).contains line then s
  else let p := s.draw; { p.2 with hcCaches := tset p.2.hcCaches k (c.bring fetch p.1.toNat line) }

/-- A data-integrity event of a host-class core (12 R472, R473, 15 R557): counted, charged to its lease, recorded while no record is held, and its source raised. -/
def State.hcEvent (s : State) (k addr source : Nat) : State :=
  let r := hcReg .HC_DI_EVENT k
  let s := (s.bump r HC_DI_EVENT.COUNT 1).chargeEvent (s.hcLease k)
  let s := s.record r HC_DI_EVENT.VALID HC_DI_EVENT.COUNT (ofFields [(HC_DI_EVENT.ROW, addr / 512), (HC_DI_EVENT.SOURCE, source), (HC_DI_EVENT.VALID, 1)]) []
  s.raise (k / 16) (0xC4 + k % 16)

/-! Range operations (12 R469, R470). -/

/-- A register of a die's L3. -/
def l3Reg (n : RegName) (d : Nat) : Reg := ⟨n, selCd d, 0, 0⟩

/-- The row keys of a range that lies wholly on CDd in spaces 0x0-0x2, or none (12 R470). -/
def State.l3Rows (s : State) (d base n : Nat) : Option (List Nat) :=
  let l := (List.range n).map (fun i => s.rowAt (base + 512 * i))
  if base % 512 == 0 && bits base 47 44 ≤ 2 && bits (base + 512 * n - 1) 47 44 ≤ 2 && l.all (fun r => match r with | some r => dieOfRow r == d | none => false) then some (l.filterMap id) else none

/-- A GO of a range operation with OP `op` (12 R469, R470; 15 R546 for a lease that is not ACTIVE). It examines a row in each cycle from the next; its effect on the rows is made at once, which the rule allows (a store to a row meanwhile may or may not survive; log 35). -/
def State.l3Range (s : State) (a : Actor) (d op n : Nat) : State × Status :=
  let sr := l3Reg .L3_RANGE_STATUS d
  let base := s.fld (l3Reg .L3_RANGE_BASE d) L3_RANGE_BASE.BASE
  let refuse := fun (st : Status) => (s.setW1c sr L3_RANGE_STATUS.REFUSED, st)
  if s.fld sr L3_RANGE_STATUS.BUSY == 1 then refuse .busy
  else if op == 3 || n == 0 || 16777215 < n then refuse .range
  else if (match actorLease a with | some l => !s.active l | none => false) then refuse .state
  else if (match actorLease a with | some l => s.snapStopped l | none => false) then refuse .busy
  else if (s.findSpan (actorLease a) base (base + 512 * n - 1)).isSome then refuse .range
  else match s.l3Rows d base n with
    | none => refuse .range
    | some rows => (({ rows.foldl (fun s r => s.cbo op (64 + d) r (actorLease a)) s with rangeDue := tset s.rangeDue d (s.now + n), rangeOwner := match actorLease a with | some l => tset s.rangeOwner d l | none => tdel s.rangeOwner d } : State).setFld sr L3_RANGE_STATUS.BUSY 1, .ok)

/-- A write to L3_RANGE_CTL (12 R469). -/
def State.l3CtlWrite (s : State) (a : Actor) (d v : Nat) : State × Status :=
  if bitAt v 0 then s.l3Range a d (bits v L3_RANGE_CTL.OP.hi L3_RANGE_CTL.OP.lo) (bits v L3_RANGE_CTL.ROWS.hi L3_RANGE_CTL.ROWS.lo) else (s, .ok)

/-- L3_RANGE_END (12 R470): every row examined and every write-back performed, BUSY clears and the source is raised. -/
def execL3RangeEnd (d : Die) (s : State) : Host.Outcome State Fault Refusal := s.live fun s =>
  let sr := l3Reg .L3_RANGE_STATUS d.val
  if s.fld sr L3_RANGE_STATUS.BUSY == 0 || s.now < tget 0 s.rangeDue d.val then .next s
  else
    let s := s.performBacks (fun w => w.by' == 64 + d.val)
    .next (((s.setFld sr L3_RANGE_STATUS.BUSY 0).setFld sr L3_RANGE_STATUS.LAST_STATUS 0).raise d.val 0xC2)

/-! Bindings (12 R468, R473, R474). -/

/-- A core's L1 and L2 flushed: the rows it last stored to are written back, and no line stays in its own caches (12 R468). -/
def State.hcFlush (s : State) (k : Nat) : State :=
  let s := s.performBacks (fun w => w.by' == k)
  let mine := s.cached.filter (fun c => c.2.dirty && c.2.core == k)
  let s := (mine.foldl (fun s c => s.startBack k c.1 (s.hcLease k)) s).performBacks (fun w => w.by' == k)
  { s with hcCaches := tdel s.hcCaches k, hcReserved := tdel s.hcReserved k }

/-- A host-class core that works: its cluster has power, and is not idle from now on (16 R577, R578). -/
def State.hcWake (s : State) (k : Nat) : State := { s with clustersOff := s.clustersOff.filter (fun c => c != k / 4), clusterUsed := tset s.clusterUsed (k / 4) s.now }

/-- A host-class core bound to a lease, or to firmware alone: its caches flushed, its event record cleared, its cluster powered (12 R468, R473, R474; 16 R578). -/
def State.hcSetBind (s : State) (k : Nat) (lease : Option Nat) : State :=
  let s := ((s.hcFlush k).resetReg (hcReg .HC_DI_EVENT k)).hcWake k
  let b := hcReg .HC_BIND k
  let s := match lease with
    | some n => (s.setFld b HC_BIND.LEASE n).setFld b HC_BIND.VALID 1
    | none => (s.setFld b HC_BIND.LEASE 0).setFld b HC_BIND.VALID 0
  s.setFld (hcReg .HC_STATUS k) HC_STATUS.BOUND (flag lease.isSome)

/-- A write to HC_BIND (12 R474): only while QUIESCED is 1, never of HC0. -/
def State.hcBindWrite (s : State) (k v : Nat) : State × Status :=
  if k % 16 == 0 || s.fld (hcReg .HC_STATUS k) HC_STATUS.QUIESCED == 0 then (s, .state)
  else
    let s := s.hcSetBind k (if bitAt v HC_BIND.VALID.lo then some (bits v HC_BIND.LEASE.hi HC_BIND.LEASE.lo) else none)
    ((s.setFld (hcReg .HC_BIND k) HC_BIND.LEASE (bits v HC_BIND.LEASE.hi HC_BIND.LEASE.lo)).setFld (hcReg .HC_STATUS k) HC_STATUS.QUIESCED 0, .ok)

end Sys2Proof.Machine
end

