-- ==== Sys2Proof/Machine/Eyelet.lean ====
section
/-! DEFINITION. The Eyelet mailboxes and the interrupt controllers (13). -/
namespace Sys2Proof.Machine

/-- A register of mailbox m of CDd (13 R480). -/
def eye (n : RegName) (d m : Nat) : Reg := ⟨n, selCd d, m, 0⟩

/-- EYE_MSG[k] of mailbox m of CDd (13 R480). -/
def eyeMsg (d m k : Nat) : Reg := ⟨.EYE_MSG, selCd d, m, k⟩

/-- The receive line of a mailbox (13 R489). -/
def State.eyeRx (s : State) (d m : Nat) : Bool :=
  s.fld (eye .EYE_CFG d m) EYE_CFG.VALID == 1 &&
    ((s.fld (eye .EYE_STATUS d m) EYE_STATUS.FULL == 1 && s.fld (eye .EYE_CFG d m) EYE_CFG.RX_IE == 1) ||
      s.fld (eye .EYE_DB d m) EYE_DB.BELLS &&& s.fld (eye .EYE_DB_MASK d m) EYE_DB_MASK.MASK != 0)

/-- The sender line of a mailbox (13 R489). -/
def State.eyeTx (s : State) (d m : Nat) : Bool :=
  s.fld (eye .EYE_CFG d m) EYE_CFG.VALID == 1 && s.fld (eye .EYE_CFG d m) EYE_CFG.TX_IE == 1 &&
    (s.fld (eye .EYE_STATUS d m) EYE_STATUS.EMPTIED == 1 || s.fld (eye .EYE_STATUS d m) EYE_STATUS.TIMEOUT == 1)

/-- LINES of EYE_TXSUM[g] (13 R489). -/
def State.eyeLines (s : State) (d g : Nat) : Nat := (List.range 8).foldl (fun w i => setBit w i (s.eyeTx d (8 * g + i))) 0

/-- The lines of a mailbox meet the die's controller (13 R489, R496). -/
def State.eyeSync (s : State) (d m : Nat) : State :=
  let s := s.syncLevel d (0x100 + m) (s.eyeRx d m)
  s.syncLevel d (0x300 + m / 8) (s.eyeLines d (m / 8) != 0)

/-- Message words, EYE_STATUS, EYE_DB and EYE_DB_MASK of a mailbox set to zero (13 R490). -/
def State.eyeZero (s : State) (d m : Nat) : State :=
  let s := (List.range 8).foldl (fun s k => s.setReg (eyeMsg d m k) 0) s
  let s := ((s.setReg (eye .EYE_STATUS d m) 0).setReg (eye .EYE_DB d m) 0).setReg (eye .EYE_DB_MASK d m) 0
  { s with eyeCommits := tdel s.eyeCommits (d * 512 + m), eyeWrites := tdel s.eyeWrites (d * 512 + m) }

/-- The mailboxes of a lease when it is re-bound: zeroed and VALID clear (13 R490). -/
def State.eyeRebind (s : State) (n : Nat) : State :=
  (List.range 4).foldl (fun s d =>
    (List.range 512).foldl (fun s m =>
      if s.fld (eye .EYE_CFG d m) EYE_CFG.VALID == 1 && s.fld (eye .EYE_CFG d m) EYE_CFG.LEASE == n then
        (s.eyeZero d m).setFld (eye .EYE_CFG d m) EYE_CFG.VALID 0
      else s) s) s

/-- What writes of this cycle have done to the message words of a mailbox, if any (13 R486). -/
def State.eyeNow (s : State) (d m : Nat) : Option EyeWrite := (tget? s.eyeWrites (d * 512 + m)).filter (fun w => w.cycle == s.now)

/-- FULL as an access of this cycle meets it: a commit sets it in the cycle after (13 R484). -/
def State.eyeFull (s : State) (d m : Nat) : Bool := s.fld (eye .EYE_STATUS d m) EYE_STATUS.FULL == 1 && (s.eyeNow d m).all (·.full)

/-- A write of EYE_MSG[k]: an unread message is overwritten and COLLISION set; word 7 commits (13 R484, R485, R487). -/
def State.eyeMsgWrite (s : State) (d m k v : Nat) : State × Status :=
  let st := eye .EYE_STATUS d m
  let full := s.eyeFull d m
  let w := (s.eyeNow d m).getD ⟨s.now, full, s.reg (eyeMsg d m 7), s.fld st EYE_STATUS.COLLISION == 1, false⟩
  let s := { s with eyeWrites := tset s.eyeWrites (d * 512 + m) { w with committed := w.committed || k == 7 } }.setReg (eyeMsg d m k) (BitVec.ofNat 64 v)
  let s := if full then s.setW1c st EYE_STATUS.COLLISION else s
  if k != 7 then (s, .ok)
  else (({ s.setFld st EYE_STATUS.FULL 1 with eyeCommits := tset s.eyeCommits (d * 512 + m) s.now } : State).eyeSync d m, .ok)

/-- An expiry of this same cycle undone by the read that takes the message: TIMEOUT is as it was before it (13 R486). -/
def State.undoExpiry (s : State) (d m : Nat) : State :=
  match tget? s.eyeExpired (d * 512 + m) with
  | some x => if x.1 == s.now && !x.2 then s.setFld (eye .EYE_STATUS d m) EYE_STATUS.TIMEOUT 0 else s
  | none => s

/-- A message taken (13 R484): FULL clears, or stays for one that this cycle commits, and EMPTIED is set. -/
def State.eyeTaken (s : State) (d m : Nat) (next : Bool) : State :=
  let st := eye .EYE_STATUS d m
  let s := ((s.undoExpiry d m).setFld st EYE_STATUS.FULL (flag next)).setW1c st EYE_STATUS.EMPTIED
  ({ s with eyeCommits := if next then s.eyeCommits else tdel s.eyeCommits (d * 512 + m) } : State).eyeSync d m

/-- A read of EYE_MSG[7] (13 R484): it returns the word, and takes the message while FULL is 1. Of a read and writes of one cycle the read is performed first (R486): it returns the word before them, and they follow with FULL clear, without COLLISION. -/
def State.eyeTake (s : State) (d m : Nat) : State × Word :=
  let st := eye .EYE_STATUS d m
  if !s.eyeFull d m then (s, s.reg (eyeMsg d m 7))
  else match s.eyeNow d m with
    | none => (s.eyeTaken d m false, s.reg (eyeMsg d m 7))
    | some w => ({ (s.setFld st EYE_STATUS.COLLISION (flag w.collided)).eyeTaken d m w.committed with eyeWrites := tset s.eyeWrites (d * 512 + m) { w with full := false } }, w.word)

/-- EYE_TIMEOUT (13 R487): TMO_US * 1,100 cycles after the commit of a control-class message that is still there. -/
def execEyeTimeout (d : Die) (m : Fin 512) (s : State) : Host.Outcome State Fault Refusal := s.live fun s =>
  let cfg := eye .EYE_CFG d.val m.val
  let st := eye .EYE_STATUS d.val m.val
  match tget? s.eyeCommits (d.val * 512 + m.val) with
  | none => .next s
  | some t =>
    if s.fld cfg EYE_CFG.CLASS == 0 || s.fld st EYE_STATUS.FULL == 0 || s.now < t + s.fld cfg EYE_CFG.TMO_US * 1100 then .next s
    else .next (({ s.setW1c st EYE_STATUS.TIMEOUT with
      eyeCommits := tdel s.eyeCommits (d.val * 512 + m.val), eyeExpired := tset s.eyeExpired (d.val * 512 + m.val) (s.now, s.fld st EYE_STATUS.TIMEOUT == 1) } : State).eyeSync d.val m.val)

/-- A write of EYE_DB_SET (13 R488): a bit it sets stays set through a write of 1 to EYE_DB in the same cycle (R486). -/
def State.eyeDbSet (s : State) (d m v : Nat) : State × Status :=
  let db := eye .EYE_DB d m
  (((s.setFld db EYE_DB.BELLS (s.fld db EYE_DB.BELLS ||| bits v 31 0)).noteCycle db (s.thisCycle db ||| bits v 31 0)).eyeSync d m, .ok)

/-- A write of EYE_STATUS, EYE_DB or EYE_DB_MASK (13 R483, R488). -/
def State.eyePlain (s : State) (a : Actor) (r : Reg) (v : Nat) : State × Status :=
  let p := s.plainWrite a r v
  (p.1.eyeSync (r.sel % 4) r.i, p.2)

/-- A write of EYE_CFG by management firmware (13 R481, R490): every such write writes VALID and zeroes the mailbox; a TMO_US of 0 keeps the old value (R487), and over DCP is refused (00 R10). -/
def State.eyeCfgWrite (s : State) (a : Actor) (d m v : Nat) : State × Status :=
  let r := eye .EYE_CFG d m
  if isDcp a && bits v 15 0 == 0 then (s, .range)
  else
    let s := s.eyeZero d m
    ((s.setReg r (BitVec.ofNat 64 (r.name.written (s.reg r).toNat v))).eyeSync d m, .ok)

/-! Interrupt controllers. Keys 4 and 5 are the concentrators of SV0 and SV1. -/

/-- The key of a controller. -/
def icKey : IcId → Nat
  | .die d => d.val
  | .sv0 => 4
  | .sv1 => 5

/-- A register of a controller. -/
def icReg (n : RegName) (ic i : Nat) : Reg := ⟨n, icSel ic, i, 0⟩

/-- Targets of a controller (13 R491). -/
def icTargets (ic : Nat) : Nat := if ic < 4 then 16 else 4

/-- Whether a source stands in the tables of R492 and R494, whatever the grade. -/
def sourceListed (ic src : Nat) : Bool :=
  if ic < 4 then src ≤ 0xC2 || (0xC4 ≤ src && src ≤ 0xD3) || (0x100 ≤ src && src ≤ 0x37F) else src ≤ 0x0C

/-- The listed sources of a word (13 R497). -/
def listedMask (ic w : Nat) : Nat := (List.range 64).foldl (fun m b => setBit m b (sourceListed ic (64 * w + b))) 0

/-- The line of a level source, filtered where it is filtered (13 R492, R494). -/
def State.levelLine (s : State) (ic src : Nat) : Bool :=
  if ic ≥ 4 then s.filteredHigh.contains (ic * 1024 + src)
  else if src < 0xA0 then !(s.core (coreKey ic (src - 0x50))).notes.isEmpty
  else if src < 0x300 then s.eyeRx ic (src - 0x100)
  else s.eyeLines ic (src - 0x300) != 0

/-- A level source whose line is 1 becomes PENDING while it is not ACTIVE (13 R496). -/
def State.syncSource (s : State) (ic src : Nat) : State :=
  if sourceLevel ic src then s.syncLevel ic src (s.levelLine ic src) else s

/-- The non-maskable source (13 R503). -/
def nonMaskable (ic src : Nat) : Bool := 4 ≤ ic && src == 0

/-- PRIO of a source. -/
def State.prio (s : State) (ic src : Nat) : Nat := s.fld (icReg .IC_SRC ic src) IC_SRC.PRIO

/-- ENABLE of a source (13 R497, R503). -/
def State.enabledSource (s : State) (ic src : Nat) : Bool :=
  nonMaskable ic src || bitAt (s.reg (icReg .IC_ENABLE ic (src / 64))).toNat (src % 64)

/-- Whether a source is deliverable (13 R498, R503). -/
def State.deliverable (s : State) (ic src : Nat) : Bool :=
  s.isPending ic src && s.enabledSource ic src && !s.isActive ic src && (nonMaskable ic src || s.prio ic src != 0)

/-- EN of a target. -/
def State.targetOn (s : State) (ic t : Nat) : Bool := s.fld (icReg .IC_TGT_CFG ic t) IC_TGT_CFG.EN == 1

/-- Targets with EN 1. -/
def State.targetsOn (s : State) (ic : Nat) : List Nat := (List.range (icTargets ic)).filter (s.targetOn ic)

/-- Enabled targets that TARGET of a source names (13 R501). -/
def State.namedTargets (s : State) (ic src : Nat) : List Nat :=
  (s.targetsOn ic).filter (fun t => bitAt (s.fld (icReg .IC_SRC ic src) IC_SRC.TARGET) t)

/-- Whether a source is delivered round robin (13 R501). -/
def State.rounds (s : State) (ic src : Nat) : Bool := s.fld (icReg .IC_CFG ic 0) IC_CFG.FORCE_RR == 1 || (s.namedTargets ic src).isEmpty

/-- The first enabled target at or after `t`, wrapping. -/
def State.nextTarget (s : State) (ic t : Nat) : Option Nat :=
  let n := icTargets ic
  (List.range n).findSome? (fun i => let u := (t + i) % n; if s.targetOn ic u then some u else none)

/-- The target that round robin serves: after the last claimant, or where it has moved the source on (13 R501). -/
def State.rrTarget (s : State) (ic src : Nat) : Option Nat := s.nextTarget ic ((tget? s.roundRobin (ic * 1024 + src)).getD (tget 0 s.lastClaim (ic * 1024 + src)))

/-- Whether a source is routed to a target (13 R501, R503). -/
def State.routed (s : State) (ic src t : Nat) : Bool :=
  nonMaskable ic src || (if s.rounds ic src then s.rrTarget ic src == some t else (s.namedTargets ic src).contains t)

/-- Whether a source is deliverable, or would be but for a write of this cycle that cleared its ENABLE (13 R498, R502). -/
def State.offered (s : State) (ic src : Nat) : Bool :=
  s.deliverable ic src ||
    (s.isPending ic src && !s.isActive ic src && s.prio ic src != 0 && bitAt (s.thisCycle (icReg .IC_ENABLE ic (src / 64))) (src % 64))

/-- Whether a target may claim a source (13 R498, R499, R502, R503). -/
def State.claimable (s : State) (ic t src : Nat) : Bool :=
  s.offered ic src &&
    (nonMaskable ic src || (s.targetOn ic t && s.fld (icReg .IC_TGT_CFG ic t) IC_TGT_CFG.THRESHOLD < s.prio ic src && s.routed ic src t))

/-- The order of claims: the non-maskable source, then higher priority, then the lower number (13 R499). -/
def State.claimRank (s : State) (ic src : Nat) : Nat := if nonMaskable ic src then 8 else s.prio ic src

/-- Sources that are PENDING, in ascending order. -/
def State.pendingSources (s : State) (ic : Nat) : List Nat :=
  (List.range 16).flatMap (fun w =>
    let p := (s.reg (icReg .IC_PENDING ic w)).toNat
    if p == 0 then [] else ((List.range 64).filter (bitAt p)).map (64 * w + ·))

/-- The source that a claim of target `t` receives (13 R499). -/
def State.claimChoice (s : State) (ic t : Nat) : Option Nat :=
  ((s.pendingSources ic).filter (s.claimable ic t)).foldl (fun b x =>
    match b with
    | none => some x
    | some y => if s.claimRank ic y < s.claimRank ic x then some x else some y) none

/-- Whether the non-maskable source is signalled to every target of the concentrator: while it is PENDING (13 R503). -/
def State.nmiLine (s : State) (ic : Nat) : Bool := 4 ≤ ic && s.isPending ic 0

/-- Whether a target's interrupt line is asserted (13 R498, R503). -/
def State.targetLine (s : State) (ic t : Nat) : Bool :=
  s.nmiLine ic || (s.targetOn ic t && (s.pendingSources ic).any (fun x => s.deliverable ic x && s.routed ic x t && s.fld (icReg .IC_TGT_CFG ic t) IC_TGT_CFG.THRESHOLD < s.prio ic x))

/-- Whether a host-class core waits for an interrupt (12 R473): its program does, and the line of its target is not asserted. DESIGN CHOICE (log 35): whether the program waits in a cycle is a free value. -/
def State.hcWfi (s : State) (k : Nat) : Bool := Config.hcWaits k s.now && !s.targetLine (k / 16) (k % 16)

/-- A cycle charged to the leases of the allotted host-class cores that do not wait (15 R557). -/
def State.hcCycle (s : State) : State :=
  (List.range 64).foldl (fun s k => match s.hcLease k with | some n => if s.hcWfi k then s else s.charge n 1 1 | none => s) s

/-- The target to which round robin offers a source now, if it does. -/
def State.rrOffer (s : State) (ic src : Nat) : Option Nat := if s.deliverable ic src && s.rounds ic src then s.rrTarget ic src else none

/-- Sources of a controller that round robin has begun to offer, or to offer to another target, since an earlier state, noted (13 R501). -/
def State.rrNote (s : State) (old : State) (ic : Nat) : State :=
  (s.pendingSources ic).foldl (fun (t : State) x => if s.rrOffer ic x == old.rrOffer ic x then t else if (old.rrOffer ic x).isNone then t.rrBegin ic x else t.rrMark ic x) s

/-- A read of IC_CLAIM[t] (13 R499): PENDING clear, ACTIVE set, the claimant kept. DEDUCED (log 48): claims of one cycle stand in the queue in ascending target order. -/
def State.icClaim (s : State) (ic t : Nat) : State × Word :=
  match s.claimChoice ic t with
  | none => (s, 0x3FF#64)
  | some x =>
    let s := (s.putBit (icPending ic x) (x % 64) false).putBit (icActive ic x) (x % 64) true
    let k := ic * 1024 + x
    ((({ s with claimedBy := tset s.claimedBy k t, lastClaim := tset s.lastClaim k (t + 1), roundRobin := tdel s.roundRobin k } : State).noteEsc ic).notePending ic x false, BitVec.ofNat 64 x)

/-- A write of IC_COMPLETE[t] (13 R500). -/
def State.icComplete (s : State) (ic t v : Nat) : State × Status :=
  let x := bits v 9 0
  let k := ic * 1024 + x
  if s.isActive ic x && tget? s.claimedBy k == some t then
    (({ s.putBit (icActive ic x) (x % 64) false with claimedBy := tdel s.claimedBy k } : State).syncSource ic x, .ok)
  else (s, .ok)

/-- A write of IC_SWSET (13 R497). -/
def State.icSwset (s : State) (ic v : Nat) : State × Status :=
  let x := bits v 9 0
  (if 0x340 ≤ x && x ≤ 0x37F && sourceListed ic x then s.setPending ic x else s, .ok)

/-- A write of IC_PENDING[w] (13 R497, R502): the word is replaced, and the hardware updates of this cycle are applied after it; a level source whose line is 1 is set again. -/
def State.icPendingWrite (s : State) (ic w v : Nat) : State × Status :=
  let v := (v &&& ((2 ^ 64 - 1) ^^^ s.thisCycle (icReg .IC_ACTIVE ic w))) ||| s.thisCycle (icReg .IC_PENDING ic w)
  let s := (s.setReg (icReg .IC_PENDING ic w) (BitVec.ofNat 64 (v &&& listedMask ic w))).noteEsc ic
  ((List.range 64).foldl (fun s b => s.syncSource ic (64 * w + b)) s, .ok)

/-- A write of IC_ENABLE[w] (13 R497, R502, R503): a claim of this cycle still meets the sources it disables. -/
def State.icEnableWrite (s : State) (ic w v : Nat) : State × Status :=
  let r := icReg .IC_ENABLE ic w
  let cleared := (s.reg r).toNat &&& ((2 ^ 64 - 1) ^^^ v)
  ((s.noteCycle r (s.thisCycle r ||| cleared)).setReg r (BitVec.ofNat 64 (v &&& listedMask ic w)), .ok)

/-- A write of IC_SRC[s] (13 R497): on the concentrator only TARGET 19:16 and PRIO. -/
def State.icSrcWrite (s : State) (ic x v : Nat) : State × Status :=
  if !sourceListed ic x then (s, .ok)
  else
    let w := if ic < 4 then setBits (setBits (setBits 0 31 16 (bits v 31 16)) 5 5 (bits v 5 5)) 2 0 v
      else setBits (setBits 0 19 16 (bits v 19 16)) 2 0 v
    ((s.setReg (icReg .IC_SRC ic x) (BitVec.ofNat 64 w)).noteEsc ic, .ok)

/-- What a read of a controller's register shows (13 R497, R503): the fixed bits of IC_SRC and the enable of the non-maskable source. -/
def State.icShow (s : State) (r : Reg) : Word :=
  let ic := icOf r.sel
  match r.name with
  | .IC_SRC => if !sourceListed ic r.i then 0 else
      BitVec.ofNat 64 (setBit (setBit (s.reg r).toNat 4 (sourceFiltered ic r.i)) 3 (sourceLevel ic r.i))
  | .IC_ENABLE => if 4 ≤ ic && r.i == 0 then BitVec.ofNat 64 (setBit (s.reg r).toNat 0 true) else s.reg r
  | _ => s.reg r

/-- A read of IC_RING_NOTE[L] (13 R493): the oldest entry is popped. -/
def State.ringNoteRead (s : State) (k : Nat) : State × Word :=
  match (s.core k).notes with
  | [] => (s, 0)
  | n :: l =>
    ((s.onCore k (fun c => { c with notes := l })).syncLevel (coreDie k) (0x50 + coreNum k) (!l.isEmpty),
      BitVec.ofNat 64 (setBits (setBits (setBit (setBit 0 63 true) 62 n.overflow) 47 32 n.status) 13 0 n.ring))

/-- IC_CLAIM (13 R499): the controller's target `t` reads its claim register. -/
def execIcClaim (ic : IcId) (t : Fin 16) (s : State) : Host.Outcome State Fault Refusal := s.live fun s =>
  if icTargets (icKey ic) ≤ t.val || !s.icLive (icKey ic) then .next s
  else
    let p := s.icClaim (icKey ic) t.val
    .next (p.1.answer .ok p.2)

/-- IC_COMPLETE (13 R500): target `t` writes its completion register. -/
def execIcComplete (ic : IcId) (t : Fin 16) (v : Word) (s : State) : Host.Outcome State Fault Refusal := s.live fun s =>
  if icTargets (icKey ic) ≤ t.val || !s.icLive (icKey ic) then .next s
  else
    let p := s.icComplete (icKey ic) t.val v.toNat
    .next ((p.1.rrNote s (icKey ic)).answer p.2 0)

/-- RR_ADVANCE (13 R501): 1,024 cycles have passed without a claim of the target that round robin serves; the source moves to the next. -/
def execRrAdvance (ic : IcId) (x : Fin 1024) (s : State) : Host.Outcome State Fault Refusal := s.live fun s =>
  let ic := icKey ic
  if s.icLive ic && s.deliverable ic x.val && s.rounds ic x.val && !nonMaskable ic x.val then
    match s.rrTarget ic x.val with
    | none => .next s
    | some t =>
      if s.now < tget 0 s.rrSince (ic * 1024 + x.val) + 1024 then .next s
      else .next (({ s with roundRobin := tset s.roundRobin (ic * 1024 + x.val) (t + 1) } : State).rrMark ic x.val)
  else .next s

/-- Whether the raw line of a filtered source has held a level for FILTER cycles (13 R495): an event's pulse lasts 256 cycles. -/
def State.lineHeld (s : State) (ic x : Nat) (level : Bool) : Bool :=
  let key := ic * 1024 + x
  let f := s.fld (icReg .IC_CFG ic 0) IC_CFG.FILTER
  if sourceLevel ic x then
    let l := tget ⟨false, 0⟩ s.rawLines (if ic == 5 then 4 * 1024 + x else key)
    l.level == level && decide (l.since + f ≤ s.now)
  else
    match tget? s.pulses key with
    | none => false
    | some t => if level then decide (t + f ≤ s.now) else decide (t + 256 + f ≤ s.now)

/-- FILTERED_LINE_CHANGE (13 R495, R496): the filtered line takes the level; a rising one sets PENDING. -/
def execFilteredLineChange (ic : IcId) (x : Fin 1024) (level : Bool) (s : State) : Host.Outcome State Fault Refusal := s.live fun s =>
  let ic := icKey ic
  let key := ic * 1024 + x.val
  if !s.icLive ic || !sourceFiltered ic x.val || s.filteredHigh.contains key == level || !s.lineHeld ic x.val level then .next s
  else if level then
    let s := { s with filteredHigh := sins s.filteredHigh key }
    .next (if sourceLevel ic x.val then s.syncLevel ic x.val true else s.setPending ic x.val)
  else .next { s with filteredHigh := sdel s.filteredHigh key, pulses := tdel s.pulses key }

end Sys2Proof.Machine
end

