-- ==== Sys2Proof/Machine/HostPort.lean ====
section
/-! DEFINITION. The host ports: ingress FIFO and landing ring, sessions, the command window, replies and events (14 R505-R535). -/
namespace Sys2Proof.Machine

/-- A register of host port h (14 R508). -/
def hp (n : RegName) (h : Nat) : Reg := ⟨n, selIo h, 0, 0⟩

/-! Sessions. -/

/-- The key of a session slot. -/
def sesKey (h slot : Nat) : Nat := h * 256 + slot

/-- The sessions of a port. -/
def State.portSessions (s : State) (h : Nat) : List (Nat × Session) := s.sessions.filter (fun p => p.1 / 256 == h)

/-- The session that a SESSION number names on a port. -/
def State.findSession (s : State) (h id : Nat) : Option (Nat × Session) := (s.portSessions h).find? (fun p => p.2.id == id)

/-- SESSIONS of HP_STATUS at the number of open sessions (14 R508). -/
def State.countSessions (s : State) (h : Nat) : State :=
  s.setFld (hp .HP_STATUS h) HP_STATUS.SESSIONS ((s.portSessions h).filter (fun p => p.2.open')).length

/-- The port of a session slot: 256 slots on each of the two ports. -/
def sesPort (k : Nat) : Nat := k / 256 % 2

/-- A session set. -/
def State.setSession (s : State) (k : Nat) (x : Session) : State := ({ s with sessions := tset s.sessions k x } : State).countSessions (sesPort k)

/-- A session freed (14 R513, R514, R522, R526). -/
def State.freeSession (s : State) (k : Nat) : State := ({ s with sessions := tdel s.sessions k } : State).countSessions (sesPort k)

/-- A session changed, where it is still there. -/
def State.onSession (s : State) (k : Nat) (f : Session → Session) : State :=
  match tget? s.sessions k with
  | none => s
  | some x => s.setSession k (f x)

/-- UDP payload bytes of a lease's session received (`tx` 0) or sent (`tx` 1) on a port (15 R557). -/
def State.chargePort (s : State) (lease : Option Nat) (h tx n : Nat) : State :=
  match lease with
  | none => s
  | some l => s.charge l (8 + 2 * h + tx) n

/-- Bytes of a protected packet: header, parameters, data and tag (14 R515). -/
def udpBytes (plen dlen : Nat) : Nat := 48 + plen + dlen

/-- The host-to-device key of a session (14 R510). -/
def Session.hostKey (x : Session) : List Byte := x.keys.take 32
/-- The device-to-host key of a session (14 R510). -/
def Session.deviceKey (x : Session) : List Byte := (x.keys.drop 32).take 32
/-- The host-to-device salt of a session (14 R510). -/
def Session.hostSalt (x : Session) : List Byte := (x.keys.drop 64).take 4
/-- The device-to-host salt of a session (14 R510). -/
def Session.deviceSalt (x : Session) : List Byte := (x.keys.drop 68).take 4

/-- The 32 bytes of a DCP header (14 R516): version, UNIT, SESSION, PN, SEQ, OPCODE, LEASE, FLAGS, PLEN, STATUS and the reserved bytes. -/
def dcpHeader (verMajor verMinor unit session pn seq opcode lease flags plen status resv : Nat) : List Byte :=
  [BitVec.ofNat 8 verMajor, BitVec.ofNat 8 verMinor] ++ beBytes 2 unit ++ beBytes 4 session ++ beBytes 8 pn ++ beBytes 4 seq ++ beBytes 2 opcode ++
    [BitVec.ofNat 8 lease, BitVec.ofNat 8 flags] ++ beBytes 4 plen ++ beBytes 2 status ++ beBytes 2 resv

/-- FLAGS of a sent packet: REPLY, or EVENT (14 R516). -/
def sentFlags (event : Bool) : Nat := if event then 0x40 else 0x80

/-- A protected body (14 R511, R515): parameters and data encrypted and then the tag, under a key, the salt and PN as nonce, and the header as associated data. -/
def sealed (key salt : List Byte) (pn : Nat) (header params data : List Byte) : List Byte := Config.gcmSeal key (salt ++ beBytes 8 pn) header (params ++ data)

/-- A packet of a session as it leaves with the next PN (14 R506, R511, R515, R516). DESIGN CHOICE (log 22): UNIT is the unit's own address, LEASE the session's lease and the version the session's; the manual states these fields for commands. -/
def State.packetOut (s : State) (x : Session) (seq opcode : Nat) (event : Bool) (st : Status) (params data : List Byte) : HostOut :=
  let header := dcpHeader x.verMajor x.verMinor s.self x.id x.sendPn seq opcode (x.lease.getD 0) (sentFlags event) params.length (code st) 0
  ⟨x.peer, x.id, x.sendPn, seq, opcode, event, st, params, data, header ++ sealed x.deviceKey x.deviceSalt x.sendPn header params data⟩

/-- A protected packet sent in a session, with the next PN (14 R511). -/
def State.sendIn (s : State) (k : Nat) (seq opcode : Nat) (event : Bool) (st : Status) (params data : List Byte) : State :=
  match tget? s.sessions k with
  | none => s
  | some x =>
    let h := sesPort k
    let out := s.packetOut x seq opcode event st params data
    let s := s.setSession k { x with sendPn := x.sendPn + 1 }
    let s := { s with hostWire := tset s.hostWire h out }
    s.chargePort x.lease h 1 (udpBytes params.length data.length)

/-! The opcode table (14 R523). -/

/-- The opcodes of the table. -/
def opcodes : List Nat :=
  [0x0001, 0x0002, 0x0003, 0x0004, 0x0005, 0x0101, 0x0102, 0x0103, 0x0104, 0x0105, 0x0201, 0x0202, 0x0301, 0x0302, 0x0303, 0x0304, 0x0305, 0x0306, 0x0307
  , 0x0401, 0x0402, 0x0403, 0x0404, 0x0405, 0x0501, 0x0502, 0x0503, 0x0504, 0x0601, 0x0602, 0x0603, 0x0604, 0x0701]

/-- Opcodes allowed in minimal mode, marked m. -/
def opMinimal (o : Nat) : Bool := [0x0001, 0x0002, 0x0003, 0x0004, 0x0005, 0x0101, 0x0102, 0x0103, 0x0104, 0x0601, 0x0602, 0x0603, 0x0604, 0x0701].contains o

/-- Opcodes available under a major version: under major 3 only those marked 3 (14 R517). -/
def opExists (major o : Nat) : Bool :=
  opcodes.contains o && (major == 4 || !([0x0103, 0x0304, 0x0306, 0x0307, 0x0401, 0x0402, 0x0403, 0x0404, 0x0405, 0x0501, 0x0502, 0x0503, 0x0504].contains o))

/-- Opcodes of management sessions alone, Use M. -/
def opManagement (o : Nat) : Bool := [0x0301, 0x0302, 0x0303, 0x0304, 0x0306, 0x0601, 0x0602, 0x0603, 0x0604, 0x0701].contains o

/-- Whether a session's role permits an opcode with a header's LEASE (14 R520 check 2, R523): HELLO and AUTH are handshakes, and a session not yet open is neither a lease session nor a management session (log 39). -/
def Session.permits (x : Session) (o lease : Nat) : Bool :=
  x.open' && o != 1 && o != 2 && (match x.lease with | some n => lease == n && !opManagement o | none => lease == 0)

/-- The checks of 14 R520, third step, before that of the parameters: version, role (`named`: every lease a parameter names is one the role may name), minimal mode, opcode. -/
def State.opCheck (s : State) (x : Session) (o lease major minor : Nat) (named : Bool) : Option Status :=
  firstFail
    [ need (major == x.verMajor && minor ≤ x.verMinor) .range
    , need (x.permits o lease && named) .auth
    , need (!s.minimal || opMinimal o) .minimalMode
    , need (opExists x.verMajor o) .range ]

/-! Replies. -/

/-- One reply sent: kept among the last 2W, L advanced (14 R518, R521). -/
def State.replyOne (s : State) (k : Nat) (r : DcpReply) : State :=
  let s := s.sendIn k r.seq r.opcode false r.status r.params r.data
  s.onSession k (fun x => { x with next := r.seq + 1, cmds := x.cmds.filter (fun c => c.seq != r.seq), replies := (r :: x.replies).take (2 * x.window) })

/-- Commands whose turn comes with their status already settled are replied to: those ended before they began (15 R544, R547), opcodes that are not listed, and HELLO with a SESSION (14 R520). -/
def State.settleCmds (s : State) (k : Nat) : Nat → State
  | 0 => s
  | n + 1 =>
    match tget? s.sessions k with
    | none => s
    | some x =>
      match x.cmds.find? (fun c => c.seq == x.next && c.begun.isNone) with
      | none => s
      | some c =>
        match c.ended with
        | some st => (s.replyOne k ⟨c.seq, c.opcode, st, [], []⟩).settleCmds k n
        | none =>
          if c.opcode == 1 || !opcodes.contains c.opcode then
            (s.replyOne k ⟨c.seq, c.opcode, if c.spoiled then .integrity else (s.opCheck x c.opcode c.lease c.verMajor c.verMinor true).getD .range, [], []⟩).settleCmds k n
          else s

/-- A command's reply, and those of the settled commands after it (14 R519, R521). -/
def State.reply (s : State) (k : Nat) (r : DcpReply) : State :=
  match tget? s.sessions k with
  | none => s
  | some x => if x.cmds.any (fun c => c.seq == r.seq) then (s.replyOne k r).settleCmds k (x.cmds.length + 1) else s

/-- What a command's operation comes to: a reply with its status, parameters and data; it runs on; it waits for what its effect needs, with the register writes it has performed, and is taken up again by its next command (14 R521); or a reply of ST_OK with which its session ends (R522). -/
inductive DcpOut where
  | reply (st : Status) (params data : List Byte)
  | runs
  | waits (done : Nat)
  | closes

/-- A status without results. -/
def statusOut (st : Status) : DcpOut := .reply st [] []

/-- The command of a header whose turn has come: accepted, at L, and neither ended nor begun, unless it waits to be taken up again (14 R519). -/
def State.turn (s : State) (q : DcpHdr) (o : Nat) : Option (Nat × Session) :=
  match s.findSession q.port.val q.session with
  | none => none
  | some p =>
    if q.seq == p.2.next && p.2.cmds.any (fun c => c.seq == q.seq && c.opcode == o && (c.begun.isNone || c.held.isSome) && c.ended.isNone) then some p else none

/-- Opcodes that a QUIESCING lease still performs (15 R546). -/
def opInQuiesce (o : Nat) : Bool := [0x0003, 0x0004, 0x0005, 0x0101, 0x0104, 0x0305, 0x0307].contains o

/-- Whether a lease is QUIESCING (15 R537). -/
def State.quiescing (s : State) (n : Nat) : Bool := s.fld (leaseCfg n) LEASE_CFG.STATE == 2

/-- A command of a session changed, where it is still there. -/
def State.onCmd (s : State) (k seq : Nat) (f : DcpCmd → DcpCmd) : State :=
  s.onSession k (fun x => { x with cmds := x.cmds.map (fun c => if c.seq == seq then f c else c) })

/-- A command's begin noted: it runs on until its own event (14 R521), within a bound in cycles from its first begin. -/
def State.beginCmd (s : State) (k seq bound : Nat) : State :=
  s.onCmd k seq (fun c => { c with begun := some (c.begun.getD (s.now, bound)), held := none })

/-- A command that has begun and waits to be taken up again; the wait counts toward its bound (14 R521, 18 R616). -/
def State.holdCmd (s : State) (k seq bound done : Nat) : State :=
  s.onCmd k seq (fun c => { c with begun := some (c.begun.getD (s.now, bound)), held := some done })

/-- The accepted command of a SEQ. -/
def Session.cmd (x : Session) (seq : Nat) : Option DcpCmd := x.cmds.find? (fun c => c.seq == seq)

/-- Whether a FIFO row that carried the command of a SEQ was read with an uncorrectable word (14 R533). -/
def Session.spoiled (x : Session) (seq : Nat) : Bool := x.cmds.any (fun c => c.seq == seq && c.spoiled)

/-- Whether FLAGS, STATUS or the reserved bytes of a command's header are not zero (14 R516). DESIGN CHOICE (log 22): REPLY and EVENT in a command are treated as reserved bits that are set. -/
def Session.oddHeader (x : Session) (seq : Nat) : Bool := x.cmds.any (fun c => c.seq == seq && c.odd)

/-- Whether a command arrived while its session's lease was QUIESCING (15 R546). -/
def Session.cameInQuiesce (x : Session) (seq : Nat) : Bool := x.cmds.any (fun c => c.seq == seq && c.inQuiesce)

/-- Whether QUIESCING does not hold a command back: its opcode is performed nevertheless, or it did not arrive in it and its session's lease is not QUIESCING (15 R546). -/
def State.mayBegin (s : State) (x : Session) (seq o : Nat) : Bool := opInQuiesce o || (!x.cameInQuiesce seq && !x.lease.any s.quiescing)

/-- The landing rows of a command's data: the first and how many (14 R527). -/
def Session.landing (x : Session) (seq : Nat) : Nat × Nat := match x.cmd seq with | some c => c.landing | none => (0, 0)

/-- The packet engine and the firmware of a host port at its landing ring. -/
def landAgent (h : Nat) (lease : Option Nat) : Agent := ⟨.host, h, 128 + h, lease, none, false⟩

/-- The address of a landing row of a port (14 R527). -/
def State.landAddr (s : State) (h n : Nat) : Nat := s.fld (hp .HP_LAND_BASE h) HP_LAND_BASE.BASE + 512 * (n % max 1 (s.fld (hp .HP_LAND_ROWS h) HP_LAND_ROWS.ROWS))

/-- The landing rows of a command read at its turn, as LPDDR5X (14 R533, 07 R272, R279), and whether any is poisoned. -/
def State.landRead (s : State) (h : Nat) (lease : Option Nat) (l : Nat × Nat) : State × Bool :=
  (List.range l.2).foldl (fun (p : State × Bool) i => let r := p.1.agentRead (landAgent h lease) (p.1.landAddr h (l.1 + i)); (r.1, p.2 || r.2.poison)) (s, false)

/-- A command performed at its turn (14 R520, R521, R533): a poisoned FIFO or landing row ends it with ST_INTEGRITY; then the checks in their order; then the operation's own, which answers, runs on within `bound` cycles, or waits. -/
def State.dcp (s : State) (q : DcpHdr) (o plen : Nat) (dlenOk : Bool) (paramOk leaseOk : Bool) (bound : Nat) (act : State → Nat → Session → State × DcpOut) : State :=
  match s.turn q o with
  | none => s
  | some (k, x) =>
    let d := s.landRead q.port.val x.lease (x.landing q.seq)
    let s := d.1
    let bad := if q.poisoned || x.spoiled q.seq || d.2 then some .integrity else firstFail
      [ s.opCheck x o q.lease.val q.verMajor q.verMinor leaseOk
      , need (q.plen == plen && dlenOk && paramOk && !q.resv && !x.oddHeader q.seq) .range
      , need (s.mayBegin x q.seq o) .state ]
    match bad with
    | some st => s.reply k ⟨q.seq, o, st, [], []⟩
    | none =>
      let p := act s k x
      match p.2 with
      | .reply st params data => p.1.reply k ⟨q.seq, o, st, params, data⟩
      | .runs => p.1.beginCmd k q.seq bound
      | .waits done => p.1.holdCmd k q.seq bound done
      | .closes => (p.1.replyOne k ⟨q.seq, o, .ok, [], []⟩).freeSession k

/-- The lease a command of a session acts for: a lease session's own, else the header's, which is zero (14 R516, R523). -/
def Session.actsFor (x : Session) : Nat := x.lease.getD 0

/-- Whether a session may name a lease (14 R520 check 2, 15 R547). -/
def Session.mayName (x : Session) (n : Nat) : Bool := x.lease.isNone || x.lease == some n

/-! Events (14 R526). -/

/-- An event sent to one session, or counted as dropped at 64 unacknowledged ones. -/
def State.eventTo (s : State) (k ev : Nat) (st : Status) (params : List Byte) : State :=
  match tget? s.sessions k with
  | none => s
  | some x =>
    if 64 ≤ x.events.length then s.setSession k { x with dropped := x.dropped + 1 }
    else
      let params := beBytes 4 x.dropped ++ params
      let s := s.setSession k { x with evNext := x.evNext + 1, dropped := 0, events := x.events ++ [⟨x.evNext, ev, st, params, s.now, 0⟩] }
      s.sendIn k x.evNext ev true st params []

/-- An event sent to every open session that `p` takes. -/
def State.postEvent (s : State) (p : Session → Bool) (ev : Nat) (st : Status) (params : List Byte) : State :=
  (s.sessions.filter (fun x => x.2.open' && p x.2)).foldl (fun s x => s.eventTo x.1 ev st params) s

/-- LEASE_FAULT (14 R526, 15 R546): FAULTS counts, and the lease's and all management sessions are told. -/
def State.leaseFault (s : State) (n : Nat) (st : Status) (cyc : List Byte) : State :=
  (s.bump (leaseCfg n) LEASE_CFG.FAULTS 1).postEvent (fun x => x.mayName n) 0x8001 st ([BitVec.ofNat 8 n, 0#8, 0#8, 0#8] ++ cyc)

/-- EVENT_RETRANSMIT (14 R526): every event of a session that has waited 10 ms is sent again; after 16 times the session is freed. -/
def execEventRetransmit (h : Fin 2) (session : Nat) (s : State) : Host.Outcome State Fault Refusal := s.live fun s =>
  match s.findSession h.val session with
  | none => .next s
  | some (k, x) =>
    let due := x.events.filter (fun e => e.sent + ms 10 ≤ s.now)
    if due.any (fun e => 16 ≤ e.tries) then .next (s.freeSession k)
    else
      let s' := s.setSession k { x with events := x.events.map (fun e => if e.sent + ms 10 ≤ s.now then { e with sent := s.now, tries := e.tries + 1 } else e) }
      .next (due.foldl (fun s e => s.sendIn k e.seq e.code true e.status e.params []) s')

/-! Reception (14 R506, R512, R518, R520, R527-R533). -/

/-- The ingress side of a port. -/
def State.rx (s : State) (h : Nat) : HostRx := tget HostRx.empty s.hostRx h

/-- The ingress side of a port replaced. -/
def State.setRx (s : State) (h : Nat) (x : HostRx) : State := { s with hostRx := tset s.hostRx h x }

/-- FIFO rows a packet occupies (14 R527). -/
def fifoRowsOf (p : HostPacket) : Nat := ceilDiv (8 + 32 + p.params.length) 64

/-- Landing rows a packet's data occupy (14 R527). -/
def landRowsOf (p : HostPacket) : Nat := ceilDiv p.data.length 512

/-- The DCP header of a received packet (14 R516). -/
def headerBytes (p : HostPacket) : List Byte := dcpHeader p.verMajor p.verMinor p.unit.toNat p.session p.pn p.seq p.opcode p.lease.val p.flags p.params.length p.status p.resv

/-- Whether FLAGS, STATUS or the reserved bytes of a received header are not zero (14 R516). -/
def oddPacket (p : HostPacket) : Bool := p.flags != 0 || p.status != 0 || p.resv != 0

/-- The link-local IPv6 address of a port. PRESUMED (log 22): the modified EUI-64 identifier of its MAC, by the published standard; the manual names the address and gives no form. -/
def linkLocal (h : Nat) : BitVec 128 :=
  let m := (Config.portMac h).toNat
  BitVec.ofNat 128 (0xFE80 * 2 ^ 112 + ((m / 2 ^ 24) ^^^ 0x20000) * 2 ^ 40 + 0xFFFE * 2 ^ 24 + m % 2 ^ 24)

/-- Whether an IPv6 address is an enabled one of a port: its global address where one is set, or the link-local one (14 R505, R508). -/
def State.ownIp6 (s : State) (h : Nat) (a : BitVec 128) : Bool :=
  let g := (s.reg (hp .HP_IPV6_HI h)).toNat * 2 ^ 64 + (s.reg (hp .HP_IPV6_LO h)).toNat
  bitAt (s.fld (hp .HP_CFG h) HP_CFG.IP) 0 && ((g != 0 && a.toNat == g) || a == linkLocal h)

/-- Whether an IPv4 address is the enabled one of a port (14 R505, R508). -/
def State.ownIp4 (s : State) (h : Nat) (a : BitVec 32) : Bool :=
  let g := s.fld (hp .HP_IPV4 h) HP_IPV4.ADDR
  bitAt (s.fld (hp .HP_CFG h) HP_CFG.IP) 1 && g != 0 && a.toNat == g

/-- Whether what a frame carries is of a kind the port supports, goes to an enabled address of the port, and, for UDP, to UDP_PORT; an IP packet above 9,000 bytes, an extension header, an option or a fragment is not supported (14 R505, R506). -/
def State.netTaken (s : State) (h : Nat) (p : HostPacket) : Bool :=
  let udp := p.udpPort == s.fld (hp .HP_CFG h) HP_CFG.UDP_PORT && p.params.length ≤ 512 && p.data.length ≤ 8192
  match p.net with
  | .udp6 _ d e => udp && s.ownIp6 h d && !e
  | .udp4 _ d o f => udp && s.ownIp4 h d && !o && !f
  | .echo6 _ d l => s.ownIp6 h d && l.length + 48 ≤ 9000
  | .echo4 _ d l => s.ownIp4 h d && l.length + 28 ≤ 9000
  | .arp t => s.ownIp4 h t
  | .solicit t => s.ownIp6 h t
  | .other => false

/-- Whether a frame asks for an address by multicast (14 R506). -/
def netAsks : HostNet → Bool
  | .arp _ => true
  | .solicit _ => true
  | _ => false

/-- Whether a port takes a frame: its MAC, VLAN, IP destination and UDP port match (14 R506). -/
def State.hostTakes (s : State) (h : Nat) (p : HostPacket) : Bool :=
  (match p.dstMac with | .own => true | .multicast => netAsks p.net | .mac a => a == Config.portMac h) &&
    (match p.tags with | [] => s.fld (hp .HP_CFG h) HP_CFG.VLAN == 0 | [t] => t != 0 && s.fld (hp .HP_CFG h) HP_CFG.VLAN == t | _ => false) && s.netTaken h p

/-- What a frame back to the sender of another carries: the addresses change places. -/
def netBack : HostNet → HostNet
  | .udp6 a b _ => .udp6 b a false
  | .udp4 a b _ _ => .udp4 b a false false
  | .echo6 a b l => .echo6 b a l
  | .echo4 a b l => .echo4 b a l
  | n => n

/-- Where an answer to a frame goes (14 R506). -/
def packetPeer (p : HostPacket) : HostPeer := ⟨p.srcMac, p.tags.headD 0, netBack p.net, p.srcPort⟩

/-- Whether a frame carries a UDP datagram. -/
def netUdp : HostNet → Bool
  | .udp6 .. => true
  | .udp4 .. => true
  | _ => false

/-- Whether the FIFO and the landing ring have room for a packet (14 R530); in minimal mode the data lie in SV0 (log 22). -/
def State.hasRoom (s : State) (h : Nat) (p : HostPacket) : Bool :=
  let f := hp .HP_FIFO_PTR h
  let l := hp .HP_LAND_PTR h
  decide ((diff32 (s.fld f HP_FIFO_PTR.TAIL) (s.fld f HP_FIFO_PTR.HEAD)).toNat + (fifoRowsOf p) ≤ 4096) &&
    ((landRowsOf p) == 0 || s.minimal ||
      decide ((diff32 (s.fld l HP_LAND_PTR.TAIL) (s.fld l HP_LAND_PTR.HEAD)).toNat + (landRowsOf p) ≤ s.fld (hp .HP_LAND_ROWS h) HP_LAND_ROWS.ROWS))

/-- The session of a packet, a HELLO having none. -/
def State.packetSession (s : State) (h : Nat) (p : HostPacket) : Option (Nat × Session) := if p.session == 0 then none else s.findSession h p.session

/-- Whether a packet is a HELLO in clear, with SESSION 0 and PN 0 (14 R509). -/
def isHello (p : HostPacket) : Bool := p.session == 0 && p.opcode == 1 && p.pn == 0

/-- Whether the body of a packet passes the tag check of its session (14 R511). -/
def Session.opens (x : Session) (p : HostPacket) : Bool :=
  match p.body with
  | .sealed => true
  | .given b => b.length == p.params.length + p.data.length + 16 && b == sealed x.hostKey x.hostSalt p.pn (headerBytes p) p.params p.data

/-- Whether a session takes a PN (14 R512). -/
def Session.takesPn (x : Session) (pn : Nat) : Bool := decide (x.high < pn + 1024) && 0 < pn && !x.pns.contains pn

/-- The verdict of a packet (14 R528). -/
def State.verdict (s : State) (h : Nat) (p : HostPacket) : Nat :=
  if !p.complete then 4
  else if !p.fcsOk then 1
  else if (isHello p) then 0
  else match s.packetSession h p with
    | none => 2
    | some x => if !x.2.opens p then 2 else if !x.2.takesPn p.pn then 3 else 0

/-- The length word of a packet (14 R528), by its verdict. -/
def State.lengthWord (s : State) (h : Nat) (p : HostPacket) (v land : Nat) : Nat :=
  let slot := match s.packetSession h p with | some x => x.1 % 256 | none => 0xFFF
  setBits (setBits (setBits (setBits (setBits (setBit 0 63 true) 62 60 v) 59 48 slot) 47 32 p.data.length) 31 10 land) 9 0 (32 + p.params.length)

/-- The byte key of FIFO row n of a port. -/
def fifoByte (h n : Nat) : Nat := 512 * fifoKey h + 64 * (n % 4096)

/-- A packet's rows stored from FIFO row n with a length word (14 R527, R529). -/
def State.storeFifo (s : State) (h n : Nat) (p : HostPacket) (w : Nat) : State :=
  let rows := (fifoRowsOf p)
  let body := leBytes 8 w ++ headerBytes p ++ p.params
  let s := { s with mem := s.mem.write (fifoByte h n) ((body ++ List.replicate (64 * rows - body.length) 0#8).take (64 * (4096 - n % 4096))) }
  let s := { s with mem := s.mem.write (fifoByte h 0) ((body ++ List.replicate (64 * rows - body.length) 0#8).drop (64 * (4096 - n % 4096))) }
  let tags := (List.range rows).foldl (fun t i => tset t ((n + i) % 4096) (i + 1 == rows, if i + 1 == rows then body.length - 64 * i else 64)) (s.rx h).tags
  let mine := (List.range rows).map (fun i => (n + i) % 4096)
  let bad := (p.fifo.filter (fun u => u.uncorr && u.row < rows)).map (fun u => (n + u.row) % 4096)
  s.setRx h { s.rx h with tags := tags, spoiled := (s.rx h).spoiled.filter (fun i => !mine.contains i) ++ bad.eraseDups }

/-- The words of a packet's FIFO rows that are read in error, counted (14 R533). DESIGN CHOICE (log 22): firmware reads each row of a packet once, as the packet is stored. -/
def State.fifoErrors (s : State) (h : Nat) (p : HostPacket) : State :=
  let l := p.fifo.filter (fun u => u.row < fifoRowsOf p)
  if l.isEmpty then s
  else
    let r := hp .HP_FIFO_STAT h
    (s.tally r HP_FIFO_STAT.CORR (l.filter (fun u => !u.uncorr)).length).tally r HP_FIFO_STAT.UNCORR (l.filter (fun u => u.uncorr)).length

/-- A packet's data written to landing rows from row n, charged to its session's lease (14 R527, 15 R558). -/
def State.storeLanding (s : State) (h n : Nat) (p : HostPacket) (lease : Option Nat) : State :=
  (List.range (landRowsOf p)).foldl (fun s i =>
    s.agentWrite (landAgent h lease) (s.landAddr h (n + i)) ⟨padRow ((p.data.drop (512 * i)).take 512), false⟩) s

/-- A good protected packet: PN and time noted, then UNIT, then the window (14 R512, R518, R520). -/
def State.takeCommand (s : State) (h k : Nat) (x : Session) (p : HostPacket) (landing : Nat × Nat) : State :=
  let high := max x.high p.pn
  let x := { x with lastPkt := s.now, peer := packetPeer p, high := high, pns := (p.pn :: x.pns).filter (fun n => high < n + 1024) }
  let s := (s.setSession k x).chargePort x.lease h 0 (udpBytes p.params.length p.data.length)
  let sec := hp .HP_SEC h
  if p.unit != 0xFFFF#16 && (p.unit == 0#16 || p.unit.toNat != s.self) then s.tally (hp .HP_ERR h) HP_ERR.DISCARDS 1
  else if p.seq < x.next then
    match x.replies.find? (fun r => r.seq == p.seq) with
    | some r => s.sendIn k r.seq r.opcode false r.status r.params r.data
    | none => s.bump sec HP_SEC.STALE 1
  else if x.next + x.window ≤ p.seq then (s.sendIn k p.seq p.opcode false .busy [] []).bump sec HP_SEC.WINDOW_REFUSED 1
  else if x.cmds.any (fun c => c.seq == p.seq) then s
  else
    let c : DcpCmd := ⟨p.seq, p.opcode, p.lease.val, p.verMajor, p.verMinor, none, none, p.fifo.any (·.uncorr), oddPacket p, landing, none, none, p.params, (match x.lease with | some n => s.quiescing n | none => false)⟩
    (s.setSession k { x with cmds := x.cmds ++ [c] }).settleCmds k (x.cmds.length + 2)

/-- The end of a packet's reception (14 R512, R528, R532): its length word, and a DROP_REST that waited for it. -/
def State.closePacket (s : State) (h : Nat) (pk : FifoPkt) : State :=
  let s := { s with mem := s.mem.write (fifoByte h pk.row) (leBytes 8 pk.lenWord) }
  let x := s.rx h
  s.setRx h { x with pkts := x.pkts.map (fun q => if q.row == pk.row then { q with closed := true } else q) }

/-- Rows freed up to a FIFO row and a landing row. -/
def State.freeRows (s : State) (h head : Nat) : State :=
  let x := s.rx h
  s.setRx h { x with pkts := x.pkts.filter (fun q => 0 < diff32 ((q.row + q.rows) % 2 ^ 32) head) }

/-- The packet that holds HEAD is dropped whole (14 R532). -/
def State.dropPacket (s : State) (h : Nat) (pk : FifoPkt) : State :=
  let head := (pk.row + pk.rows) % 2 ^ 32
  let s := (s.setFld (hp .HP_FIFO_PTR h) HP_FIFO_PTR.HEAD head).setFld (hp .HP_LAND_PTR h) HP_LAND_PTR.HEAD ((pk.land + pk.landRows) % 2 ^ 32)
  let s := (s.tally (hp .HP_FIFO_STAT h) HP_FIFO_STAT.DROPPED 1).freeRows h head
  s.setRx h { s.rx h with dropping := false }

/-- The packet that holds HEAD. -/
def State.headPacket (s : State) (h : Nat) : Option FifoPkt :=
  let head := s.fld (hp .HP_FIFO_PTR h) HP_FIFO_PTR.HEAD
  (s.rx h).pkts.find? (fun q => decide (diff32 head q.row < q.rows) && decide (0 ≤ diff32 head q.row))

/-- Whether a packet is being received on a port. -/
def State.receiving (s : State) (h : Nat) : Bool := (s.rx h).pkts.any (fun q => !q.closed)

/-- What is kept of a good HELLO: whether a reserved field of its header or a parameter byte past the window is not zero (00 R13, 14 R523), its PLEN (R525), and where it came from. -/
def helloIn (p : HostPacket) : HelloIn := ⟨oddPacket p || (p.params.drop 6).any (· != 0#8), p.params.length, packetPeer p⟩

/-- HOST_PACKET_RECEIVE (14 R506, R512, R518, R520, R527-R530): a frame is discarded where the port's filters do not take it, answered at once where it is an ARP request, a neighbour solicitation or an echo (R505), refused for lack of room, or stored; a whole good one goes to its session, unless its header row is read with an uncorrectable word (R533). -/
def execHostPacketReceive (h : Fin 2) (p : HostPacket) (s : State) : Host.Outcome State Fault Refusal := s.live fun s =>
  if !s.portUp (.host h) || s.receiving h.val then .next s
  else
  let s := s.fecCount (.host h) p.fecCorr p.fecUncorr
  let h := h.val
  if !s.hostTakes h p then .next (s.tally (hp .HP_ERR h) HP_ERR.DISCARDS 1)
  else if !netUdp p.net then .next (s.setRx h { s.rx h with answer := some (packetPeer p) })
  else if !s.hasRoom h p then .next (s.tally (hp .HP_FIFO_STAT h) HP_FIFO_STAT.OVERRUN 1)
  else
    let fp := hp .HP_FIFO_PTR h
    let lp := hp .HP_LAND_PTR h
    let row := s.fld fp HP_FIFO_PTR.TAIL
    let land := s.fld lp HP_LAND_PTR.TAIL
    let lands := if s.minimal then 0 else (landRowsOf p)
    let ses := s.packetSession h p
    let v := s.verdict h p
    let w := s.lengthWord h p v land
    let pk : FifoPkt := ⟨row, (fifoRowsOf p), land, lands, s.now, w, false⟩
    let s := (s.storeFifo h row p 0).fifoErrors h p
    let s := if s.minimal then s else s.storeLanding h land p (ses.bind (fun x => x.2.lease))
    let s := s.setRx h { s.rx h with pkts := (s.rx h).pkts ++ [pk] }
    let s := s.count lp HP_LAND_PTR.TAIL lands
    if v == 4 then .next (s.count fp HP_FIFO_PTR.TAIL ((fifoRowsOf p) - 1))
    else
      let s := (s.count fp HP_FIFO_PTR.TAIL (fifoRowsOf p)).closePacket h pk
      let sec := hp .HP_SEC h
      if v == 2 then .next (s.bump sec HP_SEC.AUTH_FAIL 1)
      else if v == 3 then .next (s.bump sec HP_SEC.REPLAY 1)
      else if v == 1 || p.fifo.any (fun u => u.uncorr && u.row == 0) then .next s
      else match ses with
        | some x => .next (s.takeCommand h x.1 x.2 p (land, lands))
        | none => .next (s.setRx h { s.rx h with hellos := (s.rx h).hellos ++ [helloIn p] })

/-- FIFO_PACKET_TIMEOUT (14 R530, R532): 20 µs after its first word, a packet whose last word is not stored is closed with VERDICT 4. -/
def execFifoPacketTimeout (h : Fin 2) (s : State) : Host.Outcome State Fault Refusal := s.live fun s =>
  let h := h.val
  match (s.rx h).pkts.find? (fun q => !q.closed) with
  | none => .next s
  | some pk =>
    if s.now < pk.since + 22000 then .next s
    else
      let s := (s.count (hp .HP_FIFO_PTR h) HP_FIFO_PTR.TAIL 1).closePacket h pk
      .next (if (s.rx h).dropping then s.dropPacket h pk else s)

/-- A write of HP_FIFO_PTR.HEAD or HP_LAND_PTR.HEAD (14 R531, R532): backward, past TAIL, or while a DROP_REST waits it is ignored. -/
def State.hpHeadWrite (s : State) (h : Nat) (fifo : Bool) (v : Nat) : State × Status :=
  let r := hp (if fifo then .HP_FIFO_PTR else .HP_LAND_PTR) h
  let head := s.fld r HP_FIFO_PTR.HEAD
  let tail := s.fld r HP_FIFO_PTR.TAIL
  let new := bits v 31 0
  if (s.rx h).dropping then (s, .ok)
  else if diff32 new head < 0 || diff32 tail new < 0 || diff32 tail head < diff32 new head then (s, .range)
  else
    let s := s.setFld r HP_FIFO_PTR.HEAD new
    (if fifo then s.freeRows h new else s, .ok)

/-- A write of HP_FIFO_CTRL (14 R532). -/
def State.dropRest (s : State) (h v : Nat) : State × Status :=
  if !bitAt v 0 || s.fld (hp .HP_FIFO_PTR h) HP_FIFO_PTR.HEAD == s.fld (hp .HP_FIFO_PTR h) HP_FIFO_PTR.TAIL then (s, .ok)
  else match s.headPacket h with
    | none => (s, .ok)
    | some pk => (if pk.closed then s.dropPacket h pk else s.setRx h { s.rx h with dropping := true }, .ok)

/-- A write of HP_CLR (14 R508). -/
def State.hpClr (s : State) (h v : Nat) : State × Status :=
  if bitAt v 0 then (((s.clearReg (hp .HP_ERR h)).clearReg (hp .HP_SEC h)).clearReg (hp .HP_FIFO_STAT h), .ok) else (s, .ok)

/-! The handshake (14 R509-R514, R517) and the timeouts of sessions. -/

/-- The identity key digest (17 R600). -/
def identityDigest : List Byte := Config.shake512 Config.identityKey

/-- The highest version in a host's range and the device's own: 4.0, then 3.4 to 3.0 (14 R517). -/
def chooseVersion (lo hi : Nat) : Option Nat := [0x400, 0x304, 0x303, 0x302, 0x301, 0x300].find? (fun v => decide (lo ≤ v) && decide (v ≤ hi))

/-- A packet sent in clear in answer to a HELLO (14 R509, R515). -/
def State.sendClear (s : State) (h : Nat) (dest : HostPeer) (st : Status) (params data : List Byte) : State :=
  { s with hostWire := tset s.hostWire h ⟨dest, 0, 0, 0, 1, false, st, params, data, dcpHeader 4 0 s.self 0 0 0 1 0 (sentFlags false) params.length (code st) 0 ++ params ++ data⟩ }

/-- The transcript digest H of a handshake (14 R509): of HELLO's parameters and data, and of the reply's without its signature. -/
def transcript (hello key params cipher : List Byte) : List Byte := Config.shake512 (hello ++ key ++ params ++ cipher)

/-- A new session in a slot, and the reply in clear that offers it (14 R509, R510): its keys come from the shared secret and H. -/
def State.offer (s : State) (h slot v w : Nat) (hello key : List Byte) (peer : HostPeer) : State :=
  let d := s.draw
  let s := d.2
  let id := (d.1.toNat % (2 ^ 23 - 1) + 1) * 512 + sesKey h slot
  let params := beBytes 2 v ++ beBytes 2 w ++ beBytes 4 id ++ identityDigest
  let cipher := Config.kemCipher key s.fresh
  let digest := transcript hello key params cipher
  let x : Session := ⟨id, false, none, v / 256, v % 256, w, s.now, s.now, 0, [], 1, 1, [], [], 1, [], 0, Config.shake576 (Config.kemSecret key s.fresh ++ digest), digest, peer⟩
  (s.setSession (sesKey h slot) x).sendClear h peer .ok params (cipher ++ Config.sign digest)

/-- HELLO (14 R509, R514, R517): a version, a free slot, and the reply in clear with the new session; a reserved field that is not zero, or another PLEN than 8, is refused (00 R13, 14 R525). -/
def execHello (h : Fin 2) (verMin verMax window : Nat) (key : List Byte) (s : State) : Host.Outcome State Fault Refusal := s.live fun s =>
  let h := h.val
  match (s.rx h).hellos with
  | [] => .next s
  | x :: rest =>
    let s := s.setRx h { s.rx h with hellos := rest }
    match chooseVersion verMin verMax with
    | none => .next (s.sendClear h x.peer .range [] [])
    | some v =>
      if x.resv || x.plen != 8 || key.length != 1568 || window == 0 || 255 < window || 65535 < verMax then .next (s.sendClear h x.peer .range [] [])
      else match findIdx (fun i => (tget? s.sessions (sesKey h i)).isNone) 256 with
        | none => .next (s.sendClear h x.peer .noResource [] [])
        | some slot =>
          .next (s.offer h slot v (min window (s.fld (hp .HP_CFG h) HP_CFG.WINDOW_MAX)) (beBytes 2 verMin ++ beBytes 2 verMax ++ beBytes 2 window ++ beBytes 2 0) key x.peer)

/-- Whether a host's signature over H and the AUTH parameter block verifies under the key of a digest (14 R509): it has 1,280 bytes. -/
def Session.signedBy (x : Session) (keyDigest : List Byte) (role : Nat) (sig : HostSig) : Bool :=
  match sig with
  | .signed => true
  | .given b => b.length == 1280 && Config.authSig keyDigest (x.digest ++ (BitVec.ofNat 8 role :: List.replicate 7 0#8)) b

/-- AUTH (14 R509, R513, R523, 17 R593): the first protected packet, with SEQ 1, of a session not yet open; anything but ST_OK frees the session. A copy sent again has another PN than 1 (R511) and the same SEQ. -/
def execAuth (q : DcpHdr) (role : Nat) (keyDigest : List Byte) (sig : HostSig) (s : State) : Host.Outcome State Fault Refusal := s.live fun s =>
  match s.turn q 2 with
  | none => .next s
  | some (k, x) =>
    if x.open' then .next (s.reply k ⟨q.seq, 2, (s.opCheck x 2 q.lease.val q.verMajor q.verMinor true).getD .auth, [], []⟩)
    else
      let known := if role == 0 then s.mgmtKeys.isEmpty || s.mgmtKeys.contains keyDigest else tget? s.leaseKeys q.lease.val == some keyDigest
      let d := s.landRead q.port.val x.lease (x.landing q.seq)
      let s := d.1
      let bad := if q.poisoned || x.spoiled q.seq || d.2 then some .integrity else firstFail
        [ need (q.verMajor == x.verMajor && q.verMinor ≤ x.verMinor) .range
        , need (q.seq == 1 && (role == 1 || q.lease.val == 0)) .auth
        , need (!s.minimal || role != 1) .minimalMode
        , need (q.plen == 8 && q.dlen == 3073 && role ≤ 1 && !q.resv && !x.oddHeader q.seq) .range
        , need (x.signedBy keyDigest role sig && known) .auth ]
      match bad with
      | some st => .next ((s.reply k ⟨q.seq, 2, st, [], []⟩).freeSession k)
      | none =>
        let s := if role == 0 && s.mgmtKeys.isEmpty then { s with mgmtKeys := [keyDigest] } else s
        let s := s.onSession k (fun x => { x with open' := true, lease := if role == 1 then some q.lease.val else none })
        .next (s.reply k ⟨q.seq, 2, .ok, [], []⟩)

/-- AUTH_TIMEOUT (14 R514): 1 s after the HELLO reply, where no AUTH with a valid tag has arrived. -/
def execAuthTimeout (h : Fin 2) (session : Nat) (s : State) : Host.Outcome State Fault Refusal := s.live fun s =>
  match s.findSession h.val session with
  | none => .next s
  | some (k, x) => if x.open' || x.cmds.any (fun c => c.opcode == 2) || s.now < x.since + ms 1000 then .next s else .next (s.freeSession k)

/-- CLOSE (14 R522): after its reply the session is freed, and commands with a higher SEQ are discarded. -/
def execClose (q : DcpHdr) (s : State) : Host.Outcome State Fault Refusal := s.live fun s =>
  .next (s.dcp q 3 0 (q.dlen == 0) true true (ms 1) (fun s _ _ => (s, .closes)))

/-- KEEPALIVE (14 R523). -/
def execKeepalive (q : DcpHdr) (s : State) : Host.Outcome State Fault Refusal := s.live fun s =>
  .next (s.dcp q 4 0 (q.dlen == 0) true true (ms 1) (fun s _ _ => (s, statusOut .ok)))

/-- EVENT_ACK (14 R526): events up to EVSEQ are acknowledged. -/
def execEventAck (q : DcpHdr) (evseq : Nat) (s : State) : Host.Outcome State Fault Refusal := s.live fun s =>
  .next (s.dcp q 5 8 (q.dlen == 0) (evseq < 2 ^ 32) true (ms 1) (fun s k _ =>
    (s.onSession k (fun x => { x with events := x.events.filter (fun e => evseq < e.seq) }), statusOut .ok)))

/-- COMMAND_TIMEOUT (14 R521): a running command past its bound ends with ST_TIMEOUT. -/
def execCommandTimeout (h : Fin 2) (session : Nat) (s : State) : Host.Outcome State Fault Refusal := s.live fun s =>
  match s.findSession h.val session with
  | none => .next s
  | some (k, x) =>
    match x.cmds.find? (fun c => match c.begun with | some b => decide (b.1 + b.2 ≤ s.now) | none => false) with
    | none => .next s
    | some c => .next (s.reply k ⟨c.seq, c.opcode, .timeout, [], []⟩)

/-- SESSION_IDLE_TIMEOUT (14 R522): 30 s without an authenticated packet and no command outstanding. -/
def execSessionIdleTimeout (h : Fin 2) (session : Nat) (s : State) : Host.Outcome State Fault Refusal := s.live fun s =>
  match s.findSession h.val session with
  | none => .next s
  | some (k, x) => if !x.open' || !x.cmds.isEmpty || s.now < x.lastPkt + ms 30000 then .next s else .next (s.freeSession k)

end Sys2Proof.Machine
end

