-- ==== Sys2Proof/Machine/Code.lean ====
section
/-! DEFINITION. Customer code: extension slots, invocations, what they reach, and the records of their ends (12 R475, R478, R479; 14 R523, R526). -/
namespace Sys2Proof.Machine

/-- The key of a lease's extension slot. -/
def slotKey (lease slot : Nat) : Nat := lease * 8 + slot

/-- An extension slot of a lease. -/
def State.codeSlot (s : State) (lease slot : Nat) : CodeSlot := tget CodeSlot.empty s.codeSlots (slotKey lease slot)

/-! The end of an item. -/

/-- The random value that the sampler draws for a position of a sequence of a lease (12 R477, 18 R621): it depends on the lease's seed, its step, the sequence and the position alone. How it and the logits give a token is the service's own program (12 R476). -/
def State.samplerDraw (s : State) (lease sequence position : Nat) : Word :=
  rngIndexed (s.reg ⟨.LEASE_SEED, selSv0, lease, 0⟩) 0x02 (s.fld ⟨.RNG_STEP, selSv0, lease, 0⟩ RNG_STEP.STEP) sequence position

/-- The token identifiers sampled for a prompt of a lease: the draws of its positions choose them, from logits no rule gives (12 R477). -/
def State.rolloutTokens (s : State) (n item : Nat) : List Byte :=
  let most := match s.prompts.find? (fun p => p.lease == n && p.id == item) with | some p => p.maxNew | none => 0
  Config.rolloutTokens s.fresh ((List.range most).map (s.samplerDraw n item))

/-- The end of the REWARD code on a prompt's sequence (12 R478): the completion record, which holds the token identifiers, the reward and its status, is ready, and the lease's sessions are told how many are (14 R523, R526). DESIGN CHOICE (log 33): the item is the prompt's PROMPT_ID; the record's fields follow each other in that order, the status in two bytes. -/
def State.rewarded (s : State) (n item : Nat) (reward : List Byte) (st : Status) : State :=
  if !s.prompts.any (fun p => p.lease == n && p.id == item && !p.more) then s
  else
    let c : Completion := ⟨n, item, s.rolloutTokens n item ++ reward ++ beBytes 2 (code st)⟩
    let s := { s with fresh := s.fresh + 1, completions := s.completions ++ [c] }
    s.postEvent (fun x => x.lease == some n) 0x8004 .ok (beBytes 8 (s.completions.countP (fun c => c.lease == n)))

/-- An item's end recorded with its status, and with the output of one that returned (12 R479). -/
def State.extEnd (s : State) (r : ExtRun) (out : List Byte) (st : Status) : State :=
  let s := { s with extRuns := s.extRuns.erase r, extDone := s.extDone ++ [⟨r.lease, r.slot, r.item, st⟩] }
  if r.slot == 0 then s.rewarded r.lease r.item out st else s

/-- A run that failed: the first is made once more on another core, the second ends the item with ST_INTEGRITY (12 R475). -/
def State.extFail (s : State) (r : ExtRun) : State :=
  if r.first.isSome then s.extEnd r [] .integrity
  else { s with extRuns := s.extRuns.map (fun x => if x == r then { r with core := none, first := r.core } else x) }

/-- The cycle in which a run reaches its time limit (12 R479). -/
def State.extLimit (s : State) (r : ExtRun) : Nat := r.since + ms (s.codeSlot r.lease r.slot).timeMs

/-! What code reaches (12 R478). -/

/-- The invocation that a core runs. -/
def State.runOn (s : State) (k : Nat) : Option ExtRun := s.extRuns.find? (fun r => r.core == some k)

/-- Whether `n` bytes at an address lie in what an invocation's page tables map: its image of `image` bytes, the heap it has taken, and the rows of its two items. -/
def ExtRun.reaches (r : ExtRun) (image addr n : Nat) : Bool :=
  let within := fun (base : BitVec 48) (len : Nat) => base.toNat ≤ addr && addr + n ≤ base.toNat + len
  within r.map.image image || within r.map.heap r.heap || within r.map.input (512 * r.map.inRows) || within r.map.output (512 * r.map.outRows)

/-- The length of the committed image of a slot. -/
def State.imageLen (s : State) (r : ExtRun) : Nat := match (s.codeSlot r.lease r.slot).image with | some b => b.length | none => 0

/-- The invocation that an access of a core to `n` bytes ends: the core runs customer code, which does not reach them (12 R478, R479). -/
def State.codeBar (s : State) (k addr n : Nat) : Option ExtRun :=
  match s.runOn k with
  | some r => if r.reaches (s.imageLen r) addr n then none else some r
  | none => none

/-! Invocations. -/

/-- Whether a core can start an invocation of a lease: it is bound to the lease, it runs no other, and it is not the core of a first run that failed (12 R475, R476). -/
def State.coreCanRun (s : State) (k lease : Nat) (first : Option Nat) : Bool := s.hcLease k == some lease && (s.runOn k).isNone && first != some k

/-- An invocation started on an item, or started again after a first run that failed. -/
def State.extStart (s : State) (lease slot item k : Nat) (map : ExtMap) : State :=
  match s.extRuns.find? (fun r => r.lease == lease && r.slot == slot && r.item == item) with
  | none => if s.coreCanRun k lease none then { s with extRuns := s.extRuns ++ [⟨lease, slot, item, some k, none, map, 0, s.now⟩] } else s
  | some r =>
    if r.core.isSome || !s.coreCanRun k lease r.first then s
    else { s with extRuns := s.extRuns.map (fun x => if x == r then { r with core := some k, map, heap := 0, since := s.now } else x) }

/-- The heap of a run grows to `n` bytes: beyond the limit of its slot the item ends with ST_NO_RESOURCE (12 R479). -/
def State.extHeap (s : State) (r : ExtRun) (n : Nat) : State :=
  if (s.codeSlot r.lease r.slot).heap < n then s.extEnd r [] .noResource
  else { s with extRuns := s.extRuns.map (fun x => if x == r then { r with heap := n } else x) }

/-- The end of a run, by its outcome (12 R475, R479): one that comes after the time limit is the limit's. -/
def State.extOutcome (s : State) (r : ExtRun) (o : ExtOutcome) : State :=
  if s.extLimit r ≤ s.now then s.extEnd r [] .timeout
  else match o with
    | .returned out => s.extEnd r out .ok
    | .faultOutside => s.extEnd r [] .range
    | .badOutput => s.extFail r
    | .faultPoison => s.extFail r

/-- EXTENSION_INVOKE (12 R475, R478, R479): the committed image of a slot started on an item, the heap of the run, or its end; nothing while a snapshot pauses the lease's code (18 R625). -/
def execExtensionInvoke (lease : Fin 256) (slot : Fin 5) (item : Nat) (step : ExtStep) (s : State) : Host.Outcome State Fault Refusal := s.live fun s =>
  if (s.codeSlot lease.val slot.val).image.isNone || s.snapStopped lease.val then .next s
  else match step with
    | .start core map => .next (s.extStart lease.val slot.val item (hcKey core) map)
    | .heap n =>
      match s.extRuns.find? (fun r => r.lease == lease.val && r.slot == slot.val && r.item == item && r.core.isSome) with
      | none => .next s
      | some r => .next (s.extHeap r n)
    | .ends o =>
      match s.extRuns.find? (fun r => r.lease == lease.val && r.slot == slot.val && r.item == item && r.core.isSome) with
      | none => .next s
      | some r => .next (s.extOutcome r o)

/-- CODE_TIME_LIMIT (12 R479): every run of the slot that has reached its time limit ends. -/
def execCodeTimeLimit (lease : Fin 256) (slot : Fin 5) (s : State) : Host.Outcome State Fault Refusal := s.live fun s =>
  .next ((s.extRuns.filter (fun r => r.lease == lease.val && r.slot == slot.val && r.core.isSome && s.extLimit r ≤ s.now)).foldl (fun s r => s.extEnd r [] .timeout) s)

end Sys2Proof.Machine
end

