-- ==== Sys2Proof/Machine/Lease.lean ====
section
/-! DEFINITION. Leases: binding, quiescing, abort, the wait-for monitor and accounting (15, 04 R175-R178). -/
namespace Sys2Proof.Machine

/-! Resources (15 R540). -/

/-- STATE of a lease: 0 FREE, 1 ACTIVE, 2 QUIESCING (15 R537). -/
def State.leaseState (s : State) (n : Nat) : Nat := s.fld (leaseCfg n) LEASE_CFG.STATE

/-- STATE of a lease set. -/
def State.setLeaseState (s : State) (n v : Nat) : State := s.setFld (leaseCfg n) LEASE_CFG.STATE v

/-- The bits of FIRST that a KIND names (15 R540). -/
def kindMask (kind : Nat) : Nat :=
  match kind with
  | 0x01 => 0x37F
  | 0x02 => 0x37F
  | 0x03 => 0x37F
  | 0x04 => 0x3000003FFFF
  | 0x05 => 0xFFFFF
  | 0x06 => 0xFFFFFFFFFFFF
  | 0x07 => 0x3FFFFFFFFF
  | 0x08 => 0xFFFFFFFF
  | 0x09 => 0x3F
  | 0x0A => 0xFF
  | 0x0B => 0x3F
  | 0x0C => 0x7F
  | 0x0D => 0x3F
  | 0x0E => 0x3FFFFFFF
  | 0x0F => 0xFFFFFFFFFFFFFF
  | 0x10 => 0xFFF
  | _ => 0

/-- The configuration bits of FIRST that LEASE_UNBIND must leave zero (15 R540). -/
def kindConfig (kind : Nat) : Nat :=
  match kind with
  | 0x07 => 0x3FFFFF0000
  | 0x08 => 0xFFFFF000
  | 0x0E => 0x3FFFF800
  | 0x0F => 0xFFFFFFFFFFFF00
  | _ => 0

/-- The die FIRST names. -/
def kindDie (kind first : Nat) : Nat :=
  match kind with
  | 0x04 => bits first 41 40
  | 0x07 => bits first 15 14
  | 0x08 => bits first 11 10
  | 0x09 => bits first 5 4
  | 0x0A => bits first 7 6
  | 0x0B => bits first 5 4
  | 0x0E => bits first 10 9
  | 0x0F => bits first 7 6
  | 0x10 => bits first 11 10
  | _ => bits first 9 8

/-- The first index FIRST names, within its die, and how many indices there are. -/
def kindIndex (kind first : Nat) : Nat × Nat :=
  match kind with
  | 0x01 => (bits first 6 0, 128)
  | 0x02 => (bits first 6 0, 128)
  | 0x03 => (bits first 6 0, 96)
  | 0x04 => (bits first 17 0, 152587)
  | 0x05 => (bits first 19 0, 610348)
  | 0x07 => (bits first 13 0, 16384)
  | 0x08 => (bits first 9 0, 1024)
  | 0x09 => (bits first 3 0, 16)
  | 0x0A => (bits first 5 0, 64)
  | 0x0B => (bits first 3 0, 16)
  | 0x0C => (bits first 6 0, 128)
  | 0x0D => (bits first 5 0, 64)
  | 0x0E => (bits first 8 0, 512)
  | 0x0F => (bits first 5 0, 64)
  | 0x10 => (bits first 9 0, 1024)
  | _ => (0, 0)

/-- The largest COUNT of a KIND. -/
def kindMost (kind : Nat) : Nat :=
  match kind with
  | 0x01 => 72
  | 0x02 => 72
  | 0x09 => 15
  | 0x0F => 1
  | _ => (kindIndex kind 0).2

/-- The two-mebibyte pages of the LPDDR5X tier. -/
def mib2 : Nat := 2097152

/-- Whether FIRST and COUNT are in range for a KIND (15 R540, R541); `config` where FIRST gives a configuration. -/
def kindRange (kind first count : Nat) (config : Bool) : Bool :=
  let ix := kindIndex kind first
  first &&& kindMask kind == first && (config || first &&& kindConfig kind == 0) &&
    (if kind == 0 then first == 0 && count == 0
     else if kind == 6 then
       bits first 47 44 == 1 && bits first 43 42 == 0 && bits first 39 37 == 0 && first % mib2 == 0 && 0 < count && count % mib2 == 0 && decide (bits first 35 0 + count ≤ siteBytes)
     else
       decide (1 ≤ count) && decide (count ≤ kindMost kind) && (kind == 1 || kind == 2 || decide (ix.1 + count ≤ ix.2)) && (kind != 9 || ix.1 != 0) &&
         (!config || kind != 7 || (decide (9 ≤ bits first 37 33) && decide (bits first 37 33 ≤ 24))) &&
         (!config || kind != 8 || decide (bits first 31 12 + 512 * (count - 1) ≤ 785920)) &&
         (!config || kind != 15 || (bits first 55 8 % 16 == 0 && decide (bits first 55 52 ≤ 3))))

/-- Indices a command names, in ascending order. -/
def kindList (kind first count : Nat) : List Nat := (List.range count).map ((kindIndex kind first).1 + ·)

/-- The site an LPDDR5X address names. -/
def siteOf (a : Nat) : Nat := 2 * bits a 41 40 + bits a 36 36

/-- The owner of one resource of a KIND held in a table: ring, context, host-class core, stack, pool, group, set, mailbox, collective group or signal row. -/
def State.ownerAt (s : State) (kind d i : Nat) : Option Nat :=
  let own := fun (k : Nat) => tget? s.owned (kind * 2 ^ 20 + k)
  let when' := fun (r : Reg) (v l : Fld) => if s.fld r v == 1 then some (s.fld r l) else none
  match kind with
  | 0x07 => own (d * 16384 + i)
  | 0x08 => when' ⟨.CTX_TABLE, selCd d, i, 0⟩ CTX_TABLE.VALID CTX_TABLE.LEASE
  | 0x09 => when' (hcReg .HC_BIND (d * 16 + i)) HC_BIND.VALID HC_BIND.LEASE
  | 0x0A => own (d * 64 + i)
  | 0x0B => own (d * 16 + i)
  | 0x0C => when' (Machine.welt .WELT_GROUP_CFG 0 i) WELT_GROUP_CFG.VALID WELT_GROUP_CFG.LEASE
  | 0x0D => own i
  | 0x0E => when' (eye .EYE_CFG d i) EYE_CFG.VALID EYE_CFG.LEASE
  | 0x0F => when' (collGroup d i) COLL_GROUP.VALID COLL_GROUP.LEASE
  | 0x10 => own (d * 1024 + i)
  | _ => none

/-- Owner noted for a resource without a VALID field. -/
def State.setOwner (s : State) (kind k : Nat) (n : Option Nat) : State :=
  { s with owned := match n with | some n => tset s.owned (kind * 2 ^ 20 + k) n | none => tdel s.owned (kind * 2 ^ 20 + k) }

/-- Frame ranges of a view that meet `count` frames from `first`, with how many they share. -/
def State.frameMeets (s : State) (pkg : Bool) (d first count : Nat) : List (FrameRange × Nat) :=
  (s.frames.filter (fun f => f.pkg == pkg && (pkg || f.die == d))).filterMap (fun f =>
    let lo := max f.first first
    let hi := min (f.first + f.count) (first + count)
    if lo < hi then some (f, hi - lo) else none)

/-- Whether the other view holds a frame of the groups that frames lie in (07 R276). -/
def State.otherView (s : State) (pkg : Bool) (first count : Nat) : Bool :=
  if pkg then (List.range 4).any (fun d => !(s.frameMeets false d (first / 4) ((first + count - 1) / 4 + 1 - first / 4)).isEmpty)
  else !(s.frameMeets true 0 (4 * first) (4 * count)).isEmpty

/-- Frames from `first` taken out of the ranges of a view. -/
def State.dropFrames (s : State) (pkg : Bool) (d first count : Nat) : State :=
  { s with frames := s.frames.flatMap (fun f =>
      if f.pkg != pkg || (!pkg && f.die != d) || first + count ≤ f.first || f.first + f.count ≤ first then [f]
      else
        (if f.first < first then [{ f with count := first - f.first }] else []) ++
          (if first + count < f.first + f.count then [{ f with first := first + count, count := f.first + f.count - (first + count) }] else [])) }

/-- Extents of a site that meet `count` bytes from `first`, with how many they share. -/
def State.extentMeets (s : State) (site first count : Nat) : List (Extent × Nat) :=
  (s.extents.filter (fun e => e.site == site)).filterMap (fun e =>
    let lo := max e.first first
    let hi := min (e.first + e.count) (first + count)
    if lo < hi then some (e, hi - lo) else none)

/-- Bytes from `first` taken out of the extents of a site. -/
def State.dropExtents (s : State) (site first count : Nat) : State :=
  { s with extents := s.extents.flatMap (fun e =>
      if e.site != site || first + count ≤ e.first || e.first + e.count ≤ first then [e]
      else
        (if e.first < first then [{ e with count := first - e.first }] else []) ++
          (if first + count < e.first + e.count then [{ e with first := first + count, count := e.first + e.count - (first + count) }] else [])) }

/-- The first byte of the snapshot staging area of every site (18 R628). -/
def State.stageBase (s : State) : Nat := (siteBytes - s.stageGib * 2 ^ 30) / mib2 * mib2

/-- Partition entries of a lease within a range of banks. -/
def State.partsIn (s : State) (d n first count : Nat) : List Nat :=
  (List.range 32).filter (fun p =>
    let r := sdmPart d p
    s.fld r SDM_PART.VALID == 1 && s.fld r SDM_PART.LEASE == n && decide (first ≤ s.fld r SDM_PART.FIRST_BANK) &&
      decide (s.fld r SDM_PART.FIRST_BANK + s.fld r SDM_PART.BANKS ≤ first + count))

/-- Valid partition entries that meet a range of banks. -/
def State.partsAt (s : State) (d first count : Nat) : List Nat :=
  (List.range 32).filter (fun p =>
    let r := sdmPart d p
    s.fld r SDM_PART.VALID == 1 && decide (s.fld r SDM_PART.FIRST_BANK < first + count) && decide (first < s.fld r SDM_PART.FIRST_BANK + s.fld r SDM_PART.BANKS))

/-- Host-class cores allotted on the unit (12 R476). -/
def State.allotted (s : State) : Nat := ((List.range 64).filter (fun k => s.fld (hcReg .HC_BIND k) HC_BIND.VALID == 1)).length

/-- COLL_GROUP and MEMBERS of the block a KIND 0x0F command names (15 R540). -/
def State.groupBlock (s : State) (a : Nat) : Nat × Nat := ((s.peek a).toNat, (s.peek (a + 8)).toNat)

/-- The block of a KIND 0x0F command and the member list it names read, and whether a row of them is poisoned (05 R191, 07 R279). DESIGN CHOICE (log 46): poisoned, they bind no group, as in a write of COLL_GROUP. -/
def State.groupRead (s : State) (kind first : Nat) : State × Bool :=
  let d := kindDie kind first
  let a := bits first 55 8
  let g : Agent := ⟨.host, d, 132 + d, none, none, false⟩
  if kind != 0x0F || (s.findSpan none a (a + 15)).isSome then (s, false)
  else
    let w := s.groupBlock a
    let b := s.collBlock g a 16
    let l := b.1.collBlock g (bits w.2 47 0) (2 * groupSize w.1)
    (l.1, b.2 || l.2)

/-! The checks of a binding command (15 R541). -/

/-- Whether resources are bound to a lease, each of them. -/
def State.boundAll (s : State) (kind first count n : Nat) : Bool :=
  let d := kindDie kind first
  match kind with
  | 0x01 => (kindList kind first count).all (fun c => s.fld (tcBind (coreKey d c)) TC_BIND.MODE == 1 && s.fld (tcBind (coreKey d c)) TC_BIND.HOLDER == n)
  | 0x02 => (kindList kind first count).all (fun c => s.fld (tcBind (coreKey d c)) TC_BIND.MODE == 2 && (s.members (coreKey d c)).contains n)
  | 0x03 => (kindList kind first count).all (fun b => (s.partsIn d n (bits first 6 0) count).any (fun p => s.fld (sdmPart d p) SDM_PART.FIRST_BANK ≤ b && b < s.fld (sdmPart d p) SDM_PART.FIRST_BANK + s.fld (sdmPart d p) SDM_PART.BANKS))
  | 0x04 => (((s.frameMeets false d (bits first 17 0) count).filter (fun f => f.1.lease == n)).map (·.2)).sum == count
  | 0x05 => (((s.frameMeets true 0 (bits first 19 0) count).filter (fun f => f.1.lease == n)).map (·.2)).sum == count
  | 0x06 => (((s.extentMeets (siteOf first) (bits first 35 0) count).filter (fun f => f.1.lease == n)).map (·.2)).sum == count
  | k => (kindList k first count).all (fun i => s.ownerAt k d i == some n)

/-- Leases other than `m` or `m` itself among the owners of resources: (bound to `m`, bound to another). -/
def State.heldBy (s : State) (kind first count m : Nat) : Bool × Bool :=
  let d := kindDie kind first
  let both := fun (l : List Nat) => (l.contains m, l.any (· != m))
  match kind with
  | 0x01 => both ((kindList kind first count).flatMap (fun c =>
      let k := coreKey d c
      if s.fld (tcBind k) TC_BIND.MODE == 0 then [] else if s.fld (tcBind k) TC_BIND.MODE == 1 then [s.fld (tcBind k) TC_BIND.HOLDER] else s.members k))
  | 0x02 => let ks := (kindList kind first count).map (coreKey d)
      (ks.any (fun k => if s.fld (tcBind k) TC_BIND.MODE == 1 then s.fld (tcBind k) TC_BIND.HOLDER == m else s.fld (tcBind k) TC_BIND.MODE == 2 && (s.members k).contains m),
        ks.any (fun k => (s.fld (tcBind k) TC_BIND.MODE == 1 && s.fld (tcBind k) TC_BIND.HOLDER != m) || (s.fld (tcBind k) TC_BIND.MODE == 2 && decide (8 ≤ (s.members k).length))))
  | 0x03 => both ((s.partsAt d (bits first 6 0) count).map (fun p => s.fld (sdmPart d p) SDM_PART.LEASE))
  | 0x04 => both ((s.frameMeets false d (bits first 17 0) count).map (fun f => f.1.lease))
  | 0x05 => both ((s.frameMeets true 0 (bits first 19 0) count).map (fun f => f.1.lease))
  | 0x06 => both ((s.extentMeets (siteOf first) (bits first 35 0) count).map (fun f => f.1.lease))
  | k => both ((kindList k first count).filterMap (s.ownerAt k d))

/-- What BIND finds no room for (15 R541, R553, 07 R276, 18 R617, R618, R628). -/
def State.noRoom (s : State) (kind first count : Nat) : Bool :=
  let d := kindDie kind first
  match kind with
  | 0x03 => (findIdx (fun p => s.fld (sdmPart d p) SDM_PART.VALID == 0) 32).isNone || decide (96 - s.carve d < bits first 6 0 + count) || s.hasRetired d (bits first 6 0) count
  | 0x04 => s.otherView false (bits first 17 0) count
  | 0x05 => s.otherView true (bits first 19 0) count
  | 0x06 => decide (s.stageBase < bits first 35 0 + count)
  | 0x09 => decide (60 < s.allotted + count) || (kindList kind first count).any (fun h => s.withdrawn.contains (d * 16 + h))
  | _ => false

/-- The sixth condition of 15 R541 for the lease that is to own the resources. -/
def State.fits (s : State) (kind first count m : Nat) : Bool :=
  let d := kindDie kind first
  match kind with
  | 0x07 => s.boundTo (coreKey d (bits first 32 26)) m && s.ownerAt 8 d (bits first 25 16) == some m
  | 0x08 => (List.range count).all (fun i => s.inPartition d (bits first 31 12 + 512 * i) 512 m)
  | 0x0F =>
    let a := bits first 55 8
    let w := s.groupBlock a
    (s.findSpan none a (a + 15)).isNone && bits w.1 63 55 == 0 && s.groupOk d w.1 (bits w.2 47 0)
  | _ => true

/-- The first condition of 15 R541 under which a binding command is refused: `from'` the lease that must hold the resources, `to'` the one that is to hold them. -/
def State.bindCheck (s : State) (kind first count : Nat) (from' to' : Option Nat) : Option Status :=
  let d := kindDie kind first
  let leases := from'.toList ++ to'.toList
  let held := match from', to' with | none, some m => s.heldBy kind first count m | _, _ => (false, false)
  firstFail
    [ need (decide (kind ≤ 0x10) && (kind != 0 || to'.isNone) && kindRange kind first count to'.isSome) .range
    , need ((kind != 1 && kind != 2) || (kindList kind first count).all (s.exposed d)) .engineAbsent
    , need (kind != 7 || to'.isNone || s.exposed d (bits first 32 26)) .engineAbsent
    , need (leases.all s.active && (from'.isNone || from' != to')) .state
    , need (!held.1) .state
    , need (!held.2 && (to'.isNone || from'.isSome || !s.noRoom kind first count)) .noResource
    , need (match to' with | some m => s.fits kind first count m | none => true) .range
    , need (match from' with | some n => kind == 0 || s.boundAll kind first count n | none => true) .range ]

/-! Taking resources (15 R540, R553, R554, R578). -/

/-- A tensor core bound exclusively to a lease, powered and zeroed. -/
def State.takeCore (s : State) (k n : Nat) : State :=
  let s := (s.scrubCore k).onCore k (fun c => { c with charge := [], lastRing := [], freeAt := s.now, gated := false })
  (s.setFld (tcBind k) TC_BIND.HOLDER n).setFld (tcBind k) TC_BIND.MODE 1

/-- The charge a lease starts with on a shared core: SHARES times the least virtual time of the other members (15 R554). DEDUCED (log 23): in whole cycles, so that its own virtual time is not less than theirs. -/
def State.joinCharge (s : State) (k n : Nat) (others : List Nat) : Nat :=
  match others with
  | [] => 0
  | m :: t =>
    let c := (s.core k).charge
    let sh := fun x => s.fld (leaseCfg x) LEASE_CFG.SHARES
    let least := t.foldl (fun b x => if tget 0 c x * sh b < tget 0 c b * sh x then x else b) m
    ceilDiv (tget 0 c least * sh n) (max 1 (sh least))

/-- A lease joins a shared core; the first member becomes holder (15 R553, R554). -/
def State.shareCore (s : State) (k n : Nat) : State :=
  let first := s.fld (tcBind k) TC_BIND.MODE == 0
  let others := if first then [] else s.members k
  let s := if first then ((s.scrubCore k).onCore k (fun c => { c with charge := [], lastRing := [], freeAt := s.now, gated := false })).setFld (tcBind k) TC_BIND.HOLDER n else s
  let i := (findIdx (fun i => !bitAt (s.fld (tcBind k) TC_BIND.SLOTS) i) 8).getD 7
  let c := s.joinCharge k n others
  let s := (s.setFld (tcBind k) TC_BIND.MODE 2).setFld (tcBind k) TC_BIND.SLOTS (setBit (s.fld (tcBind k) TC_BIND.SLOTS) i true)
  let s := s.setReg (tcShare k) (BitVec.ofNat 64 (setBits (s.reg (tcShare k)).toNat (8 * i + 7) (8 * i) n))
  s.onCore k (fun x => { x with charge := tset x.charge n c })

/-- A lease leaves a shared core; the core stays with its other members (15 R540 KIND 0x02). Where it was the holder, the next kernel's start is a change of holder, whoever's it is (04 R174, 15 R555; log 23). -/
def State.unshareCore (s : State) (k n : Nat) : State :=
  let slots := s.fld (tcBind k) TC_BIND.SLOTS
  let sh := (s.reg (tcShare k)).toNat
  match findIdx (fun i => bitAt slots i && bits sh (8 * i + 7) (8 * i) == n) 8 with
  | none => s
  | some i =>
    let s := (s.setFld (tcBind k) TC_BIND.SLOTS (setBit slots i false)).setReg (tcShare k) (BitVec.ofNat 64 (setBits sh (8 * i + 7) (8 * i) 0))
    s.onCore k (fun x => { x with charge := tdel x.charge n, lastRing := tdel x.lastRing n, stale := x.stale || s.fld (tcBind k) TC_BIND.HOLDER == n })

/-- One resource of a table-held KIND given to a lease, with FIRST's configuration (15 R540). -/
def State.takeAt (s : State) (kind first i n : Nat) : State :=
  let d := kindDie kind first
  let at' := i - (kindIndex kind first).1
  match kind with
  | 0x07 =>
    let r : Reg := ringReg .RING_CFG d i
    let w := setBits (setBits (setBits (setBits 0 63 56 n) 55 46 (bits first 25 16)) 45 39 (bits first 32 26)) 38 34 (bits first 37 33)
    (s.setReg r (BitVec.ofNat 64 w)).setOwner 7 (d * 16384 + i) (some n)
  | 0x08 =>
    s.setReg ⟨.CTX_TABLE, selCd d, i, 0⟩ (BitVec.ofNat 64 (setBits (setBit (setBits 0 63 56 n) 55 true) 19 0 (bits first 31 12 + 512 * at')))
  | 0x09 => ((s.hcSetBind (d * 16 + i) (some n)).setFld (hcReg .HC_STATUS (d * 16 + i)) HC_STATUS.QUIESCED 0).bump (leaseCfg n) LEASE_CFG.HCORES 1
  | 0x0A => (s.setFld (astkCfg d i) ASTK_CFG.LEASE n).setOwner 0x0A (d * 64 + i) (some n)
  | 0x0B => (s.setFld (kvp .KVP_CFG d i) KVP_CFG.LEASE n).setOwner 0x0B (d * 16 + i) (some n)
  | 0x0C => (List.range 16).foldl (fun s hs => (s.setFld (Machine.welt .WELT_GROUP_CFG hs i) WELT_GROUP_CFG.LEASE n).setFld (Machine.welt .WELT_GROUP_CFG hs i) WELT_GROUP_CFG.VALID 1) s
  | 0x0D => ((List.range 16).foldl (fun s hs => s.setFld (Machine.welt .WELT_HP_LEASE hs i) WELT_HP_LEASE.LEASE n) s).setOwner 0x0D i (some n)
  | 0x0E =>
    let tmo := if bits first 29 14 == 0 then 1000 else bits first 29 14
    let w := setBits (setBit (setBit (setBit (setBit (setBits 0 63 56 n) 55 true) 54 (bitAt first 11)) 53 (bitAt first 12)) 52 (bitAt first 13)) 15 0 tmo
    (s.eyeZero d i).setReg (eye .EYE_CFG d i) (BitVec.ofNat 64 w)
  | 0x0F =>
    let b := s.groupBlock (bits first 55 8)
    let s := s.setReg ⟨.COLL_MEMBERS, selIo d, i, 0⟩ (BitVec.ofNat 64 (bits b.2 47 0))
    (s.collFresh d i).setReg (collGroup d i) (BitVec.ofNat 64 (setBit (setBits (RegName.written .COLL_GROUP 0 b.1) 63 56 n) 55 true))
  | 0x10 => ((s.resetReg (peerSig d i)).setFld (peerSig d i) PEER_SIG.LEASE n).setOwner 0x10 (d * 1024 + i) (some n)
  | _ => s

/-- Weight-cache lines of rows that change their lease invalidated on every die (05 R216). -/
def State.dropFrameLines (s : State) (p : Nat → Bool) : State :=
  { s with wcache := s.wcache.map (fun c => (c.1, c.2.filter (fun l => match s.rowAt l.addr with | some r => !p r | none => true))) }

/-- Rows of an LPDDR5X extent written with zeros as it is bound or leaves its lease; like every write, it invalidates their weight-cache lines (07 R303, 05 R215). -/
def State.zeroExtent (s : State) (row n : Nat) : State :=
  let s := s.dropFrameLines (fun r => row ≤ r && r < row + n)
  { s with mem := s.mem.zeroRows row n }

/-- The resources a command names given to a lease (15 R540). -/
def State.take (s : State) (kind first count n : Nat) : State :=
  let d := kindDie kind first
  let ix := (kindIndex kind first).1
  match kind with
  | 0x01 => (kindList kind first count).foldl (fun s c => s.takeCore (coreKey d c) n) s
  | 0x02 => (kindList kind first count).foldl (fun s c => s.shareCore (coreKey d c) n) s
  | 0x03 =>
    let p := (findIdx (fun p => s.fld (sdmPart d p) SDM_PART.VALID == 0) 32).getD 0
    let s := { s with mem := s.mem.zeroRows (sdmRow d + 8192 * ix) (8192 * count) }
    s.setReg (sdmPart d p) (BitVec.ofNat 64 (setBits (setBits (setBit (setBits 0 63 56 n) 55 true) 14 8 ix) 6 0 count))
  | 0x04 => { s with frames := s.frames ++ [⟨false, d, ix, count, n⟩] }
  | 0x05 => { s with frames := s.frames ++ [⟨true, 0, ix, count, n⟩] }
  | 0x06 =>
    let o := bits first 35 0
    let s := s.zeroExtent (siteRow (siteOf first) + o / 512) (count / 512)
    { s with extents := s.extents ++ [⟨siteOf first, o, count, n⟩] }
  | k => (kindList k first count).foldl (fun s i => s.takeAt k first i n) s

/-! Giving resources up (15 R540). -/

/-- Frames leave a lease: writes to them not granted by the end of quiescing are discarded, cached copies and lines dropped, tags set, so that they read as zero, and the copier's copies of them forgotten (07 R295, R296, 05 R216, 12 R468). -/
def State.cleanFrames (s : State) (pkg : Bool) (d first count : Nat) : State :=
  let blk := if pkg then first else 4 * first
  let n := if pkg then count else 4 * count
  let sts := if pkg then List.range 16 else (List.range 4).map (4 * d + ·)
  let mine := fun (row : Nat) => row < 16 * 2 ^ 31 && sts.contains (row / 2 ^ 31) && decide (blk ≤ row % 2 ^ 31 / 256) && decide (row % 2 ^ 31 / 256 < blk + n)
  let s := ((s.dropRows mine).dropFrameLines mine).dropReqs (fun r => r.stage == 0 && r.write && mine r.row)
  { s with mem := sts.foldl (fun m st => m.setTags (tagBlock (Machine.stackRow st) + blk) n) s.mem, ctls := s.ctls.map (fun c => (c.1, { c.2 with copied := c.2.copied.filter (fun x => !mine x.1) })) }

/-- A core leaves its last lease: it is scrubbed, and bound to no lease until the scrub completes (05 R208-R210); then to `dest` exclusively or as its only member, or to none. -/
def State.leaveCore (s : State) (k : Nat) (dest : Option Nat) (shared : Bool) : State :=
  let s := s.setReg (tcShare k) (BitVec.ofNat 64 (if shared then dest.getD 0 else 0))
  let w := match dest with
    | none => 0
    | some m => if shared then setBits (setBits (setBits 0 63 56 m) 55 54 2) 7 0 1 else setBits (setBits 0 63 56 m) 55 54 1
  (s.setReg (tcBind k) (BitVec.ofNat 64 w)).onCore k (fun c => { c with scrubDue := some (dest.getD 0), switchAt := none, charge := [], lastRing := [] })

/-- A partition leaves its lease: the stacks and contexts in it are disabled, cached rows discarded, its scrub begins, and the entry is freed or takes the new lease. -/
def State.leavePart (s : State) (d p : Nat) (dest : Option Nat) : State :=
  let r := sdmPart d p
  let first := s.fld r SDM_PART.FIRST_BANK
  let n := s.fld r SDM_PART.BANKS
  let lo := 8192 * first
  let hi := 8192 * (first + n)
  let s := (List.range 64).foldl (fun s g =>
    let b := s.fld (astkCfg d g) ASTK_CFG.BASE_ROW
    if s.fld (astkCfg d g) ASTK_CFG.ENABLE == 1 && lo ≤ b && b < hi then s.stackOff d g else s) s
  let s := (List.range 1024).foldl (fun s c =>
    let x : Reg := ⟨.CTX_TABLE, selCd d, c, 0⟩
    if s.fld x CTX_TABLE.VALID == 1 && lo ≤ s.fld x CTX_TABLE.BASE_ROW && s.fld x CTX_TABLE.BASE_ROW < hi then s.setFld x CTX_TABLE.VALID 0 else s) s
  let s := s.scrubPart d p
  match dest with
  | none => s.setFld r SDM_PART.VALID 0
  | some m => s.setFld r SDM_PART.LEASE m

/-- Every register of a ring back at its reset value, its claims ended (15 R540, 04 R170). -/
def State.resetRing (s : State) (d i : Nat) : State :=
  ([RegName.RING_BASE, .RING_CFG, .RING_PROD, .RING_CONS, .RING_DEPTH, .RING_STATUS, .RING_FAULT_AT, .RING_KSTAT, .RING_MARK, .RING_PREFIX, .RING_DUMP].foldl
    (fun s n => s.resetReg (ringReg n d i)) s).dropClaims (globalRing d i)

/-- One resource of a table-held KIND released (15 R540). -/
def State.leaveAt (s : State) (kind d i n : Nat) : State :=
  match kind with
  | 0x07 => (s.resetRing d i).setOwner 7 (d * 16384 + i) none
  | 0x08 => s.setFld ⟨.CTX_TABLE, selCd d, i, 0⟩ CTX_TABLE.VALID 0
  | 0x09 =>
    let s := (s.hcSetBind (d * 16 + i) none).setFld (hcReg .HC_STATUS (d * 16 + i)) HC_STATUS.QUIESCED 1
    s.setFld (leaseCfg n) LEASE_CFG.HCORES (s.fld (leaseCfg n) LEASE_CFG.HCORES - 1)
  | 0x0A => ((s.stackOff d i).setFld (astkCfg d i) ASTK_CFG.LEASE 0).setOwner 0x0A (d * 64 + i) none
  | 0x0B => (s.setFld (kvp .KVP_CFG d i) KVP_CFG.ENABLE 0).setOwner 0x0B (d * 16 + i) none
  | 0x0C => (List.range 16).foldl (fun s hs => s.weltRelease hs i 1) s
  | 0x0D => ((List.range 16).foldl (fun s hs => s.setFld (Machine.welt .WELT_HP_LEASE hs i) WELT_HP_LEASE.LEASE 0) s).setOwner 0x0D i none
  | 0x0E => (s.eyeZero d i).setFld (eye .EYE_CFG d i) EYE_CFG.VALID 0
  | 0x0F => s.setFld (collGroup d i) COLL_GROUP.VALID 0
  | 0x10 => (s.setFld (peerSig d i) PEER_SIG.VALID 0).setOwner 0x10 (d * 1024 + i) none
  | _ => s

/-- A member's place on a shared core given to another lease: where it was the holder, its rows are scrubbed before the core counts as bound (15 R540, R542). -/
def State.shareOver (s : State) (k n m : Nat) : State :=
  let held := s.fld (tcBind k) TC_BIND.HOLDER == n
  let s := (s.unshareCore k n).shareCore k m
  if held then s.onCore k (fun c => { c with scrubDue := some n, switchAt := none }) else s

/-- The resources a command names leave a lease, for `dest` where it re-binds them (15 R540, R542). -/
def State.leave (s : State) (kind first count n : Nat) (dest : Option Nat) : State :=
  let d := kindDie kind first
  let ix := (kindIndex kind first).1
  match kind with
  | 0x01 => (kindList kind first count).foldl (fun s c => s.leaveCore (coreKey d c) dest false) s
  | 0x02 => (kindList kind first count).foldl (fun s c =>
      let k := coreKey d c
      if s.members k == [n] then s.leaveCore k dest true
      else match dest with
        | some m => s.shareOver k n m
        | none => s.unshareCore k n) s
  | 0x03 => (s.partsIn d n ix count).foldl (fun s p => s.leavePart d p dest) s
  | 0x04 => let s := (s.cleanFrames false d ix count).dropFrames false d ix count
      match dest with | some m => s.take kind first count m | none => s
  | 0x05 => let s := (s.cleanFrames true 0 ix count).dropFrames true 0 ix count
      match dest with | some m => s.take kind first count m | none => s
  | 0x06 =>
    let o := bits first 35 0
    let row := siteRow (siteOf first) + o / 512
    let s := ((s.dropRows (fun r => row ≤ r && r < row + count / 512)).dropExtents (siteOf first) o count).zeroExtent row (count / 512)
    match dest with | some m => s.take kind first count m | none => s
  | k =>
    let s := (kindList k first count).foldl (fun s i => s.leaveAt k d i n) s
    match dest with | some m => s.take k first count m | none => s

/-- Every resource of a lease leaves it (15 R540 KIND 0x00). -/
def State.leaveAll (s : State) (n : Nat) : State :=
  let s := (List.range 4).foldl (fun s d => (List.range 72).foldl (fun s c =>
    let k := coreKey d c
    if s.fld (tcBind k) TC_BIND.MODE == 1 && s.fld (tcBind k) TC_BIND.HOLDER == n then s.leaveCore k none false
    else if s.fld (tcBind k) TC_BIND.MODE == 2 && (s.members k).contains n then (if s.members k == [n] then s.leaveCore k none true else s.unshareCore k n)
    else s) s) s
  let s := (List.range 4).foldl (fun s d => (s.partsIn d n 0 96).foldl (fun s p => s.leavePart d p none) s) s
  let s := (s.frames.filter (fun f => f.lease == n)).foldl (fun s f => (s.cleanFrames f.pkg f.die f.first f.count).dropFrames f.pkg f.die f.first f.count) s
  let s := (s.extents.filter (fun e => e.lease == n)).foldl (fun s e =>
    let row := siteRow e.site + e.first / 512
    ((s.dropRows (fun r => row ≤ r && r < row + e.count / 512)).dropExtents e.site e.first e.count).zeroExtent row (e.count / 512)) s
  let drop := fun (s : State) (kind d m : Nat) => (List.range m).foldl (fun s i => if s.ownerAt kind d i == some n then s.leaveAt kind d i n else s) s
  let s := (s.owned.filter (fun o => o.2 == n)).foldl (fun s o =>
    let kind := o.1 / 2 ^ 20
    let k := o.1 % 2 ^ 20
    let per := if kind == 7 then 16384 else if kind == 0x0A then 64 else if kind == 0x0B then 16 else if kind == 0x10 then 1024 else 2 ^ 20
    s.leaveAt kind (k / per) (k % per) n) s
  let s := (List.range 4).foldl (fun s d => drop (drop (drop (drop s 8 d 1024) 9 d 16) 0x0E d 512) 0x0F d 64) s
  drop s 0x0C 0 128

/-! Quiescing (15 R543-R546). -/

/-- Whether a scope covers a kernel of a lease on a core. -/
def Scope.kernel (sc : Scope) (s : State) (n k : Nat) (q : Kernel) : Bool :=
  match sc with
  | .all => q.lease == n
  | .cores l => q.lease == n && l.contains k
  | .rings l => q.lease == n && l.contains (globalRing (coreDie k) q.ring)
  | .stacks l => q.lease == n && (s.core k).chans.any (fun c => (c.2.cur.toList ++ c.2.pend.toList).any (fun x => 2 ≤ x.d.dir && l.contains (coreDie k * 64 + x.d.stack)))
  | _ => false

/-- Cores whose kernel a scope covers. -/
def State.scopeCores (s : State) (sc : Scope) (n : Nat) : List Nat :=
  s.cores.filterMap (fun p => match p.2.kernel with | some q => if sc.kernel s n p.1 q then some p.1 else none | none => none)

/-- READY rings of a lease that a scope covers. -/
def State.scopeReady (s : State) (sc : Scope) (n : Nat) : List (Nat × Nat) :=
  (List.range 4).flatMap (fun d => (s.rings d).filterMap (fun i =>
    let k := coreKey d (s.fld (ringReg .RING_CFG d i) RING_CFG.CORE)
    let in' := match sc with | .all => true | .cores l => l.contains k | .rings l => l.contains (globalRing d i) | _ => false
    if in' && s.ringLease d i == n && s.ringState d i == 2 then some (d, i) else none))

/-- Welt units whose running command a scope covers. -/
def State.scopeWelts (s : State) (sc : Scope) (n : Nat) : List Nat :=
  (List.range 16).filter (fun hs =>
    let w := s.welt hs
    w.op != 0 && (match sc with
      | .all => s.groupLease hs w.group == some n
      | .groups l => l.contains w.group
      | .sets l => s.groupLease hs w.group == some n && (w.todo.any (fun x => l.contains (s.fld (Machine.welt .WELT_LAYER_SHAPE hs x) WELT_LAYER_SHAPE.HP)))
      | _ => false))

/-- The pools a scope covers: enabled, or running a batch (10 R374). -/
def State.scopePools (s : State) (sc : Scope) (n : Nat) : List Nat :=
  (List.range 64).filter (fun p =>
    match sc with
    | .all =>
      let r := kvp .KVP_CFG (p / 16) (p % 16)
      s.fld r KVP_CFG.LEASE == n && (s.fld r KVP_CFG.ENABLE == 1 || (tget? s.pools p).isSome)
    | .pools l => l.contains p
    | _ => false)

/-- A kernel stopped by a quiesce: no further bundle issues, and its ring faults with the cause at its first unissued bundle (15 R543, R544); one that completes now keeps its status (R548). -/
def State.stopKernel (s : State) (k : Nat) (st : Status) : State :=
  match (s.core k).kernel with
  | none => s
  | some q => if s.kernelOver k q then s else s.refuse k st q.idx 15

/-- Whether an address names what a scope covers: a core's memory or window, a ring's registers, or those that an engine takes commands at (15 R543). -/
def Scope.names (sc : Scope) (s : State) (a : Nat) : Bool :=
  let sel := bits a 43 38
  let core := if bits a 47 44 == 3 then (s.rowAt a).map coreOfRow else if bits a 47 44 == 8 then (windowCore sel (bits a 37 0)).map (coreKey sel) else none
  let reg := fun (p : Reg → Bool) => match Reg.ofAddr a with | some r => p r | none => false
  match sc with
  | .cores l => core.any l.contains
  | .rings l => reg (fun r => r.name.isRing && l.contains (globalRing r.sel r.i))
  | .stacks l => reg (fun r => r.name.isStack && l.contains (r.sel * 64 + r.i))
  | .pools l => reg (fun r => r.name == .KVP_GO && l.contains (r.sel * 16 + r.i))
  | .groups _ => reg (fun r => r.name == .WELT_CMD)
  | .sets _ => reg (fun r => r.name == .WELT_CMD)
  | .coll io _ => reg (fun r => r.name == .COLL_SUBMIT && r.sel == selIo io)
  | _ => false

/-- The addresses that a register write or a memory command names in its parameters (14 R523). -/
def cmdAddrs (c : DcpCmd) : List Nat :=
  let word := fun (i : Nat) => beNat ((c.params.drop i).take 8)
  if c.opcode == 0x0105 then (List.range (min 31 (beNat (c.params.take 2)))).map (fun k => word (8 + 16 * k))
  else if c.opcode == 0x0201 || c.opcode == 0x0202 then [word 0]
  else []

/-- Whether a quiesce ends a command of its lease (15 R543): any but those that none ends where it covers all work, else those that act on what it covers. -/
def Scope.ends (sc : Scope) (s : State) (c : DcpCmd) : Bool := !opInQuiesce c.opcode && (sc == .all || (cmdAddrs c).any (sc.names s))

/-- A snapshot stop ended by a quiesce of its lease: its command is replied to with the cause (15 R543, R544). -/
def State.snapAbort (s : State) (n : Nat) (st : Status) : State :=
  match s.snapOp with
  | none => s
  | some o =>
    if o.lease != n then s
    else
      let s := { s with snapOp := none }
      match o.cmd with
      | some c => s.reply c.1 ⟨c.2, if o.restore then 0x0504 else 0x0501, st, [], []⟩
      | none => s

/-- The requests of a memory command under way (14 R675, log 16). -/
def memMine (k : Nat) (m : DcpMem) (r : MemReq) : Bool := r.owner == ReqOwner.engine .dcp 0 (256 + k) && m.first ≤ r.id

/-- A running command stopped (15 R543, R547): its requests not yet granted are formed no more, and it is replied to with the status, a REG_WRITE with the writes it has performed. -/
def State.stopCmd (s : State) (k : Nat) (c : DcpCmd) (st : Status) : State :=
  let s := match c.mem with | some m => s.dropReqs (fun r => r.stage == 0 && memMine k m r) | none => s
  s.reply k ⟨c.seq, c.opcode, st, match c.held with | some n => if c.opcode == 0x0105 then beBytes 2 n else [] | none => [], []⟩

/-- Commands of a lease's sessions that `p` selects ended: those that wait for their turn before they begin, and memory and held commands where they are (15 R543, R544). -/
def State.endCommands (s : State) (n : Nat) (st : Status) (p : DcpCmd → Bool) : State :=
  (s.sessions.filter (fun x => x.2.open' && x.2.lease == some n)).foldl (fun s x =>
    let y := { x.2 with cmds := x.2.cmds.map (fun c => if c.begun.isNone && c.ended.isNone && p c then { c with ended := some st } else c) }
    let s := s.setSession x.1 y
    let s := (x.2.cmds.filter (fun c => (c.mem.isSome || c.held.isSome) && p c)).foldl (fun s c => s.stopCmd x.1 c st) s
    s.settleCmds x.1 (y.cmds.length + 1)) s

/-- The cores whose kernels' packets a scope covers. -/
def Scope.coreList (sc : Scope) (s : State) (n : Nat) : List Nat := if sc == .all then [] else s.scopeCores sc n

/-- Whether a packet, of a lease and for rows of channels, is work that a quiesce of lease n covers: of the whole lease, or of the cores `l`. -/
def pktCovered (sc : Scope) (l : List Nat) (n lease : Nat) (rows : List PktRow) : Bool := lease == n && (sc == .all || rows.any (fun r => l.contains r.core))

/-- Packets in a quiesce's scope not yet sent, and rows still being packed, are sent no more (15 R543). -/
def State.dropWaiting (s : State) (sc : Scope) (n : Nat) : State :=
  let mine := pktCovered sc (sc.coreList s n) n
  { s with
    conns := s.conns.map (fun c => (c.1, { c.2 with waiting := c.2.waiting.filter (fun w => !mine w.1.lease.val w.2) }))
    packing := s.packing.filter (fun x => !mine x.lease x.rows) }

/-- Invocations of a lease's code in a quiesce's scope ended (12 R479, 15 R543, R544). -/
def State.endCode (s : State) (sc : Scope) (n : Nat) (st : Status) : State :=
  let mine := fun (r : ExtRun) => r.lease == n && (match sc with | .all => true | .hcs l => (r.core.getD (r.first.getD 0)) ∈ l | _ => false)
  (s.extRuns.filter mine).foldl (fun s r => s.extEnd r [] st) s

/-- Host-class cores of a lease that a scope covers. -/
def State.scopeHcs (s : State) (sc : Scope) (n : Nat) : List Nat :=
  (List.range 64).filter (fun k => s.hcLease k == some n && (match sc with | .all => true | .hcs l => l.contains k | _ => false))

/-- A quiesce begun: work in its scope stops as 15 R543 states, rings fault (R544), and while it covers all work the lease is QUIESCING (R546). -/
def State.quiesceStart (s : State) (n : Nat) (sc : Scope) (cause : Status) (job : QuiesceJob) : State :=
  let s := (s.scopeCores sc n).foldl (fun s k => s.stopKernel k cause) s
  let s := (s.scopeReady sc n).foldl (fun s r => s.faultRing r.1 r.2 cause 0 15) s
  let s := (s.scopeWelts sc n).foldl (fun s hs => s.weltStop hs cause) s
  let s := (s.scopePools sc n).foldl (fun s p => s.poolStop (p / 16) (p % 16) cause) s
  let s := match sc with
    | .all => (List.range 4).foldl (fun (s : State) io => s.collQuiesce io (fun _ m => m == n) cause) s
    | .coll io g => s.collQuiesce io (fun h _ => h == g) cause
    | _ => s
  let s := ((s.dropWaiting sc n).endCommands n cause (sc.ends s)).endCode sc n cause
  let s := if sc == .all then (s.snapAbort n cause).setLeaseState n 2 else s
  let q : Quiesce := ⟨n, sc, cause, s.now, job⟩
  { s with quiesces := s.quiesces ++ [q] }

/-- Whether a request is work of a core's kernel: of its channels and Awl threads, its ring, descriptor and index reads, and its dumps. -/
def ofCore (k : Nat) (r : MemReq) : Bool :=
  match r.owner with
  | .chan c _ _ _ _ _ => c == k
  | .awl c _ _ => c == k
  | .engine .ring d i => coreKey d i == k
  | .engine .desc d i => coreKey d i == k
  | .engine .dump d i => coreKey d i == k
  | .engine .index d i => coreKey d (i / 16) == k
  | _ => false

/-- Whether a request is work of a lease that a scope covers, beside that of kernels: of the lease, or of the engines of the scope. -/
def Scope.request (sc : Scope) (n : Nat) (r : MemReq) : Bool :=
  r.lease == some n &&
    (match sc, r.owner with
     | .all, _ => true
     | .hcs l, .engine .host _ i => l.contains i
     | .pools l, .engine .pool d i => l.contains (d * 16 + i)
     | .groups _, .engine .welt _ _ => true
     | .sets _, .engine .welt _ _ => true
     | .coll io _, .engine .coll d _ => d == io
     | _, _ => false)

/-- Whether the work a quiesce covers has drained (15 R543). -/
def State.quiet (s : State) (q : Quiesce) : Bool :=
  (s.scopeCores q.scope q.lease).isEmpty && s.reqs.all (fun r => !q.scope.request q.lease r) &&
    (match q.scope with
     | .all => s.conns.all (fun c => c.2.out.all (fun o => o.pkt.lease.val != q.lease))
     | .hcs l => s.writeBacks.all (fun w => !l.contains w.by')
     | _ => true)

/-- A core's work forced to end (15 R545): operations and requests dropped, the kernel completed with ST_TIMEOUT; its ring is FAULTED with the quiesce's cause already (R544). A kernel whose work has all completed keeps its status (R548). -/
def State.forceCore (s : State) (k : Nat) : State :=
  match (s.core k).kernel with
  | none => s
  | some q =>
    if s.kernelOver k q then outcomeState s (execKernelComplete (coreIdOf k) s)
    else
      let s := s.onCore k (fun c => { c with arrays := c.arrays.map (fun a => (a.1, { a.2 with loads := [], passes := [] })), vec0 := [], vec1 := [], crossing := [] })
      let s := { s.dropReqs (ofCore k) with flagOps := s.flagOps.filter (fun o => o.src != k) }
      s.finishKernel k q .timeout

/-- Unacknowledged packets in a quiesce's scope abandoned, and its rows that wait for packets with them (15 R545). -/
def State.abandon (s : State) (sc : Scope) (l : List Nat) (n : Nat) : State :=
  let mine := pktCovered sc l n
  { s with
    conns := s.conns.map (fun c => (c.1, { c.2 with
      out := c.2.out.filter (fun o => !mine o.pkt.lease.val o.rows), waiting := c.2.waiting.filter (fun w => !mine w.1.lease.val w.2)
      reads := c.2.reads.filter (fun w => !w.rows.any (fun r => l.contains r.core)) }))
    packing := s.packing.filter (fun x => !mine x.lease x.rows) }

/-- The work of a quiesce that has not drained is forced to end (15 R545). -/
def State.force (s : State) (q : Quiesce) : State :=
  let cores := s.scopeCores q.scope q.lease
  let s := (cores.foldl State.forceCore s).abandon q.scope cores q.lease
  let mine := fun (d g : Nat) => match q.scope with | .all => s.stackLease d g == q.lease | .stacks l => l.contains (d * 64 + g) | _ => false
  let s := (List.range 256).foldl (fun s g => if mine (g / 64) (g % 64) then s.stackHalt (g / 64) (g % 64) else s) s
  s.dropReqs (q.scope.request q.lease)

/-- What a KIND's quiesce covers (15 R543). -/
def kindScope (s : State) (kind first count : Nat) : Scope :=
  let d := kindDie kind first
  let l := kindList kind first count
  match kind with
  | 0x01 => .cores (l.map (coreKey d))
  | 0x02 => .cores (l.map (coreKey d))
  | 0x07 => .rings (l.map (globalRing d))
  | 0x08 => .rings ((s.rings d).filterMap (fun i => if l.contains (s.fld (ringReg .RING_CFG d i) RING_CFG.CONTEXT) then some (globalRing d i) else none))
  | 0x09 => .hcs (l.map (d * 16 + ·))
  | 0x0A => .stacks (l.map (d * 64 + ·))
  | 0x0B => .pools (l.map (d * 16 + ·))
  | 0x0C => .groups l
  | 0x0D => .sets l
  | 0x0E => .idle
  | 0x0F => .coll d (kindIndex kind first).1
  | 0x10 => .idle
  | _ => .all

/-- The bound of a binding command in cycles (15 R540). -/
def kindBound (kind count : Nat) : Nat :=
  match kind with
  | 0x01 => ms 3
  | 0x02 => ms 3
  | 0x03 => ms 3
  | 0x04 => ms 5
  | 0x05 => ms 5
  | 0x06 => ms 1 + ceilDiv (ms 6 * count) 1000000000
  | 0x09 => ms 3
  | _ => ms 1

/-- The bound of LEASE_UNBIND with KIND 0x00: the largest bound of what the lease holds, of its LPDDR5X by the largest share on one site (15 R540). -/
def State.holdingBound (s : State) (n : Nat) : Nat :=
  let site := fun k => ((s.extents.filter (fun e => e.site == k && e.lease == n)).map (·.count)).sum
  let share := (List.range 8).foldl (fun m k => max m (site k)) 0
  let cores := s.cores.any (fun c => (s.fld (tcBind c.1) TC_BIND.MODE == 1 && s.fld (tcBind c.1) TC_BIND.HOLDER == n) || (s.fld (tcBind c.1) TC_BIND.MODE == 2 && (s.members c.1).contains n))
  let parts := (List.range 4).any (fun d => !(s.partsIn d n 0 96).isEmpty)
  let hcs := (List.range 64).any (fun k => s.hcLease k == some n)
  max (if s.frames.any (fun f => f.lease == n) then kindBound 0x04 0 else ms 1)
    (max (if cores || parts || hcs then kindBound 0x03 0 else ms 1) (if share == 0 then ms 1 else kindBound 0x06 share))

/-- The binding command in progress ends once every scrub it began has completed: the lease of a KIND 0x00 becomes FREE, its sessions and key go, and the reply is sent (15 R540). -/
def State.bindingEnd (s : State) : State :=
  match s.binding with
  | none => s
  | some b =>
    if !b.released || !s.scrubs.isEmpty || s.cores.any (fun c => c.2.scrubDue.isSome && c.2.switchAt.isNone) then s
    else
      let s := { s with binding := none }
      let s := if b.kind == 0 && b.opcode == 0x0303 then
          let s := (((s.setLeaseState b.lease 0).setFld (leaseCfg b.lease) LEASE_CFG.VC 0).setFld (leaseCfg b.lease) LEASE_CFG.SHARES 0).setFld (leaseCfg b.lease) LEASE_CFG.HCORES 0
          let s := { s with leaseKeys := tdel s.leaseKeys b.lease }
          (s.sessions.filter (fun x => x.2.lease == some b.lease)).foldl (fun s x => s.freeSession x.1) s
        else s
      s.reply b.ses ⟨b.seq, b.opcode, b.status, [], []⟩

/-- SCRUB_COMPLETE (05 R208-R210): the resource counts as bound from now on, and a binding command that waits for its scrubs may end. -/
def execScrubComplete (t : ScrubTarget) (s : State) : Host.Outcome State Fault Refusal := s.live fun s => .next (s.scrubDone t).bindingEnd

/-- A quiesce ended (15 R543-R546): STATE is ACTIVE again, and what waited for it goes on with the status given. -/
def State.quiesceEnd (s : State) (q : Quiesce) (st : Status) : State :=
  let s := (s.scopeHcs q.scope q.lease).foldl (fun s k => s.setFld (hcReg .HC_STATUS k) HC_STATUS.QUIESCED 1) { s with quiesces := s.quiesces.erase q }
  let all := fun (b : Binding) => b.kind == 0 && b.opcode == 0x0303
  let keep := match s.binding with | some b => q.job == .binding && all b | none => false
  let s := if q.scope == .all && !keep then s.setLeaseState q.lease 1 else s
  match q.job with
  | .none => s
  | .abort k seq => s.reply k ⟨seq, 0x0305, st, [], []⟩
  | .binding =>
    match s.binding with
    | none => s
    | some b =>
      let s := { s with binding := some { b with released := true, status := st } }
      let s := if b.opcode == 0x0305 then s
        else if b.kind == 0 then s.leaveAll b.lease
        else s.leave b.kind b.first b.count b.lease b.dest
      s.bindingEnd

/-- The oldest quiesce of a lease that `p` takes. -/
def State.quiesceOf (s : State) (n : Nat) (p : Quiesce → Bool) : Option Quiesce := s.quiesces.find? (fun q => q.lease == n && p q)

/-- QUIESCE_COMPLETE (15 R543, R546): the work has drained. -/
def execQuiesceComplete (lease : Fin 256) (s : State) : Host.Outcome State Fault Refusal := s.live fun s =>
  match s.quiesceOf lease.val s.quiet with
  | none => .next s
  | some q => .next (s.quiesceEnd q .ok)

/-- QUIESCE_TIMEOUT (15 R545): after 55,000 cycles what has not drained is forced, and the command that caused the quiesce replies ST_TIMEOUT. -/
def execQuiesceTimeout (lease : Fin 256) (s : State) : Host.Outcome State Fault Refusal := s.live fun s =>
  match s.quiesceOf lease.val (fun q => decide (q.since + 55000 ≤ s.now) && !s.quiet q) with
  | none => .next s
  | some q => .next ((s.force q).quiesceEnd q .timeout)

/-! The lease opcodes. -/

/-- What learning keeps for a lease as a new lease has it (18 R622, R623, R631): RNG_STEP, stream positions and snapshot figures at zero, and no snapshot (log 25). -/
def State.newTenant (s : State) (n : Nat) : State :=
  let other := fun (x : Nat × (Nat × Nat)) => x.1 / 16 != n
  let s := { s with
    snaps := s.snaps.filter (fun x => x.lease != n), streams := s.streams.filter other, records := s.records.filter (fun x => x.1 / 16 != n), leaseBorn := tset s.leaseBorn n s.now
    lastSnap := tdel s.lastSnap n, failures := tdel s.failures n, recovering := s.recovering.filter (fun m => m != n)
    prompts := s.prompts.filter (fun x => x.lease != n), completions := s.completions.filter (fun x => x.lease != n) }
  (((s.setReg ⟨.RNG_STEP, selSv0, n, 0⟩ 0).resetReg ⟨.SNAP_STAT, selSv0, n, 0⟩).resetReg ⟨.SNAP_RESTORE, selSv0, n, 0⟩)

/-- LEASE_CREATE (15 R538): a binding command. -/
def execLeaseCreate (q : DcpHdr) (lease : Fin 256) (vc shares : Nat) (seed : Word) (s : State) : Host.Outcome State Fault Refusal := s.live fun s =>
  if s.binding.isSome then .next s
  else .next (s.dcp q 0x0301 16 (q.dlen == 0) (2 ≤ vc && vc ≤ 7 && 1 ≤ shares && shares ≤ 65535) true (ms 1) (fun s _ _ =>
    let n := lease.val
    if s.leaseState n != 0 then (s, statusOut .state)
    else
      let s := (((s.resetReg (leaseCfg n)).setLeaseState n 1).setFld (leaseCfg n) LEASE_CFG.VC vc).setFld (leaseCfg n) LEASE_CFG.SHARES shares
      let s := s.setReg ⟨.LEASE_SEED, selSv0, n, 0⟩ seed
      let s := (List.range 64).foldl (fun s w => s.resetReg (acct n w)) { s with energyBytes := tdel s.energyBytes n }
      (s.newTenant n, statusOut .ok)))

/-- Whether a binding of cores waits for one that is marked for a spare and free (18 R616). -/
def State.bindWaits (s : State) (kind first count : Nat) : Bool :=
  let d := kindDie kind first
  (kind == 1 || kind == 2) && (kindList kind first count).any (fun i => s.marked.contains (coreKey d i) && s.fld (tcBind (coreKey d i)) TC_BIND.MODE == 0)

/-- LEASE_BIND (15 R540-R542): the resources are bound at once; a bind that names a core to be replaced by a spare waits for it, which counts toward its bound (18 R616). -/
def execLeaseBind (q : DcpHdr) (lease : Fin 256) (kind : Nat) (first count : Word) (s : State) : Host.Outcome State Fault Refusal := s.live fun s =>
  if s.binding.isSome then .next s
  else .next (s.dcp q 0x0302 24 (q.dlen == 0) true true (kindBound kind count.toNat) (fun s _ _ =>
    let g := s.groupRead kind first.toNat
    let s := g.1
    match firstFail [s.bindCheck kind first.toNat count.toNat none (some lease.val), need (!g.2) .range] with
    | some st => (s, statusOut st)
    | none => if s.bindWaits kind first.toNat count.toNat then (s, .waits 0) else (s.take kind first.toNat count.toNat lease.val, statusOut .ok)))

/-- A binding command that quiesces first: it runs on until its resources are free or bound anew (15 R542, R543). -/
def State.unbind (s : State) (q : DcpHdr) (op plen : Nat) (n : Nat) (dest : Option Nat) (kind first count : Nat) : State :=
  s.dcp q op plen (q.dlen == 0) true true (if kind == 0 then s.holdingBound n else kindBound kind count) (fun s k _ =>
    let g := if dest.isSome then s.groupRead kind first else (s, false)
    let s := g.1
    match firstFail [s.bindCheck kind first count (some n) dest, need (!g.2) .range] with
    | some st => (s, statusOut st)
    | none =>
      let s := { s with binding := some ⟨k, q.seq, op, n, dest, kind, first, count, false, .ok⟩ }
      (s.quiesceStart n (kindScope s kind first count) .state .binding, .runs))

/-- LEASE_UNBIND (15 R540-R543). -/
def execLeaseUnbind (q : DcpHdr) (lease : Fin 256) (kind : Nat) (first count : Word) (s : State) : Host.Outcome State Fault Refusal := s.live fun s =>
  if s.binding.isSome then .next s else .next (s.unbind q 0x0303 24 lease.val none kind first.toNat count.toNat)

/-- LEASE_REBIND (15 R540-R543). -/
def execLeaseRebind (q : DcpHdr) (src dst : Fin 256) (kind : Nat) (first count : Word) (s : State) : Host.Outcome State Fault Refusal := s.live fun s =>
  if s.binding.isSome then .next s else .next (s.unbind q 0x0304 24 src.val (some dst.val) kind first.toNat count.toNat)

/-- LEASE_ABORT with SCOPE 1 (15 R547): of a kernel that completes now nothing is stopped (R548). -/
def State.abortRing (s : State) (k seq n target : Nat) : State × DcpOut :=
  let d := target / 16384
  let i := target % 16384
  let completes := match s.ringCore d i with
    | some c => (match (s.core c).kernel with | some q => s.kernelOver c q | none => false)
    | none => false
  if 65535 < target || s.ownerAt 7 d i != some n then (s, statusOut .range)
  else if completes then (s, statusOut .doneBeforeAbort)
  else if (s.ringCore d i).isSome && s.ringStored d i != 6 then (s.quiesceStart n (.rings [target]) .state (.abort k seq), .runs)
  else if s.ringState d i == 2 then (s.setFld (ringReg .RING_CFG d i) RING_CFG.ENABLE 0, statusOut .ok)
  else (s, statusOut .doneBeforeAbort)

/-- LEASE_ABORT with SCOPE 2 (15 R547): SESSION and SEQ of a command of the lease; `own`, `seq`: its own session and SEQ. -/
def State.abortCommand (s : State) (own seq n target : Nat) : State × DcpOut :=
  let id := target / 2 ^ 32
  let t := target % 2 ^ 32
  match s.sessions.find? (fun x => x.2.id == id && x.2.open' && x.2.lease == some n) with
  | none => (s, statusOut .range)
  | some (k, x) =>
    match x.cmds.find? (fun c => c.seq == t) with
    | none => (s, statusOut (if t < x.next && t != 0 then .doneBeforeAbort else .range))
    | some c =>
      if c.ended.isSome then (s, statusOut .doneBeforeAbort)
      else if k == own && t == seq then (s, statusOut .state)
      else if c.begun.isSome then
        let mine := match s.snapOp with | some o => o.cmd == some (k, t) | none => false
        ((if mine then s.snapAbort n .state else s.stopCmd k c .state), statusOut .ok)
      else
        ((s.onSession k (fun y => { y with cmds := y.cmds.map (fun d => if d.seq == t then { d with ended := some .state } else d) })).settleCmds k (x.cmds.length + 1), statusOut .ok)

/-- LEASE_ABORT (15 R547-R549): one of SCOPE 0 for a QUIESCING lease is refused at once, any other of SCOPE 0 waits behind a binding command. -/
def execLeaseAbort (q : DcpHdr) (lease : Fin 256) (scope : Nat) (target : Word) (s : State) : Host.Outcome State Fault Refusal := s.live fun s =>
  let n := lease.val
  let named := match s.turn q 0x0305 with | some x => x.2.mayName n | none => true
  if scope == 0 && s.binding.isSome && !s.quiescing n then .next s
  else .next (s.dcp q 0x0305 16 (q.dlen == 0) (scope ≤ 2) named 55000 (fun s k _ =>
    if s.leaseState n == 0 then (s, statusOut .state)
    else match scope with
      | 0 =>
        if s.quiescing n then (s, statusOut .state)
        else
          let s := { s with binding := some ⟨k, q.seq, 0x0305, n, none, 0, 0, 0, false, .ok⟩ }
          (s.quiesceStart n .all .state .binding, .runs)
      | 1 => s.abortRing k q.seq n target.toNat
      | _ => s.abortCommand k q.seq n target.toNat))

/-- LEASE_KEY (15 R538). -/
def execLeaseKey (q : DcpHdr) (lease : Fin 256) (digest : List Byte) (s : State) : Host.Outcome State Fault Refusal := s.live fun s =>
  .next (s.dcp q 0x0306 72 (q.dlen == 0) (digest.length == 64) true (ms 1) (fun s _ _ =>
    if s.leaseState lease.val == 0 then (s, statusOut .state)
    else ({ s with leaseKeys := tset s.leaseKeys lease.val digest }, statusOut .ok)))

/-- The cycles of work of a lease in progress that an accounting word counts up to now: kernels, Welt commands, collectives and batches (15 R557, R560). -/
def State.acctRunning (s : State) (n w : Nat) : Nat :=
  match w with
  | 0 => (s.cores.map (fun c => match c.2.kernel with | some q => if q.lease == n then s.now - q.freeAt else 0 | none => 0)).sum
  | 2 => (s.welts.map (fun x => if x.2.op != 0 && s.weltLease x.1 == n then s.now - x.2.since else 0)).sum
  | 3 => (s.colls.map (fun x => match x.2.run with | some r => if r.lease == n then s.now - r.since else 0 | none => 0)).sum
  | 4 => (s.pools.map (fun x => if s.fld (kvp .KVP_CFG (x.1 / 16) (x.1 % 16)) KVP_CFG.LEASE == n then s.now - x.2.since else 0)).sum
  | _ => 0

/-- The accounting record of a lease as it is read, STAMP at the time of the read: work in progress counts up to it (15 R557, R560). -/
def State.acctWord (s : State) (n w : Nat) : Word :=
  if w == 46 then BitVec.ofNat 64 s.now else if 46 < w then 0
  else BitVec.ofNat 64 (min (2 ^ 64 - 1) ((s.reg (acct n w)).toNat + s.acctRunning n w))

/-- LEASE_ACCT (15 R557): the record as a data block of 64 big-endian words. -/
def execLeaseAcct (q : DcpHdr) (lease : Fin 256) (s : State) : Host.Outcome State Fault Refusal := s.live fun s =>
  let named := match s.turn q 0x0307 with | some x => x.2.mayName lease.val | none => true
  .next (s.dcp q 0x0307 8 (q.dlen == 0) true named (ms 1) (fun s _ _ =>
    (s, .reply .ok [] ((List.range 64).flatMap (fun w => beBytes 8 (s.acctWord lease.val w).toNat)))))

/-! Energy (15 R559). -/

/-- The bytes charged to a lease (15 R558). -/
def State.leaseBytes (s : State) (n : Nat) : Nat := (s.reg (acct n 5)).toNat + (s.reg (acct n 6)).toNat + (s.reg (acct n 7)).toNat

/-- The bytes charged to a lease since the last accrual. -/
def State.newBytes (s : State) (n : Nat) : Nat := s.leaseBytes n - tget 0 s.energyBytes n

/-- The idle power of what is bound exclusively to a lease: its cores, the banks of its partitions and its frames. DESIGN CHOICE (log 40): what is bound at the end of a millisecond counts for all of it. -/
def State.idleEnergy (s : State) (e : EnergySample) (n : Nat) : Nat :=
  let cores := (s.cores.map (·.1)).countP (fun k => s.fld (tcBind k) TC_BIND.MODE == 1 && s.fld (tcBind k) TC_BIND.HOLDER == n)
  let hosts := (List.range 64).countP (fun k => s.hcLease k == some n)
  let banks := ((List.range 4).flatMap (fun d => (List.range 32).map (fun p => (d, p)))).map (fun x =>
    if s.fld (sdmPart x.1 x.2) SDM_PART.VALID == 1 && s.fld (sdmPart x.1 x.2) SDM_PART.LEASE == n then s.fld (sdmPart x.1 x.2) SDM_PART.BANKS else 0)
  let frames := (s.extents.filter (fun x => x.lease == n)).map (fun x => x.count / 2097152)
  e.core * cores + e.hostCore * hosts + e.bank * banks.sum + e.frame * frames.sum

/-- The energy of a lease in a millisecond: the islands' work for it, the idle power of what is bound to it, and its share of the controllers, I/O dies and bridges by the bytes charged. -/
def State.energyOf (s : State) (e : EnergySample) (n : Nat) : Nat :=
  let total := ((List.range 256).map s.newBytes).sum
  ((e.work.filter (fun x => x.1.val == n)).map (·.2)).sum + s.idleEnergy e n + (if total == 0 then 0 else e.common * s.newBytes n / total)

/-- The energy of a lease as it is charged: scaled so that the leases' energies, with what is charged to none, come to the energy measured (16 R585). -/
def State.calibrated (s : State) (e : EnergySample) (input n : Nat) : Nat :=
  let total := ((List.range 256).map (s.energyOf e)).sum
  if total == 0 then 0 else s.energyOf e n * (input - e.uncharged) / total

/-- ENERGY_ACCRUE (15 R559, 16 R584, R585): once in a millisecond, each lease is charged its energy, and the input energy is counted. -/
def execEnergyAccrue (e : EnergySample) (input : Nat) (s : State) : Host.Outcome State Fault Refusal := s.live fun s =>
  if s.now < s.energyAt + ms 1 then .next s
  else
    let t := ((List.range 256).filter (fun n => 0 < s.calibrated e input n)).foldl (fun t n => t.charge n 44 (s.calibrated e input n)) s
    let t := { t with energyAt := s.now, energyBytes := (List.range 256).filterMap (fun n => if s.leaseBytes n == 0 then none else some (n, s.leaseBytes n)) }
    .next (t.count ⟨.PWR_ENERGY, selSv0, 0, 0⟩ PWR_ENERGY.ENERGY_UJ input)

/-! The wait-for monitor (04 R175-R178). -/

/-- The edge a ring has in the wait-for graph, and the ring it leads to (04 R175). -/
def State.monEdge (s : State) (d i : Nat) : Option (MonEdge × Nat) :=
  let g := globalRing d i
  let k := (s.ringCore d i).getD (coreKey d (s.fld (ringReg .RING_CFG d i) RING_CFG.CORE))
  let st := s.ringState d i
  if st == 4 then
    let f := s.fld (ringReg .RING_STATUS d i) RING_STATUS.WAIT_FLAG
    (tget? (s.core k).claims f).map (fun b => (⟨g, d, coreNum k, f, false⟩, b))
  else if st == 2 then
    match (s.core k).kernel with
    | some q => some (⟨g, d, coreNum k, 0, true⟩, globalRing d q.ring)
    | none => none
  else none

/-- The edges of the wait-for graph, by waiting ring. -/
def State.monGraph (s : State) : Tab (MonEdge × Nat) :=
  (List.range 4).foldl (fun t d => (s.rings d).foldl (fun t i => match s.monEdge d i with | some e => tset t (globalRing d i) e | none => t) t) []

/-- The edges from a ring until they return to it, if they do. -/
def monWalk (g : Tab (MonEdge × Nat)) (start : Nat) : Nat → Nat → List MonEdge → Option (List MonEdge)
  | 0, _, _ => none
  | n + 1, at', acc =>
    match tget? g at' with
    | none => none
    | some e => if e.2 == start then some (acc ++ [e.1]) else monWalk g start n e.2 (acc ++ [e.1])

/-- The cycles of the graph, each from its lowest-numbered ring. -/
def monCycles (g : Tab (MonEdge × Nat)) : List (List MonEdge) :=
  g.filterMap (fun p => match monWalk g p.1 g.length p.1 [] with
    | some c => if c.all (fun e => p.1 ≤ e.ring) then some c else none
    | none => none)

/-- The words of SYNC_CYC_HDR and SYNC_CYC_ENT for a cycle (04 R178). -/
def cycleWords (lease : Nat) (c : List MonEdge) : List Nat :=
  setBit (setBits (setBits 0 63 56 lease) 55 48 (min 255 c.length)) 0 true ::
    (List.range 8).map (fun k => match (c.drop k).head? with
      | some e => setBit (setBits (setBits (setBits (setBits 0 63 48 e.ring) 47 46 e.die) 45 39 e.core) 38 29 e.flag) 0 e.held
      | none => 0)

/-- A lease faulted for a cycle: recorded while no record is held, reported, and quiesced; a quiesce of all its work that already runs takes the cause for rings not yet stopped (04 R176, R178, 15 R549). -/
def State.monFault (s : State) (c : List MonEdge) : State :=
  let ring := (c.head?.map (·.ring)).getD 0
  let n := s.ringLease (ring / 16384) (ring % 16384)
  let ws := cycleWords n c
  let hdr : Reg := ⟨.SYNC_CYC_HDR, selSv0, 0, 0⟩
  let s := if s.fld hdr SYNC_CYC_HDR.VALID == 1 then s
    else ((List.range 9).foldl (fun s i => s.setReg (if i == 0 then hdr else ⟨.SYNC_CYC_ENT, selSv0, i - 1, 0⟩) (BitVec.ofNat 64 (ws.getD i 0))) s).noteFld hdr SYNC_CYC_HDR.VALID 1
  let s := (s.leaseFault n .syncCycle (ws.flatMap (beBytes 8))).raise 4 2
  if s.leaseState n != 1 then s
  else s.quiesceStart n .all .syncCycle .none

/-- MONITOR_SAMPLE (04 R176): every 4 ms; a cycle that has appeared in three successive samples faults its lease. -/
def execMonitorSample (s : State) : Host.Outcome State Fault Refusal := s.live fun s =>
  if s.now < s.monitorAt + ms 4 then .next s
  else
    let cs := monCycles s.monGraph
    let thrice := match s.monitor with
      | [a, b] => cs.filter (fun c => a.contains c && b.contains c)
      | _ => []
    let s := { s with monitorAt := s.now, monitor := (cs :: s.monitor).take 2 }
    .next (thrice.foldl State.monFault s)

end Sys2Proof.Machine
end

