-- ==== Sys2Proof/Machine/Snapshot.lean ====
section
/-! DEFINITION. Snapshots: staging, taking, restoring, the interval and the epoch check (18 R620-R639). -/
namespace Sys2Proof.Machine

/-! Staging (18 R628, R629). -/

/-- A register of SV0's block indexed by lease (18 R622, R632). -/
def snap (n : RegName) (lease : Nat) : Reg := ⟨n, selSv0, lease, 0⟩

/-- 2 MiB units of the staging area: 512 per GiB of each of the eight sites (18 R628). -/
def State.stageUnits (s : State) : Nat := 4096 * s.stageGib

/-- Units an image of B bytes occupies. -/
def unitsOf (b : Nat) : Nat := ceilDiv b mib2

/-- Units held by images. -/
def State.stageUsed (s : State) : List Nat := s.snaps.flatMap (·.units)

/-- The images of a lease, oldest first. -/
def State.held (s : State) (n : Nat) : List SnapImage := s.snaps.filter (fun x => x.lease == n)

/-- The image of a lease with a SNAP_ID (18 R627). -/
def State.snapOf (s : State) (n id : Nat) : Option SnapImage := s.snaps.find? (fun x => x.lease == n && x.id == id)

/-- The image that a further one of the lease would replace: the older of two (18 R628). -/
def State.replaced (s : State) (n : Nat) : Option SnapImage := if 2 ≤ (s.held n).length then (s.held n).head? else none

/-- Whether an image of B bytes fits in the free space together with that of the image it replaces (18 R628). -/
def State.stageFits (s : State) (n b : Nat) : Bool :=
  decide (unitsOf b + s.stageUsed.length ≤ s.stageUnits + (match s.replaced n with | some x => x.units.length | none => 0))

/-- FREE_MIB and the lease's HELD at what is held (18 R629, R632). -/
def State.stageCount (s : State) (n : Nat) : State :=
  (s.setFld ⟨.SNAP_STAGE, selSv0, 0, 0⟩ SNAP_STAGE.FREE_MIB (2 * (s.stageUnits - s.stageUsed.length))).setFld (snap .SNAP_STAT n) SNAP_STAT.HELD (s.held n).length

/-- The lowest n units that no image holds, in which an image is striped across the sites (18 R628). -/
def State.freeUnits (s : State) (n : Nat) : List Nat := ((List.range s.stageUnits).filter (fun u => !s.stageUsed.contains u)).take n

/-- A new image of B bytes in the place of the older of two (18 R628). -/
def State.stageNew (s : State) (n id b : Nat) (got : List (Nat × Nat)) : State :=
  let s := match s.replaced n with | some x => { s with snaps := s.snaps.erase x } | none => s
  ({ s with snaps := s.snaps ++ [⟨n, id, b, s.freeUnits (unitsOf b), got⟩] } : State).stageCount n

/-- The row key of row j of an image: unit u lies on site u mod 8 (18 R628). -/
def State.stageRow (s : State) (x : SnapImage) (j : Nat) : Nat :=
  let u := x.units.getD (j / 4096) 0
  siteRow (u % 8) + (s.stageBase + u / 8 * mib2) / 512 + j % 4096

/-- Image bytes read: the state, the bytes, and whether a row read poisoned. -/
def State.stageRead (s : State) (x : SnapImage) (off n : Nat) : State × List Byte × Bool :=
  let first := off / 512
  let rows := ceilDiv (off + n) 512 - first
  let o := (List.range rows).foldl (fun (a : State × List Byte × Bool) j =>
    let row := a.1.stageRow x (first + j)
    let r := a.1.readFar row (some x.lease)
    (r.s.chargeBytes (some x.lease) row 512, a.2.1 ++ r.img.bytes, a.2.2 || r.img.poison)) (s, [], false)
  (o.1, (o.2.1.drop (off % 512)).take n, o.2.2)

/-- Image bytes written, other bytes of the rows as stored; a row stored poisoned stays so unless it is written whole. -/
def State.stageWrite (s : State) (x : SnapImage) (off : Nat) (l : List Byte) : State :=
  let first := off / 512
  let rows := ceilDiv (off + l.length) 512 - first
  (List.range rows).foldl (fun s j =>
    let row := s.stageRow x (first + j)
    let lo := 512 * (first + j)
    let old := s.mem.read (row * 512) 512
    let a := max off lo - lo
    let b := min (off + l.length) (lo + 512) - lo
    let new := old.take a ++ (l.drop (lo + a - off)).take (b - a) ++ old.drop b
    (s.writeFar row ⟨new, s.mem.poison.contains row && b - a < 512⟩).chargeBytes (some x.lease) row 512) s

/-- A byte range added to those present. -/
def addRange : List (Nat × Nat) → Nat → Nat → List (Nat × Nat)
  | [], a, b => [(a, b)]
  | (c, d) :: t, a, b => if b < c then (a, b) :: (c, d) :: t else if d < a then (c, d) :: addRange t a b else addRange t (min a c) (max b d)

/-- Whether every byte of an image has been written (18 R633). -/
def SnapImage.complete (x : SnapImage) : Bool := x.got == [(0, x.bytes)]

/-! The image (18 R630). -/

/-- The Welt units that hold a valid entry of a group of the lease. -/
def State.groupUnits (s : State) (n g : Nat) : List Nat := (List.range 16).filter (fun hs => s.groupLease hs g == some n)

/-- The valid groups of a lease. -/
def State.snapGroups (s : State) (n : Nat) : List Nat := (List.range 128).filter (fun g => !(s.groupUnits n g).isEmpty)

/-- The Welt units with a valid entry l that names a group of the lease. -/
def State.layerUnits (s : State) (n l : Nat) : List Nat :=
  (List.range 16).filter (fun hs => let x := s.weltLayer hs l; x.valid && s.groupLease hs x.group == some n)

/-- The valid layers of a lease's groups. -/
def State.snapLayers (s : State) (n : Nat) : List Nat := (List.range 4096).filter (fun l => !(s.layerUnits n l).isEmpty)

/-- The tensors of a layer that an image holds, as base and bytes: P, then S1 and S2 for SGD, ADW and ORT (SGD has no S2, 09 R337), or ra and ca for FAC. -/
def WeltLayer.saved (x : WeltLayer) : List (Nat × Nat) :=
  let t := fun a => (a, 4 * x.elems)
  match x.rule with
  | 0 => [t x.p, t x.s1]
  | 2 => [t x.p, (x.s1, 4 * x.rows), (x.s2, 4 * x.cols)]
  | _ => [t x.p, t x.s1, t x.s2]

/-- The data bytes of a layer in an image. -/
def WeltLayer.savedBytes (x : WeltLayer) : Nat := (x.saved.map (·.2)).sum

/-- The next multiple of 512. -/
def up512 (n : Nat) : Nat := ceilDiv n 512 * 512

/-- A layer's entry as the lowest Welt unit that holds it has it, and that unit. -/
def State.layerEntry (s : State) (n l : Nat) : Nat × WeltLayer :=
  let hs := ((s.layerUnits n l).head?).getD 0
  (hs, s.weltLayer hs l)

/-- Where the layer data of an image begin: after the header and the sections of group and layer records. -/
def dataStart (groups layers : Nat) : Nat := 4096 + up512 (64 * groups) + up512 (64 * layers)

/-- The OFFSETs of consecutive layers, and where the last one's data end. -/
def layOffsets (start : Nat) : List Nat → List Nat × Nat
  | [] => ([], start)
  | [n] => ([start], start + n)
  | n :: t => let r := layOffsets (start + up512 n) t; (start :: r.1, r.2)

/-- B of the image a TAKE of the lease would make (18 R630). -/
def State.snapBytes (s : State) (n : Nat) : Nat :=
  let ls := s.snapLayers n
  (layOffsets (dataStart (s.snapGroups n).length ls.length) (ls.map (fun l => (s.layerEntry n l).2.savedBytes))).2

/-- A section's bytes, zeros up to the next multiple of 512. -/
def padSection (l : List Byte) : List Byte := l ++ List.replicate (up512 l.length - l.length) 0#8

/-- A group record (18 R630). -/
def State.groupRecord (s : State) (n g : Nat) : List Byte :=
  let hs := ((s.groupUnits n g).head?).getD 0
  let c := Machine.welt .WELT_GROUP_CLIP hs g
  leBytes 4 g ++ leBytes 4 (s.fld (Machine.welt .WELT_GROUP_CFG hs g) WELT_GROUP_CFG.STEP) ++ leBytes 4 (s.fld c WELT_GROUP_CLIP.SKIPS) ++ leBytes 4 (s.fld c WELT_GROUP_CLIP.CLIP) ++ leBytes 48 0

/-- A layer record (18 R630). -/
def State.layerRecord (s : State) (n l off : Nat) : List Byte :=
  let e := s.layerEntry n l
  let x := e.2
  let frozen := bitAt (s.reg (Machine.welt .WELT_FREEZE e.1 (l / 64))).toNat (l % 64)
  leBytes 2 l ++ leBytes 1 x.group ++ leBytes 1 (x.rule + 4 * flag x.tiled + 8 * flag frozen) ++ leBytes 4 (s.fld (Machine.welt .WELT_LAYER_STATE e.1 l) WELT_LAYER_STATE.EPOCH) ++
    leBytes 4 x.rows ++ leBytes 4 x.cols ++ leBytes 8 off ++ leBytes 8 x.savedBytes ++ leBytes 32 0

/-- The engine that the accesses of a lease's DCP commands are requests of; they carry no deadline (06 R253). -/
def dcpAgent (n : Nat) : Agent := ⟨.dcp, 0, n, some n, none, false⟩

/-- Bytes of a lease's memory from an address, and whether a row read poisoned. -/
def State.snapFetch (s : State) (n a bytes : Nat) : State × List Byte × Bool :=
  let o := (List.range (ceilDiv bytes 512)).foldl (fun (p : State × List Byte × Bool) r =>
    let q := p.1.agentRead (dcpAgent n) (a + 512 * r)
    (q.1, p.2.1 ++ q.2.bytes, p.2.2 || q.2.poison)) (s, [], false)
  (o.1, o.2.1.take bytes, o.2.2)

/-- POS and DRAWS of a stream (18 R623). -/
def State.stream (s : State) (n k : Nat) : Nat × Nat := tget (0, 0) s.streams (n * 16 + k)

/-- The first 48 bytes of an image (18 R630). -/
def State.snapHead (s : State) (n id b groups layers : Nat) : List Byte :=
  [0x56#8, 0x34#8, 0x53#8, 0x4E#8, 0x41#8, 0x50#8, 0x30#8, 0x31#8] ++ leBytes 8 id ++ leBytes 8 b ++ leBytes 8 (s.reg ⟨.LEASE_SEED, selSv0, n, 0⟩).toNat ++ leBytes 4 (s.fld (snap .RNG_STEP n) RNG_STEP.STEP) ++
    leBytes 2 (s.fld unitAddr UNIT_ADDR.ADDRESS) ++ leBytes 1 n ++ leBytes 1 1 ++ leBytes 4 groups ++ leBytes 4 layers

/-- The image of a lease (18 R630), and whether its copy read a row poisoned. -/
def State.snapImage (s : State) (n id : Nat) : State × List Byte × Bool :=
  let gs := s.snapGroups n
  let ls := s.snapLayers n
  let sizes := ls.map (fun l => (s.layerEntry n l).2.savedBytes)
  let lay := layOffsets (dataStart gs.length ls.length) sizes
  let pos := (List.range 16).flatMap (fun k => leBytes 8 (s.stream n k).1)
  let draws := (List.range 16).flatMap (fun k => leBytes 8 (s.stream n k).2)
  let recs := padSection (gs.flatMap (fun g => s.groupRecord n g)) ++ padSection ((ls.zip lay.1).flatMap (fun p => s.layerRecord n p.1 p.2))
  let data := ls.foldl (fun (a : State × List Byte × Bool) l =>
    let x := (s.layerEntry n l).2
    x.saved.foldl (fun (b : State × List Byte × Bool) t =>
      let q := b.1.snapFetch n t.1 t.2
      (q.1, b.2.1 ++ q.2.1, b.2.2 || q.2.2)) (a.1, padSection a.2.1, a.2.2)) (s, [], false)
  let head := s.snapHead n id lay.2 gs.length ls.length
  let rest := pos ++ draws ++ List.replicate (4096 - 368) 0#8 ++ recs ++ data.2.1
  (data.1, head ++ Config.shake512 (head ++ rest) ++ rest, data.2.2)

/-! The interval (18 R631). -/

/-- The square root of a quotient, rounded to the nearest whole number, halves upwards. -/
def roundSqrt (num den : Nat) : Nat := (Nat.sqrt (4 * num / max 1 den) + 1) / 2

/-- F: failures of a lease within the time since it was created, at most 30 days (18 R631). -/
def State.failCount (s : State) (n : Nat) : Nat := ((tget [] s.failures n).filter (fun t => s.now < t + 2592000 * 1100000000)).length

/-- INTERVAL_S and FAILURES recomputed, after a snapshot or a failure (18 R631). -/
def State.interval (s : State) (n : Nat) : State :=
  let p := snap .SNAP_POLICY n
  let st := snap .SNAP_STAT n
  let us := if (tget? s.lastSnap n).isSome then s.fld st SNAP_STAT.LAST_STOP_US else 2000
  let f := s.failCount n
  let w := min 2592000 ((s.now - tget 0 s.leaseBorn n) / 1100000000)
  let x := roundSqrt (2 * us * (w + s.fld p SNAP_POLICY.PRIOR_H * 3600)) (1000000 * (f + 1))
  (s.setFld st SNAP_STAT.INTERVAL_S (min (s.fld p SNAP_POLICY.MAX_S) (max (s.fld p SNAP_POLICY.MIN_S) x))).setFld st SNAP_STAT.FAILURES (min 65535 f)

/-! Taking a snapshot (18 R624-R626). -/

/-- Whether a step of a group of the lease is open on a Welt unit. -/
def State.leaseStep (s : State) (n : Nat) : Bool :=
  (List.range 16).any (fun hs => s.wstat hs WELT_STATUS.PHASE != 0 && s.groupLease hs (s.wstat hs WELT_STATUS.OPEN_GROUP) == some n)

/-- Whether a layer of the lease is part-way through a step: APPLYING, or an EPOCH that differs between Welt units. -/
def State.leaseTorn (s : State) (n : Nat) : Bool :=
  (s.snapLayers n).any (fun l =>
    let us := s.layerUnits n l
    let ep := fun hs => s.fld (Machine.welt .WELT_LAYER_STATE hs l) WELT_LAYER_STATE.EPOCH
    us.any (fun hs => s.fld (Machine.welt .WELT_LAYER_STATE hs l) WELT_LAYER_STATE.APPLYING == 1 || ep hs != ep (us.headD 0)))

/-- Whether work of the lease runs, or a snapshot operation of any lease: the third row of R624. -/
def State.leaseBusy (s : State) (n : Nat) : Bool :=
  s.snapOp.isSome || s.cores.any (fun c => match c.2.kernel with | some q => q.lease == n | none => false) ||
    (List.range 16).any (fun hs => (s.welt hs).op != 0 && s.groupLease hs (s.welt hs).group == some n) ||
    s.pools.any (fun p => s.fld (kvp .KVP_CFG (p.1 / 16) (p.1 % 16)) KVP_CFG.LEASE == n) ||
    (List.range 4).any (fun io => match (s.coll io).run with | some r => r.lease == n | none => false) ||
    (List.range 4).any (fun d => s.fld (l3Reg .L3_RANGE_STATUS d) L3_RANGE_STATUS.BUSY == 1 && tget? s.rangeOwner d == some n)

/-- The status a TAKE is refused with (18 R624). -/
def State.takeCheck (s : State) (n : Nat) : Option Status :=
  firstFail
    [ need (s.active n) .state
    , need (!s.leaseStep n && !s.leaseTorn n) .state
    , need (!s.leaseBusy n) .busy
    , need (s.stageFits n (s.snapBytes n)) .noResource ]

/-- A stop begun (18 R625): the lease's cores are paused with their dirty rows written back. -/
def State.stopLease (s : State) (n : Nat) (cmd : Option (Nat × Nat)) (restore : Bool) (id b : Nat) (re : Bool) : State :=
  let s := ((List.range 64).filter (fun k => s.hcLease k == some n)).foldl (fun s k => s.hcFlush k) s
  { s with snapOp := some ⟨n, cmd, restore, id, b, re, s.now⟩ }

/-- The bound of a snapshot operation in cycles: its stop time and 1 ms (18 R626, 14 R523). -/
def stopBound (b : Nat) : Nat := ceilDiv (11 * b) 12000 + ms 3

/-- SNAPSHOT_TAKE (18 R624, R625). -/
def execSnapshotTake (q : DcpHdr) (s : State) : Host.Outcome State Fault Refusal := s.live fun s =>
  let n := match s.turn q 0x0501 with | some x => x.2.actsFor | none => 0
  .next (s.dcp q 0x0501 0 (q.dlen == 0) true true (stopBound (s.snapBytes n)) (fun s k x =>
    match s.takeCheck x.actsFor with
    | some st => (s, statusOut st)
    | none => (s.stopLease x.actsFor (some (k, q.seq)) false 0 (s.snapBytes x.actsFor) false, .runs)))

/-- AUTO_SNAPSHOT (18 R631): the learning service judges the end of a step of the lease, once: it takes a snapshot where INTERVAL_S has passed since the lease's last one (since its creation before the first) and a TAKE is admitted. -/
def execAutoSnapshot (lease : Fin 256) (s : State) : Host.Outcome State Fault Refusal := s.live fun s =>
  let n := lease.val
  let last := (tget? s.lastSnap n).getD (tget 0 s.leaseBorn n)
  if !s.stepEnds.contains n then .next s
  else
    let s := { s with stepEnds := s.stepEnds.filter (· != n) }
    if s.fld (snap .SNAP_POLICY n) SNAP_POLICY.AUTO == 0 || s.now < last + 1100000000 * s.fld (snap .SNAP_STAT n) SNAP_STAT.INTERVAL_S || (s.takeCheck n).isSome then .next s
    else .next (s.stopLease n none false 0 (s.snapBytes n) false)

/-- The length of the stop that ends noted (18 R626). -/
def State.stopEnded (s : State) (o : SnapOp) : State :=
  ({ s with snapOp := none } : State).setFld (snap .SNAP_STAT o.lease) SNAP_STAT.LAST_STOP_US (min 1048575 ((s.now - o.since) / 1100))

/-- The reply to a snapshot operation's command, if one began it. -/
def State.snapReply (s : State) (o : SnapOp) (st : Status) (params : List Byte) : State :=
  match o.cmd with
  | some c => s.reply c.1 ⟨c.2, if o.restore then 0x0504 else 0x0501, st, params, []⟩
  | none => s

/-- The copy of a TAKE made and its stop ended (18 R626, R627): a poisoned row ends it with ST_INTEGRITY and keeps the earlier snapshots. -/
def State.takeEnd (s : State) (o : SnapOp) : State :=
  let n := o.lease
  let id := setBits (setBits ((s.snapCount + 1) % 2 ^ 40) 63 48 (s.fld unitAddr UNIT_ADDR.ADDRESS)) 47 40 n
  let im := s.snapImage n id
  let s := im.1.stopEnded o
  if im.2.2 then s.snapReply o .integrity []
  else
    let b := im.2.1.length
    let s := ({ s with snapCount := s.snapCount + 1, lastSnap := tset s.lastSnap n s.now } : State).stageNew n id b [(0, b)]
    let s := match s.snapOf n id with | some x => s.stageWrite x 0 im.2.1 | none => s
    let s := (s.interval n).snapReply o .ok (beBytes 8 id ++ beBytes 8 b)
    s.postEvent (fun x => x.lease == some n) 0x8003 .ok (beBytes 8 id)

/-- A stop ended: what is restored is in place, or the copy is made. -/
def State.stopEnd (s : State) (o : SnapOp) : State := if o.restore then (s.stopEnded o).snapReply o .ok [] else s.takeEnd o

/-- The longest stop of B image bytes, in cycles (18 R626). -/
def stopMost (b : Nat) : Nat := ceilDiv (11 * b) 12000 + ms 2

/-- A stop that has lasted its longest ends now, whatever other leases do (18 R626). -/
def State.stopOn (s : State) : State :=
  match s.snapOp with
  | some o => if s.now < o.since + stopMost o.bytes then s else s.stopEnd o
  | none => s

/-- SNAPSHOT_STOP_END (18 R625, R626, R635): the copy or the restore is complete, and the lease resumes. -/
def execSnapshotStopEnd (lease : Fin 256) (s : State) : Host.Outcome State Fault Refusal := s.live fun s =>
  match s.snapOp with
  | none => .next s
  | some o =>
    if o.lease != lease.val || s.engineBusy .dcp 0 o.lease then .next s else .next (s.stopEnd o)

/-! Pulling and pushing (18 R627, R633). -/

/-- SNAPSHOT_PULL (18 R627). -/
def execSnapshotPull (q : DcpHdr) (id : Word) (offset len : Nat) (s : State) : Host.Outcome State Fault Refusal := s.live fun s =>
  .next (s.dcp q 0x0502 24 (q.dlen == 0) (1 ≤ len && len ≤ 8192) true (ms 1) (fun s _ x =>
    match s.snapOf x.actsFor id.toNat with
    | none => (s, statusOut .range)
    | some im =>
      if im.bytes < offset + len then (s, statusOut .range)
      else
        let r := s.stageRead im offset len
        if r.2.2 then (r.1, statusOut .integrity) else (r.1, .reply .ok [] r.2.1)))

/-- Image bytes of a PUSH taken into an image. -/
def State.pushInto (s : State) (im : SnapImage) (off : Nat) (data : List Byte) : State × DcpOut :=
  if im.bytes < off + data.length then (s, statusOut .range)
  else
    let s := s.stageWrite im off data
    ({ s with snaps := s.snaps.map (fun y => if y == im then { y with got := addRange y.got off (off + data.length) } else y) }, statusOut .ok)

/-- SNAPSHOT_PUSH (18 R633): the first of a SNAP_ID carries the header's bytes 0-47 and allocates B bytes. -/
def execSnapshotPush (q : DcpHdr) (id : Word) (offset : Nat) (data : List Byte) (s : State) : Host.Outcome State Fault Refusal := s.live fun s =>
  .next (s.dcp q 0x0503 16 (q.dlen == data.length && 1 ≤ data.length && data.length ≤ 8192) true true (ms 1) (fun s _ x =>
    let n := x.actsFor
    let wrong := offset ≤ 38 && 38 < offset + data.length && (data.getD (38 - offset) 0#8).toNat != n
    if wrong then (s, statusOut .state)
    else match s.snapOf n id.toNat with
      | some im => s.pushInto im offset data
      | none =>
        let b := leNat ((data.drop 16).take 8)
        if offset != 0 || data.length < 48 || b < data.length then (s, statusOut .range)
        else if !s.stageFits n b then (s, statusOut .noResource)
        else
          let s := s.stageNew n id.toNat b []
          match s.snapOf n id.toNat with
          | some im => s.pushInto im 0 data
          | none => (s, statusOut .noResource)))

/-! Restoring (18 R634-R636). -/

/-- `n` bytes of an image from an offset; bytes past its end are free (log 7). -/
def imageBytes (img : List Byte) (off n : Nat) : List Byte :=
  let l := (img.drop off).take n
  l ++ (List.range (n - l.length)).map (fun i => Config.freeByte off i)

/-- A little-endian field of an image (18 R630). -/
def imageNat (img : List Byte) (off n : Nat) : Nat := leNat (imageBytes img off n)

/-- A layer record as an image holds it (18 R630). -/
structure LayerRec where
  l : Nat
  group : Nat
  rule : Nat
  tiled : Bool
  frozen : Bool
  epoch : Nat
  rows : Nat
  cols : Nat
  off : Nat
  deriving DecidableEq, Repr

/-- The layer records of an image. -/
def layerRecs (img : List Byte) : List LayerRec :=
  let g := imageNat img 40 4
  (List.range (imageNat img 44 4)).map (fun i =>
    let o := 4096 + up512 (64 * g) + 64 * i
    let f := fun a n => imageNat img (o + a) n
    ⟨f 0 2, f 2 1, bits (f 3 1) 1 0, bitAt (f 3 1) 2, bitAt (f 3 1) 3, f 4 4, f 8 4, f 12 4, f 16 8⟩)

/-- The group records of an image: GROUP, STEP, SKIPS, CLIP. -/
def groupRecs (img : List Byte) : List (Nat × Nat × Nat × Nat) :=
  (List.range (imageNat img 40 4)).map (fun i => let o := 4096 + 64 * i; (imageNat img o 4, imageNat img (o + 4) 4, imageNat img (o + 8) 4, imageNat img (o + 12) 4))

/-- Whether the lease's Welt units have a valid entry for every recorded group and layer (18 R634, sixth row). -/
def State.recordsFit (s : State) (n : Nat) (img : List Byte) : Bool :=
  (groupRecs img).all (fun g => (List.range 16).all (fun hs => s.groupLease hs g.1 == some n)) &&
    (layerRecs img).all (fun r => (List.range 16).all (fun hs =>
      let x := s.weltLayer hs r.l
      x.valid && x.group == r.group && x.rule == r.rule && x.tiled == r.tiled && x.rows == r.rows && x.cols == r.cols))

/-- POS and DRAWS of stream k in an image. -/
def imageStream (img : List Byte) (k : Nat) : Nat × Nat := (imageNat img (112 + 8 * k) 8, imageNat img (240 + 8 * k) 8)

/-- Streams of an image whose DRAWS differs from POS. -/
def badStreams (img : List Byte) : List Nat := (List.range 16).filter (fun k => (imageStream img k).1 != (imageStream img k).2)

/-- MAGIC, VERSION and DIGEST of an image (18 R634). -/
def imageSound (img : List Byte) : Bool :=
  img.take 8 == [0x56#8, 0x34#8, 0x53#8, 0x4E#8, 0x41#8, 0x50#8, 0x30#8, 0x31#8] && imageNat img 39 1 == 1 && imageBytes img 48 64 == Config.shake512 (img.take 48 ++ img.drop 112)

/-- Bytes written to a lease's memory from an address, row by row where it is bound; a row stored poisoned stays so unless it is written whole (18 R635). -/
def State.snapStore (s : State) (n a : Nat) (l : List Byte) : State :=
  (List.range (ceilDiv l.length 512)).foldl (fun s r =>
    let x := a + 512 * r
    let new := (l.drop (512 * r)).take 512
    match s.find (some n) x with
    | .error _ => s
    | .ok _ => s.agentPut (dcpAgent n) x 0 new false) s

/-- A layer's data written to its present bases and its narrow copy made anew (18 R635 steps 1 and 2). -/
def State.restoreLayer (s : State) (n : Nat) (img : List Byte) (r : LayerRec) : State :=
  let x := (s.layerEntry n r.l).2
  let o := x.saved.foldl (fun (a : State × Nat) t => (a.1.snapStore n t.1 (imageBytes img a.2 t.2), a.2 + t.2)) (s, r.off)
  let rows := (List.range (ceilDiv x.elems 128)).map (fun i => (i, rowF32 (x.count i) (imageBytes img (r.off + 512 * i) (4 * x.count i)), false))
  if x.copy == 0 || !o.1.weltRange n x.copy (2 * x.elems) x.copy then o.1 else o.1.weltCopy (dcpAgent n) r.l r.epoch x rows

/-- EPOCH and the freeze bit of a layer on every Welt unit (18 R635 step 3). -/
def State.restoreEpoch (s : State) (r : LayerRec) : State :=
  (List.range 16).foldl (fun s hs =>
    let w := Machine.welt .WELT_LAYER_STATE hs r.l
    let s := (((s.setFld w WELT_LAYER_STATE.EPOCH r.epoch).setFld w WELT_LAYER_STATE.APPLYING 0).setFld w WELT_LAYER_STATE.ORT_WAIT 0).setFld w WELT_LAYER_STATE.DAMAGED 0
    s.putBit (Machine.welt .WELT_FREEZE hs (r.l / 64)) (r.l % 64) r.frozen) s

/-- STEP, SKIPS and CLIP of a group on every Welt unit, LAST_NORM 0 (18 R635 step 4). -/
def State.restoreGroup (s : State) (g : Nat × Nat × Nat × Nat) : State :=
  (List.range 16).foldl (fun s hs =>
    let c := Machine.welt .WELT_GROUP_CLIP hs g.1
    (((s.setFld (Machine.welt .WELT_GROUP_CFG hs g.1) WELT_GROUP_CFG.STEP g.2.1).setFld c WELT_GROUP_CLIP.SKIPS g.2.2.1).setFld c WELT_GROUP_CLIP.CLIP g.2.2.2).setFld
      (Machine.welt .WELT_GROUP_NORM hs g.1) WELT_GROUP_NORM.LAST_NORM 0) s

/-- RNG_STEP, POS and DRAWS (18 R635 step 5): a discrepant stream takes DRAWS = POS (R636). -/
def State.restoreStreams (s : State) (n : Nat) (img : List Byte) : State :=
  let s := s.setFld (snap .RNG_STEP n) RNG_STEP.STEP (imageNat img 32 4)
  (List.range 16).foldl (fun (s : State) k => let p := (imageStream img k).1; { s with streams := tset s.streams (n * 16 + k) (p, p) }) s

/-- DELTA of SNAP_RESTORE: a difference in two's complement, saturating at plus and minus 127 (18 R632). -/
def deltaField (draws pos : Nat) : Nat := if pos ≤ draws then min 127 (draws - pos) else 256 - min 127 (pos - draws)

/-- SNAP_RESTORE after a restore that runs (18 R632, R636). -/
def State.restoreRecord (s : State) (n : Nat) (img : List Byte) : State :=
  let r := snap .SNAP_RESTORE n
  let bad := badStreams img
  let first := bad.headD 0
  let p := imageStream img first
  let s := (s.setFld r SNAP_RESTORE.LAST_STATUS 0).setFld r SNAP_RESTORE.SEED_DIFF (flag (imageNat img 24 8 != (s.reg ⟨.LEASE_SEED, selSv0, n, 0⟩).toNat))
  ((s.setFld r SNAP_RESTORE.FIRST_STREAM first).setFld r SNAP_RESTORE.REDERIVED bad.length).setFld r SNAP_RESTORE.DELTA (if bad.isEmpty then 0 else deltaField p.2 p.1)

/-- An image restored (18 R635). -/
def State.restoreImage (s : State) (n : Nat) (img : List Byte) : State :=
  let ls := layerRecs img
  let s := ls.foldl (fun s r => s.restoreLayer n img r) s
  let s := ls.foldl State.restoreEpoch s
  let s := (groupRecs img).foldl State.restoreGroup s
  (s.restoreStreams n img).restoreRecord n img

/-- The status a restore is refused with before its image is read (18 R634, rows one to four). -/
def State.restoreCheck (s : State) (n : Nat) (im : SnapImage) : Option Status :=
  firstFail [need im.complete .state, need (!s.leaseBusy n) .busy, need (!s.leaseStep n) .state]

/-- The status a restore is refused with by its image (18 R634, rows five to seven). -/
def State.imageCheck (s : State) (n : Nat) (img : List Byte) (poison re : Bool) : Option Status :=
  firstFail
    [ need (imageSound img && !poison) .integrity
    , need (s.recordsFit n img) .state
    , need (re || (imageNat img 24 8 == (s.reg ⟨.LEASE_SEED, selSv0, n, 0⟩).toNat && (badStreams img).isEmpty)) .snapshotMismatch ]

/-- A refused restore: LAST_STATUS alone changes (18 R634). -/
def State.restoreRefused (s : State) (n : Nat) (st : Status) : State × DcpOut := (s.setFld (snap .SNAP_RESTORE n) SNAP_RESTORE.LAST_STATUS (code st), statusOut st)

/-- SNAPSHOT_RESTORE (18 R634-R636): the lease is stopped and the image written; the stop's end replies. -/
def execSnapshotRestore (q : DcpHdr) (id : Word) (rederive : Bool) (s : State) : Host.Outcome State Fault Refusal := s.live fun s =>
  let b := match s.turn q 0x0504 with | some x => (match s.snapOf x.2.actsFor id.toNat with | some im => im.bytes | none => 0) | none => 0
  .next (s.dcp q 0x0504 16 (q.dlen == 0) true true (stopBound b) (fun s k x =>
    let n := x.actsFor
    match s.snapOf n id.toNat with
    | none => s.restoreRefused n .range
    | some im =>
      match s.restoreCheck n im with
      | some st => s.restoreRefused n st
      | none =>
        let r := s.stageRead im 0 im.bytes
        match r.1.imageCheck n r.2.1 r.2.2 rederive with
        | some st => r.1.restoreRefused n st
        | none => (((r.1.stopLease n (some (k, q.seq)) true im.id im.bytes rederive).restoreImage n r.2.1), .runs)))

/-! Recovery (18 R637-R639). -/

/-- The partial record an epoch check writes for a Welt unit (18 R638). -/
def State.epochRecord (s : State) (hs g : Nat) : List Byte :=
  let step := s.fld (Machine.welt .WELT_GROUP_CFG hs g) WELT_GROUP_CFG.STEP
  let st := fun l => Machine.welt .WELT_LAYER_STATE hs l
  let ls := s.groupLayers hs g
  let torn := ls.filter (fun l => s.fld (st l) WELT_LAYER_STATE.APPLYING == 1 || step < s.fld (st l) WELT_LAYER_STATE.EPOCH)
  normRecord 0#32 torn.length step (s.fld unitAddr UNIT_ADDR.ADDRESS) g (flag (ls.any (fun l => s.fld (st l) WELT_LAYER_STATE.DAMAGED == 1)))

/-- An open step of the group ended with CLOSE, and the unit's record written (18 R638 steps 1 and 2). -/
def State.epochUnit (s : State) (n hs g : Nat) : State :=
  let r := Machine.welt .WELT_STATUS hs
  let s := if s.stepOpen hs g then (((s.weltCloseStep hs).setFld r WELT_STATUS.LAST_OP 4).setFld r WELT_STATUS.LAST_STATUS 0).raise (hs / 4) (0xB0 + hs % 4) else s
  let a := s.fld (Machine.welt .WELT_GROUP_PART hs g) WELT_GROUP_PART.PART_BASE + 512 * hs
  match s.find (some n) a with
  | .ok _ => s.agentWrite (weltAgent hs n) a ⟨padRow (s.epochRecord hs g), false⟩
  | .error _ => s

/-- A recovery's first check or restore counted as a failure (18 R631). -/
def State.noteFailure (s : State) (n : Nat) : State :=
  if s.recovering.contains n then s
  else ({ s with recovering := s.recovering ++ [n], failures := tset s.failures n (s.now :: tget [] s.failures n) } : State).interval n

/-- EPOCH_CHECK (18 R637, R638): once no Welt unit runs a command of the group; its records are then reduced by a NORMRED. -/
def execEpochCheck (lease : Fin 256) (g : Fin 128) (s : State) : Host.Outcome State Fault Refusal := s.live fun s =>
  let n := lease.val
  let us := s.groupUnits n g.val
  if us.isEmpty || us.any (fun hs => (s.welt hs).op != 0 && (s.welt hs).group == g.val) then .next s
  else .next (us.foldl (fun s hs => s.epochUnit n hs g.val) (s.noteFailure n))

end Sys2Proof.Machine
end

