-- ==== Sys2Proof/Machine/Clock.lean ====
section
/-! DEFINITION. The clock root, its reference and standby, and the power controller (16). -/
namespace Sys2Proof.Machine

/-- CLK_MON_STATUS (16 R575). -/
def clkMon : Reg := ⟨.CLK_MON_STATUS, selSv0, 0, 0⟩

/-- Whether a window's count judges the reference stable: 100,000 within 200 (16 R569). -/
def windowGood (n : Nat) : Bool := 99800 ≤ n && n ≤ 100200

/-- Whether a window's count lies within the monitor's tolerance: 100,000 within 500 (16 R570). -/
def windowHeld (n : Nat) : Bool := 99500 ≤ n && n ≤ 100500

/-- A failure counted with its CAUSE, its source raised and CLOCK_FAIL sent (16 R570, R572). -/
def State.clockFailed (s : State) (cause : Nat) : State :=
  let s := ((s.setFld clkMon CLK_MON_STATUS.CAUSE cause).bump clkMon CLK_MON_STATUS.FAILS 1).syncAlerts
  (s.raise 4 0).postEvent (fun _ => true) 0x8002 .ok []

/-- A failure of the reference: the root goes to holdover (16 R570); a relock that was slewing ends. -/
def State.refFailed (s : State) (cause : Nat) : State :=
  let s := (s.setFld clkMon CLK_MON_STATUS.REF_OK 0).setFld clkMon CLK_MON_STATUS.HOLDOVER 1
  ({ s with relockAt := none, goodWindows := 0 } : State).clockFailed cause

/-- Whether the reference is being judged: in stage 2 of a start, or in the 100 ms of a relock (16 R569, R573). -/
def State.judging (s : State) : Bool := s.relockAt.any (fun t => s.now < t + ms 100) || s.fld ⟨.START_STATUS, selSv0, 0, 0⟩ START_STATUS.STAGE == 2

/-- REF_WINDOW (16 R569, R570): a window's count; three good ones in a row while the reference is judged set REF_OK, one outside the tolerance while REF_OK is 1 is a failure. -/
def execRefWindow (edges : Nat) (s : State) : Host.Outcome State Fault Refusal := s.live fun s =>
  let s := s.setFld clkMon CLK_MON_STATUS.LAST_COUNT edges
  if s.fld clkMon CLK_MON_STATUS.REF_OK == 1 then .next (if windowHeld edges then s else s.refFailed 2)
  else if !s.judging then .next s
  else
    let n := if windowGood edges then s.goodWindows + 1 else 0
    let s := { s with goodWindows := n }
    .next (if 3 ≤ n then s.setFld clkMon CLK_MON_STATUS.REF_OK 1 else s)

/-- REF_LOSS (16 R570). -/
def execRefLoss (s : State) : Host.Outcome State Fault Refusal := s.live fun s =>
  .next (if s.fld clkMon CLK_MON_STATUS.REF_OK == 1 then s.refFailed 1 else s)

/-- ROOT_SV0_LOST (16 R572): SV1's root takes over; when it too has failed, every island stops. -/
def execRootSv0Lost (s : State) : Host.Outcome State Fault Refusal := s.live fun s =>
  if s.fld clkMon CLK_MON_STATUS.STANDBY == 1 then .next s
  else if s.standbyLost then .next { s with life := .rootsLost }
  else .next ((s.setFld clkMon CLK_MON_STATUS.STANDBY 1).clockFailed 3)

/-- STANDBY_ROOT_LOST (16 R572): while SV1's root drives the unit, both roots have then failed. -/
def execStandbyRootLost (s : State) : Host.Outcome State Fault Refusal := s.live fun s =>
  let s := { s with standbyLost := true }
  .next (if s.fld clkMon CLK_MON_STATUS.STANDBY == 1 then { s with life := .rootsLost } else s)

/-- A write of 1 to RELOCK (16 R573, R576). -/
def State.relock (s : State) : State × Status :=
  if s.fld clkMon CLK_MON_STATUS.HOLDOVER == 0 || s.relockAt.isSome then (s, .state)
  else ({ s with relockAt := some s.now, goodWindows := 0 }, .ok)

/-- A write of 1 to ROOT_SV0 (16 R573, R576); whether SV0's root has locked again is a free value (log 26). -/
def State.rootSv0 (s : State) : State × Status :=
  if s.fld clkMon CLK_MON_STATUS.STANDBY == 0 then (s, .state)
  else
    let p := s.draw
    if bitAt p.1.toNat 0 then ((p.2.setFld clkMon CLK_MON_STATUS.STANDBY 0).syncAlerts, .ok) else (p.2, .state)

/-- A write to CLK_CTRL (16 R575). -/
def State.clkCtrlWrite (s : State) (v : Nat) : State × Status :=
  let r := if bitAt v CLK_CTRL.RELOCK.lo then s.relock else (s, .ok)
  if !bitAt v CLK_CTRL.ROOT_SV0.lo then r
  else
    let t := r.1.rootSv0
    (t.1, if r.2 == .ok then t.2 else r.2)

/-- RELOCK_COMPLETE (16 R573): the reference is judged stable and the root has slewed to it. -/
def execRelockComplete (s : State) : Host.Outcome State Fault Refusal := s.live fun s =>
  if s.relockAt.isNone || s.fld clkMon CLK_MON_STATUS.REF_OK == 0 then .next s
  else .next (({ s with relockAt := none } : State).setFld clkMon CLK_MON_STATUS.HOLDOVER 0).syncAlerts

/-- RELOCK_TIMEOUT (16 R573): not judged stable within 100 ms, the attempt ends and HOLDOVER stays 1. -/
def execRelockTimeout (s : State) : Host.Outcome State Fault Refusal := s.live fun s =>
  match s.relockAt with
  | none => .next s
  | some t => if s.fld clkMon CLK_MON_STATUS.REF_OK == 1 || s.now < t + ms 100 then .next s else .next { s with relockAt := none, goodWindows := 0 }

/-- ISLAND_WAKE (16 R566-R568): a gated tensor core's clock runs again; nothing else changes. -/
def execIslandWake (c : CoreId) (s : State) : Host.Outcome State Fault Refusal := s.live fun s =>
  .next (if (s.core (ckey c)).gated then s.onCore (ckey c) (fun x => { x with gated := false }) else s)

/-! Power (16 R577-R585). -/

/-- PWR_STATUS (16 R584). -/
def pwrStatus : Reg := ⟨.PWR_STATUS, selSv0, 0, 0⟩
/-- PWR_LIMIT (16 R580). -/
def pwrLimit : Reg := ⟨.PWR_LIMIT, selSv0, 0, 0⟩

/-- POWER_SAMPLE (16 R579, R584): once in 10 µs, the sample joins the averages; P10 is shown in whole watts, over the samples so far until there are 1,000. VIN at the sample is a free value (20 R673, log 32). -/
def execPowerSample (watts : Nat) (s : State) : Host.Outcome State Fault Refusal := s.live fun s =>
  let l := (watts :: s.watts).take 1000
  let p := s.draw
  if s.now < s.powerAt + 11000 then .next s
  else .next ((({ p.2 with watts := l, powerAt := s.now } : State).setFld pwrStatus PWR_STATUS.POWER_W (l.sum / l.length)).setFld ⟨.PKG_PIN_STATUS, selSv0, 0, 0⟩ PKG_PIN_STATUS.VIN_10MV (bits p.1.toNat 15 0))

/-- Whether P100, the mean of the last ten samples, with `add` watts more, is above a limit (16 R581). -/
def State.p100Above (s : State) (add lim : Nat) : Bool :=
  let l := s.watts.take 10
  decide (lim * l.length < l.sum + add * l.length)

/-- DUTY_DECISION (16 R581, R583, R584): once in 100 µs, the first case that applies. -/
def execDutyDecision (stepW tj : Nat) (s : State) : Host.Outcome State Fault Refusal := s.live fun s =>
  if s.now < s.dutyAt + 110000 then .next s else
  let sust := s.fld pwrLimit PWR_LIMIT.SUST_W
  let duty := s.fld pwrStatus PWR_STATUS.DUTY
  let peak := s.p100Above 0 (s.fld pwrLimit PWR_LIMIT.PEAK_W)
  let over' := s.p100Above 0 sust
  let low := peak || over' || decide (100 < tj)
  let room := !s.p100Above stepW sust
  let new := if peak then max 4 (duty - 4) else if low then max 4 (duty - 1) else if room && tj ≤ 97 then min 16 (duty + 1) else duty
  let run := if low && new == 4 then s.floorRun + 1 else 0
  let byTemp := decide (100 < tj) && !peak && !over'
  let starts := decide (100 < tj) && new < duty && s.fld pwrStatus PWR_STATUS.TJ_MAX ≤ 100
  let raise := (duty == 16 && new < 16) || run == 10 || starts
  let s := ({ s with floorRun := run, dutyAt := s.now } : State).setFld pwrStatus PWR_STATUS.DUTY new
  let s := (s.setFld pwrStatus PWR_STATUS.TJ_MAX (min 255 tj)).setFld pwrStatus PWR_STATUS.LIMITED (flag (new < 16))
  let s := (s.setFld pwrStatus PWR_STATUS.THERMAL (flag (new < 16 && (byTemp || (room && !low && 97 < tj))))).setFld pwrStatus PWR_STATUS.FLOOR (flag (low && new == 4))
  let s := s.syncAlerts
  .next (if raise then s.raise 4 3 else s)

/-- CLUSTER_POWER_OFF (16 R577): a cluster whose four cores run no lease's code and have been idle for 100 ms goes off, and the contents of its cores' own caches are lost; the L3 keeps its rows (log 27). -/
def execClusterPowerOff (d : Die) (cl : Fin 4) (s : State) : Host.Outcome State Fault Refusal := s.live fun s =>
  let c := 4 * d.val + cl.val
  if s.clustersOff.contains c || s.now < tget 0 s.clusterUsed c + ms 100 || (List.range 4).any (fun i => (s.hcLease (4 * c + i)).isSome) then .next s
  else .next { s with clustersOff := s.clustersOff ++ [c], hcCaches := s.hcCaches.filter (fun x => x.1 / 4 != c), hcReserved := s.hcReserved.filter (fun x => x.1 / 4 != c) }

/-- A write to PWR_LIMIT (16 R580): PEAK_W below SUST_W keeps both fields. -/
def State.pwrLimitWrite (s : State) (a : Actor) (v : Nat) : State × Status :=
  let w := RegName.written .PWR_LIMIT (s.reg pwrLimit).toNat v
  if bits w PWR_LIMIT.PEAK_W.hi PWR_LIMIT.PEAK_W.lo < bits w PWR_LIMIT.SUST_W.hi PWR_LIMIT.SUST_W.lo then (s, if isDcp a then .range else .ok) else s.plainWrite a pwrLimit v

/-- A write to SNAP_POLICY (18 R632): MAX_S below MIN_S keeps both fields. -/
def State.snapPolicyWrite (s : State) (a : Actor) (n v : Nat) : State × Status :=
  let r := snap .SNAP_POLICY n
  let old := (s.reg r).toNat
  let w := RegName.written .SNAP_POLICY old v
  if bits w SNAP_POLICY.MAX_S.hi SNAP_POLICY.MAX_S.lo < bits w SNAP_POLICY.MIN_S.hi SNAP_POLICY.MIN_S.lo then
    if isDcp a then (s, .range) else s.plainWrite a r (keepFields old v [SNAP_POLICY.MIN_S, SNAP_POLICY.MAX_S])
  else s.plainWrite a r v

end Sys2Proof.Machine
end

