-- ==== Sys2Proof/Machine/Start.lean ====
section
/-! DEFINITION. Starts, minimal mode, the retained-state store, images, identity, enumeration and unit addresses (17). -/
namespace Sys2Proof.Machine

/-! The retained-state store (17 R596-R599). -/

/-- The fields of a register whose reset is "retained" (00 R11 and each chapter's tables). -/
def RegName.retained : RegName → List Fld
  | .SDM_WCACHE_CFG => [SDM_WCACHE_CFG.BANKS]
  | .TEMPER_CFG => [TEMPER_CFG.STARVE_LIMIT]
  | .HBM_SPARE => [HBM_SPARE.STATE, HBM_SPARE.FAILED_PC]
  | .PEER_PORT_CFG => [PEER_PORT_CFG.MODE, PEER_PORT_CFG.DIR, PEER_PORT_CFG.STANDBY, PEER_PORT_CFG.ENABLE]
  | .FAB_CFG => [FAB_CFG.UDP_PORT, FAB_CFG.WRAP, FAB_CFG.EXT_Z_M1, FAB_CFG.EXT_Y_M1, FAB_CFG.EXT_X_M1]
  | .FAB_PREFIX => [FAB_PREFIX.PREFIX]
  | .FAB_VC => [FAB_VC.WEIGHT, FAB_VC.CELLS]
  | .FAB_TMO => [FAB_TMO.RTO_US, FAB_TMO.RETRY]
  | .IC_CFG => [IC_CFG.FILTER]
  | .HP_CFG => [HP_CFG.UDP_PORT, HP_CFG.VLAN, HP_CFG.WINDOW_MAX, HP_CFG.MODE, HP_CFG.IP, HP_CFG.ENABLE]
  | .HP_IPV4 => [HP_IPV4.PREFIX, HP_IPV4.ADDR]
  | .HP_IPV6_HI => [HP_IPV6_HI.ADDR]
  | .HP_IPV6_LO => [HP_IPV6_LO.ADDR]
  | .LEASE_CFG => [LEASE_CFG.STATE, LEASE_CFG.VC, LEASE_CFG.SHARES]
  | .LEASE_SEED => [LEASE_SEED.SEED]
  | .CLK_CFG => [CLK_CFG.HOST_MHZ, CLK_CFG.ARITH_MHZ, CLK_CFG.RATIO_MODE]
  | .PWR_LIMIT => [PWR_LIMIT.PEAK_W, PWR_LIMIT.SUST_W]
  | .RAS_SPARE => [RAS_SPARE.SPARES_LEFT, RAS_SPARE.UNCOVERED, RAS_SPARE.HBM_SPARED, RAS_SPARE.BANKS_RETIRED]
  | .RAS_CTRL => [RAS_CTRL.AUTO_SPARE]
  | .SNAP_STAGE => [SNAP_STAGE.GIB_PER_SITE]
  | .SNAP_POLICY => [SNAP_POLICY.MIN_S, SNAP_POLICY.MAX_S, SNAP_POLICY.PRIOR_H, SNAP_POLICY.AUTO]
  | .PKG_ALERT_CFG => [PKG_ALERT_CFG.ENABLE]
  | _ => []

/-- The retained fields of `w` over the word `base`. -/
def RegName.overlay (n : RegName) (base w : Nat) : Nat := n.retained.foldl (fun x f => setBits x f.hi f.lo (bits w f.hi f.lo)) base

/-- Every register with retained fields that has been written, masked to those fields. -/
def State.retainedRegs (s : State) : Tab Word :=
  s.regs.filterMap (fun p => match Reg.ofAddr p.1 with
    | some r => if r.name.retained.isEmpty then none else some (p.1, BitVec.ofNat 64 (r.name.overlay 0 p.2.toNat))
    | none => none)

/-- SETTINGS as the unit holds it now (17 R596). -/
def State.settings (s : State) : Settings := ⟨s.retainedRegs, s.addrRecord, s.mgmtKeys, s.leaseKeys, s.absent, s.retired, s.withdrawn, s.repairs, s.linkSpares⟩

/-- The factory defaults of SETTINGS: each field at its own, no address, no lease, no key, no spare mapped (17 R596). -/
def Settings.factory : Settings := ⟨[], none, [], [], [], [], [], [], []⟩

/-- The factory defaults of START (17 R596). -/
def StartArea.factory : StartArea := ⟨0, 0, []⟩

/-- The copies of an area that hold contents, of those with the highest SEQ. -/
def topCopies {α : Type} (l : List (StoreCopy α)) : List (StoreCopy α) := l.filter (fun c => l.all (fun d => d.seq ≤ c.seq))

/-- Whether all copies hold equal contents. -/
def sameContents {α : Type} [DecidableEq α] (l : List (StoreCopy α)) : Bool :=
  match l with
  | [] => true
  | c :: t => t.all (fun d => decide (d.contents = c.contents))

/-- The contents chosen for an area, and RS_SOURCE (17 R598). -/
def chooseCopy {α : Type} [DecidableEq α] (factory : α) (l : List (StoreCopy α)) : α × Nat :=
  let ok := l.filter (·.intact)
  match ok with
  | [] => (factory, 2)
  | c :: _ =>
    if sameContents ok then (c.contents, 0)
    else match topCopies ok with
      | [] => (factory, 3)
      | t :: r => if sameContents (t :: r) then (t.contents, 1) else (factory, 3)

/-- An update of an area cut off after `k` complete copies (17 R597): all carry one SEQ above the highest; the copy being written is left broken where `torn`. -/
def putCopies {α : Type} (l : List (StoreCopy α)) (k : Nat) (torn : Bool) (x : α) : List (StoreCopy α) :=
  let seq := l.foldl (fun m c => max m c.seq) 0 + 1
  (List.range l.length).zipWith (fun i c => if i < k then ⟨seq, true, x⟩ else if i == k && torn then { c with intact := false } else c) l

/-- The START area stored in all three copies. -/
def State.storeArea (s : State) (a : StartArea) : State :=
  ({ s with startArea := a, storeStart := putCopies s.storeStart 3 false a } : State).setFld startStatus START_STATUS.FAIL_COUNT a.failCount

/-- RETAINED_STORE_WRITE (17 R597): copies 0 to `copies` - 1 of the areas are completed; a cut-off update may leave the next copy broken (a free value, log 28). SETTINGS is written once the start has completed. -/
def execRetainedStoreWrite (copies : Fin 4) (s : State) : Host.Outcome State Fault Refusal := s.live fun s =>
  let p := if copies.val < 3 then s.draw else (0, s)
  let torn := bitAt p.1.toNat 0
  let s := { p.2 with storeStart := putCopies p.2.storeStart copies.val torn p.2.startArea }
  .next (if s.stage == 9 then { s with storeSettings := putCopies s.storeSettings copies.val torn s.settings } else s)

/-- RECOVERY_MIRROR (17 R594): the start area, the management key digests and H0's settings. -/
def execRecoveryMirror (s : State) : Host.Outcome State Fault Refusal := s.live fun s =>
  if s.sv1 then .next s
  else
    let h0 := s.retainedRegs.filter (fun p => bits p.1 43 38 == selIo 0 && (match Reg.ofAddr p.1 with | some r => r.name.layout.kind == .hp | none => false))
    .next { s with recovery := ⟨s.startArea, s.mgmtKeys, h0⟩ }

/-! The start sequence (17 R586-R592). -/

/-- PKG_TRIP (20 R673). -/
def pkgTrip : Reg := ⟨.PKG_TRIP, selSv0, 0, 0⟩

/-! The checks of an image (17 R588, R589). -/

/-- A field of an image. -/
def imgField (l : List Byte) (o n : Nat) : List Byte := (l.drop o).take n

/-- Whether bytes are all zero. -/
def allZero (l : List Byte) : Bool := l.all (fun b => b == 0#8)

/-- The first check of R589 that an image fails, 1-5, or 0. -/
def imageFault (l : List Byte) : Nat :=
  let n := leNat (imgField l 20 8)
  let head := imgField l 0 96
  let key := Config.shake512 (imgField l 96 1793)
  if imgField l 0 8 != [0x56#8, 0x34#8, 0x46#8, 0x57#8, 0x49#8, 0x4D#8, 0x47#8, 0x31#8] || leNat (imgField l 8 4) != 1 || n < 1 || 134213632 < n || !allZero (imgField l 28 4) || !allZero (imgField l 3169 927) ||
      l.length < 4096 + n then 1
  else if key != Config.signerDigest then 2
  else if !Config.sigOk key (Config.shake512 head ++ imgField l 1889 1280) then 3
  else if imgField l 32 64 != Config.shake512 (imgField l 4096 n) then 4
  else if leNat (imgField l 12 4) < Config.minSecurity.toNat then 5
  else 0

/-- The image slot as a loss of supply or a reset leaves it (17 R590): one that was being written holds the image as far as a free point and the old bytes after it, and holds no image that would start. -/
def State.cutFlash (s : State) : State :=
  match s.flashWrite with
  | none => s
  | some w =>
    let p := s.draw
    let n := p.1.toNat % w.bytes.length
    let l := w.bytes.take n ++ s.flash.drop n
    { p.2 with flashWrite := none, flash := if imageFault l == 0 then [] else l }

/-- Every die at its reset state but what survives: the store, the flash, the fuses, SV1's recovery store, the trip latch and the level another device drives on THERMTRIP_N (17 R586, 20 R661, R665, R671); the model's clock and counts go on. -/
def State.cold (s : State) (l : Life) : State :=
  let s := s.cutFlash
  ({ State.reset with
    pending := s.pending, now := s.now, fresh := s.fresh, nextId := s.nextId, grade := s.grade, access := s.access, life := l, resetLow := s.resetLow, strap := s.strap, startDue := false, startArea := s.startArea
    storeStart := s.storeStart, storeSettings := s.storeSettings, recovery := s.recovery, flash := s.flash, sv1 := s.sv1, hostWire := s.hostWire, wire := s.wire
    rawLines := (match tget? s.rawLines (4 * 1024 + 0x0C) with | some l => [(4 * 1024 + 0x0C, ⟨l.level, s.now⟩)] | none => []) } : State).setReg pkgTrip (s.reg pkgTrip)

/-- Four words drawn into DBG_NONCE (19 R642). -/
def State.newNonce (s : State) : State :=
  (List.range 4).foldl (fun s k => let p := s.draw; p.2.setReg ⟨.DBG_NONCE, selSv0, k, 0⟩ p.1) s

/-- A stage begun. -/
def State.stageBegin (s : State) (n : Nat) : State := (({ s with stageAt := s.now } : State).setFld startStatus START_STATUS.STAGE n).syncAlerts

/-- START_BEGIN (17 R586): a start that is due begins; its number is one above the stored one. -/
def execStartBegin (s : State) : Host.Outcome State Fault Refusal := s.live fun s =>
  if !s.startDue then .next s
  else
    let a := (chooseCopy StartArea.factory s.storeStart).1
    let s := { s.cold .running with startArea := { a with number := a.number + 1 }, startAt := s.now, heartbeatAt := s.now }
    let s := (s.setFld startStatus START_STATUS.FAIL_COUNT a.failCount).setFld unitAddr UNIT_ADDR.STRAP s.strap
    .next (s.newNonce.stageBegin 1)

/-- A failed start (17 R591): recorded in the START area, counted, and a new start is due. -/
def State.startFailed (s : State) (reason detail : Nat) : State :=
  let a := s.startArea
  let e : FailEntry := ⟨a.number, reason, s.stage, detail⟩
  { s.storeArea { a with failCount := min 3 (a.failCount + 1), fails := (e :: a.fails).take 8 } with startDue := true }

/-- Registers of the store over their reset values (00 R11). -/
def State.loadRegs (s : State) (t : Tab Word) (p : RegName → Bool) : State :=
  t.foldl (fun s x => match Reg.ofAddr x.1 with
    | some r => if p r.name then s.setReg r (BitVec.ofNat 64 (r.name.overlay (s.reg r).toNat x.2.toNat)) else s
    | none => s) s

/-- Whether a register belongs to the lease table skeleton (15 R539). -/
def isSkeleton (n : RegName) : Bool := n == .LEASE_CFG || n == .LEASE_SEED

/-- Stage 3 (17 R598, R599): the areas chosen, SETTINGS restored but for the leases, copies rewritten where their source was not sound. -/
def State.storeRead (s : State) : State :=
  let st := (chooseCopy StartArea.factory s.storeStart).2
  let c := chooseCopy Settings.factory s.storeSettings
  let s := s.loadRegs c.1.regs (fun n => !isSkeleton n)
  let s := { s with
    chosen := c.1, addrRecord := c.1.addr, mgmtKeys := c.1.mgmtKeys, absent := c.1.absent, retired := c.1.retired, withdrawn := c.1.withdrawn, repairs := c.1.repairs, linkSpares := c.1.links
    storeSettings := if c.2 == 0 then s.storeSettings else putCopies s.storeSettings 3 false c.1 }
  ((s.storeArea s.startArea).setFld startStatus START_STATUS.RS_START st).setFld startStatus START_STATUS.RS_SETTINGS c.2

/-- Leases as the store recorded them (15 R539): ACTIVE or QUIESCING come back ACTIVE with VC, SHARES, SEED and key digest. -/
def State.leasesReturn (s : State) : State :=
  let s := s.loadRegs s.chosen.regs isSkeleton
  (List.range 256).foldl (fun (s : State) n =>
    let st := s.fld (leaseCfg n) LEASE_CFG.STATE
    if st == 1 || st == 2 then
      let s := { s with leaseKeys := (match tget? s.chosen.leaseKeys n with | some k => tset s.leaseKeys n k | none => s.leaseKeys), leaseBorn := tset s.leaseBorn n s.now }
      s.setFld (leaseCfg n) LEASE_CFG.STATE 1
    else (s.resetReg (leaseCfg n)).resetReg ⟨.LEASE_SEED, selSv0, n, 0⟩) s

/-! The image (17 R588-R590). -/

/-- The running image: FW_VERSION and BODY_DIGEST. -/
def imageRun (l : List Byte) : RunImage := ⟨leNat (imgField l 16 4), imgField l 32 64⟩

/-- The start completes (17 R587, R592): STAGE 9, FAIL_COUNT 0, the leases return, and SV1 hands management back. -/
def State.startDone (s : State) : State :=
  let s := s.storeArea { s.startArea with failCount := 0 }
  let s := { s.leasesReturn with completeAt := some s.now, lastDuration := some ((s.now - s.startAt) / 1100000), sv1 := false, rasAt := s.now, monitorAt := s.now, repairs := [] }
  let s := { s with stageGib := s.fld ⟨.SNAP_STAGE, selSv0, 0, 0⟩ SNAP_STAGE.GIB_PER_SITE }
  (s.setFld ⟨.SNAP_STAGE, selSv0, 0, 0⟩ SNAP_STAGE.FREE_MIB (2 * s.stageUnits)).stageBegin 9

/-- The wires of a link's receive direction that spares replace, the present training's failures among them (01 R24). Which wires fail is the part's own (log 20). -/
def State.linkWires (s : State) (sel p : Nat) : List Nat :=
  let old := tget [] s.linkSpares (sel * 4 + p)
  old ++ (Config.wiresFailed sel p s.startArea.number).eraseDups.filter (fun w => !old.contains w)

/-- Every link port of the unit: (die selector, port). -/
def linkPorts : List (Nat × Nat) := ([0, 1, 2, 3, 24, 25].flatMap (fun sel => (List.range 4).map (fun p => (sel, p)))).filter (fun x => linkPort x.1 x.2)

/-- The link port that its 32 spares do not repair, if there is one: the first of several (01 R24; log 20). -/
def State.linkLost (s : State) : Option (Nat × Nat) := linkPorts.find? (fun x => 32 < (s.linkWires x.1 x.2).length)

/-- A link trained (01 R24, R25): the failed wires that its training finds are replaced from its 32 spares, and the spare map and REPAIRED say so. -/
def State.linkUp (s : State) (sel p : Nat) : State :=
  let k := sel * 4 + p
  let all := s.linkWires sel p
  let s := if all.isEmpty then s else { s with linkSpares := tset s.linkSpares k all }
  let r := linkReg .LINK_STATUS sel p
  (if all.isEmpty then s else s.setFld r LINK_STATUS.REPAIRED all.length).setFld r LINK_STATUS.UP 1

/-- Links trained: every link port is UP (01 R24, R25). -/
def State.linksUp (s : State) : State := linkPorts.foldl (fun s x => s.linkUp x.1 x.2) s

/-- CLK_CFG applied (16 R564). -/
def State.clockMode (s : State) : State :=
  let r : Reg := ⟨.CLK_CFG, selSv0, 0, 0⟩
  let ratio := s.fld r CLK_CFG.RATIO_MODE == 1
  { s with ratioMode := ratio, arithMhz := if ratio then s.fld r CLK_CFG.ARITH_MHZ else 1100 }

/-- The stage in progress passes (17 R587). Stage 6 fails when a link cannot be trained with its spares (01 R24). Stage 3 enters minimal mode when FAIL_COUNT is 3 (R591). -/
def State.stagePass (s : State) : State :=
  match s.stage with
  | 1 => ({ s with goodWindows := 0 } : State).stageBegin 2
  | 2 => s.stageBegin 3
  | 3 =>
    let s := s.storeRead
    if s.startArea.failCount == 3 then ((s.setFld startStatus START_STATUS.MODE 1).portsDown).syncAlerts else s.stageBegin 4
  | 4 => ({ s with running := some (imageRun s.flash) } : State).stageBegin 5
  | 5 => s.stageBegin 6
  | 6 =>
    match s.linkLost with
    | some x => s.startFailed 0x03 (4 * x.1 + x.2)
    | none => s.clockMode.linksUp.stageBegin 7
  | 7 => s.stageBegin 8
  | _ => s.startDone

/-- The stage in progress fails (17 R587, R595): stage 1 is SV1's to handle, stage 3 never fails; with FAIL_COUNT 3 a reference not judged stable leads on to stage 3 and minimal mode (R569, log 29). -/
def State.stageFail (s : State) (detail : Nat) (late : Bool) : State :=
  match s.stage with
  | 1 => { s with sv0Failed := true }
  | 2 => if s.startArea.failCount == 3 then s.stagePass else s.startFailed 0x02 0
  | 3 => s
  | 4 => s.startFailed 0x01 (if imageFault s.flash == 0 then detail else imageFault s.flash)
  | 5 => s.startFailed 0x08 0
  | 6 => s.startFailed 0x03 detail
  | 7 =>
    if late then let p := s.draw; p.2.startFailed (if bitAt p.1.toNat 0 then 0x05 else 0x04) 0
    else if detail < 16 then s.startFailed 0x04 detail
    else s.startFailed 0x05 (detail - 16)
  | _ => s.startFailed 0x06 detail

/-- Whether a stage is in progress. -/
def State.starting (s : State) : Bool := !s.startDue && !s.sv0Failed && !s.minimal && 1 ≤ s.stage && s.stage ≤ 8

/-- Bounds of the stages in milliseconds (17 R587). -/
def stageBound (n : Nat) : Nat := [0, 50, 100, 20, 2000, 1000, 200, 5000, 5000].getD n 0

/-- START_STAGE (17 R587): the stage in progress ends. Stage 2 passes only with the reference judged stable, stage 4 only with an image that the checks of R589 accept; in stage 7 a DETAIL of 16 and more names a site. A stage that ends past its bound has exceeded it and fails; stage 3 never does. -/
def execStartStage (r : StageResult) (s : State) : Host.Outcome State Fault Refusal := s.live fun s =>
  if !s.starting then .next s
  else if s.stage != 3 && s.stageAt + ms (stageBound s.stage) < s.now then .next (s.stageFail 0 true)
  else match r with
    | .failed d => .next (s.stageFail d false)
    | .passed =>
      if s.stage == 2 && s.fld clkMon CLK_MON_STATUS.REF_OK == 0 then .next s
      else if s.stage == 4 && imageFault s.flash != 0 then .next (s.stageFail 0 false)
      else .next s.stagePass

/-- STAGE_TIMEOUT (17 R587). -/
def execStageTimeout (s : State) : Host.Outcome State Fault Refusal := s.live fun s =>
  if !s.starting || s.now < s.stageAt + ms (stageBound s.stage) then .next s else .next (s.stageFail 0 true)

/-- HEARTBEAT (17 R595): while SV1 holds SV0 in reset none comes; a start on SV0 sends them again. -/
def execHeartbeat (s : State) : Host.Outcome State Fault Refusal := s.live fun s =>
  .next (if (s.sv1 && s.minimal) || s.sv0Failed then s else { s with heartbeatAt := s.now })

/-- SV1_TAKEOVER (17 R595): SV0's self-test has failed, or no heartbeat for 100 ms. -/
def execSv1Takeover (s : State) : Host.Outcome State Fault Refusal := s.live fun s =>
  if s.sv1 && s.minimal then .next s
  else if !s.sv0Failed && s.now < s.heartbeatAt + ms 100 then .next s
  else
    let a := s.recovery.area
    let e : FailEntry := ⟨a.number, 0x07, s.stage, 0⟩
    let s := { s.cold .running with sv1 := true, startAt := s.startAt, mgmtKeys := s.recovery.keys, startArea := { a with fails := (e :: a.fails).take 8 } }
    let s := s.loadRegs s.recovery.regs (fun _ => true)
    let s := (s.setFld startStatus START_STATUS.MODE 2).setFld startStatus START_STATUS.FAIL_COUNT a.failCount
    .next (s.setFld unitAddr UNIT_ADDR.STRAP s.strap).syncAlerts

/-- RESTART (17 R592): FAIL_COUNT becomes 0, and a start is due once the reply has been sent. -/
def execRestart (q : DcpHdr) (s : State) : Host.Outcome State Fault Refusal := s.live fun s =>
  .next (s.dcp q 0x0604 0 (q.dlen == 0) true true (ms 1) (fun s _ _ => ({ s.storeArea { s.startArea with failCount := 0 } with startDue := true }, statusOut .ok)))

/-! Staging and committing an image (17 R590). -/

/-- Bytes of a staged image, zeros where none has arrived. -/
def StagedImage.bytes (x : StagedImage) : List Byte :=
  x.chunks.foldl (fun b c => b.take c.1 ++ c.2 ++ b.drop (c.1 + c.2.length)) (List.replicate x.total 0#8)

/-- Whether TOTAL bytes have arrived. -/
def StagedImage.whole (x : StagedImage) : Bool := x.chunks.foldl (fun l c => addRange l c.1 (c.1 + c.2.length)) [] == [(0, x.total)]

/-- IMAGE_BEGIN (17 R590): a TOTAL beyond 128 MiB is out of range (R588). -/
def execImageBegin (q : DcpHdr) (total : Nat) (s : State) : Host.Outcome State Fault Refusal := s.live fun s =>
  .next (s.dcp q 0x0601 8 (q.dlen == 0) (total ≤ 134217728) true (ms 1) (fun s _ _ => ({ s with staged := some ⟨total, []⟩ }, statusOut .ok)))

/-- IMAGE_CHUNK (17 R590). -/
def execImageChunk (q : DcpHdr) (offset : Nat) (data : List Byte) (s : State) : Host.Outcome State Fault Refusal := s.live fun s =>
  .next (s.dcp q 0x0602 8 (q.dlen == data.length && 1 ≤ data.length && data.length ≤ 8192) true true (ms 1) (fun s _ _ =>
    match s.staged with
    | none => (s, statusOut .range)
    | some x => if x.total < offset + data.length then (s, statusOut .range) else ({ s with staged := some { x with chunks := x.chunks ++ [(offset, data)] } }, statusOut .ok)))

/-- IMAGE_COMMIT (17 R590): an image that passes is written into the slot, and the command ends with the writing; while another one writes the slot it waits. DESIGN CHOICE (log 28): the writing ends in the next cycle. -/
def execImageCommit (q : DcpHdr) (s : State) : Host.Outcome State Fault Refusal := s.live fun s =>
  .next (if s.flashWrite.isSome then s else s.dcp q 0x0603 0 (q.dlen == 0) true true (ms 10000) (fun s k _ =>
    match s.staged with
    | none => (s, statusOut .range)
    | some x => if !x.whole then (s, statusOut .range) else if imageFault x.bytes != 0 then (s, statusOut .auth) else ({ s with flashWrite := some ⟨k, q.seq, x.bytes⟩ }, .runs)))

/-- The slot written, and its IMAGE_COMMIT answered (17 R590). -/
def State.flashOn (s : State) : State :=
  match s.flashWrite with
  | none => s
  | some w => ({ s with flash := w.bytes, flashWrite := none } : State).reply w.session ⟨w.seq, 0x0603, .ok, [], []⟩

/-! Identity (14 R523, 17 R600-R602). -/

/-- FW_VERSION of the running image, zero in minimal mode. -/
def State.fwVersion (s : State) : Nat := if s.minimal then 0 else match s.running with | some x => x.version | none => 0

/-- The code of the grade (17 R601). -/
def gradeCode : Grade → Nat
  | .full => 0
  | .lite => 1

/-- IDENTIFY (14 R523). -/
def execIdentify (q : DcpHdr) (s : State) : Host.Outcome State Fault Refusal := s.live fun s =>
  .next (s.dcp q 0x0101 0 (q.dlen == 0) true true (ms 1) (fun s _ _ =>
    (s, .reply .ok (beBytes 2 s.self ++ [BitVec.ofNat 8 (gradeCode s.grade), 0#8] ++ beBytes 4 s.fwVersion ++ identityDigest) [])))

/-- SETTINGS contents as numbers. -/
def Settings.nums (x : Settings) : List Nat :=
  let byts := fun (l : List Byte) => l.length :: l.map (·.toNat)
  (x.regs.length :: x.regs.flatMap (fun p => [p.1, p.2.toNat])) ++ (match x.addr with | some r => (r.addr + 1) :: r.ports.flatMap (fun p => [flag p.1, p.2]) | none => [0]) ++ (x.mgmtKeys.length :: x.mgmtKeys.flatMap byts) ++
    (x.leaseKeys.length :: x.leaseKeys.flatMap (fun p => p.1 :: byts p.2)) ++ (x.absent.length :: x.absent) ++ (x.retired.length :: x.retired.flatMap (fun p => [p.1, p.2])) ++ (x.withdrawn.length :: x.withdrawn) ++ (x.repairs.length :: x.repairs) ++ (x.links.length :: x.links.flatMap (fun p => p.1 :: p.2.length :: p.2))

/-- The attestation report without its signature (17 R601). -/
def State.report (s : State) (nonce : List Byte) : List Byte :=
  let spare := fun n => let r := memc .HBM_SPARE (n / 4) (n % 4); if s.fld r HBM_SPARE.STATE == 2 then s.fld r HBM_SPARE.FAILED_PC else 0xFF
  beBytes 4 1 ++ beBytes 2 s.self ++ beBytes 1 (gradeCode s.grade) ++ beBytes 1 (s.fld startStatus START_STATUS.MODE) ++ beBytes 4 s.fwVersion ++ beBytes 4 Config.romVersion.toNat ++ beBytes 4 Config.minSecurity.toNat ++
    beBytes 1 (s.fld startStatus START_STATUS.RS_SETTINGS) ++ beBytes 1 s.startArea.failCount ++ beBytes 2 0 ++ beBytes 8 s.startArea.number ++
    (if s.minimal then List.replicate 64 0#8 else match s.running with | some x => x.digest | none => List.replicate 64 0#8) ++ Config.settingsDigest s.chosen.nums ++
    (List.range 4).flatMap (fun d => beBytes 1 (8 - s.fld ⟨.RAS_SPARE, selSv0, d, 0⟩ RAS_SPARE.SPARES_LEFT)) ++ (List.range 16).flatMap (fun n => beBytes 1 (spare n)) ++ List.replicate 12 0#8 ++ nonce ++ List.replicate 32 0#8 ++ Config.identityKey

/-- ATTEST (17 R601). -/
def execAttest (q : DcpHdr) (nonce : List Byte) (s : State) : Host.Outcome State Fault Refusal := s.live fun s =>
  .next (s.dcp q 0x0102 32 (q.dlen == 0) (nonce.length == 32) true (ms 50) (fun s _ _ => let r := s.report nonce; (s, .reply .ok [] (r ++ Config.sign (Config.shake512 r)))))

/-- The start record (17 R602). -/
def State.startRecord (s : State) : List Byte :=
  let fails := s.startArea.fails.flatMap (fun e => beBytes 4 (e.number % 2 ^ 32) ++ beBytes 1 e.reason ++ beBytes 1 e.stage ++ beBytes 1 e.detail ++ beBytes 1 0)
  beBytes 8 s.startArea.number ++ beBytes 1 (s.fld startStatus START_STATUS.MODE) ++ beBytes 1 s.startArea.failCount ++ beBytes 1 (s.fld startStatus START_STATUS.RS_SETTINGS) ++ beBytes 1 (s.fld startStatus START_STATUS.RS_START) ++
    beBytes 4 (s.lastDuration.getD ((s.now - s.startAt) / 1100000)) ++ List.replicate 16 0#8 ++ fails ++ List.replicate (64 - fails.length) 0#8

/-- START_RECORD (17 R602): the 96 bytes are the reply's parameters. -/
def execStartRecord (q : DcpHdr) (s : State) : Host.Outcome State Fault Refusal := s.live fun s =>
  .next (s.dcp q 0x0103 0 (q.dlen == 0) true true (ms 1) (fun s _ _ => (s, .reply .ok s.startRecord [])))

/-! Discovery and link-scope packets (17 R604-R607). -/

/-- The announcements of a host port's addresses (17 R604): a neighbour advertisement for each IPv6 address to all nodes, and with IPv4 enabled a gratuitous ARP for its address. PRESUMED (log 22): they go to the Ethernet addresses that the published standards give. -/
def State.portAnnounces (s : State) (h : Nat) : List HostPeer :=
  let g := (s.reg (hp .HP_IPV6_HI h)).toNat * 2 ^ 64 + (s.reg (hp .HP_IPV6_LO h)).toNat
  let vlan := s.fld (hp .HP_CFG h) HP_CFG.VLAN
  let six := (if g == 0 then [] else [BitVec.ofNat 128 g]) ++ [linkLocal h]
  let four := BitVec.ofNat 32 (s.fld (hp .HP_IPV4 h) HP_IPV4.ADDR)
  (six.filter (s.ownIp6 h)).map (fun a => ⟨0x333300000001#48, vlan, .solicit a, 0⟩) ++ (if s.ownIp4 h four then [⟨0xFFFFFFFFFFFF#48, vlan, .arp four, 0⟩] else [])

/-- NEIGHBOUR_ADVERTISEMENT (17 R604): three rounds, 1 s apart, each time a host port comes up. -/
def execNeighbourAdvertisement (h : Fin 2) (s : State) : Host.Outcome State Fault Refusal := s.live fun s =>
  let k := 16 + h.val
  let a := tget (0, 0) s.adverts k
  if !s.portUp (.host h) || 3 ≤ a.1 || (a.1 != 0 && s.now < a.2 + ms 1000) then .next s
  else .next { s.setRx h.val { s.rx h.val with announced := s.portAnnounces h.val } with adverts := tset s.adverts k (a.1 + 1, s.now) }

/-- A link-scope packet (17 R605, R606). -/
def State.linkPkt (s : State) (bytes : List Byte) : DftPacket := { s.packet 8 0 0 0 with rows := 1, hop := 1, pay := [mgmtRow bytes] }

/-- A link-scope packet sent on a port that is UP. -/
def State.sendLink (s : State) (q : Fin 16) (bytes : List Byte) : State := if s.portUp (.peer q) then s.emitOn q.val (s.linkPkt bytes) else s

/-- ANNOUNCE sent on every UP peer port (17 R607). -/
def State.announce (s : State) : State :=
  let addr := if s.self != 0 then s.self else match s.addrRecord with | some r => r.addr | none => 0
  let body := fun (q : Nat) => leBytes 2 1 ++ leBytes 2 addr ++ leBytes 1 (flag (s.self != 0)) ++ leBytes 1 q ++ leBytes 2 0 ++ identityDigest
  (List.finRange 16).foldl (fun s q => s.sendLink q (body q.val)) { s with announcedAt := some s.now }

/-- ANNOUNCE_SEND (17 R607). -/
def execAnnounceSend (s : State) : Host.Outcome State Fault Refusal := s.live fun s =>
  match s.announcedAt with
  | some t => if s.now < t + ms 1000 then .next s else .next s.announce
  | none => .next s.announce

/-- A link-scope packet of a KIND received (17 R605, R606). -/
def State.linkIn (s : State) (q : Fin 16) (p : DftPacket) (kind : Nat) (act : State → List Byte → State) : State :=
  if !s.portUp (.peer q) || (s.frameOk p && !linkScope p) then s
  else
    let f := s.frameIn q p
    if !f.2 then f.1
    else
      let k := mgmtKind p
      let t := f.1.freeCells q.val 0 (pktClass p) (pktCells p)
      if k == 0 || 5 < k then t.tally (peerPort .PEER_PORT_ERR q.val) PEER_PORT_ERR.DISCARDS 1
      else if k != kind then s
      else act t (p.pay.headD ⟨[], false⟩).bytes

/-- ANNOUNCE (17 R605-R607, R610, R611): PARTNER follows it; another identity with this unit's address is a conflict, with the recorded one it bars the reclaim. -/
def execAnnounce (q : Fin 16) (p : DftPacket) (s : State) : Host.Outcome State Fault Refusal := s.live fun s =>
  .next (s.linkIn q p 1 (fun s b =>
    let addr := leNat ((b.drop 2).take 2)
    let other := (b.drop 8).take 64 != identityDigest
    let s := s.setFld (peerPort .PEER_PORT_STATUS q.val) PEER_PORT_STATUS.PARTNER addr
    let s := if other && (match s.addrRecord with | some r => r.addr == addr | none => false) then { s with foreign := true } else s
    if other && bitAt (b.getD 4 0#8).toNat 0 && addr == s.self && addr != 0 then s.setW1c unitAddr UNIT_ADDR.CONFLICT else s))

/-! Chain enumeration (17 R609). -/

/-- CHAIN_POS and CHAIN_SRC set. -/
def State.takePos (s : State) (pos src : Nat) : State := (s.setFld unitAddr UNIT_ADDR.CHAIN_POS pos).setFld unitAddr UNIT_ADDR.CHAIN_SRC src

/-- Whether the unit holds a position. -/
def State.hasPos (s : State) : Bool := s.fld unitAddr UNIT_ADDR.CHAIN_SRC != 0

/-- TOKEN(p) sent on port 1, or CHAIN_ERR where the position is above 4,094. -/
def State.sendToken (s : State) (p : Nat) : State := if 4094 < p then s.setW1c unitAddr UNIT_ADDR.CHAIN_ERR else s.sendLink 1 (leBytes 2 2 ++ leBytes 2 p)

/-- TOKEN_END(n) sent on a port. -/
def State.sendEnd (s : State) (q : Fin 16) (n : Nat) : State := s.sendLink q (leBytes 2 3 ++ leBytes 2 n)

/-- ENUM_START (17 R609, R610): 1 s after the start completes; a head takes position 0. -/
def execEnumStart (s : State) : Host.Outcome State Fault Refusal := s.live fun s =>
  match s.completeAt with
  | none => .next s
  | some t =>
    if s.enumAt.isSome || s.now < t + ms 1000 then .next s
    else
      let s := { s with enumAt := some s.now, reclaimDue := s.addrRecord.isSome && s.self == 0 }
      if s.strap != 0 && s.portUp (.peer 0) then .next s
      else
        let s := s.takePos 0 1
        .next (if s.portUp (.peer 1) then s.sendToken 1 else s.setFld unitAddr UNIT_ADDR.CHAIN_LEN 1)

/-- TOKEN (17 R609 steps 2, 3 and 5). -/
def execToken (q : Fin 16) (p : DftPacket) (s : State) : Host.Outcome State Fault Refusal := s.live fun s =>
  .next (s.linkIn q p 2 (fun s b =>
    let n := leNat ((b.drop 2).take 2)
    if s.hasPos then
      if s.fld unitAddr UNIT_ADDR.CHAIN_SRC == 1 && q == 0 then (s.setFld unitAddr UNIT_ADDR.CHAIN_LEN n).sendEnd 1 n
      else s.setW1c unitAddr UNIT_ADDR.CHAIN_ERR
    else if q != 0 then s
    else
      let s := s.takePos n 2
      if s.portUp (.peer 1) then s.sendToken (n + 1) else (s.setFld unitAddr UNIT_ADDR.CHAIN_LEN (n + 1)).sendEnd 0 (n + 1)))

/-- TOKEN_END (17 R609 step 4). -/
def execTokenEnd (q : Fin 16) (p : DftPacket) (s : State) : Host.Outcome State Fault Refusal := s.live fun s =>
  .next (s.linkIn q p 3 (fun s b =>
    let n := leNat ((b.drop 2).take 2)
    let s := s.setFld unitAddr UNIT_ADDR.CHAIN_LEN n
    if s.fld unitAddr UNIT_ADDR.CHAIN_SRC == 1 then s else if q == 0 then s.sendEnd 1 n else if q == 1 then s.sendEnd 0 n else s))

/-- ENUM_STRAP_FALLBACK (17 R609 step 6). -/
def execEnumStrapFallback (s : State) : Host.Outcome State Fault Refusal := s.live fun s =>
  match s.enumAt with
  | none => .next s
  | some t =>
    if s.now < t + ms 2000 || s.hasPos || s.strap == 0 || s.strap == 0x7F then .next s else .next (s.takePos s.strap 3)

/-! Unit addresses (17 R610, R611). -/

/-- UP and PARTNER of the peer ports now. -/
def State.portRecord (s : State) : List (Bool × Nat) :=
  (List.finRange 16).map (fun q => let up := s.portUp (.peer q); (up, if up then s.fld (peerPort .PEER_PORT_STATUS q.val) PEER_PORT_STATUS.PARTNER else 0))

/-- Whether every port recorded UP is UP with the recorded PARTNER (17 R610). -/
def State.portsMatch (s : State) (r : AddrRecord) : Bool :=
  (r.ports.zip s.portRecord).all (fun x => !x.1.1 || (x.2.1 && x.2.2 == x.1.2))

/-- ADDRESS_RECLAIM (17 R610): decided as soon as the conditions hold, or at the 5 s limit. -/
def execAddressReclaim (s : State) : Host.Outcome State Fault Refusal := s.live fun s =>
  match s.enumAt, s.addrRecord with
  | some t, some r =>
    if !s.reclaimDue then .next s
    else if s.portsMatch r && !s.foreign && s.now ≤ t + ms 5000 then
      .next ((({ s with reclaimDue := false } : State).setFld unitAddr UNIT_ADDR.ADDRESS r.addr).setFld unitAddr UNIT_ADDR.RECLAIMED 1).announce
    else if t + ms 5000 ≤ s.now then .next { s with reclaimDue := false }
    else .next s
  | _, _ => .next s

/-- UNIT_ADDRESS (17 R610, R611). -/
def execUnitAddress (q : DcpHdr) (addr : BitVec 16) (s : State) : Host.Outcome State Fault Refusal := s.live fun s =>
  let n := addr.toNat
  .next (s.dcp q 0x0701 8 (q.dlen == 0) (1 ≤ n && n ≤ 0xFFFE) true (ms 1) (fun s _ _ =>
    if n == s.self then (s, statusOut .ok)
    else if s.fld fabCfg FAB_CFG.ENABLE == 1 then (s, statusOut .state)
    else
      let s := (({ s with addrRecord := some ⟨n, s.portRecord⟩, reclaimDue := false, foreign := false } : State).setFld unitAddr UNIT_ADDR.ADDRESS n).setFld unitAddr UNIT_ADDR.RECLAIMED 0
      (s.announce, statusOut .ok)))

end Sys2Proof.Machine
end

