-- ==== Sys2Proof/Machine/Ras.lean ====
section
/-! DEFINITION. The sparing policy of management firmware: error counts, spare cores, retired banks and withdrawn host-class cores (18 R615-R619). -/
namespace Sys2Proof.Machine

/-- RAS_CTRL (18 R619). -/
def rasCtrl : Reg := ⟨.RAS_CTRL, selSv0, 0, 0⟩
/-- RAS_SPARE of CDd (18 R619). -/
def rasSpare (d : Nat) : Reg := ⟨.RAS_SPARE, selSv0, d, 0⟩
/-- DBG_STATUS (19 R643). -/
def dbgStatus : Reg := ⟨.DBG_STATUS, selSv0, 0, 0⟩

/-- Whether a permission is granted: bit 0 PERTURB, 1 INJECT, 2 TAP (19 R641, R643). -/
def State.granted (s : State) (k : Nat) : Bool := bitAt (s.fld dbgStatus DBG_STATUS.GRANTED) k

/-- Whether firmware acts on a trigger: AUTO_SPARE is 1, and INJECT is not granted (18 R615, 19 R644). -/
def State.autoSpare (s : State) : Bool := s.fld rasCtrl RAS_CTRL.AUTO_SPARE == 1 && !s.granted 1

/-- The resource a counter belongs to, named by its first counter: a tensor core, a shared bank, a pseudo-channel or site, a host-class core (18 R615). -/
def rasResource (r : Reg) : Option Reg :=
  match r.name with
  | .ROW_ECC_CNT => some { r with j := 0 }
  | .SDM_ECC_CNT => some r
  | .MEMC_ECC_CNT => some r
  | .HC_ECC_CNT => some r
  | _ => none

/-- The resource that holds a row. -/
def State.rowResource (s : State) (row : Nat) : Reg :=
  if isDram row then let c := ctlOf row; memc .MEMC_ECC_CNT c.1 c.2 (s.physPc row)
  else if row < 28 * 2 ^ 31 then ⟨.SDM_ECC_CNT, selCd (row / 2 ^ 31 - 24), row % 2 ^ 31 / 8192, 0⟩
  else coreReg .ROW_ECC_CNT (coreOfRow row)

/-- CORR and UNCORR of a counter's word. -/
def counterOf (n : RegName) (w : Nat) : Nat × Nat :=
  let two := fun (c u : Fld) => (bits w c.hi c.lo, bits w u.hi u.lo)
  match n with
  | .ROW_ECC_CNT => two ROW_ECC_CNT.CORR ROW_ECC_CNT.UNCORR
  | .SDM_ECC_CNT => two SDM_ECC_CNT.CORR SDM_ECC_CNT.UNCORR
  | .MEMC_ECC_CNT => two MEMC_ECC_CNT.CORR MEMC_ECC_CNT.UNCORR
  | _ => two HC_ECC_CNT.CORR HC_ECC_CNT.UNCORR

/-- The span within which a counter's rise counts, and the rise that meets its trigger; LPDDR5X sites have none (18 R615). -/
def rasLimit (r : Reg) : Nat × Option Nat :=
  match r.name with
  | .ROW_ECC_CNT => (ms 3600000, some 4096)
  | .SDM_ECC_CNT => (ms 3600000, some 65536)
  | .MEMC_ECC_CNT => (ms 3600000, if r.i < 4 then some 1000000 else none)
  | _ => (ms 86400000, some 2)

/-- A counter sampled: its rise joins those within the span; a counter that fell was cleared, and counts from zero. Whether its trigger is met is returned. -/
def State.rasCounter (s : State) (r : Reg) (w : Nat) : State × Bool :=
  let v := counterOf r.name w
  let old := tget (0, 0) s.rasSeen r.addr
  let x := if r.name == .HC_ECC_CNT then (old.2, v.2) else (old.1, v.1)
  let rise := if x.1 ≤ x.2 then x.2 - x.1 else x.2
  let lim := rasLimit r
  let l := (if rise == 0 then [] else [(s.now, rise)]) ++ (tget [] s.rasCorr r.addr).filter (fun p => decide (s.now < p.1 + lim.1))
  ({ s with rasSeen := tset s.rasSeen r.addr v, rasCorr := tset s.rasCorr r.addr l }, match lim.2 with | some n => decide (n ≤ (l.map (·.2)).sum) | none => false)

/-- Every counter that has been written, with its word. -/
def State.rasCounters (s : State) : List (Reg × Nat) :=
  s.regs.filterMap (fun p => match Reg.ofAddr p.1 with
    | some r => if (rasResource r).isSome then some (r, p.2.toNat) else none
    | none => none)

/-- Resources with uncorrectable words at two different rows within 24 h (18 R615). -/
def State.twoRows (s : State) : List Reg :=
  let rows := (s.uncRows.map (·.2)).eraseDups
  let res := (rows.map s.rowResource).eraseDups
  res.filter (fun r => 2 ≤ (rows.filter (fun x => s.rowResource x == r)).length)

/-- The history of a resource dropped once its trigger has been acted on, or its hardware replaced (log 31). -/
def State.rasForget (s : State) (r : Reg) : State :=
  let mine := fun (a : Nat) => match Reg.ofAddr a with | some x => rasResource x == some r | none => false
  { s with rasCorr := s.rasCorr.filter (fun p => !mine p.1), uncRows := s.uncRows.filter (fun p => s.rowResource p.2 != r) }

/-- The action on a trigger (18 R615). -/
def State.rasAct (s : State) (r : Reg) : State :=
  match r.name with
  | .ROW_ECC_CNT => { s with marked := sins s.marked (coreKey r.sel r.i) }
  | .SDM_ECC_CNT => if s.retired.contains (r.sel, r.i) || s.retireDue.contains (r.sel, r.i) then s else { s with retireDue := s.retireDue ++ [(r.sel, r.i)] }
  | .MEMC_ECC_CNT =>
    if r.i < 4 && s.spareState r.sel r.i == 0 && r.j < 32 then (s.spareWrite r.sel r.i (setBit (setBits 0 HBM_SPARE.FAILED_PC.hi HBM_SPARE.FAILED_PC.lo r.j) 0 true)).1
    else { s with repairs := sins s.repairs r.addr }
  | _ => { s with withdrawn := sins s.withdrawn (r.sel * 16 + r.i) }

/-- A resource that meets its trigger: acted on, or only recorded while firmware raises no action (18 R615). -/
def State.rasTrigger (s : State) (r : Reg) : State :=
  if s.autoSpare then (s.rasAct r).rasForget r else { s with rasMet := sins s.rasMet r.addr }

/-- RAS_SAMPLE (18 R615): every 10 s the counters' differences are taken, and each resource that meets a trigger is acted on. -/
def execRasSample (s : State) : Host.Outcome State Fault Refusal := s.live fun s =>
  if s.stage != 9 || s.now < s.rasAt + ms 10000 then .next s
  else
    let s := { s with rasAt := s.now, uncRows := s.uncRows.filter (fun p => decide (s.now < p.1 + ms 86400000)) }
    let a := s.rasCounters.foldl (fun (p : State × List Reg) c =>
      let q := p.1.rasCounter c.1 c.2
      (q.1, match q.2, rasResource c.1 with | true, some r => p.2 ++ [r] | _, _ => p.2)) (s, [])
    .next ((a.2 ++ a.1.twoRows).eraseDups.foldl State.rasTrigger a.1)

/-- A spare mapped in under a core's logical number: powered, zeroed, with counters of its own (18 R616). -/
def State.mapCore (s : State) (k : Nat) : State :=
  let s := (s.scrubCore k).onCore k (fun c => { c with gated := true })
  let s := (List.range 22).foldl (fun s b => s.resetReg (coreReg .ROW_ECC_CNT k b)) s
  let s := s.rasForget (coreReg .ROW_ECC_CNT k)
  { s with rasSeen := s.rasSeen.filter (fun p => match Reg.ofAddr p.1 with | some x => rasResource x != some (coreReg .ROW_ECC_CNT k) | none => true) }

/-- SPARE_CORE_MAP (18 R616): a marked core that is bound to no lease gives its number to a spare of the same die, or becomes absent when none is left. In stage 8 of a start the command names a core whose self-test failed (18 R615, 17 R587). -/
def execSpareCoreMap (c : CoreId) (s : State) : Host.Outcome State Fault Refusal := s.live fun s =>
  let k := ckey c
  let d := c.die.val
  let due := s.marked.contains k || (s.starting && s.stage == 8)
  if !due || !s.exposed d c.core.val || s.fld (tcBind k) TC_BIND.MODE != 0 || (s.core k).scrubDue.isSome then .next s
  else
    let s := { s with marked := sdel s.marked k }
    let left := s.fld (rasSpare d) RAS_SPARE.SPARES_LEFT
    if left == 0 then .next (({ s with absent := sins s.absent k } : State).bump (rasSpare d) RAS_SPARE.UNCOVERED 1)
    else .next ((s.setFld (rasSpare d) RAS_SPARE.SPARES_LEFT (left - 1)).mapCore k)

/-- BANK_RETIRE (18 R617): a bank that has met its trigger is retired once it lies in no valid partition; inside the carve-out it holds no lines. -/
def execBankRetire (d : Die) (b : Fin 96) (s : State) : Host.Outcome State Fault Refusal := s.live fun s =>
  let x := (d.val, b.val)
  let valid := (List.range 32).any (fun p => let r := sdmPart d.val p
    s.fld r SDM_PART.VALID == 1 && s.fld r SDM_PART.FIRST_BANK ≤ b.val && b.val < s.fld r SDM_PART.FIRST_BANK + s.fld r SDM_PART.BANKS)
  if !s.retireDue.contains x || s.retired.contains x || valid then .next s
  else
    let s := { s with retireDue := s.retireDue.erase x, retired := s.retired ++ [x] }
    let lines := tget [] s.wcache d.val
    let s := if 96 - s.carve d.val ≤ b.val then { s with wcache := tset s.wcache d.val (lines.filter (fun l => s.lineBank d.val l.addr != b.val)) } else s
    .next (s.bump (rasSpare d.val) RAS_SPARE.BANKS_RETIRED 1)

end Sys2Proof.Machine
end

