-- ==== Sys2Proof/Machine/Debug.lean ====
section
/-! DEFINITION. Debug authorization, perturbation registers and error injection (19). -/
namespace Sys2Proof.Machine

/-- Byte strings equal to ASCII text's codes: "V4DBGTK1" (19 R641). -/
def tokenMagic : List Byte := [0x56#8, 0x34#8, 0x44#8, 0x42#8, 0x47#8, 0x54#8, 0x4B#8, 0x31#8]

/-- The bytes of DBG_TOKEN (19 R641). -/
def State.token (s : State) : List Byte := (List.range 401).flatMap (fun k => leBytes 8 (s.reg ⟨.DBG_TOKEN, selSv0, k, 0⟩).toNat)

/-- The 32 bytes of DBG_NONCE (19 R642). -/
def State.nonce (s : State) : List Byte := (List.range 4).flatMap (fun k => leBytes 8 (s.reg ⟨.DBG_NONCE, selSv0, k, 0⟩).toNat)

/-- The first check of R642 that a token fails, 1-5, or 0. -/
def State.tokenFault (s : State) : Nat :=
  let t := s.token
  let key := Config.shake512 (imgField t 128 1793)
  if imgField t 0 8 != tokenMagic || 8 ≤ leNat (imgField t 8 4) || !allZero (imgField t 12 4) || !allZero (imgField t 112 16) || !allZero (t.drop 3201) then 1
  else if imgField t 48 64 != identityDigest then 2
  else if imgField t 16 32 != s.nonce then 3
  else if key != Config.debugSigner then 4
  else if !Config.sigOk key (Config.shake512 (imgField t 0 1921) ++ imgField t 1921 1280) then 5
  else 0

/-- A write of 1 to VERIFY (19 R642, R643). -/
def State.dbgVerify (s : State) : State × Status :=
  if s.fld dbgStatus DBG_STATUS.GRANTED != 0 || s.verifyAt.isSome then (s, .state)
  else (({ s with verifyAt := some s.now } : State).setFld dbgStatus DBG_STATUS.BUSY 1, .ok)

/-- The end of a VERIFY's checks (19 R642): PERMS are granted, or RESULT 2 names the first check that failed; the nonce is drawn anew. -/
def State.verifyEnd (s : State) : State :=
  let bad := s.tokenFault
  let perms := leNat (imgField s.token 8 4)
  let s := ({ s with verifyAt := none } : State).setFld dbgStatus DBG_STATUS.BUSY 0
  let s := (s.setFld dbgStatus DBG_STATUS.RESULT (if bad == 0 then 1 else 2)).setFld dbgStatus DBG_STATUS.DETAIL bad
  (if bad == 0 then s.setFld dbgStatus DBG_STATUS.GRANTED perms else s).newNonce

/-- Verification ends within 50 ms (19 R642). -/
def State.verifyOn (s : State) : State :=
  match s.verifyAt with
  | some t => if s.now < t + ms 50 then s else s.verifyEnd
  | none => s

/-- VERIFY_COMPLETE (19 R642): the token's checks end. -/
def execVerifyComplete (s : State) : Host.Outcome State Fault Refusal := s.live fun s =>
  .next (if s.verifyAt.isNone then s else s.verifyEnd)

/-- The perturbation registers (19 R645). -/
def RegName.isPert : RegName → Bool
  | .PERT_SEED => true
  | .PERT_XING => true
  | .PERT_MEMLAT => true
  | .PERT_LINKCR => true
  | .PERT_CREDIT => true
  | _ => false

/-- The injection registers (19 R651). -/
def RegName.isInj : RegName → Bool
  | .INJ_LOC => true
  | .INJ_CTRL => true
  | .INJ_STATUS => true
  | _ => false

/-- A write of 1 to LOCK (19 R643): the grant ends, and every PERT_ and INJ_ register is zero. -/
def State.dbgLock (s : State) : State :=
  let keep := fun (a : Nat) => match Reg.ofAddr a with | some r => !(r.name.isPert || r.name.isInj) | none => true
  ({ s with inject := none, regs := s.regs.filter (fun p => keep p.1) } : State).setFld dbgStatus DBG_STATUS.GRANTED 0

/-- A write to DBG_CTRL (19 R643). Where it sets both bits, VERIFY is judged first (log 30). -/
def State.dbgCtrlWrite (s : State) (v : Nat) : State × Status :=
  let r := if bitAt v DBG_CTRL.VERIFY.lo then s.dbgVerify else (s, .ok)
  (if bitAt v DBG_CTRL.LOCK.lo then r.1.dbgLock else r.1, r.2)

/-- A write to a PERT_ register (19 R644, R645, R649): ignored without PERTURB; a HOLD above PERIOD - 256 keeps both fields; transfers formed in its cycle follow the word before it. -/
def State.pertWrite (s : State) (a : Actor) (r : Reg) (v : Nat) : State × Status :=
  if !s.granted 0 then (s, .auth)
  else
    let credit := r.name == .PERT_LINKCR || r.name == .PERT_CREDIT
    let w := r.name.written (s.reg r).toNat v
    let period := bits w PERT_LINKCR.PERIOD.hi PERT_LINKCR.PERIOD.lo
    let hold := bits w PERT_LINKCR.HOLD.hi PERT_LINKCR.HOLD.lo
    if credit && hold != 0 && period < hold + 256 then
      if isDcp a then (s, .range) else (s.pertKeep r).plainWrite a r (keepFields (s.reg r).toNat v [PERT_LINKCR.PERIOD, PERT_LINKCR.HOLD])
    else (s.pertKeep r).plainWrite a r v

/-! Error injection. -/

/-- What INJ_LOC names under a TARGET: a row key, or a link receiver (19 R651, R652). -/
def State.injTarget (s : State) (target loc : Nat) : Except Status (Option Nat × Option (Nat × Nat)) :=
  match target with
  | 0 =>
    if loc % 512 != 0 || 4 ≤ bits loc 47 44 then .error .range
    else match s.place (bits loc 47 0) with
      | .ok p => .ok (some p.row, none)
      | .error e => .error e
  | 1 =>
    let d := bits loc 41 40
    let c := bits loc 38 32
    let b := bits loc 18 16
    let row := bits loc 12 0
    if !s.exposed d c then .error .engineAbsent
    else if b == 2 || b == 7 || bufRows b ≤ row then .error .range
    else .ok (some (bufRow (coreKey d c) b row), none)
  | 2 => if linkPort (bits loc 43 38) (bits loc 1 0) then .ok (none, some (bits loc 43 38, bits loc 1 0)) else .error .range
  | _ => .error .range

/-- A write to INJ_CTRL that sets ARM (19 R652): what it arms, or the status it is refused with; a core that is not exposed is found first (15 R550). -/
def State.injArm (s : State) (v : Nat) : Except Status Inject :=
  let f := fun (x : Fld) => bits v x.hi x.lo
  let a := f INJ_CTRL.SYM_A
  let b := f INJ_CTRL.SYM_B
  let t := s.injTarget (f INJ_CTRL.TARGET) (s.reg ⟨.INJ_LOC, selSv0, 0, 0⟩).toNat
  match t with
  | .error .engineAbsent => .error .engineAbsent
  | _ =>
    if s.fld injCtrl INJ_CTRL.ARM == 1 then .error .busy
    else if f INJ_CTRL.PATTERN == 0 || 35 < a || (35 < b && b != 63) || a == b || (f INJ_CTRL.MODE == 0 && f INJ_CTRL.TARGET == 2) then .error .range
    else match t with
      | .error e => .error e
      | .ok x => .ok ⟨x.1, x.2, f INJ_CTRL.WORD, (a, f INJ_CTRL.PATTERN) :: (if b == 63 then [] else [(b, f INJ_CTRL.PATTERN)]), f INJ_CTRL.MODE == 0⟩

/-- A write to INJ_CTRL (19 R644, R651, R652): what is armed is latched (log 30); a write that clears ARM disarms. -/
def State.injCtrlWrite (s : State) (a : Actor) (v : Nat) : State × Status :=
  if !s.granted 1 then (s, .auth)
  else if bitAt v INJ_CTRL.ARM.lo then
    match s.injArm v with
    | .error e => (s, e)
    | .ok i => (({ s with inject := some i } : State).setReg injCtrl (BitVec.ofNat 64 (RegName.written .INJ_CTRL (s.reg injCtrl).toNat v)), .ok)
  else
    let p := s.plainWrite a injCtrl v
    (if p.2 == .ok then { p.1 with inject := none } else p.1, p.2)

end Sys2Proof.Machine
end

