-- ==== Sys2Proof/Machine/Pins.lean ====
section
/-! DEFINITION. Pins: reset, supply, junction sensors, the thermal trip and the alerts (20). These act whether or not the unit runs. -/
namespace Sys2Proof.Machine

/-- Whether the unit has its supply and has not shut down (20 R665, R666, R671). -/
def State.powered (s : State) : Bool := s.life = .running || s.life = .inReset || s.life = .rootsLost

/-- Every die held in reset (20 R661): ALERT_N[0] is low, the other alert outputs are released. -/
def State.holdReset (s : State) : State :=
  let s := s.cold .inReset
  ({ s with resetLow := true, alertSince := [(0, s.now)] } : State).setFld ⟨.PKG_PIN_STATUS, selSv0, 0, 0⟩ PKG_PIN_STATUS.ALERT 1

/-- RESET_ASSERT (20 R661): RESET_N is filtered low. -/
def execResetAssert (s : State) : Host.Outcome State Fault Refusal :=
  .next (if s.powered then (if s.resetLow then s else s.holdReset) else { s with resetLow := true })

/-- RESET_RELEASE (20 R661, R662): the filtered rising edge samples the straps and begins a start; while the supply is out of range the release is held, and while THERMTRIP_N is held it starts nothing (R664, R671). -/
def execResetRelease (straps : BitVec 7) (s : State) : Host.Outcome State Fault Refusal :=
  if !s.resetLow then .next s
  else
    let s := { s with resetLow := false, strap := straps.toNat }
    .next (if s.life = .inReset then { s with life := .running, startDue := true } else s)

/-- POWER_LOSS (20 R665): every die except the trip latch loses power. Nothing is written back and no reply is sent. -/
def execPowerLoss (s : State) : Host.Outcome State Fault Refusal :=
  .next (if s.life = .unpowered then s else { s.cold .unpowered with resetLow := s.resetLow, strap := s.strap })

/-- POWER_RESTORE (20 R664, R665): VIN is back in range and the rails are up: a start begins, or RESET_N still holds the unit. -/
def execPowerRestore (s : State) : Host.Outcome State Fault Refusal :=
  .next (if s.life = .unpowered then (if s.resetLow then s.holdReset else { s with life := .running, startDue := true }) else s)

/-- A record in the trip latch, in place of an earlier one (20 R671, R673). -/
def State.tripRecord (s : State) (cause die temp : Nat) : State :=
  (((s.setFld pkgTrip PKG_TRIP.TEMP temp).setFld pkgTrip PKG_TRIP.DIE die).setFld pkgTrip PKG_TRIP.CAUSE cause).setW1c pkgTrip PKG_TRIP.VALID

/-- VIN_OVERVOLTAGE (20 R666): CAUSE 5 is latched and the unit shuts down; the DIE of such a record is a free value (log 32). -/
def execVinOvervoltage (s : State) : Host.Outcome State Fault Refusal :=
  if !s.powered then .next s
  else
    let p := s.draw
    .next ((p.2.tripRecord 5 (bits p.1.toNat 5 0) 0).cold .overvolted)

/-- The trip value of a sensor, °C (20 R670). -/
def tripValue : Sensor → Nat
  | .compute => 115
  | .dram => 105
  | .ioService => 115
  | .regulator => 125

/-- The CAUSE a sensor's trip records (20 R673). -/
def tripCause : Sensor → Nat
  | .compute => 1
  | .dram => 2
  | .ioService => 3
  | .regulator => 4

/-- JUNCTION_SAMPLE (20 R670, R671): the second successive sample of a sensor at its trip value latches the record, drives THERMTRIP_N low and shuts the unit down. -/
def execJunctionSample (k : Sensor) (sel : Fin 64) (t : Fin 256) (s : State) : Host.Outcome State Fault Refusal :=
  let key := tripCause k * 64 + sel.val
  if !s.powered then .next s
  else if t.val < tripValue k then .next { s with hot := sdel s.hot key }
  else if s.hot.contains key then .next ((s.tripRecord (tripCause k) (if k = .regulator then 0x3F else sel.val) t.val).cold .tripped)
  else .next { s with hot := sins s.hot key }

/-- The key of concentrator source 0x00C, whose raw line is THERMTRIP_N driven low by another device (20 R672). -/
def tripKey : Nat := 4 * 1024 + 0x0C

/-- THERMTRIP_EXTERNAL (20 R672): another device drives THERMTRIP_N low while the unit does not. -/
def execThermtripExternal (s : State) : Host.Outcome State Fault Refusal := .next (if s.life = .tripped then s else s.noteLine tripKey true)

/-- THERMTRIP_EXTERNAL_RELEASE (20 R672). -/
def execThermtripExternalRelease (s : State) : Host.Outcome State Fault Refusal := .next (s.noteLine tripKey false)

/-- ALERT_HOLD_EXPIRE (20 R669): an alert output driven low for 1 ms whose condition has ended is released. -/
def execAlertHoldExpire (i : Fin 4) (s : State) : Host.Outcome State Fault Refusal :=
  let r : Reg := ⟨.PKG_PIN_STATUS, selSv0, 0, 0⟩
  let low := bitAt (s.fld r PKG_PIN_STATUS.ALERT) i.val
  .next (if s.powered && low && !s.alertWanted i.val && tget 0 s.alertSince i.val + ms 1 ≤ s.now then s.setFld r PKG_PIN_STATUS.ALERT (setBit (s.fld r PKG_PIN_STATUS.ALERT) i.val false) else s)

end Sys2Proof.Machine
end

