-- ==== Sys2Proof/Machine/Service.lean ====
section
/-! DEFINITION. The DCP commands of the rollout service, the data loader and customer code, and the memory commands (14 R523-R525, R675). -/
namespace Sys2Proof.Machine

/-! Prompts, rollouts and records. -/

/-- A prompt handed over: text that follows an entry with MORE joins it, anything else is a new prompt (14 R523, log 33). -/
def State.promptIn (s : State) (n id adapter maxNew : Nat) (more : Bool) (text : List Byte) : State :=
  if s.prompts.any (fun p => p.lease == n && p.id == id && p.more) then
    { s with prompts := s.prompts.map (fun p => if p.lease == n && p.id == id && p.more then { p with more := more, text := p.text ++ text } else p) }
  else { s with prompts := s.prompts ++ [⟨n, id, adapter, maxNew, more, text⟩] }

/-- PROMPT_SUBMIT (14 R523, R525). -/
def execPromptSubmit (q : DcpHdr) (prompt : Word) (adapter maxNew : Nat) (more : Bool) (text : List Byte) (s : State) : Host.Outcome State Fault Refusal := s.live fun s =>
  .next (s.dcp q 0x0401 16 (q.dlen == text.length && 1 ≤ text.length && text.length ≤ 8192) (1 ≤ maxNew && maxNew ≤ 65535) true (ms 1) (fun s _ x =>
    (s.promptIn x.actsFor prompt.toNat adapter maxNew more text, statusOut .ok)))

/-- ROLLOUT_FETCH (14 R523): the oldest completion record of the prompt, of any prompt for 0, leaves with the reply; none ready is ST_STATE, and an unknown prompt or a record longer than MAX_BYTES ST_RANGE (log 33). -/
def execRolloutFetch (q : DcpHdr) (prompt : Word) (maxBytes : Nat) (s : State) : Host.Outcome State Fault Refusal := s.live fun s =>
  .next (s.dcp q 0x0402 16 (q.dlen == 0) (64 ≤ maxBytes && maxBytes ≤ 8192) true (ms 1) (fun s _ x =>
    let n := x.actsFor
    match s.completions.find? (fun c => c.lease == n && (prompt == 0 || c.id == prompt.toNat)) with
    | none => (s, statusOut (if prompt == 0 || s.prompts.any (fun p => p.lease == n && p.id == prompt.toNat) then .state else .range))
    | some c =>
      if maxBytes < c.bytes.length then (s, statusOut .range)
      else ({ s with completions := s.completions.erase c, prompts := s.prompts.filter (fun p => !(p.lease == n && p.id == c.id)) }, .reply .ok [] c.bytes)))

/-- DATA_PUSH (14 R523, 18 R623): the records join the stream, and each placed takes one draw; the reply carries the position. -/
def execDataPush (q : DcpHdr) (stream : Nat) (records : Nat) (data : List Byte) (s : State) : Host.Outcome State Fault Refusal := s.live fun s =>
  .next (s.dcp q 0x0403 8 (q.dlen == data.length && 1 ≤ data.length && data.length ≤ 8192) (stream < 16 && records < 2 ^ 32) true (ms 1) (fun s _ x =>
    let k := x.actsFor * 16 + stream
    let p := s.stream x.actsFor stream
    let pos := (p.1 + records) % 2 ^ 64
    ({ s with streams := tset s.streams k (pos, (p.2 + records) % 2 ^ 64), records := tset s.records k (tget [] s.records k ++ [data]) }, .reply .ok (beBytes 8 pos) [])))

/-! Customer code (12 R478, R479). -/

/-- A chunk of an image taken into a slot; FINAL commits the image once all of TOTAL has arrived (14 R523). -/
def State.codeChunk (s : State) (n slot : Nat) (final : Bool) (offset total : Nat) (chunk : List Byte) : State × Status :=
  let c := s.codeSlot n slot
  if total < offset + chunk.length then (s, .range)
  else
    let x : StagedImage := ⟨total, (if c.total == total then c.staging else []) ++ [(offset, chunk)]⟩
    let put := fun (c : CodeSlot) => { s with codeSlots := tset s.codeSlots (slotKey n slot) c }
    if !final then (put { c with staging := x.chunks, total := total }, .ok)
    else if !x.whole then (s, .range)
    else (put { c with image := some x.bytes, staging := [], total := 0 }, .ok)

/-- CODE_LOAD (14 R523): refused with ST_BUSY while a snapshot stops the lease (18 R625). -/
def execCodeLoad (q : DcpHdr) (slot : Nat) (final : Bool) (offset total : Nat) (chunk : List Byte) (s : State) : Host.Outcome State Fault Refusal := s.live fun s =>
  .next (s.dcp q 0x0404 16 (q.dlen == chunk.length && 1 ≤ chunk.length && chunk.length ≤ 8192) (slot < 5 && total ≤ 67108864) true (if final then ms 100 else ms 1) (fun s _ x =>
    if s.snapStopped x.actsFor then (s, statusOut .busy)
    else
      let r := s.codeChunk x.actsFor slot final offset total chunk
      (r.1, statusOut r.2)))

/-- CODE_LIMITS (12 R479, 14 R523). -/
def execCodeLimits (q : DcpHdr) (slot timeMs heap : Nat) (s : State) : Host.Outcome State Fault Refusal := s.live fun s =>
  .next (s.dcp q 0x0405 16 (q.dlen == 0) (slot < 5 && 1 ≤ timeMs && timeMs ≤ 60000 && 2 ^ 20 ≤ heap && heap ≤ 2 ^ 32 && heap % 2 ^ 20 == 0) true (ms 1) (fun s _ x =>
    ({ s with codeSlots := tset s.codeSlots (slotKey x.actsFor slot) { s.codeSlot x.actsFor slot with timeMs := timeMs, heap := heap } }, statusOut .ok)))

/-! Memory commands (14 R675, 01 R32-R34, 05 R185). -/

/-- The checks of a memory command: an absent core first, then the space, the whole-row rule of spaces 0x2 and 0x3, and the lease's bindings. While a snapshot stops the lease it is refused (18 R625). DESIGN CHOICE (log 46): a bit above 47 makes an address no device address, also where bits 63:48 name this unit; the manual gives the 64-bit field no meaning of its own. -/
def State.memCheck (s : State) (n a len : Nat) : Option Status :=
  let last := a + len - 1
  let absent := fun x => match s.place x with | .error .engineAbsent => true | _ => false
  if 2 ^ 48 ≤ last || 4 ≤ bits a 47 44 then some .range
  else if absent a || absent last then some .engineAbsent
  else if s.snapStopped n then some .busy
  else if 2 ≤ bits a 47 44 && (a % 512 != 0 || len % 512 != 0) then some .range
  else s.findSpan (some n) a last

/-- The rows a span of bytes touches, by their first address. -/
def spanRows (a len : Nat) : List Nat := (List.range ((a + len - 1) / 512 + 1 - a / 512)).map (fun i => 512 * (a / 512 + i))

/-- The engine that performs a session's memory command: its requests are kept until the command ends. -/
def memAgent (k n : Nat) : Agent := ⟨.dcp, 0, 256 + k, some n, none, false⟩

/-- A memory command's accesses noted as under way: their requests are numbered from the next one on. -/
def State.memBegin (s : State) (k seq a len : Nat) : State := s.onCmd k seq (fun c => { c with mem := some ⟨a, len, s.nextId⟩ })

/-- The requests of a MEM_READ: each row its range touches is read when its request is granted (06 R257). -/
def State.memAsk (s : State) (g : Agent) (rows : List Nat) : State := rows.foldl (fun s r => match s.rowAt r with | some row => s.bookFor g row | none => s) s

/-- The request of one row of a MEM_WRITE: a whole row, or the bytes of its range, which its grant merges into what is stored. -/
def State.memPut (s : State) (g : Agent) (a : Nat) (data : List Byte) (r : Nat) : State :=
  let lo := Nat.max a r
  let hi := Nat.min (a + data.length) (r + 512)
  s.agentPut g r (lo - r) ((data.drop (lo - a)).take (hi - lo)) false

/-- The requests of a MEM_WRITE. -/
def State.memPutAll (s : State) (g : Agent) (a : Nat) (data : List Byte) (rows : List Nat) : State := rows.foldl (fun s r => s.memPut g a data r) s

/-- MEM_READ (14 R523, R675): its rows are asked for, and it ends when all of them have been performed. -/
def execMemRead (q : DcpHdr) (addr : Word) (len : Nat) (s : State) : Host.Outcome State Fault Refusal := s.live fun s =>
  .next (s.dcp q 0x0201 16 (q.dlen == 0) (1 ≤ len && len ≤ 8192) true (ms 1) (fun s k x =>
    match s.memCheck x.actsFor addr.toNat len with
    | some st => (s, statusOut st)
    | none => ((s.memBegin k q.seq addr.toNat len).memAsk (memAgent k x.actsFor) (spanRows addr.toNat len), .runs)))

/-- MEM_WRITE (14 R523, R675): its rows are written, and it ends when all of them have been performed. -/
def execMemWrite (q : DcpHdr) (addr : Word) (len : Nat) (data : List Byte) (s : State) : Host.Outcome State Fault Refusal := s.live fun s =>
  .next (s.dcp q 0x0202 16 (q.dlen == len && data.length == len) (1 ≤ len && len ≤ 8192) true (ms 1) (fun s k x =>
    match s.memCheck x.actsFor addr.toNat len with
    | some st => (s, statusOut st)
    | none => ((s.memBegin k q.seq addr.toNat len).memPutAll (memAgent k x.actsFor) addr.toNat data (spanRows addr.toNat len), .runs)))

/-- The requests of a memory command under way. -/
def State.memReqs (s : State) (k : Nat) (m : DcpMem) : List MemReq := s.reqs.filter (memMine k m)

/-- The bytes of a MEM_READ's rows as its requests read them; those of a poisoned row are free values (14 R675). -/
def State.memBytes (s : State) (l : List MemReq) : List Nat → State × List Byte
  | [] => (s, [])
  | a :: t =>
    match (s.rowAt a).bind (fun row => l.find? (fun r => r.row == row)) with
    | none => s.memBytes l t
    | some r =>
      if r.img.poison then
        let p := ({ s with fresh := s.fresh + 1 } : State).memBytes l t
        (p.1, (List.range 512).map (Config.freeByte s.fresh) ++ p.2)
      else
        let p := s.memBytes l t
        (p.1, r.img.bytes ++ p.2)

/-- A memory command ended, its rows all performed (14 R675): ST_INTEGRITY where one was read or is left poisoned, else ST_OK; a MEM_READ returns its bytes either way. -/
def State.memDone (s : State) (k : Nat) (c : DcpCmd) (m : DcpMem) : State :=
  let l := s.memReqs k m
  let s := { s with reqs := s.reqs.filter (fun r => !memMine k m r) }
  let st := if l.any (fun r => r.img.poison) then Status.integrity else .ok
  if c.opcode == 0x0201 then
    let p := s.memBytes l (spanRows m.addr m.len)
    p.1.reply k ⟨c.seq, c.opcode, st, [], (p.2.drop (m.addr % 512)).take m.len⟩
  else s.reply k ⟨c.seq, c.opcode, st, [], []⟩

/-- The memory commands under way: session, command and accesses. -/
def State.memCmds (s : State) : List (Nat × DcpCmd × DcpMem) := s.sessions.flatMap (fun x => x.2.cmds.filterMap (fun c => c.mem.map (fun m => (x.1, c, m))))

/-- Whether a performed request was one of a memory command that has ended before it. -/
def State.memStray (s : State) (r : MemReq) : Bool :=
  match r.owner with
  | .engine .dcp 0 i => 256 ≤ i && r.stage == 2 && !s.memCmds.any (fun c => 256 + c.1 == i && c.2.2.first ≤ r.id)
  | _ => false

/-- The memory commands whose rows have all been performed end; what is left of others is done with. -/
def State.memsOn (s : State) : State :=
  let s := (s.memCmds.filter (fun c => (s.memReqs c.1 c.2.2).all (fun r => r.stage == 2 && r.due ≤ s.now))).foldl (fun s c => s.memDone c.1 c.2.1 c.2.2) s
  if s.reqs.any s.memStray then { s with reqs := s.reqs.filter (fun r => !s.memStray r) } else s

end Sys2Proof.Machine
end

