-- ==== Sys2Proof/Machine/Access.lean ====
section
/-! DEFINITION. Register accesses: which register an address names, who may read and write it, what a read shows, and the commands that are one write or read (00 R8-R10, 01 R30-R33, R674; 14 R524; each chapter's access rule). -/
namespace Sys2Proof.Machine

/-! Which register an address names. -/

/-- Whether a register belongs to a logical tensor core named by its first index (15 R550). -/
def RegName.ofCore : RegName → Bool
  | .CORE_ID => true
  | .CORE_STATUS => true
  | .CORE_ECC_STALLS => true
  | .CORE_FMT_EVENTS => true
  | .CORE_DI_EVENT => true
  | .CORE_DI_ROW => true
  | .MA_MASK_ROW => true
  | .MA_MASK_COL => true
  | .ROW_ECC_CNT => true
  | .ROW_ECC_CLR => true
  | .STRM_CH_STATUS => true
  | .AWL_STATUS => true
  | .ATTN_STATUS => true
  | .TC_BIND => true
  | .TC_SHARE => true
  | .IC_RING_NOTE => true
  | _ => false

/-- Registers that exist on controllers 0-3 alone (07 R281). -/
def RegName.hbmOnly : RegName → Bool
  | .HBM_SPARE => true
  | .HBM_PDN_CTRL => true
  | .HBM_PDN_STATUS => true
  | _ => false

/-- Whether a register of the layout exists: a link port's (that of port 2 of CD1 and CD2 reads zero and ignores writes), a counter of a stack's pseudo-channels, a target of the controller (01, Link registers, 07 R281, 13 R491). -/
def Reg.exists' (r : Reg) : Bool :=
  match r.name with
  | .LINK_STATUS => r.sel < 4 || linkPort r.sel r.i
  | .LINK_ERR_CNT => r.sel < 4 || linkPort r.sel r.i
  | .LINK_ERR_CLR => r.sel < 4 || linkPort r.sel r.i
  | .MEMC_ECC_CNT => r.i < 4 || r.j == 0
  | .IC_TGT_CFG => r.sel < 4 || r.i < 4
  | .IC_CLAIM => r.sel < 4 || r.i < 4
  | .IC_COMPLETE => r.sel < 4 || r.i < 4
  | _ => true

/-- What an address of the register space names: a register, no register, or a refusal (01 R32, R33, 15 R550). While SV1 holds management its block answers for START_STATUS and UNIT_ADDR (17 R603). -/
def State.regTarget (s : State) (a : Nat) : Except Status (Option Reg) :=
  let sel := bits a 43 38
  let o := bits a 37 0
  if 2 ^ 48 ≤ a || bits a 47 44 != 8 || 0x19 < sel || a % 8 != 0 then .error .range
  else if sel == 25 && s.sv1 && o == 0xA00000 then .ok (some startStatus)
  else if sel == 25 && s.sv1 && o == 0xA00008 then .ok (some unitAddr)
  else if (match windowCore sel o with | some c => !s.exposed sel c | none => false) then .error .engineAbsent
  else match Reg.ofAddr a with
    | none => .ok none
    | some r => if r.name.ofCore && !s.exposed r.sel r.i then .error .engineAbsent else if r.exists' && (r.name.layout.kind != .ic || s.icLive (icOf r.sel)) then .ok (some r) else .ok none

/-- Whether the block an unlisted offset lies in has its own rule, by which it reads zero and ignores writes (03 R69, 08 R319, 09 R333). -/
def ownUnlisted (a : Nat) : Bool :=
  let sel := bits a 43 38
  let o := bits a 37 0
  (windowCore sel o).isSome || (sel < 4 && 0x6100000 ≤ o && o < 0x6110000) || (4 ≤ sel && sel < 20)

/-- Whether a core's window is open to a lease: to which the core is bound exclusively, or the holder of a shared core (03 R68). -/
def State.windowOf (s : State) (k n : Nat) : Bool := s.boundTo k n && s.holder k == some n

/-- Whether TC_BIND and TC_SHARE of a core name a lease (15 R552). -/
def State.coreNames (s : State) (k n : Nat) : Bool := s.fld (tcBind k) TC_BIND.MODE != 0 && (s.fld (tcBind k) TC_BIND.HOLDER == n || (s.fld (tcBind k) TC_BIND.MODE == 2 && (s.members k).contains n))

/-- The status of an access to an unlisted offset, by who makes it (01 R674); of a core's window, by another lease than its own, ST_RANGE (03 R68). -/
def State.unlistedStatus (s : State) (a : Actor) (addr : Nat) : Status :=
  match a with
  | .firmware => .ok
  | .hostCore n _ => match windowCore (bits addr 43 38) (bits addr 37 0) with
    | some c => if s.windowOf (coreKey (bits addr 43 38) c) n.val then .ok else .range
    | none => if ownUnlisted addr then .ok else .range
  | _ => .range

/-! Who may access a register (00 R25 and each chapter's access rule; 14 R524). -/

/-- Registers whose own rule refuses every write over DCP, or which only the lease opcodes change (11 R441, 12 R474, 13 R481, 15 R537, R552, R557; 14 R524). -/
def RegName.noDcpWrite : RegName → Bool
  | .TC_BIND => true
  | .TC_SHARE => true
  | .LEASE_CFG => true
  | .LEASE_SEED => true
  | .ACCT => true
  | .COLL_GROUP => true
  | .COLL_MEMBERS => true
  | .HC_BIND => true
  | .EYE_CFG => true
  | _ => false

/-- The registers of a Welt unit (09 R333). -/
def RegName.isWelt (n : RegName) : Bool := n.layout.kind == .hs

/-- The registers of a KV pool (10 R365). -/
def RegName.isPool : RegName → Bool
  | .KVP_CFG => true
  | .KVP_BASE => true
  | .KVP_META => true
  | .KVP_FREE => true
  | .KVP_LIST => true
  | .KVP_GO => true
  | .KVP_STATUS => true
  | _ => false

/-- The registers of a mailbox and the sums of their lines (13 R480, R489). -/
def RegName.isEye : RegName → Bool
  | .EYE_MSG => true
  | .EYE_STATUS => true
  | .EYE_CFG => true
  | .EYE_DB => true
  | .EYE_DB_SET => true
  | .EYE_DB_MASK => true
  | .EYE_TXSUM => true
  | _ => false

/-- The registers of an interrupt controller (13 R497). -/
def RegName.isIc (n : RegName) : Bool := n.layout.kind == .ic || n == .IC_RING_NOTE

/-- Registers of target t of an interrupt controller (13 R497). -/
def RegName.isTgt : RegName → Bool
  | .IC_TGT_CFG => true
  | .IC_CLAIM => true
  | .IC_COMPLETE => true
  | _ => false

/-- The debug registers (19 R640). -/
def RegName.isDebug (n : RegName) : Bool := n.isPert || n.isInj || n == .DBG_STATUS || n == .DBG_CTRL || n == .DBG_NONCE || n == .DBG_TOKEN

/-- The per-lease registers of snapshots and random streams (18 R622, R632). -/
def RegName.isSnap : RegName → Bool
  | .SNAP_POLICY => true
  | .SNAP_STAT => true
  | .SNAP_RESTORE => true
  | .RNG_STEP => true
  | _ => false

/-- Whether a mailbox is open to a lease (13 R482). -/
def State.eyeOpen (s : State) (d m n : Nat) : Bool := s.fld (eye .EYE_CFG d m) EYE_CFG.VALID == 1 && s.fld (eye .EYE_CFG d m) EYE_CFG.LEASE == n

/-- Whether a lease owns a valid collective group of an engine (11 R444). -/
def State.collMember (s : State) (io n : Nat) : Bool := (List.range 64).any (fun g => s.fld (collGroup io g) COLL_GROUP.VALID == 1 && s.fld (collGroup io g) COLL_GROUP.LEASE == n)

/-- Whether a lease owns what a Welt register belongs to; the unit's own registers are open to every lease with a group on it (09 R334). -/
def State.weltMine (s : State) (r : Reg) (n : Nat) : Bool :=
  let hs := r.sel - 4
  match r.name with
  | .WELT_GROUP_CFG => s.groupLease hs r.i == some n
  | .WELT_GROUP_CLIP => s.groupLease hs r.i == some n
  | .WELT_GROUP_PART => s.groupLease hs r.i == some n
  | .WELT_GROUP_RED => s.groupLease hs r.i == some n
  | .WELT_GROUP_NORM => s.groupLease hs r.i == some n
  | .WELT_HP_B1 => s.fld (Machine.welt .WELT_HP_LEASE hs r.i) WELT_HP_LEASE.LEASE == n
  | .WELT_HP_EPS => s.fld (Machine.welt .WELT_HP_LEASE hs r.i) WELT_HP_LEASE.LEASE == n
  | .WELT_HP_WD => s.fld (Machine.welt .WELT_HP_LEASE hs r.i) WELT_HP_LEASE.LEASE == n
  | .WELT_HP_LEASE => s.fld (Machine.welt .WELT_HP_LEASE hs r.i) WELT_HP_LEASE.LEASE == n
  | .WELT_CMD => (List.range 128).any (fun g => s.groupLease hs g == some n)
  | .WELT_STATUS => (List.range 128).any (fun g => s.groupLease hs g == some n)
  | .WELT_FREEZE => (List.range 128).any (fun g => s.groupLease hs g == some n)
  | _ => s.groupLease hs (s.weltLayer hs r.i).group == some n

/-- Whether a lease may read a register; `core` the host-class core whose access it is, which reaches its own interrupt target alone (13 R497). DESIGN CHOICE (log 47): every lease that a shared core is bound to owns it for the reads of its channel, Awl and attention status (06 R267, R268, 10 R391). -/
def State.leaseReads (s : State) (r : Reg) (n : Nat) (core : Option Nat) : Bool :=
  if r.name.isRing then s.ringLease r.sel r.i == n
  else if r.name.isStack then s.stackLease r.sel r.i == n
  else if r.name.isWelt then s.weltMine r n
  else if r.name.isPool then s.fld (kvp .KVP_CFG r.sel r.i) KVP_CFG.LEASE == n
  else if r.name == .EYE_TXSUM then (List.range 8).any (fun i => s.eyeOpen r.sel (8 * r.i + i) n)
  else if r.name.isEye then s.eyeOpen r.sel r.i n
  else if r.name.isTgt then core == some (r.sel * 16 + r.i) && r.sel < 4 && s.hcLease (r.sel * 16 + r.i) == some n
  else if r.name == .IC_RING_NOTE then core.isSome && s.boundTo (coreKey r.sel r.i) n
  else if r.name.isSnap then r.i == n
  else match r.name with
    | .CORE_ID => s.windowOf (coreKey r.sel r.i) n
    | .CORE_STATUS => s.windowOf (coreKey r.sel r.i) n
    | .CORE_ECC_STALLS => s.windowOf (coreKey r.sel r.i) n
    | .CORE_FMT_EVENTS => s.windowOf (coreKey r.sel r.i) n
    | .CORE_DI_EVENT => s.windowOf (coreKey r.sel r.i) n
    | .CORE_DI_ROW => s.windowOf (coreKey r.sel r.i) n
    | .MA_MASK_ROW => s.windowOf (coreKey r.sel r.i) n
    | .MA_MASK_COL => s.windowOf (coreKey r.sel r.i) n
    | .STRM_CH_STATUS => s.boundTo (coreKey r.sel r.i) n
    | .AWL_STATUS => s.boundTo (coreKey r.sel r.i) n
    | .ATTN_STATUS => s.boundTo (coreKey r.sel r.i) n
    | .TC_BIND => s.coreNames (coreKey r.sel r.i) n
    | .TC_SHARE => s.coreNames (coreKey r.sel r.i) n
    | .CTX_TABLE => s.fld r CTX_TABLE.VALID == 1 && s.fld r CTX_TABLE.LEASE == n
    | .PEER_SIG => s.fld r PEER_SIG.LEASE == n
    | .COLL_GROUP => s.fld r COLL_GROUP.LEASE == n
    | .COLL_MEMBERS => s.fld (collGroup (r.sel - 20) r.i) COLL_GROUP.LEASE == n
    | .COLL_SUBMIT => s.collMember (r.sel - 20) n
    | .COLL_STATUS => s.collMember (r.sel - 20) n
    | .L3_RANGE_BASE => true
    | .L3_RANGE_CTL => true
    | .L3_RANGE_STATUS => true
    | .HC_STATUS => s.hcLease (r.sel * 16 + r.i) == some n
    | .HC_DI_EVENT => s.hcLease (r.sel * 16 + r.i) == some n
    | .LEASE_CFG => r.i == n
    | .LEASE_SEED => r.i == n
    | .ACCT => r.i == n
    | .DBG_STATUS => core.isNone
    | _ => false

/-- Whether a lease may write a register, as far as the access rule goes; Welt units, pools and signal rows judge their own writes. -/
def State.leaseWrites (s : State) (r : Reg) (n : Nat) (core : Option Nat) : Bool :=
  if r.name.isWelt || r.name.isPool || r.name == .PEER_SIG then true
  else if r.name == .IC_RING_NOTE then false
  else match r.name with
    | .ATTN_STATUS => false
    | .COLL_GROUP => false
    | .COLL_MEMBERS => false
    | .HC_STATUS => false
    | .HC_DI_EVENT => false
    | .DBG_STATUS => false
    | .CTX_TABLE => true
    | .SDM_PART => true
    | .TC_BIND => true
    | .TC_SHARE => true
    | .LEASE_CFG => true
    | .LEASE_SEED => true
    | .ACCT => true
    | .EYE_CFG => true
    | _ => s.leaseReads r n core

/-- Registers of which a load, store or REG_WRITE of a lease is ignored where it is not refused over DCP (04 R147, 05 R204, 13 R481, 15 R537, R552, R557). -/
def RegName.ignored (n : RegName) : Bool := n == .CTX_TABLE || n == .SDM_PART || (n.noDcpWrite && n != .COLL_GROUP && n != .COLL_MEMBERS && n != .HC_BIND)

/-- Registers whose rule names its readers, DCP diagnostic commands not among them (09 R334, 10 R365, R391, 11 R444, 13 R482, R493, R497; 14 R524). -/
def RegName.noDiagRead (n : RegName) : Bool := n.isWelt || n.isPool || n.isEye || n.isIc || n == .ATTN_STATUS || n == .COLL_SUBMIT || n == .COLL_STATUS

/-- The status a read is refused with, if it is. -/
def State.readBar (s : State) (a : Actor) (r : Reg) : Option Status :=
  match a with
  | .firmware => if r.name == .ATTN_STATUS then some .range else none
  | .mgmt => if r.name.noDiagRead then some .range else none
  | .leaseDcp n => if s.leaseReads r n.val none then none else some .range
  | .hostCore n h => if s.leaseReads r n.val (some (hcKey h)) then none else some .range

/-- The status a write is refused or ignored with before the register's own rules, if it is. -/
def State.writeBar (s : State) (a : Actor) (r : Reg) : Option Status :=
  let late := s.minimal && r.name.isDebug
  match a with
  | .firmware => if late || r.name == .ATTN_STATUS then some .range else none
  | .mgmt => if late || r.name.noDcpWrite || r.name == .ATTN_STATUS then some .range else none
  | .leaseDcp n => if r.name.noDcpWrite || r.name.ignored || !s.leaseWrites r n.val none then some .range else none
  | .hostCore n h => if !s.leaseWrites r n.val (some (hcKey h)) then some .range else if r.name.ignored then some .ok else none

/-! What a read shows. -/

/-- A word of fields. -/
def packFlds (l : List (Fld × Nat)) : Word := BitVec.ofNat 64 (l.foldl (fun w p => setBits w p.1.hi p.1.lo p.2) 0)

/-- CORE_STATUS (03 R72); BOUND is 0 until a scrub completes (05 R210). DESIGN CHOICE (log 46): a half is busy with a pass until the pass has left the array's list, ten cycles after its last broadcast (R84), and ISSUING is 1 from a kernel's start until its END has issued, also while a bundle waits or the ring is in underrun; the rule says 'in progress' and 'bundles issue'. -/
def State.showCore (s : State) (k : Nat) : Word :=
  let c := s.core k
  let t := s.ctime k
  let touches := fun (half sel : Nat) => half == 0 || half == sel
  let busy := fun (a h : Nat) => (c.arr a).loads.any (fun l => touches l.half (h + 1)) || (c.arr a).passes.any (fun p => touches p.half (h + 1))
  let halves := (List.range 8).foldl (fun w i => setBit w i (busy (i / 2) (i % 2))) 0
  let ports := (List.range 2).foldl (fun w p => setBit w p (c.arrays.any (fun x => x.2.passes.any (fun q => q.port == p && q.holds t)))) 0
  packFlds [(CORE_STATUS.HALF_BUSY, halves), (CORE_STATUS.PORT_BUSY, ports), (CORE_STATUS.FROZEN, flag (s.frozen k)),
    (CORE_STATUS.ISSUING, flag (match c.kernel with | some q => !q.ended | none => false)), (CORE_STATUS.BOUND, flag (s.holder k).isSome)]

/-- STRM_CH_STATUS (06 R268). DESIGN CHOICE (log 47): HALF_A and HALF_B show the halves of the pair that the current transfer names, also while halves of the pair before a re-arm are not released. -/
def State.showChan (s : State) (k n : Nat) : Word :=
  let x := ((s.core k).settle (s.ctime k)).chan n
  match x.cur.orElse (fun _ => x.last) with
  | none => 0
  | some t =>
    let half := fun (h : Nat) =>
      match x.halves.find? (fun y => y.buf == t.d.nearBuf && y.row == t.d.nearRow + h * t.d.halfRows) with
      | some y => y.st
      | none => 0
    packFlds [(STRM_CH_STATUS.LANDED, t.done), (STRM_CH_STATUS.HANDLE, t.handle), (STRM_CH_STATUS.HALF_A, half 0), (STRM_CH_STATUS.HALF_B, half 1),
      (STRM_CH_STATUS.PENDING, flag x.pend.isSome), (STRM_CH_STATUS.NEXT, x.nextHalf), (STRM_CH_STATUS.ACTIVE, flag x.cur.isSome)]

/-- The register's stored word with a field that follows from other state. -/
def State.withFld (s : State) (r : Reg) (f : Fld) (v : Nat) : Word := BitVec.ofNat 64 (setBits (s.reg r).toNat f.hi f.lo v)

/-- Whether DBG_STATUS shows ACTIVE (19 R643). -/
def State.debugActive (s : State) : Bool :=
  s.inject.isSome || s.regs.any (fun p => p.2 != 0 && (match Reg.ofAddr p.1 with | some r => r.name.isPert | none => false))

/-- What a read of a register returns, without what the read itself changes (00 R8). -/
def State.show' (s : State) (r : Reg) : Word :=
  let k := coreKey r.sel r.i
  match r.name with
  | .CORE_ID => packFlds [(CORE_ID.GRADE, gradeCode s.grade), (CORE_ID.LOGICAL, r.i), (CORE_ID.DIE, r.sel)]
  | .CORE_STATUS => s.showCore k
  | .RING_DEPTH => BitVec.ofNat 64 (s.ringDepth r.sel r.i)
  | .RING_STATUS => s.withFld r RING_STATUS.STATE (s.ringState r.sel r.i)
  | .STRM_CH_STATUS => s.showChan k r.j
  | .ATTN_STATUS => s.withFld r ATTN_STATUS.OPEN (s.core k).openSlots
  | .AWL_STATUS => s.withFld r AWL_STATUS.BUSY ((List.range 16).foldl (fun w t => setBit w t (tget? (s.core k).awl t).isSome) 0)
  | .HBM_SPARE => if r.i < 4 then s.reg r else 0
  | .HBM_PDN_CTRL => if r.i < 4 then s.reg r else 0
  | .HBM_PDN_STATUS => if r.i < 4 then s.reg r else 0
  | .FAB_COORD => if r.i == 0 || r.i == 0xFFFF then 0 else s.reg r
  | .EYE_TXSUM => BitVec.ofNat 64 (s.eyeLines r.sel r.i)
  | .IC_SRC => s.icShow r
  | .IC_ENABLE => s.icShow r
  | .HC_STATUS => s.withFld r HC_STATUS.WFI (flag (s.hcWfi (r.sel * 16 + r.i)))
  | .HP_MAC => BitVec.ofNat 64 (Config.portMac (r.sel - 20)).toNat
  | .HP_FIFO_ROW => BitVec.ofNat 64 (s.mem.word (fifoByte (r.sel - 20) r.i + 8 * r.j) 8)
  | .HP_FIFO_TAG =>
    let x := s.rx (r.sel - 20)
    let t := tget (false, 0) x.tags r.i
    packFlds [(HP_FIFO_TAG.POISON, flag (x.spoiled.contains r.i)), (HP_FIFO_TAG.LAST, flag t.1), (HP_FIFO_TAG.VALID_BYTES, t.2)]
  | .ACCT => s.acctWord r.i r.j
  | .RAS_SPARE => s.withFld r RAS_SPARE.PENDING (min 15 (s.marked.filter (fun c => coreDie c == r.i && s.fld (tcBind c) TC_BIND.MODE != 0)).length)
  | .DBG_STATUS => s.withFld r DBG_STATUS.ACTIVE (flag s.debugActive)
  | .PKG_PIN_STATUS => s.withFld r PKG_PIN_STATUS.TRIP_IN (flag (s.filteredHigh.contains (tripKey + if s.sv1 then 1024 else 0)))
  | _ => s.reg r

/-- A permitted read of a register, and what it changes: a claim, a message taken, a notification popped (13 R484, R493, R499). -/
def State.readAct (s : State) (r : Reg) : State × Word :=
  match r.name with
  | .IC_CLAIM => s.icClaim (icOf r.sel) r.i
  | .IC_RING_NOTE => s.ringNoteRead (coreKey r.sel r.i)
  | .EYE_MSG => if r.j == 7 then s.eyeTake r.sel r.i else (s, s.reg r)
  | _ => (s, s.show' r)

/-- A read of a device address of the register space. -/
def State.regRead (s : State) (a : Actor) (addr : Nat) : State × Access :=
  match s.regTarget addr with
  | .error st => (s, ⟨st, 0⟩)
  | .ok none => (s, ⟨s.unlistedStatus a addr, 0⟩)
  | .ok (some r) =>
    match s.readBar a r with
    | some st => (s, ⟨st, 0⟩)
    | none => let p := s.readAct r; (p.1, ⟨.ok, p.2⟩)

/-! Writes. -/

/-- A write of HP_LAND_BASE (14 R508): an address of the LPDDR5X of CDh that is bound to no lease. -/
def State.landBaseWrite (s : State) (a : Actor) (r : Reg) (v : Nat) : State × Status :=
  let x := bits v 47 0
  let free := match s.place x with
    | .ok (.site n o) => n / 2 == r.sel - 20 && !s.extents.any (fun e => e.site == n && e.first ≤ o && o < e.first + e.count)
    | _ => false
  if free then s.plainWrite a r v else (s, .range)

/-- A permitted write of a register of a compute die, beside those of its cores' bindings. -/
def State.cdWrite (s : State) (a : Actor) (r : Reg) (v : Nat) : State × Status :=
  match r.name with
  | .MA_MASK_ROW => if r.j == 0 then (s, .ok) else s.plainWrite a r v
  | .MA_MASK_COL => if r.j == 0 then (s, .ok) else s.plainWrite a r v
  | .RING_BASE => s.ringBaseWrite r.sel r.i v
  | .RING_CFG => s.ringCfgWrite a r.sel r.i v
  | .RING_PROD => s.ringProdWrite r.sel r.i v
  | .RING_CTRL => s.ringCtrlWrite r.sel r.i v
  | .RING_DUMP => s.ringDumpWrite a r v
  | .CORE_DI_EVENT => (s.recordWrite r CORE_DI_EVENT.VALID CORE_DI_EVENT.COUNT v [⟨.CORE_DI_ROW, r.sel, r.i, 0⟩], .ok)
  | .SDM_DI_EVENT => (s.recordWrite r SDM_DI_EVENT.VALID SDM_DI_EVENT.COUNT v [], .ok)
  | .MEMC_DI_EVENT => (s.recordWrite r MEMC_DI_EVENT.VALID MEMC_DI_EVENT.COUNT v [], .ok)
  | .HC_DI_EVENT => (s.recordWrite r HC_DI_EVENT.VALID HC_DI_EVENT.COUNT v [], .ok)
  | .ROW_ECC_CLR => s.rowEccClr r.sel (some r.i) v
  | .SDM_ECC_CLR => s.rowEccClr r.sel none v
  | .SDM_WCACHE_CFG => s.wcacheCfgWrite r.sel v
  | .SDM_PART => s.sdmPartWrite a r.sel r.i v
  | .CTX_TABLE => if isDcp a && s.changesOwner r v then (s, .range) else s.plainWrite a r v
  | .ASTK_CFG => s.astkCfgWrite a r.sel r.i v
  | .ASTK_SPILL => s.astkExtentWrite a r v
  | .ASTK_SPILL_ROWS => s.astkExtentWrite a r v
  | .ASTK_TOP => s.astkTopWrite r.sel r.i v
  | .ASTK_FCMD => s.fcmdWrite r.sel r.i v
  | .MCQ_CLR => s.mcqClr r.sel v
  | .MEMC_ECC_CLR => s.memcEccClr r.sel r.i v
  | .HBM_SPARE => if r.i < 4 then s.spareWrite r.sel r.i v else (s, .ok)
  | .HBM_PDN_CTRL => if r.i < 4 then s.pdnWrite r.sel r.i v else (s, .ok)
  | .HBM_PDN_STATUS => if r.i < 4 then s.plainWrite a r v else (s, .ok)
  | .KVP_CFG => s.kvpCfgWrite a r.sel r.i v
  | .KVP_BASE => s.kvpAddrWrite a r.name r.sel r.i v
  | .KVP_META => s.kvpAddrWrite a r.name r.sel r.i v
  | .KVP_LIST => s.kvpListWrite a r.sel r.i v
  | .KVP_GO => s.kvpGo a r.sel r.i v
  | .KVP_STATUS => s.kvpStatusWrite a r.sel r.i v
  | .KVP_FREE => if s.mayPool a r.sel r.i then (s, .ok) else (s, .range)
  | .PEER_SIG => s.peerSigWrite a r.sel r.i v
  | .L3_RANGE_CTL => s.l3CtlWrite a r.sel v
  | .HC_BIND => s.hcBindWrite (r.sel * 16 + r.i) v
  | .EYE_MSG => s.eyeMsgWrite r.sel r.i r.j v
  | .EYE_CFG => s.eyeCfgWrite a r.sel r.i v
  | .EYE_DB_SET => s.eyeDbSet r.sel r.i v
  | .EYE_STATUS => s.eyePlain a r v
  | .EYE_DB => s.eyePlain a r v
  | .EYE_DB_MASK => s.eyePlain a r v
  | _ => s.plainWrite a r v

/-- A permitted write of a register of a Welt unit (09 R333-R363). -/
def State.hsWrite (s : State) (a : Actor) (r : Reg) (v : Nat) : State × Status :=
  let hs := r.sel - 4
  match r.name with
  | .WELT_CMD => s.weltCmd a hs (bits v WELT_CMD.OP.hi WELT_CMD.OP.lo) (bits v WELT_CMD.GROUP.hi WELT_CMD.GROUP.lo)
  | .WELT_FREEZE => s.weltFreezeWrite a hs r.i v
  | .WELT_GROUP_CFG => s.weltGroupWrite a hs r.i r.name v
  | .WELT_GROUP_CLIP => s.weltGroupWrite a hs r.i r.name v
  | .WELT_GROUP_PART => s.weltGroupWrite a hs r.i r.name v
  | .WELT_GROUP_RED => s.weltGroupWrite a hs r.i r.name v
  | .WELT_GROUP_NORM => s.weltGroupWrite a hs r.i r.name v
  | .WELT_HP_B1 => s.weltHpWrite a hs r.i r.name v
  | .WELT_HP_EPS => s.weltHpWrite a hs r.i r.name v
  | .WELT_HP_WD => s.weltHpWrite a hs r.i r.name v
  | .WELT_HP_LEASE => s.weltHpWrite a hs r.i r.name v
  | .WELT_LAYER_STATE => s.weltEpochWrite a hs r.i v
  | .WELT_STATUS => if (match actorLease a with | some n => s.weltMine r n | none => true) then s.plainWrite a r v else (s, .range)
  | n => s.weltLayerWrite a hs r.i n v

/-- A permitted write of a register of an interrupt controller (13 R497-R502), but for what round robin makes of it. -/
def State.icWriteReg (s : State) (a : Actor) (r : Reg) (v : Nat) : State × Status :=
  let ic := icOf r.sel
  match r.name with
  | .IC_SWSET => s.icSwset ic v
  | .IC_ENABLE => s.icEnableWrite ic r.i v
  | .IC_PENDING => s.icPendingWrite ic r.i v
  | .IC_SRC => s.icSrcWrite ic r.i v
  | .IC_COMPLETE => s.icComplete ic r.i v
  | _ => s.plainWrite a r v

/-- A permitted write of a register of an interrupt controller (13 R497-R502). -/
def State.icWrite (s : State) (a : Actor) (r : Reg) (v : Nat) : State × Status :=
  let p := s.icWriteReg a r v
  (p.1.rrNote s (icOf r.sel), p.2)

/-- A permitted write of a register of an I/O die. -/
def State.ioWrite (s : State) (a : Actor) (r : Reg) (v : Nat) : State × Status :=
  let d := r.sel - 20
  match r.name with
  | .PEER_PORT_CLR => s.peerPortClr (4 * d + r.i) v
  | .COLL_GROUP => s.collGroupWrite a d r.i v
  | .COLL_MEMBERS => s.collMembersWrite a d r.i v
  | .COLL_SUBMIT => s.collSubmit a d v
  | .HP_FIFO_PTR => s.hpHeadWrite d true v
  | .HP_LAND_PTR => s.hpHeadWrite d false v
  | .HP_FIFO_CTRL => s.dropRest d v
  | .HP_CLR => s.hpClr d v
  | .HP_LAND_BASE => s.landBaseWrite a r v
  | _ => s.plainWrite a r v

/-- A permitted write of a register of SV0. -/
def State.svWrite (s : State) (a : Actor) (r : Reg) (v : Nat) : State × Status :=
  match r.name with
  | .FAB_CFG => s.fabCfgWrite a v
  | .FAB_COORD => s.fabCoordWrite a r.i v
  | .FAB_VC => s.fabVcWrite a r.i v
  | .FAB_STAT_CLR => s.fabStatClr v
  | .CLK_CTRL => s.clkCtrlWrite v
  | .PWR_LIMIT => s.pwrLimitWrite a v
  | .SNAP_POLICY => s.snapPolicyWrite a r.i v
  | .DBG_CTRL => s.dbgCtrlWrite v
  | .INJ_LOC => if s.granted 1 then s.plainWrite a r v else (s, .auth)
  | .INJ_CTRL => s.injCtrlWrite a v
  | .PKG_ALERT_CFG => let p := s.plainWrite a r v; (p.1.syncAlerts, p.2)
  | _ => s.plainWrite a r v

/-- A permitted write of a register, by the register's own rules. -/
def State.writeAct (s : State) (a : Actor) (r : Reg) (v : Nat) : State × Status :=
  if r.name.ignored && (r.name != .CTX_TABLE && r.name != .SDM_PART && r.name != .EYE_CFG) then (s, .ok)
  else if r.name.isPert then s.pertWrite a r v
  else match r.name.layout.kind with
    | .cd => s.cdWrite a r v
    | .hs => s.hsWrite a r v
    | .ic => s.icWrite a r v
    | .io => s.ioWrite a r v
    | .hp => s.ioWrite a r v
    | .link => if r.name == .LINK_ERR_CLR then s.linkErrClr r.sel r.i v else s.plainWrite a r v
    | _ => s.svWrite a r v

/-- A write of a device address of the register space: the state after it, and the status it is refused with. -/
def State.regWrite (s : State) (a : Actor) (addr v : Nat) : State × Status :=
  match s.regTarget addr with
  | .error st => (s, st)
  | .ok none => (s, s.unlistedStatus a addr)
  | .ok (some r) =>
    match s.writeBar a r with
    | some st => (s, st)
    | none => s.writeAct a r v

/-- An access of an actor to the register space: none by a host-class core whose code a snapshot of its lease pauses (18 R625); by one that runs customer code, which does not reach this space, an access fault that ends the invocation (12 R478, R479). -/
def State.byActor (s : State) (a : Actor) (addr : Nat) (eff : State → State) : State :=
  match a with
  | .hostCore n h =>
    if s.snapStopped n.val then s
    else match s.codeBar (hcKey h) addr 8 with
      | some r => (s.extEnd r [] .range).answer .range 0
      | none => eff s
  | _ => eff s

/-- Whether an actor's access to the register space has no effect of its own: it is a host-class core whose code is paused, or one that runs customer code. -/
def State.barred (s : State) (a : Actor) (addr : Nat) : Bool := match a with | .hostCore n h => s.snapStopped n.val || (s.codeBar (hcKey h) addr 8).isSome | _ => false

/-- One register write, with its answer. -/
def State.writeCmd (s : State) (a : Actor) (addr v : Nat) : Host.Outcome State Fault Refusal := s.live fun s =>
  .next (s.byActor a addr fun s => let p := s.regWrite a addr v; p.1.answer p.2 0)

/-- One register read, with its answer. -/
def State.readCmd (s : State) (a : Actor) (addr : Nat) : Host.Outcome State Fault Refusal := s.live fun s =>
  .next (s.byActor a addr fun s => let p := s.regRead a addr; p.1.answer p.2.status p.2.value)

end Sys2Proof.Machine
end

