-- ==== Sys2Proof/Machine/HostAccess.lean ====
section
/-! DEFINITION. The accesses of host-class cores: cache-block operations, fences, loads, stores, fetches and atomic operations (12 R459-R464, R471, R472, R474, R478). -/
namespace Sys2Proof.Machine

/-- An access of a core to `n` bytes: none while its lease's code is paused (18 R625), an access fault that ends an invocation which does not reach them (12 R478, R479), or its effect. -/
def State.hcAccess (s : State) (k addr n : Nat) (eff : State → State) : State :=
  if s.hcPaused k then s
  else match s.codeBar k addr n with
    | some r => (s.extEnd r [] .range).answer .range 0
    | none => eff (s.hcWake k)

/-! Cache-block operations and fences (12 R463, R464). -/

/-- A cache-block operation of a core: an access fault (12 R459, R474), or its effect on the row. -/
def State.hcCbo (s : State) (h : HcId) (addr : Nat) (eff : Nat → State → State) : State :=
  s.hcAccess (hcKey h) addr 1 fun s =>
    match s.hcRow (hcKey h) addr with
    | .error e => s.answer e 0
    | .ok row => (eff row s).answer .ok 0

/-- CBO.INVAL; in user mode, in which customer code runs, it acts as CBO.FLUSH (12 R463, R478). -/
def execCboInval (h : HcId) (addr : BitVec 48) (user : Bool) (s : State) : Host.Outcome State Fault Refusal := s.live fun s =>
  .next (s.hcCbo h addr.toNat (fun row s => s.cbo (if user || (s.runOn (hcKey h)).isSome then 2 else 0) (hcKey h) row (s.hcLease (hcKey h))))

/-- CBO.CLEAN (12 R463). -/
def execCboClean (h : HcId) (addr : BitVec 48) (s : State) : Host.Outcome State Fault Refusal := s.live fun s =>
  .next (s.hcCbo h addr.toNat (fun row s => s.cbo 1 (hcKey h) row (s.hcLease (hcKey h))))

/-- CBO.FLUSH (12 R463). -/
def execCboFlush (h : HcId) (addr : BitVec 48) (s : State) : Host.Outcome State Fault Refusal := s.live fun s =>
  .next (s.hcCbo h addr.toNat (fun row s => s.cbo 2 (hcKey h) row (s.hcLease (hcKey h))))

/-- CBO.ZERO (12 R463): a zero row, its poison bit clear, at its memory; a cached copy is that row, and errors in it are gone. -/
def execCboZero (h : HcId) (addr : BitVec 48) (s : State) : Host.Outcome State Fault Refusal := s.live fun s =>
  .next (s.hcCbo h addr.toNat (fun row s =>
    let s := { s with writeBacks := s.writeBacks.filter (fun w => w.row != row), cacheUpsets := s.cacheUpsets.filter (fun u => u.row != row) }
    let s := s.performBack ⟨hcKey h, row, ⟨zeroRow, false⟩, s.hcLease (hcKey h)⟩
    { s with cached := if (tget? s.cached row).isSome then tset s.cached row ⟨⟨zeroRow, false⟩, false, hcKey h, 2⟩ else s.cached }))

/-- FENCE (12 R464): complete once every earlier write-back of the core has been performed. -/
def execFence (h : HcId) (s : State) : Host.Outcome State Fault Refusal := s.live fun s => .next (if s.hcPaused (hcKey h) then s else s.performBacks (fun w => w.by' == hcKey h))

/-! What an access does with the bytes it names. -/

/-- The value an atomic operation stores, from the value in memory and its operand (12 R457, R461). -/
def amoValue {w : Nat} (op : AmoOp) (a b : BitVec w) : BitVec w :=
  match op with
  | .swap => b
  | .add => a + b
  | .and => a &&& b
  | .or => a ||| b
  | .xor => a ^^^ b
  | .min => if a.slt b then a else b
  | .max => if a.slt b then b else a
  | .minu => if a < b then a else b
  | .maxu => if a < b then b else a

/-- The bytes of an operation on 8 bytes or 4. -/
def wideLen (wide : Bool) : Nat := if wide then 8 else 4

/-- The value that an operation on 8 bytes or 4 gives: 4 bytes are extended with their sign. -/
def wideValue (wide : Bool) (n : Nat) : Word := if wide then BitVec.ofNat 64 n else (BitVec.ofNat 32 n).signExtend 64

/-- The bytes an access names. -/
def accLen : HcAccess → Nat
  | .load => 8
  | .fetch => 8
  | .store b => b.length
  | .loadReserved w => wideLen w
  | .storeConditional w _ => wideLen w
  | .amo _ w _ => wideLen w

/-- Whether an access is a load-reserved, store-conditional or atomic operation. -/
def accAtomic : HcAccess → Bool
  | .loadReserved _ => true
  | .storeConditional _ _ => true
  | .amo _ _ _ => true
  | _ => false

/-- Whether an access consumes the bytes it names (12 R472). -/
def accConsumes : HcAccess → Bool
  | .store _ => false
  | .storeConditional _ _ => false
  | _ => true

/-- The value an access gives and the bytes it stores, from the row's bytes at its address; `held`: the core holds a reservation on the line (12 R461). A store-conditional gives 0 where it stores and 1 where it does not. -/
def accEffect (acc : HcAccess) (old : List Byte) (held : Bool) : Word × Option (List Byte) :=
  match acc with
  | .load => (BitVec.ofNat 64 (leNat (old.take 8)), none)
  | .fetch => (BitVec.ofNat 64 (leNat (old.take 8)), none)
  | .store b => (0#64, some b)
  | .loadReserved w => (wideValue w (leNat (old.take (wideLen w))), none)
  | .storeConditional w v => if held then (0#64, some (leBytes (wideLen w) v.toNat)) else (1#64, none)
  | .amo op w v =>
    let a := wideValue w (leNat (old.take (wideLen w)))
    (a, some (leBytes (wideLen w) (amoValue op a (wideValue w v.toNat)).toNat))

/-- The reservations after an access of core k to a line: a load-reserved takes one, a store-conditional gives its own up, and a store ends those of other cores. DESIGN CHOICE (log 35): a reservation covers one 64-byte line. -/
def reservedAfter (t : Tab Nat) (k line : Nat) (acc : HcAccess) (stored : Bool) : Tab Nat :=
  let t := if stored then t.filter (fun r => r.1 == k || r.2 != line) else t
  match acc with
  | .loadReserved _ => tset t k line
  | .storeConditional _ _ => tdel t k
  | _ => t

/-! Loads, stores, fetches and atomic operations (12 R459-R462, R471, R472, R474). -/

/-- An access to a row in the caches (12 R461, R472): one that consumes a line of a poisoned row is an access fault, recorded, which ends a run of customer code; a store into one is performed, and the row stays poisoned. Bytes beyond the row are another access's. -/
def State.hcPerform (s : State) (k addr row : Nat) (c : CachedRow) (acc : HcAccess) : State :=
  let o := addr % 512
  let line := row * 8 + o / 64
  if accConsumes acc && c.img.poison then
    let s := s.hcEvent k addr c.source
    (match s.runOn k with | some r => s.extFail r | none => s).answer .range 0
  else
    let e := accEffect acc (c.img.bytes.drop o) (tget? s.hcReserved k == some line)
    let s := { s with hcReserved := reservedAfter s.hcReserved k line acc e.2.isSome }
    match e.2 with
    | none => s.answer .ok e.1
    | some new =>
      let n := new.take (512 - o)
      let img : RowImg := ⟨c.img.bytes.take o ++ n ++ c.img.bytes.drop (o + n.length), c.img.poison⟩
      { s with cached := tset s.cached row ⟨img, true, k, c.source⟩ }.answer .ok e.1

/-- An access to the register space (12 R459), which is not cached and which a core's accesses reach in the order they are made. PRESUMED (log 35): an atomic operation there is an access fault, as is a store of other than 8 bytes. -/
def State.hcRegister (s : State) (h : HcId) (addr : Nat) (acc : HcAccess) : State :=
  let a : Actor := match s.hcLease (hcKey h) with | some n => .hostCore (Fin.ofNat 256 n) h | none => .firmware
  if accAtomic acc then s.answer .range 0
  else match acc with
    | .store b => if b.length == 8 then let p := s.regWrite a addr (leNat b); p.1.answer p.2 0 else s.answer .range 0
    | _ => let p := s.regRead a addr; p.1.answer p.2.status p.2.value

/-- L3_DEMAND_FILL (12 R459-R462, R471, R472, R474): a load, a fetch, a store or an atomic operation of a core through its home L3, or an access to the register space; a fill waits until the core's last one has been granted. PRESUMED (log 35): an atomic operation on bytes that are not aligned to their length is an access fault. -/
def execL3DemandFill (h : HcId) (addr : BitVec 48) (acc : HcAccess) (s : State) : Host.Outcome State Fault Refusal := s.live fun s =>
  let k := hcKey h
  let a := addr.toNat
  .next (s.hcAccess k a (accLen acc) fun s =>
    if bits a 47 44 == 8 then s.hcRegister h a acc
    else if accAtomic acc && a % accLen acc != 0 then s.answer .range 0
    else match s.hcRow k a with
      | .error e => s.answer e 0
      | .ok row =>
        let line := row * 8 + a % 512 / 64
        let s := s.meetCache k row line
        if (tget? s.cached row).isNone && s.engineBusy .host (k / 16) k then s
        else
          let f := s.l3Fill k row
          (f.1.hcTouch k line (acc == .fetch)).hcPerform k a row f.2 acc)

end Sys2Proof.Machine
end

