-- ==== Sys2Proof/Machine/Commands.lean ====
section
/-! DEFINITION. The commands that are one register write or read, the DCP register commands and the test access port (00 R8, 14 R524, 19 R655). -/
namespace Sys2Proof.Machine

/-- REGISTER_WRITE (00 R8-R10): one 64-bit write by firmware, a DCP command or a host-class core. -/
def execRegisterWrite (a : Actor) (addr : BitVec 48) (v : Word) (s : State) : Host.Outcome State Fault Refusal := s.writeCmd a addr.toNat v.toNat

/-- LINK_ERR_CLR (01 R27). -/
def execLinkErrClr (a : Actor) (e : LinkEnd) (v : Word) (s : State) : Host.Outcome State Fault Refusal :=
  s.writeCmd a (linkReg .LINK_ERR_CLR e.sel.val e.port.val).addr (setBit v.toNat 0 true)

/-! Rings. -/

/-- RING_BASE_WRITE (04 R150). -/
def execRingBaseWrite (a : Actor) (d : Die) (i : Fin 16384) (v : Word) (s : State) : Host.Outcome State Fault Refusal := s.writeCmd a (ringReg .RING_BASE d.val i.val).addr v.toNat

/-- RING_CFG_WRITE (04 R151-R153). -/
def execRingCfgWrite (a : Actor) (d : Die) (i : Fin 16384) (v : Word) (s : State) : Host.Outcome State Fault Refusal := s.writeCmd a (ringReg .RING_CFG d.val i.val).addr v.toNat

/-- RING_PROD_WRITE (04 R155). -/
def execRingProdWrite (a : Actor) (d : Die) (i : Fin 16384) (v : Word) (s : State) : Host.Outcome State Fault Refusal := s.writeCmd a (ringReg .RING_PROD d.val i.val).addr v.toNat

/-- SKIP_KERNEL (04 R166): bit 2 of RING_CTRL. -/
def execSkipKernel (a : Actor) (d : Die) (i : Fin 16384) (s : State) : Host.Outcome State Fault Refusal := s.writeCmd a (ringReg .RING_CTRL d.val i.val).addr 4

/-- DISCARD (04 R166): bit 1 of RING_CTRL. -/
def execDiscard (a : Actor) (d : Die) (i : Fin 16384) (s : State) : Host.Outcome State Fault Refusal := s.writeCmd a (ringReg .RING_CTRL d.val i.val).addr 2

/-- CLEAR_FAULT (04 R166): bit 0 of RING_CTRL. -/
def execClearFault (a : Actor) (d : Die) (i : Fin 16384) (s : State) : Host.Outcome State Fault Refusal := s.writeCmd a (ringReg .RING_CTRL d.val i.val).addr 1

/-! Row memories, stacks and frames. -/

/-- ROW_ECC_CLR (05 R195). -/
def execRowEccClr (a : Actor) (d : Die) (core : Option (Fin 128)) (v : Word) (s : State) : Host.Outcome State Fault Refusal :=
  s.writeCmd a (match core with | some c => (⟨.ROW_ECC_CLR, selCd d.val, c.val, 0⟩ : Reg).addr | none => (⟨.SDM_ECC_CLR, selCd d.val, 0, 0⟩ : Reg).addr) (setBit v.toNat 0 true)

/-- SDM_PART_WRITE (05 R205). -/
def execSdmPartWrite (a : Actor) (d : Die) (p : Fin 32) (v : Word) (s : State) : Host.Outcome State Fault Refusal := s.writeCmd a (sdmPart d.val p.val).addr v.toNat

/-- SDM_WCACHE_CFG_WRITE (05 R212). -/
def execSdmWcacheCfgWrite (a : Actor) (d : Die) (v : Word) (s : State) : Host.Outcome State Fault Refusal := s.writeCmd a (wcacheCfg d.val).addr v.toNat

/-- ASTK_CFG_WRITE (05 R219, R220). -/
def execAstkCfgWrite (a : Actor) (d : Die) (g : Fin 64) (v : Word) (s : State) : Host.Outcome State Fault Refusal := s.writeCmd a (astkCfg d.val g.val).addr v.toNat

/-- ASTK_TOP_WRITE (05 R219). -/
def execAstkTopWrite (a : Actor) (d : Die) (g : Fin 64) (v : Word) (s : State) : Host.Outcome State Fault Refusal := s.writeCmd a (astk .ASTK_TOP d.val g.val).addr v.toNat

/-- A write of ASTK_FCMD with CMD at a code (08 R319). -/
def State.frameCmd (s : State) (a : Actor) (d g cmd v : Nat) : Host.Outcome State Fault Refusal :=
  s.writeCmd a (astk .ASTK_FCMD d g).addr (setBits v ASTK_FCMD.CMD.hi ASTK_FCMD.CMD.lo cmd)

/-- FRAME_OPEN (08 R321). -/
def execFrameOpen (a : Actor) (d : Die) (g : Fin 64) (v : Word) (s : State) : Host.Outcome State Fault Refusal := s.frameCmd a d.val g.val 1 v.toNat

/-- FRAME_DRAIN (08 R323). -/
def execFrameDrain (a : Actor) (d : Die) (g : Fin 64) (v : Word) (s : State) : Host.Outcome State Fault Refusal := s.frameCmd a d.val g.val 2 v.toNat

/-- FRAME_NO_ACTION (08 R320). -/
def execFrameNoAction (a : Actor) (d : Die) (g : Fin 64) (v : Word) (s : State) : Host.Outcome State Fault Refusal := s.frameCmd a d.val g.val 0 v.toNat

/-- FRAME_CMD_RESERVED (08 R320). -/
def execFrameCmdReserved (a : Actor) (d : Die) (g : Fin 64) (v : Word) (s : State) : Host.Outcome State Fault Refusal := s.frameCmd a d.val g.val 3 v.toNat

/-! Memory controllers. -/

/-- MCQ_CLR (06 R256). -/
def execMcqClr (a : Actor) (d : Die) (v : Word) (s : State) : Host.Outcome State Fault Refusal := s.writeCmd a (⟨.MCQ_CLR, selCd d.val, 0, 0⟩ : Reg).addr (setBit v.toNat 0 true)

/-- MEMC_ECC_CLR (07 R283). -/
def execMemcEccClr (a : Actor) (d : Die) (k : Fin 6) (v : Word) (s : State) : Host.Outcome State Fault Refusal := s.writeCmd a (memc .MEMC_ECC_CLR d.val k.val).addr (setBit v.toNat 0 true)

/-- FAILED_PC_WRITE (07 R286): a write of HBM_SPARE without START. -/
def execFailedPcWrite (a : Actor) (d : Die) (k : Fin 6) (v : Word) (s : State) : Host.Outcome State Fault Refusal := s.writeCmd a (memc .HBM_SPARE d.val k.val).addr (setBit v.toNat 0 false)

/-- HBM_SPARE_START (07 R286). -/
def execHbmSpareStart (a : Actor) (d : Die) (k : Fin 6) (v : Word) (s : State) : Host.Outcome State Fault Refusal := s.writeCmd a (memc .HBM_SPARE d.val k.val).addr (setBit v.toNat 0 true)

/-- DOWN_REQ (07 R291). -/
def execDownReq (a : Actor) (d : Die) (k : Fin 6) (v : Word) (s : State) : Host.Outcome State Fault Refusal := s.writeCmd a (memc .HBM_PDN_CTRL d.val k.val).addr (setBit v.toNat 8 true)

/-! The fabric and collectives. -/

/-- PEER_PORT_CLR (11 R411). -/
def execPeerPortClr (a : Actor) (q : Fin 16) (v : Word) (s : State) : Host.Outcome State Fault Refusal := s.writeCmd a (peerPort .PEER_PORT_CLR q.val).addr (setBit v.toNat 0 true)

/-- FAB_CFG_WRITE (11 R412). -/
def execFabCfgWrite (a : Actor) (v : Word) (s : State) : Host.Outcome State Fault Refusal := s.writeCmd a fabCfg.addr v.toNat

/-- FAB_COORD_WRITE (11 R414). -/
def execFabCoordWrite (a : Actor) (u : BitVec 16) (v : Word) (s : State) : Host.Outcome State Fault Refusal := s.writeCmd a (fabCoord u.toNat).addr v.toNat

/-- FAB_VC_WRITE (11 R424). -/
def execFabVcWrite (a : Actor) (vc : Fin 8) (v : Word) (s : State) : Host.Outcome State Fault Refusal := s.writeCmd a (fabVc vc.val).addr v.toNat

/-- FAB_STAT_CLR (11 R432). -/
def execFabStatClr (a : Actor) (v : Word) (s : State) : Host.Outcome State Fault Refusal := s.writeCmd a (⟨.FAB_STAT_CLR, selSv0, 0, 0⟩ : Reg).addr (setBit v.toNat 0 true)

/-- PEER_SIG_WRITE (11 R439). -/
def execPeerSigWrite (a : Actor) (d : Die) (k : Fin 1024) (v : Word) (s : State) : Host.Outcome State Fault Refusal := s.writeCmd a (peerSig d.val k.val).addr v.toNat

/-- COLL_GROUP_WRITE (11 R441, R442): the member list's address, then word 0 of the entry. -/
def execCollGroupWrite (a : Actor) (io : Die) (g : Fin 64) (v members : Word) (s : State) : Host.Outcome State Fault Refusal :=
  match s.writeCmd a (⟨.COLL_MEMBERS, selIo io.val, g.val, 0⟩ : Reg).addr members.toNat with
  | .next t => t.writeCmd a (collGroup io.val g.val).addr v.toNat
  | o => o

/-- COLL_SUBMIT (11 R444). -/
def execCollSubmit (a : Actor) (io : Die) (v : Word) (s : State) : Host.Outcome State Fault Refusal := s.writeCmd a (⟨.COLL_SUBMIT, selIo io.val, 0, 0⟩ : Reg).addr v.toNat

/-! Host-class cores, mailboxes and interrupts. -/

/-- HC_BIND_WRITE (12 R474). -/
def execHcBindWrite (a : Actor) (h : HcId) (v : Word) (s : State) : Host.Outcome State Fault Refusal := s.writeCmd a (hcReg .HC_BIND (hcKey h)).addr v.toNat

/-- EYE_MSG_WRITE (13 R484, R485): words 0-6. -/
def execEyeMsgWrite (a : Actor) (d : Die) (m : Fin 512) (k : Fin 7) (v : Word) (s : State) : Host.Outcome State Fault Refusal := s.writeCmd a (eyeMsg d.val m.val k.val).addr v.toNat

/-- EYE_COMMIT (13 R484): word 7. -/
def execEyeCommit (a : Actor) (d : Die) (m : Fin 512) (v : Word) (s : State) : Host.Outcome State Fault Refusal := s.writeCmd a (eyeMsg d.val m.val 7).addr v.toNat

/-- EYE_TAKE (13 R484): a read of word 7. -/
def execEyeTake (a : Actor) (d : Die) (m : Fin 512) (s : State) : Host.Outcome State Fault Refusal := s.readCmd a (eyeMsg d.val m.val 7).addr

/-- EYE_DB_SET (13 R488). -/
def execEyeDbSet (a : Actor) (d : Die) (m : Fin 512) (v : Word) (s : State) : Host.Outcome State Fault Refusal := s.writeCmd a (eye .EYE_DB_SET d.val m.val).addr v.toNat

/-- EYE_CFG_WRITE (13 R481, R490). -/
def execEyeCfgWrite (a : Actor) (d : Die) (m : Fin 512) (v : Word) (s : State) : Host.Outcome State Fault Refusal := s.writeCmd a (eye .EYE_CFG d.val m.val).addr v.toNat

/-- IC_RING_NOTE_READ (13 R493). -/
def execIcRingNoteRead (a : Actor) (c : CoreId) (s : State) : Host.Outcome State Fault Refusal := s.readCmd a (coreReg .IC_RING_NOTE (ckey c)).addr

/-- IC_SWSET (13 R497). -/
def execIcSwset (a : Actor) (ic : IcId) (v : Word) (s : State) : Host.Outcome State Fault Refusal := s.writeCmd a (icReg .IC_SWSET (icKey ic) 0).addr v.toNat

/-- IC_PENDING_WRITE (13 R502). -/
def execIcPendingWrite (a : Actor) (ic : IcId) (w : Fin 16) (v : Word) (s : State) : Host.Outcome State Fault Refusal := s.writeCmd a (icReg .IC_PENDING (icKey ic) w.val).addr v.toNat

/-! Host ports. -/

/-- HP_FIFO_HEAD_WRITE (14 R531). -/
def execHpFifoHeadWrite (a : Actor) (h : Fin 2) (v : Word) (s : State) : Host.Outcome State Fault Refusal := s.writeCmd a (hp .HP_FIFO_PTR h.val).addr v.toNat

/-- HP_LAND_HEAD_WRITE (14 R531). -/
def execHpLandHeadWrite (a : Actor) (h : Fin 2) (v : Word) (s : State) : Host.Outcome State Fault Refusal := s.writeCmd a (hp .HP_LAND_PTR h.val).addr v.toNat

/-- DROP_REST (14 R532). -/
def execDropRest (a : Actor) (h : Fin 2) (v : Word) (s : State) : Host.Outcome State Fault Refusal := s.writeCmd a (hp .HP_FIFO_CTRL h.val).addr (setBit v.toNat 0 true)

/-- HP_CLR (14 R508). -/
def execHpClr (a : Actor) (h : Fin 2) (v : Word) (s : State) : Host.Outcome State Fault Refusal := s.writeCmd a (hp .HP_CLR h.val).addr (setBit v.toNat 0 true)

/-! Clocks and debug. -/

/-- RELOCK (16 R573, R576). -/
def execRelock (a : Actor) (v : Word) (s : State) : Host.Outcome State Fault Refusal :=
  s.writeCmd a (⟨.CLK_CTRL, selSv0, 0, 0⟩ : Reg).addr (setBit v.toNat CLK_CTRL.RELOCK.lo true)

/-- ROOT_SV0 (16 R573, R576). -/
def execRootSv0 (a : Actor) (v : Word) (s : State) : Host.Outcome State Fault Refusal :=
  s.writeCmd a (⟨.CLK_CTRL, selSv0, 0, 0⟩ : Reg).addr (setBit v.toNat CLK_CTRL.ROOT_SV0.lo true)

/-- VERIFY (19 R642, R643). -/
def execVerify (a : Actor) (v : Word) (s : State) : Host.Outcome State Fault Refusal :=
  s.writeCmd a (⟨.DBG_CTRL, selSv0, 0, 0⟩ : Reg).addr (setBit v.toNat DBG_CTRL.VERIFY.lo true)

/-- LOCK (19 R643). -/
def execLock (a : Actor) (v : Word) (s : State) : Host.Outcome State Fault Refusal :=
  s.writeCmd a (⟨.DBG_CTRL, selSv0, 0, 0⟩ : Reg).addr (setBit v.toNat DBG_CTRL.LOCK.lo true)

/-- PERT_WRITE (19 R645, R649): a write of a PERT_ register; a well-formed command names one. -/
def execPertWrite (a : Actor) (addr : BitVec 48) (v : Word) (s : State) : Host.Outcome State Fault Refusal :=
  if (match Reg.ofAddr addr.toNat with | some r => r.name.isPert | none => false) then s.writeCmd a addr.toNat v.toNat else .next s

/-- INJ_ARM (19 R652): a write of INJ_CTRL that sets ARM. -/
def execInjArm (a : Actor) (v : Word) (s : State) : Host.Outcome State Fault Refusal := s.writeCmd a injCtrl.addr (setBit v.toNat INJ_CTRL.ARM.lo true)

/-- TAP_INSTRUCTION (19 R655): IDCODE reads 0x1A4F7C3B, private instructions reach space 0x8 as management firmware while TAP is granted, and everything else leaves the unit's state as it is. -/
def execTapInstruction (t : TapInstr) (s : State) : Host.Outcome State Fault Refusal :=
  if !s.powered then .next s
  else match t with
    | .bypass => .next s
    | .idcode => .next (s.answer .ok 0x1A4F7C3B)
    | .samplePreload => .next s
    | .extest => .next s
    | .privRead addr => if s.granted 2 then s.readCmd .firmware addr.toNat else .next s
    | .privWrite addr v => if s.granted 2 then s.writeCmd .firmware addr.toNat v.toNat else .next s

/-! The DCP register commands (14 R523-R525). -/

/-- A session as the maker of an access. -/
def Session.actor (x : Session) : Actor := match x.lease with | some n => .leaseDcp (Fin.ofNat 256 n) | none => .mgmt

/-- Whether REG_READ reaches an address in minimal mode: START_STATUS, UNIT_ADDR, CLK_MON_STATUS and the registers of H0 (17 R593). -/
def State.minimalReads (s : State) (a : Nat) : Bool :=
  match s.regTarget a with
  | .ok (some r) => r == startStatus || r == unitAddr || r == clkMon || (r.sel == selIo 0 && r.name.layout.kind == .hp)
  | _ => false

/-- Reads in order until one is refused. -/
def State.readAll (s : State) (a : Actor) : List Nat → State × Status × List Byte
  | [] => (s, .ok, [])
  | x :: t =>
    if s.minimal && !s.minimalReads x then (s, .minimalMode, [])
    else
      let p := s.regRead a x
      if p.2.status != .ok then (p.1, p.2.status, [])
      else
        let r := p.1.readAll a t
        (r.1, r.2.1, beBytes 8 p.2.value.toNat ++ r.2.2)

/-- Whether a write of a REG_WRITE must wait for its turn at an activation stack: a frame command that nothing bars (08 R325). -/
def State.writeTurn (s : State) (a : Actor) (ses seq addr : Nat) : State × Bool :=
  match s.regTarget addr with
  | .ok (some r) => if r.name == .ASTK_FCMD && (s.writeBar a r).isNone then s.frameTurn r.sel r.i ses seq else (s, false)
  | _ => (s, false)

/-- Writes in order until one is refused, with the status and how many were performed; no status where one must wait for its turn. -/
def State.writeAll (s : State) (a : Actor) (ses seq : Nat) : List (Nat × Nat) → Nat → State × Option Status × Nat
  | [], n => (s, some .ok, n)
  | x :: t, n =>
    let w := s.writeTurn a ses seq x.1
    if w.2 then (w.1, none, n)
    else
      let p := w.1.regWrite a x.1 x.2
      if p.2 != .ok then (p.1, some p.2, n) else p.1.writeAll a ses seq t (n + 1)

/-- The register writes that a command has performed before it had to wait. -/
def Session.written (x : Session) (seq : Nat) : Nat := match x.cmd seq with | some c => c.held.getD 0 | none => 0

/-- REG_READ (14 R523, R524): all or nothing. -/
def execRegRead (q : DcpHdr) (addrs : List Word) (s : State) : Host.Outcome State Fault Refusal := s.live fun s =>
  .next (s.dcp q 0x0104 (8 + 8 * addrs.length) (q.dlen == 0) (1 ≤ addrs.length && addrs.length ≤ 63) true (ms 1) (fun s _ x =>
    let r := s.readAll x.actor (addrs.map (·.toNat))
    if r.2.1 == .ok then (r.1, .reply .ok r.2.2 []) else (s, statusOut r.2.1)))

/-- REG_WRITE (14 R523, R524): in order, up to the first refusal; a frame command waits for its turn at its stack (08 R325). -/
def execRegWrite (q : DcpHdr) (writes : List (Word × Word)) (s : State) : Host.Outcome State Fault Refusal := s.live fun s =>
  .next (s.dcp q 0x0105 (8 + 16 * writes.length) (q.dlen == 0) (1 ≤ writes.length && writes.length ≤ 31) true (ms 1) (fun s k x =>
    let done := x.written q.seq
    let r := s.writeAll x.actor k q.seq ((writes.map (fun w => (w.1.toNat, w.2.toNat))).drop done) done
    match r.2.1 with
    | some st => (r.1, .reply st (beBytes 2 r.2.2) [])
    | none => (r.1, .waits r.2.2)))

/-! Welt units. -/

/-- The word of WELT_CMD with an OP and a group (09 R342). -/
def weltWord (op g : Nat) : Nat := setBits op WELT_CMD.GROUP.hi WELT_CMD.GROUP.lo g

/-- NORM (09 R348, R349). -/
def execNorm (a : Actor) (hs : Fin 16) (g : Fin 128) (s : State) : Host.Outcome State Fault Refusal := s.writeCmd a (welt .WELT_CMD hs.val).addr (weltWord 1 g.val)

/-- APPLY (09 R351-R358). -/
def execApply (a : Actor) (hs : Fin 16) (g : Fin 128) (s : State) : Host.Outcome State Fault Refusal := s.writeCmd a (welt .WELT_CMD hs.val).addr (weltWord 2 g.val)

/-- FINISH (09 R357, R358). -/
def execFinish (a : Actor) (hs : Fin 16) (g : Fin 128) (s : State) : Host.Outcome State Fault Refusal := s.writeCmd a (welt .WELT_CMD hs.val).addr (weltWord 3 g.val)

/-- CLOSE of a Welt unit (09 R345). -/
def execWeltClose (a : Actor) (hs : Fin 16) (g : Fin 128) (s : State) : Host.Outcome State Fault Refusal := s.writeCmd a (welt .WELT_CMD hs.val).addr (weltWord 4 g.val)

/-- WELT_EPOCH_WRITE (09 R363). -/
def execWeltEpochWrite (a : Actor) (hs : Fin 16) (l : Fin 4096) (v : Word) (s : State) : Host.Outcome State Fault Refusal := s.writeCmd a (welt .WELT_LAYER_STATE hs.val l.val).addr v.toNat

/-! KV pools. -/

/-- KVP_ENABLE (10 R366): a write of KVP_CFG with ENABLE 1. -/
def execKvpEnable (a : Actor) (d : Die) (p : Fin 16) (v : Word) (s : State) : Host.Outcome State Fault Refusal :=
  s.writeCmd a (kvp .KVP_CFG d.val p.val).addr (setBits v.toNat KVP_CFG.ENABLE.hi KVP_CFG.ENABLE.lo 1)

/-- KVP_GO (10 R370). -/
def execKvpGo (a : Actor) (d : Die) (p : Fin 16) (v : Word) (s : State) : Host.Outcome State Fault Refusal := s.writeCmd a (kvp .KVP_GO d.val p.val).addr (setBit v.toNat 0 true)

/-! Range operations of the L3. -/

/-- The word of L3_RANGE_CTL with GO, an OP and a row count (12 R469). -/
def rangeWord (op rows : Nat) : Nat := setBit (setBits (setBits 0 L3_RANGE_CTL.OP.hi L3_RANGE_CTL.OP.lo op) L3_RANGE_CTL.ROWS.hi L3_RANGE_CTL.ROWS.lo rows) 0 true

/-- L3_RANGE_INVAL (12 R470). -/
def execL3RangeInval (a : Actor) (d : Die) (rows : BitVec 24) (s : State) : Host.Outcome State Fault Refusal := s.writeCmd a (l3Reg .L3_RANGE_CTL d.val).addr (rangeWord 0 rows.toNat)

/-- L3_RANGE_CLEAN (12 R470). -/
def execL3RangeClean (a : Actor) (d : Die) (rows : BitVec 24) (s : State) : Host.Outcome State Fault Refusal := s.writeCmd a (l3Reg .L3_RANGE_CTL d.val).addr (rangeWord 1 rows.toNat)

/-- L3_RANGE_FLUSH (12 R470). -/
def execL3RangeFlush (a : Actor) (d : Die) (rows : BitVec 24) (s : State) : Host.Outcome State Fault Refusal := s.writeCmd a (l3Reg .L3_RANGE_CTL d.val).addr (rangeWord 2 rows.toNat)

end Sys2Proof.Machine
end

