-- ==== Sys2Proof/Machine/Tick.lean ====
section
/-! DEFINITION. What an idle block does: one cycle of the arithmetic clock passes (00, Numbers; 16 R564, R581), and what the manual lets happen in a cycle with no command of its own. -/
namespace Sys2Proof.Machine

/-- Cycles of the arithmetic clock at cycle `t` of the model's clock, by ARITH_MHZ (16 R564: 1,100 in native mode). -/
def arithIndex (mhz t : Nat) : Nat := t * mhz / 1100

/-- Whether arithmetic cycle `a` is one of the DUTY of each sixteen in which the tensor-core clock runs (16 R581: spread evenly). -/
def dutyRuns (duty a : Nat) : Bool := (a % 16) * duty / 16 < (a % 16 + 1) * duty / 16

/-- The meanings of a core's operations, in slot order (04 R119). -/
def bundleOps (c : CoreId) : List (State → Host.Outcome State Fault Refusal) :=
  (List.range 4).flatMap (fun a => [execWld c (Fin.ofNat 4 a), execPass c (Fin.ofNat 4 a)]) ++
    [execElem c, execConvert c, execSplit c, execDrain c, execSoftmaxStep c, execSoftmaxFinal c, execSoftmaxMerge c] ++
    (List.range 2).flatMap (fun e => [execArm c (Fin.ofNat 2 e), execRel c (Fin.ofNat 2 e), execAwl c (Fin.ofNat 2 e)]) ++
    [execLoop c, execWrmask c, execDpre c, execPred c, execMark c, execEndKernel c, execSet c, execClear c, execWait c, execWaitClr c, execTest c, execClaim c]

/-- The operations left of a bundle of which one has issued in this cycle, issued before the cycle ends: all operations of a bundle issue in the same cycle (04 R119). -/
def State.finishBundle (s : State) (k : Nat) : State :=
  match (s.core k).kernel with
  | some q => if q.admitted then (bundleOps (coreIdOf k)).foldl (fun s f => outcomeState s (f s)) s else s
  | none => s

/-- What falls in the cycle a running unit has come to: the RELs that have come due and the corrections detected on each core (06 R237, 03 R108), the pushes and pops that arrive at the activation stacks (05 R222), the wakes of channels that requests have reached (07 R293), the next elements of the Welt units (09 R346), the rows that the I/O dies have packed (11 R435), the retrains that have taken too long (11 R409), the answers to other units whose accesses have been performed (11 R428), the ends of memory commands whose rows have been performed (14 R675), the image slot that has been written (17 R590), the snapshot stop and the token's verification that have lasted their longest (18 R626, 19 R642) and the write-backs on their way. -/
def State.arrive (s : State) : State :=
  let s := (s.cores.map (·.1)).foldl (fun s k => (s.settle k).detect k) s
  (s.stackArrivals.meetDown.weltsOn.packedOn.trainingOn.peersOn.memsOn.flashOn.stopOn.verifyOn).performBacks (fun _ => true)

/-- One cycle with no command: the bundles begun are finished, channels whose power-down is due go down after the cycle's grants, the host-class cores' cycles are charged, the clocks of a running unit advance, and what falls in the new cycle happens (DESIGN CHOICE, log 9). -/
def State.tick (s : State) : State :=
  if s.life = .running then
    let s := (((s.cores.map (·.1)).foldl State.finishBundle s).pdnOn).hcCycle
    let a := arithIndex s.arithMhz s.now
    let moves := a < arithIndex s.arithMhz (s.now + 1) && dutyRuns (s.fld ⟨.PWR_STATUS, selSv0, 0, 0⟩ PWR_STATUS.DUTY) a
    ({ s with now := s.now + 1, coreClock := if moves then s.coreClock + 1 else s.coreClock } : State).arrive
  else { s with now := s.now + 1 }

end Sys2Proof.Machine
end

