-- ==== Sys2Proof/Machine/Dispatch.lean ====
section
/-! DEFINITION. Every command's meaning, one arm per constructor of Instr, in the order of Syntax.lean. -/
namespace Sys2Proof.Machine

/-- A command's effect on everything but the queue. -/
def exec (i : Instr) (s : State) : Host.Outcome State Fault Refusal :=
  match i with
  | .registerWrite a addr v => Sys2Proof.Machine.execRegisterWrite a addr v s
  | .linkRowReceive e cls r => Sys2Proof.Machine.execLinkRowReceive e cls r s
  | .linkReplay e r => Sys2Proof.Machine.execLinkReplay e r s
  | .linkErrClr a e v => Sys2Proof.Machine.execLinkErrClr a e v s
  | .wld c ma => Sys2Proof.Machine.execWld c ma s
  | .wldComplete c ma h => Sys2Proof.Machine.execWldComplete c ma h s
  | .pass c ma => Sys2Proof.Machine.execPass c ma s
  | .passVector c ma h => Sys2Proof.Machine.execPassVector c ma h s
  | .passRelease c ma h => Sys2Proof.Machine.execPassRelease c ma h s
  | .freezeEnd c => Sys2Proof.Machine.execFreezeEnd c s
  | .elem c => Sys2Proof.Machine.execElem c s
  | .convert c => Sys2Proof.Machine.execConvert c s
  | .split c => Sys2Proof.Machine.execSplit c s
  | .drain c => Sys2Proof.Machine.execDrain c s
  | .vecRowWrite c pipe => Sys2Proof.Machine.execVecRowWrite c pipe s
  | .emptyBundle c => Sys2Proof.Machine.execEmptyBundle c s
  | .loop c => Sys2Proof.Machine.execLoop c s
  | .wrmask c => Sys2Proof.Machine.execWrmask c s
  | .dpre c => Sys2Proof.Machine.execDpre c s
  | .descFillDone c handle => Sys2Proof.Machine.execDescFillDone c handle s
  | .pred c => Sys2Proof.Machine.execPred c s
  | .mark c => Sys2Proof.Machine.execMark c s
  | .endKernel c => Sys2Proof.Machine.execEndKernel c s
  | .kernelComplete c => Sys2Proof.Machine.execKernelComplete c s
  | .set c => Sys2Proof.Machine.execSet c s
  | .clear c => Sys2Proof.Machine.execClear c s
  | .wait c => Sys2Proof.Machine.execWait c s
  | .waitClr c => Sys2Proof.Machine.execWaitClr c s
  | .test c => Sys2Proof.Machine.execTest c s
  | .claim c => Sys2Proof.Machine.execClaim c s
  | .flagDelivery src dst => Sys2Proof.Machine.execFlagDelivery src dst s
  | .syncWaitTimeout c => Sys2Proof.Machine.execSyncWaitTimeout c s
  | .kernelStart c => Sys2Proof.Machine.execKernelStart c s
  | .ringFetch c => Sys2Proof.Machine.execRingFetch c s
  | .ringBaseWrite a d j v => Sys2Proof.Machine.execRingBaseWrite a d j v s
  | .ringCfgWrite a d j v => Sys2Proof.Machine.execRingCfgWrite a d j v s
  | .ringProdWrite a d j v => Sys2Proof.Machine.execRingProdWrite a d j v s
  | .skipKernel a d j => Sys2Proof.Machine.execSkipKernel a d j s
  | .discard a d j => Sys2Proof.Machine.execDiscard a d j s
  | .clearFault a d j => Sys2Proof.Machine.execClearFault a d j s
  | .monitorSample => Sys2Proof.Machine.execMonitorSample s
  | .prefixDump c => Sys2Proof.Machine.execPrefixDump c s
  | .patrolRead b row => Sys2Proof.Machine.execPatrolRead b row s
  | .patrolWriteback b => Sys2Proof.Machine.execPatrolWriteback b s
  | .rowEccClr a d core v => Sys2Proof.Machine.execRowEccClr a d core v s
  | .sdmPartWrite a d p v => Sys2Proof.Machine.execSdmPartWrite a d p v s
  | .scrubComplete t => Sys2Proof.Machine.execScrubComplete t s
  | .sdmWcacheCfgWrite a d v => Sys2Proof.Machine.execSdmWcacheCfgWrite a d v s
  | .astkCfgWrite a d g v => Sys2Proof.Machine.execAstkCfgWrite a d g v s
  | .astkTopWrite a d g v => Sys2Proof.Machine.execAstkTopWrite a d g v s
  | .astkPush d g c ch => Sys2Proof.Machine.execAstkPush d g c ch s
  | .astkSpill d g => Sys2Proof.Machine.execAstkSpill d g s
  | .astkRefill d g => Sys2Proof.Machine.execAstkRefill d g s
  | .astkRefillLand d g => Sys2Proof.Machine.execAstkRefillLand d g s
  | .astkPop d g c ch => Sys2Proof.Machine.execAstkPop d g c ch s
  | .arm c e => Sys2Proof.Machine.execArm c e s
  | .rel c e => Sys2Proof.Machine.execRel c e s
  | .streamRequest c e => Sys2Proof.Machine.execStreamRequest c e s
  | .streamRowLand c ch => Sys2Proof.Machine.execStreamRowLand c ch s
  | .storeRowWritten c ch => Sys2Proof.Machine.execStoreRowWritten c ch s
  | .transferComplete c ch => Sys2Proof.Machine.execTransferComplete c ch s
  | .temperGrant p => Sys2Proof.Machine.execTemperGrant p s
  | .starvePromote p => Sys2Proof.Machine.execStarvePromote p s
  | .mcqClr a d v => Sys2Proof.Machine.execMcqClr a d v s
  | .awl c e => Sys2Proof.Machine.execAwl c e s
  | .awlPieceRequest c => Sys2Proof.Machine.execAwlPieceRequest c s
  | .awlPieceLand c t => Sys2Proof.Machine.execAwlPieceLand c t s
  | .rowPerform d k => Sys2Proof.Machine.execRowPerform d k s
  | .memcPatrol d k p row => Sys2Proof.Machine.execMemcPatrol d k p row s
  | .memcEccClr a d k v => Sys2Proof.Machine.execMemcEccClr a d k v s
  | .failedPcWrite a d k v => Sys2Proof.Machine.execFailedPcWrite a d k v s
  | .hbmSpareStart a d k v => Sys2Proof.Machine.execHbmSpareStart a d k v s
  | .spareCopyRow d k => Sys2Proof.Machine.execSpareCopyRow d k s
  | .downReq a d k v => Sys2Proof.Machine.execDownReq a d k v s
  | .pdnEnter d k => Sys2Proof.Machine.execPdnEnter d k s
  | .pdnTimeout d k => Sys2Proof.Machine.execPdnTimeout d k s
  | .channelWake d k ch => Sys2Proof.Machine.execChannelWake d k ch s
  | .tagFill d k => Sys2Proof.Machine.execTagFill d k s
  | .tagFillComplete d k => Sys2Proof.Machine.execTagFillComplete d k s
  | .backgroundTagFill d k blk => Sys2Proof.Machine.execBackgroundTagFill d k blk s
  | .perBankRefresh d k p b => Sys2Proof.Machine.execPerBankRefresh d k p b s
  | .tempSample d k t => Sys2Proof.Machine.execTempSample d k t s
  | .frameOpen a d g v => Sys2Proof.Machine.execFrameOpen a d g v s
  | .frameDrain a d g v => Sys2Proof.Machine.execFrameDrain a d g v s
  | .frameNoAction a d g v => Sys2Proof.Machine.execFrameNoAction a d g v s
  | .frameCmdReserved a d g v => Sys2Proof.Machine.execFrameCmdReserved a d g v s
  | .norm a hs g => Sys2Proof.Machine.execNorm a hs g s
  | .apply a hs g => Sys2Proof.Machine.execApply a hs g s
  | .finish a hs g => Sys2Proof.Machine.execFinish a hs g s
  | .weltClose a hs g => Sys2Proof.Machine.execWeltClose a hs g s
  | .weltCmdEnd hs => Sys2Proof.Machine.execWeltCmdEnd hs s
  | .facExchangeReady hs l => Sys2Proof.Machine.execFacExchangeReady hs l s
  | .weltLayerCommit hs => Sys2Proof.Machine.execWeltLayerCommit hs s
  | .weltStepTimeout hs => Sys2Proof.Machine.execWeltStepTimeout hs s
  | .weltEpochWrite a hs l v => Sys2Proof.Machine.execWeltEpochWrite a hs l v s
  | .kvpEnable a d p v => Sys2Proof.Machine.execKvpEnable a d p v s
  | .kvpInitDone d p => Sys2Proof.Machine.execKvpInitDone d p s
  | .kvpGo a d p v => Sys2Proof.Machine.execKvpGo a d p v s
  | .alloc d p => Sys2Proof.Machine.execAlloc d p s
  | .share d p => Sys2Proof.Machine.execShare d p s
  | .free d p => Sys2Proof.Machine.execFree d p s
  | .makePrivate d p => Sys2Proof.Machine.execMakePrivate d p s
  | .append d p => Sys2Proof.Machine.execAppend d p s
  | .kvpBatchComplete d p => Sys2Proof.Machine.execKvpBatchComplete d p s
  | .softmaxStep c => Sys2Proof.Machine.execSoftmaxStep c s
  | .softmaxFinal c => Sys2Proof.Machine.execSoftmaxFinal c s
  | .softmaxMerge c => Sys2Proof.Machine.execSoftmaxMerge c s
  | .portRetrain p failed => Sys2Proof.Machine.execPortRetrain p failed s
  | .portTrainEnd p lanes speed => Sys2Proof.Machine.execPortTrainEnd p lanes speed s
  | .peerPortClr a q v => Sys2Proof.Machine.execPeerPortClr a q v s
  | .fabCfgWrite a v => Sys2Proof.Machine.execFabCfgWrite a v s
  | .fabCoordWrite a u v => Sys2Proof.Machine.execFabCoordWrite a u v s
  | .fabVcWrite a vc v => Sys2Proof.Machine.execFabVcWrite a vc v s
  | .fabStatClr a v => Sys2Proof.Machine.execFabStatClr a v s
  | .dftWrite q p => Sys2Proof.Machine.execDftWrite q p s
  | .dftRead q p => Sys2Proof.Machine.execDftRead q p s
  | .readData q p => Sys2Proof.Machine.execReadData q p s
  | .nak q p => Sys2Proof.Machine.execNak q p s
  | .ack q p => Sys2Proof.Machine.execAck q p s
  | .credit q p => Sys2Proof.Machine.execCredit q p s
  | .packetForward q p => Sys2Proof.Machine.execPacketForward q p s
  | .creditReturn q vc cls => Sys2Proof.Machine.execCreditReturn q vc cls s
  | .retransmitTimeout conn seq => Sys2Proof.Machine.execRetransmitTimeout conn seq s
  | .resync q p => Sys2Proof.Machine.execResync q p s
  | .resyncAck q p => Sys2Proof.Machine.execResyncAck q p s
  | .resyncRepeat conn => Sys2Proof.Machine.execResyncRepeat conn s
  | .collGroupWrite a io g v members => Sys2Proof.Machine.execCollGroupWrite a io g v members s
  | .collSubmit a io v => Sys2Proof.Machine.execCollSubmit a io v s
  | .reduceScatter io => Sys2Proof.Machine.execReduceScatter io s
  | .allGather io => Sys2Proof.Machine.execAllGather io s
  | .allReduce io => Sys2Proof.Machine.execAllReduce io s
  | .normred io => Sys2Proof.Machine.execNormred io s
  | .collReady q p => Sys2Proof.Machine.execCollReady q p s
  | .collData q p => Sys2Proof.Machine.execCollData q p s
  | .collAbort q p => Sys2Proof.Machine.execCollAbort q p s
  | .collTimeout io => Sys2Proof.Machine.execCollTimeout io s
  | .collEnd io => Sys2Proof.Machine.execCollEnd io s
  | .cboInval h addr user => Sys2Proof.Machine.execCboInval h addr user s
  | .cboClean h addr => Sys2Proof.Machine.execCboClean h addr s
  | .cboFlush h addr => Sys2Proof.Machine.execCboFlush h addr s
  | .cboZero h addr => Sys2Proof.Machine.execCboZero h addr s
  | .fence h => Sys2Proof.Machine.execFence h s
  | .l3DemandFill h addr st => Sys2Proof.Machine.execL3DemandFill h addr st s
  | .l3RangeInval a d rows => Sys2Proof.Machine.execL3RangeInval a d rows s
  | .l3RangeClean a d rows => Sys2Proof.Machine.execL3RangeClean a d rows s
  | .l3RangeFlush a d rows => Sys2Proof.Machine.execL3RangeFlush a d rows s
  | .l3RangeEnd d => Sys2Proof.Machine.execL3RangeEnd d s
  | .hcBindWrite a h v => Sys2Proof.Machine.execHcBindWrite a h v s
  | .extensionInvoke lease slot item o => Sys2Proof.Machine.execExtensionInvoke lease slot item o s
  | .codeTimeLimit lease slot => Sys2Proof.Machine.execCodeTimeLimit lease slot s
  | .eyeMsgWrite a d m k v => Sys2Proof.Machine.execEyeMsgWrite a d m k v s
  | .eyeCommit a d m v => Sys2Proof.Machine.execEyeCommit a d m v s
  | .eyeTake a d m => Sys2Proof.Machine.execEyeTake a d m s
  | .eyeTimeout d m => Sys2Proof.Machine.execEyeTimeout d m s
  | .eyeDbSet a d m v => Sys2Proof.Machine.execEyeDbSet a d m v s
  | .eyeCfgWrite a d m v => Sys2Proof.Machine.execEyeCfgWrite a d m v s
  | .icRingNoteRead a c => Sys2Proof.Machine.execIcRingNoteRead a c s
  | .icSwset a ic v => Sys2Proof.Machine.execIcSwset a ic v s
  | .icClaim ic t => Sys2Proof.Machine.execIcClaim ic t s
  | .icComplete ic t v => Sys2Proof.Machine.execIcComplete ic t v s
  | .icPendingWrite a ic w v => Sys2Proof.Machine.execIcPendingWrite a ic w v s
  | .rrAdvance ic x => Sys2Proof.Machine.execRrAdvance ic x s
  | .hostPacketReceive h p => Sys2Proof.Machine.execHostPacketReceive h p s
  | .fifoPacketTimeout h => Sys2Proof.Machine.execFifoPacketTimeout h s
  | .hpFifoHeadWrite a h v => Sys2Proof.Machine.execHpFifoHeadWrite a h v s
  | .hpLandHeadWrite a h v => Sys2Proof.Machine.execHpLandHeadWrite a h v s
  | .dropRest a h v => Sys2Proof.Machine.execDropRest a h v s
  | .hpClr a h v => Sys2Proof.Machine.execHpClr a h v s
  | .hello h verMin verMax window key => Sys2Proof.Machine.execHello h verMin verMax window key s
  | .auth q role keyDigest sig => Sys2Proof.Machine.execAuth q role keyDigest sig s
  | .authTimeout h session => Sys2Proof.Machine.execAuthTimeout h session s
  | .close q => Sys2Proof.Machine.execClose q s
  | .keepalive q => Sys2Proof.Machine.execKeepalive q s
  | .eventAck q evseq => Sys2Proof.Machine.execEventAck q evseq s
  | .identify q => Sys2Proof.Machine.execIdentify q s
  | .attest q nonce => Sys2Proof.Machine.execAttest q nonce s
  | .startRecord q => Sys2Proof.Machine.execStartRecord q s
  | .regRead q addrs => Sys2Proof.Machine.execRegRead q addrs s
  | .regWrite q writes => Sys2Proof.Machine.execRegWrite q writes s
  | .memRead q addr len => Sys2Proof.Machine.execMemRead q addr len s
  | .memWrite q addr len data => Sys2Proof.Machine.execMemWrite q addr len data s
  | .leaseCreate q lease vc shares seed => Sys2Proof.Machine.execLeaseCreate q lease vc shares seed s
  | .leaseBind q lease kind first count => Sys2Proof.Machine.execLeaseBind q lease kind first count s
  | .leaseUnbind q lease kind first count => Sys2Proof.Machine.execLeaseUnbind q lease kind first count s
  | .leaseRebind q src dst kind first count => Sys2Proof.Machine.execLeaseRebind q src dst kind first count s
  | .quiesceComplete lease => Sys2Proof.Machine.execQuiesceComplete lease s
  | .quiesceTimeout lease => Sys2Proof.Machine.execQuiesceTimeout lease s
  | .leaseAbort q lease scope target => Sys2Proof.Machine.execLeaseAbort q lease scope target s
  | .leaseKey q lease digest => Sys2Proof.Machine.execLeaseKey q lease digest s
  | .leaseAcct q lease => Sys2Proof.Machine.execLeaseAcct q lease s
  | .promptSubmit q prompt adapter maxNew more text => Sys2Proof.Machine.execPromptSubmit q prompt adapter maxNew more text s
  | .rolloutFetch q prompt maxBytes => Sys2Proof.Machine.execRolloutFetch q prompt maxBytes s
  | .dataPush q stream records data => Sys2Proof.Machine.execDataPush q stream records data s
  | .codeLoad q slot final offset total chunk => Sys2Proof.Machine.execCodeLoad q slot final offset total chunk s
  | .codeLimits q slot timeMs heap => Sys2Proof.Machine.execCodeLimits q slot timeMs heap s
  | .snapshotTake q => Sys2Proof.Machine.execSnapshotTake q s
  | .snapshotStopEnd lease => Sys2Proof.Machine.execSnapshotStopEnd lease s
  | .snapshotPull q id offset len => Sys2Proof.Machine.execSnapshotPull q id offset len s
  | .snapshotPush q id offset data => Sys2Proof.Machine.execSnapshotPush q id offset data s
  | .snapshotRestore q id rederive => Sys2Proof.Machine.execSnapshotRestore q id rederive s
  | .imageBegin q total => Sys2Proof.Machine.execImageBegin q total s
  | .imageChunk q offset data => Sys2Proof.Machine.execImageChunk q offset data s
  | .imageCommit q => Sys2Proof.Machine.execImageCommit q s
  | .restart q => Sys2Proof.Machine.execRestart q s
  | .unitAddress q addr => Sys2Proof.Machine.execUnitAddress q addr s
  | .commandTimeout h session => Sys2Proof.Machine.execCommandTimeout h session s
  | .sessionIdleTimeout h session => Sys2Proof.Machine.execSessionIdleTimeout h session s
  | .eventRetransmit h session => Sys2Proof.Machine.execEventRetransmit h session s
  | .energyAccrue e input => Sys2Proof.Machine.execEnergyAccrue e input s
  | .spareCoreMap c => Sys2Proof.Machine.execSpareCoreMap c s
  | .rasSample => Sys2Proof.Machine.execRasSample s
  | .bankRetire d b => Sys2Proof.Machine.execBankRetire d b s
  | .autoSnapshot lease => Sys2Proof.Machine.execAutoSnapshot lease s
  | .epochCheck lease g => Sys2Proof.Machine.execEpochCheck lease g s
  | .refWindow edges => Sys2Proof.Machine.execRefWindow edges s
  | .refLoss => Sys2Proof.Machine.execRefLoss s
  | .rootSv0Lost => Sys2Proof.Machine.execRootSv0Lost s
  | .relock a v => Sys2Proof.Machine.execRelock a v s
  | .relockComplete => Sys2Proof.Machine.execRelockComplete s
  | .relockTimeout => Sys2Proof.Machine.execRelockTimeout s
  | .rootSv0 a v => Sys2Proof.Machine.execRootSv0 a v s
  | .islandWake c => Sys2Proof.Machine.execIslandWake c s
  | .powerSample watts => Sys2Proof.Machine.execPowerSample watts s
  | .dutyDecision stepW tj => Sys2Proof.Machine.execDutyDecision stepW tj s
  | .clusterPowerOff d cl => Sys2Proof.Machine.execClusterPowerOff d cl s
  | .startBegin => Sys2Proof.Machine.execStartBegin s
  | .startStage r => Sys2Proof.Machine.execStartStage r s
  | .stageTimeout => Sys2Proof.Machine.execStageTimeout s
  | .heartbeat => Sys2Proof.Machine.execHeartbeat s
  | .sv1Takeover => Sys2Proof.Machine.execSv1Takeover s
  | .retainedStoreWrite copies => Sys2Proof.Machine.execRetainedStoreWrite copies s
  | .recoveryMirror => Sys2Proof.Machine.execRecoveryMirror s
  | .neighbourAdvertisement h => Sys2Proof.Machine.execNeighbourAdvertisement h s
  | .announceSend => Sys2Proof.Machine.execAnnounceSend s
  | .announce q p => Sys2Proof.Machine.execAnnounce q p s
  | .enumStart => Sys2Proof.Machine.execEnumStart s
  | .token q p => Sys2Proof.Machine.execToken q p s
  | .tokenEnd q p => Sys2Proof.Machine.execTokenEnd q p s
  | .enumStrapFallback => Sys2Proof.Machine.execEnumStrapFallback s
  | .addressReclaim => Sys2Proof.Machine.execAddressReclaim s
  | .verify a v => Sys2Proof.Machine.execVerify a v s
  | .verifyComplete => Sys2Proof.Machine.execVerifyComplete s
  | .lock a v => Sys2Proof.Machine.execLock a v s
  | .pertWrite a addr v => Sys2Proof.Machine.execPertWrite a addr v s
  | .injArm a v => Sys2Proof.Machine.execInjArm a v s
  | .tapInstruction t => Sys2Proof.Machine.execTapInstruction t s
  | .resetAssert => Sys2Proof.Machine.execResetAssert s
  | .resetRelease straps => Sys2Proof.Machine.execResetRelease straps s
  | .powerLoss => Sys2Proof.Machine.execPowerLoss s
  | .powerRestore => Sys2Proof.Machine.execPowerRestore s
  | .vinOvervoltage => Sys2Proof.Machine.execVinOvervoltage s
  | .junctionSample k sel t => Sys2Proof.Machine.execJunctionSample k sel t s
  | .thermtripExternal => Sys2Proof.Machine.execThermtripExternal s
  | .alertHoldExpire j => Sys2Proof.Machine.execAlertHoldExpire j s
  | .peerSigWrite a d k v => Sys2Proof.Machine.execPeerSigWrite a d k v s
  | .autoNegotiation p => Sys2Proof.Machine.execAutoNegotiation p s
  | .standbyRootLost => Sys2Proof.Machine.execStandbyRootLost s
  | .thermtripExternalRelease => Sys2Proof.Machine.execThermtripExternalRelease s
  | .creditHoldEnd w => Sys2Proof.Machine.execCreditHoldEnd w s
  | .filteredLineChange ic x level => Sys2Proof.Machine.execFilteredLineChange ic x level s

end Sys2Proof.Machine
end

