-- ==== Sys2Proof/Safety.lean ====
section
/-! DEFINITION. The terms the statements use: when a command has its own effect, and what it leaves as it was. -/
namespace Sys2Proof.Machine

/-- Slot `j` of the next bundle of core `k`, with code `op`, issues now (04 R118-R120, R135): the unit runs, a kernel `q` may issue bundle `b` (a squashed one only where it is the bundle of the PRED that squashes the next, whose other operation still issues), every earlier slot has issued, and the bundle is admitted or passes admission. -/
def SlotIssues (s : State) (k j op : Nat) (q : Kernel) (b : Bundle) : Prop :=
  s.life = .running ∧ s.mayIssue k = some (q, b) ∧ b.has j = true ∧ b.code j = op ∧ bitAt q.slots j = false ∧ (q.squashed && !q.admitted) = false ∧
    (∀ i, i < j → b.has i = true → bitAt q.slots i = true) ∧ (q.admitted = true ∨ (s.settle k).admission k q b = .go)

/-- The state in which a slot operation of a bundle acts: with the bundle admitted (04 R119). -/
def State.entered (s : State) (k : Nat) (q : Kernel) (b : Bundle) : State := if q.admitted then s else (s.settle k).admitted k q b

/-- The core, the slot and the operation code of a command that is one operation of a bundle (04, Slots). -/
def slotOf : Instr → Option (CoreId × Nat × Nat)
  | .wld c ma => some (c, ma.val, 1)
  | .pass c ma => some (c, ma.val, 2)
  | .elem c => some (c, 4, 1)
  | .convert c => some (c, 5, 1)
  | .split c => some (c, 5, 2)
  | .drain c => some (c, 5, 3)
  | .softmaxStep c => some (c, 5, 3)
  | .softmaxFinal c => some (c, 5, 3)
  | .softmaxMerge c => some (c, 5, 3)
  | .arm c e => some (c, 6 + e.val, 1)
  | .rel c e => some (c, 6 + e.val, 2)
  | .awl c e => some (c, 6 + e.val, 3)
  | .loop c => some (c, 8, 1)
  | .wrmask c => some (c, 8, 2)
  | .dpre c => some (c, 8, 3)
  | .pred c => some (c, 8, 4)
  | .mark c => some (c, 8, 5)
  | .endKernel c => some (c, 8, 6)
  | .set c => some (c, 9, 1)
  | .clear c => some (c, 9, 2)
  | .wait c => some (c, 9, 3)
  | .waitClr c => some (c, 9, 4)
  | .test c => some (c, 9, 5)
  | .claim c => some (c, 9, 6)
  | _ => none

/-- Nothing is at work that the passing of a cycle could bring on: no core, request, update unit, memory controller, cache write-back, packed row, training port, access of another unit, session, image or snapshot under way, verification or bound host-class core. -/
def AtRest (s : State) : Prop :=
  s.cores = [] ∧ s.reqs = [] ∧ s.welts = [] ∧ s.ctls = [] ∧ s.writeBacks = [] ∧ s.packing = [] ∧ s.training = [] ∧ s.peerDue = [] ∧ s.sessions = [] ∧ s.flashWrite = none ∧ s.snapOp = none ∧ s.verifyAt = none ∧
    ∀ k, k < 64 → s.hcLease k = none

/-- A host-class core makes an access to `n` bytes (12 R478, 18 R625): its code is not paused, and customer code that it runs reaches them; `u` is the state in which the access acts, with the core's cluster powered. -/
def HcReaches (s : State) (h : HcId) (addr n : Nat) (u : State) : Prop :=
  s.life = .running ∧ s.hcPaused (hcKey h) = false ∧ s.codeBar (hcKey h) addr n = none ∧ u = s.hcWake (hcKey h)

/-- A range operation begun on CDd over `n` rows (12 R469, R470): each row has had its cache operation, and the die is BUSY until a cycle for each row has passed. -/
def State.rangeBegun (s : State) (a : Actor) (d n op : Nat) (rows : List Nat) : State :=
  ({ rows.foldl (fun s r => s.cbo op (64 + d) r (actorLease a)) s with
    rangeDue := tset s.rangeDue d (s.now + n), rangeOwner := match actorLease a with | some l => tset s.rangeOwner d l | none => tdel s.rangeOwner d } : State).setFld (l3Reg .L3_RANGE_STATUS d) L3_RANGE_STATUS.BUSY 1

/-- A frame command's turn at a stack has come (08 R325): once what has reached the stack stands in its queue, nothing is left to wait for; `u` is the state in which the command acts. -/
def FrameTurn (s : State) (d g : Nat) (u : State) : Prop := (s.stackRun d g).waiting.head? ≠ some turnTicket ∧ u = s.arrivals d g ∧ (u.stackRun d g).waiting = []

/-- The index values of the sixteen entries that a thread's next one is in (06 R263): those it holds, or those read in this cycle, with the state and the thread after that, whether they were read, and whether they are in hand. -/
def State.indicesHeld (s : State) (k t lease : Nat) (a : AwlThread) : State × AwlThread × Bool × Bool :=
  if a.ixs.isEmpty then ((s.readIndices k t lease a).1, (s.readIndices k t lease a).2.1, true, (s.readIndices k t lease a).2.2) else (s, a, false, true)

/-- The engine's cycle that reading index values takes (06 R263). -/
def State.indexRead (s : State) (k : Nat) (read : Bool) : State := if read then s.onCore k (fun c => c.formed (s.ctime k) 6) else s

/-- A push or pop of a channel stands first at its stack (05 R222, 06 R241): `w` is the state once what has reached the stack stands in its queue; the kernel `q` runs, `x` is the channel's transfer, the core is not frozen, and no other push or pop has rows still to be asked for. -/
def StackTurn (s w : State) (d g k n : Nat) (q : Kernel) (x : Xfer) : Prop :=
  s.life = .running ∧ (s.settle k).arrivals d g = w ∧ (w.core k).kernel = some q ∧ ((w.core k).chan n).cur = some x ∧ (w.stackRun d g).waiting.head? = some (.move k n) ∧ w.frozen k = false ∧ w.stackMove d g = none

/-- A push's turn (05 R222-R224): the half `h` is the oldest handed over. -/
def PushTurn (s w : State) (d g k n : Nat) (q : Kernel) (x : Xfer) (h : HalfFill) : Prop :=
  StackTurn s w d g k n q x ∧ x.d.dir = 2 ∧ ((w.core k).chan n).halves.find? (fun h => h.st == 2 && h.low.isNone && h.xfer == x.id) = some h

/-- A pop's turn (05 R226): the fill `u` of the transfer is the next, of `m` rows. -/
def PopTurn (s w : State) (d g k n : Nat) (q : Kernel) (x : Xfer) (u m : Nat) : Prop :=
  StackTurn s w d g k n q x ∧ x.d.dir = 3 ∧ u = ((w.core k).chan n).nextFill x ∧ m = (x.fill u).2

/-- The next entry of a pool's batch is a sound one of operation `op` (10 R367, R368): it has been read, its unused fields are zero, and it names a page of the pool where it names one; `u` is the state after that read. -/
def PoolTurn (s : State) (d p op : Nat) (r : PoolRun) (e : PoolEntry) (u : State) : Prop :=
  s.life = .running ∧ s.poolRun d p = some r ∧ r.next < r.count ∧ s.poolWaits d p = false ∧ s.spanReach (s.listAt d p r.next) 16 = true ∧ (∃ h, s.find (some (s.pool d p).lease) (s.listAt d p r.next) = .ok h) ∧
    e = s.nextEntry d p r.next ∧ e.op = op ∧ e.clean = true ∧ (op = 1 ∨ e.page < (s.pool d p).pages) ∧ (op = 5 → s.spanReach e.stage (s.pool d p).pageBytes = true) ∧ u = (s.poolRead (s.poolUser d p) (s.listAt d p r.next) 16).1

/-- An idle collective engine takes a sound descriptor of operation `op` from its queue (11 R446, R448): descriptor and group block have been read unpoisoned, and `t` is the state after that. -/
def CollStart (s : State) (io op : Nat) (r : CollRun) (t : State) : Prop :=
  s.life = .running ∧ (s.coll io).run = none ∧ s.collWaits io = false ∧ ∃ a who rest d, (s.coll io).queue = (a, who) :: rest ∧ s.collDesc who a = some d ∧ dword d 0 % 16 = op ∧ (s.collTaken io a who rest).2 = false ∧
    (s.collTaken io a who rest).1.collOf io who d = some r ∧
    ((s.collTaken io a who rest).1.collBlock (collAgent io who) ((s.collTaken io a who rest).1.fld ⟨.COLL_MEMBERS, selIo io, r.group, 0⟩ COLL_MEMBERS.MEMBERS) (2 * r.members.length)) = (t, false)

/-- A write of a register by an actor reaches the register's own rule: the unit runs, the actor is not paused, the register is there, and the actor may write it (01 R32, R33; 14 R524; 18 R625). -/
def Writable (s : State) (a : Actor) (r : Reg) : Prop :=
  s.life = .running ∧ s.barred a r.addr = false ∧ s.regTarget r.addr = .ok (some r) ∧ s.writeBar a r = none

/-- A read of a register by an actor reaches the register. -/
def Readable (s : State) (a : Actor) (r : Reg) : Prop :=
  s.life = .running ∧ s.barred a r.addr = false ∧ s.regTarget r.addr = .ok (some r) ∧ s.readBar a r = none

/-- A DCP command of opcode `o` is performed (14 R519, R520, R533): its turn has come on session `x` of slot `k`, no FIFO row that carried it and no landing row of its data was poisoned, and every check passes; `u` is the state once its landing rows, if it has any, are read. -/
def Performs (s : State) (q : DcpHdr) (o plen dlen : Nat) (named : Bool) (k : Nat) (x : Session) (u : State) : Prop :=
  s.life = .running ∧ s.turn q o = some (k, x) ∧ s.landRead q.port.val x.lease (x.landing q.seq) = (u, false) ∧ (q.poisoned || x.spoiled q.seq) = false ∧ u.opCheck x o q.lease.val q.verMajor q.verMinor named = none ∧
    q.plen = plen ∧ q.dlen = dlen ∧ (q.resv || x.oddHeader q.seq) = false ∧ u.mayBegin x q.seq o = true

/-- The reply to a command of opcode `o`. -/
def replyOf (q : DcpHdr) (o : Nat) (st : Status) (params data : List Byte) : DcpReply := ⟨q.seq, o, st, params, data⟩

/-- Nothing differs but registers, and of these only the listed ones (with the note of what hardware did to a register in this cycle, State.latest). -/
def OnlyRegs (s t : State) (rs : List Reg) : Prop :=
  (∃ g l, t = { s with regs := g, latest := l }) ∧ ∀ a, a ∉ rs.map Reg.addr → tget? t.regs a = tget? s.regs a

/-- Every byte of every memory reads as before. -/
def SameMem (s t : State) : Prop := ∀ a, t.mem.byte a = s.mem.byte a

/-- Every register but the listed ones holds what it held. -/
def SameRegs (s t : State) (rs : List Reg) : Prop := ∀ a, a ∉ rs.map Reg.addr → tget? t.regs a = tget? s.regs a

/-- The words of the account records (15 R557): any of them may count while packets that waited leave. -/
def accounts : List Reg := (List.range 256).flatMap (fun n => (List.range 64).map (fun w => acct n w))

/-- Every core but `k` is as it was. -/
def SameCores (s t : State) (k : Nat) : Prop := ∀ j, j ≠ k → t.core j = s.core j

/-- A sound packet of a type for this unit comes in at a port whose partner is a member, and its connection takes it: `t` is the state in which its contents act (11 R415, R422, R425-R431). -/
def Arrives (s : State) (q : Fin 16) (p : DftPacket) (type : Nat) (t : State) : Prop :=
  s.life = .running ∧ s.portUp (.peer q) = true ∧ s.frameOk p = true ∧ p.type = type ∧ (p.dst.toNat = s.self ∨ type = 6) ∧ (s.frameIn q p).2 = true ∧ (s.frameIn q p).1.takeIn q.val p = (t, true)

/-- A sound management packet of a KIND for this unit comes in at a port: `t` is the state in which it acts (17 R605, R608). -/
def Managed (s : State) (q : Fin 16) (p : DftPacket) (kind : Nat) (t : State) : Prop :=
  s.life = .running ∧ s.portUp (.peer q) = true ∧ s.frameOk p = true ∧ p.type = 8 ∧ p.dst.toNat = s.self ∧ linkScope p = false ∧ mgmtKind p = kind ∧ (s.frameIn q p).2 = true ∧
    t = (s.frameIn q p).1.freeCells q.val 0 (pktClass p) (pktCells p)

/-- Commands of the supply, the pins and the test access port: those that act on a unit that does not run. -/
def actsAtRest : Instr → Bool
  | .resetAssert => true
  | .resetRelease _ => true
  | .powerLoss => true
  | .powerRestore => true
  | .vinOvervoltage => true
  | .junctionSample _ _ _ => true
  | .thermtripExternal => true
  | .thermtripExternalRelease => true
  | .alertHoldExpire _ => true
  | .tapInstruction _ => true
  | _ => false

end Sys2Proof.Machine
end

