-- ==== Sys2Proof/Certificates/Slice0/Obligations.lean ====
section
/-! DEFINITION. The statements for the provers. -/

open Sys2Proof Sys2Proof.Machine

/-- The step of the block (log 10): the command at the front of the queue is performed on the state with the rest of the queue, and nothing else of the state is touched before it. -/
def Obligations.StepTakesTheFrontCommand : Prop := ∀ (c : Instr) (l : List Instr) (s : State), step { s with pending := c :: l } = exec c { s with pending := l }

/-- On an empty queue a step is one cycle of the clock (log 9). For a running unit the operations left of bundles begun are issued first (04 R119), channels due to power down do so (07 R292) and the host-class cores' cycles are charged (15
R557); then the unit's time advances by one, the tensor-core clock by at most one and only in one of the DUTY of each sixteen cycles (16 R581), and what falls in the new cycle happens (State.arrive). Where nothing is at work (AtRest)
nothing but the clocks changes; a unit that does not run advances its time alone. -/
def Obligations.EmptyQueuePassesOneCycle : Prop :=
  (∀ s u : State, s.pending = [] → s.life = .running → u = ((s.cores.map (·.1)).foldl State.finishBundle s).pdnOn.hcCycle →
    ∃ n, step s = .next (State.arrive { u with now := u.now + 1, coreClock := n }) ∧ (n = u.coreClock ∨
      (n = u.coreClock + 1 ∧ arithIndex u.arithMhz u.now < arithIndex u.arithMhz (u.now + 1) ∧
        dutyRuns (u.fld ⟨.PWR_STATUS, selSv0, 0, 0⟩ PWR_STATUS.DUTY) (arithIndex u.arithMhz u.now) = true))) ∧
  (∀ s : State, s.pending = [] → s.life = .running → AtRest s →
    ∃ n, step s = .next { s with now := s.now + 1, coreClock := n } ∧ (n = s.coreClock ∨
      (n = s.coreClock + 1 ∧ arithIndex s.arithMhz s.now < arithIndex s.arithMhz (s.now + 1) ∧
        dutyRuns (s.fld ⟨.PWR_STATUS, selSv0, 0, 0⟩ PWR_STATUS.DUTY) (arithIndex s.arithMhz s.now) = true))) ∧
  (∀ s : State, s.pending = [] → s.life ≠ .running → step s = .next { s with now := s.now + 1 })

/-- No command stops the unit: whatever the state, every command answers a next state (the unit reports refusals by status, 00 R14, 01 R32). -/
def Obligations.EveryCommandGoesOn : Prop := ∀ (c : Instr) (s : State), ∃ t : State, exec c s = .next t

/-- Memory keeps its canonical form through every step (keys strictly rising, no byte listed that an unlisted byte reads as), so equal memories are equal data. -/
def Obligations.StepKeepsMemoryCanonical : Prop := ∀ s t : State, s.mem.wf = true → step s = .next t → t.mem.wf = true

/-- The memory right after reset is in canonical form. -/
def Obligations.ResetMemoryIsCanonical : Prop := State.reset.mem.wf = true ∧ ∀ a, State.reset.mem.byte a = Memory.fill

/-- The grade is fused (00 R1, R3): no step changes it, whatever the command. -/
def Obligations.StepKeepsTheFusedGrade : Prop := ∀ s t : State, step s = .next t → t.grade = s.grade

/-- A tripped unit stays tripped until its supply is cycled (20 R671): from every tripped state a step leads to a tripped state, unless the command is POWER_LOSS. -/
def Obligations.TripHoldsUntilPowerLoss : Prop := ∀ s t : State, s.life = .tripped → s.pending.head? ≠ some .powerLoss → step s = .next t → t.life = .tripped

/-- Without a clock root, supply or released reset nothing of the unit acts (16 R572, 20 R661, R665, R671): every command but those of the supply, the pins and the test access port leaves the state as it is. -/
def Obligations.NothingActsAtRest : Prop := ∀ (c : Instr) (s : State), s.life ≠ .running → actsAtRest c = false → exec c s = .next s

/-- What the manual gives for reset: every register holds its reset value (mask registers all ones, 03 R89; CHAIN_POS 0xFFFF, 17 R603), every ring is DISABLED with nothing produced, no lease is in use, no core is bound and no kernel runs, no
session is open, every port is down, no interrupt is PENDING. -/
def Obligations.ResetLeavesTheUnitIdle : Prop :=
  (∀ r : Reg, State.reset.reg r = r.resetWord) ∧
  (∀ k n : Nat, State.reset.reg (coreReg .MA_MASK_ROW k n) = BitVec.allOnes 64 ∧ State.reset.reg (coreReg .MA_MASK_COL k n) = BitVec.allOnes 64) ∧
  State.reset.fld unitAddr UNIT_ADDR.CHAIN_POS = 0xFFFF ∧ State.reset.fld unitAddr UNIT_ADDR.ADDRESS = 0 ∧
  (∀ d i : Nat, State.reset.ringState d i = 0 ∧ State.reset.ringDepth d i = 0) ∧
  (∀ n : Nat, State.reset.leaseState n = 0) ∧
  (∀ k : Nat, (State.reset.core k).kernel = none ∧ State.reset.holder k = none) ∧
  State.reset.sessions = [] ∧ (∀ p : EthPort, State.reset.portUp p = false) ∧ (∀ ic x : Nat, State.reset.isPending ic x = false)

/-- A register write that reaches its register is performed by the register's own rule (writeAct) and answered with the status of that rule (00 R8-R10). On a status register without a rule of its own, CORE_FMT_EVENTS, firmware's write clears
the W1C bit written 1, but for one that hardware has set in this same cycle (00 R9), keeps it where 0 is written, and changes no other register. On a limit register, TEMPER_CFG, a management session's write of a STARVE_LIMIT below 1,024
changes nothing and is answered ST_RANGE, and one in range is taken and changes no other register. It says where this command completes, with a next state of its own effect: registerWrite. -/
def Obligations.RegisterWriteFollowsTheFieldRules : Prop :=
  (∀ (s : State) (a : Actor) (r : Reg) (v : Word), Writable s a r → r.addr < 2 ^ 48 →
    exec (.registerWrite a (BitVec.ofNat 48 r.addr) v) s = .next ((s.writeAct a r v.toNat).1.answer (s.writeAct a r v.toNat).2 0)) ∧
  (∀ (s : State) (k : Nat) (v : Word), Writable s .firmware (coreReg .CORE_FMT_EVENTS k) → (coreReg .CORE_FMT_EVENTS k).addr < 2 ^ 48 →
    ∃ t : State, exec (.registerWrite .firmware (BitVec.ofNat 48 (coreReg .CORE_FMT_EVENTS k).addr) v) s = .next (t.answer .ok 0) ∧ OnlyRegs s t [coreReg .CORE_FMT_EVENTS k] ∧
      t.fld (coreReg .CORE_FMT_EVENTS k) CORE_FMT_EVENTS.SCALE_NAN = if bitAt v.toNat 0 && !bitAt (s.thisCycle (coreReg .CORE_FMT_EVENTS k)) 0 then 0 else s.fld (coreReg .CORE_FMT_EVENTS k) CORE_FMT_EVENTS.SCALE_NAN) ∧
  (∀ (s : State) (d : Die) (v : Word), Writable s .mgmt (temperCfg d.val) → bits v.toNat 15 0 < 1024 → exec (.registerWrite .mgmt (BitVec.ofNat 48 (temperCfg d.val).addr) v) s = .next (s.answer .range 0)) ∧
  (∀ (s : State) (d : Die) (v : Word), Writable s .mgmt (temperCfg d.val) → 1024 ≤ bits v.toNat 15 0 →
    ∃ t : State, exec (.registerWrite .mgmt (BitVec.ofNat 48 (temperCfg d.val).addr) v) s = .next (t.answer .ok 0) ∧ OnlyRegs s t [temperCfg d.val] ∧ t.fld (temperCfg d.val) TEMPER_CFG.STARVE_LIMIT = bits v.toNat 15 0)

/-- A clear command with CLEAR 1 sets its counters to zero, but for what they have counted in this same cycle (01 R28), and touches no other register or state (01 R27, 05 R195, 06 R256, 07 R283, 11 R411, R432, 14 R508): LINK_ERR_CLR,
ROW_ECC_CLR of a core and of the shared banks, MEMC_ECC_CLR, PEER_PORT_CLR, FAB_STAT_CLR, HP_CLR, MCQ_CLR. It says where each of these commands completes, with a next state of its own effect: linkErrClr, rowEccClr, mcqClr, memcEccClr,
peerPortClr, fabStatClr, hpClr. -/
def Obligations.ClearCommandsZeroTheirCounters : Prop :=
  (∀ (s : State) (a : Actor) (e : LinkEnd) (v : Word), Writable s a (linkReg .LINK_ERR_CLR e.sel.val e.port.val) → linkPort e.sel.val e.port.val = true →
    ∃ t : State, exec (.linkErrClr a e v) s = .next (t.answer .ok 0) ∧ OnlyRegs s t [linkReg .LINK_ERR_CNT e.sel.val e.port.val] ∧ t.reg (linkReg .LINK_ERR_CNT e.sel.val e.port.val) = BitVec.ofNat 64 (s.thisCycle (linkReg .LINK_ERR_CNT e.sel.val e.port.val))) ∧
  (∀ (s : State) (a : Actor) (d : Die) (c : Fin 128) (v : Word), Writable s a ⟨.ROW_ECC_CLR, selCd d.val, c.val, 0⟩ →
    ∃ t : State, exec (.rowEccClr a d (some c) v) s = .next (t.answer .ok 0) ∧ OnlyRegs s t ((List.range 22).map (fun b => ⟨.ROW_ECC_CNT, selCd d.val, c.val, b⟩)) ∧
      ∀ b, b < 22 → t.reg ⟨.ROW_ECC_CNT, selCd d.val, c.val, b⟩ = BitVec.ofNat 64 (s.thisCycle ⟨.ROW_ECC_CNT, selCd d.val, c.val, b⟩)) ∧
  (∀ (s : State) (a : Actor) (d : Die) (v : Word), Writable s a ⟨.SDM_ECC_CLR, selCd d.val, 0, 0⟩ →
    ∃ t : State, exec (.rowEccClr a d none v) s = .next (t.answer .ok 0) ∧ OnlyRegs s t ((List.range 96).map (fun b => ⟨.SDM_ECC_CNT, selCd d.val, b, 0⟩)) ∧
      ∀ b, b < 96 → t.reg ⟨.SDM_ECC_CNT, selCd d.val, b, 0⟩ = BitVec.ofNat 64 (s.thisCycle ⟨.SDM_ECC_CNT, selCd d.val, b, 0⟩)) ∧
  (∀ (s : State) (a : Actor) (d : Die) (k : Fin 6) (v : Word), Writable s a (memc .MEMC_ECC_CLR d.val k.val) →
    ∃ t : State, exec (.memcEccClr a d k v) s = .next (t.answer .ok 0) ∧ OnlyRegs s t ((List.range (if k.val < 4 then 33 else 1)).map (fun p => memc .MEMC_ECC_CNT d.val k.val p)) ∧
      ∀ p, p < (if k.val < 4 then 33 else 1) → t.reg (memc .MEMC_ECC_CNT d.val k.val p) = BitVec.ofNat 64 (s.thisCycle (memc .MEMC_ECC_CNT d.val k.val p))) ∧
  (∀ (s : State) (a : Actor) (q : Fin 16) (v : Word), Writable s a (peerPort .PEER_PORT_CLR q.val) →
    ∃ t : State, exec (.peerPortClr a q v) s = .next (t.answer .ok 0) ∧ OnlyRegs s t [peerPort .PEER_PORT_ERR q.val] ∧ t.reg (peerPort .PEER_PORT_ERR q.val) = BitVec.ofNat 64 (s.thisCycle (peerPort .PEER_PORT_ERR q.val))) ∧
  (∀ (s : State) (a : Actor) (v : Word), Writable s a ⟨.FAB_STAT_CLR, selSv0, 0, 0⟩ →
    ∃ t : State, exec (.fabStatClr a v) s = .next (t.answer .ok 0) ∧ OnlyRegs s t [fabStat] ∧ t.reg fabStat = BitVec.ofNat 64 (s.thisCycle fabStat)) ∧
  (∀ (s : State) (a : Actor) (h : Fin 2) (v : Word), Writable s a (hp .HP_CLR h.val) →
    ∃ t : State, exec (.hpClr a h v) s = .next (t.answer .ok 0) ∧ OnlyRegs s t [hp .HP_ERR h.val, hp .HP_SEC h.val, hp .HP_FIFO_STAT h.val] ∧
      ∀ r, r ∈ [hp .HP_ERR h.val, hp .HP_SEC h.val, hp .HP_FIFO_STAT h.val] → t.reg r = BitVec.ofNat 64 (s.thisCycle r)) ∧
  (∀ (s : State) (a : Actor) (d : Die) (v : Word), Writable s a ⟨.MCQ_CLR, selCd d.val, 0, 0⟩ →
    ∃ t : State, exec (.mcqClr a d v) s = .next (t.answer .ok 0) ∧ OnlyRegs s t ((List.range 6).map (fun k => mcqStat d.val k)) ∧
      ∀ k, k < 6 → t.fld (mcqStat d.val k) MCQ_STAT.PEAK = bits (s.thisCycle (mcqStat d.val k)) MCQ_STAT.PEAK.hi MCQ_STAT.PEAK.lo ∧ t.fld (mcqStat d.val k) MCQ_STAT.CAP_DEFERS = bits (s.thisCycle (mcqStat d.val k)) MCQ_STAT.CAP_DEFERS.hi MCQ_STAT.CAP_DEFERS.lo ∧ t.fld (mcqStat d.val k) MCQ_STAT.STARVE_GRANTS = bits (s.thisCycle (mcqStat d.val k)) MCQ_STAT.STARVE_GRANTS.hi MCQ_STAT.STARVE_GRANTS.lo ∧
        t.fld (mcqStat d.val k) MCQ_STAT.INFLIGHT = s.fld (mcqStat d.val k) MCQ_STAT.INFLIGHT)

/-- RING_BASE (04 R150): on a disabled ring no kernel of which runs, a base aligned to 4,096 bytes in a memory space is taken, and TAIL, PRODUCED, HEAD and CONSUMED become zero; on an enabled ring, or while a kernel of it runs, the write
changes nothing. It says where this command completes, with a next state of its own effect: ringBaseWrite. -/
def Obligations.RingBaseWriteTakesAnAlignedBase : Prop :=
  (∀ (s : State) (a : Actor) (d : Die) (i : Fin 16384) (v : Word), Writable s a (ringReg .RING_BASE d.val i.val) →
    s.fld (ringReg .RING_CFG d.val i.val) RING_CFG.ENABLE = 0 → s.ringCore d.val i.val = none → bits v.toNat 11 0 = 0 → bits v.toNat 47 44 ≤ 2 →
    ∃ t : State, exec (.ringBaseWrite a d i v) s = .next (t.answer .ok 0) ∧
      OnlyRegs s t [ringReg .RING_BASE d.val i.val, ringReg .RING_PROD d.val i.val, ringReg .RING_CONS d.val i.val] ∧
      t.fld (ringReg .RING_BASE d.val i.val) RING_BASE.BASE = bits v.toNat 47 0 ∧ t.reg (ringReg .RING_PROD d.val i.val) = 0#64 ∧ t.reg (ringReg .RING_CONS d.val i.val) = 0#64) ∧
  (∀ (s : State) (a : Actor) (d : Die) (i : Fin 16384) (v : Word), Writable s a (ringReg .RING_BASE d.val i.val) →
    (s.fld (ringReg .RING_CFG d.val i.val) RING_CFG.ENABLE = 1 ∨ (s.ringCore d.val i.val).isSome = true) → exec (.ringBaseWrite a d i v) s = .next (s.answer .state 0))

/-- RING_CFG and RING_PROD (04 R151, R152, R154, R155): firmware's configuration of a disabled ring with ENABLE 0 takes every field in range and changes no other register and no memory; a producer's write that moves TAIL and PRODUCED forward,
by no fewer words than bundles and within the ring's size, on an ACTIVE lease's ring without WHOLE is taken whole and changes nothing else, but that a bundle it makes available ends an UNDERRUN; one whose TAIL passes HEAD by more than the
ring's size is refused ST_BUSY and sets PUSH_REFUSED. It says where each of these commands completes, with a next state of its own effect: ringCfgWrite, ringProdWrite. -/
def Obligations.RingConfigureAndPublish : Prop :=
  (∀ (s : State) (d : Die) (i : Fin 16384) (v : Word), Writable s .firmware (ringReg .RING_CFG d.val i.val) → s.fld (ringReg .RING_CFG d.val i.val) RING_CFG.ENABLE = 0 →
    bits v.toNat 0 0 = 0 → 9 ≤ bits v.toNat 38 34 → bits v.toNat 38 34 ≤ 24 → s.exposed d.val (bits v.toNat 45 39) = true → bits v.toNat 33 29 ≤ 16 →
    ∃ t : State, exec (.ringCfgWrite .firmware d i v) s = .next (t.answer .ok 0) ∧ SameRegs s t [ringReg .RING_CFG d.val i.val] ∧ t.mem = s.mem ∧
      t.fld (ringReg .RING_CFG d.val i.val) RING_CFG.LEASE = bits v.toNat 63 56 ∧ t.fld (ringReg .RING_CFG d.val i.val) RING_CFG.CONTEXT = bits v.toNat 55 46 ∧
      t.fld (ringReg .RING_CFG d.val i.val) RING_CFG.CORE = bits v.toNat 45 39 ∧ t.fld (ringReg .RING_CFG d.val i.val) RING_CFG.SIZE_LOG2 = bits v.toNat 38 34 ∧
      t.fld (ringReg .RING_CFG d.val i.val) RING_CFG.WAIT_TMO = bits v.toNat 33 29 ∧ t.fld (ringReg .RING_CFG d.val i.val) RING_CFG.WHOLE = bits v.toNat 1 1 ∧
      t.fld (ringReg .RING_CFG d.val i.val) RING_CFG.ENABLE = 0) ∧
  (∀ (s : State) (a : Actor) (d : Die) (i : Fin 16384) (v : Word), Writable s a (ringReg .RING_PROD d.val i.val) → s.active (s.ringLease d.val i.val) = true →
    s.snapStopped (s.ringLease d.val i.val) = false → s.fld (ringReg .RING_CFG d.val i.val) RING_CFG.WHOLE = 0 →
    diff32 (bits v.toNat 31 0) (s.ringHead d.val i.val) ≤ (s.ringSize d.val i.val : Int) →
    0 ≤ diff32 (bits v.toNat 63 32) (s.fld (ringReg .RING_PROD d.val i.val) RING_PROD.PRODUCED) →
    diff32 (bits v.toNat 63 32) (s.fld (ringReg .RING_PROD d.val i.val) RING_PROD.PRODUCED) ≤ diff32 (bits v.toNat 31 0) (s.fld (ringReg .RING_PROD d.val i.val) RING_PROD.TAIL) →
    s.ringStored d.val i.val ≠ 7 → exec (.ringProdWrite a d i v) s = .next ((s.setReg (ringReg .RING_PROD d.val i.val) v).answer .ok 0)) ∧
  (∀ (s : State) (a : Actor) (d : Die) (i : Fin 16384) (v : Word), Writable s a (ringReg .RING_PROD d.val i.val) → s.active (s.ringLease d.val i.val) = true →
    s.snapStopped (s.ringLease d.val i.val) = false → s.fld (ringReg .RING_CFG d.val i.val) RING_CFG.WHOLE = 0 →
    diff32 (bits v.toNat 31 0) (s.ringHead d.val i.val) ≤ (s.ringSize d.val i.val : Int) →
    0 ≤ diff32 (bits v.toNat 63 32) (s.fld (ringReg .RING_PROD d.val i.val) RING_PROD.PRODUCED) →
    diff32 (bits v.toNat 63 32) (s.fld (ringReg .RING_PROD d.val i.val) RING_PROD.PRODUCED) ≤ diff32 (bits v.toNat 31 0) (s.fld (ringReg .RING_PROD d.val i.val) RING_PROD.TAIL) →
    s.ringStored d.val i.val = 7 → (s.setReg (ringReg .RING_PROD d.val i.val) v).ringDepth d.val i.val ≠ 0 →
      exec (.ringProdWrite a d i v) s = .next (((s.setReg (ringReg .RING_PROD d.val i.val) v).setFld (ringReg .RING_STATUS d.val i.val) RING_STATUS.STATE 3).answer .ok 0)) ∧
  (∀ (s : State) (a : Actor) (d : Die) (i : Fin 16384) (v : Word), Writable s a (ringReg .RING_PROD d.val i.val) → s.active (s.ringLease d.val i.val) = true →
    s.snapStopped (s.ringLease d.val i.val) = false → (s.ringSize d.val i.val : Int) < diff32 (bits v.toNat 31 0) (s.ringHead d.val i.val) →
    exec (.ringProdWrite a d i v) s = .next ((s.setW1c (ringReg .RING_STATUS d.val i.val) RING_STATUS.PUSH_REFUSED).answer .busy 0))

/-- RING_CTRL (04 R166, R167), on a ring no kernel of which runs: CLEAR_FAULT takes a FAULTED ring to DISABLED with FAULT_STATUS 0; DISCARD sets HEAD to TAIL and CONSUMED to PRODUCED; SKIP_KERNEL passes the bundles and words up to and including
the next produced END. While a kernel of the ring runs, each changes nothing. It says where each of these commands completes, with a next state of its own effect: skipKernel, discard, clearFault. -/
def Obligations.RingControlClearsSkipsAndDiscards : Prop :=
  (∀ (s : State) (a : Actor) (d : Die) (i : Fin 16384), Writable s a (ringReg .RING_CTRL d.val i.val) → s.ringCore d.val i.val = none →
    s.fld (ringReg .RING_STATUS d.val i.val) RING_STATUS.STATE = 6 →
    ∃ t : State, exec (.clearFault a d i) s = .next (t.answer .ok 0) ∧ OnlyRegs s t [ringReg .RING_STATUS d.val i.val] ∧
      t.fld (ringReg .RING_STATUS d.val i.val) RING_STATUS.STATE = 0 ∧ t.fld (ringReg .RING_STATUS d.val i.val) RING_STATUS.FAULT_STATUS = 0) ∧
  (∀ (s : State) (a : Actor) (d : Die) (i : Fin 16384), Writable s a (ringReg .RING_CTRL d.val i.val) → s.ringCore d.val i.val = none →
    ∃ t : State, exec (.discard a d i) s = .next (t.answer .ok 0) ∧ OnlyRegs s t [ringReg .RING_CONS d.val i.val] ∧
      t.fld (ringReg .RING_CONS d.val i.val) RING_CONS.HEAD = s.fld (ringReg .RING_PROD d.val i.val) RING_PROD.TAIL ∧
      t.fld (ringReg .RING_CONS d.val i.val) RING_CONS.CONSUMED = s.fld (ringReg .RING_PROD d.val i.val) RING_PROD.PRODUCED ∧ t.ringDepth d.val i.val = 0) ∧
  (∀ (s : State) (a : Actor) (d : Die) (i : Fin 16384) (b w : Nat) (e : Bool), Writable s a (ringReg .RING_CTRL d.val i.val) → s.ringCore d.val i.val = none →
    s.scanEnd d.val i.val (s.ringDepth d.val i.val) (s.ringHead d.val i.val) = (b, w, e) →
    ∃ t : State, exec (.skipKernel a d i) s = .next (t.answer .ok 0) ∧ OnlyRegs s t [ringReg .RING_CONS d.val i.val] ∧
      t.fld (ringReg .RING_CONS d.val i.val) RING_CONS.CONSUMED = (s.fld (ringReg .RING_CONS d.val i.val) RING_CONS.CONSUMED + b) % 2 ^ 32 ∧
      t.fld (ringReg .RING_CONS d.val i.val) RING_CONS.HEAD = (s.fld (ringReg .RING_CONS d.val i.val) RING_CONS.HEAD + w) % 2 ^ 32) ∧
  (∀ (s : State) (a : Actor) (d : Die) (i : Fin 16384), Writable s a (ringReg .RING_CTRL d.val i.val) → (s.ringCore d.val i.val).isSome = true →
    exec (.clearFault a d i) s = .next (s.answer .state 0) ∧ exec (.discard a d i) s = .next (s.answer .state 0) ∧ exec (.skipKernel a d i) s = .next (s.answer .state 0))

/-- Row memories and stacks (05 R204, R205, R212, R219, R220): firmware's partition entry that passes the partition check, or that is made not VALID, is taken, and where it takes a VALID entry from its lease the rows are scrubbed; a
weight-cache carve-out of at most 32 banks that no partition meets is taken, with every line invalid and the statistics zero; firmware's configuration of a disabled stack with ENABLE 0 is taken; a write of TOP 0 to a disabled stack leaves
TOP, FLOOR and the frame count zero, and no memory or core changed. It says where each of these commands completes, with a next state of its own effect: sdmPartWrite, sdmWcacheCfgWrite, astkCfgWrite, astkTopWrite. -/
def Obligations.RowMemoryConfigurationIsTaken : Prop :=
  (∀ (s : State) (d : Die) (p : Fin 32) (v : Word), Writable s .firmware (sdmPart d.val p.val) → (bits v.toNat 55 55 = 1 → s.partCheck d.val p.val (bits (RegName.written .SDM_PART (s.reg (sdmPart d.val p.val)).toNat v.toNat) SDM_PART.FIRST_BANK.hi SDM_PART.FIRST_BANK.lo) (bits (RegName.written .SDM_PART (s.reg (sdmPart d.val p.val)).toNat v.toNat) SDM_PART.BANKS.hi SDM_PART.BANKS.lo) = none) →
    (s.fld (sdmPart d.val p.val) SDM_PART.VALID = 0 ∨ bits v.toNat 55 55 = 1 ∧ bits (RegName.written .SDM_PART (s.reg (sdmPart d.val p.val)).toNat v.toNat) SDM_PART.LEASE.hi SDM_PART.LEASE.lo = s.fld (sdmPart d.val p.val) SDM_PART.LEASE) →
    exec (.sdmPartWrite .firmware d p v) s = .next ((s.setReg (sdmPart d.val p.val) (BitVec.ofNat 64 (RegName.written .SDM_PART (s.reg (sdmPart d.val p.val)).toNat v.toNat))).answer .ok 0)) ∧
  (∀ (s : State) (d : Die) (p : Fin 32) (v : Word), Writable s .firmware (sdmPart d.val p.val) → (bits v.toNat 55 55 = 1 → s.partCheck d.val p.val (bits (RegName.written .SDM_PART (s.reg (sdmPart d.val p.val)).toNat v.toNat) SDM_PART.FIRST_BANK.hi SDM_PART.FIRST_BANK.lo) (bits (RegName.written .SDM_PART (s.reg (sdmPart d.val p.val)).toNat v.toNat) SDM_PART.BANKS.hi SDM_PART.BANKS.lo) = none) →
    s.fld (sdmPart d.val p.val) SDM_PART.VALID = 1 → (bits v.toNat 55 55 = 0 ∨ bits (RegName.written .SDM_PART (s.reg (sdmPart d.val p.val)).toNat v.toNat) SDM_PART.LEASE.hi SDM_PART.LEASE.lo ≠ s.fld (sdmPart d.val p.val) SDM_PART.LEASE) →
    exec (.sdmPartWrite .firmware d p v) s = .next (((s.scrubPart d.val p.val).setReg (sdmPart d.val p.val) (BitVec.ofNat 64 (RegName.written .SDM_PART (s.reg (sdmPart d.val p.val)).toNat v.toNat))).answer .ok 0)) ∧
  (∀ (s : State) (a : Actor) (d : Die) (v : Word), Writable s a (wcacheCfg d.val) → bits v.toNat 5 0 ≤ 32 → s.partsMeet d.val 32 (96 - bits v.toNat 5 0) (bits v.toNat 5 0) = false →
    ∃ t : State, exec (.sdmWcacheCfgWrite a d v) s = .next (t.answer .ok 0) ∧ SameRegs s t [wcacheCfg d.val, wcacheStat d.val] ∧ t.mem = s.mem ∧ tget [] t.wcache d.val = [] ∧
      t.fld (wcacheCfg d.val) SDM_WCACHE_CFG.BANKS = bits v.toNat 5 0 ∧ t.reg (wcacheStat d.val) = 0#64) ∧
  (∀ (s : State) (d : Die) (g : Fin 64) (v : Word), Writable s .firmware (astkCfg d.val g.val) → s.fld (astkCfg d.val g.val) ASTK_CFG.ENABLE = 0 →
    bits v.toNat ASTK_CFG.ENABLE.hi ASTK_CFG.ENABLE.lo = 0 →
    exec (.astkCfgWrite .firmware d g v) s =
      .next ((s.setReg (astkCfg d.val g.val) (BitVec.ofNat 64 (setBits (RegName.written .ASTK_CFG (s.reg (astkCfg d.val g.val)).toNat v.toNat) ASTK_CFG.ENABLE.hi ASTK_CFG.ENABLE.lo 0))).answer .ok 0)) ∧
  (∀ (s : State) (a : Actor) (d : Die) (g : Fin 64) (v : Word), Writable s a (astk .ASTK_TOP d.val g.val) → s.fld (astkCfg d.val g.val) ASTK_CFG.ENABLE = 0 → bits v.toNat 31 0 = 0 →
    ∃ t : State, exec (.astkTopWrite a d g v) s = .next (t.answer .ok 0) ∧ t.mem = s.mem ∧ t.cores = s.cores ∧ t.stackTop d.val g.val = 0 ∧ t.stackFloor d.val g.val = 0 ∧ t.frameCount d.val g.val = 0)

/-- Frames of an activation stack (08 R320-R323). OPEN with sixteen frames is refused ST_NO_RESOURCE, over a DRAINING top frame ST_STATE; otherwise it seals a FILLING top frame and sets up frame NFRAMES with BASE at TOP, MB and EXPECT from the
write, STATE FILLING and SEALED, PEAK and SPILLED zero, and counts it. Sealing sets SEALED to TOP − BASE and STATE to SEALED, and where EXPECT is neither zero nor SEALED also MISMATCH and one more MISMATCHES. DRAIN with no frame, another MB
or a DRAINING top frame is refused ST_STATE; otherwise a FILLING top frame is sealed, and then drained, or refused ST_STATE where it has MISMATCH. A refused command sets REFUSED; on a disabled stack both are refused ST_STATE; CMD 3 is
refused ST_RANGE and CMD 0 has no effect. All this in the command's turn (R325). It says where each of these commands completes, with a next state of its own effect: frameOpen, frameDrain, frameNoAction, frameCmdReserved. -/
def Obligations.FrameCommandsSealOpenAndDrain : Prop :=
  (∀ (s u : State) (a : Actor) (d : Die) (g : Fin 64) (v : Word) (n : Nat), Writable s a (astk .ASTK_FCMD d.val g.val) → FrameTurn s d.val g.val u → u.fld (astkCfg d.val g.val) ASTK_CFG.ENABLE = 1 → u.frameCount d.val g.val = n → n < 16 →
    (∀ f st, u.topFrame d.val g.val = some (f, st) → st ≠ 3) →
    ∃ t : State, exec (.frameOpen a d g v) s = .next (t.answer .ok 0) ∧
      OnlyRegs u t [frameReg .ASTK_FRAME d.val g.val n, frameReg .ASTK_FACCT d.val g.val n, frameReg .ASTK_FEXP d.val g.val n, fstat d.val g.val, frameReg .ASTK_FRAME d.val g.val (n - 1), frameReg .ASTK_FACCT d.val g.val (n - 1)] ∧
      t.frameState d.val g.val n = 1 ∧ t.fld (frameReg .ASTK_FRAME d.val g.val n) ASTK_FRAME.BASE = u.stackTop d.val g.val ∧ t.fld (frameReg .ASTK_FRAME d.val g.val n) ASTK_FRAME.MB = bits v.toNat 31 16 ∧
      t.fld (frameReg .ASTK_FEXP d.val g.val n) ASTK_FEXP.EXPECT = bits v.toNat 63 32 ∧ t.fld (frameReg .ASTK_FACCT d.val g.val n) ASTK_FACCT.SEALED = 0 ∧ t.fld (frameReg .ASTK_FACCT d.val g.val n) ASTK_FACCT.PEAK = 0 ∧
      t.fld (frameReg .ASTK_FEXP d.val g.val n) ASTK_FEXP.SPILLED = 0 ∧ t.frameCount d.val g.val = n + 1 ∧
      (∀ f, u.topFrame d.val g.val = some (f, 1) → t.reg (frameReg .ASTK_FRAME d.val g.val f) = (u.seal d.val g.val f).reg (frameReg .ASTK_FRAME d.val g.val f) ∧
        t.reg (frameReg .ASTK_FACCT d.val g.val f) = (u.seal d.val g.val f).reg (frameReg .ASTK_FACCT d.val g.val f) ∧ t.fld (fstat d.val g.val) ASTK_FSTAT.MISMATCHES = (u.seal d.val g.val f).fld (fstat d.val g.val) ASTK_FSTAT.MISMATCHES)) ∧
  (∀ (s u : State) (a : Actor) (d : Die) (g : Fin 64) (v : Word), Writable s a (astk .ASTK_FCMD d.val g.val) → FrameTurn s d.val g.val u → u.fld (astkCfg d.val g.val) ASTK_CFG.ENABLE = 1 → u.frameCount d.val g.val = 16 →
    exec (.frameOpen a d g v) s = .next ((u.setW1c (fstat d.val g.val) ASTK_FSTAT.REFUSED).answer .noResource 0)) ∧
  (∀ (s u : State) (a : Actor) (d : Die) (g : Fin 64) (v : Word) (f : Nat), Writable s a (astk .ASTK_FCMD d.val g.val) → FrameTurn s d.val g.val u → u.fld (astkCfg d.val g.val) ASTK_CFG.ENABLE = 1 → u.frameCount d.val g.val ≠ 16 → u.topFrame d.val g.val = some (f, 3) →
    exec (.frameOpen a d g v) s = .next ((u.setW1c (fstat d.val g.val) ASTK_FSTAT.REFUSED).answer .state 0)) ∧
  (∀ (s : State) (d : Die) (g : Fin 64) (f : Fin 16) (h : Nat), h = s.stackTop d.val g.val - s.fld (frameReg .ASTK_FRAME d.val g.val f.val) ASTK_FRAME.BASE →
    OnlyRegs s (s.seal d.val g.val f.val) [frameReg .ASTK_FRAME d.val g.val f.val, frameReg .ASTK_FACCT d.val g.val f.val, fstat d.val g.val] ∧ (s.seal d.val g.val f.val).frameState d.val g.val f.val = 2 ∧
      (s.seal d.val g.val f.val).fld (frameReg .ASTK_FACCT d.val g.val f.val) ASTK_FACCT.SEALED = h ∧
      (s.fld (frameReg .ASTK_FEXP d.val g.val f.val) ASTK_FEXP.EXPECT ≠ 0 ∧ s.fld (frameReg .ASTK_FEXP d.val g.val f.val) ASTK_FEXP.EXPECT ≠ h →
        (s.seal d.val g.val f.val).fld (frameReg .ASTK_FRAME d.val g.val f.val) ASTK_FRAME.MISMATCH = 1 ∧ (s.seal d.val g.val f.val).fld (fstat d.val g.val) ASTK_FSTAT.MISMATCHES = min 65535 (s.fld (fstat d.val g.val) ASTK_FSTAT.MISMATCHES + 1)) ∧
      (s.fld (frameReg .ASTK_FEXP d.val g.val f.val) ASTK_FEXP.EXPECT = 0 ∨ s.fld (frameReg .ASTK_FEXP d.val g.val f.val) ASTK_FEXP.EXPECT = h →
        (s.seal d.val g.val f.val).fld (frameReg .ASTK_FRAME d.val g.val f.val) ASTK_FRAME.MISMATCH = s.fld (frameReg .ASTK_FRAME d.val g.val f.val) ASTK_FRAME.MISMATCH ∧
        (s.seal d.val g.val f.val).reg (fstat d.val g.val) = s.reg (fstat d.val g.val))) ∧
  (∀ (s u : State) (a : Actor) (d : Die) (g : Fin 64) (v : Word), Writable s a (astk .ASTK_FCMD d.val g.val) → FrameTurn s d.val g.val u → u.fld (astkCfg d.val g.val) ASTK_CFG.ENABLE = 1 →
    (u.frameCount d.val g.val = 0 ∨ ∃ f st, u.topFrame d.val g.val = some (f, st) ∧ (u.fld (frameReg .ASTK_FRAME d.val g.val f) ASTK_FRAME.MB ≠ bits v.toNat 31 16 ∨ st = 3)) →
    exec (.frameDrain a d g v) s = .next ((u.setW1c (fstat d.val g.val) ASTK_FSTAT.REFUSED).answer .state 0)) ∧
  (∀ (s u w : State) (a : Actor) (d : Die) (g : Fin 64) (v : Word) (f st : Nat), Writable s a (astk .ASTK_FCMD d.val g.val) → FrameTurn s d.val g.val u → u.fld (astkCfg d.val g.val) ASTK_CFG.ENABLE = 1 → u.topFrame d.val g.val = some (f, st) →
    u.fld (frameReg .ASTK_FRAME d.val g.val f) ASTK_FRAME.MB = bits v.toNat 31 16 → (st = 1 ∧ w = u.seal d.val g.val f ∨ st = 2 ∧ w = u) →
    (w.fld (frameReg .ASTK_FRAME d.val g.val f) ASTK_FRAME.MISMATCH = 0 → exec (.frameDrain a d g v) s = .next ((w.setFld (frameReg .ASTK_FRAME d.val g.val f) ASTK_FRAME.STATE 3).answer .ok 0)) ∧
    (w.fld (frameReg .ASTK_FRAME d.val g.val f) ASTK_FRAME.MISMATCH = 1 → exec (.frameDrain a d g v) s = .next ((w.setW1c (fstat d.val g.val) ASTK_FSTAT.REFUSED).answer .state 0))) ∧
  (∀ (s u : State) (a : Actor) (d : Die) (g : Fin 64) (v : Word), Writable s a (astk .ASTK_FCMD d.val g.val) → FrameTurn s d.val g.val u → u.fld (astkCfg d.val g.val) ASTK_CFG.ENABLE = 0 →
    exec (.frameOpen a d g v) s = .next ((u.setW1c (fstat d.val g.val) ASTK_FSTAT.REFUSED).answer .state 0) ∧ exec (.frameDrain a d g v) s = .next ((u.setW1c (fstat d.val g.val) ASTK_FSTAT.REFUSED).answer .state 0)) ∧
  (∀ (s u : State) (a : Actor) (d : Die) (g : Fin 64) (v : Word), Writable s a (astk .ASTK_FCMD d.val g.val) → FrameTurn s d.val g.val u → exec (.frameNoAction a d g v) s = .next (u.answer .ok 0)) ∧
  (∀ (s u : State) (a : Actor) (d : Die) (g : Fin 64) (v : Word), Writable s a (astk .ASTK_FCMD d.val g.val) → FrameTurn s d.val g.val u →
    exec (.frameCmdReserved a d g v) s = .next ((u.setW1c (fstat d.val g.val) ASTK_FSTAT.REFUSED).answer .range 0))

/-- Spare channel and power-down (07 R286, R290, R291): with no spare in use FAILED_PC is written, and START begins a copy with PROGRESS 0; a DOWN_REQ while none waits and no copy runs makes the group's request PENDING. It says where each of
these commands completes, with a next state of its own effect: failedPcWrite, hbmSpareStart, downReq. -/
def Obligations.SpareAndPowerDownRequestsStart : Prop :=
  (∀ (s : State) (a : Actor) (d : Die) (k : Fin 4) (v : Word), Writable s a (memc .HBM_SPARE d.val k.val) → s.spareState d.val k.val = 0 →
    ∃ t : State, exec (.failedPcWrite a d ⟨k.val, by omega⟩ v) s = .next (t.answer .ok 0) ∧ OnlyRegs s t [memc .HBM_SPARE d.val k.val] ∧
      t.fld (memc .HBM_SPARE d.val k.val) HBM_SPARE.FAILED_PC = bits v.toNat 13 9 ∧ t.spareState d.val k.val = 0) ∧
  (∀ (s : State) (a : Actor) (d : Die) (k : Fin 4) (v : Word), Writable s a (memc .HBM_SPARE d.val k.val) → s.spareState d.val k.val = 0 →
    ∃ t : State, exec (.hbmSpareStart a d ⟨k.val, by omega⟩ v) s = .next (t.answer .ok 0) ∧ SameRegs s t [memc .HBM_SPARE d.val k.val] ∧ t.mem = s.mem ∧
      t.fld (memc .HBM_SPARE d.val k.val) HBM_SPARE.FAILED_PC = bits v.toNat 13 9 ∧ t.spareState d.val k.val = 1 ∧ t.fld (memc .HBM_SPARE d.val k.val) HBM_SPARE.PROGRESS = 0) ∧
  (∀ (s : State) (a : Actor) (d : Die) (k : Fin 4) (v : Word), Writable s a (memc .HBM_PDN_CTRL d.val k.val) → s.fld (pdnStatus d.val k.val) HBM_PDN_STATUS.PENDING = 0 → s.spareState d.val k.val ≠ 1 →
    bitAt (s.fld (pdnStatus d.val k.val) HBM_PDN_STATUS.DOWN) (bits v.toNat HBM_PDN_CTRL.GROUP.hi HBM_PDN_CTRL.GROUP.lo) = false →
    ∃ t : State, exec (.downReq a d ⟨k.val, by omega⟩ v) s = .next (t.answer .ok 0) ∧ SameRegs s t [memc .HBM_PDN_CTRL d.val k.val, pdnStatus d.val k.val] ∧ t.mem = s.mem ∧
      t.fld (pdnStatus d.val k.val) HBM_PDN_STATUS.PENDING = 1 ∧ (t.ctl d.val k.val).pdn = some (bits v.toNat HBM_PDN_CTRL.GROUP.hi HBM_PDN_CTRL.GROUP.lo, s.now))

/-- Fabric configuration (11 R412, R414, R424): while FAB_CFG.ENABLE is 0, firmware's write of FAB_CFG with ENABLE 0 is taken; a coordinate within the extents of a unit address other than 0 and 0xFFFF is taken with VALID 0, for the unit's own
address only while the fabric is off; a virtual channel's weight and cells are taken while the fabric is off and the cells of all channels sum to at most 4,096. Each changes its register alone. It says where each of these commands
completes, with a next state of its own effect: fabCfgWrite, fabCoordWrite, fabVcWrite. -/
def Obligations.FabricConfigurationIsTaken : Prop :=
  (∀ (s : State) (v : Word), Writable s .firmware fabCfg → s.fld fabCfg FAB_CFG.ENABLE = 0 → bitAt v.toNat FAB_CFG.ENABLE.lo = false →
    exec (.fabCfgWrite .firmware v) s = .next ((s.setReg fabCfg (BitVec.ofNat 64 (RegName.written .FAB_CFG (s.reg fabCfg).toNat v.toNat (s.thisCycle fabCfg)))).answer .ok 0)) ∧
  (∀ (s : State) (u : BitVec 16) (v : Word), Writable s .firmware (fabCoord u.toNat) → u ≠ 0#16 → u ≠ 0xFFFF#16 → bits v.toNat FAB_COORD.X.hi FAB_COORD.X.lo < s.extent 0 →
    bits v.toNat FAB_COORD.Y.hi FAB_COORD.Y.lo < s.extent 1 → bits v.toNat FAB_COORD.Z.hi FAB_COORD.Z.lo < s.extent 2 → (u.toNat ≠ s.self ∨ s.fld fabCfg FAB_CFG.ENABLE = 0) → bitAt v.toNat FAB_COORD.VALID.lo = false →
    exec (.fabCoordWrite .firmware u v) s = .next ((s.setReg (fabCoord u.toNat) (BitVec.ofNat 64 (RegName.written .FAB_COORD (s.reg (fabCoord u.toNat)).toNat v.toNat (s.thisCycle (fabCoord u.toNat))))).answer .ok 0)) ∧
  (∀ (s : State) (vc : Fin 8) (v : Word), Writable s .firmware (fabVc vc.val) → s.fld fabCfg FAB_CFG.ENABLE = 0 →
    (List.range 8).foldl (fun n i => n + (if i == vc.val then bits v.toNat FAB_VC.CELLS.hi FAB_VC.CELLS.lo else s.fld (fabVc i) FAB_VC.CELLS)) 0 ≤ 4096 →
    exec (.fabVcWrite .firmware vc v) s = .next ((s.setReg (fabVc vc.val) (BitVec.ofNat 64 (RegName.written .FAB_VC (s.reg (fabVc vc.val)).toNat v.toNat (s.thisCycle (fabVc vc.val))))).answer .ok 0))

/-- Signals and collectives (11 R439, R442, R444): firmware's write of a signal entry with VALID 0 that names an exposed core is taken, and any write that names another changes nothing and is answered ST_ENGINE_ABSENT (15 R550); of a collective
group that is not VALID, the members and the group word with VALID 0 are taken; a submission with a 64-byte aligned descriptor on an engine with fewer than sixteen waiting is queued last and QUEUED counts it. It says where each of these
commands completes, with a next state of its own effect: collGroupWrite, collSubmit, peerSigWrite. -/
def Obligations.SignalsAndGroupsAreTaken : Prop :=
  (∀ (s : State) (d : Die) (k : Fin 1024) (v : Word), Writable s .firmware (peerSig d.val k.val) → s.exposed d.val (bits v.toNat PEER_SIG.CORE.hi PEER_SIG.CORE.lo) = true → bitAt v.toNat PEER_SIG.VALID.lo = false →
    exec (.peerSigWrite .firmware d k v) s = .next ((s.setReg (peerSig d.val k.val) (BitVec.ofNat 64 (RegName.written .PEER_SIG (s.reg (peerSig d.val k.val)).toNat v.toNat (s.thisCycle (peerSig d.val k.val))))).answer .ok 0)) ∧
  (∀ (s : State) (a : Actor) (d : Die) (k : Fin 1024) (v : Word), Writable s a (peerSig d.val k.val) → s.exposed d.val (bits v.toNat PEER_SIG.CORE.hi PEER_SIG.CORE.lo) = false → exec (.peerSigWrite a d k v) s = .next (s.answer .engineAbsent 0)) ∧
  (∀ (s : State) (io : Die) (g : Fin 64) (v : Word), Writable s .firmware ⟨.COLL_MEMBERS, selIo io.val, g.val, 0⟩ → Writable s .firmware (collGroup io.val g.val) → s.fld (collGroup io.val g.val) COLL_GROUP.VALID = 0 →
    bitAt v.toNat COLL_GROUP.VALID.lo = false →
    ∃ t : State, exec (.collGroupWrite .firmware io g v 0) s = .next (t.answer .ok 0) ∧ SameRegs s t [⟨.COLL_MEMBERS, selIo io.val, g.val, 0⟩, collGroup io.val g.val] ∧ t.mem = s.mem ∧
      t.fld ⟨.COLL_MEMBERS, selIo io.val, g.val, 0⟩ COLL_MEMBERS.MEMBERS = 0 ∧ t.reg (collGroup io.val g.val) = BitVec.ofNat 64 (RegName.written .COLL_GROUP (s.reg (collGroup io.val g.val)).toNat v.toNat)) ∧
  (∀ (s : State) (a : Actor) (io : Die) (v : Word), Writable s a ⟨.COLL_SUBMIT, selIo io.val, 0, 0⟩ → bits v.toNat 5 0 = 0 → (∀ n, actorLease a = some n → s.active n = true ∧ s.snapStopped n = false) →
    (s.coll io.val).queue.length < 16 →
    ∃ t : State, exec (.collSubmit a io v) s = .next (t.answer .ok 0) ∧ SameRegs s t [collStatus io.val] ∧ t.mem = s.mem ∧
      t.coll io.val = { s.coll io.val with queue := (s.coll io.val).queue ++ [(bits v.toNat 47 0, actorLease a)] } ∧ t.fld (collStatus io.val) COLL_STATUS.QUEUED = (s.coll io.val).queue.length + 1)

/-- Mailboxes (13 R484, R485, R487, R488, R490): a message word of a mailbox that is not full is written and nothing else changed; a write of any word of a full one overwrites that word alone, sets COLLISION and leaves it FULL; the commit word
makes the mailbox FULL and starts its timer; a take returns word 7, empties a full mailbox and sets EMPTIED; of a take and writes of one cycle the take is performed first (R486): it returns the word before them, COLLISION is as it was
before them, and FULL stays for a commit among them; a take of a mailbox that is not full returns word 7 alone; bells are ored in; firmware's configuration zeroes the mailbox; a full mailbox whose time has run out sets TIMEOUT. It says
where each of these commands completes, with a next state of its own effect: eyeMsgWrite, eyeCommit, eyeTake, eyeTimeout, eyeDbSet, eyeCfgWrite. -/
def Obligations.MailboxesFillRingAndEmpty : Prop :=
  (∀ (s : State) (a : Actor) (d : Die) (m : Fin 512) (k : Fin 7) (v : Word), Writable s a (eyeMsg d.val m.val k.val) → s.eyeFull d.val m.val = false →
    ∃ w : EyeWrite, exec (.eyeMsgWrite a d m k v) s = .next ((({ s with eyeWrites := tset s.eyeWrites (d.val * 512 + m.val) w } : State).setReg (eyeMsg d.val m.val k.val) v).answer .ok 0)) ∧
  (∀ (s : State) (a : Actor) (d : Die) (m : Fin 512) (k : Fin 8) (v : Word) (c : Instr), (k.val < 7 ∧ (∃ j : Fin 7, j.val = k.val ∧ c = .eyeMsgWrite a d m j v) ∨ k.val = 7 ∧ c = .eyeCommit a d m v) →
    Writable s a (eyeMsg d.val m.val k.val) → s.eyeFull d.val m.val = true →
    ∃ t : State, exec c s = .next (t.answer .ok 0) ∧ t.reg (eyeMsg d.val m.val k.val) = v ∧ (∀ j, j < 8 → j ≠ k.val → t.reg (eyeMsg d.val m.val j) = s.reg (eyeMsg d.val m.val j)) ∧
      t.fld (eye .EYE_STATUS d.val m.val) EYE_STATUS.COLLISION = 1 ∧ t.fld (eye .EYE_STATUS d.val m.val) EYE_STATUS.FULL = 1 ∧ t.mem = s.mem ∧ t.cores = s.cores) ∧
  (∀ (s : State) (a : Actor) (d : Die) (m : Fin 512) (v : Word), Writable s a (eyeMsg d.val m.val 7) →
    ∃ t : State, exec (.eyeCommit a d m v) s = .next (t.answer .ok 0) ∧ t.mem = s.mem ∧ t.cores = s.cores ∧ t.reg (eyeMsg d.val m.val 7) = v ∧ t.fld (eye .EYE_STATUS d.val m.val) EYE_STATUS.FULL = 1 ∧
      t.fld (eye .EYE_STATUS d.val m.val) EYE_STATUS.COLLISION = (if s.eyeFull d.val m.val = true then 1 else s.fld (eye .EYE_STATUS d.val m.val) EYE_STATUS.COLLISION) ∧
      tget? t.eyeCommits (d.val * 512 + m.val) = some s.now) ∧
  (∀ (s : State) (a : Actor) (d : Die) (m : Fin 512), Readable s a (eyeMsg d.val m.val 7) → s.eyeFull d.val m.val = true → s.eyeNow d.val m.val = none →
    ∃ t : State, exec (.eyeTake a d m) s = .next t ∧ t.access = ⟨.ok, s.reg (eyeMsg d.val m.val 7)⟩ ∧ t.mem = s.mem ∧ t.cores = s.cores ∧
      t.fld (eye .EYE_STATUS d.val m.val) EYE_STATUS.FULL = 0 ∧ t.fld (eye .EYE_STATUS d.val m.val) EYE_STATUS.EMPTIED = 1) ∧
  (∀ (s : State) (a : Actor) (d : Die) (m : Fin 512) (w : EyeWrite), Readable s a (eyeMsg d.val m.val 7) → s.eyeFull d.val m.val = true → s.eyeNow d.val m.val = some w →
    ∃ t : State, exec (.eyeTake a d m) s = .next t ∧ t.access = ⟨.ok, w.word⟩ ∧ t.mem = s.mem ∧ t.cores = s.cores ∧ t.fld (eye .EYE_STATUS d.val m.val) EYE_STATUS.FULL = flag w.committed ∧
      t.fld (eye .EYE_STATUS d.val m.val) EYE_STATUS.COLLISION = flag w.collided ∧ t.fld (eye .EYE_STATUS d.val m.val) EYE_STATUS.EMPTIED = 1) ∧
  (∀ (s : State) (a : Actor) (d : Die) (m : Fin 512), Readable s a (eyeMsg d.val m.val 7) → s.eyeFull d.val m.val = false → exec (.eyeTake a d m) s = .next (s.answer .ok (s.reg (eyeMsg d.val m.val 7)))) ∧
  (∀ (s : State) (a : Actor) (d : Die) (m : Fin 512) (v : Word), Writable s a (eye .EYE_DB_SET d.val m.val) →
    ∃ t : State, exec (.eyeDbSet a d m v) s = .next (t.answer .ok 0) ∧ t.mem = s.mem ∧ t.cores = s.cores ∧
      t.fld (eye .EYE_DB d.val m.val) EYE_DB.BELLS = s.fld (eye .EYE_DB d.val m.val) EYE_DB.BELLS ||| bits v.toNat 31 0) ∧
  (∀ (s : State) (d : Die) (m : Fin 512) (v : Word), Writable s .firmware (eye .EYE_CFG d.val m.val) →
    ∃ t : State, exec (.eyeCfgWrite .firmware d m v) s = .next (t.answer .ok 0) ∧ t.mem = s.mem ∧ t.cores = s.cores ∧ t.reg (eye .EYE_CFG d.val m.val) = BitVec.ofNat 64 (RegName.written .EYE_CFG (s.reg (eye .EYE_CFG d.val m.val)).toNat v.toNat) ∧
      (∀ k, k < 8 → t.reg (eyeMsg d.val m.val k) = 0#64) ∧ t.reg (eye .EYE_STATUS d.val m.val) = 0#64 ∧ t.reg (eye .EYE_DB d.val m.val) = 0#64 ∧ t.reg (eye .EYE_DB_MASK d.val m.val) = 0#64) ∧
  (∀ (s : State) (d : Die) (m : Fin 512) (c : Nat), s.life = .running → tget? s.eyeCommits (d.val * 512 + m.val) = some c → s.fld (eye .EYE_CFG d.val m.val) EYE_CFG.CLASS ≠ 0 →
    s.fld (eye .EYE_STATUS d.val m.val) EYE_STATUS.FULL = 1 → c + s.fld (eye .EYE_CFG d.val m.val) EYE_CFG.TMO_US * 1100 ≤ s.now →
    ∃ t : State, exec (.eyeTimeout d m) s = .next t ∧ t.mem = s.mem ∧ t.cores = s.cores ∧ t.fld (eye .EYE_STATUS d.val m.val) EYE_STATUS.TIMEOUT = 1 ∧ tget? t.eyeCommits (d.val * 512 + m.val) = none)

/-- Interrupt controllers (13 R493, R495, R497, R499-R502): a notification read pops the oldest entry; a software source is made PENDING; a claim answers the source it receives, which leaves PENDING for ACTIVE; a completion by the claimant ends
ACTIVE; a write of PENDING that names no source clears the word's sources but those that hardware has set in this same cycle (R502) and those of a line at 1; round robin moves past a target that has not claimed within 1,024 cycles, and not
before; a filtered line that has held a new level for FILTER cycles changes. The concentrator that works is SV0's, and SV1's once SV1 has taken over (R491). It says where each of these commands completes, with a next state of its own
effect: icRingNoteRead, icSwset, icClaim, icComplete, icPendingWrite, rrAdvance, filteredLineChange. -/
def Obligations.InterruptsAreRaisedClaimedAndCompleted : Prop :=
  (∀ (s : State) (a : Actor) (c : CoreId) (n : RingNote) (l : List RingNote), Readable s a (coreReg .IC_RING_NOTE (ckey c)) → (s.core (ckey c)).notes = n :: l →
    ∃ t : State, exec (.icRingNoteRead a c) s = .next t ∧ t.access.status = .ok ∧ bits t.access.value.toNat 63 63 = 1 ∧ bits t.access.value.toNat 13 0 = n.ring % 2 ^ 14 ∧ (t.core (ckey c)).notes = l ∧ t.mem = s.mem) ∧
  (∀ (s : State) (a : Actor) (ic : IcId) (v : Word), Writable s a (icReg .IC_SWSET (icKey ic) 0) → 0x340 ≤ bits v.toNat 9 0 → bits v.toNat 9 0 ≤ 0x37F → sourceListed (icKey ic) (bits v.toNat 9 0) = true →
    ∃ t : State, exec (.icSwset a ic v) s = .next (t.answer .ok 0) ∧ SameRegs s t [icPending (icKey ic) (bits v.toNat 9 0)] ∧ t.mem = s.mem ∧ t.isPending (icKey ic) (bits v.toNat 9 0) = true) ∧
  (∀ (s : State) (ic : IcId) (n : Fin 16) (x : Nat), s.life = .running → s.icLive (icKey ic) = true → n.val < icTargets (icKey ic) → s.claimChoice (icKey ic) n.val = some x → x < 1024 →
    ∃ t : State, exec (.icClaim ic n) s = .next t ∧ t.access = ⟨.ok, BitVec.ofNat 64 x⟩ ∧ t.isPending (icKey ic) x = false ∧ t.isActive (icKey ic) x = true ∧ tget? t.claimedBy (icKey ic * 1024 + x) = some n.val ∧ t.mem = s.mem) ∧
  (∀ (s : State) (ic : IcId) (n : Fin 16) (v : Word), s.life = .running → s.icLive (icKey ic) = true → n.val < icTargets (icKey ic) → s.isActive (icKey ic) (bits v.toNat 9 0) = true →
    tget? s.claimedBy (icKey ic * 1024 + bits v.toNat 9 0) = some n.val →
    ∃ t : State, exec (.icComplete ic n v) s = .next (t.answer .ok 0) ∧ t.isActive (icKey ic) (bits v.toNat 9 0) = false ∧ tget? t.claimedBy (icKey ic * 1024 + bits v.toNat 9 0) = none ∧ t.mem = s.mem) ∧
  (∀ (s : State) (a : Actor) (ic : IcId) (w : Fin 16), Writable s a (icReg .IC_PENDING (icKey ic) w.val) →
    ∃ t : State, exec (.icPendingWrite a ic w 0) s = .next (t.answer .ok 0) ∧ t.mem = s.mem ∧ t.cores = s.cores ∧
      ∀ b, b < 64 → t.isPending (icKey ic) (64 * w.val + b) = true → bitAt (s.thisCycle (icReg .IC_PENDING (icKey ic) w.val)) b = true ∨ sourceLevel (icKey ic) (64 * w.val + b) = true ∧ s.levelLine (icKey ic) (64 * w.val + b) = true) ∧
  (∀ (s : State) (ic : IcId) (x : Fin 1024) (n : Nat), s.life = .running → s.icLive (icKey ic) = true → s.deliverable (icKey ic) x.val = true → s.rounds (icKey ic) x.val = true → nonMaskable (icKey ic) x.val = false → s.rrTarget (icKey ic) x.val = some n →
    exec (.rrAdvance ic x) s = .next (if s.now < tget 0 s.rrSince (icKey ic * 1024 + x.val) + 1024 then s
      else { s with roundRobin := tset s.roundRobin (icKey ic * 1024 + x.val) (n + 1), rrSince := tset s.rrSince (icKey ic * 1024 + x.val) s.now })) ∧
  (∀ (s : State) (ic : IcId) (x : Fin 1024), s.life = .running → s.icLive (icKey ic) = true → sourceFiltered (icKey ic) x.val = true → s.filteredHigh.contains (icKey ic * 1024 + x.val) = true → s.lineHeld (icKey ic) x.val false = true →
    exec (.filteredLineChange ic x false) s =
      .next { s with filteredHigh := sdel s.filteredHigh (icKey ic * 1024 + x.val), pulses := tdel s.pulses (icKey ic * 1024 + x.val) }) ∧
  (∀ (s : State) (ic : IcId) (x : Fin 1024), s.life = .running → s.icLive (icKey ic) = true → sourceFiltered (icKey ic) x.val = true → sourceLevel (icKey ic) x.val = false → s.filteredHigh.contains (icKey ic * 1024 + x.val) = false →
    s.lineHeld (icKey ic) x.val true = true →
    ∃ t : State, exec (.filteredLineChange ic x true) s = .next t ∧ t.isPending (icKey ic) x.val = true ∧ t.filteredHigh = sins s.filteredHigh (icKey ic * 1024 + x.val))

/-- Host port reads (14 R531, R532): a HEAD of the FIFO or of the landing area between its old value and TAIL is taken and TAIL stays; a DROP_REST of a packet not yet closed marks the rest of it for dropping, and of one that is closed drops it.
It says where each of these commands completes, with a next state of its own effect: hpFifoHeadWrite, hpLandHeadWrite, dropRest. -/
def Obligations.HostFifoPointersAdvance : Prop :=
  (∀ (s : State) (a : Actor) (h : Fin 2) (v : Word), Writable s a (hp .HP_FIFO_PTR h.val) → (s.rx h.val).dropping = false → 0 ≤ diff32 (bits v.toNat 31 0) (s.fld (hp .HP_FIFO_PTR h.val) HP_FIFO_PTR.HEAD) →
    0 ≤ diff32 (s.fld (hp .HP_FIFO_PTR h.val) HP_FIFO_PTR.TAIL) (bits v.toNat 31 0) →
    diff32 (bits v.toNat 31 0) (s.fld (hp .HP_FIFO_PTR h.val) HP_FIFO_PTR.HEAD) ≤ diff32 (s.fld (hp .HP_FIFO_PTR h.val) HP_FIFO_PTR.TAIL) (s.fld (hp .HP_FIFO_PTR h.val) HP_FIFO_PTR.HEAD) →
    ∃ t : State, exec (.hpFifoHeadWrite a h v) s = .next (t.answer .ok 0) ∧ SameRegs s t [hp .HP_FIFO_PTR h.val] ∧ t.mem = s.mem ∧ t.fld (hp .HP_FIFO_PTR h.val) HP_FIFO_PTR.HEAD = bits v.toNat 31 0 ∧
      t.fld (hp .HP_FIFO_PTR h.val) HP_FIFO_PTR.TAIL = s.fld (hp .HP_FIFO_PTR h.val) HP_FIFO_PTR.TAIL) ∧
  (∀ (s : State) (a : Actor) (h : Fin 2) (v : Word), Writable s a (hp .HP_LAND_PTR h.val) → (s.rx h.val).dropping = false → 0 ≤ diff32 (bits v.toNat 31 0) (s.fld (hp .HP_LAND_PTR h.val) HP_FIFO_PTR.HEAD) →
    0 ≤ diff32 (s.fld (hp .HP_LAND_PTR h.val) HP_FIFO_PTR.TAIL) (bits v.toNat 31 0) →
    diff32 (bits v.toNat 31 0) (s.fld (hp .HP_LAND_PTR h.val) HP_FIFO_PTR.HEAD) ≤ diff32 (s.fld (hp .HP_LAND_PTR h.val) HP_FIFO_PTR.TAIL) (s.fld (hp .HP_LAND_PTR h.val) HP_FIFO_PTR.HEAD) →
    ∃ t : State, exec (.hpLandHeadWrite a h v) s = .next (t.answer .ok 0) ∧ OnlyRegs s t [hp .HP_LAND_PTR h.val] ∧ t.fld (hp .HP_LAND_PTR h.val) HP_FIFO_PTR.HEAD = bits v.toNat 31 0 ∧
      t.fld (hp .HP_LAND_PTR h.val) HP_FIFO_PTR.TAIL = s.fld (hp .HP_LAND_PTR h.val) HP_FIFO_PTR.TAIL) ∧
  (∀ (s : State) (a : Actor) (h : Fin 2) (v : Word) (pk : FifoPkt), Writable s a (hp .HP_FIFO_CTRL h.val) → s.fld (hp .HP_FIFO_PTR h.val) HP_FIFO_PTR.HEAD ≠ s.fld (hp .HP_FIFO_PTR h.val) HP_FIFO_PTR.TAIL →
    s.headPacket h.val = some pk → pk.closed = false →
    exec (.dropRest a h v) s = .next ((s.setRx h.val { s.rx h.val with dropping := true }).answer .ok 0)) ∧
  (∀ (s : State) (a : Actor) (h : Fin 2) (v : Word) (pk : FifoPkt), Writable s a (hp .HP_FIFO_CTRL h.val) → s.fld (hp .HP_FIFO_PTR h.val) HP_FIFO_PTR.HEAD ≠ s.fld (hp .HP_FIFO_PTR h.val) HP_FIFO_PTR.TAIL →
    s.headPacket h.val = some pk → pk.closed = true → exec (.dropRest a h v) s = .next ((s.dropPacket h.val pk).answer .ok 0))

/-- Host-class cores and range operations (12 R470, R474): a quiesced core other than HC0 is bound by firmware as the value says; a range operation on an idle die over permitted rows that the die holds performs its cache operation on every row
and is BUSY until its end, when a cycle has passed for each row, which performs its write-backs and raises the die's source; one on a busy die is refused ST_BUSY and sets REFUSED. It says where each of these commands completes, with a next
state of its own effect: l3RangeInval, l3RangeClean, l3RangeFlush, l3RangeEnd, hcBindWrite. -/
def Obligations.HostCoresBindAndRangesRun : Prop :=
  (∀ (s : State) (h : HcId) (v : Word), Writable s .firmware (hcReg .HC_BIND (hcKey h)) → h.h ≠ 0 → s.fld (hcReg .HC_STATUS (hcKey h)) HC_STATUS.QUIESCED = 1 → bitAt v.toNat HC_BIND.VALID.lo = true →
    ∃ t : State, exec (.hcBindWrite .firmware h v) s = .next (t.answer .ok 0) ∧ t.hcLease (hcKey h) = some (bits v.toNat HC_BIND.LEASE.hi HC_BIND.LEASE.lo) ∧ t.fld (hcReg .HC_STATUS (hcKey h)) HC_STATUS.BOUND = 1 ∧
      t.fld (hcReg .HC_STATUS (hcKey h)) HC_STATUS.QUIESCED = 0) ∧
  (∀ (s : State) (a : Actor) (d : Die) (n : BitVec 24) (rows : List Nat), Writable s a (l3Reg .L3_RANGE_CTL d.val) → s.fld (l3Reg .L3_RANGE_STATUS d.val) L3_RANGE_STATUS.BUSY = 0 → n ≠ 0#24 → (∀ l, actorLease a = some l → s.active l = true ∧ s.snapStopped l = false) →
    s.findSpan (actorLease a) (s.fld (l3Reg .L3_RANGE_BASE d.val) L3_RANGE_BASE.BASE) (s.fld (l3Reg .L3_RANGE_BASE d.val) L3_RANGE_BASE.BASE + 512 * n.toNat - 1) = none →
    s.l3Rows d.val (s.fld (l3Reg .L3_RANGE_BASE d.val) L3_RANGE_BASE.BASE) n.toNat = some rows →
    exec (.l3RangeInval a d n) s = .next ((s.rangeBegun a d.val n.toNat 0 rows).answer .ok 0) ∧
    exec (.l3RangeClean a d n) s = .next ((s.rangeBegun a d.val n.toNat 1 rows).answer .ok 0) ∧
    exec (.l3RangeFlush a d n) s = .next ((s.rangeBegun a d.val n.toNat 2 rows).answer .ok 0)) ∧
  (∀ (s : State) (a : Actor) (d : Die) (n : BitVec 24), Writable s a (l3Reg .L3_RANGE_CTL d.val) → s.fld (l3Reg .L3_RANGE_STATUS d.val) L3_RANGE_STATUS.BUSY = 1 →
    exec (.l3RangeInval a d n) s = .next ((s.setW1c (l3Reg .L3_RANGE_STATUS d.val) L3_RANGE_STATUS.REFUSED).answer .busy 0) ∧
    exec (.l3RangeClean a d n) s = .next ((s.setW1c (l3Reg .L3_RANGE_STATUS d.val) L3_RANGE_STATUS.REFUSED).answer .busy 0) ∧
    exec (.l3RangeFlush a d n) s = .next ((s.setW1c (l3Reg .L3_RANGE_STATUS d.val) L3_RANGE_STATUS.REFUSED).answer .busy 0)) ∧
  (∀ (s : State) (d : Die), s.life = .running → s.fld (l3Reg .L3_RANGE_STATUS d.val) L3_RANGE_STATUS.BUSY = 1 → tget 0 s.rangeDue d.val ≤ s.now → s.writeBacks.all (fun w => w.by' != 64 + d.val) = true →
    ∃ t : State, exec (.l3RangeEnd d) s = .next t ∧ t.fld (l3Reg .L3_RANGE_STATUS d.val) L3_RANGE_STATUS.BUSY = 0 ∧ t.fld (l3Reg .L3_RANGE_STATUS d.val) L3_RANGE_STATUS.LAST_STATUS = 0 ∧ t.isPending d.val 0xC2 = true ∧ t.mem = s.mem ∧ t.cached = s.cached)

/-- Cache operations of a host-class core on a row it may access, with no write-back of it on its way (12 R461-R464): INVAL discards the cached row; in user mode, and FLUSH, send its contents back first where it is dirty; CLEAN keeps it clean
in the cache; ZERO sends a row of zeros to memory; FENCE performs the core's write-backs. A load or fetch of a cached row in which no error is met answers its bytes; a store makes the row dirty and ends other cores' reservations of its
line. A load-reserved takes a reservation; a store-conditional stores and gives 0 while it is held, and otherwise gives 1 and stores nothing; an atomic operation gives the old value and stores its result. A clean row with an uncorrectable
word in it is counted and discarded, to be fetched again; a dirty one is poisoned (R471). It says where each of these commands completes, with a next state of its own effect: cboInval, cboClean, cboFlush, cboZero, fence, l3DemandFill. -/
def Obligations.CacheOperationsActOnTheRow : Prop :=
  (∀ (s u : State) (h : HcId) (addr : BitVec 48) (row : Nat) (c : CachedRow) (b : Bool), HcReaches s h addr.toNat 1 u → s.hcRow (hcKey h) addr.toNat = .ok row → s.writeBacks = [] → tget? s.cached row = some c → c.dirty = false →
    (∃ t : State, exec (.cboInval h addr b) s = .next (t.answer .ok 0) ∧ tget? t.cached row = none ∧ (∀ j, j ≠ row → tget? t.cached j = tget? s.cached j) ∧ t.writeBacks = [] ∧ t.mem = s.mem ∧ t.reqs = s.reqs) ∧
    exec (.cboClean h addr) s = .next (u.answer .ok 0) ∧
    (∃ t : State, exec (.cboFlush h addr) s = .next (t.answer .ok 0) ∧ tget? t.cached row = none ∧ (∀ j, j ≠ row → tget? t.cached j = tget? s.cached j) ∧ t.writeBacks = [] ∧ t.mem = s.mem ∧ t.reqs = s.reqs)) ∧
  (∀ (s u : State) (h : HcId) (addr : BitVec 48) (row : Nat) (c : CachedRow), HcReaches s h addr.toNat 1 u → s.hcRow (hcKey h) addr.toNat = .ok row → s.writeBacks = [] → tget? s.cached row = some c → c.dirty = true → (∀ x, x ∈ s.cacheUpsets → x.row ≠ row) →
    (s.runOn (hcKey h) = none → ∃ t : State, exec (.cboInval h addr false) s = .next (t.answer .ok 0) ∧ tget? t.cached row = none ∧ t.writeBacks = [] ∧ t.mem = s.mem) ∧
    (∃ t : State, exec (.cboInval h addr true) s = .next (t.answer .ok 0) ∧ t.writeBacks = [⟨hcKey h, row, c.img, s.hcLease (hcKey h)⟩] ∧ tget? t.cached row = none ∧ t.mem = s.mem) ∧
    (∃ t : State, exec (.cboFlush h addr) s = .next (t.answer .ok 0) ∧ t.writeBacks = [⟨hcKey h, row, c.img, s.hcLease (hcKey h)⟩] ∧ tget? t.cached row = none ∧ t.mem = s.mem) ∧
    (∃ t : State, exec (.cboClean h addr) s = .next (t.answer .ok 0) ∧ t.writeBacks = [⟨hcKey h, row, c.img, s.hcLease (hcKey h)⟩] ∧ tget? t.cached row = some { c with dirty := false } ∧ t.mem = s.mem)) ∧
  (∀ (s u v : State) (h : HcId) (addr : BitVec 48) (row : Nat), HcReaches s h addr.toNat 1 u → s.hcRow (hcKey h) addr.toNat = .ok row →
    v = ({ u with writeBacks := u.writeBacks.filter (fun w => w.row != row), cacheUpsets := u.cacheUpsets.filter (fun x => x.row != row) } : State).bookWrite ⟨.host, hcKey h / 16, hcKey h, s.hcLease (hcKey h), none, true⟩ row 0 ⟨zeroRow, false⟩ →
    ∃ t : State, exec (.cboZero h addr) s = .next (t.answer .ok 0) ∧ t.reqs = v.reqs ∧ t.mem = v.mem ∧ t.writeBacks = v.writeBacks ∧ (∀ c, tget? t.cached row = some c → c.img = ⟨zeroRow, false⟩ ∧ c.dirty = false) ∧ (∀ j, j ≠ row → tget? t.cached j = tget? v.cached j)) ∧
  (∀ (s : State) (h : HcId), s.life = .running → s.hcPaused (hcKey h) = false → exec (.fence h) s = .next (s.performBacks (fun w => w.by' == hcKey h))) ∧
  (∀ (s u : State) (h : HcId) (addr : BitVec 48) (acc : HcAccess) (row : Nat) (c : CachedRow), acc = .load ∨ acc = .fetch → HcReaches s h addr.toNat 8 u → s.hcRow (hcKey h) addr.toNat = .ok row → tget? s.cached row = some c → c.img.poison = false → (∀ x, x ∈ s.cacheUpsets → x.row ≠ row) →
    ∃ t : State, exec (.l3DemandFill h addr acc) s = .next (t.answer .ok (BitVec.ofNat 64 (leNat ((c.img.bytes.drop (addr.toNat % 512)).take 8)))) ∧ t.cached = s.cached ∧ t.mem = s.mem ∧ t.reqs = s.reqs ∧ t.hcReserved = s.hcReserved) ∧
  (∀ (s u : State) (h : HcId) (addr : BitVec 48) (row line : Nat) (c : CachedRow) (l : List Byte), HcReaches s h addr.toNat l.length u → s.hcRow (hcKey h) addr.toNat = .ok row → tget? s.cached row = some c → (∀ x, x ∈ s.cacheUpsets → x.row ≠ row) →
    addr.toNat % 512 + l.length ≤ 512 → line = row * 8 + addr.toNat % 512 / 64 →
    ∃ t : State, exec (.l3DemandFill h addr (.store l)) s = .next (t.answer .ok 0) ∧ t.mem = s.mem ∧ t.reqs = s.reqs ∧ (∀ j, j ≠ hcKey h → tget? t.hcReserved j ≠ some line) ∧
      t.cached = tset s.cached row ⟨⟨c.img.bytes.take (addr.toNat % 512) ++ l ++ c.img.bytes.drop (addr.toNat % 512 + l.length), c.img.poison⟩, true, hcKey h, c.source⟩) ∧
  (∀ (s u : State) (h : HcId) (addr : BitVec 48) (row line o : Nat) (c : CachedRow) (w : Bool) (v : Word), HcReaches s h addr.toNat (wideLen w) u → s.hcRow (hcKey h) addr.toNat = .ok row → tget? s.cached row = some c → c.img.poison = false → (∀ x, x ∈ s.cacheUpsets → x.row ≠ row) →
    addr.toNat % wideLen w = 0 → o = addr.toNat % 512 → line = row * 8 + o / 64 →
    (∃ t : State, exec (.l3DemandFill h addr (.loadReserved w)) s = .next (t.answer .ok (wideValue w (leNat ((c.img.bytes.drop o).take (wideLen w))))) ∧ t.cached = s.cached ∧ t.mem = s.mem ∧ tget? t.hcReserved (hcKey h) = some line) ∧
    (tget? s.hcReserved (hcKey h) ≠ some line →
      ∃ t : State, exec (.l3DemandFill h addr (.storeConditional w v)) s = .next (t.answer .ok 1) ∧ t.cached = s.cached ∧ t.mem = s.mem ∧ tget? t.hcReserved (hcKey h) = none) ∧
    (tget? s.hcReserved (hcKey h) = some line →
      ∃ t : State, exec (.l3DemandFill h addr (.storeConditional w v)) s = .next (t.answer .ok 0) ∧ t.mem = s.mem ∧ tget? t.hcReserved (hcKey h) = none ∧
        t.cached = tset s.cached row ⟨⟨c.img.bytes.take o ++ leBytes (wideLen w) v.toNat ++ c.img.bytes.drop (o + wideLen w), false⟩, true, hcKey h, c.source⟩) ∧
    (∀ (op : AmoOp) (old : Word), old = wideValue w (leNat ((c.img.bytes.drop o).take (wideLen w))) →
      ∃ t : State, exec (.l3DemandFill h addr (.amo op w v)) s = .next (t.answer .ok old) ∧ t.mem = s.mem ∧
        t.cached = tset s.cached row ⟨⟨c.img.bytes.take o ++ leBytes (wideLen w) (amoValue op old (wideValue w v.toNat)).toNat ++ c.img.bytes.drop (o + wideLen w), false⟩, true, hcKey h, c.source⟩)) ∧
  (∀ (s : State) (k row line : Nat) (c : CachedRow) (x : CacheUpset), tget? s.cached row = some c →
    s.cacheUpsets.find? (fun y => y.row == row && y.core == (if (s.hcLines k).l2.contains line then some k else none)) = some x → 0 < x.unc →
    (c.dirty = false → tget? (s.meetCache k row line).cached row = none) ∧ (c.dirty = true → ∃ c', tget? (s.meetCache k row line).cached row = some c' ∧ c'.img = ⟨c.img.bytes, true⟩ ∧ c'.dirty = true) ∧
      (s.meetCache k row line).fld (cacheCnt x) HC_ECC_CNT.UNCORR = satAdd (HC_ECC_CNT.UNCORR.hi + 1 - HC_ECC_CNT.UNCORR.lo) (s.fld (cacheCnt x) HC_ECC_CNT.UNCORR) x.unc ∧ (s.meetCache k row line).mem = s.mem)

/-- Customer code (12 R475, R478, R479): an invocation of a committed image on an item is started on a core of the lease that runs no other; its heap grows up to the slot's limit and past it ends the item ST_NO_RESOURCE; an end within the time
limit is recorded ST_OK or, outside the lease, ST_RANGE; a poisoned read or an output that fails its check lets the item be started once more on another core, and the second time ends it ST_INTEGRITY; an end at or past the time limit, and
the limit itself, end it ST_TIMEOUT. A recorded end leaves memory as it was, and one of the REWARD slot on a prompt makes its completion record ready. It says where each of these commands completes, with a next state of its own effect:
extensionInvoke, codeTimeLimit. -/
def Obligations.InvocationsEndWithTheirStatus : Prop :=
  (∀ (s : State) (n : Fin 256) (j : Fin 5) (x : Nat) (k : HcId) (m : ExtMap), s.life = .running → (s.codeSlot n.val j.val).image.isSome = true → s.snapStopped n.val = false →
    s.extRuns.find? (fun r => r.lease == n.val && r.slot == j.val && r.item == x) = none → s.coreCanRun (hcKey k) n.val none = true →
    exec (.extensionInvoke n j x (.start k m)) s = .next { s with extRuns := s.extRuns ++ [⟨n.val, j.val, x, some (hcKey k), none, m, 0, s.now⟩] }) ∧
  (∀ (s : State) (n : Fin 256) (j : Fin 5) (x : Nat) (k : HcId) (m : ExtMap) (r : ExtRun), s.life = .running → (s.codeSlot n.val j.val).image.isSome = true → s.snapStopped n.val = false →
    s.extRuns.find? (fun r => r.lease == n.val && r.slot == j.val && r.item == x) = some r → r.core = none → s.coreCanRun (hcKey k) n.val r.first = true →
    exec (.extensionInvoke n j x (.start k m)) s = .next { s with extRuns := s.extRuns.map (fun y => if y == r then { r with core := some (hcKey k), map := m, heap := 0, since := s.now } else y) }) ∧
  (∀ (s : State) (n : Fin 256) (j : Fin 5) (x b : Nat) (r : ExtRun), s.life = .running → (s.codeSlot n.val j.val).image.isSome = true → s.snapStopped n.val = false →
    s.extRuns.find? (fun r => r.lease == n.val && r.slot == j.val && r.item == x && r.core.isSome) = some r →
    (b ≤ (s.codeSlot n.val j.val).heap → exec (.extensionInvoke n j x (.heap b)) s = .next { s with extRuns := s.extRuns.map (fun y => if y == r then { r with heap := b } else y) }) ∧
    ((s.codeSlot n.val j.val).heap < b → exec (.extensionInvoke n j x (.heap b)) s = .next (s.extEnd r [] .noResource))) ∧
  (∀ (s : State) (n : Fin 256) (j : Fin 5) (x : Nat) (out : List Byte) (r : ExtRun), s.life = .running → (s.codeSlot n.val j.val).image.isSome = true → s.snapStopped n.val = false →
    s.extRuns.find? (fun r => r.lease == n.val && r.slot == j.val && r.item == x && r.core.isSome) = some r → s.now < r.since + 1100000 * (s.codeSlot n.val j.val).timeMs →
    exec (.extensionInvoke n j x (.ends (.returned out))) s = .next (s.extEnd r out .ok) ∧
    exec (.extensionInvoke n j x (.ends .faultOutside)) s = .next (s.extEnd r [] .range) ∧
    (∀ o : ExtOutcome, (o = .faultPoison ∨ o = .badOutput) →
      (r.first = none → exec (.extensionInvoke n j x (.ends o)) s = .next { s with extRuns := s.extRuns.map (fun y => if y == r then { r with core := none, first := r.core } else y) }) ∧
      (r.first.isSome = true → exec (.extensionInvoke n j x (.ends o)) s = .next (s.extEnd r [] .integrity)))) ∧
  (∀ (s : State) (n : Fin 256) (j : Fin 5) (x : Nat) (o : ExtOutcome) (r : ExtRun), s.life = .running → (s.codeSlot n.val j.val).image.isSome = true → s.snapStopped n.val = false →
    s.extRuns.find? (fun r => r.lease == n.val && r.slot == j.val && r.item == x && r.core.isSome) = some r → r.since + 1100000 * (s.codeSlot n.val j.val).timeMs ≤ s.now →
    exec (.extensionInvoke n j x (.ends o)) s = .next (s.extEnd r [] .timeout)) ∧
  (∀ (s : State) (n : Fin 256) (j : Fin 5), s.life = .running →
    ∃ t : State, exec (.codeTimeLimit n j) s = .next t ∧ t.mem = s.mem ∧ t.cores = s.cores ∧
      ∀ r, r ∈ s.extRuns → r.lease = n.val → r.slot = j.val → r.core.isSome = true → r.since + 1100000 * (s.codeSlot n.val j.val).timeMs ≤ s.now → r ∉ t.extRuns ∧ ⟨n.val, j.val, r.item, .timeout⟩ ∈ t.extDone) ∧
  (∀ (s : State) (r : ExtRun) (out : List Byte) (st : Status), (s.extEnd r out st).extDone = s.extDone ++ [⟨r.lease, r.slot, r.item, st⟩] ∧ (s.extEnd r out st).extRuns = s.extRuns.erase r ∧ (s.extEnd r out st).mem = s.mem ∧
    (s.extEnd r out st).completions = s.completions ++
      (if r.slot = 0 ∧ s.prompts.any (fun p => p.lease == r.lease && p.id == r.item && !p.more) = true then [⟨r.lease, r.item, s.rolloutTokens r.lease r.item ++ out ++ beBytes 2 (code st)⟩] else []))

/-- The reference monitor (16 R569, R570): every window leaves LAST_COUNT; in use, a count outside 100,000 within 500, or a lost reference, ends REF_OK, starts HOLDOVER with its CAUSE and ends a relock; while the reference is judged, the third
window in a row within 200 makes it good. It says where each of these commands completes, with a next state of its own effect: refWindow, refLoss. -/
def Obligations.ReferenceWindowsAreJudged : Prop :=
  (∀ (s : State) (n : Nat), s.life = .running → s.fld clkMon CLK_MON_STATUS.REF_OK = 1 → 99500 ≤ n → n ≤ 100500 → exec (.refWindow n) s = .next (s.setFld clkMon CLK_MON_STATUS.LAST_COUNT n)) ∧
  (∀ (s : State) (n : Nat), s.life = .running → s.fld clkMon CLK_MON_STATUS.REF_OK = 1 → (n < 99500 ∨ 100500 < n) →
    exec (.refWindow n) s = .next ((s.setFld clkMon CLK_MON_STATUS.LAST_COUNT n).refFailed 2)) ∧
  (∀ s : State, s.life = .running → s.fld clkMon CLK_MON_STATUS.REF_OK = 1 → exec .refLoss s = .next (s.refFailed 1)) ∧
  (∀ (s : State) (c : Nat), c < 4 → (s.refFailed c).fld clkMon CLK_MON_STATUS.REF_OK = 0 ∧ (s.refFailed c).fld clkMon CLK_MON_STATUS.HOLDOVER = 1 ∧ (s.refFailed c).fld clkMon CLK_MON_STATUS.CAUSE = c ∧ (s.refFailed c).relockAt = none ∧ (s.refFailed c).mem = s.mem) ∧
  (∀ (s : State) (n : Nat), s.life = .running → s.fld clkMon CLK_MON_STATUS.REF_OK = 0 → s.judging = true → 99800 ≤ n → n ≤ 100200 → s.goodWindows = 2 →
    ∃ t : State, exec (.refWindow n) s = .next t ∧ t.goodWindows = 3 ∧ t.fld clkMon CLK_MON_STATUS.REF_OK = 1 ∧ t.fld clkMon CLK_MON_STATUS.LAST_COUNT = n ∧ SameRegs s t [clkMon] ∧ t.mem = s.mem)

/-- Roots and relock (16 R572, R573, R575): RELOCK in holdover starts a relock, which completes with HOLDOVER 0 on a good reference and gives up after 100 ms; the loss of SV0's root leaves the unit on SV1's standby root with CAUSE 3, and with
no standby root left every island stops; ROOT_SV0 while on standby returns to SV0's root where it has locked again (whether it has is a free value, log 26). It says where each of these commands completes, with a next state of its own
effect: rootSv0Lost, relock, relockComplete, relockTimeout, rootSv0, standbyRootLost. -/
def Obligations.ClockRootsFailOverAndRelock : Prop :=
  (∀ (s : State) (a : Actor) (v : Word), Writable s a ⟨.CLK_CTRL, selSv0, 0, 0⟩ → bitAt v.toNat CLK_CTRL.ROOT_SV0.lo = false → s.fld clkMon CLK_MON_STATUS.HOLDOVER = 1 → s.relockAt = none →
    exec (.relock a v) s = .next ({ s with relockAt := some s.now, goodWindows := 0 }.answer .ok 0)) ∧
  (∀ (s : State) (a : Actor) (v : Word), Writable s a ⟨.CLK_CTRL, selSv0, 0, 0⟩ → bitAt v.toNat CLK_CTRL.RELOCK.lo = false → s.fld clkMon CLK_MON_STATUS.STANDBY = 1 →
    exec (.rootSv0 a v) s = .next (if bitAt (Config.freeWord s.fresh).toNat 0 then ((({ s with fresh := s.fresh + 1 } : State).setFld clkMon CLK_MON_STATUS.STANDBY 0).syncAlerts).answer .ok 0
      else ({ s with fresh := s.fresh + 1 } : State).answer .state 0)) ∧
  (∀ (s : State) (c : Nat), s.life = .running → s.relockAt = some c → s.fld clkMon CLK_MON_STATUS.REF_OK = 1 →
    ∃ t : State, exec .relockComplete s = .next t ∧ t.relockAt = none ∧ t.fld clkMon CLK_MON_STATUS.HOLDOVER = 0 ∧ t.mem = s.mem ∧ t.cores = s.cores) ∧
  (∀ (s : State) (c : Nat), s.life = .running → s.relockAt = some c → s.fld clkMon CLK_MON_STATUS.REF_OK = 0 → c + 110000000 ≤ s.now → exec .relockTimeout s = .next { s with relockAt := none, goodWindows := 0 }) ∧
  (∀ s : State, s.life = .running → s.fld clkMon CLK_MON_STATUS.STANDBY = 0 → s.standbyLost = false →
    ∃ t : State, exec .rootSv0Lost s = .next t ∧ t.life = .running ∧ t.fld clkMon CLK_MON_STATUS.STANDBY = 1 ∧ t.fld clkMon CLK_MON_STATUS.CAUSE = 3 ∧ t.mem = s.mem) ∧
  (∀ s : State, s.life = .running → s.fld clkMon CLK_MON_STATUS.STANDBY = 0 → s.standbyLost = true → exec .rootSv0Lost s = .next { s with life := .rootsLost }) ∧
  (∀ s : State, s.life = .running → exec .standbyRootLost s = .next { s with standbyLost := true, life := if s.fld clkMon CLK_MON_STATUS.STANDBY = 1 then .rootsLost else .running })

/-- Power (16 R567, R577, R579, R585, 15 R559): a gated island wakes; a power sample enters the mean of the last 1,000 and POWER_W; a cluster none of whose cores is bound goes off after 100 ms without use, and its cores' own caches and
reservations are lost; once a millisecond each lease is charged its calibrated energy in its ENERGY word, and the input energy is counted in PWR_ENERGY. It says where each of these commands completes, with a next state of its own effect:
energyAccrue, islandWake, powerSample, clusterPowerOff. -/
def Obligations.PowerIsSampledAndCharged : Prop :=
  (∀ (s : State) (c : CoreId), s.life = .running → (s.core (ckey c)).gated = true → exec (.islandWake c) s = .next (s.setCore (ckey c) { s.core (ckey c) with gated := false })) ∧
  (∀ (s : State) (w : Nat), s.life = .running → s.powerAt + 11000 ≤ s.now → ∃ t : State, exec (.powerSample w) s = .next t ∧ t.powerAt = s.now ∧ t.watts = (w :: s.watts).take 1000 ∧
    t.fld pwrStatus PWR_STATUS.POWER_W = ((w :: s.watts).take 1000).sum / ((w :: s.watts).take 1000).length % 65536 ∧ SameRegs s t [pwrStatus, ⟨.PKG_PIN_STATUS, selSv0, 0, 0⟩] ∧ t.mem = s.mem ∧ t.cores = s.cores) ∧
  (∀ (s : State) (d : Die) (c : Fin 4), s.life = .running → s.clustersOff.contains (4 * d.val + c.val) = false → tget 0 s.clusterUsed (4 * d.val + c.val) + 110000000 ≤ s.now → (∀ i, i < 4 → s.hcLease (4 * (4 * d.val + c.val) + i) = none) →
    exec (.clusterPowerOff d c) s = .next { s with
      clustersOff := s.clustersOff ++ [4 * d.val + c.val], hcCaches := s.hcCaches.filter (fun x => x.1 / 4 != 4 * d.val + c.val), hcReserved := s.hcReserved.filter (fun x => x.1 / 4 != 4 * d.val + c.val) }) ∧
  (∀ (s : State) (e : EnergySample) (x : Nat), s.life = .running → s.energyAt + 1100000 ≤ s.now →
    ∃ t : State, exec (.energyAccrue e x) s = .next t ∧ t.energyAt = s.now ∧ t.mem = s.mem ∧ t.cores = s.cores ∧ (∀ n, n < 256 → t.fld (acct n 44) ACCT.COUNT = satAdd 64 (s.fld (acct n 44) ACCT.COUNT) (s.calibrated e x n)) ∧
      SameRegs s t (⟨.PWR_ENERGY, selSv0, 0, 0⟩ :: (List.range 256).map (fun n => acct n 44)) ∧
      t.fld ⟨.PWR_ENERGY, selSv0, 0, 0⟩ PWR_ENERGY.ENERGY_UJ = (s.fld ⟨.PWR_ENERGY, selSv0, 0, 0⟩ PWR_ENERGY.ENERGY_UJ + x) % 2 ^ (PWR_ENERGY.ENERGY_UJ.hi + 1 - PWR_ENERGY.ENERGY_UJ.lo))

/-- The duty decision (16 R581-R583): above PEAK_W DUTY falls by 4, above SUST_W or 100 C by 1, never below 4; with the sample at most SUST_W and at most 97 C it rises by 1 up to 16; otherwise it stays. LIMITED is 1 exactly while DUTY is below
16, and no memory and no core changes. It says where this command completes, with a next state of its own effect: dutyDecision. -/
def Obligations.DutyFollowsPowerAndHeat : Prop :=
  ∀ (s : State) (w tj : Nat), s.life = .running → s.dutyAt + 110000 ≤ s.now → s.fld pwrStatus PWR_STATUS.DUTY ≤ 16 →
  ∃ t : State, exec (.dutyDecision w tj) s = .next t ∧ t.mem = s.mem ∧ t.cores = s.cores ∧
    t.fld pwrStatus PWR_STATUS.DUTY =
      (if s.p100Above 0 (s.fld pwrLimit PWR_LIMIT.PEAK_W) then max 4 (s.fld pwrStatus PWR_STATUS.DUTY - 4)
       else if s.p100Above 0 (s.fld pwrLimit PWR_LIMIT.SUST_W) || decide (100 < tj) then max 4 (s.fld pwrStatus PWR_STATUS.DUTY - 1)
       else if !s.p100Above w (s.fld pwrLimit PWR_LIMIT.SUST_W) && decide (tj ≤ 97) then min 16 (s.fld pwrStatus PWR_STATUS.DUTY + 1)
       else s.fld pwrStatus PWR_STATUS.DUTY) ∧
    (t.fld pwrStatus PWR_STATUS.LIMITED = 1 ↔ t.fld pwrStatus PWR_STATUS.DUTY < 16)

/-- Debug access (19 R642-R645, R648, R652): VERIFY with no grant and none in progress makes BUSY 1 until it completes; completion answers RESULT 1 with DETAIL 0, or RESULT 2 with the check that failed in DETAIL and GRANTED as before; LOCK ends
the grant and disarms; with PERTURB granted a perturbation register takes a write; with INJECT granted a sound arming is latched; the end of a credit hold releases the die's links; BYPASS changes nothing and IDCODE answers 0x1A4F7C3B; with
the third permission granted a privileged write or read of the test access port acts as firmware's. It says where each of these commands completes, with a next state of its own effect: verify, verifyComplete, lock, pertWrite, injArm,
tapInstruction, creditHoldEnd. -/
def Obligations.DebugGrantsAndInjections : Prop :=
  (∀ (s : State) (a : Actor) (v : Word), Writable s a ⟨.DBG_CTRL, selSv0, 0, 0⟩ → bitAt v.toNat DBG_CTRL.LOCK.lo = false → s.fld dbgStatus DBG_STATUS.GRANTED = 0 → s.verifyAt = none →
    exec (.verify a v) s = .next ((({ s with verifyAt := some s.now } : State).setFld dbgStatus DBG_STATUS.BUSY 1).answer .ok 0)) ∧
  (∀ (s : State) (c : Nat), s.life = .running → s.verifyAt = some c →
    ∃ t : State, exec .verifyComplete s = .next t ∧ t.verifyAt = none ∧ t.fld dbgStatus DBG_STATUS.BUSY = 0 ∧ t.fld dbgStatus DBG_STATUS.RESULT = (if s.tokenFault = 0 then 1 else 2) ∧ t.fld dbgStatus DBG_STATUS.DETAIL = s.tokenFault ∧
      (s.tokenFault ≠ 0 → t.fld dbgStatus DBG_STATUS.GRANTED = s.fld dbgStatus DBG_STATUS.GRANTED) ∧ t.mem = s.mem ∧ t.cores = s.cores) ∧
  (∀ (s : State) (a : Actor) (v : Word), Writable s a ⟨.DBG_CTRL, selSv0, 0, 0⟩ → bitAt v.toNat DBG_CTRL.VERIFY.lo = false →
    ∃ t : State, exec (.lock a v) s = .next (t.answer .ok 0) ∧ t.inject = none ∧ t.fld dbgStatus DBG_STATUS.GRANTED = 0 ∧ (∀ k, t.granted k = false) ∧ t.mem = s.mem ∧ t.cores = s.cores) ∧
  (∀ (s : State) (a : Actor) (d : Die) (v : Word), Writable s a ⟨.PERT_XING, selCd d.val, 0, 0⟩ → s.granted 0 = true → isDcp a = false →
    exec (.pertWrite a (BitVec.ofNat 48 (⟨.PERT_XING, selCd d.val, 0, 0⟩ : Reg).addr) v) s =
      .next (((s.pertKeep ⟨.PERT_XING, selCd d.val, 0, 0⟩).setReg ⟨.PERT_XING, selCd d.val, 0, 0⟩ (BitVec.ofNat 64 (RegName.written .PERT_XING (s.reg ⟨.PERT_XING, selCd d.val, 0, 0⟩).toNat v.toNat (s.thisCycle ⟨.PERT_XING, selCd d.val, 0, 0⟩)))).answer .ok 0)) ∧
  (∀ (s : State) (a : Actor) (v : Word) (x : Inject), Writable s a injCtrl → s.granted 1 = true → s.injArm (setBit v.toNat INJ_CTRL.ARM.lo true) = .ok x →
    ∃ t : State, exec (.injArm a v) s = .next (t.answer .ok 0) ∧ t.inject = some x ∧ SameRegs s t [injCtrl] ∧ t.mem = s.mem ∧ t.cores = s.cores) ∧
  (∀ (s : State) (d : Die), s.life = .running → exec (.creditHoldEnd (.links d)) s = .next { s with linkHeld := s.linkHeld.filter (fun x => x.1 / 16 != d.val) }) ∧
  (∀ s : State, s.powered = true → exec (.tapInstruction .bypass) s = .next s ∧ exec (.tapInstruction .idcode) s = .next (s.answer .ok 0x1A4F7C3B#64)) ∧
  (∀ (s : State) (x : BitVec 48) (v : Word), s.powered = true → s.granted 2 = true →
    exec (.tapInstruction (.privWrite x v)) s = exec (.registerWrite .firmware x v) s ∧ exec (.tapInstruction (.privRead x)) s = s.readCmd .firmware x.toNat)

/-- Start (17 R586, R587, R591, R595, R597): a due start begins stage 1 with the next start number; a passed stage leads to the next; a stage past its bound fails like one that failed; a heartbeat of SV0 is noted, in a start on SV0 that follows
a takeover too; without one for 100 ms, or after a failed self-test of SV0, SV1 takes over in minimal mode with the recovery store's keys; a completed update of the START area carries one SEQ above the highest in all three copies; the
recovery store mirrors area, keys and H0's settings. It says where each of these commands completes, with a next state of its own effect: startBegin, startStage, stageTimeout, heartbeat, sv1Takeover, retainedStoreWrite, recoveryMirror. -/
def Obligations.StartRunsInStages : Prop :=
  (∀ s : State, s.life = .running → s.startDue = true →
    ∃ t : State, exec .startBegin s = .next t ∧ t.stage = 1 ∧ t.startDue = false ∧ t.life = .running ∧ t.startArea.number = (chooseCopy StartArea.factory s.storeStart).1.number + 1 ∧ t.mem = State.reset.mem ∧ t.cores = [] ∧ t.sessions = [] ∧
      t.flash = s.flash ∧ t.storeStart = s.storeStart ∧ t.storeSettings = s.storeSettings) ∧
  (∀ s : State, s.life = .running → s.starting = true → s.stage = 1 → s.now ≤ s.stageAt + ms 50 → exec (.startStage .passed) s = .next (({ s with goodWindows := 0 } : State).stageBegin 2)) ∧
  (∀ s : State, s.life = .running → s.starting = true → s.stage = 7 → s.now ≤ s.stageAt + ms 5000 → exec (.startStage .passed) s = .next (s.stageBegin 8)) ∧
  (∀ (s : State) (x : Nat), s.life = .running → s.starting = true → s.stage = 5 → s.now ≤ s.stageAt + ms 1000 → exec (.startStage (.failed x)) s = .next (s.startFailed 0x08 0)) ∧
  (∀ s : State, s.life = .running → s.starting = true → s.stage = 5 → s.stageAt + ms (stageBound 5) ≤ s.now → exec .stageTimeout s = .next (s.startFailed 0x08 0)) ∧
  (∀ s : State, s.life = .running → (s.sv1 = false ∨ s.minimal = false) → s.sv0Failed = false → exec .heartbeat s = .next { s with heartbeatAt := s.now }) ∧
  (∀ s : State, s.life = .running → (s.sv1 = false ∨ s.minimal = false) → (s.sv0Failed = true ∨ s.heartbeatAt + 110000000 ≤ s.now) →
    ∃ t : State, exec .sv1Takeover s = .next t ∧ t.sv1 = true ∧ t.minimal = true ∧ t.fld startStatus START_STATUS.MODE = 2 ∧ t.mgmtKeys = s.recovery.keys ∧ t.mem = State.reset.mem ∧ t.cores = []) ∧
  (∀ s : State, s.life = .running → s.stage ≠ 9 → s.storeStart.length = 3 →
    ∃ t : State, exec (.retainedStoreWrite 3) s = .next t ∧ t = { s with storeStart := t.storeStart } ∧ t.storeStart.length = 3 ∧
      ∀ x, x ∈ t.storeStart → x.intact = true ∧ x.contents = s.startArea ∧ ∀ y, y ∈ s.storeStart → y.seq < x.seq) ∧
  (∀ s : State, s.life = .running → s.sv1 = false →
    ∃ r, exec .recoveryMirror s = .next { s with recovery := ⟨s.startArea, s.mgmtKeys, r⟩ })

/-- Pins (20 R661-R666, R670-R673): RESET_N low holds every die in reset with ALERT_N[0] low and every memory, core and session at its reset, the trip latch and the flash as they were; its release reads the straps and makes a start due; a lost
supply leaves nothing but what survives; its return makes a start due; an overvoltage, or the second sample in a row at a trip value, records its CAUSE in the trip latch and shuts the unit down; a sample below the trip value clears the
sensor's first; THERMTRIP_N driven low by another device while the unit runs raises the concentrator's line and changes nothing else, while the unit itself drives the pin nothing changes, and its release lowers the line; an alert that no
longer holds is released after 1 ms. It says where each of these commands completes, with a next state of its own effect: resetAssert, resetRelease, powerLoss, powerRestore, vinOvervoltage, junctionSample, thermtripExternal,
alertHoldExpire, thermtripExternalRelease. -/
def Obligations.PinsHoldResetTripAndAlert : Prop :=
  (∀ s : State, s.powered = true → s.resetLow = false →
    ∃ t : State, exec .resetAssert s = .next t ∧ t.life = .inReset ∧ t.resetLow = true ∧ t.mem = State.reset.mem ∧ t.cores = [] ∧ t.sessions = [] ∧ t.fld ⟨.PKG_PIN_STATUS, selSv0, 0, 0⟩ PKG_PIN_STATUS.ALERT = 1 ∧ t.reg pkgTrip = s.reg pkgTrip ∧ t.flash = s.flash) ∧
  (∀ (s : State) (x : BitVec 7), s.life = .inReset → s.resetLow = true → exec (.resetRelease x) s = .next { s with resetLow := false, strap := x.toNat, life := .running, startDue := true }) ∧
  (∀ s : State, s.life ≠ .unpowered →
    ∃ t : State, exec .powerLoss s = .next t ∧ t.life = .unpowered ∧ t.mem = State.reset.mem ∧ t.cores = [] ∧ t.sessions = [] ∧ t.reg pkgTrip = s.reg pkgTrip ∧ t.flash = s.flash ∧ t.storeStart = s.storeStart ∧ t.storeSettings = s.storeSettings ∧ t.grade = s.grade) ∧
  (∀ s : State, s.life = .unpowered → s.resetLow = false → exec .powerRestore s = .next { s with life := .running, startDue := true }) ∧
  (∀ s : State, s.powered = true → ∃ t : State, exec .vinOvervoltage s = .next t ∧ t.life = .overvolted ∧ t.fld pkgTrip PKG_TRIP.CAUSE = 5 ∧ t.fld pkgTrip PKG_TRIP.VALID = 1 ∧ t.fld pkgTrip PKG_TRIP.TEMP = 0) ∧
  (∀ (s : State) (k : Sensor) (sel : Fin 64) (x : Fin 256), s.powered = true → tripValue k ≤ x.val → s.hot.contains (tripCause k * 64 + sel.val) = true →
    ∃ t : State, exec (.junctionSample k sel x) s = .next t ∧ t.life = .tripped ∧ t.fld pkgTrip PKG_TRIP.CAUSE = tripCause k ∧ t.fld pkgTrip PKG_TRIP.VALID = 1 ∧ t.fld pkgTrip PKG_TRIP.TEMP = x.val) ∧
  (∀ (s : State) (k : Sensor) (sel : Fin 64) (x : Fin 256), s.powered = true → x.val < tripValue k → exec (.junctionSample k sel x) s = .next { s with hot := sdel s.hot (tripCause k * 64 + sel.val) }) ∧
  (∀ s : State, s.life = .running → ∃ t : State, exec .thermtripExternal s = .next t ∧ (tget ⟨false, 0⟩ t.rawLines tripKey).level = true ∧ t = { s with rawLines := t.rawLines }) ∧
  (∀ s : State, s.life = .tripped → exec .thermtripExternal s = .next s) ∧
  (∀ s : State, ∃ t : State, exec .thermtripExternalRelease s = .next t ∧ (tget ⟨false, 0⟩ t.rawLines tripKey).level = false ∧ t = { s with rawLines := t.rawLines }) ∧
  (∀ (s : State) (i : Fin 4), s.powered = true → bitAt (s.fld ⟨.PKG_PIN_STATUS, selSv0, 0, 0⟩ PKG_PIN_STATUS.ALERT) i.val = true → s.alertWanted i.val = false → tget 0 s.alertSince i.val + 1100000 ≤ s.now →
    ∃ t : State, exec (.alertHoldExpire i) s = .next t ∧ OnlyRegs s t [⟨.PKG_PIN_STATUS, selSv0, 0, 0⟩] ∧ bitAt (t.fld ⟨.PKG_PIN_STATUS, selSv0, 0, 0⟩ PKG_PIN_STATUS.ALERT) i.val = false)

/-- Enumeration and addresses (17 R604, R606, R607, R609, R610): a host port that is up and has not advertised advertises; an ANNOUNCE never sent before is sent, its time noted, and no memory and no register but the account words changes; a
unit with strap 0 takes position 0 a second after its start, and with port 1 down is the whole chain; the strap gives the position of a unit that enumeration has not reached in 2 s; a recorded address is reclaimed where every recorded port
matches and no other identity carries it. Link-scope packets (17 R605, R606, R609): a sound ANNOUNCE on an up port leaves the sender's address as PARTNER of the port; a TOKEN on port 0 of a unit without a position gives the position it
carries, with CHAIN_SRC 2; a TOKEN_END gives CHAIN_LEN. It says where each of these commands completes, with a next state of its own effect: neighbourAdvertisement, announceSend, enumStart, enumStrapFallback, addressReclaim, announce,
token, tokenEnd. -/
def Obligations.UnitsEnumerateAndTakeLinkPackets : Prop :=
  (∀ (s : State) (h : Fin 2), s.life = .running → s.portUp (.host h) = true → (tget (0, 0) s.adverts (16 + h.val)).1 = 0 →
    exec (.neighbourAdvertisement h) s = .next { s.setRx h.val { s.rx h.val with announced := s.portAnnounces h.val } with adverts := tset s.adverts (16 + h.val) (1, s.now) }) ∧
  (∀ s : State, s.life = .running → s.announcedAt = none → exec .announceSend s = .next s.announce) ∧
  (∀ s : State, s.announce.announcedAt = some s.now ∧ s.announce.mem = s.mem ∧ SameRegs s s.announce accounts) ∧
  (∀ (s : State) (c : Nat), s.life = .running → s.completeAt = some c → s.enumAt = none → c + 1100000000 ≤ s.now → s.strap = 0 → s.portUp (.peer 1) = false →
    ∃ t : State, exec .enumStart s = .next t ∧ t.enumAt = some s.now ∧ t.fld unitAddr UNIT_ADDR.CHAIN_POS = 0 ∧ t.fld unitAddr UNIT_ADDR.CHAIN_SRC = 1 ∧ t.fld unitAddr UNIT_ADDR.CHAIN_LEN = 1 ∧ SameRegs s t [unitAddr] ∧ t.mem = s.mem) ∧
  (∀ (s : State) (c : Nat), s.life = .running → s.enumAt = some c → c + 2200000000 ≤ s.now → s.hasPos = false → s.strap ≠ 0 → s.strap < 127 →
    ∃ t : State, exec .enumStrapFallback s = .next t ∧ OnlyRegs s t [unitAddr] ∧ t.fld unitAddr UNIT_ADDR.CHAIN_POS = s.strap ∧ t.fld unitAddr UNIT_ADDR.CHAIN_SRC = 3) ∧
  (∀ (s : State) (c : Nat) (r : AddrRecord), s.life = .running → s.enumAt = some c → s.addrRecord = some r → s.reclaimDue = true → s.portsMatch r = true → s.foreign = false → s.now ≤ c + 5500000000 → r.addr < 65536 →
    ∃ t : State, exec .addressReclaim s = .next t ∧ t.self = r.addr ∧ t.fld unitAddr UNIT_ADDR.RECLAIMED = 1 ∧ t.reclaimDue = false ∧ SameRegs s t (unitAddr :: accounts) ∧ t.mem = s.mem) ∧
  (∀ (s : State) (q : Fin 16) (p : DftPacket), s.life = .running → s.portUp (.peer q) = true → s.frameOk p = true → linkScope p = true → mgmtKind p = 1 → (s.frameIn q p).2 = true →
    ∃ t : State, exec (.announce q p) s = .next t ∧ t.fld (peerPort .PEER_PORT_STATUS q.val) PEER_PORT_STATUS.PARTNER = leNat (((p.pay.headD ⟨[], false⟩).bytes.drop 2).take 2) % 65536 ∧ t.mem = s.mem ∧ t.cores = s.cores) ∧
  (∀ (s : State) (p : DftPacket), s.life = .running → s.portUp (.peer 0) = true → s.frameOk p = true → linkScope p = true → mgmtKind p = 2 → s.hasPos = false → (s.frameIn 0 p).2 = true →
    ∃ t : State, exec (.token 0 p) s = .next t ∧ t.fld unitAddr UNIT_ADDR.CHAIN_POS = leNat (((p.pay.headD ⟨[], false⟩).bytes.drop 2).take 2) % 65536 ∧ t.fld unitAddr UNIT_ADDR.CHAIN_SRC = 2 ∧ t.mem = s.mem ∧ t.cores = s.cores) ∧
  (∀ (s : State) (q : Fin 16) (p : DftPacket), s.life = .running → s.portUp (.peer q) = true → s.frameOk p = true → linkScope p = true → mgmtKind p = 3 → (s.frameIn q p).2 = true →
    ∃ t : State, exec (.tokenEnd q p) s = .next t ∧ t.fld unitAddr UNIT_ADDR.CHAIN_LEN = leNat (((p.pay.headD ⟨[], false⟩).bytes.drop 2).take 2) % 2 ^ (UNIT_ADDR.CHAIN_LEN.hi + 1 - UNIT_ADDR.CHAIN_LEN.lo) ∧ t.mem = s.mem ∧ t.cores = s.cores)

/-- Repair (18 R615-R617): a marked, exposed core that is unbound takes a spare of its die, and SPARES_LEFT falls by one, or with none left becomes absent and is no longer exposed; a shared bank that met its trigger, with no valid partition on
its die, is retired and counted; the error counters are sampled every 10 s in stage 9. It says where each of these commands completes, with a next state of its own effect: spareCoreMap, rasSample, bankRetire. -/
def Obligations.SparesAndRetirements : Prop :=
  (∀ (s : State) (c : CoreId), s.life = .running → s.marked.contains (ckey c) = true → s.exposed c.die.val c.core.val = true → s.fld (tcBind (ckey c)) TC_BIND.MODE = 0 → (s.core (ckey c)).scrubDue = none → s.fld (rasSpare c.die.val) RAS_SPARE.SPARES_LEFT ≠ 0 →
    ∃ t : State, exec (.spareCoreMap c) s = .next t ∧ t.fld (rasSpare c.die.val) RAS_SPARE.SPARES_LEFT = s.fld (rasSpare c.die.val) RAS_SPARE.SPARES_LEFT - 1 ∧ t.absent = s.absent ∧ t.marked = sdel s.marked (ckey c)) ∧
  (∀ (s : State) (c : CoreId), s.life = .running → s.marked.contains (ckey c) = true → s.exposed c.die.val c.core.val = true → s.fld (tcBind (ckey c)) TC_BIND.MODE = 0 → (s.core (ckey c)).scrubDue = none → s.fld (rasSpare c.die.val) RAS_SPARE.SPARES_LEFT = 0 →
    ∃ t : State, exec (.spareCoreMap c) s = .next t ∧ t.absent = sins s.absent (ckey c) ∧ t.exposed c.die.val c.core.val = false ∧ SameRegs s t [rasSpare c.die.val] ∧ t.mem = s.mem) ∧
  (∀ (s : State) (d : Die) (b : Fin 96), s.life = .running → s.retireDue.contains (d.val, b.val) = true → s.retired.contains (d.val, b.val) = false →
    (∀ p, p < 32 → s.fld (sdmPart d.val p) SDM_PART.VALID = 0) → s.fld (rasSpare d.val) RAS_SPARE.BANKS_RETIRED < 96 →
    ∃ t : State, exec (.bankRetire d b) s = .next t ∧ t.retired = s.retired ++ [(d.val, b.val)] ∧ t.fld (rasSpare d.val) RAS_SPARE.BANKS_RETIRED = s.fld (rasSpare d.val) RAS_SPARE.BANKS_RETIRED + 1 ∧ SameRegs s t [rasSpare d.val] ∧ t.mem = s.mem) ∧
  (∀ s : State, s.life = .running → s.stage = 9 → s.rasAt + 11000000000 ≤ s.now → ∃ t : State, exec .rasSample s = .next t ∧ t.rasAt = s.now)

/-- Slots MA0-MA3, VEC0 and VEC1 (03 R76, R80, R97; 04 R122, R127-R130; 10 R387): a WLD that issues starts its load, a PASS its pass on the named array, ELEM, CONVERT, SPLIT and every kind of DRAIN start their run on their pipeline, as the
words of the bundle say; the slot is then noted as issued. Slots ENG0 and ENG1 (06 R231, R234, R237, R260): ARM starts the next transfer of its channel with its first row, or holds it as the pending re-arm while one runs; REL releases the
channel's oldest half; AWL starts a thread on the first free of 16. It says where each of these commands completes, with a next state of its own effect: wld, pass, elem, convert, split, drain, softmaxStep, softmaxFinal, softmaxMerge, arm,
rel, awl. -/
def Obligations.ArrayVectorAndEngineOperationsIssue : Prop :=
  (∀ (s : State) (c : CoreId) (ma : Fin 4) (q : Kernel) (b : Bundle), SlotIssues s (ckey c) ma.val 1 q b →
    exec (.wld c ma) s = .next (((s.entered (ckey c) q b).startLoad (ckey c) ma.val q (b.op ma.val)).slotDone (ckey c) ma.val b)) ∧
  (∀ (s : State) (c : CoreId) (ma : Fin 4) (q : Kernel) (b : Bundle), SlotIssues s (ckey c) ma.val 2 q b →
    exec (.pass c ma) s = .next (((s.entered (ckey c) q b).startPass (ckey c) ma.val q (b.op ma.val)).slotDone (ckey c) ma.val b)) ∧
  (∀ (s : State) (c : CoreId) (q : Kernel) (b : Bundle), SlotIssues s (ckey c) 4 1 q b →
    exec (.elem c) s = .next (((s.entered (ckey c) q b).startVec (ckey c) 0 (elemRun (b.op 4) ((s.entered (ckey c) q b).ctime (ckey c)) q.idx 0)).slotDone (ckey c) 4 b)) ∧
  (∀ (s : State) (c : CoreId) (q : Kernel) (b : Bundle), SlotIssues s (ckey c) 5 1 q b → exec (.convert c) s = .next (((s.entered (ckey c) q b).startVec1 (ckey c) q (b.op 5)).slotDone (ckey c) 5 b)) ∧
  (∀ (s : State) (c : CoreId) (q : Kernel) (b : Bundle), SlotIssues s (ckey c) 5 2 q b → exec (.split c) s = .next (((s.entered (ckey c) q b).startVec1 (ckey c) q (b.op 5)).slotDone (ckey c) 5 b)) ∧
  (∀ (s : State) (c : CoreId) (q : Kernel) (b : Bundle), SlotIssues s (ckey c) 5 3 q b →
    (s.drainMode (ckey c) = some none → exec (.drain c) s = .next (((s.entered (ckey c) q b).startVec1 (ckey c) q (b.op 5)).slotDone (ckey c) 5 b)) ∧
    (s.drainMode (ckey c) = some (some 0) → exec (.softmaxStep c) s = .next (((s.entered (ckey c) q b).startVec1 (ckey c) q (b.op 5)).slotDone (ckey c) 5 b)) ∧
    (s.drainMode (ckey c) = some (some 1) → exec (.softmaxFinal c) s = .next (((s.entered (ckey c) q b).startVec1 (ckey c) q (b.op 5)).slotDone (ckey c) 5 b)) ∧
    (s.drainMode (ckey c) = some (some 2) → exec (.softmaxMerge c) s = .next (((s.entered (ckey c) q b).startVec1 (ckey c) q (b.op 5)).slotDone (ckey c) 5 b))) ∧
  (∀ (s : State) (c : CoreId) (e : Fin 2) (q : Kernel) (b : Bundle), SlotIssues s (ckey c) (6 + e.val) 1 q b →
    exec (.arm c e) s = .next (((s.entered (ckey c) q b).startXfer (ckey c) (8 * e.val + opf (b.op (6 + e.val)) 6 4) q (b.op (6 + e.val))).slotDone (ckey c) (6 + e.val) b)) ∧
  (∀ (s : State) (k n w : Nat) (q : Kernel), ∃ x : Xfer, x.handle = opf w 63 48 ∧ x.d = streamDesc ((s.core k).descOf (opf w 63 48)) ∧ x.total = x.d.total ∧ x.formed = 0 ∧ x.done = 0 ∧ x.bundle = q.idx ∧
    (((s.core k).chan n).cur = none → (((s.startXfer k n q w).core k).chan n).cur = some x) ∧
    (((s.core k).chan n).cur ≠ none → (((s.startXfer k n q w).core k).chan n).cur = ((s.core k).chan n).cur ∧ (((s.startXfer k n q w).core k).chan n).pend = some x)) ∧
  (∀ (s : State) (c : CoreId) (e : Fin 2) (q : Kernel) (b : Bundle), SlotIssues s (ckey c) (6 + e.val) 2 q b →
    exec (.rel c e) s = .next (((s.entered (ckey c) q b).releaseHalf (ckey c) (8 * e.val + opf (b.op (6 + e.val)) 6 4)).slotDone (ckey c) (6 + e.val) b)) ∧
  (∀ (s : State) (c : CoreId) (e : Fin 2) (q : Kernel) (b : Bundle), SlotIssues s (ckey c) (6 + e.val) 3 q b →
    exec (.awl c e) s = .next (((s.entered (ckey c) q b).startThread (ckey c) e.val q (b.op (6 + e.val))).slotDone (ckey c) (6 + e.val) b)) ∧
  (∀ (s : State) (k e w : Nat) (q : Kernel) (t : Nat), findIdx (fun t => (tget? (s.core k).awl t).isNone) 16 = some t →
    ∃ a : AwlThread, tget? ((s.startThread k e q w).core k).awl t = some a ∧ a.entry = 0 ∧ a.landed = 0 ∧ a.outstanding = 0 ∧ a.stopped = false ∧ a.bundle = q.idx ∧ a.slot = 6 + e)

/-- Slots CTRL and SYNC and the empty bundle (04 R131-R137, R168-R173, R181): WRMASK writes half of a mask register, MARK its ring's RING_MARK, PRED latches the predicate for its window, END ends the kernel and notes NOTIFY, DPRE starts a fill,
LOOP and WAIT only issue, SET and CLEAR send a flag update, WAIT_CLR clears the flag it waited for, TEST sets the predicate, CLAIM records the ring at the target core; a bundle without an operation, or a sound one in a squashed window, is
consumed. It says where each of these commands completes, with a next state of its own effect: emptyBundle, loop, wrmask, dpre, pred, mark, endKernel, set, clear, wait, waitClr, test, claim. -/
def Obligations.SequencerAndSyncOperationsIssue : Prop :=
  (∀ (s : State) (c : CoreId) (q : Kernel) (b : Bundle), SlotIssues s (ckey c) 8 1 q b → exec (.loop c) s = .next ((s.entered (ckey c) q b).slotDone (ckey c) 8 b)) ∧
  (∀ (s : State) (c : CoreId) (q : Kernel) (b : Bundle), SlotIssues s (ckey c) 8 2 q b → exec (.wrmask c) s = .next (((s.entered (ckey c) q b).writeMask (ckey c) (b.op 8)).slotDone (ckey c) 8 b)) ∧
  (∀ (s : State) (c : CoreId) (q : Kernel) (b : Bundle), SlotIssues s (ckey c) 8 3 q b →
    exec (.dpre c) s = .next (((s.entered (ckey c) q b).onCore (ckey c) (fun x => x.prefetch ((s.entered (ckey c) q b).ctime (ckey c)) q.idx (b.op 8))).slotDone (ckey c) 8 b)) ∧
  (∀ (s : State) (c : CoreId) (q : Kernel) (b : Bundle), SlotIssues s (ckey c) 8 4 q b →
    exec (.pred c) s = .next (((s.entered (ckey c) q b).onCore (ckey c) (fun x => { x with kernel := x.kernel.map (fun q => { q with window := opf (b.op 8) 13 4, squash := !q.pred }) })).slotDone (ckey c) 8 b)) ∧
  (∀ (s : State) (c : CoreId) (q : Kernel) (b : Bundle), SlotIssues s (ckey c) 8 5 q b →
    exec (.mark c) s = .next (((s.entered (ckey c) q b).setFld (ringReg .RING_MARK (coreDie (ckey c)) q.ring) RING_MARK.VALUE (opf (b.op 8) 63 32)).slotDone (ckey c) 8 b)) ∧
  (∀ (s : State) (c : CoreId) (q : Kernel) (b : Bundle), SlotIssues s (ckey c) 8 6 q b →
    exec (.endKernel c) s = .next (((s.entered (ckey c) q b).onCore (ckey c) (fun x => { x with kernel := x.kernel.map (fun q => { q with ended := true, notify := opf (b.op 8) 4 4 == 1 }) })).slotDone (ckey c) 8 b)) ∧
  (∀ (s : State) (c : CoreId) (q : Kernel) (b : Bundle), SlotIssues s (ckey c) 9 1 q b → exec (.set c) s = .next (((s.entered (ckey c) q b).sendFlag (ckey c) (b.op 9) true).slotDone (ckey c) 9 b)) ∧
  (∀ (s : State) (c : CoreId) (q : Kernel) (b : Bundle), SlotIssues s (ckey c) 9 2 q b → exec (.clear c) s = .next (((s.entered (ckey c) q b).sendFlag (ckey c) (b.op 9) false).slotDone (ckey c) 9 b)) ∧
  (∀ (s : State) (c : CoreId) (q : Kernel) (b : Bundle), SlotIssues s (ckey c) 9 3 q b → exec (.wait c) s = .next ((s.entered (ckey c) q b).slotDone (ckey c) 9 b)) ∧
  (∀ (s : State) (c : CoreId) (q : Kernel) (b : Bundle), SlotIssues s (ckey c) 9 4 q b →
    exec (.waitClr c) s = .next (((s.entered (ckey c) q b).onCore (ckey c) (fun x => x.clearFlag (s.entered (ckey c) q b).coreClock (opf (b.op 9) 23 14))).slotDone (ckey c) 9 b)) ∧
  (∀ (s : State) (c : CoreId) (q : Kernel) (b : Bundle), SlotIssues s (ckey c) 9 5 q b →
    exec (.test c) s = .next (((s.entered (ckey c) q b).onCore (ckey c) (fun x => x.setPred (x.flags.contains (opf (b.op 9) 23 14)))).slotDone (ckey c) 9 b)) ∧
  (∀ (s : State) (c : CoreId) (q : Kernel) (b : Bundle), SlotIssues s (ckey c) 9 6 q b →
    exec (.claim c) s = .next (((s.entered (ckey c) q b).onCore (syncTarget (ckey c) (b.op 9)) (fun x => { x with claims := tset x.claims (opf (b.op 9) 23 14) (globalRing (coreDie (ckey c)) q.ring) })).slotDone (ckey c) 9 b)) ∧
  (∀ (s : State) (c : CoreId) (q : Kernel) (b : Bundle), s.life = .running → s.mayIssue (ckey c) = some (q, b) → q.squashed = true → q.slots = 0 → s.squashCheck (ckey c) b = none → q.lastIssue ≠ some (s.ctime (ckey c)) →
    exec (.emptyBundle c) s = .next (s.consume (ckey c) b true)) ∧
  (∀ (s : State) (c : CoreId) (q : Kernel) (b : Bundle), s.life = .running → s.mayIssue (ckey c) = some (q, b) → (∀ j, b.has j = false) → q.slots = 0 → s.admission (ckey c) q b = .go →
    exec (.emptyBundle c) s = .next (s.consume (ckey c) b true))

/-- What every operation of a bundle leaves alone, issued, waiting or refused (03 R67, R97; 04 R118-R120): all memory, the clocks, the requests, controllers, update units, pools and sessions, and, for all but CLAIM, every other core. An
operation issued into an admitted bundle that it does not complete leaves every register as it was, but for WLD and the vector operations (the error counts and records of the rows they read), WRMASK (a mask register) and MARK (RING_MARK). -/
def Obligations.SlotOperationsKeepTheRest : Prop :=
  (∀ (c : Instr) (k : CoreId) (j op : Nat) (s t : State), slotOf c = some (k, j, op) → exec c s = .next t →
    t.mem = s.mem ∧ t.now = s.now ∧ t.coreClock = s.coreClock ∧ t.life = s.life ∧ t.pending = s.pending ∧ t.reqs = s.reqs ∧ t.ctls = s.ctls ∧ t.welts = s.welts ∧ t.pools = s.pools ∧ t.sessions = s.sessions ∧
      ((j = 9 → op ≠ 6) → SameCores s t (ckey k))) ∧
  (∀ (c : Instr) (k : CoreId) (j op : Nat) (q : Kernel) (b : Bundle) (s t : State), slotOf c = some (k, j, op) → SlotIssues s (ckey k) j op q b → q.admitted = true → setBit q.slots j true ≠ b.present →
    (j < 4 → op ≠ 1) → j ≠ 4 → j ≠ 5 → (j = 8 → op ≠ 2 ∧ op ≠ 5) → exec c s = .next t → t.regs = s.regs)

/-- Loads, passes, runs and freezes (03 R77, R79, R84, R86, R97, R108-R110): a due load takes its tiles into the shadow registers and leaves the active ones; the next due vector of a pass is read and broadcast, and the sums whose ten cycles are
over are added first, which changes no other array; a pass that has added its last sum and is past M + 10 cycles releases; the next due destination row of a run is written; once the two frozen cycles are over what waited at the crossing is
taken in and a correction of the next core cycle is met. It says where each of these commands completes, with a next state of its own effect: wldComplete, passVector, passRelease, freezeEnd, vecRowWrite. -/
def Obligations.ArraysCompleteAndRelease : Prop :=
  (∀ (s : State) (c : CoreId) (ma : Fin 4) (h : Half) (l : Load), s.life = .running → s.frozen (ckey c) = false → ((s.core (ckey c)).arr ma.val).dueLoad (s.ctime (ckey c)) (halfSel h) = some l →
    exec (.wldComplete c ma h) s = .next (s.onCore (ckey c) (fun x => x.setArr ma.val ((x.arr ma.val).loaded l)))) ∧
  (∀ (m : MatArray) (l : Load), (m.loaded l).activeL = m.activeL ∧ (m.loaded l).activeU = m.activeU ∧ (m.loaded l).passes = m.passes ∧ (∀ x, l.lower = some x → (m.loaded l).shadowL = some x) ∧ (∀ x, l.upper = some x → (m.loaded l).shadowU = some x) ∧
    (l.lower = none → (m.loaded l).shadowL = m.shadowL) ∧ (l.upper = none → (m.loaded l).shadowU = m.shadowU)) ∧
  (∀ (s w : State) (c : CoreId) (ma : Fin 4) (h : Half) (p : PassRun), s.life = .running → s.frozen (ckey c) = false → s.addDue (ckey c) ma.val (halfSel h) = w → ((w.core (ckey c)).arr ma.val).duePass (w.ctime (ckey c)) (halfSel h) = some p →
    exec (.passVector c ma h) s = .next (w.passVector (ckey c) ma.val p)) ∧
  (∀ (s w : State) (c : CoreId) (ma : Fin 4) (h : Half) (p : PassRun), s.life = .running → s.frozen (ckey c) = false → s.addDue (ckey c) ma.val (halfSel h) = w → ((w.core (ckey c)).arr ma.val).doneRun (w.ctime (ckey c)) (halfSel h) = some p →
    ∃ t : State, exec (.passRelease c ma h) s = .next t ∧ ((t.core (ckey c)).arr ma.val).passes = ((w.core (ckey c)).arr ma.val).passes.erase p ∧ SameCores w t (ckey c) ∧ t.mem = w.mem ∧ t.regs = w.regs) ∧
  (∀ (s : State) (k a half : Nat), SameCores s (s.addDue k a half) k ∧ (∀ b, b ≠ a → ((s.addDue k a half).core k).arr b = (s.core k).arr b) ∧ (s.addDue k a half).now = s.now ∧ (s.addDue k a half).coreClock = s.coreClock) ∧
  (∀ (s : State) (k a half : Nat), ((s.core k).arr a).passes = [] → s.addDue k a half = s) ∧
  (∀ (s : State) (c : CoreId) (pipe : Fin 2) (v : VecRun), s.life = .running → s.frozen (ckey c) = false → dueRun (s.ctime (ckey c)) ((s.core (ckey c)).pipe pipe.val) = some v →
    ∃ t : State, exec (.vecRowWrite c pipe) s = .next t ∧ t.mem = (s.vecRow (ckey c) v).1.mem ∧ t.regs = (s.vecRow (ckey c) v).1.regs) ∧
  (∀ (s : State) (c : CoreId) (n : Nat), s.life = .running → (s.core (ckey c)).freezeAt = some n → n + 2 < s.coreClock →
    exec (.freezeEnd c) s = .next ((((s.onCore (ckey c) (fun x => { x with freezeAt := none, frozen := x.frozen + 2 })).takeCrossing (ckey c)).onCore (ckey c) (fun x => { x with crossing := [] })).detect (ckey c)))

/-- Flags (04 R151, R171-R173, 03 R109): the oldest due SET or CLEAR between two cores is sent once its fence is met, and lands when its route's delay has passed, or at the crossing of a frozen core; a bundle that has waited on a flag for
WAIT_TMO is refused ST_TIMEOUT at its SYNC slot. It says where each of these commands completes, with a next state of its own effect: flagDelivery, syncWaitTimeout. -/
def Obligations.FlagsAreDeliveredAndTimeOut : Prop :=
  (∀ (s : State) (x y : CoreId) (o : FlagOp), s.life = .running → s.dueFlag (ckey x) (ckey y) = some o → o.ready = none →
    exec (.flagDelivery x y) s = .next { (s.flagDelay o.src o.dst o.remote).2 with flagOps := s.flagOps.map (fun z => if z == o then { o with ready := some (s.coreClock + (s.flagDelay o.src o.dst o.remote).1) } else z) }) ∧
  (∀ (s : State) (x y : CoreId) (o : FlagOp) (n : Nat), s.life = .running → s.dueFlag (ckey x) (ckey y) = some o → o.ready = some n → s.frozen o.dst = false →
    exec (.flagDelivery x y) s = .next (({ s with flagOps := s.flagOps.erase o } : State).onCore o.dst (fun c => c.applyFlag s.coreClock o.flag o.set))) ∧
  (∀ (c : Core) (n f : Nat), f ∈ (c.applyFlag n f true).flags ∧ (∀ g, g ≠ f → (g ∈ (c.applyFlag n f true).flags ↔ g ∈ c.flags))) ∧
  (∀ (s : State) (x y : CoreId) (o : FlagOp) (n : Nat), s.life = .running → s.dueFlag (ckey x) (ckey y) = some o → o.ready = some n → s.frozen o.dst = true →
    exec (.flagDelivery x y) s = .next (({ s with flagOps := s.flagOps.erase o } : State).onCore o.dst (fun c => { c with crossing := c.crossing ++ [.flag o.flag o.set] }))) ∧
  (∀ (s : State) (c : CoreId) (q : Kernel) (b : Bundle) (n : Nat), s.life = .running → s.mayIssue (ckey c) = some (q, b) → q.waitSince = some n → s.waitsFlag (ckey c) b = true →
    1 ≤ s.fld (ringReg .RING_CFG (coreDie (ckey c)) q.ring) RING_CFG.WAIT_TMO → s.fld (ringReg .RING_CFG (coreDie (ckey c)) q.ring) RING_CFG.WAIT_TMO ≤ 16 →
    n + ms (2 ^ (s.fld (ringReg .RING_CFG (coreDie (ckey c)) q.ring) RING_CFG.WAIT_TMO - 1)) ≤ s.now → exec (.syncWaitTimeout c) s = .next (s.refuse (ckey c) .timeout q.idx 9))

/-- Kernels (04 R160-R162, R145, R137, R138, R166, R177, R178): a free core starts the ring its scheduler chooses, RUNNING; where the lease differs from its HOLDER, or the holder has left the core since, the scrub of the change of holder begins
instead, for the chosen lease (15 R555), and nothing else changes; the fetch takes the next produced words, eight at most, within its 16 KiB; a due fill caches its descriptor; an ended, drained kernel frees and gates its core and leaves its
status in RING_KSTAT; a stopped one whose END has been produced, with no dump asked for, leaves its ring state 5 with RING_PREFIX.EN and RING_CFG.ENABLE 0; the monitor samples every 4 ms. It says where each of these commands completes, with
a next state of its own effect: descFillDone, kernelComplete, kernelStart, ringFetch, monitorSample, prefixDump. -/
def Obligations.KernelsStartFetchAndComplete : Prop :=
  (∀ (s : State) (c : CoreId) (n i : Nat), s.life = .running → (s.core (ckey c)).kernel = none → (s.core (ckey c)).scrubDue = none → s.exposed (coreDie (ckey c)) (coreNum (ckey c)) = true → s.choose (ckey c) = some (n, i) →
    s.fld (tcBind (ckey c)) TC_BIND.HOLDER = n → (s.core (ckey c)).stale = false →
    ∃ (t : State) (q : Kernel), exec (.kernelStart c) s = .next t ∧ (t.core (ckey c)).kernel = some q ∧ q.ring = i ∧ q.lease = n ∧ q.idx = 0 ∧ q.startAt = s.ctime (ckey c) + s.startLatency (ckey c) i ∧ q.ended = false ∧ t.ringStored (coreDie (ckey c)) i = 3 ∧
      (s.fld (ringReg .RING_CFG (coreDie (ckey c)) i) RING_CFG.WHOLE ≠ 1 → SameRegs s t [ringReg .RING_STATUS (coreDie (ckey c)) i] ∧ t.mem = s.mem ∧ SameCores s t (ckey c))) ∧
  (∀ (s : State) (c : CoreId) (n i : Nat), s.life = .running → (s.core (ckey c)).kernel = none → (s.core (ckey c)).scrubDue = none → s.exposed (coreDie (ckey c)) (coreNum (ckey c)) = true → s.choose (ckey c) = some (n, i) →
    (s.fld (tcBind (ckey c)) TC_BIND.HOLDER ≠ n ∨ (s.core (ckey c)).stale = true) →
    exec (.kernelStart c) s = .next (s.onCore (ckey c) (fun x => { x with scrubDue := some n, switchAt := some s.now }))) ∧
  (∀ (s : State) (c : CoreId) (q : Kernel) (n a m : Nat), s.life = .running → (s.core (ckey c)).kernel = some q → s.frozen (ckey c) = false → q.startAt ≤ s.ctime (ckey c) → (s.core (ckey c)).lastFetch ≠ s.ctime (ckey c) + 1 →
    s.engineBusy .ring (coreDie (ckey c)) (coreNum (ckey c)) = false → q.trim.fbase + q.trim.fetched.length = a →
    (diff32 (s.fld (ringReg .RING_PROD (coreDie (ckey c)) q.ring) RING_PROD.TAIL) (a % 2 ^ 32)).toNat = n → min n (min 8 (q.trim.room + 2048 - a)) = m → 0 < m →
    ∃ (t : State) (r : Kernel) (l : List Word), exec (.ringFetch c) s = .next t ∧ (t.core (ckey c)).kernel = some r ∧ r.fetched = q.trim.fetched ++ l ∧ l.length = m ∧
      l = (s.rowWords q.lease none ((List.range m).map (fun j => s.fld (ringReg .RING_BASE (coreDie (ckey c)) q.ring) RING_BASE.BASE + 8 * ((a + j) % s.ringSize (coreDie (ckey c)) q.ring)))).2.1 ∧
      r.fbase = q.trim.fbase ∧ r.pos = q.pos ∧ r.idx = q.idx ∧ t.mem = s.mem) ∧
  (∀ (s : State) (c : CoreId) (h : BitVec 16) (q : Kernel) (f : DescFill), s.life = .running → (s.core (ckey c)).kernel = some q → (s.core (ckey c)).fills.find? (fun f => f.index == hIndex h.toNat) = some f →
    s.frozen (ckey c) = false → f.due ≤ s.ctime (ckey c) → s.engineBusy .desc (coreDie (ckey c)) (coreNum (ckey c)) = false → f.dpre = none →
    s.inPartition (coreDie (ckey c)) (s.fld (s.ringCtx (coreDie (ckey c)) q.ring) CTX_TABLE.BASE_ROW + hIndex h.toNat / 8) 1 q.lease = true →
    ∃ t : State, exec (.descFillDone c h) s = .next t ∧ (t.core (ckey c)).fills = (s.core (ckey c)).fills.erase f ∧ ((t.core (ckey c)).desc (hIndex h.toNat)).isSome = true) ∧
  (∀ (s : State) (c : CoreId) (q : Kernel), s.life = .running → (s.core (ckey c)).kernel = some q → q.ring < 16384 → q.ended = true → q.stopped = false → s.frozen (ckey c) = false → s.drained (ckey c) = true →
    ∃ t : State, exec (.kernelComplete c) s = .next t ∧ (t.core (ckey c)).kernel = none ∧ (t.core (ckey c)).gated = true ∧ (t.core (ckey c)).freeAt = s.now ∧
      t.fld (ringReg .RING_KSTAT (coreDie (ckey c)) q.ring) RING_KSTAT.LAST_STATUS = code q.status ∧ SameCores s t (ckey c)) ∧
  (∀ (s : State) (c : CoreId) (q : Kernel), s.life = .running → (s.core (ckey c)).kernel = some q → q.ring < 16384 → q.stopped = true → q.refusal = none → q.stopStatus = none → s.frozen (ckey c) = false → s.drained (ckey c) = true →
    (s.scanEnd (coreDie (ckey c)) q.ring (s.ringDepth (coreDie (ckey c)) q.ring) q.high).2.2 = true → s.fld (ringReg .RING_DUMP (coreDie (ckey c)) q.ring) RING_DUMP.COUNT = 0 →
    (q.dump = none ∨ q.dump = some none) → s.engineBusy .dump (coreDie (ckey c)) (coreNum (ckey c)) = false →
    ∃ t : State, exec (.prefixDump c) s = .next t ∧ (t.core (ckey c)).kernel = none ∧ t.ringStored (coreDie (ckey c)) q.ring = 5 ∧ t.fld (ringReg .RING_PREFIX (coreDie (ckey c)) q.ring) RING_PREFIX.EN = 0 ∧
      t.fld (ringReg .RING_CFG (coreDie (ckey c)) q.ring) RING_CFG.ENABLE = 0) ∧
  (∀ s : State, s.life = .running → s.monitorAt + 4400000 ≤ s.now → s.monitor.length < 2 → exec .monitorSample s = .next { s with monitorAt := s.now, monitor := (monCycles s.monGraph :: s.monitor).take 2 })

/-- Streams (06 R235-R243, R247, R249, 03 R109): the channel of least slack of an engine that has formed no request in this cycle forms the request of its next row, of a push or pop the row of its level in the stack, at the memory that holds
it; the row a channel is due lands in its near half where its engine and the bank are free, that of a frozen core after its freeze; an acknowledged row of a store counts, of a frozen core after its freeze; a transfer with every row in
completes and its pending re-arm takes its place. It says where each of these commands completes, with a next state of its own effect: streamRequest, streamRowLand, storeRowWritten, transferComplete. -/
def Obligations.StreamsRequestLandAndComplete : Prop :=
  (∀ (s w : State) (c : CoreId) (e : Fin 2) (q : Kernel) (n row : Nat) (x : Xfer) (r : NextReq), s.life = .running → s.settle (ckey c) = w → (w.core (ckey c)).kernel = some q → w.pickChan (ckey c) e.val = some n →
    w.frozen (ckey c) = false → (w.core (ckey c)).engineFree (w.ctime (ckey c)) e.val = true → (x.d.loads = false → (w.core (ckey c)).engineFree (w.ctime (ckey c)) (2 + e.val) = true) →
    w.nextReq (ckey c) n = some (x, r) → w.farRowOf (ckey c) x r = some row →
    ∃ (t : State) (m : MemReq) (l : List MemReq), exec (.streamRequest c e) s = .next t ∧ t.reqs = l ++ [m] ∧ (x.d.loads = true → l = s.reqs) ∧ m.row = row ∧ m.stage = 0 ∧ m.write = (!x.d.loads) ∧ m.cls = 1 ∧
      m.owner = .chan (ckey c) n x.id r.idx x.d.nearBuf r.near ∧ m.lease = some q.lease ∧ ((t.core (ckey c)).chan n).cur = some { x with formed := x.formed + 1 } ∧ t.mem = s.mem) ∧
  (∀ (s : State) (c : CoreId) (ch : Fin 16) (m : MemReq) (k n x i buf row : Nat), s.life = .running → s.dueReq (ckey c) ch.val false = some m → m.owner = .chan k n x i buf row → m.install = false → m.fresh = false → s.frozen (ckey c) = false →
    s.landFree (ckey c) (s.ctime (ckey c)) (n / 8) (bankOf buf row).1 = true →
    exec (.streamRowLand c ch) s = .next ((({ s with reqs := s.reqs.erase m } : State).landRow (ckey c) n i buf row m.img false).onCore (ckey c) (fun x => x.moved (s.ctime (ckey c)) (n / 8) (bankOf buf row).1))) ∧
  (∀ (s : State) (k n i buf row : Nat) (r : RowImg), (s.landRow k n i buf row r false).mem = (s.writeOwn k buf row r).mem) ∧
  (∀ (s : State) (c : CoreId) (ch : Fin 16) (m : MemReq), s.life = .running → s.dueReq (ckey c) ch.val false = some m → s.frozen (ckey c) = true → exec (.streamRowLand c ch) s = .next s) ∧
  (∀ (s : State) (c : CoreId) (ch : Fin 16) (m : MemReq) (x : Xfer) (k n y i buf row : Nat), s.life = .running → s.dueReq (ckey c) ch.val true = some m → m.owner = .chan k n y i buf row → ((s.core (ckey c)).chan ch.val).cur = some x → s.frozen (ckey c) = false →
    ∃ t : State, exec (.storeRowWritten c ch) s = .next t ∧ t.reqs = s.reqs.erase m ∧ ((t.core (ckey c)).chan ch.val).cur = some (x.rowDone i) ∧ (x.rowDone i).done = x.done + 1 ∧ t.mem = s.mem ∧ t.regs = s.regs) ∧
  (∀ (s : State) (c : CoreId) (ch : Fin 16) (m : MemReq), s.life = .running → s.dueReq (ckey c) ch.val true = some m → s.frozen (ckey c) = true → exec (.storeRowWritten c ch) s = .next s) ∧
  (∀ (s : State) (c : CoreId) (ch : Fin 16) (x : Xfer), s.life = .running → (((s.settle (ckey c)).core (ckey c)).chan ch.val).cur = some x → (((s.settle (ckey c)).core (ckey c)).chan ch.val).pend = none → x.done = x.total → s.frozen (ckey c) = false →
    ∃ t : State, exec (.transferComplete c ch) s = .next t ∧ ((t.core (ckey c)).chan ch.val).cur = none ∧ ((t.core (ckey c)).chan ch.val).last = some x ∧ t.mem = s.mem ∧ t.regs = s.regs ∧ SameCores s t (ckey c)) ∧
  (∀ (s : State) (c : CoreId) (ch : Fin 16) (x y : Xfer), s.life = .running → (((s.settle (ckey c)).core (ckey c)).chan ch.val).cur = some x → (((s.settle (ckey c)).core (ckey c)).chan ch.val).pend = some y → x.done = x.total → s.frozen (ckey c) = false →
    ∃ t : State, exec (.transferComplete c ch) s = .next t ∧ ((t.core (ckey c)).chan ch.val).cur = some { y with first := firstHalf (some x) y.d, start := s.ctime (ckey c) + 1 } ∧ ((t.core (ckey c)).chan ch.val).pend = none ∧ t.mem = s.mem ∧ t.regs = s.regs)

/-- Awl pieces (06 R260-R266): the thread whose turn it is, in a cycle in which the engine has formed no request and with the index values of its sixteen entries in hand or just read, requests the 64-byte piece its index names, or nothing for
index 0xFFFFFFFF; an index past the table counts in OOB_COUNT and refuses the bundle ST_RANGE; index values that come late take the cycle and are kept; a landed piece counts. It says where each of these commands completes, with a next state
of its own effect: awlPieceRequest, awlPieceLand. -/
def Obligations.PiecesAreRequestedAndLand : Prop :=
  (∀ (s v : State) (c : CoreId) (q : Kernel) (t row p : Nat) (a w : AwlThread) (rd : Bool), s.life = .running → (s.core (ckey c)).kernel = some q → s.awlThread (ckey c) = some t → s.frozen (ckey c) = false → (s.core (ckey c)).engineFree (s.ctime (ckey c)) 6 = true →
    tget? (s.core (ckey c)).awl t = some a → s.indexReach a = true → s.indicesHeld (ckey c) t q.lease a = (v, w, rd, true) →
    w.ixs.getD (w.entry % 16) 0 < w.tableRows → w.ixs.getD (w.entry % 16) 0 ≠ 0xFFFFFFFF → p = w.tableBase + 64 * (w.ixs.getD (w.entry % 16) 0 * w.stride + w.piece) → v.rowAt p = some row →
    ∃ (u : State) (m : MemReq) (l : List MemReq), exec (.awlPieceRequest c) s = .next u ∧ u.reqs = l ++ [m] ∧ (w.scatter = false → l = v.reqs) ∧ m.row = row ∧ m.off = p % 512 ∧ m.bytes = 64 ∧ m.write = w.scatter ∧ m.stage = 0 ∧
      m.owner = .awl (ckey c) t (w.entry * w.span + w.piece) ∧ m.lease = some q.lease ∧ (u.core (ckey c)).awlCur = (t + 1) % 16 ∧ (u.core (ckey c)).engineFree (s.ctime (ckey c)) 6 = false) ∧
  (∀ (s v : State) (c : CoreId) (q : Kernel) (t : Nat) (a w : AwlThread) (rd : Bool), s.life = .running → (s.core (ckey c)).kernel = some q → s.awlThread (ckey c) = some t → s.frozen (ckey c) = false → (s.core (ckey c)).engineFree (s.ctime (ckey c)) 6 = true →
    tget? (s.core (ckey c)).awl t = some a → s.indexReach a = true → s.indicesHeld (ckey c) t q.lease a = (v, w, rd, true) →
    w.ixs.getD (w.entry % 16) 0 = 0xFFFFFFFF → exec (.awlPieceRequest c) s = .next (((v.skipEntry (ckey c) w).1.awlSettle (ckey c) t (v.skipEntry (ckey c) w).2).indexRead (ckey c) rd)) ∧
  (∀ (s v z : State) (c : CoreId) (q : Kernel) (t : Nat) (a w : AwlThread) (rd : Bool), s.life = .running → (s.core (ckey c)).kernel = some q → s.awlThread (ckey c) = some t → s.frozen (ckey c) = false → (s.core (ckey c)).engineFree (s.ctime (ckey c)) 6 = true →
    tget? (s.core (ckey c)).awl t = some a → s.indexReach a = true → s.indicesHeld (ckey c) t q.lease a = (v, w, rd, true) →
    w.ixs.getD (w.entry % 16) 0 ≠ 0xFFFFFFFF → w.tableRows ≤ w.ixs.getD (w.entry % 16) 0 → z = v.bump (coreReg .AWL_STATUS (ckey c)) AWL_STATUS.OOB_COUNT 1 →
    exec (.awlPieceRequest c) s = .next ((((z.skipEntry (ckey c) w).1.awlSettle (ckey c) t (z.skipEntry (ckey c) w).2).indexRead (ckey c) rd).refuse (ckey c) .range w.bundle w.slot)) ∧
  (∀ (s v : State) (c : CoreId) (q : Kernel) (t : Nat) (a w : AwlThread) (rd : Bool), s.life = .running → (s.core (ckey c)).kernel = some q → s.awlThread (ckey c) = some t → s.frozen (ckey c) = false → (s.core (ckey c)).engineFree (s.ctime (ckey c)) 6 = true →
    tget? (s.core (ckey c)).awl t = some a → s.indexReach a = true → s.indicesHeld (ckey c) t q.lease a = (v, w, rd, false) →
    exec (.awlPieceRequest c) s = .next ((v.awlSettle (ckey c) t w).onCore (ckey c) (fun x => x.formed (s.ctime (ckey c)) 6))) ∧
  (∀ (s : State) (c : CoreId) (t : Fin 16) (a : AwlThread) (m : MemReq) (n : Nat), s.life = .running → s.frozen (ckey c) = false → tget? (s.core (ckey c)).awl t.val = some a → s.duePiece (ckey c) t.val = some m → m.owner = .awl (ckey c) t.val n → m.fresh = false → a.scatter = true →
    exec (.awlPieceLand c t) s = .next (({ s with reqs := s.reqs.erase m } : State).awlSettle (ckey c) t.val { a with landed := a.landed + 1, outstanding := a.outstanding - 1 })) ∧
  (∀ (s : State) (c : CoreId) (t : Fin 16) (a : AwlThread) (m : MemReq) (n : Nat), s.life = .running → s.frozen (ckey c) = false → tget? (s.core (ckey c)).awl t.val = some a → s.duePiece (ckey c) t.val = some m → m.owner = .awl (ckey c) t.val n → a.scatter = false →
    ∃ u : State, exec (.awlPieceLand c t) s = .next u ∧ u.reqs = s.reqs.erase m ∧ SameCores s u (ckey c))

/-- Grants (06 R248-R253, 05 R202, R203): a shared bank or a core's crossing that has not granted in this cycle serves its first request of class ROW by rank, but a NARROW request that waits once seven ROW requests in a row have gone before it,
and a NARROW one, in its turn, where no ROW request is ready; a request served in its last bank cycle is performed and notes its grant time; a controller with a ready request grants and notes when it may grant next; a request that has
waited STARVE_LIMIT at a point is promoted there, none loses its promotion, and nothing else of the requests changes. It says where each of these commands completes, with a next state of its own effect: temperGrant, starvePromote. -/
def Obligations.RequestsAreGrantedAndPromoted : Prop :=
  (∀ (s w : State) (p : GrantPoint) (l : List MemReq) (r : MemReq), s.life = .running → s.meetDown = w → (∀ d k, p ≠ .ctl d k) → w.justGranted p = false → (w.readyReqs p).filter w.rowPortFree = l → (w.rankReqs (l.filter (fun r => r.cls != 2))).head? = some r →
    ((∀ x, x ∈ l → x.cls ≠ 2) ∨ (tget ⟨0, 0, 0⟩ w.banks (pointKey p)).rows < 7) →
    ∃ n, n ≤ 7 ∧ exec (.temperGrant p) s = .next { w.serve r with banks := tset (w.serve r).banks (pointKey p) ⟨s.now + 1, n, (tget (⟨0, 0, 0⟩ : BankRun) w.banks (pointKey p)).turn⟩ }) ∧
  (∀ (s w : State) (p : GrantPoint) (l : List MemReq) (r : MemReq), s.life = .running → s.meetDown = w → (∀ d k, p ≠ .ctl d k) → w.justGranted p = false → (w.readyReqs p).filter w.rowPortFree = l →
    narrowTurn (l.filter (fun r => r.cls == 2)) (tget (⟨0, 0, 0⟩ : BankRun) w.banks (pointKey p)).turn = some r → ((∀ x, x ∈ l → x.cls = 2) ∨ 7 ≤ (tget (⟨0, 0, 0⟩ : BankRun) w.banks (pointKey p)).rows) →
    exec (.temperGrant p) s = .next { w.serve r with banks := tset (w.serve r).banks (pointKey p) ⟨s.now + 1, 0, r.rank⟩ }) ∧
  (∀ (s w : State) (p : GrantPoint), s.life = .running → s.meetDown = w → (∀ d k, p ≠ .ctl d k) → w.justGranted p = true → exec (.temperGrant p) s = .next w) ∧
  (∀ (s : State) (r : MemReq), 1 < r.beats → s.serve r = { s with reqs := s.reqs.map (fun x => if x.id == r.id then { x with beats := x.beats - 1 } else x) }) ∧
  (∀ (s : State) (r : MemReq), r.owner.isEngine = false → isDram r.row = false → (s.performSram r).2.stage = 2 ∧ (s.performSram r).2.grantedAt = s.now) ∧
  (∀ (s w : State) (d : Die) (k : Fin 6), s.life = .running → s.meetDown = w → (w.ctl d.val k.val).nextGrant ≤ s.now → (w.ctl d.val k.val).fills.all (fun f => f.started) = true → w.rankReqs ((w.readyReqs (.ctl d k)).filter (w.dramReady d.val k.val)) ≠ [] →
    ∃ t : State, exec (.temperGrant (.ctl d k)) s = .next t ∧ (t.ctl d.val k.val).nextGrant = s.now + (w.grantRate d.val k.val).2) ∧
  (∀ (s : State) (p : GrantPoint), s.life = .running →
    ∃ t : State, exec (.starvePromote p) s = .next t ∧ t = { s with reqs := t.reqs } ∧ t.reqs.length = s.reqs.length ∧ ∀ (j : Nat) (r : MemReq), s.reqs[j]? = some r → ∃ r' : MemReq, t.reqs[j]? = some r' ∧ r' = { r with promoted := r'.promoted } ∧ (r.promoted = true → r'.promoted = true) ∧
      (r.point = p → r.stage = 0 → r.reached + s.fld (temperCfg (pointDie p)) TEMPER_CFG.STARVE_LIMIT ≤ s.now → r'.promoted = true))

/-- Patrol and scrub (05 R195, R196, R208-R210; 07 R280; 15 R555): in an idle cycle of its bank a patrol read leaves memory as it is and notes the single-symbol errors it finds, if any, and its write-back repairs exactly those; the controllers'
patrol reads a row of a pseudo-channel no more often than its period and repairs the row where it corrected something; a completed scrub zeroes the rows of the core, with its flags and claims, and makes the chosen lease holder where it was
a change of holder; a completed scrub of a partition zeroes its banks. It says where each of these commands completes, with a next state of its own effect: patrolRead, patrolWriteback, scrubComplete, memcPatrol. -/
def Obligations.PatrolsAndScrubsRepair : Prop :=
  (∀ (s : State) (b : BankId) (row r : Nat), s.life = .running → s.bankRow b row = some r → s.bankIdle b = true → (s.mem.damageOf r).filter (fun d => d.syms.length == 1) = [] →
    ∃ t : State, exec (.patrolRead b row) s = .next t ∧ t.mem = s.mem ∧ t.patrol = s.patrol) ∧
  (∀ (s : State) (b : BankId) (row r : Nat), s.life = .running → s.bankRow b row = some r → s.bankIdle b = true → (s.mem.damageOf r).filter (fun d => d.syms.length == 1) ≠ [] →
    ∃ t : State, exec (.patrolRead b row) s = .next t ∧ t.mem = s.mem ∧ t.patrol = s.patrol ++ [⟨s.bankId b, (s.mem.damageOf r).filter (fun d => d.syms.length == 1)⟩]) ∧
  (∀ (s : State) (b : BankId) (row : Nat), s.life = .running → s.bankIdle b = false → exec (.patrolRead b row) s = .next s ∧ exec (.patrolWriteback b) s = .next s) ∧
  (∀ (s : State) (b : BankId) (p : PatrolFix), s.life = .running → s.bankIdle b = true → s.patrol.find? (fun p => p.bank == s.bankId b) = some p →
    ∃ t : State, exec (.patrolWriteback b) s = .next t ∧ t.patrol = s.patrol.erase p ∧ t.mem = { s.mem with damage := t.mem.damage } ∧ (∀ d, d ∈ t.mem.damage ↔ d ∈ s.mem.damage ∧ d ∉ p.fixes) ∧ t.regs = s.regs ∧ t.cores = s.cores) ∧
  (∀ (s : State) (d : Die) (k : Fin 6) (p : Fin 32) (row : Nat), s.life = .running → (k.val < 4 → row % 32 = p.val ∧ row < 156250016) → (4 ≤ k.val → p.val = 0 ∧ row < 125000000) →
    (∀ n, tget? (s.ctl d.val k.val).patrolled p.val = some n → n + (if k.val < 4 then 65536 else 512) ≤ s.now) → s.isDown (ctlRow d.val k.val row) = false → s.mem.tagged (ctlRow d.val k.val row) = false → s.upset (ctlRow d.val k.val row) = none →
    ∃ t : State, exec (.memcPatrol d k p row) s = .next t ∧ tget? (t.ctl d.val k.val).patrolled p.val = some s.now ∧
      t.mem = (if (s.mem.readRow (ctlRow d.val k.val row) s.fresh).corr = 0 then s.mem else s.mem.repair (ctlRow d.val k.val row)) ∧ t.cores = s.cores) ∧
  (∀ (s : State) (c : CoreId) (n : Nat), s.life = .running → s.binding = none → (s.core (ckey c)).scrubDue = some n →
    ∃ t : State, exec (.scrubComplete (.core c)) s = .next t ∧ t.mem = s.mem.zeroRows (coreRow (ckey c)) 9472 ∧ (t.core (ckey c)).scrubDue = none ∧ (t.core (ckey c)).flags = [] ∧ (t.core (ckey c)).claims = [] ∧ SameCores s t (ckey c) ∧
      ((s.core (ckey c)).switchAt.isSome = true → n < 256 → t.fld (tcBind (ckey c)) TC_BIND.HOLDER = n)) ∧
  (∀ (s : State) (d : Die) (p : Fin 32) (x : Scrub), s.life = .running → s.binding = none → s.scrubs.find? (fun x => x.die == d.val && x.part == p.val) = some x →
    exec (.scrubComplete (.part d p)) s = .next { s with scrubs := s.scrubs.erase x, mem := s.mem.zeroRows (sdmRow d.val + 8192 * x.first) (8192 * x.banks) })

/-- Stacks in shared die memory (05 R222-R226, 06 R235, R239, R241): a push whose turn it is raises TOP by the rows of its half, which then go to the rows from the old TOP up, each once its place in SRAM has been read out; one that may not use
the stack, that meets a sealed frame, or that no spill within ROWS can make room for stops the kernel; a spill raises FLOOR by 64 rows, a refill asks for the 64 rows below FLOOR and, once they have landed, lowers it by 64; a pop whose turn
it is lowers TOP by the rows of its half, which then takes the old top rows, each once it lies at or above FLOOR, and one of more rows than its frame or the stack holds stops the kernel. A frame command that is no session's and finds pushes
or pops of its stack waiting stands behind them (08 R325; log 48). It says where each of these commands completes, with a next state of its own effect: astkPush, astkSpill, astkRefill, astkRefillLand, astkPop, frameOpen, frameDrain. -/
def Obligations.StacksPushSpillRefillAndPop : Prop :=
  (∀ (s w : State) (d : Die) (g : Fin 64) (c : CoreId) (ch : Fin 16) (q : Kernel) (x : Xfer) (h : HalfFill), PushTurn s w d.val g.val (ckey c) ch.val q x h → w.stackUse d.val g.val (ckey c) q.lease = none → (w.topFrame d.val g.val).any (fun t => t.2 == 2) = false →
    (w.stackFloor d.val g.val < w.floorFor d.val g.val h.n → w.floorFor d.val g.val h.n ≤ w.fld (astk .ASTK_SPILL_ROWS d.val g.val) ASTK_SPILL_ROWS.ROWS) → exec (.astkPush d g c ch) s = .next ((w.pushHalf d.val g.val (ckey c) ch.val h).stackNext d.val g.val)) ∧
  (∀ (w : State) (d g k n : Nat) (h : HalfFill), w.stackTop d g + h.n < 2 ^ (ASTK_TOP.TOP.hi + 1 - ASTK_TOP.TOP.lo) → (w.pushHalf d g k n h).stackTop d g = w.stackTop d g + h.n ∧ (w.pushHalf d g k n h).mem = w.mem ∧ (w.pushHalf d g k n h).reqs = w.reqs ∧
    (((w.pushHalf d g k n h).core k).chan n).halves = ((w.core k).chan n).halves.map (fun z => if z == h then { z with low := some (w.stackTop d g) } else z)) ∧
  (∀ (s w : State) (d : Die) (g : Fin 64) (c : CoreId) (ch : Fin 16) (q : Kernel) (x : Xfer) (h : HalfFill) (st : Status), PushTurn s w d.val g.val (ckey c) ch.val q x h →
    w.stackUse d.val g.val (ckey c) q.lease = some st → exec (.astkPush d g c ch) s = .next ((w.stackNext d.val g.val).stackRefuse (ckey c) ch.val x st)) ∧
  (∀ (s w : State) (d : Die) (g : Fin 64) (c : CoreId) (ch : Fin 16) (q : Kernel) (x : Xfer) (h : HalfFill), PushTurn s w d.val g.val (ckey c) ch.val q x h → w.stackUse d.val g.val (ckey c) q.lease = none →
    (w.topFrame d.val g.val).any (fun t => t.2 == 2) = true → exec (.astkPush d g c ch) s = .next ((w.stackNext d.val g.val).stackRefuse (ckey c) ch.val x .state)) ∧
  (∀ (s w : State) (d : Die) (g : Fin 64) (c : CoreId) (ch : Fin 16) (q : Kernel) (x : Xfer) (h : HalfFill), PushTurn s w d.val g.val (ckey c) ch.val q x h → w.stackUse d.val g.val (ckey c) q.lease = none → (w.topFrame d.val g.val).any (fun t => t.2 == 2) = false →
    w.stackFloor d.val g.val < w.floorFor d.val g.val h.n → w.fld (astk .ASTK_SPILL_ROWS d.val g.val) ASTK_SPILL_ROWS.ROWS < w.floorFor d.val g.val h.n → exec (.astkPush d g c ch) s = .next ((w.stackNext d.val g.val).stackRefuse (ckey c) ch.val x .noResource)) ∧
  (∀ (s : State) (d g r : Nat), (s.stackReady d g true r = true → r < s.stackFloor d g + s.stackLimit d g) ∧ (s.stackReady d g false r = true → s.stackFloor d g ≤ r)) ∧
  (∀ (s : State) (d : Die) (g : Fin 64), s.life = .running → s.stackLimit d.val g.val < s.stackTop d.val g.val - s.stackFloor d.val g.val → (s.stackRun d.val g.val).refill = false → (s.stackRun d.val g.val).readOut ≤ s.now →
    s.stackFloor d.val g.val + 64 ≤ s.stackTop d.val g.val → s.chunkFormed d.val g.val (s.stackFloor d.val g.val) = true → s.chunkBusy d.val g.val (s.stackFloor d.val g.val) false = false →
    ∃ t : State, exec (.astkSpill d g) s = .next t ∧ t.stackFloor d.val g.val = s.stackFloor d.val g.val + 64 ∧ t.stackTop d.val g.val = s.stackTop d.val g.val ∧ (t.stackRun d.val g.val).readOut = s.now + 64 ∧ t.mem = s.mem) ∧
  (∀ (s : State) (d : Die) (g : Fin 64), s.life = .running → (s.stackRun d.val g.val).refill = false → s.stackFloor d.val g.val ≠ 0 → s.stackHeight d.val g.val - s.stackFloor d.val g.val + 128 ≤ s.stackLimit d.val g.val →
    s.reqs.any (fun r => r.stage == 0 && r.spills d.val g.val) = false → s.chunkBusy d.val g.val (s.stackFloor d.val g.val - 64) true = false →
    ∃ t : State, exec (.astkRefill d g) s = .next t ∧ (t.stackRun d.val g.val).refill = true ∧ t.stackFloor d.val g.val = s.stackFloor d.val g.val ∧ t.stackTop d.val g.val = s.stackTop d.val g.val ∧ t.mem = s.mem) ∧
  (∀ (s : State) (d : Die) (g : Fin 64), s.life = .running → (s.stackRun d.val g.val).refill = true → 64 ≤ s.stackFloor d.val g.val → (∀ r, r ∈ s.reqs → r.refills d.val g.val = true → r.owner = .refillIn d.val g.val ∧ r.stage = 2 ∧ r.due ≤ s.now) →
    ∃ t : State, exec (.astkRefillLand d g) s = .next t ∧ (t.stackRun d.val g.val).refill = false ∧ t.stackFloor d.val g.val = s.stackFloor d.val g.val - 64 ∧ t.reqs = s.reqs.filter (fun r => !r.refills d.val g.val)) ∧
  (∀ (s w : State) (d : Die) (g : Fin 64) (c : CoreId) (ch : Fin 16) (q : Kernel) (x : Xfer) (u m : Nat), PopTurn s w d.val g.val (ckey c) ch.val q x u m → w.stackUse d.val g.val (ckey c) q.lease = none → m ≤ w.stackTop d.val g.val →
    (∀ f st, w.topFrame d.val g.val = some (f, st) → st = 3 ∧ m ≤ w.stackTop d.val g.val - w.fld (frameReg .ASTK_FRAME d.val g.val f) ASTK_FRAME.BASE) →
    exec (.astkPop d g c ch) s = .next ((w.popRows d.val g.val (ckey c) ch.val x (x.popHalf u (w.stackTop d.val g.val - m))).stackNext d.val g.val)) ∧
  (∀ (w : State) (d g k n : Nat) (x : Xfer) (h : HalfFill), (w.popRows d g k n x h).stackTop d g = w.stackTop d g - h.n ∧ (w.popRows d g k n x h).mem = w.mem ∧ (w.popRows d g k n x h).reqs = w.reqs ∧
    (((w.popRows d g k n x h).core k).chan n).halves = ((w.core k).chan n).halves ++ [h]) ∧
  (∀ (x : Xfer) (u low : Nat), (x.popHalf u low).n = (x.fill u).2 ∧ (x.popHalf u low).low = some low ∧ (x.popHalf u low).st = 0) ∧
  (∀ (s w : State) (d : Die) (g : Fin 64) (c : CoreId) (ch : Fin 16) (q : Kernel) (x : Xfer) (u m : Nat), PopTurn s w d.val g.val (ckey c) ch.val q x u m → w.stackUse d.val g.val (ckey c) q.lease = none →
    (w.stackTop d.val g.val < m ∨ ∃ f st, w.topFrame d.val g.val = some (f, st) ∧ (st ≠ 3 ∨ w.stackTop d.val g.val - w.fld (frameReg .ASTK_FRAME d.val g.val f) ASTK_FRAME.BASE < m)) →
    exec (.astkPop d g c ch) s = .next ((w.stackNext d.val g.val).stackRefuse (ckey c) ch.val x .range)) ∧
  (∀ (s u : State) (a : Actor) (d : Die) (g : Fin 64) (v : Word), Writable s a (astk .ASTK_FCMD d.val g.val) → (s.stackRun d.val g.val).waiting.head? ≠ some turnTicket → u = s.arrivals d.val g.val → (u.stackRun d.val g.val).waiting ≠ [] →
    exec (.frameOpen a d g v) s = .next ((u.setRun d.val g.val { u.stackRun d.val g.val with waiting := (u.stackRun d.val g.val).waiting ++ [.posted (setBits v.toNat ASTK_FCMD.CMD.hi ASTK_FCMD.CMD.lo 1)] }).answer .ok 0) ∧
    exec (.frameDrain a d g v) s = .next ((u.setRun d.val g.val { u.stackRun d.val g.val with waiting := (u.stackRun d.val g.val).waiting ++ [.posted (setBits v.toNat ASTK_FCMD.CMD.hi ASTK_FCMD.CMD.lo 2)] }).answer .ok 0))

/-- Memory controllers (07 R277, R282, R286, R288, R291-R295, R297, R300, R301): a granted row is performed when its time has come; once the start has trained the stacks the copier moves one row of the failed pseudo-channel each 16 cycles,
waking its channel first; a channel with no writes outstanding powers down, one that is still up after 110,000 cycles is refused; a woken channel is up; tag fills start, complete and run in the background; a bank's refresh is noted; a
temperature sample sets TEMP, REFX2 above 85 and THROTTLE above 95. It says where each of these commands completes, with a next state of its own effect: rowPerform, spareCopyRow, pdnEnter, pdnTimeout, channelWake, tagFill, tagFillComplete,
backgroundTagFill, perBankRefresh, tempSample. -/
def Obligations.ControllersPerformCopyAndPowerDown : Prop :=
  (∀ (s : State) (d : Die) (k : Fin 6) (r : MemReq), s.life = .running → (s.slotsUsed (.ctl d k)).find? (fun r => (s.ctl d.val k.val).fills.all (fun f => f.req != r.id)) = some r → r.grantedAt + performTime k.val + r.extra ≤ s.now →
    exec (.rowPerform d k) s = .next (s.performDram r 0)) ∧
  (∀ (s : State) (d : Die) (k : Fin 4), s.life = .running → s.spareState d.val k.val = 1 → s.copierRuns = true → (∀ n, (s.ctl d.val k.val).lastCopy = some n → n + 16 ≤ s.now) → s.isDown (ctlRow d.val k.val (32 * s.fld (memc .HBM_SPARE d.val k.val) HBM_SPARE.PROGRESS + s.fld (memc .HBM_SPARE d.val k.val) HBM_SPARE.FAILED_PC)) = false → s.upset (ctlRow d.val k.val (32 * s.fld (memc .HBM_SPARE d.val k.val) HBM_SPARE.PROGRESS + s.fld (memc .HBM_SPARE d.val k.val) HBM_SPARE.FAILED_PC)) = none → s.inject = none →
    s.fld (memc .HBM_SPARE d.val k.val) HBM_SPARE.PROGRESS + 1 < pcRows →
    ∃ t : State, exec (.spareCopyRow d k) s = .next t ∧ t.fld (memc .HBM_SPARE d.val k.val) HBM_SPARE.PROGRESS = s.fld (memc .HBM_SPARE d.val k.val) HBM_SPARE.PROGRESS + 1 ∧ t.spareState d.val k.val = 1 ∧ t.mem = s.mem ∧ t.cores = s.cores) ∧
  (∀ (s : State) (d : Die) (k : Fin 4), s.life = .running → s.spareState d.val k.val = 1 → s.copierRuns = true → (∀ n, (s.ctl d.val k.val).lastCopy = some n → n + 16 ≤ s.now) → s.isDown (ctlRow d.val k.val (32 * s.fld (memc .HBM_SPARE d.val k.val) HBM_SPARE.PROGRESS + s.fld (memc .HBM_SPARE d.val k.val) HBM_SPARE.FAILED_PC)) = false → s.fld (memc .HBM_SPARE d.val k.val) HBM_SPARE.PROGRESS + 1 = pcRows →
    ∃ t : State, exec (.spareCopyRow d k) s = .next t ∧ t.spareState d.val k.val = 2 ∧ t.cores = s.cores) ∧
  (∀ (s : State) (d : Die) (k : Fin 4), s.life = .running → s.spareState d.val k.val = 1 → s.copierRuns = true → (∀ n, (s.ctl d.val k.val).lastCopy = some n → n + 16 ≤ s.now) → s.isDown (ctlRow d.val k.val (32 * s.fld (memc .HBM_SPARE d.val k.val) HBM_SPARE.PROGRESS + s.fld (memc .HBM_SPARE d.val k.val) HBM_SPARE.FAILED_PC)) = true →
    exec (.spareCopyRow d k) s = .next (s.wake d.val k.val (chanOfRow (ctlRow d.val k.val (32 * s.fld (memc .HBM_SPARE d.val k.val) HBM_SPARE.PROGRESS + s.fld (memc .HBM_SPARE d.val k.val) HBM_SPARE.FAILED_PC))))) ∧
  (∀ (s : State) (d : Die) (k : Fin 4) (ch n : Nat), s.life = .running → ch < 16 → (s.ctl d.val k.val).pdn = some (ch, n) → s.now < n + 110000 → s.outstandingWrites d k ch = 0 →
    ∃ t : State, exec (.pdnEnter d k) s = .next t ∧ (t.ctl d.val k.val).pdn = none ∧ bitAt (t.fld (pdnStatus d.val k.val) HBM_PDN_STATUS.DOWN) ch = true ∧ t.fld (pdnStatus d.val k.val) HBM_PDN_STATUS.RESULT = 1 ∧ t.fld (pdnStatus d.val k.val) HBM_PDN_STATUS.PENDING = 0 ∧
      SameRegs s t [pdnStatus d.val k.val] ∧ t.mem = s.mem) ∧
  (∀ (s : State) (d : Die) (k : Fin 4) (ch n : Nat), s.life = .running → (s.ctl d.val k.val).pdn = some (ch, n) → n + 110000 ≤ s.now → exec (.pdnTimeout d k) s = .next (s.pdnEnd d.val k.val 2)) ∧
  (∀ (s : State) (d : Die) (k : Fin 4) (ch : Fin 16) (w : Nat × Nat), s.life = .running → (s.ctl d.val k.val).wakes.find? (fun w => w.1 == ch.val) = some w → w.2 ≤ s.now →
    ∃ t : State, exec (.channelWake d k ch) s = .next t ∧ bitAt (t.fld (pdnStatus d.val k.val) HBM_PDN_STATUS.DOWN) ch.val = false ∧ SameRegs s t [pdnStatus d.val k.val] ∧ t.mem = s.mem) ∧
  (∀ (s : State) (d : Die) (k : Fin 4) (f : TagFill), s.life = .running → (s.ctl d.val k.val).fills.find? (fun f => !f.started) = some f →
    exec (.tagFill d k) s = .next (s.onCtl d.val k.val (fun c => { c with fills := c.fills.map (fun x => if x == f then { f with started := true } else x), nextGrant := max c.nextGrant (f.at' + 64) }))) ∧
  (∀ (s : State) (d : Die) (k : Fin 4) (f : TagFill), s.life = .running → (s.ctl d.val k.val).fills.head? = some f → f.started = true → f.at' + 504 ≤ s.now →
    ∃ t : State, exec (.tagFillComplete d k) s = .next t ∧ (t.ctl d.val k.val).fills = (s.ctl d.val k.val).fills.drop 1 ∧ t.mem = { s.mem with untagged := sins s.mem.untagged f.blk }) ∧
  (∀ (s : State) (d : Die) (k : Fin 4) (blk : Nat), s.life = .running → (s.ctl d.val k.val).fills = [] → blk < 610348 → s.mem.untagged.contains (tagBlock (ctlRow d.val k.val 0) + blk) = false → s.blockBound d.val k.val blk = true →
    exec (.backgroundTagFill d k blk) s = .next { s with mem := { s.mem with untagged := sins s.mem.untagged (tagBlock (ctlRow d.val k.val 0) + blk) } }) ∧
  (∀ (s : State) (d : Die) (k : Fin 6) (p : Fin 32) (b : Fin 64), s.life = .running →
    exec (.perBankRefresh d k p b) s = .next (s.onCtl d.val k.val (fun c => { c with refreshed := tset c.refreshed (if k.val < 4 then p.val * 64 + b.val else b.val % 16) s.now }))) ∧
  (∀ (s : State) (d : Die) (k : Fin 6) (x : Fin 256), s.life = .running →
    ∃ t : State, exec (.tempSample d k x) s = .next t ∧ t.fld (memc .MEMC_THERM d.val k.val) MEMC_THERM.TEMP = x.val ∧ t.mem = s.mem ∧ t.cores = s.cores ∧
      (95 < x.val → t.fld (memc .MEMC_THERM d.val k.val) MEMC_THERM.THROTTLE = 1) ∧ (x.val ≤ 92 → t.fld (memc .MEMC_THERM d.val k.val) MEMC_THERM.THROTTLE = 0) ∧
      (85 < x.val → t.fld (memc .MEMC_THERM d.val k.val) MEMC_THERM.REFX2 = 1) ∧ (x.val ≤ 82 → t.fld (memc .MEMC_THERM d.val k.val) MEMC_THERM.REFX2 = 0))

/-- Welt commands (09 R342-R345, R348, R352, R357, R358): on an idle unit a NORM, APPLY, FINISH or CLOSE that passes its checks is accepted with LAST_OP and BUSY, and does its work; a refused one leaves its status in LAST_STATUS and starts
nothing. It says where each of these commands completes, with a next state of its own effect: norm, apply, finish, weltClose. -/
def Obligations.WeltCommandsAreAcceptedOrRefused : Prop :=
  (∀ (s : State) (a : Actor) (hs : Fin 16) (g : Fin 128) (n : Nat), Writable s a (welt .WELT_CMD hs.val) → s.weltBusy hs.val = false → s.groupLease hs.val g.val = some n → s.snapStopped n = false →
    (s.weltCheck a hs.val 1 g.val = none → exec (.norm a hs g) s = .next (((s.weltAccept hs.val 1 g.val).weltNorm hs.val g.val n).answer .ok 0)) ∧
    (s.weltCheck a hs.val 2 g.val = none → exec (.apply a hs g) s = .next (((s.weltAccept hs.val 2 g.val).weltApply hs.val g.val n).answer .ok 0)) ∧
    (s.weltCheck a hs.val 3 g.val = none → exec (.finish a hs g) s = .next (((s.weltAccept hs.val 3 g.val).weltFinish hs.val g.val).answer .ok 0)) ∧
    (s.weltCheck a hs.val 4 g.val = none → exec (.weltClose a hs g) s = .next ((((s.weltAccept hs.val 4 g.val).weltCloseStep hs.val).onWelt hs.val (fun w => { w with toPhase := 0 })).answer .ok 0)) ∧
    (∀ st l, s.weltCheck a hs.val 1 g.val = some (st, l) → exec (.norm a hs g) s = .next ((s.weltRefuse hs.val 1 st l).answer st 0))) ∧
  (∀ (s : State) (hs op g : Nat), op < 8 → (s.weltAccept hs op g).weltBusy hs = true ∧ (s.weltAccept hs op g).wstat hs WELT_STATUS.LAST_OP = op ∧ (s.weltAccept hs op g).mem = s.mem ∧ ((s.weltAccept hs op g).welt hs).op = op ∧ ((s.weltAccept hs op g).welt hs).group = g) ∧
  (∀ (s : State) (hs op : Nat) (st : Status) (l : Option Nat), (s.weltRefuse hs op st l).mem = s.mem ∧ (s.weltRefuse hs op st l).weltBusy hs = s.weltBusy hs ∧ (s.weltRefuse hs op st l).welts = s.welts)

/-- Welt steps (09 R344, R345, R356, R358, R361, R363): a layer that commits takes the step's EPOCH, clears APPLYING and ORT_WAIT and shows DAMAGED, and the next layer starts; an ended command clears BUSY and leaves its status; a step open for
10 s ends; a factored layer goes on when every holder has come as far; firmware may write an epoch outside a step. It says where each of these commands completes, with a next state of its own effect: weltCmdEnd, facExchangeReady,
weltLayerCommit, weltStepTimeout, weltEpochWrite. -/
def Obligations.WeltStepsAdvance : Prop :=
  (∀ (s : State) (hs : Fin 16) (l : Nat), s.life = .running → (s.welt hs.val).todo = [l] → (s.welt hs.val).stage = 3 → (s.welt hs.val).op ≠ 1 → s.weltWaits hs.val = false → (s.welt hs.val).t < 2 ^ 32 →
    ∃ t : State, exec (.weltLayerCommit hs) s = .next t ∧ (t.welt hs.val).todo = [] ∧ t.fld (welt .WELT_LAYER_STATE hs.val l) WELT_LAYER_STATE.EPOCH = (s.welt hs.val).t ∧ t.fld (welt .WELT_LAYER_STATE hs.val l) WELT_LAYER_STATE.APPLYING = 0 ∧
      t.fld (welt .WELT_LAYER_STATE hs.val l) WELT_LAYER_STATE.ORT_WAIT = 0 ∧ (t.fld (welt .WELT_LAYER_STATE hs.val l) WELT_LAYER_STATE.DAMAGED = 1 ↔ (s.welt hs.val).bad = true ∨ ∃ r, (l, r) ∈ (s.welt hs.val).ortBad) ∧
      SameRegs s t [welt .WELT_LAYER_STATE hs.val l] ∧ t.mem = s.mem) ∧
  (∀ (s : State) (hs : Fin 16), s.life = .running → (s.welt hs.val).op ≠ 0 → (s.welt hs.val).group < 128 → (s.welt hs.val).todo = [] → s.weltWaits hs.val = false →
    ∃ t : State, exec (.weltCmdEnd hs) s = .next t ∧ t.weltBusy hs.val = false ∧ t.wstat hs.val WELT_STATUS.PHASE = (s.welt hs.val).toPhase % 2 ^ (WELT_STATUS.PHASE.hi + 1 - WELT_STATUS.PHASE.lo) ∧ (t.welt hs.val).op = 0 ∧ t.mem = s.mem ∧ t.cores = s.cores ∧
      t.wstat hs.val WELT_STATUS.LAST_STATUS = code (if (s.welt hs.val).status == .ok && (s.welt hs.val).advance && (s.welt hs.val).damaged then .integrity else (s.welt hs.val).status)) ∧
  (∀ (s : State) (hs : Fin 16), s.life = .running → s.wstat hs.val WELT_STATUS.PHASE ≠ 0 → (s.welt hs.val).opened + 11000000000 ≤ s.now → s.weltBusy hs.val = false →
    ∃ t : State, exec (.weltStepTimeout hs) s = .next t ∧ t.wstat hs.val WELT_STATUS.PHASE = 0 ∧ t.wstat hs.val WELT_STATUS.LAST_STATUS = code .timeout ∧ t.mem = s.mem) ∧
  (∀ (s : State) (hs : Fin 16) (l : Fin 4096), s.life = .running → (s.holders hs.val l.val).all (fun u => s.facAt l.val u 1) = true →
    exec (.facExchangeReady hs l) s = .next ((s.holders hs.val l.val).foldl (fun s u => s.facGo l.val u false) s)) ∧
  (∀ (s : State) (hs : Fin 16) (l : Fin 4096), s.life = .running → (s.holders hs.val l.val).all (fun u => s.facAt l.val u 1) = false → (s.holders hs.val l.val).all (fun u => s.facAt l.val u 2) = true →
    exec (.facExchangeReady hs l) s = .next ((s.holders hs.val l.val).foldl (fun s u => s.facGo l.val u true) s)) ∧
  (∀ (s : State) (hs : Fin 16) (l : Fin 4096) (v : Word), Writable s .firmware (welt .WELT_LAYER_STATE hs.val l.val) → s.stepOpen hs.val (s.weltLayer hs.val l.val).group = false →
    ∃ t : State, exec (.weltEpochWrite .firmware hs l v) s = .next (t.answer .ok 0) ∧ OnlyRegs s t [welt .WELT_LAYER_STATE hs.val l.val] ∧ t.fld (welt .WELT_LAYER_STATE hs.val l.val) WELT_LAYER_STATE.EPOCH = bits v.toNat 63 32 ∧
      t.fld (welt .WELT_LAYER_STATE hs.val l.val) WELT_LAYER_STATE.DAMAGED = 0)

/-- KV pools (10 R365-R372): KVP_CFG with ENABLE 1 on a disabled pool, with a sound configuration, makes ENABLE 1 and starts INIT; the end of the initialisation makes every page free; GO with a count on an enabled, idle pool of an ACTIVE lease
starts a batch; a sound entry is done: ALLOC pops a page and counts it once, SHARE counts a page once more, FREE once less and pushes one no longer counted, PRIVATE of a page counted more than once copies it to a popped page, APPEND to a
page counted once puts the staging tokens into it, each refused with its status where it may not; an entry whose list place the lease may not access is done with that status; a batch with every entry done ends with BUSY 0. It says where
each of these commands completes, with a next state of its own effect: kvpEnable, kvpInitDone, kvpGo, alloc, share, free, makePrivate, append, kvpBatchComplete. -/
def Obligations.PoolBatchesRun : Prop :=
  (∀ (s : State) (d : Die) (p : Fin 16) (v : Word) (w : Nat), Writable s .firmware (kvp .KVP_CFG d.val p.val) → s.fld (kvp .KVP_CFG d.val p.val) KVP_CFG.ENABLE = 0 → w = keepFields 0 (setBits v.toNat KVP_CFG.ENABLE.hi KVP_CFG.ENABLE.lo 1) [⟨54, 52⟩, ⟨41, 36⟩] →
    s.poolCheck d.val p.val (poolShape w (s.fld (kvp .KVP_BASE d.val p.val) KVP_BASE.BASE) (s.fld (kvp .KVP_META d.val p.val) KVP_META.META)) (bits w KVP_CFG.DIM.hi KVP_CFG.DIM.lo) = none →
    ∃ t : State, exec (.kvpEnable .firmware d p v) s = .next (t.answer .ok 0) ∧ t.fld (kvp .KVP_STATUS d.val p.val) KVP_STATUS.INIT = 1 ∧ t.fld (kvp .KVP_CFG d.val p.val) KVP_CFG.ENABLE = 1) ∧
  (∀ (s : State) (d : Die) (p : Fin 16), s.life = .running → s.fld (kvp .KVP_STATUS d.val p.val) KVP_STATUS.INIT = 1 → s.poolWaits d.val p.val = false →
    ∃ t : State, exec (.kvpInitDone d p) s = .next t ∧ OnlyRegs s t [kvp .KVP_STATUS d.val p.val, kvp .KVP_FREE d.val p.val] ∧ t.fld (kvp .KVP_STATUS d.val p.val) KVP_STATUS.INIT = 0 ∧
      t.freePages d.val p.val = (s.pool d.val p.val).pages % 2 ^ (KVP_FREE.FREE.hi + 1 - KVP_FREE.FREE.lo)) ∧
  (∀ (s : State) (a : Actor) (d : Die) (p : Fin 16) (v : Word), Writable s a (kvp .KVP_GO d.val p.val) → s.mayPool a d.val p.val = true → s.fld (kvp .KVP_STATUS d.val p.val) KVP_STATUS.BUSY = 0 → s.fld (kvp .KVP_STATUS d.val p.val) KVP_STATUS.INIT = 0 →
    s.fld (kvp .KVP_CFG d.val p.val) KVP_CFG.ENABLE = 1 → s.active (s.fld (kvp .KVP_CFG d.val p.val) KVP_CFG.LEASE) = true → s.snapStopped (s.fld (kvp .KVP_CFG d.val p.val) KVP_CFG.LEASE) = false → bits v.toNat KVP_GO.COUNT.hi KVP_GO.COUNT.lo ≠ 0 →
    ∃ t : State, exec (.kvpGo a d p v) s = .next (t.answer .ok 0) ∧ t.fld (kvp .KVP_STATUS d.val p.val) KVP_STATUS.BUSY = 1 ∧ t.fld (kvp .KVP_STATUS d.val p.val) KVP_STATUS.DONE = 0 ∧ SameRegs s t [kvp .KVP_STATUS d.val p.val] ∧ t.mem = s.mem ∧
      t.poolRun d.val p.val = some ⟨bits v.toNat KVP_GO.COUNT.hi KVP_GO.COUNT.lo, 0, if bitAt v.toNat KVP_GO.SETFLAG.lo then some (bits v.toNat KVP_GO.FLAG.hi KVP_GO.FLAG.lo) else none, s.now⟩) ∧
  (∀ (s u : State) (d : Die) (p : Fin 16) (r : PoolRun) (e : PoolEntry), PoolTurn s d.val p.val 1 r e u →
    exec (.alloc d p) s = .next (if u.freePages d.val p.val = 0 then u.entryDone d.val p.val (s.listAt d.val p.val r.next) .noResource none
      else ((u.popPage d.val p.val (s.pool d.val p.val)).1.setCount (s.poolUser d.val p.val) (s.pool d.val p.val) (u.popPage d.val p.val (s.pool d.val p.val)).2 1).entryDone d.val p.val (s.listAt d.val p.val r.next) .ok (some (u.popPage d.val p.val (s.pool d.val p.val)).2))) ∧
  (∀ (s u v : State) (d : Die) (p : Fin 16) (r : PoolRun) (e : PoolEntry) (n : Nat), PoolTurn s d.val p.val 2 r e u → u.pageCount (s.poolUser d.val p.val) (s.pool d.val p.val) e.page = (v, n) →
    exec (.share d p) s = .next (if n = 0 then v.entryDone d.val p.val (s.listAt d.val p.val r.next) .state none else if n = 65535 then v.entryDone d.val p.val (s.listAt d.val p.val r.next) .noResource none
      else (v.setCount (s.poolUser d.val p.val) (s.pool d.val p.val) e.page (n + 1)).entryDone d.val p.val (s.listAt d.val p.val r.next) .ok none)) ∧
  (∀ (s u v : State) (d : Die) (p : Fin 16) (r : PoolRun) (e : PoolEntry) (n : Nat), PoolTurn s d.val p.val 3 r e u → u.pageCount (s.poolUser d.val p.val) (s.pool d.val p.val) e.page = (v, n) →
    exec (.free d p) s = .next (if n = 0 then v.entryDone d.val p.val (s.listAt d.val p.val r.next) .state none else if n = 1 then ((v.setCount (s.poolUser d.val p.val) (s.pool d.val p.val) e.page 0).pushPage d.val p.val (s.pool d.val p.val) e.page).entryDone d.val p.val (s.listAt d.val p.val r.next) .ok none
      else (v.setCount (s.poolUser d.val p.val) (s.pool d.val p.val) e.page (n - 1)).entryDone d.val p.val (s.listAt d.val p.val r.next) .ok none)) ∧
  (∀ (s u v : State) (d : Die) (p : Fin 16) (r : PoolRun) (e : PoolEntry) (n : Nat), PoolTurn s d.val p.val 4 r e u → u.pageCount (s.poolUser d.val p.val) (s.pool d.val p.val) e.page = (v, n) →
    exec (.makePrivate d p) s = .next (if n = 0 then v.entryDone d.val p.val (s.listAt d.val p.val r.next) .state none else if n = 1 then v.entryDone d.val p.val (s.listAt d.val p.val r.next) .ok (some e.page)
      else if u.freePages d.val p.val = 0 then v.entryDone d.val p.val (s.listAt d.val p.val r.next) .noResource none
      else ((((v.popPage d.val p.val (s.pool d.val p.val)).1.copyPage (s.poolUser d.val p.val) (s.pool d.val p.val) e.page (v.popPage d.val p.val (s.pool d.val p.val)).2).setCount (s.poolUser d.val p.val) (s.pool d.val p.val) e.page (n - 1)).setCount (s.poolUser d.val p.val) (s.pool d.val p.val) (v.popPage d.val p.val (s.pool d.val p.val)).2 1).entryDone d.val p.val (s.listAt d.val p.val r.next) .ok (some (v.popPage d.val p.val (s.pool d.val p.val)).2))) ∧
  (∀ (s u v : State) (d : Die) (p : Fin 16) (r : PoolRun) (e : PoolEntry) (n : Nat), PoolTurn s d.val p.val 5 r e u → u.pageCount (s.poolUser d.val p.val) (s.pool d.val p.val) e.page = (v, n) → u.stageCheck d.val (s.pool d.val p.val) e.stage = none → n = 1 → e.count ≠ 0 → e.offset + e.count ≤ 64 → e.src + e.count ≤ 64 → e.region < (s.pool d.val p.val).regions →
    exec (.append d p) s = .next ((v.appendTokens (s.poolUser d.val p.val) (s.pool d.val p.val) e).entryDone d.val p.val (s.listAt d.val p.val r.next) .ok none)) ∧
  (∀ (s u v : State) (d : Die) (p : Fin 16) (r : PoolRun) (e : PoolEntry) (n : Nat), PoolTurn s d.val p.val 5 r e u → u.pageCount (s.poolUser d.val p.val) (s.pool d.val p.val) e.page = (v, n) → u.stageCheck d.val (s.pool d.val p.val) e.stage = none → n ≠ 1 → exec (.append d p) s = .next (v.entryDone d.val p.val (s.listAt d.val p.val r.next) .state none)) ∧
  (∀ (s : State) (c : Instr) (d : Die) (p : Fin 16) (r : PoolRun) (st : Status), (c = .alloc d p ∨ c = .share d p ∨ c = .free d p ∨ c = .makePrivate d p ∨ c = .append d p) → s.life = .running → s.poolRun d.val p.val = some r → r.next < r.count → s.poolWaits d.val p.val = false → s.spanReach (s.listAt d.val p.val r.next) 16 = true →
    s.find (some (s.pool d.val p.val).lease) (s.listAt d.val p.val r.next) = .error st → exec c s = .next (s.entryDone d.val p.val (s.listAt d.val p.val r.next) st none)) ∧
  (∀ (s : State) (d : Die) (p : Fin 16) (r : PoolRun), s.life = .running → s.poolRun d.val p.val = some r → r.count ≤ r.next → s.poolWaits d.val p.val = false →
    ∃ t : State, exec (.kvpBatchComplete d p) s = .next t ∧ t.poolRun d.val p.val = none ∧ t.fld (kvp .KVP_STATUS d.val p.val) KVP_STATUS.BUSY = 0 ∧ t.mem = s.mem)

/-- Bridge and chip links (01 R19-R28): on a link that is up, a row whose words are sound or have one symbol in error each is delivered, with its corrected words counted; a row with a word of two symbols in error makes the receiver ask for it
again, and the rows of its class that follow are held behind it; one of a class whose buffer is full is not sent; the replayed row is delivered in its place, and one that is uncorrectable again is counted and makes what its request carries
poisoned. Ethernet and peer ports (11 R406-R412, R414-R416): a port that is up and has lost lock on a lane, or met 64 uncorrected codewords in a millisecond, is retrained: it is down, its count of RETRAINS one higher, and its training ends
within 200 ms; without either it stays as it is; training ends with the port up at the highest rate found that its mode and working lanes allow, else down; auto-negotiation starts training on an enabled port that is down. It says where each
of these commands completes, with a next state of its own effect: linkRowReceive, linkReplay, portRetrain, portTrainEnd, autoNegotiation. -/
def Obligations.LinksAndPortsCarryAndTrain : Prop :=
  (∀ (s : State) (e : LinkEnd) (cls : LinkClass) (r : LinkRow), s.life = .running → linkPort e.sel.val e.port.val = true → s.fld (linkReg .LINK_STATUS e.sel.val e.port.val) LINK_STATUS.UP = 1 → s.linkFull e.sel.val e.port.val cls = false → s.inject = none → 
    s.replayOf e.sel.val e.port.val cls = none → (∀ n, n ∈ r.errs → n ≤ 1) →
    exec (.linkRowReceive e cls r) s = .next ((s.tally (linkReg .LINK_ERR_CNT e.sel.val e.port.val) LINK_ERR_CNT.CORR (rowCorrected r)).linkDeliver e.sel.val e.port.val cls r false)) ∧
  (∀ (s : State) (e : LinkEnd) (cls : LinkClass) (r : LinkRow), s.life = .running → linkPort e.sel.val e.port.val = true → s.fld (linkReg .LINK_STATUS e.sel.val e.port.val) LINK_STATUS.UP = 1 → s.linkFull e.sel.val e.port.val cls = false → s.inject = none → 
    s.replayOf e.sel.val e.port.val cls = none → 2 ∈ r.errs →
    ∃ t : State, exec (.linkRowReceive e cls r) s = .next t ∧ t.replays = s.replays ++ [⟨e.sel.val, e.port.val, cls, r.request, []⟩] ∧ t.fld (linkReg .LINK_STATUS e.sel.val e.port.val) LINK_STATUS.REPLAYING = 1 ∧ t.mem = s.mem ∧
      t.fld (linkReg .LINK_ERR_CNT e.sel.val e.port.val) LINK_ERR_CNT.REPLAY = min (2 ^ (LINK_ERR_CNT.REPLAY.hi + 1 - LINK_ERR_CNT.REPLAY.lo) - 1) (s.fld (linkReg .LINK_ERR_CNT e.sel.val e.port.val) LINK_ERR_CNT.REPLAY + 1)) ∧
  (∀ (s : State) (e : LinkEnd) (cls : LinkClass) (r : LinkRow) (x : Replay), s.life = .running → linkPort e.sel.val e.port.val = true → s.fld (linkReg .LINK_STATUS e.sel.val e.port.val) LINK_STATUS.UP = 1 → s.linkFull e.sel.val e.port.val cls = false → s.inject = none → 
    s.replayOf e.sel.val e.port.val cls = some x →
    exec (.linkRowReceive e cls r) s = .next ({ s with replays := s.replays.map (fun y => if y == x then { y with held := y.held ++ [r] } else y) }.linkLate r.request (s.linkDue x.request))) ∧
  (∀ (s : State) (e : LinkEnd) (cls : LinkClass) (r : LinkRow), s.life = .running → s.linkFull e.sel.val e.port.val cls = true → exec (.linkRowReceive e cls r) s = .next s) ∧
  (∀ (s : State) (e : LinkEnd) (r : LinkRow) (x : Replay), s.life = .running → s.replays.find? (fun x => x.sel == e.sel.val && x.port == e.port.val) = some x → x.held = [] → (∀ n, n ∈ r.errs → n ≤ 1) →
    ∃ t : State, exec (.linkReplay e r) s = .next t ∧ t.replays = s.replays.erase x ∧ t.mem = s.mem ∧ ((s.replays.erase x).any (fun y => y.sel == e.sel.val && y.port == e.port.val) = false → t.fld (linkReg .LINK_STATUS e.sel.val e.port.val) LINK_STATUS.REPLAYING = 0)) ∧
  (∀ (s : State) (e : LinkEnd) (r : LinkRow) (x : Replay) (q : MemReq), s.life = .running → s.replays.find? (fun x => x.sel == e.sel.val && x.port == e.port.val) = some x → x.held = [] → 2 ∈ r.errs →
    q ∈ s.reqs → (∀ z, z ∈ s.reqs → z.id = q.id → z = q) → x.request = some q.id → (q.write = false ∨ q.stage = 0) →
    ∃ t : State, exec (.linkReplay e r) s = .next t ∧ (∀ z, z ∈ t.reqs → z.id = q.id → z.img.poison = true) ∧ t.replays = s.replays.erase x ∧ t.mem = s.mem ∧
      t.fld (linkReg .LINK_ERR_CNT e.sel.val e.port.val) LINK_ERR_CNT.UNCORR = min (2 ^ (LINK_ERR_CNT.UNCORR.hi + 1 - LINK_ERR_CNT.UNCORR.lo) - 1) (s.fld (linkReg .LINK_ERR_CNT e.sel.val e.port.val) LINK_ERR_CNT.UNCORR + 1)) ∧
  (∀ (s : State) (p : EthPort) (x : BitVec 4), s.life = .running → s.portUp p = true → (x ≠ 0 ∨ s.fecSurge p = true) →
    ∃ t : State, exec (.portRetrain p x) s = .next t ∧ t.portUp p = false ∧ tget? t.training (portKey p) = some ⟨if s.portMode p = 0 then x.toNat else 0, some (s.now + 220000000)⟩ ∧
      t.fld (portRegs p).2.1 PEER_PORT_STATUS.RETRAINS = min (2 ^ (PEER_PORT_STATUS.RETRAINS.hi + 1 - PEER_PORT_STATUS.RETRAINS.lo) - 1) (s.fld (portRegs p).2.1 PEER_PORT_STATUS.RETRAINS + 1) ∧ t.mem = s.mem ∧ t.cores = s.cores) ∧
  (∀ (s : State) (p : EthPort), s.life = .running → s.fecSurge p = false → exec (.portRetrain p 0) s = .next s) ∧
  (∀ (s : State) (p : EthPort) (l : BitVec 4) (x : Fin 4) (r : Training) (y : Nat × Nat), s.life = .running → tget? s.training (portKey p) = some r → s.portEnabled p = true → (∀ d, r.due = some d → s.now ≤ d) → trainRate (s.portMode p) r.excluded x.val l.toNat = some y →
    ∃ t : State, exec (.portTrainEnd p l x) s = .next t ∧ t.portUp p = true ∧ t.fld (portRegs p).2.1 PEER_PORT_STATUS.SPEED = y.1 ∧ t.fld (portRegs p).2.1 PEER_PORT_STATUS.LANES = y.2 ∧ tget? t.training (portKey p) = none ∧ t.mem = s.mem ∧ t.cores = s.cores) ∧
  (∀ (m ex best l : Nat) (y : Nat × Nat), trainRate m ex best l = some y → y ∈ rateOrder ∧ y.2 &&& (l &&& (15 - ex)) = y.2 ∧ (m ≠ 0 → y.1 = (if m = 1 then 3 else if m = 2 then 1 else 2))) ∧
  (∀ (s : State) (p : EthPort) (l : BitVec 4) (x : Fin 4) (r : Training), s.life = .running → tget? s.training (portKey p) = some r → (trainRate (s.portMode p) r.excluded x.val l.toNat = none ∨ ∃ d, r.due = some d ∧ d < s.now) →
    ∃ t : State, exec (.portTrainEnd p l x) s = .next t ∧ t.portUp p = false ∧ tget? t.training (portKey p) = none ∧ t.mem = s.mem) ∧
  (∀ (s : State) (p : EthPort), s.life = .running → s.portUp p = false → s.portEnabled p = true → tget? s.training (portKey p) = none →
    exec (.autoNegotiation p) s = .next { s with training := tset s.training (portKey p) ⟨0, none⟩ })

/-- Packets for this unit (11 R428-R436): a WRITE asks for its rows to be written and is acknowledged once their requests have been performed, and NAKed ST_INTEGRITY where one was not taken intact, a READ is acknowledged at once and its rows
are returned once they have been performed; where the rows may not all be accessed, both are answered by a NAK with the status; READ_DATA takes its rows for the channels that asked and ends the wait; a NAK is taken for its operation; an ACK
sends again what it shows to be lost; a CREDIT acts as it comes in; a frame that fails its checks is only counted in DISCARDS, beside the FEC codewords met with it. It says where each of these commands completes, with a next state of its
own effect: dftWrite, dftRead, readData, nak, ack, credit. -/
def Obligations.PacketsForThisUnitAreTaken : Prop :=
  (∀ (s t : State) (q : Fin 16) (p : DftPacket), Arrives s q p 1 t → exec (.dftWrite q p) s = .next (if (t.remoteWrite q.val p).ackLater p then t.remoteWrite q.val p else (t.remoteWrite q.val p).sendAck p)) ∧
  (∀ (t : State) (q : Nat) (p : DftPacket) (rows : List Nat), p.type = 1 → t.remoteRows p = .ok rows → (t.remoteWrite q p).ackLater p = true) ∧
  (∀ (s u : State) (d : PeerDue), s.peerDue = [d] → (∀ r, r ∈ s.peerReqs d → r.stage = 2 ∧ r.due ≤ s.now) → d.pkt.type = 2 → d.pkt.epoch = (s.conn d.pkt.src.toNat d.pkt.vc.val).epoch →
    u = { s with peerDue := [], reqs := s.reqs.filter (fun r => !(s.peerReqs d).contains r) } → s.peersOn = u.respond d.pkt 3 .ok ((s.peerReqs d).map (fun r => ⟨r.img.bytes, r.img.poison⟩))) ∧
  (∀ (s u : State) (d : PeerDue), s.peerDue = [d] → (∀ r, r ∈ s.peerReqs d → r.stage = 2 ∧ r.due ≤ s.now) → d.pkt.type = 1 →
    u = d.rows.foldl (fun s row => s.signals row d.pkt.lease.val) { s with peerDue := [], reqs := s.reqs.filter (fun r => !(s.peerReqs d).contains r) } → d.pkt.epoch = (u.conn d.pkt.src.toNat d.pkt.vc.val).epoch →
    ((s.peerReqs d).any (·.fresh) = false → s.peersOn = u.sendAck d.pkt) ∧ ((s.peerReqs d).any (·.fresh) = true → s.peersOn = (u.sendAck d.pkt).respond d.pkt 5 .integrity [])) ∧
  (∀ (s : State) (d : PeerDue) (r : MemReq), s.peerDue = [d] → r ∈ s.peerReqs d → (r.stage ≠ 2 ∨ s.now < r.due) → s.peersOn = s) ∧
  (∀ (s t : State) (q : Fin 16) (p : DftPacket), Arrives s q p 2 t → exec (.dftRead q p) s = .next ((t.remoteRead q.val p).sendAck p)) ∧
  (∀ (t : State) (q : Nat) (p : DftPacket) (st : Status), t.remoteRows p = .error st → t.remoteWrite q p = t.respond p 5 st [] ∧ t.remoteRead q p = t.respond p 5 st []) ∧
  (∀ (s t : State) (q : Fin 16) (p : DftPacket), Arrives s q p 3 t → exec (.readData q p) s = .next ((t.takeData q.val p).sendAck p)) ∧
  (∀ (t : State) (q : Nat) (p : DftPacket) (w : ReadWait), (t.conn p.src.toNat p.vc.val).reads.find? (fun w => w.tag == p.tag) = some w → w.rows.length = p.pay.length →
    (t.takeData q p).reqs.length = t.reqs.length + p.pay.length ∧ (t.takeData q p).mem = t.mem ∧ ((t.takeData q p).conn p.src.toNat p.vc.val).reads = (t.conn p.src.toNat p.vc.val).reads.erase w) ∧
  (∀ (s t : State) (q : Fin 16) (p : DftPacket), Arrives s q p 5 t → exec (.nak q p) s = .next ((t.takeNak p).sendAck p)) ∧
  (∀ (s t : State) (q : Fin 16) (p : DftPacket), Arrives s q p 4 t → p.ackv = true → exec (.ack q p) s = .next (t.fastResend p.src.toNat p.vc.val p.ack p.addr.toNat)) ∧
  (∀ (s t : State) (q : Fin 16) (p : DftPacket), Arrives s q p 6 t → exec (.credit q p) s = .next t) ∧
  (∀ (s : State) (q : Fin 16) (p : DftPacket) (c : Instr), (c = .dftWrite q p ∨ c = .dftRead q p ∨ c = .readData q p ∨ c = .nak q p ∨ c = .ack q p ∨ c = .credit q p ∨ c = .packetForward q p ∨ c = .resync q p ∨ c = .resyncAck q p) → s.life = .running → s.portUp (.peer q) = true → s.frameOk p = false →
    exec c s = .next ((s.fecCount (.peer q) p.fecCorr p.fecUncorr).tally (peerPort .PEER_PORT_ERR q.val) PEER_PORT_ERR.DISCARDS 1))

/-- Forwarding and connections (11 R415, R417, R425, R429-R431; 17 R608): a packet for another member goes on in its direction, or is dropped and counted at the hop limit; freed cells are returned unless withheld; an unacknowledged packet is
sent again after its timeout up to RETRY times, then the connection fails, its operations end and a RESYNC is sent, which is repeated until acknowledged; of the packets that may leave a port, VC0 goes first but takes no more than one frame
in sixteen while others wait, and within a channel a response goes before a request (R426). It says where each of these commands completes, with a next state of its own effect: packetForward, creditReturn, retransmitTimeout, resync,
resyncAck, resyncRepeat. -/
def Obligations.ConnectionsRecover : Prop :=
  (∀ (s : State) (q : Nat) (l : List Egress) (e : Egress) (a : PortArb), s.pickEgress q l = some (e, a) →
    e ∈ l ∧ (e.pkt.vc.val = 0 → a.others = 0 ∧ (15 ≤ (s.arbiter q).others ∨ ∀ x, x ∈ l → x.pkt.vc.val = 0)) ∧
      (e.pkt.vc.val ≠ 0 → (s.arbiter q).others < 15 ∨ ∀ x, x ∈ l → x.pkt.vc.val ≠ 0) ∧ (e.pkt.resp = false → ∀ x, x ∈ l → x.pkt.vc = e.pkt.vc → x.pkt.resp = false)) ∧
  (∀ (s : State) (q : Fin 16) (p : DftPacket) (dir : Nat), s.life = .running → s.portUp (.peer q) = true → s.frameOk p = true → p.dst.toNat ≠ s.self → linkScope p = false → (s.frameIn q p).2 = true → 1 < p.hop →
    (s.frameIn q p).1.member p.dst.toNat = true → (s.frameIn q p).1.route p.dst.toNat = some dir → exec (.packetForward q p) s = .next ((s.frameIn q p).1.forward q.val p dir)) ∧
  (∀ (s : State) (q : Fin 16) (p : DftPacket), s.life = .running → s.portUp (.peer q) = true → s.frameOk p = true → p.dst.toNat ≠ s.self → linkScope p = false → (s.frameIn q p).2 = true → p.hop ≤ 1 →
    exec (.packetForward q p) s = .next (((s.frameIn q p).1.tally fabStat FAB_STAT.ROUTE_DROP 1).freeCells q.val p.vc.val (pktClass p) (pktCells p))) ∧
  (∀ (s : State) (q : Fin 16) (vc : Fin 8) (cls : Fin 4) (n : Nat), s.life = .running → s.portUp (.peer q) = true → s.creditsHeld q.val vc.val = false → tget 0 s.freed (creditKey q.val vc.val cls.val) = n → 0 < n → n ≤ 2047 →
    ∃ t : State, exec (.creditReturn q vc cls) s = .next t ∧ tget 0 t.freed (creditKey q.val vc.val cls.val) = 0 ∧ (∃ m, tget? t.wire q.val = some m ∧ m.type = 6 ∧ m.credit = vc.val * 8192 + cls.val * 2048 + n) ∧ t.mem = s.mem ∧ t.regs = s.regs) ∧
  (∀ (s : State) (c : ConnId) (n : Nat) (o : OutPkt), s.life = .running → (s.conn c.unit.toNat c.vc.val).out.find? (fun o => o.pkt.seq == n) = some o → o.sent + s.rto o.tries ≤ s.now → o.tries < s.fld fabTmo FAB_TMO.RETRY →
    exec (.retransmitTimeout c n) s = .next (s.resend c.unit.toNat c.vc.val n false)) ∧
  (∀ (s : State) (c : ConnId) (n : Nat) (o : OutPkt), s.life = .running → (s.conn c.unit.toNat c.vc.val).out.find? (fun o => o.pkt.seq == n) = some o → o.sent + s.rto o.tries ≤ s.now → s.fld fabTmo FAB_TMO.RETRY ≤ o.tries →
    exec (.retransmitTimeout c n) s = .next (s.connLost c.unit.toNat c.vc.val)) ∧
  (∀ (s : State) (u vc : Nat), ((s.connFail u vc).conn u vc).out = [] ∧ ((s.connFail u vc).conn u vc).reads = [] ∧ ((s.connFail u vc).conn u vc).resync = some (((s.conn u vc).epoch + 1) % 256, s.now) ∧ (s.connFail u vc).mem = s.mem) ∧
  (∀ (s t : State) (q : Fin 16) (p : DftPacket), Managed s q p 4 t → exec (.resync q p) s = .next (t.takeResync p)) ∧
  (∀ (s t : State) (q : Fin 16) (p : DftPacket), Managed s q p 5 t → exec (.resyncAck q p) s = .next (t.takeResyncAck p)) ∧
  (∀ (s : State) (c : ConnId) (e n : Nat), s.life = .running → (s.conn c.unit.toNat c.vc.val).resync = some (e, n) → n + s.rto 0 ≤ s.now →
    exec (.resyncRepeat c) s = .next ((s.setConn c.unit.toNat c.vc.val { s.conn c.unit.toNat c.vc.val with resync := some (e, s.now) }).sendResync 4 c.unit.toNat c.vc.val e))

/-- Collectives (11 R443-R453): a queued descriptor of the engine's operation starts its collective, or is refused and ends at once; a READY, DATA or ABORT of the running collective is taken, the READY and ABORT of one not started are kept;
past TMO the collective ends ST_TIMEOUT; an ended one leaves its engine with its status recorded. It says where each of these commands completes, with a next state of its own effect: reduceScatter, allGather, allReduce, normred, collReady,
collData, collAbort, collTimeout, collEnd. -/
def Obligations.CollectivesRun : Prop :=
  (∀ (s t : State) (io : Die) (r : CollRun), CollStart s io.val 1 r t → exec (.reduceScatter io) s = .next (t.collBegin io.val r)) ∧
  (∀ (s t : State) (io : Die) (r : CollRun), CollStart s io.val 2 r t → exec (.allGather io) s = .next (t.collBegin io.val r)) ∧
  (∀ (s t : State) (io : Die) (r : CollRun), CollStart s io.val 3 r t → exec (.allReduce io) s = .next (t.collBegin io.val r)) ∧
  (∀ (s t : State) (io : Die) (r : CollRun), CollStart s io.val 4 r t → exec (.normred io) s = .next (t.collBegin io.val r)) ∧
  (∀ (s : State) (c : Instr) (op : Nat) (io : Die) (a : Nat) (who : Option Nat) (rest : List (Nat × Option Nat)),
    (c = .reduceScatter io ∧ op = 1 ∨ c = .allGather io ∧ op = 2 ∨ c = .allReduce io ∧ op = 3 ∨ c = .normred io ∧ op = 4) → s.life = .running → (s.coll io.val).run = none → (s.coll io.val).queue = (a, who) :: rest → s.collWaits io.val = false →
    (s.collDesc who a = none ∨ ∃ d, s.collDesc who a = some d ∧ dword d 0 % 16 = op ∧ (s.collTaken io.val a who rest).2 = false ∧ (s.collTaken io.val a who rest).1.collOf io.val who d = none) →
    exec c s = .next ((s.collTaken io.val a who rest).1.onColl io.val (fun e => { e with run := some ((s.collTaken io.val a who rest).1.collRefused who) }))) ∧
  (∀ (s : State) (io a : Nat) (who : Option Nat) (rest : List (Nat × Option Nat)), (s.collTaken io a who rest).1.coll io = (s.collQueued io rest).coll io ∧ (s.collTaken io a who rest).1.fld (collStatus io) COLL_STATUS.BUSY = 1) ∧
  (∀ (s : State) (io : Nat) (rest : List (Nat × Option Nat)), ((s.collQueued io rest).coll io).queue = rest ∧ (s.collQueued io rest).fld (collStatus io) COLL_STATUS.BUSY = 1 ∧ (s.collQueued io rest).mem = s.mem) ∧
  (∀ (s t : State) (q : Fin 16) (p : DftPacket) (r : CollRun), Arrives s q p 7 t → (t.coll (collEngine p)).run = some r → r.takes p = true →
    (collCop p = 0 → exec (.collData q p) s = .next ((t.collDataIn (collEngine p) p r).sendAck p)) ∧ (collCop p = 1 → exec (.collReady q p) s = .next ((t.collReadyIn (collEngine p) p).sendAck p)) ∧
    (collCop p = 2 → exec (.collAbort q p) s = .next ((t.collAbortIn (collEngine p) p).sendAck p))) ∧
  (∀ (s t : State) (q : Fin 16) (p : DftPacket), Arrives s q p 7 t → (t.coll (collEngine p)).run = none → t.collAhead p = true →
    (collCop p = 1 → exec (.collReady q p) s = .next ((t.onColl (collEngine p) (fun e => { e with early := e.early ++ [p] })).sendAck p)) ∧ (collCop p = 2 → exec (.collAbort q p) s = .next ((t.onColl (collEngine p) (fun e => { e with early := e.early ++ [p] })).sendAck p))) ∧
  (∀ (s : State) (io : Die) (r : CollRun), s.life = .running → (s.coll io.val).run = some r → r.ended = none → r.since + ms (2 ^ r.tmo) ≤ s.now → exec (.collTimeout io) s = .next (s.collStopRun io.val .timeout true)) ∧
  (∀ (s : State) (io : Die) (r : CollRun) (st : Status), s.life = .running → (s.coll io.val).run = some r → r.ended = some st → s.collWaits io.val = false →
    ∃ t : State, exec (.collEnd io) s = .next t ∧ (t.coll io.val).run = none ∧ t.fld (collStatus io.val) COLL_STATUS.BUSY = 0 ∧ t.fld (collStatus io.val) COLL_STATUS.LAST_STATUS = code st ∧ t.mem = s.mem)

/-- Packets and sessions (14 R506, R512-R522, R526-R532): a packet that a port does not take counts in DISCARDS, one without room in OVERRUN, a failed tag in AUTH_FAIL; one whose header row is read with an uncorrectable word goes no further
(R533); an incomplete packet is closed after 20 us; an ARP request, a neighbour solicitation or an echo is answered at once; a HELLO opens a session slot, with the keys its secret and transcript give, and is answered in clear to where it
came from, and one with a reserved field that is not zero, or a wrong length, is refused; AUTH, signed over the transcript and its role, opens the session for its role, or frees it where it fails; sessions without AUTH for 1 s, or idle for
30 s, are freed; unacknowledged events are sent again and end the session after 16; a command past its bound is answered ST_TIMEOUT. It says where each of these commands completes, with a next state of its own effect: hostPacketReceive,
fifoPacketTimeout, hello, auth, authTimeout, commandTimeout, sessionIdleTimeout, eventRetransmit. -/
def Obligations.PacketsAndSessionsAreKept : Prop :=
  (∀ (s : State) (h : Fin 2) (p : HostPacket), s.life = .running → s.portUp (.host h) = true → s.receiving h.val = false →
    (s.hostTakes h.val p = false → exec (.hostPacketReceive h p) s = .next ((s.fecCount (.host h) p.fecCorr p.fecUncorr).tally (hp .HP_ERR h.val) HP_ERR.DISCARDS 1)) ∧
    (s.hostTakes h.val p = true → netUdp p.net = false → ∃ t : State, exec (.hostPacketReceive h p) s = .next t ∧ (t.rx h.val).answer = some (packetPeer p) ∧ (t.rx h.val).pkts = (s.rx h.val).pkts ∧ t.sessions = s.sessions) ∧
    (s.hostTakes h.val p = true → netUdp p.net = true → s.hasRoom h.val p = false → exec (.hostPacketReceive h p) s = .next ((s.fecCount (.host h) p.fecCorr p.fecUncorr).tally (hp .HP_FIFO_STAT h.val) HP_FIFO_STAT.OVERRUN 1)) ∧
    (s.hostTakes h.val p = true → netUdp p.net = true → s.hasRoom h.val p = true → s.verdict h.val p = 4 →
      ∃ t : State, exec (.hostPacketReceive h p) s = .next t ∧ t.receiving h.val = true ∧ t.sessions = s.sessions) ∧
    (s.hostTakes h.val p = true → netUdp p.net = true → s.hasRoom h.val p = true → s.verdict h.val p = 2 →
      ∃ t : State, exec (.hostPacketReceive h p) s = .next t ∧ t.sessions = s.sessions ∧ t.fld (hp .HP_SEC h.val) HP_SEC.AUTH_FAIL = min (2 ^ (HP_SEC.AUTH_FAIL.hi + 1 - HP_SEC.AUTH_FAIL.lo) - 1) (s.fld (hp .HP_SEC h.val) HP_SEC.AUTH_FAIL + 1)) ∧
    (s.hostTakes h.val p = true → netUdp p.net = true → s.hasRoom h.val p = true → s.verdict h.val p = 0 → p.fifo.any (fun u => u.uncorr && u.row == 0) = true →
      ∃ t : State, exec (.hostPacketReceive h p) s = .next t ∧ (t.rx h.val).hellos = (s.rx h.val).hellos ∧ t.sessions = s.sessions) ∧
    (s.hostTakes h.val p = true → netUdp p.net = true → s.hasRoom h.val p = true → s.verdict h.val p = 0 → isHello p = true → p.fifo.any (fun u => u.uncorr && u.row == 0) = false →
      ∃ t : State, exec (.hostPacketReceive h p) s = .next t ∧ (t.rx h.val).hellos = (s.rx h.val).hellos ++ [helloIn p] ∧ t.sessions = s.sessions)) ∧
  (∀ (s : State) (h : Fin 2) (k : FifoPkt), s.life = .running → (s.rx h.val).pkts.find? (fun q => !q.closed) = some k → k.since + 22000 ≤ s.now → (s.rx h.val).dropping = false →
    exec (.fifoPacketTimeout h) s = .next ((s.count (hp .HP_FIFO_PTR h.val) HP_FIFO_PTR.TAIL 1).closePacket h.val k)) ∧
  (∀ (s : State) (h : Fin 2) (lo hi w : Nat) (key : List Byte) (i : HelloIn) (rest : List HelloIn) (v n : Nat), s.life = .running → (s.rx h.val).hellos = i :: rest → i.resv = false → i.plen = 8 → chooseVersion lo hi = some v → key.length = 1568 → 1 ≤ w → w ≤ 255 → hi ≤ 65535 →
    findIdx (fun i => (tget? s.sessions (sesKey h.val i)).isNone) 256 = some n →
    ∃ (t : State) (x : Session), exec (.hello h lo hi w key) s = .next t ∧ tget? t.sessions (sesKey h.val n) = some x ∧ x.open' = false ∧ x.lease = none ∧ x.window = min w (s.fld (hp .HP_CFG h.val) HP_CFG.WINDOW_MAX) ∧ x.next = 1 ∧ x.since = s.now ∧ x.peer = i.peer ∧ (t.rx h.val).hellos = rest ∧
      x.digest = transcript (beBytes 2 lo ++ beBytes 2 hi ++ beBytes 2 w ++ beBytes 2 0) key (beBytes 2 v ++ beBytes 2 x.window ++ beBytes 4 x.id ++ identityDigest) (Config.kemCipher key t.fresh) ∧ x.keys = Config.shake576 (Config.kemSecret key t.fresh ++ x.digest)) ∧
  (∀ (s : State) (h : Fin 2) (lo hi w : Nat) (key : List Byte) (i : HelloIn) (rest : List HelloIn), s.life = .running → (s.rx h.val).hellos = i :: rest → (i.resv = true ∨ i.plen ≠ 8 ∨ key.length ≠ 1568 ∨ chooseVersion lo hi = none) →
    exec (.hello h lo hi w key) s = .next ((s.setRx h.val { s.rx h.val with hellos := rest }).sendClear h.val i.peer .range [] [])) ∧
  (∀ (s : State) (q : DcpHdr) (role : Nat) (d : List Byte) (sig : HostSig) (k : Nat) (x : Session) (u : State), s.life = .running → s.turn q 2 = some (k, x) → x.open' = false → s.landRead q.port.val x.lease (x.landing q.seq) = (u, false) → q.seq = 1 → q.poisoned = false → x.spoiled q.seq = false → x.oddHeader q.seq = false →
    q.verMajor = x.verMajor → q.verMinor ≤ x.verMinor → q.plen = 8 → q.dlen = 3073 → q.resv = false →
    (role = 1 → u.minimal = false → x.signedBy d 1 sig = true → tget? s.leaseKeys q.lease.val = some d → exec (.auth q role d sig) s = .next ((u.onSession k (fun x => { x with open' := true, lease := some q.lease.val })).reply k (replyOf q 2 .ok [] []))) ∧
    (role = 0 → q.lease = 0 → x.signedBy d 0 sig = true → s.mgmtKeys.contains d = true → u.mgmtKeys.isEmpty = false → exec (.auth q role d sig) s = .next ((u.onSession k (fun x => { x with open' := true, lease := none })).reply k (replyOf q 2 .ok [] []))) ∧
    (role = 1 → u.minimal = false → x.signedBy d 1 sig = false → exec (.auth q role d sig) s = .next ((u.reply k (replyOf q 2 .auth [] [])).freeSession k))) ∧
  (∀ (x : Session) (d : List Byte) (role : Nat) (b : List Byte), x.signedBy d role (.given b) = (b.length == 1280 && Config.authSig d (x.digest ++ (BitVec.ofNat 8 role :: List.replicate 7 0#8)) b)) ∧
  (∀ (s : State) (h : Fin 2) (id k : Nat) (x : Session), s.life = .running → s.findSession h.val id = some (k, x) →
    (x.open' = false → x.cmds.any (fun c => c.opcode == 2) = false → x.since + 1100000000 ≤ s.now → exec (.authTimeout h id) s = .next (s.freeSession k)) ∧
    (x.open' = true → x.cmds = [] → x.lastPkt + 33000000000 ≤ s.now → exec (.sessionIdleTimeout h id) s = .next (s.freeSession k)) ∧
    (∀ c, x.cmds.find? (fun c => match c.begun with | some b => decide (b.1 + b.2 ≤ s.now) | none => false) = some c → exec (.commandTimeout h id) s = .next (s.reply k ⟨c.seq, c.opcode, .timeout, [], []⟩)) ∧
    ((∃ e, e ∈ x.events ∧ e.sent + 11000000 ≤ s.now ∧ 16 ≤ e.tries) → exec (.eventRetransmit h id) s = .next (s.freeSession k)) ∧
    (∀ e, x.events = [e] → e.sent + 11000000 ≤ s.now → e.tries < 16 →
      exec (.eventRetransmit h id) s = .next ((s.setSession k { x with events := [{ e with sent := s.now, tries := e.tries + 1 }] }).sendIn k e.seq e.code true e.status e.params []))) ∧
  (∀ (s : State) (k : Nat) (x : Session), tget? s.sessions k = some x → tget? (s.freeSession k).sessions k = none ∧ ∀ j, j ≠ k → tget? (s.freeSession k).sessions j = tget? s.sessions j)

/-- A reply (14 R518, R519, R521): the reply to the one command of the session is kept at the head of its kept replies, twice the window at most; L advances past its SEQ and the command is gone; the reply changes no memory, no core and no other
session, nor the session's lease. -/
def Obligations.RepliesAreKeptAndSent : Prop :=
  ∀ (s : State) (k : Nat) (x : Session) (c : DcpCmd) (r : DcpReply), tget? s.sessions k = some x → x.cmds = [c] → c.seq = r.seq → 1 ≤ x.window →
  ∃ y : Session, tget? (s.reply k r).sessions k = some y ∧ y.replies = (r :: x.replies).take (2 * x.window) ∧ y.next = r.seq + 1 ∧ y.cmds = [] ∧ y.lease = x.lease ∧ y.open' = x.open' ∧ (s.reply k r).mem = s.mem ∧ (s.reply k r).cores = s.cores ∧
    ∀ j, j ≠ k → tget? (s.reply k r).sessions j = tget? s.sessions j

/-- Session, identity, image, restart and address commands (14 R522, R523, R526; 17 R592, R598, R601, R602, R609): each one performed is answered ST_OK with its parameters and data; EVENT_ACK drops the events it acknowledges; IMAGE_COMMIT
writes the staged image into the slot where it is whole and passes the checks, and is answered ST_OK when the slot is written; a slot whose writing a loss of supply or a reset cuts off holds no image that a start accepts; RESTART makes a
start due with FAIL_COUNT 0; UNIT_ADDRESS gives the address while the fabric is off. It says where each of these commands completes, with a next state of its own effect: close, keepalive, eventAck, identify, attest, startRecord, imageBegin,
imageChunk, imageCommit, restart, unitAddress. -/
def Obligations.UnitCommandsAreAnswered : Prop :=
  (∀ (s : State) (q : DcpHdr) (k : Nat) (x : Session) (u : State), Performs s q 4 0 0 true k x u → exec (.keepalive q) s = .next (u.reply k (replyOf q 4 .ok [] []))) ∧
  (∀ (s : State) (q : DcpHdr) (k : Nat) (x : Session) (u : State), Performs s q 3 0 0 true k x u → exec (.close q) s = .next ((u.replyOne k (replyOf q 3 .ok [] [])).freeSession k)) ∧
  (∀ (s : State) (q : DcpHdr) (n k : Nat) (x : Session) (u : State), Performs s q 5 8 0 true k x u → n < 2 ^ 32 →
    exec (.eventAck q n) s = .next ((u.onSession k (fun x => { x with events := x.events.filter (fun e => n < e.seq) })).reply k (replyOf q 5 .ok [] []))) ∧
  (∀ (s : State) (q : DcpHdr) (k : Nat) (x : Session) (u : State), Performs s q 0x0101 0 0 true k x u →
    exec (.identify q) s = .next (u.reply k (replyOf q 0x0101 .ok (beBytes 2 u.self ++ [BitVec.ofNat 8 (gradeCode u.grade), 0#8] ++ beBytes 4 u.fwVersion ++ identityDigest) []))) ∧
  (∀ (s : State) (q : DcpHdr) (nonce : List Byte) (k : Nat) (x : Session) (u : State), Performs s q 0x0102 32 0 true k x u → nonce.length = 32 →
    exec (.attest q nonce) s = .next (u.reply k (replyOf q 0x0102 .ok [] (u.report nonce ++ Config.sign (Config.shake512 (u.report nonce)))))) ∧
  (∀ (s : State) (q : DcpHdr) (k : Nat) (x : Session) (u : State), Performs s q 0x0103 0 0 true k x u → exec (.startRecord q) s = .next (u.reply k (replyOf q 0x0103 .ok u.startRecord []))) ∧
  (∀ (s : State) (q : DcpHdr) (n k : Nat) (x : Session) (u : State), Performs s q 0x0601 8 0 true k x u → n ≤ 134217728 → exec (.imageBegin q n) s = .next (({ u with staged := some ⟨n, []⟩ } : State).reply k (replyOf q 0x0601 .ok [] []))) ∧
  (∀ (s : State) (q : DcpHdr) (off : Nat) (data : List Byte) (k : Nat) (x : Session) (u : State) (y : StagedImage), Performs s q 0x0602 8 data.length true k x u → 1 ≤ data.length → data.length ≤ 8192 → u.staged = some y → off + data.length ≤ y.total →
    exec (.imageChunk q off data) s = .next (({ u with staged := some { y with chunks := y.chunks ++ [(off, data)] } } : State).reply k (replyOf q 0x0602 .ok [] []))) ∧
  (∀ (s : State) (q : DcpHdr) (k : Nat) (x : Session) (u : State) (y : StagedImage), Performs s q 0x0603 0 0 true k x u → u.staged = some y → y.whole = true → s.flashWrite = none →
    exec (.imageCommit q) s = .next (if imageFault y.bytes = 0 then ({ u with flashWrite := some ⟨k, q.seq, y.bytes⟩ } : State).beginCmd k q.seq (ms 10000) else u.reply k (replyOf q 0x0603 .auth [] []))) ∧
  (∀ (s : State) (q : DcpHdr) (k : Nat) (x : Session) (u : State), Performs s q 0x0604 0 0 true k x u → exec (.restart q) s = .next (({ u.storeArea { u.startArea with failCount := 0 } with startDue := true } : State).reply k (replyOf q 0x0604 .ok [] []))) ∧
  (∀ (s : State) (q : DcpHdr) (a : BitVec 16) (k : Nat) (x : Session) (u : State), Performs s q 0x0701 8 0 true k x u → 1 ≤ a.toNat → a.toNat ≤ 0xFFFE → a.toNat ≠ u.self → u.fld fabCfg FAB_CFG.ENABLE = 0 →
    ∃ t : State, exec (.unitAddress q a) s = .next (t.reply k (replyOf q 0x0701 .ok [] [])) ∧ t.self = a.toNat ∧ t.fld unitAddr UNIT_ADDR.RECLAIMED = 0 ∧ t.addrRecord = some ⟨a.toNat, u.portRecord⟩ ∧ t.mem = u.mem) ∧
  (∀ (s : State) (w : FlashWrite), s.flashWrite = some w → s.flashOn = ({ s with flash := w.bytes, flashWrite := none } : State).reply w.session ⟨w.seq, 0x0603, .ok, [], []⟩) ∧
  (∀ (s : State) (w : FlashWrite) (l : Life), s.flashWrite = some w → imageFault (s.cold l).flash ≠ 0 ∧ (s.cold l).flashWrite = none)

/-- Diagnostic and memory commands (14 R523, R524, R675; 01 R32-R34): REG_READ returns every register or the status that refused one; REG_WRITE writes in order up to the first refusal; a REG_WRITE that must wait for its turn at a stack is held
with the writes it has done; a MEM_READ or MEM_WRITE of a span that may be accessed asks for its rows, and once all are performed is answered ST_OK, ST_INTEGRITY where one is poisoned, a MEM_READ with their bytes; a span that may not be
accessed is refused whole. It says where each of these commands completes, with a next state of its own effect: regRead, regWrite, memRead, memWrite. -/
def Obligations.DiagnosticAndMemoryCommandsAct : Prop :=
  (∀ (s : State) (q : DcpHdr) (l : List Word) (k : Nat) (x : Session) (u : State), Performs s q 0x0104 (8 + 8 * l.length) 0 true k x u → 1 ≤ l.length → l.length ≤ 63 →
    ((u.readAll x.actor (l.map (·.toNat))).2.1 = .ok → exec (.regRead q l) s = .next ((u.readAll x.actor (l.map (·.toNat))).1.reply k (replyOf q 0x0104 .ok (u.readAll x.actor (l.map (·.toNat))).2.2 []))) ∧
    ((u.readAll x.actor (l.map (·.toNat))).2.1 ≠ .ok → exec (.regRead q l) s = .next (u.reply k (replyOf q 0x0104 (u.readAll x.actor (l.map (·.toNat))).2.1 [] [])))) ∧
  (∀ (s : State) (q : DcpHdr) (l : List (Word × Word)) (k : Nat) (x : Session) (u : State), Performs s q 0x0105 (8 + 16 * l.length) 0 true k x u → 1 ≤ l.length → l.length ≤ 31 →
    (∀ v st n, u.writeAll x.actor k q.seq ((l.map (fun w => (w.1.toNat, w.2.toNat))).drop (x.written q.seq)) (x.written q.seq) = (v, some st, n) → exec (.regWrite q l) s = .next (v.reply k (replyOf q 0x0105 st (beBytes 2 n) []))) ∧
    (∀ v n, u.writeAll x.actor k q.seq ((l.map (fun w => (w.1.toNat, w.2.toNat))).drop (x.written q.seq)) (x.written q.seq) = (v, none, n) → exec (.regWrite q l) s = .next (v.holdCmd k q.seq 1100000 n))) ∧
  (∀ (s : State) (q : DcpHdr) (a : Word) (n k : Nat) (x : Session) (u : State), Performs s q 0x0201 16 0 true k x u → 1 ≤ n → n ≤ 8192 →
    (∀ st, u.memCheck x.actsFor a.toNat n = some st → exec (.memRead q a n) s = .next (u.reply k (replyOf q 0x0201 st [] []))) ∧
    (u.memCheck x.actsFor a.toNat n = none → exec (.memRead q a n) s = .next (((u.memBegin k q.seq a.toNat n).memAsk (memAgent k x.actsFor) (spanRows a.toNat n)).beginCmd k q.seq 1100000))) ∧
  (∀ (s : State) (q : DcpHdr) (a : Word) (n : Nat) (data : List Byte) (k : Nat) (x : Session) (u : State), Performs s q 0x0202 16 n true k x u → data.length = n → 1 ≤ n → n ≤ 8192 →
    (∀ st, u.memCheck x.actsFor a.toNat n = some st → exec (.memWrite q a n data) s = .next (u.reply k (replyOf q 0x0202 st [] []))) ∧
    (u.memCheck x.actsFor a.toNat n = none → exec (.memWrite q a n data) s = .next (((u.memBegin k q.seq a.toNat n).memPutAll (memAgent k x.actsFor) a.toNat data (spanRows a.toNat n)).beginCmd k q.seq 1100000))) ∧
  (∀ (s : State) (k : Nat) (c : DcpCmd) (m : DcpMem) (l : List MemReq), s.memReqs k m = l → c.opcode = 0x0202 →
    s.memDone k c m = ({ s with reqs := s.reqs.filter (fun r => !memMine k m r) } : State).reply k ⟨c.seq, 0x0202, if l.any (fun r => r.img.poison) = true then .integrity else .ok, [], []⟩) ∧
  (∀ (s v : State) (k : Nat) (c : DcpCmd) (m : DcpMem) (l : List MemReq) (b : List Byte), s.memReqs k m = l → c.opcode = 0x0201 → ({ s with reqs := s.reqs.filter (fun r => !memMine k m r) } : State).memBytes l (spanRows m.addr m.len) = (v, b) →
    s.memDone k c m = v.reply k ⟨c.seq, 0x0201, if l.any (fun r => r.img.poison) = true then .integrity else .ok, [], (b.drop (m.addr % 512)).take m.len⟩)

/-- Leases (15 R536-R547): LEASE_CREATE makes a FREE lease ACTIVE with its VC, SHARES and seed; LEASE_BIND takes resources that pass its checks, once a bank about to be retired lets it; LEASE_UNBIND and LEASE_REBIND quiesce them first;
LEASE_ABORT of the lease quiesces all its work; LEASE_KEY and LEASE_ACCT store and return; a drained quiesce ends, one that has not drained in 50 us is forced. It says where each of these commands completes, with a next state of its own
effect: leaseCreate, leaseBind, leaseUnbind, leaseRebind, quiesceComplete, quiesceTimeout, leaseAbort, leaseKey, leaseAcct. -/
def Obligations.LeasesAreCreatedBoundAndQuiesced : Prop :=
  (∀ (s : State) (q : DcpHdr) (n : Fin 256) (vc sh : Nat) (seed : Word) (k : Nat) (x : Session) (u : State), Performs s q 0x0301 16 0 true k x u → s.binding = none → 2 ≤ vc → vc ≤ 7 → 1 ≤ sh → sh ≤ 65535 → u.leaseState n.val = 0 →
    ∃ t : State, exec (.leaseCreate q n vc sh seed) s = .next (t.reply k (replyOf q 0x0301 .ok [] [])) ∧ t.leaseState n.val = 1 ∧ t.fld (leaseCfg n.val) LEASE_CFG.VC = vc ∧ t.fld (leaseCfg n.val) LEASE_CFG.SHARES = sh ∧ t.reg ⟨.LEASE_SEED, selSv0, n.val, 0⟩ = seed ∧
      t.fld (acct n.val 0) ACCT.COUNT = 0 ∧ t.mem = u.mem ∧ t.cores = u.cores) ∧
  (∀ (s : State) (q : DcpHdr) (n : Fin 256) (vc sh : Nat) (seed : Word) (k : Nat) (x : Session) (u : State), Performs s q 0x0301 16 0 true k x u → s.binding = none → 2 ≤ vc → vc ≤ 7 → 1 ≤ sh → sh ≤ 65535 → u.leaseState n.val ≠ 0 →
    exec (.leaseCreate q n vc sh seed) s = .next (u.reply k (replyOf q 0x0301 .state [] []))) ∧
  (∀ (s : State) (q : DcpHdr) (n : Fin 256) (kind : Nat) (first count : Word) (k : Nat) (x : Session) (u v : State), Performs s q 0x0302 24 0 true k x u → s.binding = none → u.groupRead kind first.toNat = (v, false) → 
    (∀ st, v.bindCheck kind first.toNat count.toNat none (some n.val) = some st → exec (.leaseBind q n kind first count) s = .next (v.reply k (replyOf q 0x0302 st [] []))) ∧
    (v.bindCheck kind first.toNat count.toNat none (some n.val) = none → v.bindWaits kind first.toNat count.toNat = true → exec (.leaseBind q n kind first count) s = .next (v.holdCmd k q.seq (kindBound kind count.toNat) 0)) ∧
    (v.bindCheck kind first.toNat count.toNat none (some n.val) = none → v.bindWaits kind first.toNat count.toNat = false → exec (.leaseBind q n kind first count) s = .next ((v.take kind first.toNat count.toNat n.val).reply k (replyOf q 0x0302 .ok [] [])))) ∧
  (∀ (s : State) (q : DcpHdr) (n : Fin 256) (kind : Nat) (first count : Word) (k : Nat) (x : Session) (u : State), Performs s q 0x0303 24 0 true k x u → s.binding = none → u.bindCheck kind first.toNat count.toNat (some n.val) none = none →
    exec (.leaseUnbind q n kind first count) s = .next ((({ u with binding := some ⟨k, q.seq, 0x0303, n.val, none, kind, first.toNat, count.toNat, false, .ok⟩ } : State).quiesceStart n.val (kindScope u kind first.toNat count.toNat) .state .binding).beginCmd k q.seq (if kind = 0 then s.holdingBound n.val else kindBound kind count.toNat))) ∧
  (∀ (s : State) (q : DcpHdr) (n m : Fin 256) (kind : Nat) (first count : Word) (k : Nat) (x : Session) (u v : State), Performs s q 0x0304 24 0 true k x u → s.binding = none → u.groupRead kind first.toNat = (v, false) → v.bindCheck kind first.toNat count.toNat (some n.val) (some m.val) = none →
    exec (.leaseRebind q n m kind first count) s = .next ((({ v with binding := some ⟨k, q.seq, 0x0304, n.val, (some m.val), kind, first.toNat, count.toNat, false, .ok⟩ } : State).quiesceStart n.val (kindScope v kind first.toNat count.toNat) .state .binding).beginCmd k q.seq (if kind = 0 then s.holdingBound n.val else kindBound kind count.toNat))) ∧
  (∀ (s : State) (q : DcpHdr) (n : Fin 256) (target : Word) (k : Nat) (x : Session) (u : State), Performs s q 0x0305 16 0 (x.mayName n.val) k x u → s.binding = none → u.leaseState n.val ≠ 0 → u.quiescing n.val = false →
    exec (.leaseAbort q n 0 target) s = .next ((({ u with binding := some ⟨k, q.seq, 0x0305, n.val, none, 0, 0, 0, false, .ok⟩ } : State).quiesceStart n.val .all .state .binding).beginCmd k q.seq 55000)) ∧
  (∀ (s : State) (q : DcpHdr) (n : Fin 256) (d : List Byte) (k : Nat) (x : Session) (u : State), Performs s q 0x0306 72 0 true k x u → d.length = 64 → u.leaseState n.val ≠ 0 →
    exec (.leaseKey q n d) s = .next (({ u with leaseKeys := tset u.leaseKeys n.val d } : State).reply k (replyOf q 0x0306 .ok [] []))) ∧
  (∀ (s : State) (q : DcpHdr) (n : Fin 256) (k : Nat) (x : Session) (u : State), Performs s q 0x0307 8 0 (x.mayName n.val) k x u →
    exec (.leaseAcct q n) s = .next (u.reply k (replyOf q 0x0307 .ok [] ((List.range 64).flatMap (fun w => beBytes 8 (u.acctWord n.val w).toNat))))) ∧
  (∀ (s : State) (n : Fin 256) (z : Quiesce), s.life = .running → s.quiesceOf n.val s.quiet = some z → exec (.quiesceComplete n) s = .next (s.quiesceEnd z .ok)) ∧
  (∀ (s : State) (n : Fin 256) (z : Quiesce), s.life = .running → s.quiesceOf n.val (fun q => decide (q.since + 55000 ≤ s.now) && !s.quiet q) = some z → exec (.quiesceTimeout n) s = .next ((s.force z).quiesceEnd z .timeout))

/-- Rollout, data and code commands (14 R523, R525; 18 R622, R623; 12 R478, R479): a prompt joins the prompts of the lease; the oldest completion of a prompt leaves with its reply; pushed records join their stream, whose position and draws
advance; a chunk joins its slot's staged image, whose FINAL chunk commits it; limits are set. The choices of log 33 stand behind the joins. It says where each of these commands completes, with a next state of its own effect: promptSubmit,
rolloutFetch, dataPush, codeLoad, codeLimits. -/
def Obligations.ServiceCommandsAct : Prop :=
  (∀ (s : State) (q : DcpHdr) (id : Word) (ad mx : Nat) (more : Bool) (text : List Byte) (k : Nat) (x : Session) (u : State), Performs s q 0x0401 16 text.length true k x u → 1 ≤ text.length → text.length ≤ 8192 → 1 ≤ mx → mx ≤ 65535 →
    exec (.promptSubmit q id ad mx more text) s = .next ((u.promptIn x.actsFor id.toNat ad mx more text).reply k (replyOf q 0x0401 .ok [] []))) ∧
  (∀ (s : State) (n id ad mx : Nat) (more : Bool) (text : List Byte), s.prompts.any (fun p => p.lease == n && p.id == id && p.more) = false → (s.promptIn n id ad mx more text).prompts = s.prompts ++ [⟨n, id, ad, mx, more, text⟩]) ∧
  (∀ (s : State) (q : DcpHdr) (id : Word) (mx k : Nat) (x : Session) (u : State) (c : Completion), Performs s q 0x0402 16 0 true k x u → 64 ≤ mx → mx ≤ 8192 → u.completions.find? (fun c => c.lease == x.actsFor && (id == 0 || c.id == id.toNat)) = some c → c.bytes.length ≤ mx →
    exec (.rolloutFetch q id mx) s = .next (({ u with completions := u.completions.erase c, prompts := u.prompts.filter (fun p => !(p.lease == x.actsFor && p.id == c.id)) } : State).reply k (replyOf q 0x0402 .ok [] c.bytes))) ∧
  (∀ (s : State) (q : DcpHdr) (st n : Nat) (data : List Byte) (k : Nat) (x : Session) (u : State), Performs s q 0x0403 8 data.length true k x u → 1 ≤ data.length → data.length ≤ 8192 → st < 16 → n < 2 ^ 32 →
    ∃ t : State, exec (.dataPush q st n data) s = .next (t.reply k (replyOf q 0x0403 .ok (beBytes 8 (((u.stream x.actsFor st).1 + n) % 2 ^ 64)) [])) ∧ t.stream x.actsFor st = (((u.stream x.actsFor st).1 + n) % 2 ^ 64, ((u.stream x.actsFor st).2 + n) % 2 ^ 64) ∧ t.mem = u.mem ∧ t.regs = u.regs) ∧
  (∀ (s : State) (q : DcpHdr) (slot off total : Nat) (fin : Bool) (chunk : List Byte) (k : Nat) (x : Session) (u : State), Performs s q 0x0404 16 chunk.length true k x u → 1 ≤ chunk.length → chunk.length ≤ 8192 → slot < 5 → total ≤ 67108864 → u.snapStopped x.actsFor = false →
    exec (.codeLoad q slot fin off total chunk) s = .next ((u.codeChunk x.actsFor slot fin off total chunk).1.reply k (replyOf q 0x0404 (u.codeChunk x.actsFor slot fin off total chunk).2 [] []))) ∧
  (∀ (s : State) (q : DcpHdr) (slot tm heap k : Nat) (x : Session) (u : State), Performs s q 0x0405 16 0 true k x u → slot < 5 → 1 ≤ tm → tm ≤ 60000 → 2 ^ 20 ≤ heap → heap ≤ 2 ^ 32 → heap % 2 ^ 20 = 0 →
    exec (.codeLimits q slot tm heap) s = .next (({ u with codeSlots := tset u.codeSlots (slotKey x.actsFor slot) { u.codeSlot x.actsFor slot with timeMs := tm, heap := heap } } : State).reply k (replyOf q 0x0405 .ok [] [])))

/-- Snapshots (18 R624-R638): TAKE and RESTORE that pass their checks stop the lease; the stop's end makes the copy, or answers the restore; PULL returns image bytes and PUSH takes them; a lease with AUTO is stopped at the end of a step when
its interval has passed; an epoch check notes the failure once and checks every unit of the group. It says where each of these commands completes, with a next state of its own effect: snapshotTake, snapshotStopEnd, snapshotPull,
snapshotPush, snapshotRestore, autoSnapshot, epochCheck. -/
def Obligations.SnapshotsStopCopyAndRestore : Prop :=
  (∀ (s : State) (q : DcpHdr) (k : Nat) (x : Session) (u : State), Performs s q 0x0501 0 0 true k x u →
    (∀ st, u.takeCheck x.actsFor = some st → exec (.snapshotTake q) s = .next (u.reply k (replyOf q 0x0501 st [] []))) ∧
    (u.takeCheck x.actsFor = none → exec (.snapshotTake q) s = .next ((u.stopLease x.actsFor (some (k, q.seq)) false 0 (u.snapBytes x.actsFor) false).beginCmd k q.seq (stopBound (s.snapBytes x.actsFor))))) ∧
  (∀ (s : State) (n : Nat) (cmd : Option (Nat × Nat)) (re : Bool) (id b : Nat) (rd : Bool), (s.stopLease n cmd re id b rd).snapStopped n = true) ∧
  (∀ (s : State) (n : Fin 256) (o : SnapOp), s.life = .running → s.snapOp = some o → o.lease = n.val → s.engineBusy .dcp 0 o.lease = false →
    (o.restore = true → exec (.snapshotStopEnd n) s = .next ((s.stopEnded o).snapReply o .ok [])) ∧ (o.restore = false → exec (.snapshotStopEnd n) s = .next (s.takeEnd o))) ∧
  (∀ (s : State) (o : SnapOp), (s.stopEnded o).snapOp = none ∧ (s.stopEnded o).mem = s.mem) ∧
  (∀ (s : State) (q : DcpHdr) (id : Word) (off n k : Nat) (x : Session) (u : State) (im : SnapImage), Performs s q 0x0502 24 0 true k x u → 1 ≤ n → n ≤ 8192 → u.snapOf x.actsFor id.toNat = some im → off + n ≤ im.bytes → (u.stageRead im off n).2.2 = false →
    exec (.snapshotPull q id off n) s = .next ((u.stageRead im off n).1.reply k (replyOf q 0x0502 .ok [] (u.stageRead im off n).2.1))) ∧
  (∀ (s : State) (q : DcpHdr) (id : Word) (off : Nat) (data : List Byte) (k : Nat) (x : Session) (u : State) (im : SnapImage), Performs s q 0x0503 16 data.length true k x u → 1 ≤ data.length → data.length ≤ 8192 → 38 < off → u.snapOf x.actsFor id.toNat = some im → off + data.length ≤ im.bytes →
    ∃ t : State, exec (.snapshotPush q id off data) s = .next (t.reply k (replyOf q 0x0503 .ok [] [])) ∧ t = (u.pushInto im off data).1) ∧
  (∀ (s : State) (q : DcpHdr) (id : Word) (rd : Bool) (k : Nat) (x : Session) (u : State) (im : SnapImage), Performs s q 0x0504 16 0 true k x u → u.snapOf x.actsFor id.toNat = some im → s.snapOf x.actsFor id.toNat = some im → u.restoreCheck x.actsFor im = none →
    exec (.snapshotRestore q id rd) s = .next (match (u.stageRead im 0 im.bytes).1.imageCheck x.actsFor (u.stageRead im 0 im.bytes).2.1 (u.stageRead im 0 im.bytes).2.2 rd with
      | none => (((u.stageRead im 0 im.bytes).1.stopLease x.actsFor (some (k, q.seq)) true im.id im.bytes rd).restoreImage x.actsFor (u.stageRead im 0 im.bytes).2.1).beginCmd k q.seq (stopBound im.bytes)
      | some st => ((u.stageRead im 0 im.bytes).1.setFld (snap .SNAP_RESTORE x.actsFor) SNAP_RESTORE.LAST_STATUS (code st)).reply k (replyOf q 0x0504 st [] []))) ∧
  (∀ (s : State) (q : DcpHdr) (id : Word) (rd : Bool) (k : Nat) (x : Session) (u : State), Performs s q 0x0504 16 0 true k x u → u.snapOf x.actsFor id.toNat = none →
    exec (.snapshotRestore q id rd) s = .next ((u.setFld (snap .SNAP_RESTORE x.actsFor) SNAP_RESTORE.LAST_STATUS (code .range)).reply k (replyOf q 0x0504 .range [] []))) ∧
  (∀ (s u : State) (n : Fin 256), s.life = .running → s.stepEnds.contains n.val = true → u = { s with stepEnds := s.stepEnds.filter (· != n.val) } → u.fld (snap .SNAP_POLICY n.val) SNAP_POLICY.AUTO = 1 →
    (tget? s.lastSnap n.val).getD (tget 0 s.leaseBorn n.val) + 1100000000 * u.fld (snap .SNAP_STAT n.val) SNAP_STAT.INTERVAL_S ≤ s.now → u.takeCheck n.val = none → exec (.autoSnapshot n) s = .next (u.stopLease n.val none false 0 (u.snapBytes n.val) false)) ∧
  (∀ (s : State) (n : Fin 256) (g : Fin 128), s.life = .running → s.groupUnits n.val g.val ≠ [] → (∀ u, u ∈ s.groupUnits n.val g.val → (s.welt u).op = 0) →
    exec (.epochCheck n g) s = .next ((s.groupUnits n.val g.val).foldl (fun s u => s.epochUnit n.val u g.val) (s.noteFailure n.val)))
end

