-- ==== Sys2Proof/Laws/State.lean ====
section
/-! SUPPORT. What each update of one part of State leaves as it was: one lemma for each other field. -/
namespace Sys2Proof.Machine

variable (s : State)

@[simp] theorem State.setReg_pending (r : Reg) (v : Word) : (s.setReg r v).pending = s.pending := rfl
@[simp] theorem State.setReg_now (r : Reg) (v : Word) : (s.setReg r v).now = s.now := rfl
@[simp] theorem State.setReg_coreClock (r : Reg) (v : Word) : (s.setReg r v).coreClock = s.coreClock := rfl
@[simp] theorem State.setReg_fresh (r : Reg) (v : Word) : (s.setReg r v).fresh = s.fresh := rfl
@[simp] theorem State.setReg_grade (r : Reg) (v : Word) : (s.setReg r v).grade = s.grade := rfl
@[simp] theorem State.setReg_access (r : Reg) (v : Word) : (s.setReg r v).access = s.access := rfl
@[simp] theorem State.setReg_latest (r : Reg) (v : Word) : (s.setReg r v).latest = s.latest := rfl
@[simp] theorem State.setReg_mem (r : Reg) (v : Word) : (s.setReg r v).mem = s.mem := rfl
@[simp] theorem State.setReg_cores (r : Reg) (v : Word) : (s.setReg r v).cores = s.cores := rfl
@[simp] theorem State.setReg_flagOps (r : Reg) (v : Word) : (s.setReg r v).flagOps = s.flagOps := rfl
@[simp] theorem State.setReg_reqs (r : Reg) (v : Word) : (s.setReg r v).reqs = s.reqs := rfl
@[simp] theorem State.setReg_nextId (r : Reg) (v : Word) : (s.setReg r v).nextId = s.nextId := rfl
@[simp] theorem State.setReg_ctls (r : Reg) (v : Word) : (s.setReg r v).ctls = s.ctls := rfl
@[simp] theorem State.setReg_stackRuns (r : Reg) (v : Word) : (s.setReg r v).stackRuns = s.stackRuns := rfl
@[simp] theorem State.setReg_wcache (r : Reg) (v : Word) : (s.setReg r v).wcache = s.wcache := rfl
@[simp] theorem State.setReg_patrol (r : Reg) (v : Word) : (s.setReg r v).patrol = s.patrol := rfl
@[simp] theorem State.setReg_scrubs (r : Reg) (v : Word) : (s.setReg r v).scrubs = s.scrubs := rfl
@[simp] theorem State.setReg_frames (r : Reg) (v : Word) : (s.setReg r v).frames = s.frames := rfl
@[simp] theorem State.setReg_extents (r : Reg) (v : Word) : (s.setReg r v).extents = s.extents := rfl
@[simp] theorem State.setReg_pulses (r : Reg) (v : Word) : (s.setReg r v).pulses = s.pulses := rfl
@[simp] theorem State.setReg_rawLines (r : Reg) (v : Word) : (s.setReg r v).rawLines = s.rawLines := rfl
@[simp] theorem State.setReg_filteredHigh (r : Reg) (v : Word) : (s.setReg r v).filteredHigh = s.filteredHigh := rfl
@[simp] theorem State.setReg_inject (r : Reg) (v : Word) : (s.setReg r v).inject = s.inject := rfl
@[simp] theorem State.setReg_banks (r : Reg) (v : Word) : (s.setReg r v).banks = s.banks := rfl
@[simp] theorem State.setReg_upsets (r : Reg) (v : Word) : (s.setReg r v).upsets = s.upsets := rfl
@[simp] theorem State.setReg_retired (r : Reg) (v : Word) : (s.setReg r v).retired = s.retired := rfl
@[simp] theorem State.setReg_absent (r : Reg) (v : Word) : (s.setReg r v).absent = s.absent := rfl
@[simp] theorem State.setReg_perturbed (r : Reg) (v : Word) : (s.setReg r v).perturbed = s.perturbed := rfl
@[simp] theorem State.setReg_pertOld (r : Reg) (v : Word) : (s.setReg r v).pertOld = s.pertOld := rfl
@[simp] theorem State.setReg_conns (r : Reg) (v : Word) : (s.setReg r v).conns = s.conns := rfl
@[simp] theorem State.setReg_egress (r : Reg) (v : Word) : (s.setReg r v).egress = s.egress := rfl
@[simp] theorem State.setReg_arbiters (r : Reg) (v : Word) : (s.setReg r v).arbiters = s.arbiters := rfl
@[simp] theorem State.setReg_peerDue (r : Reg) (v : Word) : (s.setReg r v).peerDue = s.peerDue := rfl
@[simp] theorem State.setReg_spent (r : Reg) (v : Word) : (s.setReg r v).spent = s.spent := rfl
@[simp] theorem State.setReg_freed (r : Reg) (v : Word) : (s.setReg r v).freed = s.freed := rfl
@[simp] theorem State.setReg_wire (r : Reg) (v : Word) : (s.setReg r v).wire = s.wire := rfl
@[simp] theorem State.setReg_training (r : Reg) (v : Word) : (s.setReg r v).training = s.training := rfl
@[simp] theorem State.setReg_fecRecent (r : Reg) (v : Word) : (s.setReg r v).fecRecent = s.fecRecent := rfl
@[simp] theorem State.setReg_packing (r : Reg) (v : Word) : (s.setReg r v).packing = s.packing := rfl
@[simp] theorem State.setReg_replays (r : Reg) (v : Word) : (s.setReg r v).replays = s.replays := rfl
@[simp] theorem State.setReg_welts (r : Reg) (v : Word) : (s.setReg r v).welts = s.welts := rfl
@[simp] theorem State.setReg_pools (r : Reg) (v : Word) : (s.setReg r v).pools = s.pools := rfl
@[simp] theorem State.setReg_linkHeld (r : Reg) (v : Word) : (s.setReg r v).linkHeld = s.linkHeld := rfl
@[simp] theorem State.setReg_linkSpares (r : Reg) (v : Word) : (s.setReg r v).linkSpares = s.linkSpares := rfl
@[simp] theorem State.setReg_linkBuf (r : Reg) (v : Word) : (s.setReg r v).linkBuf = s.linkBuf := rfl
@[simp] theorem State.setReg_colls (r : Reg) (v : Word) : (s.setReg r v).colls = s.colls := rfl
@[simp] theorem State.setReg_collCounts (r : Reg) (v : Word) : (s.setReg r v).collCounts = s.collCounts := rfl
@[simp] theorem State.setReg_cached (r : Reg) (v : Word) : (s.setReg r v).cached = s.cached := rfl
@[simp] theorem State.setReg_writeBacks (r : Reg) (v : Word) : (s.setReg r v).writeBacks = s.writeBacks := rfl
@[simp] theorem State.setReg_cacheUpsets (r : Reg) (v : Word) : (s.setReg r v).cacheUpsets = s.cacheUpsets := rfl
@[simp] theorem State.setReg_hcCaches (r : Reg) (v : Word) : (s.setReg r v).hcCaches = s.hcCaches := rfl
@[simp] theorem State.setReg_hcReserved (r : Reg) (v : Word) : (s.setReg r v).hcReserved = s.hcReserved := rfl
@[simp] theorem State.setReg_codeSlots (r : Reg) (v : Word) : (s.setReg r v).codeSlots = s.codeSlots := rfl
@[simp] theorem State.setReg_extRuns (r : Reg) (v : Word) : (s.setReg r v).extRuns = s.extRuns := rfl
@[simp] theorem State.setReg_extDone (r : Reg) (v : Word) : (s.setReg r v).extDone = s.extDone := rfl
@[simp] theorem State.setReg_eyeCommits (r : Reg) (v : Word) : (s.setReg r v).eyeCommits = s.eyeCommits := rfl
@[simp] theorem State.setReg_eyeExpired (r : Reg) (v : Word) : (s.setReg r v).eyeExpired = s.eyeExpired := rfl
@[simp] theorem State.setReg_eyeWrites (r : Reg) (v : Word) : (s.setReg r v).eyeWrites = s.eyeWrites := rfl
@[simp] theorem State.setReg_claimedBy (r : Reg) (v : Word) : (s.setReg r v).claimedBy = s.claimedBy := rfl
@[simp] theorem State.setReg_lastClaim (r : Reg) (v : Word) : (s.setReg r v).lastClaim = s.lastClaim := rfl
@[simp] theorem State.setReg_roundRobin (r : Reg) (v : Word) : (s.setReg r v).roundRobin = s.roundRobin := rfl
@[simp] theorem State.setReg_rrSince (r : Reg) (v : Word) : (s.setReg r v).rrSince = s.rrSince := rfl
@[simp] theorem State.setReg_rangeDue (r : Reg) (v : Word) : (s.setReg r v).rangeDue = s.rangeDue := rfl
@[simp] theorem State.setReg_rangeOwner (r : Reg) (v : Word) : (s.setReg r v).rangeOwner = s.rangeOwner := rfl
@[simp] theorem State.setReg_hostRx (r : Reg) (v : Word) : (s.setReg r v).hostRx = s.hostRx := rfl
@[simp] theorem State.setReg_sessions (r : Reg) (v : Word) : (s.setReg r v).sessions = s.sessions := rfl
@[simp] theorem State.setReg_hostWire (r : Reg) (v : Word) : (s.setReg r v).hostWire = s.hostWire := rfl
@[simp] theorem State.setReg_mgmtKeys (r : Reg) (v : Word) : (s.setReg r v).mgmtKeys = s.mgmtKeys := rfl
@[simp] theorem State.setReg_leaseKeys (r : Reg) (v : Word) : (s.setReg r v).leaseKeys = s.leaseKeys := rfl
@[simp] theorem State.setReg_owned (r : Reg) (v : Word) : (s.setReg r v).owned = s.owned := rfl
@[simp] theorem State.setReg_quiesces (r : Reg) (v : Word) : (s.setReg r v).quiesces = s.quiesces := rfl
@[simp] theorem State.setReg_binding (r : Reg) (v : Word) : (s.setReg r v).binding = s.binding := rfl
@[simp] theorem State.setReg_monitor (r : Reg) (v : Word) : (s.setReg r v).monitor = s.monitor := rfl
@[simp] theorem State.setReg_monitorAt (r : Reg) (v : Word) : (s.setReg r v).monitorAt = s.monitorAt := rfl
@[simp] theorem State.setReg_snapOp (r : Reg) (v : Word) : (s.setReg r v).snapOp = s.snapOp := rfl
@[simp] theorem State.setReg_stepEnds (r : Reg) (v : Word) : (s.setReg r v).stepEnds = s.stepEnds := rfl
@[simp] theorem State.setReg_withdrawn (r : Reg) (v : Word) : (s.setReg r v).withdrawn = s.withdrawn := rfl
@[simp] theorem State.setReg_stageGib (r : Reg) (v : Word) : (s.setReg r v).stageGib = s.stageGib := rfl
@[simp] theorem State.setReg_snaps (r : Reg) (v : Word) : (s.setReg r v).snaps = s.snaps := rfl
@[simp] theorem State.setReg_snapCount (r : Reg) (v : Word) : (s.setReg r v).snapCount = s.snapCount := rfl
@[simp] theorem State.setReg_streams (r : Reg) (v : Word) : (s.setReg r v).streams = s.streams := rfl
@[simp] theorem State.setReg_records (r : Reg) (v : Word) : (s.setReg r v).records = s.records := rfl
@[simp] theorem State.setReg_leaseBorn (r : Reg) (v : Word) : (s.setReg r v).leaseBorn = s.leaseBorn := rfl
@[simp] theorem State.setReg_lastSnap (r : Reg) (v : Word) : (s.setReg r v).lastSnap = s.lastSnap := rfl
@[simp] theorem State.setReg_failures (r : Reg) (v : Word) : (s.setReg r v).failures = s.failures := rfl
@[simp] theorem State.setReg_recovering (r : Reg) (v : Word) : (s.setReg r v).recovering = s.recovering := rfl
@[simp] theorem State.setReg_prompts (r : Reg) (v : Word) : (s.setReg r v).prompts = s.prompts := rfl
@[simp] theorem State.setReg_powerAt (r : Reg) (v : Word) : (s.setReg r v).powerAt = s.powerAt := rfl
@[simp] theorem State.setReg_dutyAt (r : Reg) (v : Word) : (s.setReg r v).dutyAt = s.dutyAt := rfl
@[simp] theorem State.setReg_clusterUsed (r : Reg) (v : Word) : (s.setReg r v).clusterUsed = s.clusterUsed := rfl
@[simp] theorem State.setReg_energyAt (r : Reg) (v : Word) : (s.setReg r v).energyAt = s.energyAt := rfl
@[simp] theorem State.setReg_energyBytes (r : Reg) (v : Word) : (s.setReg r v).energyBytes = s.energyBytes := rfl
@[simp] theorem State.setReg_completions (r : Reg) (v : Word) : (s.setReg r v).completions = s.completions := rfl
@[simp] theorem State.setReg_relockAt (r : Reg) (v : Word) : (s.setReg r v).relockAt = s.relockAt := rfl
@[simp] theorem State.setReg_goodWindows (r : Reg) (v : Word) : (s.setReg r v).goodWindows = s.goodWindows := rfl
@[simp] theorem State.setReg_standbyLost (r : Reg) (v : Word) : (s.setReg r v).standbyLost = s.standbyLost := rfl
@[simp] theorem State.setReg_arithMhz (r : Reg) (v : Word) : (s.setReg r v).arithMhz = s.arithMhz := rfl
@[simp] theorem State.setReg_ratioMode (r : Reg) (v : Word) : (s.setReg r v).ratioMode = s.ratioMode := rfl
@[simp] theorem State.setReg_watts (r : Reg) (v : Word) : (s.setReg r v).watts = s.watts := rfl
@[simp] theorem State.setReg_floorRun (r : Reg) (v : Word) : (s.setReg r v).floorRun = s.floorRun := rfl
@[simp] theorem State.setReg_clustersOff (r : Reg) (v : Word) : (s.setReg r v).clustersOff = s.clustersOff := rfl
@[simp] theorem State.setReg_alertSince (r : Reg) (v : Word) : (s.setReg r v).alertSince = s.alertSince := rfl
@[simp] theorem State.setReg_life (r : Reg) (v : Word) : (s.setReg r v).life = s.life := rfl
@[simp] theorem State.setReg_resetLow (r : Reg) (v : Word) : (s.setReg r v).resetLow = s.resetLow := rfl
@[simp] theorem State.setReg_strap (r : Reg) (v : Word) : (s.setReg r v).strap = s.strap := rfl
@[simp] theorem State.setReg_hot (r : Reg) (v : Word) : (s.setReg r v).hot = s.hot := rfl
@[simp] theorem State.setReg_startDue (r : Reg) (v : Word) : (s.setReg r v).startDue = s.startDue := rfl
@[simp] theorem State.setReg_startAt (r : Reg) (v : Word) : (s.setReg r v).startAt = s.startAt := rfl
@[simp] theorem State.setReg_stageAt (r : Reg) (v : Word) : (s.setReg r v).stageAt = s.stageAt := rfl
@[simp] theorem State.setReg_lastDuration (r : Reg) (v : Word) : (s.setReg r v).lastDuration = s.lastDuration := rfl
@[simp] theorem State.setReg_startArea (r : Reg) (v : Word) : (s.setReg r v).startArea = s.startArea := rfl
@[simp] theorem State.setReg_storeStart (r : Reg) (v : Word) : (s.setReg r v).storeStart = s.storeStart := rfl
@[simp] theorem State.setReg_storeSettings (r : Reg) (v : Word) : (s.setReg r v).storeSettings = s.storeSettings := rfl
@[simp] theorem State.setReg_chosen (r : Reg) (v : Word) : (s.setReg r v).chosen = s.chosen := rfl
@[simp] theorem State.setReg_recovery (r : Reg) (v : Word) : (s.setReg r v).recovery = s.recovery := rfl
@[simp] theorem State.setReg_sv1 (r : Reg) (v : Word) : (s.setReg r v).sv1 = s.sv1 := rfl
@[simp] theorem State.setReg_sv0Failed (r : Reg) (v : Word) : (s.setReg r v).sv0Failed = s.sv0Failed := rfl
@[simp] theorem State.setReg_heartbeatAt (r : Reg) (v : Word) : (s.setReg r v).heartbeatAt = s.heartbeatAt := rfl
@[simp] theorem State.setReg_flash (r : Reg) (v : Word) : (s.setReg r v).flash = s.flash := rfl
@[simp] theorem State.setReg_running (r : Reg) (v : Word) : (s.setReg r v).running = s.running := rfl
@[simp] theorem State.setReg_flashWrite (r : Reg) (v : Word) : (s.setReg r v).flashWrite = s.flashWrite := rfl
@[simp] theorem State.setReg_staged (r : Reg) (v : Word) : (s.setReg r v).staged = s.staged := rfl
@[simp] theorem State.setReg_completeAt (r : Reg) (v : Word) : (s.setReg r v).completeAt = s.completeAt := rfl
@[simp] theorem State.setReg_enumAt (r : Reg) (v : Word) : (s.setReg r v).enumAt = s.enumAt := rfl
@[simp] theorem State.setReg_reclaimDue (r : Reg) (v : Word) : (s.setReg r v).reclaimDue = s.reclaimDue := rfl
@[simp] theorem State.setReg_foreign (r : Reg) (v : Word) : (s.setReg r v).foreign = s.foreign := rfl
@[simp] theorem State.setReg_addrRecord (r : Reg) (v : Word) : (s.setReg r v).addrRecord = s.addrRecord := rfl
@[simp] theorem State.setReg_announcedAt (r : Reg) (v : Word) : (s.setReg r v).announcedAt = s.announcedAt := rfl
@[simp] theorem State.setReg_adverts (r : Reg) (v : Word) : (s.setReg r v).adverts = s.adverts := rfl
@[simp] theorem State.setReg_rasAt (r : Reg) (v : Word) : (s.setReg r v).rasAt = s.rasAt := rfl
@[simp] theorem State.setReg_rasSeen (r : Reg) (v : Word) : (s.setReg r v).rasSeen = s.rasSeen := rfl
@[simp] theorem State.setReg_rasCorr (r : Reg) (v : Word) : (s.setReg r v).rasCorr = s.rasCorr := rfl
@[simp] theorem State.setReg_uncRows (r : Reg) (v : Word) : (s.setReg r v).uncRows = s.uncRows := rfl
@[simp] theorem State.setReg_rasMet (r : Reg) (v : Word) : (s.setReg r v).rasMet = s.rasMet := rfl
@[simp] theorem State.setReg_marked (r : Reg) (v : Word) : (s.setReg r v).marked = s.marked := rfl
@[simp] theorem State.setReg_retireDue (r : Reg) (v : Word) : (s.setReg r v).retireDue = s.retireDue := rfl
@[simp] theorem State.setReg_repairs (r : Reg) (v : Word) : (s.setReg r v).repairs = s.repairs := rfl
@[simp] theorem State.setReg_verifyAt (r : Reg) (v : Word) : (s.setReg r v).verifyAt = s.verifyAt := rfl

@[simp] theorem State.resetReg_pending (r : Reg) : (s.resetReg r).pending = s.pending := rfl
@[simp] theorem State.resetReg_now (r : Reg) : (s.resetReg r).now = s.now := rfl
@[simp] theorem State.resetReg_coreClock (r : Reg) : (s.resetReg r).coreClock = s.coreClock := rfl
@[simp] theorem State.resetReg_fresh (r : Reg) : (s.resetReg r).fresh = s.fresh := rfl
@[simp] theorem State.resetReg_grade (r : Reg) : (s.resetReg r).grade = s.grade := rfl
@[simp] theorem State.resetReg_access (r : Reg) : (s.resetReg r).access = s.access := rfl
@[simp] theorem State.resetReg_latest (r : Reg) : (s.resetReg r).latest = s.latest := rfl
@[simp] theorem State.resetReg_mem (r : Reg) : (s.resetReg r).mem = s.mem := rfl
@[simp] theorem State.resetReg_cores (r : Reg) : (s.resetReg r).cores = s.cores := rfl
@[simp] theorem State.resetReg_flagOps (r : Reg) : (s.resetReg r).flagOps = s.flagOps := rfl
@[simp] theorem State.resetReg_reqs (r : Reg) : (s.resetReg r).reqs = s.reqs := rfl
@[simp] theorem State.resetReg_nextId (r : Reg) : (s.resetReg r).nextId = s.nextId := rfl
@[simp] theorem State.resetReg_ctls (r : Reg) : (s.resetReg r).ctls = s.ctls := rfl
@[simp] theorem State.resetReg_stackRuns (r : Reg) : (s.resetReg r).stackRuns = s.stackRuns := rfl
@[simp] theorem State.resetReg_wcache (r : Reg) : (s.resetReg r).wcache = s.wcache := rfl
@[simp] theorem State.resetReg_patrol (r : Reg) : (s.resetReg r).patrol = s.patrol := rfl
@[simp] theorem State.resetReg_scrubs (r : Reg) : (s.resetReg r).scrubs = s.scrubs := rfl
@[simp] theorem State.resetReg_frames (r : Reg) : (s.resetReg r).frames = s.frames := rfl
@[simp] theorem State.resetReg_extents (r : Reg) : (s.resetReg r).extents = s.extents := rfl
@[simp] theorem State.resetReg_pulses (r : Reg) : (s.resetReg r).pulses = s.pulses := rfl
@[simp] theorem State.resetReg_rawLines (r : Reg) : (s.resetReg r).rawLines = s.rawLines := rfl
@[simp] theorem State.resetReg_filteredHigh (r : Reg) : (s.resetReg r).filteredHigh = s.filteredHigh := rfl
@[simp] theorem State.resetReg_inject (r : Reg) : (s.resetReg r).inject = s.inject := rfl
@[simp] theorem State.resetReg_banks (r : Reg) : (s.resetReg r).banks = s.banks := rfl
@[simp] theorem State.resetReg_upsets (r : Reg) : (s.resetReg r).upsets = s.upsets := rfl
@[simp] theorem State.resetReg_retired (r : Reg) : (s.resetReg r).retired = s.retired := rfl
@[simp] theorem State.resetReg_absent (r : Reg) : (s.resetReg r).absent = s.absent := rfl
@[simp] theorem State.resetReg_perturbed (r : Reg) : (s.resetReg r).perturbed = s.perturbed := rfl
@[simp] theorem State.resetReg_pertOld (r : Reg) : (s.resetReg r).pertOld = s.pertOld := rfl
@[simp] theorem State.resetReg_conns (r : Reg) : (s.resetReg r).conns = s.conns := rfl
@[simp] theorem State.resetReg_egress (r : Reg) : (s.resetReg r).egress = s.egress := rfl
@[simp] theorem State.resetReg_arbiters (r : Reg) : (s.resetReg r).arbiters = s.arbiters := rfl
@[simp] theorem State.resetReg_peerDue (r : Reg) : (s.resetReg r).peerDue = s.peerDue := rfl
@[simp] theorem State.resetReg_spent (r : Reg) : (s.resetReg r).spent = s.spent := rfl
@[simp] theorem State.resetReg_freed (r : Reg) : (s.resetReg r).freed = s.freed := rfl
@[simp] theorem State.resetReg_wire (r : Reg) : (s.resetReg r).wire = s.wire := rfl
@[simp] theorem State.resetReg_training (r : Reg) : (s.resetReg r).training = s.training := rfl
@[simp] theorem State.resetReg_fecRecent (r : Reg) : (s.resetReg r).fecRecent = s.fecRecent := rfl
@[simp] theorem State.resetReg_packing (r : Reg) : (s.resetReg r).packing = s.packing := rfl
@[simp] theorem State.resetReg_replays (r : Reg) : (s.resetReg r).replays = s.replays := rfl
@[simp] theorem State.resetReg_welts (r : Reg) : (s.resetReg r).welts = s.welts := rfl
@[simp] theorem State.resetReg_pools (r : Reg) : (s.resetReg r).pools = s.pools := rfl
@[simp] theorem State.resetReg_linkHeld (r : Reg) : (s.resetReg r).linkHeld = s.linkHeld := rfl
@[simp] theorem State.resetReg_linkSpares (r : Reg) : (s.resetReg r).linkSpares = s.linkSpares := rfl
@[simp] theorem State.resetReg_linkBuf (r : Reg) : (s.resetReg r).linkBuf = s.linkBuf := rfl
@[simp] theorem State.resetReg_colls (r : Reg) : (s.resetReg r).colls = s.colls := rfl
@[simp] theorem State.resetReg_collCounts (r : Reg) : (s.resetReg r).collCounts = s.collCounts := rfl
@[simp] theorem State.resetReg_cached (r : Reg) : (s.resetReg r).cached = s.cached := rfl
@[simp] theorem State.resetReg_writeBacks (r : Reg) : (s.resetReg r).writeBacks = s.writeBacks := rfl
@[simp] theorem State.resetReg_cacheUpsets (r : Reg) : (s.resetReg r).cacheUpsets = s.cacheUpsets := rfl
@[simp] theorem State.resetReg_hcCaches (r : Reg) : (s.resetReg r).hcCaches = s.hcCaches := rfl
@[simp] theorem State.resetReg_hcReserved (r : Reg) : (s.resetReg r).hcReserved = s.hcReserved := rfl
@[simp] theorem State.resetReg_codeSlots (r : Reg) : (s.resetReg r).codeSlots = s.codeSlots := rfl
@[simp] theorem State.resetReg_extRuns (r : Reg) : (s.resetReg r).extRuns = s.extRuns := rfl
@[simp] theorem State.resetReg_extDone (r : Reg) : (s.resetReg r).extDone = s.extDone := rfl
@[simp] theorem State.resetReg_eyeCommits (r : Reg) : (s.resetReg r).eyeCommits = s.eyeCommits := rfl
@[simp] theorem State.resetReg_eyeExpired (r : Reg) : (s.resetReg r).eyeExpired = s.eyeExpired := rfl
@[simp] theorem State.resetReg_eyeWrites (r : Reg) : (s.resetReg r).eyeWrites = s.eyeWrites := rfl
@[simp] theorem State.resetReg_claimedBy (r : Reg) : (s.resetReg r).claimedBy = s.claimedBy := rfl
@[simp] theorem State.resetReg_lastClaim (r : Reg) : (s.resetReg r).lastClaim = s.lastClaim := rfl
@[simp] theorem State.resetReg_roundRobin (r : Reg) : (s.resetReg r).roundRobin = s.roundRobin := rfl
@[simp] theorem State.resetReg_rrSince (r : Reg) : (s.resetReg r).rrSince = s.rrSince := rfl
@[simp] theorem State.resetReg_rangeDue (r : Reg) : (s.resetReg r).rangeDue = s.rangeDue := rfl
@[simp] theorem State.resetReg_rangeOwner (r : Reg) : (s.resetReg r).rangeOwner = s.rangeOwner := rfl
@[simp] theorem State.resetReg_hostRx (r : Reg) : (s.resetReg r).hostRx = s.hostRx := rfl
@[simp] theorem State.resetReg_sessions (r : Reg) : (s.resetReg r).sessions = s.sessions := rfl
@[simp] theorem State.resetReg_hostWire (r : Reg) : (s.resetReg r).hostWire = s.hostWire := rfl
@[simp] theorem State.resetReg_mgmtKeys (r : Reg) : (s.resetReg r).mgmtKeys = s.mgmtKeys := rfl
@[simp] theorem State.resetReg_leaseKeys (r : Reg) : (s.resetReg r).leaseKeys = s.leaseKeys := rfl
@[simp] theorem State.resetReg_owned (r : Reg) : (s.resetReg r).owned = s.owned := rfl
@[simp] theorem State.resetReg_quiesces (r : Reg) : (s.resetReg r).quiesces = s.quiesces := rfl
@[simp] theorem State.resetReg_binding (r : Reg) : (s.resetReg r).binding = s.binding := rfl
@[simp] theorem State.resetReg_monitor (r : Reg) : (s.resetReg r).monitor = s.monitor := rfl
@[simp] theorem State.resetReg_monitorAt (r : Reg) : (s.resetReg r).monitorAt = s.monitorAt := rfl
@[simp] theorem State.resetReg_snapOp (r : Reg) : (s.resetReg r).snapOp = s.snapOp := rfl
@[simp] theorem State.resetReg_stepEnds (r : Reg) : (s.resetReg r).stepEnds = s.stepEnds := rfl
@[simp] theorem State.resetReg_withdrawn (r : Reg) : (s.resetReg r).withdrawn = s.withdrawn := rfl
@[simp] theorem State.resetReg_stageGib (r : Reg) : (s.resetReg r).stageGib = s.stageGib := rfl
@[simp] theorem State.resetReg_snaps (r : Reg) : (s.resetReg r).snaps = s.snaps := rfl
@[simp] theorem State.resetReg_snapCount (r : Reg) : (s.resetReg r).snapCount = s.snapCount := rfl
@[simp] theorem State.resetReg_streams (r : Reg) : (s.resetReg r).streams = s.streams := rfl
@[simp] theorem State.resetReg_records (r : Reg) : (s.resetReg r).records = s.records := rfl
@[simp] theorem State.resetReg_leaseBorn (r : Reg) : (s.resetReg r).leaseBorn = s.leaseBorn := rfl
@[simp] theorem State.resetReg_lastSnap (r : Reg) : (s.resetReg r).lastSnap = s.lastSnap := rfl
@[simp] theorem State.resetReg_failures (r : Reg) : (s.resetReg r).failures = s.failures := rfl
@[simp] theorem State.resetReg_recovering (r : Reg) : (s.resetReg r).recovering = s.recovering := rfl
@[simp] theorem State.resetReg_prompts (r : Reg) : (s.resetReg r).prompts = s.prompts := rfl
@[simp] theorem State.resetReg_powerAt (r : Reg) : (s.resetReg r).powerAt = s.powerAt := rfl
@[simp] theorem State.resetReg_dutyAt (r : Reg) : (s.resetReg r).dutyAt = s.dutyAt := rfl
@[simp] theorem State.resetReg_clusterUsed (r : Reg) : (s.resetReg r).clusterUsed = s.clusterUsed := rfl
@[simp] theorem State.resetReg_energyAt (r : Reg) : (s.resetReg r).energyAt = s.energyAt := rfl
@[simp] theorem State.resetReg_energyBytes (r : Reg) : (s.resetReg r).energyBytes = s.energyBytes := rfl
@[simp] theorem State.resetReg_completions (r : Reg) : (s.resetReg r).completions = s.completions := rfl
@[simp] theorem State.resetReg_relockAt (r : Reg) : (s.resetReg r).relockAt = s.relockAt := rfl
@[simp] theorem State.resetReg_goodWindows (r : Reg) : (s.resetReg r).goodWindows = s.goodWindows := rfl
@[simp] theorem State.resetReg_standbyLost (r : Reg) : (s.resetReg r).standbyLost = s.standbyLost := rfl
@[simp] theorem State.resetReg_arithMhz (r : Reg) : (s.resetReg r).arithMhz = s.arithMhz := rfl
@[simp] theorem State.resetReg_ratioMode (r : Reg) : (s.resetReg r).ratioMode = s.ratioMode := rfl
@[simp] theorem State.resetReg_watts (r : Reg) : (s.resetReg r).watts = s.watts := rfl
@[simp] theorem State.resetReg_floorRun (r : Reg) : (s.resetReg r).floorRun = s.floorRun := rfl
@[simp] theorem State.resetReg_clustersOff (r : Reg) : (s.resetReg r).clustersOff = s.clustersOff := rfl
@[simp] theorem State.resetReg_alertSince (r : Reg) : (s.resetReg r).alertSince = s.alertSince := rfl
@[simp] theorem State.resetReg_life (r : Reg) : (s.resetReg r).life = s.life := rfl
@[simp] theorem State.resetReg_resetLow (r : Reg) : (s.resetReg r).resetLow = s.resetLow := rfl
@[simp] theorem State.resetReg_strap (r : Reg) : (s.resetReg r).strap = s.strap := rfl
@[simp] theorem State.resetReg_hot (r : Reg) : (s.resetReg r).hot = s.hot := rfl
@[simp] theorem State.resetReg_startDue (r : Reg) : (s.resetReg r).startDue = s.startDue := rfl
@[simp] theorem State.resetReg_startAt (r : Reg) : (s.resetReg r).startAt = s.startAt := rfl
@[simp] theorem State.resetReg_stageAt (r : Reg) : (s.resetReg r).stageAt = s.stageAt := rfl
@[simp] theorem State.resetReg_lastDuration (r : Reg) : (s.resetReg r).lastDuration = s.lastDuration := rfl
@[simp] theorem State.resetReg_startArea (r : Reg) : (s.resetReg r).startArea = s.startArea := rfl
@[simp] theorem State.resetReg_storeStart (r : Reg) : (s.resetReg r).storeStart = s.storeStart := rfl
@[simp] theorem State.resetReg_storeSettings (r : Reg) : (s.resetReg r).storeSettings = s.storeSettings := rfl
@[simp] theorem State.resetReg_chosen (r : Reg) : (s.resetReg r).chosen = s.chosen := rfl
@[simp] theorem State.resetReg_recovery (r : Reg) : (s.resetReg r).recovery = s.recovery := rfl
@[simp] theorem State.resetReg_sv1 (r : Reg) : (s.resetReg r).sv1 = s.sv1 := rfl
@[simp] theorem State.resetReg_sv0Failed (r : Reg) : (s.resetReg r).sv0Failed = s.sv0Failed := rfl
@[simp] theorem State.resetReg_heartbeatAt (r : Reg) : (s.resetReg r).heartbeatAt = s.heartbeatAt := rfl
@[simp] theorem State.resetReg_flash (r : Reg) : (s.resetReg r).flash = s.flash := rfl
@[simp] theorem State.resetReg_running (r : Reg) : (s.resetReg r).running = s.running := rfl
@[simp] theorem State.resetReg_flashWrite (r : Reg) : (s.resetReg r).flashWrite = s.flashWrite := rfl
@[simp] theorem State.resetReg_staged (r : Reg) : (s.resetReg r).staged = s.staged := rfl
@[simp] theorem State.resetReg_completeAt (r : Reg) : (s.resetReg r).completeAt = s.completeAt := rfl
@[simp] theorem State.resetReg_enumAt (r : Reg) : (s.resetReg r).enumAt = s.enumAt := rfl
@[simp] theorem State.resetReg_reclaimDue (r : Reg) : (s.resetReg r).reclaimDue = s.reclaimDue := rfl
@[simp] theorem State.resetReg_foreign (r : Reg) : (s.resetReg r).foreign = s.foreign := rfl
@[simp] theorem State.resetReg_addrRecord (r : Reg) : (s.resetReg r).addrRecord = s.addrRecord := rfl
@[simp] theorem State.resetReg_announcedAt (r : Reg) : (s.resetReg r).announcedAt = s.announcedAt := rfl
@[simp] theorem State.resetReg_adverts (r : Reg) : (s.resetReg r).adverts = s.adverts := rfl
@[simp] theorem State.resetReg_rasAt (r : Reg) : (s.resetReg r).rasAt = s.rasAt := rfl
@[simp] theorem State.resetReg_rasSeen (r : Reg) : (s.resetReg r).rasSeen = s.rasSeen := rfl
@[simp] theorem State.resetReg_rasCorr (r : Reg) : (s.resetReg r).rasCorr = s.rasCorr := rfl
@[simp] theorem State.resetReg_uncRows (r : Reg) : (s.resetReg r).uncRows = s.uncRows := rfl
@[simp] theorem State.resetReg_rasMet (r : Reg) : (s.resetReg r).rasMet = s.rasMet := rfl
@[simp] theorem State.resetReg_marked (r : Reg) : (s.resetReg r).marked = s.marked := rfl
@[simp] theorem State.resetReg_retireDue (r : Reg) : (s.resetReg r).retireDue = s.retireDue := rfl
@[simp] theorem State.resetReg_repairs (r : Reg) : (s.resetReg r).repairs = s.repairs := rfl
@[simp] theorem State.resetReg_verifyAt (r : Reg) : (s.resetReg r).verifyAt = s.verifyAt := rfl

@[simp] theorem State.setFld_pending (r : Reg) (f : Fld) (v : Nat) : (s.setFld r f v).pending = s.pending := rfl
@[simp] theorem State.setFld_now (r : Reg) (f : Fld) (v : Nat) : (s.setFld r f v).now = s.now := rfl
@[simp] theorem State.setFld_coreClock (r : Reg) (f : Fld) (v : Nat) : (s.setFld r f v).coreClock = s.coreClock := rfl
@[simp] theorem State.setFld_fresh (r : Reg) (f : Fld) (v : Nat) : (s.setFld r f v).fresh = s.fresh := rfl
@[simp] theorem State.setFld_grade (r : Reg) (f : Fld) (v : Nat) : (s.setFld r f v).grade = s.grade := rfl
@[simp] theorem State.setFld_access (r : Reg) (f : Fld) (v : Nat) : (s.setFld r f v).access = s.access := rfl
@[simp] theorem State.setFld_latest (r : Reg) (f : Fld) (v : Nat) : (s.setFld r f v).latest = s.latest := rfl
@[simp] theorem State.setFld_mem (r : Reg) (f : Fld) (v : Nat) : (s.setFld r f v).mem = s.mem := rfl
@[simp] theorem State.setFld_cores (r : Reg) (f : Fld) (v : Nat) : (s.setFld r f v).cores = s.cores := rfl
@[simp] theorem State.setFld_flagOps (r : Reg) (f : Fld) (v : Nat) : (s.setFld r f v).flagOps = s.flagOps := rfl
@[simp] theorem State.setFld_reqs (r : Reg) (f : Fld) (v : Nat) : (s.setFld r f v).reqs = s.reqs := rfl
@[simp] theorem State.setFld_nextId (r : Reg) (f : Fld) (v : Nat) : (s.setFld r f v).nextId = s.nextId := rfl
@[simp] theorem State.setFld_ctls (r : Reg) (f : Fld) (v : Nat) : (s.setFld r f v).ctls = s.ctls := rfl
@[simp] theorem State.setFld_stackRuns (r : Reg) (f : Fld) (v : Nat) : (s.setFld r f v).stackRuns = s.stackRuns := rfl
@[simp] theorem State.setFld_wcache (r : Reg) (f : Fld) (v : Nat) : (s.setFld r f v).wcache = s.wcache := rfl
@[simp] theorem State.setFld_patrol (r : Reg) (f : Fld) (v : Nat) : (s.setFld r f v).patrol = s.patrol := rfl
@[simp] theorem State.setFld_scrubs (r : Reg) (f : Fld) (v : Nat) : (s.setFld r f v).scrubs = s.scrubs := rfl
@[simp] theorem State.setFld_frames (r : Reg) (f : Fld) (v : Nat) : (s.setFld r f v).frames = s.frames := rfl
@[simp] theorem State.setFld_extents (r : Reg) (f : Fld) (v : Nat) : (s.setFld r f v).extents = s.extents := rfl
@[simp] theorem State.setFld_pulses (r : Reg) (f : Fld) (v : Nat) : (s.setFld r f v).pulses = s.pulses := rfl
@[simp] theorem State.setFld_rawLines (r : Reg) (f : Fld) (v : Nat) : (s.setFld r f v).rawLines = s.rawLines := rfl
@[simp] theorem State.setFld_filteredHigh (r : Reg) (f : Fld) (v : Nat) : (s.setFld r f v).filteredHigh = s.filteredHigh := rfl
@[simp] theorem State.setFld_inject (r : Reg) (f : Fld) (v : Nat) : (s.setFld r f v).inject = s.inject := rfl
@[simp] theorem State.setFld_banks (r : Reg) (f : Fld) (v : Nat) : (s.setFld r f v).banks = s.banks := rfl
@[simp] theorem State.setFld_upsets (r : Reg) (f : Fld) (v : Nat) : (s.setFld r f v).upsets = s.upsets := rfl
@[simp] theorem State.setFld_retired (r : Reg) (f : Fld) (v : Nat) : (s.setFld r f v).retired = s.retired := rfl
@[simp] theorem State.setFld_absent (r : Reg) (f : Fld) (v : Nat) : (s.setFld r f v).absent = s.absent := rfl
@[simp] theorem State.setFld_perturbed (r : Reg) (f : Fld) (v : Nat) : (s.setFld r f v).perturbed = s.perturbed := rfl
@[simp] theorem State.setFld_pertOld (r : Reg) (f : Fld) (v : Nat) : (s.setFld r f v).pertOld = s.pertOld := rfl
@[simp] theorem State.setFld_conns (r : Reg) (f : Fld) (v : Nat) : (s.setFld r f v).conns = s.conns := rfl
@[simp] theorem State.setFld_egress (r : Reg) (f : Fld) (v : Nat) : (s.setFld r f v).egress = s.egress := rfl
@[simp] theorem State.setFld_arbiters (r : Reg) (f : Fld) (v : Nat) : (s.setFld r f v).arbiters = s.arbiters := rfl
@[simp] theorem State.setFld_peerDue (r : Reg) (f : Fld) (v : Nat) : (s.setFld r f v).peerDue = s.peerDue := rfl
@[simp] theorem State.setFld_spent (r : Reg) (f : Fld) (v : Nat) : (s.setFld r f v).spent = s.spent := rfl
@[simp] theorem State.setFld_freed (r : Reg) (f : Fld) (v : Nat) : (s.setFld r f v).freed = s.freed := rfl
@[simp] theorem State.setFld_wire (r : Reg) (f : Fld) (v : Nat) : (s.setFld r f v).wire = s.wire := rfl
@[simp] theorem State.setFld_training (r : Reg) (f : Fld) (v : Nat) : (s.setFld r f v).training = s.training := rfl
@[simp] theorem State.setFld_fecRecent (r : Reg) (f : Fld) (v : Nat) : (s.setFld r f v).fecRecent = s.fecRecent := rfl
@[simp] theorem State.setFld_packing (r : Reg) (f : Fld) (v : Nat) : (s.setFld r f v).packing = s.packing := rfl
@[simp] theorem State.setFld_replays (r : Reg) (f : Fld) (v : Nat) : (s.setFld r f v).replays = s.replays := rfl
@[simp] theorem State.setFld_welts (r : Reg) (f : Fld) (v : Nat) : (s.setFld r f v).welts = s.welts := rfl
@[simp] theorem State.setFld_pools (r : Reg) (f : Fld) (v : Nat) : (s.setFld r f v).pools = s.pools := rfl
@[simp] theorem State.setFld_linkHeld (r : Reg) (f : Fld) (v : Nat) : (s.setFld r f v).linkHeld = s.linkHeld := rfl
@[simp] theorem State.setFld_linkSpares (r : Reg) (f : Fld) (v : Nat) : (s.setFld r f v).linkSpares = s.linkSpares := rfl
@[simp] theorem State.setFld_linkBuf (r : Reg) (f : Fld) (v : Nat) : (s.setFld r f v).linkBuf = s.linkBuf := rfl
@[simp] theorem State.setFld_colls (r : Reg) (f : Fld) (v : Nat) : (s.setFld r f v).colls = s.colls := rfl
@[simp] theorem State.setFld_collCounts (r : Reg) (f : Fld) (v : Nat) : (s.setFld r f v).collCounts = s.collCounts := rfl
@[simp] theorem State.setFld_cached (r : Reg) (f : Fld) (v : Nat) : (s.setFld r f v).cached = s.cached := rfl
@[simp] theorem State.setFld_writeBacks (r : Reg) (f : Fld) (v : Nat) : (s.setFld r f v).writeBacks = s.writeBacks := rfl
@[simp] theorem State.setFld_cacheUpsets (r : Reg) (f : Fld) (v : Nat) : (s.setFld r f v).cacheUpsets = s.cacheUpsets := rfl
@[simp] theorem State.setFld_hcCaches (r : Reg) (f : Fld) (v : Nat) : (s.setFld r f v).hcCaches = s.hcCaches := rfl
@[simp] theorem State.setFld_hcReserved (r : Reg) (f : Fld) (v : Nat) : (s.setFld r f v).hcReserved = s.hcReserved := rfl
@[simp] theorem State.setFld_codeSlots (r : Reg) (f : Fld) (v : Nat) : (s.setFld r f v).codeSlots = s.codeSlots := rfl
@[simp] theorem State.setFld_extRuns (r : Reg) (f : Fld) (v : Nat) : (s.setFld r f v).extRuns = s.extRuns := rfl
@[simp] theorem State.setFld_extDone (r : Reg) (f : Fld) (v : Nat) : (s.setFld r f v).extDone = s.extDone := rfl
@[simp] theorem State.setFld_eyeCommits (r : Reg) (f : Fld) (v : Nat) : (s.setFld r f v).eyeCommits = s.eyeCommits := rfl
@[simp] theorem State.setFld_eyeExpired (r : Reg) (f : Fld) (v : Nat) : (s.setFld r f v).eyeExpired = s.eyeExpired := rfl
@[simp] theorem State.setFld_eyeWrites (r : Reg) (f : Fld) (v : Nat) : (s.setFld r f v).eyeWrites = s.eyeWrites := rfl
@[simp] theorem State.setFld_claimedBy (r : Reg) (f : Fld) (v : Nat) : (s.setFld r f v).claimedBy = s.claimedBy := rfl
@[simp] theorem State.setFld_lastClaim (r : Reg) (f : Fld) (v : Nat) : (s.setFld r f v).lastClaim = s.lastClaim := rfl
@[simp] theorem State.setFld_roundRobin (r : Reg) (f : Fld) (v : Nat) : (s.setFld r f v).roundRobin = s.roundRobin := rfl
@[simp] theorem State.setFld_rrSince (r : Reg) (f : Fld) (v : Nat) : (s.setFld r f v).rrSince = s.rrSince := rfl
@[simp] theorem State.setFld_rangeDue (r : Reg) (f : Fld) (v : Nat) : (s.setFld r f v).rangeDue = s.rangeDue := rfl
@[simp] theorem State.setFld_rangeOwner (r : Reg) (f : Fld) (v : Nat) : (s.setFld r f v).rangeOwner = s.rangeOwner := rfl
@[simp] theorem State.setFld_hostRx (r : Reg) (f : Fld) (v : Nat) : (s.setFld r f v).hostRx = s.hostRx := rfl
@[simp] theorem State.setFld_sessions (r : Reg) (f : Fld) (v : Nat) : (s.setFld r f v).sessions = s.sessions := rfl
@[simp] theorem State.setFld_hostWire (r : Reg) (f : Fld) (v : Nat) : (s.setFld r f v).hostWire = s.hostWire := rfl
@[simp] theorem State.setFld_mgmtKeys (r : Reg) (f : Fld) (v : Nat) : (s.setFld r f v).mgmtKeys = s.mgmtKeys := rfl
@[simp] theorem State.setFld_leaseKeys (r : Reg) (f : Fld) (v : Nat) : (s.setFld r f v).leaseKeys = s.leaseKeys := rfl
@[simp] theorem State.setFld_owned (r : Reg) (f : Fld) (v : Nat) : (s.setFld r f v).owned = s.owned := rfl
@[simp] theorem State.setFld_quiesces (r : Reg) (f : Fld) (v : Nat) : (s.setFld r f v).quiesces = s.quiesces := rfl
@[simp] theorem State.setFld_binding (r : Reg) (f : Fld) (v : Nat) : (s.setFld r f v).binding = s.binding := rfl
@[simp] theorem State.setFld_monitor (r : Reg) (f : Fld) (v : Nat) : (s.setFld r f v).monitor = s.monitor := rfl
@[simp] theorem State.setFld_monitorAt (r : Reg) (f : Fld) (v : Nat) : (s.setFld r f v).monitorAt = s.monitorAt := rfl
@[simp] theorem State.setFld_snapOp (r : Reg) (f : Fld) (v : Nat) : (s.setFld r f v).snapOp = s.snapOp := rfl
@[simp] theorem State.setFld_stepEnds (r : Reg) (f : Fld) (v : Nat) : (s.setFld r f v).stepEnds = s.stepEnds := rfl
@[simp] theorem State.setFld_withdrawn (r : Reg) (f : Fld) (v : Nat) : (s.setFld r f v).withdrawn = s.withdrawn := rfl
@[simp] theorem State.setFld_stageGib (r : Reg) (f : Fld) (v : Nat) : (s.setFld r f v).stageGib = s.stageGib := rfl
@[simp] theorem State.setFld_snaps (r : Reg) (f : Fld) (v : Nat) : (s.setFld r f v).snaps = s.snaps := rfl
@[simp] theorem State.setFld_snapCount (r : Reg) (f : Fld) (v : Nat) : (s.setFld r f v).snapCount = s.snapCount := rfl
@[simp] theorem State.setFld_streams (r : Reg) (f : Fld) (v : Nat) : (s.setFld r f v).streams = s.streams := rfl
@[simp] theorem State.setFld_records (r : Reg) (f : Fld) (v : Nat) : (s.setFld r f v).records = s.records := rfl
@[simp] theorem State.setFld_leaseBorn (r : Reg) (f : Fld) (v : Nat) : (s.setFld r f v).leaseBorn = s.leaseBorn := rfl
@[simp] theorem State.setFld_lastSnap (r : Reg) (f : Fld) (v : Nat) : (s.setFld r f v).lastSnap = s.lastSnap := rfl
@[simp] theorem State.setFld_failures (r : Reg) (f : Fld) (v : Nat) : (s.setFld r f v).failures = s.failures := rfl
@[simp] theorem State.setFld_recovering (r : Reg) (f : Fld) (v : Nat) : (s.setFld r f v).recovering = s.recovering := rfl
@[simp] theorem State.setFld_prompts (r : Reg) (f : Fld) (v : Nat) : (s.setFld r f v).prompts = s.prompts := rfl
@[simp] theorem State.setFld_powerAt (r : Reg) (f : Fld) (v : Nat) : (s.setFld r f v).powerAt = s.powerAt := rfl
@[simp] theorem State.setFld_dutyAt (r : Reg) (f : Fld) (v : Nat) : (s.setFld r f v).dutyAt = s.dutyAt := rfl
@[simp] theorem State.setFld_clusterUsed (r : Reg) (f : Fld) (v : Nat) : (s.setFld r f v).clusterUsed = s.clusterUsed := rfl
@[simp] theorem State.setFld_energyAt (r : Reg) (f : Fld) (v : Nat) : (s.setFld r f v).energyAt = s.energyAt := rfl
@[simp] theorem State.setFld_energyBytes (r : Reg) (f : Fld) (v : Nat) : (s.setFld r f v).energyBytes = s.energyBytes := rfl
@[simp] theorem State.setFld_completions (r : Reg) (f : Fld) (v : Nat) : (s.setFld r f v).completions = s.completions := rfl
@[simp] theorem State.setFld_relockAt (r : Reg) (f : Fld) (v : Nat) : (s.setFld r f v).relockAt = s.relockAt := rfl
@[simp] theorem State.setFld_goodWindows (r : Reg) (f : Fld) (v : Nat) : (s.setFld r f v).goodWindows = s.goodWindows := rfl
@[simp] theorem State.setFld_standbyLost (r : Reg) (f : Fld) (v : Nat) : (s.setFld r f v).standbyLost = s.standbyLost := rfl
@[simp] theorem State.setFld_arithMhz (r : Reg) (f : Fld) (v : Nat) : (s.setFld r f v).arithMhz = s.arithMhz := rfl
@[simp] theorem State.setFld_ratioMode (r : Reg) (f : Fld) (v : Nat) : (s.setFld r f v).ratioMode = s.ratioMode := rfl
@[simp] theorem State.setFld_watts (r : Reg) (f : Fld) (v : Nat) : (s.setFld r f v).watts = s.watts := rfl
@[simp] theorem State.setFld_floorRun (r : Reg) (f : Fld) (v : Nat) : (s.setFld r f v).floorRun = s.floorRun := rfl
@[simp] theorem State.setFld_clustersOff (r : Reg) (f : Fld) (v : Nat) : (s.setFld r f v).clustersOff = s.clustersOff := rfl
@[simp] theorem State.setFld_alertSince (r : Reg) (f : Fld) (v : Nat) : (s.setFld r f v).alertSince = s.alertSince := rfl
@[simp] theorem State.setFld_life (r : Reg) (f : Fld) (v : Nat) : (s.setFld r f v).life = s.life := rfl
@[simp] theorem State.setFld_resetLow (r : Reg) (f : Fld) (v : Nat) : (s.setFld r f v).resetLow = s.resetLow := rfl
@[simp] theorem State.setFld_strap (r : Reg) (f : Fld) (v : Nat) : (s.setFld r f v).strap = s.strap := rfl
@[simp] theorem State.setFld_hot (r : Reg) (f : Fld) (v : Nat) : (s.setFld r f v).hot = s.hot := rfl
@[simp] theorem State.setFld_startDue (r : Reg) (f : Fld) (v : Nat) : (s.setFld r f v).startDue = s.startDue := rfl
@[simp] theorem State.setFld_startAt (r : Reg) (f : Fld) (v : Nat) : (s.setFld r f v).startAt = s.startAt := rfl
@[simp] theorem State.setFld_stageAt (r : Reg) (f : Fld) (v : Nat) : (s.setFld r f v).stageAt = s.stageAt := rfl
@[simp] theorem State.setFld_lastDuration (r : Reg) (f : Fld) (v : Nat) : (s.setFld r f v).lastDuration = s.lastDuration := rfl
@[simp] theorem State.setFld_startArea (r : Reg) (f : Fld) (v : Nat) : (s.setFld r f v).startArea = s.startArea := rfl
@[simp] theorem State.setFld_storeStart (r : Reg) (f : Fld) (v : Nat) : (s.setFld r f v).storeStart = s.storeStart := rfl
@[simp] theorem State.setFld_storeSettings (r : Reg) (f : Fld) (v : Nat) : (s.setFld r f v).storeSettings = s.storeSettings := rfl
@[simp] theorem State.setFld_chosen (r : Reg) (f : Fld) (v : Nat) : (s.setFld r f v).chosen = s.chosen := rfl
@[simp] theorem State.setFld_recovery (r : Reg) (f : Fld) (v : Nat) : (s.setFld r f v).recovery = s.recovery := rfl
@[simp] theorem State.setFld_sv1 (r : Reg) (f : Fld) (v : Nat) : (s.setFld r f v).sv1 = s.sv1 := rfl
@[simp] theorem State.setFld_sv0Failed (r : Reg) (f : Fld) (v : Nat) : (s.setFld r f v).sv0Failed = s.sv0Failed := rfl
@[simp] theorem State.setFld_heartbeatAt (r : Reg) (f : Fld) (v : Nat) : (s.setFld r f v).heartbeatAt = s.heartbeatAt := rfl
@[simp] theorem State.setFld_flash (r : Reg) (f : Fld) (v : Nat) : (s.setFld r f v).flash = s.flash := rfl
@[simp] theorem State.setFld_running (r : Reg) (f : Fld) (v : Nat) : (s.setFld r f v).running = s.running := rfl
@[simp] theorem State.setFld_flashWrite (r : Reg) (f : Fld) (v : Nat) : (s.setFld r f v).flashWrite = s.flashWrite := rfl
@[simp] theorem State.setFld_staged (r : Reg) (f : Fld) (v : Nat) : (s.setFld r f v).staged = s.staged := rfl
@[simp] theorem State.setFld_completeAt (r : Reg) (f : Fld) (v : Nat) : (s.setFld r f v).completeAt = s.completeAt := rfl
@[simp] theorem State.setFld_enumAt (r : Reg) (f : Fld) (v : Nat) : (s.setFld r f v).enumAt = s.enumAt := rfl
@[simp] theorem State.setFld_reclaimDue (r : Reg) (f : Fld) (v : Nat) : (s.setFld r f v).reclaimDue = s.reclaimDue := rfl
@[simp] theorem State.setFld_foreign (r : Reg) (f : Fld) (v : Nat) : (s.setFld r f v).foreign = s.foreign := rfl
@[simp] theorem State.setFld_addrRecord (r : Reg) (f : Fld) (v : Nat) : (s.setFld r f v).addrRecord = s.addrRecord := rfl
@[simp] theorem State.setFld_announcedAt (r : Reg) (f : Fld) (v : Nat) : (s.setFld r f v).announcedAt = s.announcedAt := rfl
@[simp] theorem State.setFld_adverts (r : Reg) (f : Fld) (v : Nat) : (s.setFld r f v).adverts = s.adverts := rfl
@[simp] theorem State.setFld_rasAt (r : Reg) (f : Fld) (v : Nat) : (s.setFld r f v).rasAt = s.rasAt := rfl
@[simp] theorem State.setFld_rasSeen (r : Reg) (f : Fld) (v : Nat) : (s.setFld r f v).rasSeen = s.rasSeen := rfl
@[simp] theorem State.setFld_rasCorr (r : Reg) (f : Fld) (v : Nat) : (s.setFld r f v).rasCorr = s.rasCorr := rfl
@[simp] theorem State.setFld_uncRows (r : Reg) (f : Fld) (v : Nat) : (s.setFld r f v).uncRows = s.uncRows := rfl
@[simp] theorem State.setFld_rasMet (r : Reg) (f : Fld) (v : Nat) : (s.setFld r f v).rasMet = s.rasMet := rfl
@[simp] theorem State.setFld_marked (r : Reg) (f : Fld) (v : Nat) : (s.setFld r f v).marked = s.marked := rfl
@[simp] theorem State.setFld_retireDue (r : Reg) (f : Fld) (v : Nat) : (s.setFld r f v).retireDue = s.retireDue := rfl
@[simp] theorem State.setFld_repairs (r : Reg) (f : Fld) (v : Nat) : (s.setFld r f v).repairs = s.repairs := rfl
@[simp] theorem State.setFld_verifyAt (r : Reg) (f : Fld) (v : Nat) : (s.setFld r f v).verifyAt = s.verifyAt := rfl

@[simp] theorem State.bump_pending (r : Reg) (f : Fld) (v : Nat) : (s.bump r f v).pending = s.pending := rfl
@[simp] theorem State.bump_now (r : Reg) (f : Fld) (v : Nat) : (s.bump r f v).now = s.now := rfl
@[simp] theorem State.bump_coreClock (r : Reg) (f : Fld) (v : Nat) : (s.bump r f v).coreClock = s.coreClock := rfl
@[simp] theorem State.bump_fresh (r : Reg) (f : Fld) (v : Nat) : (s.bump r f v).fresh = s.fresh := rfl
@[simp] theorem State.bump_grade (r : Reg) (f : Fld) (v : Nat) : (s.bump r f v).grade = s.grade := rfl
@[simp] theorem State.bump_access (r : Reg) (f : Fld) (v : Nat) : (s.bump r f v).access = s.access := rfl
@[simp] theorem State.bump_latest (r : Reg) (f : Fld) (v : Nat) : (s.bump r f v).latest = s.latest := rfl
@[simp] theorem State.bump_mem (r : Reg) (f : Fld) (v : Nat) : (s.bump r f v).mem = s.mem := rfl
@[simp] theorem State.bump_cores (r : Reg) (f : Fld) (v : Nat) : (s.bump r f v).cores = s.cores := rfl
@[simp] theorem State.bump_flagOps (r : Reg) (f : Fld) (v : Nat) : (s.bump r f v).flagOps = s.flagOps := rfl
@[simp] theorem State.bump_reqs (r : Reg) (f : Fld) (v : Nat) : (s.bump r f v).reqs = s.reqs := rfl
@[simp] theorem State.bump_nextId (r : Reg) (f : Fld) (v : Nat) : (s.bump r f v).nextId = s.nextId := rfl
@[simp] theorem State.bump_ctls (r : Reg) (f : Fld) (v : Nat) : (s.bump r f v).ctls = s.ctls := rfl
@[simp] theorem State.bump_stackRuns (r : Reg) (f : Fld) (v : Nat) : (s.bump r f v).stackRuns = s.stackRuns := rfl
@[simp] theorem State.bump_wcache (r : Reg) (f : Fld) (v : Nat) : (s.bump r f v).wcache = s.wcache := rfl
@[simp] theorem State.bump_patrol (r : Reg) (f : Fld) (v : Nat) : (s.bump r f v).patrol = s.patrol := rfl
@[simp] theorem State.bump_scrubs (r : Reg) (f : Fld) (v : Nat) : (s.bump r f v).scrubs = s.scrubs := rfl
@[simp] theorem State.bump_frames (r : Reg) (f : Fld) (v : Nat) : (s.bump r f v).frames = s.frames := rfl
@[simp] theorem State.bump_extents (r : Reg) (f : Fld) (v : Nat) : (s.bump r f v).extents = s.extents := rfl
@[simp] theorem State.bump_pulses (r : Reg) (f : Fld) (v : Nat) : (s.bump r f v).pulses = s.pulses := rfl
@[simp] theorem State.bump_rawLines (r : Reg) (f : Fld) (v : Nat) : (s.bump r f v).rawLines = s.rawLines := rfl
@[simp] theorem State.bump_filteredHigh (r : Reg) (f : Fld) (v : Nat) : (s.bump r f v).filteredHigh = s.filteredHigh := rfl
@[simp] theorem State.bump_inject (r : Reg) (f : Fld) (v : Nat) : (s.bump r f v).inject = s.inject := rfl
@[simp] theorem State.bump_banks (r : Reg) (f : Fld) (v : Nat) : (s.bump r f v).banks = s.banks := rfl
@[simp] theorem State.bump_upsets (r : Reg) (f : Fld) (v : Nat) : (s.bump r f v).upsets = s.upsets := rfl
@[simp] theorem State.bump_retired (r : Reg) (f : Fld) (v : Nat) : (s.bump r f v).retired = s.retired := rfl
@[simp] theorem State.bump_absent (r : Reg) (f : Fld) (v : Nat) : (s.bump r f v).absent = s.absent := rfl
@[simp] theorem State.bump_perturbed (r : Reg) (f : Fld) (v : Nat) : (s.bump r f v).perturbed = s.perturbed := rfl
@[simp] theorem State.bump_pertOld (r : Reg) (f : Fld) (v : Nat) : (s.bump r f v).pertOld = s.pertOld := rfl
@[simp] theorem State.bump_conns (r : Reg) (f : Fld) (v : Nat) : (s.bump r f v).conns = s.conns := rfl
@[simp] theorem State.bump_egress (r : Reg) (f : Fld) (v : Nat) : (s.bump r f v).egress = s.egress := rfl
@[simp] theorem State.bump_arbiters (r : Reg) (f : Fld) (v : Nat) : (s.bump r f v).arbiters = s.arbiters := rfl
@[simp] theorem State.bump_peerDue (r : Reg) (f : Fld) (v : Nat) : (s.bump r f v).peerDue = s.peerDue := rfl
@[simp] theorem State.bump_spent (r : Reg) (f : Fld) (v : Nat) : (s.bump r f v).spent = s.spent := rfl
@[simp] theorem State.bump_freed (r : Reg) (f : Fld) (v : Nat) : (s.bump r f v).freed = s.freed := rfl
@[simp] theorem State.bump_wire (r : Reg) (f : Fld) (v : Nat) : (s.bump r f v).wire = s.wire := rfl
@[simp] theorem State.bump_training (r : Reg) (f : Fld) (v : Nat) : (s.bump r f v).training = s.training := rfl
@[simp] theorem State.bump_fecRecent (r : Reg) (f : Fld) (v : Nat) : (s.bump r f v).fecRecent = s.fecRecent := rfl
@[simp] theorem State.bump_packing (r : Reg) (f : Fld) (v : Nat) : (s.bump r f v).packing = s.packing := rfl
@[simp] theorem State.bump_replays (r : Reg) (f : Fld) (v : Nat) : (s.bump r f v).replays = s.replays := rfl
@[simp] theorem State.bump_welts (r : Reg) (f : Fld) (v : Nat) : (s.bump r f v).welts = s.welts := rfl
@[simp] theorem State.bump_pools (r : Reg) (f : Fld) (v : Nat) : (s.bump r f v).pools = s.pools := rfl
@[simp] theorem State.bump_linkHeld (r : Reg) (f : Fld) (v : Nat) : (s.bump r f v).linkHeld = s.linkHeld := rfl
@[simp] theorem State.bump_linkSpares (r : Reg) (f : Fld) (v : Nat) : (s.bump r f v).linkSpares = s.linkSpares := rfl
@[simp] theorem State.bump_linkBuf (r : Reg) (f : Fld) (v : Nat) : (s.bump r f v).linkBuf = s.linkBuf := rfl
@[simp] theorem State.bump_colls (r : Reg) (f : Fld) (v : Nat) : (s.bump r f v).colls = s.colls := rfl
@[simp] theorem State.bump_collCounts (r : Reg) (f : Fld) (v : Nat) : (s.bump r f v).collCounts = s.collCounts := rfl
@[simp] theorem State.bump_cached (r : Reg) (f : Fld) (v : Nat) : (s.bump r f v).cached = s.cached := rfl
@[simp] theorem State.bump_writeBacks (r : Reg) (f : Fld) (v : Nat) : (s.bump r f v).writeBacks = s.writeBacks := rfl
@[simp] theorem State.bump_cacheUpsets (r : Reg) (f : Fld) (v : Nat) : (s.bump r f v).cacheUpsets = s.cacheUpsets := rfl
@[simp] theorem State.bump_hcCaches (r : Reg) (f : Fld) (v : Nat) : (s.bump r f v).hcCaches = s.hcCaches := rfl
@[simp] theorem State.bump_hcReserved (r : Reg) (f : Fld) (v : Nat) : (s.bump r f v).hcReserved = s.hcReserved := rfl
@[simp] theorem State.bump_codeSlots (r : Reg) (f : Fld) (v : Nat) : (s.bump r f v).codeSlots = s.codeSlots := rfl
@[simp] theorem State.bump_extRuns (r : Reg) (f : Fld) (v : Nat) : (s.bump r f v).extRuns = s.extRuns := rfl
@[simp] theorem State.bump_extDone (r : Reg) (f : Fld) (v : Nat) : (s.bump r f v).extDone = s.extDone := rfl
@[simp] theorem State.bump_eyeCommits (r : Reg) (f : Fld) (v : Nat) : (s.bump r f v).eyeCommits = s.eyeCommits := rfl
@[simp] theorem State.bump_eyeExpired (r : Reg) (f : Fld) (v : Nat) : (s.bump r f v).eyeExpired = s.eyeExpired := rfl
@[simp] theorem State.bump_eyeWrites (r : Reg) (f : Fld) (v : Nat) : (s.bump r f v).eyeWrites = s.eyeWrites := rfl
@[simp] theorem State.bump_claimedBy (r : Reg) (f : Fld) (v : Nat) : (s.bump r f v).claimedBy = s.claimedBy := rfl
@[simp] theorem State.bump_lastClaim (r : Reg) (f : Fld) (v : Nat) : (s.bump r f v).lastClaim = s.lastClaim := rfl
@[simp] theorem State.bump_roundRobin (r : Reg) (f : Fld) (v : Nat) : (s.bump r f v).roundRobin = s.roundRobin := rfl
@[simp] theorem State.bump_rrSince (r : Reg) (f : Fld) (v : Nat) : (s.bump r f v).rrSince = s.rrSince := rfl
@[simp] theorem State.bump_rangeDue (r : Reg) (f : Fld) (v : Nat) : (s.bump r f v).rangeDue = s.rangeDue := rfl
@[simp] theorem State.bump_rangeOwner (r : Reg) (f : Fld) (v : Nat) : (s.bump r f v).rangeOwner = s.rangeOwner := rfl
@[simp] theorem State.bump_hostRx (r : Reg) (f : Fld) (v : Nat) : (s.bump r f v).hostRx = s.hostRx := rfl
@[simp] theorem State.bump_sessions (r : Reg) (f : Fld) (v : Nat) : (s.bump r f v).sessions = s.sessions := rfl
@[simp] theorem State.bump_hostWire (r : Reg) (f : Fld) (v : Nat) : (s.bump r f v).hostWire = s.hostWire := rfl
@[simp] theorem State.bump_mgmtKeys (r : Reg) (f : Fld) (v : Nat) : (s.bump r f v).mgmtKeys = s.mgmtKeys := rfl
@[simp] theorem State.bump_leaseKeys (r : Reg) (f : Fld) (v : Nat) : (s.bump r f v).leaseKeys = s.leaseKeys := rfl
@[simp] theorem State.bump_owned (r : Reg) (f : Fld) (v : Nat) : (s.bump r f v).owned = s.owned := rfl
@[simp] theorem State.bump_quiesces (r : Reg) (f : Fld) (v : Nat) : (s.bump r f v).quiesces = s.quiesces := rfl
@[simp] theorem State.bump_binding (r : Reg) (f : Fld) (v : Nat) : (s.bump r f v).binding = s.binding := rfl
@[simp] theorem State.bump_monitor (r : Reg) (f : Fld) (v : Nat) : (s.bump r f v).monitor = s.monitor := rfl
@[simp] theorem State.bump_monitorAt (r : Reg) (f : Fld) (v : Nat) : (s.bump r f v).monitorAt = s.monitorAt := rfl
@[simp] theorem State.bump_snapOp (r : Reg) (f : Fld) (v : Nat) : (s.bump r f v).snapOp = s.snapOp := rfl
@[simp] theorem State.bump_stepEnds (r : Reg) (f : Fld) (v : Nat) : (s.bump r f v).stepEnds = s.stepEnds := rfl
@[simp] theorem State.bump_withdrawn (r : Reg) (f : Fld) (v : Nat) : (s.bump r f v).withdrawn = s.withdrawn := rfl
@[simp] theorem State.bump_stageGib (r : Reg) (f : Fld) (v : Nat) : (s.bump r f v).stageGib = s.stageGib := rfl
@[simp] theorem State.bump_snaps (r : Reg) (f : Fld) (v : Nat) : (s.bump r f v).snaps = s.snaps := rfl
@[simp] theorem State.bump_snapCount (r : Reg) (f : Fld) (v : Nat) : (s.bump r f v).snapCount = s.snapCount := rfl
@[simp] theorem State.bump_streams (r : Reg) (f : Fld) (v : Nat) : (s.bump r f v).streams = s.streams := rfl
@[simp] theorem State.bump_records (r : Reg) (f : Fld) (v : Nat) : (s.bump r f v).records = s.records := rfl
@[simp] theorem State.bump_leaseBorn (r : Reg) (f : Fld) (v : Nat) : (s.bump r f v).leaseBorn = s.leaseBorn := rfl
@[simp] theorem State.bump_lastSnap (r : Reg) (f : Fld) (v : Nat) : (s.bump r f v).lastSnap = s.lastSnap := rfl
@[simp] theorem State.bump_failures (r : Reg) (f : Fld) (v : Nat) : (s.bump r f v).failures = s.failures := rfl
@[simp] theorem State.bump_recovering (r : Reg) (f : Fld) (v : Nat) : (s.bump r f v).recovering = s.recovering := rfl
@[simp] theorem State.bump_prompts (r : Reg) (f : Fld) (v : Nat) : (s.bump r f v).prompts = s.prompts := rfl
@[simp] theorem State.bump_powerAt (r : Reg) (f : Fld) (v : Nat) : (s.bump r f v).powerAt = s.powerAt := rfl
@[simp] theorem State.bump_dutyAt (r : Reg) (f : Fld) (v : Nat) : (s.bump r f v).dutyAt = s.dutyAt := rfl
@[simp] theorem State.bump_clusterUsed (r : Reg) (f : Fld) (v : Nat) : (s.bump r f v).clusterUsed = s.clusterUsed := rfl
@[simp] theorem State.bump_energyAt (r : Reg) (f : Fld) (v : Nat) : (s.bump r f v).energyAt = s.energyAt := rfl
@[simp] theorem State.bump_energyBytes (r : Reg) (f : Fld) (v : Nat) : (s.bump r f v).energyBytes = s.energyBytes := rfl
@[simp] theorem State.bump_completions (r : Reg) (f : Fld) (v : Nat) : (s.bump r f v).completions = s.completions := rfl
@[simp] theorem State.bump_relockAt (r : Reg) (f : Fld) (v : Nat) : (s.bump r f v).relockAt = s.relockAt := rfl
@[simp] theorem State.bump_goodWindows (r : Reg) (f : Fld) (v : Nat) : (s.bump r f v).goodWindows = s.goodWindows := rfl
@[simp] theorem State.bump_standbyLost (r : Reg) (f : Fld) (v : Nat) : (s.bump r f v).standbyLost = s.standbyLost := rfl
@[simp] theorem State.bump_arithMhz (r : Reg) (f : Fld) (v : Nat) : (s.bump r f v).arithMhz = s.arithMhz := rfl
@[simp] theorem State.bump_ratioMode (r : Reg) (f : Fld) (v : Nat) : (s.bump r f v).ratioMode = s.ratioMode := rfl
@[simp] theorem State.bump_watts (r : Reg) (f : Fld) (v : Nat) : (s.bump r f v).watts = s.watts := rfl
@[simp] theorem State.bump_floorRun (r : Reg) (f : Fld) (v : Nat) : (s.bump r f v).floorRun = s.floorRun := rfl
@[simp] theorem State.bump_clustersOff (r : Reg) (f : Fld) (v : Nat) : (s.bump r f v).clustersOff = s.clustersOff := rfl
@[simp] theorem State.bump_alertSince (r : Reg) (f : Fld) (v : Nat) : (s.bump r f v).alertSince = s.alertSince := rfl
@[simp] theorem State.bump_life (r : Reg) (f : Fld) (v : Nat) : (s.bump r f v).life = s.life := rfl
@[simp] theorem State.bump_resetLow (r : Reg) (f : Fld) (v : Nat) : (s.bump r f v).resetLow = s.resetLow := rfl
@[simp] theorem State.bump_strap (r : Reg) (f : Fld) (v : Nat) : (s.bump r f v).strap = s.strap := rfl
@[simp] theorem State.bump_hot (r : Reg) (f : Fld) (v : Nat) : (s.bump r f v).hot = s.hot := rfl
@[simp] theorem State.bump_startDue (r : Reg) (f : Fld) (v : Nat) : (s.bump r f v).startDue = s.startDue := rfl
@[simp] theorem State.bump_startAt (r : Reg) (f : Fld) (v : Nat) : (s.bump r f v).startAt = s.startAt := rfl
@[simp] theorem State.bump_stageAt (r : Reg) (f : Fld) (v : Nat) : (s.bump r f v).stageAt = s.stageAt := rfl
@[simp] theorem State.bump_lastDuration (r : Reg) (f : Fld) (v : Nat) : (s.bump r f v).lastDuration = s.lastDuration := rfl
@[simp] theorem State.bump_startArea (r : Reg) (f : Fld) (v : Nat) : (s.bump r f v).startArea = s.startArea := rfl
@[simp] theorem State.bump_storeStart (r : Reg) (f : Fld) (v : Nat) : (s.bump r f v).storeStart = s.storeStart := rfl
@[simp] theorem State.bump_storeSettings (r : Reg) (f : Fld) (v : Nat) : (s.bump r f v).storeSettings = s.storeSettings := rfl
@[simp] theorem State.bump_chosen (r : Reg) (f : Fld) (v : Nat) : (s.bump r f v).chosen = s.chosen := rfl
@[simp] theorem State.bump_recovery (r : Reg) (f : Fld) (v : Nat) : (s.bump r f v).recovery = s.recovery := rfl
@[simp] theorem State.bump_sv1 (r : Reg) (f : Fld) (v : Nat) : (s.bump r f v).sv1 = s.sv1 := rfl
@[simp] theorem State.bump_sv0Failed (r : Reg) (f : Fld) (v : Nat) : (s.bump r f v).sv0Failed = s.sv0Failed := rfl
@[simp] theorem State.bump_heartbeatAt (r : Reg) (f : Fld) (v : Nat) : (s.bump r f v).heartbeatAt = s.heartbeatAt := rfl
@[simp] theorem State.bump_flash (r : Reg) (f : Fld) (v : Nat) : (s.bump r f v).flash = s.flash := rfl
@[simp] theorem State.bump_running (r : Reg) (f : Fld) (v : Nat) : (s.bump r f v).running = s.running := rfl
@[simp] theorem State.bump_flashWrite (r : Reg) (f : Fld) (v : Nat) : (s.bump r f v).flashWrite = s.flashWrite := rfl
@[simp] theorem State.bump_staged (r : Reg) (f : Fld) (v : Nat) : (s.bump r f v).staged = s.staged := rfl
@[simp] theorem State.bump_completeAt (r : Reg) (f : Fld) (v : Nat) : (s.bump r f v).completeAt = s.completeAt := rfl
@[simp] theorem State.bump_enumAt (r : Reg) (f : Fld) (v : Nat) : (s.bump r f v).enumAt = s.enumAt := rfl
@[simp] theorem State.bump_reclaimDue (r : Reg) (f : Fld) (v : Nat) : (s.bump r f v).reclaimDue = s.reclaimDue := rfl
@[simp] theorem State.bump_foreign (r : Reg) (f : Fld) (v : Nat) : (s.bump r f v).foreign = s.foreign := rfl
@[simp] theorem State.bump_addrRecord (r : Reg) (f : Fld) (v : Nat) : (s.bump r f v).addrRecord = s.addrRecord := rfl
@[simp] theorem State.bump_announcedAt (r : Reg) (f : Fld) (v : Nat) : (s.bump r f v).announcedAt = s.announcedAt := rfl
@[simp] theorem State.bump_adverts (r : Reg) (f : Fld) (v : Nat) : (s.bump r f v).adverts = s.adverts := rfl
@[simp] theorem State.bump_rasAt (r : Reg) (f : Fld) (v : Nat) : (s.bump r f v).rasAt = s.rasAt := rfl
@[simp] theorem State.bump_rasSeen (r : Reg) (f : Fld) (v : Nat) : (s.bump r f v).rasSeen = s.rasSeen := rfl
@[simp] theorem State.bump_rasCorr (r : Reg) (f : Fld) (v : Nat) : (s.bump r f v).rasCorr = s.rasCorr := rfl
@[simp] theorem State.bump_uncRows (r : Reg) (f : Fld) (v : Nat) : (s.bump r f v).uncRows = s.uncRows := rfl
@[simp] theorem State.bump_rasMet (r : Reg) (f : Fld) (v : Nat) : (s.bump r f v).rasMet = s.rasMet := rfl
@[simp] theorem State.bump_marked (r : Reg) (f : Fld) (v : Nat) : (s.bump r f v).marked = s.marked := rfl
@[simp] theorem State.bump_retireDue (r : Reg) (f : Fld) (v : Nat) : (s.bump r f v).retireDue = s.retireDue := rfl
@[simp] theorem State.bump_repairs (r : Reg) (f : Fld) (v : Nat) : (s.bump r f v).repairs = s.repairs := rfl
@[simp] theorem State.bump_verifyAt (r : Reg) (f : Fld) (v : Nat) : (s.bump r f v).verifyAt = s.verifyAt := rfl

@[simp] theorem State.setW1c_pending (r : Reg) (f : Fld) : (s.setW1c r f).pending = s.pending := rfl
@[simp] theorem State.setW1c_now (r : Reg) (f : Fld) : (s.setW1c r f).now = s.now := rfl
@[simp] theorem State.setW1c_coreClock (r : Reg) (f : Fld) : (s.setW1c r f).coreClock = s.coreClock := rfl
@[simp] theorem State.setW1c_fresh (r : Reg) (f : Fld) : (s.setW1c r f).fresh = s.fresh := rfl
@[simp] theorem State.setW1c_grade (r : Reg) (f : Fld) : (s.setW1c r f).grade = s.grade := rfl
@[simp] theorem State.setW1c_access (r : Reg) (f : Fld) : (s.setW1c r f).access = s.access := rfl
@[simp] theorem State.setW1c_mem (r : Reg) (f : Fld) : (s.setW1c r f).mem = s.mem := rfl
@[simp] theorem State.setW1c_cores (r : Reg) (f : Fld) : (s.setW1c r f).cores = s.cores := rfl
@[simp] theorem State.setW1c_flagOps (r : Reg) (f : Fld) : (s.setW1c r f).flagOps = s.flagOps := rfl
@[simp] theorem State.setW1c_reqs (r : Reg) (f : Fld) : (s.setW1c r f).reqs = s.reqs := rfl
@[simp] theorem State.setW1c_nextId (r : Reg) (f : Fld) : (s.setW1c r f).nextId = s.nextId := rfl
@[simp] theorem State.setW1c_ctls (r : Reg) (f : Fld) : (s.setW1c r f).ctls = s.ctls := rfl
@[simp] theorem State.setW1c_stackRuns (r : Reg) (f : Fld) : (s.setW1c r f).stackRuns = s.stackRuns := rfl
@[simp] theorem State.setW1c_wcache (r : Reg) (f : Fld) : (s.setW1c r f).wcache = s.wcache := rfl
@[simp] theorem State.setW1c_patrol (r : Reg) (f : Fld) : (s.setW1c r f).patrol = s.patrol := rfl
@[simp] theorem State.setW1c_scrubs (r : Reg) (f : Fld) : (s.setW1c r f).scrubs = s.scrubs := rfl
@[simp] theorem State.setW1c_frames (r : Reg) (f : Fld) : (s.setW1c r f).frames = s.frames := rfl
@[simp] theorem State.setW1c_extents (r : Reg) (f : Fld) : (s.setW1c r f).extents = s.extents := rfl
@[simp] theorem State.setW1c_pulses (r : Reg) (f : Fld) : (s.setW1c r f).pulses = s.pulses := rfl
@[simp] theorem State.setW1c_rawLines (r : Reg) (f : Fld) : (s.setW1c r f).rawLines = s.rawLines := rfl
@[simp] theorem State.setW1c_filteredHigh (r : Reg) (f : Fld) : (s.setW1c r f).filteredHigh = s.filteredHigh := rfl
@[simp] theorem State.setW1c_inject (r : Reg) (f : Fld) : (s.setW1c r f).inject = s.inject := rfl
@[simp] theorem State.setW1c_banks (r : Reg) (f : Fld) : (s.setW1c r f).banks = s.banks := rfl
@[simp] theorem State.setW1c_upsets (r : Reg) (f : Fld) : (s.setW1c r f).upsets = s.upsets := rfl
@[simp] theorem State.setW1c_retired (r : Reg) (f : Fld) : (s.setW1c r f).retired = s.retired := rfl
@[simp] theorem State.setW1c_absent (r : Reg) (f : Fld) : (s.setW1c r f).absent = s.absent := rfl
@[simp] theorem State.setW1c_perturbed (r : Reg) (f : Fld) : (s.setW1c r f).perturbed = s.perturbed := rfl
@[simp] theorem State.setW1c_pertOld (r : Reg) (f : Fld) : (s.setW1c r f).pertOld = s.pertOld := rfl
@[simp] theorem State.setW1c_conns (r : Reg) (f : Fld) : (s.setW1c r f).conns = s.conns := rfl
@[simp] theorem State.setW1c_egress (r : Reg) (f : Fld) : (s.setW1c r f).egress = s.egress := rfl
@[simp] theorem State.setW1c_arbiters (r : Reg) (f : Fld) : (s.setW1c r f).arbiters = s.arbiters := rfl
@[simp] theorem State.setW1c_peerDue (r : Reg) (f : Fld) : (s.setW1c r f).peerDue = s.peerDue := rfl
@[simp] theorem State.setW1c_spent (r : Reg) (f : Fld) : (s.setW1c r f).spent = s.spent := rfl
@[simp] theorem State.setW1c_freed (r : Reg) (f : Fld) : (s.setW1c r f).freed = s.freed := rfl
@[simp] theorem State.setW1c_wire (r : Reg) (f : Fld) : (s.setW1c r f).wire = s.wire := rfl
@[simp] theorem State.setW1c_training (r : Reg) (f : Fld) : (s.setW1c r f).training = s.training := rfl
@[simp] theorem State.setW1c_fecRecent (r : Reg) (f : Fld) : (s.setW1c r f).fecRecent = s.fecRecent := rfl
@[simp] theorem State.setW1c_packing (r : Reg) (f : Fld) : (s.setW1c r f).packing = s.packing := rfl
@[simp] theorem State.setW1c_replays (r : Reg) (f : Fld) : (s.setW1c r f).replays = s.replays := rfl
@[simp] theorem State.setW1c_welts (r : Reg) (f : Fld) : (s.setW1c r f).welts = s.welts := rfl
@[simp] theorem State.setW1c_pools (r : Reg) (f : Fld) : (s.setW1c r f).pools = s.pools := rfl
@[simp] theorem State.setW1c_linkHeld (r : Reg) (f : Fld) : (s.setW1c r f).linkHeld = s.linkHeld := rfl
@[simp] theorem State.setW1c_linkSpares (r : Reg) (f : Fld) : (s.setW1c r f).linkSpares = s.linkSpares := rfl
@[simp] theorem State.setW1c_linkBuf (r : Reg) (f : Fld) : (s.setW1c r f).linkBuf = s.linkBuf := rfl
@[simp] theorem State.setW1c_colls (r : Reg) (f : Fld) : (s.setW1c r f).colls = s.colls := rfl
@[simp] theorem State.setW1c_collCounts (r : Reg) (f : Fld) : (s.setW1c r f).collCounts = s.collCounts := rfl
@[simp] theorem State.setW1c_cached (r : Reg) (f : Fld) : (s.setW1c r f).cached = s.cached := rfl
@[simp] theorem State.setW1c_writeBacks (r : Reg) (f : Fld) : (s.setW1c r f).writeBacks = s.writeBacks := rfl
@[simp] theorem State.setW1c_cacheUpsets (r : Reg) (f : Fld) : (s.setW1c r f).cacheUpsets = s.cacheUpsets := rfl
@[simp] theorem State.setW1c_hcCaches (r : Reg) (f : Fld) : (s.setW1c r f).hcCaches = s.hcCaches := rfl
@[simp] theorem State.setW1c_hcReserved (r : Reg) (f : Fld) : (s.setW1c r f).hcReserved = s.hcReserved := rfl
@[simp] theorem State.setW1c_codeSlots (r : Reg) (f : Fld) : (s.setW1c r f).codeSlots = s.codeSlots := rfl
@[simp] theorem State.setW1c_extRuns (r : Reg) (f : Fld) : (s.setW1c r f).extRuns = s.extRuns := rfl
@[simp] theorem State.setW1c_extDone (r : Reg) (f : Fld) : (s.setW1c r f).extDone = s.extDone := rfl
@[simp] theorem State.setW1c_eyeCommits (r : Reg) (f : Fld) : (s.setW1c r f).eyeCommits = s.eyeCommits := rfl
@[simp] theorem State.setW1c_eyeExpired (r : Reg) (f : Fld) : (s.setW1c r f).eyeExpired = s.eyeExpired := rfl
@[simp] theorem State.setW1c_eyeWrites (r : Reg) (f : Fld) : (s.setW1c r f).eyeWrites = s.eyeWrites := rfl
@[simp] theorem State.setW1c_claimedBy (r : Reg) (f : Fld) : (s.setW1c r f).claimedBy = s.claimedBy := rfl
@[simp] theorem State.setW1c_lastClaim (r : Reg) (f : Fld) : (s.setW1c r f).lastClaim = s.lastClaim := rfl
@[simp] theorem State.setW1c_roundRobin (r : Reg) (f : Fld) : (s.setW1c r f).roundRobin = s.roundRobin := rfl
@[simp] theorem State.setW1c_rrSince (r : Reg) (f : Fld) : (s.setW1c r f).rrSince = s.rrSince := rfl
@[simp] theorem State.setW1c_rangeDue (r : Reg) (f : Fld) : (s.setW1c r f).rangeDue = s.rangeDue := rfl
@[simp] theorem State.setW1c_rangeOwner (r : Reg) (f : Fld) : (s.setW1c r f).rangeOwner = s.rangeOwner := rfl
@[simp] theorem State.setW1c_hostRx (r : Reg) (f : Fld) : (s.setW1c r f).hostRx = s.hostRx := rfl
@[simp] theorem State.setW1c_sessions (r : Reg) (f : Fld) : (s.setW1c r f).sessions = s.sessions := rfl
@[simp] theorem State.setW1c_hostWire (r : Reg) (f : Fld) : (s.setW1c r f).hostWire = s.hostWire := rfl
@[simp] theorem State.setW1c_mgmtKeys (r : Reg) (f : Fld) : (s.setW1c r f).mgmtKeys = s.mgmtKeys := rfl
@[simp] theorem State.setW1c_leaseKeys (r : Reg) (f : Fld) : (s.setW1c r f).leaseKeys = s.leaseKeys := rfl
@[simp] theorem State.setW1c_owned (r : Reg) (f : Fld) : (s.setW1c r f).owned = s.owned := rfl
@[simp] theorem State.setW1c_quiesces (r : Reg) (f : Fld) : (s.setW1c r f).quiesces = s.quiesces := rfl
@[simp] theorem State.setW1c_binding (r : Reg) (f : Fld) : (s.setW1c r f).binding = s.binding := rfl
@[simp] theorem State.setW1c_monitor (r : Reg) (f : Fld) : (s.setW1c r f).monitor = s.monitor := rfl
@[simp] theorem State.setW1c_monitorAt (r : Reg) (f : Fld) : (s.setW1c r f).monitorAt = s.monitorAt := rfl
@[simp] theorem State.setW1c_snapOp (r : Reg) (f : Fld) : (s.setW1c r f).snapOp = s.snapOp := rfl
@[simp] theorem State.setW1c_stepEnds (r : Reg) (f : Fld) : (s.setW1c r f).stepEnds = s.stepEnds := rfl
@[simp] theorem State.setW1c_withdrawn (r : Reg) (f : Fld) : (s.setW1c r f).withdrawn = s.withdrawn := rfl
@[simp] theorem State.setW1c_stageGib (r : Reg) (f : Fld) : (s.setW1c r f).stageGib = s.stageGib := rfl
@[simp] theorem State.setW1c_snaps (r : Reg) (f : Fld) : (s.setW1c r f).snaps = s.snaps := rfl
@[simp] theorem State.setW1c_snapCount (r : Reg) (f : Fld) : (s.setW1c r f).snapCount = s.snapCount := rfl
@[simp] theorem State.setW1c_streams (r : Reg) (f : Fld) : (s.setW1c r f).streams = s.streams := rfl
@[simp] theorem State.setW1c_records (r : Reg) (f : Fld) : (s.setW1c r f).records = s.records := rfl
@[simp] theorem State.setW1c_leaseBorn (r : Reg) (f : Fld) : (s.setW1c r f).leaseBorn = s.leaseBorn := rfl
@[simp] theorem State.setW1c_lastSnap (r : Reg) (f : Fld) : (s.setW1c r f).lastSnap = s.lastSnap := rfl
@[simp] theorem State.setW1c_failures (r : Reg) (f : Fld) : (s.setW1c r f).failures = s.failures := rfl
@[simp] theorem State.setW1c_recovering (r : Reg) (f : Fld) : (s.setW1c r f).recovering = s.recovering := rfl
@[simp] theorem State.setW1c_prompts (r : Reg) (f : Fld) : (s.setW1c r f).prompts = s.prompts := rfl
@[simp] theorem State.setW1c_powerAt (r : Reg) (f : Fld) : (s.setW1c r f).powerAt = s.powerAt := rfl
@[simp] theorem State.setW1c_dutyAt (r : Reg) (f : Fld) : (s.setW1c r f).dutyAt = s.dutyAt := rfl
@[simp] theorem State.setW1c_clusterUsed (r : Reg) (f : Fld) : (s.setW1c r f).clusterUsed = s.clusterUsed := rfl
@[simp] theorem State.setW1c_energyAt (r : Reg) (f : Fld) : (s.setW1c r f).energyAt = s.energyAt := rfl
@[simp] theorem State.setW1c_energyBytes (r : Reg) (f : Fld) : (s.setW1c r f).energyBytes = s.energyBytes := rfl
@[simp] theorem State.setW1c_completions (r : Reg) (f : Fld) : (s.setW1c r f).completions = s.completions := rfl
@[simp] theorem State.setW1c_relockAt (r : Reg) (f : Fld) : (s.setW1c r f).relockAt = s.relockAt := rfl
@[simp] theorem State.setW1c_goodWindows (r : Reg) (f : Fld) : (s.setW1c r f).goodWindows = s.goodWindows := rfl
@[simp] theorem State.setW1c_standbyLost (r : Reg) (f : Fld) : (s.setW1c r f).standbyLost = s.standbyLost := rfl
@[simp] theorem State.setW1c_arithMhz (r : Reg) (f : Fld) : (s.setW1c r f).arithMhz = s.arithMhz := rfl
@[simp] theorem State.setW1c_ratioMode (r : Reg) (f : Fld) : (s.setW1c r f).ratioMode = s.ratioMode := rfl
@[simp] theorem State.setW1c_watts (r : Reg) (f : Fld) : (s.setW1c r f).watts = s.watts := rfl
@[simp] theorem State.setW1c_floorRun (r : Reg) (f : Fld) : (s.setW1c r f).floorRun = s.floorRun := rfl
@[simp] theorem State.setW1c_clustersOff (r : Reg) (f : Fld) : (s.setW1c r f).clustersOff = s.clustersOff := rfl
@[simp] theorem State.setW1c_alertSince (r : Reg) (f : Fld) : (s.setW1c r f).alertSince = s.alertSince := rfl
@[simp] theorem State.setW1c_life (r : Reg) (f : Fld) : (s.setW1c r f).life = s.life := rfl
@[simp] theorem State.setW1c_resetLow (r : Reg) (f : Fld) : (s.setW1c r f).resetLow = s.resetLow := rfl
@[simp] theorem State.setW1c_strap (r : Reg) (f : Fld) : (s.setW1c r f).strap = s.strap := rfl
@[simp] theorem State.setW1c_hot (r : Reg) (f : Fld) : (s.setW1c r f).hot = s.hot := rfl
@[simp] theorem State.setW1c_startDue (r : Reg) (f : Fld) : (s.setW1c r f).startDue = s.startDue := rfl
@[simp] theorem State.setW1c_startAt (r : Reg) (f : Fld) : (s.setW1c r f).startAt = s.startAt := rfl
@[simp] theorem State.setW1c_stageAt (r : Reg) (f : Fld) : (s.setW1c r f).stageAt = s.stageAt := rfl
@[simp] theorem State.setW1c_lastDuration (r : Reg) (f : Fld) : (s.setW1c r f).lastDuration = s.lastDuration := rfl
@[simp] theorem State.setW1c_startArea (r : Reg) (f : Fld) : (s.setW1c r f).startArea = s.startArea := rfl
@[simp] theorem State.setW1c_storeStart (r : Reg) (f : Fld) : (s.setW1c r f).storeStart = s.storeStart := rfl
@[simp] theorem State.setW1c_storeSettings (r : Reg) (f : Fld) : (s.setW1c r f).storeSettings = s.storeSettings := rfl
@[simp] theorem State.setW1c_chosen (r : Reg) (f : Fld) : (s.setW1c r f).chosen = s.chosen := rfl
@[simp] theorem State.setW1c_recovery (r : Reg) (f : Fld) : (s.setW1c r f).recovery = s.recovery := rfl
@[simp] theorem State.setW1c_sv1 (r : Reg) (f : Fld) : (s.setW1c r f).sv1 = s.sv1 := rfl
@[simp] theorem State.setW1c_sv0Failed (r : Reg) (f : Fld) : (s.setW1c r f).sv0Failed = s.sv0Failed := rfl
@[simp] theorem State.setW1c_heartbeatAt (r : Reg) (f : Fld) : (s.setW1c r f).heartbeatAt = s.heartbeatAt := rfl
@[simp] theorem State.setW1c_flash (r : Reg) (f : Fld) : (s.setW1c r f).flash = s.flash := rfl
@[simp] theorem State.setW1c_running (r : Reg) (f : Fld) : (s.setW1c r f).running = s.running := rfl
@[simp] theorem State.setW1c_flashWrite (r : Reg) (f : Fld) : (s.setW1c r f).flashWrite = s.flashWrite := rfl
@[simp] theorem State.setW1c_staged (r : Reg) (f : Fld) : (s.setW1c r f).staged = s.staged := rfl
@[simp] theorem State.setW1c_completeAt (r : Reg) (f : Fld) : (s.setW1c r f).completeAt = s.completeAt := rfl
@[simp] theorem State.setW1c_enumAt (r : Reg) (f : Fld) : (s.setW1c r f).enumAt = s.enumAt := rfl
@[simp] theorem State.setW1c_reclaimDue (r : Reg) (f : Fld) : (s.setW1c r f).reclaimDue = s.reclaimDue := rfl
@[simp] theorem State.setW1c_foreign (r : Reg) (f : Fld) : (s.setW1c r f).foreign = s.foreign := rfl
@[simp] theorem State.setW1c_addrRecord (r : Reg) (f : Fld) : (s.setW1c r f).addrRecord = s.addrRecord := rfl
@[simp] theorem State.setW1c_announcedAt (r : Reg) (f : Fld) : (s.setW1c r f).announcedAt = s.announcedAt := rfl
@[simp] theorem State.setW1c_adverts (r : Reg) (f : Fld) : (s.setW1c r f).adverts = s.adverts := rfl
@[simp] theorem State.setW1c_rasAt (r : Reg) (f : Fld) : (s.setW1c r f).rasAt = s.rasAt := rfl
@[simp] theorem State.setW1c_rasSeen (r : Reg) (f : Fld) : (s.setW1c r f).rasSeen = s.rasSeen := rfl
@[simp] theorem State.setW1c_rasCorr (r : Reg) (f : Fld) : (s.setW1c r f).rasCorr = s.rasCorr := rfl
@[simp] theorem State.setW1c_uncRows (r : Reg) (f : Fld) : (s.setW1c r f).uncRows = s.uncRows := rfl
@[simp] theorem State.setW1c_rasMet (r : Reg) (f : Fld) : (s.setW1c r f).rasMet = s.rasMet := rfl
@[simp] theorem State.setW1c_marked (r : Reg) (f : Fld) : (s.setW1c r f).marked = s.marked := rfl
@[simp] theorem State.setW1c_retireDue (r : Reg) (f : Fld) : (s.setW1c r f).retireDue = s.retireDue := rfl
@[simp] theorem State.setW1c_repairs (r : Reg) (f : Fld) : (s.setW1c r f).repairs = s.repairs := rfl
@[simp] theorem State.setW1c_verifyAt (r : Reg) (f : Fld) : (s.setW1c r f).verifyAt = s.verifyAt := rfl

@[simp] theorem State.tally_pending (r : Reg) (f : Fld) (v : Nat) : (s.tally r f v).pending = s.pending := rfl
@[simp] theorem State.tally_now (r : Reg) (f : Fld) (v : Nat) : (s.tally r f v).now = s.now := rfl
@[simp] theorem State.tally_coreClock (r : Reg) (f : Fld) (v : Nat) : (s.tally r f v).coreClock = s.coreClock := rfl
@[simp] theorem State.tally_fresh (r : Reg) (f : Fld) (v : Nat) : (s.tally r f v).fresh = s.fresh := rfl
@[simp] theorem State.tally_grade (r : Reg) (f : Fld) (v : Nat) : (s.tally r f v).grade = s.grade := rfl
@[simp] theorem State.tally_access (r : Reg) (f : Fld) (v : Nat) : (s.tally r f v).access = s.access := rfl
@[simp] theorem State.tally_mem (r : Reg) (f : Fld) (v : Nat) : (s.tally r f v).mem = s.mem := rfl
@[simp] theorem State.tally_cores (r : Reg) (f : Fld) (v : Nat) : (s.tally r f v).cores = s.cores := rfl
@[simp] theorem State.tally_flagOps (r : Reg) (f : Fld) (v : Nat) : (s.tally r f v).flagOps = s.flagOps := rfl
@[simp] theorem State.tally_reqs (r : Reg) (f : Fld) (v : Nat) : (s.tally r f v).reqs = s.reqs := rfl
@[simp] theorem State.tally_nextId (r : Reg) (f : Fld) (v : Nat) : (s.tally r f v).nextId = s.nextId := rfl
@[simp] theorem State.tally_ctls (r : Reg) (f : Fld) (v : Nat) : (s.tally r f v).ctls = s.ctls := rfl
@[simp] theorem State.tally_stackRuns (r : Reg) (f : Fld) (v : Nat) : (s.tally r f v).stackRuns = s.stackRuns := rfl
@[simp] theorem State.tally_wcache (r : Reg) (f : Fld) (v : Nat) : (s.tally r f v).wcache = s.wcache := rfl
@[simp] theorem State.tally_patrol (r : Reg) (f : Fld) (v : Nat) : (s.tally r f v).patrol = s.patrol := rfl
@[simp] theorem State.tally_scrubs (r : Reg) (f : Fld) (v : Nat) : (s.tally r f v).scrubs = s.scrubs := rfl
@[simp] theorem State.tally_frames (r : Reg) (f : Fld) (v : Nat) : (s.tally r f v).frames = s.frames := rfl
@[simp] theorem State.tally_extents (r : Reg) (f : Fld) (v : Nat) : (s.tally r f v).extents = s.extents := rfl
@[simp] theorem State.tally_pulses (r : Reg) (f : Fld) (v : Nat) : (s.tally r f v).pulses = s.pulses := rfl
@[simp] theorem State.tally_rawLines (r : Reg) (f : Fld) (v : Nat) : (s.tally r f v).rawLines = s.rawLines := rfl
@[simp] theorem State.tally_filteredHigh (r : Reg) (f : Fld) (v : Nat) : (s.tally r f v).filteredHigh = s.filteredHigh := rfl
@[simp] theorem State.tally_inject (r : Reg) (f : Fld) (v : Nat) : (s.tally r f v).inject = s.inject := rfl
@[simp] theorem State.tally_banks (r : Reg) (f : Fld) (v : Nat) : (s.tally r f v).banks = s.banks := rfl
@[simp] theorem State.tally_upsets (r : Reg) (f : Fld) (v : Nat) : (s.tally r f v).upsets = s.upsets := rfl
@[simp] theorem State.tally_retired (r : Reg) (f : Fld) (v : Nat) : (s.tally r f v).retired = s.retired := rfl
@[simp] theorem State.tally_absent (r : Reg) (f : Fld) (v : Nat) : (s.tally r f v).absent = s.absent := rfl
@[simp] theorem State.tally_perturbed (r : Reg) (f : Fld) (v : Nat) : (s.tally r f v).perturbed = s.perturbed := rfl
@[simp] theorem State.tally_pertOld (r : Reg) (f : Fld) (v : Nat) : (s.tally r f v).pertOld = s.pertOld := rfl
@[simp] theorem State.tally_conns (r : Reg) (f : Fld) (v : Nat) : (s.tally r f v).conns = s.conns := rfl
@[simp] theorem State.tally_egress (r : Reg) (f : Fld) (v : Nat) : (s.tally r f v).egress = s.egress := rfl
@[simp] theorem State.tally_arbiters (r : Reg) (f : Fld) (v : Nat) : (s.tally r f v).arbiters = s.arbiters := rfl
@[simp] theorem State.tally_peerDue (r : Reg) (f : Fld) (v : Nat) : (s.tally r f v).peerDue = s.peerDue := rfl
@[simp] theorem State.tally_spent (r : Reg) (f : Fld) (v : Nat) : (s.tally r f v).spent = s.spent := rfl
@[simp] theorem State.tally_freed (r : Reg) (f : Fld) (v : Nat) : (s.tally r f v).freed = s.freed := rfl
@[simp] theorem State.tally_wire (r : Reg) (f : Fld) (v : Nat) : (s.tally r f v).wire = s.wire := rfl
@[simp] theorem State.tally_training (r : Reg) (f : Fld) (v : Nat) : (s.tally r f v).training = s.training := rfl
@[simp] theorem State.tally_fecRecent (r : Reg) (f : Fld) (v : Nat) : (s.tally r f v).fecRecent = s.fecRecent := rfl
@[simp] theorem State.tally_packing (r : Reg) (f : Fld) (v : Nat) : (s.tally r f v).packing = s.packing := rfl
@[simp] theorem State.tally_replays (r : Reg) (f : Fld) (v : Nat) : (s.tally r f v).replays = s.replays := rfl
@[simp] theorem State.tally_welts (r : Reg) (f : Fld) (v : Nat) : (s.tally r f v).welts = s.welts := rfl
@[simp] theorem State.tally_pools (r : Reg) (f : Fld) (v : Nat) : (s.tally r f v).pools = s.pools := rfl
@[simp] theorem State.tally_linkHeld (r : Reg) (f : Fld) (v : Nat) : (s.tally r f v).linkHeld = s.linkHeld := rfl
@[simp] theorem State.tally_linkSpares (r : Reg) (f : Fld) (v : Nat) : (s.tally r f v).linkSpares = s.linkSpares := rfl
@[simp] theorem State.tally_linkBuf (r : Reg) (f : Fld) (v : Nat) : (s.tally r f v).linkBuf = s.linkBuf := rfl
@[simp] theorem State.tally_colls (r : Reg) (f : Fld) (v : Nat) : (s.tally r f v).colls = s.colls := rfl
@[simp] theorem State.tally_collCounts (r : Reg) (f : Fld) (v : Nat) : (s.tally r f v).collCounts = s.collCounts := rfl
@[simp] theorem State.tally_cached (r : Reg) (f : Fld) (v : Nat) : (s.tally r f v).cached = s.cached := rfl
@[simp] theorem State.tally_writeBacks (r : Reg) (f : Fld) (v : Nat) : (s.tally r f v).writeBacks = s.writeBacks := rfl
@[simp] theorem State.tally_cacheUpsets (r : Reg) (f : Fld) (v : Nat) : (s.tally r f v).cacheUpsets = s.cacheUpsets := rfl
@[simp] theorem State.tally_hcCaches (r : Reg) (f : Fld) (v : Nat) : (s.tally r f v).hcCaches = s.hcCaches := rfl
@[simp] theorem State.tally_hcReserved (r : Reg) (f : Fld) (v : Nat) : (s.tally r f v).hcReserved = s.hcReserved := rfl
@[simp] theorem State.tally_codeSlots (r : Reg) (f : Fld) (v : Nat) : (s.tally r f v).codeSlots = s.codeSlots := rfl
@[simp] theorem State.tally_extRuns (r : Reg) (f : Fld) (v : Nat) : (s.tally r f v).extRuns = s.extRuns := rfl
@[simp] theorem State.tally_extDone (r : Reg) (f : Fld) (v : Nat) : (s.tally r f v).extDone = s.extDone := rfl
@[simp] theorem State.tally_eyeCommits (r : Reg) (f : Fld) (v : Nat) : (s.tally r f v).eyeCommits = s.eyeCommits := rfl
@[simp] theorem State.tally_eyeExpired (r : Reg) (f : Fld) (v : Nat) : (s.tally r f v).eyeExpired = s.eyeExpired := rfl
@[simp] theorem State.tally_eyeWrites (r : Reg) (f : Fld) (v : Nat) : (s.tally r f v).eyeWrites = s.eyeWrites := rfl
@[simp] theorem State.tally_claimedBy (r : Reg) (f : Fld) (v : Nat) : (s.tally r f v).claimedBy = s.claimedBy := rfl
@[simp] theorem State.tally_lastClaim (r : Reg) (f : Fld) (v : Nat) : (s.tally r f v).lastClaim = s.lastClaim := rfl
@[simp] theorem State.tally_roundRobin (r : Reg) (f : Fld) (v : Nat) : (s.tally r f v).roundRobin = s.roundRobin := rfl
@[simp] theorem State.tally_rrSince (r : Reg) (f : Fld) (v : Nat) : (s.tally r f v).rrSince = s.rrSince := rfl
@[simp] theorem State.tally_rangeDue (r : Reg) (f : Fld) (v : Nat) : (s.tally r f v).rangeDue = s.rangeDue := rfl
@[simp] theorem State.tally_rangeOwner (r : Reg) (f : Fld) (v : Nat) : (s.tally r f v).rangeOwner = s.rangeOwner := rfl
@[simp] theorem State.tally_hostRx (r : Reg) (f : Fld) (v : Nat) : (s.tally r f v).hostRx = s.hostRx := rfl
@[simp] theorem State.tally_sessions (r : Reg) (f : Fld) (v : Nat) : (s.tally r f v).sessions = s.sessions := rfl
@[simp] theorem State.tally_hostWire (r : Reg) (f : Fld) (v : Nat) : (s.tally r f v).hostWire = s.hostWire := rfl
@[simp] theorem State.tally_mgmtKeys (r : Reg) (f : Fld) (v : Nat) : (s.tally r f v).mgmtKeys = s.mgmtKeys := rfl
@[simp] theorem State.tally_leaseKeys (r : Reg) (f : Fld) (v : Nat) : (s.tally r f v).leaseKeys = s.leaseKeys := rfl
@[simp] theorem State.tally_owned (r : Reg) (f : Fld) (v : Nat) : (s.tally r f v).owned = s.owned := rfl
@[simp] theorem State.tally_quiesces (r : Reg) (f : Fld) (v : Nat) : (s.tally r f v).quiesces = s.quiesces := rfl
@[simp] theorem State.tally_binding (r : Reg) (f : Fld) (v : Nat) : (s.tally r f v).binding = s.binding := rfl
@[simp] theorem State.tally_monitor (r : Reg) (f : Fld) (v : Nat) : (s.tally r f v).monitor = s.monitor := rfl
@[simp] theorem State.tally_monitorAt (r : Reg) (f : Fld) (v : Nat) : (s.tally r f v).monitorAt = s.monitorAt := rfl
@[simp] theorem State.tally_snapOp (r : Reg) (f : Fld) (v : Nat) : (s.tally r f v).snapOp = s.snapOp := rfl
@[simp] theorem State.tally_stepEnds (r : Reg) (f : Fld) (v : Nat) : (s.tally r f v).stepEnds = s.stepEnds := rfl
@[simp] theorem State.tally_withdrawn (r : Reg) (f : Fld) (v : Nat) : (s.tally r f v).withdrawn = s.withdrawn := rfl
@[simp] theorem State.tally_stageGib (r : Reg) (f : Fld) (v : Nat) : (s.tally r f v).stageGib = s.stageGib := rfl
@[simp] theorem State.tally_snaps (r : Reg) (f : Fld) (v : Nat) : (s.tally r f v).snaps = s.snaps := rfl
@[simp] theorem State.tally_snapCount (r : Reg) (f : Fld) (v : Nat) : (s.tally r f v).snapCount = s.snapCount := rfl
@[simp] theorem State.tally_streams (r : Reg) (f : Fld) (v : Nat) : (s.tally r f v).streams = s.streams := rfl
@[simp] theorem State.tally_records (r : Reg) (f : Fld) (v : Nat) : (s.tally r f v).records = s.records := rfl
@[simp] theorem State.tally_leaseBorn (r : Reg) (f : Fld) (v : Nat) : (s.tally r f v).leaseBorn = s.leaseBorn := rfl
@[simp] theorem State.tally_lastSnap (r : Reg) (f : Fld) (v : Nat) : (s.tally r f v).lastSnap = s.lastSnap := rfl
@[simp] theorem State.tally_failures (r : Reg) (f : Fld) (v : Nat) : (s.tally r f v).failures = s.failures := rfl
@[simp] theorem State.tally_recovering (r : Reg) (f : Fld) (v : Nat) : (s.tally r f v).recovering = s.recovering := rfl
@[simp] theorem State.tally_prompts (r : Reg) (f : Fld) (v : Nat) : (s.tally r f v).prompts = s.prompts := rfl
@[simp] theorem State.tally_powerAt (r : Reg) (f : Fld) (v : Nat) : (s.tally r f v).powerAt = s.powerAt := rfl
@[simp] theorem State.tally_dutyAt (r : Reg) (f : Fld) (v : Nat) : (s.tally r f v).dutyAt = s.dutyAt := rfl
@[simp] theorem State.tally_clusterUsed (r : Reg) (f : Fld) (v : Nat) : (s.tally r f v).clusterUsed = s.clusterUsed := rfl
@[simp] theorem State.tally_energyAt (r : Reg) (f : Fld) (v : Nat) : (s.tally r f v).energyAt = s.energyAt := rfl
@[simp] theorem State.tally_energyBytes (r : Reg) (f : Fld) (v : Nat) : (s.tally r f v).energyBytes = s.energyBytes := rfl
@[simp] theorem State.tally_completions (r : Reg) (f : Fld) (v : Nat) : (s.tally r f v).completions = s.completions := rfl
@[simp] theorem State.tally_relockAt (r : Reg) (f : Fld) (v : Nat) : (s.tally r f v).relockAt = s.relockAt := rfl
@[simp] theorem State.tally_goodWindows (r : Reg) (f : Fld) (v : Nat) : (s.tally r f v).goodWindows = s.goodWindows := rfl
@[simp] theorem State.tally_standbyLost (r : Reg) (f : Fld) (v : Nat) : (s.tally r f v).standbyLost = s.standbyLost := rfl
@[simp] theorem State.tally_arithMhz (r : Reg) (f : Fld) (v : Nat) : (s.tally r f v).arithMhz = s.arithMhz := rfl
@[simp] theorem State.tally_ratioMode (r : Reg) (f : Fld) (v : Nat) : (s.tally r f v).ratioMode = s.ratioMode := rfl
@[simp] theorem State.tally_watts (r : Reg) (f : Fld) (v : Nat) : (s.tally r f v).watts = s.watts := rfl
@[simp] theorem State.tally_floorRun (r : Reg) (f : Fld) (v : Nat) : (s.tally r f v).floorRun = s.floorRun := rfl
@[simp] theorem State.tally_clustersOff (r : Reg) (f : Fld) (v : Nat) : (s.tally r f v).clustersOff = s.clustersOff := rfl
@[simp] theorem State.tally_alertSince (r : Reg) (f : Fld) (v : Nat) : (s.tally r f v).alertSince = s.alertSince := rfl
@[simp] theorem State.tally_life (r : Reg) (f : Fld) (v : Nat) : (s.tally r f v).life = s.life := rfl
@[simp] theorem State.tally_resetLow (r : Reg) (f : Fld) (v : Nat) : (s.tally r f v).resetLow = s.resetLow := rfl
@[simp] theorem State.tally_strap (r : Reg) (f : Fld) (v : Nat) : (s.tally r f v).strap = s.strap := rfl
@[simp] theorem State.tally_hot (r : Reg) (f : Fld) (v : Nat) : (s.tally r f v).hot = s.hot := rfl
@[simp] theorem State.tally_startDue (r : Reg) (f : Fld) (v : Nat) : (s.tally r f v).startDue = s.startDue := rfl
@[simp] theorem State.tally_startAt (r : Reg) (f : Fld) (v : Nat) : (s.tally r f v).startAt = s.startAt := rfl
@[simp] theorem State.tally_stageAt (r : Reg) (f : Fld) (v : Nat) : (s.tally r f v).stageAt = s.stageAt := rfl
@[simp] theorem State.tally_lastDuration (r : Reg) (f : Fld) (v : Nat) : (s.tally r f v).lastDuration = s.lastDuration := rfl
@[simp] theorem State.tally_startArea (r : Reg) (f : Fld) (v : Nat) : (s.tally r f v).startArea = s.startArea := rfl
@[simp] theorem State.tally_storeStart (r : Reg) (f : Fld) (v : Nat) : (s.tally r f v).storeStart = s.storeStart := rfl
@[simp] theorem State.tally_storeSettings (r : Reg) (f : Fld) (v : Nat) : (s.tally r f v).storeSettings = s.storeSettings := rfl
@[simp] theorem State.tally_chosen (r : Reg) (f : Fld) (v : Nat) : (s.tally r f v).chosen = s.chosen := rfl
@[simp] theorem State.tally_recovery (r : Reg) (f : Fld) (v : Nat) : (s.tally r f v).recovery = s.recovery := rfl
@[simp] theorem State.tally_sv1 (r : Reg) (f : Fld) (v : Nat) : (s.tally r f v).sv1 = s.sv1 := rfl
@[simp] theorem State.tally_sv0Failed (r : Reg) (f : Fld) (v : Nat) : (s.tally r f v).sv0Failed = s.sv0Failed := rfl
@[simp] theorem State.tally_heartbeatAt (r : Reg) (f : Fld) (v : Nat) : (s.tally r f v).heartbeatAt = s.heartbeatAt := rfl
@[simp] theorem State.tally_flash (r : Reg) (f : Fld) (v : Nat) : (s.tally r f v).flash = s.flash := rfl
@[simp] theorem State.tally_running (r : Reg) (f : Fld) (v : Nat) : (s.tally r f v).running = s.running := rfl
@[simp] theorem State.tally_flashWrite (r : Reg) (f : Fld) (v : Nat) : (s.tally r f v).flashWrite = s.flashWrite := rfl
@[simp] theorem State.tally_staged (r : Reg) (f : Fld) (v : Nat) : (s.tally r f v).staged = s.staged := rfl
@[simp] theorem State.tally_completeAt (r : Reg) (f : Fld) (v : Nat) : (s.tally r f v).completeAt = s.completeAt := rfl
@[simp] theorem State.tally_enumAt (r : Reg) (f : Fld) (v : Nat) : (s.tally r f v).enumAt = s.enumAt := rfl
@[simp] theorem State.tally_reclaimDue (r : Reg) (f : Fld) (v : Nat) : (s.tally r f v).reclaimDue = s.reclaimDue := rfl
@[simp] theorem State.tally_foreign (r : Reg) (f : Fld) (v : Nat) : (s.tally r f v).foreign = s.foreign := rfl
@[simp] theorem State.tally_addrRecord (r : Reg) (f : Fld) (v : Nat) : (s.tally r f v).addrRecord = s.addrRecord := rfl
@[simp] theorem State.tally_announcedAt (r : Reg) (f : Fld) (v : Nat) : (s.tally r f v).announcedAt = s.announcedAt := rfl
@[simp] theorem State.tally_adverts (r : Reg) (f : Fld) (v : Nat) : (s.tally r f v).adverts = s.adverts := rfl
@[simp] theorem State.tally_rasAt (r : Reg) (f : Fld) (v : Nat) : (s.tally r f v).rasAt = s.rasAt := rfl
@[simp] theorem State.tally_rasSeen (r : Reg) (f : Fld) (v : Nat) : (s.tally r f v).rasSeen = s.rasSeen := rfl
@[simp] theorem State.tally_rasCorr (r : Reg) (f : Fld) (v : Nat) : (s.tally r f v).rasCorr = s.rasCorr := rfl
@[simp] theorem State.tally_uncRows (r : Reg) (f : Fld) (v : Nat) : (s.tally r f v).uncRows = s.uncRows := rfl
@[simp] theorem State.tally_rasMet (r : Reg) (f : Fld) (v : Nat) : (s.tally r f v).rasMet = s.rasMet := rfl
@[simp] theorem State.tally_marked (r : Reg) (f : Fld) (v : Nat) : (s.tally r f v).marked = s.marked := rfl
@[simp] theorem State.tally_retireDue (r : Reg) (f : Fld) (v : Nat) : (s.tally r f v).retireDue = s.retireDue := rfl
@[simp] theorem State.tally_repairs (r : Reg) (f : Fld) (v : Nat) : (s.tally r f v).repairs = s.repairs := rfl
@[simp] theorem State.tally_verifyAt (r : Reg) (f : Fld) (v : Nat) : (s.tally r f v).verifyAt = s.verifyAt := rfl

@[simp] theorem State.count_pending (r : Reg) (f : Fld) (v : Nat) : (s.count r f v).pending = s.pending := rfl
@[simp] theorem State.count_now (r : Reg) (f : Fld) (v : Nat) : (s.count r f v).now = s.now := rfl
@[simp] theorem State.count_coreClock (r : Reg) (f : Fld) (v : Nat) : (s.count r f v).coreClock = s.coreClock := rfl
@[simp] theorem State.count_fresh (r : Reg) (f : Fld) (v : Nat) : (s.count r f v).fresh = s.fresh := rfl
@[simp] theorem State.count_grade (r : Reg) (f : Fld) (v : Nat) : (s.count r f v).grade = s.grade := rfl
@[simp] theorem State.count_access (r : Reg) (f : Fld) (v : Nat) : (s.count r f v).access = s.access := rfl
@[simp] theorem State.count_latest (r : Reg) (f : Fld) (v : Nat) : (s.count r f v).latest = s.latest := rfl
@[simp] theorem State.count_mem (r : Reg) (f : Fld) (v : Nat) : (s.count r f v).mem = s.mem := rfl
@[simp] theorem State.count_cores (r : Reg) (f : Fld) (v : Nat) : (s.count r f v).cores = s.cores := rfl
@[simp] theorem State.count_flagOps (r : Reg) (f : Fld) (v : Nat) : (s.count r f v).flagOps = s.flagOps := rfl
@[simp] theorem State.count_reqs (r : Reg) (f : Fld) (v : Nat) : (s.count r f v).reqs = s.reqs := rfl
@[simp] theorem State.count_nextId (r : Reg) (f : Fld) (v : Nat) : (s.count r f v).nextId = s.nextId := rfl
@[simp] theorem State.count_ctls (r : Reg) (f : Fld) (v : Nat) : (s.count r f v).ctls = s.ctls := rfl
@[simp] theorem State.count_stackRuns (r : Reg) (f : Fld) (v : Nat) : (s.count r f v).stackRuns = s.stackRuns := rfl
@[simp] theorem State.count_wcache (r : Reg) (f : Fld) (v : Nat) : (s.count r f v).wcache = s.wcache := rfl
@[simp] theorem State.count_patrol (r : Reg) (f : Fld) (v : Nat) : (s.count r f v).patrol = s.patrol := rfl
@[simp] theorem State.count_scrubs (r : Reg) (f : Fld) (v : Nat) : (s.count r f v).scrubs = s.scrubs := rfl
@[simp] theorem State.count_frames (r : Reg) (f : Fld) (v : Nat) : (s.count r f v).frames = s.frames := rfl
@[simp] theorem State.count_extents (r : Reg) (f : Fld) (v : Nat) : (s.count r f v).extents = s.extents := rfl
@[simp] theorem State.count_pulses (r : Reg) (f : Fld) (v : Nat) : (s.count r f v).pulses = s.pulses := rfl
@[simp] theorem State.count_rawLines (r : Reg) (f : Fld) (v : Nat) : (s.count r f v).rawLines = s.rawLines := rfl
@[simp] theorem State.count_filteredHigh (r : Reg) (f : Fld) (v : Nat) : (s.count r f v).filteredHigh = s.filteredHigh := rfl
@[simp] theorem State.count_inject (r : Reg) (f : Fld) (v : Nat) : (s.count r f v).inject = s.inject := rfl
@[simp] theorem State.count_banks (r : Reg) (f : Fld) (v : Nat) : (s.count r f v).banks = s.banks := rfl
@[simp] theorem State.count_upsets (r : Reg) (f : Fld) (v : Nat) : (s.count r f v).upsets = s.upsets := rfl
@[simp] theorem State.count_retired (r : Reg) (f : Fld) (v : Nat) : (s.count r f v).retired = s.retired := rfl
@[simp] theorem State.count_absent (r : Reg) (f : Fld) (v : Nat) : (s.count r f v).absent = s.absent := rfl
@[simp] theorem State.count_perturbed (r : Reg) (f : Fld) (v : Nat) : (s.count r f v).perturbed = s.perturbed := rfl
@[simp] theorem State.count_pertOld (r : Reg) (f : Fld) (v : Nat) : (s.count r f v).pertOld = s.pertOld := rfl
@[simp] theorem State.count_conns (r : Reg) (f : Fld) (v : Nat) : (s.count r f v).conns = s.conns := rfl
@[simp] theorem State.count_egress (r : Reg) (f : Fld) (v : Nat) : (s.count r f v).egress = s.egress := rfl
@[simp] theorem State.count_arbiters (r : Reg) (f : Fld) (v : Nat) : (s.count r f v).arbiters = s.arbiters := rfl
@[simp] theorem State.count_peerDue (r : Reg) (f : Fld) (v : Nat) : (s.count r f v).peerDue = s.peerDue := rfl
@[simp] theorem State.count_spent (r : Reg) (f : Fld) (v : Nat) : (s.count r f v).spent = s.spent := rfl
@[simp] theorem State.count_freed (r : Reg) (f : Fld) (v : Nat) : (s.count r f v).freed = s.freed := rfl
@[simp] theorem State.count_wire (r : Reg) (f : Fld) (v : Nat) : (s.count r f v).wire = s.wire := rfl
@[simp] theorem State.count_training (r : Reg) (f : Fld) (v : Nat) : (s.count r f v).training = s.training := rfl
@[simp] theorem State.count_fecRecent (r : Reg) (f : Fld) (v : Nat) : (s.count r f v).fecRecent = s.fecRecent := rfl
@[simp] theorem State.count_packing (r : Reg) (f : Fld) (v : Nat) : (s.count r f v).packing = s.packing := rfl
@[simp] theorem State.count_replays (r : Reg) (f : Fld) (v : Nat) : (s.count r f v).replays = s.replays := rfl
@[simp] theorem State.count_welts (r : Reg) (f : Fld) (v : Nat) : (s.count r f v).welts = s.welts := rfl
@[simp] theorem State.count_pools (r : Reg) (f : Fld) (v : Nat) : (s.count r f v).pools = s.pools := rfl
@[simp] theorem State.count_linkHeld (r : Reg) (f : Fld) (v : Nat) : (s.count r f v).linkHeld = s.linkHeld := rfl
@[simp] theorem State.count_linkSpares (r : Reg) (f : Fld) (v : Nat) : (s.count r f v).linkSpares = s.linkSpares := rfl
@[simp] theorem State.count_linkBuf (r : Reg) (f : Fld) (v : Nat) : (s.count r f v).linkBuf = s.linkBuf := rfl
@[simp] theorem State.count_colls (r : Reg) (f : Fld) (v : Nat) : (s.count r f v).colls = s.colls := rfl
@[simp] theorem State.count_collCounts (r : Reg) (f : Fld) (v : Nat) : (s.count r f v).collCounts = s.collCounts := rfl
@[simp] theorem State.count_cached (r : Reg) (f : Fld) (v : Nat) : (s.count r f v).cached = s.cached := rfl
@[simp] theorem State.count_writeBacks (r : Reg) (f : Fld) (v : Nat) : (s.count r f v).writeBacks = s.writeBacks := rfl
@[simp] theorem State.count_cacheUpsets (r : Reg) (f : Fld) (v : Nat) : (s.count r f v).cacheUpsets = s.cacheUpsets := rfl
@[simp] theorem State.count_hcCaches (r : Reg) (f : Fld) (v : Nat) : (s.count r f v).hcCaches = s.hcCaches := rfl
@[simp] theorem State.count_hcReserved (r : Reg) (f : Fld) (v : Nat) : (s.count r f v).hcReserved = s.hcReserved := rfl
@[simp] theorem State.count_codeSlots (r : Reg) (f : Fld) (v : Nat) : (s.count r f v).codeSlots = s.codeSlots := rfl
@[simp] theorem State.count_extRuns (r : Reg) (f : Fld) (v : Nat) : (s.count r f v).extRuns = s.extRuns := rfl
@[simp] theorem State.count_extDone (r : Reg) (f : Fld) (v : Nat) : (s.count r f v).extDone = s.extDone := rfl
@[simp] theorem State.count_eyeCommits (r : Reg) (f : Fld) (v : Nat) : (s.count r f v).eyeCommits = s.eyeCommits := rfl
@[simp] theorem State.count_eyeExpired (r : Reg) (f : Fld) (v : Nat) : (s.count r f v).eyeExpired = s.eyeExpired := rfl
@[simp] theorem State.count_eyeWrites (r : Reg) (f : Fld) (v : Nat) : (s.count r f v).eyeWrites = s.eyeWrites := rfl
@[simp] theorem State.count_claimedBy (r : Reg) (f : Fld) (v : Nat) : (s.count r f v).claimedBy = s.claimedBy := rfl
@[simp] theorem State.count_lastClaim (r : Reg) (f : Fld) (v : Nat) : (s.count r f v).lastClaim = s.lastClaim := rfl
@[simp] theorem State.count_roundRobin (r : Reg) (f : Fld) (v : Nat) : (s.count r f v).roundRobin = s.roundRobin := rfl
@[simp] theorem State.count_rrSince (r : Reg) (f : Fld) (v : Nat) : (s.count r f v).rrSince = s.rrSince := rfl
@[simp] theorem State.count_rangeDue (r : Reg) (f : Fld) (v : Nat) : (s.count r f v).rangeDue = s.rangeDue := rfl
@[simp] theorem State.count_rangeOwner (r : Reg) (f : Fld) (v : Nat) : (s.count r f v).rangeOwner = s.rangeOwner := rfl
@[simp] theorem State.count_hostRx (r : Reg) (f : Fld) (v : Nat) : (s.count r f v).hostRx = s.hostRx := rfl
@[simp] theorem State.count_sessions (r : Reg) (f : Fld) (v : Nat) : (s.count r f v).sessions = s.sessions := rfl
@[simp] theorem State.count_hostWire (r : Reg) (f : Fld) (v : Nat) : (s.count r f v).hostWire = s.hostWire := rfl
@[simp] theorem State.count_mgmtKeys (r : Reg) (f : Fld) (v : Nat) : (s.count r f v).mgmtKeys = s.mgmtKeys := rfl
@[simp] theorem State.count_leaseKeys (r : Reg) (f : Fld) (v : Nat) : (s.count r f v).leaseKeys = s.leaseKeys := rfl
@[simp] theorem State.count_owned (r : Reg) (f : Fld) (v : Nat) : (s.count r f v).owned = s.owned := rfl
@[simp] theorem State.count_quiesces (r : Reg) (f : Fld) (v : Nat) : (s.count r f v).quiesces = s.quiesces := rfl
@[simp] theorem State.count_binding (r : Reg) (f : Fld) (v : Nat) : (s.count r f v).binding = s.binding := rfl
@[simp] theorem State.count_monitor (r : Reg) (f : Fld) (v : Nat) : (s.count r f v).monitor = s.monitor := rfl
@[simp] theorem State.count_monitorAt (r : Reg) (f : Fld) (v : Nat) : (s.count r f v).monitorAt = s.monitorAt := rfl
@[simp] theorem State.count_snapOp (r : Reg) (f : Fld) (v : Nat) : (s.count r f v).snapOp = s.snapOp := rfl
@[simp] theorem State.count_stepEnds (r : Reg) (f : Fld) (v : Nat) : (s.count r f v).stepEnds = s.stepEnds := rfl
@[simp] theorem State.count_withdrawn (r : Reg) (f : Fld) (v : Nat) : (s.count r f v).withdrawn = s.withdrawn := rfl
@[simp] theorem State.count_stageGib (r : Reg) (f : Fld) (v : Nat) : (s.count r f v).stageGib = s.stageGib := rfl
@[simp] theorem State.count_snaps (r : Reg) (f : Fld) (v : Nat) : (s.count r f v).snaps = s.snaps := rfl
@[simp] theorem State.count_snapCount (r : Reg) (f : Fld) (v : Nat) : (s.count r f v).snapCount = s.snapCount := rfl
@[simp] theorem State.count_streams (r : Reg) (f : Fld) (v : Nat) : (s.count r f v).streams = s.streams := rfl
@[simp] theorem State.count_records (r : Reg) (f : Fld) (v : Nat) : (s.count r f v).records = s.records := rfl
@[simp] theorem State.count_leaseBorn (r : Reg) (f : Fld) (v : Nat) : (s.count r f v).leaseBorn = s.leaseBorn := rfl
@[simp] theorem State.count_lastSnap (r : Reg) (f : Fld) (v : Nat) : (s.count r f v).lastSnap = s.lastSnap := rfl
@[simp] theorem State.count_failures (r : Reg) (f : Fld) (v : Nat) : (s.count r f v).failures = s.failures := rfl
@[simp] theorem State.count_recovering (r : Reg) (f : Fld) (v : Nat) : (s.count r f v).recovering = s.recovering := rfl
@[simp] theorem State.count_prompts (r : Reg) (f : Fld) (v : Nat) : (s.count r f v).prompts = s.prompts := rfl
@[simp] theorem State.count_powerAt (r : Reg) (f : Fld) (v : Nat) : (s.count r f v).powerAt = s.powerAt := rfl
@[simp] theorem State.count_dutyAt (r : Reg) (f : Fld) (v : Nat) : (s.count r f v).dutyAt = s.dutyAt := rfl
@[simp] theorem State.count_clusterUsed (r : Reg) (f : Fld) (v : Nat) : (s.count r f v).clusterUsed = s.clusterUsed := rfl
@[simp] theorem State.count_energyAt (r : Reg) (f : Fld) (v : Nat) : (s.count r f v).energyAt = s.energyAt := rfl
@[simp] theorem State.count_energyBytes (r : Reg) (f : Fld) (v : Nat) : (s.count r f v).energyBytes = s.energyBytes := rfl
@[simp] theorem State.count_completions (r : Reg) (f : Fld) (v : Nat) : (s.count r f v).completions = s.completions := rfl
@[simp] theorem State.count_relockAt (r : Reg) (f : Fld) (v : Nat) : (s.count r f v).relockAt = s.relockAt := rfl
@[simp] theorem State.count_goodWindows (r : Reg) (f : Fld) (v : Nat) : (s.count r f v).goodWindows = s.goodWindows := rfl
@[simp] theorem State.count_standbyLost (r : Reg) (f : Fld) (v : Nat) : (s.count r f v).standbyLost = s.standbyLost := rfl
@[simp] theorem State.count_arithMhz (r : Reg) (f : Fld) (v : Nat) : (s.count r f v).arithMhz = s.arithMhz := rfl
@[simp] theorem State.count_ratioMode (r : Reg) (f : Fld) (v : Nat) : (s.count r f v).ratioMode = s.ratioMode := rfl
@[simp] theorem State.count_watts (r : Reg) (f : Fld) (v : Nat) : (s.count r f v).watts = s.watts := rfl
@[simp] theorem State.count_floorRun (r : Reg) (f : Fld) (v : Nat) : (s.count r f v).floorRun = s.floorRun := rfl
@[simp] theorem State.count_clustersOff (r : Reg) (f : Fld) (v : Nat) : (s.count r f v).clustersOff = s.clustersOff := rfl
@[simp] theorem State.count_alertSince (r : Reg) (f : Fld) (v : Nat) : (s.count r f v).alertSince = s.alertSince := rfl
@[simp] theorem State.count_life (r : Reg) (f : Fld) (v : Nat) : (s.count r f v).life = s.life := rfl
@[simp] theorem State.count_resetLow (r : Reg) (f : Fld) (v : Nat) : (s.count r f v).resetLow = s.resetLow := rfl
@[simp] theorem State.count_strap (r : Reg) (f : Fld) (v : Nat) : (s.count r f v).strap = s.strap := rfl
@[simp] theorem State.count_hot (r : Reg) (f : Fld) (v : Nat) : (s.count r f v).hot = s.hot := rfl
@[simp] theorem State.count_startDue (r : Reg) (f : Fld) (v : Nat) : (s.count r f v).startDue = s.startDue := rfl
@[simp] theorem State.count_startAt (r : Reg) (f : Fld) (v : Nat) : (s.count r f v).startAt = s.startAt := rfl
@[simp] theorem State.count_stageAt (r : Reg) (f : Fld) (v : Nat) : (s.count r f v).stageAt = s.stageAt := rfl
@[simp] theorem State.count_lastDuration (r : Reg) (f : Fld) (v : Nat) : (s.count r f v).lastDuration = s.lastDuration := rfl
@[simp] theorem State.count_startArea (r : Reg) (f : Fld) (v : Nat) : (s.count r f v).startArea = s.startArea := rfl
@[simp] theorem State.count_storeStart (r : Reg) (f : Fld) (v : Nat) : (s.count r f v).storeStart = s.storeStart := rfl
@[simp] theorem State.count_storeSettings (r : Reg) (f : Fld) (v : Nat) : (s.count r f v).storeSettings = s.storeSettings := rfl
@[simp] theorem State.count_chosen (r : Reg) (f : Fld) (v : Nat) : (s.count r f v).chosen = s.chosen := rfl
@[simp] theorem State.count_recovery (r : Reg) (f : Fld) (v : Nat) : (s.count r f v).recovery = s.recovery := rfl
@[simp] theorem State.count_sv1 (r : Reg) (f : Fld) (v : Nat) : (s.count r f v).sv1 = s.sv1 := rfl
@[simp] theorem State.count_sv0Failed (r : Reg) (f : Fld) (v : Nat) : (s.count r f v).sv0Failed = s.sv0Failed := rfl
@[simp] theorem State.count_heartbeatAt (r : Reg) (f : Fld) (v : Nat) : (s.count r f v).heartbeatAt = s.heartbeatAt := rfl
@[simp] theorem State.count_flash (r : Reg) (f : Fld) (v : Nat) : (s.count r f v).flash = s.flash := rfl
@[simp] theorem State.count_running (r : Reg) (f : Fld) (v : Nat) : (s.count r f v).running = s.running := rfl
@[simp] theorem State.count_flashWrite (r : Reg) (f : Fld) (v : Nat) : (s.count r f v).flashWrite = s.flashWrite := rfl
@[simp] theorem State.count_staged (r : Reg) (f : Fld) (v : Nat) : (s.count r f v).staged = s.staged := rfl
@[simp] theorem State.count_completeAt (r : Reg) (f : Fld) (v : Nat) : (s.count r f v).completeAt = s.completeAt := rfl
@[simp] theorem State.count_enumAt (r : Reg) (f : Fld) (v : Nat) : (s.count r f v).enumAt = s.enumAt := rfl
@[simp] theorem State.count_reclaimDue (r : Reg) (f : Fld) (v : Nat) : (s.count r f v).reclaimDue = s.reclaimDue := rfl
@[simp] theorem State.count_foreign (r : Reg) (f : Fld) (v : Nat) : (s.count r f v).foreign = s.foreign := rfl
@[simp] theorem State.count_addrRecord (r : Reg) (f : Fld) (v : Nat) : (s.count r f v).addrRecord = s.addrRecord := rfl
@[simp] theorem State.count_announcedAt (r : Reg) (f : Fld) (v : Nat) : (s.count r f v).announcedAt = s.announcedAt := rfl
@[simp] theorem State.count_adverts (r : Reg) (f : Fld) (v : Nat) : (s.count r f v).adverts = s.adverts := rfl
@[simp] theorem State.count_rasAt (r : Reg) (f : Fld) (v : Nat) : (s.count r f v).rasAt = s.rasAt := rfl
@[simp] theorem State.count_rasSeen (r : Reg) (f : Fld) (v : Nat) : (s.count r f v).rasSeen = s.rasSeen := rfl
@[simp] theorem State.count_rasCorr (r : Reg) (f : Fld) (v : Nat) : (s.count r f v).rasCorr = s.rasCorr := rfl
@[simp] theorem State.count_uncRows (r : Reg) (f : Fld) (v : Nat) : (s.count r f v).uncRows = s.uncRows := rfl
@[simp] theorem State.count_rasMet (r : Reg) (f : Fld) (v : Nat) : (s.count r f v).rasMet = s.rasMet := rfl
@[simp] theorem State.count_marked (r : Reg) (f : Fld) (v : Nat) : (s.count r f v).marked = s.marked := rfl
@[simp] theorem State.count_retireDue (r : Reg) (f : Fld) (v : Nat) : (s.count r f v).retireDue = s.retireDue := rfl
@[simp] theorem State.count_repairs (r : Reg) (f : Fld) (v : Nat) : (s.count r f v).repairs = s.repairs := rfl
@[simp] theorem State.count_verifyAt (r : Reg) (f : Fld) (v : Nat) : (s.count r f v).verifyAt = s.verifyAt := rfl

@[simp] theorem State.charge_pending (n w v : Nat) : (s.charge n w v).pending = s.pending := rfl
@[simp] theorem State.charge_now (n w v : Nat) : (s.charge n w v).now = s.now := rfl
@[simp] theorem State.charge_coreClock (n w v : Nat) : (s.charge n w v).coreClock = s.coreClock := rfl
@[simp] theorem State.charge_fresh (n w v : Nat) : (s.charge n w v).fresh = s.fresh := rfl
@[simp] theorem State.charge_grade (n w v : Nat) : (s.charge n w v).grade = s.grade := rfl
@[simp] theorem State.charge_access (n w v : Nat) : (s.charge n w v).access = s.access := rfl
@[simp] theorem State.charge_latest (n w v : Nat) : (s.charge n w v).latest = s.latest := rfl
@[simp] theorem State.charge_mem (n w v : Nat) : (s.charge n w v).mem = s.mem := rfl
@[simp] theorem State.charge_cores (n w v : Nat) : (s.charge n w v).cores = s.cores := rfl
@[simp] theorem State.charge_flagOps (n w v : Nat) : (s.charge n w v).flagOps = s.flagOps := rfl
@[simp] theorem State.charge_reqs (n w v : Nat) : (s.charge n w v).reqs = s.reqs := rfl
@[simp] theorem State.charge_nextId (n w v : Nat) : (s.charge n w v).nextId = s.nextId := rfl
@[simp] theorem State.charge_ctls (n w v : Nat) : (s.charge n w v).ctls = s.ctls := rfl
@[simp] theorem State.charge_stackRuns (n w v : Nat) : (s.charge n w v).stackRuns = s.stackRuns := rfl
@[simp] theorem State.charge_wcache (n w v : Nat) : (s.charge n w v).wcache = s.wcache := rfl
@[simp] theorem State.charge_patrol (n w v : Nat) : (s.charge n w v).patrol = s.patrol := rfl
@[simp] theorem State.charge_scrubs (n w v : Nat) : (s.charge n w v).scrubs = s.scrubs := rfl
@[simp] theorem State.charge_frames (n w v : Nat) : (s.charge n w v).frames = s.frames := rfl
@[simp] theorem State.charge_extents (n w v : Nat) : (s.charge n w v).extents = s.extents := rfl
@[simp] theorem State.charge_pulses (n w v : Nat) : (s.charge n w v).pulses = s.pulses := rfl
@[simp] theorem State.charge_rawLines (n w v : Nat) : (s.charge n w v).rawLines = s.rawLines := rfl
@[simp] theorem State.charge_filteredHigh (n w v : Nat) : (s.charge n w v).filteredHigh = s.filteredHigh := rfl
@[simp] theorem State.charge_inject (n w v : Nat) : (s.charge n w v).inject = s.inject := rfl
@[simp] theorem State.charge_banks (n w v : Nat) : (s.charge n w v).banks = s.banks := rfl
@[simp] theorem State.charge_upsets (n w v : Nat) : (s.charge n w v).upsets = s.upsets := rfl
@[simp] theorem State.charge_retired (n w v : Nat) : (s.charge n w v).retired = s.retired := rfl
@[simp] theorem State.charge_absent (n w v : Nat) : (s.charge n w v).absent = s.absent := rfl
@[simp] theorem State.charge_perturbed (n w v : Nat) : (s.charge n w v).perturbed = s.perturbed := rfl
@[simp] theorem State.charge_pertOld (n w v : Nat) : (s.charge n w v).pertOld = s.pertOld := rfl
@[simp] theorem State.charge_conns (n w v : Nat) : (s.charge n w v).conns = s.conns := rfl
@[simp] theorem State.charge_egress (n w v : Nat) : (s.charge n w v).egress = s.egress := rfl
@[simp] theorem State.charge_arbiters (n w v : Nat) : (s.charge n w v).arbiters = s.arbiters := rfl
@[simp] theorem State.charge_peerDue (n w v : Nat) : (s.charge n w v).peerDue = s.peerDue := rfl
@[simp] theorem State.charge_spent (n w v : Nat) : (s.charge n w v).spent = s.spent := rfl
@[simp] theorem State.charge_freed (n w v : Nat) : (s.charge n w v).freed = s.freed := rfl
@[simp] theorem State.charge_wire (n w v : Nat) : (s.charge n w v).wire = s.wire := rfl
@[simp] theorem State.charge_training (n w v : Nat) : (s.charge n w v).training = s.training := rfl
@[simp] theorem State.charge_fecRecent (n w v : Nat) : (s.charge n w v).fecRecent = s.fecRecent := rfl
@[simp] theorem State.charge_packing (n w v : Nat) : (s.charge n w v).packing = s.packing := rfl
@[simp] theorem State.charge_replays (n w v : Nat) : (s.charge n w v).replays = s.replays := rfl
@[simp] theorem State.charge_welts (n w v : Nat) : (s.charge n w v).welts = s.welts := rfl
@[simp] theorem State.charge_pools (n w v : Nat) : (s.charge n w v).pools = s.pools := rfl
@[simp] theorem State.charge_linkHeld (n w v : Nat) : (s.charge n w v).linkHeld = s.linkHeld := rfl
@[simp] theorem State.charge_linkSpares (n w v : Nat) : (s.charge n w v).linkSpares = s.linkSpares := rfl
@[simp] theorem State.charge_linkBuf (n w v : Nat) : (s.charge n w v).linkBuf = s.linkBuf := rfl
@[simp] theorem State.charge_colls (n w v : Nat) : (s.charge n w v).colls = s.colls := rfl
@[simp] theorem State.charge_collCounts (n w v : Nat) : (s.charge n w v).collCounts = s.collCounts := rfl
@[simp] theorem State.charge_cached (n w v : Nat) : (s.charge n w v).cached = s.cached := rfl
@[simp] theorem State.charge_writeBacks (n w v : Nat) : (s.charge n w v).writeBacks = s.writeBacks := rfl
@[simp] theorem State.charge_cacheUpsets (n w v : Nat) : (s.charge n w v).cacheUpsets = s.cacheUpsets := rfl
@[simp] theorem State.charge_hcCaches (n w v : Nat) : (s.charge n w v).hcCaches = s.hcCaches := rfl
@[simp] theorem State.charge_hcReserved (n w v : Nat) : (s.charge n w v).hcReserved = s.hcReserved := rfl
@[simp] theorem State.charge_codeSlots (n w v : Nat) : (s.charge n w v).codeSlots = s.codeSlots := rfl
@[simp] theorem State.charge_extRuns (n w v : Nat) : (s.charge n w v).extRuns = s.extRuns := rfl
@[simp] theorem State.charge_extDone (n w v : Nat) : (s.charge n w v).extDone = s.extDone := rfl
@[simp] theorem State.charge_eyeCommits (n w v : Nat) : (s.charge n w v).eyeCommits = s.eyeCommits := rfl
@[simp] theorem State.charge_eyeExpired (n w v : Nat) : (s.charge n w v).eyeExpired = s.eyeExpired := rfl
@[simp] theorem State.charge_eyeWrites (n w v : Nat) : (s.charge n w v).eyeWrites = s.eyeWrites := rfl
@[simp] theorem State.charge_claimedBy (n w v : Nat) : (s.charge n w v).claimedBy = s.claimedBy := rfl
@[simp] theorem State.charge_lastClaim (n w v : Nat) : (s.charge n w v).lastClaim = s.lastClaim := rfl
@[simp] theorem State.charge_roundRobin (n w v : Nat) : (s.charge n w v).roundRobin = s.roundRobin := rfl
@[simp] theorem State.charge_rrSince (n w v : Nat) : (s.charge n w v).rrSince = s.rrSince := rfl
@[simp] theorem State.charge_rangeDue (n w v : Nat) : (s.charge n w v).rangeDue = s.rangeDue := rfl
@[simp] theorem State.charge_rangeOwner (n w v : Nat) : (s.charge n w v).rangeOwner = s.rangeOwner := rfl
@[simp] theorem State.charge_hostRx (n w v : Nat) : (s.charge n w v).hostRx = s.hostRx := rfl
@[simp] theorem State.charge_sessions (n w v : Nat) : (s.charge n w v).sessions = s.sessions := rfl
@[simp] theorem State.charge_hostWire (n w v : Nat) : (s.charge n w v).hostWire = s.hostWire := rfl
@[simp] theorem State.charge_mgmtKeys (n w v : Nat) : (s.charge n w v).mgmtKeys = s.mgmtKeys := rfl
@[simp] theorem State.charge_leaseKeys (n w v : Nat) : (s.charge n w v).leaseKeys = s.leaseKeys := rfl
@[simp] theorem State.charge_owned (n w v : Nat) : (s.charge n w v).owned = s.owned := rfl
@[simp] theorem State.charge_quiesces (n w v : Nat) : (s.charge n w v).quiesces = s.quiesces := rfl
@[simp] theorem State.charge_binding (n w v : Nat) : (s.charge n w v).binding = s.binding := rfl
@[simp] theorem State.charge_monitor (n w v : Nat) : (s.charge n w v).monitor = s.monitor := rfl
@[simp] theorem State.charge_monitorAt (n w v : Nat) : (s.charge n w v).monitorAt = s.monitorAt := rfl
@[simp] theorem State.charge_snapOp (n w v : Nat) : (s.charge n w v).snapOp = s.snapOp := rfl
@[simp] theorem State.charge_stepEnds (n w v : Nat) : (s.charge n w v).stepEnds = s.stepEnds := rfl
@[simp] theorem State.charge_withdrawn (n w v : Nat) : (s.charge n w v).withdrawn = s.withdrawn := rfl
@[simp] theorem State.charge_stageGib (n w v : Nat) : (s.charge n w v).stageGib = s.stageGib := rfl
@[simp] theorem State.charge_snaps (n w v : Nat) : (s.charge n w v).snaps = s.snaps := rfl
@[simp] theorem State.charge_snapCount (n w v : Nat) : (s.charge n w v).snapCount = s.snapCount := rfl
@[simp] theorem State.charge_streams (n w v : Nat) : (s.charge n w v).streams = s.streams := rfl
@[simp] theorem State.charge_records (n w v : Nat) : (s.charge n w v).records = s.records := rfl
@[simp] theorem State.charge_leaseBorn (n w v : Nat) : (s.charge n w v).leaseBorn = s.leaseBorn := rfl
@[simp] theorem State.charge_lastSnap (n w v : Nat) : (s.charge n w v).lastSnap = s.lastSnap := rfl
@[simp] theorem State.charge_failures (n w v : Nat) : (s.charge n w v).failures = s.failures := rfl
@[simp] theorem State.charge_recovering (n w v : Nat) : (s.charge n w v).recovering = s.recovering := rfl
@[simp] theorem State.charge_prompts (n w v : Nat) : (s.charge n w v).prompts = s.prompts := rfl
@[simp] theorem State.charge_powerAt (n w v : Nat) : (s.charge n w v).powerAt = s.powerAt := rfl
@[simp] theorem State.charge_dutyAt (n w v : Nat) : (s.charge n w v).dutyAt = s.dutyAt := rfl
@[simp] theorem State.charge_clusterUsed (n w v : Nat) : (s.charge n w v).clusterUsed = s.clusterUsed := rfl
@[simp] theorem State.charge_energyAt (n w v : Nat) : (s.charge n w v).energyAt = s.energyAt := rfl
@[simp] theorem State.charge_energyBytes (n w v : Nat) : (s.charge n w v).energyBytes = s.energyBytes := rfl
@[simp] theorem State.charge_completions (n w v : Nat) : (s.charge n w v).completions = s.completions := rfl
@[simp] theorem State.charge_relockAt (n w v : Nat) : (s.charge n w v).relockAt = s.relockAt := rfl
@[simp] theorem State.charge_goodWindows (n w v : Nat) : (s.charge n w v).goodWindows = s.goodWindows := rfl
@[simp] theorem State.charge_standbyLost (n w v : Nat) : (s.charge n w v).standbyLost = s.standbyLost := rfl
@[simp] theorem State.charge_arithMhz (n w v : Nat) : (s.charge n w v).arithMhz = s.arithMhz := rfl
@[simp] theorem State.charge_ratioMode (n w v : Nat) : (s.charge n w v).ratioMode = s.ratioMode := rfl
@[simp] theorem State.charge_watts (n w v : Nat) : (s.charge n w v).watts = s.watts := rfl
@[simp] theorem State.charge_floorRun (n w v : Nat) : (s.charge n w v).floorRun = s.floorRun := rfl
@[simp] theorem State.charge_clustersOff (n w v : Nat) : (s.charge n w v).clustersOff = s.clustersOff := rfl
@[simp] theorem State.charge_alertSince (n w v : Nat) : (s.charge n w v).alertSince = s.alertSince := rfl
@[simp] theorem State.charge_life (n w v : Nat) : (s.charge n w v).life = s.life := rfl
@[simp] theorem State.charge_resetLow (n w v : Nat) : (s.charge n w v).resetLow = s.resetLow := rfl
@[simp] theorem State.charge_strap (n w v : Nat) : (s.charge n w v).strap = s.strap := rfl
@[simp] theorem State.charge_hot (n w v : Nat) : (s.charge n w v).hot = s.hot := rfl
@[simp] theorem State.charge_startDue (n w v : Nat) : (s.charge n w v).startDue = s.startDue := rfl
@[simp] theorem State.charge_startAt (n w v : Nat) : (s.charge n w v).startAt = s.startAt := rfl
@[simp] theorem State.charge_stageAt (n w v : Nat) : (s.charge n w v).stageAt = s.stageAt := rfl
@[simp] theorem State.charge_lastDuration (n w v : Nat) : (s.charge n w v).lastDuration = s.lastDuration := rfl
@[simp] theorem State.charge_startArea (n w v : Nat) : (s.charge n w v).startArea = s.startArea := rfl
@[simp] theorem State.charge_storeStart (n w v : Nat) : (s.charge n w v).storeStart = s.storeStart := rfl
@[simp] theorem State.charge_storeSettings (n w v : Nat) : (s.charge n w v).storeSettings = s.storeSettings := rfl
@[simp] theorem State.charge_chosen (n w v : Nat) : (s.charge n w v).chosen = s.chosen := rfl
@[simp] theorem State.charge_recovery (n w v : Nat) : (s.charge n w v).recovery = s.recovery := rfl
@[simp] theorem State.charge_sv1 (n w v : Nat) : (s.charge n w v).sv1 = s.sv1 := rfl
@[simp] theorem State.charge_sv0Failed (n w v : Nat) : (s.charge n w v).sv0Failed = s.sv0Failed := rfl
@[simp] theorem State.charge_heartbeatAt (n w v : Nat) : (s.charge n w v).heartbeatAt = s.heartbeatAt := rfl
@[simp] theorem State.charge_flash (n w v : Nat) : (s.charge n w v).flash = s.flash := rfl
@[simp] theorem State.charge_running (n w v : Nat) : (s.charge n w v).running = s.running := rfl
@[simp] theorem State.charge_flashWrite (n w v : Nat) : (s.charge n w v).flashWrite = s.flashWrite := rfl
@[simp] theorem State.charge_staged (n w v : Nat) : (s.charge n w v).staged = s.staged := rfl
@[simp] theorem State.charge_completeAt (n w v : Nat) : (s.charge n w v).completeAt = s.completeAt := rfl
@[simp] theorem State.charge_enumAt (n w v : Nat) : (s.charge n w v).enumAt = s.enumAt := rfl
@[simp] theorem State.charge_reclaimDue (n w v : Nat) : (s.charge n w v).reclaimDue = s.reclaimDue := rfl
@[simp] theorem State.charge_foreign (n w v : Nat) : (s.charge n w v).foreign = s.foreign := rfl
@[simp] theorem State.charge_addrRecord (n w v : Nat) : (s.charge n w v).addrRecord = s.addrRecord := rfl
@[simp] theorem State.charge_announcedAt (n w v : Nat) : (s.charge n w v).announcedAt = s.announcedAt := rfl
@[simp] theorem State.charge_adverts (n w v : Nat) : (s.charge n w v).adverts = s.adverts := rfl
@[simp] theorem State.charge_rasAt (n w v : Nat) : (s.charge n w v).rasAt = s.rasAt := rfl
@[simp] theorem State.charge_rasSeen (n w v : Nat) : (s.charge n w v).rasSeen = s.rasSeen := rfl
@[simp] theorem State.charge_rasCorr (n w v : Nat) : (s.charge n w v).rasCorr = s.rasCorr := rfl
@[simp] theorem State.charge_uncRows (n w v : Nat) : (s.charge n w v).uncRows = s.uncRows := rfl
@[simp] theorem State.charge_rasMet (n w v : Nat) : (s.charge n w v).rasMet = s.rasMet := rfl
@[simp] theorem State.charge_marked (n w v : Nat) : (s.charge n w v).marked = s.marked := rfl
@[simp] theorem State.charge_retireDue (n w v : Nat) : (s.charge n w v).retireDue = s.retireDue := rfl
@[simp] theorem State.charge_repairs (n w v : Nat) : (s.charge n w v).repairs = s.repairs := rfl
@[simp] theorem State.charge_verifyAt (n w v : Nat) : (s.charge n w v).verifyAt = s.verifyAt := rfl

@[simp] theorem State.putBit_pending (r : Reg) (k : Nat) (b : Bool) : (s.putBit r k b).pending = s.pending := rfl
@[simp] theorem State.putBit_now (r : Reg) (k : Nat) (b : Bool) : (s.putBit r k b).now = s.now := rfl
@[simp] theorem State.putBit_coreClock (r : Reg) (k : Nat) (b : Bool) : (s.putBit r k b).coreClock = s.coreClock := rfl
@[simp] theorem State.putBit_fresh (r : Reg) (k : Nat) (b : Bool) : (s.putBit r k b).fresh = s.fresh := rfl
@[simp] theorem State.putBit_grade (r : Reg) (k : Nat) (b : Bool) : (s.putBit r k b).grade = s.grade := rfl
@[simp] theorem State.putBit_access (r : Reg) (k : Nat) (b : Bool) : (s.putBit r k b).access = s.access := rfl
@[simp] theorem State.putBit_latest (r : Reg) (k : Nat) (b : Bool) : (s.putBit r k b).latest = s.latest := rfl
@[simp] theorem State.putBit_mem (r : Reg) (k : Nat) (b : Bool) : (s.putBit r k b).mem = s.mem := rfl
@[simp] theorem State.putBit_cores (r : Reg) (k : Nat) (b : Bool) : (s.putBit r k b).cores = s.cores := rfl
@[simp] theorem State.putBit_flagOps (r : Reg) (k : Nat) (b : Bool) : (s.putBit r k b).flagOps = s.flagOps := rfl
@[simp] theorem State.putBit_reqs (r : Reg) (k : Nat) (b : Bool) : (s.putBit r k b).reqs = s.reqs := rfl
@[simp] theorem State.putBit_nextId (r : Reg) (k : Nat) (b : Bool) : (s.putBit r k b).nextId = s.nextId := rfl
@[simp] theorem State.putBit_ctls (r : Reg) (k : Nat) (b : Bool) : (s.putBit r k b).ctls = s.ctls := rfl
@[simp] theorem State.putBit_stackRuns (r : Reg) (k : Nat) (b : Bool) : (s.putBit r k b).stackRuns = s.stackRuns := rfl
@[simp] theorem State.putBit_wcache (r : Reg) (k : Nat) (b : Bool) : (s.putBit r k b).wcache = s.wcache := rfl
@[simp] theorem State.putBit_patrol (r : Reg) (k : Nat) (b : Bool) : (s.putBit r k b).patrol = s.patrol := rfl
@[simp] theorem State.putBit_scrubs (r : Reg) (k : Nat) (b : Bool) : (s.putBit r k b).scrubs = s.scrubs := rfl
@[simp] theorem State.putBit_frames (r : Reg) (k : Nat) (b : Bool) : (s.putBit r k b).frames = s.frames := rfl
@[simp] theorem State.putBit_extents (r : Reg) (k : Nat) (b : Bool) : (s.putBit r k b).extents = s.extents := rfl
@[simp] theorem State.putBit_pulses (r : Reg) (k : Nat) (b : Bool) : (s.putBit r k b).pulses = s.pulses := rfl
@[simp] theorem State.putBit_rawLines (r : Reg) (k : Nat) (b : Bool) : (s.putBit r k b).rawLines = s.rawLines := rfl
@[simp] theorem State.putBit_filteredHigh (r : Reg) (k : Nat) (b : Bool) : (s.putBit r k b).filteredHigh = s.filteredHigh := rfl
@[simp] theorem State.putBit_inject (r : Reg) (k : Nat) (b : Bool) : (s.putBit r k b).inject = s.inject := rfl
@[simp] theorem State.putBit_banks (r : Reg) (k : Nat) (b : Bool) : (s.putBit r k b).banks = s.banks := rfl
@[simp] theorem State.putBit_upsets (r : Reg) (k : Nat) (b : Bool) : (s.putBit r k b).upsets = s.upsets := rfl
@[simp] theorem State.putBit_retired (r : Reg) (k : Nat) (b : Bool) : (s.putBit r k b).retired = s.retired := rfl
@[simp] theorem State.putBit_absent (r : Reg) (k : Nat) (b : Bool) : (s.putBit r k b).absent = s.absent := rfl
@[simp] theorem State.putBit_perturbed (r : Reg) (k : Nat) (b : Bool) : (s.putBit r k b).perturbed = s.perturbed := rfl
@[simp] theorem State.putBit_pertOld (r : Reg) (k : Nat) (b : Bool) : (s.putBit r k b).pertOld = s.pertOld := rfl
@[simp] theorem State.putBit_conns (r : Reg) (k : Nat) (b : Bool) : (s.putBit r k b).conns = s.conns := rfl
@[simp] theorem State.putBit_egress (r : Reg) (k : Nat) (b : Bool) : (s.putBit r k b).egress = s.egress := rfl
@[simp] theorem State.putBit_arbiters (r : Reg) (k : Nat) (b : Bool) : (s.putBit r k b).arbiters = s.arbiters := rfl
@[simp] theorem State.putBit_peerDue (r : Reg) (k : Nat) (b : Bool) : (s.putBit r k b).peerDue = s.peerDue := rfl
@[simp] theorem State.putBit_spent (r : Reg) (k : Nat) (b : Bool) : (s.putBit r k b).spent = s.spent := rfl
@[simp] theorem State.putBit_freed (r : Reg) (k : Nat) (b : Bool) : (s.putBit r k b).freed = s.freed := rfl
@[simp] theorem State.putBit_wire (r : Reg) (k : Nat) (b : Bool) : (s.putBit r k b).wire = s.wire := rfl
@[simp] theorem State.putBit_training (r : Reg) (k : Nat) (b : Bool) : (s.putBit r k b).training = s.training := rfl
@[simp] theorem State.putBit_fecRecent (r : Reg) (k : Nat) (b : Bool) : (s.putBit r k b).fecRecent = s.fecRecent := rfl
@[simp] theorem State.putBit_packing (r : Reg) (k : Nat) (b : Bool) : (s.putBit r k b).packing = s.packing := rfl
@[simp] theorem State.putBit_replays (r : Reg) (k : Nat) (b : Bool) : (s.putBit r k b).replays = s.replays := rfl
@[simp] theorem State.putBit_welts (r : Reg) (k : Nat) (b : Bool) : (s.putBit r k b).welts = s.welts := rfl
@[simp] theorem State.putBit_pools (r : Reg) (k : Nat) (b : Bool) : (s.putBit r k b).pools = s.pools := rfl
@[simp] theorem State.putBit_linkHeld (r : Reg) (k : Nat) (b : Bool) : (s.putBit r k b).linkHeld = s.linkHeld := rfl
@[simp] theorem State.putBit_linkSpares (r : Reg) (k : Nat) (b : Bool) : (s.putBit r k b).linkSpares = s.linkSpares := rfl
@[simp] theorem State.putBit_linkBuf (r : Reg) (k : Nat) (b : Bool) : (s.putBit r k b).linkBuf = s.linkBuf := rfl
@[simp] theorem State.putBit_colls (r : Reg) (k : Nat) (b : Bool) : (s.putBit r k b).colls = s.colls := rfl
@[simp] theorem State.putBit_collCounts (r : Reg) (k : Nat) (b : Bool) : (s.putBit r k b).collCounts = s.collCounts := rfl
@[simp] theorem State.putBit_cached (r : Reg) (k : Nat) (b : Bool) : (s.putBit r k b).cached = s.cached := rfl
@[simp] theorem State.putBit_writeBacks (r : Reg) (k : Nat) (b : Bool) : (s.putBit r k b).writeBacks = s.writeBacks := rfl
@[simp] theorem State.putBit_cacheUpsets (r : Reg) (k : Nat) (b : Bool) : (s.putBit r k b).cacheUpsets = s.cacheUpsets := rfl
@[simp] theorem State.putBit_hcCaches (r : Reg) (k : Nat) (b : Bool) : (s.putBit r k b).hcCaches = s.hcCaches := rfl
@[simp] theorem State.putBit_hcReserved (r : Reg) (k : Nat) (b : Bool) : (s.putBit r k b).hcReserved = s.hcReserved := rfl
@[simp] theorem State.putBit_codeSlots (r : Reg) (k : Nat) (b : Bool) : (s.putBit r k b).codeSlots = s.codeSlots := rfl
@[simp] theorem State.putBit_extRuns (r : Reg) (k : Nat) (b : Bool) : (s.putBit r k b).extRuns = s.extRuns := rfl
@[simp] theorem State.putBit_extDone (r : Reg) (k : Nat) (b : Bool) : (s.putBit r k b).extDone = s.extDone := rfl
@[simp] theorem State.putBit_eyeCommits (r : Reg) (k : Nat) (b : Bool) : (s.putBit r k b).eyeCommits = s.eyeCommits := rfl
@[simp] theorem State.putBit_eyeExpired (r : Reg) (k : Nat) (b : Bool) : (s.putBit r k b).eyeExpired = s.eyeExpired := rfl
@[simp] theorem State.putBit_eyeWrites (r : Reg) (k : Nat) (b : Bool) : (s.putBit r k b).eyeWrites = s.eyeWrites := rfl
@[simp] theorem State.putBit_claimedBy (r : Reg) (k : Nat) (b : Bool) : (s.putBit r k b).claimedBy = s.claimedBy := rfl
@[simp] theorem State.putBit_lastClaim (r : Reg) (k : Nat) (b : Bool) : (s.putBit r k b).lastClaim = s.lastClaim := rfl
@[simp] theorem State.putBit_roundRobin (r : Reg) (k : Nat) (b : Bool) : (s.putBit r k b).roundRobin = s.roundRobin := rfl
@[simp] theorem State.putBit_rrSince (r : Reg) (k : Nat) (b : Bool) : (s.putBit r k b).rrSince = s.rrSince := rfl
@[simp] theorem State.putBit_rangeDue (r : Reg) (k : Nat) (b : Bool) : (s.putBit r k b).rangeDue = s.rangeDue := rfl
@[simp] theorem State.putBit_rangeOwner (r : Reg) (k : Nat) (b : Bool) : (s.putBit r k b).rangeOwner = s.rangeOwner := rfl
@[simp] theorem State.putBit_hostRx (r : Reg) (k : Nat) (b : Bool) : (s.putBit r k b).hostRx = s.hostRx := rfl
@[simp] theorem State.putBit_sessions (r : Reg) (k : Nat) (b : Bool) : (s.putBit r k b).sessions = s.sessions := rfl
@[simp] theorem State.putBit_hostWire (r : Reg) (k : Nat) (b : Bool) : (s.putBit r k b).hostWire = s.hostWire := rfl
@[simp] theorem State.putBit_mgmtKeys (r : Reg) (k : Nat) (b : Bool) : (s.putBit r k b).mgmtKeys = s.mgmtKeys := rfl
@[simp] theorem State.putBit_leaseKeys (r : Reg) (k : Nat) (b : Bool) : (s.putBit r k b).leaseKeys = s.leaseKeys := rfl
@[simp] theorem State.putBit_owned (r : Reg) (k : Nat) (b : Bool) : (s.putBit r k b).owned = s.owned := rfl
@[simp] theorem State.putBit_quiesces (r : Reg) (k : Nat) (b : Bool) : (s.putBit r k b).quiesces = s.quiesces := rfl
@[simp] theorem State.putBit_binding (r : Reg) (k : Nat) (b : Bool) : (s.putBit r k b).binding = s.binding := rfl
@[simp] theorem State.putBit_monitor (r : Reg) (k : Nat) (b : Bool) : (s.putBit r k b).monitor = s.monitor := rfl
@[simp] theorem State.putBit_monitorAt (r : Reg) (k : Nat) (b : Bool) : (s.putBit r k b).monitorAt = s.monitorAt := rfl
@[simp] theorem State.putBit_snapOp (r : Reg) (k : Nat) (b : Bool) : (s.putBit r k b).snapOp = s.snapOp := rfl
@[simp] theorem State.putBit_stepEnds (r : Reg) (k : Nat) (b : Bool) : (s.putBit r k b).stepEnds = s.stepEnds := rfl
@[simp] theorem State.putBit_withdrawn (r : Reg) (k : Nat) (b : Bool) : (s.putBit r k b).withdrawn = s.withdrawn := rfl
@[simp] theorem State.putBit_stageGib (r : Reg) (k : Nat) (b : Bool) : (s.putBit r k b).stageGib = s.stageGib := rfl
@[simp] theorem State.putBit_snaps (r : Reg) (k : Nat) (b : Bool) : (s.putBit r k b).snaps = s.snaps := rfl
@[simp] theorem State.putBit_snapCount (r : Reg) (k : Nat) (b : Bool) : (s.putBit r k b).snapCount = s.snapCount := rfl
@[simp] theorem State.putBit_streams (r : Reg) (k : Nat) (b : Bool) : (s.putBit r k b).streams = s.streams := rfl
@[simp] theorem State.putBit_records (r : Reg) (k : Nat) (b : Bool) : (s.putBit r k b).records = s.records := rfl
@[simp] theorem State.putBit_leaseBorn (r : Reg) (k : Nat) (b : Bool) : (s.putBit r k b).leaseBorn = s.leaseBorn := rfl
@[simp] theorem State.putBit_lastSnap (r : Reg) (k : Nat) (b : Bool) : (s.putBit r k b).lastSnap = s.lastSnap := rfl
@[simp] theorem State.putBit_failures (r : Reg) (k : Nat) (b : Bool) : (s.putBit r k b).failures = s.failures := rfl
@[simp] theorem State.putBit_recovering (r : Reg) (k : Nat) (b : Bool) : (s.putBit r k b).recovering = s.recovering := rfl
@[simp] theorem State.putBit_prompts (r : Reg) (k : Nat) (b : Bool) : (s.putBit r k b).prompts = s.prompts := rfl
@[simp] theorem State.putBit_powerAt (r : Reg) (k : Nat) (b : Bool) : (s.putBit r k b).powerAt = s.powerAt := rfl
@[simp] theorem State.putBit_dutyAt (r : Reg) (k : Nat) (b : Bool) : (s.putBit r k b).dutyAt = s.dutyAt := rfl
@[simp] theorem State.putBit_clusterUsed (r : Reg) (k : Nat) (b : Bool) : (s.putBit r k b).clusterUsed = s.clusterUsed := rfl
@[simp] theorem State.putBit_energyAt (r : Reg) (k : Nat) (b : Bool) : (s.putBit r k b).energyAt = s.energyAt := rfl
@[simp] theorem State.putBit_energyBytes (r : Reg) (k : Nat) (b : Bool) : (s.putBit r k b).energyBytes = s.energyBytes := rfl
@[simp] theorem State.putBit_completions (r : Reg) (k : Nat) (b : Bool) : (s.putBit r k b).completions = s.completions := rfl
@[simp] theorem State.putBit_relockAt (r : Reg) (k : Nat) (b : Bool) : (s.putBit r k b).relockAt = s.relockAt := rfl
@[simp] theorem State.putBit_goodWindows (r : Reg) (k : Nat) (b : Bool) : (s.putBit r k b).goodWindows = s.goodWindows := rfl
@[simp] theorem State.putBit_standbyLost (r : Reg) (k : Nat) (b : Bool) : (s.putBit r k b).standbyLost = s.standbyLost := rfl
@[simp] theorem State.putBit_arithMhz (r : Reg) (k : Nat) (b : Bool) : (s.putBit r k b).arithMhz = s.arithMhz := rfl
@[simp] theorem State.putBit_ratioMode (r : Reg) (k : Nat) (b : Bool) : (s.putBit r k b).ratioMode = s.ratioMode := rfl
@[simp] theorem State.putBit_watts (r : Reg) (k : Nat) (b : Bool) : (s.putBit r k b).watts = s.watts := rfl
@[simp] theorem State.putBit_floorRun (r : Reg) (k : Nat) (b : Bool) : (s.putBit r k b).floorRun = s.floorRun := rfl
@[simp] theorem State.putBit_clustersOff (r : Reg) (k : Nat) (b : Bool) : (s.putBit r k b).clustersOff = s.clustersOff := rfl
@[simp] theorem State.putBit_alertSince (r : Reg) (k : Nat) (b : Bool) : (s.putBit r k b).alertSince = s.alertSince := rfl
@[simp] theorem State.putBit_life (r : Reg) (k : Nat) (b : Bool) : (s.putBit r k b).life = s.life := rfl
@[simp] theorem State.putBit_resetLow (r : Reg) (k : Nat) (b : Bool) : (s.putBit r k b).resetLow = s.resetLow := rfl
@[simp] theorem State.putBit_strap (r : Reg) (k : Nat) (b : Bool) : (s.putBit r k b).strap = s.strap := rfl
@[simp] theorem State.putBit_hot (r : Reg) (k : Nat) (b : Bool) : (s.putBit r k b).hot = s.hot := rfl
@[simp] theorem State.putBit_startDue (r : Reg) (k : Nat) (b : Bool) : (s.putBit r k b).startDue = s.startDue := rfl
@[simp] theorem State.putBit_startAt (r : Reg) (k : Nat) (b : Bool) : (s.putBit r k b).startAt = s.startAt := rfl
@[simp] theorem State.putBit_stageAt (r : Reg) (k : Nat) (b : Bool) : (s.putBit r k b).stageAt = s.stageAt := rfl
@[simp] theorem State.putBit_lastDuration (r : Reg) (k : Nat) (b : Bool) : (s.putBit r k b).lastDuration = s.lastDuration := rfl
@[simp] theorem State.putBit_startArea (r : Reg) (k : Nat) (b : Bool) : (s.putBit r k b).startArea = s.startArea := rfl
@[simp] theorem State.putBit_storeStart (r : Reg) (k : Nat) (b : Bool) : (s.putBit r k b).storeStart = s.storeStart := rfl
@[simp] theorem State.putBit_storeSettings (r : Reg) (k : Nat) (b : Bool) : (s.putBit r k b).storeSettings = s.storeSettings := rfl
@[simp] theorem State.putBit_chosen (r : Reg) (k : Nat) (b : Bool) : (s.putBit r k b).chosen = s.chosen := rfl
@[simp] theorem State.putBit_recovery (r : Reg) (k : Nat) (b : Bool) : (s.putBit r k b).recovery = s.recovery := rfl
@[simp] theorem State.putBit_sv1 (r : Reg) (k : Nat) (b : Bool) : (s.putBit r k b).sv1 = s.sv1 := rfl
@[simp] theorem State.putBit_sv0Failed (r : Reg) (k : Nat) (b : Bool) : (s.putBit r k b).sv0Failed = s.sv0Failed := rfl
@[simp] theorem State.putBit_heartbeatAt (r : Reg) (k : Nat) (b : Bool) : (s.putBit r k b).heartbeatAt = s.heartbeatAt := rfl
@[simp] theorem State.putBit_flash (r : Reg) (k : Nat) (b : Bool) : (s.putBit r k b).flash = s.flash := rfl
@[simp] theorem State.putBit_running (r : Reg) (k : Nat) (b : Bool) : (s.putBit r k b).running = s.running := rfl
@[simp] theorem State.putBit_flashWrite (r : Reg) (k : Nat) (b : Bool) : (s.putBit r k b).flashWrite = s.flashWrite := rfl
@[simp] theorem State.putBit_staged (r : Reg) (k : Nat) (b : Bool) : (s.putBit r k b).staged = s.staged := rfl
@[simp] theorem State.putBit_completeAt (r : Reg) (k : Nat) (b : Bool) : (s.putBit r k b).completeAt = s.completeAt := rfl
@[simp] theorem State.putBit_enumAt (r : Reg) (k : Nat) (b : Bool) : (s.putBit r k b).enumAt = s.enumAt := rfl
@[simp] theorem State.putBit_reclaimDue (r : Reg) (k : Nat) (b : Bool) : (s.putBit r k b).reclaimDue = s.reclaimDue := rfl
@[simp] theorem State.putBit_foreign (r : Reg) (k : Nat) (b : Bool) : (s.putBit r k b).foreign = s.foreign := rfl
@[simp] theorem State.putBit_addrRecord (r : Reg) (k : Nat) (b : Bool) : (s.putBit r k b).addrRecord = s.addrRecord := rfl
@[simp] theorem State.putBit_announcedAt (r : Reg) (k : Nat) (b : Bool) : (s.putBit r k b).announcedAt = s.announcedAt := rfl
@[simp] theorem State.putBit_adverts (r : Reg) (k : Nat) (b : Bool) : (s.putBit r k b).adverts = s.adverts := rfl
@[simp] theorem State.putBit_rasAt (r : Reg) (k : Nat) (b : Bool) : (s.putBit r k b).rasAt = s.rasAt := rfl
@[simp] theorem State.putBit_rasSeen (r : Reg) (k : Nat) (b : Bool) : (s.putBit r k b).rasSeen = s.rasSeen := rfl
@[simp] theorem State.putBit_rasCorr (r : Reg) (k : Nat) (b : Bool) : (s.putBit r k b).rasCorr = s.rasCorr := rfl
@[simp] theorem State.putBit_uncRows (r : Reg) (k : Nat) (b : Bool) : (s.putBit r k b).uncRows = s.uncRows := rfl
@[simp] theorem State.putBit_rasMet (r : Reg) (k : Nat) (b : Bool) : (s.putBit r k b).rasMet = s.rasMet := rfl
@[simp] theorem State.putBit_marked (r : Reg) (k : Nat) (b : Bool) : (s.putBit r k b).marked = s.marked := rfl
@[simp] theorem State.putBit_retireDue (r : Reg) (k : Nat) (b : Bool) : (s.putBit r k b).retireDue = s.retireDue := rfl
@[simp] theorem State.putBit_repairs (r : Reg) (k : Nat) (b : Bool) : (s.putBit r k b).repairs = s.repairs := rfl
@[simp] theorem State.putBit_verifyAt (r : Reg) (k : Nat) (b : Bool) : (s.putBit r k b).verifyAt = s.verifyAt := rfl

@[simp] theorem State.answer_pending (a : Status) (v : Word) : (s.answer a v).pending = s.pending := rfl
@[simp] theorem State.answer_now (a : Status) (v : Word) : (s.answer a v).now = s.now := rfl
@[simp] theorem State.answer_coreClock (a : Status) (v : Word) : (s.answer a v).coreClock = s.coreClock := rfl
@[simp] theorem State.answer_fresh (a : Status) (v : Word) : (s.answer a v).fresh = s.fresh := rfl
@[simp] theorem State.answer_grade (a : Status) (v : Word) : (s.answer a v).grade = s.grade := rfl
@[simp] theorem State.answer_regs (a : Status) (v : Word) : (s.answer a v).regs = s.regs := rfl
@[simp] theorem State.answer_latest (a : Status) (v : Word) : (s.answer a v).latest = s.latest := rfl
@[simp] theorem State.answer_mem (a : Status) (v : Word) : (s.answer a v).mem = s.mem := rfl
@[simp] theorem State.answer_cores (a : Status) (v : Word) : (s.answer a v).cores = s.cores := rfl
@[simp] theorem State.answer_flagOps (a : Status) (v : Word) : (s.answer a v).flagOps = s.flagOps := rfl
@[simp] theorem State.answer_reqs (a : Status) (v : Word) : (s.answer a v).reqs = s.reqs := rfl
@[simp] theorem State.answer_nextId (a : Status) (v : Word) : (s.answer a v).nextId = s.nextId := rfl
@[simp] theorem State.answer_ctls (a : Status) (v : Word) : (s.answer a v).ctls = s.ctls := rfl
@[simp] theorem State.answer_stackRuns (a : Status) (v : Word) : (s.answer a v).stackRuns = s.stackRuns := rfl
@[simp] theorem State.answer_wcache (a : Status) (v : Word) : (s.answer a v).wcache = s.wcache := rfl
@[simp] theorem State.answer_patrol (a : Status) (v : Word) : (s.answer a v).patrol = s.patrol := rfl
@[simp] theorem State.answer_scrubs (a : Status) (v : Word) : (s.answer a v).scrubs = s.scrubs := rfl
@[simp] theorem State.answer_frames (a : Status) (v : Word) : (s.answer a v).frames = s.frames := rfl
@[simp] theorem State.answer_extents (a : Status) (v : Word) : (s.answer a v).extents = s.extents := rfl
@[simp] theorem State.answer_pulses (a : Status) (v : Word) : (s.answer a v).pulses = s.pulses := rfl
@[simp] theorem State.answer_rawLines (a : Status) (v : Word) : (s.answer a v).rawLines = s.rawLines := rfl
@[simp] theorem State.answer_filteredHigh (a : Status) (v : Word) : (s.answer a v).filteredHigh = s.filteredHigh := rfl
@[simp] theorem State.answer_inject (a : Status) (v : Word) : (s.answer a v).inject = s.inject := rfl
@[simp] theorem State.answer_banks (a : Status) (v : Word) : (s.answer a v).banks = s.banks := rfl
@[simp] theorem State.answer_upsets (a : Status) (v : Word) : (s.answer a v).upsets = s.upsets := rfl
@[simp] theorem State.answer_retired (a : Status) (v : Word) : (s.answer a v).retired = s.retired := rfl
@[simp] theorem State.answer_absent (a : Status) (v : Word) : (s.answer a v).absent = s.absent := rfl
@[simp] theorem State.answer_perturbed (a : Status) (v : Word) : (s.answer a v).perturbed = s.perturbed := rfl
@[simp] theorem State.answer_pertOld (a : Status) (v : Word) : (s.answer a v).pertOld = s.pertOld := rfl
@[simp] theorem State.answer_conns (a : Status) (v : Word) : (s.answer a v).conns = s.conns := rfl
@[simp] theorem State.answer_egress (a : Status) (v : Word) : (s.answer a v).egress = s.egress := rfl
@[simp] theorem State.answer_arbiters (a : Status) (v : Word) : (s.answer a v).arbiters = s.arbiters := rfl
@[simp] theorem State.answer_peerDue (a : Status) (v : Word) : (s.answer a v).peerDue = s.peerDue := rfl
@[simp] theorem State.answer_spent (a : Status) (v : Word) : (s.answer a v).spent = s.spent := rfl
@[simp] theorem State.answer_freed (a : Status) (v : Word) : (s.answer a v).freed = s.freed := rfl
@[simp] theorem State.answer_wire (a : Status) (v : Word) : (s.answer a v).wire = s.wire := rfl
@[simp] theorem State.answer_training (a : Status) (v : Word) : (s.answer a v).training = s.training := rfl
@[simp] theorem State.answer_fecRecent (a : Status) (v : Word) : (s.answer a v).fecRecent = s.fecRecent := rfl
@[simp] theorem State.answer_packing (a : Status) (v : Word) : (s.answer a v).packing = s.packing := rfl
@[simp] theorem State.answer_replays (a : Status) (v : Word) : (s.answer a v).replays = s.replays := rfl
@[simp] theorem State.answer_welts (a : Status) (v : Word) : (s.answer a v).welts = s.welts := rfl
@[simp] theorem State.answer_pools (a : Status) (v : Word) : (s.answer a v).pools = s.pools := rfl
@[simp] theorem State.answer_linkHeld (a : Status) (v : Word) : (s.answer a v).linkHeld = s.linkHeld := rfl
@[simp] theorem State.answer_linkSpares (a : Status) (v : Word) : (s.answer a v).linkSpares = s.linkSpares := rfl
@[simp] theorem State.answer_linkBuf (a : Status) (v : Word) : (s.answer a v).linkBuf = s.linkBuf := rfl
@[simp] theorem State.answer_colls (a : Status) (v : Word) : (s.answer a v).colls = s.colls := rfl
@[simp] theorem State.answer_collCounts (a : Status) (v : Word) : (s.answer a v).collCounts = s.collCounts := rfl
@[simp] theorem State.answer_cached (a : Status) (v : Word) : (s.answer a v).cached = s.cached := rfl
@[simp] theorem State.answer_writeBacks (a : Status) (v : Word) : (s.answer a v).writeBacks = s.writeBacks := rfl
@[simp] theorem State.answer_cacheUpsets (a : Status) (v : Word) : (s.answer a v).cacheUpsets = s.cacheUpsets := rfl
@[simp] theorem State.answer_hcCaches (a : Status) (v : Word) : (s.answer a v).hcCaches = s.hcCaches := rfl
@[simp] theorem State.answer_hcReserved (a : Status) (v : Word) : (s.answer a v).hcReserved = s.hcReserved := rfl
@[simp] theorem State.answer_codeSlots (a : Status) (v : Word) : (s.answer a v).codeSlots = s.codeSlots := rfl
@[simp] theorem State.answer_extRuns (a : Status) (v : Word) : (s.answer a v).extRuns = s.extRuns := rfl
@[simp] theorem State.answer_extDone (a : Status) (v : Word) : (s.answer a v).extDone = s.extDone := rfl
@[simp] theorem State.answer_eyeCommits (a : Status) (v : Word) : (s.answer a v).eyeCommits = s.eyeCommits := rfl
@[simp] theorem State.answer_eyeExpired (a : Status) (v : Word) : (s.answer a v).eyeExpired = s.eyeExpired := rfl
@[simp] theorem State.answer_eyeWrites (a : Status) (v : Word) : (s.answer a v).eyeWrites = s.eyeWrites := rfl
@[simp] theorem State.answer_claimedBy (a : Status) (v : Word) : (s.answer a v).claimedBy = s.claimedBy := rfl
@[simp] theorem State.answer_lastClaim (a : Status) (v : Word) : (s.answer a v).lastClaim = s.lastClaim := rfl
@[simp] theorem State.answer_roundRobin (a : Status) (v : Word) : (s.answer a v).roundRobin = s.roundRobin := rfl
@[simp] theorem State.answer_rrSince (a : Status) (v : Word) : (s.answer a v).rrSince = s.rrSince := rfl
@[simp] theorem State.answer_rangeDue (a : Status) (v : Word) : (s.answer a v).rangeDue = s.rangeDue := rfl
@[simp] theorem State.answer_rangeOwner (a : Status) (v : Word) : (s.answer a v).rangeOwner = s.rangeOwner := rfl
@[simp] theorem State.answer_hostRx (a : Status) (v : Word) : (s.answer a v).hostRx = s.hostRx := rfl
@[simp] theorem State.answer_sessions (a : Status) (v : Word) : (s.answer a v).sessions = s.sessions := rfl
@[simp] theorem State.answer_hostWire (a : Status) (v : Word) : (s.answer a v).hostWire = s.hostWire := rfl
@[simp] theorem State.answer_mgmtKeys (a : Status) (v : Word) : (s.answer a v).mgmtKeys = s.mgmtKeys := rfl
@[simp] theorem State.answer_leaseKeys (a : Status) (v : Word) : (s.answer a v).leaseKeys = s.leaseKeys := rfl
@[simp] theorem State.answer_owned (a : Status) (v : Word) : (s.answer a v).owned = s.owned := rfl
@[simp] theorem State.answer_quiesces (a : Status) (v : Word) : (s.answer a v).quiesces = s.quiesces := rfl
@[simp] theorem State.answer_binding (a : Status) (v : Word) : (s.answer a v).binding = s.binding := rfl
@[simp] theorem State.answer_monitor (a : Status) (v : Word) : (s.answer a v).monitor = s.monitor := rfl
@[simp] theorem State.answer_monitorAt (a : Status) (v : Word) : (s.answer a v).monitorAt = s.monitorAt := rfl
@[simp] theorem State.answer_snapOp (a : Status) (v : Word) : (s.answer a v).snapOp = s.snapOp := rfl
@[simp] theorem State.answer_stepEnds (a : Status) (v : Word) : (s.answer a v).stepEnds = s.stepEnds := rfl
@[simp] theorem State.answer_withdrawn (a : Status) (v : Word) : (s.answer a v).withdrawn = s.withdrawn := rfl
@[simp] theorem State.answer_stageGib (a : Status) (v : Word) : (s.answer a v).stageGib = s.stageGib := rfl
@[simp] theorem State.answer_snaps (a : Status) (v : Word) : (s.answer a v).snaps = s.snaps := rfl
@[simp] theorem State.answer_snapCount (a : Status) (v : Word) : (s.answer a v).snapCount = s.snapCount := rfl
@[simp] theorem State.answer_streams (a : Status) (v : Word) : (s.answer a v).streams = s.streams := rfl
@[simp] theorem State.answer_records (a : Status) (v : Word) : (s.answer a v).records = s.records := rfl
@[simp] theorem State.answer_leaseBorn (a : Status) (v : Word) : (s.answer a v).leaseBorn = s.leaseBorn := rfl
@[simp] theorem State.answer_lastSnap (a : Status) (v : Word) : (s.answer a v).lastSnap = s.lastSnap := rfl
@[simp] theorem State.answer_failures (a : Status) (v : Word) : (s.answer a v).failures = s.failures := rfl
@[simp] theorem State.answer_recovering (a : Status) (v : Word) : (s.answer a v).recovering = s.recovering := rfl
@[simp] theorem State.answer_prompts (a : Status) (v : Word) : (s.answer a v).prompts = s.prompts := rfl
@[simp] theorem State.answer_powerAt (a : Status) (v : Word) : (s.answer a v).powerAt = s.powerAt := rfl
@[simp] theorem State.answer_dutyAt (a : Status) (v : Word) : (s.answer a v).dutyAt = s.dutyAt := rfl
@[simp] theorem State.answer_clusterUsed (a : Status) (v : Word) : (s.answer a v).clusterUsed = s.clusterUsed := rfl
@[simp] theorem State.answer_energyAt (a : Status) (v : Word) : (s.answer a v).energyAt = s.energyAt := rfl
@[simp] theorem State.answer_energyBytes (a : Status) (v : Word) : (s.answer a v).energyBytes = s.energyBytes := rfl
@[simp] theorem State.answer_completions (a : Status) (v : Word) : (s.answer a v).completions = s.completions := rfl
@[simp] theorem State.answer_relockAt (a : Status) (v : Word) : (s.answer a v).relockAt = s.relockAt := rfl
@[simp] theorem State.answer_goodWindows (a : Status) (v : Word) : (s.answer a v).goodWindows = s.goodWindows := rfl
@[simp] theorem State.answer_standbyLost (a : Status) (v : Word) : (s.answer a v).standbyLost = s.standbyLost := rfl
@[simp] theorem State.answer_arithMhz (a : Status) (v : Word) : (s.answer a v).arithMhz = s.arithMhz := rfl
@[simp] theorem State.answer_ratioMode (a : Status) (v : Word) : (s.answer a v).ratioMode = s.ratioMode := rfl
@[simp] theorem State.answer_watts (a : Status) (v : Word) : (s.answer a v).watts = s.watts := rfl
@[simp] theorem State.answer_floorRun (a : Status) (v : Word) : (s.answer a v).floorRun = s.floorRun := rfl
@[simp] theorem State.answer_clustersOff (a : Status) (v : Word) : (s.answer a v).clustersOff = s.clustersOff := rfl
@[simp] theorem State.answer_alertSince (a : Status) (v : Word) : (s.answer a v).alertSince = s.alertSince := rfl
@[simp] theorem State.answer_life (a : Status) (v : Word) : (s.answer a v).life = s.life := rfl
@[simp] theorem State.answer_resetLow (a : Status) (v : Word) : (s.answer a v).resetLow = s.resetLow := rfl
@[simp] theorem State.answer_strap (a : Status) (v : Word) : (s.answer a v).strap = s.strap := rfl
@[simp] theorem State.answer_hot (a : Status) (v : Word) : (s.answer a v).hot = s.hot := rfl
@[simp] theorem State.answer_startDue (a : Status) (v : Word) : (s.answer a v).startDue = s.startDue := rfl
@[simp] theorem State.answer_startAt (a : Status) (v : Word) : (s.answer a v).startAt = s.startAt := rfl
@[simp] theorem State.answer_stageAt (a : Status) (v : Word) : (s.answer a v).stageAt = s.stageAt := rfl
@[simp] theorem State.answer_lastDuration (a : Status) (v : Word) : (s.answer a v).lastDuration = s.lastDuration := rfl
@[simp] theorem State.answer_startArea (a : Status) (v : Word) : (s.answer a v).startArea = s.startArea := rfl
@[simp] theorem State.answer_storeStart (a : Status) (v : Word) : (s.answer a v).storeStart = s.storeStart := rfl
@[simp] theorem State.answer_storeSettings (a : Status) (v : Word) : (s.answer a v).storeSettings = s.storeSettings := rfl
@[simp] theorem State.answer_chosen (a : Status) (v : Word) : (s.answer a v).chosen = s.chosen := rfl
@[simp] theorem State.answer_recovery (a : Status) (v : Word) : (s.answer a v).recovery = s.recovery := rfl
@[simp] theorem State.answer_sv1 (a : Status) (v : Word) : (s.answer a v).sv1 = s.sv1 := rfl
@[simp] theorem State.answer_sv0Failed (a : Status) (v : Word) : (s.answer a v).sv0Failed = s.sv0Failed := rfl
@[simp] theorem State.answer_heartbeatAt (a : Status) (v : Word) : (s.answer a v).heartbeatAt = s.heartbeatAt := rfl
@[simp] theorem State.answer_flash (a : Status) (v : Word) : (s.answer a v).flash = s.flash := rfl
@[simp] theorem State.answer_running (a : Status) (v : Word) : (s.answer a v).running = s.running := rfl
@[simp] theorem State.answer_flashWrite (a : Status) (v : Word) : (s.answer a v).flashWrite = s.flashWrite := rfl
@[simp] theorem State.answer_staged (a : Status) (v : Word) : (s.answer a v).staged = s.staged := rfl
@[simp] theorem State.answer_completeAt (a : Status) (v : Word) : (s.answer a v).completeAt = s.completeAt := rfl
@[simp] theorem State.answer_enumAt (a : Status) (v : Word) : (s.answer a v).enumAt = s.enumAt := rfl
@[simp] theorem State.answer_reclaimDue (a : Status) (v : Word) : (s.answer a v).reclaimDue = s.reclaimDue := rfl
@[simp] theorem State.answer_foreign (a : Status) (v : Word) : (s.answer a v).foreign = s.foreign := rfl
@[simp] theorem State.answer_addrRecord (a : Status) (v : Word) : (s.answer a v).addrRecord = s.addrRecord := rfl
@[simp] theorem State.answer_announcedAt (a : Status) (v : Word) : (s.answer a v).announcedAt = s.announcedAt := rfl
@[simp] theorem State.answer_adverts (a : Status) (v : Word) : (s.answer a v).adverts = s.adverts := rfl
@[simp] theorem State.answer_rasAt (a : Status) (v : Word) : (s.answer a v).rasAt = s.rasAt := rfl
@[simp] theorem State.answer_rasSeen (a : Status) (v : Word) : (s.answer a v).rasSeen = s.rasSeen := rfl
@[simp] theorem State.answer_rasCorr (a : Status) (v : Word) : (s.answer a v).rasCorr = s.rasCorr := rfl
@[simp] theorem State.answer_uncRows (a : Status) (v : Word) : (s.answer a v).uncRows = s.uncRows := rfl
@[simp] theorem State.answer_rasMet (a : Status) (v : Word) : (s.answer a v).rasMet = s.rasMet := rfl
@[simp] theorem State.answer_marked (a : Status) (v : Word) : (s.answer a v).marked = s.marked := rfl
@[simp] theorem State.answer_retireDue (a : Status) (v : Word) : (s.answer a v).retireDue = s.retireDue := rfl
@[simp] theorem State.answer_repairs (a : Status) (v : Word) : (s.answer a v).repairs = s.repairs := rfl
@[simp] theorem State.answer_verifyAt (a : Status) (v : Word) : (s.answer a v).verifyAt = s.verifyAt := rfl

@[simp] theorem State.setCore_pending (k : Nat) (c : Core) : (s.setCore k c).pending = s.pending := rfl
@[simp] theorem State.setCore_now (k : Nat) (c : Core) : (s.setCore k c).now = s.now := rfl
@[simp] theorem State.setCore_coreClock (k : Nat) (c : Core) : (s.setCore k c).coreClock = s.coreClock := rfl
@[simp] theorem State.setCore_fresh (k : Nat) (c : Core) : (s.setCore k c).fresh = s.fresh := rfl
@[simp] theorem State.setCore_grade (k : Nat) (c : Core) : (s.setCore k c).grade = s.grade := rfl
@[simp] theorem State.setCore_access (k : Nat) (c : Core) : (s.setCore k c).access = s.access := rfl
@[simp] theorem State.setCore_regs (k : Nat) (c : Core) : (s.setCore k c).regs = s.regs := rfl
@[simp] theorem State.setCore_latest (k : Nat) (c : Core) : (s.setCore k c).latest = s.latest := rfl
@[simp] theorem State.setCore_mem (k : Nat) (c : Core) : (s.setCore k c).mem = s.mem := rfl
@[simp] theorem State.setCore_flagOps (k : Nat) (c : Core) : (s.setCore k c).flagOps = s.flagOps := rfl
@[simp] theorem State.setCore_reqs (k : Nat) (c : Core) : (s.setCore k c).reqs = s.reqs := rfl
@[simp] theorem State.setCore_nextId (k : Nat) (c : Core) : (s.setCore k c).nextId = s.nextId := rfl
@[simp] theorem State.setCore_ctls (k : Nat) (c : Core) : (s.setCore k c).ctls = s.ctls := rfl
@[simp] theorem State.setCore_stackRuns (k : Nat) (c : Core) : (s.setCore k c).stackRuns = s.stackRuns := rfl
@[simp] theorem State.setCore_wcache (k : Nat) (c : Core) : (s.setCore k c).wcache = s.wcache := rfl
@[simp] theorem State.setCore_patrol (k : Nat) (c : Core) : (s.setCore k c).patrol = s.patrol := rfl
@[simp] theorem State.setCore_scrubs (k : Nat) (c : Core) : (s.setCore k c).scrubs = s.scrubs := rfl
@[simp] theorem State.setCore_frames (k : Nat) (c : Core) : (s.setCore k c).frames = s.frames := rfl
@[simp] theorem State.setCore_extents (k : Nat) (c : Core) : (s.setCore k c).extents = s.extents := rfl
@[simp] theorem State.setCore_pulses (k : Nat) (c : Core) : (s.setCore k c).pulses = s.pulses := rfl
@[simp] theorem State.setCore_rawLines (k : Nat) (c : Core) : (s.setCore k c).rawLines = s.rawLines := rfl
@[simp] theorem State.setCore_filteredHigh (k : Nat) (c : Core) : (s.setCore k c).filteredHigh = s.filteredHigh := rfl
@[simp] theorem State.setCore_inject (k : Nat) (c : Core) : (s.setCore k c).inject = s.inject := rfl
@[simp] theorem State.setCore_banks (k : Nat) (c : Core) : (s.setCore k c).banks = s.banks := rfl
@[simp] theorem State.setCore_upsets (k : Nat) (c : Core) : (s.setCore k c).upsets = s.upsets := rfl
@[simp] theorem State.setCore_retired (k : Nat) (c : Core) : (s.setCore k c).retired = s.retired := rfl
@[simp] theorem State.setCore_absent (k : Nat) (c : Core) : (s.setCore k c).absent = s.absent := rfl
@[simp] theorem State.setCore_perturbed (k : Nat) (c : Core) : (s.setCore k c).perturbed = s.perturbed := rfl
@[simp] theorem State.setCore_pertOld (k : Nat) (c : Core) : (s.setCore k c).pertOld = s.pertOld := rfl
@[simp] theorem State.setCore_conns (k : Nat) (c : Core) : (s.setCore k c).conns = s.conns := rfl
@[simp] theorem State.setCore_egress (k : Nat) (c : Core) : (s.setCore k c).egress = s.egress := rfl
@[simp] theorem State.setCore_arbiters (k : Nat) (c : Core) : (s.setCore k c).arbiters = s.arbiters := rfl
@[simp] theorem State.setCore_peerDue (k : Nat) (c : Core) : (s.setCore k c).peerDue = s.peerDue := rfl
@[simp] theorem State.setCore_spent (k : Nat) (c : Core) : (s.setCore k c).spent = s.spent := rfl
@[simp] theorem State.setCore_freed (k : Nat) (c : Core) : (s.setCore k c).freed = s.freed := rfl
@[simp] theorem State.setCore_wire (k : Nat) (c : Core) : (s.setCore k c).wire = s.wire := rfl
@[simp] theorem State.setCore_training (k : Nat) (c : Core) : (s.setCore k c).training = s.training := rfl
@[simp] theorem State.setCore_fecRecent (k : Nat) (c : Core) : (s.setCore k c).fecRecent = s.fecRecent := rfl
@[simp] theorem State.setCore_packing (k : Nat) (c : Core) : (s.setCore k c).packing = s.packing := rfl
@[simp] theorem State.setCore_replays (k : Nat) (c : Core) : (s.setCore k c).replays = s.replays := rfl
@[simp] theorem State.setCore_welts (k : Nat) (c : Core) : (s.setCore k c).welts = s.welts := rfl
@[simp] theorem State.setCore_pools (k : Nat) (c : Core) : (s.setCore k c).pools = s.pools := rfl
@[simp] theorem State.setCore_linkHeld (k : Nat) (c : Core) : (s.setCore k c).linkHeld = s.linkHeld := rfl
@[simp] theorem State.setCore_linkSpares (k : Nat) (c : Core) : (s.setCore k c).linkSpares = s.linkSpares := rfl
@[simp] theorem State.setCore_linkBuf (k : Nat) (c : Core) : (s.setCore k c).linkBuf = s.linkBuf := rfl
@[simp] theorem State.setCore_colls (k : Nat) (c : Core) : (s.setCore k c).colls = s.colls := rfl
@[simp] theorem State.setCore_collCounts (k : Nat) (c : Core) : (s.setCore k c).collCounts = s.collCounts := rfl
@[simp] theorem State.setCore_cached (k : Nat) (c : Core) : (s.setCore k c).cached = s.cached := rfl
@[simp] theorem State.setCore_writeBacks (k : Nat) (c : Core) : (s.setCore k c).writeBacks = s.writeBacks := rfl
@[simp] theorem State.setCore_cacheUpsets (k : Nat) (c : Core) : (s.setCore k c).cacheUpsets = s.cacheUpsets := rfl
@[simp] theorem State.setCore_hcCaches (k : Nat) (c : Core) : (s.setCore k c).hcCaches = s.hcCaches := rfl
@[simp] theorem State.setCore_hcReserved (k : Nat) (c : Core) : (s.setCore k c).hcReserved = s.hcReserved := rfl
@[simp] theorem State.setCore_codeSlots (k : Nat) (c : Core) : (s.setCore k c).codeSlots = s.codeSlots := rfl
@[simp] theorem State.setCore_extRuns (k : Nat) (c : Core) : (s.setCore k c).extRuns = s.extRuns := rfl
@[simp] theorem State.setCore_extDone (k : Nat) (c : Core) : (s.setCore k c).extDone = s.extDone := rfl
@[simp] theorem State.setCore_eyeCommits (k : Nat) (c : Core) : (s.setCore k c).eyeCommits = s.eyeCommits := rfl
@[simp] theorem State.setCore_eyeExpired (k : Nat) (c : Core) : (s.setCore k c).eyeExpired = s.eyeExpired := rfl
@[simp] theorem State.setCore_eyeWrites (k : Nat) (c : Core) : (s.setCore k c).eyeWrites = s.eyeWrites := rfl
@[simp] theorem State.setCore_claimedBy (k : Nat) (c : Core) : (s.setCore k c).claimedBy = s.claimedBy := rfl
@[simp] theorem State.setCore_lastClaim (k : Nat) (c : Core) : (s.setCore k c).lastClaim = s.lastClaim := rfl
@[simp] theorem State.setCore_roundRobin (k : Nat) (c : Core) : (s.setCore k c).roundRobin = s.roundRobin := rfl
@[simp] theorem State.setCore_rrSince (k : Nat) (c : Core) : (s.setCore k c).rrSince = s.rrSince := rfl
@[simp] theorem State.setCore_rangeDue (k : Nat) (c : Core) : (s.setCore k c).rangeDue = s.rangeDue := rfl
@[simp] theorem State.setCore_rangeOwner (k : Nat) (c : Core) : (s.setCore k c).rangeOwner = s.rangeOwner := rfl
@[simp] theorem State.setCore_hostRx (k : Nat) (c : Core) : (s.setCore k c).hostRx = s.hostRx := rfl
@[simp] theorem State.setCore_sessions (k : Nat) (c : Core) : (s.setCore k c).sessions = s.sessions := rfl
@[simp] theorem State.setCore_hostWire (k : Nat) (c : Core) : (s.setCore k c).hostWire = s.hostWire := rfl
@[simp] theorem State.setCore_mgmtKeys (k : Nat) (c : Core) : (s.setCore k c).mgmtKeys = s.mgmtKeys := rfl
@[simp] theorem State.setCore_leaseKeys (k : Nat) (c : Core) : (s.setCore k c).leaseKeys = s.leaseKeys := rfl
@[simp] theorem State.setCore_owned (k : Nat) (c : Core) : (s.setCore k c).owned = s.owned := rfl
@[simp] theorem State.setCore_quiesces (k : Nat) (c : Core) : (s.setCore k c).quiesces = s.quiesces := rfl
@[simp] theorem State.setCore_binding (k : Nat) (c : Core) : (s.setCore k c).binding = s.binding := rfl
@[simp] theorem State.setCore_monitor (k : Nat) (c : Core) : (s.setCore k c).monitor = s.monitor := rfl
@[simp] theorem State.setCore_monitorAt (k : Nat) (c : Core) : (s.setCore k c).monitorAt = s.monitorAt := rfl
@[simp] theorem State.setCore_snapOp (k : Nat) (c : Core) : (s.setCore k c).snapOp = s.snapOp := rfl
@[simp] theorem State.setCore_stepEnds (k : Nat) (c : Core) : (s.setCore k c).stepEnds = s.stepEnds := rfl
@[simp] theorem State.setCore_withdrawn (k : Nat) (c : Core) : (s.setCore k c).withdrawn = s.withdrawn := rfl
@[simp] theorem State.setCore_stageGib (k : Nat) (c : Core) : (s.setCore k c).stageGib = s.stageGib := rfl
@[simp] theorem State.setCore_snaps (k : Nat) (c : Core) : (s.setCore k c).snaps = s.snaps := rfl
@[simp] theorem State.setCore_snapCount (k : Nat) (c : Core) : (s.setCore k c).snapCount = s.snapCount := rfl
@[simp] theorem State.setCore_streams (k : Nat) (c : Core) : (s.setCore k c).streams = s.streams := rfl
@[simp] theorem State.setCore_records (k : Nat) (c : Core) : (s.setCore k c).records = s.records := rfl
@[simp] theorem State.setCore_leaseBorn (k : Nat) (c : Core) : (s.setCore k c).leaseBorn = s.leaseBorn := rfl
@[simp] theorem State.setCore_lastSnap (k : Nat) (c : Core) : (s.setCore k c).lastSnap = s.lastSnap := rfl
@[simp] theorem State.setCore_failures (k : Nat) (c : Core) : (s.setCore k c).failures = s.failures := rfl
@[simp] theorem State.setCore_recovering (k : Nat) (c : Core) : (s.setCore k c).recovering = s.recovering := rfl
@[simp] theorem State.setCore_prompts (k : Nat) (c : Core) : (s.setCore k c).prompts = s.prompts := rfl
@[simp] theorem State.setCore_powerAt (k : Nat) (c : Core) : (s.setCore k c).powerAt = s.powerAt := rfl
@[simp] theorem State.setCore_dutyAt (k : Nat) (c : Core) : (s.setCore k c).dutyAt = s.dutyAt := rfl
@[simp] theorem State.setCore_clusterUsed (k : Nat) (c : Core) : (s.setCore k c).clusterUsed = s.clusterUsed := rfl
@[simp] theorem State.setCore_energyAt (k : Nat) (c : Core) : (s.setCore k c).energyAt = s.energyAt := rfl
@[simp] theorem State.setCore_energyBytes (k : Nat) (c : Core) : (s.setCore k c).energyBytes = s.energyBytes := rfl
@[simp] theorem State.setCore_completions (k : Nat) (c : Core) : (s.setCore k c).completions = s.completions := rfl
@[simp] theorem State.setCore_relockAt (k : Nat) (c : Core) : (s.setCore k c).relockAt = s.relockAt := rfl
@[simp] theorem State.setCore_goodWindows (k : Nat) (c : Core) : (s.setCore k c).goodWindows = s.goodWindows := rfl
@[simp] theorem State.setCore_standbyLost (k : Nat) (c : Core) : (s.setCore k c).standbyLost = s.standbyLost := rfl
@[simp] theorem State.setCore_arithMhz (k : Nat) (c : Core) : (s.setCore k c).arithMhz = s.arithMhz := rfl
@[simp] theorem State.setCore_ratioMode (k : Nat) (c : Core) : (s.setCore k c).ratioMode = s.ratioMode := rfl
@[simp] theorem State.setCore_watts (k : Nat) (c : Core) : (s.setCore k c).watts = s.watts := rfl
@[simp] theorem State.setCore_floorRun (k : Nat) (c : Core) : (s.setCore k c).floorRun = s.floorRun := rfl
@[simp] theorem State.setCore_clustersOff (k : Nat) (c : Core) : (s.setCore k c).clustersOff = s.clustersOff := rfl
@[simp] theorem State.setCore_alertSince (k : Nat) (c : Core) : (s.setCore k c).alertSince = s.alertSince := rfl
@[simp] theorem State.setCore_life (k : Nat) (c : Core) : (s.setCore k c).life = s.life := rfl
@[simp] theorem State.setCore_resetLow (k : Nat) (c : Core) : (s.setCore k c).resetLow = s.resetLow := rfl
@[simp] theorem State.setCore_strap (k : Nat) (c : Core) : (s.setCore k c).strap = s.strap := rfl
@[simp] theorem State.setCore_hot (k : Nat) (c : Core) : (s.setCore k c).hot = s.hot := rfl
@[simp] theorem State.setCore_startDue (k : Nat) (c : Core) : (s.setCore k c).startDue = s.startDue := rfl
@[simp] theorem State.setCore_startAt (k : Nat) (c : Core) : (s.setCore k c).startAt = s.startAt := rfl
@[simp] theorem State.setCore_stageAt (k : Nat) (c : Core) : (s.setCore k c).stageAt = s.stageAt := rfl
@[simp] theorem State.setCore_lastDuration (k : Nat) (c : Core) : (s.setCore k c).lastDuration = s.lastDuration := rfl
@[simp] theorem State.setCore_startArea (k : Nat) (c : Core) : (s.setCore k c).startArea = s.startArea := rfl
@[simp] theorem State.setCore_storeStart (k : Nat) (c : Core) : (s.setCore k c).storeStart = s.storeStart := rfl
@[simp] theorem State.setCore_storeSettings (k : Nat) (c : Core) : (s.setCore k c).storeSettings = s.storeSettings := rfl
@[simp] theorem State.setCore_chosen (k : Nat) (c : Core) : (s.setCore k c).chosen = s.chosen := rfl
@[simp] theorem State.setCore_recovery (k : Nat) (c : Core) : (s.setCore k c).recovery = s.recovery := rfl
@[simp] theorem State.setCore_sv1 (k : Nat) (c : Core) : (s.setCore k c).sv1 = s.sv1 := rfl
@[simp] theorem State.setCore_sv0Failed (k : Nat) (c : Core) : (s.setCore k c).sv0Failed = s.sv0Failed := rfl
@[simp] theorem State.setCore_heartbeatAt (k : Nat) (c : Core) : (s.setCore k c).heartbeatAt = s.heartbeatAt := rfl
@[simp] theorem State.setCore_flash (k : Nat) (c : Core) : (s.setCore k c).flash = s.flash := rfl
@[simp] theorem State.setCore_running (k : Nat) (c : Core) : (s.setCore k c).running = s.running := rfl
@[simp] theorem State.setCore_flashWrite (k : Nat) (c : Core) : (s.setCore k c).flashWrite = s.flashWrite := rfl
@[simp] theorem State.setCore_staged (k : Nat) (c : Core) : (s.setCore k c).staged = s.staged := rfl
@[simp] theorem State.setCore_completeAt (k : Nat) (c : Core) : (s.setCore k c).completeAt = s.completeAt := rfl
@[simp] theorem State.setCore_enumAt (k : Nat) (c : Core) : (s.setCore k c).enumAt = s.enumAt := rfl
@[simp] theorem State.setCore_reclaimDue (k : Nat) (c : Core) : (s.setCore k c).reclaimDue = s.reclaimDue := rfl
@[simp] theorem State.setCore_foreign (k : Nat) (c : Core) : (s.setCore k c).foreign = s.foreign := rfl
@[simp] theorem State.setCore_addrRecord (k : Nat) (c : Core) : (s.setCore k c).addrRecord = s.addrRecord := rfl
@[simp] theorem State.setCore_announcedAt (k : Nat) (c : Core) : (s.setCore k c).announcedAt = s.announcedAt := rfl
@[simp] theorem State.setCore_adverts (k : Nat) (c : Core) : (s.setCore k c).adverts = s.adverts := rfl
@[simp] theorem State.setCore_rasAt (k : Nat) (c : Core) : (s.setCore k c).rasAt = s.rasAt := rfl
@[simp] theorem State.setCore_rasSeen (k : Nat) (c : Core) : (s.setCore k c).rasSeen = s.rasSeen := rfl
@[simp] theorem State.setCore_rasCorr (k : Nat) (c : Core) : (s.setCore k c).rasCorr = s.rasCorr := rfl
@[simp] theorem State.setCore_uncRows (k : Nat) (c : Core) : (s.setCore k c).uncRows = s.uncRows := rfl
@[simp] theorem State.setCore_rasMet (k : Nat) (c : Core) : (s.setCore k c).rasMet = s.rasMet := rfl
@[simp] theorem State.setCore_marked (k : Nat) (c : Core) : (s.setCore k c).marked = s.marked := rfl
@[simp] theorem State.setCore_retireDue (k : Nat) (c : Core) : (s.setCore k c).retireDue = s.retireDue := rfl
@[simp] theorem State.setCore_repairs (k : Nat) (c : Core) : (s.setCore k c).repairs = s.repairs := rfl
@[simp] theorem State.setCore_verifyAt (k : Nat) (c : Core) : (s.setCore k c).verifyAt = s.verifyAt := rfl

@[simp] theorem State.onCore_pending (k : Nat) (f : Core → Core) : (s.onCore k f).pending = s.pending := rfl
@[simp] theorem State.onCore_now (k : Nat) (f : Core → Core) : (s.onCore k f).now = s.now := rfl
@[simp] theorem State.onCore_coreClock (k : Nat) (f : Core → Core) : (s.onCore k f).coreClock = s.coreClock := rfl
@[simp] theorem State.onCore_fresh (k : Nat) (f : Core → Core) : (s.onCore k f).fresh = s.fresh := rfl
@[simp] theorem State.onCore_grade (k : Nat) (f : Core → Core) : (s.onCore k f).grade = s.grade := rfl
@[simp] theorem State.onCore_access (k : Nat) (f : Core → Core) : (s.onCore k f).access = s.access := rfl
@[simp] theorem State.onCore_regs (k : Nat) (f : Core → Core) : (s.onCore k f).regs = s.regs := rfl
@[simp] theorem State.onCore_latest (k : Nat) (f : Core → Core) : (s.onCore k f).latest = s.latest := rfl
@[simp] theorem State.onCore_mem (k : Nat) (f : Core → Core) : (s.onCore k f).mem = s.mem := rfl
@[simp] theorem State.onCore_flagOps (k : Nat) (f : Core → Core) : (s.onCore k f).flagOps = s.flagOps := rfl
@[simp] theorem State.onCore_reqs (k : Nat) (f : Core → Core) : (s.onCore k f).reqs = s.reqs := rfl
@[simp] theorem State.onCore_nextId (k : Nat) (f : Core → Core) : (s.onCore k f).nextId = s.nextId := rfl
@[simp] theorem State.onCore_ctls (k : Nat) (f : Core → Core) : (s.onCore k f).ctls = s.ctls := rfl
@[simp] theorem State.onCore_stackRuns (k : Nat) (f : Core → Core) : (s.onCore k f).stackRuns = s.stackRuns := rfl
@[simp] theorem State.onCore_wcache (k : Nat) (f : Core → Core) : (s.onCore k f).wcache = s.wcache := rfl
@[simp] theorem State.onCore_patrol (k : Nat) (f : Core → Core) : (s.onCore k f).patrol = s.patrol := rfl
@[simp] theorem State.onCore_scrubs (k : Nat) (f : Core → Core) : (s.onCore k f).scrubs = s.scrubs := rfl
@[simp] theorem State.onCore_frames (k : Nat) (f : Core → Core) : (s.onCore k f).frames = s.frames := rfl
@[simp] theorem State.onCore_extents (k : Nat) (f : Core → Core) : (s.onCore k f).extents = s.extents := rfl
@[simp] theorem State.onCore_pulses (k : Nat) (f : Core → Core) : (s.onCore k f).pulses = s.pulses := rfl
@[simp] theorem State.onCore_rawLines (k : Nat) (f : Core → Core) : (s.onCore k f).rawLines = s.rawLines := rfl
@[simp] theorem State.onCore_filteredHigh (k : Nat) (f : Core → Core) : (s.onCore k f).filteredHigh = s.filteredHigh := rfl
@[simp] theorem State.onCore_inject (k : Nat) (f : Core → Core) : (s.onCore k f).inject = s.inject := rfl
@[simp] theorem State.onCore_banks (k : Nat) (f : Core → Core) : (s.onCore k f).banks = s.banks := rfl
@[simp] theorem State.onCore_upsets (k : Nat) (f : Core → Core) : (s.onCore k f).upsets = s.upsets := rfl
@[simp] theorem State.onCore_retired (k : Nat) (f : Core → Core) : (s.onCore k f).retired = s.retired := rfl
@[simp] theorem State.onCore_absent (k : Nat) (f : Core → Core) : (s.onCore k f).absent = s.absent := rfl
@[simp] theorem State.onCore_perturbed (k : Nat) (f : Core → Core) : (s.onCore k f).perturbed = s.perturbed := rfl
@[simp] theorem State.onCore_pertOld (k : Nat) (f : Core → Core) : (s.onCore k f).pertOld = s.pertOld := rfl
@[simp] theorem State.onCore_conns (k : Nat) (f : Core → Core) : (s.onCore k f).conns = s.conns := rfl
@[simp] theorem State.onCore_egress (k : Nat) (f : Core → Core) : (s.onCore k f).egress = s.egress := rfl
@[simp] theorem State.onCore_arbiters (k : Nat) (f : Core → Core) : (s.onCore k f).arbiters = s.arbiters := rfl
@[simp] theorem State.onCore_peerDue (k : Nat) (f : Core → Core) : (s.onCore k f).peerDue = s.peerDue := rfl
@[simp] theorem State.onCore_spent (k : Nat) (f : Core → Core) : (s.onCore k f).spent = s.spent := rfl
@[simp] theorem State.onCore_freed (k : Nat) (f : Core → Core) : (s.onCore k f).freed = s.freed := rfl
@[simp] theorem State.onCore_wire (k : Nat) (f : Core → Core) : (s.onCore k f).wire = s.wire := rfl
@[simp] theorem State.onCore_training (k : Nat) (f : Core → Core) : (s.onCore k f).training = s.training := rfl
@[simp] theorem State.onCore_fecRecent (k : Nat) (f : Core → Core) : (s.onCore k f).fecRecent = s.fecRecent := rfl
@[simp] theorem State.onCore_packing (k : Nat) (f : Core → Core) : (s.onCore k f).packing = s.packing := rfl
@[simp] theorem State.onCore_replays (k : Nat) (f : Core → Core) : (s.onCore k f).replays = s.replays := rfl
@[simp] theorem State.onCore_welts (k : Nat) (f : Core → Core) : (s.onCore k f).welts = s.welts := rfl
@[simp] theorem State.onCore_pools (k : Nat) (f : Core → Core) : (s.onCore k f).pools = s.pools := rfl
@[simp] theorem State.onCore_linkHeld (k : Nat) (f : Core → Core) : (s.onCore k f).linkHeld = s.linkHeld := rfl
@[simp] theorem State.onCore_linkSpares (k : Nat) (f : Core → Core) : (s.onCore k f).linkSpares = s.linkSpares := rfl
@[simp] theorem State.onCore_linkBuf (k : Nat) (f : Core → Core) : (s.onCore k f).linkBuf = s.linkBuf := rfl
@[simp] theorem State.onCore_colls (k : Nat) (f : Core → Core) : (s.onCore k f).colls = s.colls := rfl
@[simp] theorem State.onCore_collCounts (k : Nat) (f : Core → Core) : (s.onCore k f).collCounts = s.collCounts := rfl
@[simp] theorem State.onCore_cached (k : Nat) (f : Core → Core) : (s.onCore k f).cached = s.cached := rfl
@[simp] theorem State.onCore_writeBacks (k : Nat) (f : Core → Core) : (s.onCore k f).writeBacks = s.writeBacks := rfl
@[simp] theorem State.onCore_cacheUpsets (k : Nat) (f : Core → Core) : (s.onCore k f).cacheUpsets = s.cacheUpsets := rfl
@[simp] theorem State.onCore_hcCaches (k : Nat) (f : Core → Core) : (s.onCore k f).hcCaches = s.hcCaches := rfl
@[simp] theorem State.onCore_hcReserved (k : Nat) (f : Core → Core) : (s.onCore k f).hcReserved = s.hcReserved := rfl
@[simp] theorem State.onCore_codeSlots (k : Nat) (f : Core → Core) : (s.onCore k f).codeSlots = s.codeSlots := rfl
@[simp] theorem State.onCore_extRuns (k : Nat) (f : Core → Core) : (s.onCore k f).extRuns = s.extRuns := rfl
@[simp] theorem State.onCore_extDone (k : Nat) (f : Core → Core) : (s.onCore k f).extDone = s.extDone := rfl
@[simp] theorem State.onCore_eyeCommits (k : Nat) (f : Core → Core) : (s.onCore k f).eyeCommits = s.eyeCommits := rfl
@[simp] theorem State.onCore_eyeExpired (k : Nat) (f : Core → Core) : (s.onCore k f).eyeExpired = s.eyeExpired := rfl
@[simp] theorem State.onCore_eyeWrites (k : Nat) (f : Core → Core) : (s.onCore k f).eyeWrites = s.eyeWrites := rfl
@[simp] theorem State.onCore_claimedBy (k : Nat) (f : Core → Core) : (s.onCore k f).claimedBy = s.claimedBy := rfl
@[simp] theorem State.onCore_lastClaim (k : Nat) (f : Core → Core) : (s.onCore k f).lastClaim = s.lastClaim := rfl
@[simp] theorem State.onCore_roundRobin (k : Nat) (f : Core → Core) : (s.onCore k f).roundRobin = s.roundRobin := rfl
@[simp] theorem State.onCore_rrSince (k : Nat) (f : Core → Core) : (s.onCore k f).rrSince = s.rrSince := rfl
@[simp] theorem State.onCore_rangeDue (k : Nat) (f : Core → Core) : (s.onCore k f).rangeDue = s.rangeDue := rfl
@[simp] theorem State.onCore_rangeOwner (k : Nat) (f : Core → Core) : (s.onCore k f).rangeOwner = s.rangeOwner := rfl
@[simp] theorem State.onCore_hostRx (k : Nat) (f : Core → Core) : (s.onCore k f).hostRx = s.hostRx := rfl
@[simp] theorem State.onCore_sessions (k : Nat) (f : Core → Core) : (s.onCore k f).sessions = s.sessions := rfl
@[simp] theorem State.onCore_hostWire (k : Nat) (f : Core → Core) : (s.onCore k f).hostWire = s.hostWire := rfl
@[simp] theorem State.onCore_mgmtKeys (k : Nat) (f : Core → Core) : (s.onCore k f).mgmtKeys = s.mgmtKeys := rfl
@[simp] theorem State.onCore_leaseKeys (k : Nat) (f : Core → Core) : (s.onCore k f).leaseKeys = s.leaseKeys := rfl
@[simp] theorem State.onCore_owned (k : Nat) (f : Core → Core) : (s.onCore k f).owned = s.owned := rfl
@[simp] theorem State.onCore_quiesces (k : Nat) (f : Core → Core) : (s.onCore k f).quiesces = s.quiesces := rfl
@[simp] theorem State.onCore_binding (k : Nat) (f : Core → Core) : (s.onCore k f).binding = s.binding := rfl
@[simp] theorem State.onCore_monitor (k : Nat) (f : Core → Core) : (s.onCore k f).monitor = s.monitor := rfl
@[simp] theorem State.onCore_monitorAt (k : Nat) (f : Core → Core) : (s.onCore k f).monitorAt = s.monitorAt := rfl
@[simp] theorem State.onCore_snapOp (k : Nat) (f : Core → Core) : (s.onCore k f).snapOp = s.snapOp := rfl
@[simp] theorem State.onCore_stepEnds (k : Nat) (f : Core → Core) : (s.onCore k f).stepEnds = s.stepEnds := rfl
@[simp] theorem State.onCore_withdrawn (k : Nat) (f : Core → Core) : (s.onCore k f).withdrawn = s.withdrawn := rfl
@[simp] theorem State.onCore_stageGib (k : Nat) (f : Core → Core) : (s.onCore k f).stageGib = s.stageGib := rfl
@[simp] theorem State.onCore_snaps (k : Nat) (f : Core → Core) : (s.onCore k f).snaps = s.snaps := rfl
@[simp] theorem State.onCore_snapCount (k : Nat) (f : Core → Core) : (s.onCore k f).snapCount = s.snapCount := rfl
@[simp] theorem State.onCore_streams (k : Nat) (f : Core → Core) : (s.onCore k f).streams = s.streams := rfl
@[simp] theorem State.onCore_records (k : Nat) (f : Core → Core) : (s.onCore k f).records = s.records := rfl
@[simp] theorem State.onCore_leaseBorn (k : Nat) (f : Core → Core) : (s.onCore k f).leaseBorn = s.leaseBorn := rfl
@[simp] theorem State.onCore_lastSnap (k : Nat) (f : Core → Core) : (s.onCore k f).lastSnap = s.lastSnap := rfl
@[simp] theorem State.onCore_failures (k : Nat) (f : Core → Core) : (s.onCore k f).failures = s.failures := rfl
@[simp] theorem State.onCore_recovering (k : Nat) (f : Core → Core) : (s.onCore k f).recovering = s.recovering := rfl
@[simp] theorem State.onCore_prompts (k : Nat) (f : Core → Core) : (s.onCore k f).prompts = s.prompts := rfl
@[simp] theorem State.onCore_powerAt (k : Nat) (f : Core → Core) : (s.onCore k f).powerAt = s.powerAt := rfl
@[simp] theorem State.onCore_dutyAt (k : Nat) (f : Core → Core) : (s.onCore k f).dutyAt = s.dutyAt := rfl
@[simp] theorem State.onCore_clusterUsed (k : Nat) (f : Core → Core) : (s.onCore k f).clusterUsed = s.clusterUsed := rfl
@[simp] theorem State.onCore_energyAt (k : Nat) (f : Core → Core) : (s.onCore k f).energyAt = s.energyAt := rfl
@[simp] theorem State.onCore_energyBytes (k : Nat) (f : Core → Core) : (s.onCore k f).energyBytes = s.energyBytes := rfl
@[simp] theorem State.onCore_completions (k : Nat) (f : Core → Core) : (s.onCore k f).completions = s.completions := rfl
@[simp] theorem State.onCore_relockAt (k : Nat) (f : Core → Core) : (s.onCore k f).relockAt = s.relockAt := rfl
@[simp] theorem State.onCore_goodWindows (k : Nat) (f : Core → Core) : (s.onCore k f).goodWindows = s.goodWindows := rfl
@[simp] theorem State.onCore_standbyLost (k : Nat) (f : Core → Core) : (s.onCore k f).standbyLost = s.standbyLost := rfl
@[simp] theorem State.onCore_arithMhz (k : Nat) (f : Core → Core) : (s.onCore k f).arithMhz = s.arithMhz := rfl
@[simp] theorem State.onCore_ratioMode (k : Nat) (f : Core → Core) : (s.onCore k f).ratioMode = s.ratioMode := rfl
@[simp] theorem State.onCore_watts (k : Nat) (f : Core → Core) : (s.onCore k f).watts = s.watts := rfl
@[simp] theorem State.onCore_floorRun (k : Nat) (f : Core → Core) : (s.onCore k f).floorRun = s.floorRun := rfl
@[simp] theorem State.onCore_clustersOff (k : Nat) (f : Core → Core) : (s.onCore k f).clustersOff = s.clustersOff := rfl
@[simp] theorem State.onCore_alertSince (k : Nat) (f : Core → Core) : (s.onCore k f).alertSince = s.alertSince := rfl
@[simp] theorem State.onCore_life (k : Nat) (f : Core → Core) : (s.onCore k f).life = s.life := rfl
@[simp] theorem State.onCore_resetLow (k : Nat) (f : Core → Core) : (s.onCore k f).resetLow = s.resetLow := rfl
@[simp] theorem State.onCore_strap (k : Nat) (f : Core → Core) : (s.onCore k f).strap = s.strap := rfl
@[simp] theorem State.onCore_hot (k : Nat) (f : Core → Core) : (s.onCore k f).hot = s.hot := rfl
@[simp] theorem State.onCore_startDue (k : Nat) (f : Core → Core) : (s.onCore k f).startDue = s.startDue := rfl
@[simp] theorem State.onCore_startAt (k : Nat) (f : Core → Core) : (s.onCore k f).startAt = s.startAt := rfl
@[simp] theorem State.onCore_stageAt (k : Nat) (f : Core → Core) : (s.onCore k f).stageAt = s.stageAt := rfl
@[simp] theorem State.onCore_lastDuration (k : Nat) (f : Core → Core) : (s.onCore k f).lastDuration = s.lastDuration := rfl
@[simp] theorem State.onCore_startArea (k : Nat) (f : Core → Core) : (s.onCore k f).startArea = s.startArea := rfl
@[simp] theorem State.onCore_storeStart (k : Nat) (f : Core → Core) : (s.onCore k f).storeStart = s.storeStart := rfl
@[simp] theorem State.onCore_storeSettings (k : Nat) (f : Core → Core) : (s.onCore k f).storeSettings = s.storeSettings := rfl
@[simp] theorem State.onCore_chosen (k : Nat) (f : Core → Core) : (s.onCore k f).chosen = s.chosen := rfl
@[simp] theorem State.onCore_recovery (k : Nat) (f : Core → Core) : (s.onCore k f).recovery = s.recovery := rfl
@[simp] theorem State.onCore_sv1 (k : Nat) (f : Core → Core) : (s.onCore k f).sv1 = s.sv1 := rfl
@[simp] theorem State.onCore_sv0Failed (k : Nat) (f : Core → Core) : (s.onCore k f).sv0Failed = s.sv0Failed := rfl
@[simp] theorem State.onCore_heartbeatAt (k : Nat) (f : Core → Core) : (s.onCore k f).heartbeatAt = s.heartbeatAt := rfl
@[simp] theorem State.onCore_flash (k : Nat) (f : Core → Core) : (s.onCore k f).flash = s.flash := rfl
@[simp] theorem State.onCore_running (k : Nat) (f : Core → Core) : (s.onCore k f).running = s.running := rfl
@[simp] theorem State.onCore_flashWrite (k : Nat) (f : Core → Core) : (s.onCore k f).flashWrite = s.flashWrite := rfl
@[simp] theorem State.onCore_staged (k : Nat) (f : Core → Core) : (s.onCore k f).staged = s.staged := rfl
@[simp] theorem State.onCore_completeAt (k : Nat) (f : Core → Core) : (s.onCore k f).completeAt = s.completeAt := rfl
@[simp] theorem State.onCore_enumAt (k : Nat) (f : Core → Core) : (s.onCore k f).enumAt = s.enumAt := rfl
@[simp] theorem State.onCore_reclaimDue (k : Nat) (f : Core → Core) : (s.onCore k f).reclaimDue = s.reclaimDue := rfl
@[simp] theorem State.onCore_foreign (k : Nat) (f : Core → Core) : (s.onCore k f).foreign = s.foreign := rfl
@[simp] theorem State.onCore_addrRecord (k : Nat) (f : Core → Core) : (s.onCore k f).addrRecord = s.addrRecord := rfl
@[simp] theorem State.onCore_announcedAt (k : Nat) (f : Core → Core) : (s.onCore k f).announcedAt = s.announcedAt := rfl
@[simp] theorem State.onCore_adverts (k : Nat) (f : Core → Core) : (s.onCore k f).adverts = s.adverts := rfl
@[simp] theorem State.onCore_rasAt (k : Nat) (f : Core → Core) : (s.onCore k f).rasAt = s.rasAt := rfl
@[simp] theorem State.onCore_rasSeen (k : Nat) (f : Core → Core) : (s.onCore k f).rasSeen = s.rasSeen := rfl
@[simp] theorem State.onCore_rasCorr (k : Nat) (f : Core → Core) : (s.onCore k f).rasCorr = s.rasCorr := rfl
@[simp] theorem State.onCore_uncRows (k : Nat) (f : Core → Core) : (s.onCore k f).uncRows = s.uncRows := rfl
@[simp] theorem State.onCore_rasMet (k : Nat) (f : Core → Core) : (s.onCore k f).rasMet = s.rasMet := rfl
@[simp] theorem State.onCore_marked (k : Nat) (f : Core → Core) : (s.onCore k f).marked = s.marked := rfl
@[simp] theorem State.onCore_retireDue (k : Nat) (f : Core → Core) : (s.onCore k f).retireDue = s.retireDue := rfl
@[simp] theorem State.onCore_repairs (k : Nat) (f : Core → Core) : (s.onCore k f).repairs = s.repairs := rfl
@[simp] theorem State.onCore_verifyAt (k : Nat) (f : Core → Core) : (s.onCore k f).verifyAt = s.verifyAt := rfl

@[simp] theorem State.onCtl_pending (d k : Nat) (f : Controller → Controller) : (s.onCtl d k f).pending = s.pending := rfl
@[simp] theorem State.onCtl_now (d k : Nat) (f : Controller → Controller) : (s.onCtl d k f).now = s.now := rfl
@[simp] theorem State.onCtl_coreClock (d k : Nat) (f : Controller → Controller) : (s.onCtl d k f).coreClock = s.coreClock := rfl
@[simp] theorem State.onCtl_fresh (d k : Nat) (f : Controller → Controller) : (s.onCtl d k f).fresh = s.fresh := rfl
@[simp] theorem State.onCtl_grade (d k : Nat) (f : Controller → Controller) : (s.onCtl d k f).grade = s.grade := rfl
@[simp] theorem State.onCtl_access (d k : Nat) (f : Controller → Controller) : (s.onCtl d k f).access = s.access := rfl
@[simp] theorem State.onCtl_regs (d k : Nat) (f : Controller → Controller) : (s.onCtl d k f).regs = s.regs := rfl
@[simp] theorem State.onCtl_latest (d k : Nat) (f : Controller → Controller) : (s.onCtl d k f).latest = s.latest := rfl
@[simp] theorem State.onCtl_mem (d k : Nat) (f : Controller → Controller) : (s.onCtl d k f).mem = s.mem := rfl
@[simp] theorem State.onCtl_cores (d k : Nat) (f : Controller → Controller) : (s.onCtl d k f).cores = s.cores := rfl
@[simp] theorem State.onCtl_flagOps (d k : Nat) (f : Controller → Controller) : (s.onCtl d k f).flagOps = s.flagOps := rfl
@[simp] theorem State.onCtl_reqs (d k : Nat) (f : Controller → Controller) : (s.onCtl d k f).reqs = s.reqs := rfl
@[simp] theorem State.onCtl_nextId (d k : Nat) (f : Controller → Controller) : (s.onCtl d k f).nextId = s.nextId := rfl
@[simp] theorem State.onCtl_stackRuns (d k : Nat) (f : Controller → Controller) : (s.onCtl d k f).stackRuns = s.stackRuns := rfl
@[simp] theorem State.onCtl_wcache (d k : Nat) (f : Controller → Controller) : (s.onCtl d k f).wcache = s.wcache := rfl
@[simp] theorem State.onCtl_patrol (d k : Nat) (f : Controller → Controller) : (s.onCtl d k f).patrol = s.patrol := rfl
@[simp] theorem State.onCtl_scrubs (d k : Nat) (f : Controller → Controller) : (s.onCtl d k f).scrubs = s.scrubs := rfl
@[simp] theorem State.onCtl_frames (d k : Nat) (f : Controller → Controller) : (s.onCtl d k f).frames = s.frames := rfl
@[simp] theorem State.onCtl_extents (d k : Nat) (f : Controller → Controller) : (s.onCtl d k f).extents = s.extents := rfl
@[simp] theorem State.onCtl_pulses (d k : Nat) (f : Controller → Controller) : (s.onCtl d k f).pulses = s.pulses := rfl
@[simp] theorem State.onCtl_rawLines (d k : Nat) (f : Controller → Controller) : (s.onCtl d k f).rawLines = s.rawLines := rfl
@[simp] theorem State.onCtl_filteredHigh (d k : Nat) (f : Controller → Controller) : (s.onCtl d k f).filteredHigh = s.filteredHigh := rfl
@[simp] theorem State.onCtl_inject (d k : Nat) (f : Controller → Controller) : (s.onCtl d k f).inject = s.inject := rfl
@[simp] theorem State.onCtl_banks (d k : Nat) (f : Controller → Controller) : (s.onCtl d k f).banks = s.banks := rfl
@[simp] theorem State.onCtl_upsets (d k : Nat) (f : Controller → Controller) : (s.onCtl d k f).upsets = s.upsets := rfl
@[simp] theorem State.onCtl_retired (d k : Nat) (f : Controller → Controller) : (s.onCtl d k f).retired = s.retired := rfl
@[simp] theorem State.onCtl_absent (d k : Nat) (f : Controller → Controller) : (s.onCtl d k f).absent = s.absent := rfl
@[simp] theorem State.onCtl_perturbed (d k : Nat) (f : Controller → Controller) : (s.onCtl d k f).perturbed = s.perturbed := rfl
@[simp] theorem State.onCtl_pertOld (d k : Nat) (f : Controller → Controller) : (s.onCtl d k f).pertOld = s.pertOld := rfl
@[simp] theorem State.onCtl_conns (d k : Nat) (f : Controller → Controller) : (s.onCtl d k f).conns = s.conns := rfl
@[simp] theorem State.onCtl_egress (d k : Nat) (f : Controller → Controller) : (s.onCtl d k f).egress = s.egress := rfl
@[simp] theorem State.onCtl_arbiters (d k : Nat) (f : Controller → Controller) : (s.onCtl d k f).arbiters = s.arbiters := rfl
@[simp] theorem State.onCtl_peerDue (d k : Nat) (f : Controller → Controller) : (s.onCtl d k f).peerDue = s.peerDue := rfl
@[simp] theorem State.onCtl_spent (d k : Nat) (f : Controller → Controller) : (s.onCtl d k f).spent = s.spent := rfl
@[simp] theorem State.onCtl_freed (d k : Nat) (f : Controller → Controller) : (s.onCtl d k f).freed = s.freed := rfl
@[simp] theorem State.onCtl_wire (d k : Nat) (f : Controller → Controller) : (s.onCtl d k f).wire = s.wire := rfl
@[simp] theorem State.onCtl_training (d k : Nat) (f : Controller → Controller) : (s.onCtl d k f).training = s.training := rfl
@[simp] theorem State.onCtl_fecRecent (d k : Nat) (f : Controller → Controller) : (s.onCtl d k f).fecRecent = s.fecRecent := rfl
@[simp] theorem State.onCtl_packing (d k : Nat) (f : Controller → Controller) : (s.onCtl d k f).packing = s.packing := rfl
@[simp] theorem State.onCtl_replays (d k : Nat) (f : Controller → Controller) : (s.onCtl d k f).replays = s.replays := rfl
@[simp] theorem State.onCtl_welts (d k : Nat) (f : Controller → Controller) : (s.onCtl d k f).welts = s.welts := rfl
@[simp] theorem State.onCtl_pools (d k : Nat) (f : Controller → Controller) : (s.onCtl d k f).pools = s.pools := rfl
@[simp] theorem State.onCtl_linkHeld (d k : Nat) (f : Controller → Controller) : (s.onCtl d k f).linkHeld = s.linkHeld := rfl
@[simp] theorem State.onCtl_linkSpares (d k : Nat) (f : Controller → Controller) : (s.onCtl d k f).linkSpares = s.linkSpares := rfl
@[simp] theorem State.onCtl_linkBuf (d k : Nat) (f : Controller → Controller) : (s.onCtl d k f).linkBuf = s.linkBuf := rfl
@[simp] theorem State.onCtl_colls (d k : Nat) (f : Controller → Controller) : (s.onCtl d k f).colls = s.colls := rfl
@[simp] theorem State.onCtl_collCounts (d k : Nat) (f : Controller → Controller) : (s.onCtl d k f).collCounts = s.collCounts := rfl
@[simp] theorem State.onCtl_cached (d k : Nat) (f : Controller → Controller) : (s.onCtl d k f).cached = s.cached := rfl
@[simp] theorem State.onCtl_writeBacks (d k : Nat) (f : Controller → Controller) : (s.onCtl d k f).writeBacks = s.writeBacks := rfl
@[simp] theorem State.onCtl_cacheUpsets (d k : Nat) (f : Controller → Controller) : (s.onCtl d k f).cacheUpsets = s.cacheUpsets := rfl
@[simp] theorem State.onCtl_hcCaches (d k : Nat) (f : Controller → Controller) : (s.onCtl d k f).hcCaches = s.hcCaches := rfl
@[simp] theorem State.onCtl_hcReserved (d k : Nat) (f : Controller → Controller) : (s.onCtl d k f).hcReserved = s.hcReserved := rfl
@[simp] theorem State.onCtl_codeSlots (d k : Nat) (f : Controller → Controller) : (s.onCtl d k f).codeSlots = s.codeSlots := rfl
@[simp] theorem State.onCtl_extRuns (d k : Nat) (f : Controller → Controller) : (s.onCtl d k f).extRuns = s.extRuns := rfl
@[simp] theorem State.onCtl_extDone (d k : Nat) (f : Controller → Controller) : (s.onCtl d k f).extDone = s.extDone := rfl
@[simp] theorem State.onCtl_eyeCommits (d k : Nat) (f : Controller → Controller) : (s.onCtl d k f).eyeCommits = s.eyeCommits := rfl
@[simp] theorem State.onCtl_eyeExpired (d k : Nat) (f : Controller → Controller) : (s.onCtl d k f).eyeExpired = s.eyeExpired := rfl
@[simp] theorem State.onCtl_eyeWrites (d k : Nat) (f : Controller → Controller) : (s.onCtl d k f).eyeWrites = s.eyeWrites := rfl
@[simp] theorem State.onCtl_claimedBy (d k : Nat) (f : Controller → Controller) : (s.onCtl d k f).claimedBy = s.claimedBy := rfl
@[simp] theorem State.onCtl_lastClaim (d k : Nat) (f : Controller → Controller) : (s.onCtl d k f).lastClaim = s.lastClaim := rfl
@[simp] theorem State.onCtl_roundRobin (d k : Nat) (f : Controller → Controller) : (s.onCtl d k f).roundRobin = s.roundRobin := rfl
@[simp] theorem State.onCtl_rrSince (d k : Nat) (f : Controller → Controller) : (s.onCtl d k f).rrSince = s.rrSince := rfl
@[simp] theorem State.onCtl_rangeDue (d k : Nat) (f : Controller → Controller) : (s.onCtl d k f).rangeDue = s.rangeDue := rfl
@[simp] theorem State.onCtl_rangeOwner (d k : Nat) (f : Controller → Controller) : (s.onCtl d k f).rangeOwner = s.rangeOwner := rfl
@[simp] theorem State.onCtl_hostRx (d k : Nat) (f : Controller → Controller) : (s.onCtl d k f).hostRx = s.hostRx := rfl
@[simp] theorem State.onCtl_sessions (d k : Nat) (f : Controller → Controller) : (s.onCtl d k f).sessions = s.sessions := rfl
@[simp] theorem State.onCtl_hostWire (d k : Nat) (f : Controller → Controller) : (s.onCtl d k f).hostWire = s.hostWire := rfl
@[simp] theorem State.onCtl_mgmtKeys (d k : Nat) (f : Controller → Controller) : (s.onCtl d k f).mgmtKeys = s.mgmtKeys := rfl
@[simp] theorem State.onCtl_leaseKeys (d k : Nat) (f : Controller → Controller) : (s.onCtl d k f).leaseKeys = s.leaseKeys := rfl
@[simp] theorem State.onCtl_owned (d k : Nat) (f : Controller → Controller) : (s.onCtl d k f).owned = s.owned := rfl
@[simp] theorem State.onCtl_quiesces (d k : Nat) (f : Controller → Controller) : (s.onCtl d k f).quiesces = s.quiesces := rfl
@[simp] theorem State.onCtl_binding (d k : Nat) (f : Controller → Controller) : (s.onCtl d k f).binding = s.binding := rfl
@[simp] theorem State.onCtl_monitor (d k : Nat) (f : Controller → Controller) : (s.onCtl d k f).monitor = s.monitor := rfl
@[simp] theorem State.onCtl_monitorAt (d k : Nat) (f : Controller → Controller) : (s.onCtl d k f).monitorAt = s.monitorAt := rfl
@[simp] theorem State.onCtl_snapOp (d k : Nat) (f : Controller → Controller) : (s.onCtl d k f).snapOp = s.snapOp := rfl
@[simp] theorem State.onCtl_stepEnds (d k : Nat) (f : Controller → Controller) : (s.onCtl d k f).stepEnds = s.stepEnds := rfl
@[simp] theorem State.onCtl_withdrawn (d k : Nat) (f : Controller → Controller) : (s.onCtl d k f).withdrawn = s.withdrawn := rfl
@[simp] theorem State.onCtl_stageGib (d k : Nat) (f : Controller → Controller) : (s.onCtl d k f).stageGib = s.stageGib := rfl
@[simp] theorem State.onCtl_snaps (d k : Nat) (f : Controller → Controller) : (s.onCtl d k f).snaps = s.snaps := rfl
@[simp] theorem State.onCtl_snapCount (d k : Nat) (f : Controller → Controller) : (s.onCtl d k f).snapCount = s.snapCount := rfl
@[simp] theorem State.onCtl_streams (d k : Nat) (f : Controller → Controller) : (s.onCtl d k f).streams = s.streams := rfl
@[simp] theorem State.onCtl_records (d k : Nat) (f : Controller → Controller) : (s.onCtl d k f).records = s.records := rfl
@[simp] theorem State.onCtl_leaseBorn (d k : Nat) (f : Controller → Controller) : (s.onCtl d k f).leaseBorn = s.leaseBorn := rfl
@[simp] theorem State.onCtl_lastSnap (d k : Nat) (f : Controller → Controller) : (s.onCtl d k f).lastSnap = s.lastSnap := rfl
@[simp] theorem State.onCtl_failures (d k : Nat) (f : Controller → Controller) : (s.onCtl d k f).failures = s.failures := rfl
@[simp] theorem State.onCtl_recovering (d k : Nat) (f : Controller → Controller) : (s.onCtl d k f).recovering = s.recovering := rfl
@[simp] theorem State.onCtl_prompts (d k : Nat) (f : Controller → Controller) : (s.onCtl d k f).prompts = s.prompts := rfl
@[simp] theorem State.onCtl_powerAt (d k : Nat) (f : Controller → Controller) : (s.onCtl d k f).powerAt = s.powerAt := rfl
@[simp] theorem State.onCtl_dutyAt (d k : Nat) (f : Controller → Controller) : (s.onCtl d k f).dutyAt = s.dutyAt := rfl
@[simp] theorem State.onCtl_clusterUsed (d k : Nat) (f : Controller → Controller) : (s.onCtl d k f).clusterUsed = s.clusterUsed := rfl
@[simp] theorem State.onCtl_energyAt (d k : Nat) (f : Controller → Controller) : (s.onCtl d k f).energyAt = s.energyAt := rfl
@[simp] theorem State.onCtl_energyBytes (d k : Nat) (f : Controller → Controller) : (s.onCtl d k f).energyBytes = s.energyBytes := rfl
@[simp] theorem State.onCtl_completions (d k : Nat) (f : Controller → Controller) : (s.onCtl d k f).completions = s.completions := rfl
@[simp] theorem State.onCtl_relockAt (d k : Nat) (f : Controller → Controller) : (s.onCtl d k f).relockAt = s.relockAt := rfl
@[simp] theorem State.onCtl_goodWindows (d k : Nat) (f : Controller → Controller) : (s.onCtl d k f).goodWindows = s.goodWindows := rfl
@[simp] theorem State.onCtl_standbyLost (d k : Nat) (f : Controller → Controller) : (s.onCtl d k f).standbyLost = s.standbyLost := rfl
@[simp] theorem State.onCtl_arithMhz (d k : Nat) (f : Controller → Controller) : (s.onCtl d k f).arithMhz = s.arithMhz := rfl
@[simp] theorem State.onCtl_ratioMode (d k : Nat) (f : Controller → Controller) : (s.onCtl d k f).ratioMode = s.ratioMode := rfl
@[simp] theorem State.onCtl_watts (d k : Nat) (f : Controller → Controller) : (s.onCtl d k f).watts = s.watts := rfl
@[simp] theorem State.onCtl_floorRun (d k : Nat) (f : Controller → Controller) : (s.onCtl d k f).floorRun = s.floorRun := rfl
@[simp] theorem State.onCtl_clustersOff (d k : Nat) (f : Controller → Controller) : (s.onCtl d k f).clustersOff = s.clustersOff := rfl
@[simp] theorem State.onCtl_alertSince (d k : Nat) (f : Controller → Controller) : (s.onCtl d k f).alertSince = s.alertSince := rfl
@[simp] theorem State.onCtl_life (d k : Nat) (f : Controller → Controller) : (s.onCtl d k f).life = s.life := rfl
@[simp] theorem State.onCtl_resetLow (d k : Nat) (f : Controller → Controller) : (s.onCtl d k f).resetLow = s.resetLow := rfl
@[simp] theorem State.onCtl_strap (d k : Nat) (f : Controller → Controller) : (s.onCtl d k f).strap = s.strap := rfl
@[simp] theorem State.onCtl_hot (d k : Nat) (f : Controller → Controller) : (s.onCtl d k f).hot = s.hot := rfl
@[simp] theorem State.onCtl_startDue (d k : Nat) (f : Controller → Controller) : (s.onCtl d k f).startDue = s.startDue := rfl
@[simp] theorem State.onCtl_startAt (d k : Nat) (f : Controller → Controller) : (s.onCtl d k f).startAt = s.startAt := rfl
@[simp] theorem State.onCtl_stageAt (d k : Nat) (f : Controller → Controller) : (s.onCtl d k f).stageAt = s.stageAt := rfl
@[simp] theorem State.onCtl_lastDuration (d k : Nat) (f : Controller → Controller) : (s.onCtl d k f).lastDuration = s.lastDuration := rfl
@[simp] theorem State.onCtl_startArea (d k : Nat) (f : Controller → Controller) : (s.onCtl d k f).startArea = s.startArea := rfl
@[simp] theorem State.onCtl_storeStart (d k : Nat) (f : Controller → Controller) : (s.onCtl d k f).storeStart = s.storeStart := rfl
@[simp] theorem State.onCtl_storeSettings (d k : Nat) (f : Controller → Controller) : (s.onCtl d k f).storeSettings = s.storeSettings := rfl
@[simp] theorem State.onCtl_chosen (d k : Nat) (f : Controller → Controller) : (s.onCtl d k f).chosen = s.chosen := rfl
@[simp] theorem State.onCtl_recovery (d k : Nat) (f : Controller → Controller) : (s.onCtl d k f).recovery = s.recovery := rfl
@[simp] theorem State.onCtl_sv1 (d k : Nat) (f : Controller → Controller) : (s.onCtl d k f).sv1 = s.sv1 := rfl
@[simp] theorem State.onCtl_sv0Failed (d k : Nat) (f : Controller → Controller) : (s.onCtl d k f).sv0Failed = s.sv0Failed := rfl
@[simp] theorem State.onCtl_heartbeatAt (d k : Nat) (f : Controller → Controller) : (s.onCtl d k f).heartbeatAt = s.heartbeatAt := rfl
@[simp] theorem State.onCtl_flash (d k : Nat) (f : Controller → Controller) : (s.onCtl d k f).flash = s.flash := rfl
@[simp] theorem State.onCtl_running (d k : Nat) (f : Controller → Controller) : (s.onCtl d k f).running = s.running := rfl
@[simp] theorem State.onCtl_flashWrite (d k : Nat) (f : Controller → Controller) : (s.onCtl d k f).flashWrite = s.flashWrite := rfl
@[simp] theorem State.onCtl_staged (d k : Nat) (f : Controller → Controller) : (s.onCtl d k f).staged = s.staged := rfl
@[simp] theorem State.onCtl_completeAt (d k : Nat) (f : Controller → Controller) : (s.onCtl d k f).completeAt = s.completeAt := rfl
@[simp] theorem State.onCtl_enumAt (d k : Nat) (f : Controller → Controller) : (s.onCtl d k f).enumAt = s.enumAt := rfl
@[simp] theorem State.onCtl_reclaimDue (d k : Nat) (f : Controller → Controller) : (s.onCtl d k f).reclaimDue = s.reclaimDue := rfl
@[simp] theorem State.onCtl_foreign (d k : Nat) (f : Controller → Controller) : (s.onCtl d k f).foreign = s.foreign := rfl
@[simp] theorem State.onCtl_addrRecord (d k : Nat) (f : Controller → Controller) : (s.onCtl d k f).addrRecord = s.addrRecord := rfl
@[simp] theorem State.onCtl_announcedAt (d k : Nat) (f : Controller → Controller) : (s.onCtl d k f).announcedAt = s.announcedAt := rfl
@[simp] theorem State.onCtl_adverts (d k : Nat) (f : Controller → Controller) : (s.onCtl d k f).adverts = s.adverts := rfl
@[simp] theorem State.onCtl_rasAt (d k : Nat) (f : Controller → Controller) : (s.onCtl d k f).rasAt = s.rasAt := rfl
@[simp] theorem State.onCtl_rasSeen (d k : Nat) (f : Controller → Controller) : (s.onCtl d k f).rasSeen = s.rasSeen := rfl
@[simp] theorem State.onCtl_rasCorr (d k : Nat) (f : Controller → Controller) : (s.onCtl d k f).rasCorr = s.rasCorr := rfl
@[simp] theorem State.onCtl_uncRows (d k : Nat) (f : Controller → Controller) : (s.onCtl d k f).uncRows = s.uncRows := rfl
@[simp] theorem State.onCtl_rasMet (d k : Nat) (f : Controller → Controller) : (s.onCtl d k f).rasMet = s.rasMet := rfl
@[simp] theorem State.onCtl_marked (d k : Nat) (f : Controller → Controller) : (s.onCtl d k f).marked = s.marked := rfl
@[simp] theorem State.onCtl_retireDue (d k : Nat) (f : Controller → Controller) : (s.onCtl d k f).retireDue = s.retireDue := rfl
@[simp] theorem State.onCtl_repairs (d k : Nat) (f : Controller → Controller) : (s.onCtl d k f).repairs = s.repairs := rfl
@[simp] theorem State.onCtl_verifyAt (d k : Nat) (f : Controller → Controller) : (s.onCtl d k f).verifyAt = s.verifyAt := rfl

@[simp] theorem State.setRun_pending (d g : Nat) (r : StackRun) : (s.setRun d g r).pending = s.pending := rfl
@[simp] theorem State.setRun_now (d g : Nat) (r : StackRun) : (s.setRun d g r).now = s.now := rfl
@[simp] theorem State.setRun_coreClock (d g : Nat) (r : StackRun) : (s.setRun d g r).coreClock = s.coreClock := rfl
@[simp] theorem State.setRun_fresh (d g : Nat) (r : StackRun) : (s.setRun d g r).fresh = s.fresh := rfl
@[simp] theorem State.setRun_grade (d g : Nat) (r : StackRun) : (s.setRun d g r).grade = s.grade := rfl
@[simp] theorem State.setRun_access (d g : Nat) (r : StackRun) : (s.setRun d g r).access = s.access := rfl
@[simp] theorem State.setRun_regs (d g : Nat) (r : StackRun) : (s.setRun d g r).regs = s.regs := rfl
@[simp] theorem State.setRun_latest (d g : Nat) (r : StackRun) : (s.setRun d g r).latest = s.latest := rfl
@[simp] theorem State.setRun_mem (d g : Nat) (r : StackRun) : (s.setRun d g r).mem = s.mem := rfl
@[simp] theorem State.setRun_cores (d g : Nat) (r : StackRun) : (s.setRun d g r).cores = s.cores := rfl
@[simp] theorem State.setRun_flagOps (d g : Nat) (r : StackRun) : (s.setRun d g r).flagOps = s.flagOps := rfl
@[simp] theorem State.setRun_reqs (d g : Nat) (r : StackRun) : (s.setRun d g r).reqs = s.reqs := rfl
@[simp] theorem State.setRun_nextId (d g : Nat) (r : StackRun) : (s.setRun d g r).nextId = s.nextId := rfl
@[simp] theorem State.setRun_ctls (d g : Nat) (r : StackRun) : (s.setRun d g r).ctls = s.ctls := rfl
@[simp] theorem State.setRun_wcache (d g : Nat) (r : StackRun) : (s.setRun d g r).wcache = s.wcache := rfl
@[simp] theorem State.setRun_patrol (d g : Nat) (r : StackRun) : (s.setRun d g r).patrol = s.patrol := rfl
@[simp] theorem State.setRun_scrubs (d g : Nat) (r : StackRun) : (s.setRun d g r).scrubs = s.scrubs := rfl
@[simp] theorem State.setRun_frames (d g : Nat) (r : StackRun) : (s.setRun d g r).frames = s.frames := rfl
@[simp] theorem State.setRun_extents (d g : Nat) (r : StackRun) : (s.setRun d g r).extents = s.extents := rfl
@[simp] theorem State.setRun_pulses (d g : Nat) (r : StackRun) : (s.setRun d g r).pulses = s.pulses := rfl
@[simp] theorem State.setRun_rawLines (d g : Nat) (r : StackRun) : (s.setRun d g r).rawLines = s.rawLines := rfl
@[simp] theorem State.setRun_filteredHigh (d g : Nat) (r : StackRun) : (s.setRun d g r).filteredHigh = s.filteredHigh := rfl
@[simp] theorem State.setRun_inject (d g : Nat) (r : StackRun) : (s.setRun d g r).inject = s.inject := rfl
@[simp] theorem State.setRun_banks (d g : Nat) (r : StackRun) : (s.setRun d g r).banks = s.banks := rfl
@[simp] theorem State.setRun_upsets (d g : Nat) (r : StackRun) : (s.setRun d g r).upsets = s.upsets := rfl
@[simp] theorem State.setRun_retired (d g : Nat) (r : StackRun) : (s.setRun d g r).retired = s.retired := rfl
@[simp] theorem State.setRun_absent (d g : Nat) (r : StackRun) : (s.setRun d g r).absent = s.absent := rfl
@[simp] theorem State.setRun_perturbed (d g : Nat) (r : StackRun) : (s.setRun d g r).perturbed = s.perturbed := rfl
@[simp] theorem State.setRun_pertOld (d g : Nat) (r : StackRun) : (s.setRun d g r).pertOld = s.pertOld := rfl
@[simp] theorem State.setRun_conns (d g : Nat) (r : StackRun) : (s.setRun d g r).conns = s.conns := rfl
@[simp] theorem State.setRun_egress (d g : Nat) (r : StackRun) : (s.setRun d g r).egress = s.egress := rfl
@[simp] theorem State.setRun_arbiters (d g : Nat) (r : StackRun) : (s.setRun d g r).arbiters = s.arbiters := rfl
@[simp] theorem State.setRun_peerDue (d g : Nat) (r : StackRun) : (s.setRun d g r).peerDue = s.peerDue := rfl
@[simp] theorem State.setRun_spent (d g : Nat) (r : StackRun) : (s.setRun d g r).spent = s.spent := rfl
@[simp] theorem State.setRun_freed (d g : Nat) (r : StackRun) : (s.setRun d g r).freed = s.freed := rfl
@[simp] theorem State.setRun_wire (d g : Nat) (r : StackRun) : (s.setRun d g r).wire = s.wire := rfl
@[simp] theorem State.setRun_training (d g : Nat) (r : StackRun) : (s.setRun d g r).training = s.training := rfl
@[simp] theorem State.setRun_fecRecent (d g : Nat) (r : StackRun) : (s.setRun d g r).fecRecent = s.fecRecent := rfl
@[simp] theorem State.setRun_packing (d g : Nat) (r : StackRun) : (s.setRun d g r).packing = s.packing := rfl
@[simp] theorem State.setRun_replays (d g : Nat) (r : StackRun) : (s.setRun d g r).replays = s.replays := rfl
@[simp] theorem State.setRun_welts (d g : Nat) (r : StackRun) : (s.setRun d g r).welts = s.welts := rfl
@[simp] theorem State.setRun_pools (d g : Nat) (r : StackRun) : (s.setRun d g r).pools = s.pools := rfl
@[simp] theorem State.setRun_linkHeld (d g : Nat) (r : StackRun) : (s.setRun d g r).linkHeld = s.linkHeld := rfl
@[simp] theorem State.setRun_linkSpares (d g : Nat) (r : StackRun) : (s.setRun d g r).linkSpares = s.linkSpares := rfl
@[simp] theorem State.setRun_linkBuf (d g : Nat) (r : StackRun) : (s.setRun d g r).linkBuf = s.linkBuf := rfl
@[simp] theorem State.setRun_colls (d g : Nat) (r : StackRun) : (s.setRun d g r).colls = s.colls := rfl
@[simp] theorem State.setRun_collCounts (d g : Nat) (r : StackRun) : (s.setRun d g r).collCounts = s.collCounts := rfl
@[simp] theorem State.setRun_cached (d g : Nat) (r : StackRun) : (s.setRun d g r).cached = s.cached := rfl
@[simp] theorem State.setRun_writeBacks (d g : Nat) (r : StackRun) : (s.setRun d g r).writeBacks = s.writeBacks := rfl
@[simp] theorem State.setRun_cacheUpsets (d g : Nat) (r : StackRun) : (s.setRun d g r).cacheUpsets = s.cacheUpsets := rfl
@[simp] theorem State.setRun_hcCaches (d g : Nat) (r : StackRun) : (s.setRun d g r).hcCaches = s.hcCaches := rfl
@[simp] theorem State.setRun_hcReserved (d g : Nat) (r : StackRun) : (s.setRun d g r).hcReserved = s.hcReserved := rfl
@[simp] theorem State.setRun_codeSlots (d g : Nat) (r : StackRun) : (s.setRun d g r).codeSlots = s.codeSlots := rfl
@[simp] theorem State.setRun_extRuns (d g : Nat) (r : StackRun) : (s.setRun d g r).extRuns = s.extRuns := rfl
@[simp] theorem State.setRun_extDone (d g : Nat) (r : StackRun) : (s.setRun d g r).extDone = s.extDone := rfl
@[simp] theorem State.setRun_eyeCommits (d g : Nat) (r : StackRun) : (s.setRun d g r).eyeCommits = s.eyeCommits := rfl
@[simp] theorem State.setRun_eyeExpired (d g : Nat) (r : StackRun) : (s.setRun d g r).eyeExpired = s.eyeExpired := rfl
@[simp] theorem State.setRun_eyeWrites (d g : Nat) (r : StackRun) : (s.setRun d g r).eyeWrites = s.eyeWrites := rfl
@[simp] theorem State.setRun_claimedBy (d g : Nat) (r : StackRun) : (s.setRun d g r).claimedBy = s.claimedBy := rfl
@[simp] theorem State.setRun_lastClaim (d g : Nat) (r : StackRun) : (s.setRun d g r).lastClaim = s.lastClaim := rfl
@[simp] theorem State.setRun_roundRobin (d g : Nat) (r : StackRun) : (s.setRun d g r).roundRobin = s.roundRobin := rfl
@[simp] theorem State.setRun_rrSince (d g : Nat) (r : StackRun) : (s.setRun d g r).rrSince = s.rrSince := rfl
@[simp] theorem State.setRun_rangeDue (d g : Nat) (r : StackRun) : (s.setRun d g r).rangeDue = s.rangeDue := rfl
@[simp] theorem State.setRun_rangeOwner (d g : Nat) (r : StackRun) : (s.setRun d g r).rangeOwner = s.rangeOwner := rfl
@[simp] theorem State.setRun_hostRx (d g : Nat) (r : StackRun) : (s.setRun d g r).hostRx = s.hostRx := rfl
@[simp] theorem State.setRun_sessions (d g : Nat) (r : StackRun) : (s.setRun d g r).sessions = s.sessions := rfl
@[simp] theorem State.setRun_hostWire (d g : Nat) (r : StackRun) : (s.setRun d g r).hostWire = s.hostWire := rfl
@[simp] theorem State.setRun_mgmtKeys (d g : Nat) (r : StackRun) : (s.setRun d g r).mgmtKeys = s.mgmtKeys := rfl
@[simp] theorem State.setRun_leaseKeys (d g : Nat) (r : StackRun) : (s.setRun d g r).leaseKeys = s.leaseKeys := rfl
@[simp] theorem State.setRun_owned (d g : Nat) (r : StackRun) : (s.setRun d g r).owned = s.owned := rfl
@[simp] theorem State.setRun_quiesces (d g : Nat) (r : StackRun) : (s.setRun d g r).quiesces = s.quiesces := rfl
@[simp] theorem State.setRun_binding (d g : Nat) (r : StackRun) : (s.setRun d g r).binding = s.binding := rfl
@[simp] theorem State.setRun_monitor (d g : Nat) (r : StackRun) : (s.setRun d g r).monitor = s.monitor := rfl
@[simp] theorem State.setRun_monitorAt (d g : Nat) (r : StackRun) : (s.setRun d g r).monitorAt = s.monitorAt := rfl
@[simp] theorem State.setRun_snapOp (d g : Nat) (r : StackRun) : (s.setRun d g r).snapOp = s.snapOp := rfl
@[simp] theorem State.setRun_stepEnds (d g : Nat) (r : StackRun) : (s.setRun d g r).stepEnds = s.stepEnds := rfl
@[simp] theorem State.setRun_withdrawn (d g : Nat) (r : StackRun) : (s.setRun d g r).withdrawn = s.withdrawn := rfl
@[simp] theorem State.setRun_stageGib (d g : Nat) (r : StackRun) : (s.setRun d g r).stageGib = s.stageGib := rfl
@[simp] theorem State.setRun_snaps (d g : Nat) (r : StackRun) : (s.setRun d g r).snaps = s.snaps := rfl
@[simp] theorem State.setRun_snapCount (d g : Nat) (r : StackRun) : (s.setRun d g r).snapCount = s.snapCount := rfl
@[simp] theorem State.setRun_streams (d g : Nat) (r : StackRun) : (s.setRun d g r).streams = s.streams := rfl
@[simp] theorem State.setRun_records (d g : Nat) (r : StackRun) : (s.setRun d g r).records = s.records := rfl
@[simp] theorem State.setRun_leaseBorn (d g : Nat) (r : StackRun) : (s.setRun d g r).leaseBorn = s.leaseBorn := rfl
@[simp] theorem State.setRun_lastSnap (d g : Nat) (r : StackRun) : (s.setRun d g r).lastSnap = s.lastSnap := rfl
@[simp] theorem State.setRun_failures (d g : Nat) (r : StackRun) : (s.setRun d g r).failures = s.failures := rfl
@[simp] theorem State.setRun_recovering (d g : Nat) (r : StackRun) : (s.setRun d g r).recovering = s.recovering := rfl
@[simp] theorem State.setRun_prompts (d g : Nat) (r : StackRun) : (s.setRun d g r).prompts = s.prompts := rfl
@[simp] theorem State.setRun_powerAt (d g : Nat) (r : StackRun) : (s.setRun d g r).powerAt = s.powerAt := rfl
@[simp] theorem State.setRun_dutyAt (d g : Nat) (r : StackRun) : (s.setRun d g r).dutyAt = s.dutyAt := rfl
@[simp] theorem State.setRun_clusterUsed (d g : Nat) (r : StackRun) : (s.setRun d g r).clusterUsed = s.clusterUsed := rfl
@[simp] theorem State.setRun_energyAt (d g : Nat) (r : StackRun) : (s.setRun d g r).energyAt = s.energyAt := rfl
@[simp] theorem State.setRun_energyBytes (d g : Nat) (r : StackRun) : (s.setRun d g r).energyBytes = s.energyBytes := rfl
@[simp] theorem State.setRun_completions (d g : Nat) (r : StackRun) : (s.setRun d g r).completions = s.completions := rfl
@[simp] theorem State.setRun_relockAt (d g : Nat) (r : StackRun) : (s.setRun d g r).relockAt = s.relockAt := rfl
@[simp] theorem State.setRun_goodWindows (d g : Nat) (r : StackRun) : (s.setRun d g r).goodWindows = s.goodWindows := rfl
@[simp] theorem State.setRun_standbyLost (d g : Nat) (r : StackRun) : (s.setRun d g r).standbyLost = s.standbyLost := rfl
@[simp] theorem State.setRun_arithMhz (d g : Nat) (r : StackRun) : (s.setRun d g r).arithMhz = s.arithMhz := rfl
@[simp] theorem State.setRun_ratioMode (d g : Nat) (r : StackRun) : (s.setRun d g r).ratioMode = s.ratioMode := rfl
@[simp] theorem State.setRun_watts (d g : Nat) (r : StackRun) : (s.setRun d g r).watts = s.watts := rfl
@[simp] theorem State.setRun_floorRun (d g : Nat) (r : StackRun) : (s.setRun d g r).floorRun = s.floorRun := rfl
@[simp] theorem State.setRun_clustersOff (d g : Nat) (r : StackRun) : (s.setRun d g r).clustersOff = s.clustersOff := rfl
@[simp] theorem State.setRun_alertSince (d g : Nat) (r : StackRun) : (s.setRun d g r).alertSince = s.alertSince := rfl
@[simp] theorem State.setRun_life (d g : Nat) (r : StackRun) : (s.setRun d g r).life = s.life := rfl
@[simp] theorem State.setRun_resetLow (d g : Nat) (r : StackRun) : (s.setRun d g r).resetLow = s.resetLow := rfl
@[simp] theorem State.setRun_strap (d g : Nat) (r : StackRun) : (s.setRun d g r).strap = s.strap := rfl
@[simp] theorem State.setRun_hot (d g : Nat) (r : StackRun) : (s.setRun d g r).hot = s.hot := rfl
@[simp] theorem State.setRun_startDue (d g : Nat) (r : StackRun) : (s.setRun d g r).startDue = s.startDue := rfl
@[simp] theorem State.setRun_startAt (d g : Nat) (r : StackRun) : (s.setRun d g r).startAt = s.startAt := rfl
@[simp] theorem State.setRun_stageAt (d g : Nat) (r : StackRun) : (s.setRun d g r).stageAt = s.stageAt := rfl
@[simp] theorem State.setRun_lastDuration (d g : Nat) (r : StackRun) : (s.setRun d g r).lastDuration = s.lastDuration := rfl
@[simp] theorem State.setRun_startArea (d g : Nat) (r : StackRun) : (s.setRun d g r).startArea = s.startArea := rfl
@[simp] theorem State.setRun_storeStart (d g : Nat) (r : StackRun) : (s.setRun d g r).storeStart = s.storeStart := rfl
@[simp] theorem State.setRun_storeSettings (d g : Nat) (r : StackRun) : (s.setRun d g r).storeSettings = s.storeSettings := rfl
@[simp] theorem State.setRun_chosen (d g : Nat) (r : StackRun) : (s.setRun d g r).chosen = s.chosen := rfl
@[simp] theorem State.setRun_recovery (d g : Nat) (r : StackRun) : (s.setRun d g r).recovery = s.recovery := rfl
@[simp] theorem State.setRun_sv1 (d g : Nat) (r : StackRun) : (s.setRun d g r).sv1 = s.sv1 := rfl
@[simp] theorem State.setRun_sv0Failed (d g : Nat) (r : StackRun) : (s.setRun d g r).sv0Failed = s.sv0Failed := rfl
@[simp] theorem State.setRun_heartbeatAt (d g : Nat) (r : StackRun) : (s.setRun d g r).heartbeatAt = s.heartbeatAt := rfl
@[simp] theorem State.setRun_flash (d g : Nat) (r : StackRun) : (s.setRun d g r).flash = s.flash := rfl
@[simp] theorem State.setRun_running (d g : Nat) (r : StackRun) : (s.setRun d g r).running = s.running := rfl
@[simp] theorem State.setRun_flashWrite (d g : Nat) (r : StackRun) : (s.setRun d g r).flashWrite = s.flashWrite := rfl
@[simp] theorem State.setRun_staged (d g : Nat) (r : StackRun) : (s.setRun d g r).staged = s.staged := rfl
@[simp] theorem State.setRun_completeAt (d g : Nat) (r : StackRun) : (s.setRun d g r).completeAt = s.completeAt := rfl
@[simp] theorem State.setRun_enumAt (d g : Nat) (r : StackRun) : (s.setRun d g r).enumAt = s.enumAt := rfl
@[simp] theorem State.setRun_reclaimDue (d g : Nat) (r : StackRun) : (s.setRun d g r).reclaimDue = s.reclaimDue := rfl
@[simp] theorem State.setRun_foreign (d g : Nat) (r : StackRun) : (s.setRun d g r).foreign = s.foreign := rfl
@[simp] theorem State.setRun_addrRecord (d g : Nat) (r : StackRun) : (s.setRun d g r).addrRecord = s.addrRecord := rfl
@[simp] theorem State.setRun_announcedAt (d g : Nat) (r : StackRun) : (s.setRun d g r).announcedAt = s.announcedAt := rfl
@[simp] theorem State.setRun_adverts (d g : Nat) (r : StackRun) : (s.setRun d g r).adverts = s.adverts := rfl
@[simp] theorem State.setRun_rasAt (d g : Nat) (r : StackRun) : (s.setRun d g r).rasAt = s.rasAt := rfl
@[simp] theorem State.setRun_rasSeen (d g : Nat) (r : StackRun) : (s.setRun d g r).rasSeen = s.rasSeen := rfl
@[simp] theorem State.setRun_rasCorr (d g : Nat) (r : StackRun) : (s.setRun d g r).rasCorr = s.rasCorr := rfl
@[simp] theorem State.setRun_uncRows (d g : Nat) (r : StackRun) : (s.setRun d g r).uncRows = s.uncRows := rfl
@[simp] theorem State.setRun_rasMet (d g : Nat) (r : StackRun) : (s.setRun d g r).rasMet = s.rasMet := rfl
@[simp] theorem State.setRun_marked (d g : Nat) (r : StackRun) : (s.setRun d g r).marked = s.marked := rfl
@[simp] theorem State.setRun_retireDue (d g : Nat) (r : StackRun) : (s.setRun d g r).retireDue = s.retireDue := rfl
@[simp] theorem State.setRun_repairs (d g : Nat) (r : StackRun) : (s.setRun d g r).repairs = s.repairs := rfl
@[simp] theorem State.setRun_verifyAt (d g : Nat) (r : StackRun) : (s.setRun d g r).verifyAt = s.verifyAt := rfl

@[simp] theorem State.setConn_pending (u v : Nat) (c : Conn) : (s.setConn u v c).pending = s.pending := rfl
@[simp] theorem State.setConn_now (u v : Nat) (c : Conn) : (s.setConn u v c).now = s.now := rfl
@[simp] theorem State.setConn_coreClock (u v : Nat) (c : Conn) : (s.setConn u v c).coreClock = s.coreClock := rfl
@[simp] theorem State.setConn_fresh (u v : Nat) (c : Conn) : (s.setConn u v c).fresh = s.fresh := rfl
@[simp] theorem State.setConn_grade (u v : Nat) (c : Conn) : (s.setConn u v c).grade = s.grade := rfl
@[simp] theorem State.setConn_access (u v : Nat) (c : Conn) : (s.setConn u v c).access = s.access := rfl
@[simp] theorem State.setConn_regs (u v : Nat) (c : Conn) : (s.setConn u v c).regs = s.regs := rfl
@[simp] theorem State.setConn_latest (u v : Nat) (c : Conn) : (s.setConn u v c).latest = s.latest := rfl
@[simp] theorem State.setConn_mem (u v : Nat) (c : Conn) : (s.setConn u v c).mem = s.mem := rfl
@[simp] theorem State.setConn_cores (u v : Nat) (c : Conn) : (s.setConn u v c).cores = s.cores := rfl
@[simp] theorem State.setConn_flagOps (u v : Nat) (c : Conn) : (s.setConn u v c).flagOps = s.flagOps := rfl
@[simp] theorem State.setConn_reqs (u v : Nat) (c : Conn) : (s.setConn u v c).reqs = s.reqs := rfl
@[simp] theorem State.setConn_nextId (u v : Nat) (c : Conn) : (s.setConn u v c).nextId = s.nextId := rfl
@[simp] theorem State.setConn_ctls (u v : Nat) (c : Conn) : (s.setConn u v c).ctls = s.ctls := rfl
@[simp] theorem State.setConn_stackRuns (u v : Nat) (c : Conn) : (s.setConn u v c).stackRuns = s.stackRuns := rfl
@[simp] theorem State.setConn_wcache (u v : Nat) (c : Conn) : (s.setConn u v c).wcache = s.wcache := rfl
@[simp] theorem State.setConn_patrol (u v : Nat) (c : Conn) : (s.setConn u v c).patrol = s.patrol := rfl
@[simp] theorem State.setConn_scrubs (u v : Nat) (c : Conn) : (s.setConn u v c).scrubs = s.scrubs := rfl
@[simp] theorem State.setConn_frames (u v : Nat) (c : Conn) : (s.setConn u v c).frames = s.frames := rfl
@[simp] theorem State.setConn_extents (u v : Nat) (c : Conn) : (s.setConn u v c).extents = s.extents := rfl
@[simp] theorem State.setConn_pulses (u v : Nat) (c : Conn) : (s.setConn u v c).pulses = s.pulses := rfl
@[simp] theorem State.setConn_rawLines (u v : Nat) (c : Conn) : (s.setConn u v c).rawLines = s.rawLines := rfl
@[simp] theorem State.setConn_filteredHigh (u v : Nat) (c : Conn) : (s.setConn u v c).filteredHigh = s.filteredHigh := rfl
@[simp] theorem State.setConn_inject (u v : Nat) (c : Conn) : (s.setConn u v c).inject = s.inject := rfl
@[simp] theorem State.setConn_banks (u v : Nat) (c : Conn) : (s.setConn u v c).banks = s.banks := rfl
@[simp] theorem State.setConn_upsets (u v : Nat) (c : Conn) : (s.setConn u v c).upsets = s.upsets := rfl
@[simp] theorem State.setConn_retired (u v : Nat) (c : Conn) : (s.setConn u v c).retired = s.retired := rfl
@[simp] theorem State.setConn_absent (u v : Nat) (c : Conn) : (s.setConn u v c).absent = s.absent := rfl
@[simp] theorem State.setConn_perturbed (u v : Nat) (c : Conn) : (s.setConn u v c).perturbed = s.perturbed := rfl
@[simp] theorem State.setConn_pertOld (u v : Nat) (c : Conn) : (s.setConn u v c).pertOld = s.pertOld := rfl
@[simp] theorem State.setConn_egress (u v : Nat) (c : Conn) : (s.setConn u v c).egress = s.egress := rfl
@[simp] theorem State.setConn_arbiters (u v : Nat) (c : Conn) : (s.setConn u v c).arbiters = s.arbiters := rfl
@[simp] theorem State.setConn_peerDue (u v : Nat) (c : Conn) : (s.setConn u v c).peerDue = s.peerDue := rfl
@[simp] theorem State.setConn_spent (u v : Nat) (c : Conn) : (s.setConn u v c).spent = s.spent := rfl
@[simp] theorem State.setConn_freed (u v : Nat) (c : Conn) : (s.setConn u v c).freed = s.freed := rfl
@[simp] theorem State.setConn_wire (u v : Nat) (c : Conn) : (s.setConn u v c).wire = s.wire := rfl
@[simp] theorem State.setConn_training (u v : Nat) (c : Conn) : (s.setConn u v c).training = s.training := rfl
@[simp] theorem State.setConn_fecRecent (u v : Nat) (c : Conn) : (s.setConn u v c).fecRecent = s.fecRecent := rfl
@[simp] theorem State.setConn_packing (u v : Nat) (c : Conn) : (s.setConn u v c).packing = s.packing := rfl
@[simp] theorem State.setConn_replays (u v : Nat) (c : Conn) : (s.setConn u v c).replays = s.replays := rfl
@[simp] theorem State.setConn_welts (u v : Nat) (c : Conn) : (s.setConn u v c).welts = s.welts := rfl
@[simp] theorem State.setConn_pools (u v : Nat) (c : Conn) : (s.setConn u v c).pools = s.pools := rfl
@[simp] theorem State.setConn_linkHeld (u v : Nat) (c : Conn) : (s.setConn u v c).linkHeld = s.linkHeld := rfl
@[simp] theorem State.setConn_linkSpares (u v : Nat) (c : Conn) : (s.setConn u v c).linkSpares = s.linkSpares := rfl
@[simp] theorem State.setConn_linkBuf (u v : Nat) (c : Conn) : (s.setConn u v c).linkBuf = s.linkBuf := rfl
@[simp] theorem State.setConn_colls (u v : Nat) (c : Conn) : (s.setConn u v c).colls = s.colls := rfl
@[simp] theorem State.setConn_collCounts (u v : Nat) (c : Conn) : (s.setConn u v c).collCounts = s.collCounts := rfl
@[simp] theorem State.setConn_cached (u v : Nat) (c : Conn) : (s.setConn u v c).cached = s.cached := rfl
@[simp] theorem State.setConn_writeBacks (u v : Nat) (c : Conn) : (s.setConn u v c).writeBacks = s.writeBacks := rfl
@[simp] theorem State.setConn_cacheUpsets (u v : Nat) (c : Conn) : (s.setConn u v c).cacheUpsets = s.cacheUpsets := rfl
@[simp] theorem State.setConn_hcCaches (u v : Nat) (c : Conn) : (s.setConn u v c).hcCaches = s.hcCaches := rfl
@[simp] theorem State.setConn_hcReserved (u v : Nat) (c : Conn) : (s.setConn u v c).hcReserved = s.hcReserved := rfl
@[simp] theorem State.setConn_codeSlots (u v : Nat) (c : Conn) : (s.setConn u v c).codeSlots = s.codeSlots := rfl
@[simp] theorem State.setConn_extRuns (u v : Nat) (c : Conn) : (s.setConn u v c).extRuns = s.extRuns := rfl
@[simp] theorem State.setConn_extDone (u v : Nat) (c : Conn) : (s.setConn u v c).extDone = s.extDone := rfl
@[simp] theorem State.setConn_eyeCommits (u v : Nat) (c : Conn) : (s.setConn u v c).eyeCommits = s.eyeCommits := rfl
@[simp] theorem State.setConn_eyeExpired (u v : Nat) (c : Conn) : (s.setConn u v c).eyeExpired = s.eyeExpired := rfl
@[simp] theorem State.setConn_eyeWrites (u v : Nat) (c : Conn) : (s.setConn u v c).eyeWrites = s.eyeWrites := rfl
@[simp] theorem State.setConn_claimedBy (u v : Nat) (c : Conn) : (s.setConn u v c).claimedBy = s.claimedBy := rfl
@[simp] theorem State.setConn_lastClaim (u v : Nat) (c : Conn) : (s.setConn u v c).lastClaim = s.lastClaim := rfl
@[simp] theorem State.setConn_roundRobin (u v : Nat) (c : Conn) : (s.setConn u v c).roundRobin = s.roundRobin := rfl
@[simp] theorem State.setConn_rrSince (u v : Nat) (c : Conn) : (s.setConn u v c).rrSince = s.rrSince := rfl
@[simp] theorem State.setConn_rangeDue (u v : Nat) (c : Conn) : (s.setConn u v c).rangeDue = s.rangeDue := rfl
@[simp] theorem State.setConn_rangeOwner (u v : Nat) (c : Conn) : (s.setConn u v c).rangeOwner = s.rangeOwner := rfl
@[simp] theorem State.setConn_hostRx (u v : Nat) (c : Conn) : (s.setConn u v c).hostRx = s.hostRx := rfl
@[simp] theorem State.setConn_sessions (u v : Nat) (c : Conn) : (s.setConn u v c).sessions = s.sessions := rfl
@[simp] theorem State.setConn_hostWire (u v : Nat) (c : Conn) : (s.setConn u v c).hostWire = s.hostWire := rfl
@[simp] theorem State.setConn_mgmtKeys (u v : Nat) (c : Conn) : (s.setConn u v c).mgmtKeys = s.mgmtKeys := rfl
@[simp] theorem State.setConn_leaseKeys (u v : Nat) (c : Conn) : (s.setConn u v c).leaseKeys = s.leaseKeys := rfl
@[simp] theorem State.setConn_owned (u v : Nat) (c : Conn) : (s.setConn u v c).owned = s.owned := rfl
@[simp] theorem State.setConn_quiesces (u v : Nat) (c : Conn) : (s.setConn u v c).quiesces = s.quiesces := rfl
@[simp] theorem State.setConn_binding (u v : Nat) (c : Conn) : (s.setConn u v c).binding = s.binding := rfl
@[simp] theorem State.setConn_monitor (u v : Nat) (c : Conn) : (s.setConn u v c).monitor = s.monitor := rfl
@[simp] theorem State.setConn_monitorAt (u v : Nat) (c : Conn) : (s.setConn u v c).monitorAt = s.monitorAt := rfl
@[simp] theorem State.setConn_snapOp (u v : Nat) (c : Conn) : (s.setConn u v c).snapOp = s.snapOp := rfl
@[simp] theorem State.setConn_stepEnds (u v : Nat) (c : Conn) : (s.setConn u v c).stepEnds = s.stepEnds := rfl
@[simp] theorem State.setConn_withdrawn (u v : Nat) (c : Conn) : (s.setConn u v c).withdrawn = s.withdrawn := rfl
@[simp] theorem State.setConn_stageGib (u v : Nat) (c : Conn) : (s.setConn u v c).stageGib = s.stageGib := rfl
@[simp] theorem State.setConn_snaps (u v : Nat) (c : Conn) : (s.setConn u v c).snaps = s.snaps := rfl
@[simp] theorem State.setConn_snapCount (u v : Nat) (c : Conn) : (s.setConn u v c).snapCount = s.snapCount := rfl
@[simp] theorem State.setConn_streams (u v : Nat) (c : Conn) : (s.setConn u v c).streams = s.streams := rfl
@[simp] theorem State.setConn_records (u v : Nat) (c : Conn) : (s.setConn u v c).records = s.records := rfl
@[simp] theorem State.setConn_leaseBorn (u v : Nat) (c : Conn) : (s.setConn u v c).leaseBorn = s.leaseBorn := rfl
@[simp] theorem State.setConn_lastSnap (u v : Nat) (c : Conn) : (s.setConn u v c).lastSnap = s.lastSnap := rfl
@[simp] theorem State.setConn_failures (u v : Nat) (c : Conn) : (s.setConn u v c).failures = s.failures := rfl
@[simp] theorem State.setConn_recovering (u v : Nat) (c : Conn) : (s.setConn u v c).recovering = s.recovering := rfl
@[simp] theorem State.setConn_prompts (u v : Nat) (c : Conn) : (s.setConn u v c).prompts = s.prompts := rfl
@[simp] theorem State.setConn_powerAt (u v : Nat) (c : Conn) : (s.setConn u v c).powerAt = s.powerAt := rfl
@[simp] theorem State.setConn_dutyAt (u v : Nat) (c : Conn) : (s.setConn u v c).dutyAt = s.dutyAt := rfl
@[simp] theorem State.setConn_clusterUsed (u v : Nat) (c : Conn) : (s.setConn u v c).clusterUsed = s.clusterUsed := rfl
@[simp] theorem State.setConn_energyAt (u v : Nat) (c : Conn) : (s.setConn u v c).energyAt = s.energyAt := rfl
@[simp] theorem State.setConn_energyBytes (u v : Nat) (c : Conn) : (s.setConn u v c).energyBytes = s.energyBytes := rfl
@[simp] theorem State.setConn_completions (u v : Nat) (c : Conn) : (s.setConn u v c).completions = s.completions := rfl
@[simp] theorem State.setConn_relockAt (u v : Nat) (c : Conn) : (s.setConn u v c).relockAt = s.relockAt := rfl
@[simp] theorem State.setConn_goodWindows (u v : Nat) (c : Conn) : (s.setConn u v c).goodWindows = s.goodWindows := rfl
@[simp] theorem State.setConn_standbyLost (u v : Nat) (c : Conn) : (s.setConn u v c).standbyLost = s.standbyLost := rfl
@[simp] theorem State.setConn_arithMhz (u v : Nat) (c : Conn) : (s.setConn u v c).arithMhz = s.arithMhz := rfl
@[simp] theorem State.setConn_ratioMode (u v : Nat) (c : Conn) : (s.setConn u v c).ratioMode = s.ratioMode := rfl
@[simp] theorem State.setConn_watts (u v : Nat) (c : Conn) : (s.setConn u v c).watts = s.watts := rfl
@[simp] theorem State.setConn_floorRun (u v : Nat) (c : Conn) : (s.setConn u v c).floorRun = s.floorRun := rfl
@[simp] theorem State.setConn_clustersOff (u v : Nat) (c : Conn) : (s.setConn u v c).clustersOff = s.clustersOff := rfl
@[simp] theorem State.setConn_alertSince (u v : Nat) (c : Conn) : (s.setConn u v c).alertSince = s.alertSince := rfl
@[simp] theorem State.setConn_life (u v : Nat) (c : Conn) : (s.setConn u v c).life = s.life := rfl
@[simp] theorem State.setConn_resetLow (u v : Nat) (c : Conn) : (s.setConn u v c).resetLow = s.resetLow := rfl
@[simp] theorem State.setConn_strap (u v : Nat) (c : Conn) : (s.setConn u v c).strap = s.strap := rfl
@[simp] theorem State.setConn_hot (u v : Nat) (c : Conn) : (s.setConn u v c).hot = s.hot := rfl
@[simp] theorem State.setConn_startDue (u v : Nat) (c : Conn) : (s.setConn u v c).startDue = s.startDue := rfl
@[simp] theorem State.setConn_startAt (u v : Nat) (c : Conn) : (s.setConn u v c).startAt = s.startAt := rfl
@[simp] theorem State.setConn_stageAt (u v : Nat) (c : Conn) : (s.setConn u v c).stageAt = s.stageAt := rfl
@[simp] theorem State.setConn_lastDuration (u v : Nat) (c : Conn) : (s.setConn u v c).lastDuration = s.lastDuration := rfl
@[simp] theorem State.setConn_startArea (u v : Nat) (c : Conn) : (s.setConn u v c).startArea = s.startArea := rfl
@[simp] theorem State.setConn_storeStart (u v : Nat) (c : Conn) : (s.setConn u v c).storeStart = s.storeStart := rfl
@[simp] theorem State.setConn_storeSettings (u v : Nat) (c : Conn) : (s.setConn u v c).storeSettings = s.storeSettings := rfl
@[simp] theorem State.setConn_chosen (u v : Nat) (c : Conn) : (s.setConn u v c).chosen = s.chosen := rfl
@[simp] theorem State.setConn_recovery (u v : Nat) (c : Conn) : (s.setConn u v c).recovery = s.recovery := rfl
@[simp] theorem State.setConn_sv1 (u v : Nat) (c : Conn) : (s.setConn u v c).sv1 = s.sv1 := rfl
@[simp] theorem State.setConn_sv0Failed (u v : Nat) (c : Conn) : (s.setConn u v c).sv0Failed = s.sv0Failed := rfl
@[simp] theorem State.setConn_heartbeatAt (u v : Nat) (c : Conn) : (s.setConn u v c).heartbeatAt = s.heartbeatAt := rfl
@[simp] theorem State.setConn_flash (u v : Nat) (c : Conn) : (s.setConn u v c).flash = s.flash := rfl
@[simp] theorem State.setConn_running (u v : Nat) (c : Conn) : (s.setConn u v c).running = s.running := rfl
@[simp] theorem State.setConn_flashWrite (u v : Nat) (c : Conn) : (s.setConn u v c).flashWrite = s.flashWrite := rfl
@[simp] theorem State.setConn_staged (u v : Nat) (c : Conn) : (s.setConn u v c).staged = s.staged := rfl
@[simp] theorem State.setConn_completeAt (u v : Nat) (c : Conn) : (s.setConn u v c).completeAt = s.completeAt := rfl
@[simp] theorem State.setConn_enumAt (u v : Nat) (c : Conn) : (s.setConn u v c).enumAt = s.enumAt := rfl
@[simp] theorem State.setConn_reclaimDue (u v : Nat) (c : Conn) : (s.setConn u v c).reclaimDue = s.reclaimDue := rfl
@[simp] theorem State.setConn_foreign (u v : Nat) (c : Conn) : (s.setConn u v c).foreign = s.foreign := rfl
@[simp] theorem State.setConn_addrRecord (u v : Nat) (c : Conn) : (s.setConn u v c).addrRecord = s.addrRecord := rfl
@[simp] theorem State.setConn_announcedAt (u v : Nat) (c : Conn) : (s.setConn u v c).announcedAt = s.announcedAt := rfl
@[simp] theorem State.setConn_adverts (u v : Nat) (c : Conn) : (s.setConn u v c).adverts = s.adverts := rfl
@[simp] theorem State.setConn_rasAt (u v : Nat) (c : Conn) : (s.setConn u v c).rasAt = s.rasAt := rfl
@[simp] theorem State.setConn_rasSeen (u v : Nat) (c : Conn) : (s.setConn u v c).rasSeen = s.rasSeen := rfl
@[simp] theorem State.setConn_rasCorr (u v : Nat) (c : Conn) : (s.setConn u v c).rasCorr = s.rasCorr := rfl
@[simp] theorem State.setConn_uncRows (u v : Nat) (c : Conn) : (s.setConn u v c).uncRows = s.uncRows := rfl
@[simp] theorem State.setConn_rasMet (u v : Nat) (c : Conn) : (s.setConn u v c).rasMet = s.rasMet := rfl
@[simp] theorem State.setConn_marked (u v : Nat) (c : Conn) : (s.setConn u v c).marked = s.marked := rfl
@[simp] theorem State.setConn_retireDue (u v : Nat) (c : Conn) : (s.setConn u v c).retireDue = s.retireDue := rfl
@[simp] theorem State.setConn_repairs (u v : Nat) (c : Conn) : (s.setConn u v c).repairs = s.repairs := rfl
@[simp] theorem State.setConn_verifyAt (u v : Nat) (c : Conn) : (s.setConn u v c).verifyAt = s.verifyAt := rfl

@[simp] theorem State.setRx_pending (h : Nat) (x : HostRx) : (s.setRx h x).pending = s.pending := rfl
@[simp] theorem State.setRx_now (h : Nat) (x : HostRx) : (s.setRx h x).now = s.now := rfl
@[simp] theorem State.setRx_coreClock (h : Nat) (x : HostRx) : (s.setRx h x).coreClock = s.coreClock := rfl
@[simp] theorem State.setRx_fresh (h : Nat) (x : HostRx) : (s.setRx h x).fresh = s.fresh := rfl
@[simp] theorem State.setRx_grade (h : Nat) (x : HostRx) : (s.setRx h x).grade = s.grade := rfl
@[simp] theorem State.setRx_access (h : Nat) (x : HostRx) : (s.setRx h x).access = s.access := rfl
@[simp] theorem State.setRx_regs (h : Nat) (x : HostRx) : (s.setRx h x).regs = s.regs := rfl
@[simp] theorem State.setRx_latest (h : Nat) (x : HostRx) : (s.setRx h x).latest = s.latest := rfl
@[simp] theorem State.setRx_mem (h : Nat) (x : HostRx) : (s.setRx h x).mem = s.mem := rfl
@[simp] theorem State.setRx_cores (h : Nat) (x : HostRx) : (s.setRx h x).cores = s.cores := rfl
@[simp] theorem State.setRx_flagOps (h : Nat) (x : HostRx) : (s.setRx h x).flagOps = s.flagOps := rfl
@[simp] theorem State.setRx_reqs (h : Nat) (x : HostRx) : (s.setRx h x).reqs = s.reqs := rfl
@[simp] theorem State.setRx_nextId (h : Nat) (x : HostRx) : (s.setRx h x).nextId = s.nextId := rfl
@[simp] theorem State.setRx_ctls (h : Nat) (x : HostRx) : (s.setRx h x).ctls = s.ctls := rfl
@[simp] theorem State.setRx_stackRuns (h : Nat) (x : HostRx) : (s.setRx h x).stackRuns = s.stackRuns := rfl
@[simp] theorem State.setRx_wcache (h : Nat) (x : HostRx) : (s.setRx h x).wcache = s.wcache := rfl
@[simp] theorem State.setRx_patrol (h : Nat) (x : HostRx) : (s.setRx h x).patrol = s.patrol := rfl
@[simp] theorem State.setRx_scrubs (h : Nat) (x : HostRx) : (s.setRx h x).scrubs = s.scrubs := rfl
@[simp] theorem State.setRx_frames (h : Nat) (x : HostRx) : (s.setRx h x).frames = s.frames := rfl
@[simp] theorem State.setRx_extents (h : Nat) (x : HostRx) : (s.setRx h x).extents = s.extents := rfl
@[simp] theorem State.setRx_pulses (h : Nat) (x : HostRx) : (s.setRx h x).pulses = s.pulses := rfl
@[simp] theorem State.setRx_rawLines (h : Nat) (x : HostRx) : (s.setRx h x).rawLines = s.rawLines := rfl
@[simp] theorem State.setRx_filteredHigh (h : Nat) (x : HostRx) : (s.setRx h x).filteredHigh = s.filteredHigh := rfl
@[simp] theorem State.setRx_inject (h : Nat) (x : HostRx) : (s.setRx h x).inject = s.inject := rfl
@[simp] theorem State.setRx_banks (h : Nat) (x : HostRx) : (s.setRx h x).banks = s.banks := rfl
@[simp] theorem State.setRx_upsets (h : Nat) (x : HostRx) : (s.setRx h x).upsets = s.upsets := rfl
@[simp] theorem State.setRx_retired (h : Nat) (x : HostRx) : (s.setRx h x).retired = s.retired := rfl
@[simp] theorem State.setRx_absent (h : Nat) (x : HostRx) : (s.setRx h x).absent = s.absent := rfl
@[simp] theorem State.setRx_perturbed (h : Nat) (x : HostRx) : (s.setRx h x).perturbed = s.perturbed := rfl
@[simp] theorem State.setRx_pertOld (h : Nat) (x : HostRx) : (s.setRx h x).pertOld = s.pertOld := rfl
@[simp] theorem State.setRx_conns (h : Nat) (x : HostRx) : (s.setRx h x).conns = s.conns := rfl
@[simp] theorem State.setRx_egress (h : Nat) (x : HostRx) : (s.setRx h x).egress = s.egress := rfl
@[simp] theorem State.setRx_arbiters (h : Nat) (x : HostRx) : (s.setRx h x).arbiters = s.arbiters := rfl
@[simp] theorem State.setRx_peerDue (h : Nat) (x : HostRx) : (s.setRx h x).peerDue = s.peerDue := rfl
@[simp] theorem State.setRx_spent (h : Nat) (x : HostRx) : (s.setRx h x).spent = s.spent := rfl
@[simp] theorem State.setRx_freed (h : Nat) (x : HostRx) : (s.setRx h x).freed = s.freed := rfl
@[simp] theorem State.setRx_wire (h : Nat) (x : HostRx) : (s.setRx h x).wire = s.wire := rfl
@[simp] theorem State.setRx_training (h : Nat) (x : HostRx) : (s.setRx h x).training = s.training := rfl
@[simp] theorem State.setRx_fecRecent (h : Nat) (x : HostRx) : (s.setRx h x).fecRecent = s.fecRecent := rfl
@[simp] theorem State.setRx_packing (h : Nat) (x : HostRx) : (s.setRx h x).packing = s.packing := rfl
@[simp] theorem State.setRx_replays (h : Nat) (x : HostRx) : (s.setRx h x).replays = s.replays := rfl
@[simp] theorem State.setRx_welts (h : Nat) (x : HostRx) : (s.setRx h x).welts = s.welts := rfl
@[simp] theorem State.setRx_pools (h : Nat) (x : HostRx) : (s.setRx h x).pools = s.pools := rfl
@[simp] theorem State.setRx_linkHeld (h : Nat) (x : HostRx) : (s.setRx h x).linkHeld = s.linkHeld := rfl
@[simp] theorem State.setRx_linkSpares (h : Nat) (x : HostRx) : (s.setRx h x).linkSpares = s.linkSpares := rfl
@[simp] theorem State.setRx_linkBuf (h : Nat) (x : HostRx) : (s.setRx h x).linkBuf = s.linkBuf := rfl
@[simp] theorem State.setRx_colls (h : Nat) (x : HostRx) : (s.setRx h x).colls = s.colls := rfl
@[simp] theorem State.setRx_collCounts (h : Nat) (x : HostRx) : (s.setRx h x).collCounts = s.collCounts := rfl
@[simp] theorem State.setRx_cached (h : Nat) (x : HostRx) : (s.setRx h x).cached = s.cached := rfl
@[simp] theorem State.setRx_writeBacks (h : Nat) (x : HostRx) : (s.setRx h x).writeBacks = s.writeBacks := rfl
@[simp] theorem State.setRx_cacheUpsets (h : Nat) (x : HostRx) : (s.setRx h x).cacheUpsets = s.cacheUpsets := rfl
@[simp] theorem State.setRx_hcCaches (h : Nat) (x : HostRx) : (s.setRx h x).hcCaches = s.hcCaches := rfl
@[simp] theorem State.setRx_hcReserved (h : Nat) (x : HostRx) : (s.setRx h x).hcReserved = s.hcReserved := rfl
@[simp] theorem State.setRx_codeSlots (h : Nat) (x : HostRx) : (s.setRx h x).codeSlots = s.codeSlots := rfl
@[simp] theorem State.setRx_extRuns (h : Nat) (x : HostRx) : (s.setRx h x).extRuns = s.extRuns := rfl
@[simp] theorem State.setRx_extDone (h : Nat) (x : HostRx) : (s.setRx h x).extDone = s.extDone := rfl
@[simp] theorem State.setRx_eyeCommits (h : Nat) (x : HostRx) : (s.setRx h x).eyeCommits = s.eyeCommits := rfl
@[simp] theorem State.setRx_eyeExpired (h : Nat) (x : HostRx) : (s.setRx h x).eyeExpired = s.eyeExpired := rfl
@[simp] theorem State.setRx_eyeWrites (h : Nat) (x : HostRx) : (s.setRx h x).eyeWrites = s.eyeWrites := rfl
@[simp] theorem State.setRx_claimedBy (h : Nat) (x : HostRx) : (s.setRx h x).claimedBy = s.claimedBy := rfl
@[simp] theorem State.setRx_lastClaim (h : Nat) (x : HostRx) : (s.setRx h x).lastClaim = s.lastClaim := rfl
@[simp] theorem State.setRx_roundRobin (h : Nat) (x : HostRx) : (s.setRx h x).roundRobin = s.roundRobin := rfl
@[simp] theorem State.setRx_rrSince (h : Nat) (x : HostRx) : (s.setRx h x).rrSince = s.rrSince := rfl
@[simp] theorem State.setRx_rangeDue (h : Nat) (x : HostRx) : (s.setRx h x).rangeDue = s.rangeDue := rfl
@[simp] theorem State.setRx_rangeOwner (h : Nat) (x : HostRx) : (s.setRx h x).rangeOwner = s.rangeOwner := rfl
@[simp] theorem State.setRx_sessions (h : Nat) (x : HostRx) : (s.setRx h x).sessions = s.sessions := rfl
@[simp] theorem State.setRx_hostWire (h : Nat) (x : HostRx) : (s.setRx h x).hostWire = s.hostWire := rfl
@[simp] theorem State.setRx_mgmtKeys (h : Nat) (x : HostRx) : (s.setRx h x).mgmtKeys = s.mgmtKeys := rfl
@[simp] theorem State.setRx_leaseKeys (h : Nat) (x : HostRx) : (s.setRx h x).leaseKeys = s.leaseKeys := rfl
@[simp] theorem State.setRx_owned (h : Nat) (x : HostRx) : (s.setRx h x).owned = s.owned := rfl
@[simp] theorem State.setRx_quiesces (h : Nat) (x : HostRx) : (s.setRx h x).quiesces = s.quiesces := rfl
@[simp] theorem State.setRx_binding (h : Nat) (x : HostRx) : (s.setRx h x).binding = s.binding := rfl
@[simp] theorem State.setRx_monitor (h : Nat) (x : HostRx) : (s.setRx h x).monitor = s.monitor := rfl
@[simp] theorem State.setRx_monitorAt (h : Nat) (x : HostRx) : (s.setRx h x).monitorAt = s.monitorAt := rfl
@[simp] theorem State.setRx_snapOp (h : Nat) (x : HostRx) : (s.setRx h x).snapOp = s.snapOp := rfl
@[simp] theorem State.setRx_stepEnds (h : Nat) (x : HostRx) : (s.setRx h x).stepEnds = s.stepEnds := rfl
@[simp] theorem State.setRx_withdrawn (h : Nat) (x : HostRx) : (s.setRx h x).withdrawn = s.withdrawn := rfl
@[simp] theorem State.setRx_stageGib (h : Nat) (x : HostRx) : (s.setRx h x).stageGib = s.stageGib := rfl
@[simp] theorem State.setRx_snaps (h : Nat) (x : HostRx) : (s.setRx h x).snaps = s.snaps := rfl
@[simp] theorem State.setRx_snapCount (h : Nat) (x : HostRx) : (s.setRx h x).snapCount = s.snapCount := rfl
@[simp] theorem State.setRx_streams (h : Nat) (x : HostRx) : (s.setRx h x).streams = s.streams := rfl
@[simp] theorem State.setRx_records (h : Nat) (x : HostRx) : (s.setRx h x).records = s.records := rfl
@[simp] theorem State.setRx_leaseBorn (h : Nat) (x : HostRx) : (s.setRx h x).leaseBorn = s.leaseBorn := rfl
@[simp] theorem State.setRx_lastSnap (h : Nat) (x : HostRx) : (s.setRx h x).lastSnap = s.lastSnap := rfl
@[simp] theorem State.setRx_failures (h : Nat) (x : HostRx) : (s.setRx h x).failures = s.failures := rfl
@[simp] theorem State.setRx_recovering (h : Nat) (x : HostRx) : (s.setRx h x).recovering = s.recovering := rfl
@[simp] theorem State.setRx_prompts (h : Nat) (x : HostRx) : (s.setRx h x).prompts = s.prompts := rfl
@[simp] theorem State.setRx_powerAt (h : Nat) (x : HostRx) : (s.setRx h x).powerAt = s.powerAt := rfl
@[simp] theorem State.setRx_dutyAt (h : Nat) (x : HostRx) : (s.setRx h x).dutyAt = s.dutyAt := rfl
@[simp] theorem State.setRx_clusterUsed (h : Nat) (x : HostRx) : (s.setRx h x).clusterUsed = s.clusterUsed := rfl
@[simp] theorem State.setRx_energyAt (h : Nat) (x : HostRx) : (s.setRx h x).energyAt = s.energyAt := rfl
@[simp] theorem State.setRx_energyBytes (h : Nat) (x : HostRx) : (s.setRx h x).energyBytes = s.energyBytes := rfl
@[simp] theorem State.setRx_completions (h : Nat) (x : HostRx) : (s.setRx h x).completions = s.completions := rfl
@[simp] theorem State.setRx_relockAt (h : Nat) (x : HostRx) : (s.setRx h x).relockAt = s.relockAt := rfl
@[simp] theorem State.setRx_goodWindows (h : Nat) (x : HostRx) : (s.setRx h x).goodWindows = s.goodWindows := rfl
@[simp] theorem State.setRx_standbyLost (h : Nat) (x : HostRx) : (s.setRx h x).standbyLost = s.standbyLost := rfl
@[simp] theorem State.setRx_arithMhz (h : Nat) (x : HostRx) : (s.setRx h x).arithMhz = s.arithMhz := rfl
@[simp] theorem State.setRx_ratioMode (h : Nat) (x : HostRx) : (s.setRx h x).ratioMode = s.ratioMode := rfl
@[simp] theorem State.setRx_watts (h : Nat) (x : HostRx) : (s.setRx h x).watts = s.watts := rfl
@[simp] theorem State.setRx_floorRun (h : Nat) (x : HostRx) : (s.setRx h x).floorRun = s.floorRun := rfl
@[simp] theorem State.setRx_clustersOff (h : Nat) (x : HostRx) : (s.setRx h x).clustersOff = s.clustersOff := rfl
@[simp] theorem State.setRx_alertSince (h : Nat) (x : HostRx) : (s.setRx h x).alertSince = s.alertSince := rfl
@[simp] theorem State.setRx_life (h : Nat) (x : HostRx) : (s.setRx h x).life = s.life := rfl
@[simp] theorem State.setRx_resetLow (h : Nat) (x : HostRx) : (s.setRx h x).resetLow = s.resetLow := rfl
@[simp] theorem State.setRx_strap (h : Nat) (x : HostRx) : (s.setRx h x).strap = s.strap := rfl
@[simp] theorem State.setRx_hot (h : Nat) (x : HostRx) : (s.setRx h x).hot = s.hot := rfl
@[simp] theorem State.setRx_startDue (h : Nat) (x : HostRx) : (s.setRx h x).startDue = s.startDue := rfl
@[simp] theorem State.setRx_startAt (h : Nat) (x : HostRx) : (s.setRx h x).startAt = s.startAt := rfl
@[simp] theorem State.setRx_stageAt (h : Nat) (x : HostRx) : (s.setRx h x).stageAt = s.stageAt := rfl
@[simp] theorem State.setRx_lastDuration (h : Nat) (x : HostRx) : (s.setRx h x).lastDuration = s.lastDuration := rfl
@[simp] theorem State.setRx_startArea (h : Nat) (x : HostRx) : (s.setRx h x).startArea = s.startArea := rfl
@[simp] theorem State.setRx_storeStart (h : Nat) (x : HostRx) : (s.setRx h x).storeStart = s.storeStart := rfl
@[simp] theorem State.setRx_storeSettings (h : Nat) (x : HostRx) : (s.setRx h x).storeSettings = s.storeSettings := rfl
@[simp] theorem State.setRx_chosen (h : Nat) (x : HostRx) : (s.setRx h x).chosen = s.chosen := rfl
@[simp] theorem State.setRx_recovery (h : Nat) (x : HostRx) : (s.setRx h x).recovery = s.recovery := rfl
@[simp] theorem State.setRx_sv1 (h : Nat) (x : HostRx) : (s.setRx h x).sv1 = s.sv1 := rfl
@[simp] theorem State.setRx_sv0Failed (h : Nat) (x : HostRx) : (s.setRx h x).sv0Failed = s.sv0Failed := rfl
@[simp] theorem State.setRx_heartbeatAt (h : Nat) (x : HostRx) : (s.setRx h x).heartbeatAt = s.heartbeatAt := rfl
@[simp] theorem State.setRx_flash (h : Nat) (x : HostRx) : (s.setRx h x).flash = s.flash := rfl
@[simp] theorem State.setRx_running (h : Nat) (x : HostRx) : (s.setRx h x).running = s.running := rfl
@[simp] theorem State.setRx_flashWrite (h : Nat) (x : HostRx) : (s.setRx h x).flashWrite = s.flashWrite := rfl
@[simp] theorem State.setRx_staged (h : Nat) (x : HostRx) : (s.setRx h x).staged = s.staged := rfl
@[simp] theorem State.setRx_completeAt (h : Nat) (x : HostRx) : (s.setRx h x).completeAt = s.completeAt := rfl
@[simp] theorem State.setRx_enumAt (h : Nat) (x : HostRx) : (s.setRx h x).enumAt = s.enumAt := rfl
@[simp] theorem State.setRx_reclaimDue (h : Nat) (x : HostRx) : (s.setRx h x).reclaimDue = s.reclaimDue := rfl
@[simp] theorem State.setRx_foreign (h : Nat) (x : HostRx) : (s.setRx h x).foreign = s.foreign := rfl
@[simp] theorem State.setRx_addrRecord (h : Nat) (x : HostRx) : (s.setRx h x).addrRecord = s.addrRecord := rfl
@[simp] theorem State.setRx_announcedAt (h : Nat) (x : HostRx) : (s.setRx h x).announcedAt = s.announcedAt := rfl
@[simp] theorem State.setRx_adverts (h : Nat) (x : HostRx) : (s.setRx h x).adverts = s.adverts := rfl
@[simp] theorem State.setRx_rasAt (h : Nat) (x : HostRx) : (s.setRx h x).rasAt = s.rasAt := rfl
@[simp] theorem State.setRx_rasSeen (h : Nat) (x : HostRx) : (s.setRx h x).rasSeen = s.rasSeen := rfl
@[simp] theorem State.setRx_rasCorr (h : Nat) (x : HostRx) : (s.setRx h x).rasCorr = s.rasCorr := rfl
@[simp] theorem State.setRx_uncRows (h : Nat) (x : HostRx) : (s.setRx h x).uncRows = s.uncRows := rfl
@[simp] theorem State.setRx_rasMet (h : Nat) (x : HostRx) : (s.setRx h x).rasMet = s.rasMet := rfl
@[simp] theorem State.setRx_marked (h : Nat) (x : HostRx) : (s.setRx h x).marked = s.marked := rfl
@[simp] theorem State.setRx_retireDue (h : Nat) (x : HostRx) : (s.setRx h x).retireDue = s.retireDue := rfl
@[simp] theorem State.setRx_repairs (h : Nat) (x : HostRx) : (s.setRx h x).repairs = s.repairs := rfl
@[simp] theorem State.setRx_verifyAt (h : Nat) (x : HostRx) : (s.setRx h x).verifyAt = s.verifyAt := rfl

@[simp] theorem State.onWelt_pending (h : Nat) (f : WeltRun → WeltRun) : (s.onWelt h f).pending = s.pending := rfl
@[simp] theorem State.onWelt_now (h : Nat) (f : WeltRun → WeltRun) : (s.onWelt h f).now = s.now := rfl
@[simp] theorem State.onWelt_coreClock (h : Nat) (f : WeltRun → WeltRun) : (s.onWelt h f).coreClock = s.coreClock := rfl
@[simp] theorem State.onWelt_fresh (h : Nat) (f : WeltRun → WeltRun) : (s.onWelt h f).fresh = s.fresh := rfl
@[simp] theorem State.onWelt_grade (h : Nat) (f : WeltRun → WeltRun) : (s.onWelt h f).grade = s.grade := rfl
@[simp] theorem State.onWelt_access (h : Nat) (f : WeltRun → WeltRun) : (s.onWelt h f).access = s.access := rfl
@[simp] theorem State.onWelt_regs (h : Nat) (f : WeltRun → WeltRun) : (s.onWelt h f).regs = s.regs := rfl
@[simp] theorem State.onWelt_latest (h : Nat) (f : WeltRun → WeltRun) : (s.onWelt h f).latest = s.latest := rfl
@[simp] theorem State.onWelt_mem (h : Nat) (f : WeltRun → WeltRun) : (s.onWelt h f).mem = s.mem := rfl
@[simp] theorem State.onWelt_cores (h : Nat) (f : WeltRun → WeltRun) : (s.onWelt h f).cores = s.cores := rfl
@[simp] theorem State.onWelt_flagOps (h : Nat) (f : WeltRun → WeltRun) : (s.onWelt h f).flagOps = s.flagOps := rfl
@[simp] theorem State.onWelt_reqs (h : Nat) (f : WeltRun → WeltRun) : (s.onWelt h f).reqs = s.reqs := rfl
@[simp] theorem State.onWelt_nextId (h : Nat) (f : WeltRun → WeltRun) : (s.onWelt h f).nextId = s.nextId := rfl
@[simp] theorem State.onWelt_ctls (h : Nat) (f : WeltRun → WeltRun) : (s.onWelt h f).ctls = s.ctls := rfl
@[simp] theorem State.onWelt_stackRuns (h : Nat) (f : WeltRun → WeltRun) : (s.onWelt h f).stackRuns = s.stackRuns := rfl
@[simp] theorem State.onWelt_wcache (h : Nat) (f : WeltRun → WeltRun) : (s.onWelt h f).wcache = s.wcache := rfl
@[simp] theorem State.onWelt_patrol (h : Nat) (f : WeltRun → WeltRun) : (s.onWelt h f).patrol = s.patrol := rfl
@[simp] theorem State.onWelt_scrubs (h : Nat) (f : WeltRun → WeltRun) : (s.onWelt h f).scrubs = s.scrubs := rfl
@[simp] theorem State.onWelt_frames (h : Nat) (f : WeltRun → WeltRun) : (s.onWelt h f).frames = s.frames := rfl
@[simp] theorem State.onWelt_extents (h : Nat) (f : WeltRun → WeltRun) : (s.onWelt h f).extents = s.extents := rfl
@[simp] theorem State.onWelt_pulses (h : Nat) (f : WeltRun → WeltRun) : (s.onWelt h f).pulses = s.pulses := rfl
@[simp] theorem State.onWelt_rawLines (h : Nat) (f : WeltRun → WeltRun) : (s.onWelt h f).rawLines = s.rawLines := rfl
@[simp] theorem State.onWelt_filteredHigh (h : Nat) (f : WeltRun → WeltRun) : (s.onWelt h f).filteredHigh = s.filteredHigh := rfl
@[simp] theorem State.onWelt_inject (h : Nat) (f : WeltRun → WeltRun) : (s.onWelt h f).inject = s.inject := rfl
@[simp] theorem State.onWelt_banks (h : Nat) (f : WeltRun → WeltRun) : (s.onWelt h f).banks = s.banks := rfl
@[simp] theorem State.onWelt_upsets (h : Nat) (f : WeltRun → WeltRun) : (s.onWelt h f).upsets = s.upsets := rfl
@[simp] theorem State.onWelt_retired (h : Nat) (f : WeltRun → WeltRun) : (s.onWelt h f).retired = s.retired := rfl
@[simp] theorem State.onWelt_absent (h : Nat) (f : WeltRun → WeltRun) : (s.onWelt h f).absent = s.absent := rfl
@[simp] theorem State.onWelt_perturbed (h : Nat) (f : WeltRun → WeltRun) : (s.onWelt h f).perturbed = s.perturbed := rfl
@[simp] theorem State.onWelt_pertOld (h : Nat) (f : WeltRun → WeltRun) : (s.onWelt h f).pertOld = s.pertOld := rfl
@[simp] theorem State.onWelt_conns (h : Nat) (f : WeltRun → WeltRun) : (s.onWelt h f).conns = s.conns := rfl
@[simp] theorem State.onWelt_egress (h : Nat) (f : WeltRun → WeltRun) : (s.onWelt h f).egress = s.egress := rfl
@[simp] theorem State.onWelt_arbiters (h : Nat) (f : WeltRun → WeltRun) : (s.onWelt h f).arbiters = s.arbiters := rfl
@[simp] theorem State.onWelt_peerDue (h : Nat) (f : WeltRun → WeltRun) : (s.onWelt h f).peerDue = s.peerDue := rfl
@[simp] theorem State.onWelt_spent (h : Nat) (f : WeltRun → WeltRun) : (s.onWelt h f).spent = s.spent := rfl
@[simp] theorem State.onWelt_freed (h : Nat) (f : WeltRun → WeltRun) : (s.onWelt h f).freed = s.freed := rfl
@[simp] theorem State.onWelt_wire (h : Nat) (f : WeltRun → WeltRun) : (s.onWelt h f).wire = s.wire := rfl
@[simp] theorem State.onWelt_training (h : Nat) (f : WeltRun → WeltRun) : (s.onWelt h f).training = s.training := rfl
@[simp] theorem State.onWelt_fecRecent (h : Nat) (f : WeltRun → WeltRun) : (s.onWelt h f).fecRecent = s.fecRecent := rfl
@[simp] theorem State.onWelt_packing (h : Nat) (f : WeltRun → WeltRun) : (s.onWelt h f).packing = s.packing := rfl
@[simp] theorem State.onWelt_replays (h : Nat) (f : WeltRun → WeltRun) : (s.onWelt h f).replays = s.replays := rfl
@[simp] theorem State.onWelt_pools (h : Nat) (f : WeltRun → WeltRun) : (s.onWelt h f).pools = s.pools := rfl
@[simp] theorem State.onWelt_linkHeld (h : Nat) (f : WeltRun → WeltRun) : (s.onWelt h f).linkHeld = s.linkHeld := rfl
@[simp] theorem State.onWelt_linkSpares (h : Nat) (f : WeltRun → WeltRun) : (s.onWelt h f).linkSpares = s.linkSpares := rfl
@[simp] theorem State.onWelt_linkBuf (h : Nat) (f : WeltRun → WeltRun) : (s.onWelt h f).linkBuf = s.linkBuf := rfl
@[simp] theorem State.onWelt_colls (h : Nat) (f : WeltRun → WeltRun) : (s.onWelt h f).colls = s.colls := rfl
@[simp] theorem State.onWelt_collCounts (h : Nat) (f : WeltRun → WeltRun) : (s.onWelt h f).collCounts = s.collCounts := rfl
@[simp] theorem State.onWelt_cached (h : Nat) (f : WeltRun → WeltRun) : (s.onWelt h f).cached = s.cached := rfl
@[simp] theorem State.onWelt_writeBacks (h : Nat) (f : WeltRun → WeltRun) : (s.onWelt h f).writeBacks = s.writeBacks := rfl
@[simp] theorem State.onWelt_cacheUpsets (h : Nat) (f : WeltRun → WeltRun) : (s.onWelt h f).cacheUpsets = s.cacheUpsets := rfl
@[simp] theorem State.onWelt_hcCaches (h : Nat) (f : WeltRun → WeltRun) : (s.onWelt h f).hcCaches = s.hcCaches := rfl
@[simp] theorem State.onWelt_hcReserved (h : Nat) (f : WeltRun → WeltRun) : (s.onWelt h f).hcReserved = s.hcReserved := rfl
@[simp] theorem State.onWelt_codeSlots (h : Nat) (f : WeltRun → WeltRun) : (s.onWelt h f).codeSlots = s.codeSlots := rfl
@[simp] theorem State.onWelt_extRuns (h : Nat) (f : WeltRun → WeltRun) : (s.onWelt h f).extRuns = s.extRuns := rfl
@[simp] theorem State.onWelt_extDone (h : Nat) (f : WeltRun → WeltRun) : (s.onWelt h f).extDone = s.extDone := rfl
@[simp] theorem State.onWelt_eyeCommits (h : Nat) (f : WeltRun → WeltRun) : (s.onWelt h f).eyeCommits = s.eyeCommits := rfl
@[simp] theorem State.onWelt_eyeExpired (h : Nat) (f : WeltRun → WeltRun) : (s.onWelt h f).eyeExpired = s.eyeExpired := rfl
@[simp] theorem State.onWelt_eyeWrites (h : Nat) (f : WeltRun → WeltRun) : (s.onWelt h f).eyeWrites = s.eyeWrites := rfl
@[simp] theorem State.onWelt_claimedBy (h : Nat) (f : WeltRun → WeltRun) : (s.onWelt h f).claimedBy = s.claimedBy := rfl
@[simp] theorem State.onWelt_lastClaim (h : Nat) (f : WeltRun → WeltRun) : (s.onWelt h f).lastClaim = s.lastClaim := rfl
@[simp] theorem State.onWelt_roundRobin (h : Nat) (f : WeltRun → WeltRun) : (s.onWelt h f).roundRobin = s.roundRobin := rfl
@[simp] theorem State.onWelt_rrSince (h : Nat) (f : WeltRun → WeltRun) : (s.onWelt h f).rrSince = s.rrSince := rfl
@[simp] theorem State.onWelt_rangeDue (h : Nat) (f : WeltRun → WeltRun) : (s.onWelt h f).rangeDue = s.rangeDue := rfl
@[simp] theorem State.onWelt_rangeOwner (h : Nat) (f : WeltRun → WeltRun) : (s.onWelt h f).rangeOwner = s.rangeOwner := rfl
@[simp] theorem State.onWelt_hostRx (h : Nat) (f : WeltRun → WeltRun) : (s.onWelt h f).hostRx = s.hostRx := rfl
@[simp] theorem State.onWelt_sessions (h : Nat) (f : WeltRun → WeltRun) : (s.onWelt h f).sessions = s.sessions := rfl
@[simp] theorem State.onWelt_hostWire (h : Nat) (f : WeltRun → WeltRun) : (s.onWelt h f).hostWire = s.hostWire := rfl
@[simp] theorem State.onWelt_mgmtKeys (h : Nat) (f : WeltRun → WeltRun) : (s.onWelt h f).mgmtKeys = s.mgmtKeys := rfl
@[simp] theorem State.onWelt_leaseKeys (h : Nat) (f : WeltRun → WeltRun) : (s.onWelt h f).leaseKeys = s.leaseKeys := rfl
@[simp] theorem State.onWelt_owned (h : Nat) (f : WeltRun → WeltRun) : (s.onWelt h f).owned = s.owned := rfl
@[simp] theorem State.onWelt_quiesces (h : Nat) (f : WeltRun → WeltRun) : (s.onWelt h f).quiesces = s.quiesces := rfl
@[simp] theorem State.onWelt_binding (h : Nat) (f : WeltRun → WeltRun) : (s.onWelt h f).binding = s.binding := rfl
@[simp] theorem State.onWelt_monitor (h : Nat) (f : WeltRun → WeltRun) : (s.onWelt h f).monitor = s.monitor := rfl
@[simp] theorem State.onWelt_monitorAt (h : Nat) (f : WeltRun → WeltRun) : (s.onWelt h f).monitorAt = s.monitorAt := rfl
@[simp] theorem State.onWelt_snapOp (h : Nat) (f : WeltRun → WeltRun) : (s.onWelt h f).snapOp = s.snapOp := rfl
@[simp] theorem State.onWelt_stepEnds (h : Nat) (f : WeltRun → WeltRun) : (s.onWelt h f).stepEnds = s.stepEnds := rfl
@[simp] theorem State.onWelt_withdrawn (h : Nat) (f : WeltRun → WeltRun) : (s.onWelt h f).withdrawn = s.withdrawn := rfl
@[simp] theorem State.onWelt_stageGib (h : Nat) (f : WeltRun → WeltRun) : (s.onWelt h f).stageGib = s.stageGib := rfl
@[simp] theorem State.onWelt_snaps (h : Nat) (f : WeltRun → WeltRun) : (s.onWelt h f).snaps = s.snaps := rfl
@[simp] theorem State.onWelt_snapCount (h : Nat) (f : WeltRun → WeltRun) : (s.onWelt h f).snapCount = s.snapCount := rfl
@[simp] theorem State.onWelt_streams (h : Nat) (f : WeltRun → WeltRun) : (s.onWelt h f).streams = s.streams := rfl
@[simp] theorem State.onWelt_records (h : Nat) (f : WeltRun → WeltRun) : (s.onWelt h f).records = s.records := rfl
@[simp] theorem State.onWelt_leaseBorn (h : Nat) (f : WeltRun → WeltRun) : (s.onWelt h f).leaseBorn = s.leaseBorn := rfl
@[simp] theorem State.onWelt_lastSnap (h : Nat) (f : WeltRun → WeltRun) : (s.onWelt h f).lastSnap = s.lastSnap := rfl
@[simp] theorem State.onWelt_failures (h : Nat) (f : WeltRun → WeltRun) : (s.onWelt h f).failures = s.failures := rfl
@[simp] theorem State.onWelt_recovering (h : Nat) (f : WeltRun → WeltRun) : (s.onWelt h f).recovering = s.recovering := rfl
@[simp] theorem State.onWelt_prompts (h : Nat) (f : WeltRun → WeltRun) : (s.onWelt h f).prompts = s.prompts := rfl
@[simp] theorem State.onWelt_powerAt (h : Nat) (f : WeltRun → WeltRun) : (s.onWelt h f).powerAt = s.powerAt := rfl
@[simp] theorem State.onWelt_dutyAt (h : Nat) (f : WeltRun → WeltRun) : (s.onWelt h f).dutyAt = s.dutyAt := rfl
@[simp] theorem State.onWelt_clusterUsed (h : Nat) (f : WeltRun → WeltRun) : (s.onWelt h f).clusterUsed = s.clusterUsed := rfl
@[simp] theorem State.onWelt_energyAt (h : Nat) (f : WeltRun → WeltRun) : (s.onWelt h f).energyAt = s.energyAt := rfl
@[simp] theorem State.onWelt_energyBytes (h : Nat) (f : WeltRun → WeltRun) : (s.onWelt h f).energyBytes = s.energyBytes := rfl
@[simp] theorem State.onWelt_completions (h : Nat) (f : WeltRun → WeltRun) : (s.onWelt h f).completions = s.completions := rfl
@[simp] theorem State.onWelt_relockAt (h : Nat) (f : WeltRun → WeltRun) : (s.onWelt h f).relockAt = s.relockAt := rfl
@[simp] theorem State.onWelt_goodWindows (h : Nat) (f : WeltRun → WeltRun) : (s.onWelt h f).goodWindows = s.goodWindows := rfl
@[simp] theorem State.onWelt_standbyLost (h : Nat) (f : WeltRun → WeltRun) : (s.onWelt h f).standbyLost = s.standbyLost := rfl
@[simp] theorem State.onWelt_arithMhz (h : Nat) (f : WeltRun → WeltRun) : (s.onWelt h f).arithMhz = s.arithMhz := rfl
@[simp] theorem State.onWelt_ratioMode (h : Nat) (f : WeltRun → WeltRun) : (s.onWelt h f).ratioMode = s.ratioMode := rfl
@[simp] theorem State.onWelt_watts (h : Nat) (f : WeltRun → WeltRun) : (s.onWelt h f).watts = s.watts := rfl
@[simp] theorem State.onWelt_floorRun (h : Nat) (f : WeltRun → WeltRun) : (s.onWelt h f).floorRun = s.floorRun := rfl
@[simp] theorem State.onWelt_clustersOff (h : Nat) (f : WeltRun → WeltRun) : (s.onWelt h f).clustersOff = s.clustersOff := rfl
@[simp] theorem State.onWelt_alertSince (h : Nat) (f : WeltRun → WeltRun) : (s.onWelt h f).alertSince = s.alertSince := rfl
@[simp] theorem State.onWelt_life (h : Nat) (f : WeltRun → WeltRun) : (s.onWelt h f).life = s.life := rfl
@[simp] theorem State.onWelt_resetLow (h : Nat) (f : WeltRun → WeltRun) : (s.onWelt h f).resetLow = s.resetLow := rfl
@[simp] theorem State.onWelt_strap (h : Nat) (f : WeltRun → WeltRun) : (s.onWelt h f).strap = s.strap := rfl
@[simp] theorem State.onWelt_hot (h : Nat) (f : WeltRun → WeltRun) : (s.onWelt h f).hot = s.hot := rfl
@[simp] theorem State.onWelt_startDue (h : Nat) (f : WeltRun → WeltRun) : (s.onWelt h f).startDue = s.startDue := rfl
@[simp] theorem State.onWelt_startAt (h : Nat) (f : WeltRun → WeltRun) : (s.onWelt h f).startAt = s.startAt := rfl
@[simp] theorem State.onWelt_stageAt (h : Nat) (f : WeltRun → WeltRun) : (s.onWelt h f).stageAt = s.stageAt := rfl
@[simp] theorem State.onWelt_lastDuration (h : Nat) (f : WeltRun → WeltRun) : (s.onWelt h f).lastDuration = s.lastDuration := rfl
@[simp] theorem State.onWelt_startArea (h : Nat) (f : WeltRun → WeltRun) : (s.onWelt h f).startArea = s.startArea := rfl
@[simp] theorem State.onWelt_storeStart (h : Nat) (f : WeltRun → WeltRun) : (s.onWelt h f).storeStart = s.storeStart := rfl
@[simp] theorem State.onWelt_storeSettings (h : Nat) (f : WeltRun → WeltRun) : (s.onWelt h f).storeSettings = s.storeSettings := rfl
@[simp] theorem State.onWelt_chosen (h : Nat) (f : WeltRun → WeltRun) : (s.onWelt h f).chosen = s.chosen := rfl
@[simp] theorem State.onWelt_recovery (h : Nat) (f : WeltRun → WeltRun) : (s.onWelt h f).recovery = s.recovery := rfl
@[simp] theorem State.onWelt_sv1 (h : Nat) (f : WeltRun → WeltRun) : (s.onWelt h f).sv1 = s.sv1 := rfl
@[simp] theorem State.onWelt_sv0Failed (h : Nat) (f : WeltRun → WeltRun) : (s.onWelt h f).sv0Failed = s.sv0Failed := rfl
@[simp] theorem State.onWelt_heartbeatAt (h : Nat) (f : WeltRun → WeltRun) : (s.onWelt h f).heartbeatAt = s.heartbeatAt := rfl
@[simp] theorem State.onWelt_flash (h : Nat) (f : WeltRun → WeltRun) : (s.onWelt h f).flash = s.flash := rfl
@[simp] theorem State.onWelt_running (h : Nat) (f : WeltRun → WeltRun) : (s.onWelt h f).running = s.running := rfl
@[simp] theorem State.onWelt_flashWrite (h : Nat) (f : WeltRun → WeltRun) : (s.onWelt h f).flashWrite = s.flashWrite := rfl
@[simp] theorem State.onWelt_staged (h : Nat) (f : WeltRun → WeltRun) : (s.onWelt h f).staged = s.staged := rfl
@[simp] theorem State.onWelt_completeAt (h : Nat) (f : WeltRun → WeltRun) : (s.onWelt h f).completeAt = s.completeAt := rfl
@[simp] theorem State.onWelt_enumAt (h : Nat) (f : WeltRun → WeltRun) : (s.onWelt h f).enumAt = s.enumAt := rfl
@[simp] theorem State.onWelt_reclaimDue (h : Nat) (f : WeltRun → WeltRun) : (s.onWelt h f).reclaimDue = s.reclaimDue := rfl
@[simp] theorem State.onWelt_foreign (h : Nat) (f : WeltRun → WeltRun) : (s.onWelt h f).foreign = s.foreign := rfl
@[simp] theorem State.onWelt_addrRecord (h : Nat) (f : WeltRun → WeltRun) : (s.onWelt h f).addrRecord = s.addrRecord := rfl
@[simp] theorem State.onWelt_announcedAt (h : Nat) (f : WeltRun → WeltRun) : (s.onWelt h f).announcedAt = s.announcedAt := rfl
@[simp] theorem State.onWelt_adverts (h : Nat) (f : WeltRun → WeltRun) : (s.onWelt h f).adverts = s.adverts := rfl
@[simp] theorem State.onWelt_rasAt (h : Nat) (f : WeltRun → WeltRun) : (s.onWelt h f).rasAt = s.rasAt := rfl
@[simp] theorem State.onWelt_rasSeen (h : Nat) (f : WeltRun → WeltRun) : (s.onWelt h f).rasSeen = s.rasSeen := rfl
@[simp] theorem State.onWelt_rasCorr (h : Nat) (f : WeltRun → WeltRun) : (s.onWelt h f).rasCorr = s.rasCorr := rfl
@[simp] theorem State.onWelt_uncRows (h : Nat) (f : WeltRun → WeltRun) : (s.onWelt h f).uncRows = s.uncRows := rfl
@[simp] theorem State.onWelt_rasMet (h : Nat) (f : WeltRun → WeltRun) : (s.onWelt h f).rasMet = s.rasMet := rfl
@[simp] theorem State.onWelt_marked (h : Nat) (f : WeltRun → WeltRun) : (s.onWelt h f).marked = s.marked := rfl
@[simp] theorem State.onWelt_retireDue (h : Nat) (f : WeltRun → WeltRun) : (s.onWelt h f).retireDue = s.retireDue := rfl
@[simp] theorem State.onWelt_repairs (h : Nat) (f : WeltRun → WeltRun) : (s.onWelt h f).repairs = s.repairs := rfl
@[simp] theorem State.onWelt_verifyAt (h : Nat) (f : WeltRun → WeltRun) : (s.onWelt h f).verifyAt = s.verifyAt := rfl

@[simp] theorem State.onColl_pending (i : Nat) (f : CollEngine → CollEngine) : (s.onColl i f).pending = s.pending := rfl
@[simp] theorem State.onColl_now (i : Nat) (f : CollEngine → CollEngine) : (s.onColl i f).now = s.now := rfl
@[simp] theorem State.onColl_coreClock (i : Nat) (f : CollEngine → CollEngine) : (s.onColl i f).coreClock = s.coreClock := rfl
@[simp] theorem State.onColl_fresh (i : Nat) (f : CollEngine → CollEngine) : (s.onColl i f).fresh = s.fresh := rfl
@[simp] theorem State.onColl_grade (i : Nat) (f : CollEngine → CollEngine) : (s.onColl i f).grade = s.grade := rfl
@[simp] theorem State.onColl_access (i : Nat) (f : CollEngine → CollEngine) : (s.onColl i f).access = s.access := rfl
@[simp] theorem State.onColl_regs (i : Nat) (f : CollEngine → CollEngine) : (s.onColl i f).regs = s.regs := rfl
@[simp] theorem State.onColl_latest (i : Nat) (f : CollEngine → CollEngine) : (s.onColl i f).latest = s.latest := rfl
@[simp] theorem State.onColl_mem (i : Nat) (f : CollEngine → CollEngine) : (s.onColl i f).mem = s.mem := rfl
@[simp] theorem State.onColl_cores (i : Nat) (f : CollEngine → CollEngine) : (s.onColl i f).cores = s.cores := rfl
@[simp] theorem State.onColl_flagOps (i : Nat) (f : CollEngine → CollEngine) : (s.onColl i f).flagOps = s.flagOps := rfl
@[simp] theorem State.onColl_reqs (i : Nat) (f : CollEngine → CollEngine) : (s.onColl i f).reqs = s.reqs := rfl
@[simp] theorem State.onColl_nextId (i : Nat) (f : CollEngine → CollEngine) : (s.onColl i f).nextId = s.nextId := rfl
@[simp] theorem State.onColl_ctls (i : Nat) (f : CollEngine → CollEngine) : (s.onColl i f).ctls = s.ctls := rfl
@[simp] theorem State.onColl_stackRuns (i : Nat) (f : CollEngine → CollEngine) : (s.onColl i f).stackRuns = s.stackRuns := rfl
@[simp] theorem State.onColl_wcache (i : Nat) (f : CollEngine → CollEngine) : (s.onColl i f).wcache = s.wcache := rfl
@[simp] theorem State.onColl_patrol (i : Nat) (f : CollEngine → CollEngine) : (s.onColl i f).patrol = s.patrol := rfl
@[simp] theorem State.onColl_scrubs (i : Nat) (f : CollEngine → CollEngine) : (s.onColl i f).scrubs = s.scrubs := rfl
@[simp] theorem State.onColl_frames (i : Nat) (f : CollEngine → CollEngine) : (s.onColl i f).frames = s.frames := rfl
@[simp] theorem State.onColl_extents (i : Nat) (f : CollEngine → CollEngine) : (s.onColl i f).extents = s.extents := rfl
@[simp] theorem State.onColl_pulses (i : Nat) (f : CollEngine → CollEngine) : (s.onColl i f).pulses = s.pulses := rfl
@[simp] theorem State.onColl_rawLines (i : Nat) (f : CollEngine → CollEngine) : (s.onColl i f).rawLines = s.rawLines := rfl
@[simp] theorem State.onColl_filteredHigh (i : Nat) (f : CollEngine → CollEngine) : (s.onColl i f).filteredHigh = s.filteredHigh := rfl
@[simp] theorem State.onColl_inject (i : Nat) (f : CollEngine → CollEngine) : (s.onColl i f).inject = s.inject := rfl
@[simp] theorem State.onColl_banks (i : Nat) (f : CollEngine → CollEngine) : (s.onColl i f).banks = s.banks := rfl
@[simp] theorem State.onColl_upsets (i : Nat) (f : CollEngine → CollEngine) : (s.onColl i f).upsets = s.upsets := rfl
@[simp] theorem State.onColl_retired (i : Nat) (f : CollEngine → CollEngine) : (s.onColl i f).retired = s.retired := rfl
@[simp] theorem State.onColl_absent (i : Nat) (f : CollEngine → CollEngine) : (s.onColl i f).absent = s.absent := rfl
@[simp] theorem State.onColl_perturbed (i : Nat) (f : CollEngine → CollEngine) : (s.onColl i f).perturbed = s.perturbed := rfl
@[simp] theorem State.onColl_pertOld (i : Nat) (f : CollEngine → CollEngine) : (s.onColl i f).pertOld = s.pertOld := rfl
@[simp] theorem State.onColl_conns (i : Nat) (f : CollEngine → CollEngine) : (s.onColl i f).conns = s.conns := rfl
@[simp] theorem State.onColl_egress (i : Nat) (f : CollEngine → CollEngine) : (s.onColl i f).egress = s.egress := rfl
@[simp] theorem State.onColl_arbiters (i : Nat) (f : CollEngine → CollEngine) : (s.onColl i f).arbiters = s.arbiters := rfl
@[simp] theorem State.onColl_peerDue (i : Nat) (f : CollEngine → CollEngine) : (s.onColl i f).peerDue = s.peerDue := rfl
@[simp] theorem State.onColl_spent (i : Nat) (f : CollEngine → CollEngine) : (s.onColl i f).spent = s.spent := rfl
@[simp] theorem State.onColl_freed (i : Nat) (f : CollEngine → CollEngine) : (s.onColl i f).freed = s.freed := rfl
@[simp] theorem State.onColl_wire (i : Nat) (f : CollEngine → CollEngine) : (s.onColl i f).wire = s.wire := rfl
@[simp] theorem State.onColl_training (i : Nat) (f : CollEngine → CollEngine) : (s.onColl i f).training = s.training := rfl
@[simp] theorem State.onColl_fecRecent (i : Nat) (f : CollEngine → CollEngine) : (s.onColl i f).fecRecent = s.fecRecent := rfl
@[simp] theorem State.onColl_packing (i : Nat) (f : CollEngine → CollEngine) : (s.onColl i f).packing = s.packing := rfl
@[simp] theorem State.onColl_replays (i : Nat) (f : CollEngine → CollEngine) : (s.onColl i f).replays = s.replays := rfl
@[simp] theorem State.onColl_welts (i : Nat) (f : CollEngine → CollEngine) : (s.onColl i f).welts = s.welts := rfl
@[simp] theorem State.onColl_pools (i : Nat) (f : CollEngine → CollEngine) : (s.onColl i f).pools = s.pools := rfl
@[simp] theorem State.onColl_linkHeld (i : Nat) (f : CollEngine → CollEngine) : (s.onColl i f).linkHeld = s.linkHeld := rfl
@[simp] theorem State.onColl_linkSpares (i : Nat) (f : CollEngine → CollEngine) : (s.onColl i f).linkSpares = s.linkSpares := rfl
@[simp] theorem State.onColl_linkBuf (i : Nat) (f : CollEngine → CollEngine) : (s.onColl i f).linkBuf = s.linkBuf := rfl
@[simp] theorem State.onColl_collCounts (i : Nat) (f : CollEngine → CollEngine) : (s.onColl i f).collCounts = s.collCounts := rfl
@[simp] theorem State.onColl_cached (i : Nat) (f : CollEngine → CollEngine) : (s.onColl i f).cached = s.cached := rfl
@[simp] theorem State.onColl_writeBacks (i : Nat) (f : CollEngine → CollEngine) : (s.onColl i f).writeBacks = s.writeBacks := rfl
@[simp] theorem State.onColl_cacheUpsets (i : Nat) (f : CollEngine → CollEngine) : (s.onColl i f).cacheUpsets = s.cacheUpsets := rfl
@[simp] theorem State.onColl_hcCaches (i : Nat) (f : CollEngine → CollEngine) : (s.onColl i f).hcCaches = s.hcCaches := rfl
@[simp] theorem State.onColl_hcReserved (i : Nat) (f : CollEngine → CollEngine) : (s.onColl i f).hcReserved = s.hcReserved := rfl
@[simp] theorem State.onColl_codeSlots (i : Nat) (f : CollEngine → CollEngine) : (s.onColl i f).codeSlots = s.codeSlots := rfl
@[simp] theorem State.onColl_extRuns (i : Nat) (f : CollEngine → CollEngine) : (s.onColl i f).extRuns = s.extRuns := rfl
@[simp] theorem State.onColl_extDone (i : Nat) (f : CollEngine → CollEngine) : (s.onColl i f).extDone = s.extDone := rfl
@[simp] theorem State.onColl_eyeCommits (i : Nat) (f : CollEngine → CollEngine) : (s.onColl i f).eyeCommits = s.eyeCommits := rfl
@[simp] theorem State.onColl_eyeExpired (i : Nat) (f : CollEngine → CollEngine) : (s.onColl i f).eyeExpired = s.eyeExpired := rfl
@[simp] theorem State.onColl_eyeWrites (i : Nat) (f : CollEngine → CollEngine) : (s.onColl i f).eyeWrites = s.eyeWrites := rfl
@[simp] theorem State.onColl_claimedBy (i : Nat) (f : CollEngine → CollEngine) : (s.onColl i f).claimedBy = s.claimedBy := rfl
@[simp] theorem State.onColl_lastClaim (i : Nat) (f : CollEngine → CollEngine) : (s.onColl i f).lastClaim = s.lastClaim := rfl
@[simp] theorem State.onColl_roundRobin (i : Nat) (f : CollEngine → CollEngine) : (s.onColl i f).roundRobin = s.roundRobin := rfl
@[simp] theorem State.onColl_rrSince (i : Nat) (f : CollEngine → CollEngine) : (s.onColl i f).rrSince = s.rrSince := rfl
@[simp] theorem State.onColl_rangeDue (i : Nat) (f : CollEngine → CollEngine) : (s.onColl i f).rangeDue = s.rangeDue := rfl
@[simp] theorem State.onColl_rangeOwner (i : Nat) (f : CollEngine → CollEngine) : (s.onColl i f).rangeOwner = s.rangeOwner := rfl
@[simp] theorem State.onColl_hostRx (i : Nat) (f : CollEngine → CollEngine) : (s.onColl i f).hostRx = s.hostRx := rfl
@[simp] theorem State.onColl_sessions (i : Nat) (f : CollEngine → CollEngine) : (s.onColl i f).sessions = s.sessions := rfl
@[simp] theorem State.onColl_hostWire (i : Nat) (f : CollEngine → CollEngine) : (s.onColl i f).hostWire = s.hostWire := rfl
@[simp] theorem State.onColl_mgmtKeys (i : Nat) (f : CollEngine → CollEngine) : (s.onColl i f).mgmtKeys = s.mgmtKeys := rfl
@[simp] theorem State.onColl_leaseKeys (i : Nat) (f : CollEngine → CollEngine) : (s.onColl i f).leaseKeys = s.leaseKeys := rfl
@[simp] theorem State.onColl_owned (i : Nat) (f : CollEngine → CollEngine) : (s.onColl i f).owned = s.owned := rfl
@[simp] theorem State.onColl_quiesces (i : Nat) (f : CollEngine → CollEngine) : (s.onColl i f).quiesces = s.quiesces := rfl
@[simp] theorem State.onColl_binding (i : Nat) (f : CollEngine → CollEngine) : (s.onColl i f).binding = s.binding := rfl
@[simp] theorem State.onColl_monitor (i : Nat) (f : CollEngine → CollEngine) : (s.onColl i f).monitor = s.monitor := rfl
@[simp] theorem State.onColl_monitorAt (i : Nat) (f : CollEngine → CollEngine) : (s.onColl i f).monitorAt = s.monitorAt := rfl
@[simp] theorem State.onColl_snapOp (i : Nat) (f : CollEngine → CollEngine) : (s.onColl i f).snapOp = s.snapOp := rfl
@[simp] theorem State.onColl_stepEnds (i : Nat) (f : CollEngine → CollEngine) : (s.onColl i f).stepEnds = s.stepEnds := rfl
@[simp] theorem State.onColl_withdrawn (i : Nat) (f : CollEngine → CollEngine) : (s.onColl i f).withdrawn = s.withdrawn := rfl
@[simp] theorem State.onColl_stageGib (i : Nat) (f : CollEngine → CollEngine) : (s.onColl i f).stageGib = s.stageGib := rfl
@[simp] theorem State.onColl_snaps (i : Nat) (f : CollEngine → CollEngine) : (s.onColl i f).snaps = s.snaps := rfl
@[simp] theorem State.onColl_snapCount (i : Nat) (f : CollEngine → CollEngine) : (s.onColl i f).snapCount = s.snapCount := rfl
@[simp] theorem State.onColl_streams (i : Nat) (f : CollEngine → CollEngine) : (s.onColl i f).streams = s.streams := rfl
@[simp] theorem State.onColl_records (i : Nat) (f : CollEngine → CollEngine) : (s.onColl i f).records = s.records := rfl
@[simp] theorem State.onColl_leaseBorn (i : Nat) (f : CollEngine → CollEngine) : (s.onColl i f).leaseBorn = s.leaseBorn := rfl
@[simp] theorem State.onColl_lastSnap (i : Nat) (f : CollEngine → CollEngine) : (s.onColl i f).lastSnap = s.lastSnap := rfl
@[simp] theorem State.onColl_failures (i : Nat) (f : CollEngine → CollEngine) : (s.onColl i f).failures = s.failures := rfl
@[simp] theorem State.onColl_recovering (i : Nat) (f : CollEngine → CollEngine) : (s.onColl i f).recovering = s.recovering := rfl
@[simp] theorem State.onColl_prompts (i : Nat) (f : CollEngine → CollEngine) : (s.onColl i f).prompts = s.prompts := rfl
@[simp] theorem State.onColl_powerAt (i : Nat) (f : CollEngine → CollEngine) : (s.onColl i f).powerAt = s.powerAt := rfl
@[simp] theorem State.onColl_dutyAt (i : Nat) (f : CollEngine → CollEngine) : (s.onColl i f).dutyAt = s.dutyAt := rfl
@[simp] theorem State.onColl_clusterUsed (i : Nat) (f : CollEngine → CollEngine) : (s.onColl i f).clusterUsed = s.clusterUsed := rfl
@[simp] theorem State.onColl_energyAt (i : Nat) (f : CollEngine → CollEngine) : (s.onColl i f).energyAt = s.energyAt := rfl
@[simp] theorem State.onColl_energyBytes (i : Nat) (f : CollEngine → CollEngine) : (s.onColl i f).energyBytes = s.energyBytes := rfl
@[simp] theorem State.onColl_completions (i : Nat) (f : CollEngine → CollEngine) : (s.onColl i f).completions = s.completions := rfl
@[simp] theorem State.onColl_relockAt (i : Nat) (f : CollEngine → CollEngine) : (s.onColl i f).relockAt = s.relockAt := rfl
@[simp] theorem State.onColl_goodWindows (i : Nat) (f : CollEngine → CollEngine) : (s.onColl i f).goodWindows = s.goodWindows := rfl
@[simp] theorem State.onColl_standbyLost (i : Nat) (f : CollEngine → CollEngine) : (s.onColl i f).standbyLost = s.standbyLost := rfl
@[simp] theorem State.onColl_arithMhz (i : Nat) (f : CollEngine → CollEngine) : (s.onColl i f).arithMhz = s.arithMhz := rfl
@[simp] theorem State.onColl_ratioMode (i : Nat) (f : CollEngine → CollEngine) : (s.onColl i f).ratioMode = s.ratioMode := rfl
@[simp] theorem State.onColl_watts (i : Nat) (f : CollEngine → CollEngine) : (s.onColl i f).watts = s.watts := rfl
@[simp] theorem State.onColl_floorRun (i : Nat) (f : CollEngine → CollEngine) : (s.onColl i f).floorRun = s.floorRun := rfl
@[simp] theorem State.onColl_clustersOff (i : Nat) (f : CollEngine → CollEngine) : (s.onColl i f).clustersOff = s.clustersOff := rfl
@[simp] theorem State.onColl_alertSince (i : Nat) (f : CollEngine → CollEngine) : (s.onColl i f).alertSince = s.alertSince := rfl
@[simp] theorem State.onColl_life (i : Nat) (f : CollEngine → CollEngine) : (s.onColl i f).life = s.life := rfl
@[simp] theorem State.onColl_resetLow (i : Nat) (f : CollEngine → CollEngine) : (s.onColl i f).resetLow = s.resetLow := rfl
@[simp] theorem State.onColl_strap (i : Nat) (f : CollEngine → CollEngine) : (s.onColl i f).strap = s.strap := rfl
@[simp] theorem State.onColl_hot (i : Nat) (f : CollEngine → CollEngine) : (s.onColl i f).hot = s.hot := rfl
@[simp] theorem State.onColl_startDue (i : Nat) (f : CollEngine → CollEngine) : (s.onColl i f).startDue = s.startDue := rfl
@[simp] theorem State.onColl_startAt (i : Nat) (f : CollEngine → CollEngine) : (s.onColl i f).startAt = s.startAt := rfl
@[simp] theorem State.onColl_stageAt (i : Nat) (f : CollEngine → CollEngine) : (s.onColl i f).stageAt = s.stageAt := rfl
@[simp] theorem State.onColl_lastDuration (i : Nat) (f : CollEngine → CollEngine) : (s.onColl i f).lastDuration = s.lastDuration := rfl
@[simp] theorem State.onColl_startArea (i : Nat) (f : CollEngine → CollEngine) : (s.onColl i f).startArea = s.startArea := rfl
@[simp] theorem State.onColl_storeStart (i : Nat) (f : CollEngine → CollEngine) : (s.onColl i f).storeStart = s.storeStart := rfl
@[simp] theorem State.onColl_storeSettings (i : Nat) (f : CollEngine → CollEngine) : (s.onColl i f).storeSettings = s.storeSettings := rfl
@[simp] theorem State.onColl_chosen (i : Nat) (f : CollEngine → CollEngine) : (s.onColl i f).chosen = s.chosen := rfl
@[simp] theorem State.onColl_recovery (i : Nat) (f : CollEngine → CollEngine) : (s.onColl i f).recovery = s.recovery := rfl
@[simp] theorem State.onColl_sv1 (i : Nat) (f : CollEngine → CollEngine) : (s.onColl i f).sv1 = s.sv1 := rfl
@[simp] theorem State.onColl_sv0Failed (i : Nat) (f : CollEngine → CollEngine) : (s.onColl i f).sv0Failed = s.sv0Failed := rfl
@[simp] theorem State.onColl_heartbeatAt (i : Nat) (f : CollEngine → CollEngine) : (s.onColl i f).heartbeatAt = s.heartbeatAt := rfl
@[simp] theorem State.onColl_flash (i : Nat) (f : CollEngine → CollEngine) : (s.onColl i f).flash = s.flash := rfl
@[simp] theorem State.onColl_running (i : Nat) (f : CollEngine → CollEngine) : (s.onColl i f).running = s.running := rfl
@[simp] theorem State.onColl_flashWrite (i : Nat) (f : CollEngine → CollEngine) : (s.onColl i f).flashWrite = s.flashWrite := rfl
@[simp] theorem State.onColl_staged (i : Nat) (f : CollEngine → CollEngine) : (s.onColl i f).staged = s.staged := rfl
@[simp] theorem State.onColl_completeAt (i : Nat) (f : CollEngine → CollEngine) : (s.onColl i f).completeAt = s.completeAt := rfl
@[simp] theorem State.onColl_enumAt (i : Nat) (f : CollEngine → CollEngine) : (s.onColl i f).enumAt = s.enumAt := rfl
@[simp] theorem State.onColl_reclaimDue (i : Nat) (f : CollEngine → CollEngine) : (s.onColl i f).reclaimDue = s.reclaimDue := rfl
@[simp] theorem State.onColl_foreign (i : Nat) (f : CollEngine → CollEngine) : (s.onColl i f).foreign = s.foreign := rfl
@[simp] theorem State.onColl_addrRecord (i : Nat) (f : CollEngine → CollEngine) : (s.onColl i f).addrRecord = s.addrRecord := rfl
@[simp] theorem State.onColl_announcedAt (i : Nat) (f : CollEngine → CollEngine) : (s.onColl i f).announcedAt = s.announcedAt := rfl
@[simp] theorem State.onColl_adverts (i : Nat) (f : CollEngine → CollEngine) : (s.onColl i f).adverts = s.adverts := rfl
@[simp] theorem State.onColl_rasAt (i : Nat) (f : CollEngine → CollEngine) : (s.onColl i f).rasAt = s.rasAt := rfl
@[simp] theorem State.onColl_rasSeen (i : Nat) (f : CollEngine → CollEngine) : (s.onColl i f).rasSeen = s.rasSeen := rfl
@[simp] theorem State.onColl_rasCorr (i : Nat) (f : CollEngine → CollEngine) : (s.onColl i f).rasCorr = s.rasCorr := rfl
@[simp] theorem State.onColl_uncRows (i : Nat) (f : CollEngine → CollEngine) : (s.onColl i f).uncRows = s.uncRows := rfl
@[simp] theorem State.onColl_rasMet (i : Nat) (f : CollEngine → CollEngine) : (s.onColl i f).rasMet = s.rasMet := rfl
@[simp] theorem State.onColl_marked (i : Nat) (f : CollEngine → CollEngine) : (s.onColl i f).marked = s.marked := rfl
@[simp] theorem State.onColl_retireDue (i : Nat) (f : CollEngine → CollEngine) : (s.onColl i f).retireDue = s.retireDue := rfl
@[simp] theorem State.onColl_repairs (i : Nat) (f : CollEngine → CollEngine) : (s.onColl i f).repairs = s.repairs := rfl
@[simp] theorem State.onColl_verifyAt (i : Nat) (f : CollEngine → CollEngine) : (s.onColl i f).verifyAt = s.verifyAt := rfl

/-! What it sets. -/

@[simp] theorem State.answer_access (a : Status) (v : Word) : (s.answer a v).access = ⟨a, v⟩ := rfl

end Sys2Proof.Machine
end

