-- ==== Sys2Proof/Laws/Table.lean ====
section
/-! SUPPORT. What reading a table after a change of it gives. -/
namespace Sys2Proof.Machine

@[simp] theorem tget?_nil {α : Type} (k : Nat) : tget? ([] : Tab α) k = none := rfl

/-- A key just set holds its value. -/
@[simp] theorem tget?_tset_same {α : Type} (t : Tab α) (k : Nat) (v : α) : tget? (tset t k v) k = some v := by
  induction t with
  | nil => simp [tset, tget?]
  | cons p t ih =>
    obtain ⟨j, w⟩ := p
    simp only [tset]
    split
    · simp [tget?]
    · split
      · simp [tget?]
      · rename_i h; simp [tget?, h, ih]

/-- Setting a key leaves every other key as it was. -/
theorem tget?_tset_ne {α : Type} (t : Tab α) {k i : Nat} (v : α) (h : i ≠ k) : tget? (tset t k v) i = tget? t i := by
  induction t with
  | nil => simp [tset, tget?, Ne.symm h]
  | cons p t ih =>
    obtain ⟨j, w⟩ := p
    simp only [tset]
    split
    · simp [tget?, Ne.symm h]
    · split
      · rename_i e; subst e; simp [tget?, Ne.symm h]
      · simp [tget?, ih]

/-- Reading a table after one key was set. -/
theorem tget?_tset {α : Type} (t : Tab α) (k i : Nat) (v : α) : tget? (tset t k v) i = if i = k then some v else tget? t i := by
  split
  · rename_i h; subst h; exact tget?_tset_same ..
  · rename_i h; exact tget?_tset_ne _ _ h

@[simp] theorem tget_tset_same {α : Type} (d : α) (t : Tab α) (k : Nat) (v : α) : tget d (tset t k v) k = v := by simp [tget]

theorem tget_tset_ne {α : Type} (d : α) (t : Tab α) {k i : Nat} (v : α) (h : i ≠ k) : tget d (tset t k v) i = tget d t i := by
  simp [tget, tget?_tset_ne t v h]

theorem tget_tset {α : Type} (d : α) (t : Tab α) (k i : Nat) (v : α) : tget d (tset t k v) i = if i = k then v else tget d t i := by
  simp only [tget, tget?_tset]; split <;> rfl

/-- Reading a table after one key was dropped. -/
theorem tget?_tdel {α : Type} (t : Tab α) (k i : Nat) : tget? (tdel t k) i = if i = k then none else tget? t i := by
  induction t with
  | nil => simp [tdel]
  | cons p t ih =>
    obtain ⟨j, w⟩ := p
    simp only [tdel, List.filter_cons] at *
    by_cases h : j = k
    · subst h
      simp only [bne_self_eq_false, Bool.false_eq_true, if_false, ih, tget?]
      by_cases e : i = j
      · simp [e]
      · simp [e, Ne.symm e]
    · simp only [bne_iff_ne, ne_eq, h, not_false_eq_true, if_true, tget?, ih]
      by_cases e : i = k
      · subst e; simp [h]
      · simp [e]

@[simp] theorem tget?_tdel_same {α : Type} (t : Tab α) (k : Nat) : tget? (tdel t k) k = none := by simp [tget?_tdel]

theorem tget?_tdel_ne {α : Type} (t : Tab α) {k i : Nat} (h : i ≠ k) : tget? (tdel t k) i = tget? t i := by simp [tget?_tdel, h]

/-- A number is in a list after an insertion iff it is the number inserted or was there. -/
@[simp] theorem mem_sins (l : List Nat) (k i : Nat) : i ∈ sins l k ↔ i = k ∨ i ∈ l := by
  induction l with
  | nil => simp [sins]
  | cons j l ih =>
    simp only [sins]
    split
    · simp
    · split
      · rename_i h; subst h; simp
      · simp [ih]; constructor <;> (rintro (h | h | h) <;> simp [h])

@[simp] theorem mem_sdel (l : List Nat) (k i : Nat) : i ∈ sdel l k ↔ i ∈ l ∧ i ≠ k := by simp [sdel]

/-- What a search below `n` finds has the property and is below `n`. -/
theorem findIdx_some {p : Nat → Bool} {n i : Nat} (h : findIdx p n = some i) : p i = true ∧ i < n := by
  unfold findIdx at h
  exact ⟨List.find?_some h, by simpa using List.mem_of_find?_eq_some h⟩

end Sys2Proof.Machine
end

