-- ==== Sys2Proof/Laws/Parts.lean ====
section
/-! SUPPORT. What reading a core, a controller, a stack, a connection, a port, a Welt unit or a session gives after one of them was set. -/
namespace Sys2Proof.Machine

variable (s : State)

/-! Cores and their parts. -/

@[simp] theorem State.core_setCore_same (k : Nat) (c : Core) : (s.setCore k c).core k = c := by simp [State.core, State.setCore]
theorem State.core_setCore_ne {k j : Nat} (c : Core) (h : j ≠ k) : (s.setCore k c).core j = s.core j := by simp [State.core, State.setCore, tget_tset_ne _ _ _ h]
@[simp] theorem State.core_onCore_same (k : Nat) (f : Core → Core) : (s.onCore k f).core k = f (s.core k) := by simp [State.onCore]
theorem State.core_onCore_ne {k j : Nat} (f : Core → Core) (h : j ≠ k) : (s.onCore k f).core j = s.core j := State.core_setCore_ne _ _ h

/-- A core is the same where the table of cores is. -/
theorem State.core_congr {s t : State} (h : t.cores = s.cores) (k : Nat) : t.core k = s.core k := by simp [State.core, h]

variable (c : Core)

@[simp] theorem Core.arr_setArr_same (a : Nat) (m : MatArray) : (c.setArr a m).arr a = m := by simp [Core.arr, Core.setArr]
theorem Core.arr_setArr_ne {a b : Nat} (m : MatArray) (h : b ≠ a) : (c.setArr a m).arr b = c.arr b := by simp [Core.arr, Core.setArr, tget_tset_ne _ _ _ h]
@[simp] theorem Core.chan_setChan_same (n : Nat) (x : Chan) : (c.setChan n x).chan n = x := by simp [Core.chan, Core.setChan]
theorem Core.chan_setChan_ne {n m : Nat} (x : Chan) (h : m ≠ n) : (c.setChan n x).chan m = c.chan m := by simp [Core.chan, Core.setChan, tget_tset_ne _ _ _ h]

/-! The rest. -/

theorem ctlKey_inj {d e k j : Nat} (hk : k < 6) (hj : j < 6) (h : ctlKey d k = ctlKey e j) : d = e ∧ k = j := by simp only [ctlKey] at h; omega

@[simp] theorem State.ctl_onCtl_same (d k : Nat) (f : Controller → Controller) : (s.onCtl d k f).ctl d k = f (s.ctl d k) := by simp [State.ctl, State.onCtl]
theorem State.ctl_onCtl_ne {d e k j : Nat} (f : Controller → Controller) (h : ctlKey e j ≠ ctlKey d k) : (s.onCtl d k f).ctl e j = s.ctl e j := by simp [State.ctl, State.onCtl, tget_tset_ne _ _ _ h]
@[simp] theorem State.stackRun_setRun_same (d g : Nat) (r : StackRun) : (s.setRun d g r).stackRun d g = r := by simp [State.stackRun, State.setRun]
@[simp] theorem State.conn_setConn_same (u v : Nat) (c : Conn) : (s.setConn u v c).conn u v = c := by simp [State.conn, State.setConn]
theorem State.conn_setConn_ne {u v x y : Nat} (c : Conn) (h : connKey x y ≠ connKey u v) : (s.setConn u v c).conn x y = s.conn x y := by simp [State.conn, State.setConn, tget_tset_ne _ _ _ h]
@[simp] theorem State.rx_setRx_same (h : Nat) (x : HostRx) : (s.setRx h x).rx h = x := by simp [State.rx, State.setRx]
theorem State.rx_setRx_ne {h j : Nat} (x : HostRx) (n : j ≠ h) : (s.setRx h x).rx j = s.rx j := by simp [State.rx, State.setRx, tget_tset_ne _ _ _ n]
@[simp] theorem State.welt_onWelt_same (h : Nat) (f : WeltRun → WeltRun) : (s.onWelt h f).welt h = f (s.welt h) := by simp [State.welt, State.onWelt]
theorem State.welt_onWelt_ne {h j : Nat} (f : WeltRun → WeltRun) (n : j ≠ h) : (s.onWelt h f).welt j = s.welt j := by simp [State.welt, State.onWelt, tget_tset_ne _ _ _ n]
@[simp] theorem State.coll_onColl_same (h : Nat) (f : CollEngine → CollEngine) : (s.onColl h f).coll h = f (s.coll h) := by simp [State.coll, State.onColl]
theorem State.coll_onColl_ne {h j : Nat} (f : CollEngine → CollEngine) (n : j ≠ h) : (s.onColl h f).coll j = s.coll j := by simp [State.coll, State.onColl, tget_tset_ne _ _ _ n]

/-! A register write leaves every unit's own state. -/

@[simp] theorem State.core_setReg (r : Reg) (v : Word) (k : Nat) : (s.setReg r v).core k = s.core k := rfl
@[simp] theorem State.core_setFld (r : Reg) (f : Fld) (v k : Nat) : (s.setFld r f v).core k = s.core k := rfl
@[simp] theorem State.core_bump (r : Reg) (f : Fld) (v k : Nat) : (s.bump r f v).core k = s.core k := rfl
@[simp] theorem State.core_count (r : Reg) (f : Fld) (v k : Nat) : (s.count r f v).core k = s.core k := rfl

/-! A session. -/

@[simp] theorem State.sessions_setSession (k : Nat) (x : Session) : (s.setSession k x).sessions = tset s.sessions k x := rfl
@[simp] theorem State.sessions_freeSession (k : Nat) : (s.freeSession k).sessions = tdel s.sessions k := rfl

end Sys2Proof.Machine
end

