-- ==== Sys2Proof/Laws/Bits.lean ====
section
/-! SUPPORT. Bit fields: what reading a field after a write of one gives. -/
namespace Sys2Proof.Machine

/-- A field is below its range. -/
theorem bits_lt (w hi lo : Nat) : bits w hi lo < 2 ^ (hi + 1 - lo) := Nat.mod_lt _ (Nat.two_pow_pos _)

/-- A bit of a field is a bit of the number, `lo` places up. -/
theorem testBit_bits (w hi lo k : Nat) : (bits w hi lo).testBit k = (decide (k < hi + 1 - lo) && w.testBit (lo + k)) := by
  simp [bits, Nat.testBit_mod_two_pow, Nat.testBit_div_two_pow, Nat.add_comm]

/-- The bits of a number with a field written: inside the field the value's, outside it the number's own. -/
theorem testBit_setBits (w hi lo v k : Nat) (h : lo ≤ hi) :
    (setBits w hi lo v).testBit k = if lo ≤ k ∧ k ≤ hi then v.testBit (k - lo) else w.testBit k := by
  unfold setBits
  rw [Nat.testBit_two_pow_mul_add _ (Nat.mod_lt _ (Nat.two_pow_pos _))]
  by_cases a : k < lo
  · have : ¬lo ≤ k := by omega
    simp [a, this]
  · rw [if_neg a, Nat.testBit_two_pow_mul_add _ (Nat.mod_lt _ (Nat.two_pow_pos _))]
    by_cases c : k ≤ hi
    · have : k - lo < hi + 1 - lo := by omega
      simp [this, c, Nat.le_of_not_lt a]
    · have d : ¬k - lo < hi + 1 - lo := by omega
      rw [if_neg d, if_neg (by omega), Nat.testBit_div_two_pow, Nat.testBit_div_two_pow]
      congr 1; omega

/-- A field just written holds the low bits of the value. -/
@[simp] theorem bits_setBits_same (w hi lo v : Nat) (h : lo ≤ hi) : bits (setBits w hi lo v) hi lo = v % 2 ^ (hi + 1 - lo) := by
  refine Nat.eq_of_testBit_eq fun k => ?_
  rw [testBit_bits, testBit_setBits _ _ _ _ _ h, Nat.testBit_mod_two_pow]
  by_cases c : k < hi + 1 - lo
  · rw [if_pos (by omega)]; simp
  · simp [c]

/-- A field that lies outside the one written reads as before. -/
theorem bits_setBits_out (w hi lo v hi' lo' : Nat) (h : lo ≤ hi) (o : hi' < lo ∨ hi < lo') :
    bits (setBits w hi lo v) hi' lo' = bits w hi' lo' := by
  refine Nat.eq_of_testBit_eq fun k => ?_
  rw [testBit_bits, testBit_bits, testBit_setBits _ _ _ _ _ h]
  by_cases c : k < hi' + 1 - lo'
  · rw [if_neg (by omega)]
  · simp [c]

/-- A word with a field written is a word. -/
theorem setBits_lt {w hi lo v n : Nat} (h : lo ≤ hi) (a : hi < n) (b : w < 2 ^ n) : setBits w hi lo v < 2 ^ n := by
  refine Nat.lt_pow_two_of_testBit _ fun k hk => ?_
  rw [testBit_setBits _ _ _ _ _ h, if_neg (by omega)]
  exact Nat.testBit_lt_two_pow (Nat.lt_of_lt_of_le b (Nat.pow_le_pow_right (by omega) hk))

/-- A bit is the one-bit field at its place. -/
theorem bitAt_eq_bits (w k : Nat) : bitAt w k = (bits w k k == 1) := by simp [bitAt, bits]

@[simp] theorem bitAt_setBit_same (w k : Nat) (b : Bool) : bitAt (setBit w k b) k = b := by
  rw [bitAt_eq_bits, setBit, bits_setBits_same _ _ _ _ (Nat.le_refl _)]; cases b <;> simp

theorem bitAt_setBits_out (w hi lo v k : Nat) (h : lo ≤ hi) (o : k < lo ∨ hi < k) : bitAt (setBits w hi lo v) k = bitAt w k := by
  rw [bitAt_eq_bits, bitAt_eq_bits, bits_setBits_out _ _ _ _ _ _ h o]

theorem bitAt_setBit_ne (w k j : Nat) (b : Bool) (h : j ≠ k) : bitAt (setBit w k b) j = bitAt w j :=
  bitAt_setBits_out _ _ _ _ _ (Nat.le_refl _) (by omega)

@[simp] theorem flag_eq_one (b : Bool) : flag b = 1 ↔ b = true := by cases b <;> simp [flag]
@[simp] theorem flag_eq_zero (b : Bool) : flag b = 0 ↔ b = false := by cases b <;> simp [flag]
theorem flag_lt (b : Bool) : flag b < 2 := by cases b <;> simp [flag]

end Sys2Proof.Machine
end

