-- ==== Sys2Proof/Laws/Regs.lean ====
section
/-! SUPPORT. The register file: what reading a register or a field after a write of one gives, and what a write leaves as it was. -/
namespace Sys2Proof.Machine

/-! A whole register. -/

@[simp] theorem State.reg_setReg_same (s : State) (r : Reg) (v : Word) : (s.setReg r v).reg r = v := by simp [State.reg, State.setReg]

theorem State.reg_setReg_ne (s : State) {r q : Reg} (v : Word) (h : q.addr ≠ r.addr) : (s.setReg r v).reg q = s.reg q := by
  simp [State.reg, State.setReg, tget?_tset_ne _ _ h]

theorem State.fld_setReg_ne (s : State) {r q : Reg} (f : Fld) (v : Word) (h : q.addr ≠ r.addr) : (s.setReg r v).fld q f = s.fld q f := by
  simp [State.fld, State.reg_setReg_ne _ _ h]

@[simp] theorem State.fld_setReg_same (s : State) (r : Reg) (f : Fld) (v : Word) : (s.setReg r v).fld r f = bits v.toNat f.hi f.lo := by simp [State.fld]

/-- A field is in its range. -/
theorem State.fld_lt (s : State) (r : Reg) (f : Fld) : s.fld r f < 2 ^ (f.hi + 1 - f.lo) := bits_lt ..

/-! A field. -/

/-- The value of a register after a field of it was set. -/
theorem State.toNat_reg_setFld (s : State) (r : Reg) (f : Fld) (v : Nat) (h : f.lo ≤ f.hi) (k : f.hi < 64) :
    ((s.setFld r f v).reg r).toNat = setBits (s.reg r).toNat f.hi f.lo v := by
  have : setBits (s.reg r).toNat f.hi f.lo v < 2 ^ 64 := setBits_lt h k (s.reg r).isLt
  simp only [State.setFld, State.reg_setReg_same, BitVec.toNat_ofNat]
  exact Nat.mod_eq_of_lt this

/-- A field just set holds the low bits of the value. -/
theorem State.fld_setFld_same (s : State) (r : Reg) (f : Fld) (v : Nat) (h : f.lo ≤ f.hi) (k : f.hi < 64) :
    (s.setFld r f v).fld r f = v % 2 ^ (f.hi + 1 - f.lo) := by
  simp only [State.fld, State.toNat_reg_setFld _ _ _ _ h k, bits_setBits_same _ _ _ _ h]

/-- Setting a field leaves the other fields of its register. -/
theorem State.fld_setFld_other (s : State) (r : Reg) (f g : Fld) (v : Nat) (h : f.lo ≤ f.hi) (k : f.hi < 64) (o : g.hi < f.lo ∨ f.hi < g.lo) :
    (s.setFld r f v).fld r g = s.fld r g := by
  simp only [State.fld, State.toNat_reg_setFld _ _ _ _ h k, bits_setBits_out _ _ _ _ _ _ h o]

/-- Setting a field leaves every other register. -/
theorem State.reg_setFld_ne (s : State) {r q : Reg} (f : Fld) (v : Nat) (h : q.addr ≠ r.addr) : (s.setFld r f v).reg q = s.reg q :=
  State.reg_setReg_ne _ _ h

theorem State.fld_setFld_ne (s : State) {r q : Reg} (f g : Fld) (v : Nat) (h : q.addr ≠ r.addr) : (s.setFld r f v).fld q g = s.fld q g :=
  State.fld_setReg_ne _ _ _ h

/-- A saturating count of a field. -/
theorem State.fld_bump_same (s : State) (r : Reg) (f : Fld) (n : Nat) (h : f.lo ≤ f.hi) (k : f.hi < 64) :
    (s.bump r f n).fld r f = satAdd (f.hi + 1 - f.lo) (s.fld r f) n := by
  rw [State.bump, State.fld_setFld_same _ _ _ _ h k]
  refine Nat.mod_eq_of_lt ?_
  have := Nat.two_pow_pos (f.hi + 1 - f.lo)
  simp only [satAdd]; omega

theorem State.fld_bump_ne (s : State) {r q : Reg} (f g : Fld) (n : Nat) (h : q.addr ≠ r.addr) : (s.bump r f n).fld q g = s.fld q g :=
  State.fld_setFld_ne _ _ _ _ h

theorem State.fld_bump_other (s : State) (r : Reg) (f g : Fld) (n : Nat) (h : f.lo ≤ f.hi) (k : f.hi < 64) (o : g.hi < f.lo ∨ f.hi < g.lo) :
    (s.bump r f n).fld r g = s.fld r g := State.fld_setFld_other _ _ _ _ _ h k o

/-- A wrapping count of a field. -/
theorem State.fld_count_same (s : State) (r : Reg) (f : Fld) (n : Nat) (h : f.lo ≤ f.hi) (k : f.hi < 64) :
    (s.count r f n).fld r f = (s.fld r f + n) % 2 ^ (f.hi + 1 - f.lo) := by
  rw [State.count, State.fld_setFld_same _ _ _ _ h k, Nat.mod_mod]

theorem State.fld_count_ne (s : State) {r q : Reg} (f g : Fld) (n : Nat) (h : q.addr ≠ r.addr) : (s.count r f n).fld q g = s.fld q g :=
  State.fld_setFld_ne _ _ _ _ h

theorem State.fld_count_other (s : State) (r : Reg) (f g : Fld) (n : Nat) (h : f.lo ≤ f.hi) (k : f.hi < 64) (o : g.hi < f.lo ∨ f.hi < g.lo) :
    (s.count r f n).fld r g = s.fld r g := State.fld_setFld_other _ _ _ _ _ h k o

/-! A register back at its reset value. -/

@[simp] theorem State.reg_resetReg_same (s : State) (r : Reg) : (s.resetReg r).reg r = r.resetWord := by simp [State.reg, State.resetReg]

theorem State.reg_resetReg_ne (s : State) {r q : Reg} (h : q.addr ≠ r.addr) : (s.resetReg r).reg q = s.reg q := by
  simp [State.reg, State.resetReg, tget?_tdel_ne _ h]

/-! What differs in the register file. -/

theorem SameRegs.refl (s : State) (rs : List Reg) : SameRegs s s rs := fun _ _ => rfl

theorem SameRegs.trans {s t u : State} {rs : List Reg} (a : SameRegs s t rs) (b : SameRegs t u rs) : SameRegs s u rs :=
  fun x h => (b x h).trans (a x h)

/-- Registers are the same where the files are. -/
theorem SameRegs.of_regs {s t : State} {rs : List Reg} (h : t.regs = s.regs) : SameRegs s t rs := fun x _ => by rw [h]

/-- A listed register may be set. -/
theorem SameRegs.setReg {s t : State} {rs : List Reg} {r : Reg} (v : Word) (a : SameRegs s t rs) (h : r ∈ rs) : SameRegs s (t.setReg r v) rs :=
  fun x k => by
    have : x ≠ r.addr := fun e => k (List.mem_map.2 ⟨r, h, e.symm⟩)
    simpa [State.setReg, tget?_tset_ne _ _ this] using a x k

theorem SameRegs.setFld {s t : State} {rs : List Reg} {r : Reg} (f : Fld) (v : Nat) (a : SameRegs s t rs) (h : r ∈ rs) : SameRegs s (t.setFld r f v) rs := a.setReg _ h
theorem SameRegs.bump {s t : State} {rs : List Reg} {r : Reg} (f : Fld) (v : Nat) (a : SameRegs s t rs) (h : r ∈ rs) : SameRegs s (t.bump r f v) rs := a.setReg _ h
theorem SameRegs.count {s t : State} {rs : List Reg} {r : Reg} (f : Fld) (v : Nat) (a : SameRegs s t rs) (h : r ∈ rs) : SameRegs s (t.count r f v) rs := a.setReg _ h

theorem SameRegs.resetReg {s t : State} {rs : List Reg} {r : Reg} (a : SameRegs s t rs) (h : r ∈ rs) : SameRegs s (t.resetReg r) rs :=
  fun x k => by
    have : x ≠ r.addr := fun e => k (List.mem_map.2 ⟨r, h, e.symm⟩)
    simpa [State.resetReg, tget?_tdel_ne _ this] using a x k

/-- A register that is not listed reads as before. -/
theorem SameRegs.reg {s t : State} {rs : List Reg} (a : SameRegs s t rs) {q : Reg} (h : q.addr ∉ rs.map Reg.addr) : t.reg q = s.reg q := by
  simp only [State.reg, a _ h]

theorem SameRegs.fld {s t : State} {rs : List Reg} (a : SameRegs s t rs) {q : Reg} (g : Fld) (h : q.addr ∉ rs.map Reg.addr) : t.fld q g = s.fld q g := by
  simp only [State.fld, a.reg h]

theorem OnlyRegs.refl (s : State) (rs : List Reg) : OnlyRegs s s rs := ⟨⟨s.regs, s.latest, rfl⟩, fun _ _ => rfl⟩

theorem OnlyRegs.setReg {s t : State} {rs : List Reg} {r : Reg} (v : Word) (a : OnlyRegs s t rs) (h : r ∈ rs) : OnlyRegs s (t.setReg r v) rs := by
  obtain ⟨⟨g, l, rfl⟩, b⟩ := a
  exact ⟨⟨_, _, rfl⟩, (SameRegs.setReg (t := { s with regs := g, latest := l }) v b h)⟩

/-- What hardware did to a register may be noted. -/
theorem OnlyRegs.noteFld {s t : State} {rs : List Reg} {r : Reg} (f : Fld) (v : Nat) (a : OnlyRegs s t rs) : OnlyRegs s (t.noteFld r f v) rs := by
  obtain ⟨⟨g, l, rfl⟩, b⟩ := a
  exact ⟨⟨_, _, rfl⟩, b⟩

theorem OnlyRegs.setW1c {s t : State} {rs : List Reg} {r : Reg} (f : Fld) (a : OnlyRegs s t rs) (h : r ∈ rs) : OnlyRegs s (t.setW1c r f) rs := (a.setReg _ h).noteFld ..
theorem OnlyRegs.tally {s t : State} {rs : List Reg} {r : Reg} (f : Fld) (v : Nat) (a : OnlyRegs s t rs) (h : r ∈ rs) : OnlyRegs s (t.tally r f v) rs := (a.setReg _ h).noteFld ..

theorem OnlyRegs.setFld {s t : State} {rs : List Reg} {r : Reg} (f : Fld) (v : Nat) (a : OnlyRegs s t rs) (h : r ∈ rs) : OnlyRegs s (t.setFld r f v) rs := a.setReg _ h
theorem OnlyRegs.bump {s t : State} {rs : List Reg} {r : Reg} (f : Fld) (v : Nat) (a : OnlyRegs s t rs) (h : r ∈ rs) : OnlyRegs s (t.bump r f v) rs := a.setReg _ h
theorem OnlyRegs.count {s t : State} {rs : List Reg} {r : Reg} (f : Fld) (v : Nat) (a : OnlyRegs s t rs) (h : r ∈ rs) : OnlyRegs s (t.count r f v) rs := a.setReg _ h

theorem OnlyRegs.resetReg {s t : State} {rs : List Reg} {r : Reg} (a : OnlyRegs s t rs) (h : r ∈ rs) : OnlyRegs s (t.resetReg r) rs := by
  obtain ⟨⟨g, l, rfl⟩, b⟩ := a
  exact ⟨⟨_, _, rfl⟩, (SameRegs.resetReg (t := { s with regs := g, latest := l }) b h)⟩

theorem OnlyRegs.clearReg {s t : State} {rs : List Reg} {r : Reg} (a : OnlyRegs s t rs) (h : r ∈ rs) : OnlyRegs s (t.clearReg r) rs := by
  unfold State.clearReg
  split
  · exact a.resetReg h
  · exact a.setReg _ h

/-- A counter register cleared reads what it has counted in this cycle (01 R28). -/
theorem State.reg_clearReg_same (s : State) (r : Reg) (h : r.resetWord = 0#64) : (s.clearReg r).reg r = BitVec.ofNat 64 (s.thisCycle r) := by
  unfold State.clearReg
  split
  · next e => simp only [beq_iff_eq] at e; simp [h, e]
  · simp

/-- Steps that each change only listed registers change only these together. -/
theorem OnlyRegs.foldl {α : Type} {s : State} {rs : List Reg} {f : State → α → State} (l : List α)
    (h : ∀ t x, x ∈ l → OnlyRegs s t rs → OnlyRegs s (f t x) rs) {t : State} (a : OnlyRegs s t rs) : OnlyRegs s (l.foldl f t) rs := by
  induction l generalizing t with
  | nil => exact a
  | cons x l ih => exact ih (fun t y hy => h t y (List.mem_cons_of_mem _ hy)) (h t x List.mem_cons_self a)

theorem OnlyRegs.same {s t : State} {rs : List Reg} (a : OnlyRegs s t rs) : SameRegs s t rs := a.2

end Sys2Proof.Machine
end

