-- ==== Sys2Proof/Laws/Access.lean ====
section
/-! SUPPORT. What one register command, one slot operation and one DCP command do, once the conditions of Safety hold. -/
namespace Sys2Proof.Machine

variable {s t : State}

@[simp] theorem State.live_run {f : State → Host.Outcome State Fault Refusal} (h : s.life = .running) : s.live f = f s := by simp [State.live, h]

/-- Where nothing bars the actor, its access is made. -/
theorem State.byActor_of {a : Actor} {x : Nat} (p : s.barred a x = false) (f : State → State) : s.byActor a x f = f s := by
  unfold State.barred at p
  unfold State.byActor
  split
  · simp only [Bool.or_eq_false_iff, Option.isSome_eq_false_iff, Option.isNone_iff_eq_none] at p
    simp [p]
  · rfl

theorem State.writeCmd_of {a : Actor} {r : Reg} {x : Nat} (v : Nat) (l : s.life = .running) (p : s.barred a x = false) (g : s.regTarget x = .ok (some r)) (b : s.writeBar a r = none) :
    s.writeCmd a x v = .next ((s.writeAct a r v).1.answer (s.writeAct a r v).2 0) := by
  simp only [State.writeCmd, State.live_run l, State.byActor_of p, State.regWrite, g, b]

theorem State.readCmd_of {a : Actor} {r : Reg} {x : Nat} (l : s.life = .running) (p : s.barred a x = false) (g : s.regTarget x = .ok (some r)) (b : s.readBar a r = none) :
    s.readCmd a x = .next ((s.readAct r).1.answer .ok (s.readAct r).2) := by
  simp only [State.readCmd, State.live_run l, State.byActor_of p, State.regRead, g, b]

/-- A write that reaches its register is performed by the register's own rule. -/
theorem Writable.cmd {a : Actor} {r : Reg} (h : Writable s a r) (v : Nat) : s.writeCmd a r.addr v = .next ((s.writeAct a r v).1.answer (s.writeAct a r v).2 0) :=
  State.writeCmd_of v h.1 h.2.1 h.2.2.1 h.2.2.2

/-- A read that reaches its register answers what the register shows, with what the read itself changes. -/
theorem Readable.cmd {a : Actor} {r : Reg} (h : Readable s a r) : s.readCmd a r.addr = .next ((s.readAct r).1.answer .ok (s.readAct r).2) :=
  State.readCmd_of h.1 h.2.1 h.2.2.1 h.2.2.2

/-- A slot operation that issues has its effect on the state it enters, and is noted. -/
theorem SlotIssues.issue {k j op : Nat} {q : Kernel} {b : Bundle} (h : SlotIssues s k j op q b) (eff : Kernel → Nat → State → State) :
    s.issue k j op eff = (eff q (b.op j) (s.entered k q b)).slotDone k j b := by
  obtain ⟨_, hm, hh, hc, hb, hq, ha, hg⟩ := h
  have e : (List.range j).any (fun i => b.has i && !bitAt q.slots i) = false := by
    simp only [List.any_eq_false, List.mem_range]
    intro i hi
    cases hx : b.has i
    · simp
    · simp [ha i hi hx]
  simp only [State.issue, hm, hh, hc, hb, hq, e, State.entered]
  rcases hg with hg | hg
  · simp [hg]
  · by_cases p : q.admitted = true
    · simp [p]
    · simp [p, hg]

/-- A DCP command that is performed, with its own parameters sound, does what its operation does, and is replied to, runs on, waits, or ends its session. -/
theorem Performs.dcp {q : DcpHdr} {o plen dlen k : Nat} {named dlenOk paramOk : Bool} {x : Session} {u : State} (h : Performs s q o plen dlen named k x u) (hd : dlenOk = true) (hp : paramOk = true) (bound : Nat) (act : State → Nat → Session → State × DcpOut) :
    s.dcp q o plen dlenOk paramOk named bound act =
      match (act u k x).2 with
      | .reply st params data => (act u k x).1.reply k ⟨q.seq, o, st, params, data⟩
      | .runs => (act u k x).1.beginCmd k q.seq bound
      | .waits done => (act u k x).1.holdCmd k q.seq bound done
      | .closes => ((act u k x).1.replyOne k ⟨q.seq, o, .ok, [], []⟩).freeSession k := by
  obtain ⟨_, ht, hl, hq, hc, h1, h2, h3, h4⟩ := h
  simp only [Bool.or_eq_false_iff] at h3 hq
  have p : (q.plen == plen) = true := by simp [h1]
  have sound : (q.plen == plen && dlenOk && paramOk && !q.resv && !x.oddHeader q.seq) = true := by simp [p, hd, hp, h3.1, h3.2]
  have good : firstFail [none, need true .range, need true .state] = none := rfl
  simp only [State.dcp, ht, hl, hq.1, hq.2, Bool.or_self, Bool.false_eq_true, if_false, hc, sound]
  (rw [h4, good]) <;> (cases (act u k x).2 <;> rfl)

end Sys2Proof.Machine
end

