-- ==== Sys2Proof/Laws/Issue.lean ====
section
/-! SUPPORT. What issuing an operation of a bundle can do: the parts of the state that no slot operation touches. -/
namespace Sys2Proof.Machine

/-- Nothing outside the core's own side differs: memory, clocks, requests, controllers, update units, pools, sessions and every core but `k`. -/
structure Local (k : Nat) (s t : State) : Prop where
  mem : t.mem = s.mem
  now : t.now = s.now
  coreClock : t.coreClock = s.coreClock
  life : t.life = s.life
  pending : t.pending = s.pending
  reqs : t.reqs = s.reqs
  ctls : t.ctls = s.ctls
  welts : t.welts = s.welts
  pools : t.pools = s.pools
  sessions : t.sessions = s.sessions
  core : ∀ j, j ≠ k → t.core j = s.core j

theorem Local.refl (k : Nat) (s : State) : Local k s s := ⟨rfl, rfl, rfl, rfl, rfl, rfl, rfl, rfl, rfl, rfl, fun _ _ => rfl⟩

theorem Local.trans {k : Nat} {s t u : State} (a : Local k s t) (b : Local k t u) : Local k s u :=
  ⟨b.mem.trans a.mem, b.now.trans a.now, b.coreClock.trans a.coreClock, b.life.trans a.life, b.pending.trans a.pending, b.reqs.trans a.reqs, b.ctls.trans a.ctls, b.welts.trans a.welts,
    b.pools.trans a.pools, b.sessions.trans a.sessions, fun j h => (b.core j h).trans (a.core j h)⟩

variable (s : State) (k : Nat)

theorem local_onCore (f : Core → Core) : Local k s (s.onCore k f) := ⟨rfl, rfl, rfl, rfl, rfl, rfl, rfl, rfl, rfl, rfl, fun _ h => State.core_onCore_ne _ _ h⟩
theorem local_setCore (c : Core) : Local k s (s.setCore k c) := ⟨rfl, rfl, rfl, rfl, rfl, rfl, rfl, rfl, rfl, rfl, fun _ h => State.core_setCore_ne _ _ h⟩
theorem local_setReg (r : Reg) (v : Word) : Local k s (s.setReg r v) := ⟨rfl, rfl, rfl, rfl, rfl, rfl, rfl, rfl, rfl, rfl, fun _ _ => rfl⟩
theorem local_setFld (r : Reg) (f : Fld) (v : Nat) : Local k s (s.setFld r f v) := local_setReg ..
theorem local_setW1c (r : Reg) (f : Fld) : Local k s (s.setW1c r f) := ⟨rfl, rfl, rfl, rfl, rfl, rfl, rfl, rfl, rfl, rfl, fun _ _ => rfl⟩
theorem local_bump (r : Reg) (f : Fld) (n : Nat) : Local k s (s.bump r f n) := local_setReg ..
theorem local_count (r : Reg) (f : Fld) (n : Nat) : Local k s (s.count r f n) := local_setReg ..

/-- A freeze touches the core and its stall counters. -/
theorem local_freeze : Local k s (s.freeze k) := by
  unfold State.freeze
  split
  · exact .refl ..
  · exact ((local_onCore ..).trans (local_bump ..)).trans (local_bump ..)

theorem local_correctAt (t : Nat) : Local k s (s.correctAt k t) := by
  unfold State.correctAt
  split
  · exact local_freeze ..
  · exact local_onCore ..

/-- Stopping a ring with a fault writes registers only. -/
theorem local_faultRing (d i : Nat) (st : Status) (b sl : Nat) : Local k s (s.faultRing d i st b sl) := by
  unfold State.faultRing
  exact (((((local_setFld ..).trans (local_setFld ..)).trans (local_setFld ..)).trans (local_setFld ..)).trans (local_setFld ..)).trans (local_setFld ..)

theorem local_refuse (st : Status) (b sl : Nat) : Local k s (s.refuse k st b sl) := by
  unfold State.refuse
  split
  · exact .refl ..
  · split
    · exact .refl ..
    · exact (local_onCore ..).trans (local_faultRing ..)

theorem Local.ite {k : Nat} {s a b : State} (p : Prop) [Decidable p] (x : Local k s a) (y : Local k s b) : Local k s (if p then a else b) := by split <;> assumption

theorem local_consume (b : Bundle) (sq : Bool) : Local k s (s.consume k b sq) := by
  unfold State.consume
  split
  · exact .refl ..
  · have two : ∀ (u : State) (r r' : Reg) (f f' : Fld) (v v' : Nat), Local k u ((u.setFld r f v).setFld r' f' v') := fun u r r' f f' v v' => (local_setFld ..).trans (local_setFld ..)
    have seen : ∀ (u : State) (r r' : Reg) (f f' : Fld) (v : Nat), Local k u ((u.setFld r f v).setW1c r' f') := fun u r r' f f' v => (local_setFld ..).trans (local_setW1c ..)
    refine Local.trans (Local.ite _ ?_ (.refl ..)) (Local.trans (local_onCore _ _ _) (Local.ite _ (.refl ..) (Local.ite _ (Local.ite _ (.refl ..) (seen ..)) (two ..))))
    exact (local_count ..).trans (local_count ..)

theorem local_slotDone (j : Nat) (b : Bundle) : Local k s (s.slotDone k j b) := by
  unfold State.slotDone
  split
  · exact .refl ..
  · dsimp only; split
    · exact (local_onCore ..).trans (local_consume ..)
    · exact local_onCore ..

theorem local_settle : Local k s (s.settle k) := by
  unfold State.settle; dsimp only; split
  · exact .refl ..
  · exact local_setCore ..

/-- What the wait of a bundle does stays in its core and its ring's registers. -/
theorem local_wait (q : Kernel) (b : Bundle) (w : State) (h : s.admission k q b = .wait w) : Local k s w := by
  unfold State.admission at h
  dsimp only at h
  repeat' split at h
  all_goals first
    | (cases h; exact .refl ..)
    | (cases h; exact local_setCore ..)
    | (cases h; exact ((local_onCore ..).trans (local_setFld ..)).trans (local_setFld ..))
    | cases h

/-- Everything `issue` can do beside its effect stays in the core and its registers. -/
theorem local_issue (j op : Nat) (eff : Kernel → Nat → State → State) (h : ∀ (q : Kernel) (w : Nat) (u : State), Local k u (eff q w u)) : Local k s (s.issue k j op eff) := by
  unfold State.issue
  split
  · exact .refl ..
  · rename_i q b hb
    dsimp only
    split
    · exact .refl ..
    · split
      · exact (h ..).trans (local_slotDone ..)
      · split
        · rename_i w hw; exact (local_settle ..).trans (local_wait _ _ _ _ _ hw)
        · exact (local_settle ..).trans (local_refuse ..)
        · exact (local_settle ..).trans ((local_onCore ..).trans ((h ..).trans (local_slotDone ..)))

end Sys2Proof.Machine
end

