-- ==== Sys2Proof/Laws/Memory.lean ====
section
/-! SUPPORT. The laws of memory: every operation keeps the canonical form, a byte written reads back, and every other byte stays. -/
namespace Sys2Proof.Machine

/-! The canonical form. -/

theorem cellsWf_weaken {lo hi : Option Nat} {m : List Host.Cell} (h : cellsWf hi m = true)
    (w : ∀ l, lo = some l → ∃ u, hi = some u ∧ l ≤ u) : cellsWf lo m = true := by
  cases m with
  | nil => rfl
  | cons c t =>
    obtain ⟨k, b⟩ := c
    simp only [cellsWf, Bool.and_eq_true] at h ⊢
    refine ⟨⟨?_, h.1.2⟩, h.2⟩
    cases lo with
    | none => rfl
    | some l =>
      obtain ⟨u, rfl, hu⟩ := w l rfl
      simp only [decide_eq_true_eq] at h ⊢
      omega

theorem cset_wf {lo : Option Nat} {m : List Host.Cell} {a : Nat} (b : Byte) (h : cellsWf lo m = true)
    (ha : ∀ l, lo = some l → l < a) : cellsWf lo (cset m a b) = true := by
  induction m generalizing lo with
  | nil =>
    unfold cset
    split
    · rfl
    · rename_i hb
      cases lo with
      | none => simp [cellsWf, hb]
      | some l => simp [cellsWf, hb, ha l rfl]
  | cons c t ih =>
    obtain ⟨k, e⟩ := c
    simp only [cellsWf, Bool.and_eq_true] at h
    unfold cset
    split
    · rename_i hk
      simp only [cellsWf, Bool.and_eq_true]
      exact ⟨h.1, ih h.2 (fun l hl => by cases hl; exact hk)⟩
    · split
      · rename_i hk hk'
        subst hk'
        split
        · refine cellsWf_weaken h.2 (fun l hl => ⟨k, rfl, Nat.le_of_lt (ha l hl)⟩)
        · rename_i hb
          simp only [cellsWf, Bool.and_eq_true]
          exact ⟨⟨h.1.1, by simp [hb]⟩, h.2⟩
      · rename_i hk hk'
        split
        · simp only [cellsWf, Bool.and_eq_true]; exact h
        · rename_i hb
          simp only [cellsWf, Bool.and_eq_true]
          refine ⟨⟨?_, by simp [hb]⟩, ⟨?_, h.1.2⟩, h.2⟩
          · cases lo with
            | none => rfl
            | some l => simp [ha l rfl]
          · simp only [decide_eq_true_eq]; omega

theorem csetAll_wf {m : List Host.Cell} (a : Nat) (l : List Byte) (h : cellsWf none m = true) : cellsWf none (csetAll m a l) = true := by
  induction l generalizing m a with
  | nil => exact h
  | cons b l ih => exact ih (a + 1) (cset_wf b h (by simp))

theorem cells_filter_wf {lo : Option Nat} {m : List Host.Cell} (p : Host.Cell → Bool) (h : cellsWf lo m = true) : cellsWf lo (m.filter p) = true := by
  induction m generalizing lo with
  | nil => rfl
  | cons c t ih =>
    obtain ⟨k, b⟩ := c
    simp only [cellsWf, Bool.and_eq_true] at h
    rw [List.filter_cons]
    split
    · simp only [cellsWf, Bool.and_eq_true]; exact ⟨h.1, ih h.2⟩
    · refine ih (cellsWf_weaken h.2 (fun l hl => ⟨k, rfl, ?_⟩))
      subst hl
      have := h.1.1
      simp only [decide_eq_true_eq] at this
      omega

theorem csetAll_foldl_wf {α : Type} (ws : List α) (f : α → Nat) (g : α → List Byte) {m : List Host.Cell} (h : cellsWf none m = true) :
    cellsWf none (ws.foldl (fun c w => csetAll c (f w) (g w)) m) = true := by
  induction ws generalizing m with
  | nil => exact h
  | cons w ws ih => exact ih (csetAll_wf _ _ h)

/-! Every operation keeps it. -/

theorem Memory.write_wf {m : Memory} (a : Nat) (l : List Byte) (h : m.wf = true) : (m.write a l).wf = true := csetAll_wf a l h

theorem Memory.writeWords_wf {m : Memory} (row : Nat) (ws : List (Nat × List Byte)) (h : m.wf = true) : (m.writeWords row ws).wf = true :=
  csetAll_foldl_wf ws (fun w => row * 512 + 32 * w.1) (fun w => w.2) h

theorem Memory.writeRow_wf {m : Memory} (row : Nat) (r : RowImg) (h : m.wf = true) : (m.writeRow row r).wf = true := csetAll_wf _ _ h

theorem Memory.zeroRows_wf {m : Memory} (row n : Nat) (h : m.wf = true) : (m.zeroRows row n).wf = true := cells_filter_wf _ h

theorem Memory.setTags_wf {m : Memory} (blk n : Nat) (h : m.wf = true) : (m.setTags blk n).wf = true := cells_filter_wf _ h

@[simp] theorem Memory.hurt_wf (m : Memory) (row word : Nat) (syms : List (Nat × Nat)) : (m.hurt row word syms).wf = m.wf := rfl

@[simp] theorem Memory.repair_wf (m : Memory) (row : Nat) : (m.repair row).wf = m.wf := rfl

/-- Memories of the same cells are canonical together. -/
theorem Memory.wf_congr {m n : Memory} (h : n.cells = m.cells) : n.wf = m.wf := by simp only [Memory.wf, h]

/-! A byte written reads back, and every other byte stays. -/

theorem cget_below {lo : Nat} {m : List Host.Cell} {a : Nat} (h : cellsWf (some lo) m = true) (ha : a ≤ lo) : cget m a = Memory.fill := by
  cases m with
  | nil => rfl
  | cons c t =>
    obtain ⟨k, b⟩ := c
    simp only [cellsWf, Bool.and_eq_true, decide_eq_true_eq] at h
    unfold cget
    rw [if_neg (by omega), if_neg (by omega)]

theorem cget_cset_same {lo : Option Nat} {m : List Host.Cell} (a : Nat) (b : Byte) (h : cellsWf lo m = true) : cget (cset m a b) a = b := by
  induction m generalizing lo with
  | nil =>
    unfold cset
    split
    · rename_i hb; exact hb.symm
    · simp [cget]
  | cons c t ih =>
    obtain ⟨k, e⟩ := c
    simp only [cellsWf, Bool.and_eq_true] at h
    unfold cset
    split
    · rename_i hk
      simp only [cget, hk, if_true]; exact ih h.2
    · split
      · rename_i hk hk'
        subst hk'
        split
        · rename_i hb; rw [cget_below h.2 (Nat.le_refl _), hb]
        · simp [cget]
      · rename_i hk hk'
        split
        · rename_i hb; rw [hb]; unfold cget; rw [if_neg hk, if_neg hk']
        · simp [cget]

theorem cget_cset_other {lo : Option Nat} {m : List Host.Cell} (a c : Nat) (b : Byte) (h : cellsWf lo m = true) (hc : c ≠ a) : cget (cset m a b) c = cget m c := by
  induction m generalizing lo with
  | nil =>
    unfold cset
    split
    · rfl
    · unfold cget cget
      split
      · rfl
      · rw [if_neg (fun x => hc x.symm)]
  | cons d t ih =>
    obtain ⟨k, e⟩ := d
    simp only [cellsWf, Bool.and_eq_true] at h
    unfold cset
    split
    · unfold cget
      rw [ih h.2]
    · split
      · rename_i hk hk'
        subst hk'
        split
        · by_cases hk2 : k < c
          · rw [show cget ((k, e) :: t) c = cget t c from by rw [cget, if_pos hk2]]
          · rw [cget_below h.2 (by omega)]
            simp [cget, hk2, hc.symm]
        · simp [cget, hc.symm]
      · rename_i hk hk'
        split
        · rfl
        · by_cases ha : a < c
          · rw [show cget ((a, b) :: (k, e) :: t) c = cget ((k, e) :: t) c from by rw [cget, if_pos ha]]
          · have : c < k := by omega
            rw [cget, if_neg ha, if_neg (fun x => hc x.symm), cget, if_neg (by omega), if_neg (by omega)]

theorem cget_csetAll_other {m : List Host.Cell} (a c : Nat) (l : List Byte) (h : cellsWf none m = true) (hc : c < a ∨ a + l.length ≤ c) : cget (csetAll m a l) c = cget m c := by
  induction l generalizing m a with
  | nil => rfl
  | cons b l ih =>
    simp only [List.length_cons] at hc
    rw [csetAll, ih (a + 1) (cset_wf b h (by simp)) (by omega), cget_cset_other a c b h (by omega)]

theorem cget_csetAll_in {m : List Host.Cell} (a i : Nat) (l : List Byte) (h : cellsWf none m = true) (hi : i < l.length) : cget (csetAll m a l) (a + i) = l[i] := by
  induction l generalizing m a i with
  | nil => exact absurd hi (by simp)
  | cons b l ih =>
    rw [csetAll]
    cases i with
    | zero => rw [cget_csetAll_other _ _ _ (cset_wf b h (by simp)) (by omega)]; exact cget_cset_same a b h
    | succ i =>
      have := ih (m := cset m a b) (a + 1) i (cset_wf (lo := none) (a := a) b h (by simp)) (by simpa using hi)
      rw [show a + (i + 1) = a + 1 + i by omega, this]; rfl

theorem Memory.byte_write_in {m : Memory} (a i : Nat) (l : List Byte) (h : m.wf = true) (hi : i < l.length) : (m.write a l).byte (a + i) = l[i] := cget_csetAll_in a i l h hi

theorem Memory.byte_write_other {m : Memory} (a c : Nat) (l : List Byte) (h : m.wf = true) (hc : c < a ∨ a + l.length ≤ c) : (m.write a l).byte c = m.byte c :=
  cget_csetAll_other a c l h hc

theorem padRow_length (l : List Byte) : (padRow l).length = 512 := by simp [padRow]; omega

theorem Memory.byte_writeRow_other {m : Memory} (row c : Nat) (r : RowImg) (h : m.wf = true) (hc : c / 512 ≠ row) : (m.writeRow row r).byte c = m.byte c :=
  cget_csetAll_other _ c _ h (by rw [padRow_length]; omega)

theorem Memory.byte_writeRow_in {m : Memory} (row i : Nat) (r : RowImg) (h : m.wf = true) (hi : i < 512) :
    (m.writeRow row r).byte (row * 512 + i) = (padRow r.bytes)[i]'(by rw [padRow_length]; exact hi) :=
  cget_csetAll_in _ i _ h (by rw [padRow_length]; exact hi)

theorem cget_filter {lo : Option Nat} {m : List Host.Cell} (p : Host.Cell → Bool) (q : Nat → Bool) (hp : ∀ k b, p (k, b) = q k) (c : Nat) (h : cellsWf lo m = true) :
    cget (m.filter p) c = if q c then cget m c else Memory.fill := by
  induction m generalizing lo with
  | nil => simp [cget]
  | cons d t ih =>
    obtain ⟨k, e⟩ := d
    simp only [cellsWf, Bool.and_eq_true] at h
    have i := ih h.2
    rw [List.filter_cons, hp]
    by_cases hk : k < c
    · rw [show cget ((k, e) :: t) c = cget t c from by rw [cget, if_pos hk]]
      split
      · rw [cget, if_pos hk]; exact i
      · exact i
    · by_cases he : k = c
      · subst he
        split
        · simp [cget]
        · rename_i hq
          rw [i]; simp [hq]
      · have hz : cget t c = Memory.fill := cget_below h.2 (by omega)
        rw [show cget ((k, e) :: t) c = Memory.fill from by rw [cget, if_neg hk, if_neg he]]
        split
        · rw [cget, if_neg hk, if_neg he]; simp
        · rw [i, hz]

/-- Zeroed rows read as an unlisted byte does, and every other byte stays. -/
theorem Memory.byte_zeroRows {m : Memory} (row n c : Nat) (h : m.wf = true) :
    (m.zeroRows row n).byte c = if row * 512 ≤ c ∧ c < (row + n) * 512 then Memory.fill else m.byte c := by
  have := cget_filter (fun c => !(row * 512 ≤ c.1 && c.1 < (row + n) * 512)) (fun c => !(decide (row * 512 ≤ c) && decide (c < (row + n) * 512))) (fun _ _ => rfl) c h
  unfold Memory.byte Memory.zeroRows
  rw [this]
  by_cases hc : row * 512 ≤ c ∧ c < (row + n) * 512
  · simp [hc]
  · rw [if_neg hc, if_pos]
    simp only [Bool.not_eq_true', Bool.and_eq_false_iff, decide_eq_false_iff_not]
    omega

end Sys2Proof.Machine
end

