-- ==== Sys2Proof/Laws/Service.lean ====
section
/-! SUPPORT. Side effects of the service dies: charges, packets out, alerts and interrupts touch a few registers and tables of their own and nothing else. -/
namespace Sys2Proof.Machine

/-- A register that is no account word, session count, pin status or PENDING word. -/
def Plain (q : Reg) : Prop :=
  (∀ n w, q.addr ≠ (acct n w).addr) ∧ (∀ k, q.addr ≠ (hp .HP_STATUS (sesPort k)).addr) ∧ q.addr ≠ (⟨.PKG_PIN_STATUS, selSv0, 0, 0⟩ : Reg).addr ∧
    ∀ ic x, x < 1024 → q.addr ≠ (icPending ic x).addr

/-- Nothing differs but what charges, packets out, alerts and interrupts change. -/
def Aside (s t : State) : Prop :=
  (∃ g n e w p l a r o, t = { s with regs := g, latest := n, sessions := e, hostWire := w, pulses := p, rawLines := l, alertSince := a, rrSince := r, roundRobin := o }) ∧ ∀ q, Plain q → t.reg q = s.reg q

theorem Aside.refl (s : State) : Aside s s := ⟨⟨s.regs, s.latest, s.sessions, s.hostWire, s.pulses, s.rawLines, s.alertSince, s.rrSince, s.roundRobin, rfl⟩, fun _ _ => rfl⟩

theorem Aside.trans {s t u : State} (a : Aside s t) (b : Aside t u) : Aside s u := by
  obtain ⟨⟨g, n, e, w, p, l, x, r, o, rfl⟩, a⟩ := a
  obtain ⟨⟨g', n', e', w', p', l', x', r', o', rfl⟩, b⟩ := b
  exact ⟨⟨g', n', e', w', p', l', x', r', o', rfl⟩, fun q h => (b q h).trans (a q h)⟩

theorem Aside.fld {s t : State} (a : Aside s t) {q : Reg} (h : Plain q) (f : Fld) : t.fld q f = s.fld q f := by simp only [State.fld, a.2 q h]

theorem Aside.withWire {s t : State} (a : Aside s t) (w : Tab HostOut) : Aside s { t with hostWire := w } := a.trans ⟨⟨_, _, _, w, _, _, _, _, _, rfl⟩, fun _ _ => rfl⟩
theorem Aside.withSince {s t : State} (a : Aside s t) (w : Tab Nat) : Aside s { t with alertSince := w } := a.trans ⟨⟨_, _, _, _, _, _, w, _, _, rfl⟩, fun _ _ => rfl⟩

theorem Aside.foldl {α : Type} {s : State} {f : State → α → State} (l : List α) (h : ∀ t x, Aside t (f t x)) {t : State} (a : Aside s t) : Aside s (l.foldl f t) := by
  induction l generalizing t with
  | nil => exact a
  | cons x l ih => exact ih (a.trans (h t x))

theorem Aside.setReg (s : State) (r : Reg) (v : Word) (h : ∀ q, Plain q → q.addr ≠ r.addr) : Aside s (s.setReg r v) :=
  ⟨⟨_, s.latest, s.sessions, s.hostWire, s.pulses, s.rawLines, s.alertSince, s.rrSince, s.roundRobin, rfl⟩, fun q p => State.reg_setReg_ne _ _ (h q p)⟩

theorem State.aside_charge (s : State) (n w v : Nat) : Aside s (s.charge n w v) := Aside.setReg _ _ _ (fun _ p => p.1 n w)

theorem State.aside_chargePort (s : State) (n : Option Nat) (h tx v : Nat) : Aside s (s.chargePort n h tx v) := by
  cases n with
  | none => exact Aside.refl s
  | some n => exact s.aside_charge _ _ _

theorem State.aside_countSessions (s : State) (k : Nat) : Aside s (s.countSessions (sesPort k)) := Aside.setReg _ _ _ (fun _ p => p.2.1 k)

theorem State.aside_setSession (s : State) (k : Nat) (x : Session) : Aside s (s.setSession k x) :=
  Aside.trans ⟨⟨s.regs, s.latest, tset s.sessions k x, s.hostWire, s.pulses, s.rawLines, s.alertSince, s.rrSince, s.roundRobin, rfl⟩, fun _ _ => rfl⟩ (State.aside_countSessions _ k)

theorem State.aside_freeSession (s : State) (k : Nat) : Aside s (s.freeSession k) :=
  Aside.trans ⟨⟨s.regs, s.latest, tdel s.sessions k, s.hostWire, s.pulses, s.rawLines, s.alertSince, s.rrSince, s.roundRobin, rfl⟩, fun _ _ => rfl⟩ (State.aside_countSessions _ k)

theorem State.aside_onSession (s : State) (k : Nat) (f : Session → Session) : Aside s (s.onSession k f) := by
  unfold State.onSession
  split
  · exact Aside.refl s
  · exact s.aside_setSession _ _

theorem State.aside_sendIn (s : State) (k seq op : Nat) (ev : Bool) (st : Status) (p d : List Byte) : Aside s (s.sendIn k seq op ev st p d) := by
  unfold State.sendIn
  split
  · exact Aside.refl s
  · exact ((s.aside_setSession _ _).withWire _).trans (State.aside_chargePort ..)

theorem State.aside_replyOne (s : State) (k : Nat) (r : DcpReply) : Aside s (s.replyOne k r) := (s.aside_sendIn ..).trans (State.aside_onSession ..)

theorem State.aside_settleCmds (n : Nat) : ∀ (s : State) (k : Nat), Aside s (s.settleCmds k n) := by
  induction n with
  | zero => exact fun s _ => Aside.refl s
  | succ n ih =>
    intro s k
    unfold State.settleCmds
    split
    · exact Aside.refl s
    · split
      · exact Aside.refl s
      · split
        · exact (s.aside_replyOne ..).trans (ih _ _)
        · split
          · exact (s.aside_replyOne ..).trans (ih _ _)
          · exact Aside.refl s

/-- A reply. -/
theorem State.aside_reply (s : State) (k : Nat) (r : DcpReply) : Aside s (s.reply k r) := by
  unfold State.reply
  split
  · exact Aside.refl s
  · split
    · exact (s.aside_replyOne ..).trans (State.aside_settleCmds ..)
    · exact Aside.refl s

/-- An event to a session. -/
theorem State.aside_eventTo (s : State) (k ev : Nat) (st : Status) (p : List Byte) : Aside s (s.eventTo k ev st p) := by
  unfold State.eventTo
  split
  · exact Aside.refl s
  · split
    · exact s.aside_setSession _ _
    · exact (s.aside_setSession _ _).trans (State.aside_sendIn ..)

theorem State.aside_postEvent (s : State) (p : Session → Bool) (ev : Nat) (st : Status) (l : List Byte) : Aside s (s.postEvent p ev st l) :=
  Aside.foldl _ (fun t x => t.aside_eventTo _ _ _ _) (Aside.refl s)

/-- The alerts. -/
theorem State.aside_syncAlerts (s : State) : Aside s s.syncAlerts := by
  refine Aside.foldl _ (fun t i => ?_) (Aside.refl s)
  dsimp only
  split
  · split
    · exact Aside.refl t
    · exact ((Aside.refl t).withSince _).trans (Aside.setReg _ _ _ (fun _ p => p.2.2.1))
  · split
    · exact Aside.setReg _ _ _ (fun _ p => p.2.2.1)
    · exact Aside.refl t

theorem State.aside_noteLine (s : State) (k : Nat) (b : Bool) : Aside s (s.noteLine k b) := by
  unfold State.noteLine
  split
  · exact Aside.refl s
  · exact ⟨⟨_, _, _, _, _, _, _, _, _, rfl⟩, fun _ _ => rfl⟩

theorem State.aside_noteEsc (s : State) (ic : Nat) : Aside s (s.noteEsc ic) := by
  unfold State.noteEsc
  split
  · exact s.aside_noteLine _ _
  · exact Aside.refl s

theorem State.aside_notePending (s : State) (ic x : Nat) (b : Bool) : Aside s (s.notePending ic x b) := ⟨⟨_, _, _, _, _, _, _, _, _, rfl⟩, fun _ _ => rfl⟩

theorem State.aside_setPending (s : State) (ic x : Nat) (h : x < 1024) : Aside s (s.setPending ic x) :=
  have m : Aside s (if s.isPending ic x then s else s.rrBegin ic x) := by
    split
    · exact Aside.refl s
    · exact ⟨⟨_, _, _, _, _, _, _, _, _, rfl⟩, fun _ _ => rfl⟩
  ((m.trans (Aside.setReg _ _ _ (fun _ p => p.2.2.2 ic x h))).trans (State.aside_noteEsc ..)).trans (State.aside_notePending ..)

theorem State.sourceUsed_lt {s : State} {ic x : Nat} (h : s.sourceUsed ic x = true) : x < 1024 := by
  simp only [State.sourceUsed] at h
  split at h <;> simp at h <;> omega

/-- An interrupt raised. -/
theorem State.aside_raise (s : State) (ic x : Nat) : Aside s (s.raise ic x) := by
  unfold State.raise
  generalize (if (ic == 4 && s.sv1) = true then 5 else ic) = ic
  dsimp only
  split
  · exact Aside.refl s
  · rename_i h
    split
    · exact ⟨⟨_, _, _, _, _, _, _, _, _, rfl⟩, fun _ _ => rfl⟩
    · exact s.aside_setPending _ _ (State.sourceUsed_lt (s := s) (ic := ic) (by simpa using h))

/-- A level source met by its line. -/
theorem State.aside_syncLevel (s : State) (ic x : Nat) (line : Bool) : Aside s (s.syncLevel ic x line) := by
  unfold State.syncLevel
  split
  · rename_i h
    simp only [Bool.and_eq_true] at h
    exact s.aside_setPending _ _ (State.sourceUsed_lt h.2)
  · exact Aside.refl s

/-- The lines of a mailbox. -/
theorem State.aside_eyeSync (s : State) (d m : Nat) : Aside s (s.eyeSync d m) := (s.aside_syncLevel ..).trans (State.aside_syncLevel ..)

theorem Aside.mem {s t : State} (h : Aside s t) : t.mem = s.mem := by obtain ⟨⟨_, _, _, _, _, _, _, _, _, rfl⟩, _⟩ := h; rfl
theorem Aside.cores {s t : State} (h : Aside s t) : t.cores = s.cores := by obtain ⟨⟨_, _, _, _, _, _, _, _, _, rfl⟩, _⟩ := h; rfl
theorem Aside.eyeCommits {s t : State} (h : Aside s t) : t.eyeCommits = s.eyeCommits := by obtain ⟨⟨_, _, _, _, _, _, _, _, _, rfl⟩, _⟩ := h; rfl

end Sys2Proof.Machine
end

