-- ==== Sys2Proof/WellFormed.lean ====
section
/-! DEFINITION. Which commands are well formed: what an operand's type does not already hold, where the manual gives the operand a fixed size or range. A meaning asks none of it; statements may. -/
namespace Sys2Proof

/-- A row of 512 bytes (00 R7). -/
def rowBytes (l : List Byte) : Bool := l.length == 512

/-- A link row: 512 bytes and the errors of sixteen words (01 R19, R20). -/
def LinkRow.wf (r : LinkRow) : Bool := rowBytes r.bytes && r.errs.length == 16

/-- A DFT packet: whole payload rows, at most eight, and header fields in their widths (11 R419-R421). -/
def DftPacket.wf (p : DftPacket) : Bool :=
  p.pay.all (fun r => rowBytes r.bytes) && p.pay.length ≤ 8 && p.ver < 16 && p.type < 16 && p.rows ≤ 8 && p.seq < 2 ^ 32 && p.ack < 2 ^ 32 && p.tag < 2 ^ 16 && p.credit < 2 ^ 16 && p.epoch < 256 && p.hop < 256

/-- A byte string of at most `n` bytes. -/
def bytesUpTo (n : Nat) (l : List Byte) : Bool := l.length ≤ n

/-- Whether a list of numbers names none twice. -/
def distinct : List Nat → Bool
  | [] => true
  | a :: l => !l.contains a && distinct l

/-- Whether a command's operands have the sizes the manual gives them. -/
def Instr.wf (i : Instr) : Bool :=
  match i with
  | .linkRowReceive _ _ r => r.wf
  | .linkReplay _ r => r.wf
  | .dftWrite _ p => p.wf
  | .dftRead _ p => p.wf
  | .readData _ p => p.wf
  | .nak _ p => p.wf
  | .ack _ p => p.wf
  | .credit _ p => p.wf
  | .packetForward _ p => p.wf
  | .resync _ p => p.wf
  | .resyncAck _ p => p.wf
  | .collReady _ p => p.wf
  | .collData _ p => p.wf
  | .collAbort _ p => p.wf
  | .announce _ p => p.wf
  | .token _ p => p.wf
  | .tokenEnd _ p => p.wf
  | .patrolRead b row => match b with | .core _ _ => row < 512 | .shared _ _ => row < 8192
  | .l3DemandFill _ addr acc => match acc with | .store l => addr.toNat % 512 + l.length ≤ 512 | _ => true
  | .hello _ _ _ _ key => key.length == 1568
  | .auth _ _ digest _ => digest.length == 64
  | .attest _ nonce => nonce.length == 32
  | .leaseKey _ _ digest => digest.length == 64
  | .memWrite _ _ len data => data.length == len
  | .promptSubmit _ _ _ _ _ text => bytesUpTo 8192 text
  | .dataPush _ _ _ data => bytesUpTo 8192 data
  | .codeLoad _ _ _ _ _ chunk => bytesUpTo 8192 chunk
  | .snapshotPush _ _ _ data => bytesUpTo 8192 data
  | .imageChunk _ _ data => bytesUpTo 8192 data
  | .regRead _ addrs => 1 ≤ addrs.length && addrs.length ≤ 63
  | .regWrite _ writes => 1 ≤ writes.length && writes.length ≤ 31
  | .energyAccrue e _ => distinct (e.work.map (fun x => x.1.val))
  | .pertWrite _ addr _ => addr.toNat / 2 ^ 44 == 8 && addr.toNat % 8 == 0
  | .tapInstruction t => match t with | .privRead a => a.toNat % 8 == 0 | .privWrite a _ => a.toNat % 8 == 0 | _ => true
  | _ => true

end Sys2Proof
end

