-- ==== Sys2Proof/Tests/Slice0.lean ====
section
/-! SUPPORT. Tests: one ill-formed command for each check of Instr.wf, figures of the manual's worked examples, and for every obligation with hypotheses a state and operands that meet them together (test_witness_<statement>_<clause>). -/
namespace Sys2Proof.Tests
open Sys2Proof.Machine

/-- The state right after reset. -/
def r0 : State := State.reset

/-- A kernel of ring 3 for lease 1 with words in its fetch buffer and its first bundle admitted. -/
def k0 (ws : List Word) : Kernel := ⟨3, 1, 0, 0, 0, 0, 0, ws, [], false, 0, false, 0, true, none, none, false, false, false, none, none, false, none, 0, 0, none⟩

/-- Core 0 of CD0 runs a kernel of ring 3, one bundle of which is available. -/
def running (q : Kernel) : State := (r0.setFld (ringReg .RING_PROD 0 3) RING_PROD.PRODUCED 1).setCore 0 { Core.reset with kernel := some q }

/-- The words of a bundle with one operation word `w` in slot `j`. -/
def oneOp (j w : Nat) : List Word := [BitVec.ofNat 64 (2 ^ j + 2048), BitVec.ofNat 64 w]

/-- That bundle. -/
def bun (j w : Nat) : Bundle := ⟨2 ^ j, 2, false, [BitVec.ofNat 64 w]⟩

/-- Core 0 of CD0 is about to issue operation word `w` of slot `j`. -/
def issuing (j w : Nat) : State := running (k0 (oneOp j w))

/-- A core of CD0. -/
def c0 : CoreId := ⟨0, 0⟩

/-- A transfer of one row of stack address 0 into core memory, with `done` rows in. -/
def xf (done : Nat) : Xfer := ⟨9, 0, ⟨0xFFFF, 64, 0, [1, 1, 1, 1], [0, 0, 0, 0], 2, 0, 8, 0, 0, false⟩, 1, 0, 0, done, 0, 0, 0, 0, []⟩

/-- A request at a point, in a stage. -/
def rq (p : GrantPoint) (o : ReqOwner) (w : Bool) (st : Nat) : MemReq := ⟨0, p, 0, 0, 0, 512, w, 1, 1, o, 0, some 1, 0, none, 0, 0, false, st, 0, 0, ⟨[], false⟩, 0, 0, false, false, 0⟩

/-- An Awl thread whose second index is `ix`, of a table of eight rows. -/
def th (ix : Nat) (sc : Bool) : AwlThread := ⟨0, 0, 16, 8, 1, 1, 0, 2, sc, 1, 0, 0, 0, [0, ix], [], [], 0, 6, false, 0, 2⟩

/-- Ring 3 of CD0 is READY for lease 1 on core 0, which lease `h` held last. -/
def readyRing (h : Nat) : State :=
  (((((r0.setFld (leaseCfg 1) LEASE_CFG.STATE 1).setFld (ringReg .RING_CFG 0 3) RING_CFG.LEASE 1).setFld (ringReg .RING_CFG 0 3) RING_CFG.ENABLE 1).setFld (ringReg .RING_CFG 0 3) RING_CFG.SIZE_LOG2 9).setFld
    (ringReg .RING_PROD 0 3) RING_PROD.PRODUCED 1).setReg (tcBind 0) (BitVec.ofNat 64 (h * 2 ^ 56 + 2 ^ 54))

/-- A unit with address 5, a member of the fabric as unit 6 is; peer port 3 is UP. -/
def fab : State :=
  (((((r0.setFld unitAddr UNIT_ADDR.ADDRESS 5).setFld (fabCoord 6) FAB_COORD.VALID 1).setFld (fabCoord 6) FAB_COORD.X 1).setFld fabCfg FAB_CFG.EXT_X_M1 1).setFld fabCfg FAB_CFG.ENABLE 1).setFld (portRegs (.peer 3)).2.1 PEER_PORT_STATUS.UP 1

/-- A packet of unit 6 for unit 5 on channel 2 with one row. -/
def pk (type : Nat) : DftPacket := ⟨{ srcPort := fab.dftPort, dstPort := fab.dftPort }, 1, type, 2, false, false, true, 6, 5, 1, 1, 0, 0, 0, 7, 0, .ok, 0, 9, if type == 2 then [] else [⟨[4, 0], false⟩], 0, 0⟩

/-- The state in which a packet acts. -/
def arrived (s : State) (p : DftPacket) : State := ((s.frameIn 3 p).1.takeIn 3 p).1

/-- A management packet of a KIND. -/
def mg (kind : Byte) : DftPacket := { pk 8 with vc := 0, pay := [⟨[kind, 0], false⟩] }

/-- The engine of IO0 has a descriptor of operation `op` queued, of group 0 of lease 1. -/
def collS (op : Byte) : State :=
  (({ r0 with frames := [⟨false, 0, 0, 8, 1⟩], mem := r0.mem.write (sdmRow 0 * 512) [op], colls := [(0, ⟨[(2 * 2 ^ 44, none)], none, []⟩)] } : State).setFld (collGroup 0 0) COLL_GROUP.VALID 1).setFld (collGroup 0 0) COLL_GROUP.LEASE 1

/-- That descriptor. -/
def collD (op : Nat) : List Word := [BitVec.ofNat 64 op, 0, 0, 0, 0, 0, 0, 0]

/-- A collective of group 0 that runs since cycle 0. -/
def collR : CollRun := ⟨0, 1, 3, 0, 0, 0, 0, 0, none, 0, [5, 6], 0, 0, 0, 0, [], false, [], [], [], false, none⟩

/-- Whom a session answers. -/
def peer : HostPeer := ⟨0, 0, .other, 0⟩

/-- An open session under version 4.0 whose next command is one of opcode `o`; `l`: its lease, or none for a management session. -/
def ses (o : Nat) (l : Option Nat) : Session := ⟨77, true, l, 4, 0, 4, 0, 0, 0, [], 0, 1, [⟨1, o, l.getD 0, 4, 0, none, none, false, false, (0, 0), none, none, [], false⟩], [], 0, [], 0, [], [], peer⟩

/-- The header of that command. -/
def hd (l : Fin 256) (plen dlen : Nat) : DcpHdr := ⟨0, 77, 1, l, 4, 0, plen, dlen, false, false⟩

/-- The state in which that command's turn has come, in slot 3 of H0. -/
def dcp (o : Nat) (l : Option Nat) : State := { r0 with sessions := [(3, ses o l)] }

/-- A packet for H0 with the default UDP port, which opens with a HELLO. -/
def hpk : HostPacket := ⟨.own, 0, [], .udp4 0 5 false false, 4791, r0.fld (hp .HP_CFG 0) HP_CFG.UDP_PORT, true, .sealed, true, 0, 0, 0, 0, 1, 0, 4, 0, 0, 0, 0, [], [], 0, 0, []⟩

/-- H0 is UP and has the IPv4 address 5. -/
def up0 : State := ((r0.setFld (portRegs (.host 0)).2.1 PEER_PORT_STATUS.UP 1).setFld (hp .HP_IPV4 0) HP_IPV4.ADDR 5).setFld (hp .HP_CFG 0) HP_CFG.IP 3

/-- A lease with no valid group or layer and no work may be taken a snapshot of where an empty image fits. -/
theorem take_of_calm {s : State} {n : Nat} (a : s.active n = true) (h : ∀ hs g, hs < 16 → g < 128 → s.groupLease hs g = none) (l : ∀ hs k, hs < 16 → k < 4096 → (s.weltLayer hs k).valid = false) (p : s.leaseStep n = false) (b : s.leaseBusy n = false)
    (f : s.stageFits n 4096 = true) : s.takeCheck n = none := by
  have e : ∀ k, k < 4096 → s.layerUnits n k = [] := by
    intro k hk
    simp only [State.layerUnits, List.filter_eq_nil_iff, List.mem_range]
    intro hs hh
    simp [l hs k hh hk]
  have e1 : s.snapLayers n = [] := by
    simp only [State.snapLayers, List.filter_eq_nil_iff, List.mem_range]
    intro k hk
    simp [e k hk]
  have e2 : s.snapGroups n = [] := by
    simp only [State.snapGroups, State.groupUnits, List.filter_eq_nil_iff, List.mem_range]
    intro g hg
    have : (List.range 16).filter (fun hs => s.groupLease hs g == some n) = [] := by
      simp only [List.filter_eq_nil_iff, List.mem_range]
      intro hs hh
      simp [h hs g hh hg]
    simp [this]
  have e3 : s.snapBytes n = 4096 := by simp [State.snapBytes, e1, e2, layOffsets, dataStart, up512, ceilDiv]
  simp [State.takeCheck, firstFail, need, a, p, b, e3, f, State.leaseTorn, e1]

/-- A state that has written registers of SV0 alone has no valid group or layer. -/
theorem calm_groups {s : State} (e : s.regs = []) {r q : Reg} (f g : Fld) (v w : Nat) (hr : r = leaseCfg 1) (hq : q = leaseCfg 1 ∨ q = snap .SNAP_POLICY 1) :
    (∀ hs i, hs < 16 → i < 128 → ((s.setFld q g w).setFld r f v).groupLease hs i = none) ∧ ∀ hs i, hs < 16 → i < 4096 → (((s.setFld q g w).setFld r f v).weltLayer hs i).valid = false := by
  have z : ∀ (n : RegName) (k : n ≠ .FAB_VC) (k' : n ≠ .PEER_PORT_CFG) (a b c : Nat) (f : Fld), s.fld ⟨n, a, b, c⟩ f = bits (BitVec.ofNat 64 n.resetNat).toNat f.hi f.lo := by
    intro n k k' a b c f
    have : tget? s.regs (⟨n, a, b, c⟩ : Reg).addr = none := by rw [e]; rfl
    simp only [State.fld, State.reg, this, Option.getD, Reg.resetWord]
  have y : ∀ (n : RegName) (a i : Nat), (⟨n, selHs a, i, 0⟩ : Reg).addr ≠ r.addr → (⟨n, selHs a, i, 0⟩ : Reg).addr ≠ q.addr → n ≠ .FAB_VC → n ≠ .PEER_PORT_CFG → ∀ x : Fld,
      ((s.setFld q g w).setFld r f v).fld ⟨n, selHs a, i, 0⟩ x = bits (BitVec.ofNat 64 n.resetNat).toNat x.hi x.lo := by
    intro n a i h1 h2 h3 h4 x
    rw [State.fld_setFld_ne _ _ _ _ h1, State.fld_setFld_ne _ _ _ _ h2, z n h3 h4]
  refine ⟨fun hs i h1 h2 => ?_, fun hs i h1 h2 => ?_⟩
  · have k := y .WELT_GROUP_CFG hs i
      (by subst hr; simp only [Reg.addr, RegName.layout, leaseCfg, selHs, selSv0]; omega)
      (by rcases hq with rfl | rfl <;> simp only [Reg.addr, RegName.layout, leaseCfg, snap, selHs, selSv0] <;> omega) (by decide) (by decide) WELT_GROUP_CFG.VALID
    have k : ((s.setFld q g w).setFld r f v).fld (welt .WELT_GROUP_CFG hs i) WELT_GROUP_CFG.VALID = 0 := k.trans (by decide)
    simp [State.groupLease, k]
  · simp only [State.weltLayer, welt]
    rw [y .WELT_LAYER_SHAPE hs i ?_ ?_ (by decide) (by decide) WELT_LAYER_SHAPE.VALID]
    · decide
    · subst hr; simp only [Reg.addr, RegName.layout, leaseCfg, selHs, selSv0]; omega
    · rcases hq with rfl | rfl <;> simp only [Reg.addr, RegName.layout, leaseCfg, snap, selHs, selSv0] <;> omega

/-- Which groups and layers are valid depends on the registers alone. -/
theorem calm_regs {s t : State} (e : t.regs = s.regs) (h : (∀ hs i, hs < 16 → i < 128 → s.groupLease hs i = none) ∧ ∀ hs i, hs < 16 → i < 4096 → (s.weltLayer hs i).valid = false) :
    (∀ hs i, hs < 16 → i < 128 → t.groupLease hs i = none) ∧ ∀ hs i, hs < 16 → i < 4096 → (t.weltLayer hs i).valid = false := by
  have r : ∀ x, t.reg x = s.reg x := fun x => by simp only [State.reg, e]
  have k : ∀ x f, t.fld x f = s.fld x f := fun x f => by simp only [State.fld, r]
  exact ⟨fun hs i a b => by simpa only [State.groupLease, k] using h.1 hs i a b, fun hs i a b => by simpa only [State.weltLayer, k, r] using h.2 hs i a b⟩

/-! Well-formedness: what each check refuses. -/

/-- A packet whose hop count does not fit its field. -/
def badPk : DftPacket := { pk 1 with hop := 256 }

theorem test_wf_linkRowReceive : Instr.wf (.linkRowReceive ⟨3, 2⟩ .request ⟨[], [], false, none, none⟩) = false := by decide

theorem test_wf_linkReplay : Instr.wf (.linkReplay ⟨3, 2⟩ ⟨[], [], false, none, none⟩) = false := by decide

theorem test_wf_dftWrite : Instr.wf (.dftWrite 3 badPk) = false := by decide

theorem test_wf_dftRead : Instr.wf (.dftRead 3 badPk) = false := by decide

theorem test_wf_readData : Instr.wf (.readData 3 badPk) = false := by decide

theorem test_wf_nak : Instr.wf (.nak 3 badPk) = false := by decide

theorem test_wf_ack : Instr.wf (.ack 3 badPk) = false := by decide

theorem test_wf_credit : Instr.wf (.credit 3 badPk) = false := by decide

theorem test_wf_packetForward : Instr.wf (.packetForward 3 badPk) = false := by decide

theorem test_wf_resync : Instr.wf (.resync 3 badPk) = false := by decide

theorem test_wf_resyncAck : Instr.wf (.resyncAck 3 badPk) = false := by decide

theorem test_wf_collReady : Instr.wf (.collReady 3 badPk) = false := by decide

theorem test_wf_collData : Instr.wf (.collData 3 badPk) = false := by decide

theorem test_wf_collAbort : Instr.wf (.collAbort 3 badPk) = false := by decide

theorem test_wf_announce : Instr.wf (.announce 3 badPk) = false := by decide

theorem test_wf_token : Instr.wf (.token 3 badPk) = false := by decide

theorem test_wf_tokenEnd : Instr.wf (.tokenEnd 3 badPk) = false := by decide

theorem test_wf_patrolRead_core : Instr.wf (.patrolRead (.core c0 0) 512) = false := by decide

theorem test_wf_patrolRead_shared : Instr.wf (.patrolRead (.shared 0 0) 8192) = false := by decide

theorem test_wf_l3DemandFill : Instr.wf (.l3DemandFill ⟨0, 0⟩ 500 (.store (List.replicate 13 0))) = false := by decide

theorem test_wf_hello : Instr.wf (.hello 0 0x300 0x400 1 []) = false := by decide

theorem test_wf_auth : Instr.wf (.auth (hd 1 0 0) 1 [] .signed) = false := by decide

theorem test_wf_attest : Instr.wf (.attest (hd 1 0 0) []) = false := by decide

theorem test_wf_leaseKey : Instr.wf (.leaseKey (hd 1 0 0) 1 []) = false := by decide

theorem test_wf_memWrite : Instr.wf (.memWrite (hd 1 0 0) 0 1 []) = false := by decide

theorem test_wf_promptSubmit : Instr.wf (.promptSubmit (hd 1 0 0) 0 0 1 false (List.replicate 8193 0)) = false := by decide +kernel

theorem test_wf_dataPush : Instr.wf (.dataPush (hd 1 0 0) 0 0 (List.replicate 8193 0)) = false := by decide +kernel

theorem test_wf_codeLoad : Instr.wf (.codeLoad (hd 1 0 0) 0 false 0 0 (List.replicate 8193 0)) = false := by decide +kernel

theorem test_wf_snapshotPush : Instr.wf (.snapshotPush (hd 1 0 0) 0 0 (List.replicate 8193 0)) = false := by decide +kernel

theorem test_wf_imageChunk : Instr.wf (.imageChunk (hd 1 0 0) 0 (List.replicate 8193 0)) = false := by decide +kernel

theorem test_wf_regRead : Instr.wf (.regRead (hd 1 0 0) []) = false := by decide

theorem test_wf_regRead_64 : Instr.wf (.regRead (hd 1 0 0) (List.replicate 64 0)) = false := by decide

theorem test_wf_regWrite : Instr.wf (.regWrite (hd 1 0 0) (List.replicate 32 (0, 0))) = false := by decide

theorem test_wf_energyAccrue : Instr.wf (.energyAccrue ⟨[(1, 5), (1, 6)], 0, 0, 0, 0, 0, 0⟩ 0) = false := by decide

theorem test_wf_pertWrite : Instr.wf (.pertWrite .firmware 8 0) = false := by decide

theorem test_wf_tapInstruction_read : Instr.wf (.tapInstruction (.privRead 1)) = false := by decide

theorem test_wf_tapInstruction_write : Instr.wf (.tapInstruction (.privWrite 1 0)) = false := by decide

theorem test_wf_sound : Instr.wf (.dftWrite 3 { pk 1 with pay := [⟨List.replicate 512 0, false⟩] }) = true := by decide +kernel

/-! Figures the manual gives. -/

/-- 03, after R69: CORE_ECC_STALLS of logical core 17 on CD2 lies at 0x8080_0111_0010. -/
theorem test_core_register_address : (coreReg .CORE_ECC_STALLS (coreKey 2 17)).addr = 0x808001110010 := by decide

/-- No word spells a command: the opcode table gives no row any bits. -/
theorem test_no_word_spells_a_command : decodeTableWord 64 0 = none := by decide

/-- 14, worked example, step 3: slot 5 on H1, DLEN 0x1000, LAND 1,000 and BYTES 48 make the length word 0x8005_1000_000F_A030. -/
theorem test_length_word : ({ r0 with sessions := [(256 + 5, ses 0x202 (some 12))] } : State).lengthWord 1 { hpk with session := 77, params := List.replicate 16 0, data := List.replicate 4096 0 } 0 1000 = 0x80051000000FA030 := by decide +kernel

/-- 16, worked example: at DUTY 16 and 3,750 W with SUST_W 3,200, DUTY becomes 15. -/
theorem test_duty_falls : (match exec (.dutyDecision 3750 60) ({ r0.setFld pwrLimit PWR_LIMIT.SUST_W 3200 with watts := List.replicate 10 3750, now := 110000 } : State) with | .next t => t.fld pwrStatus PWR_STATUS.DUTY | _ => 0) = 15 := by decide

/-- 02, FP32 arithmetic: 1 + 2 = 3, and the product of 3 and -2 is -6. -/
theorem test_fp32 : add32 0x3F800000#32 0x40000000#32 = 0x40400000#32 ∧ mul32 0x40400000#32 0xC0000000#32 = 0xC0C00000#32 := by decide

/-- What is written is read back, and the bytes beside it are as they were. -/
theorem test_read_after_write : (r0.mem.write 700 [1, 2, 3]).read 699 5 = [Memory.fill, 1, 2, 3, Memory.fill] := by decide

/-- The first step after reset with a command in front performs it. -/
theorem test_step_takes_the_command : (match step { r0 with pending := [.powerLoss, .powerRestore] } with | .next t => (t.pending, t.life) | _ => ([], .running)) = ([.powerRestore], .unpowered) := by decide

/-! Witnesses. -/

theorem test_witness_EmptyQueuePassesOneCycle_0 : ∃ (s : State) (u : State), s.pending = [] ∧ s.life = .running ∧ u = ((s.cores.map (·.1)).foldl State.finishBundle s).pdnOn.hcCycle :=
  ⟨r0, _, by decide, by decide, (rfl)⟩

theorem test_witness_EmptyQueuePassesOneCycle_1 : ∃ (s : State), s.pending = [] ∧ s.life = .running ∧ AtRest s :=
  ⟨r0, by decide, by decide, (⟨rfl, rfl, rfl, rfl, rfl, rfl, rfl, rfl, rfl, rfl, rfl, rfl, by decide⟩)⟩

theorem test_witness_EmptyQueuePassesOneCycle_2 : ∃ (s : State), s.pending = [] ∧ s.life ≠ .running :=
  ⟨({ r0 with life := .unpowered } : State), by decide, by decide⟩

theorem test_witness_StepKeepsMemoryCanonical_0 : ∃ (s : State) (t : State), s.mem.wf = true ∧ step s = .next t :=
  ⟨({ r0 with pending := [.powerLoss] } : State), _, by decide, (rfl)⟩

theorem test_witness_StepKeepsTheFusedGrade_0 : ∃ (s : State) (t : State), step s = .next t :=
  ⟨({ r0 with pending := [.powerLoss] } : State), _, (rfl)⟩

theorem test_witness_TripHoldsUntilPowerLoss_0 : ∃ (s : State) (t : State), s.life = .tripped ∧ s.pending.head? ≠ some .powerLoss ∧ step s = .next t :=
  ⟨({ r0 with life := .tripped, pending := [.resetAssert] } : State), _, by decide, by decide, (rfl)⟩

theorem test_witness_NothingActsAtRest_0 : ∃ (c : Instr) (s : State), s.life ≠ .running ∧ actsAtRest c = false :=
  ⟨(.endKernel c0), ({ r0 with life := .rootsLost } : State), by decide, by decide⟩

theorem test_witness_RegisterWriteFollowsTheFieldRules_0 : ∃ (s : State) (a : Actor) (r : Reg) (v : Word), Writable s a r ∧ r.addr < 2 ^ 48 :=
  ⟨r0, Actor.firmware, (ringReg .RING_BASE 0 3), 0, by unfold Writable; decide, by decide⟩

theorem test_witness_RegisterWriteFollowsTheFieldRules_1 : ∃ (s : State) (k : Nat) (v : Word), Writable s .firmware (coreReg .CORE_FMT_EVENTS k) ∧ (coreReg .CORE_FMT_EVENTS k).addr < 2 ^ 48 :=
  ⟨r0, 5, 1, by unfold Writable; decide, by decide⟩

theorem test_witness_RegisterWriteFollowsTheFieldRules_2 : ∃ (s : State) (d : Die) (v : Word), Writable s .mgmt (temperCfg d.val) ∧ bits v.toNat 15 0 < 1024 :=
  ⟨r0, 3, 1023, by unfold Writable; decide, by decide⟩

theorem test_witness_RegisterWriteFollowsTheFieldRules_3 : ∃ (s : State) (d : Die) (v : Word), Writable s .mgmt (temperCfg d.val) ∧ 1024 ≤ bits v.toNat 15 0 :=
  ⟨r0, 0, 1024, by unfold Writable; decide, by decide⟩

theorem test_witness_ClearCommandsZeroTheirCounters_0 : ∃ (s : State) (a : Actor) (e : LinkEnd) (v : Word), Writable s a (linkReg .LINK_ERR_CLR e.sel.val e.port.val) ∧ linkPort e.sel.val e.port.val = true :=
  ⟨r0, Actor.firmware, ⟨0, 0⟩, 1, by unfold Writable; decide, by decide⟩

theorem test_witness_ClearCommandsZeroTheirCounters_1 : ∃ (s : State) (a : Actor) (d : Die) (c : Fin 128) (v : Word), Writable s a ⟨.ROW_ECC_CLR, selCd d.val, c.val, 0⟩ :=
  ⟨r0, Actor.firmware, 3, 71, 1, by unfold Writable; decide⟩

theorem test_witness_ClearCommandsZeroTheirCounters_2 : ∃ (s : State) (a : Actor) (d : Die) (v : Word), Writable s a ⟨.SDM_ECC_CLR, selCd d.val, 0, 0⟩ :=
  ⟨r0, Actor.firmware, 0, 1, by unfold Writable; decide⟩

theorem test_witness_ClearCommandsZeroTheirCounters_3_0 : ∃ (s : State) (a : Actor) (d : Die) (k : Fin 6) (v : Word), Writable s a (memc .MEMC_ECC_CLR d.val k.val) :=
  ⟨r0, Actor.firmware, 0, 0, 1, by unfold Writable; decide⟩

theorem test_witness_ClearCommandsZeroTheirCounters_3_1 : ∃ (s : State) (a : Actor) (d : Die) (k : Fin 6) (v : Word), Writable s a (memc .MEMC_ECC_CLR d.val k.val) :=
  ⟨r0, Actor.firmware, 3, 5, 1, by unfold Writable; decide⟩

theorem test_witness_ClearCommandsZeroTheirCounters_4 : ∃ (s : State) (a : Actor) (q : Fin 16) (v : Word), Writable s a (peerPort .PEER_PORT_CLR q.val) :=
  ⟨r0, Actor.firmware, 15, 1, by unfold Writable; decide⟩

theorem test_witness_ClearCommandsZeroTheirCounters_5 : ∃ (s : State) (a : Actor) (v : Word), Writable s a ⟨.FAB_STAT_CLR, selSv0, 0, 0⟩ :=
  ⟨r0, Actor.firmware, 1, by unfold Writable; decide⟩

theorem test_witness_ClearCommandsZeroTheirCounters_6 : ∃ (s : State) (a : Actor) (h : Fin 2) (v : Word), Writable s a (hp .HP_CLR h.val) :=
  ⟨r0, Actor.firmware, 1, 1, by unfold Writable; decide⟩

theorem test_witness_ClearCommandsZeroTheirCounters_7 : ∃ (s : State) (a : Actor) (d : Die) (v : Word), Writable s a ⟨.MCQ_CLR, selCd d.val, 0, 0⟩ :=
  ⟨r0, Actor.firmware, 2, 1, by unfold Writable; decide⟩

theorem test_witness_RingBaseWriteTakesAnAlignedBase_0 : ∃ (s : State) (a : Actor) (d : Die) (i : Fin 16384) (v : Word), Writable s a (ringReg .RING_BASE d.val i.val) ∧ s.fld (ringReg .RING_CFG d.val i.val) RING_CFG.ENABLE = 0 ∧ s.ringCore d.val i.val = none ∧ bits v.toNat 11 0 = 0 ∧ bits v.toNat 47 44 ≤ 2 :=
  ⟨r0, Actor.firmware, 0, 16383, 0x200000001000, by unfold Writable; decide, by decide, by decide, by decide, by decide⟩

theorem test_witness_RingBaseWriteTakesAnAlignedBase_1 : ∃ (s : State) (a : Actor) (d : Die) (i : Fin 16384) (v : Word), Writable s a (ringReg .RING_BASE d.val i.val) ∧ (s.fld (ringReg .RING_CFG d.val i.val) RING_CFG.ENABLE = 1 ∨ (s.ringCore d.val i.val).isSome = true) :=
  ⟨(r0.setFld (ringReg .RING_CFG 0 3) RING_CFG.ENABLE 1), Actor.firmware, 0, 3, 0, by unfold Writable; decide, by decide⟩

theorem test_witness_RingConfigureAndPublish_0 : ∃ (s : State) (d : Die) (i : Fin 16384) (v : Word), Writable s .firmware (ringReg .RING_CFG d.val i.val) ∧ s.fld (ringReg .RING_CFG d.val i.val) RING_CFG.ENABLE = 0 ∧ bits v.toNat 0 0 = 0 ∧ 9 ≤ bits v.toNat 38 34 ∧ bits v.toNat 38 34 ≤ 24 ∧ s.exposed d.val (bits v.toNat 45 39) = true ∧ bits v.toNat 33 29 ≤ 16 :=
  ⟨r0, 0, 3, (BitVec.ofNat 64 (2 ^ 56 + 71 * 2 ^ 39 + 24 * 2 ^ 34)), by unfold Writable; decide, by decide, by decide, by decide, by decide, by decide, by decide⟩

theorem test_witness_RingConfigureAndPublish_1 : ∃ (s : State) (a : Actor) (d : Die) (i : Fin 16384) (v : Word), Writable s a (ringReg .RING_PROD d.val i.val) ∧ s.active (s.ringLease d.val i.val) = true ∧ s.snapStopped (s.ringLease d.val i.val) = false ∧ s.fld (ringReg .RING_CFG d.val i.val) RING_CFG.WHOLE = 0 ∧ diff32 (bits v.toNat 31 0) (s.ringHead d.val i.val) ≤ (s.ringSize d.val i.val : Int) ∧ 0 ≤ diff32 (bits v.toNat 63 32) (s.fld (ringReg .RING_PROD d.val i.val) RING_PROD.PRODUCED) ∧ diff32 (bits v.toNat 63 32) (s.fld (ringReg .RING_PROD d.val i.val) RING_PROD.PRODUCED) ≤ diff32 (bits v.toNat 31 0) (s.fld (ringReg .RING_PROD d.val i.val) RING_PROD.TAIL) ∧ s.ringStored d.val i.val ≠ 7 :=
  ⟨((r0.setFld (leaseCfg 1) LEASE_CFG.STATE 1).setFld (ringReg .RING_CFG 0 3) RING_CFG.LEASE 1).setFld (ringReg .RING_CFG 0 3) RING_CFG.SIZE_LOG2 9, Actor.firmware, 0, 3, (BitVec.ofNat 64 (2 ^ 32 + 512)), by unfold Writable; decide, by decide, by decide, by decide, by decide, by decide, by decide, (by decide)⟩

theorem test_witness_RingConfigureAndPublish_2 : ∃ (s : State) (a : Actor) (d : Die) (i : Fin 16384) (v : Word), Writable s a (ringReg .RING_PROD d.val i.val) ∧ s.active (s.ringLease d.val i.val) = true ∧ s.snapStopped (s.ringLease d.val i.val) = false ∧ s.fld (ringReg .RING_CFG d.val i.val) RING_CFG.WHOLE = 0 ∧ diff32 (bits v.toNat 31 0) (s.ringHead d.val i.val) ≤ (s.ringSize d.val i.val : Int) ∧ 0 ≤ diff32 (bits v.toNat 63 32) (s.fld (ringReg .RING_PROD d.val i.val) RING_PROD.PRODUCED) ∧ diff32 (bits v.toNat 63 32) (s.fld (ringReg .RING_PROD d.val i.val) RING_PROD.PRODUCED) ≤ diff32 (bits v.toNat 31 0) (s.fld (ringReg .RING_PROD d.val i.val) RING_PROD.TAIL) ∧ s.ringStored d.val i.val = 7 ∧ (s.setReg (ringReg .RING_PROD d.val i.val) v).ringDepth d.val i.val ≠ 0 :=
  ⟨(((r0.setFld (leaseCfg 1) LEASE_CFG.STATE 1).setFld (ringReg .RING_CFG 0 3) RING_CFG.LEASE 1).setFld (ringReg .RING_CFG 0 3) RING_CFG.SIZE_LOG2 9).setFld (ringReg .RING_STATUS 0 3) RING_STATUS.STATE 7, Actor.firmware, 0, 3, (BitVec.ofNat 64 (2 ^ 32 + 512)), by unfold Writable; decide, by decide, by decide, by decide, by decide, by decide, by decide, (by decide), by decide⟩

theorem test_witness_RingConfigureAndPublish_3 : ∃ (s : State) (a : Actor) (d : Die) (i : Fin 16384) (v : Word), Writable s a (ringReg .RING_PROD d.val i.val) ∧ s.active (s.ringLease d.val i.val) = true ∧ s.snapStopped (s.ringLease d.val i.val) = false ∧ (s.ringSize d.val i.val : Int) < diff32 (bits v.toNat 31 0) (s.ringHead d.val i.val) :=
  ⟨((r0.setFld (leaseCfg 1) LEASE_CFG.STATE 1).setFld (ringReg .RING_CFG 0 3) RING_CFG.LEASE 1).setFld (ringReg .RING_CFG 0 3) RING_CFG.SIZE_LOG2 9, Actor.firmware, 0, 3, (BitVec.ofNat 64 (2 ^ 32 + 513)), by unfold Writable; decide, by decide, by decide, by decide⟩

theorem test_witness_RingControlClearsSkipsAndDiscards_0 : ∃ (s : State) (a : Actor) (d : Die) (i : Fin 16384), Writable s a (ringReg .RING_CTRL d.val i.val) ∧ s.ringCore d.val i.val = none ∧ s.fld (ringReg .RING_STATUS d.val i.val) RING_STATUS.STATE = 6 :=
  ⟨(r0.setFld (ringReg .RING_STATUS 0 3) RING_STATUS.STATE 6), Actor.firmware, 0, 3, by unfold Writable; decide, by decide, by decide⟩

theorem test_witness_RingControlClearsSkipsAndDiscards_1 : ∃ (s : State) (a : Actor) (d : Die) (i : Fin 16384), Writable s a (ringReg .RING_CTRL d.val i.val) ∧ s.ringCore d.val i.val = none :=
  ⟨r0, Actor.firmware, 0, 3, by unfold Writable; decide, by decide⟩

theorem test_witness_RingControlClearsSkipsAndDiscards_2 : ∃ (s : State) (a : Actor) (d : Die) (i : Fin 16384) (b : Nat) (w : Nat) (e : Bool), Writable s a (ringReg .RING_CTRL d.val i.val) ∧ s.ringCore d.val i.val = none ∧ s.scanEnd d.val i.val (s.ringDepth d.val i.val) (s.ringHead d.val i.val) = (b, w, e) :=
  ⟨r0, Actor.firmware, 0, 3, 0, 0, false, by unfold Writable; decide, by decide, by decide⟩

theorem test_witness_RingControlClearsSkipsAndDiscards_3 : ∃ (s : State) (a : Actor) (d : Die) (i : Fin 16384), Writable s a (ringReg .RING_CTRL d.val i.val) ∧ (s.ringCore d.val i.val).isSome = true :=
  ⟨(r0.setFld (ringReg .RING_CFG 0 3) RING_CFG.CORE 0).setCore 0 { Core.reset with kernel := some (k0 []) }, Actor.firmware, 0, 3, by unfold Writable; decide, by decide⟩

theorem test_witness_RowMemoryConfigurationIsTaken_0 : ∃ (s : State) (d : Die) (p : Fin 32) (v : Word), Writable s .firmware (sdmPart d.val p.val) ∧ (bits v.toNat 55 55 = 1 → s.partCheck d.val p.val (bits (RegName.written .SDM_PART (s.reg (sdmPart d.val p.val)).toNat v.toNat) SDM_PART.FIRST_BANK.hi SDM_PART.FIRST_BANK.lo) (bits (RegName.written .SDM_PART (s.reg (sdmPart d.val p.val)).toNat v.toNat) SDM_PART.BANKS.hi SDM_PART.BANKS.lo) = none) ∧ (s.fld (sdmPart d.val p.val) SDM_PART.VALID = 0 ∨ bits v.toNat 55 55 = 1 ∧ bits (RegName.written .SDM_PART (s.reg (sdmPart d.val p.val)).toNat v.toNat) SDM_PART.LEASE.hi SDM_PART.LEASE.lo = s.fld (sdmPart d.val p.val) SDM_PART.LEASE) :=
  ⟨r0, 0, 31, (BitVec.ofNat 64 (2 ^ 55 + 80)), by unfold Writable; decide, by decide, (Or.inl (by decide))⟩

theorem test_witness_RowMemoryConfigurationIsTaken_1 : ∃ (s : State) (d : Die) (p : Fin 32) (v : Word), Writable s .firmware (sdmPart d.val p.val) ∧ (bits v.toNat 55 55 = 1 → s.partCheck d.val p.val (bits (RegName.written .SDM_PART (s.reg (sdmPart d.val p.val)).toNat v.toNat) SDM_PART.FIRST_BANK.hi SDM_PART.FIRST_BANK.lo) (bits (RegName.written .SDM_PART (s.reg (sdmPart d.val p.val)).toNat v.toNat) SDM_PART.BANKS.hi SDM_PART.BANKS.lo) = none) ∧ s.fld (sdmPart d.val p.val) SDM_PART.VALID = 1 ∧ (bits v.toNat 55 55 = 0 ∨ bits (RegName.written .SDM_PART (s.reg (sdmPart d.val p.val)).toNat v.toNat) SDM_PART.LEASE.hi SDM_PART.LEASE.lo ≠ s.fld (sdmPart d.val p.val) SDM_PART.LEASE) :=
  ⟨(r0.setFld (sdmPart 0 31) SDM_PART.VALID 1), 0, 31, 0, by unfold Writable; decide, by decide, by decide, (Or.inl (by decide))⟩

theorem test_witness_RowMemoryConfigurationIsTaken_2 : ∃ (s : State) (a : Actor) (d : Die) (v : Word), Writable s a (wcacheCfg d.val) ∧ bits v.toNat 5 0 ≤ 32 ∧ s.partsMeet d.val 32 (96 - bits v.toNat 5 0) (bits v.toNat 5 0) = false :=
  ⟨r0, Actor.firmware, 3, 0, by unfold Writable; decide, by decide, by decide⟩

theorem test_witness_RowMemoryConfigurationIsTaken_3 : ∃ (s : State) (d : Die) (g : Fin 64) (v : Word), Writable s .firmware (astkCfg d.val g.val) ∧ s.fld (astkCfg d.val g.val) ASTK_CFG.ENABLE = 0 ∧ bits v.toNat ASTK_CFG.ENABLE.hi ASTK_CFG.ENABLE.lo = 0 :=
  ⟨r0, 0, 63, 0, by unfold Writable; decide, by decide, by decide⟩

theorem test_witness_RowMemoryConfigurationIsTaken_4 : ∃ (s : State) (a : Actor) (d : Die) (g : Fin 64) (v : Word), Writable s a (astk .ASTK_TOP d.val g.val) ∧ s.fld (astkCfg d.val g.val) ASTK_CFG.ENABLE = 0 ∧ bits v.toNat 31 0 = 0 :=
  ⟨r0, Actor.firmware, 0, 63, 0, by unfold Writable; decide, by decide, by decide⟩

theorem test_witness_FrameCommandsSealOpenAndDrain_0_0 : ∃ (s : State) (u : State) (a : Actor) (d : Die) (g : Fin 64) (v : Word) (n : Nat), Writable s a (astk .ASTK_FCMD d.val g.val) ∧ FrameTurn s d.val g.val u ∧ u.fld (astkCfg d.val g.val) ASTK_CFG.ENABLE = 1 ∧ u.frameCount d.val g.val = n ∧ n < 16 ∧ (∀ f st, u.topFrame d.val g.val = some (f, st) → st ≠ 3) :=
  ⟨(r0.setFld (astkCfg 0 0) ASTK_CFG.ENABLE 1), _, Actor.firmware, 0, 0, 1, 0, by unfold Writable; decide, (⟨by decide, rfl, by decide⟩), by decide, by decide, by decide, (by intro f st h; have e := (show State.topFrame (r0.setFld (astkCfg 0 0) ASTK_CFG.ENABLE 1) 0 0 = none from by decide).symm.trans h; cases e)⟩

theorem test_witness_FrameCommandsSealOpenAndDrain_0_1 : ∃ (s : State) (u : State) (a : Actor) (d : Die) (g : Fin 64) (v : Word) (n : Nat), Writable s a (astk .ASTK_FCMD d.val g.val) ∧ FrameTurn s d.val g.val u ∧ u.fld (astkCfg d.val g.val) ASTK_CFG.ENABLE = 1 ∧ u.frameCount d.val g.val = n ∧ n < 16 ∧ (∀ f st, u.topFrame d.val g.val = some (f, st) → st ≠ 3) :=
  ⟨((r0.setFld (astkCfg 0 0) ASTK_CFG.ENABLE 1).setFld (fstat 0 0) ASTK_FSTAT.NFRAMES 15).setFld (frameReg .ASTK_FRAME 0 0 14) ASTK_FRAME.STATE 1, _, Actor.firmware, 0, 0, 1, 15, by unfold Writable; decide, (⟨by decide, rfl, by decide⟩), by decide, by decide, by decide, (by intro f st h; have e := (show State.topFrame (((r0.setFld (astkCfg 0 0) ASTK_CFG.ENABLE 1).setFld (fstat 0 0) ASTK_FSTAT.NFRAMES 15).setFld (frameReg .ASTK_FRAME 0 0 14) ASTK_FRAME.STATE 1) 0 0 = some (14, 1) from by decide).symm.trans h; cases e; decide)⟩

theorem test_witness_FrameCommandsSealOpenAndDrain_1 : ∃ (s : State) (u : State) (a : Actor) (d : Die) (g : Fin 64) (v : Word), Writable s a (astk .ASTK_FCMD d.val g.val) ∧ FrameTurn s d.val g.val u ∧ u.fld (astkCfg d.val g.val) ASTK_CFG.ENABLE = 1 ∧ u.frameCount d.val g.val = 16 :=
  ⟨((r0.setFld (astkCfg 0 0) ASTK_CFG.ENABLE 1).setFld (fstat 0 0) ASTK_FSTAT.NFRAMES 16).setFld (frameReg .ASTK_FRAME 0 0 15) ASTK_FRAME.STATE 2, _, Actor.firmware, 0, 0, 1, by unfold Writable; decide, (⟨by decide, rfl, by decide⟩), by decide, by decide⟩

theorem test_witness_FrameCommandsSealOpenAndDrain_2 : ∃ (s : State) (u : State) (a : Actor) (d : Die) (g : Fin 64) (v : Word) (f : Nat), Writable s a (astk .ASTK_FCMD d.val g.val) ∧ FrameTurn s d.val g.val u ∧ u.fld (astkCfg d.val g.val) ASTK_CFG.ENABLE = 1 ∧ u.frameCount d.val g.val ≠ 16 ∧ u.topFrame d.val g.val = some (f, 3) :=
  ⟨((r0.setFld (astkCfg 0 0) ASTK_CFG.ENABLE 1).setFld (fstat 0 0) ASTK_FSTAT.NFRAMES 3).setFld (frameReg .ASTK_FRAME 0 0 2) ASTK_FRAME.STATE 3, _, Actor.firmware, 0, 0, 1, 2, by unfold Writable; decide, (⟨by decide, rfl, by decide⟩), by decide, by decide, by decide⟩

theorem test_witness_FrameCommandsSealOpenAndDrain_3_0 : ∃ (s : State) (d : Die) (g : Fin 64) (f : Fin 16) (h : Nat), h = s.stackTop d.val g.val - s.fld (frameReg .ASTK_FRAME d.val g.val f.val) ASTK_FRAME.BASE ∧ s.fld (frameReg .ASTK_FEXP d.val g.val f.val) ASTK_FEXP.EXPECT ≠ 0 ∧ s.fld (frameReg .ASTK_FEXP d.val g.val f.val) ASTK_FEXP.EXPECT ≠ h :=
  ⟨(r0.setFld (astk .ASTK_TOP 0 0) ASTK_TOP.TOP 8).setFld (frameReg .ASTK_FEXP 0 0 15) ASTK_FEXP.EXPECT 7, 0, 0, 15, 8, by decide, by decide⟩

theorem test_witness_FrameCommandsSealOpenAndDrain_3_1 : ∃ (s : State) (d : Die) (g : Fin 64) (f : Fin 16) (h : Nat), h = s.stackTop d.val g.val - s.fld (frameReg .ASTK_FRAME d.val g.val f.val) ASTK_FRAME.BASE ∧ (s.fld (frameReg .ASTK_FEXP d.val g.val f.val) ASTK_FEXP.EXPECT = 0 ∨ s.fld (frameReg .ASTK_FEXP d.val g.val f.val) ASTK_FEXP.EXPECT = h) :=
  ⟨r0, 0, 0, 0, 0, by decide, by decide⟩

theorem test_witness_FrameCommandsSealOpenAndDrain_4_0 : ∃ (s : State) (u : State) (a : Actor) (d : Die) (g : Fin 64) (v : Word), Writable s a (astk .ASTK_FCMD d.val g.val) ∧ FrameTurn s d.val g.val u ∧ u.fld (astkCfg d.val g.val) ASTK_CFG.ENABLE = 1 ∧ (u.frameCount d.val g.val = 0 ∨ ∃ f st, u.topFrame d.val g.val = some (f, st) ∧ (u.fld (frameReg .ASTK_FRAME d.val g.val f) ASTK_FRAME.MB ≠ bits v.toNat 31 16 ∨ st = 3)) :=
  ⟨(r0.setFld (astkCfg 0 0) ASTK_CFG.ENABLE 1), _, Actor.firmware, 0, 0, 2, by unfold Writable; decide, (⟨by decide, rfl, by decide⟩), by decide, (Or.inl (by decide))⟩

theorem test_witness_FrameCommandsSealOpenAndDrain_4_1 : ∃ (s : State) (u : State) (a : Actor) (d : Die) (g : Fin 64) (v : Word), Writable s a (astk .ASTK_FCMD d.val g.val) ∧ FrameTurn s d.val g.val u ∧ u.fld (astkCfg d.val g.val) ASTK_CFG.ENABLE = 1 ∧ (u.frameCount d.val g.val = 0 ∨ ∃ f st, u.topFrame d.val g.val = some (f, st) ∧ (u.fld (frameReg .ASTK_FRAME d.val g.val f) ASTK_FRAME.MB ≠ bits v.toNat 31 16 ∨ st = 3)) :=
  ⟨((r0.setFld (astkCfg 0 0) ASTK_CFG.ENABLE 1).setFld (fstat 0 0) ASTK_FSTAT.NFRAMES 1).setFld (frameReg .ASTK_FRAME 0 0 0) ASTK_FRAME.STATE 3, _, Actor.firmware, 0, 0, 2, by unfold Writable; decide, (⟨by decide, rfl, by decide⟩), by decide, (Or.inr ⟨0, 3, by decide, by decide⟩)⟩

theorem test_witness_FrameCommandsSealOpenAndDrain_5_0 : ∃ (s : State) (u : State) (w : State) (a : Actor) (d : Die) (g : Fin 64) (v : Word) (f : Nat) (st : Nat), Writable s a (astk .ASTK_FCMD d.val g.val) ∧ FrameTurn s d.val g.val u ∧ u.fld (astkCfg d.val g.val) ASTK_CFG.ENABLE = 1 ∧ u.topFrame d.val g.val = some (f, st) ∧ u.fld (frameReg .ASTK_FRAME d.val g.val f) ASTK_FRAME.MB = bits v.toNat 31 16 ∧ (st = 1 ∧ w = u.seal d.val g.val f ∨ st = 2 ∧ w = u) ∧ w.fld (frameReg .ASTK_FRAME d.val g.val f) ASTK_FRAME.MISMATCH = 0 :=
  ⟨((r0.setFld (astkCfg 0 0) ASTK_CFG.ENABLE 1).setFld (fstat 0 0) ASTK_FSTAT.NFRAMES 1).setFld (frameReg .ASTK_FRAME 0 0 0) ASTK_FRAME.STATE 2, _, _, Actor.firmware, 0, 0, 2, 0, 2, by unfold Writable; decide, (⟨by decide, rfl, by decide⟩), by decide, by decide, by decide, (Or.inr ⟨rfl, rfl⟩), by decide⟩

theorem test_witness_FrameCommandsSealOpenAndDrain_5_1 : ∃ (s : State) (u : State) (w : State) (a : Actor) (d : Die) (g : Fin 64) (v : Word) (f : Nat) (st : Nat), Writable s a (astk .ASTK_FCMD d.val g.val) ∧ FrameTurn s d.val g.val u ∧ u.fld (astkCfg d.val g.val) ASTK_CFG.ENABLE = 1 ∧ u.topFrame d.val g.val = some (f, st) ∧ u.fld (frameReg .ASTK_FRAME d.val g.val f) ASTK_FRAME.MB = bits v.toNat 31 16 ∧ (st = 1 ∧ w = u.seal d.val g.val f ∨ st = 2 ∧ w = u) ∧ w.fld (frameReg .ASTK_FRAME d.val g.val f) ASTK_FRAME.MISMATCH = 1 :=
  ⟨((r0.setFld (astkCfg 0 0) ASTK_CFG.ENABLE 1).setFld (fstat 0 0) ASTK_FSTAT.NFRAMES 1).setFld (frameReg .ASTK_FRAME 0 0 0) ASTK_FRAME.STATE 1|>.setFld (frameReg .ASTK_FEXP 0 0 0) ASTK_FEXP.EXPECT 7, _, _, Actor.firmware, 0, 0, 2, 0, 1, by unfold Writable; decide, (⟨by decide, rfl, by decide⟩), by decide, by decide, by decide, (Or.inl ⟨rfl, rfl⟩), by decide⟩

theorem test_witness_FrameCommandsSealOpenAndDrain_6 : ∃ (s : State) (u : State) (a : Actor) (d : Die) (g : Fin 64) (v : Word), Writable s a (astk .ASTK_FCMD d.val g.val) ∧ FrameTurn s d.val g.val u ∧ u.fld (astkCfg d.val g.val) ASTK_CFG.ENABLE = 0 :=
  ⟨r0, _, Actor.firmware, 0, 0, 1, by unfold Writable; decide, (⟨by decide, rfl, by decide⟩), by decide⟩

theorem test_witness_FrameCommandsSealOpenAndDrain_7 : ∃ (s : State) (u : State) (a : Actor) (d : Die) (g : Fin 64) (v : Word), Writable s a (astk .ASTK_FCMD d.val g.val) ∧ FrameTurn s d.val g.val u :=
  ⟨r0, _, Actor.firmware, 3, 63, 0, by unfold Writable; decide, (⟨by decide, rfl, by decide⟩)⟩

theorem test_witness_FrameCommandsSealOpenAndDrain_8 : ∃ (s : State) (u : State) (a : Actor) (d : Die) (g : Fin 64) (v : Word), Writable s a (astk .ASTK_FCMD d.val g.val) ∧ FrameTurn s d.val g.val u :=
  ⟨r0, _, Actor.firmware, 3, 63, 3, by unfold Writable; decide, (⟨by decide, rfl, by decide⟩)⟩

theorem test_witness_SpareAndPowerDownRequestsStart_0 : ∃ (s : State) (a : Actor) (d : Die) (k : Fin 4) (v : Word), Writable s a (memc .HBM_SPARE d.val k.val) ∧ s.spareState d.val k.val = 0 :=
  ⟨r0, Actor.firmware, 0, 3, 0, by unfold Writable; decide, by decide⟩

theorem test_witness_SpareAndPowerDownRequestsStart_1 : ∃ (s : State) (a : Actor) (d : Die) (k : Fin 4) (v : Word), Writable s a (memc .HBM_SPARE d.val k.val) ∧ s.spareState d.val k.val = 0 :=
  ⟨r0, Actor.firmware, 0, 0, 1, by unfold Writable; decide, by decide⟩

theorem test_witness_SpareAndPowerDownRequestsStart_2 : ∃ (s : State) (a : Actor) (d : Die) (k : Fin 4) (v : Word), Writable s a (memc .HBM_PDN_CTRL d.val k.val) ∧ s.fld (pdnStatus d.val k.val) HBM_PDN_STATUS.PENDING = 0 ∧ s.spareState d.val k.val ≠ 1 ∧ bitAt (s.fld (pdnStatus d.val k.val) HBM_PDN_STATUS.DOWN) (bits v.toNat HBM_PDN_CTRL.GROUP.hi HBM_PDN_CTRL.GROUP.lo) = false :=
  ⟨r0, Actor.firmware, 0, 0, 1, by unfold Writable; decide, by decide, by decide, by decide⟩

theorem test_witness_FabricConfigurationIsTaken_0 : ∃ (s : State) (v : Word), Writable s .firmware fabCfg ∧ s.fld fabCfg FAB_CFG.ENABLE = 0 ∧ bitAt v.toNat FAB_CFG.ENABLE.lo = false :=
  ⟨r0, 0, by unfold Writable; decide, by decide, by decide⟩

theorem test_witness_FabricConfigurationIsTaken_1 : ∃ (s : State) (u : BitVec 16) (v : Word), Writable s .firmware (fabCoord u.toNat) ∧ u ≠ 0#16 ∧ u ≠ 0xFFFF#16 ∧ bits v.toNat FAB_COORD.X.hi FAB_COORD.X.lo < s.extent 0 ∧ bits v.toNat FAB_COORD.Y.hi FAB_COORD.Y.lo < s.extent 1 ∧ bits v.toNat FAB_COORD.Z.hi FAB_COORD.Z.lo < s.extent 2 ∧ (u.toNat ≠ s.self ∨ s.fld fabCfg FAB_CFG.ENABLE = 0) ∧ bitAt v.toNat FAB_COORD.VALID.lo = false :=
  ⟨r0, 0xFFFE#16, 0, by unfold Writable; decide, by decide, by decide, by decide, by decide, by decide, (Or.inr (by decide)), by decide⟩

theorem test_witness_FabricConfigurationIsTaken_2 : ∃ (s : State) (vc : Fin 8) (v : Word), Writable s .firmware (fabVc vc.val) ∧ s.fld fabCfg FAB_CFG.ENABLE = 0 ∧ (List.range 8).foldl (fun n i => n + (if i == vc.val then bits v.toNat FAB_VC.CELLS.hi FAB_VC.CELLS.lo else s.fld (fabVc i) FAB_VC.CELLS)) 0 ≤ 4096 :=
  ⟨r0, 7, (BitVec.ofNat 64 512), by unfold Writable; decide, by decide, by decide⟩

theorem test_witness_SignalsAndGroupsAreTaken_0 : ∃ (s : State) (d : Die) (k : Fin 1024) (v : Word), Writable s .firmware (peerSig d.val k.val) ∧ s.exposed d.val (bits v.toNat PEER_SIG.CORE.hi PEER_SIG.CORE.lo) = true ∧ bitAt v.toNat PEER_SIG.VALID.lo = false :=
  ⟨r0, 3, 1023, 0, by unfold Writable; decide, by decide, by decide⟩

theorem test_witness_SignalsAndGroupsAreTaken_1 : ∃ (s : State) (a : Actor) (d : Die) (k : Fin 1024) (v : Word), Writable s a (peerSig d.val k.val) ∧ s.exposed d.val (bits v.toNat PEER_SIG.CORE.hi PEER_SIG.CORE.lo) = false :=
  ⟨({ r0 with grade := .lite } : State), Actor.firmware, 3, 1023, (BitVec.ofNat 64 (63 * 2 ^ PEER_SIG.CORE.lo)), by unfold Writable; decide, by decide⟩

theorem test_witness_SignalsAndGroupsAreTaken_2 : ∃ (s : State) (io : Die) (g : Fin 64) (v : Word), Writable s .firmware ⟨.COLL_MEMBERS, selIo io.val, g.val, 0⟩ ∧ Writable s .firmware (collGroup io.val g.val) ∧ s.fld (collGroup io.val g.val) COLL_GROUP.VALID = 0 ∧ bitAt v.toNat COLL_GROUP.VALID.lo = false :=
  ⟨r0, 3, 63, 0, by unfold Writable; decide, by unfold Writable; decide, by decide, by decide⟩

theorem test_witness_SignalsAndGroupsAreTaken_3 : ∃ (s : State) (a : Actor) (io : Die) (v : Word), Writable s a ⟨.COLL_SUBMIT, selIo io.val, 0, 0⟩ ∧ bits v.toNat 5 0 = 0 ∧ (∀ n, actorLease a = some n → s.active n = true ∧ s.snapStopped n = false) ∧ (s.coll io.val).queue.length < 16 :=
  ⟨r0, Actor.firmware, 3, 64, by unfold Writable; decide, by decide, (by intro l h; cases h), by decide⟩

theorem test_witness_MailboxesFillRingAndEmpty_0 : ∃ (s : State) (a : Actor) (d : Die) (m : Fin 512) (k : Fin 7) (v : Word), Writable s a (eyeMsg d.val m.val k.val) ∧ s.eyeFull d.val m.val = false :=
  ⟨r0, Actor.firmware, 0, 511, 6, 1, by unfold Writable; decide, by decide⟩

theorem test_witness_MailboxesFillRingAndEmpty_1_0 : ∃ (s : State) (a : Actor) (d : Die) (m : Fin 512) (k : Fin 8) (v : Word) (c : Instr), (k.val < 7 ∧ (∃ j : Fin 7, j.val = k.val ∧ c = .eyeMsgWrite a d m j v) ∨ k.val = 7 ∧ c = .eyeCommit a d m v) ∧ Writable s a (eyeMsg d.val m.val k.val) ∧ s.eyeFull d.val m.val = true :=
  ⟨(r0.setFld (eye .EYE_STATUS 0 511) EYE_STATUS.FULL 1), Actor.firmware, 0, 511, 0, 1, (.eyeMsgWrite Actor.firmware 0 511 0 1), (Or.inl ⟨by decide, 0, rfl, rfl⟩), by unfold Writable; decide, by decide⟩

theorem test_witness_MailboxesFillRingAndEmpty_1_1 : ∃ (s : State) (a : Actor) (d : Die) (m : Fin 512) (k : Fin 8) (v : Word) (c : Instr), (k.val < 7 ∧ (∃ j : Fin 7, j.val = k.val ∧ c = .eyeMsgWrite a d m j v) ∨ k.val = 7 ∧ c = .eyeCommit a d m v) ∧ Writable s a (eyeMsg d.val m.val k.val) ∧ s.eyeFull d.val m.val = true :=
  ⟨(r0.setFld (eye .EYE_STATUS 0 511) EYE_STATUS.FULL 1), Actor.firmware, 0, 511, 7, 1, (.eyeCommit Actor.firmware 0 511 1), (Or.inr ⟨rfl, rfl⟩), by unfold Writable; decide, by decide⟩

theorem test_witness_MailboxesFillRingAndEmpty_2 : ∃ (s : State) (a : Actor) (d : Die) (m : Fin 512) (v : Word), Writable s a (eyeMsg d.val m.val 7) :=
  ⟨r0, Actor.firmware, 0, 511, 1, by unfold Writable; decide⟩

theorem test_witness_MailboxesFillRingAndEmpty_3 : ∃ (s : State) (a : Actor) (d : Die) (m : Fin 512), Readable s a (eyeMsg d.val m.val 7) ∧ s.eyeFull d.val m.val = true ∧ s.eyeNow d.val m.val = none :=
  ⟨(r0.setFld (eye .EYE_STATUS 0 511) EYE_STATUS.FULL 1), Actor.firmware, 0, 511, by unfold Readable; decide, by decide, by decide⟩

theorem test_witness_MailboxesFillRingAndEmpty_4 : ∃ (s : State) (a : Actor) (d : Die) (m : Fin 512) (w : EyeWrite), Readable s a (eyeMsg d.val m.val 7) ∧ s.eyeFull d.val m.val = true ∧ s.eyeNow d.val m.val = some w :=
  ⟨({ r0.setFld (eye .EYE_STATUS 0 511) EYE_STATUS.FULL 1 with eyeWrites := [(511, ⟨0, true, 7, true, false⟩)] } : State), Actor.firmware, 0, 511, ⟨0, true, 7, true, false⟩, by unfold Readable; decide, by decide, by decide⟩

theorem test_witness_MailboxesFillRingAndEmpty_5 : ∃ (s : State) (a : Actor) (d : Die) (m : Fin 512), Readable s a (eyeMsg d.val m.val 7) ∧ s.eyeFull d.val m.val = false :=
  ⟨r0, Actor.firmware, 0, 511, by unfold Readable; decide, by decide⟩

theorem test_witness_MailboxesFillRingAndEmpty_6 : ∃ (s : State) (a : Actor) (d : Die) (m : Fin 512) (v : Word), Writable s a (eye .EYE_DB_SET d.val m.val) :=
  ⟨r0, Actor.firmware, 0, 511, 1, by unfold Writable; decide⟩

theorem test_witness_MailboxesFillRingAndEmpty_7 : ∃ (s : State) (d : Die) (m : Fin 512) (v : Word), Writable s .firmware (eye .EYE_CFG d.val m.val) :=
  ⟨r0, 0, 511, 0, by unfold Writable; decide⟩

theorem test_witness_MailboxesFillRingAndEmpty_8 : ∃ (s : State) (d : Die) (m : Fin 512) (c : Nat), s.life = .running ∧ tget? s.eyeCommits (d.val * 512 + m.val) = some c ∧ s.fld (eye .EYE_CFG d.val m.val) EYE_CFG.CLASS ≠ 0 ∧ s.fld (eye .EYE_STATUS d.val m.val) EYE_STATUS.FULL = 1 ∧ c + s.fld (eye .EYE_CFG d.val m.val) EYE_CFG.TMO_US * 1100 ≤ s.now :=
  ⟨(({ r0 with eyeCommits := [(511, 5)], now := 1105 } : State).setFld (eye .EYE_STATUS 0 511) EYE_STATUS.FULL 1).setFld (eye .EYE_CFG 0 511) EYE_CFG.CLASS 1 |>.setFld (eye .EYE_CFG 0 511) EYE_CFG.TMO_US 1, 0, 511, 5, by decide, by decide, by decide, by decide, by decide⟩

theorem test_witness_InterruptsAreRaisedClaimedAndCompleted_0 : ∃ (s : State) (a : Actor) (c : CoreId) (n : RingNote) (l : List RingNote), Readable s a (coreReg .IC_RING_NOTE (ckey c)) ∧ (s.core (ckey c)).notes = n :: l :=
  ⟨(r0.setCore 0 { Core.reset with notes := [⟨3, 0, false⟩] }), Actor.firmware, c0, ⟨3, 0, false⟩, [], by unfold Readable; decide, by decide⟩

theorem test_witness_InterruptsAreRaisedClaimedAndCompleted_1_0 : ∃ (s : State) (a : Actor) (ic : IcId) (v : Word), Writable s a (icReg .IC_SWSET (icKey ic) 0) ∧ 0x340 ≤ bits v.toNat 9 0 ∧ bits v.toNat 9 0 ≤ 0x37F ∧ sourceListed (icKey ic) (bits v.toNat 9 0) = true :=
  ⟨r0, Actor.firmware, (.die 0), 0x340, by unfold Writable; decide, by decide, by decide, by decide⟩

theorem test_witness_InterruptsAreRaisedClaimedAndCompleted_1_1 : ∃ (s : State) (a : Actor) (ic : IcId) (v : Word), Writable s a (icReg .IC_SWSET (icKey ic) 0) ∧ 0x340 ≤ bits v.toNat 9 0 ∧ bits v.toNat 9 0 ≤ 0x37F ∧ sourceListed (icKey ic) (bits v.toNat 9 0) = true :=
  ⟨r0, Actor.firmware, (.die 0), 0x37F, by unfold Writable; decide, by decide, by decide, by decide⟩

theorem test_witness_InterruptsAreRaisedClaimedAndCompleted_2 : ∃ (s : State) (ic : IcId) (n : Fin 16) (x : Nat), s.life = .running ∧ s.icLive (icKey ic) = true ∧ n.val < icTargets (icKey ic) ∧ s.claimChoice (icKey ic) n.val = some x ∧ x < 1024 :=
  ⟨((((r0.setPending 0 0x340).setFld (icReg .IC_ENABLE 0 13) ⟨63, 0⟩ 1).setFld (icReg .IC_SRC 0 0x340) IC_SRC.PRIO 7).setFld (icReg .IC_TGT_CFG 0 15) IC_TGT_CFG.EN 1), (.die 0), 15, 0x340, by decide, by decide, by decide, by decide, by decide⟩

theorem test_witness_InterruptsAreRaisedClaimedAndCompleted_3 : ∃ (s : State) (ic : IcId) (n : Fin 16) (v : Word), s.life = .running ∧ s.icLive (icKey ic) = true ∧ n.val < icTargets (icKey ic) ∧ s.isActive (icKey ic) (bits v.toNat 9 0) = true ∧ tget? s.claimedBy (icKey ic * 1024 + bits v.toNat 9 0) = some n.val :=
  ⟨({ r0 with claimedBy := [(0x340, 15)] } : State).putBit (icActive 0 0x340) 0 true, (.die 0), 15, 0x340, by decide, by decide, by decide, by decide, by decide⟩

theorem test_witness_InterruptsAreRaisedClaimedAndCompleted_4 : ∃ (s : State) (a : Actor) (ic : IcId) (w : Fin 16), Writable s a (icReg .IC_PENDING (icKey ic) w.val) :=
  ⟨r0, Actor.firmware, (.die 0), 15, by unfold Writable; decide⟩

theorem test_witness_InterruptsAreRaisedClaimedAndCompleted_5 : ∃ (s : State) (ic : IcId) (x : Fin 1024) (n : Nat), s.life = .running ∧ s.icLive (icKey ic) = true ∧ s.deliverable (icKey ic) x.val = true ∧ s.rounds (icKey ic) x.val = true ∧ nonMaskable (icKey ic) x.val = false ∧ s.rrTarget (icKey ic) x.val = some n :=
  ⟨((((r0.setPending 0 0x340).setFld (icReg .IC_ENABLE 0 13) ⟨63, 0⟩ 1).setFld (icReg .IC_SRC 0 0x340) IC_SRC.PRIO 7).setFld (icReg .IC_TGT_CFG 0 15) IC_TGT_CFG.EN 1), (.die 0), 0x340, 15, by decide, by decide, by decide, by decide, by decide, by decide⟩

theorem test_witness_InterruptsAreRaisedClaimedAndCompleted_6 : ∃ (s : State) (ic : IcId) (x : Fin 1024), s.life = .running ∧ s.icLive (icKey ic) = true ∧ sourceFiltered (icKey ic) x.val = true ∧ s.filteredHigh.contains (icKey ic * 1024 + x.val) = true ∧ s.lineHeld (icKey ic) x.val false = true :=
  ⟨({ r0 with filteredHigh := [4 * 1024 + 4], now := 8 } : State), .sv0, 4, by decide, by decide, by decide, by decide, by decide⟩

theorem test_witness_InterruptsAreRaisedClaimedAndCompleted_7 : ∃ (s : State) (ic : IcId) (x : Fin 1024), s.life = .running ∧ s.icLive (icKey ic) = true ∧ sourceFiltered (icKey ic) x.val = true ∧ sourceLevel (icKey ic) x.val = false ∧ s.filteredHigh.contains (icKey ic * 1024 + x.val) = false ∧ s.lineHeld (icKey ic) x.val true = true :=
  ⟨({ r0 with pulses := [(0xB0, 0)], now := 8 } : State), (.die 0), 0xB0, by decide, by decide, by decide, by decide, by decide, by decide⟩

theorem test_witness_HostFifoPointersAdvance_0 : ∃ (s : State) (a : Actor) (h : Fin 2) (v : Word), Writable s a (hp .HP_FIFO_PTR h.val) ∧ (s.rx h.val).dropping = false ∧ 0 ≤ diff32 (bits v.toNat 31 0) (s.fld (hp .HP_FIFO_PTR h.val) HP_FIFO_PTR.HEAD) ∧ 0 ≤ diff32 (s.fld (hp .HP_FIFO_PTR h.val) HP_FIFO_PTR.TAIL) (bits v.toNat 31 0) ∧ diff32 (bits v.toNat 31 0) (s.fld (hp .HP_FIFO_PTR h.val) HP_FIFO_PTR.HEAD) ≤ diff32 (s.fld (hp .HP_FIFO_PTR h.val) HP_FIFO_PTR.TAIL) (s.fld (hp .HP_FIFO_PTR h.val) HP_FIFO_PTR.HEAD) :=
  ⟨((r0.setFld (hp .HP_FIFO_PTR 0) HP_FIFO_PTR.TAIL 8).setFld (hp .HP_LAND_PTR 0) HP_FIFO_PTR.TAIL 8), Actor.firmware, 0, 8, by unfold Writable; decide, by decide, by decide, by decide, by decide⟩

theorem test_witness_HostFifoPointersAdvance_1 : ∃ (s : State) (a : Actor) (h : Fin 2) (v : Word), Writable s a (hp .HP_LAND_PTR h.val) ∧ (s.rx h.val).dropping = false ∧ 0 ≤ diff32 (bits v.toNat 31 0) (s.fld (hp .HP_LAND_PTR h.val) HP_FIFO_PTR.HEAD) ∧ 0 ≤ diff32 (s.fld (hp .HP_LAND_PTR h.val) HP_FIFO_PTR.TAIL) (bits v.toNat 31 0) ∧ diff32 (bits v.toNat 31 0) (s.fld (hp .HP_LAND_PTR h.val) HP_FIFO_PTR.HEAD) ≤ diff32 (s.fld (hp .HP_LAND_PTR h.val) HP_FIFO_PTR.TAIL) (s.fld (hp .HP_LAND_PTR h.val) HP_FIFO_PTR.HEAD) :=
  ⟨((r0.setFld (hp .HP_FIFO_PTR 0) HP_FIFO_PTR.TAIL 8).setFld (hp .HP_LAND_PTR 0) HP_FIFO_PTR.TAIL 8), Actor.firmware, 0, 8, by unfold Writable; decide, by decide, by decide, by decide, by decide⟩

theorem test_witness_HostFifoPointersAdvance_2 : ∃ (s : State) (a : Actor) (h : Fin 2) (v : Word) (pk : FifoPkt), Writable s a (hp .HP_FIFO_CTRL h.val) ∧ s.fld (hp .HP_FIFO_PTR h.val) HP_FIFO_PTR.HEAD ≠ s.fld (hp .HP_FIFO_PTR h.val) HP_FIFO_PTR.TAIL ∧ s.headPacket h.val = some pk ∧ pk.closed = false :=
  ⟨((r0.setFld (hp .HP_FIFO_PTR 0) HP_FIFO_PTR.TAIL 8).setFld (hp .HP_LAND_PTR 0) HP_FIFO_PTR.TAIL 8).setRx 0 { HostRx.empty with pkts := [⟨0, 8, 0, 0, 0, 0, false⟩] }, Actor.firmware, 0, 1, ⟨0, 8, 0, 0, 0, 0, false⟩, by unfold Writable; decide, by decide, by decide, by decide⟩

theorem test_witness_HostFifoPointersAdvance_3 : ∃ (s : State) (a : Actor) (h : Fin 2) (v : Word) (pk : FifoPkt), Writable s a (hp .HP_FIFO_CTRL h.val) ∧ s.fld (hp .HP_FIFO_PTR h.val) HP_FIFO_PTR.HEAD ≠ s.fld (hp .HP_FIFO_PTR h.val) HP_FIFO_PTR.TAIL ∧ s.headPacket h.val = some pk ∧ pk.closed = true :=
  ⟨((r0.setFld (hp .HP_FIFO_PTR 0) HP_FIFO_PTR.TAIL 8).setFld (hp .HP_LAND_PTR 0) HP_FIFO_PTR.TAIL 8).setRx 0 { HostRx.empty with pkts := [⟨0, 8, 0, 0, 0, 0, true⟩] }, Actor.firmware, 0, 1, ⟨0, 8, 0, 0, 0, 0, true⟩, by unfold Writable; decide, by decide, by decide, by decide⟩

theorem test_witness_HostCoresBindAndRangesRun_0 : ∃ (s : State) (h : HcId) (v : Word), Writable s .firmware (hcReg .HC_BIND (hcKey h)) ∧ h.h ≠ 0 ∧ s.fld (hcReg .HC_STATUS (hcKey h)) HC_STATUS.QUIESCED = 1 ∧ bitAt v.toNat HC_BIND.VALID.lo = true :=
  ⟨(r0.setFld (hcReg .HC_STATUS 15) HC_STATUS.QUIESCED 1), ⟨0, 15⟩, (BitVec.ofNat 64 (2 ^ 55)), by unfold Writable; decide, by decide, by decide, by decide⟩

theorem test_witness_HostCoresBindAndRangesRun_1 : ∃ (s : State) (a : Actor) (d : Die) (n : BitVec 24) (rows : List Nat), Writable s a (l3Reg .L3_RANGE_CTL d.val) ∧ s.fld (l3Reg .L3_RANGE_STATUS d.val) L3_RANGE_STATUS.BUSY = 0 ∧ n ≠ 0#24 ∧ (∀ l, actorLease a = some l → s.active l = true ∧ s.snapStopped l = false) ∧ s.findSpan (actorLease a) (s.fld (l3Reg .L3_RANGE_BASE d.val) L3_RANGE_BASE.BASE) (s.fld (l3Reg .L3_RANGE_BASE d.val) L3_RANGE_BASE.BASE + 512 * n.toNat - 1) = none ∧ s.l3Rows d.val (s.fld (l3Reg .L3_RANGE_BASE d.val) L3_RANGE_BASE.BASE) n.toNat = some rows :=
  ⟨r0, Actor.firmware, 0, 1#24, [0], by unfold Writable; decide, by decide, by decide, (by intro l h; cases h), by decide, by decide⟩

theorem test_witness_HostCoresBindAndRangesRun_2 : ∃ (s : State) (a : Actor) (d : Die) (n : BitVec 24), Writable s a (l3Reg .L3_RANGE_CTL d.val) ∧ s.fld (l3Reg .L3_RANGE_STATUS d.val) L3_RANGE_STATUS.BUSY = 1 :=
  ⟨(r0.setFld (l3Reg .L3_RANGE_STATUS 0) L3_RANGE_STATUS.BUSY 1), Actor.firmware, 0, 1#24, by unfold Writable; decide, by decide⟩

theorem test_witness_HostCoresBindAndRangesRun_3 : ∃ (s : State) (d : Die), s.life = .running ∧ s.fld (l3Reg .L3_RANGE_STATUS d.val) L3_RANGE_STATUS.BUSY = 1 ∧ tget 0 s.rangeDue d.val ≤ s.now ∧ s.writeBacks.all (fun w => w.by' != 64 + d.val) = true :=
  ⟨(r0.setFld (l3Reg .L3_RANGE_STATUS 0) L3_RANGE_STATUS.BUSY 1), 0, by decide, by decide, by decide, by decide⟩

theorem test_witness_CacheOperationsActOnTheRow_0 : ∃ (s : State) (u : State) (h : HcId) (addr : BitVec 48) (row : Nat) (c : CachedRow) (b : Bool), HcReaches s h addr.toNat 1 u ∧ s.hcRow (hcKey h) addr.toNat = .ok row ∧ s.writeBacks = [] ∧ tget? s.cached row = some c ∧ c.dirty = false :=
  ⟨({ r0 with cached := [(0, ⟨⟨[], false⟩, false, 0, 0⟩)] } : State), _, ⟨0, 0⟩, 0, 0, ⟨⟨[], false⟩, false, 0, 0⟩, true, (⟨by decide, by decide, by decide, rfl⟩), by decide, by decide, by decide, by decide⟩

theorem test_witness_CacheOperationsActOnTheRow_1 : ∃ (s : State) (u : State) (h : HcId) (addr : BitVec 48) (row : Nat) (c : CachedRow), HcReaches s h addr.toNat 1 u ∧ s.hcRow (hcKey h) addr.toNat = .ok row ∧ s.writeBacks = [] ∧ tget? s.cached row = some c ∧ c.dirty = true ∧ (∀ x, x ∈ s.cacheUpsets → x.row ≠ row) ∧ s.runOn (hcKey h) = none :=
  ⟨({ r0 with cached := [(0, ⟨⟨[], false⟩, true, 0, 0⟩)] } : State), _, ⟨0, 0⟩, 0, 0, ⟨⟨[], false⟩, true, 0, 0⟩, (⟨by decide, by decide, by decide, rfl⟩), by decide, by decide, by decide, by decide, (by intro x h; cases h), by decide⟩

theorem test_witness_CacheOperationsActOnTheRow_2 : ∃ (s : State) (u : State) (v : State) (h : HcId) (addr : BitVec 48) (row : Nat), HcReaches s h addr.toNat 1 u ∧ s.hcRow (hcKey h) addr.toNat = .ok row ∧ v = ({ u with writeBacks := u.writeBacks.filter (fun w => w.row != row), cacheUpsets := u.cacheUpsets.filter (fun x => x.row != row) } : State).bookWrite ⟨.host, hcKey h / 16, hcKey h, s.hcLease (hcKey h), none, true⟩ row 0 ⟨zeroRow, false⟩ :=
  ⟨r0, _, _, ⟨0, 0⟩, 511, 0, (⟨by decide, by decide, by decide, rfl⟩), by decide, (rfl)⟩

theorem test_witness_CacheOperationsActOnTheRow_3 : ∃ (s : State) (h : HcId), s.life = .running ∧ s.hcPaused (hcKey h) = false :=
  ⟨r0, ⟨3, 15⟩, by decide, by decide⟩

theorem test_witness_CacheOperationsActOnTheRow_4_0 : ∃ (s : State) (u : State) (h : HcId) (addr : BitVec 48) (acc : HcAccess) (row : Nat) (c : CachedRow), (acc = .load ∨ acc = .fetch) ∧ HcReaches s h addr.toNat 8 u ∧ s.hcRow (hcKey h) addr.toNat = .ok row ∧ tget? s.cached row = some c ∧ c.img.poison = false ∧ (∀ x, x ∈ s.cacheUpsets → x.row ≠ row) :=
  ⟨({ r0 with cached := [(0, ⟨⟨[], false⟩, false, 0, 0⟩)] } : State), _, ⟨0, 0⟩, 0, .load, 0, ⟨⟨[], false⟩, false, 0, 0⟩, (Or.inl rfl), (⟨by decide, by decide, by decide, rfl⟩), by decide, by decide, by decide, (by intro x h; cases h)⟩

theorem test_witness_CacheOperationsActOnTheRow_4_1 : ∃ (s : State) (u : State) (h : HcId) (addr : BitVec 48) (acc : HcAccess) (row : Nat) (c : CachedRow), (acc = .load ∨ acc = .fetch) ∧ HcReaches s h addr.toNat 8 u ∧ s.hcRow (hcKey h) addr.toNat = .ok row ∧ tget? s.cached row = some c ∧ c.img.poison = false ∧ (∀ x, x ∈ s.cacheUpsets → x.row ≠ row) :=
  ⟨({ r0 with cached := [(0, ⟨⟨[], false⟩, false, 0, 0⟩)] } : State), _, ⟨0, 0⟩, 504, .fetch, 0, ⟨⟨[], false⟩, false, 0, 0⟩, (Or.inr rfl), (⟨by decide, by decide, by decide, rfl⟩), by decide, by decide, by decide, (by intro x h; cases h)⟩

theorem test_witness_CacheOperationsActOnTheRow_5 : ∃ (s : State) (u : State) (h : HcId) (addr : BitVec 48) (row : Nat) (line : Nat) (c : CachedRow) (l : List Byte), HcReaches s h addr.toNat l.length u ∧ s.hcRow (hcKey h) addr.toNat = .ok row ∧ tget? s.cached row = some c ∧ (∀ x, x ∈ s.cacheUpsets → x.row ≠ row) ∧ addr.toNat % 512 + l.length ≤ 512 ∧ line = row * 8 + addr.toNat % 512 / 64 :=
  ⟨({ r0 with cached := [(0, ⟨⟨[], false⟩, false, 0, 0⟩)] } : State), _, ⟨0, 0⟩, 511, 0, 7, ⟨⟨[], false⟩, false, 0, 0⟩, [1], (⟨by decide, by decide, by decide, rfl⟩), by decide, by decide, (by intro x h; cases h), by decide, by decide⟩

theorem test_witness_CacheOperationsActOnTheRow_6_0 : ∃ (s : State) (u : State) (h : HcId) (addr : BitVec 48) (row : Nat) (line : Nat) (o : Nat) (c : CachedRow) (w : Bool) (v : Word), HcReaches s h addr.toNat (wideLen w) u ∧ s.hcRow (hcKey h) addr.toNat = .ok row ∧ tget? s.cached row = some c ∧ c.img.poison = false ∧ (∀ x, x ∈ s.cacheUpsets → x.row ≠ row) ∧ addr.toNat % wideLen w = 0 ∧ o = addr.toNat % 512 ∧ line = row * 8 + o / 64 ∧ tget? s.hcReserved (hcKey h) ≠ some line :=
  ⟨({ r0 with cached := [(0, ⟨⟨[], false⟩, false, 0, 0⟩)] } : State), _, ⟨0, 0⟩, 504, 0, 7, 504, ⟨⟨[], false⟩, false, 0, 0⟩, true, 5, (⟨by decide, by decide, by decide, rfl⟩), by decide, by decide, by decide, (by intro x h; cases h), by decide, by decide, by decide, by decide⟩

theorem test_witness_CacheOperationsActOnTheRow_6_1 : ∃ (s : State) (u : State) (h : HcId) (addr : BitVec 48) (row : Nat) (line : Nat) (o : Nat) (c : CachedRow) (w : Bool) (v : Word), HcReaches s h addr.toNat (wideLen w) u ∧ s.hcRow (hcKey h) addr.toNat = .ok row ∧ tget? s.cached row = some c ∧ c.img.poison = false ∧ (∀ x, x ∈ s.cacheUpsets → x.row ≠ row) ∧ addr.toNat % wideLen w = 0 ∧ o = addr.toNat % 512 ∧ line = row * 8 + o / 64 ∧ tget? s.hcReserved (hcKey h) = some line :=
  ⟨({ r0 with cached := [(0, ⟨⟨[], false⟩, false, 0, 0⟩)], hcReserved := [(0, 7)] } : State), _, ⟨0, 0⟩, 504, 0, 7, 504, ⟨⟨[], false⟩, false, 0, 0⟩, true, 5, (⟨by decide, by decide, by decide, rfl⟩), by decide, by decide, by decide, (by intro x h; cases h), by decide, by decide, by decide, by decide⟩

theorem test_witness_CacheOperationsActOnTheRow_6_2 : ∃ (s : State) (u : State) (h : HcId) (addr : BitVec 48) (row : Nat) (line : Nat) (o : Nat) (c : CachedRow) (w : Bool) (v : Word) (op : AmoOp) (old : Word), HcReaches s h addr.toNat (wideLen w) u ∧ s.hcRow (hcKey h) addr.toNat = .ok row ∧ tget? s.cached row = some c ∧ c.img.poison = false ∧ (∀ x, x ∈ s.cacheUpsets → x.row ≠ row) ∧ addr.toNat % wideLen w = 0 ∧ o = addr.toNat % 512 ∧ line = row * 8 + o / 64 ∧ old = wideValue w (leNat ((c.img.bytes.drop o).take (wideLen w))) :=
  ⟨({ r0 with cached := [(0, ⟨⟨[], false⟩, false, 0, 0⟩)] } : State), _, ⟨0, 0⟩, 508, 0, 7, 508, ⟨⟨[], false⟩, false, 0, 0⟩, false, 5, .add, 0, (⟨by decide, by decide, by decide, rfl⟩), by decide, by decide, by decide, (by intro x h; cases h), by decide, by decide, by decide, by decide⟩

theorem test_witness_CacheOperationsActOnTheRow_7_0 : ∃ (s : State) (k : Nat) (row : Nat) (line : Nat) (c : CachedRow) (x : CacheUpset), tget? s.cached row = some c ∧ s.cacheUpsets.find? (fun y => y.row == row && y.core == (if (s.hcLines k).l2.contains line then some k else none)) = some x ∧ 0 < x.unc ∧ c.dirty = false :=
  ⟨({ r0 with cached := [(0, ⟨⟨[], false⟩, false, 0, 0⟩)], cacheUpsets := [⟨0, none, 0, 1⟩] } : State), 0, 0, 0, ⟨⟨[], false⟩, false, 0, 0⟩, ⟨0, none, 0, 1⟩, by decide, by decide, by decide, by decide⟩

theorem test_witness_CacheOperationsActOnTheRow_7_1 : ∃ (s : State) (k : Nat) (row : Nat) (line : Nat) (c : CachedRow) (x : CacheUpset), tget? s.cached row = some c ∧ s.cacheUpsets.find? (fun y => y.row == row && y.core == (if (s.hcLines k).l2.contains line then some k else none)) = some x ∧ 0 < x.unc ∧ c.dirty = true :=
  ⟨({ r0 with cached := [(0, ⟨⟨[], false⟩, true, 0, 0⟩)], cacheUpsets := [⟨0, none, 0, 1⟩] } : State), 0, 0, 0, ⟨⟨[], false⟩, true, 0, 0⟩, ⟨0, none, 0, 1⟩, by decide, by decide, by decide, by decide⟩

theorem test_witness_InvocationsEndWithTheirStatus_0 : ∃ (s : State) (n : Fin 256) (j : Fin 5) (x : Nat) (k : HcId) (m : ExtMap), s.life = .running ∧ (s.codeSlot n.val j.val).image.isSome = true ∧ s.snapStopped n.val = false ∧ s.extRuns.find? (fun r => r.lease == n.val && r.slot == j.val && r.item == x) = none ∧ s.coreCanRun (hcKey k) n.val none = true :=
  ⟨(({ r0 with codeSlots := [(11, { CodeSlot.empty with image := some [] })] } : State)).setReg (hcReg .HC_BIND 3) (BitVec.ofNat 64 (2 ^ HC_BIND.VALID.lo + 2 ^ HC_BIND.LEASE.lo)), 1, 3, 7, ⟨0, 3⟩, ⟨0, 0, 0, 0, 0, 0⟩, by decide, by decide, by decide, by decide, by decide⟩

theorem test_witness_InvocationsEndWithTheirStatus_1 : ∃ (s : State) (n : Fin 256) (j : Fin 5) (x : Nat) (k : HcId) (m : ExtMap) (r : ExtRun), s.life = .running ∧ (s.codeSlot n.val j.val).image.isSome = true ∧ s.snapStopped n.val = false ∧ s.extRuns.find? (fun r => r.lease == n.val && r.slot == j.val && r.item == x) = some r ∧ r.core = none ∧ s.coreCanRun (hcKey k) n.val r.first = true :=
  ⟨(({ r0 with codeSlots := [(11, { CodeSlot.empty with image := some [] })], extRuns := [⟨1, 3, 7, none, some 9, ⟨0, 0, 0, 0, 0, 0⟩, 0, 0⟩] } : State)).setReg (hcReg .HC_BIND 3) (BitVec.ofNat 64 (2 ^ HC_BIND.VALID.lo + 2 ^ HC_BIND.LEASE.lo)), 1, 3, 7, ⟨0, 3⟩, ⟨0, 0, 0, 0, 0, 0⟩, ⟨1, 3, 7, none, some 9, ⟨0, 0, 0, 0, 0, 0⟩, 0, 0⟩, by decide, by decide, by decide, by decide, by decide, by decide⟩

theorem test_witness_InvocationsEndWithTheirStatus_2_0 : ∃ (s : State) (n : Fin 256) (j : Fin 5) (x : Nat) (b : Nat) (r : ExtRun), s.life = .running ∧ (s.codeSlot n.val j.val).image.isSome = true ∧ s.snapStopped n.val = false ∧ s.extRuns.find? (fun r => r.lease == n.val && r.slot == j.val && r.item == x && r.core.isSome) = some r ∧ b ≤ (s.codeSlot n.val j.val).heap :=
  ⟨({ r0 with codeSlots := [(11, { CodeSlot.empty with image := some [] })], extRuns := [⟨1, 3, 7, some 3, none, ⟨0, 0, 0, 0, 0, 0⟩, 0, 0⟩] } : State), 1, 3, 7, 0, ⟨1, 3, 7, some 3, none, ⟨0, 0, 0, 0, 0, 0⟩, 0, 0⟩, by decide, by decide, by decide, by decide, by decide⟩

theorem test_witness_InvocationsEndWithTheirStatus_2_1 : ∃ (s : State) (n : Fin 256) (j : Fin 5) (x : Nat) (b : Nat) (r : ExtRun), s.life = .running ∧ (s.codeSlot n.val j.val).image.isSome = true ∧ s.snapStopped n.val = false ∧ s.extRuns.find? (fun r => r.lease == n.val && r.slot == j.val && r.item == x && r.core.isSome) = some r ∧ (s.codeSlot n.val j.val).heap < b :=
  ⟨({ r0 with codeSlots := [(11, { CodeSlot.empty with image := some [] })], extRuns := [⟨1, 3, 7, some 3, none, ⟨0, 0, 0, 0, 0, 0⟩, 0, 0⟩] } : State), 1, 3, 7, (2 ^ 63), ⟨1, 3, 7, some 3, none, ⟨0, 0, 0, 0, 0, 0⟩, 0, 0⟩, by decide, by decide, by decide, by decide, by decide⟩

theorem test_witness_InvocationsEndWithTheirStatus_3 : ∃ (s : State) (n : Fin 256) (j : Fin 5) (x : Nat) (out : List Byte) (r : ExtRun) (o : ExtOutcome), s.life = .running ∧ (s.codeSlot n.val j.val).image.isSome = true ∧ s.snapStopped n.val = false ∧ s.extRuns.find? (fun r => r.lease == n.val && r.slot == j.val && r.item == x && r.core.isSome) = some r ∧ s.now < r.since + 1100000 * (s.codeSlot n.val j.val).timeMs ∧ (o = .faultPoison ∨ o = .badOutput) :=
  ⟨({ r0 with codeSlots := [(11, { CodeSlot.empty with image := some [] })], extRuns := [⟨1, 3, 7, some 3, none, ⟨0, 0, 0, 0, 0, 0⟩, 0, 0⟩] } : State), 1, 3, 7, [1], ⟨1, 3, 7, some 3, none, ⟨0, 0, 0, 0, 0, 0⟩, 0, 0⟩, ExtOutcome.faultPoison, by decide, by decide, by decide, by decide, by decide, (Or.inl rfl)⟩

theorem test_witness_InvocationsEndWithTheirStatus_4 : ∃ (s : State) (n : Fin 256) (j : Fin 5) (x : Nat) (o : ExtOutcome) (r : ExtRun), s.life = .running ∧ (s.codeSlot n.val j.val).image.isSome = true ∧ s.snapStopped n.val = false ∧ s.extRuns.find? (fun r => r.lease == n.val && r.slot == j.val && r.item == x && r.core.isSome) = some r ∧ r.since + 1100000 * (s.codeSlot n.val j.val).timeMs ≤ s.now :=
  ⟨({ r0 with codeSlots := [(11, { CodeSlot.empty with image := some [] })], extRuns := [⟨1, 3, 7, some 3, none, ⟨0, 0, 0, 0, 0, 0⟩, 0, 0⟩], now := 2 ^ 60 } : State), 1, 3, 7, (.returned [1]), ⟨1, 3, 7, some 3, none, ⟨0, 0, 0, 0, 0, 0⟩, 0, 0⟩, by decide, by decide, by decide, by decide, by decide⟩

theorem test_witness_InvocationsEndWithTheirStatus_5 : ∃ (s : State) (n : Fin 256) (j : Fin 5), s.life = .running :=
  ⟨r0, 255, 4, by decide⟩

theorem test_witness_ReferenceWindowsAreJudged_0_0 : ∃ (s : State) (n : Nat), s.life = .running ∧ s.fld clkMon CLK_MON_STATUS.REF_OK = 1 ∧ 99500 ≤ n ∧ n ≤ 100500 :=
  ⟨(r0.setFld clkMon CLK_MON_STATUS.REF_OK 1), 99500, by decide, by decide, by decide, by decide⟩

theorem test_witness_ReferenceWindowsAreJudged_0_1 : ∃ (s : State) (n : Nat), s.life = .running ∧ s.fld clkMon CLK_MON_STATUS.REF_OK = 1 ∧ 99500 ≤ n ∧ n ≤ 100500 :=
  ⟨(r0.setFld clkMon CLK_MON_STATUS.REF_OK 1), 100500, by decide, by decide, by decide, by decide⟩

theorem test_witness_ReferenceWindowsAreJudged_1_0 : ∃ (s : State) (n : Nat), s.life = .running ∧ s.fld clkMon CLK_MON_STATUS.REF_OK = 1 ∧ (n < 99500 ∨ 100500 < n) :=
  ⟨(r0.setFld clkMon CLK_MON_STATUS.REF_OK 1), 99499, by decide, by decide, (Or.inl (by decide))⟩

theorem test_witness_ReferenceWindowsAreJudged_1_1 : ∃ (s : State) (n : Nat), s.life = .running ∧ s.fld clkMon CLK_MON_STATUS.REF_OK = 1 ∧ (n < 99500 ∨ 100500 < n) :=
  ⟨(r0.setFld clkMon CLK_MON_STATUS.REF_OK 1), 100501, by decide, by decide, (Or.inr (by decide))⟩

theorem test_witness_ReferenceWindowsAreJudged_2 : ∃ (s : State), s.life = .running ∧ s.fld clkMon CLK_MON_STATUS.REF_OK = 1 :=
  ⟨(r0.setFld clkMon CLK_MON_STATUS.REF_OK 1), by decide, by decide⟩

theorem test_witness_ReferenceWindowsAreJudged_3 : ∃ (s : State) (c : Nat), c < 4 :=
  ⟨r0, 3, by decide⟩

theorem test_witness_ReferenceWindowsAreJudged_4_0 : ∃ (s : State) (n : Nat), s.life = .running ∧ s.fld clkMon CLK_MON_STATUS.REF_OK = 0 ∧ s.judging = true ∧ 99800 ≤ n ∧ n ≤ 100200 ∧ s.goodWindows = 2 :=
  ⟨({ r0 with relockAt := some 0, goodWindows := 2 } : State), 100200, by decide, by decide, by decide, by decide, by decide, by decide⟩

theorem test_witness_ReferenceWindowsAreJudged_4_1 : ∃ (s : State) (n : Nat), s.life = .running ∧ s.fld clkMon CLK_MON_STATUS.REF_OK = 0 ∧ s.judging = true ∧ 99800 ≤ n ∧ n ≤ 100200 ∧ s.goodWindows = 2 :=
  ⟨({ r0 with relockAt := some 0, goodWindows := 2 } : State), 99800, by decide, by decide, by decide, by decide, by decide, by decide⟩

theorem test_witness_ClockRootsFailOverAndRelock_0 : ∃ (s : State) (a : Actor) (v : Word), Writable s a ⟨.CLK_CTRL, selSv0, 0, 0⟩ ∧ bitAt v.toNat CLK_CTRL.ROOT_SV0.lo = false ∧ s.fld clkMon CLK_MON_STATUS.HOLDOVER = 1 ∧ s.relockAt = none :=
  ⟨(r0.setFld clkMon CLK_MON_STATUS.HOLDOVER 1), Actor.firmware, (BitVec.ofNat 64 (2 ^ CLK_CTRL.RELOCK.lo)), by unfold Writable; decide, by decide, by decide, by decide⟩

theorem test_witness_ClockRootsFailOverAndRelock_1 : ∃ (s : State) (a : Actor) (v : Word), Writable s a ⟨.CLK_CTRL, selSv0, 0, 0⟩ ∧ bitAt v.toNat CLK_CTRL.RELOCK.lo = false ∧ s.fld clkMon CLK_MON_STATUS.STANDBY = 1 :=
  ⟨(r0.setFld clkMon CLK_MON_STATUS.STANDBY 1), Actor.firmware, (BitVec.ofNat 64 (2 ^ CLK_CTRL.ROOT_SV0.lo)), by unfold Writable; decide, by decide, by decide⟩

theorem test_witness_ClockRootsFailOverAndRelock_2 : ∃ (s : State) (c : Nat), s.life = .running ∧ s.relockAt = some c ∧ s.fld clkMon CLK_MON_STATUS.REF_OK = 1 :=
  ⟨({ r0 with relockAt := some 0 } : State).setFld clkMon CLK_MON_STATUS.REF_OK 1, 0, by decide, by decide, by decide⟩

theorem test_witness_ClockRootsFailOverAndRelock_3 : ∃ (s : State) (c : Nat), s.life = .running ∧ s.relockAt = some c ∧ s.fld clkMon CLK_MON_STATUS.REF_OK = 0 ∧ c + 110000000 ≤ s.now :=
  ⟨({ r0 with relockAt := some 0, now := 110000000 } : State), 0, by decide, by decide, by decide, by decide⟩

theorem test_witness_ClockRootsFailOverAndRelock_4 : ∃ (s : State), s.life = .running ∧ s.fld clkMon CLK_MON_STATUS.STANDBY = 0 ∧ s.standbyLost = false :=
  ⟨r0, by decide, by decide, by decide⟩

theorem test_witness_ClockRootsFailOverAndRelock_5 : ∃ (s : State), s.life = .running ∧ s.fld clkMon CLK_MON_STATUS.STANDBY = 0 ∧ s.standbyLost = true :=
  ⟨({ r0 with standbyLost := true } : State), by decide, by decide, by decide⟩

theorem test_witness_ClockRootsFailOverAndRelock_6 : ∃ (s : State), s.life = .running :=
  ⟨r0, by decide⟩

theorem test_witness_PowerIsSampledAndCharged_0 : ∃ (s : State) (c : CoreId), s.life = .running ∧ (s.core (ckey c)).gated = true :=
  ⟨r0, c0, by decide, by decide⟩

theorem test_witness_PowerIsSampledAndCharged_1 : ∃ (s : State) (w : Nat), s.life = .running ∧ s.powerAt + 11000 ≤ s.now :=
  ⟨({ r0 with now := 11000 } : State), 4200, by decide, by decide⟩

theorem test_witness_PowerIsSampledAndCharged_2 : ∃ (s : State) (d : Die) (c : Fin 4), s.life = .running ∧ s.clustersOff.contains (4 * d.val + c.val) = false ∧ tget 0 s.clusterUsed (4 * d.val + c.val) + 110000000 ≤ s.now ∧ (∀ i, i < 4 → s.hcLease (4 * (4 * d.val + c.val) + i) = none) :=
  ⟨({ r0 with now := 110000000 } : State), 3, 3, by decide, by decide, by decide, by decide⟩

theorem test_witness_PowerIsSampledAndCharged_3 : ∃ (s : State) (e : EnergySample) (x : Nat), s.life = .running ∧ s.energyAt + 1100000 ≤ s.now :=
  ⟨({ r0 with now := 1100000 } : State), ⟨[(255, 2 ^ 63 - 1)], 0, 0, 0, 0, 0, 0⟩, 5, by decide, by decide⟩

theorem test_witness_DutyFollowsPowerAndHeat_0_0 : ∃ (s : State) (w : Nat) (tj : Nat), s.life = .running ∧ s.dutyAt + 110000 ≤ s.now ∧ s.fld pwrStatus PWR_STATUS.DUTY ≤ 16 :=
  ⟨({ r0 with now := 110000 } : State), 3000, 97, by decide, by decide, by decide⟩

theorem test_witness_DutyFollowsPowerAndHeat_0_1 : ∃ (s : State) (w : Nat) (tj : Nat), s.life = .running ∧ s.dutyAt + 110000 ≤ s.now ∧ s.fld pwrStatus PWR_STATUS.DUTY ≤ 16 :=
  ⟨({ r0 with now := 110000 } : State).setFld pwrStatus PWR_STATUS.DUTY 4, 3000, 101, by decide, by decide, by decide⟩

theorem test_witness_DebugGrantsAndInjections_0 : ∃ (s : State) (a : Actor) (v : Word), Writable s a ⟨.DBG_CTRL, selSv0, 0, 0⟩ ∧ bitAt v.toNat DBG_CTRL.LOCK.lo = false ∧ s.fld dbgStatus DBG_STATUS.GRANTED = 0 ∧ s.verifyAt = none :=
  ⟨r0, Actor.firmware, (BitVec.ofNat 64 (2 ^ DBG_CTRL.VERIFY.lo)), by unfold Writable; decide, by decide, by decide, by decide⟩

theorem test_witness_DebugGrantsAndInjections_1 : ∃ (s : State) (c : Nat), s.life = .running ∧ s.verifyAt = some c :=
  ⟨({ r0 with verifyAt := some 0 } : State), 0, by decide, by decide⟩

theorem test_witness_DebugGrantsAndInjections_2 : ∃ (s : State) (a : Actor) (v : Word), Writable s a ⟨.DBG_CTRL, selSv0, 0, 0⟩ ∧ bitAt v.toNat DBG_CTRL.VERIFY.lo = false :=
  ⟨(r0.setFld dbgStatus DBG_STATUS.GRANTED 7), Actor.firmware, (BitVec.ofNat 64 (2 ^ DBG_CTRL.LOCK.lo)), by unfold Writable; decide, by decide⟩

theorem test_witness_DebugGrantsAndInjections_3 : ∃ (s : State) (a : Actor) (d : Die) (v : Word), Writable s a ⟨.PERT_XING, selCd d.val, 0, 0⟩ ∧ s.granted 0 = true ∧ isDcp a = false :=
  ⟨(r0.setFld dbgStatus DBG_STATUS.GRANTED 1), Actor.firmware, 3, 5, by unfold Writable; decide, by decide, by decide⟩

theorem test_witness_DebugGrantsAndInjections_4 : ∃ (s : State) (a : Actor) (v : Word) (x : Inject), Writable s a injCtrl ∧ s.granted 1 = true ∧ s.injArm (setBit v.toNat INJ_CTRL.ARM.lo true) = .ok x :=
  ⟨(r0.setFld dbgStatus DBG_STATUS.GRANTED 2), Actor.firmware, (BitVec.ofNat 64 (2 ^ 16 + 63 * 2 ^ 10)), ⟨some 0, none, 0, [(0, 1)], true⟩, by unfold Writable; decide, by decide, by decide⟩

theorem test_witness_DebugGrantsAndInjections_5 : ∃ (s : State) (d : Die), s.life = .running :=
  ⟨({ r0 with linkHeld := [(0x10, 0)] } : State), 0, by decide⟩

theorem test_witness_DebugGrantsAndInjections_6 : ∃ (s : State), s.powered = true :=
  ⟨r0, by decide⟩

theorem test_witness_DebugGrantsAndInjections_7 : ∃ (s : State) (x : BitVec 48) (v : Word), s.powered = true ∧ s.granted 2 = true :=
  ⟨(r0.setFld dbgStatus DBG_STATUS.GRANTED 4), 0, 0, by decide, by decide⟩

theorem test_witness_StartRunsInStages_0 : ∃ (s : State), s.life = .running ∧ s.startDue = true :=
  ⟨r0, by decide, by decide⟩

theorem test_witness_StartRunsInStages_1 : ∃ (s : State), s.life = .running ∧ s.starting = true ∧ s.stage = 1 ∧ s.now ≤ s.stageAt + ms 50 :=
  ⟨({ r0 with startDue := false } : State).setFld startStatus START_STATUS.STAGE 1, by decide, by decide, by decide, by decide⟩

theorem test_witness_StartRunsInStages_2 : ∃ (s : State), s.life = .running ∧ s.starting = true ∧ s.stage = 7 ∧ s.now ≤ s.stageAt + ms 5000 :=
  ⟨({ r0 with startDue := false } : State).setFld startStatus START_STATUS.STAGE 7, by decide, by decide, by decide, by decide⟩

theorem test_witness_StartRunsInStages_3 : ∃ (s : State) (x : Nat), s.life = .running ∧ s.starting = true ∧ s.stage = 5 ∧ s.now ≤ s.stageAt + ms 1000 :=
  ⟨({ r0 with startDue := false } : State).setFld startStatus START_STATUS.STAGE 5, 0, by decide, by decide, by decide, by decide⟩

theorem test_witness_StartRunsInStages_4 : ∃ (s : State), s.life = .running ∧ s.starting = true ∧ s.stage = 5 ∧ s.stageAt + ms (stageBound 5) ≤ s.now :=
  ⟨({ r0 with startDue := false, now := ms (stageBound 5) } : State).setFld startStatus START_STATUS.STAGE 5, by decide, by decide, by decide, by decide⟩

theorem test_witness_StartRunsInStages_5 : ∃ (s : State), s.life = .running ∧ (s.sv1 = false ∨ s.minimal = false) ∧ s.sv0Failed = false :=
  ⟨r0, by decide, by decide, by decide⟩

theorem test_witness_StartRunsInStages_6_0 : ∃ (s : State), s.life = .running ∧ (s.sv1 = false ∨ s.minimal = false) ∧ (s.sv0Failed = true ∨ s.heartbeatAt + 110000000 ≤ s.now) :=
  ⟨({ r0 with sv0Failed := true } : State), by decide, by decide, (Or.inl (by decide))⟩

theorem test_witness_StartRunsInStages_6_1 : ∃ (s : State), s.life = .running ∧ (s.sv1 = false ∨ s.minimal = false) ∧ (s.sv0Failed = true ∨ s.heartbeatAt + 110000000 ≤ s.now) :=
  ⟨({ r0 with now := 110000000 } : State), by decide, by decide, (Or.inr (by decide))⟩

theorem test_witness_StartRunsInStages_7 : ∃ (s : State), s.life = .running ∧ s.stage ≠ 9 ∧ s.storeStart.length = 3 :=
  ⟨r0, by decide, by decide, by decide⟩

theorem test_witness_StartRunsInStages_8 : ∃ (s : State), s.life = .running ∧ s.sv1 = false :=
  ⟨r0, by decide, by decide⟩

theorem test_witness_PinsHoldResetTripAndAlert_0 : ∃ (s : State), s.powered = true ∧ s.resetLow = false :=
  ⟨r0, by decide, by decide⟩

theorem test_witness_PinsHoldResetTripAndAlert_1 : ∃ (s : State) (x : BitVec 7), s.life = .inReset ∧ s.resetLow = true :=
  ⟨({ r0 with life := .inReset, resetLow := true } : State), 3, by decide, by decide⟩

theorem test_witness_PinsHoldResetTripAndAlert_2 : ∃ (s : State), s.life ≠ .unpowered :=
  ⟨r0, by decide⟩

theorem test_witness_PinsHoldResetTripAndAlert_3 : ∃ (s : State), s.life = .unpowered ∧ s.resetLow = false :=
  ⟨({ r0 with life := .unpowered } : State), by decide, by decide⟩

theorem test_witness_PinsHoldResetTripAndAlert_4 : ∃ (s : State), s.powered = true :=
  ⟨({ r0 with life := .rootsLost } : State), by decide⟩

theorem test_witness_PinsHoldResetTripAndAlert_5_0 : ∃ (s : State) (k : Sensor) (sel : Fin 64) (x : Fin 256), s.powered = true ∧ tripValue k ≤ x.val ∧ s.hot.contains (tripCause k * 64 + sel.val) = true :=
  ⟨({ r0 with hot := [64] } : State), .compute, 0, 115, by decide, by decide, by decide⟩

theorem test_witness_PinsHoldResetTripAndAlert_5_1 : ∃ (s : State) (k : Sensor) (sel : Fin 64) (x : Fin 256), s.powered = true ∧ tripValue k ≤ x.val ∧ s.hot.contains (tripCause k * 64 + sel.val) = true :=
  ⟨({ r0 with hot := [256] } : State), .regulator, 0, 125, by decide, by decide, by decide⟩

theorem test_witness_PinsHoldResetTripAndAlert_6 : ∃ (s : State) (k : Sensor) (sel : Fin 64) (x : Fin 256), s.powered = true ∧ x.val < tripValue k :=
  ⟨({ r0 with hot := [128] } : State), .dram, 0, 104, by decide, by decide⟩

theorem test_witness_PinsHoldResetTripAndAlert_7 : ∃ (s : State), s.life = .running :=
  ⟨r0, by decide⟩

theorem test_witness_PinsHoldResetTripAndAlert_8 : ∃ (s : State), s.life = .tripped :=
  ⟨({ r0 with life := .tripped } : State), by decide⟩

theorem test_witness_PinsHoldResetTripAndAlert_10 : ∃ (s : State) (i : Fin 4), s.powered = true ∧ bitAt (s.fld ⟨.PKG_PIN_STATUS, selSv0, 0, 0⟩ PKG_PIN_STATUS.ALERT) i.val = true ∧ s.alertWanted i.val = false ∧ tget 0 s.alertSince i.val + 1100000 ≤ s.now :=
  ⟨({ r0 with now := 1100000, startDue := false } : State).setFld ⟨.PKG_PIN_STATUS, selSv0, 0, 0⟩ PKG_PIN_STATUS.ALERT 8, 3, by decide, by decide, by decide, by decide⟩

theorem test_witness_UnitsEnumerateAndTakeLinkPackets_0 : ∃ (s : State) (h : Fin 2), s.life = .running ∧ s.portUp (.host h) = true ∧ (tget (0, 0) s.adverts (16 + h.val)).1 = 0 :=
  ⟨(r0.setFld (portRegs (.host 1)).2.1 PEER_PORT_STATUS.UP 1), 1, by decide, by decide, by decide⟩

theorem test_witness_UnitsEnumerateAndTakeLinkPackets_1 : ∃ (s : State), s.life = .running ∧ s.announcedAt = none :=
  ⟨r0, by decide, by decide⟩

theorem test_witness_UnitsEnumerateAndTakeLinkPackets_3 : ∃ (s : State) (c : Nat), s.life = .running ∧ s.completeAt = some c ∧ s.enumAt = none ∧ c + 1100000000 ≤ s.now ∧ s.strap = 0 ∧ s.portUp (.peer 1) = false :=
  ⟨({ r0 with completeAt := some 0, now := 1100000000, strap := 0 } : State), 0, by decide, by decide, by decide, by decide, by decide, by decide⟩

theorem test_witness_UnitsEnumerateAndTakeLinkPackets_4 : ∃ (s : State) (c : Nat), s.life = .running ∧ s.enumAt = some c ∧ c + 2200000000 ≤ s.now ∧ s.hasPos = false ∧ s.strap ≠ 0 ∧ s.strap < 127 :=
  ⟨({ r0 with enumAt := some 0, now := 2200000000, strap := 126 } : State), 0, by decide, by decide, by decide, by decide, by decide, by decide⟩

theorem test_witness_UnitsEnumerateAndTakeLinkPackets_5 : ∃ (s : State) (c : Nat) (r : AddrRecord), s.life = .running ∧ s.enumAt = some c ∧ s.addrRecord = some r ∧ s.reclaimDue = true ∧ s.portsMatch r = true ∧ s.foreign = false ∧ s.now ≤ c + 5500000000 ∧ r.addr < 65536 :=
  ⟨({ r0 with enumAt := some 0, addrRecord := some ⟨0xFFFE, [(true, 0)]⟩, reclaimDue := true } : State).setFld (portRegs (.peer 0)).2.1 PEER_PORT_STATUS.UP 1, 0, ⟨0xFFFE, [(true, 0)]⟩, by decide, by decide, by decide, by decide, by decide, by decide, (by decide), by decide⟩

theorem test_witness_UnitsEnumerateAndTakeLinkPackets_0_b : ∃ (s : State) (q : Fin 16) (p : DftPacket), s.life = .running ∧ s.portUp (.peer q) = true ∧ s.frameOk p = true ∧ linkScope p = true ∧ mgmtKind p = 1 ∧ (s.frameIn q p).2 = true :=
  ⟨(r0.setFld (portRegs (.peer 15)).2.1 PEER_PORT_STATUS.UP 1), 15, ⟨{ srcPort := fab.dftPort, dstPort := fab.dftPort }, 1, 8, 0, false, false, false, 7, 0, 0, 1, 0, 0, 0, 0, 0, .ok, 0, 1, [⟨[1, 0, 5, 0], false⟩], 0, 0⟩, by decide, by decide, by decide, by decide, by decide, by decide⟩

theorem test_witness_UnitsEnumerateAndTakeLinkPackets_1_b : ∃ (s : State) (p : DftPacket), s.life = .running ∧ s.portUp (.peer 0) = true ∧ s.frameOk p = true ∧ linkScope p = true ∧ mgmtKind p = 2 ∧ s.hasPos = false ∧ (s.frameIn 0 p).2 = true :=
  ⟨(r0.setFld (portRegs (.peer 0)).2.1 PEER_PORT_STATUS.UP 1), ⟨{ srcPort := fab.dftPort, dstPort := fab.dftPort }, 1, 8, 0, false, false, false, 7, 0, 0, 1, 0, 0, 0, 0, 0, .ok, 0, 1, [⟨[2, 0, 5, 0], false⟩], 0, 0⟩, by decide, by decide, by decide, by decide, by decide, by decide, (by decide)⟩

theorem test_witness_UnitsEnumerateAndTakeLinkPackets_2_b : ∃ (s : State) (q : Fin 16) (p : DftPacket), s.life = .running ∧ s.portUp (.peer q) = true ∧ s.frameOk p = true ∧ linkScope p = true ∧ mgmtKind p = 3 ∧ (s.frameIn q p).2 = true :=
  ⟨(r0.setFld (portRegs (.peer 1)).2.1 PEER_PORT_STATUS.UP 1), 1, ⟨{ srcPort := fab.dftPort, dstPort := fab.dftPort }, 1, 8, 0, false, false, false, 7, 0, 0, 1, 0, 0, 0, 0, 0, .ok, 0, 1, [⟨[3, 0, 5, 0], false⟩], 0, 0⟩, by decide, by decide, by decide, by decide, by decide, by decide⟩

theorem test_witness_SparesAndRetirements_0 : ∃ (s : State) (c : CoreId), s.life = .running ∧ s.marked.contains (ckey c) = true ∧ s.exposed c.die.val c.core.val = true ∧ s.fld (tcBind (ckey c)) TC_BIND.MODE = 0 ∧ (s.core (ckey c)).scrubDue = none ∧ s.fld (rasSpare c.die.val) RAS_SPARE.SPARES_LEFT ≠ 0 :=
  ⟨({ r0 with marked := [0] } : State), c0, by decide, by decide, by decide, by decide, by decide, by decide⟩

theorem test_witness_SparesAndRetirements_1 : ∃ (s : State) (c : CoreId), s.life = .running ∧ s.marked.contains (ckey c) = true ∧ s.exposed c.die.val c.core.val = true ∧ s.fld (tcBind (ckey c)) TC_BIND.MODE = 0 ∧ (s.core (ckey c)).scrubDue = none ∧ s.fld (rasSpare c.die.val) RAS_SPARE.SPARES_LEFT = 0 :=
  ⟨({ r0 with marked := [0] } : State).setFld (rasSpare 0) RAS_SPARE.SPARES_LEFT 0, c0, by decide, by decide, by decide, by decide, by decide, by decide⟩

theorem test_witness_SparesAndRetirements_2 : ∃ (s : State) (d : Die) (b : Fin 96), s.life = .running ∧ s.retireDue.contains (d.val, b.val) = true ∧ s.retired.contains (d.val, b.val) = false ∧ (∀ p, p < 32 → s.fld (sdmPart d.val p) SDM_PART.VALID = 0) ∧ s.fld (rasSpare d.val) RAS_SPARE.BANKS_RETIRED < 96 :=
  ⟨({ r0 with retireDue := [(0, 95)] } : State), 0, 95, by decide, by decide, by decide, by decide, by decide⟩

theorem test_witness_SparesAndRetirements_3 : ∃ (s : State), s.life = .running ∧ s.stage = 9 ∧ s.rasAt + 11000000000 ≤ s.now :=
  ⟨({ r0 with now := 11000000000 } : State).setFld startStatus START_STATUS.STAGE 9, by decide, by decide, by decide⟩

theorem test_witness_ArrayVectorAndEngineOperationsIssue_0_0 : ∃ (s : State) (c : CoreId) (ma : Fin 4) (q : Kernel) (b : Bundle), SlotIssues s (ckey c) ma.val 1 q b :=
  ⟨(issuing 0 1), c0, 0, (k0 (oneOp 0 1)), (bun 0 1), ⟨by decide, by decide, by decide, by decide, by decide, by decide, by decide, Or.inl (by decide)⟩⟩

theorem test_witness_ArrayVectorAndEngineOperationsIssue_0_1 : ∃ (s : State) (c : CoreId) (ma : Fin 4) (q : Kernel) (b : Bundle), SlotIssues s (ckey c) ma.val 1 q b :=
  ⟨(issuing 3 1), c0, 3, (k0 (oneOp 3 1)), (bun 3 1), ⟨by decide, by decide, by decide, by decide, by decide, by decide, by decide, Or.inl (by decide)⟩⟩

theorem test_witness_ArrayVectorAndEngineOperationsIssue_1_0 : ∃ (s : State) (c : CoreId) (ma : Fin 4) (q : Kernel) (b : Bundle), SlotIssues s (ckey c) ma.val 2 q b :=
  ⟨(issuing 0 2), c0, 0, (k0 (oneOp 0 2)), (bun 0 2), ⟨by decide, by decide, by decide, by decide, by decide, by decide, by decide, Or.inl (by decide)⟩⟩

theorem test_witness_ArrayVectorAndEngineOperationsIssue_1_1 : ∃ (s : State) (c : CoreId) (ma : Fin 4) (q : Kernel) (b : Bundle), SlotIssues s (ckey c) ma.val 2 q b :=
  ⟨(issuing 3 2), c0, 3, (k0 (oneOp 3 2)), (bun 3 2), ⟨by decide, by decide, by decide, by decide, by decide, by decide, by decide, Or.inl (by decide)⟩⟩

theorem test_witness_ArrayVectorAndEngineOperationsIssue_2 : ∃ (s : State) (c : CoreId) (q : Kernel) (b : Bundle), SlotIssues s (ckey c) 4 1 q b :=
  ⟨(issuing 4 1), c0, (k0 (oneOp 4 1)), (bun 4 1), ⟨by decide, by decide, by decide, by decide, by decide, by decide, by decide, Or.inl (by decide)⟩⟩

theorem test_witness_ArrayVectorAndEngineOperationsIssue_3 : ∃ (s : State) (c : CoreId) (q : Kernel) (b : Bundle), SlotIssues s (ckey c) 5 1 q b :=
  ⟨(issuing 5 1), c0, (k0 (oneOp 5 1)), (bun 5 1), ⟨by decide, by decide, by decide, by decide, by decide, by decide, by decide, Or.inl (by decide)⟩⟩

theorem test_witness_ArrayVectorAndEngineOperationsIssue_4 : ∃ (s : State) (c : CoreId) (q : Kernel) (b : Bundle), SlotIssues s (ckey c) 5 2 q b :=
  ⟨(issuing 5 2), c0, (k0 (oneOp 5 2)), (bun 5 2), ⟨by decide, by decide, by decide, by decide, by decide, by decide, by decide, Or.inl (by decide)⟩⟩

theorem test_witness_ArrayVectorAndEngineOperationsIssue_5_0 : ∃ (s : State) (c : CoreId) (q : Kernel) (b : Bundle), SlotIssues s (ckey c) 5 3 q b ∧ s.drainMode (ckey c) = some none :=
  ⟨(r0.setFld (ringReg .RING_PROD 0 3) RING_PROD.PRODUCED 1).setCore 0 { Core.reset with kernel := some (k0 (oneOp 5 (3 + 2 ^ 48))), dcache := [(1, [BitVec.ofNat 64 (2 ^ 28)])] }, c0, (k0 (oneOp 5 (3 + 2 ^ 48))), (bun 5 (3 + 2 ^ 48)), ⟨by decide, by decide, by decide, by decide, by decide, by decide, by decide, Or.inl (by decide)⟩, by decide⟩

theorem test_witness_ArrayVectorAndEngineOperationsIssue_5_1 : ∃ (s : State) (c : CoreId) (q : Kernel) (b : Bundle), SlotIssues s (ckey c) 5 3 q b ∧ s.drainMode (ckey c) = some (some 0) :=
  ⟨(r0.setFld (ringReg .RING_PROD 0 3) RING_PROD.PRODUCED 1).setCore 0 { Core.reset with kernel := some (k0 (oneOp 5 (3 + 2 ^ 48))), dcache := [(1, [BitVec.ofNat 64 (2 ^ 28 + 2 * 2 ^ 48)]), (2, [BitVec.ofNat 64 (6 * 2 ^ 28 + 0 * 2 ^ 22)])] }, c0, (k0 (oneOp 5 (3 + 2 ^ 48))), (bun 5 (3 + 2 ^ 48)), ⟨by decide, by decide, by decide, by decide, by decide, by decide, by decide, Or.inl (by decide)⟩, by decide⟩

theorem test_witness_ArrayVectorAndEngineOperationsIssue_5_2 : ∃ (s : State) (c : CoreId) (q : Kernel) (b : Bundle), SlotIssues s (ckey c) 5 3 q b ∧ s.drainMode (ckey c) = some (some 1) :=
  ⟨(r0.setFld (ringReg .RING_PROD 0 3) RING_PROD.PRODUCED 1).setCore 0 { Core.reset with kernel := some (k0 (oneOp 5 (3 + 2 ^ 48))), dcache := [(1, [BitVec.ofNat 64 (2 ^ 28 + 2 * 2 ^ 48)]), (2, [BitVec.ofNat 64 (6 * 2 ^ 28 + 1 * 2 ^ 22)])] }, c0, (k0 (oneOp 5 (3 + 2 ^ 48))), (bun 5 (3 + 2 ^ 48)), ⟨by decide, by decide, by decide, by decide, by decide, by decide, by decide, Or.inl (by decide)⟩, by decide⟩

theorem test_witness_ArrayVectorAndEngineOperationsIssue_5_3 : ∃ (s : State) (c : CoreId) (q : Kernel) (b : Bundle), SlotIssues s (ckey c) 5 3 q b ∧ s.drainMode (ckey c) = some (some 2) :=
  ⟨(r0.setFld (ringReg .RING_PROD 0 3) RING_PROD.PRODUCED 1).setCore 0 { Core.reset with kernel := some (k0 (oneOp 5 (3 + 2 ^ 48))), dcache := [(1, [BitVec.ofNat 64 (2 ^ 28 + 2 * 2 ^ 48)]), (2, [BitVec.ofNat 64 (6 * 2 ^ 28 + 2 * 2 ^ 22)])] }, c0, (k0 (oneOp 5 (3 + 2 ^ 48))), (bun 5 (3 + 2 ^ 48)), ⟨by decide, by decide, by decide, by decide, by decide, by decide, by decide, Or.inl (by decide)⟩, by decide⟩

theorem test_witness_SequencerAndSyncOperationsIssue_0 : ∃ (s : State) (c : CoreId) (q : Kernel) (b : Bundle), SlotIssues s (ckey c) 8 1 q b :=
  ⟨(issuing 8 1), c0, (k0 (oneOp 8 1)), (bun 8 1), ⟨by decide, by decide, by decide, by decide, by decide, by decide, by decide, Or.inl (by decide)⟩⟩

theorem test_witness_SequencerAndSyncOperationsIssue_1 : ∃ (s : State) (c : CoreId) (q : Kernel) (b : Bundle), SlotIssues s (ckey c) 8 2 q b :=
  ⟨(issuing 8 2), c0, (k0 (oneOp 8 2)), (bun 8 2), ⟨by decide, by decide, by decide, by decide, by decide, by decide, by decide, Or.inl (by decide)⟩⟩

theorem test_witness_SequencerAndSyncOperationsIssue_2 : ∃ (s : State) (c : CoreId) (q : Kernel) (b : Bundle), SlotIssues s (ckey c) 8 3 q b :=
  ⟨(issuing 8 3), c0, (k0 (oneOp 8 3)), (bun 8 3), ⟨by decide, by decide, by decide, by decide, by decide, by decide, by decide, Or.inl (by decide)⟩⟩

theorem test_witness_SequencerAndSyncOperationsIssue_3 : ∃ (s : State) (c : CoreId) (q : Kernel) (b : Bundle), SlotIssues s (ckey c) 8 4 q b :=
  ⟨(issuing 8 4), c0, (k0 (oneOp 8 4)), (bun 8 4), ⟨by decide, by decide, by decide, by decide, by decide, by decide, by decide, Or.inl (by decide)⟩⟩

theorem test_witness_SequencerAndSyncOperationsIssue_4 : ∃ (s : State) (c : CoreId) (q : Kernel) (b : Bundle), SlotIssues s (ckey c) 8 5 q b :=
  ⟨(issuing 8 5), c0, (k0 (oneOp 8 5)), (bun 8 5), ⟨by decide, by decide, by decide, by decide, by decide, by decide, by decide, Or.inl (by decide)⟩⟩

theorem test_witness_SequencerAndSyncOperationsIssue_5 : ∃ (s : State) (c : CoreId) (q : Kernel) (b : Bundle), SlotIssues s (ckey c) 8 6 q b :=
  ⟨(issuing 8 6), c0, (k0 (oneOp 8 6)), (bun 8 6), ⟨by decide, by decide, by decide, by decide, by decide, by decide, by decide, Or.inl (by decide)⟩⟩

theorem test_witness_SequencerAndSyncOperationsIssue_6 : ∃ (s : State) (c : CoreId) (q : Kernel) (b : Bundle), SlotIssues s (ckey c) 9 1 q b :=
  ⟨(issuing 9 1), c0, (k0 (oneOp 9 1)), (bun 9 1), ⟨by decide, by decide, by decide, by decide, by decide, by decide, by decide, Or.inl (by decide)⟩⟩

theorem test_witness_SequencerAndSyncOperationsIssue_7 : ∃ (s : State) (c : CoreId) (q : Kernel) (b : Bundle), SlotIssues s (ckey c) 9 2 q b :=
  ⟨(issuing 9 2), c0, (k0 (oneOp 9 2)), (bun 9 2), ⟨by decide, by decide, by decide, by decide, by decide, by decide, by decide, Or.inl (by decide)⟩⟩

theorem test_witness_SequencerAndSyncOperationsIssue_8 : ∃ (s : State) (c : CoreId) (q : Kernel) (b : Bundle), SlotIssues s (ckey c) 9 3 q b :=
  ⟨(issuing 9 3), c0, (k0 (oneOp 9 3)), (bun 9 3), ⟨by decide, by decide, by decide, by decide, by decide, by decide, by decide, Or.inl (by decide)⟩⟩

theorem test_witness_SequencerAndSyncOperationsIssue_9 : ∃ (s : State) (c : CoreId) (q : Kernel) (b : Bundle), SlotIssues s (ckey c) 9 4 q b :=
  ⟨(issuing 9 4), c0, (k0 (oneOp 9 4)), (bun 9 4), ⟨by decide, by decide, by decide, by decide, by decide, by decide, by decide, Or.inl (by decide)⟩⟩

theorem test_witness_SequencerAndSyncOperationsIssue_10 : ∃ (s : State) (c : CoreId) (q : Kernel) (b : Bundle), SlotIssues s (ckey c) 9 5 q b :=
  ⟨(issuing 9 5), c0, (k0 (oneOp 9 5)), (bun 9 5), ⟨by decide, by decide, by decide, by decide, by decide, by decide, by decide, Or.inl (by decide)⟩⟩

theorem test_witness_SequencerAndSyncOperationsIssue_11 : ∃ (s : State) (c : CoreId) (q : Kernel) (b : Bundle), SlotIssues s (ckey c) 9 6 q b :=
  ⟨(issuing 9 6), c0, (k0 (oneOp 9 6)), (bun 9 6), ⟨by decide, by decide, by decide, by decide, by decide, by decide, by decide, Or.inl (by decide)⟩⟩

theorem test_witness_SequencerAndSyncOperationsIssue_12 : ∃ (s : State) (c : CoreId) (q : Kernel) (b : Bundle), s.life = .running ∧ s.mayIssue (ckey c) = some (q, b) ∧ q.squashed = true ∧ q.slots = 0 ∧ s.squashCheck (ckey c) b = none ∧ q.lastIssue ≠ some (s.ctime (ckey c)) :=
  ⟨(running { k0 [BitVec.ofNat 64 1024] with window := 1, squash := true }), c0, ({ k0 [BitVec.ofNat 64 1024] with window := 1, squash := true }), ⟨0, 1, false, []⟩, by decide, by decide, by decide, by decide, by decide, by decide⟩

theorem test_witness_SequencerAndSyncOperationsIssue_13 : ∃ (s : State) (c : CoreId) (q : Kernel) (b : Bundle), s.life = .running ∧ s.mayIssue (ckey c) = some (q, b) ∧ (∀ j, b.has j = false) ∧ q.slots = 0 ∧ s.admission (ckey c) q b = .go :=
  ⟨(running { k0 [BitVec.ofNat 64 1024] with admitted := false }), c0, ({ k0 [BitVec.ofNat 64 1024] with admitted := false }), ⟨0, 1, false, []⟩, by decide, by decide, (fun j => by simp [Bundle.has, bitAt]), by decide, (rfl)⟩

theorem test_witness_ArrayVectorAndEngineOperationsIssue_0_0_b : ∃ (s : State) (c : CoreId) (e : Fin 2) (q : Kernel) (b : Bundle), SlotIssues s (ckey c) (6 + e.val) 1 q b :=
  ⟨(issuing 6 1), c0, 0, (k0 (oneOp 6 1)), (bun 6 1), ⟨by decide, by decide, by decide, by decide, by decide, by decide, by decide, Or.inl (by decide)⟩⟩

theorem test_witness_ArrayVectorAndEngineOperationsIssue_0_1_b : ∃ (s : State) (c : CoreId) (e : Fin 2) (q : Kernel) (b : Bundle), SlotIssues s (ckey c) (6 + e.val) 1 q b :=
  ⟨(issuing 7 1), c0, 1, (k0 (oneOp 7 1)), (bun 7 1), ⟨by decide, by decide, by decide, by decide, by decide, by decide, by decide, Or.inl (by decide)⟩⟩

theorem test_witness_ArrayVectorAndEngineOperationsIssue_2_0_b : ∃ (s : State) (c : CoreId) (e : Fin 2) (q : Kernel) (b : Bundle), SlotIssues s (ckey c) (6 + e.val) 2 q b :=
  ⟨(issuing 6 2), c0, 0, (k0 (oneOp 6 2)), (bun 6 2), ⟨by decide, by decide, by decide, by decide, by decide, by decide, by decide, Or.inl (by decide)⟩⟩

theorem test_witness_ArrayVectorAndEngineOperationsIssue_2_1_b : ∃ (s : State) (c : CoreId) (e : Fin 2) (q : Kernel) (b : Bundle), SlotIssues s (ckey c) (6 + e.val) 2 q b :=
  ⟨(issuing 7 2), c0, 1, (k0 (oneOp 7 2)), (bun 7 2), ⟨by decide, by decide, by decide, by decide, by decide, by decide, by decide, Or.inl (by decide)⟩⟩

theorem test_witness_ArrayVectorAndEngineOperationsIssue_3_0_b : ∃ (s : State) (c : CoreId) (e : Fin 2) (q : Kernel) (b : Bundle), SlotIssues s (ckey c) (6 + e.val) 3 q b :=
  ⟨(issuing 6 3), c0, 0, (k0 (oneOp 6 3)), (bun 6 3), ⟨by decide, by decide, by decide, by decide, by decide, by decide, by decide, Or.inl (by decide)⟩⟩

theorem test_witness_ArrayVectorAndEngineOperationsIssue_3_1_b : ∃ (s : State) (c : CoreId) (e : Fin 2) (q : Kernel) (b : Bundle), SlotIssues s (ckey c) (6 + e.val) 3 q b :=
  ⟨(issuing 7 3), c0, 1, (k0 (oneOp 7 3)), (bun 7 3), ⟨by decide, by decide, by decide, by decide, by decide, by decide, by decide, Or.inl (by decide)⟩⟩

theorem test_witness_ArrayVectorAndEngineOperationsIssue_4_0_b : ∃ (s : State) (k : Nat) (e : Nat) (w : Nat) (q : Kernel) (t : Nat), findIdx (fun t => (tget? (s.core k).awl t).isNone) 16 = some t :=
  ⟨r0, 0, 0, 3, (k0 []), 0, by decide⟩

theorem test_witness_ArrayVectorAndEngineOperationsIssue_4_1_b : ∃ (s : State) (k : Nat) (e : Nat) (w : Nat) (q : Kernel) (t : Nat), findIdx (fun t => (tget? (s.core k).awl t).isNone) 16 = some t :=
  ⟨r0, 0, 1, 3, (k0 []), 0, by decide⟩

theorem test_witness_SlotOperationsKeepTheRest_0 : ∃ (c : Instr) (k : CoreId) (j : Nat) (op : Nat) (s : State) (t : State), slotOf c = some (k, j, op) ∧ exec c s = .next t ∧ (j = 9 → op ≠ 6) :=
  ⟨(.set c0), c0, 9, 1, (issuing 9 1), _, by decide, (rfl), by decide⟩

theorem test_witness_SlotOperationsKeepTheRest_1 : ∃ (c : Instr) (k : CoreId) (j : Nat) (op : Nat) (q : Kernel) (b : Bundle) (s : State) (t : State), slotOf c = some (k, j, op) ∧ SlotIssues s (ckey k) j op q b ∧ q.admitted = true ∧ setBit q.slots j true ≠ b.present ∧ (j < 4 → op ≠ 1) ∧ j ≠ 4 ∧ j ≠ 5 ∧ (j = 8 → op ≠ 2 ∧ op ≠ 5) ∧ exec c s = .next t :=
  ⟨(.pred c0), c0, 8, 4, (k0 [BitVec.ofNat 64 (2 ^ 8 + 2 ^ 9 + 3072), 4, 1]), ⟨768, 3, false, [4, 1]⟩, (running (k0 [BitVec.ofNat 64 (2 ^ 8 + 2 ^ 9 + 3072), 4, 1])), _, by decide, ⟨by decide, by decide, by decide, by decide, by decide, by decide, by decide, Or.inl (by decide)⟩, by decide, by decide, by decide, by decide, by decide, by decide, (rfl)⟩

theorem test_witness_ArraysCompleteAndRelease_0 : ∃ (s : State) (c : CoreId) (ma : Fin 4) (h : Half) (l : Load), s.life = .running ∧ s.frozen (ckey c) = false ∧ ((s.core (ckey c)).arr ma.val).dueLoad (s.ctime (ckey c)) (halfSel h) = some l :=
  ⟨({ r0 with cores := [(0, { Core.reset with arrays := [(1, ⟨none, none, none, none, [⟨0, 0, 1, 0, none, none⟩], []⟩)] })] } : State), c0, 1, .lower, ⟨0, 0, 1, 0, none, none⟩, by decide, by decide, by decide⟩

theorem test_witness_ArraysCompleteAndRelease_1_0 : ∃ (m : MatArray) (l : Load) (x : _), l.lower = some x :=
  ⟨⟨none, none, none, none, [], []⟩, ⟨1, 0, 1, 0, some ⟨0, 1, [], [], false⟩, none⟩, ⟨0, 1, [], [], false⟩, by decide⟩

theorem test_witness_ArraysCompleteAndRelease_1_1 : ∃ (m : MatArray) (l : Load) (x : _), l.upper = some x :=
  ⟨⟨none, none, none, none, [], []⟩, ⟨2, 0, 1, 0, none, some ⟨0, 1, [], [], false⟩⟩, ⟨0, 1, [], [], false⟩, by decide⟩

theorem test_witness_ArraysCompleteAndRelease_1_2 : ∃ (m : MatArray) (l : Load), l.lower = none :=
  ⟨⟨none, none, none, none, [], []⟩, ⟨2, 0, 1, 0, none, none⟩, by decide⟩

theorem test_witness_ArraysCompleteAndRelease_1_3 : ∃ (m : MatArray) (l : Load), l.upper = none :=
  ⟨⟨none, none, none, none, [], []⟩, ⟨2, 0, 1, 0, none, none⟩, by decide⟩

theorem test_witness_ArraysCompleteAndRelease_2 : ∃ (s : State) (w : State) (c : CoreId) (ma : Fin 4) (h : Half) (p : PassRun), s.life = .running ∧ s.frozen (ckey c) = false ∧ s.addDue (ckey c) ma.val (halfSel h) = w ∧ ((w.core (ckey c)).arr ma.val).duePass (w.ctime (ckey c)) (halfSel h) = some p :=
  ⟨({ r0 with cores := [(0, { Core.reset with arrays := [(1, ⟨none, none, none, none, [], [⟨0, 0, 2, 0, 0, 0, false, 0, false, true, 0, 0, 0, 0, [], 0, 0, [], 0⟩]⟩)] })] } : State), _, c0, 1, .lower, ⟨0, 0, 2, 0, 0, 0, false, 0, false, true, 0, 0, 0, 0, [], 0, 0, [], 0⟩, by decide, by decide, (rfl), by decide⟩

theorem test_witness_ArraysCompleteAndRelease_3 : ∃ (s : State) (w : State) (c : CoreId) (ma : Fin 4) (h : Half) (p : PassRun), s.life = .running ∧ s.frozen (ckey c) = false ∧ s.addDue (ckey c) ma.val (halfSel h) = w ∧ ((w.core (ckey c)).arr ma.val).doneRun (w.ctime (ckey c)) (halfSel h) = some p :=
  ⟨({ r0 with cores := [(0, { Core.reset with arrays := [(1, ⟨none, none, none, none, [], [⟨0, 0, 2, 2, 0, 0, false, 0, false, true, 0, 0, 0, 0, [], 0, 0, [], 2⟩]⟩)] })], coreClock := 12 } : State), _, c0, 1, .lower, ⟨0, 0, 2, 2, 0, 0, false, 0, false, true, 0, 0, 0, 0, [], 0, 0, [], 2⟩, by decide, by decide, (rfl), by decide⟩

theorem test_witness_ArraysCompleteAndRelease_4 : ∃ (s : State) (k : Nat) (a : Nat) (half : Nat) (b : _), b ≠ a :=
  ⟨r0, 0, 1, 0, 0, by decide⟩

theorem test_witness_ArraysCompleteAndRelease_5 : ∃ (s : State) (k : Nat) (a : Nat) (half : Nat), ((s.core k).arr a).passes = [] :=
  ⟨r0, 0, 0, 0, by decide⟩

theorem test_witness_ArraysCompleteAndRelease_6_0 : ∃ (s : State) (c : CoreId) (pipe : Fin 2) (v : VecRun), s.life = .running ∧ s.frozen (ckey c) = false ∧ dueRun (s.ctime (ckey c)) ((s.core (ckey c)).pipe pipe.val) = some v :=
  ⟨({ r0 with cores := [(0, { Core.reset with vec0 := [⟨.elem 0 false, 0, 2, 0, 2, 0, 2, 0, 1, 0, 1, 0, [], [], 0, 0⟩] })], coreClock := 100 } : State), c0, 0, ⟨.elem 0 false, 0, 2, 0, 2, 0, 2, 0, 1, 0, 1, 0, [], [], 0, 0⟩, by decide, by decide, by decide⟩

theorem test_witness_ArraysCompleteAndRelease_6_1 : ∃ (s : State) (c : CoreId) (pipe : Fin 2) (v : VecRun), s.life = .running ∧ s.frozen (ckey c) = false ∧ dueRun (s.ctime (ckey c)) ((s.core (ckey c)).pipe pipe.val) = some v :=
  ⟨({ r0 with cores := [(0, { Core.reset with vec1 := [⟨.elem 0 false, 0, 2, 0, 2, 0, 2, 0, 1, 0, 1, 0, [], [], 0, 0⟩] })], coreClock := 100 } : State), c0, 1, ⟨.elem 0 false, 0, 2, 0, 2, 0, 2, 0, 1, 0, 1, 0, [], [], 0, 0⟩, by decide, by decide, by decide⟩

theorem test_witness_ArraysCompleteAndRelease_7 : ∃ (s : State) (c : CoreId) (n : Nat), s.life = .running ∧ (s.core (ckey c)).freezeAt = some n ∧ n + 2 < s.coreClock :=
  ⟨({ r0 with cores := [(0, { Core.reset with freezeAt := some 0 })], coreClock := 3 } : State), c0, 0, by decide, by decide, by decide⟩

theorem test_witness_FlagsAreDeliveredAndTimeOut_0 : ∃ (s : State) (x : CoreId) (y : CoreId) (o : FlagOp), s.life = .running ∧ s.dueFlag (ckey x) (ckey y) = some o ∧ o.ready = none :=
  ⟨({ r0 with flagOps := [⟨0, 0, false, 5, true, none, 0, none⟩] } : State), c0, c0, ⟨0, 0, false, 5, true, none, 0, none⟩, by decide, by decide, by decide⟩

theorem test_witness_FlagsAreDeliveredAndTimeOut_1 : ∃ (s : State) (x : CoreId) (y : CoreId) (o : FlagOp) (n : Nat), s.life = .running ∧ s.dueFlag (ckey x) (ckey y) = some o ∧ o.ready = some n ∧ s.frozen o.dst = false :=
  ⟨({ r0 with flagOps := [⟨0, 0, false, 5, true, none, 0, some 0⟩], coreClock := 1 } : State), c0, c0, ⟨0, 0, false, 5, true, none, 0, some 0⟩, 0, by decide, by decide, by decide, by decide⟩

theorem test_witness_FlagsAreDeliveredAndTimeOut_2 : ∃ (c : Core) (n : Nat) (f : Nat) (g : _), g ≠ f :=
  ⟨Core.reset, 0, 3, 4, by decide⟩

theorem test_witness_FlagsAreDeliveredAndTimeOut_3 : ∃ (s : State) (x : CoreId) (y : CoreId) (o : FlagOp) (n : Nat), s.life = .running ∧ s.dueFlag (ckey x) (ckey y) = some o ∧ o.ready = some n ∧ s.frozen o.dst = true :=
  ⟨({ r0 with cores := [(0, { Core.reset with freezeAt := some 0 })], flagOps := [⟨0, 0, false, 5, true, none, 0, some 0⟩], coreClock := 1 } : State), c0, c0, ⟨0, 0, false, 5, true, none, 0, some 0⟩, 0, by decide, by decide, by decide, by decide⟩

theorem test_witness_FlagsAreDeliveredAndTimeOut_4 : ∃ (s : State) (c : CoreId) (q : Kernel) (b : Bundle) (n : Nat), s.life = .running ∧ s.mayIssue (ckey c) = some (q, b) ∧ q.waitSince = some n ∧ s.waitsFlag (ckey c) b = true ∧ 1 ≤ s.fld (ringReg .RING_CFG (coreDie (ckey c)) q.ring) RING_CFG.WAIT_TMO ∧ s.fld (ringReg .RING_CFG (coreDie (ckey c)) q.ring) RING_CFG.WAIT_TMO ≤ 16 ∧ n + ms (2 ^ (s.fld (ringReg .RING_CFG (coreDie (ckey c)) q.ring) RING_CFG.WAIT_TMO - 1)) ≤ s.now :=
  ⟨({ running ({ k0 (oneOp 9 (3 + 7 * 2 ^ 14)) with waitSince := some 0 }) with now := 1100000 } : State).setFld (ringReg .RING_CFG 0 3) RING_CFG.WAIT_TMO 1, c0, ({ k0 (oneOp 9 (3 + 7 * 2 ^ 14)) with waitSince := some 0 }), (bun 9 (3 + 7 * 2 ^ 14)), 0, by decide, by decide, by decide, by decide, by decide, by decide, (by decide)⟩

theorem test_witness_KernelsStartFetchAndComplete_0 : ∃ (s : State) (c : CoreId) (n : Nat) (i : Nat), s.life = .running ∧ (s.core (ckey c)).kernel = none ∧ (s.core (ckey c)).scrubDue = none ∧ s.exposed (coreDie (ckey c)) (coreNum (ckey c)) = true ∧ s.choose (ckey c) = some (n, i) ∧ s.fld (tcBind (ckey c)) TC_BIND.HOLDER = n ∧ (s.core (ckey c)).stale = false :=
  ⟨(readyRing 1), c0, 1, 3, by decide, by decide, by decide, by decide, by decide, by decide, (by decide)⟩

theorem test_witness_KernelsStartFetchAndComplete_1 : ∃ (s : State) (c : CoreId) (n : Nat) (i : Nat), s.life = .running ∧ (s.core (ckey c)).kernel = none ∧ (s.core (ckey c)).scrubDue = none ∧ s.exposed (coreDie (ckey c)) (coreNum (ckey c)) = true ∧ s.choose (ckey c) = some (n, i) ∧ (s.fld (tcBind (ckey c)) TC_BIND.HOLDER ≠ n ∨ (s.core (ckey c)).stale = true) :=
  ⟨(((readyRing 2).setFld (tcBind 0) TC_BIND.MODE 2).setFld (tcBind 0) TC_BIND.SLOTS 1).setReg (tcShare 0) 1, c0, 1, 3, by decide, by decide, by decide, by decide, by decide, by decide⟩

theorem test_witness_KernelsStartFetchAndComplete_2 : ∃ (s : State) (c : CoreId) (q : Kernel) (n : Nat) (a : Nat) (m : Nat), s.life = .running ∧ (s.core (ckey c)).kernel = some q ∧ s.frozen (ckey c) = false ∧ q.startAt ≤ s.ctime (ckey c) ∧ (s.core (ckey c)).lastFetch ≠ s.ctime (ckey c) + 1 ∧ s.engineBusy .ring (coreDie (ckey c)) (coreNum (ckey c)) = false ∧ q.trim.fbase + q.trim.fetched.length = a ∧ (diff32 (s.fld (ringReg .RING_PROD (coreDie (ckey c)) q.ring) RING_PROD.TAIL) (a % 2 ^ 32)).toNat = n ∧ min n (min 8 (q.trim.room + 2048 - a)) = m ∧ 0 < m :=
  ⟨(running (k0 [])).setFld (ringReg .RING_PROD 0 3) RING_PROD.TAIL 8, c0, (k0 []), 8, 0, 8, by decide, by decide, by decide, by decide, by decide, by decide, (by decide), by decide, by decide, by decide⟩

theorem test_witness_KernelsStartFetchAndComplete_3 : ∃ (s : State) (c : CoreId) (h : BitVec 16) (q : Kernel) (f : DescFill), s.life = .running ∧ (s.core (ckey c)).kernel = some q ∧ (s.core (ckey c)).fills.find? (fun f => f.index == hIndex h.toNat) = some f ∧ s.frozen (ckey c) = false ∧ f.due ≤ s.ctime (ckey c) ∧ s.engineBusy .desc (coreDie (ckey c)) (coreNum (ckey c)) = false ∧ f.dpre = none ∧ s.inPartition (coreDie (ckey c)) (s.fld (s.ringCtx (coreDie (ckey c)) q.ring) CTX_TABLE.BASE_ROW + hIndex h.toNat / 8) 1 q.lease = true :=
  ⟨((((r0.setReg (sdmPart 0 0) 0).setFld (sdmPart 0 0) SDM_PART.VALID 1).setFld (sdmPart 0 0) SDM_PART.LEASE 1).setFld (sdmPart 0 0) SDM_PART.BANKS 1).setCore 0 { Core.reset with kernel := some (k0 []), fills := [⟨5, 0, none⟩] }, c0, 5, (k0 []), ⟨5, 0, none⟩, by decide, by decide, by decide, by decide, by decide, by decide, (by decide), by decide⟩

theorem test_witness_KernelsStartFetchAndComplete_4 : ∃ (s : State) (c : CoreId) (q : Kernel), s.life = .running ∧ (s.core (ckey c)).kernel = some q ∧ q.ring < 16384 ∧ q.ended = true ∧ q.stopped = false ∧ s.frozen (ckey c) = false ∧ s.drained (ckey c) = true :=
  ⟨(running { k0 [] with ended := true }), c0, ({ k0 [] with ended := true }), by decide, by decide, by decide, by decide, by decide, by decide, (by decide)⟩

theorem test_witness_KernelsStartFetchAndComplete_5 : ∃ (s : State) (c : CoreId) (q : Kernel), s.life = .running ∧ (s.core (ckey c)).kernel = some q ∧ q.ring < 16384 ∧ q.stopped = true ∧ q.refusal = none ∧ q.stopStatus = none ∧ s.frozen (ckey c) = false ∧ s.drained (ckey c) = true ∧ (s.scanEnd (coreDie (ckey c)) q.ring (s.ringDepth (coreDie (ckey c)) q.ring) q.high).2.2 = true ∧ s.fld (ringReg .RING_DUMP (coreDie (ckey c)) q.ring) RING_DUMP.COUNT = 0 ∧ (q.dump = none ∨ q.dump = some none) ∧ s.engineBusy .dump (coreDie (ckey c)) (coreNum (ckey c)) = false :=
  ⟨(({ running { k0 [] with ended := true, stopped := true } with mem := r0.mem.write ((r0.rowAt 0).getD 0 * 512) [0, 9, 0, 0, 0, 0, 0, 0, 6] } : State).setFld (ringReg .RING_PROD 0 3) RING_PROD.PRODUCED 1).setFld (ringReg .RING_CFG 0 3) RING_CFG.SIZE_LOG2 9, c0, ({ k0 [] with ended := true, stopped := true }), by decide, by decide, by decide, by decide, by decide, by decide, (by decide), by decide, by decide, by decide, by decide, by decide⟩

theorem test_witness_KernelsStartFetchAndComplete_6 : ∃ (s : State), s.life = .running ∧ s.monitorAt + 4400000 ≤ s.now ∧ s.monitor.length < 2 :=
  ⟨({ r0 with now := 4400000 } : State), by decide, by decide, by decide⟩

theorem test_witness_StreamsRequestLandAndComplete_0 : ∃ (s : State) (w : State) (c : CoreId) (e : Fin 2) (q : Kernel) (n : Nat) (row : Nat) (x : Xfer) (r : NextReq), s.life = .running ∧ s.settle (ckey c) = w ∧ (w.core (ckey c)).kernel = some q ∧ w.pickChan (ckey c) e.val = some n ∧ w.frozen (ckey c) = false ∧ (w.core (ckey c)).engineFree (w.ctime (ckey c)) e.val = true ∧ (x.d.loads = false → (w.core (ckey c)).engineFree (w.ctime (ckey c)) (2 + e.val) = true) ∧ w.nextReq (ckey c) n = some (x, r) ∧ w.farRowOf (ckey c) x r = some row :=
  ⟨({ r0 with cores := [(0, { Core.reset with chans := [(1, ⟨some (xf 0), none, [], none, false⟩)], kernel := some (k0 []) })] } : State), _, c0, 0, (k0 []), 1, _, (xf 0), _, by decide, (rfl), by decide, by decide, by decide, by decide, by decide, (rfl), (rfl)⟩

theorem test_witness_StreamsRequestLandAndComplete_1 : ∃ (s : State) (c : CoreId) (ch : Fin 16) (m : MemReq) (k : Nat) (n : Nat) (x : Nat) (i : Nat) (buf : Nat) (row : Nat), s.life = .running ∧ s.dueReq (ckey c) ch.val false = some m ∧ m.owner = .chan k n x i buf row ∧ m.install = false ∧ m.fresh = false ∧ s.frozen (ckey c) = false ∧ s.landFree (ckey c) (s.ctime (ckey c)) (n / 8) (bankOf buf row).1 = true :=
  ⟨({ r0 with reqs := [rq (.core c0) (.chan 0 1 9 0 2 0) false 2] } : State), c0, 1, (rq (.core c0) (.chan 0 1 9 0 2 0) false 2), 0, 1, 9, 0, 2, 0, by decide, by decide, by decide, by decide, by decide, by decide, (by decide)⟩

theorem test_witness_StreamsRequestLandAndComplete_3 : ∃ (s : State) (c : CoreId) (ch : Fin 16) (m : MemReq), s.life = .running ∧ s.dueReq (ckey c) ch.val false = some m ∧ s.frozen (ckey c) = true :=
  ⟨({ r0 with cores := [(0, { Core.reset with freezeAt := some 0 })], reqs := [rq (.core c0) (.chan 0 1 9 0 2 0) false 2], coreClock := 1 } : State), c0, 1, (rq (.core c0) (.chan 0 1 9 0 2 0) false 2), by decide, by decide, by decide⟩

theorem test_witness_StreamsRequestLandAndComplete_4 : ∃ (s : State) (c : CoreId) (ch : Fin 16) (m : MemReq) (x : Xfer) (k : Nat) (n : Nat) (y : Nat) (i : Nat) (buf : Nat) (row : Nat), s.life = .running ∧ s.dueReq (ckey c) ch.val true = some m ∧ m.owner = .chan k n y i buf row ∧ ((s.core (ckey c)).chan ch.val).cur = some x ∧ s.frozen (ckey c) = false :=
  ⟨({ r0 with cores := [(0, { Core.reset with chans := [(1, ⟨some (xf 0), none, [], none, false⟩)] })], reqs := [rq (.core c0) (.chan 0 1 9 0 2 0) true 2] } : State), c0, 1, (rq (.core c0) (.chan 0 1 9 0 2 0) true 2), (xf 0), 0, 1, 9, 0, 2, 0, by decide, by decide, by decide, by decide, by decide⟩

theorem test_witness_StreamsRequestLandAndComplete_5 : ∃ (s : State) (c : CoreId) (ch : Fin 16) (m : MemReq), s.life = .running ∧ s.dueReq (ckey c) ch.val true = some m ∧ s.frozen (ckey c) = true :=
  ⟨({ r0 with cores := [(0, { Core.reset with freezeAt := some 0 })], reqs := [rq (.core c0) (.chan 0 1 9 0 2 0) true 2], coreClock := 1 } : State), c0, 1, (rq (.core c0) (.chan 0 1 9 0 2 0) true 2), by decide, by decide, by decide⟩

theorem test_witness_StreamsRequestLandAndComplete_6 : ∃ (s : State) (c : CoreId) (ch : Fin 16) (x : Xfer), s.life = .running ∧ (((s.settle (ckey c)).core (ckey c)).chan ch.val).cur = some x ∧ (((s.settle (ckey c)).core (ckey c)).chan ch.val).pend = none ∧ x.done = x.total ∧ s.frozen (ckey c) = false :=
  ⟨({ r0 with cores := [(0, { Core.reset with chans := [(1, ⟨some (xf 1), none, [], none, false⟩)] })] } : State), c0, 1, (xf 1), by decide, by decide, by decide, by decide, by decide⟩

theorem test_witness_StreamsRequestLandAndComplete_7 : ∃ (s : State) (c : CoreId) (ch : Fin 16) (x : Xfer) (y : Xfer), s.life = .running ∧ (((s.settle (ckey c)).core (ckey c)).chan ch.val).cur = some x ∧ (((s.settle (ckey c)).core (ckey c)).chan ch.val).pend = some y ∧ x.done = x.total ∧ s.frozen (ckey c) = false :=
  ⟨({ r0 with cores := [(0, { Core.reset with chans := [(1, ⟨some (xf 1), some (xf 0), [], none, false⟩)] })] } : State), c0, 1, (xf 1), (xf 0), by decide, by decide, by decide, by decide, by decide⟩

theorem test_witness_PiecesAreRequestedAndLand_0 : ∃ (s : State) (v : State) (c : CoreId) (q : Kernel) (t : Nat) (row : Nat) (p : Nat) (a : AwlThread) (w : AwlThread) (rd : Bool), s.life = .running ∧ (s.core (ckey c)).kernel = some q ∧ s.awlThread (ckey c) = some t ∧ s.frozen (ckey c) = false ∧ (s.core (ckey c)).engineFree (s.ctime (ckey c)) 6 = true ∧ tget? (s.core (ckey c)).awl t = some a ∧ s.indexReach a = true ∧ s.indicesHeld (ckey c) t q.lease a = (v, w, rd, true) ∧ w.ixs.getD (w.entry % 16) 0 < w.tableRows ∧ w.ixs.getD (w.entry % 16) 0 ≠ 0xFFFFFFFF ∧ p = w.tableBase + 64 * (w.ixs.getD (w.entry % 16) 0 * w.stride + w.piece) ∧ v.rowAt p = some row :=
  ⟨({ r0 with cores := [(0, { Core.reset with awl := [(2, th 7 false)], kernel := some (k0 []) })] } : State), _, c0, (k0 []), 2, _, _, (th 7 false), _, _, by decide, by decide, by decide, by decide, by decide, by decide, (by decide), (rfl), by decide, by decide, (rfl), (rfl)⟩

theorem test_witness_PiecesAreRequestedAndLand_1 : ∃ (s : State) (v : State) (c : CoreId) (q : Kernel) (t : Nat) (a : AwlThread) (w : AwlThread) (rd : Bool), s.life = .running ∧ (s.core (ckey c)).kernel = some q ∧ s.awlThread (ckey c) = some t ∧ s.frozen (ckey c) = false ∧ (s.core (ckey c)).engineFree (s.ctime (ckey c)) 6 = true ∧ tget? (s.core (ckey c)).awl t = some a ∧ s.indexReach a = true ∧ s.indicesHeld (ckey c) t q.lease a = (v, w, rd, true) ∧ w.ixs.getD (w.entry % 16) 0 = 0xFFFFFFFF :=
  ⟨({ r0 with cores := [(0, { Core.reset with awl := [(2, th 0xFFFFFFFF false)], kernel := some (k0 []) })] } : State), _, c0, (k0 []), 2, (th 0xFFFFFFFF false), _, _, by decide, by decide, by decide, by decide, by decide, by decide, (by decide), (rfl), by decide⟩

theorem test_witness_PiecesAreRequestedAndLand_2 : ∃ (s : State) (v : State) (z : State) (c : CoreId) (q : Kernel) (t : Nat) (a : AwlThread) (w : AwlThread) (rd : Bool), s.life = .running ∧ (s.core (ckey c)).kernel = some q ∧ s.awlThread (ckey c) = some t ∧ s.frozen (ckey c) = false ∧ (s.core (ckey c)).engineFree (s.ctime (ckey c)) 6 = true ∧ tget? (s.core (ckey c)).awl t = some a ∧ s.indexReach a = true ∧ s.indicesHeld (ckey c) t q.lease a = (v, w, rd, true) ∧ w.ixs.getD (w.entry % 16) 0 ≠ 0xFFFFFFFF ∧ w.tableRows ≤ w.ixs.getD (w.entry % 16) 0 ∧ z = v.bump (coreReg .AWL_STATUS (ckey c)) AWL_STATUS.OOB_COUNT 1 :=
  ⟨({ r0 with cores := [(0, { Core.reset with awl := [(2, th 8 false)], kernel := some (k0 []) })] } : State), _, _, c0, (k0 []), 2, (th 8 false), _, _, by decide, by decide, by decide, by decide, by decide, by decide, (by decide), (rfl), by decide, by decide, (rfl)⟩

theorem test_witness_PiecesAreRequestedAndLand_3 : ∃ (s : State) (v : State) (c : CoreId) (q : Kernel) (t : Nat) (a : AwlThread) (w : AwlThread) (rd : Bool), s.life = .running ∧ (s.core (ckey c)).kernel = some q ∧ s.awlThread (ckey c) = some t ∧ s.frozen (ckey c) = false ∧ (s.core (ckey c)).engineFree (s.ctime (ckey c)) 6 = true ∧ tget? (s.core (ckey c)).awl t = some a ∧ s.indexReach a = true ∧ s.indicesHeld (ckey c) t q.lease a = (v, w, rd, false) :=
  ⟨({ r0 with cores := [(0, { Core.reset with awl := [(2, { th 0 false with ixs := [] })], kernel := some (k0 []) })] } : State), _, c0, (k0 []), 2, ({ th 0 false with ixs := [] }), _, _, by decide, by decide, by decide, by decide, by decide, by decide, (by decide +kernel), (Prod.ext rfl (Prod.ext rfl (Prod.ext rfl (by decide +kernel))))⟩

theorem test_witness_PiecesAreRequestedAndLand_4 : ∃ (s : State) (c : CoreId) (t : Fin 16) (a : AwlThread) (m : MemReq) (n : Nat), s.life = .running ∧ s.frozen (ckey c) = false ∧ tget? (s.core (ckey c)).awl t.val = some a ∧ s.duePiece (ckey c) t.val = some m ∧ m.owner = .awl (ckey c) t.val n ∧ m.fresh = false ∧ a.scatter = true :=
  ⟨({ r0 with cores := [(0, { Core.reset with awl := [(2, th 0 true)] })], reqs := [rq (.core c0) (.awl 0 2 0) true 2] } : State), c0, 2, (th 0 true), (rq (.core c0) (.awl 0 2 0) true 2), 0, by decide, by decide, by decide, by decide, by decide, by decide, (by decide)⟩

theorem test_witness_PiecesAreRequestedAndLand_5 : ∃ (s : State) (c : CoreId) (t : Fin 16) (a : AwlThread) (m : MemReq) (n : Nat), s.life = .running ∧ s.frozen (ckey c) = false ∧ tget? (s.core (ckey c)).awl t.val = some a ∧ s.duePiece (ckey c) t.val = some m ∧ m.owner = .awl (ckey c) t.val n ∧ a.scatter = false :=
  ⟨({ r0 with cores := [(0, { Core.reset with awl := [(2, th 0 false)] })], reqs := [rq (.core c0) (.awl 0 2 0) false 2] } : State), c0, 2, (th 0 false), (rq (.core c0) (.awl 0 2 0) false 2), 0, by decide, by decide, by decide, by decide, by decide, by decide⟩

theorem test_witness_RequestsAreGrantedAndPromoted_0_0 : ∃ (s : State) (w : State) (p : GrantPoint) (l : List MemReq) (r : MemReq), s.life = .running ∧ s.meetDown = w ∧ (∀ d k, p ≠ .ctl d k) ∧ w.justGranted p = false ∧ (w.readyReqs p).filter w.rowPortFree = l ∧ (w.rankReqs (l.filter (fun r => r.cls != 2))).head? = some r ∧ ((∀ x, x ∈ l → x.cls ≠ 2) ∨ (tget ⟨0, 0, 0⟩ w.banks (pointKey p)).rows < 7) :=
  ⟨({ r0 with reqs := [rq (.shared 0 95) (.chan 0 1 9 0 2 0) false 0] } : State), _, (.shared 0 95), _, (rq (.shared 0 95) (.chan 0 1 9 0 2 0) false 0), by decide, (rfl), (by intro d k h; cases h), by decide, (rfl), by decide, (Or.inr (by decide))⟩

theorem test_witness_RequestsAreGrantedAndPromoted_0_1 : ∃ (s : State) (w : State) (p : GrantPoint) (l : List MemReq) (r : MemReq), s.life = .running ∧ s.meetDown = w ∧ (∀ d k, p ≠ .ctl d k) ∧ w.justGranted p = false ∧ (w.readyReqs p).filter w.rowPortFree = l ∧ (w.rankReqs (l.filter (fun r => r.cls != 2))).head? = some r ∧ ((∀ x, x ∈ l → x.cls ≠ 2) ∨ (tget ⟨0, 0, 0⟩ w.banks (pointKey p)).rows < 7) :=
  ⟨({ r0 with reqs := [rq (.core c0) (.chan 0 1 9 0 2 0) false 0] } : State), _, (.core c0), _, (rq (.core c0) (.chan 0 1 9 0 2 0) false 0), by decide, (rfl), (by intro d k h; cases h), by decide, (rfl), by decide, (Or.inr (by decide))⟩

theorem test_witness_RequestsAreGrantedAndPromoted_1 : ∃ (s : State) (w : State) (p : GrantPoint) (l : List MemReq) (r : MemReq), s.life = .running ∧ s.meetDown = w ∧ (∀ d k, p ≠ .ctl d k) ∧ w.justGranted p = false ∧ (w.readyReqs p).filter w.rowPortFree = l ∧ narrowTurn (l.filter (fun r => r.cls == 2)) (tget (⟨0, 0, 0⟩ : BankRun) w.banks (pointKey p)).turn = some r ∧ ((∀ x, x ∈ l → x.cls = 2) ∨ 7 ≤ (tget (⟨0, 0, 0⟩ : BankRun) w.banks (pointKey p)).rows) :=
  ⟨({ r0 with reqs := [{ rq (.shared 0 95) (.awl 0 1 0) false 0 with cls := 2, beats := 8 }] } : State), _, (.shared 0 95), _, ({ rq (.shared 0 95) (.awl 0 1 0) false 0 with cls := 2, beats := 8 }), by decide, (rfl), (by intro d k h; cases h), by decide, (rfl), by decide, (Or.inl (by decide))⟩

theorem test_witness_RequestsAreGrantedAndPromoted_2 : ∃ (s : State) (w : State) (p : GrantPoint), s.life = .running ∧ s.meetDown = w ∧ (∀ d k, p ≠ .ctl d k) ∧ w.justGranted p = true :=
  ⟨({ r0 with reqs := [rq (.shared 0 95) (.chan 0 1 9 0 2 0) false 0], banks := [(pointKey (.shared 0 95), ⟨1, 0, 0⟩)] } : State), _, (.shared 0 95), by decide, (rfl), (by intro d k h; cases h), by decide⟩

theorem test_witness_RequestsAreGrantedAndPromoted_3 : ∃ (s : State) (r : MemReq), 1 < r.beats :=
  ⟨r0, ({ rq (.shared 0 95) (.awl 0 1 0) false 0 with cls := 2, beats := 8 }), by decide⟩

theorem test_witness_RequestsAreGrantedAndPromoted_4 : ∃ (s : State) (r : MemReq), r.owner.isEngine = false ∧ isDram r.row = false :=
  ⟨r0, ({ rq (.shared 0 0) (.chan 0 1 9 0 2 0) false 0 with row := sdmRow 0 }), by decide, by decide⟩

theorem test_witness_RequestsAreGrantedAndPromoted_5_0 : ∃ (s : State) (w : State) (d : Die) (k : Fin 6), s.life = .running ∧ s.meetDown = w ∧ (w.ctl d.val k.val).nextGrant ≤ s.now ∧ (w.ctl d.val k.val).fills.all (fun f => f.started) = true ∧ w.rankReqs ((w.readyReqs (.ctl d k)).filter (w.dramReady d.val k.val)) ≠ [] :=
  ⟨({ r0 with reqs := [rq (.ctl 0 0) (.chan 0 1 9 0 2 0) false 0] } : State), _, 0, 0, by decide, (rfl), by decide, by decide, by decide⟩

theorem test_witness_RequestsAreGrantedAndPromoted_5_1 : ∃ (s : State) (w : State) (d : Die) (k : Fin 6), s.life = .running ∧ s.meetDown = w ∧ (w.ctl d.val k.val).nextGrant ≤ s.now ∧ (w.ctl d.val k.val).fills.all (fun f => f.started) = true ∧ w.rankReqs ((w.readyReqs (.ctl d k)).filter (w.dramReady d.val k.val)) ≠ [] :=
  ⟨({ r0 with reqs := [rq (.ctl 0 5) (.chan 0 1 9 0 2 0) false 0] } : State), _, 0, 5, by decide, (rfl), by decide, by decide, by decide⟩

theorem test_witness_RequestsAreGrantedAndPromoted_6 : ∃ (s : State) (p : GrantPoint), s.life = .running :=
  ⟨r0, (.core c0), by decide⟩

theorem test_witness_PatrolsAndScrubsRepair_0_0 : ∃ (s : State) (b : BankId) (row : Nat) (r : Nat), s.life = .running ∧ s.bankRow b row = some r ∧ s.bankIdle b = true ∧ (s.mem.damageOf r).filter (fun d => d.syms.length == 1) = [] :=
  ⟨r0, (.core c0 15), 511, _, by decide, (rfl), by decide, by decide⟩

theorem test_witness_PatrolsAndScrubsRepair_0_1 : ∃ (s : State) (b : BankId) (row : Nat) (r : Nat), s.life = .running ∧ s.bankRow b row = some r ∧ s.bankIdle b = true ∧ (s.mem.damageOf r).filter (fun d => d.syms.length == 1) = [] :=
  ⟨r0, (.shared 0 95), 8191, _, by decide, (rfl), by decide, by decide⟩

theorem test_witness_PatrolsAndScrubsRepair_1 : ∃ (s : State) (b : BankId) (row : Nat) (r : Nat), s.life = .running ∧ s.bankRow b row = some r ∧ s.bankIdle b = true ∧ (s.mem.damageOf r).filter (fun d => d.syms.length == 1) ≠ [] :=
  ⟨({ r0 with mem := { r0.mem with damage := [⟨(r0.bankRow (.core c0 15) 0).getD 0, 3, [(0, 1)]⟩] } } : State), (.core c0 15), 0, _, by decide, (rfl), by decide, by decide⟩

theorem test_witness_PatrolsAndScrubsRepair_2 : ∃ (s : State) (b : BankId) (row : Nat), s.life = .running ∧ s.bankIdle b = false :=
  ⟨({ r0 with banks := [(pointKey (.shared 0 95), ⟨1, 0, 0⟩)] } : State), (.shared 0 95), 0, by decide, by decide⟩

theorem test_witness_PatrolsAndScrubsRepair_3 : ∃ (s : State) (b : BankId) (p : PatrolFix), s.life = .running ∧ s.bankIdle b = true ∧ s.patrol.find? (fun p => p.bank == s.bankId b) = some p :=
  ⟨({ r0 with patrol := [⟨r0.bankId (.shared 0 95), [⟨0, 3, [(0, 1)]⟩]⟩] } : State), (.shared 0 95), ⟨r0.bankId (.shared 0 95), [⟨0, 3, [(0, 1)]⟩]⟩, by decide, by decide, by decide⟩

theorem test_witness_PatrolsAndScrubsRepair_4_0 : ∃ (s : State) (d : Die) (k : Fin 6) (p : Fin 32) (row : Nat), s.life = .running ∧ (k.val < 4 → row % 32 = p.val ∧ row < 156250016) ∧ (4 ≤ k.val → p.val = 0 ∧ row < 125000000) ∧ (∀ n, tget? (s.ctl d.val k.val).patrolled p.val = some n → n + (if k.val < 4 then 65536 else 512) ≤ s.now) ∧ s.isDown (ctlRow d.val k.val row) = false ∧ s.mem.tagged (ctlRow d.val k.val row) = false ∧ s.upset (ctlRow d.val k.val row) = none :=
  ⟨({ r0 with mem := { r0.mem with untagged := [tagBlock (ctlRow 0 0 156250015)] } } : State), 0, 0, 31, 156250015, by decide, by decide, by decide, (fun n h => absurd (show (none : Option Nat) = some n from h) (by simp)), by decide, by decide, by decide⟩

theorem test_witness_PatrolsAndScrubsRepair_4_1 : ∃ (s : State) (d : Die) (k : Fin 6) (p : Fin 32) (row : Nat), s.life = .running ∧ (k.val < 4 → row % 32 = p.val ∧ row < 156250016) ∧ (4 ≤ k.val → p.val = 0 ∧ row < 125000000) ∧ (∀ n, tget? (s.ctl d.val k.val).patrolled p.val = some n → n + (if k.val < 4 then 65536 else 512) ≤ s.now) ∧ s.isDown (ctlRow d.val k.val row) = false ∧ s.mem.tagged (ctlRow d.val k.val row) = false ∧ s.upset (ctlRow d.val k.val row) = none :=
  ⟨r0, 0, 5, 0, 124999999, by decide, by decide, by decide, (fun n h => absurd (show (none : Option Nat) = some n from h) (by simp)), by decide, by decide, by decide⟩

theorem test_witness_PatrolsAndScrubsRepair_5_0 : ∃ (s : State) (c : CoreId) (n : Nat), s.life = .running ∧ s.binding = none ∧ (s.core (ckey c)).scrubDue = some n :=
  ⟨({ r0 with cores := [(0, { Core.reset with scrubDue := some 1 })] } : State), c0, 1, by decide, by decide, by decide⟩

theorem test_witness_PatrolsAndScrubsRepair_5_1 : ∃ (s : State) (c : CoreId) (n : Nat), s.life = .running ∧ s.binding = none ∧ (s.core (ckey c)).scrubDue = some n :=
  ⟨({ r0 with cores := [(0, { Core.reset with scrubDue := some 255, switchAt := some 0 })] } : State), c0, 255, by decide, by decide, by decide⟩

theorem test_witness_PatrolsAndScrubsRepair_6 : ∃ (s : State) (d : Die) (p : Fin 32) (x : Scrub), s.life = .running ∧ s.binding = none ∧ s.scrubs.find? (fun x => x.die == d.val && x.part == p.val) = some x :=
  ⟨({ r0 with scrubs := [⟨0, 31, 2, 1⟩] } : State), 0, 31, ⟨0, 31, 2, 1⟩, by decide, by decide, by decide⟩

theorem test_witness_StacksPushSpillRefillAndPop_0 : ∃ (s : State) (w : State) (d : Die) (g : Fin 64) (c : CoreId) (ch : Fin 16) (q : Kernel) (x : Xfer) (h : HalfFill), PushTurn s w d.val g.val (ckey c) ch.val q x h ∧ w.stackUse d.val g.val (ckey c) q.lease = none ∧ (w.topFrame d.val g.val).any (fun t => t.2 == 2) = false ∧ (w.stackFloor d.val g.val < w.floorFor d.val g.val h.n → w.floorFor d.val g.val h.n ≤ w.fld (astk .ASTK_SPILL_ROWS d.val g.val) ASTK_SPILL_ROWS.ROWS) :=
  ⟨(((({ r0 with cores := [(0, { Core.reset with chans := [(1, ⟨some ({ xf 0 with d := { (xf 0).d with dir := 2, stack := 63 } }), none, [⟨9, 2, 0, 1, 2, 1, none, 0, 8, none⟩], none, false⟩)], kernel := some (k0 []) })] } : State).setFld (astkCfg 0 63) ASTK_CFG.ENABLE 1).setFld (astkCfg 0 63) ASTK_CFG.LEASE 1).setFld (astkCfg 0 63) ASTK_CFG.LIMIT 128).setFld (astk .ASTK_TOP 0 63) ASTK_TOP.TOP (0), _, 0, 63, c0, 1, (k0 []), ({ xf 0 with d := { (xf 0).d with dir := 2, stack := 63 } }), ⟨9, 2, 0, 1, 2, 1, none, 0, 8, none⟩, (⟨⟨by decide, rfl, by decide, by decide, by decide, by decide, by decide⟩, by decide, by decide⟩), by decide, by decide, by decide⟩

theorem test_witness_StacksPushSpillRefillAndPop_1 : ∃ (w : State) (d : Nat) (g : Nat) (k : Nat) (n : Nat) (h : HalfFill), w.stackTop d g + h.n < 2 ^ (ASTK_TOP.TOP.hi + 1 - ASTK_TOP.TOP.lo) :=
  ⟨r0, 0, 63, 0, 1, ⟨9, 2, 0, 1, 2, 1, none, 0, 8, none⟩, by decide⟩

theorem test_witness_StacksPushSpillRefillAndPop_2 : ∃ (s : State) (w : State) (d : Die) (g : Fin 64) (c : CoreId) (ch : Fin 16) (q : Kernel) (x : Xfer) (h : HalfFill) (st : Status), PushTurn s w d.val g.val (ckey c) ch.val q x h ∧ w.stackUse d.val g.val (ckey c) q.lease = some st :=
  ⟨(((({ r0 with cores := [(0, { Core.reset with chans := [(1, ⟨some ({ xf 0 with d := { (xf 0).d with dir := 2, stack := 63 } }), none, [⟨9, 2, 0, 1, 2, 1, none, 0, 8, none⟩], none, false⟩)], kernel := some (k0 []) })] } : State).setFld (astkCfg 0 63) ASTK_CFG.ENABLE 0).setFld (astkCfg 0 63) ASTK_CFG.LEASE 1).setFld (astkCfg 0 63) ASTK_CFG.LIMIT 128).setFld (astk .ASTK_TOP 0 63) ASTK_TOP.TOP (0), _, 0, 63, c0, 1, (k0 []), ({ xf 0 with d := { (xf 0).d with dir := 2, stack := 63 } }), ⟨9, 2, 0, 1, 2, 1, none, 0, 8, none⟩, .state, (⟨⟨by decide, rfl, by decide, by decide, by decide, by decide, by decide⟩, by decide, by decide⟩), by decide⟩

theorem test_witness_StacksPushSpillRefillAndPop_3 : ∃ (s : State) (w : State) (d : Die) (g : Fin 64) (c : CoreId) (ch : Fin 16) (q : Kernel) (x : Xfer) (h : HalfFill), PushTurn s w d.val g.val (ckey c) ch.val q x h ∧ w.stackUse d.val g.val (ckey c) q.lease = none ∧ (w.topFrame d.val g.val).any (fun t => t.2 == 2) = true :=
  ⟨(((({ r0 with cores := [(0, { Core.reset with chans := [(1, ⟨some ({ xf 0 with d := { (xf 0).d with dir := 2, stack := 63 } }), none, [⟨9, 2, 0, 1, 2, 1, none, 0, 8, none⟩], none, false⟩)], kernel := some (k0 []) })] } : State).setFld (astkCfg 0 63) ASTK_CFG.ENABLE 1).setFld (astkCfg 0 63) ASTK_CFG.LEASE 1).setFld (astkCfg 0 63) ASTK_CFG.LIMIT 128).setFld (astk .ASTK_TOP 0 63) ASTK_TOP.TOP (0) |>.setFld (fstat 0 63) ASTK_FSTAT.NFRAMES 1 |>.setFld (frameReg .ASTK_FRAME 0 63 0) ASTK_FRAME.STATE 2, _, 0, 63, c0, 1, (k0 []), ({ xf 0 with d := { (xf 0).d with dir := 2, stack := 63 } }), ⟨9, 2, 0, 1, 2, 1, none, 0, 8, none⟩, (⟨⟨by decide, rfl, by decide, by decide, by decide, by decide, by decide⟩, by decide, by decide⟩), by decide, by decide⟩

theorem test_witness_StacksPushSpillRefillAndPop_4 : ∃ (s : State) (w : State) (d : Die) (g : Fin 64) (c : CoreId) (ch : Fin 16) (q : Kernel) (x : Xfer) (h : HalfFill), PushTurn s w d.val g.val (ckey c) ch.val q x h ∧ w.stackUse d.val g.val (ckey c) q.lease = none ∧ (w.topFrame d.val g.val).any (fun t => t.2 == 2) = false ∧ w.stackFloor d.val g.val < w.floorFor d.val g.val h.n ∧ w.fld (astk .ASTK_SPILL_ROWS d.val g.val) ASTK_SPILL_ROWS.ROWS < w.floorFor d.val g.val h.n :=
  ⟨(((({ r0 with cores := [(0, { Core.reset with chans := [(1, ⟨some ({ xf 0 with d := { (xf 0).d with dir := 2, stack := 63 } }), none, [⟨9, 2, 0, 1, 2, 1, none, 0, 8, none⟩], none, false⟩)], kernel := some (k0 []) })] } : State).setFld (astkCfg 0 63) ASTK_CFG.ENABLE 1).setFld (astkCfg 0 63) ASTK_CFG.LEASE 1).setFld (astkCfg 0 63) ASTK_CFG.LIMIT 128).setFld (astk .ASTK_TOP 0 63) ASTK_TOP.TOP (128), _, 0, 63, c0, 1, (k0 []), ({ xf 0 with d := { (xf 0).d with dir := 2, stack := 63 } }), ⟨9, 2, 0, 1, 2, 1, none, 0, 8, none⟩, (⟨⟨by decide, rfl, by decide, by decide, by decide, by decide, by decide⟩, by decide, by decide⟩), by decide, by decide, by decide, by decide⟩

theorem test_witness_StacksPushSpillRefillAndPop_5_0 : ∃ (s : State) (d : Nat) (g : Nat) (r : Nat), s.stackReady d g true r = true :=
  ⟨(r0.setFld (astkCfg 0 63) ASTK_CFG.LIMIT 128), 0, 63, 127, by decide⟩

theorem test_witness_StacksPushSpillRefillAndPop_5_1 : ∃ (s : State) (d : Nat) (g : Nat) (r : Nat), s.stackReady d g false r = true :=
  ⟨r0, 0, 63, 0, by decide⟩

theorem test_witness_StacksPushSpillRefillAndPop_6 : ∃ (s : State) (d : Die) (g : Fin 64), s.life = .running ∧ s.stackLimit d.val g.val < s.stackTop d.val g.val - s.stackFloor d.val g.val ∧ (s.stackRun d.val g.val).refill = false ∧ (s.stackRun d.val g.val).readOut ≤ s.now ∧ s.stackFloor d.val g.val + 64 ≤ s.stackTop d.val g.val ∧ s.chunkFormed d.val g.val (s.stackFloor d.val g.val) = true ∧ s.chunkBusy d.val g.val (s.stackFloor d.val g.val) false = false :=
  ⟨(r0.setFld (astkCfg 0 63) ASTK_CFG.LIMIT 128).setFld (astk .ASTK_TOP 0 63) ASTK_TOP.TOP 192, 0, 63, by decide, by decide, by decide, by decide, by decide, by decide, (by decide)⟩

theorem test_witness_StacksPushSpillRefillAndPop_7 : ∃ (s : State) (d : Die) (g : Fin 64), s.life = .running ∧ (s.stackRun d.val g.val).refill = false ∧ s.stackFloor d.val g.val ≠ 0 ∧ s.stackHeight d.val g.val - s.stackFloor d.val g.val + 128 ≤ s.stackLimit d.val g.val ∧ s.reqs.any (fun r => r.stage == 0 && r.spills d.val g.val) = false ∧ s.chunkBusy d.val g.val (s.stackFloor d.val g.val - 64) true = false :=
  ⟨((r0.setFld (astkCfg 0 63) ASTK_CFG.LIMIT 256).setFld (astk .ASTK_FLOOR 0 63) ASTK_FLOOR.FLOOR 64).setFld (astk .ASTK_TOP 0 63) ASTK_TOP.TOP 64, 0, 63, by decide, by decide, by decide, by decide, by decide, by decide⟩

theorem test_witness_StacksPushSpillRefillAndPop_8 : ∃ (s : State) (d : Die) (g : Fin 64), s.life = .running ∧ (s.stackRun d.val g.val).refill = true ∧ 64 ≤ s.stackFloor d.val g.val ∧ (∀ r, r ∈ s.reqs → r.refills d.val g.val = true → r.owner = .refillIn d.val g.val ∧ r.stage = 2 ∧ r.due ≤ s.now) :=
  ⟨({ r0 with stackRuns := [(63, ⟨0, true, []⟩)] } : State).setFld (astk .ASTK_FLOOR 0 63) ASTK_FLOOR.FLOOR 64, 0, 63, by decide, by decide, by decide, (fun r h => nomatch h)⟩

theorem test_witness_StacksPushSpillRefillAndPop_9 : ∃ (s : State) (w : State) (d : Die) (g : Fin 64) (c : CoreId) (ch : Fin 16) (q : Kernel) (x : Xfer) (u : Nat) (m : Nat), PopTurn s w d.val g.val (ckey c) ch.val q x u m ∧ w.stackUse d.val g.val (ckey c) q.lease = none ∧ m ≤ w.stackTop d.val g.val ∧ (∀ f st, w.topFrame d.val g.val = some (f, st) → st = 3 ∧ m ≤ w.stackTop d.val g.val - w.fld (frameReg .ASTK_FRAME d.val g.val f) ASTK_FRAME.BASE) :=
  ⟨(((({ r0 with cores := [(0, { Core.reset with chans := [(1, ⟨some ({ xf 0 with d := { (xf 0).d with dir := 3, stack := 63 } }), none, [], none, false⟩)], kernel := some (k0 []) })] } : State).setFld (astkCfg 0 63) ASTK_CFG.ENABLE 1).setFld (astkCfg 0 63) ASTK_CFG.LEASE 1).setFld (astkCfg 0 63) ASTK_CFG.LIMIT 128).setFld (astk .ASTK_TOP 0 63) ASTK_TOP.TOP (8), _, 0, 63, c0, 1, (k0 []), ({ xf 0 with d := { (xf 0).d with dir := 3, stack := 63 } }), _, _, (⟨⟨by decide, rfl, by decide, by decide, by decide, by decide, by decide⟩, by decide, rfl, rfl⟩), by decide, by decide, (fun f st h => absurd (show (none : Option (Nat × Nat)) = some (f, st) from h) (by simp))⟩

theorem test_witness_StacksPushSpillRefillAndPop_12 : ∃ (s : State) (w : State) (d : Die) (g : Fin 64) (c : CoreId) (ch : Fin 16) (q : Kernel) (x : Xfer) (u : Nat) (m : Nat), PopTurn s w d.val g.val (ckey c) ch.val q x u m ∧ w.stackUse d.val g.val (ckey c) q.lease = none ∧ (w.stackTop d.val g.val < m ∨ ∃ f st, w.topFrame d.val g.val = some (f, st) ∧ (st ≠ 3 ∨ w.stackTop d.val g.val - w.fld (frameReg .ASTK_FRAME d.val g.val f) ASTK_FRAME.BASE < m)) :=
  ⟨(((({ r0 with cores := [(0, { Core.reset with chans := [(1, ⟨some ({ xf 0 with d := { (xf 0).d with dir := 3, stack := 63 } }), none, [], none, false⟩)], kernel := some (k0 []) })] } : State).setFld (astkCfg 0 63) ASTK_CFG.ENABLE 1).setFld (astkCfg 0 63) ASTK_CFG.LEASE 1).setFld (astkCfg 0 63) ASTK_CFG.LIMIT 128).setFld (astk .ASTK_TOP 0 63) ASTK_TOP.TOP (0), _, 0, 63, c0, 1, (k0 []), ({ xf 0 with d := { (xf 0).d with dir := 3, stack := 63 } }), _, _, (⟨⟨by decide, rfl, by decide, by decide, by decide, by decide, by decide⟩, by decide, rfl, rfl⟩), by decide, (Or.inl (by decide))⟩

theorem test_witness_StacksPushSpillRefillAndPop_13 : ∃ (s : State) (u : State) (a : Actor) (d : Die) (g : Fin 64) (v : Word), Writable s a (astk .ASTK_FCMD d.val g.val) ∧ (s.stackRun d.val g.val).waiting.head? ≠ some turnTicket ∧ u = s.arrivals d.val g.val ∧ (u.stackRun d.val g.val).waiting ≠ [] :=
  ⟨({ r0 with stackRuns := [(63, ⟨0, false, [.posted 1]⟩)] } : State), _, Actor.firmware, 0, 63, 2, by unfold Writable; decide, by decide, (rfl), by decide⟩

theorem test_witness_ControllersPerformCopyAndPowerDown_0 : ∃ (s : State) (d : Die) (k : Fin 6) (r : MemReq), s.life = .running ∧ (s.slotsUsed (.ctl d k)).find? (fun r => (s.ctl d.val k.val).fills.all (fun f => f.req != r.id)) = some r ∧ r.grantedAt + performTime k.val + r.extra ≤ s.now :=
  ⟨({ r0 with reqs := [rq (.ctl 0 0) (.chan 0 1 9 0 2 0) true 1], now := 440 } : State), 0, 0, (rq (.ctl 0 0) (.chan 0 1 9 0 2 0) true 1), by decide, by decide, by decide⟩

theorem test_witness_ControllersPerformCopyAndPowerDown_1 : ∃ (s : State) (d : Die) (k : Fin 4), s.life = .running ∧ s.spareState d.val k.val = 1 ∧ s.copierRuns = true ∧ (∀ n, (s.ctl d.val k.val).lastCopy = some n → n + 16 ≤ s.now) ∧ s.isDown (ctlRow d.val k.val (32 * s.fld (memc .HBM_SPARE d.val k.val) HBM_SPARE.PROGRESS + s.fld (memc .HBM_SPARE d.val k.val) HBM_SPARE.FAILED_PC)) = false ∧ s.upset (ctlRow d.val k.val (32 * s.fld (memc .HBM_SPARE d.val k.val) HBM_SPARE.PROGRESS + s.fld (memc .HBM_SPARE d.val k.val) HBM_SPARE.FAILED_PC)) = none ∧ s.inject = none ∧ s.fld (memc .HBM_SPARE d.val k.val) HBM_SPARE.PROGRESS + 1 < pcRows :=
  ⟨((r0.setFld (memc .HBM_SPARE 0 3) HBM_SPARE.STATE 1).setFld (memc .HBM_SPARE 0 3) HBM_SPARE.PROGRESS 7).setFld ⟨.START_STATUS, selSv0, 0, 0⟩ START_STATUS.STAGE 9, 0, 3, by decide, by decide, by decide, (fun n h => absurd (show (none : Option Nat) = some n from h) (by simp)), by decide, by decide, by decide, by decide⟩

theorem test_witness_ControllersPerformCopyAndPowerDown_2 : ∃ (s : State) (d : Die) (k : Fin 4), s.life = .running ∧ s.spareState d.val k.val = 1 ∧ s.copierRuns = true ∧ (∀ n, (s.ctl d.val k.val).lastCopy = some n → n + 16 ≤ s.now) ∧ s.isDown (ctlRow d.val k.val (32 * s.fld (memc .HBM_SPARE d.val k.val) HBM_SPARE.PROGRESS + s.fld (memc .HBM_SPARE d.val k.val) HBM_SPARE.FAILED_PC)) = false ∧ s.fld (memc .HBM_SPARE d.val k.val) HBM_SPARE.PROGRESS + 1 = pcRows :=
  ⟨((r0.setFld (memc .HBM_SPARE 0 3) HBM_SPARE.STATE 1).setFld (memc .HBM_SPARE 0 3) HBM_SPARE.PROGRESS 4882812).setFld ⟨.START_STATUS, selSv0, 0, 0⟩ START_STATUS.STAGE 9, 0, 3, by decide, by decide, by decide, (fun n h => absurd (show (none : Option Nat) = some n from h) (by simp)), by decide, by decide⟩

theorem test_witness_ControllersPerformCopyAndPowerDown_3 : ∃ (s : State) (d : Die) (k : Fin 4), s.life = .running ∧ s.spareState d.val k.val = 1 ∧ s.copierRuns = true ∧ (∀ n, (s.ctl d.val k.val).lastCopy = some n → n + 16 ≤ s.now) ∧ s.isDown (ctlRow d.val k.val (32 * s.fld (memc .HBM_SPARE d.val k.val) HBM_SPARE.PROGRESS + s.fld (memc .HBM_SPARE d.val k.val) HBM_SPARE.FAILED_PC)) = true :=
  ⟨(((r0.setFld (memc .HBM_SPARE 0 3) HBM_SPARE.STATE 1).setFld (memc .HBM_SPARE 0 3) HBM_SPARE.PROGRESS 7).setFld ⟨.START_STATUS, selSv0, 0, 0⟩ START_STATUS.STAGE 9).setFld (pdnStatus 0 3) HBM_PDN_STATUS.DOWN 65535, 0, 3, by decide, by decide, by decide, (fun n h => absurd (show (none : Option Nat) = some n from h) (by simp)), by decide⟩

theorem test_witness_ControllersPerformCopyAndPowerDown_4 : ∃ (s : State) (d : Die) (k : Fin 4) (ch : Nat) (n : Nat), s.life = .running ∧ ch < 16 ∧ (s.ctl d.val k.val).pdn = some (ch, n) ∧ s.now < n + 110000 ∧ s.outstandingWrites d k ch = 0 :=
  ⟨({ r0 with ctls := [(3, { Controller.idle with pdn := some (15, 0) })] } : State), 0, 3, 15, 0, by decide, by decide, by decide, by decide, by decide⟩

theorem test_witness_ControllersPerformCopyAndPowerDown_5 : ∃ (s : State) (d : Die) (k : Fin 4) (ch : Nat) (n : Nat), s.life = .running ∧ (s.ctl d.val k.val).pdn = some (ch, n) ∧ n + 110000 ≤ s.now :=
  ⟨({ r0 with ctls := [(0, { Controller.idle with pdn := some (chanOfRow 0, 0) })], reqs := [rq (.ctl 0 0) (.chan 0 1 9 0 2 0) true 1], now := 110000 } : State), 0, 0, (chanOfRow 0), 0, by decide, by decide, by decide⟩

theorem test_witness_ControllersPerformCopyAndPowerDown_6 : ∃ (s : State) (d : Die) (k : Fin 4) (ch : Fin 16) (w : Nat × Nat), s.life = .running ∧ (s.ctl d.val k.val).wakes.find? (fun w => w.1 == ch.val) = some w ∧ w.2 ≤ s.now :=
  ⟨({ r0 with ctls := [(3, { Controller.idle with wakes := [(15, 0)] })] } : State), 0, 3, 15, (15, 0), by decide, by decide, by decide⟩

theorem test_witness_ControllersPerformCopyAndPowerDown_7 : ∃ (s : State) (d : Die) (k : Fin 4) (f : TagFill), s.life = .running ∧ (s.ctl d.val k.val).fills.find? (fun f => !f.started) = some f :=
  ⟨({ r0 with ctls := [(3, { Controller.idle with fills := [⟨2, 7, 0, false⟩] })] } : State), 0, 3, ⟨2, 7, 0, false⟩, by decide, by decide⟩

theorem test_witness_ControllersPerformCopyAndPowerDown_8 : ∃ (s : State) (d : Die) (k : Fin 4) (f : TagFill), s.life = .running ∧ (s.ctl d.val k.val).fills.head? = some f ∧ f.started = true ∧ f.at' + 504 ≤ s.now :=
  ⟨({ r0 with ctls := [(3, { Controller.idle with fills := [⟨2, 7, 0, true⟩] })], now := 504 } : State), 0, 3, ⟨2, 7, 0, true⟩, by decide, by decide, by decide, by decide⟩

theorem test_witness_ControllersPerformCopyAndPowerDown_9 : ∃ (s : State) (d : Die) (k : Fin 4) (blk : Nat), s.life = .running ∧ (s.ctl d.val k.val).fills = [] ∧ blk < 610348 ∧ s.mem.untagged.contains (tagBlock (ctlRow d.val k.val 0) + blk) = false ∧ s.blockBound d.val k.val blk = true :=
  ⟨({ r0 with frames := [⟨true, 0, 0, 610348, 1⟩] } : State), 0, 3, 610347, by decide, by decide, by decide, by decide, by decide⟩

theorem test_witness_ControllersPerformCopyAndPowerDown_10 : ∃ (s : State) (d : Die) (k : Fin 6) (p : Fin 32) (b : Fin 64), s.life = .running :=
  ⟨r0, 0, 5, 0, 63, by decide⟩

theorem test_witness_ControllersPerformCopyAndPowerDown_11 : ∃ (s : State) (d : Die) (k : Fin 6) (x : Fin 256), s.life = .running :=
  ⟨r0, 0, 5, 255, by decide⟩

theorem test_witness_WeltCommandsAreAcceptedOrRefused_0_0 : ∃ (s : State) (a : Actor) (hs : Fin 16) (g : Fin 128) (n : Nat), Writable s a (welt .WELT_CMD hs.val) ∧ s.weltBusy hs.val = false ∧ s.groupLease hs.val g.val = some n ∧ s.snapStopped n = false ∧ s.weltCheck a hs.val 1 g.val = none :=
  ⟨((({ r0 with frames := [⟨false, 0, 0, 8, 1⟩] } : State).setFld (leaseCfg 1) LEASE_CFG.STATE 1).setFld (welt .WELT_GROUP_CFG 15 127) WELT_GROUP_CFG.VALID 1).setFld (welt .WELT_GROUP_CFG 15 127) WELT_GROUP_CFG.LEASE 1, .firmware, 15, 127, 1, by unfold Writable; decide, by decide, by decide, by decide, (by decide +kernel)⟩

theorem test_witness_WeltCommandsAreAcceptedOrRefused_0_1 : ∃ (s : State) (a : Actor) (hs : Fin 16) (g : Fin 128) (n : Nat), Writable s a (welt .WELT_CMD hs.val) ∧ s.weltBusy hs.val = false ∧ s.groupLease hs.val g.val = some n ∧ s.snapStopped n = false ∧ s.weltCheck a hs.val 2 g.val = none :=
  ⟨((((({ r0 with frames := [⟨false, 0, 0, 8, 1⟩] } : State).setFld (leaseCfg 1) LEASE_CFG.STATE 1).setFld (welt .WELT_GROUP_CFG 15 127) WELT_GROUP_CFG.VALID 1).setFld (welt .WELT_GROUP_CFG 15 127) WELT_GROUP_CFG.LEASE 1).setFld (welt .WELT_STATUS 15) WELT_STATUS.PHASE 1).setFld (welt .WELT_STATUS 15) WELT_STATUS.OPEN_GROUP 127, .firmware, 15, 127, 1, by unfold Writable; decide, by decide, by decide, by decide, (by decide +kernel)⟩

theorem test_witness_WeltCommandsAreAcceptedOrRefused_0_2 : ∃ (s : State) (a : Actor) (hs : Fin 16) (g : Fin 128) (n : Nat), Writable s a (welt .WELT_CMD hs.val) ∧ s.weltBusy hs.val = false ∧ s.groupLease hs.val g.val = some n ∧ s.snapStopped n = false ∧ s.weltCheck a hs.val 3 g.val = none :=
  ⟨((((({ r0 with frames := [⟨false, 0, 0, 8, 1⟩] } : State).setFld (leaseCfg 1) LEASE_CFG.STATE 1).setFld (welt .WELT_GROUP_CFG 15 127) WELT_GROUP_CFG.VALID 1).setFld (welt .WELT_GROUP_CFG 15 127) WELT_GROUP_CFG.LEASE 1).setFld (welt .WELT_STATUS 15) WELT_STATUS.PHASE 2).setFld (welt .WELT_STATUS 15) WELT_STATUS.OPEN_GROUP 127, .firmware, 15, 127, 1, by unfold Writable; decide, by decide, by decide, by decide, by decide⟩

theorem test_witness_WeltCommandsAreAcceptedOrRefused_0_3 : ∃ (s : State) (a : Actor) (hs : Fin 16) (g : Fin 128) (n : Nat), Writable s a (welt .WELT_CMD hs.val) ∧ s.weltBusy hs.val = false ∧ s.groupLease hs.val g.val = some n ∧ s.snapStopped n = false ∧ s.weltCheck a hs.val 4 g.val = none :=
  ⟨((((({ r0 with frames := [⟨false, 0, 0, 8, 1⟩] } : State).setFld (leaseCfg 1) LEASE_CFG.STATE 1).setFld (welt .WELT_GROUP_CFG 15 127) WELT_GROUP_CFG.VALID 1).setFld (welt .WELT_GROUP_CFG 15 127) WELT_GROUP_CFG.LEASE 1).setFld (welt .WELT_STATUS 15) WELT_STATUS.PHASE 3).setFld (welt .WELT_STATUS 15) WELT_STATUS.OPEN_GROUP 127, .firmware, 15, 127, 1, by unfold Writable; decide, by decide, by decide, by decide, by decide⟩

theorem test_witness_WeltCommandsAreAcceptedOrRefused_0_4 : ∃ (s : State) (a : Actor) (hs : Fin 16) (g : Fin 128) (n : Nat) (st : _) (l : _), Writable s a (welt .WELT_CMD hs.val) ∧ s.weltBusy hs.val = false ∧ s.groupLease hs.val g.val = some n ∧ s.snapStopped n = false ∧ s.weltCheck a hs.val 1 g.val = some (st, l) :=
  ⟨((((({ r0 with frames := [⟨false, 0, 0, 8, 1⟩] } : State).setFld (leaseCfg 1) LEASE_CFG.STATE 1).setFld (welt .WELT_GROUP_CFG 15 127) WELT_GROUP_CFG.VALID 1).setFld (welt .WELT_GROUP_CFG 15 127) WELT_GROUP_CFG.LEASE 1).setFld (welt .WELT_STATUS 15) WELT_STATUS.PHASE 1).setFld (welt .WELT_STATUS 15) WELT_STATUS.OPEN_GROUP 127, .firmware, 15, 127, 1, .state, none, by unfold Writable; decide, by decide, by decide, by decide, by decide⟩

theorem test_witness_WeltCommandsAreAcceptedOrRefused_1 : ∃ (s : State) (hs : Nat) (op : Nat) (g : Nat), op < 8 :=
  ⟨r0, 15, 4, 127, by decide⟩

theorem test_witness_WeltStepsAdvance_0 : ∃ (s : State) (hs : Fin 16) (l : Nat), s.life = .running ∧ (s.welt hs.val).todo = [l] ∧ (s.welt hs.val).stage = 3 ∧ (s.welt hs.val).op ≠ 1 ∧ s.weltWaits hs.val = false ∧ (s.welt hs.val).t < 2 ^ 32 :=
  ⟨({ r0 with welts := [(15, { WeltRun.idle with todo := [7], stage := 3, t := 5 })] } : State), 15, 7, by decide, by decide, by decide, by decide, by decide, by decide⟩

theorem test_witness_WeltStepsAdvance_1 : ∃ (s : State) (hs : Fin 16), s.life = .running ∧ (s.welt hs.val).op ≠ 0 ∧ (s.welt hs.val).group < 128 ∧ (s.welt hs.val).todo = [] ∧ s.weltWaits hs.val = false :=
  ⟨({ r0 with welts := [(15, { WeltRun.idle with op := 1 })] } : State), 15, by decide, by decide, by decide, by decide, by decide⟩

theorem test_witness_WeltStepsAdvance_2 : ∃ (s : State) (hs : Fin 16), s.life = .running ∧ s.wstat hs.val WELT_STATUS.PHASE ≠ 0 ∧ (s.welt hs.val).opened + 11000000000 ≤ s.now ∧ s.weltBusy hs.val = false :=
  ⟨({ r0 with now := 11000000000 } : State).setFld (welt .WELT_STATUS 15) WELT_STATUS.PHASE 1, 15, by decide, by decide, by decide, by decide⟩

theorem test_witness_WeltStepsAdvance_3 : ∃ (s : State) (hs : Fin 16) (l : Fin 4096), s.life = .running ∧ (s.holders hs.val l.val).all (fun u => s.facAt l.val u 1) = true :=
  ⟨({ r0 with welts := [(0, { WeltRun.idle with op := 2, todo := [7], stage := 1 }), (1, { WeltRun.idle with op := 2, todo := [7], stage := 1 }), (2, { WeltRun.idle with op := 2, todo := [7], stage := 1 }), (3, { WeltRun.idle with op := 2, todo := [7], stage := 1 })] } : State), 0, 7, by decide, by decide⟩

theorem test_witness_WeltStepsAdvance_4 : ∃ (s : State) (hs : Fin 16) (l : Fin 4096), s.life = .running ∧ (s.holders hs.val l.val).all (fun u => s.facAt l.val u 1) = false ∧ (s.holders hs.val l.val).all (fun u => s.facAt l.val u 2) = true :=
  ⟨({ r0 with welts := [(0, { WeltRun.idle with op := 2, todo := [7], stage := 2 }), (1, { WeltRun.idle with op := 2, todo := [7], stage := 2 }), (2, { WeltRun.idle with op := 2, todo := [7], stage := 2 }), (3, { WeltRun.idle with op := 2, todo := [7], stage := 2 })] } : State), 0, 7, by decide, by decide, by decide⟩

theorem test_witness_WeltStepsAdvance_5 : ∃ (s : State) (hs : Fin 16) (l : Fin 4096) (v : Word), Writable s .firmware (welt .WELT_LAYER_STATE hs.val l.val) ∧ s.stepOpen hs.val (s.weltLayer hs.val l.val).group = false :=
  ⟨r0, 15, 4095, 7, by unfold Writable; decide, by decide⟩

theorem test_witness_PoolBatchesRun_0 : ∃ (s : State) (d : Die) (p : Fin 16) (v : Word) (w : Nat), Writable s .firmware (kvp .KVP_CFG d.val p.val) ∧ s.fld (kvp .KVP_CFG d.val p.val) KVP_CFG.ENABLE = 0 ∧ w = keepFields 0 (setBits v.toNat KVP_CFG.ENABLE.hi KVP_CFG.ENABLE.lo 1) [⟨54, 52⟩, ⟨41, 36⟩] ∧ s.poolCheck d.val p.val (poolShape w (s.fld (kvp .KVP_BASE d.val p.val) KVP_BASE.BASE) (s.fld (kvp .KVP_META d.val p.val) KVP_META.META)) (bits w KVP_CFG.DIM.hi KVP_CFG.DIM.lo) = none :=
  ⟨(({ r0 with frames := [⟨false, 0, 0, 8, 1⟩] } : State)).setFld (kvp .KVP_META 0 15) KVP_META.META 65536, 0, 15, (BitVec.ofNat 64 (1 * 2 ^ KVP_CFG.ENABLE.lo + 1 * 2 ^ KVP_CFG.LEASE.lo + 1 * 2 ^ KVP_CFG.KFMT.lo + 1 * 2 ^ KVP_CFG.VFMT.lo + 1 * 2 ^ KVP_CFG.REGIONS.lo + 1 * 2 ^ KVP_CFG.PAGES.lo)), _, by unfold Writable; decide, by decide, (rfl), (by decide +kernel)⟩

theorem test_witness_PoolBatchesRun_1 : ∃ (s : State) (d : Die) (p : Fin 16), s.life = .running ∧ s.fld (kvp .KVP_STATUS d.val p.val) KVP_STATUS.INIT = 1 ∧ s.poolWaits d.val p.val = false :=
  ⟨(r0).setFld (kvp .KVP_STATUS 0 15) KVP_STATUS.INIT 1, 0, 15, by decide, by decide, by decide⟩

theorem test_witness_PoolBatchesRun_2 : ∃ (s : State) (a : Actor) (d : Die) (p : Fin 16) (v : Word), Writable s a (kvp .KVP_GO d.val p.val) ∧ s.mayPool a d.val p.val = true ∧ s.fld (kvp .KVP_STATUS d.val p.val) KVP_STATUS.BUSY = 0 ∧ s.fld (kvp .KVP_STATUS d.val p.val) KVP_STATUS.INIT = 0 ∧ s.fld (kvp .KVP_CFG d.val p.val) KVP_CFG.ENABLE = 1 ∧ s.active (s.fld (kvp .KVP_CFG d.val p.val) KVP_CFG.LEASE) = true ∧ s.snapStopped (s.fld (kvp .KVP_CFG d.val p.val) KVP_CFG.LEASE) = false ∧ bits v.toNat KVP_GO.COUNT.hi KVP_GO.COUNT.lo ≠ 0 :=
  ⟨((((((((({ r0 with frames := [⟨false, 0, 0, 8, 1⟩] } : State)).setFld (leaseCfg 1) LEASE_CFG.STATE 1).setFld (kvp .KVP_CFG 0 15) KVP_CFG.ENABLE 1).setFld (kvp .KVP_CFG 0 15) KVP_CFG.LEASE 1).setFld (kvp .KVP_CFG 0 15) KVP_CFG.REGIONS 1).setFld (kvp .KVP_CFG 0 15) KVP_CFG.PAGES 1).setFld (kvp .KVP_CFG 0 15) KVP_CFG.KFMT 1).setFld (kvp .KVP_CFG 0 15) KVP_CFG.VFMT 1).setFld (kvp .KVP_META 0 15) KVP_META.META 65536, .firmware, 0, 15, (BitVec.ofNat 64 (1 + 2 ^ KVP_GO.COUNT.lo)), by unfold Writable; decide, by decide, by decide, by decide, by decide, by decide, by decide, (by decide)⟩

theorem test_witness_PoolBatchesRun_3 : ∃ (s : State) (u : State) (d : Die) (p : Fin 16) (r : PoolRun) (e : PoolEntry), PoolTurn s d.val p.val 1 r e u :=
  ⟨({ ((((((((({ r0 with frames := [⟨false, 0, 0, 8, 1⟩] } : State)).setFld (leaseCfg 1) LEASE_CFG.STATE 1).setFld (kvp .KVP_CFG 0 15) KVP_CFG.ENABLE 1).setFld (kvp .KVP_CFG 0 15) KVP_CFG.LEASE 1).setFld (kvp .KVP_CFG 0 15) KVP_CFG.REGIONS 1).setFld (kvp .KVP_CFG 0 15) KVP_CFG.PAGES 1).setFld (kvp .KVP_CFG 0 15) KVP_CFG.KFMT 1).setFld (kvp .KVP_CFG 0 15) KVP_CFG.VFMT 1).setFld (kvp .KVP_META 0 15) KVP_META.META 65536 with pools := [(15, ⟨1, 0, none, 0⟩)], mem := { (r0.mem.write ((r0.rowAt 0).getD 0 * 512 + 6) [1]) with untagged := [tagBlock ((r0.rowAt 0).getD 0)] } } : State), _, 0, 15, ⟨1, 0, none, 0⟩, _, (⟨by decide, by decide, by decide, by decide +kernel, by decide +kernel, ⟨_, rfl⟩, rfl, by decide +kernel, by decide +kernel, Or.inl rfl, fun h => absurd h (by decide), rfl⟩)⟩

theorem test_witness_PoolBatchesRun_4 : ∃ (s : State) (u : State) (v : State) (d : Die) (p : Fin 16) (r : PoolRun) (e : PoolEntry) (n : Nat), PoolTurn s d.val p.val 2 r e u ∧ u.pageCount (s.poolUser d.val p.val) (s.pool d.val p.val) e.page = (v, n) :=
  ⟨({ ((((((((({ r0 with frames := [⟨false, 0, 0, 8, 1⟩] } : State)).setFld (leaseCfg 1) LEASE_CFG.STATE 1).setFld (kvp .KVP_CFG 0 15) KVP_CFG.ENABLE 1).setFld (kvp .KVP_CFG 0 15) KVP_CFG.LEASE 1).setFld (kvp .KVP_CFG 0 15) KVP_CFG.REGIONS 1).setFld (kvp .KVP_CFG 0 15) KVP_CFG.PAGES 1).setFld (kvp .KVP_CFG 0 15) KVP_CFG.KFMT 1).setFld (kvp .KVP_CFG 0 15) KVP_CFG.VFMT 1).setFld (kvp .KVP_META 0 15) KVP_META.META 65536 with pools := [(15, ⟨1, 0, none, 0⟩)], mem := { (r0.mem.write ((r0.rowAt 0).getD 0 * 512 + 6) [2]) with untagged := [tagBlock ((r0.rowAt 0).getD 0)] } } : State), _, _, 0, 15, ⟨1, 0, none, 0⟩, _, _, (⟨by decide, by decide, by decide, by decide +kernel, by decide +kernel, ⟨_, rfl⟩, rfl, by decide +kernel, by decide +kernel, Or.inr (by decide +kernel), fun h => absurd h (by decide), rfl⟩), (rfl)⟩

theorem test_witness_PoolBatchesRun_5 : ∃ (s : State) (u : State) (v : State) (d : Die) (p : Fin 16) (r : PoolRun) (e : PoolEntry) (n : Nat), PoolTurn s d.val p.val 3 r e u ∧ u.pageCount (s.poolUser d.val p.val) (s.pool d.val p.val) e.page = (v, n) :=
  ⟨({ ((((((((({ r0 with frames := [⟨false, 0, 0, 8, 1⟩] } : State)).setFld (leaseCfg 1) LEASE_CFG.STATE 1).setFld (kvp .KVP_CFG 0 15) KVP_CFG.ENABLE 1).setFld (kvp .KVP_CFG 0 15) KVP_CFG.LEASE 1).setFld (kvp .KVP_CFG 0 15) KVP_CFG.REGIONS 1).setFld (kvp .KVP_CFG 0 15) KVP_CFG.PAGES 1).setFld (kvp .KVP_CFG 0 15) KVP_CFG.KFMT 1).setFld (kvp .KVP_CFG 0 15) KVP_CFG.VFMT 1).setFld (kvp .KVP_META 0 15) KVP_META.META 65536 with pools := [(15, ⟨1, 0, none, 0⟩)], mem := { (r0.mem.write ((r0.rowAt 0).getD 0 * 512 + 6) [3]) with untagged := [tagBlock ((r0.rowAt 0).getD 0)] } } : State), _, _, 0, 15, ⟨1, 0, none, 0⟩, _, _, (⟨by decide, by decide, by decide, by decide +kernel, by decide +kernel, ⟨_, rfl⟩, rfl, by decide +kernel, by decide +kernel, Or.inr (by decide +kernel), fun h => absurd h (by decide), rfl⟩), (rfl)⟩

theorem test_witness_PoolBatchesRun_6 : ∃ (s : State) (u : State) (v : State) (d : Die) (p : Fin 16) (r : PoolRun) (e : PoolEntry) (n : Nat), PoolTurn s d.val p.val 4 r e u ∧ u.pageCount (s.poolUser d.val p.val) (s.pool d.val p.val) e.page = (v, n) :=
  ⟨({ ((((((((({ r0 with frames := [⟨false, 0, 0, 8, 1⟩] } : State)).setFld (leaseCfg 1) LEASE_CFG.STATE 1).setFld (kvp .KVP_CFG 0 15) KVP_CFG.ENABLE 1).setFld (kvp .KVP_CFG 0 15) KVP_CFG.LEASE 1).setFld (kvp .KVP_CFG 0 15) KVP_CFG.REGIONS 1).setFld (kvp .KVP_CFG 0 15) KVP_CFG.PAGES 1).setFld (kvp .KVP_CFG 0 15) KVP_CFG.KFMT 1).setFld (kvp .KVP_CFG 0 15) KVP_CFG.VFMT 1).setFld (kvp .KVP_META 0 15) KVP_META.META 65536 with pools := [(15, ⟨1, 0, none, 0⟩)], mem := { (r0.mem.write ((r0.rowAt 0).getD 0 * 512 + 6) [4]) with untagged := [tagBlock ((r0.rowAt 0).getD 0)] } } : State), _, _, 0, 15, ⟨1, 0, none, 0⟩, _, _, (⟨by decide, by decide, by decide, by decide +kernel, by decide +kernel, ⟨_, rfl⟩, rfl, by decide +kernel, by decide +kernel, Or.inr (by decide +kernel), fun h => absurd h (by decide), rfl⟩), (rfl)⟩

theorem test_witness_PoolBatchesRun_7 : ∃ (s : State) (u : State) (v : State) (d : Die) (p : Fin 16) (r : PoolRun) (e : PoolEntry) (n : Nat), PoolTurn s d.val p.val 5 r e u ∧ u.pageCount (s.poolUser d.val p.val) (s.pool d.val p.val) e.page = (v, n) ∧ u.stageCheck d.val (s.pool d.val p.val) e.stage = none ∧ n = 1 ∧ e.count ≠ 0 ∧ e.offset + e.count ≤ 64 ∧ e.src + e.count ≤ 64 ∧ e.region < (s.pool d.val p.val).regions :=
  ⟨({ ((((((((({ r0 with frames := [⟨false, 0, 0, 8, 1⟩] } : State)).setFld (leaseCfg 1) LEASE_CFG.STATE 1).setFld (kvp .KVP_CFG 0 15) KVP_CFG.ENABLE 1).setFld (kvp .KVP_CFG 0 15) KVP_CFG.LEASE 1).setFld (kvp .KVP_CFG 0 15) KVP_CFG.REGIONS 1).setFld (kvp .KVP_CFG 0 15) KVP_CFG.PAGES 1).setFld (kvp .KVP_CFG 0 15) KVP_CFG.KFMT 1).setFld (kvp .KVP_CFG 0 15) KVP_CFG.VFMT 1).setFld (kvp .KVP_META 0 15) KVP_META.META 65536 with pools := [(15, ⟨1, 0, none, 0⟩)], mem := { (r0.mem.write ((r0.rowAt 0).getD 0 * 512 + 6) [5]|>.write ((r0.rowAt 65536).getD 0 * 512) [1] |>.write ((r0.rowAt 0).getD 0 * 512 + 10) [32]) with untagged := [tagBlock ((r0.rowAt 0).getD 0), tagBlock ((r0.rowAt 65536).getD 0)] } } : State), _, _, 0, 15, ⟨1, 0, none, 0⟩, _, _, (⟨by decide, by decide, by decide, by decide +kernel, by decide +kernel, ⟨_, rfl⟩, rfl, by decide +kernel, by decide +kernel, Or.inr (by decide +kernel), fun _ => by decide +kernel, rfl⟩), (rfl), (by decide +kernel), (by decide +kernel), (by decide +kernel), (by decide +kernel), (by decide +kernel), (by decide +kernel)⟩

theorem test_witness_PoolBatchesRun_8 : ∃ (s : State) (u : State) (v : State) (d : Die) (p : Fin 16) (r : PoolRun) (e : PoolEntry) (n : Nat), PoolTurn s d.val p.val 5 r e u ∧ u.pageCount (s.poolUser d.val p.val) (s.pool d.val p.val) e.page = (v, n) ∧ u.stageCheck d.val (s.pool d.val p.val) e.stage = none ∧ n ≠ 1 :=
  ⟨({ ((((((((({ r0 with frames := [⟨false, 0, 0, 8, 1⟩] } : State)).setFld (leaseCfg 1) LEASE_CFG.STATE 1).setFld (kvp .KVP_CFG 0 15) KVP_CFG.ENABLE 1).setFld (kvp .KVP_CFG 0 15) KVP_CFG.LEASE 1).setFld (kvp .KVP_CFG 0 15) KVP_CFG.REGIONS 1).setFld (kvp .KVP_CFG 0 15) KVP_CFG.PAGES 1).setFld (kvp .KVP_CFG 0 15) KVP_CFG.KFMT 1).setFld (kvp .KVP_CFG 0 15) KVP_CFG.VFMT 1).setFld (kvp .KVP_META 0 15) KVP_META.META 65536 with pools := [(15, ⟨1, 0, none, 0⟩)], mem := { (r0.mem.write ((r0.rowAt 0).getD 0 * 512 + 6) [5]) with untagged := [tagBlock ((r0.rowAt 0).getD 0)] } } : State), _, _, 0, 15, ⟨1, 0, none, 0⟩, _, _, (⟨by decide, by decide, by decide, by decide +kernel, by decide +kernel, ⟨_, rfl⟩, rfl, by decide +kernel, by decide +kernel, Or.inr (by decide +kernel), fun _ => by decide +kernel, rfl⟩), (rfl), (by decide +kernel), (by decide +kernel)⟩

theorem test_witness_PoolBatchesRun_9 : ∃ (s : State) (c : Instr) (d : Die) (p : Fin 16) (r : PoolRun) (st : Status), (c = .alloc d p ∨ c = .share d p ∨ c = .free d p ∨ c = .makePrivate d p ∨ c = .append d p) ∧ s.life = .running ∧ s.poolRun d.val p.val = some r ∧ r.next < r.count ∧ s.poolWaits d.val p.val = false ∧ s.spanReach (s.listAt d.val p.val r.next) 16 = true ∧ s.find (some (s.pool d.val p.val).lease) (s.listAt d.val p.val r.next) = .error st :=
  ⟨({ r0 with pools := [(15, ⟨1, 0, none, 0⟩)] } : State), (.share 0 15), 0, 15, ⟨1, 0, none, 0⟩, .range, (Or.inr (Or.inl rfl)), by decide, by decide, by decide, by decide, by decide, by decide⟩

theorem test_witness_PoolBatchesRun_10 : ∃ (s : State) (d : Die) (p : Fin 16) (r : PoolRun), s.life = .running ∧ s.poolRun d.val p.val = some r ∧ r.count ≤ r.next ∧ s.poolWaits d.val p.val = false :=
  ⟨({ r0 with pools := [(15, ⟨1, 1, none, 0⟩)] } : State), 0, 15, ⟨1, 1, none, 0⟩, by decide, by decide, by decide, by decide⟩

theorem test_witness_LinksAndPortsCarryAndTrain_0_0 : ∃ (s : State) (e : LinkEnd) (cls : LinkClass) (r : LinkRow), s.life = .running ∧ linkPort e.sel.val e.port.val = true ∧ s.fld (linkReg .LINK_STATUS e.sel.val e.port.val) LINK_STATUS.UP = 1 ∧ s.linkFull e.sel.val e.port.val cls = false ∧ s.inject = none ∧ s.replayOf e.sel.val e.port.val cls = none ∧ (∀ n, n ∈ r.errs → n ≤ 1) :=
  ⟨(r0.setFld (linkReg .LINK_STATUS 3 2) LINK_STATUS.UP 1), ⟨3, 2⟩, .request, ⟨[], [], false, none, none⟩, by decide, by decide, by decide, by decide, by decide, by decide, (by decide)⟩

theorem test_witness_LinksAndPortsCarryAndTrain_0_1 : ∃ (s : State) (e : LinkEnd) (cls : LinkClass) (r : LinkRow), s.life = .running ∧ linkPort e.sel.val e.port.val = true ∧ s.fld (linkReg .LINK_STATUS e.sel.val e.port.val) LINK_STATUS.UP = 1 ∧ s.linkFull e.sel.val e.port.val cls = false ∧ s.inject = none ∧ s.replayOf e.sel.val e.port.val cls = none ∧ (∀ n, n ∈ r.errs → n ≤ 1) :=
  ⟨(r0.setFld (linkReg .LINK_STATUS 25 0) LINK_STATUS.UP 1), ⟨25, 0⟩, .management, ⟨[], [0, 1], false, none, none⟩, by decide, by decide, by decide, by decide, by decide, by decide, (by decide)⟩

theorem test_witness_LinksAndPortsCarryAndTrain_1 : ∃ (s : State) (e : LinkEnd) (cls : LinkClass) (r : LinkRow), s.life = .running ∧ linkPort e.sel.val e.port.val = true ∧ s.fld (linkReg .LINK_STATUS e.sel.val e.port.val) LINK_STATUS.UP = 1 ∧ s.linkFull e.sel.val e.port.val cls = false ∧ s.inject = none ∧ s.replayOf e.sel.val e.port.val cls = none ∧ 2 ∈ r.errs :=
  ⟨(r0.setFld (linkReg .LINK_STATUS 3 2) LINK_STATUS.UP 1), ⟨3, 2⟩, .request, ⟨[], [1, 2], false, none, none⟩, by decide, by decide, by decide, by decide, by decide, by decide, (by decide)⟩

theorem test_witness_LinksAndPortsCarryAndTrain_2 : ∃ (s : State) (e : LinkEnd) (cls : LinkClass) (r : LinkRow) (x : Replay), s.life = .running ∧ linkPort e.sel.val e.port.val = true ∧ s.fld (linkReg .LINK_STATUS e.sel.val e.port.val) LINK_STATUS.UP = 1 ∧ s.linkFull e.sel.val e.port.val cls = false ∧ s.inject = none ∧ s.replayOf e.sel.val e.port.val cls = some x :=
  ⟨({ r0.setFld (linkReg .LINK_STATUS 3 2) LINK_STATUS.UP 1 with replays := [⟨3, 2, .request, none, []⟩] } : State), ⟨3, 2⟩, .request, ⟨[], [2], false, none, none⟩, ⟨3, 2, .request, none, []⟩, by decide, by decide, by decide, by decide, by decide, by decide⟩

theorem test_witness_LinksAndPortsCarryAndTrain_3 : ∃ (s : State) (e : LinkEnd) (cls : LinkClass) (r : LinkRow), s.life = .running ∧ s.linkFull e.sel.val e.port.val cls = true :=
  ⟨({ r0 with linkHeld := [(linkKey 3 2 .request, Config.linkRoom 3 2 0 + 2)] } : State), ⟨3, 2⟩, .request, ⟨[], [], false, none, none⟩, by decide, (decide_eq_true (show Config.linkRoom 3 2 0 + 1 < 0 + 0 + (Config.linkRoom 3 2 0 + 2) by omega))⟩

theorem test_witness_LinksAndPortsCarryAndTrain_4 : ∃ (s : State) (e : LinkEnd) (r : LinkRow) (x : Replay), s.life = .running ∧ s.replays.find? (fun x => x.sel == e.sel.val && x.port == e.port.val) = some x ∧ x.held = [] ∧ (∀ n, n ∈ r.errs → n ≤ 1) :=
  ⟨({ r0 with replays := [⟨3, 2, .request, none, []⟩] } : State), ⟨3, 2⟩, ⟨[], [1], false, none, none⟩, ⟨3, 2, .request, none, []⟩, by decide, by decide, by decide, by decide⟩

theorem test_witness_LinksAndPortsCarryAndTrain_5 : ∃ (s : State) (e : LinkEnd) (r : LinkRow) (x : Replay) (q : MemReq), s.life = .running ∧ s.replays.find? (fun x => x.sel == e.sel.val && x.port == e.port.val) = some x ∧ x.held = [] ∧ 2 ∈ r.errs ∧ q ∈ s.reqs ∧ (∀ z, z ∈ s.reqs → z.id = q.id → z = q) ∧ x.request = some q.id ∧ (q.write = false ∨ q.stage = 0) :=
  ⟨({ r0 with replays := [⟨3, 2, .request, some 0, []⟩], reqs := [rq (.shared 0 95) (.chan 0 1 9 0 2 0) false 0] } : State), ⟨3, 2⟩, ⟨[], [2], false, none, none⟩, ⟨3, 2, .request, some 0, []⟩, (rq (.shared 0 95) (.chan 0 1 9 0 2 0) false 0), by decide, by decide, by decide, by decide, by decide, (fun z h _ => List.mem_singleton.mp h), by decide, (Or.inl (by decide))⟩

theorem test_witness_LinksAndPortsCarryAndTrain_0_0_b : ∃ (s : State) (p : EthPort) (x : BitVec 4), s.life = .running ∧ s.portUp p = true ∧ (x ≠ 0 ∨ s.fecSurge p = true) :=
  ⟨(r0.setFld (portRegs (.peer 15)).2.1 PEER_PORT_STATUS.UP 1), (.peer 15), 3, by decide, by decide, (Or.inl (by decide))⟩

theorem test_witness_LinksAndPortsCarryAndTrain_0_1_b : ∃ (s : State) (p : EthPort) (x : BitVec 4), s.life = .running ∧ s.portUp p = true ∧ (x ≠ 0 ∨ s.fecSurge p = true) :=
  ⟨({ r0 with fecRecent := [(17, [(5, 64)])] } : State).setFld (portRegs (.host 1)).2.1 PEER_PORT_STATUS.UP 1, (.host 1), 0, by decide, by decide, (Or.inr (by decide))⟩

theorem test_witness_LinksAndPortsCarryAndTrain_1_b : ∃ (s : State) (p : EthPort), s.life = .running ∧ s.fecSurge p = false :=
  ⟨r0, (.peer 15), by decide, by decide⟩

theorem test_witness_LinksAndPortsCarryAndTrain_2_b : ∃ (s : State) (p : EthPort) (l : BitVec 4) (x : Fin 4) (r : Training) (y : Nat × Nat), s.life = .running ∧ tget? s.training (portKey p) = some r ∧ s.portEnabled p = true ∧ (∀ d, r.due = some d → s.now ≤ d) ∧ trainRate (s.portMode p) r.excluded x.val l.toNat = some y :=
  ⟨({ (r0.setFld startStatus START_STATUS.STAGE 9).setFld (portRegs (.peer 15)).1 PEER_PORT_CFG.ENABLE 1 with training := [(15, ⟨0, none⟩)] } : State), (.peer 15), 15, 3, ⟨0, none⟩, _, by decide, by decide, by decide, (fun d h => nomatch h), (rfl)⟩

theorem test_witness_LinksAndPortsCarryAndTrain_3_b : ∃ (m : Nat) (ex : Nat) (best : Nat) (l : Nat) (y : Nat × Nat), trainRate m ex best l = some y ∧ m ≠ 0 :=
  ⟨1, 0, 3, 15, (3, 15), by decide, by decide⟩

theorem test_witness_LinksAndPortsCarryAndTrain_4_0_b : ∃ (s : State) (p : EthPort) (l : BitVec 4) (x : Fin 4) (r : Training), s.life = .running ∧ tget? s.training (portKey p) = some r ∧ (trainRate (s.portMode p) r.excluded x.val l.toNat = none ∨ ∃ d, r.due = some d ∧ d < s.now) :=
  ⟨({ (r0.setFld startStatus START_STATUS.STAGE 9).setFld (portRegs (.peer 15)).1 PEER_PORT_CFG.ENABLE 1 with training := [(15, ⟨15, none⟩)] } : State), (.peer 15), 7, 3, ⟨15, none⟩, by decide, by decide, (Or.inl (by decide))⟩

theorem test_witness_LinksAndPortsCarryAndTrain_4_1_b : ∃ (s : State) (p : EthPort) (l : BitVec 4) (x : Fin 4) (r : Training), s.life = .running ∧ tget? s.training (portKey p) = some r ∧ (trainRate (s.portMode p) r.excluded x.val l.toNat = none ∨ ∃ d, r.due = some d ∧ d < s.now) :=
  ⟨({ ({ (r0.setFld startStatus START_STATUS.STAGE 9).setFld (portRegs (.peer 15)).1 PEER_PORT_CFG.ENABLE 1 with training := [(15, ⟨0, some 5⟩)] } : State) with now := 6 } : State), (.peer 15), 15, 3, ⟨0, some 5⟩, by decide, by decide, (Or.inr ⟨5, rfl, by decide⟩)⟩

theorem test_witness_LinksAndPortsCarryAndTrain_5_b : ∃ (s : State) (p : EthPort), s.life = .running ∧ s.portUp p = false ∧ s.portEnabled p = true ∧ tget? s.training (portKey p) = none :=
  ⟨(r0.setFld startStatus START_STATUS.STAGE 9).setFld (portRegs (.peer 15)).1 PEER_PORT_CFG.ENABLE 1, (.peer 15), by decide, by decide, by decide, by decide⟩

theorem test_witness_PacketsForThisUnitAreTaken_0 : ∃ (s : State) (t : State) (q : Fin 16) (p : DftPacket), Arrives s q p 1 t :=
  ⟨fab, (arrived (fab) (pk 1)), 3, (pk 1), ⟨by decide, by decide, by decide, by decide, Or.inl (by decide), by decide, Prod.ext rfl (by decide)⟩⟩

theorem test_witness_PacketsForThisUnitAreTaken_1 : ∃ (t : State) (q : Nat) (p : DftPacket) (rows : List Nat), p.type = 1 ∧ t.remoteRows p = .ok rows :=
  ⟨({ fab with frames := [⟨false, 0, 0, 8, 1⟩] } : State), 3, (pk 1), [0], by decide, by decide⟩

theorem test_witness_PacketsForThisUnitAreTaken_2 : ∃ (s : State) (u : State) (d : PeerDue), s.peerDue = [d] ∧ (∀ r, r ∈ s.peerReqs d → r.stage = 2 ∧ r.due ≤ s.now) ∧ d.pkt.type = 2 ∧ d.pkt.epoch = (s.conn d.pkt.src.toNat d.pkt.vc.val).epoch ∧ u = { s with peerDue := [], reqs := s.reqs.filter (fun r => !(s.peerReqs d).contains r) } :=
  ⟨({ fab with peerDue := [⟨3, pk 2, 0, 1, [0]⟩] } : State), _, ⟨3, pk 2, 0, 1, [0]⟩, by decide, (fun r h => nomatch h), by decide, by decide, (rfl)⟩

theorem test_witness_PacketsForThisUnitAreTaken_3_0 : ∃ (s : State) (u : State) (d : PeerDue), s.peerDue = [d] ∧ (∀ r, r ∈ s.peerReqs d → r.stage = 2 ∧ r.due ≤ s.now) ∧ d.pkt.type = 1 ∧ u = d.rows.foldl (fun s row => s.signals row d.pkt.lease.val) { s with peerDue := [], reqs := s.reqs.filter (fun r => !(s.peerReqs d).contains r) } ∧ d.pkt.epoch = (u.conn d.pkt.src.toNat d.pkt.vc.val).epoch ∧ (s.peerReqs d).any (·.fresh) = false :=
  ⟨({ fab with peerDue := [⟨3, pk 1, 0, 1, [0]⟩] } : State), _, ⟨3, pk 1, 0, 1, [0]⟩, by decide, (fun r h => nomatch h), by decide, (rfl), by decide, by decide⟩

theorem test_witness_PacketsForThisUnitAreTaken_3_1 : ∃ (s : State) (u : State) (d : PeerDue), s.peerDue = [d] ∧ (∀ r, r ∈ s.peerReqs d → r.stage = 2 ∧ r.due ≤ s.now) ∧ d.pkt.type = 1 ∧ u = d.rows.foldl (fun s row => s.signals row d.pkt.lease.val) { s with peerDue := [], reqs := s.reqs.filter (fun r => !(s.peerReqs d).contains r) } ∧ d.pkt.epoch = (u.conn d.pkt.src.toNat d.pkt.vc.val).epoch ∧ (s.peerReqs d).any (·.fresh) = true :=
  ⟨({ fab with peerDue := [⟨3, pk 1, 0, 1, [0]⟩], reqs := [{ fab.newReq 0 0 true (.engine .peer 0 3) none none ⟨[], false⟩ with stage := 2, fresh := true }] } : State), _, ⟨3, pk 1, 0, 1, [0]⟩, by decide, (fun r h => by have e : r = { fab.newReq 0 0 true (.engine .peer 0 3) none none ⟨[], false⟩ with stage := 2, fresh := true } := List.mem_singleton.mp h; subst e; decide), by decide, (rfl), by decide, by decide⟩

theorem test_witness_PacketsForThisUnitAreTaken_4 : ∃ (s : State) (d : PeerDue) (r : MemReq), s.peerDue = [d] ∧ r ∈ s.peerReqs d ∧ (r.stage ≠ 2 ∨ s.now < r.due) :=
  ⟨({ fab with peerDue := [⟨3, pk 1, 0, 1, [0]⟩], reqs := [fab.newReq 0 0 true (.engine .peer 0 3) none none ⟨[], false⟩] } : State), ⟨3, pk 1, 0, 1, [0]⟩, (fab.newReq 0 0 true (.engine .peer 0 3) none none ⟨[], false⟩), by decide, by decide, by decide⟩

theorem test_witness_PacketsForThisUnitAreTaken_5 : ∃ (s : State) (t : State) (q : Fin 16) (p : DftPacket), Arrives s q p 2 t :=
  ⟨fab, (arrived (fab) (pk 2)), 3, (pk 2), ⟨by decide, by decide, by decide, by decide, Or.inl (by decide), by decide, Prod.ext rfl (by decide)⟩⟩

theorem test_witness_PacketsForThisUnitAreTaken_6 : ∃ (t : State) (q : Nat) (p : DftPacket) (st : Status), t.remoteRows p = .error st :=
  ⟨fab, 3, (pk 1), .range, by decide⟩

theorem test_witness_PacketsForThisUnitAreTaken_7 : ∃ (s : State) (t : State) (q : Fin 16) (p : DftPacket), Arrives s q p 3 t :=
  ⟨fab, (arrived (fab) (pk 3)), 3, (pk 3), ⟨by decide, by decide, by decide, by decide, Or.inl (by decide), by decide, Prod.ext rfl (by decide)⟩⟩

theorem test_witness_PacketsForThisUnitAreTaken_8 : ∃ (t : State) (q : Nat) (p : DftPacket) (w : ReadWait), (t.conn p.src.toNat p.vc.val).reads.find? (fun w => w.tag == p.tag) = some w ∧ w.rows.length = p.pay.length :=
  ⟨(fab.setConn 6 2 { Conn.fresh with reads := [⟨7, [⟨0, 1, 9, 0, 2, 0⟩]⟩] }), 3, (pk 3), ⟨7, [⟨0, 1, 9, 0, 2, 0⟩]⟩, by decide, by decide⟩

theorem test_witness_PacketsForThisUnitAreTaken_9 : ∃ (s : State) (t : State) (q : Fin 16) (p : DftPacket), Arrives s q p 5 t :=
  ⟨fab, (arrived (fab) (pk 5)), 3, (pk 5), ⟨by decide, by decide, by decide, by decide, Or.inl (by decide), by decide, Prod.ext rfl (by decide)⟩⟩

theorem test_witness_PacketsForThisUnitAreTaken_10 : ∃ (s : State) (t : State) (q : Fin 16) (p : DftPacket), Arrives s q p 4 t ∧ p.ackv = true :=
  ⟨fab, (arrived (fab) (pk 4)), 3, (pk 4), ⟨by decide, by decide, by decide, by decide, Or.inl (by decide), by decide, Prod.ext rfl (by decide)⟩, by decide⟩

theorem test_witness_PacketsForThisUnitAreTaken_11 : ∃ (s : State) (t : State) (q : Fin 16) (p : DftPacket), Arrives s q p 6 t :=
  ⟨fab, (fab.frameIn 3 (pk 6)).1, 3, (pk 6), (⟨by decide, by decide, by decide, by decide, Or.inl (by decide), by decide, rfl⟩)⟩

theorem test_witness_PacketsForThisUnitAreTaken_12 : ∃ (s : State) (q : Fin 16) (p : DftPacket) (c : Instr), (c = .dftWrite q p ∨ c = .dftRead q p ∨ c = .readData q p ∨ c = .nak q p ∨ c = .ack q p ∨ c = .credit q p ∨ c = .packetForward q p ∨ c = .resync q p ∨ c = .resyncAck q p) ∧ s.life = .running ∧ s.portUp (.peer q) = true ∧ s.frameOk p = false :=
  ⟨fab, 3, ({ pk 1 with ver := 2 }), (.resyncAck 3 ({ pk 1 with ver := 2 })), (Or.inr (Or.inr (Or.inr (Or.inr (Or.inr (Or.inr (Or.inr (Or.inr (rfl))))))))), by decide, by decide, by decide⟩

theorem test_witness_ConnectionsRecover_0 : ∃ (s : State) (q : Nat) (l : List Egress) (e : Egress) (a : PortArb), s.pickEgress q l = some (e, a) :=
  ⟨fab, 3, ([⟨0, none, pk 1, none⟩]), ⟨0, none, pk 1, none⟩, ⟨15, [(2, 31)], 2, false⟩, by decide⟩

theorem test_witness_ConnectionsRecover_1 : ∃ (s : State) (q : Fin 16) (p : DftPacket) (dir : Nat), s.life = .running ∧ s.portUp (.peer q) = true ∧ s.frameOk p = true ∧ p.dst.toNat ≠ s.self ∧ linkScope p = false ∧ (s.frameIn q p).2 = true ∧ 1 < p.hop ∧ (s.frameIn q p).1.member p.dst.toNat = true ∧ (s.frameIn q p).1.route p.dst.toNat = some dir :=
  ⟨fab, 3, ({ pk 1 with dst := 6 }), 1, by decide, by decide, by decide, by decide, by decide, by decide, (by decide), by decide, by decide⟩

theorem test_witness_ConnectionsRecover_2 : ∃ (s : State) (q : Fin 16) (p : DftPacket), s.life = .running ∧ s.portUp (.peer q) = true ∧ s.frameOk p = true ∧ p.dst.toNat ≠ s.self ∧ linkScope p = false ∧ (s.frameIn q p).2 = true ∧ p.hop ≤ 1 :=
  ⟨fab, 3, ({ pk 1 with dst := 7, hop := 1 }), by decide, by decide, by decide, by decide, by decide, by decide, (by decide)⟩

theorem test_witness_ConnectionsRecover_3 : ∃ (s : State) (q : Fin 16) (vc : Fin 8) (cls : Fin 4) (n : Nat), s.life = .running ∧ s.portUp (.peer q) = true ∧ s.creditsHeld q.val vc.val = false ∧ tget 0 s.freed (creditKey q.val vc.val cls.val) = n ∧ 0 < n ∧ n ≤ 2047 :=
  ⟨({ fab with freed := [(creditKey 3 2 1, 2047)] } : State), 3, 2, 1, 2047, by decide, by decide, by decide, by decide, by decide, by decide⟩

theorem test_witness_ConnectionsRecover_4 : ∃ (s : State) (c : ConnId) (n : Nat) (o : OutPkt), s.life = .running ∧ (s.conn c.unit.toNat c.vc.val).out.find? (fun o => o.pkt.seq == n) = some o ∧ o.sent + s.rto o.tries ≤ s.now ∧ o.tries < s.fld fabTmo FAB_TMO.RETRY :=
  ⟨({ fab.setConn 6 2 { Conn.fresh with out := [⟨pk 1, [], 0, 0, false⟩] } with now := 2 ^ 40 } : State).setFld fabTmo FAB_TMO.RETRY 1, ⟨6, 2⟩, 0, ⟨pk 1, [], 0, 0, false⟩, by decide, by decide, by decide, by decide⟩

theorem test_witness_ConnectionsRecover_5 : ∃ (s : State) (c : ConnId) (n : Nat) (o : OutPkt), s.life = .running ∧ (s.conn c.unit.toNat c.vc.val).out.find? (fun o => o.pkt.seq == n) = some o ∧ o.sent + s.rto o.tries ≤ s.now ∧ s.fld fabTmo FAB_TMO.RETRY ≤ o.tries :=
  ⟨({ fab.setConn 6 2 { Conn.fresh with out := [⟨pk 1, [], 0, 1, false⟩] } with now := 2 ^ 40 } : State).setFld fabTmo FAB_TMO.RETRY 1, ⟨6, 2⟩, 0, ⟨pk 1, [], 0, 1, false⟩, by decide, by decide, by decide, by decide⟩

theorem test_witness_ConnectionsRecover_7 : ∃ (s : State) (t : State) (q : Fin 16) (p : DftPacket), Managed s q p 4 t :=
  ⟨fab, (fab.frameIn 3 (mg 4)).1.freeCells 3 0 (pktClass (mg 4)) (pktCells (mg 4)), 3, (mg 4), ⟨by decide, by decide, by decide, by decide, by decide, by decide, by decide, (by decide), rfl⟩⟩

theorem test_witness_ConnectionsRecover_8 : ∃ (s : State) (t : State) (q : Fin 16) (p : DftPacket), Managed s q p 5 t :=
  ⟨fab, (fab.frameIn 3 (mg 5)).1.freeCells 3 0 (pktClass (mg 5)) (pktCells (mg 5)), 3, (mg 5), ⟨by decide, by decide, by decide, by decide, by decide, by decide, by decide, (by decide), rfl⟩⟩

theorem test_witness_ConnectionsRecover_9 : ∃ (s : State) (c : ConnId) (e : Nat) (n : Nat), s.life = .running ∧ (s.conn c.unit.toNat c.vc.val).resync = some (e, n) ∧ n + s.rto 0 ≤ s.now :=
  ⟨({ fab.setConn 6 2 { Conn.fresh with resync := some (1, 0) } with now := 2 ^ 40 } : State), ⟨6, 2⟩, 1, 0, by decide, by decide, by decide⟩

theorem test_witness_CollectivesRun_0 : ∃ (s : State) (t : State) (io : Die) (r : CollRun), CollStart s io.val 1 r t :=
  ⟨(collS 1), _, 0, (((collS 1).collTaken 0 (2 * 2 ^ 44) none []).1.collOf 0 none (collD 1)).get (by decide +kernel), (⟨by decide, by decide, by decide, 2 * 2 ^ 44, none, [], collD 1, rfl, by decide +kernel, by decide, by decide +kernel, (Option.some_get _).symm, Prod.ext rfl (by decide +kernel)⟩)⟩

theorem test_witness_CollectivesRun_1 : ∃ (s : State) (t : State) (io : Die) (r : CollRun), CollStart s io.val 2 r t :=
  ⟨(collS 2), _, 0, (((collS 2).collTaken 0 (2 * 2 ^ 44) none []).1.collOf 0 none (collD 2)).get (by decide +kernel), (⟨by decide, by decide, by decide, 2 * 2 ^ 44, none, [], collD 2, rfl, by decide +kernel, by decide, by decide +kernel, (Option.some_get _).symm, Prod.ext rfl (by decide +kernel)⟩)⟩

theorem test_witness_CollectivesRun_2 : ∃ (s : State) (t : State) (io : Die) (r : CollRun), CollStart s io.val 3 r t :=
  ⟨(collS 3), _, 0, (((collS 3).collTaken 0 (2 * 2 ^ 44) none []).1.collOf 0 none (collD 3)).get (by decide +kernel), (⟨by decide, by decide, by decide, 2 * 2 ^ 44, none, [], collD 3, rfl, by decide +kernel, by decide, by decide +kernel, (Option.some_get _).symm, Prod.ext rfl (by decide +kernel)⟩)⟩

theorem test_witness_CollectivesRun_3 : ∃ (s : State) (t : State) (io : Die) (r : CollRun), CollStart s io.val 4 r t :=
  ⟨(collS 4), _, 0, (((collS 4).collTaken 0 (2 * 2 ^ 44) none []).1.collOf 0 none (collD 4)).get (by decide +kernel), (⟨by decide, by decide, by decide, 2 * 2 ^ 44, none, [], collD 4, rfl, by decide +kernel, by decide, by decide +kernel, (Option.some_get _).symm, Prod.ext rfl (by decide +kernel)⟩)⟩

theorem test_witness_CollectivesRun_4 : ∃ (s : State) (c : Instr) (op : Nat) (io : Die) (a : Nat) (who : Option Nat) (rest : List (Nat × Option Nat)), (c = .reduceScatter io ∧ op = 1 ∨ c = .allGather io ∧ op = 2 ∨ c = .allReduce io ∧ op = 3 ∨ c = .normred io ∧ op = 4) ∧ s.life = .running ∧ (s.coll io.val).run = none ∧ (s.coll io.val).queue = (a, who) :: rest ∧ s.collWaits io.val = false ∧ (s.collDesc who a = none ∨ ∃ d, s.collDesc who a = some d ∧ dword d 0 % 16 = op ∧ (s.collTaken io.val a who rest).2 = false ∧ (s.collTaken io.val a who rest).1.collOf io.val who d = none) :=
  ⟨({ r0 with colls := [(3, ⟨[(7, some 1)], none, []⟩)] } : State), (.reduceScatter 3), 1, 3, 7, (some 1), [], (Or.inl ⟨rfl, rfl⟩), by decide, by decide, by decide, by decide, (Or.inl (by decide))⟩

theorem test_witness_CollectivesRun_7_0 : ∃ (s : State) (t : State) (q : Fin 16) (p : DftPacket) (r : CollRun), Arrives s q p 7 t ∧ (t.coll (collEngine p)).run = some r ∧ r.takes p = true ∧ collCop p = 0 :=
  ⟨({ fab with colls := [(0, ⟨[], some collR, []⟩)] } : State), (arrived { fab with colls := [(0, ⟨[], some collR, []⟩)] } ({ pk 7 with addr := 0 * 2 ^ 56 })), 3, ({ pk 7 with addr := 0 * 2 ^ 56 }), collR, ⟨by decide, by decide, by decide, by decide, Or.inl (by decide), by decide, Prod.ext rfl (by decide)⟩, by decide, by decide, by decide⟩

theorem test_witness_CollectivesRun_7_1 : ∃ (s : State) (t : State) (q : Fin 16) (p : DftPacket) (r : CollRun), Arrives s q p 7 t ∧ (t.coll (collEngine p)).run = some r ∧ r.takes p = true ∧ collCop p = 1 :=
  ⟨({ fab with colls := [(0, ⟨[], some collR, []⟩)] } : State), (arrived { fab with colls := [(0, ⟨[], some collR, []⟩)] } ({ pk 7 with addr := 1 * 2 ^ 56 })), 3, ({ pk 7 with addr := 1 * 2 ^ 56 }), collR, ⟨by decide, by decide, by decide, by decide, Or.inl (by decide), by decide, Prod.ext rfl (by decide)⟩, by decide, by decide, by decide⟩

theorem test_witness_CollectivesRun_7_2 : ∃ (s : State) (t : State) (q : Fin 16) (p : DftPacket) (r : CollRun), Arrives s q p 7 t ∧ (t.coll (collEngine p)).run = some r ∧ r.takes p = true ∧ collCop p = 2 :=
  ⟨({ fab with colls := [(0, ⟨[], some collR, []⟩)] } : State), (arrived { fab with colls := [(0, ⟨[], some collR, []⟩)] } ({ pk 7 with addr := 2 * 2 ^ 56 })), 3, ({ pk 7 with addr := 2 * 2 ^ 56 }), collR, ⟨by decide, by decide, by decide, by decide, Or.inl (by decide), by decide, Prod.ext rfl (by decide)⟩, by decide, by decide, by decide⟩

theorem test_witness_CollectivesRun_8_0 : ∃ (s : State) (t : State) (q : Fin 16) (p : DftPacket), Arrives s q p 7 t ∧ (t.coll (collEngine p)).run = none ∧ t.collAhead p = true ∧ collCop p = 1 :=
  ⟨fab, (arrived fab ({ pk 7 with addr := 1 * 2 ^ 56 })), 3, ({ pk 7 with addr := 1 * 2 ^ 56 }), ⟨by decide, by decide, by decide, by decide, Or.inl (by decide), by decide, Prod.ext rfl (by decide)⟩, by decide, by decide, by decide⟩

theorem test_witness_CollectivesRun_8_1 : ∃ (s : State) (t : State) (q : Fin 16) (p : DftPacket), Arrives s q p 7 t ∧ (t.coll (collEngine p)).run = none ∧ t.collAhead p = true ∧ collCop p = 2 :=
  ⟨fab, (arrived fab ({ pk 7 with addr := 2 * 2 ^ 56 })), 3, ({ pk 7 with addr := 2 * 2 ^ 56 }), ⟨by decide, by decide, by decide, by decide, Or.inl (by decide), by decide, Prod.ext rfl (by decide)⟩, by decide, by decide, by decide⟩

theorem test_witness_CollectivesRun_9 : ∃ (s : State) (io : Die) (r : CollRun), s.life = .running ∧ (s.coll io.val).run = some r ∧ r.ended = none ∧ r.since + ms (2 ^ r.tmo) ≤ s.now :=
  ⟨({ r0 with colls := [(3, ⟨[], some collR, []⟩)], now := 1100000 } : State), 3, collR, by decide, by decide, by decide, by decide⟩

theorem test_witness_CollectivesRun_10 : ∃ (s : State) (io : Die) (r : CollRun) (st : Status), s.life = .running ∧ (s.coll io.val).run = some r ∧ r.ended = some st ∧ s.collWaits io.val = false :=
  ⟨({ r0 with colls := [(3, ⟨[], some { collR with ended := some .timeout }, []⟩)] } : State), 3, ({ collR with ended := some .timeout }), .timeout, by decide, by decide, by decide, by decide⟩

theorem test_witness_PacketsAndSessionsAreKept_0_0 : ∃ (s : State) (h : Fin 2) (p : HostPacket), s.life = .running ∧ s.portUp (.host h) = true ∧ s.receiving h.val = false ∧ s.hostTakes h.val p = false :=
  ⟨up0, 0, ({ hpk with tags := [5] }), by decide, by decide, by decide, by decide⟩

theorem test_witness_PacketsAndSessionsAreKept_0_1 : ∃ (s : State) (h : Fin 2) (p : HostPacket), s.life = .running ∧ s.portUp (.host h) = true ∧ s.receiving h.val = false ∧ s.hostTakes h.val p = true ∧ netUdp p.net = false :=
  ⟨up0, 0, ({ hpk with net := .arp 5 }), by decide, by decide, by decide, by decide, by decide⟩

theorem test_witness_PacketsAndSessionsAreKept_0_2 : ∃ (s : State) (h : Fin 2) (p : HostPacket), s.life = .running ∧ s.portUp (.host h) = true ∧ s.receiving h.val = false ∧ s.hostTakes h.val p = true ∧ netUdp p.net = true ∧ s.hasRoom h.val p = false :=
  ⟨(up0.setFld (hp .HP_FIFO_PTR 0) HP_FIFO_PTR.TAIL 4096), 0, hpk, by decide, by decide, by decide, by decide, by decide, by decide⟩

theorem test_witness_PacketsAndSessionsAreKept_0_3 : ∃ (s : State) (h : Fin 2) (p : HostPacket), s.life = .running ∧ s.portUp (.host h) = true ∧ s.receiving h.val = false ∧ s.hostTakes h.val p = true ∧ netUdp p.net = true ∧ s.hasRoom h.val p = true ∧ s.verdict h.val p = 4 :=
  ⟨up0, 0, ({ hpk with complete := false }), by decide, by decide, by decide, by decide, by decide, by decide, (by decide)⟩

theorem test_witness_PacketsAndSessionsAreKept_0_4 : ∃ (s : State) (h : Fin 2) (p : HostPacket), s.life = .running ∧ s.portUp (.host h) = true ∧ s.receiving h.val = false ∧ s.hostTakes h.val p = true ∧ netUdp p.net = true ∧ s.hasRoom h.val p = true ∧ s.verdict h.val p = 2 :=
  ⟨up0, 0, ({ hpk with session := 5 }), by decide, by decide, by decide, by decide, by decide, by decide, (by decide)⟩

theorem test_witness_PacketsAndSessionsAreKept_0_5 : ∃ (s : State) (h : Fin 2) (p : HostPacket), s.life = .running ∧ s.portUp (.host h) = true ∧ s.receiving h.val = false ∧ s.hostTakes h.val p = true ∧ netUdp p.net = true ∧ s.hasRoom h.val p = true ∧ s.verdict h.val p = 0 ∧ p.fifo.any (fun u => u.uncorr && u.row == 0) = true :=
  ⟨up0, 0, ({ hpk with fifo := [⟨0, true⟩] }), by decide, by decide, by decide, by decide, by decide, by decide, (by decide), by decide⟩

theorem test_witness_PacketsAndSessionsAreKept_0_6 : ∃ (s : State) (h : Fin 2) (p : HostPacket), s.life = .running ∧ s.portUp (.host h) = true ∧ s.receiving h.val = false ∧ s.hostTakes h.val p = true ∧ netUdp p.net = true ∧ s.hasRoom h.val p = true ∧ s.verdict h.val p = 0 ∧ isHello p = true ∧ p.fifo.any (fun u => u.uncorr && u.row == 0) = false :=
  ⟨up0, 0, hpk, by decide, by decide, by decide, by decide, by decide, by decide, (by decide), by decide, by decide⟩

theorem test_witness_PacketsAndSessionsAreKept_1 : ∃ (s : State) (h : Fin 2) (k : FifoPkt), s.life = .running ∧ (s.rx h.val).pkts.find? (fun q => !q.closed) = some k ∧ k.since + 22000 ≤ s.now ∧ (s.rx h.val).dropping = false :=
  ⟨({ r0 with hostRx := [(0, { HostRx.empty with pkts := [⟨0, 1, 0, 0, 0, 0, false⟩] })], now := 22000 } : State), 0, ⟨0, 1, 0, 0, 0, 0, false⟩, by decide, by decide, by decide, by decide⟩

theorem test_witness_PacketsAndSessionsAreKept_2 : ∃ (s : State) (h : Fin 2) (lo : Nat) (hi : Nat) (w : Nat) (key : List Byte) (i : HelloIn) (rest : List HelloIn) (v : Nat) (n : Nat), s.life = .running ∧ (s.rx h.val).hellos = i :: rest ∧ i.resv = false ∧ i.plen = 8 ∧ chooseVersion lo hi = some v ∧ key.length = 1568 ∧ 1 ≤ w ∧ w ≤ 255 ∧ hi ≤ 65535 ∧ findIdx (fun i => (tget? s.sessions (sesKey h.val i)).isNone) 256 = some n :=
  ⟨({ r0 with hostRx := [(0, { HostRx.empty with hellos := [⟨false, 8, peer⟩] })] } : State), 0, 0x300, 0x400, 255, (List.replicate 1568 0), ⟨false, 8, peer⟩, [], 0x400, 0, by decide, by decide, by decide, by decide, by decide, (List.length_replicate), by decide, by decide, by decide, by decide⟩

theorem test_witness_PacketsAndSessionsAreKept_3 : ∃ (s : State) (h : Fin 2) (lo : Nat) (hi : Nat) (w : Nat) (key : List Byte) (i : HelloIn) (rest : List HelloIn), s.life = .running ∧ (s.rx h.val).hellos = i :: rest ∧ (i.resv = true ∨ i.plen ≠ 8 ∨ key.length ≠ 1568 ∨ chooseVersion lo hi = none) :=
  ⟨({ r0 with hostRx := [(0, { HostRx.empty with hellos := [⟨true, 8, peer⟩] })] } : State), 0, 0x300, 0x400, 255, [], ⟨true, 8, peer⟩, [], by decide, by decide, (Or.inl rfl)⟩

theorem test_witness_PacketsAndSessionsAreKept_4_0 : ∃ (s : State) (q : DcpHdr) (role : Nat) (d : List Byte) (sig : HostSig) (k : Nat) (x : Session) (u : State), s.life = .running ∧ s.turn q 2 = some (k, x) ∧ x.open' = false ∧ s.landRead q.port.val x.lease (x.landing q.seq) = (u, false) ∧ q.seq = 1 ∧ q.poisoned = false ∧ x.spoiled q.seq = false ∧ x.oddHeader q.seq = false ∧ q.verMajor = x.verMajor ∧ q.verMinor ≤ x.verMinor ∧ q.plen = 8 ∧ q.dlen = 3073 ∧ q.resv = false ∧ role = 1 ∧ u.minimal = false ∧ x.signedBy d 1 sig = true ∧ tget? s.leaseKeys q.lease.val = some d :=
  ⟨({ r0 with sessions := [(3, { ses 2 none with open' := false })], leaseKeys := [(1, [7])] } : State), ({ hd 1 8 3073 with seq := 1 }), 1, [7], .signed, 3, ({ ses 2 none with open' := false }), _, by decide, by decide, by decide, (rfl), by decide, by decide, by decide, by decide, by decide, by decide, (by decide), by decide, by decide, by decide, by decide, by decide, by decide⟩

theorem test_witness_PacketsAndSessionsAreKept_4_1 : ∃ (s : State) (q : DcpHdr) (role : Nat) (d : List Byte) (sig : HostSig) (k : Nat) (x : Session) (u : State), s.life = .running ∧ s.turn q 2 = some (k, x) ∧ x.open' = false ∧ s.landRead q.port.val x.lease (x.landing q.seq) = (u, false) ∧ q.seq = 1 ∧ q.poisoned = false ∧ x.spoiled q.seq = false ∧ x.oddHeader q.seq = false ∧ q.verMajor = x.verMajor ∧ q.verMinor ≤ x.verMinor ∧ q.plen = 8 ∧ q.dlen = 3073 ∧ q.resv = false ∧ role = 0 ∧ q.lease = 0 ∧ x.signedBy d 0 sig = true ∧ s.mgmtKeys.contains d = true ∧ u.mgmtKeys.isEmpty = false :=
  ⟨({ r0 with sessions := [(3, { ses 2 none with open' := false })], mgmtKeys := [[7]] } : State), (hd 0 8 3073), 0, [7], .signed, 3, ({ ses 2 none with open' := false }), _, by decide, by decide, by decide, (rfl), by decide, by decide, by decide, by decide, by decide, by decide, (by decide), by decide, by decide, by decide, by decide, by decide, by decide, (by decide)⟩

theorem test_witness_PacketsAndSessionsAreKept_4_2 : ∃ (s : State) (q : DcpHdr) (role : Nat) (d : List Byte) (sig : HostSig) (k : Nat) (x : Session) (u : State), s.life = .running ∧ s.turn q 2 = some (k, x) ∧ x.open' = false ∧ s.landRead q.port.val x.lease (x.landing q.seq) = (u, false) ∧ q.seq = 1 ∧ q.poisoned = false ∧ x.spoiled q.seq = false ∧ x.oddHeader q.seq = false ∧ q.verMajor = x.verMajor ∧ q.verMinor ≤ x.verMinor ∧ q.plen = 8 ∧ q.dlen = 3073 ∧ q.resv = false ∧ role = 1 ∧ u.minimal = false ∧ x.signedBy d 1 sig = false :=
  ⟨({ r0 with sessions := [(3, { ses 2 none with open' := false })] } : State), (hd 1 8 3073), 1, [7], (.given []), 3, ({ ses 2 none with open' := false }), _, by decide, by decide, by decide, (rfl), by decide, by decide, by decide, by decide, by decide, by decide, (by decide), by decide, by decide, by decide, by decide, by decide⟩

theorem test_witness_PacketsAndSessionsAreKept_6_0 : ∃ (s : State) (h : Fin 2) (id : Nat) (k : Nat) (x : Session), s.life = .running ∧ s.findSession h.val id = some (k, x) ∧ x.open' = false ∧ x.cmds.any (fun c => c.opcode == 2) = false ∧ x.since + 1100000000 ≤ s.now :=
  ⟨({ r0 with sessions := [(3, { ses 2 none with cmds := [], open' := false })], now := 1100000000 } : State), 0, 77, 3, ({ ses 2 none with cmds := [], open' := false }), by decide, by decide, by decide, by decide, by decide⟩

theorem test_witness_PacketsAndSessionsAreKept_6_1 : ∃ (s : State) (h : Fin 2) (id : Nat) (k : Nat) (x : Session), s.life = .running ∧ s.findSession h.val id = some (k, x) ∧ x.open' = true ∧ x.cmds = [] ∧ x.lastPkt + 33000000000 ≤ s.now :=
  ⟨({ r0 with sessions := [(3, { ses 4 none with cmds := [] })], now := 33000000000 } : State), 0, 77, 3, ({ ses 4 none with cmds := [] }), by decide, by decide, by decide, by decide, by decide⟩

theorem test_witness_PacketsAndSessionsAreKept_6_2 : ∃ (s : State) (h : Fin 2) (id : Nat) (k : Nat) (x : Session) (c : _), s.life = .running ∧ s.findSession h.val id = some (k, x) ∧ x.cmds.find? (fun c => match c.begun with | some b => decide (b.1 + b.2 ≤ s.now) | none => false) = some c :=
  ⟨({ r0 with sessions := [(3, { ses 4 none with cmds := [⟨1, 4, 0, 4, 0, some (0, 9), none, false, false, (0, 0), none, none, [], false⟩] })], now := 9 } : State), 0, 77, 3, ({ ses 4 none with cmds := [⟨1, 4, 0, 4, 0, some (0, 9), none, false, false, (0, 0), none, none, [], false⟩] }), ⟨1, 4, 0, 4, 0, some (0, 9), none, false, false, (0, 0), none, none, [], false⟩, by decide, by decide, by decide⟩

theorem test_witness_PacketsAndSessionsAreKept_6_3 : ∃ (s : State) (h : Fin 2) (id : Nat) (k : Nat) (x : Session), s.life = .running ∧ s.findSession h.val id = some (k, x) ∧ (∃ e, e ∈ x.events ∧ e.sent + 11000000 ≤ s.now ∧ 16 ≤ e.tries) :=
  ⟨({ r0 with sessions := [(3, { ses 4 none with events := [⟨0, 0x8001, .ok, [], 0, 16⟩] })], now := 11000000 } : State), 0, 77, 3, ({ ses 4 none with events := [⟨0, 0x8001, .ok, [], 0, 16⟩] }), by decide, by decide, (⟨⟨0, 0x8001, .ok, [], 0, 16⟩, by decide, by decide, by decide⟩)⟩

theorem test_witness_PacketsAndSessionsAreKept_6_4 : ∃ (s : State) (h : Fin 2) (id : Nat) (k : Nat) (x : Session) (e : _), s.life = .running ∧ s.findSession h.val id = some (k, x) ∧ x.events = [e] ∧ e.sent + 11000000 ≤ s.now ∧ e.tries < 16 :=
  ⟨({ r0 with sessions := [(3, { ses 4 none with events := [⟨0, 0x8001, .ok, [], 0, 15⟩] })], now := 11000000 } : State), 0, 77, 3, ({ ses 4 none with events := [⟨0, 0x8001, .ok, [], 0, 15⟩] }), ⟨0, 0x8001, .ok, [], 0, 15⟩, by decide, by decide, by decide, by decide, by decide⟩

theorem test_witness_PacketsAndSessionsAreKept_7 : ∃ (s : State) (k : Nat) (x : Session) (j : _), tget? s.sessions k = some x ∧ j ≠ k :=
  ⟨(dcp 4 none), 3, (ses 4 none), 4, by decide, by decide⟩

theorem test_witness_RepliesAreKeptAndSent_0 : ∃ (s : State) (k : Nat) (x : Session) (c : DcpCmd) (r : DcpReply), tget? s.sessions k = some x ∧ x.cmds = [c] ∧ c.seq = r.seq ∧ 1 ≤ x.window :=
  ⟨(dcp 4 none), 3, (ses 4 none), ⟨1, 4, 0, 4, 0, none, none, false, false, (0, 0), none, none, [], false⟩, ⟨1, 4, .ok, [], []⟩, by decide, by decide, by decide, by decide⟩

theorem test_witness_UnitCommandsAreAnswered_0 : ∃ (s : State) (q : DcpHdr) (k : Nat) (x : Session) (u : State), Performs s q 4 0 0 true k x u :=
  ⟨(dcp 0x4 none), (hd 0 0 0), 3, (ses 0x4 none), (dcp 0x4 none), (⟨by decide, by decide, rfl, by decide, by decide, by decide, by decide, by decide, by decide⟩)⟩

theorem test_witness_UnitCommandsAreAnswered_1 : ∃ (s : State) (q : DcpHdr) (k : Nat) (x : Session) (u : State), Performs s q 3 0 0 true k x u :=
  ⟨(dcp 0x3 (some 1)), (hd 1 0 0), 3, (ses 0x3 (some 1)), (dcp 0x3 (some 1)), (⟨by decide, by decide, rfl, by decide, by decide, by decide, by decide, by decide, by decide⟩)⟩

theorem test_witness_UnitCommandsAreAnswered_2 : ∃ (s : State) (q : DcpHdr) (n : Nat) (k : Nat) (x : Session) (u : State), Performs s q 5 8 0 true k x u ∧ n < 2 ^ 32 :=
  ⟨(dcp 0x5 (some 1)), (hd 1 8 0), (2 ^ 32 - 1), 3, (ses 0x5 (some 1)), (dcp 0x5 (some 1)), (⟨by decide, by decide, rfl, by decide, by decide, by decide, by decide, by decide, by decide⟩), by decide⟩

theorem test_witness_UnitCommandsAreAnswered_3 : ∃ (s : State) (q : DcpHdr) (k : Nat) (x : Session) (u : State), Performs s q 0x0101 0 0 true k x u :=
  ⟨(dcp 0x101 (some 1)), (hd 1 0 0), 3, (ses 0x101 (some 1)), (dcp 0x101 (some 1)), (⟨by decide, by decide, rfl, by decide, by decide, by decide, by decide, by decide, by decide⟩)⟩

theorem test_witness_UnitCommandsAreAnswered_4 : ∃ (s : State) (q : DcpHdr) (nonce : List Byte) (k : Nat) (x : Session) (u : State), Performs s q 0x0102 32 0 true k x u ∧ nonce.length = 32 :=
  ⟨(dcp 0x102 none), (hd 0 32 0), (List.replicate 32 0), 3, (ses 0x102 none), (dcp 0x102 none), (⟨by decide, by decide, rfl, by decide, by decide, by decide, by decide, by decide, by decide⟩), by decide⟩

theorem test_witness_UnitCommandsAreAnswered_5 : ∃ (s : State) (q : DcpHdr) (k : Nat) (x : Session) (u : State), Performs s q 0x0103 0 0 true k x u :=
  ⟨(dcp 0x103 none), (hd 0 0 0), 3, (ses 0x103 none), (dcp 0x103 none), (⟨by decide, by decide, rfl, by decide, by decide, by decide, by decide, by decide, by decide⟩)⟩

theorem test_witness_UnitCommandsAreAnswered_6 : ∃ (s : State) (q : DcpHdr) (n : Nat) (k : Nat) (x : Session) (u : State), Performs s q 0x0601 8 0 true k x u ∧ n ≤ 134217728 :=
  ⟨(dcp 0x601 none), (hd 0 8 0), 134217728, 3, (ses 0x601 none), (dcp 0x601 none), (⟨by decide, by decide, rfl, by decide, by decide, by decide, by decide, by decide, by decide⟩), by decide⟩

theorem test_witness_UnitCommandsAreAnswered_7 : ∃ (s : State) (q : DcpHdr) (off : Nat) (data : List Byte) (k : Nat) (x : Session) (u : State) (y : StagedImage), Performs s q 0x0602 8 data.length true k x u ∧ 1 ≤ data.length ∧ data.length ≤ 8192 ∧ u.staged = some y ∧ off + data.length ≤ y.total :=
  ⟨({ dcp 0x602 none with staged := some ⟨1, []⟩ } : State), (hd 0 8 1), 0, [7], 3, (ses 0x602 none), ({ dcp 0x602 none with staged := some ⟨1, []⟩ } : State), ⟨1, []⟩, (⟨by decide, by decide, rfl, by decide, by decide, by decide, by decide, by decide, by decide⟩), by decide, by decide, by decide, by decide⟩

theorem test_witness_UnitCommandsAreAnswered_8 : ∃ (s : State) (q : DcpHdr) (k : Nat) (x : Session) (u : State) (y : StagedImage), Performs s q 0x0603 0 0 true k x u ∧ u.staged = some y ∧ y.whole = true ∧ s.flashWrite = none :=
  ⟨({ dcp 0x603 none with staged := some ⟨1, [(0, [7])]⟩ } : State), (hd 0 0 0), 3, (ses 0x603 none), ({ dcp 0x603 none with staged := some ⟨1, [(0, [7])]⟩ } : State), ⟨1, [(0, [7])]⟩, (⟨by decide, by decide, rfl, by decide, by decide, by decide, by decide, by decide, by decide⟩), by decide, by decide, by decide⟩

theorem test_witness_UnitCommandsAreAnswered_9 : ∃ (s : State) (q : DcpHdr) (k : Nat) (x : Session) (u : State), Performs s q 0x0604 0 0 true k x u :=
  ⟨(dcp 0x604 none), (hd 0 0 0), 3, (ses 0x604 none), (dcp 0x604 none), (⟨by decide, by decide, rfl, by decide, by decide, by decide, by decide, by decide, by decide⟩)⟩

theorem test_witness_UnitCommandsAreAnswered_10 : ∃ (s : State) (q : DcpHdr) (a : BitVec 16) (k : Nat) (x : Session) (u : State), Performs s q 0x0701 8 0 true k x u ∧ 1 ≤ a.toNat ∧ a.toNat ≤ 0xFFFE ∧ a.toNat ≠ u.self ∧ u.fld fabCfg FAB_CFG.ENABLE = 0 :=
  ⟨(dcp 0x701 none), (hd 0 8 0), 0xFFFE, 3, (ses 0x701 none), (dcp 0x701 none), (⟨by decide, by decide, rfl, by decide, by decide, by decide, by decide, by decide, by decide⟩), by decide, by decide, by decide, by decide⟩

theorem test_witness_UnitCommandsAreAnswered_11 : ∃ (s : State) (w : FlashWrite), s.flashWrite = some w :=
  ⟨({ r0 with flashWrite := some ⟨3, 1, [4#8, 5#8]⟩ } : State), ⟨3, 1, [4#8, 5#8]⟩, by decide⟩

theorem test_witness_UnitCommandsAreAnswered_12 : ∃ (s : State) (w : FlashWrite) (l : Life), s.flashWrite = some w :=
  ⟨({ r0 with flashWrite := some ⟨3, 1, [4#8, 5#8]⟩ } : State), ⟨3, 1, [4#8, 5#8]⟩, .unpowered, by decide⟩

theorem test_witness_DiagnosticAndMemoryCommandsAct_0_0 : ∃ (s : State) (q : DcpHdr) (l : List Word) (k : Nat) (x : Session) (u : State), Performs s q 0x0104 (8 + 8 * l.length) 0 true k x u ∧ 1 ≤ l.length ∧ l.length ≤ 63 ∧ (u.readAll x.actor (l.map (·.toNat))).2.1 = .ok :=
  ⟨(dcp 0x104 none), (hd 0 16 0), ([BitVec.ofNat 64 clkMon.addr]), 3, (ses 0x104 none), (dcp 0x104 none), (⟨by decide, by decide, rfl, by decide, by decide, by decide, by decide, by decide, by decide⟩), by decide, by decide, by decide⟩

theorem test_witness_DiagnosticAndMemoryCommandsAct_0_1 : ∃ (s : State) (q : DcpHdr) (l : List Word) (k : Nat) (x : Session) (u : State), Performs s q 0x0104 (8 + 8 * l.length) 0 true k x u ∧ 1 ≤ l.length ∧ l.length ≤ 63 ∧ (u.readAll x.actor (l.map (·.toNat))).2.1 ≠ .ok :=
  ⟨(dcp 0x104 none), (hd 0 16 0), [0], 3, (ses 0x104 none), (dcp 0x104 none), (⟨by decide, by decide, rfl, by decide, by decide, by decide, by decide, by decide, by decide⟩), by decide, by decide, by decide⟩

theorem test_witness_DiagnosticAndMemoryCommandsAct_1 : ∃ (s : State) (q : DcpHdr) (l : List (Word × Word)) (k : Nat) (x : Session) (u : State) (v : _) (st : _) (n : _), Performs s q 0x0105 (8 + 16 * l.length) 0 true k x u ∧ 1 ≤ l.length ∧ l.length ≤ 31 ∧ u.writeAll x.actor k q.seq ((l.map (fun w => (w.1.toNat, w.2.toNat))).drop (x.written q.seq)) (x.written q.seq) = (v, some st, n) :=
  ⟨(dcp 0x105 none), (hd 0 24 0), ([(0, 0)]), 3, (ses 0x105 none), (dcp 0x105 none), _, _, _, (⟨by decide, by decide, rfl, by decide, by decide, by decide, by decide, by decide, by decide⟩), by decide, by decide, (rfl)⟩

theorem test_witness_DiagnosticAndMemoryCommandsAct_2_0 : ∃ (s : State) (q : DcpHdr) (a : Word) (n : Nat) (k : Nat) (x : Session) (u : State) (st : _), Performs s q 0x0201 16 0 true k x u ∧ 1 ≤ n ∧ n ≤ 8192 ∧ u.memCheck x.actsFor a.toNat n = some st :=
  ⟨(dcp 0x201 (some 1)), (hd 1 16 0), (BitVec.allOnes 64), 8192, 3, (ses 0x201 (some 1)), (dcp 0x201 (some 1)), .range, (⟨by decide, by decide, rfl, by decide, by decide, by decide, by decide, by decide, by decide⟩), by decide, by decide, by decide⟩

theorem test_witness_DiagnosticAndMemoryCommandsAct_2_1 : ∃ (s : State) (q : DcpHdr) (a : Word) (n : Nat) (k : Nat) (x : Session) (u : State), Performs s q 0x0201 16 0 true k x u ∧ 1 ≤ n ∧ n ≤ 8192 ∧ u.memCheck x.actsFor a.toNat n = none :=
  ⟨({ dcp 0x201 (some 1) with frames := [⟨false, 0, 0, 8, 1⟩] } : State), (hd 1 16 0), 511, 1, 3, (ses 0x201 (some 1)), ({ dcp 0x201 (some 1) with frames := [⟨false, 0, 0, 8, 1⟩] } : State), (⟨by decide, by decide, rfl, by decide, by decide, by decide, by decide, by decide, by decide⟩), by decide, by decide, by decide⟩

theorem test_witness_DiagnosticAndMemoryCommandsAct_3_0 : ∃ (s : State) (q : DcpHdr) (a : Word) (n : Nat) (data : List Byte) (k : Nat) (x : Session) (u : State) (st : _), Performs s q 0x0202 16 n true k x u ∧ data.length = n ∧ 1 ≤ n ∧ n ≤ 8192 ∧ u.memCheck x.actsFor a.toNat n = some st :=
  ⟨(dcp 0x202 (some 1)), (hd 1 16 1), (BitVec.allOnes 64), 1, [7], 3, (ses 0x202 (some 1)), (dcp 0x202 (some 1)), .range, (⟨by decide, by decide, rfl, by decide, by decide, by decide, by decide, by decide, by decide⟩), by decide, by decide, by decide, by decide⟩

theorem test_witness_DiagnosticAndMemoryCommandsAct_3_1 : ∃ (s : State) (q : DcpHdr) (a : Word) (n : Nat) (data : List Byte) (k : Nat) (x : Session) (u : State), Performs s q 0x0202 16 n true k x u ∧ data.length = n ∧ 1 ≤ n ∧ n ≤ 8192 ∧ u.memCheck x.actsFor a.toNat n = none :=
  ⟨({ dcp 0x202 (some 1) with frames := [⟨false, 0, 0, 8, 1⟩] } : State), (hd 1 16 1), 511, 1, [7], 3, (ses 0x202 (some 1)), ({ dcp 0x202 (some 1) with frames := [⟨false, 0, 0, 8, 1⟩] } : State), (⟨by decide, by decide, rfl, by decide, by decide, by decide, by decide, by decide, by decide⟩), by decide, by decide, by decide, by decide⟩

theorem test_witness_DiagnosticAndMemoryCommandsAct_4 : ∃ (s : State) (k : Nat) (c : DcpCmd) (m : DcpMem) (l : List MemReq), s.memReqs k m = l ∧ c.opcode = 0x0202 :=
  ⟨r0, 3, ⟨1, 0x202, 0, 4, 0, none, none, false, false, (0, 0), none, none, [], false⟩, ⟨511, 1, 0⟩, [], (rfl), by decide⟩

theorem test_witness_DiagnosticAndMemoryCommandsAct_5 : ∃ (s : State) (v : State) (k : Nat) (c : DcpCmd) (m : DcpMem) (l : List MemReq) (b : List Byte), s.memReqs k m = l ∧ c.opcode = 0x0201 ∧ ({ s with reqs := s.reqs.filter (fun r => !memMine k m r) } : State).memBytes l (spanRows m.addr m.len) = (v, b) :=
  ⟨r0, _, 3, ⟨1, 0x201, 0, 4, 0, none, none, false, false, (0, 0), none, none, [], false⟩, ⟨511, 1, 0⟩, [], _, (rfl), by decide, (rfl)⟩

theorem test_witness_LeasesAreCreatedBoundAndQuiesced_0 : ∃ (s : State) (q : DcpHdr) (n : Fin 256) (vc : Nat) (sh : Nat) (seed : Word) (k : Nat) (x : Session) (u : State), Performs s q 0x0301 16 0 true k x u ∧ s.binding = none ∧ 2 ≤ vc ∧ vc ≤ 7 ∧ 1 ≤ sh ∧ sh ≤ 65535 ∧ u.leaseState n.val = 0 :=
  ⟨(dcp 0x301 none), (hd 0 16 0), 255, 7, 65535, 1, 3, (ses 0x301 none), (dcp 0x301 none), (⟨by decide, by decide, rfl, by decide, by decide, by decide, by decide, by decide, by decide⟩), by decide, by decide, by decide, by decide, by decide, by decide⟩

theorem test_witness_LeasesAreCreatedBoundAndQuiesced_1 : ∃ (s : State) (q : DcpHdr) (n : Fin 256) (vc : Nat) (sh : Nat) (seed : Word) (k : Nat) (x : Session) (u : State), Performs s q 0x0301 16 0 true k x u ∧ s.binding = none ∧ 2 ≤ vc ∧ vc ≤ 7 ∧ 1 ≤ sh ∧ sh ≤ 65535 ∧ u.leaseState n.val ≠ 0 :=
  ⟨(dcp 0x301 none).setFld (leaseCfg 1) LEASE_CFG.STATE 1, (hd 0 16 0), 1, 2, 1, 1, 3, (ses 0x301 none), (dcp 0x301 none).setFld (leaseCfg 1) LEASE_CFG.STATE 1, (⟨by decide, by decide, rfl, by decide, by decide, by decide, by decide, by decide, by decide⟩), by decide, by decide, by decide, by decide, by decide, by decide⟩

theorem test_witness_LeasesAreCreatedBoundAndQuiesced_2_0 : ∃ (s : State) (q : DcpHdr) (n : Fin 256) (kind : Nat) (first : Word) (count : Word) (k : Nat) (x : Session) (u : State) (v : State) (st : _), Performs s q 0x0302 24 0 true k x u ∧ s.binding = none ∧ u.groupRead kind first.toNat = (v, false) ∧ v.bindCheck kind first.toNat count.toNat none (some n.val) = some st :=
  ⟨(dcp 0x302 none), (hd 0 24 0), 1, 4, 0, 1, 3, (ses 0x302 none), (dcp 0x302 none), _, .state, (⟨by decide, by decide, rfl, by decide, by decide, by decide, by decide, by decide, by decide⟩), by decide, (rfl), by decide⟩

theorem test_witness_LeasesAreCreatedBoundAndQuiesced_2_1 : ∃ (s : State) (q : DcpHdr) (n : Fin 256) (kind : Nat) (first : Word) (count : Word) (k : Nat) (x : Session) (u : State) (v : State), Performs s q 0x0302 24 0 true k x u ∧ s.binding = none ∧ u.groupRead kind first.toNat = (v, false) ∧ v.bindCheck kind first.toNat count.toNat none (some n.val) = none ∧ v.bindWaits kind first.toNat count.toNat = true :=
  ⟨({ (dcp 0x302 none).setFld (leaseCfg 1) LEASE_CFG.STATE 1 with marked := [0] } : State), (hd 0 24 0), 1, 1, 0, 1, 3, (ses 0x302 none), ({ (dcp 0x302 none).setFld (leaseCfg 1) LEASE_CFG.STATE 1 with marked := [0] } : State), _, (⟨by decide, by decide, rfl, by decide, by decide, by decide, by decide, by decide, by decide⟩), by decide, (rfl), by decide, by decide⟩

theorem test_witness_LeasesAreCreatedBoundAndQuiesced_2_2 : ∃ (s : State) (q : DcpHdr) (n : Fin 256) (kind : Nat) (first : Word) (count : Word) (k : Nat) (x : Session) (u : State) (v : State), Performs s q 0x0302 24 0 true k x u ∧ s.binding = none ∧ u.groupRead kind first.toNat = (v, false) ∧ v.bindCheck kind first.toNat count.toNat none (some n.val) = none ∧ v.bindWaits kind first.toNat count.toNat = false :=
  ⟨(dcp 0x302 none).setFld (leaseCfg 1) LEASE_CFG.STATE 1, (hd 0 24 0), 1, 4, 0, 1, 3, (ses 0x302 none), (dcp 0x302 none).setFld (leaseCfg 1) LEASE_CFG.STATE 1, _, (⟨by decide, by decide, rfl, by decide, by decide, by decide, by decide, by decide, by decide⟩), by decide, (rfl), by decide, by decide⟩

theorem test_witness_LeasesAreCreatedBoundAndQuiesced_3 : ∃ (s : State) (q : DcpHdr) (n : Fin 256) (kind : Nat) (first : Word) (count : Word) (k : Nat) (x : Session) (u : State), Performs s q 0x0303 24 0 true k x u ∧ s.binding = none ∧ u.bindCheck kind first.toNat count.toNat (some n.val) none = none :=
  ⟨(({ dcp 0x303 none with frames := [⟨false, 0, 0, 8, 1⟩] } : State).setFld (leaseCfg 1) LEASE_CFG.STATE 1).setFld (leaseCfg 2) LEASE_CFG.STATE 1, (hd 0 24 0), 1, 4, 0, 8, 3, (ses 0x303 none), (({ dcp 0x303 none with frames := [⟨false, 0, 0, 8, 1⟩] } : State).setFld (leaseCfg 1) LEASE_CFG.STATE 1).setFld (leaseCfg 2) LEASE_CFG.STATE 1, (⟨by decide, by decide, rfl, by decide, by decide, by decide, by decide, by decide, by decide⟩), by decide, by decide⟩

theorem test_witness_LeasesAreCreatedBoundAndQuiesced_4 : ∃ (s : State) (q : DcpHdr) (n : Fin 256) (m : Fin 256) (kind : Nat) (first : Word) (count : Word) (k : Nat) (x : Session) (u : State) (v : State), Performs s q 0x0304 24 0 true k x u ∧ s.binding = none ∧ u.groupRead kind first.toNat = (v, false) ∧ v.bindCheck kind first.toNat count.toNat (some n.val) (some m.val) = none :=
  ⟨(({ dcp 0x304 none with frames := [⟨false, 0, 0, 8, 1⟩] } : State).setFld (leaseCfg 1) LEASE_CFG.STATE 1).setFld (leaseCfg 2) LEASE_CFG.STATE 1, (hd 0 24 0), 1, 2, 4, 0, 8, 3, (ses 0x304 none), (({ dcp 0x304 none with frames := [⟨false, 0, 0, 8, 1⟩] } : State).setFld (leaseCfg 1) LEASE_CFG.STATE 1).setFld (leaseCfg 2) LEASE_CFG.STATE 1, _, (⟨by decide, by decide, rfl, by decide, by decide, by decide, by decide, by decide, by decide⟩), by decide, (rfl), by decide⟩

theorem test_witness_LeasesAreCreatedBoundAndQuiesced_5 : ∃ (s : State) (q : DcpHdr) (n : Fin 256) (target : Word) (k : Nat) (x : Session) (u : State), Performs s q 0x0305 16 0 (x.mayName n.val) k x u ∧ s.binding = none ∧ u.leaseState n.val ≠ 0 ∧ u.quiescing n.val = false :=
  ⟨(dcp 0x305 (some 1)).setFld (leaseCfg 1) LEASE_CFG.STATE 1, (hd 1 16 0), 1, 1, 3, (ses 0x305 (some 1)), (dcp 0x305 (some 1)).setFld (leaseCfg 1) LEASE_CFG.STATE 1, (⟨by decide, by decide, rfl, by decide, by decide, by decide, by decide, by decide, by decide⟩), by decide, by decide, by decide⟩

theorem test_witness_LeasesAreCreatedBoundAndQuiesced_6 : ∃ (s : State) (q : DcpHdr) (n : Fin 256) (d : List Byte) (k : Nat) (x : Session) (u : State), Performs s q 0x0306 72 0 true k x u ∧ d.length = 64 ∧ u.leaseState n.val ≠ 0 :=
  ⟨(dcp 0x306 none).setFld (leaseCfg 1) LEASE_CFG.STATE 1, (hd 0 72 0), 1, (List.replicate 64 0), 3, (ses 0x306 none), (dcp 0x306 none).setFld (leaseCfg 1) LEASE_CFG.STATE 1, (⟨by decide, by decide, rfl, by decide, by decide, by decide, by decide, by decide, by decide⟩), by decide, by decide⟩

theorem test_witness_LeasesAreCreatedBoundAndQuiesced_7 : ∃ (s : State) (q : DcpHdr) (n : Fin 256) (k : Nat) (x : Session) (u : State), Performs s q 0x0307 8 0 (x.mayName n.val) k x u :=
  ⟨(dcp 0x307 (some 1)), (hd 1 8 0), 1, 3, (ses 0x307 (some 1)), (dcp 0x307 (some 1)), (⟨by decide, by decide, rfl, by decide, by decide, by decide, by decide, by decide, by decide⟩)⟩

theorem test_witness_LeasesAreCreatedBoundAndQuiesced_8 : ∃ (s : State) (n : Fin 256) (z : Quiesce), s.life = .running ∧ s.quiesceOf n.val s.quiet = some z :=
  ⟨({ r0 with quiesces := [⟨1, .all, .state, 0, .none⟩] } : State), 1, ⟨1, .all, .state, 0, .none⟩, by decide, by decide⟩

theorem test_witness_LeasesAreCreatedBoundAndQuiesced_9 : ∃ (s : State) (n : Fin 256) (z : Quiesce), s.life = .running ∧ s.quiesceOf n.val (fun q => decide (q.since + 55000 ≤ s.now) && !s.quiet q) = some z :=
  ⟨({ r0 with quiesces := [⟨1, .all, .state, 0, .none⟩], now := 55000 } : State).setCore 0 { Core.reset with kernel := some (k0 []) }, 1, ⟨1, .all, .state, 0, .none⟩, by decide, by decide⟩

theorem test_witness_ServiceCommandsAct_0 : ∃ (s : State) (q : DcpHdr) (id : Word) (ad : Nat) (mx : Nat) (more : Bool) (text : List Byte) (k : Nat) (x : Session) (u : State), Performs s q 0x0401 16 text.length true k x u ∧ 1 ≤ text.length ∧ text.length ≤ 8192 ∧ 1 ≤ mx ∧ mx ≤ 65535 :=
  ⟨(dcp 0x401 (some 1)), (hd 1 16 1), 9, 0, 65535, true, [7], 3, (ses 0x401 (some 1)), (dcp 0x401 (some 1)), (⟨by decide, by decide, rfl, by decide, by decide, by decide, by decide, by decide, by decide⟩), by decide, by decide, by decide, by decide⟩

theorem test_witness_ServiceCommandsAct_1 : ∃ (s : State) (n : Nat) (id : Nat) (ad : Nat) (mx : Nat) (more : Bool) (text : List Byte), s.prompts.any (fun p => p.lease == n && p.id == id && p.more) = false :=
  ⟨r0, 1, 9, 0, 1, false, [7], by decide⟩

theorem test_witness_ServiceCommandsAct_2 : ∃ (s : State) (q : DcpHdr) (id : Word) (mx : Nat) (k : Nat) (x : Session) (u : State) (c : Completion), Performs s q 0x0402 16 0 true k x u ∧ 64 ≤ mx ∧ mx ≤ 8192 ∧ u.completions.find? (fun c => c.lease == x.actsFor && (id == 0 || c.id == id.toNat)) = some c ∧ c.bytes.length ≤ mx :=
  ⟨({ dcp 0x402 (some 1) with completions := [⟨1, 9, [7]⟩] } : State), (hd 1 16 0), 0, 64, 3, (ses 0x402 (some 1)), ({ dcp 0x402 (some 1) with completions := [⟨1, 9, [7]⟩] } : State), ⟨1, 9, [7]⟩, (⟨by decide, by decide, rfl, by decide, by decide, by decide, by decide, by decide, by decide⟩), by decide, by decide, by decide, by decide⟩

theorem test_witness_ServiceCommandsAct_3 : ∃ (s : State) (q : DcpHdr) (st : Nat) (n : Nat) (data : List Byte) (k : Nat) (x : Session) (u : State), Performs s q 0x0403 8 data.length true k x u ∧ 1 ≤ data.length ∧ data.length ≤ 8192 ∧ st < 16 ∧ n < 2 ^ 32 :=
  ⟨(dcp 0x403 (some 1)), (hd 1 8 1), 15, (2 ^ 32 - 1), [7], 3, (ses 0x403 (some 1)), (dcp 0x403 (some 1)), (⟨by decide, by decide, rfl, by decide, by decide, by decide, by decide, by decide, by decide⟩), by decide, by decide, by decide, by decide⟩

theorem test_witness_ServiceCommandsAct_4 : ∃ (s : State) (q : DcpHdr) (slot : Nat) (off : Nat) (total : Nat) (fin : Bool) (chunk : List Byte) (k : Nat) (x : Session) (u : State), Performs s q 0x0404 16 chunk.length true k x u ∧ 1 ≤ chunk.length ∧ chunk.length ≤ 8192 ∧ slot < 5 ∧ total ≤ 67108864 ∧ u.snapStopped x.actsFor = false :=
  ⟨(dcp 0x404 (some 1)), (hd 1 16 1), 4, 0, 67108864, false, [7], 3, (ses 0x404 (some 1)), (dcp 0x404 (some 1)), (⟨by decide, by decide, rfl, by decide, by decide, by decide, by decide, by decide, by decide⟩), by decide, by decide, by decide, by decide, by decide⟩

theorem test_witness_ServiceCommandsAct_5 : ∃ (s : State) (q : DcpHdr) (slot : Nat) (tm : Nat) (heap : Nat) (k : Nat) (x : Session) (u : State), Performs s q 0x0405 16 0 true k x u ∧ slot < 5 ∧ 1 ≤ tm ∧ tm ≤ 60000 ∧ 2 ^ 20 ≤ heap ∧ heap ≤ 2 ^ 32 ∧ heap % 2 ^ 20 = 0 :=
  ⟨(dcp 0x405 (some 1)), (hd 1 16 0), 4, 60000, (2 ^ 32), 3, (ses 0x405 (some 1)), (dcp 0x405 (some 1)), (⟨by decide, by decide, rfl, by decide, by decide, by decide, by decide, by decide, by decide⟩), by decide, by decide, by decide, by decide, by decide, by decide⟩

theorem test_witness_SnapshotsStopCopyAndRestore_0_0 : ∃ (s : State) (q : DcpHdr) (k : Nat) (x : Session) (u : State) (st : _), Performs s q 0x0501 0 0 true k x u ∧ u.takeCheck x.actsFor = some st :=
  ⟨(dcp 0x501 (some 1)), (hd 1 0 0), 3, (ses 0x501 (some 1)), (dcp 0x501 (some 1)), .state, (⟨by decide, by decide, rfl, by decide, by decide, by decide, by decide, by decide, by decide⟩), by decide⟩

theorem test_witness_SnapshotsStopCopyAndRestore_0_1 : ∃ (s : State) (q : DcpHdr) (k : Nat) (x : Session) (u : State), Performs s q 0x0501 0 0 true k x u ∧ u.takeCheck x.actsFor = none :=
  ⟨((dcp 0x501 (some 1)).setFld (leaseCfg 1) LEASE_CFG.SHARES 1).setFld (leaseCfg 1) LEASE_CFG.STATE 1, (hd 1 0 0), 3, (ses 0x501 (some 1)), ((dcp 0x501 (some 1)).setFld (leaseCfg 1) LEASE_CFG.SHARES 1).setFld (leaseCfg 1) LEASE_CFG.STATE 1, (⟨by decide, by decide, rfl, by decide, by decide, by decide, by decide, by decide, by decide⟩), (take_of_calm (by decide) (calm_groups rfl _ _ _ _ rfl (Or.inl rfl)).1 (calm_groups rfl _ _ _ _ rfl (Or.inl rfl)).2 (by decide) (by decide) (by decide))⟩

theorem test_witness_SnapshotsStopCopyAndRestore_2_0 : ∃ (s : State) (n : Fin 256) (o : SnapOp), s.life = .running ∧ s.snapOp = some o ∧ o.lease = n.val ∧ s.engineBusy .dcp 0 o.lease = false ∧ o.restore = true :=
  ⟨({ r0 with snapOp := some ⟨1, none, true, 9, 0, false, 0⟩ } : State), 1, ⟨1, none, true, 9, 0, false, 0⟩, by decide, by decide, by decide, by decide, by decide⟩

theorem test_witness_SnapshotsStopCopyAndRestore_2_1 : ∃ (s : State) (n : Fin 256) (o : SnapOp), s.life = .running ∧ s.snapOp = some o ∧ o.lease = n.val ∧ s.engineBusy .dcp 0 o.lease = false ∧ o.restore = false :=
  ⟨({ r0 with snapOp := some ⟨1, none, false, 9, 0, false, 0⟩ } : State), 1, ⟨1, none, false, 9, 0, false, 0⟩, by decide, by decide, by decide, by decide, by decide⟩

theorem test_witness_SnapshotsStopCopyAndRestore_4 : ∃ (s : State) (q : DcpHdr) (id : Word) (off : Nat) (n : Nat) (k : Nat) (x : Session) (u : State) (im : SnapImage), Performs s q 0x0502 24 0 true k x u ∧ 1 ≤ n ∧ n ≤ 8192 ∧ u.snapOf x.actsFor id.toNat = some im ∧ off + n ≤ im.bytes ∧ (u.stageRead im off n).2.2 = false :=
  ⟨({ dcp 0x502 (some 1) with snaps := [⟨1, 9, 512, [0], [(0, 512)]⟩] } : State), (hd 1 24 0), 9, 0, 512, 3, (ses 0x502 (some 1)), ({ dcp 0x502 (some 1) with snaps := [⟨1, 9, 512, [0], [(0, 512)]⟩] } : State), ⟨1, 9, 512, [0], [(0, 512)]⟩, (⟨by decide, by decide, rfl, by decide, by decide, by decide, by decide, by decide, by decide⟩), by decide, by decide, by decide, by decide, (by decide +kernel)⟩

theorem test_witness_SnapshotsStopCopyAndRestore_5 : ∃ (s : State) (q : DcpHdr) (id : Word) (off : Nat) (data : List Byte) (k : Nat) (x : Session) (u : State) (im : SnapImage), Performs s q 0x0503 16 data.length true k x u ∧ 1 ≤ data.length ∧ data.length ≤ 8192 ∧ 38 < off ∧ u.snapOf x.actsFor id.toNat = some im ∧ off + data.length ≤ im.bytes :=
  ⟨({ dcp 0x503 (some 1) with snaps := [⟨1, 9, 512, [0], [(0, 512)]⟩] } : State), (hd 1 16 1), 9, 39, [7], 3, (ses 0x503 (some 1)), ({ dcp 0x503 (some 1) with snaps := [⟨1, 9, 512, [0], [(0, 512)]⟩] } : State), ⟨1, 9, 512, [0], [(0, 512)]⟩, (⟨by decide, by decide, rfl, by decide, by decide, by decide, by decide, by decide, by decide⟩), by decide, by decide, by decide, by decide, by decide⟩

theorem test_witness_SnapshotsStopCopyAndRestore_6 : ∃ (s : State) (q : DcpHdr) (id : Word) (rd : Bool) (k : Nat) (x : Session) (u : State) (im : SnapImage), Performs s q 0x0504 16 0 true k x u ∧ u.snapOf x.actsFor id.toNat = some im ∧ s.snapOf x.actsFor id.toNat = some im ∧ u.restoreCheck x.actsFor im = none :=
  ⟨({ dcp 0x504 (some 1) with snaps := [⟨1, 9, 512, [0], [(0, 512)]⟩] } : State), (hd 1 16 0), 9, false, 3, (ses 0x504 (some 1)), ({ dcp 0x504 (some 1) with snaps := [⟨1, 9, 512, [0], [(0, 512)]⟩] } : State), ⟨1, 9, 512, [0], [(0, 512)]⟩, (⟨by decide, by decide, rfl, by decide, by decide, by decide, by decide, by decide, by decide⟩), by decide, by decide, by decide⟩

theorem test_witness_SnapshotsStopCopyAndRestore_7 : ∃ (s : State) (q : DcpHdr) (id : Word) (rd : Bool) (k : Nat) (x : Session) (u : State), Performs s q 0x0504 16 0 true k x u ∧ u.snapOf x.actsFor id.toNat = none :=
  ⟨(dcp 0x504 (some 1)), (hd 1 16 0), 9, false, 3, (ses 0x504 (some 1)), (dcp 0x504 (some 1)), (⟨by decide, by decide, rfl, by decide, by decide, by decide, by decide, by decide, by decide⟩), by decide⟩

theorem test_witness_SnapshotsStopCopyAndRestore_8 : ∃ (s : State) (u : State) (n : Fin 256), s.life = .running ∧ s.stepEnds.contains n.val = true ∧ u = { s with stepEnds := s.stepEnds.filter (· != n.val) } ∧ u.fld (snap .SNAP_POLICY n.val) SNAP_POLICY.AUTO = 1 ∧ (tget? s.lastSnap n.val).getD (tget 0 s.leaseBorn n.val) + 1100000000 * u.fld (snap .SNAP_STAT n.val) SNAP_STAT.INTERVAL_S ≤ s.now ∧ u.takeCheck n.val = none :=
  ⟨({ ((({ r0 with lastSnap := [(1, 0)], now := 2 ^ 60 } : State).setFld (snap .SNAP_POLICY 1) SNAP_POLICY.AUTO 1).setFld (leaseCfg 1) LEASE_CFG.STATE 1) with stepEnds := [1] }), _, 1, by decide, by decide, (rfl), by decide, by decide, (by have c := calm_groups (s := { r0 with lastSnap := [(1, 0)], now := 2 ^ 60 }) rfl LEASE_CFG.STATE SNAP_POLICY.AUTO 1 1 rfl (Or.inr rfl); have e : ∀ b : State, ({ ({ b with stepEnds := [1] } : State) with stepEnds := ({ b with stepEnds := [1] } : State).stepEnds.filter (· != 1) } : State).regs = b.regs := fun _ => rfl; have c2 := calm_regs (e ((({ r0 with lastSnap := [(1, 0)], now := 2 ^ 60 } : State).setFld (snap .SNAP_POLICY 1) SNAP_POLICY.AUTO 1).setFld (leaseCfg 1) LEASE_CFG.STATE 1)) c; refine take_of_calm ?_ c2.1 c2.2 ?_ ?_ ?_ <;> decide)⟩

theorem test_witness_SnapshotsStopCopyAndRestore_9 : ∃ (s : State) (n : Fin 256) (g : Fin 128), s.life = .running ∧ s.groupUnits n.val g.val ≠ [] ∧ (∀ u, u ∈ s.groupUnits n.val g.val → (s.welt u).op = 0) :=
  ⟨(r0.setFld (welt .WELT_GROUP_CFG 15 127) WELT_GROUP_CFG.VALID 1).setFld (welt .WELT_GROUP_CFG 15 127) WELT_GROUP_CFG.LEASE 1, 1, 127, by decide, (by decide +kernel), (fun _ _ => rfl)⟩

end Sys2Proof.Tests
end

section
/-! Frames of an activation stack (08 R319-R326): where their registers lie, what sealing and setting up a frame give, and what each frame command does in its turn. -/
namespace Sys2Proof.Machine

/-! Where the registers of a stack's frames lie: no two of them share an address. -/

/-- The three registers of a frame (08 R319). -/
def RegName.isFrame : RegName → Bool
  | .ASTK_FRAME => true
  | .ASTK_FACCT => true
  | .ASTK_FEXP => true
  | _ => false

theorem RegName.isFrame_iff (n : RegName) : n.isFrame = true ↔ n = .ASTK_FRAME ∨ n = .ASTK_FACCT ∨ n = .ASTK_FEXP := by
  constructor
  · intro h
    unfold RegName.isFrame at h
    split at h <;> simp_all
  · rintro (rfl | rfl | rfl) <;> rfl

@[simp] theorem RegName.isFrame_ASTK_FRAME : RegName.isFrame .ASTK_FRAME = true := (RegName.isFrame_iff _).2 (.inl rfl)
@[simp] theorem RegName.isFrame_ASTK_FACCT : RegName.isFrame .ASTK_FACCT = true := (RegName.isFrame_iff _).2 (.inr (.inl rfl))
@[simp] theorem RegName.isFrame_ASTK_FEXP : RegName.isFrame .ASTK_FEXP = true := (RegName.isFrame_iff _).2 (.inr (.inr rfl))

theorem addr_ASTK_FRAME (d g f : Nat) : (frameReg .ASTK_FRAME d g f).addr = 8 * 2 ^ 44 + d * 2 ^ 38 + 0x6100100 + 0x400 * g + 0x20 * f := rfl
theorem addr_ASTK_FACCT (d g f : Nat) : (frameReg .ASTK_FACCT d g f).addr = 8 * 2 ^ 44 + d * 2 ^ 38 + 0x6100108 + 0x400 * g + 0x20 * f := rfl
theorem addr_ASTK_FEXP (d g f : Nat) : (frameReg .ASTK_FEXP d g f).addr = 8 * 2 ^ 44 + d * 2 ^ 38 + 0x6100110 + 0x400 * g + 0x20 * f := rfl
theorem addr_fstat (d g : Nat) : (fstat d g).addr = 8 * 2 ^ 44 + d * 2 ^ 38 + 0x6100008 + 0x400 * g := by simp [Reg.addr, fstat, RegName.layout, selCd]
theorem addr_ASTK_TOP (d g : Nat) : (astk .ASTK_TOP d g).addr = 8 * 2 ^ 44 + d * 2 ^ 38 + 0x6000018 + 0x40 * g := by simp [Reg.addr, astk, RegName.layout, selCd]

/-- Frame registers of one stack lie at one address only where they are one register of one frame. -/
theorem addr_frameReg_inj {n m : RegName} (hn : n.isFrame = true) (hm : m.isFrame = true) (d g f e : Nat) :
    (frameReg n d g f).addr = (frameReg m d g e).addr ↔ n = m ∧ f = e := by
  rcases n.isFrame_iff.1 hn with rfl | rfl | rfl <;> rcases m.isFrame_iff.1 hm with rfl | rfl | rfl <;>
    simp only [addr_ASTK_FRAME, addr_ASTK_FACCT, addr_ASTK_FEXP, reduceCtorEq, eq_self, true_and, false_and, iff_false] <;> omega

theorem addr_frameReg_ne_fstat {n : RegName} (hn : n.isFrame = true) (d g f : Nat) : (frameReg n d g f).addr ≠ (fstat d g).addr := by
  rcases n.isFrame_iff.1 hn with rfl | rfl | rfl <;> simp only [addr_ASTK_FRAME, addr_ASTK_FACCT, addr_ASTK_FEXP, addr_fstat] <;> omega

theorem addr_ASTK_TOP_ne_frameReg {n : RegName} (hn : n.isFrame = true) (d g f : Nat) : (astk .ASTK_TOP d g).addr ≠ (frameReg n d g f).addr := by
  rcases n.isFrame_iff.1 hn with rfl | rfl | rfl <;> simp only [addr_ASTK_FRAME, addr_ASTK_FACCT, addr_ASTK_FEXP, addr_ASTK_TOP] <;> omega

theorem addr_ASTK_TOP_ne_fstat (d g : Nat) : (astk .ASTK_TOP d g).addr ≠ (fstat d g).addr := by
  simp only [addr_ASTK_TOP, addr_fstat]; omega

/-! What a write of one of these registers leaves of another. -/

section
variable (s : State) {n m : RegName} (d g : Nat) {f e : Nat} (x y : Fld) (v : Nat)

@[simp] theorem State.fld_frameReg_setFld_name (hn : n.isFrame = true) (hm : m.isFrame = true) (h : n ≠ m) :
    (s.setFld (frameReg m d g e) x v).fld (frameReg n d g f) y = s.fld (frameReg n d g f) y :=
  s.fld_setFld_ne x y v (by simp [addr_frameReg_inj hn hm, h])

@[simp] theorem State.reg_frameReg_setFld_frame (hn : n.isFrame = true) (hm : m.isFrame = true) (h : n ≠ m ∨ f ≠ e) :
    (s.setFld (frameReg m d g e) x v).reg (frameReg n d g f) = s.reg (frameReg n d g f) :=
  s.reg_setFld_ne x v (by rw [Ne, addr_frameReg_inj hn hm]; tauto)

@[simp] theorem State.reg_frameReg_resetReg_frame (hn : n.isFrame = true) (hm : m.isFrame = true) (h : n ≠ m ∨ f ≠ e) :
    (s.resetReg (frameReg m d g e)).reg (frameReg n d g f) = s.reg (frameReg n d g f) :=
  s.reg_resetReg_ne (by rw [Ne, addr_frameReg_inj hn hm]; tauto)

@[simp] theorem State.fld_frameReg_resetReg_name (hn : n.isFrame = true) (hm : m.isFrame = true) (h : n ≠ m) :
    (s.resetReg (frameReg m d g e)).fld (frameReg n d g f) y = s.fld (frameReg n d g f) y := by
  simp [State.fld, hn, hm, h]

@[simp] theorem State.reg_frameReg_setFld_fstat (hn : n.isFrame = true) : (s.setFld (fstat d g) x v).reg (frameReg n d g f) = s.reg (frameReg n d g f) :=
  s.reg_setFld_ne x v (addr_frameReg_ne_fstat hn d g f)

@[simp] theorem State.fld_frameReg_setFld_fstat (hn : n.isFrame = true) : (s.setFld (fstat d g) x v).fld (frameReg n d g f) y = s.fld (frameReg n d g f) y :=
  s.fld_setFld_ne x y v (addr_frameReg_ne_fstat hn d g f)

@[simp] theorem State.fld_frameReg_bump_fstat (hn : n.isFrame = true) : (s.bump (fstat d g) x v).fld (frameReg n d g f) y = s.fld (frameReg n d g f) y :=
  s.fld_bump_ne x y v (addr_frameReg_ne_fstat hn d g f)

@[simp] theorem State.reg_fstat_setFld_frame (hn : n.isFrame = true) : (s.setFld (frameReg n d g f) x v).reg (fstat d g) = s.reg (fstat d g) :=
  s.reg_setFld_ne x v (addr_frameReg_ne_fstat hn d g f).symm

@[simp] theorem State.reg_fstat_resetReg_frame (hn : n.isFrame = true) : (s.resetReg (frameReg n d g f)).reg (fstat d g) = s.reg (fstat d g) :=
  s.reg_resetReg_ne (addr_frameReg_ne_fstat hn d g f).symm

@[simp] theorem State.fld_fstat_setFld_frame (hn : n.isFrame = true) : (s.setFld (frameReg n d g f) x v).fld (fstat d g) y = s.fld (fstat d g) y :=
  s.fld_setFld_ne x y v (addr_frameReg_ne_fstat hn d g f).symm

@[simp] theorem State.fld_fstat_resetReg_frame (hn : n.isFrame = true) : (s.resetReg (frameReg n d g f)).fld (fstat d g) y = s.fld (fstat d g) y := by
  simp [State.fld, hn]

end

/-! Sealing a frame (08 R322). -/

variable {s t : State} {d g f : Nat}

/-- A frame with the height it is sealed at, its content not yet held against EXPECT (08 R322). -/
def State.sealedAt (s : State) (d g f : Nat) : State :=
  (s.setFld (frameReg .ASTK_FACCT d g f) ASTK_FACCT.SEALED (s.stackTop d g - s.fld (frameReg .ASTK_FRAME d g f) ASTK_FRAME.BASE)).setFld (frameReg .ASTK_FRAME d g f) ASTK_FRAME.STATE 2

/-- Sealing where EXPECT is zero or the frame's height. -/
theorem State.seal_of_match
    (h : s.fld (frameReg .ASTK_FEXP d g f) ASTK_FEXP.EXPECT = 0 ∨ s.fld (frameReg .ASTK_FEXP d g f) ASTK_FEXP.EXPECT = s.stackTop d g - s.fld (frameReg .ASTK_FRAME d g f) ASTK_FRAME.BASE) :
    s.seal d g f = s.sealedAt d g f := by
  rcases h with h | h <;> simp [State.seal, State.sealedAt, h]

/-- Sealing where EXPECT is another height than the frame's. -/
theorem State.seal_of_mismatch (h0 : s.fld (frameReg .ASTK_FEXP d g f) ASTK_FEXP.EXPECT ≠ 0)
    (h : s.fld (frameReg .ASTK_FEXP d g f) ASTK_FEXP.EXPECT ≠ s.stackTop d g - s.fld (frameReg .ASTK_FRAME d g f) ASTK_FRAME.BASE) :
    s.seal d g f = ((s.sealedAt d g f).setFld (frameReg .ASTK_FRAME d g f) ASTK_FRAME.MISMATCH 1).bump (fstat d g) ASTK_FSTAT.MISMATCHES 1 := by
  simp [State.seal, State.sealedAt, h0, h]

/-- A sealed frame has its height noted, and where that is not the one expected also the mismatch. -/
theorem State.seal_cases (s : State) (d g f : Nat) : s.seal d g f = s.sealedAt d g f ∨
    s.seal d g f = ((s.sealedAt d g f).setFld (frameReg .ASTK_FRAME d g f) ASTK_FRAME.MISMATCH 1).bump (fstat d g) ASTK_FSTAT.MISMATCHES 1 := by
  by_cases h : s.fld (frameReg .ASTK_FEXP d g f) ASTK_FEXP.EXPECT = 0 ∨ s.fld (frameReg .ASTK_FEXP d g f) ASTK_FEXP.EXPECT = s.stackTop d g - s.fld (frameReg .ASTK_FRAME d g f) ASTK_FRAME.BASE
  · exact .inl (State.seal_of_match h)
  · obtain ⟨wanted, other⟩ := not_or.1 h
    exact .inr (State.seal_of_mismatch wanted other)

theorem OnlyRegs.seal {rs : List Reg} (a : OnlyRegs s t rs) (hr : frameReg .ASTK_FRAME d g f ∈ rs) (hc : frameReg .ASTK_FACCT d g f ∈ rs) (hs : fstat d g ∈ rs) :
    OnlyRegs s (t.seal d g f) rs := by
  have b : OnlyRegs s (t.sealedAt d g f) rs := (a.setFld _ _ hc).setFld _ _ hr
  rcases t.seal_cases d g f with e | e <;> rw [e]
  · exact b
  · exact (b.setFld _ _ hr).bump _ _ hs

theorem State.sealedAt_state (s : State) (d g f : Nat) : (s.sealedAt d g f).fld (frameReg .ASTK_FRAME d g f) ASTK_FRAME.STATE = 2 :=
  State.fld_setFld_same _ _ _ _ (by decide) (by decide)

theorem State.sealedAt_mismatch (s : State) (d g f : Nat) :
    (s.sealedAt d g f).fld (frameReg .ASTK_FRAME d g f) ASTK_FRAME.MISMATCH = s.fld (frameReg .ASTK_FRAME d g f) ASTK_FRAME.MISMATCH := by
  rw [State.sealedAt, State.fld_setFld_other _ _ _ _ _ (by decide) (by decide) (by decide)]
  simp

/-- The height of a frame is a number of 32 bits, as TOP is. -/
theorem State.sealedAt_sealed (s : State) (d g f : Nat) :
    (s.sealedAt d g f).fld (frameReg .ASTK_FACCT d g f) ASTK_FACCT.SEALED = s.stackTop d g - s.fld (frameReg .ASTK_FRAME d g f) ASTK_FRAME.BASE := by
  have top : s.stackTop d g < 2 ^ 32 := s.fld_lt _ _
  simp only [State.sealedAt, State.fld_frameReg_setFld_name, RegName.isFrame_ASTK_FRAME, RegName.isFrame_ASTK_FACCT, ne_eq, reduceCtorEq, not_false_eq_true]
  rw [State.fld_setFld_same _ _ _ _ (by decide) (by decide)]
  exact Nat.mod_eq_of_lt (by simp only [ASTK_FACCT.SEALED]; omega)

@[simp] theorem State.sealedAt_fstat (s : State) (d g f : Nat) : (s.sealedAt d g f).reg (fstat d g) = s.reg (fstat d g) := by simp [State.sealedAt]

theorem State.frameState_seal (s : State) (d g f : Nat) : (s.seal d g f).frameState d g f = 2 := by
  rcases s.seal_cases d g f with e | e <;> rw [State.frameState, e]
  · exact s.sealedAt_state d g f
  · rw [State.fld_frameReg_bump_fstat _ _ _ _ _ _ rfl, State.fld_setFld_other _ _ _ _ _ (by decide) (by decide) (by decide)]
    exact s.sealedAt_state d g f

theorem State.fld_sealed_seal (s : State) (d g f : Nat) :
    (s.seal d g f).fld (frameReg .ASTK_FACCT d g f) ASTK_FACCT.SEALED = s.stackTop d g - s.fld (frameReg .ASTK_FRAME d g f) ASTK_FRAME.BASE := by
  rcases s.seal_cases d g f with e | e <;> simp [e, State.sealedAt_sealed]

theorem State.fld_mismatch_seal (h0 : s.fld (frameReg .ASTK_FEXP d g f) ASTK_FEXP.EXPECT ≠ 0)
    (h : s.fld (frameReg .ASTK_FEXP d g f) ASTK_FEXP.EXPECT ≠ s.stackTop d g - s.fld (frameReg .ASTK_FRAME d g f) ASTK_FRAME.BASE) :
    (s.seal d g f).fld (frameReg .ASTK_FRAME d g f) ASTK_FRAME.MISMATCH = 1 ∧
      (s.seal d g f).fld (fstat d g) ASTK_FSTAT.MISMATCHES = min 65535 (s.fld (fstat d g) ASTK_FSTAT.MISMATCHES + 1) := by
  rw [State.seal_of_mismatch h0 h]
  constructor
  · rw [State.fld_frameReg_bump_fstat _ _ _ _ _ _ rfl]
    exact State.fld_setFld_same _ _ _ _ (by decide) (by decide)
  · rw [State.fld_bump_same _ _ _ _ (by decide) (by decide), State.fld_fstat_setFld_frame _ _ _ _ _ _ rfl, State.fld, State.sealedAt_fstat]
    exact Nat.min_comm _ _

/-- Once sealed, the stack's TOP is what it was. -/
theorem State.stackTop_seal (s : State) (d g f : Nat) : (s.seal d g f).stackTop d g = s.stackTop d g := by
  have a : OnlyRegs s (s.seal d g f) [frameReg .ASTK_FRAME d g f, frameReg .ASTK_FACCT d g f, fstat d g] := (OnlyRegs.refl s _).seal (by simp) (by simp) (by simp)
  exact a.same.fld _ (by simp [addr_ASTK_TOP_ne_frameReg, addr_ASTK_TOP_ne_fstat])

/-! The frame on top. -/

theorem State.topFrame_eq_some {st : Nat} : s.topFrame d g = some (f, st) ↔ s.frameCount d g ≠ 0 ∧ f = s.frameCount d g - 1 ∧ st = s.frameState d g f := by
  simp only [State.topFrame, beq_iff_eq]
  split
  · simp [*]
  · simp only [Option.some.injEq, Prod.mk.injEq, ne_eq, *, not_false_eq_true, true_and]
    constructor <;> (rintro ⟨rfl, rfl⟩; exact ⟨rfl, rfl⟩)

theorem State.topFrame_eq_none : s.topFrame d g = none ↔ s.frameCount d g = 0 := by simp [State.topFrame]

/-- The top frame sealed where it is FILLING, as OPEN does before it sets up another (08 R321). -/
def State.sealTop (s : State) (d g : Nat) : State := (s.topFrame d g).elim s (fun p => if p.2 == 1 then s.seal d g p.1 else s)

/-- The top frame is sealed, or nothing is done. -/
theorem State.sealTop_cases (s : State) (d g : Nat) : s.sealTop d g = s.seal d g (s.frameCount d g - 1) ∨ s.sealTop d g = s := by
  unfold State.sealTop
  rcases e : s.topFrame d g with _ | ⟨f, st⟩
  · exact .inr rfl
  · obtain ⟨-, rfl, -⟩ := State.topFrame_eq_some.1 e
    by_cases h : st = 1 <;> simp [h]

theorem State.sealTop_of_filling (h : s.topFrame d g = some (f, 1)) : s.sealTop d g = s.seal d g f := by simp [State.sealTop, h]

theorem State.stackTop_sealTop (s : State) (d g : Nat) : (s.sealTop d g).stackTop d g = s.stackTop d g := by
  rcases s.sealTop_cases d g with e | e <;> rw [e]
  exact s.stackTop_seal d g _

theorem State.sealTop_onlyRegs {rs : List Reg} (hr : frameReg .ASTK_FRAME d g (s.frameCount d g - 1) ∈ rs) (hc : frameReg .ASTK_FACCT d g (s.frameCount d g - 1) ∈ rs)
    (hs : fstat d g ∈ rs) : OnlyRegs s (s.sealTop d g) rs := by
  rcases s.sealTop_cases d g with e | e <;> rw [e]
  · exact (OnlyRegs.refl s rs).seal hr hc hs
  · exact OnlyRegs.refl s rs

/-! Setting up a frame (08 R321). -/

/-- Frame `n` set up for the write `v` of ASTK_FCMD, and counted (08 R321). -/
def State.newFrame (s : State) (d g n v : Nat) : State :=
  let r := frameReg .ASTK_FRAME d g n
  (((((((s.setFld r ASTK_FRAME.BASE (s.stackTop d g)).setFld r ASTK_FRAME.MB (bits v 31 16)).setFld r ASTK_FRAME.MISMATCH 0).setFld r ASTK_FRAME.STATE 1).resetReg (frameReg .ASTK_FACCT d g n)).resetReg
    (frameReg .ASTK_FEXP d g n)).setFld (frameReg .ASTK_FEXP d g n) ASTK_FEXP.EXPECT (bits v 63 32)).setFld (fstat d g) ASTK_FSTAT.NFRAMES (n + 1)

theorem OnlyRegs.newFrame {rs : List Reg} {n : Nat} (v : Nat) (a : OnlyRegs s t rs) (hr : frameReg .ASTK_FRAME d g n ∈ rs) (hc : frameReg .ASTK_FACCT d g n ∈ rs)
    (he : frameReg .ASTK_FEXP d g n ∈ rs) (hs : fstat d g ∈ rs) : OnlyRegs s (t.newFrame d g n v) rs :=
  ((((((((a.setFld _ _ hr).setFld _ _ hr).setFld _ _ hr).setFld _ _ hr).resetReg hc).resetReg he).setFld _ _ he).setFld _ _ hs)

/-- The word of the frame set up: STATE FILLING, BASE at TOP, MB of the write. -/
theorem State.fld_frame_newFrame (s : State) (d g n v : Nat) :
    (s.newFrame d g n v).frameState d g n = 1 ∧ (s.newFrame d g n v).fld (frameReg .ASTK_FRAME d g n) ASTK_FRAME.BASE = s.stackTop d g ∧
      (s.newFrame d g n v).fld (frameReg .ASTK_FRAME d g n) ASTK_FRAME.MB = bits v 31 16 := by
  have top : s.stackTop d g < 0x100000000 := s.fld_lt _ _
  have mb : bits v 31 16 < 0x10000 := bits_lt ..
  refine ⟨?_, ?_, ?_⟩ <;>
    simp [State.newFrame, State.frameState, State.fld_setFld_same, State.fld_setFld_other, ASTK_FRAME.STATE, ASTK_FRAME.BASE, ASTK_FRAME.MB, ASTK_FRAME.MISMATCH, top, mb]

/-- A frame register at reset is zero. -/
theorem resetWord_frameReg {n : RegName} (hn : n.isFrame = true) (d g f : Nat) : (frameReg n d g f).resetWord = 0#64 := by
  rcases n.isFrame_iff.1 hn with rfl | rfl | rfl <;> rfl

@[simp] theorem State.fld_frameReg_resetReg_same {n : RegName} (hn : n.isFrame = true) (s : State) (d g f : Nat) (y : Fld) :
    (s.resetReg (frameReg n d g f)).fld (frameReg n d g f) y = 0 := by
  simp [State.fld, resetWord_frameReg hn, bits]

/-- The accounts of the frame set up: EXPECT of the write, SEALED, PEAK and SPILLED zero. -/
theorem State.fld_accounts_newFrame (s : State) (d g n v : Nat) :
    (s.newFrame d g n v).fld (frameReg .ASTK_FEXP d g n) ASTK_FEXP.EXPECT = bits v 63 32 ∧ (s.newFrame d g n v).fld (frameReg .ASTK_FACCT d g n) ASTK_FACCT.SEALED = 0 ∧
      (s.newFrame d g n v).fld (frameReg .ASTK_FACCT d g n) ASTK_FACCT.PEAK = 0 ∧ (s.newFrame d g n v).fld (frameReg .ASTK_FEXP d g n) ASTK_FEXP.SPILLED = 0 := by
  have expect : bits v 63 32 < 0x100000000 := bits_lt ..
  refine ⟨?_, ?_, ?_, ?_⟩ <;>
    simp [State.newFrame, State.fld_setFld_same, State.fld_setFld_other, ASTK_FEXP.EXPECT, ASTK_FEXP.SPILLED, expect]

theorem State.frameCount_newFrame (s : State) {n : Nat} (h : n < 16) (d g v : Nat) : (s.newFrame d g n v).frameCount d g = n + 1 := by
  rw [State.frameCount, State.newFrame, State.fld_setFld_same _ _ _ _ (by decide) (by decide)]
  exact Nat.mod_eq_of_lt (by simp only [ASTK_FSTAT.NFRAMES]; omega)

/-- A frame set up leaves another frame's registers. -/
theorem State.reg_newFrame_ne (s : State) {m : RegName} (hm : m.isFrame = true) {n : Nat} (h : f ≠ n) (d g v : Nat) :
    (s.newFrame d g n v).reg (frameReg m d g f) = s.reg (frameReg m d g f) := by
  simp [State.newFrame, hm, h]

theorem State.fld_mismatches_newFrame (s : State) (d g n v : Nat) : (s.newFrame d g n v).fld (fstat d g) ASTK_FSTAT.MISMATCHES = s.fld (fstat d g) ASTK_FSTAT.MISMATCHES := by
  rw [State.newFrame, State.fld_setFld_other _ _ _ _ _ (by decide) (by decide) (by decide)]
  simp

/-! OPEN (08 R321). -/

theorem State.frameOpen_disabled (v : Nat) (h : s.fld (astkCfg d g) ASTK_CFG.ENABLE = 0) : s.frameOpen d g v = s.frameRefused d g .state := by
  simp [State.frameOpen, h]

theorem State.frameOpen_full (v : Nat) (en : s.fld (astkCfg d g) ASTK_CFG.ENABLE = 1) (h : s.frameCount d g = 16) : s.frameOpen d g v = s.frameRefused d g .noResource := by
  simp [State.frameOpen, en, h]

theorem State.frameOpen_draining (v : Nat) (en : s.fld (astkCfg d g) ASTK_CFG.ENABLE = 1) (room : s.frameCount d g ≠ 16) (h : s.topFrame d g = some (f, 3)) :
    s.frameOpen d g v = s.frameRefused d g .state := by
  simp [State.frameOpen, en, room, h]

/-- An OPEN that is not refused seals a FILLING top frame and sets up the next. -/
theorem State.frameOpen_accepted (v : Nat) (en : s.fld (astkCfg d g) ASTK_CFG.ENABLE = 1) (room : s.frameCount d g ≠ 16) (top : ∀ f st, s.topFrame d g = some (f, st) → st ≠ 3) :
    s.frameOpen d g v = ((s.sealTop d g).newFrame d g (s.frameCount d g) v, .ok) := by
  rcases h : s.topFrame d g with _ | ⟨f, st⟩
  · simp [State.frameOpen, State.sealTop, State.newFrame, en, room, h]
  · simp [State.frameOpen, State.sealTop, State.newFrame, en, room, h, top f st h]

/-! DRAIN (08 R323). -/

theorem State.frameDrain_disabled (v : Nat) (h : s.fld (astkCfg d g) ASTK_CFG.ENABLE = 0) : s.frameDrain d g v = s.frameRefused d g .state := by
  simp [State.frameDrain, h]

theorem State.frameDrain_no_frame (v : Nat) (en : s.fld (astkCfg d g) ASTK_CFG.ENABLE = 1) (h : s.frameCount d g = 0) : s.frameDrain d g v = s.frameRefused d g .state := by
  simp [State.frameDrain, en, State.topFrame_eq_none.2 h]

theorem State.frameDrain_unfit {st v : Nat} (en : s.fld (astkCfg d g) ASTK_CFG.ENABLE = 1) (top : s.topFrame d g = some (f, st))
    (h : s.fld (frameReg .ASTK_FRAME d g f) ASTK_FRAME.MB ≠ bits v 31 16 ∨ st = 3) : s.frameDrain d g v = s.frameRefused d g .state := by
  simp [State.frameDrain, en, top, h]

/-- DRAIN of the top frame by its MB: with the frame sealed, MISMATCH decides. -/
theorem State.frameDrain_sealed {st v : Nat} (en : s.fld (astkCfg d g) ASTK_CFG.ENABLE = 1) (top : s.topFrame d g = some (f, st))
    (mb : s.fld (frameReg .ASTK_FRAME d g f) ASTK_FRAME.MB = bits v 31 16) (h : st = 1 ∧ t = s.seal d g f ∨ st = 2 ∧ t = s) :
    s.frameDrain d g v = if t.fld (frameReg .ASTK_FRAME d g f) ASTK_FRAME.MISMATCH = 1 then t.frameRefused d g .state else (t.setFld (frameReg .ASTK_FRAME d g f) ASTK_FRAME.STATE 3, .ok) := by
  rcases h with ⟨rfl, rfl⟩ | ⟨rfl, rfl⟩ <;> simp [State.frameDrain, en, top, mb]

/-! A write of ASTK_FCMD (08 R320, R325). -/

/-- The command's code in the word leaves the word's MB and EXPECT. -/
theorem bits_frameCmd (v c : Nat) {hi lo : Nat} (h : 1 < lo) : bits (setBits v ASTK_FCMD.CMD.hi ASTK_FCMD.CMD.lo c) hi lo = bits v hi lo :=
  bits_setBits_out _ _ _ _ _ _ (by decide) (.inr h)

/-- The commands by their code (08 R320): none, OPEN, DRAIN, and the reserved one. -/
theorem State.frameApply_code (s : State) (d g v : Nat) :
    s.frameApply d g (setBits v ASTK_FCMD.CMD.hi ASTK_FCMD.CMD.lo 0) = (s, .ok) ∧ s.frameApply d g (setBits v ASTK_FCMD.CMD.hi ASTK_FCMD.CMD.lo 1) = s.frameOpen d g v ∧
      s.frameApply d g (setBits v ASTK_FCMD.CMD.hi ASTK_FCMD.CMD.lo 2) = s.frameDrain d g v ∧
      s.frameApply d g (setBits v ASTK_FCMD.CMD.hi ASTK_FCMD.CMD.lo 3) = s.frameRefused d g .range := by
  have code (c : Nat) : bits (setBits v ASTK_FCMD.CMD.hi ASTK_FCMD.CMD.lo c) 1 0 = c % 4 := bits_setBits_same _ _ _ _ (by decide)
  refine ⟨?_, ?_, ?_, ?_⟩ <;> simp only [State.frameApply, code]
  · simp only [State.frameOpen, bits_frameCmd v 1 (show 1 < 16 by decide), bits_frameCmd v 1 (show 1 < 32 by decide)]
  · simp only [State.frameDrain, bits_frameCmd v 2 (show 1 < 16 by decide)]

theorem State.fcmdWrite_turn {u : State} (h : FrameTurn s d g u) (v : Nat) : s.fcmdWrite d g v = u.frameApply d g v := by
  obtain ⟨head, rfl, empty⟩ := h
  simp [State.fcmdWrite, head, empty]

variable {u : State} {a : Actor} {i : Die} {j : Fin 64}

/-- A frame command whose turn has come is applied and answered. -/
theorem FrameTurn.frameCmd (hw : Writable s a (astk .ASTK_FCMD d g)) (ht : FrameTurn s d g u) (c v : Nat) :
    s.frameCmd a d g c v = .next ((u.frameApply d g (setBits v ASTK_FCMD.CMD.hi ASTK_FCMD.CMD.lo c)).1.answer (u.frameApply d g (setBits v ASTK_FCMD.CMD.hi ASTK_FCMD.CMD.lo c)).2 0) := by
  rw [State.frameCmd, hw.cmd, ← State.fcmdWrite_turn ht]
  rfl

theorem FrameTurn.exec_frameOpen (hw : Writable s a (astk .ASTK_FCMD i.val j.val)) (ht : FrameTurn s i.val j.val u) (v : Word) :
    exec (.frameOpen a i j v) s = .next ((u.frameOpen i.val j.val v.toNat).1.answer (u.frameOpen i.val j.val v.toNat).2 0) := by
  rw [← (u.frameApply_code _ _ _).2.1]
  exact ht.frameCmd hw 1 v.toNat

theorem FrameTurn.exec_frameDrain (hw : Writable s a (astk .ASTK_FCMD i.val j.val)) (ht : FrameTurn s i.val j.val u) (v : Word) :
    exec (.frameDrain a i j v) s = .next ((u.frameDrain i.val j.val v.toNat).1.answer (u.frameDrain i.val j.val v.toNat).2 0) := by
  rw [← (u.frameApply_code _ _ _).2.2.1]
  exact ht.frameCmd hw 2 v.toNat

theorem FrameTurn.exec_frameNoAction (hw : Writable s a (astk .ASTK_FCMD i.val j.val)) (ht : FrameTurn s i.val j.val u) (v : Word) :
    exec (.frameNoAction a i j v) s = .next (u.answer .ok 0) := by
  have e := ht.frameCmd hw 0 v.toNat
  rw [(u.frameApply_code _ _ _).1] at e
  exact e

theorem FrameTurn.exec_frameCmdReserved (hw : Writable s a (astk .ASTK_FCMD i.val j.val)) (ht : FrameTurn s i.val j.val u) (v : Word) :
    exec (.frameCmdReserved a i j v) s = .next ((u.setW1c (fstat i.val j.val) ASTK_FSTAT.REFUSED).answer .range 0) := by
  have e := ht.frameCmd hw 3 v.toNat
  rw [(u.frameApply_code _ _ _).2.2.2] at e
  exact e

/-- What an OPEN that is not refused leaves (08 R321): the frame set up and counted, and a FILLING top frame sealed. -/
theorem State.newFrame_sealTop_spec (u : State) (d g n v : Nat) (hn : u.frameCount d g = n) (room : n < 16) :
    OnlyRegs u ((u.sealTop d g).newFrame d g n v) [frameReg .ASTK_FRAME d g n, frameReg .ASTK_FACCT d g n, frameReg .ASTK_FEXP d g n, fstat d g, frameReg .ASTK_FRAME d g (n - 1), frameReg .ASTK_FACCT d g (n - 1)] ∧
      ∀ f, u.topFrame d g = some (f, 1) →
        ((u.sealTop d g).newFrame d g n v).reg (frameReg .ASTK_FRAME d g f) = (u.seal d g f).reg (frameReg .ASTK_FRAME d g f) ∧
        ((u.sealTop d g).newFrame d g n v).reg (frameReg .ASTK_FACCT d g f) = (u.seal d g f).reg (frameReg .ASTK_FACCT d g f) ∧
        ((u.sealTop d g).newFrame d g n v).fld (fstat d g) ASTK_FSTAT.MISMATCHES = (u.seal d g f).fld (fstat d g) ASTK_FSTAT.MISMATCHES := by
  subst hn
  refine ⟨(State.sealTop_onlyRegs (by simp) (by simp) (by simp)).newFrame v (by simp) (by simp) (by simp) (by simp), fun f top => ?_⟩
  obtain ⟨used, hf, -⟩ := State.topFrame_eq_some.1 top
  have ne : f ≠ u.frameCount d g := by omega
  rw [State.sealTop_of_filling top, State.reg_newFrame_ne _ rfl ne, State.reg_newFrame_ne _ rfl ne, State.fld_mismatches_newFrame]
  exact ⟨rfl, rfl, rfl⟩

end Sys2Proof.Machine

open Sys2Proof Sys2Proof.Machine

/-- Settles O16: each command in its turn is applied to the state the turn leaves (08 R325), and each outcome is a rule of OPEN, DRAIN or sealing. -/
theorem frameCommandsSealOpenAndDrain : Obligations.FrameCommandsSealOpenAndDrain := by
  unfold Obligations.FrameCommandsSealOpenAndDrain
  refine ⟨?accepted, ?full, ?draining, ?sealing, ?unfit, ?drain, ?disabled, fun _ _ _ _ _ v hw ht => ht.exec_frameNoAction hw v, fun _ _ _ _ _ v hw ht => ht.exec_frameCmdReserved hw v⟩
  case accepted =>
    intro s u a d g v n hw ht en hn room top
    obtain ⟨state, base, mb⟩ := (u.sealTop d g).fld_frame_newFrame d g n v.toNat
    obtain ⟨expect, sealed, peak, spilled⟩ := (u.sealTop d g).fld_accounts_newFrame d g n v.toNat
    obtain ⟨only, seals⟩ := u.newFrame_sealTop_spec d g n v.toNat hn room
    refine ⟨(u.sealTop d g).newFrame d g n v.toNat, ?_, only, state, base.trans (u.stackTop_sealTop _ _), mb, expect, sealed, peak, spilled, State.frameCount_newFrame _ room _ _ _, seals⟩
    rw [ht.exec_frameOpen hw, State.frameOpen_accepted _ en (by omega) top, hn]
  case full =>
    intro s u a d g v hw ht en hn
    rw [ht.exec_frameOpen hw, State.frameOpen_full _ en hn]; rfl
  case draining =>
    intro s u a d g v f hw ht en room top
    rw [ht.exec_frameOpen hw, State.frameOpen_draining _ en room top]; rfl
  case sealing =>
    rintro s d g f _ rfl
    refine ⟨(OnlyRegs.refl s _).seal (by simp) (by simp) (by simp), s.frameState_seal _ _ _, s.fld_sealed_seal _ _ _, fun ⟨wanted, other⟩ => State.fld_mismatch_seal wanted other, fun fits => ?_⟩
    rw [State.seal_of_match fits]
    exact ⟨s.sealedAt_mismatch _ _ _, s.sealedAt_fstat _ _ _⟩
  case unfit =>
    intro s u a d g v hw ht en h
    rw [ht.exec_frameDrain hw]
    rcases h with empty | ⟨f, st, top, h⟩
    · rw [State.frameDrain_no_frame _ en empty]; rfl
    · rw [State.frameDrain_unfit en top h]; rfl
  case drain =>
    intro s u w a d g v f st hw ht en top mb h
    rw [ht.exec_frameDrain hw, State.frameDrain_sealed en top mb h]
    exact ⟨fun m => by rw [if_neg (by omega)], fun m => by rw [if_pos m]; rfl⟩
  case disabled =>
    intro s u a d g v hw ht en
    rw [ht.exec_frameOpen hw, ht.exec_frameDrain hw, State.frameOpen_disabled _ en, State.frameDrain_disabled _ en]
    exact ⟨rfl, rfl⟩
end

section
/-! Eyelet mailboxes (13 R480-R490): where their registers lie, and what a word written, a message taken, a bell rung, a configuration and a timeout leave in them. -/
namespace Sys2Proof.Machine

/-! Where the registers of a mailbox lie: no two of them share an address, and the interrupt lines change none of them. -/

/-- The registers that stand behind the message words in a mailbox's block of 0x80 bytes (13 R480). -/
def RegName.behindWords (n : RegName) : Prop := n.layout.strideI = 0x80 ∧ 0xD000040 ≤ n.layout.base ∧ n.layout.base < 0xD000080

theorem RegName.behindWords_EYE_STATUS : RegName.behindWords .EYE_STATUS := by simp [behindWords, layout]
theorem RegName.behindWords_EYE_CFG : RegName.behindWords .EYE_CFG := by simp [behindWords, layout]
theorem RegName.behindWords_EYE_DB : RegName.behindWords .EYE_DB := by simp [behindWords, layout]
theorem RegName.behindWords_EYE_DB_MASK : RegName.behindWords .EYE_DB_MASK := by simp [behindWords, layout]

theorem addr_eyeMsg (d m k : Nat) : (eyeMsg d m k).addr = 8 * 2 ^ 44 + d * 2 ^ 38 + 0xD000000 + 0x80 * m + 8 * k := rfl

theorem RegName.behindWords.addr {n : RegName} (hn : n.behindWords) (d m : Nat) : (eye n d m).addr = 8 * 2 ^ 44 + d * 2 ^ 38 + n.layout.base + 0x80 * m := by
  rw [← hn.1]; rfl

theorem addr_eyeMsg_ne {j k : Nat} (h : j ≠ k) (d m : Nat) : (eyeMsg d m j).addr ≠ (eyeMsg d m k).addr := by
  simp only [addr_eyeMsg]; omega

theorem RegName.behindWords.addr_ne_eyeMsg {n : RegName} (hn : n.behindWords) {k : Nat} (hk : k < 8) (d m : Nat) : (eye n d m).addr ≠ (eyeMsg d m k).addr := by
  obtain ⟨-, low, -⟩ := id hn
  rw [hn.addr, addr_eyeMsg]; omega

theorem RegName.behindWords.addr_ne {n q : RegName} (hn : n.behindWords) (hq : q.behindWords) (h : n.layout.base ≠ q.layout.base) (d m : Nat) :
    (eye n d m).addr ≠ (eye q d m).addr := by
  rw [hn.addr, hq.addr]; omega

/-- What lies in a mailbox's block is no account word, session count, pin status or PENDING word. -/
theorem plain_of_mailbox {q : Reg} (d : Die) (m : Fin 512) {o : Nat} (ho : o < 0x80) (h : q.addr = 8 * 2 ^ 44 + d.val * 2 ^ 38 + 0xD000000 + 0x80 * m.val + o) : Plain q := by
  have hd := d.isLt
  have hm := m.isLt
  refine ⟨fun n w => ?_, fun k => ?_, ?_, fun ic x hx => ?_⟩ <;> rw [h]
  · simp only [Reg.addr, acct, RegName.layout, selSv0]; omega
  · simp only [Reg.addr, hp, RegName.layout, selIo]; omega
  · simp only [Reg.addr, RegName.layout, selSv0]; omega
  · simp only [Reg.addr, icPending, RegName.layout, icSel]; split <;> omega

theorem plain_eyeMsg (d : Die) (m : Fin 512) {k : Nat} (hk : k < 8) : Plain (eyeMsg d.val m.val k) :=
  plain_of_mailbox d m (o := 8 * k) (by omega) (addr_eyeMsg ..)

theorem RegName.behindWords.plain {n : RegName} (hn : n.behindWords) (d : Die) (m : Fin 512) : Plain (eye n d.val m.val) := by
  obtain ⟨-, low, high⟩ := id hn
  exact plain_of_mailbox d m (o := n.layout.base - 0xD000000) (by omega) (by rw [hn.addr]; omega)

variable (s : State)

@[simp] theorem State.fld_answer (st : Status) (v : Word) (q : Reg) (f : Fld) : (s.answer st v).fld q f = s.fld q f := rfl

/-! A message word written (13 R484, R485). -/

/-- What a write of word `k` notes of this cycle (13 R486): what the first write of the cycle met, and whether word 7 is among them. -/
def State.eyeNote (s : State) (d m k : Nat) : EyeWrite :=
  let w := (s.eyeNow d m).getD ⟨s.now, s.eyeFull d m, s.reg (eyeMsg d m 7), s.fld (eye .EYE_STATUS d m) EYE_STATUS.COLLISION == 1, false⟩
  { w with committed := w.committed || k == 7 }

/-- What this cycle's accesses have done to a mailbox noted. -/
def State.noteEye (s : State) (d m : Nat) (w : EyeWrite) : State := { s with eyeWrites := tset s.eyeWrites (d * 512 + m) w }

@[simp] theorem State.noteEye_mem (d m : Nat) (w : EyeWrite) : (s.noteEye d m w).mem = s.mem := rfl
@[simp] theorem State.noteEye_cores (d m : Nat) (w : EyeWrite) : (s.noteEye d m w).cores = s.cores := rfl
@[simp] theorem State.fld_noteEye (d m : Nat) (w : EyeWrite) (q : Reg) (f : Fld) : (s.noteEye d m w).fld q f = s.fld q f := rfl

/-- A message word written, with the note of this cycle. -/
def State.eyeWord (s : State) (d m k : Nat) (v : Word) : State := (s.noteEye d m (s.eyeNote d m k)).setReg (eyeMsg d m k) v

/-- A message word written and a collision with an unread message set, before the commit that word 7 makes. -/
def State.eyeStore (s : State) (d m k : Nat) (v : Word) : State :=
  if s.eyeFull d m then (s.eyeWord d m k v).setW1c (eye .EYE_STATUS d m) EYE_STATUS.COLLISION else s.eyeWord d m k v

/-- The commit of word 7: FULL is set and the timer starts (13 R484, R487). -/
def State.eyeCommitted (s : State) (d m : Nat) : State :=
  ({ s.setFld (eye .EYE_STATUS d m) EYE_STATUS.FULL 1 with eyeCommits := tset s.eyeCommits (d * 512 + m) s.now } : State).eyeSync d m

variable {s} {d m k : Nat} (v : Word)

theorem State.eyeMsgWrite_eq (s : State) (d m k : Nat) :
    s.eyeMsgWrite d m k v.toNat = if k != 7 then (s.eyeStore d m k v, .ok) else ((s.eyeStore d m k v).eyeCommitted d m, .ok) := by
  have e : BitVec.ofNat 64 v.toNat = v := by simp
  unfold State.eyeMsgWrite
  rw [e]
  rfl

theorem State.eyeMsgWrite_of_ne (h : k ≠ 7) : s.eyeMsgWrite d m k v.toNat = (s.eyeStore d m k v, .ok) := by simp [State.eyeMsgWrite_eq, h]

theorem State.eyeMsgWrite_seven : s.eyeMsgWrite d m 7 v.toNat = ((s.eyeStore d m 7 v).eyeCommitted d m, .ok) := by simp [State.eyeMsgWrite_eq]

theorem State.eyeStore_empty (h : s.eyeFull d m = false) : s.eyeStore d m k v = s.eyeWord d m k v := by simp [State.eyeStore, h]

/-- FULL as an access meets it is at most the bit of EYE_STATUS. -/
theorem State.full_of_eyeFull (h : s.eyeFull d m = true) : s.fld (eye .EYE_STATUS d m) EYE_STATUS.FULL = 1 := by
  simp only [State.eyeFull, Bool.and_eq_true, beq_iff_eq] at h
  exact h.1

variable (s) (d m k)

/-- A word written changes neither memory, cores, the clock nor a register other than the word and EYE_STATUS. -/
theorem State.eyeStore_frame : (s.eyeStore d m k v).mem = s.mem ∧ (s.eyeStore d m k v).cores = s.cores ∧ (s.eyeStore d m k v).now = s.now ∧
    ∀ q : Reg, q.addr ≠ (eyeMsg d m k).addr → q.addr ≠ (eye .EYE_STATUS d m).addr → (s.eyeStore d m k v).reg q = s.reg q := by
  unfold State.eyeStore
  split
  · exact ⟨rfl, rfl, rfl, fun q word status => (State.reg_setFld_ne _ _ _ status).trans (State.reg_setReg_ne _ _ word)⟩
  · exact ⟨rfl, rfl, rfl, fun q word _ => State.reg_setReg_ne _ _ word⟩

theorem State.reg_eyeStore_word (hk : k < 8) : (s.eyeStore d m k v).reg (eyeMsg d m k) = v := by
  unfold State.eyeStore
  split
  · exact (State.reg_setFld_ne _ _ _ (RegName.behindWords_EYE_STATUS.addr_ne_eyeMsg hk d m).symm).trans (State.reg_setReg_same _ _ _)
  · exact State.reg_setReg_same _ _ _

/-- A word written sets COLLISION where it meets an unread message, and leaves FULL as it was (13 R485). -/
theorem State.status_eyeStore (hk : k < 8) :
    (s.eyeStore d m k v).fld (eye .EYE_STATUS d m) EYE_STATUS.COLLISION = (if s.eyeFull d m = true then 1 else s.fld (eye .EYE_STATUS d m) EYE_STATUS.COLLISION) ∧
      (s.eyeStore d m k v).fld (eye .EYE_STATUS d m) EYE_STATUS.FULL = s.fld (eye .EYE_STATUS d m) EYE_STATUS.FULL := by
  have apart := RegName.behindWords_EYE_STATUS.addr_ne_eyeMsg hk d m
  unfold State.eyeStore
  split
  · exact ⟨State.fld_setFld_same _ _ _ _ (by decide) (by decide), (State.fld_setFld_other _ _ _ _ _ (by decide) (by decide) (by decide)).trans (State.fld_setReg_ne _ _ _ apart)⟩
  · exact ⟨State.fld_setReg_ne _ _ _ apart, State.fld_setReg_ne _ _ _ apart⟩

variable (i : Die) (j : Fin 512)

theorem State.aside_eyeCommitted (d m : Nat) :
    Aside { s.setFld (eye .EYE_STATUS d m) EYE_STATUS.FULL 1 with eyeCommits := tset s.eyeCommits (d * 512 + m) s.now } (s.eyeCommitted d m) := State.aside_eyeSync ..

/-- A commit changes neither memory, cores nor a register of the mailbox other than EYE_STATUS. -/
theorem State.eyeCommitted_frame : (s.eyeCommitted i.val j.val).mem = s.mem ∧ (s.eyeCommitted i.val j.val).cores = s.cores ∧
    ∀ q : Reg, Plain q → q.addr ≠ (eye .EYE_STATUS i.val j.val).addr → (s.eyeCommitted i.val j.val).reg q = s.reg q :=
  have sync := s.aside_eyeCommitted i.val j.val
  ⟨sync.mem, sync.cores, fun q plain status => (sync.2 q plain).trans (State.reg_setFld_ne _ _ _ status)⟩

/-- A commit sets FULL, leaves COLLISION and starts the timer. -/
theorem State.status_eyeCommitted : (s.eyeCommitted i.val j.val).fld (eye .EYE_STATUS i.val j.val) EYE_STATUS.FULL = 1 ∧
    (s.eyeCommitted i.val j.val).fld (eye .EYE_STATUS i.val j.val) EYE_STATUS.COLLISION = s.fld (eye .EYE_STATUS i.val j.val) EYE_STATUS.COLLISION ∧
    tget? (s.eyeCommitted i.val j.val).eyeCommits (i.val * 512 + j.val) = some s.now := by
  have sync := s.aside_eyeCommitted i.val j.val
  have plain := RegName.behindWords_EYE_STATUS.plain i j
  refine ⟨(sync.fld plain _).trans (State.fld_setFld_same _ _ _ _ (by decide) (by decide)), (sync.fld plain _).trans (State.fld_setFld_other _ _ _ _ _ (by decide) (by decide) (by decide)), ?_⟩
  rw [sync.eyeCommits]
  exact tget?_tset_same _ _ _

/-- What a write of any message word does (13 R484, R485, R487): the word alone changes, an unread message is a collision, and word 7 commits. -/
theorem State.eyeMsgWrite_spec (k : Fin 8) : ∃ t : State, s.eyeMsgWrite i.val j.val k.val v.toNat = (t, .ok) ∧ t.mem = s.mem ∧ t.cores = s.cores ∧ t.reg (eyeMsg i.val j.val k.val) = v ∧
    (∀ n, n < 8 → n ≠ k.val → t.reg (eyeMsg i.val j.val n) = s.reg (eyeMsg i.val j.val n)) ∧
    t.fld (eye .EYE_STATUS i.val j.val) EYE_STATUS.COLLISION = (if s.eyeFull i.val j.val = true then 1 else s.fld (eye .EYE_STATUS i.val j.val) EYE_STATUS.COLLISION) ∧
    t.fld (eye .EYE_STATUS i.val j.val) EYE_STATUS.FULL = (if k.val = 7 then 1 else s.fld (eye .EYE_STATUS i.val j.val) EYE_STATUS.FULL) ∧
    (k.val = 7 → tget? t.eyeCommits (i.val * 512 + j.val) = some s.now) := by
  have status := fun {n : Nat} (hn : n < 8) => (RegName.behindWords_EYE_STATUS.addr_ne_eyeMsg hn i.val j.val).symm
  by_cases seven : k.val = 7
  · have e := State.eyeMsgWrite_seven (s := s) (d := i.val) (m := j.val) v
    obtain ⟨mem, cores, now, others⟩ := s.eyeStore_frame i.val j.val 7 v
    obtain ⟨collision, -⟩ := s.status_eyeStore i.val j.val 7 v (by decide)
    obtain ⟨mem', cores', others'⟩ := (s.eyeStore i.val j.val 7 v).eyeCommitted_frame i j
    obtain ⟨full, collision', commits⟩ := (s.eyeStore i.val j.val 7 v).status_eyeCommitted i j
    rw [seven]
    refine ⟨_, e, mem'.trans mem, cores'.trans cores, ?_, fun n hn ne => ?_, collision'.trans collision, full, fun _ => commits.trans (congrArg _ now)⟩
    · rw [others' _ (plain_eyeMsg i j (by decide)) (status (by decide)), State.reg_eyeStore_word _ _ _ _ _ (by decide)]
    · rw [others' _ (plain_eyeMsg i j hn) (status hn), others _ (addr_eyeMsg_ne ne _ _) (status hn)]
  · have e := State.eyeMsgWrite_of_ne (s := s) (d := i.val) (m := j.val) v seven
    obtain ⟨mem, cores, -, others⟩ := s.eyeStore_frame i.val j.val k.val v
    obtain ⟨collision, full⟩ := s.status_eyeStore i.val j.val k.val v k.isLt
    refine ⟨_, e, mem, cores, State.reg_eyeStore_word _ _ _ _ _ k.isLt, fun n hn ne => others _ (addr_eyeMsg_ne ne _ _) (status hn), collision, ?_, fun h => absurd h seven⟩
    rw [full, if_neg seven]

/-! A message taken (13 R484, R486). -/

/-- An expiry undone changes at most TIMEOUT. -/
theorem State.undoExpiry_cases (d m : Nat) : s.undoExpiry d m = s ∨ s.undoExpiry d m = s.setFld (eye .EYE_STATUS d m) EYE_STATUS.TIMEOUT 0 := by
  unfold State.undoExpiry
  split
  · split
    · exact .inr rfl
    · exact .inl rfl
  · exact .inl rfl

theorem State.collision_undoExpiry (d m : Nat) :
    (s.undoExpiry d m).fld (eye .EYE_STATUS d m) EYE_STATUS.COLLISION = s.fld (eye .EYE_STATUS d m) EYE_STATUS.COLLISION := by
  rcases s.undoExpiry_cases d m with e | e <;> rw [e]
  exact State.fld_setFld_other _ _ _ _ _ (by decide) (by decide) (by decide)

theorem State.undoExpiry_mem_cores (d m : Nat) : (s.undoExpiry d m).mem = s.mem ∧ (s.undoExpiry d m).cores = s.cores := by
  rcases s.undoExpiry_cases d m with e | e <;> rw [e] <;> exact ⟨rfl, rfl⟩

theorem State.aside_eyeTaken (d m : Nat) (next : Bool) :
    ∃ c, Aside { ((s.undoExpiry d m).setFld (eye .EYE_STATUS d m) EYE_STATUS.FULL (flag next)).setW1c (eye .EYE_STATUS d m) EYE_STATUS.EMPTIED with eyeCommits := c } (s.eyeTaken d m next) :=
  ⟨_, State.aside_eyeSync ..⟩

theorem State.eyeTaken_eyeWrites (d m : Nat) (next : Bool) : (s.eyeTaken d m next).eyeWrites = s.eyeWrites := by
  obtain ⟨c, ⟨⟨g, n, e, x, p, l, a, r, o, h⟩, -⟩⟩ := s.aside_eyeTaken d m next
  rw [h]
  rcases s.undoExpiry_cases d m with e | e <;> rw [e] <;> rfl

/-- A message taken leaves FULL for one committed in this cycle only, EMPTIED set and COLLISION as it was; memory and cores stay. -/
theorem State.eyeTaken_spec (next : Bool) : (s.eyeTaken i.val j.val next).mem = s.mem ∧ (s.eyeTaken i.val j.val next).cores = s.cores ∧
    (s.eyeTaken i.val j.val next).fld (eye .EYE_STATUS i.val j.val) EYE_STATUS.FULL = flag next ∧
    (s.eyeTaken i.val j.val next).fld (eye .EYE_STATUS i.val j.val) EYE_STATUS.COLLISION = s.fld (eye .EYE_STATUS i.val j.val) EYE_STATUS.COLLISION ∧
    (s.eyeTaken i.val j.val next).fld (eye .EYE_STATUS i.val j.val) EYE_STATUS.EMPTIED = 1 := by
  obtain ⟨mem, cores⟩ := s.undoExpiry_mem_cores i.val j.val
  obtain ⟨c, sync⟩ := s.aside_eyeTaken i.val j.val next
  have plain := RegName.behindWords_EYE_STATUS.plain i j
  refine ⟨sync.mem.trans mem, sync.cores.trans cores, (sync.fld plain _).trans ?full, (sync.fld plain _).trans ?collision, (sync.fld plain _).trans ?emptied⟩
  case full =>
    refine (State.fld_setFld_other _ _ _ _ _ (by decide) (by decide) (by decide)).trans ((State.fld_setFld_same _ _ _ _ (by decide) (by decide)).trans ?_)
    exact Nat.mod_eq_of_lt (flag_lt next)
  case collision =>
    refine (State.fld_setFld_other _ _ _ _ _ (by decide) (by decide) (by decide)).trans ((State.fld_setFld_other _ _ _ _ _ (by decide) (by decide) (by decide)).trans ?_)
    exact s.collision_undoExpiry _ _
  case emptied => exact State.fld_setFld_same _ _ _ _ (by decide) (by decide)

variable {s d m} {w : EyeWrite}

theorem State.eyeTake_not_full (h : s.eyeFull d m = false) : s.eyeTake d m = (s, s.reg (eyeMsg d m 7)) := by
  simp [State.eyeTake, h]

theorem State.eyeTake_full (h : s.eyeFull d m = true) (now : s.eyeNow d m = none) : s.eyeTake d m = (s.eyeTaken d m false, s.reg (eyeMsg d m 7)) := by
  simp [State.eyeTake, h, now]

/-- Of a take and writes of one cycle the take is performed first (13 R486). -/
theorem State.eyeTake_full_written (h : s.eyeFull d m = true) (now : s.eyeNow d m = some w) :
    s.eyeTake d m = (((s.setFld (eye .EYE_STATUS d m) EYE_STATUS.COLLISION (flag w.collided)).eyeTaken d m w.committed).noteEye d m { w with full := false }, w.word) := by
  simp [State.eyeTake, h, now, State.noteEye, State.eyeTaken_eyeWrites]

/-! Bells (13 R488). -/

variable (s)

/-- Bells are ored in. -/
theorem State.eyeDbSet_spec : ∃ t : State, s.eyeDbSet i.val j.val v.toNat = (t, .ok) ∧ t.mem = s.mem ∧ t.cores = s.cores ∧
    t.fld (eye .EYE_DB i.val j.val) EYE_DB.BELLS = s.fld (eye .EYE_DB i.val j.val) EYE_DB.BELLS ||| bits v.toNat 31 0 := by
  have sync := State.aside_eyeSync ((s.setFld (eye .EYE_DB i.val j.val) EYE_DB.BELLS (s.fld (eye .EYE_DB i.val j.val) EYE_DB.BELLS ||| bits v.toNat 31 0)).noteCycle (eye .EYE_DB i.val j.val)
    (s.thisCycle (eye .EYE_DB i.val j.val) ||| bits v.toNat 31 0)) i.val j.val
  have bells : s.fld (eye .EYE_DB i.val j.val) EYE_DB.BELLS ||| bits v.toNat 31 0 < 2 ^ 32 := Nat.or_lt_two_pow (s.fld_lt _ _) (bits_lt ..)
  refine ⟨_, rfl, sync.mem, sync.cores, (sync.fld (RegName.behindWords_EYE_DB.plain i j) _).trans ((State.fld_setFld_same _ _ _ _ (by decide) (by decide)).trans ?_)⟩
  exact Nat.mod_eq_of_lt bells

/-! The configuration (13 R490). -/

/-- Message words of a mailbox zeroed. -/
def State.zeroWords (s : State) (d m : Nat) (l : List Nat) : State := l.foldl (fun s k => s.setReg (eyeMsg d m k) 0) s

theorem State.zeroWords_onlyRegs (d m : Nat) (l : List Nat) : OnlyRegs s (s.zeroWords d m l) (l.map (eyeMsg d m)) :=
  OnlyRegs.foldl _ (fun _ _ hx a => a.setReg _ (List.mem_map_of_mem hx)) (OnlyRegs.refl s _)

/-- A word zeroed holds zero, whatever is zeroed after it. -/
theorem State.reg_zeroWords {k : Nat} (d m : Nat) (l : List Nat) (h : k ∈ l ∨ s.reg (eyeMsg d m k) = 0#64) : (s.zeroWords d m l).reg (eyeMsg d m k) = 0#64 := by
  induction l generalizing s with
  | nil => exact h.resolve_left List.not_mem_nil
  | cons n l ih =>
    refine ih (s.setReg (eyeMsg d m n) 0) ?_
    by_cases e : k = n
    · exact .inr (by rw [e]; exact State.reg_setReg_same _ _ _)
    · rw [State.reg_setReg_ne _ _ (addr_eyeMsg_ne e d m)]
      simpa [e] using h

theorem State.reg_eye_zeroWords {n : RegName} (hn : n.behindWords) (d m : Nat) : (s.zeroWords d m (List.range 8)).reg (eye n d m) = s.reg (eye n d m) := by
  refine (s.zeroWords_onlyRegs d m _).same.reg fun listed => ?_
  simp only [List.map_map, List.mem_map, List.mem_range, Function.comp_apply] at listed
  obtain ⟨k, hk, e⟩ := listed
  exact hn.addr_ne_eyeMsg hk d m e.symm

/-- The registers of a mailbox but EYE_CFG zeroed. -/
def State.zeroMailbox (s : State) (d m : Nat) : State :=
  (((s.zeroWords d m (List.range 8)).setReg (eye .EYE_STATUS d m) 0).setReg (eye .EYE_DB d m) 0).setReg (eye .EYE_DB_MASK d m) 0

theorem State.eyeZero_eq (d m : Nat) :
    s.eyeZero d m = { s.zeroMailbox d m with eyeCommits := tdel (s.zeroMailbox d m).eyeCommits (d * 512 + m), eyeWrites := tdel (s.zeroMailbox d m).eyeWrites (d * 512 + m) } := rfl

theorem State.zeroMailbox_mem_cores (d m : Nat) : (s.zeroMailbox d m).mem = s.mem ∧ (s.zeroMailbox d m).cores = s.cores := by
  obtain ⟨⟨g, l, e⟩, -⟩ := s.zeroWords_onlyRegs d m (List.range 8)
  rw [State.zeroMailbox, e]
  exact ⟨rfl, rfl⟩

theorem State.reg_zeroMailbox (d m : Nat) : (s.zeroMailbox d m).reg (eye .EYE_CFG d m) = s.reg (eye .EYE_CFG d m) ∧ (∀ k, k < 8 → (s.zeroMailbox d m).reg (eyeMsg d m k) = 0#64) ∧
    (s.zeroMailbox d m).reg (eye .EYE_STATUS d m) = 0#64 ∧ (s.zeroMailbox d m).reg (eye .EYE_DB d m) = 0#64 ∧ (s.zeroMailbox d m).reg (eye .EYE_DB_MASK d m) = 0#64 := by
  have apart {n q : RegName} (hn : n.behindWords) (hq : q.behindWords) (h : n.layout.base ≠ q.layout.base) (t : State) : (t.setReg (eye q d m) 0).reg (eye n d m) = t.reg (eye n d m) :=
    t.reg_setReg_ne _ (hn.addr_ne hq h d m)
  have word {q : RegName} (hq : q.behindWords) {k : Nat} (hk : k < 8) (t : State) : (t.setReg (eye q d m) 0).reg (eyeMsg d m k) = t.reg (eyeMsg d m k) :=
    t.reg_setReg_ne _ (hq.addr_ne_eyeMsg hk d m).symm
  have cfg := RegName.behindWords_EYE_CFG
  have status := RegName.behindWords_EYE_STATUS
  have db := RegName.behindWords_EYE_DB
  have mask := RegName.behindWords_EYE_DB_MASK
  unfold State.zeroMailbox
  refine ⟨?_, fun k hk => ?_, ?_, ?_, State.reg_setReg_same _ _ _⟩
  · rw [apart cfg mask (by decide), apart cfg db (by decide), apart cfg status (by decide), s.reg_eye_zeroWords cfg]
  · rw [word mask hk, word db hk, word status hk, s.reg_zeroWords d m _ (.inl (List.mem_range.2 hk))]
  · rw [apart status mask (by decide), apart status db (by decide)]
    exact State.reg_setReg_same _ _ _
  · rw [apart db mask (by decide)]
    exact State.reg_setReg_same _ _ _

/-- A mailbox zeroed: its message words, EYE_STATUS, EYE_DB and EYE_DB_MASK hold zero, and EYE_CFG, memory and cores are as they were. -/
theorem State.eyeZero_spec (d m : Nat) : (s.eyeZero d m).mem = s.mem ∧ (s.eyeZero d m).cores = s.cores ∧ (s.eyeZero d m).reg (eye .EYE_CFG d m) = s.reg (eye .EYE_CFG d m) ∧
    (∀ k, k < 8 → (s.eyeZero d m).reg (eyeMsg d m k) = 0#64) ∧ (s.eyeZero d m).reg (eye .EYE_STATUS d m) = 0#64 ∧ (s.eyeZero d m).reg (eye .EYE_DB d m) = 0#64 ∧
    (s.eyeZero d m).reg (eye .EYE_DB_MASK d m) = 0#64 := by
  obtain ⟨mem, cores⟩ := s.zeroMailbox_mem_cores d m
  rw [State.eyeZero_eq]
  exact ⟨mem, cores, s.reg_zeroMailbox d m⟩

theorem State.eyeCfgWrite_firmware (d m v : Nat) : s.eyeCfgWrite .firmware d m v =
    (((s.eyeZero d m).setReg (eye .EYE_CFG d m) (BitVec.ofNat 64 (RegName.written .EYE_CFG ((s.eyeZero d m).reg (eye .EYE_CFG d m)).toNat v))).eyeSync d m, .ok) := rfl

/-- Firmware's write of EYE_CFG is taken, and zeroes the rest of the mailbox (13 R490). -/
theorem State.eyeCfgWrite_spec : ∃ t : State, s.eyeCfgWrite .firmware i.val j.val v.toNat = (t, .ok) ∧ t.mem = s.mem ∧ t.cores = s.cores ∧
    t.reg (eye .EYE_CFG i.val j.val) = BitVec.ofNat 64 (RegName.written .EYE_CFG (s.reg (eye .EYE_CFG i.val j.val)).toNat v.toNat) ∧
    (∀ k, k < 8 → t.reg (eyeMsg i.val j.val k) = 0#64) ∧ t.reg (eye .EYE_STATUS i.val j.val) = 0#64 ∧ t.reg (eye .EYE_DB i.val j.val) = 0#64 ∧ t.reg (eye .EYE_DB_MASK i.val j.val) = 0#64 := by
  obtain ⟨mem, cores, cfg, words, status, db, mask⟩ := s.eyeZero_spec i.val j.val
  rw [State.eyeCfgWrite_firmware, cfg]
  generalize s.eyeZero i.val j.val = z at *
  generalize BitVec.ofNat 64 (RegName.written .EYE_CFG _ v.toNat) = w
  have sync := State.aside_eyeSync (z.setReg (eye .EYE_CFG i.val j.val) w) i.val j.val
  have other {n : RegName} (hn : n.behindWords) (h : n.layout.base ≠ (RegName.layout .EYE_CFG).base) := (sync.2 _ (hn.plain i j)).trans
    (State.reg_setReg_ne _ _ (hn.addr_ne RegName.behindWords_EYE_CFG h _ _))
  refine ⟨_, rfl, sync.mem.trans mem, sync.cores.trans cores, ?cfg, fun k hk => ?word, ?status, ?db, ?mask⟩
  case cfg => exact (sync.2 _ (RegName.behindWords_EYE_CFG.plain i j)).trans (State.reg_setReg_same _ _ _)
  case word => rw [sync.2 _ (plain_eyeMsg i j hk), State.reg_setReg_ne _ _ (RegName.behindWords_EYE_CFG.addr_ne_eyeMsg hk _ _).symm, words k hk]
  case status => exact (other RegName.behindWords_EYE_STATUS (by decide)).trans status
  case db => exact (other RegName.behindWords_EYE_DB (by decide)).trans db
  case mask => exact (other RegName.behindWords_EYE_DB_MASK (by decide)).trans mask

/-! The timeout (13 R487). -/

variable {s} in
/-- A full control-class mailbox whose time has run out sets TIMEOUT, and its timer ends. -/
theorem State.exec_eyeTimeout {c : Nat} (live : s.life = .running) (commit : tget? s.eyeCommits (i.val * 512 + j.val) = some c)
    (control : s.fld (eye .EYE_CFG i.val j.val) EYE_CFG.CLASS ≠ 0) (full : s.fld (eye .EYE_STATUS i.val j.val) EYE_STATUS.FULL = 1)
    (due : c + s.fld (eye .EYE_CFG i.val j.val) EYE_CFG.TMO_US * 1100 ≤ s.now) :
    ∃ x t, exec (.eyeTimeout i j) s = .next t ∧
      Aside { s.setW1c (eye .EYE_STATUS i.val j.val) EYE_STATUS.TIMEOUT with eyeCommits := tdel s.eyeCommits (i.val * 512 + j.val), eyeExpired := x } t := by
  have early : ¬s.now < c + s.fld (eye .EYE_CFG i.val j.val) EYE_CFG.TMO_US * 1100 := by omega
  refine ⟨tset s.eyeExpired (i.val * 512 + j.val) (s.now, s.fld (eye .EYE_STATUS i.val j.val) EYE_STATUS.TIMEOUT == 1), _, ?_, State.aside_eyeSync _ i.val j.val⟩
  change execEyeTimeout i j s = _
  simp [execEyeTimeout, State.live_run live, commit, control, full, early]

/-! The commands. -/

variable {s} {a : Actor}

theorem Writable.exec_eyeMsgWrite {k : Fin 7} (h : Writable s a (eyeMsg i.val j.val k.val)) :
    exec (.eyeMsgWrite a i j k v) s = .next ((s.eyeMsgWrite i.val j.val k.val v.toNat).1.answer (s.eyeMsgWrite i.val j.val k.val v.toNat).2 0) := h.cmd v.toNat

theorem Writable.exec_eyeCommit (h : Writable s a (eyeMsg i.val j.val 7)) :
    exec (.eyeCommit a i j v) s = .next ((s.eyeMsgWrite i.val j.val 7 v.toNat).1.answer (s.eyeMsgWrite i.val j.val 7 v.toNat).2 0) := h.cmd v.toNat

theorem Readable.exec_eyeTake {t : State} (h : Readable s a (eyeMsg i.val j.val 7)) (e : s.eyeTake i.val j.val = (t, v)) : exec (.eyeTake a i j) s = .next (t.answer .ok v) := by
  have cmd : exec (.eyeTake a i j) s = .next ((s.eyeTake i.val j.val).1.answer .ok (s.eyeTake i.val j.val).2) := h.cmd
  rw [cmd, e]

theorem Writable.exec_eyeDbSet (h : Writable s a (eye .EYE_DB_SET i.val j.val)) :
    exec (.eyeDbSet a i j v) s = .next ((s.eyeDbSet i.val j.val v.toNat).1.answer (s.eyeDbSet i.val j.val v.toNat).2 0) := h.cmd v.toNat

theorem Writable.exec_eyeCfgWrite (h : Writable s a (eye .EYE_CFG i.val j.val)) :
    exec (.eyeCfgWrite a i j v) s = .next ((s.eyeCfgWrite a i.val j.val v.toNat).1.answer (s.eyeCfgWrite a i.val j.val v.toNat).2 0) := h.cmd v.toNat

end Sys2Proof.Machine

open Sys2Proof Sys2Proof.Machine

/-- Settles O20: each command is its register's own rule, and each outcome is what that rule leaves before the interrupt lines, which change nothing of a mailbox, meet the controller. -/
theorem mailboxesFillRingAndEmpty : Obligations.MailboxesFillRingAndEmpty := by
  unfold Obligations.MailboxesFillRingAndEmpty
  refine ⟨?empty, ?collision, ?commit, ?take, ?takeFirst, ?takeNone, ?bells, ?config, ?timeout⟩
  case empty =>
    intro s a d m k v hw empty
    refine ⟨s.eyeNote d.val m.val k.val, ?_⟩
    rw [hw.exec_eyeMsgWrite, State.eyeMsgWrite_of_ne v k.isLt.ne, State.eyeStore_empty v empty]
    rfl
  case collision =>
    intro s a d m k v c hc hw full
    obtain ⟨t, e, mem, cores, word, others, collision, stays, -⟩ := s.eyeMsgWrite_spec v d m k
    refine ⟨t, ?_, word, others, collision.trans (if_pos full), ?_, mem, cores⟩
    · rcases hc with ⟨-, j, hj, rfl⟩ | ⟨hk, rfl⟩
      · rw [← hj] at e hw
        rw [hw.exec_eyeMsgWrite, e]
      · rw [hk] at e hw
        rw [hw.exec_eyeCommit, e]
    · rw [stays, State.full_of_eyeFull full, ite_self]
  case commit =>
    intro s a d m v hw
    obtain ⟨t, e, mem, cores, word, -, collision, full, timer⟩ := s.eyeMsgWrite_spec v d m 7
    have written : s.eyeMsgWrite d.val m.val 7 v.toNat = (t, .ok) := e
    exact ⟨t, by rw [hw.exec_eyeCommit, written], mem, cores, word, full, collision, timer rfl⟩
  case take =>
    intro s a d m hr full now
    obtain ⟨mem, cores, taken, -, emptied⟩ := s.eyeTaken_spec d m false
    refine ⟨_, hr.exec_eyeTake _ _ _ (State.eyeTake_full full now), rfl, ?_⟩
    simp only [State.answer_mem, State.answer_cores, State.fld_answer]
    exact ⟨mem, cores, taken, emptied⟩
  case takeFirst =>
    intro s a d m w hr full now
    obtain ⟨mem, cores, taken, collision, emptied⟩ := (s.setFld (eye .EYE_STATUS d.val m.val) EYE_STATUS.COLLISION (flag w.collided)).eyeTaken_spec d m w.committed
    have collided := (s.fld_setFld_same (eye .EYE_STATUS d.val m.val) EYE_STATUS.COLLISION (flag w.collided) (by decide) (by decide)).trans (Nat.mod_eq_of_lt (flag_lt _))
    refine ⟨_, hr.exec_eyeTake _ _ _ (State.eyeTake_full_written full now), rfl, ?_⟩
    simp only [State.answer_mem, State.answer_cores, State.fld_answer, State.noteEye_mem, State.noteEye_cores, State.fld_noteEye]
    exact ⟨mem, cores, taken, collision.trans collided, emptied⟩
  case takeNone =>
    intro s a d m hr empty
    exact hr.exec_eyeTake _ _ _ (State.eyeTake_not_full empty)
  case bells =>
    intro s a d m v hw
    obtain ⟨t, e, effect⟩ := s.eyeDbSet_spec v d m
    exact ⟨t, by rw [hw.exec_eyeDbSet, e], effect⟩
  case config =>
    intro s d m v hw
    obtain ⟨t, e, effect⟩ := s.eyeCfgWrite_spec v d m
    exact ⟨t, by rw [hw.exec_eyeCfgWrite, e], effect⟩
  case timeout =>
    intro s d m c live commit control full due
    obtain ⟨x, t, e, sync⟩ := State.exec_eyeTimeout d m live commit control full due
    refine ⟨t, e, sync.mem, sync.cores, (sync.fld (RegName.behindWords_EYE_STATUS.plain d m) _).trans (State.fld_setFld_same _ _ _ _ (by decide) (by decide)), ?_⟩
    rw [sync.eyeCommits]
    exact tget?_tdel_same _ _
end

section
set_option Elab.async false -- one proof after the other: the whole text stands near the memory limit of the check
/-! A unit that does not run (16 R572, 20 R661, R665, R671): every command but those of the supply, the pins and the test access port leaves it as it is, and a tripped unit stays tripped. -/
namespace Sys2Proof.Machine

variable {s : State}

theorem State.live_of_not_running (h : s.life ≠ .running) (f : State → Host.Outcome State Fault Refusal) : s.live f = .next s := by
  simp [State.live, h]

theorem State.writeCmd_of_not_running (h : s.life ≠ .running) (a : Actor) (x v : Nat) : s.writeCmd a x v = .next s := State.live_of_not_running h _

theorem State.readCmd_of_not_running (h : s.life ≠ .running) (a : Actor) (x : Nat) : s.readCmd a x = .next s := State.live_of_not_running h _

theorem execCollGroupWrite_of_not_running (h : s.life ≠ .running) (a : Actor) (io : Die) (g : Fin 64) (v w : Word) : execCollGroupWrite a io g v w s = .next s := by
  simp only [execCollGroupWrite, State.writeCmd_of_not_running h]

theorem execPertWrite_of_not_running (h : s.life ≠ .running) (a : Actor) (x : BitVec 48) (v : Word) : execPertWrite a x v s = .next s := by
  simp only [execPertWrite, State.writeCmd_of_not_running h, ite_self]

/-- A command that acts on a running unit alone is a write, a read or an event of a running unit. -/
theorem exec_of_not_running (c : Instr) (h : s.life ≠ .running) (acts : actsAtRest c = false) : exec c s = .next s := by
  cases c
  case resetAssert | resetRelease | powerLoss | powerRestore | vinOvervoltage | junctionSample | thermtripExternal | thermtripExternalRelease | alertHoldExpire | tapInstruction => cases acts
  case collGroupWrite => exact execCollGroupWrite_of_not_running h ..
  case pertWrite => exact execPertWrite_of_not_running h ..
  case eyeTake | icRingNoteRead => exact State.readCmd_of_not_running h ..
  case registerWrite | linkErrClr | ringBaseWrite | ringCfgWrite | ringProdWrite | skipKernel | discard | clearFault | rowEccClr | sdmPartWrite | sdmWcacheCfgWrite | astkCfgWrite | astkTopWrite | frameOpen | frameDrain
      | frameNoAction | frameCmdReserved | mcqClr | memcEccClr | failedPcWrite | hbmSpareStart | downReq | peerPortClr | fabCfgWrite | fabCoordWrite | fabVcWrite | fabStatClr | peerSigWrite | collSubmit | hcBindWrite | eyeMsgWrite
      | eyeCommit | eyeDbSet | eyeCfgWrite | icSwset | icPendingWrite | hpFifoHeadWrite | hpLandHeadWrite | dropRest | hpClr | relock | rootSv0 | verify | lock | injArm | norm | apply | finish | weltClose | weltEpochWrite
      | kvpEnable | kvpGo | l3RangeInval | l3RangeClean | l3RangeFlush => exact State.writeCmd_of_not_running h ..
  all_goals exact if_neg h

theorem State.powered_of_tripped (h : s.life = .tripped) : s.powered = false := by simp [State.powered, h]

@[simp] theorem State.noteLine_life (s : State) (k : Nat) (b : Bool) : (s.noteLine k b).life = s.life := by
  unfold State.noteLine; split <;> rfl

/-- Of the commands that act at rest, only POWER_LOSS ends a trip: the others ask for a unit that is powered, unpowered or held in reset, or leave the life of the unit. -/
theorem exec_of_tripped {t : State} (c : Instr) (h : s.life = .tripped) (lost : c ≠ .powerLoss) (e : exec c s = .next t) : t.life = .tripped := by
  have off := State.powered_of_tripped h
  by_cases acts : actsAtRest c = false
  · rw [exec_of_not_running c (by simp [h]) acts] at e
    cases e
    exact h
  · cases c
    case powerLoss => exact absurd rfl lost
    case resetAssert =>
      replace e : execResetAssert s = .next t := e
      simp only [execResetAssert, off, Bool.false_eq_true, if_false] at e
      cases e
      exact h
    case resetRelease straps =>
      have held : ({ s with resetLow := false, strap := straps.toNat } : State).life ≠ .inReset := by simp [h]
      replace e : execResetRelease straps s = .next t := e
      simp only [execResetRelease, if_neg held] at e
      split at e <;> cases e <;> exact h
    case powerRestore =>
      replace e : execPowerRestore s = .next t := e
      simp only [execPowerRestore, h, reduceCtorEq, if_false] at e
      cases e
      exact h
    case vinOvervoltage =>
      replace e : execVinOvervoltage s = .next t := e
      simp only [execVinOvervoltage, off, Bool.not_false, if_true] at e
      cases e
      exact h
    case junctionSample k sel x =>
      replace e : execJunctionSample k sel x s = .next t := e
      simp only [execJunctionSample, off, Bool.not_false, if_true] at e
      cases e
      exact h
    case thermtripExternal =>
      replace e : execThermtripExternal s = .next t := e
      simp only [execThermtripExternal, h, if_true] at e
      cases e
      exact h
    case thermtripExternalRelease =>
      replace e : execThermtripExternalRelease s = .next t := e
      simp only [execThermtripExternalRelease] at e
      cases e
      simpa using h
    case alertHoldExpire j =>
      replace e : execAlertHoldExpire j s = .next t := e
      simp only [execAlertHoldExpire, off, Bool.false_and, Bool.false_eq_true, if_false] at e
      cases e
      exact h
    case tapInstruction x =>
      replace e : execTapInstruction x s = .next t := e
      simp only [execTapInstruction, off, Bool.not_false, if_true] at e
      cases e
      exact h
    all_goals exact absurd rfl acts

end Sys2Proof.Machine

open Sys2Proof Sys2Proof.Machine

/-- Settles O8: each command's meaning asks for a running unit before anything else. -/
theorem nothingActsAtRest : Obligations.NothingActsAtRest := fun c _ h acts => exec_of_not_running c h acts

/-- Settles O7: with no command a tripped unit's time passes, and no command but POWER_LOSS ends a trip. -/
theorem tripHoldsUntilPowerLoss : Obligations.TripHoldsUntilPowerLoss := by
  unfold Obligations.TripHoldsUntilPowerLoss
  intro s t h lost e
  unfold step at e
  split at e
  next => cases e; simp [State.tick, h]
  next c rest queue => exact exec_of_tripped (s := { s with pending := rest }) c h (fun hc => lost (by simp [queue, hc])) e
end

section
set_option Elab.async false -- one proof after the other: the whole text stands near the memory limit of the check
/-! Every command goes on (00 R14, 01 R32), and no step changes the fused grade (00 R1, R3) or ends the canonical form of memory. -/
namespace Sys2Proof.Machine

/-- The grade is as it was, and memory is in canonical form where it was. -/
structure Kept (s t : State) : Prop where
  grade : t.grade = s.grade
  wf : s.mem.wf = true → t.mem.wf = true

/-- An outcome goes on, to a kept state. -/
structure KeptOut (s : State) (o : Host.Outcome State Fault Refusal) : Prop where
  goesOn : ∃ u : State, o = .next u
  state : ∀ u, o = .next u → Kept s u

theorem Kept.refl (s : State) : Kept s s := ⟨rfl, id⟩

theorem Kept.trans {s t u : State} (a : Kept s t) (b : Kept t u) : Kept s u := ⟨b.grade.trans a.grade, fun w => b.wf (a.wf w)⟩

variable {s t u : State}

/-- Another state of the same grade and the same memory cells. -/
theorem Kept.same (h : Kept s t) (g : u.grade = t.grade) (m : u.mem.cells = t.mem.cells) : Kept s u :=
  h.trans ⟨g, fun w => (Memory.wf_congr m).trans w⟩

/-- The same state with another memory. -/
theorem Kept.withMem (h : Kept s t) (g : u.grade = t.grade) (m : t.mem.wf = true → u.mem.wf = true) : Kept s u := h.trans ⟨g, m⟩

theorem Kept.ite {p : Prop} [Decidable p] (a : Kept s t) (b : Kept s u) : Kept s (if p then t else u) := by split <;> assumption

theorem Kept.foldl {α : Type} {f : State → α → State} (h : Kept s t) (l : List α) (k : ∀ u x, Kept s u → Kept s (f u x)) : Kept s (l.foldl f t) := by
  induction l generalizing t with
  | nil => exact h
  | cons x l ih => exact ih (k t x h)

theorem Kept.iteFst {α : Type} {p : Prop} [Decidable p] {a b : State × α} (x : Kept s a.1) (y : Kept s b.1) : Kept s (if p then a else b).1 := by split <;> assumption

/-- A fold that carries the state in one component. -/
theorem Kept.foldlOn {α σ : Type} (π : σ → State) {f : σ → α → σ} {a : σ} (h : Kept s (π a)) (l : List α) (k : ∀ a x, Kept s (π a) → Kept s (π (f a x))) : Kept s (π (l.foldl f a)) := by
  induction l generalizing a with
  | nil => exact h
  | cons x l ih => exact ih (k a x h)

theorem Kept.iter {f : Nat → State → State} (h : Kept s t) (n : Nat) (k : ∀ i u, Kept s u → Kept s (f i u)) : Kept s (iter n f t) := by
  induction n with
  | zero => exact h
  | succ n ih => exact k n _ ih

/-- A kept state beside a result. -/
theorem Kept.fstOf {α : Type} {a : α} (h : Kept s t) : Kept s (t, a).1 := h

theorem Kept.fst {α : Type} {p : State × α} {a : α} (h : Kept s p.1) (e : p = (u, a)) : Kept s u := by subst e; exact h

theorem Kept.snd {α : Type} {p : α × State} {a : α} (h : Kept s p.2) (e : p = (a, u)) : Kept s u := by subst e; exact h

theorem Kept.next (h : Kept s t) : KeptOut s (.next t) := ⟨⟨t, rfl⟩, fun _ e => by cases e; exact h⟩

theorem KeptOut.ite {p : Prop} [Decidable p] {a b : Host.Outcome State Fault Refusal} (x : KeptOut s a) (y : KeptOut s b) : KeptOut s (if p then a else b) := by split <;> assumption

theorem KeptOut.live (f : State → Host.Outcome State Fault Refusal) (h : KeptOut s (f s)) : KeptOut s (s.live f) := by
  unfold State.live
  split
  · exact h
  · exact (Kept.refl s).next

theorem Memory.foldl_wf {α : Type} {f : Memory → α → Memory} (l : List α) (k : ∀ m x, m.wf = true → (f m x).wf = true) {m : Memory} (w : m.wf = true) : (l.foldl f m).wf = true := by
  induction l generalizing m with
  | nil => exact w
  | cons x l ih => exact ih (k m x w)

theorem Memory.copyIn_wf {m : Memory} (row : Nat) (c : RowImg × Nat) (w : m.wf = true) : (m.copyIn row c).wf = true := by
  unfold Memory.copyIn
  dsimp only
  split
  · exact Memory.writeRow_wf row c.1 w
  · exact Memory.writeRow_wf row c.1 w

theorem Memory.writePiece_wf {m : Memory} (row : Nat) (ws : List (Nat × List Byte)) (bad : Bool) (w : m.wf = true) : (m.writePiece row ws bad).wf = true := by
  have k : (m.writeWords row ws).wf = true := Memory.writeWords_wf row ws w
  unfold Memory.writePiece
  dsimp only
  repeat' split
  all_goals exact k

/-! One rule per operation of the model, each after the operations it is made of: an operation on a kept state keeps it (`Kept.f`), and so does a command's outcome (`keptOut_execC`). -/

theorem Kept.answer (h : Kept s t) (st v) : Kept s (t.answer st v) := by
  unfold State.answer
  exact h.same rfl rfl

theorem Kept.setReg (h : Kept s t) (r v) : Kept s (t.setReg r v) := by
  unfold State.setReg
  exact h.same rfl rfl

theorem Kept.setFld (h : Kept s t) (r f v) : Kept s (t.setFld r f v) := by
  unfold State.setFld
  exact h.setReg ..

theorem Kept.countSessions (h : Kept s t) (h') : Kept s (t.countSessions h') := by
  unfold State.countSessions
  exact h.setFld ..

theorem Kept.setSession (h : Kept s t) (k x) : Kept s (t.setSession k x) := by
  unfold State.setSession
  refine Kept.countSessions ?_ ..
  exact h.same rfl rfl

theorem Kept.bump (h : Kept s t) (r f n) : Kept s (t.bump r f n) := by
  unfold State.bump
  exact h.setFld ..

theorem Kept.charge (h : Kept s t) (n w v) : Kept s (t.charge n w v) := by
  unfold State.charge
  exact h.bump ..

theorem Kept.chargePort (h : Kept s t) (lease h' tx n) : Kept s (t.chargePort lease h' tx n) := by
  unfold State.chargePort
  split
  · exact h
  · exact h.charge ..

theorem Kept.sendIn (h : Kept s t) (k seq opcode event st params data) : Kept s (t.sendIn k seq opcode event st params data) := by
  unfold State.sendIn
  dsimp only
  split
  · exact h
  next y y' e =>
    refine Kept.chargePort ?_ ..
    exact (h.setSession k ({ id := y'.id, open' := y'.open', lease := y'.lease, verMajor := y'.verMajor, verMinor := y'.verMinor, window := y'.window, since := y'.since, lastPkt := y'.lastPkt, high := y'.high, pns := y'.pns, sendPn := y'.sendPn + 1, next := y'.next, cmds := y'.cmds, replies := y'.replies, evNext := y'.evNext, events := y'.events, dropped := y'.dropped, keys := y'.keys, digest := y'.digest, peer := y'.peer })).same rfl rfl

theorem Kept.eventTo (h : Kept s t) (k ev st params) : Kept s (t.eventTo k ev st params) := by
  unfold State.eventTo
  dsimp only
  split
  · exact h
  · exact (h.setSession ..).ite ((h.setSession ..).sendIn ..)

theorem Kept.postEvent (h : Kept s t) (p ev st params) : Kept s (t.postEvent p ev st params) := by
  unfold State.postEvent
  refine Kept.foldl ?_ _ fun u x h => ?_
  · exact h
  · exact h.eventTo ..

theorem Kept.rewarded (h : Kept s t) (n item reward st) : Kept s (t.rewarded n item reward st) := by
  unfold State.rewarded
  dsimp only
  refine h.ite (Kept.postEvent ?_ ..)
  exact h.same rfl rfl

theorem Kept.extEnd (h : Kept s t) (r out st) : Kept s (t.extEnd r out st) := by
  unfold State.extEnd
  dsimp only
  refine Kept.ite (Kept.rewarded ?_ ..) (h.same rfl rfl)
  exact h.same rfl rfl

theorem Kept.byActor (h : Kept s t) {a : Actor} {x : Nat} {eff : State → State} (k : ∀ u, Kept s u → Kept s (eff u)) : Kept s (t.byActor a x eff) := by
  unfold State.byActor
  split
  · split
    · exact h
    · split
      · exact (h.extEnd ..).answer ..
      · exact k t h
  · exact k t h

theorem Kept.plainWrite (h : Kept s t) (a r v) : Kept s (t.plainWrite a r v).1 := by
  unfold State.plainWrite
  split
  · exact h
  · exact h.setReg ..

theorem Kept.pertKeep (h : Kept s t) (r) : Kept s (t.pertKeep r) := by
  unfold State.pertKeep
  split
  · exact h.ite (h.same rfl rfl)
  · exact h.same rfl rfl

theorem Kept.pertWrite (h : Kept s t) (a r v) : Kept s (t.pertWrite a r v).1 := by
  unfold State.pertWrite
  dsimp only
  split
  · exact h
  · split
    · split
      · exact h
      · exact (h.pertKeep ..).plainWrite ..
    · exact (h.pertKeep ..).plainWrite ..

theorem Kept.ringBaseWrite (h : Kept s t) (d i v) : Kept s (t.ringBaseWrite d i v).1 := by
  unfold State.ringBaseWrite
  dsimp only
  split
  · exact h
  · split
    · exact h
    · exact ((h.setReg ..).setReg ..).setReg ..

theorem Kept.dropClaims (h : Kept s t) (g) : Kept s (t.dropClaims g) := by
  unfold State.dropClaims
  dsimp only
  exact h.same rfl rfl

theorem Kept.faultRing (h : Kept s t) (d i st bundle slot) : Kept s (t.faultRing d i st bundle slot) := by
  unfold State.faultRing
  dsimp only
  exact (((((h.setFld ..).setFld ..).setFld ..).setFld ..).setFld ..).setFld ..

theorem Kept.wholeFault (h : Kept s t) (d i) : Kept s (t.wholeFault d i) := by
  unfold State.wholeFault
  dsimp only
  exact (h.faultRing ..).ite h

theorem Kept.ringCfgWrite (h : Kept s t) (a d i v) : Kept s (t.ringCfgWrite a d i v).1 := by
  unfold State.ringCfgWrite
  extract_lets r old on owned tmo want size w0 w1 w bad enable u0 u1 u2
  have k0 : Kept s u0 := h.setReg ..
  have k1 : Kept s u1 := (k0.dropClaims ..).ite k0
  have k2 : Kept s u2 := (k1.setFld ..).ite k1
  split
  · exact h
  · split
    · exact h
    · split
      · exact h
      · exact k2.wholeFault ..

theorem Kept.noteCycle (h : Kept s t) (r w) : Kept s (t.noteCycle r w) := by
  unfold State.noteCycle
  exact h.same rfl rfl

theorem Kept.noteFld (h : Kept s t) (r f v) : Kept s (t.noteFld r f v) := by
  unfold State.noteFld
  exact h.noteCycle ..

theorem Kept.setW1c (h : Kept s t) (r f) : Kept s (t.setW1c r f) := by
  unfold State.setW1c
  exact (h.setFld ..).noteFld ..

theorem Kept.pushRefused (h : Kept s t) (d i) : Kept s (t.pushRefused d i) := by
  unfold State.pushRefused
  exact h.setW1c ..

theorem Kept.underrunOver (h : Kept s t) (d i) : Kept s (t.underrunOver d i) := by
  unfold State.underrunOver
  exact (h.setFld ..).ite h

theorem Kept.ringProdWrite (h : Kept s t) (d i v) : Kept s (t.ringProdWrite d i v).1 := by
  unfold State.ringProdWrite
  dsimp only
  split
  · exact h
  · split
    · exact h
    · split
      · exact h.pushRefused ..
      · split
        · exact h.pushRefused ..
        · exact ((h.setReg ..).underrunOver ..).wholeFault ..

theorem Kept.clearFault (h : Kept s t) (d i) : Kept s (t.clearFault d i) := by
  unfold State.clearFault
  dsimp only
  exact ((h.setFld ..).setFld ..).ite h

theorem Kept.fired (h : Kept s t) : Kept s (t.fired) := by
  unfold State.fired
  refine Kept.setW1c (Kept.bump (Kept.setFld ?_ ..) ..) ..
  exact h.same rfl rfl

theorem Kept.readWords (h : Kept s t) (row ws) : Kept s (t.readWords row ws).1 := by
  unfold State.readWords
  dsimp only
  split
  · exact (h.fired ..).ite h
  · exact h

theorem Kept.tally (h : Kept s t) (r f n) : Kept s (t.tally r f n) := by
  unfold State.tally
  exact (h.bump ..).noteFld ..

theorem Kept.readCells (h : Kept s t) (row ws) : Kept s (t.readCells row ws).1 := by
  unfold State.readCells
  dsimp only
  split
  · exact h.readWords ..
  · split
    · exact h.readWords ..
    · split
      · refine Kept.ite (Kept.tally ?_ ..) ((h.readWords ..).same rfl rfl)
        exact (h.readWords ..).same rfl rfl
      · refine Kept.ite (Kept.tally ?_ ..) ((h.readWords ..).same rfl rfl)
        exact (h.readWords ..).same rfl rfl

theorem Kept.noteUnc (h : Kept s t) (row unc) : Kept s (t.noteUnc row unc) := by
  unfold State.noteUnc
  exact h.ite (h.same rfl rfl)

theorem Kept.countDram (h : Kept s t) (row corr unc) : Kept s (t.countDram row corr unc) := by
  unfold State.countDram
  dsimp only
  exact h.ite (((h.noteUnc ..).tally ..).tally ..)

theorem Kept.chargeEvent (h : Kept s t) (lease) : Kept s (t.chargeEvent lease) := by
  unfold State.chargeEvent
  split
  · exact h.charge ..
  · exact h

theorem Kept.putRecord (h : Kept s t) (e count w) : Kept s (t.putRecord e count w) := by
  unfold State.putRecord
  exact h.setReg ..

theorem Kept.record (h : Kept s t) (e valid count w more) : Kept s (t.record e valid count w more) := by
  unfold State.record
  dsimp only
  split
  · refine Kept.foldl ?_ _ fun u x h => ?_
    · refine Kept.noteCycle ?_ ..
      split
      · exact h
      · refine Kept.foldl ?_ _ fun u x h => ?_
        · exact h.putRecord ..
        · exact h.setReg ..
    · exact h.noteCycle ..
  · split
    · exact h
    · refine Kept.foldl ?_ _ fun u x h => ?_
      · exact h.putRecord ..
      · exact h.setReg ..

theorem Kept.notePending (h : Kept s t) (ic src set) : Kept s (t.notePending ic src set) := by
  unfold State.notePending
  dsimp only
  exact (h.noteCycle ..).noteCycle ..

theorem Kept.noteLine (h : Kept s t) (key level) : Kept s (t.noteLine key level) := by
  unfold State.noteLine
  exact h.ite (h.same rfl rfl)

theorem Kept.noteEsc (h : Kept s t) (ic) : Kept s (t.noteEsc ic) := by
  unfold State.noteEsc
  exact (h.noteLine ..).ite h

theorem Kept.putBit (h : Kept s t) (r k b) : Kept s (t.putBit r k b) := by
  unfold State.putBit
  exact h.setReg ..

theorem Kept.rrMark (h : Kept s t) (ic src) : Kept s (t.rrMark ic src) := by
  unfold State.rrMark
  exact h.same rfl rfl

theorem Kept.rrBegin (h : Kept s t) (ic src) : Kept s (t.rrBegin ic src) := by
  unfold State.rrBegin
  refine Kept.rrMark ?_ ..
  exact h.same rfl rfl

theorem Kept.setPending (h : Kept s t) (ic src) : Kept s (t.setPending ic src) := by
  unfold State.setPending
  exact Kept.notePending (Kept.noteEsc (Kept.putBit (h.ite (h.rrBegin ..)) ..) ..) ..

theorem Kept.raise (h : Kept s t) (ic src) : Kept s (t.raise ic src) := by
  unfold State.raise
  dsimp only
  exact h.ite (Kept.ite (h.same rfl rfl) (h.setPending ..))

theorem Kept.dramEvent (h : Kept s t) (row lease) : Kept s (t.dramEvent row lease) := by
  unfold State.dramEvent
  dsimp only
  exact (((h.bump ..).chargeEvent ..).record ..).raise ..

theorem Kept.readDram (h : Kept s t) (row lease) : Kept s (t.readDram row lease).s := by
  unfold State.readDram
  dsimp only
  refine Kept.ite (Kept.dramEvent (Kept.countDram ((h.readCells ..).ite ?_) ..) ..) (Kept.countDram ((h.readCells ..).ite ?_) ..)
  · exact (h.readCells ..).same rfl rfl
  · exact (h.readCells ..).same rfl rfl

theorem Kept.countSdmEcc (h : Kept s t) (d row corr unc) : Kept s (t.countSdmEcc d row corr unc) := by
  unfold State.countSdmEcc
  dsimp only
  exact h.ite (((((h.noteUnc ..).tally ..).tally ..).setFld ..).noteFld ..)

theorem Kept.readSdm (h : Kept s t) (d row lease) : Kept s (t.readSdm d row lease).1 := by
  unfold State.readSdm
  dsimp only
  split
  · refine Kept.countSdmEcc ((h.readWords ..).ite ?_) ..
    exact (h.readWords ..).same rfl rfl
  · refine Kept.raise (Kept.record (Kept.chargeEvent (Kept.bump (Kept.countSdmEcc ((h.readWords ..).ite ?_) ..) ..) ..) ..) ..
    exact (h.readWords ..).same rfl rfl

theorem Kept.countCoreEcc (h : Kept s t) (k buf row corr unc) : Kept s (t.countCoreEcc k buf row corr unc) := by
  unfold State.countCoreEcc
  dsimp only
  exact h.ite (((((h.noteUnc ..).tally ..).tally ..).setFld ..).noteFld ..)

theorem Kept.setCore (h : Kept s t) (k c) : Kept s (t.setCore k c) := by
  unfold State.setCore
  exact h.same rfl rfl

theorem Kept.onCore (h : Kept s t) (k f) : Kept s (t.onCore k f) := by
  unfold State.onCore
  exact h.setCore ..

theorem Kept.freeze (h : Kept s t) (k) : Kept s (t.freeze k) := by
  unfold State.freeze
  dsimp only
  exact h.ite (((h.onCore ..).bump ..).bump ..)

theorem Kept.readCoreFar (h : Kept s t) (k row) : Kept s (t.readCoreFar k row).1 := by
  unfold State.readCoreFar
  dsimp only
  refine Kept.ite (Kept.countCoreEcc ((h.readWords ..).ite ?_) ..) (Kept.freeze (Kept.countCoreEcc ((h.readWords ..).ite ?_) ..) ..)
  · exact (h.readWords ..).same rfl rfl
  · exact (h.readWords ..).same rfl rfl

theorem Kept.readFar (h : Kept s t) (row lease) : Kept s (t.readFar row lease).s := by
  unfold State.readFar
  dsimp only
  split
  · exact h.readDram ..
  · split
    · exact h.readSdm ..
    · exact h.readCoreFar ..

theorem Kept.rowWords (h : Kept s t) (lease held l) : Kept s (t.rowWords lease held l).1 := by
  induction l generalizing t held with
  | nil => exact h
  | cons a l ih =>
    unfold State.rowWords
    split
    · exact ih h held
    · dsimp only
      split
      · exact ih h held
      · exact ih (h.readFar ..) _

theorem Kept.scanRead (h : Kept s t) (d i m n) : Kept s (t.scanRead d i m n).1 := by
  unfold State.scanRead
  dsimp only
  exact h.rowWords ..

theorem Kept.count (h : Kept s t) (r f n) : Kept s (t.count r f n) := by
  unfold State.count
  exact h.setFld ..

theorem Kept.skipKernel (h : Kept s t) (d i) : Kept s (t.skipKernel d i) := by
  unfold State.skipKernel
  dsimp only
  exact ((h.scanRead ..).count ..).count ..

theorem Kept.discard (h : Kept s t) (d i) : Kept s (t.discard d i) := by
  unfold State.discard
  dsimp only
  exact (h.setFld ..).setFld ..

theorem Kept.ringCtrlWrite (h : Kept s t) (d i v) : Kept s (t.ringCtrlWrite d i v).1 := by
  unfold State.ringCtrlWrite
  dsimp only
  split
  · exact h
  · exact Kept.ite (Kept.discard (Kept.ite (Kept.skipKernel ((h.clearFault ..).ite h) ..) ((h.clearFault ..).ite h)) ..) (Kept.ite (Kept.skipKernel ((h.clearFault ..).ite h) ..) ((h.clearFault ..).ite h))

theorem Kept.ringDumpWrite (h : Kept s t) (a r v) : Kept s (t.ringDumpWrite a r v).1 := by
  unfold State.ringDumpWrite
  split
  · exact h.plainWrite ..
  · split
    · exact h
    · exact h.plainWrite ..

theorem Kept.recordWrite (h : Kept s t) (e valid count v more) : Kept s (t.recordWrite e valid count v more) := by
  unfold State.recordWrite
  split
  · exact h
  · split
    · exact h.setFld ..
    · refine Kept.foldl ?_ _ fun u x h => ?_
      · exact h.putRecord ..
      · exact h.setReg ..

theorem Kept.resetReg (h : Kept s t) (r) : Kept s (t.resetReg r) := by
  unfold State.resetReg
  exact h.same rfl rfl

theorem Kept.clearReg (h : Kept s t) (r) : Kept s (t.clearReg r) := by
  unfold State.clearReg
  exact (h.resetReg ..).ite (h.setReg ..)

theorem Kept.clearRegs (h : Kept s t) (f : Nat → Reg) (l : List Nat) : Kept s (l.foldl (fun s b => s.clearReg (f b)) t) := h.foldl l fun _ _ h => h.clearReg _

theorem Kept.rowEccClr (h : Kept s t) (d core v) : Kept s (t.rowEccClr d core v).1 := by
  unfold State.rowEccClr
  split
  · exact h
  · cases core with
    | some c =>
      generalize List.range 22 = l
      exact h.clearRegs (fun b => ⟨.ROW_ECC_CNT, selCd d, c, b⟩) l
    | none =>
      generalize List.range 96 = l
      exact h.clearRegs (fun b => ⟨.SDM_ECC_CNT, selCd d, b, 0⟩) l

theorem Kept.wcacheCfgWrite (h : Kept s t) (d v) : Kept s (t.wcacheCfgWrite d v).1 := by
  unfold State.wcacheCfgWrite
  dsimp only
  split
  · exact h
  · split
    · exact h
    · refine Kept.resetReg (Kept.setFld ?_ ..) ..
      exact h.same rfl rfl

theorem Kept.dropCopies (h : Kept s t) (p) : Kept s (t.dropCopies p) := by
  unfold State.dropCopies
  exact h.same rfl rfl

theorem Kept.dropRows (h : Kept s t) (p) : Kept s (t.dropRows p) := by
  unfold State.dropRows
  dsimp only
  exact (h.dropCopies p).same rfl rfl

theorem Kept.scrubPart (h : Kept s t) (d p) : Kept s (t.scrubPart d p) := by
  unfold State.scrubPart
  dsimp only
  exact (h.dropRows (fun row => decide (sdmRow d + 8192 * t.fld (sdmPart d p) SDM_PART.FIRST_BANK ≤ row) && decide (row < sdmRow d + 8192 * (t.fld (sdmPart d p) SDM_PART.FIRST_BANK + t.fld (sdmPart d p) SDM_PART.BANKS)))).same rfl rfl

theorem Kept.sdmPartWrite (h : Kept s t) (a d p v) : Kept s (t.sdmPartWrite a d p v).1 := by
  unfold State.sdmPartWrite
  dsimp only
  split
  · exact h
  · split
    · exact h
    · exact Kept.setReg ((h.scrubPart ..).ite h) ..

theorem Kept.astkCfgWrite (h : Kept s t) (a d g v) : Kept s (t.astkCfgWrite a d g v).1 := by
  unfold State.astkCfgWrite
  dsimp only
  split
  · split
    · exact h
    · exact h.setFld ..
  · split
    · exact h
    · split
      · split
        · exact h
        · exact h.setReg ..
      · split
        · exact h
        · exact h.setReg ..

theorem Kept.astkExtentWrite (h : Kept s t) (a r v) : Kept s (t.astkExtentWrite a r v).1 := by
  unfold State.astkExtentWrite
  split
  · exact h
  · exact h.plainWrite ..

theorem Kept.clearStack (h : Kept s t) (d g) : Kept s (t.clearStack d g) := by
  unfold State.clearStack
  dsimp only
  refine Kept.foldl ?_ _ fun u x h => ?_
  · exact (((h.resetReg ..).resetReg ..).resetReg ..).resetReg ..
  · refine Kept.resetReg ?_ ..
    refine Kept.resetReg ?_ ..
    exact h.resetReg ..

theorem Kept.astkTopWrite (h : Kept s t) (d g v) : Kept s (t.astkTopWrite d g v).1 := by
  unfold State.astkTopWrite
  split
  · exact h
  · split
    · exact h
    · exact h.clearStack ..

theorem Kept.frameRefused (h : Kept s t) (d g st) : Kept s (t.frameRefused d g st).1 := by
  unfold State.frameRefused
  exact h.setW1c ..

theorem Kept.seal (h : Kept s t) (d g f) : Kept s (t.seal d g f) := by
  unfold State.seal
  dsimp only
  exact ((((h.setFld ..).setFld ..).setFld ..).bump ..).ite ((h.setFld ..).setFld ..)

theorem Kept.frameOpen (h : Kept s t) (d g v) : Kept s (t.frameOpen d g v).1 := by
  unfold State.frameOpen
  dsimp only
  split
  · exact h.frameRefused ..
  · split
    · exact h.frameRefused ..
    · split
      · exact h.frameRefused ..
      · refine Kept.setFld ?_ ..
        refine Kept.setFld ?_ ..
        refine Kept.resetReg ?_ ..
        refine Kept.resetReg ?_ ..
        refine Kept.setFld ?_ ..
        refine Kept.setFld ?_ ..
        refine Kept.setFld ?_ ..
        refine Kept.setFld ?_ ..
        split
        · exact (h.seal ..).ite h
        · exact h

theorem Kept.frameDrain (h : Kept s t) (d g v) : Kept s (t.frameDrain d g v).1 := by
  unfold State.frameDrain
  dsimp only
  split
  · exact h.frameRefused ..
  · split
    · exact h.frameRefused ..
    · split
      · exact h.frameRefused ..
      · split
        · split
          · exact (h.seal ..).frameRefused ..
          · exact (h.seal ..).setFld ..
        · split
          · exact h.frameRefused ..
          · exact h.setFld ..

theorem Kept.frameApply (h : Kept s t) (d g v) : Kept s (t.frameApply d g v).1 := by
  unfold State.frameApply
  split
  · exact h
  · exact h.frameOpen ..
  · exact h.frameDrain ..
  · exact h.frameRefused ..

theorem Kept.setRun (h : Kept s t) (d g r) : Kept s (t.setRun d g r) := by
  unfold State.setRun
  exact h.same rfl rfl

theorem Kept.applyPosted (h : Kept s t) (d g l) : Kept s (t.applyPosted d g l) := by
  induction l generalizing t with
  | nil => exact h.setRun ..
  | cons o l ih =>
    unfold State.applyPosted
    split
    next e =>
      cases e
      exact ih (h.frameApply ..)
    · exact h.setRun ..

theorem Kept.stackNext (h : Kept s t) (d g) : Kept s (t.stackNext d g) := by
  unfold State.stackNext
  exact h.applyPosted ..

theorem Kept.arrivals (h : Kept s t) (d g) : Kept s (t.arrivals d g) := by
  unfold State.arrivals
  dsimp only
  exact h.ite (h.applyPosted ..)

theorem Kept.fcmdWrite (h : Kept s t) (d g v) : Kept s (t.fcmdWrite d g v).1 := by
  unfold State.fcmdWrite
  dsimp only
  split
  · exact (h.frameApply ..).stackNext ..
  · split
    · exact (h.arrivals ..).frameApply ..
    · exact (h.arrivals ..).setRun ..

theorem Kept.clearTally (h : Kept s t) (r fs) : Kept s (t.clearTally r fs) := by
  unfold State.clearTally
  refine Kept.foldl ?_ _ fun u x h => ?_
  · exact h
  · exact h.setFld ..

theorem Kept.mcqClr (h : Kept s t) (d v) : Kept s (t.mcqClr d v).1 := by
  unfold State.mcqClr
  split
  · exact h
  · refine Kept.foldl ?_ _ fun u x h => ?_
    · exact h
    · exact h.clearTally ..

theorem Kept.memcEccClr (h : Kept s t) (d k v) : Kept s (t.memcEccClr d k v).1 := by
  unfold State.memcEccClr
  split
  · exact h
  · refine Kept.foldl ?_ _ fun u x h => ?_
    · exact h
    · exact h.clearReg ..

theorem Kept.onCtl (h : Kept s t) (d k f) : Kept s (t.onCtl d k f) := by
  unfold State.onCtl
  exact h.same rfl rfl

theorem Kept.spareWrite (h : Kept s t) (d k v) : Kept s (t.spareWrite d k v).1 := by
  unfold State.spareWrite
  dsimp only
  split
  · split
    · exact (((h.setFld (memc RegName.HBM_SPARE d k) HBM_SPARE.FAILED_PC (bits v HBM_SPARE.FAILED_PC.hi HBM_SPARE.FAILED_PC.lo)).setFld (memc RegName.HBM_SPARE d k) HBM_SPARE.STATE (1)).setFld (memc RegName.HBM_SPARE d k) HBM_SPARE.PROGRESS (0)).onCtl d k (fun c => { fills := c.fills, pdn := c.pdn, wakes := c.wakes, refreshed := c.refreshed, acts := c.acts, nextGrant := c.nextGrant, patrolled := c.patrolled, lastCopy := none, copied := [] })
    · exact h.setFld ..
  · exact h
  · exact h

theorem Kept.pdnEnd (h : Kept s t) (d k result) : Kept s (t.pdnEnd d k result) := by
  unfold State.pdnEnd
  exact ((h.setFld ..).setFld ..).onCtl ..

theorem Kept.pdnWrite (h : Kept s t) (d k v) : Kept s (t.pdnWrite d k v).1 := by
  unfold State.pdnWrite
  dsimp only
  split
  · exact h.setFld ..
  · split
    · exact h
    · split
      · exact (h.setFld ..).pdnEnd ..
      · exact ((h.setFld (memc RegName.HBM_PDN_CTRL d k) HBM_PDN_CTRL.GROUP (bits v HBM_PDN_CTRL.GROUP.hi HBM_PDN_CTRL.GROUP.lo)).setFld (pdnStatus d k) HBM_PDN_STATUS.PENDING (1)).onCtl d k (fun c => { fills := c.fills, pdn := some (bits v HBM_PDN_CTRL.GROUP.hi HBM_PDN_CTRL.GROUP.lo, (t.setFld (memc RegName.HBM_PDN_CTRL d k) HBM_PDN_CTRL.GROUP (bits v HBM_PDN_CTRL.GROUP.hi HBM_PDN_CTRL.GROUP.lo)).now), wakes := c.wakes, refreshed := c.refreshed, acts := c.acts, nextGrant := c.nextGrant, patrolled := c.patrolled, lastCopy := c.lastCopy, copied := c.copied })

theorem Kept.perturb (h : Kept s t) (domain k1 k2 most random t') : Kept s (t.perturb domain k1 k2 most random t').2 := by
  unfold State.perturb
  dsimp only
  split
  · exact h
  · exact h.same rfl rfl

theorem Kept.cross (h : Kept s t) (d cls idx t') : Kept s (t.cross d cls idx t').2 := by
  unfold State.cross
  dsimp only
  split
  · exact h.perturb ..
  · exact h

theorem Kept.ownCrossing (h : Kept s t) (o back t') : Kept s (t.ownCrossing o back t').2 := by
  unfold State.ownCrossing
  split
  · exact h.cross ..
  · exact h

theorem Kept.bridged (h : Kept s t) (a b t') : Kept s (t.bridged a b t').2 := by
  unfold State.bridged
  refine Kept.foldlOn Prod.snd ?_ _ fun u x h => ?_
  · exact h
  · exact h.cross ..

theorem Kept.crossings (h : Kept s t) (o home t') : Kept s (t.crossings o home t').2 := by
  unfold State.crossings
  dsimp only
  exact (h.ownCrossing ..).bridged ..

theorem Kept.memDelay (h : Kept s t) (p) : Kept s (t.memDelay p).2 := by
  unfold State.memDelay
  dsimp only
  split
  · exact h.perturb ..
  · exact h

theorem Kept.submit (h : Kept s t) (r) : Kept s (t.submit r) := by
  unfold State.submit
  extract_lets u x m
  have k : Kept s u := h.same rfl rfl
  have kx : Kept s x.2 := by
    unfold x
    split
    · exact k
    · exact k.crossings ..
  exact (kx.memDelay r.point).same rfl rfl

theorem Kept.bookWrite (h : Kept s t) (g row off img) : Kept s (t.bookWrite g row off img) := by
  unfold State.bookWrite
  dsimp only
  exact h.submit ..

theorem Kept.agentPut (h : Kept s t) (g a off bytes poison) : Kept s (t.agentPut g a off bytes poison) := by
  unfold State.agentPut
  split
  · exact h
  · exact h.bookWrite ..

theorem Kept.agentWrite (h : Kept s t) (g a img) : Kept s (t.agentWrite g a img) := by
  unfold State.agentWrite
  exact h.agentPut ..

theorem Kept.book (h : Kept s t) (e die i row narrow lease deadline) : Kept s (t.book e die i row narrow lease deadline) := by
  unfold State.book
  dsimp only
  exact h.submit ..

theorem Kept.bookFor (h : Kept s t) (g row) : Kept s (t.bookFor g row) := by
  unfold State.bookFor
  exact h.book ..

theorem Kept.agentRead (h : Kept s t) (g a) : Kept s (t.agentRead g a).1 := by
  unfold State.agentRead
  dsimp only
  split
  · exact h
  · exact (h.readFar ..).bookFor ..

theorem Kept.poolWrite (h : Kept s t) (g a l bad) : Kept s (t.poolWrite g a l bad) := by
  unfold State.poolWrite
  dsimp only
  refine Kept.foldl ?_ _ fun u x h => ?_
  · exact h
  · split
    · exact h.agentWrite ..
    · refine Kept.agentWrite ?_ ..
      exact h.agentRead ..

theorem Kept.kvpCfgWrite (h : Kept s t) (a d p v) : Kept s (t.kvpCfgWrite a d p v).1 := by
  unfold State.kvpCfgWrite
  extract_lets r old g want fixed fmts outs w0 w x u
  split
  · exact h
  · split
    · exact h
    · split
      · exact h
      · split
        · exact h
        · split
          · exact h.setReg ..
          · split
            · split
              · exact h
              · exact h.setReg ..
            · exact ((h.setReg ..).poolWrite ..).setFld ..

theorem Kept.kvpAddrWrite (h : Kept s t) (a n d p v) : Kept s (t.kvpAddrWrite a n d p v).1 := by
  unfold State.kvpAddrWrite
  split
  · exact h
  · split
    · exact h
    · split
      · exact h
      · exact h.plainWrite ..

theorem Kept.kvpListWrite (h : Kept s t) (a d p v) : Kept s (t.kvpListWrite a d p v).1 := by
  unfold State.kvpListWrite
  split
  · exact h
  · exact h.plainWrite ..

theorem Kept.kvpGo (h : Kept s t) (a d p v) : Kept s (t.kvpGo a d p v).1 := by
  unfold State.kvpGo
  dsimp only
  split
  · exact h
  · split
    · exact h
    · split
      · exact h.setW1c ..
      · split
        · exact h.setW1c ..
        · split
          · exact h.setW1c ..
          · split
            · exact h.setW1c ..
            · split
              · exact h.setW1c ..
              · exact (((h.setFld (kvp RegName.KVP_STATUS d p) KVP_STATUS.BUSY (1)).setFld (kvp RegName.KVP_STATUS d p) KVP_STATUS.DONE (0)).setFld (kvp RegName.KVP_STATUS d p) KVP_STATUS.LAST_STATUS (0)).same rfl rfl

theorem Kept.kvpStatusWrite (h : Kept s t) (a d p v) : Kept s (t.kvpStatusWrite a d p v).1 := by
  unfold State.kvpStatusWrite
  split
  · exact h
  · exact h.plainWrite ..

theorem Kept.peerSigWrite (h : Kept s t) (a d k v) : Kept s (t.peerSigWrite a d k v).1 := by
  unfold State.peerSigWrite
  dsimp only
  split
  · exact h
  · split
    · exact h
    · split
      · split
        · exact h
        · split
          · split
            · exact h
            · exact h.plainWrite ..
          · exact h.plainWrite ..
      · split
        · exact h
        · split
          · split
            · exact h
            · exact h.plainWrite ..
          · exact h.plainWrite ..

theorem Kept.performBack (h : Kept s t) (w) : Kept s (t.performBack w) := by
  unfold State.performBack
  exact h.bookWrite ..

theorem Kept.performBacks (h : Kept s t) (p) : Kept s (t.performBacks p) := by
  unfold State.performBacks
  refine Kept.foldl ?_ _ fun u x h => ?_
  · exact h.same rfl rfl
  · exact h.performBack ..

theorem Kept.dropCached (h : Kept s t) (row) : Kept s (t.dropCached row) := by
  unfold State.dropCached
  exact h.dropCopies ..

theorem Kept.meetUpset (h : Kept s t) (u) : Kept s (t.meetUpset u) := by
  unfold State.meetUpset
  dsimp only
  split
  · refine Kept.tally (Kept.tally ?_ ..) ..
    exact h.same rfl rfl
  · split
    · refine Kept.tally (Kept.tally ?_ ..) ..
      exact h.same rfl rfl
    · refine Kept.ite (Kept.same (Kept.tally (Kept.tally ?_ (cacheCnt u) HC_ECC_CNT.CORR (u.corr)) (cacheCnt u) HC_ECC_CNT.UNCORR (u.unc)) rfl rfl) (Kept.dropCached (Kept.tally (Kept.tally ?_ (cacheCnt u) HC_ECC_CNT.CORR (u.corr)) (cacheCnt u) HC_ECC_CNT.UNCORR (u.unc)) (u.row))
      · refine Kept.bump ?_ ..
        exact h.same rfl rfl
      · exact h.same rfl rfl

theorem Kept.meetBack (h : Kept s t) (row c) : Kept s (t.meetBack row c) := by
  unfold State.meetBack
  refine Kept.foldl ?_ _ fun u x h => ?_
  · exact h
  · exact h.meetUpset ..

theorem Kept.startBack (h : Kept s t) (by' row lease) : Kept s (t.startBack by' row lease) := by
  unfold State.startBack
  dsimp only
  split
  · exact h
  · exact h.ite ((h.meetBack ..).same rfl rfl)

theorem Kept.cbo (h : Kept s t) (op by' row lease) : Kept s (t.cbo op by' row lease) := by
  unfold State.cbo
  dsimp only
  exact ((h.performBacks ..).dropCached ..).ite (((h.performBacks ..).startBack ..).ite (((h.performBacks ..).startBack ..).dropCached ..))

theorem Kept.l3Range (h : Kept s t) (a d op n) : Kept s (t.l3Range a d op n).1 := by
  have cbo (rows : List Nat) : Kept s (rows.foldl (fun s r => s.cbo op (64 + d) r (actorLease a)) t) := h.foldl _ fun _ _ h => h.cbo ..
  unfold State.l3Range
  extract_lets sr base refuse
  have r (st : Status) : Kept s (refuse st).1 := h.setW1c ..
  refine (r _).iteFst ((r _).iteFst ((r _).iteFst ((r _).iteFst ((r _).iteFst ?_))))
  cases t.l3Rows d base n with
  | none => exact r _
  | some rows =>
    refine Kept.setFld ?_ _ _ _
    exact (cbo rows).same rfl rfl

theorem Kept.l3CtlWrite (h : Kept s t) (a d v) : Kept s (t.l3CtlWrite a d v).1 := by
  unfold State.l3CtlWrite
  split
  · exact h.l3Range ..
  · exact h

theorem Kept.hcWake (h : Kept s t) (k) : Kept s (t.hcWake k) := by
  unfold State.hcWake
  exact h.same rfl rfl

theorem Kept.hcFlush (h : Kept s t) (k) : Kept s (t.hcFlush k) := by
  unfold State.hcFlush
  extract_lets u mine v
  have a : Kept s v := Kept.performBacks (Kept.foldl (h.performBacks _) mine fun _ _ h => h.startBack ..) _
  exact a.same rfl rfl

theorem Kept.hcSetBind (h : Kept s t) (k lease) : Kept s (t.hcSetBind k lease) := by
  unfold State.hcSetBind
  dsimp only
  refine Kept.setFld ?_ ..
  split
  · exact ((((h.hcFlush ..).resetReg ..).hcWake ..).setFld ..).setFld ..
  · exact ((((h.hcFlush ..).resetReg ..).hcWake ..).setFld ..).setFld ..

theorem Kept.hcBindWrite (h : Kept s t) (k v) : Kept s (t.hcBindWrite k v).1 := by
  unfold State.hcBindWrite
  dsimp only
  split
  · exact h
  · exact ((h.hcSetBind ..).setFld ..).setFld ..

theorem Kept.syncLevel (h : Kept s t) (ic src line) : Kept s (t.syncLevel ic src line) := by
  unfold State.syncLevel
  exact (h.setPending ..).ite h

theorem Kept.eyeSync (h : Kept s t) (d m) : Kept s (t.eyeSync d m) := by
  unfold State.eyeSync
  dsimp only
  exact (h.syncLevel ..).syncLevel ..

theorem Kept.eyeMsgWrite (h : Kept s t) (d m k v) : Kept s (t.eyeMsgWrite d m k v).1 := by
  unfold State.eyeMsgWrite
  extract_lets st full w a b
  have ha : Kept s a := by
    refine Kept.setReg ?_ ..
    exact h.same rfl rfl
  have hb : Kept s b := (ha.setW1c ..).ite ha
  refine Kept.iteFst hb.fstOf ?_
  refine Kept.fstOf (Kept.eyeSync ?_ ..)
  exact Kept.same (hb.setFld st EYE_STATUS.FULL 1) rfl rfl

theorem Kept.eyeZero (h : Kept s t) (d m) : Kept s (t.eyeZero d m) := by
  unfold State.eyeZero
  extract_lets u v
  have a : Kept s u := h.foldl _ fun _ _ h => h.setReg ..
  have b : Kept s v := ((a.setReg ..).setReg ..).setReg ..
  exact b.same rfl rfl

theorem Kept.eyeCfgWrite (h : Kept s t) (a d m v) : Kept s (t.eyeCfgWrite a d m v).1 := by
  unfold State.eyeCfgWrite
  exact Kept.iteFst h.fstOf (((h.eyeZero ..).setReg ..).eyeSync ..).fstOf

theorem Kept.eyeDbSet (h : Kept s t) (d m v) : Kept s (t.eyeDbSet d m v).1 := by
  unfold State.eyeDbSet
  dsimp only
  exact ((h.setFld ..).noteCycle ..).eyeSync ..

theorem Kept.eyePlain (h : Kept s t) (a r v) : Kept s (t.eyePlain a r v).1 := by
  unfold State.eyePlain
  dsimp only
  exact (h.plainWrite ..).eyeSync ..

theorem Kept.cdWrite (h : Kept s t) (a r v) : Kept s (t.cdWrite a r v).1 := by
  unfold State.cdWrite
  split
  · split
    · exact h
    · exact h.plainWrite ..
  · split
    · exact h
    · exact h.plainWrite ..
  · exact h.ringBaseWrite ..
  · exact h.ringCfgWrite ..
  · exact h.ringProdWrite ..
  · exact h.ringCtrlWrite ..
  · exact h.ringDumpWrite ..
  · exact h.recordWrite ..
  · exact h.recordWrite ..
  · exact h.recordWrite ..
  · exact h.recordWrite ..
  · exact h.rowEccClr ..
  · exact h.rowEccClr ..
  · exact h.wcacheCfgWrite ..
  · exact h.sdmPartWrite ..
  · split
    · exact h
    · exact h.plainWrite ..
  · exact h.astkCfgWrite ..
  · exact h.astkExtentWrite ..
  · exact h.astkExtentWrite ..
  · exact h.astkTopWrite ..
  · exact h.fcmdWrite ..
  · exact h.mcqClr ..
  · exact h.memcEccClr ..
  · split
    · exact h.spareWrite ..
    · exact h
  · split
    · exact h.pdnWrite ..
    · exact h
  · split
    · exact h.plainWrite ..
    · exact h
  · exact h.kvpCfgWrite ..
  · exact h.kvpAddrWrite ..
  · exact h.kvpAddrWrite ..
  · exact h.kvpListWrite ..
  · exact h.kvpGo ..
  · exact h.kvpStatusWrite ..
  · split
    · exact h
    · exact h
  · exact h.peerSigWrite ..
  · exact h.l3CtlWrite ..
  · exact h.hcBindWrite ..
  · exact h.eyeMsgWrite ..
  · exact h.eyeCfgWrite ..
  · exact h.eyeDbSet ..
  · exact h.eyePlain ..
  · exact h.eyePlain ..
  · exact h.eyePlain ..
  · exact h.plainWrite ..

theorem Kept.weltRefuse (h : Kept s t) (hs op st bad) : Kept s (t.weltRefuse hs op st bad) := by
  unfold State.weltRefuse
  dsimp only
  split
  · exact ((h.setFld ..).setFld ..).setFld ..
  · exact (h.setFld ..).setFld ..

theorem Kept.onWelt (h : Kept s t) (hs f) : Kept s (t.onWelt hs f) := by
  unfold State.onWelt
  exact h.same rfl rfl

theorem Kept.weltAccept (h : Kept s t) (hs op g) : Kept s (t.weltAccept hs op g) := by
  unfold State.weltAccept
  dsimp only
  exact ((h.setFld ..).setFld ..).onWelt ..

theorem Kept.weltDone (h : Kept s t) (hs st) : Kept s (t.weltDone hs st) := by
  unfold State.weltDone
  dsimp only
  exact ((((h.charge ..).setFld ..).setFld ..).onWelt ..).raise ..

theorem Kept.normEnd (h : Kept s t) (hs) : Kept s (t.normEnd hs) := by
  unfold State.normEnd
  dsimp only
  exact (h.weltDone ..).ite (h.agentWrite ..)

theorem Kept.weltNorm (h : Kept s t) (hs g lease) : Kept s (t.weltNorm hs g lease) := by
  unfold State.weltNorm
  dsimp only
  refine Kept.ite (Kept.normEnd (Kept.onWelt ?_ ..) ..) (Kept.onWelt ?_ ..)
  · exact h.same rfl rfl
  · exact h.same rfl rfl

theorem Kept.weltStart (h : Kept s t) (hs l) : Kept s (t.weltStart hs l) := by
  unfold State.weltStart
  dsimp only
  exact Kept.ite (Kept.onWelt ((h.setFld ..).ite h) ..) (Kept.onWelt (Kept.setFld ((h.setFld ..).ite h) ..) ..)

theorem Kept.weltNext (h : Kept s t) (hs) : Kept s (t.weltNext hs) := by
  unfold State.weltNext
  split
  · exact h.weltStart ..
  · exact h

theorem Kept.weltApply (h : Kept s t) (hs g lease) : Kept s (t.weltApply hs g lease) := by
  unfold State.weltApply
  dsimp only
  split
  · exact Kept.onWelt ((((h.agentRead ..).setFld ..).count ..).ite (h.agentRead ..)) ..
  · exact (((h.agentRead ..).setFld ..).onWelt ..).weltNext ..

theorem Kept.weltFinish (h : Kept s t) (hs g) : Kept s (t.weltFinish hs g) := by
  unfold State.weltFinish
  dsimp only
  exact (h.onWelt ..).weltNext ..

theorem Kept.weltCloseStep (h : Kept s t) (hs) : Kept s (t.weltCloseStep hs) := by
  unfold State.weltCloseStep
  dsimp only
  refine Kept.setFld ?_ ..
  split
  · refine Kept.foldl ?_ _ fun u x h => ?_
    · exact h
    · split
      · exact h.setFld ..
      · exact h
  · exact h

theorem Kept.weltCmd (h : Kept s t) (a hs op g) : Kept s (t.weltCmd a hs op g).1 := by
  have k := h.weltAccept hs op g
  unfold State.weltCmd
  refine h.iteFst ?_
  cases t.weltCheck a hs op g with
  | some e => exact h.weltRefuse ..
  | none =>
    simp only [apply_ite Prod.fst]
    exact (k.weltNorm ..).ite ((k.weltApply ..).ite ((k.weltFinish ..).ite ((k.weltCloseStep ..).onWelt ..)))

theorem Kept.weltFreezeWrite (h : Kept s t) (a hs k v) : Kept s (t.weltFreezeWrite a hs k v).1 := by
  unfold State.weltFreezeWrite
  dsimp only
  split
  · exact h
  · exact h.plainWrite ..

theorem Kept.guardedWrite (h : Kept s t) (a r v fs) : Kept s (t.guardedWrite a r v fs).1 := by
  unfold State.guardedWrite
  dsimp only
  split
  · exact h
  · exact h.plainWrite ..

theorem Kept.rangedWrite (h : Kept s t) (a r v fs fixed) : Kept s (t.rangedWrite a r v fs fixed).1 := by
  unfold State.rangedWrite
  dsimp only
  split
  · exact h
  · exact h.guardedWrite ..

theorem Kept.weltGroupWrite (h : Kept s t) (a hs g n v) : Kept s (t.weltGroupWrite a hs g n v).1 := by
  unfold State.weltGroupWrite
  dsimp only
  split
  · exact h
  · split
    · split
      · split
        · split
          · exact h
          · exact h.guardedWrite ..
        · split
          · exact h
          · exact h.guardedWrite ..
      · exact h.guardedWrite ..
    · exact h.rangedWrite ..
    · exact h.plainWrite ..

theorem Kept.weltHpWrite (h : Kept s t) (a hs h' n v) : Kept s (t.weltHpWrite a hs h' n v).1 := by
  unfold State.weltHpWrite
  dsimp only
  split
  · exact h
  · split
    · exact h.rangedWrite ..
    · exact h.rangedWrite ..
    · exact h.rangedWrite ..
    · exact h.guardedWrite ..

theorem Kept.weltEpochWrite (h : Kept s t) (a hs l v) : Kept s (t.weltEpochWrite a hs l v).1 := by
  unfold State.weltEpochWrite
  dsimp only
  split
  · exact h
  · split
    · exact h
    · exact (((h.setFld ..).setFld ..).setFld ..).setFld ..

theorem Kept.weltLayerWrite (h : Kept s t) (a hs l n v) : Kept s (t.weltLayerWrite a hs l n v).1 := by
  unfold State.weltLayerWrite
  dsimp only
  split
  · split
    · exact h
    · split
      · exact h
      · exact h.plainWrite ..
  · split
    · exact h
    · split
      · exact h
      · exact h.plainWrite ..

theorem Kept.hsWrite (h : Kept s t) (a r v) : Kept s (t.hsWrite a r v).1 := by
  unfold State.hsWrite
  dsimp only
  split
  · exact h.weltCmd ..
  · exact h.weltFreezeWrite ..
  · exact h.weltGroupWrite ..
  · exact h.weltGroupWrite ..
  · exact h.weltGroupWrite ..
  · exact h.weltGroupWrite ..
  · exact h.weltGroupWrite ..
  · exact h.weltHpWrite ..
  · exact h.weltHpWrite ..
  · exact h.weltHpWrite ..
  · exact h.weltHpWrite ..
  · exact h.weltEpochWrite ..
  · split
    · split
      · exact h.plainWrite ..
      · exact h
    · split
      · exact h.plainWrite ..
      · exact h
  · exact h.weltLayerWrite ..

theorem Kept.icSwset (h : Kept s t) (ic v) : Kept s (t.icSwset ic v).1 := by
  unfold State.icSwset
  dsimp only
  exact (h.setPending ..).ite h

theorem Kept.icEnableWrite (h : Kept s t) (ic w v) : Kept s (t.icEnableWrite ic w v).1 := by
  unfold State.icEnableWrite
  dsimp only
  exact (h.noteCycle ..).setReg ..

theorem Kept.syncSource (h : Kept s t) (ic src) : Kept s (t.syncSource ic src) := by
  unfold State.syncSource
  exact (h.syncLevel ..).ite h

theorem Kept.icPendingWrite (h : Kept s t) (ic w v) : Kept s (t.icPendingWrite ic w v).1 := by
  unfold State.icPendingWrite
  dsimp only
  refine Kept.foldl ?_ _ fun u x h => ?_
  · exact (h.setReg ..).noteEsc ..
  · exact h.syncSource ..

theorem Kept.icSrcWrite (h : Kept s t) (ic x v) : Kept s (t.icSrcWrite ic x v).1 := by
  unfold State.icSrcWrite
  dsimp only
  split
  · exact h
  · exact (h.setReg ..).noteEsc ..

theorem Kept.icComplete (h : Kept s t) (ic t' v) : Kept s (t.icComplete ic t' v).1 := by
  unfold State.icComplete
  dsimp only
  split
  · refine Kept.syncSource ?_ ..
    exact (h.putBit (icActive ic (bits v 9 0)) (bits v 9 0 % 64) false).same rfl rfl
  · exact h

theorem Kept.icWriteReg (h : Kept s t) (a r v) : Kept s (t.icWriteReg a r v).1 := by
  unfold State.icWriteReg
  dsimp only
  split
  · exact h.icSwset ..
  · exact h.icEnableWrite ..
  · exact h.icPendingWrite ..
  · exact h.icSrcWrite ..
  · exact h.icComplete ..
  · exact h.plainWrite ..

theorem Kept.rrNote (h : Kept s t) (old ic) : Kept s (t.rrNote old ic) := by
  unfold State.rrNote
  refine Kept.foldl h _ fun u x h => ?_
  split
  · exact h
  · split
    · exact h.rrBegin ..
    · exact h.rrMark ..

theorem Kept.icWrite (h : Kept s t) (a r v) : Kept s (t.icWrite a r v).1 := by
  unfold State.icWrite
  dsimp only
  exact (h.icWriteReg ..).rrNote ..

theorem Kept.peerPortClr (h : Kept s t) (q v) : Kept s (t.peerPortClr q v).1 := by
  unfold State.peerPortClr
  split
  · exact h.clearReg ..
  · exact h

theorem Kept.collBlock (h : Kept s t) (g a n) : Kept s (t.collBlock g a n).1 := by
  unfold State.collBlock
  dsimp only
  refine Kept.foldlOn Prod.fst ?_ _ fun u x h => ?_
  · exact h
  · exact h.agentRead ..

theorem Kept.onColl (h : Kept s t) (io f) : Kept s (t.onColl io f) := by
  unfold State.onColl
  exact h.same rfl rfl

theorem Kept.collFresh (h : Kept s t) (io g) : Kept s (t.collFresh io g) := by
  unfold State.collFresh
  refine Kept.onColl ?_ ..
  exact h.same rfl rfl

theorem Kept.collGroupWrite (h : Kept s t) (a io g v) : Kept s (t.collGroupWrite a io g v).1 := by
  unfold State.collGroupWrite
  dsimp only
  split
  · exact h.setFld ..
  · split
    · exact h
    · split
      · exact h.setReg ..
      · split
        · exact ((h.collBlock ..).collFresh ..).setReg ..
        · split
          · exact h.collBlock ..
          · exact (h.collBlock ..).setReg ..

theorem Kept.collMembersWrite (h : Kept s t) (a io g v) : Kept s (t.collMembersWrite a io g v).1 := by
  unfold State.collMembersWrite
  split
  · exact h
  · split
    · split
      · exact h.plainWrite ..
      · exact h
    · exact h.plainWrite ..

theorem Kept.collSubmit (h : Kept s t) (a io v) : Kept s (t.collSubmit a io v).1 := by
  unfold State.collSubmit
  dsimp only
  split
  · exact h
  · split
    · split
      · exact h
      · split
        · exact h
        · split
          · exact h.setW1c ..
          · exact (h.onColl ..).setFld ..
    · split
      · exact h
      · split
        · exact h.setW1c ..
        · exact (h.onColl ..).setFld ..

theorem Kept.setRx (h : Kept s t) (h' x) : Kept s (t.setRx h' x) := by
  unfold State.setRx
  exact h.same rfl rfl

theorem Kept.freeRows (h : Kept s t) (h' head) : Kept s (t.freeRows h' head) := by
  unfold State.freeRows
  dsimp only
  exact h.setRx ..

theorem Kept.hpHeadWrite (h : Kept s t) (h' fifo v) : Kept s (t.hpHeadWrite h' fifo v).1 := by
  unfold State.hpHeadWrite
  dsimp only
  split
  · exact h
  · split
    · split
      · exact h
      · exact (h.setFld ..).freeRows ..
    · split
      · exact h
      · exact h.setFld ..

theorem Kept.dropPacket (h : Kept s t) (h' pk) : Kept s (t.dropPacket h' pk) := by
  unfold State.dropPacket
  dsimp only
  exact ((((h.setFld ..).setFld ..).tally ..).freeRows ..).setRx ..

theorem Kept.dropRest (h : Kept s t) (h' v) : Kept s (t.dropRest h' v).1 := by
  unfold State.dropRest
  dsimp only
  split
  · exact h
  · split
    · exact h
    · exact (h.dropPacket ..).ite (h.setRx ..)

theorem Kept.hpClr (h : Kept s t) (h' v) : Kept s (t.hpClr h' v).1 := by
  unfold State.hpClr
  split
  · exact ((h.clearReg ..).clearReg ..).clearReg ..
  · exact h

theorem Kept.landBaseWrite (h : Kept s t) (a r v) : Kept s (t.landBaseWrite a r v).1 := by
  unfold State.landBaseWrite
  dsimp only
  split
  · split
    · exact h.plainWrite ..
    · exact h
  · split
    · exact h.plainWrite ..
    · exact h

theorem Kept.ioWrite (h : Kept s t) (a r v) : Kept s (t.ioWrite a r v).1 := by
  unfold State.ioWrite
  dsimp only
  split
  · exact h.peerPortClr ..
  · exact h.collGroupWrite ..
  · exact h.collMembersWrite ..
  · exact h.collSubmit ..
  · exact h.hpHeadWrite ..
  · exact h.hpHeadWrite ..
  · exact h.dropRest ..
  · exact h.hpClr ..
  · exact h.landBaseWrite ..
  · exact h.plainWrite ..

theorem Kept.linkErrClr (h : Kept s t) (sel p v) : Kept s (t.linkErrClr sel p v).1 := by
  unfold State.linkErrClr
  split
  · exact h.clearReg ..
  · exact h

theorem Kept.freeCells (h : Kept s t) (q vc cls n) : Kept s (t.freeCells q vc cls n) := by
  unfold State.freeCells
  dsimp only
  exact h.same rfl rfl

theorem Kept.putOnWire (h : Kept s t) (q e) : Kept s (t.putOnWire q e) := by
  unfold State.putOnWire
  dsimp only
  split
  · refine Kept.freeCells (Kept.ite (Kept.charge ?_ ..) ?_) ..
    · exact h.same rfl rfl
    · exact h.same rfl rfl
  · refine Kept.ite (Kept.charge ?_ ..) (h.same rfl rfl)
    exact h.same rfl rfl

theorem Kept.sendEgress (h : Kept s t) : Kept s (t.sendEgress) := by
  unfold State.sendEgress
  dsimp only
  split
  · exact h
  · split
    · exact h
    · refine Kept.putOnWire ?_ ..
      exact h.same rfl rfl

theorem Kept.drainEgress (h : Kept s t) : Kept s (t.drainEgress) := by
  unfold State.drainEgress
  refine Kept.iter ?_ _ fun x u h => ?_
  · exact h
  · exact h.sendEgress ..

theorem Kept.fabCfgWrite (h : Kept s t) (a v) : Kept s (t.fabCfgWrite a v).1 := by
  unfold State.fabCfgWrite
  dsimp only
  split
  · split
    · exact h
    · exact ((h.plainWrite ..).drainEgress ..).ite (h.plainWrite ..)
  · split
    · split
      · exact h
      · exact ((h.plainWrite ..).drainEgress ..).ite (h.plainWrite ..)
    · exact ((h.plainWrite ..).drainEgress ..).ite (h.plainWrite ..)

theorem Kept.fabCoordWrite (h : Kept s t) (a u v) : Kept s (t.fabCoordWrite a u v).1 := by
  unfold State.fabCoordWrite
  dsimp only
  split
  · exact h
  · split
    · exact h
    · split
      · exact h
      · split
        · exact h
        · exact h.plainWrite ..

theorem Kept.fabVcWrite (h : Kept s t) (a vc v) : Kept s (t.fabVcWrite a vc v).1 := by
  unfold State.fabVcWrite
  dsimp only
  split
  · exact h
  · split
    · exact h
    · exact h.plainWrite ..

theorem Kept.fabStatClr (h : Kept s t) (v) : Kept s (t.fabStatClr v).1 := by
  unfold State.fabStatClr
  split
  · exact h.clearReg ..
  · exact h

theorem Kept.relock (h : Kept s t) : Kept s (t.relock).1 := by
  unfold State.relock
  split
  · exact h
  · exact h.same rfl rfl

theorem Kept.draw (h : Kept s t) : Kept s (t.draw).2 := by
  unfold State.draw
  exact h.same rfl rfl

theorem Kept.syncAlerts (h : Kept s t) : Kept s (t.syncAlerts) := by
  unfold State.syncAlerts
  dsimp only
  refine Kept.foldl ?_ _ fun u x h => ?_
  · exact h
  · split
    · refine h.ite (Kept.setFld ?_ ..)
      exact h.same rfl rfl
    · split
      · exact h.setFld ..
      · exact h

theorem Kept.rootSv0 (h : Kept s t) : Kept s (t.rootSv0).1 := by
  unfold State.rootSv0
  dsimp only
  split
  · exact h
  · split
    · exact ((h.draw ..).setFld ..).syncAlerts ..
    · exact h.draw ..

theorem Kept.clkCtrlWrite (h : Kept s t) (v) : Kept s (t.clkCtrlWrite v).1 := by
  unfold State.clkCtrlWrite
  dsimp only
  split
  · split
    · exact h.relock ..
    · exact h
  · refine Kept.rootSv0 ?_ ..
    split
    · exact h.relock ..
    · exact h

theorem Kept.pwrLimitWrite (h : Kept s t) (a v) : Kept s (t.pwrLimitWrite a v).1 := by
  unfold State.pwrLimitWrite
  dsimp only
  split
  · exact h
  · exact h.plainWrite ..

theorem Kept.snapPolicyWrite (h : Kept s t) (a n v) : Kept s (t.snapPolicyWrite a n v).1 := by
  unfold State.snapPolicyWrite
  dsimp only
  split
  · split
    · exact h
    · exact h.plainWrite ..
  · exact h.plainWrite ..

theorem Kept.dbgVerify (h : Kept s t) : Kept s (t.dbgVerify).1 := by
  unfold State.dbgVerify
  split
  · exact h
  · refine Kept.setFld ?_ ..
    exact h.same rfl rfl

theorem Kept.dbgLock (h : Kept s t) : Kept s (t.dbgLock) := by
  unfold State.dbgLock
  dsimp only
  refine Kept.setFld ?_ ..
  exact h.same rfl rfl

theorem Kept.dbgCtrlWrite (h : Kept s t) (v) : Kept s (t.dbgCtrlWrite v).1 := by
  unfold State.dbgCtrlWrite
  dsimp only
  split
  · refine Kept.dbgLock ?_ ..
    split
    · exact h.dbgVerify ..
    · exact h
  · split
    · exact h.dbgVerify ..
    · exact h

theorem Kept.injCtrlWrite (h : Kept s t) (a v) : Kept s (t.injCtrlWrite a v).1 := by
  unfold State.injCtrlWrite
  dsimp only
  split
  · exact h
  · split
    · split
      · exact h
      · refine Kept.setReg ?_ ..
        exact h.same rfl rfl
    · exact Kept.ite ((h.plainWrite ..).same rfl rfl) (h.plainWrite ..)

theorem Kept.svWrite (h : Kept s t) (a r v) : Kept s (t.svWrite a r v).1 := by
  unfold State.svWrite
  dsimp only
  split
  · exact h.fabCfgWrite ..
  · exact h.fabCoordWrite ..
  · exact h.fabVcWrite ..
  · exact h.fabStatClr ..
  · exact h.clkCtrlWrite ..
  · exact h.pwrLimitWrite ..
  · exact h.snapPolicyWrite ..
  · exact h.dbgCtrlWrite ..
  · split
    · exact h.plainWrite ..
    · exact h
  · exact h.injCtrlWrite ..
  · exact (h.plainWrite ..).syncAlerts ..
  · exact h.plainWrite ..

theorem Kept.writeAct (h : Kept s t) (a r v) : Kept s (t.writeAct a r v).1 := by
  unfold State.writeAct
  split
  · exact h
  · split
    · exact h.pertWrite ..
    · split
      · exact h.cdWrite ..
      · exact h.hsWrite ..
      · exact h.icWrite ..
      · exact h.ioWrite ..
      · exact h.ioWrite ..
      · split
        · exact h.linkErrClr ..
        · exact h.plainWrite ..
      · exact h.svWrite ..

theorem Kept.regWrite (h : Kept s t) (a addr v) : Kept s (t.regWrite a addr v).1 := by
  unfold State.regWrite
  split
  · exact h
  · exact h
  · split
    · exact h
    · exact h.writeAct ..

theorem keptOut_writeCmd (t : State) (a addr v) : KeptOut t (t.writeCmd a addr v) := by
  unfold State.writeCmd
  dsimp only
  have h := Kept.refl t
  refine KeptOut.live _ ?_
  refine Kept.next ?_
  refine h.byActor fun u h => ?_
  refine Kept.answer ?_ ..
  exact h.regWrite ..

theorem keptOut_execRegisterWrite (t : State) (a addr v) : KeptOut t (execRegisterWrite a addr v t) := by
  unfold execRegisterWrite
  have h := Kept.refl t
  exact keptOut_writeCmd ..

theorem Kept.linkSeen (h : Kept s t) (sel p r) : Kept s (t.linkSeen sel p r).1 := by
  unfold State.linkSeen
  split
  · split
    · exact h.fired ..
    · exact h
  · exact h

theorem Kept.linkLate (h : Kept s t) (n t') : Kept s (t.linkLate n t') := by
  unfold State.linkLate
  split
  · exact h
  · exact h.same rfl rfl

theorem Kept.linkCredit (h : Kept s t) (sel p c) : Kept s (t.linkCredit sel p c) := by
  unfold State.linkCredit
  dsimp only
  exact Kept.ite (h.same rfl rfl) h

theorem Kept.markKernel (h : Kept s t) (k) : Kept s (t.markKernel k) := by
  unfold State.markKernel
  exact h.onCore ..

theorem Kept.firstStatus (h : Kept s t) (d p st) : Kept s (t.firstStatus d p st) := by
  unfold State.firstStatus
  dsimp only
  exact (h.setFld ..).ite h

theorem Kept.linkIntegrity (h : Kept s t) (o row) : Kept s (t.linkIntegrity o row) := by
  unfold State.linkIntegrity
  dsimp only
  split
  · exact h.markKernel ..
  · exact h.markKernel ..
  · split
    · exact h.onWelt ..
    · exact h.firstStatus ..
    · exact h.same rfl rfl
    · exact h.same rfl rfl
    · exact h.markKernel ..
    · exact h.markKernel ..
    · exact h.markKernel ..
    · exact h.markKernel ..
    · exact h
    · exact h
    · exact h
  · exact h

theorem Kept.linkDeliver (h : Kept s t) (sel p c r bad) : Kept s (t.linkDeliver sel p c r bad) := by
  unfold State.linkDeliver
  dsimp only
  split
  · split
    · exact ((h.linkCredit ..).markKernel ..).ite (h.linkCredit ..)
    · exact h.linkCredit ..
  · refine Kept.ite (Kept.linkIntegrity ?_ ..) ((h.linkCredit ..).same rfl rfl)
    exact (h.linkCredit ..).same rfl rfl

theorem Kept.linkTake (h : Kept s t) (sel p c r) : Kept s (t.linkTake sel p c r).1 := by
  unfold State.linkTake
  dsimp only
  split
  · refine Kept.setFld (Kept.linkLate (Kept.tally ?_ ..) ..) ..
    exact (h.tally (linkReg RegName.LINK_ERR_CNT sel p) LINK_ERR_CNT.CORR (rowCorrected r)).same rfl rfl
  · exact (h.tally ..).linkDeliver ..

theorem keptOut_execLinkRowReceive (t : State) (e cls r) : KeptOut t (execLinkRowReceive e cls r t) := by
  unfold execLinkRowReceive
  dsimp only
  have h := Kept.refl t
  refine KeptOut.live _ ?_
  split
  · exact h.next
  · split
    · refine Kept.next (Kept.linkLate ?_ ..)
      exact (h.linkSeen ..).same rfl rfl
    · exact ((h.linkSeen ..).linkTake ..).next

theorem Kept.linkHeldRows (h : Kept s t) (sel p c l) : Kept s (t.linkHeldRows sel p c l) := by
  induction l generalizing t with
  | nil => exact h
  | cons r l ih =>
    unfold State.linkHeldRows
    dsimp only
    split
    · exact ih (h.linkTake ..)
    · exact (h.linkTake sel p c r).same rfl rfl

theorem keptOut_execLinkReplay (t : State) (e r) : KeptOut t (execLinkReplay e r t) := by
  unfold execLinkReplay
  dsimp only
  have h := Kept.refl t
  refine KeptOut.live _ ?_
  split
  · exact h.next
  · refine Kept.next (Kept.ite (Kept.linkHeldRows (Kept.linkDeliver (Kept.ite (Kept.tally ?_ ..) (Kept.tally ?_ ..)) ..) ..) (Kept.setFld (Kept.linkHeldRows (Kept.linkDeliver (Kept.ite (Kept.tally ?_ ..) (Kept.tally ?_ ..)) ..) ..) ..))
    · refine Kept.same (Kept.tally ?_ (linkReg RegName.LINK_ERR_CNT ↑e.sel ↑e.port) LINK_ERR_CNT.CORR (rowCorrected r)) rfl rfl
      refine Kept.bump ?_ ..
      exact h.same rfl rfl
    · exact h.same rfl rfl
    · refine Kept.same (Kept.tally ?_ (linkReg RegName.LINK_ERR_CNT ↑e.sel ↑e.port) LINK_ERR_CNT.CORR (rowCorrected r)) rfl rfl
      refine Kept.bump ?_ ..
      exact h.same rfl rfl
    · exact h.same rfl rfl

theorem keptOut_execLinkErrClr (t : State) (a e v) : KeptOut t (execLinkErrClr a e v t) := by
  unfold execLinkErrClr
  have h := Kept.refl t
  exact keptOut_writeCmd ..

theorem Kept.consume (h : Kept s t) (k b squashed) : Kept s (t.consume k b squashed) := by
  unfold State.consume
  dsimp only
  split
  · exact h
  · exact Kept.ite (Kept.onCore (((h.count ..).count ..).ite h) ..) (Kept.ite (Kept.ite (Kept.onCore (((h.count ..).count ..).ite h) ..) (Kept.setW1c (Kept.setFld (Kept.onCore (((h.count ..).count ..).ite h) ..) ..) ..)) (Kept.setFld (Kept.setFld (Kept.onCore (((h.count ..).count ..).ite h) ..) ..) ..))

theorem Kept.slotDone (h : Kept s t) (k j b) : Kept s (t.slotDone k j b) := by
  unfold State.slotDone
  dsimp only
  split
  · exact h
  · exact ((h.onCore ..).consume ..).ite (h.onCore ..)

theorem Kept.settle (h : Kept s t) (k) : Kept s (t.settle k) := by
  unfold State.settle
  dsimp only
  exact h.ite (h.setCore ..)

theorem Kept.admission (h : Kept s t) {k : Nat} {q : Kernel} {b : Bundle} (e : t.admission k q b = .wait u) : Kept s u := by
  unfold State.admission at e
  dsimp only at e
  repeat' split at e
  all_goals first
    | (cases e; exact h)
    | (cases e; exact h.setCore ..)
    | (cases e; exact ((h.onCore ..).setFld ..).setFld ..)
    | cases e

theorem Kept.refuse (h : Kept s t) (k st bundle slot) : Kept s (t.refuse k st bundle slot) := by
  unfold State.refuse
  dsimp only
  split
  · exact h
  · exact h.ite ((h.onCore ..).faultRing ..)

theorem Kept.admitted (h : Kept s t) (k q b) : Kept s (t.admitted k q b) := by
  unfold State.admitted
  dsimp only
  exact h.onCore ..

theorem Kept.issue (h : Kept s t) {k j op : Nat} {eff : Kernel → Nat → State → State} (e : ∀ q w u, Kept s u → Kept s (eff q w u)) : Kept s (t.issue k j op eff) := by
  unfold State.issue
  split
  · exact h
  · dsimp only
    split
    · exact h
    · split
      · exact (e _ _ _ h).slotDone ..
      · split
        next w hw => exact (h.settle k).admission hw
        · exact (h.settle ..).refuse ..
        · exact (e _ _ _ ((h.settle ..).admitted ..)).slotDone ..

theorem Kept.readRaw (h : Kept s t) (k buf row ws) : Kept s (t.readRaw k buf row ws).s := by
  unfold State.readRaw
  dsimp only
  refine Kept.countCoreEcc ((h.readWords ..).ite ?_) ..
  exact (h.readWords ..).same rfl rfl

theorem Kept.correctAt (h : Kept s t) (k t') : Kept s (t.correctAt k t') := by
  unfold State.correctAt
  exact (h.freeze ..).ite (h.onCore ..)

theorem Kept.coreEvent (h : Kept s t) (k buf row bundle map) : Kept s (t.coreEvent k buf row bundle map) := by
  unfold State.coreEvent
  dsimp only
  refine Kept.markKernel ?_ ..
  refine Kept.raise ?_ ..
  split
  · exact ((h.bump ..).record ..).charge ..
  · exact (h.bump ..).record ..

theorem Kept.wldRead (h : Kept s t) (k a bundle x row half er sb tr n) : Kept s (t.wldRead k a bundle x row half er sb tr n).1 := by
  induction n with
  | zero => exact h
  | succ n ih =>
    have r := ih.readRaw k (3 + a) (row + n) (fun _ => true)
    unfold State.wldRead
    dsimp only
    split
    · exact ((r.correctAt ..).ite r).coreEvent ..
    · exact (r.correctAt ..).ite r

theorem Kept.startLoad (h : Kept s t) (k a q w) : Kept s (t.startLoad k a q w) := by
  unfold State.startLoad
  dsimp only
  exact (((h.wldRead ..).onCore ..).setW1c ..).ite ((h.wldRead ..).onCore ..)

theorem keptOut_execWld (t : State) (c ma) : KeptOut t (execWld c ma t) := by
  unfold execWld
  have h := Kept.refl t
  refine KeptOut.live _ ?_
  refine Kept.next ?_
  refine h.issue fun q w u h => ?_
  exact h.startLoad ..

theorem keptOut_execWldComplete (t : State) (c ma h') : KeptOut t (execWldComplete c ma h' t) := by
  unfold execWldComplete
  dsimp only
  have h := Kept.refl t
  refine KeptOut.live _ ?_
  split
  · exact h.next
  · split
    · exact h.next
    · exact (h.onCore ..).next

theorem Kept.startPass (h : Kept s t) (k a q w) : Kept s (t.startPass k a q w) := by
  unfold State.startPass
  dsimp only
  exact h.onCore ..

theorem keptOut_execPass (t : State) (c ma) : KeptOut t (execPass c ma t) := by
  unfold execPass
  have h := Kept.refl t
  refine KeptOut.live _ ?_
  refine Kept.next ?_
  refine h.issue fun q w u h => ?_
  exact h.startPass ..

theorem Kept.readEntries (h : Kept s t) (k a p m) : Kept s (t.readEntries k a p m).1 := by
  unfold State.readEntries
  dsimp only
  split
  · split
    · split
      · exact h
      · exact Kept.ite (Kept.coreEvent (((h.readRaw ..).freeze ..).ite (h.readRaw ..)) ..) (((h.readRaw ..).freeze ..).ite (h.readRaw ..))
    · split
      · exact h
      · exact Kept.ite (Kept.coreEvent (((h.readRaw ..).freeze ..).ite (h.readRaw ..)) ..) (((h.readRaw ..).freeze ..).ite (h.readRaw ..))
  · split
    · split
      · exact h
      · exact Kept.ite (Kept.coreEvent (((h.readRaw ..).freeze ..).ite (h.readRaw ..)) ..) (((h.readRaw ..).freeze ..).ite (h.readRaw ..))
    · split
      · exact h
      · exact Kept.ite (Kept.coreEvent (((h.readRaw ..).freeze ..).ite (h.readRaw ..)) ..) (((h.readRaw ..).freeze ..).ite (h.readRaw ..))

theorem Kept.poisonSlot (h : Kept s t) (k slot x) : Kept s (t.poisonSlot k slot x) := by
  unfold State.poisonSlot
  split
  · exact h
  · exact h.withMem rfl fun w => Memory.foldl_wf _ (fun _ _ w => Memory.writeWords_wf _ _ w) w

theorem Kept.wrote (h : Kept s t) (row ws) : Kept s (t.wrote row ws) := by
  unfold State.wrote
  split
  · split
    · exact h.fired.same rfl rfl
    · exact h
  · exact h

theorem Kept.passHalf (h : Kept s t) (k p m i xs bad) : Kept s (t.passHalf k p m i xs bad) := by
  unfold State.passHalf
  extract_lets slot row cols words u old newB outs full keep mem v
  have ku : Kept s u := (h.onCore ..).ite h
  have w : u.mem.wf = true → mem.wf = true := fun w => Memory.writeWords_wf _ _ w
  have kv : Kept s v := by
    refine ku.withMem rfl fun x => ?_
    show (if p.init then _ else mem).wf = true
    split
    · exact w x
    · exact w x
  split
  · exact h
  · split
    · exact h.poisonSlot ..
    · split
      · exact ku
      · exact kv.wrote ..

theorem Kept.addVector (h : Kept s t) (k a p x) : Kept s (t.addVector k a p x).1 := by
  unfold State.addVector
  dsimp only
  exact Kept.ite (Kept.passHalf (((h.readEntries ..).passHalf ..).ite (h.readEntries ..)) ..) (((h.readEntries ..).passHalf ..).ite (h.readEntries ..))

theorem Kept.addPass (h : Kept s t) (k a t' p) : Kept s (t.addPass k a t' p) := by
  unfold State.addPass
  dsimp only
  refine Kept.onCore ?_ ..
  refine Kept.foldlOn Prod.fst ?_ _ fun u x h => ?_
  · exact h
  · exact h.addVector ..

theorem Kept.addDue (h : Kept s t) (k a half) : Kept s (t.addDue k a half) := by
  unfold State.addDue
  refine Kept.foldl ?_ _ fun u x h => ?_
  · exact h
  · exact h.addPass ..

theorem Kept.readList (h : Kept s t) (k bundle map l) : Kept s (t.readList k bundle map l).s := by
  induction l generalizing t with
  | nil => exact h
  | cons x l ih =>
    have r := h.readRaw k 0 x.1 x.2
    have c := (r.freeze k).ite (p := (t.readRaw k 0 x.1 x.2).corr = true) r
    exact ih ((c.coreEvent ..).ite c)

theorem Kept.readVector (h : Kept s t) (k p depth m) : Kept s (t.readVector k p depth m).s := by
  unfold State.readVector
  split
  · exact h
  · extract_lets rd keep
    have r : Kept s rd.s := h.readList ..
    exact r.onCore k (fun c => { c with arrays := c.arrays.map (fun a => (a.1, { a.2 with passes := a.2.passes.map keep })) })

theorem Kept.passVector (h : Kept s t) (k a p) : Kept s (t.passVector k a p) := by
  unfold State.passVector
  dsimp only
  exact Kept.onCore (Kept.ite (Kept.setW1c (Kept.readVector ((h.onCore ..).ite h) ..) ..) (Kept.readVector ((h.onCore ..).ite h) ..)) ..

theorem keptOut_execPassVector (t : State) (c ma h') : KeptOut t (execPassVector c ma h' t) := by
  unfold execPassVector
  dsimp only
  have h := Kept.refl t
  refine KeptOut.live _ ?_
  split
  · exact h.next
  · split
    · exact (h.addDue ..).next
    · exact ((h.addDue ..).passVector ..).next

theorem keptOut_execPassRelease (t : State) (c ma h') : KeptOut t (execPassRelease c ma h' t) := by
  unfold execPassRelease
  dsimp only
  have h := Kept.refl t
  refine KeptOut.live _ ?_
  split
  · exact h.next
  · split
    · exact (h.addDue ..).next
    · exact ((h.addDue ..).onCore ..).next

theorem Kept.takeCrossing (h : Kept s t) (k) : Kept s (t.takeCrossing k) := by
  unfold State.takeCrossing
  refine Kept.foldl ?_ _ fun u x h => ?_
  · exact h
  · exact h.onCore ..

theorem Kept.detect (h : Kept s t) (k) : Kept s (t.detect k) := by
  unfold State.detect
  dsimp only
  exact h.ite (((h.onCore ..).freeze ..).ite h)

theorem keptOut_execFreezeEnd (t : State) (c) : KeptOut t (execFreezeEnd c t) := by
  unfold execFreezeEnd
  dsimp only
  have h := Kept.refl t
  refine KeptOut.live _ ?_
  split
  · exact h.next
  · split
    · exact h.next
    · exact ((((h.onCore ..).takeCrossing ..).onCore ..).detect ..).next

theorem Kept.readHeld (h : Kept s t) (k bundle t0 l) : Kept s (t.readHeld k bundle t0 l).1 := by
  induction l generalizing t with
  | nil => exact h
  | cons x l ih =>
    obtain ⟨i, buf, row⟩ := x
    have r := h.readRaw k buf row (fun _ => true)
    have c := (r.correctAt k (t0 + i)).ite (p := (t.readRaw k buf row (fun _ => true)).corr = true) r
    exact ih ((c.coreEvent ..).ite c)

theorem Kept.startVec (h : Kept s t) (k pipe v) : Kept s (t.startVec k pipe v) := by
  unfold State.startVec
  dsimp only
  exact (h.readHeld ..).onCore ..

theorem keptOut_execElem (t : State) (c) : KeptOut t (execElem c t) := by
  unfold execElem
  have h := Kept.refl t
  refine KeptOut.live _ ?_
  refine Kept.next ?_
  refine h.issue fun q w u h => ?_
  exact h.startVec ..

theorem Kept.startVec1 (h : Kept s t) (k q w) : Kept s (t.startVec1 k q w) := by
  unfold State.startVec1
  exact h.startVec ..

theorem Kept.issueVec1 (h : Kept s t) (k op) : Kept s (t.issueVec1 k op) := by
  unfold State.issueVec1
  refine h.issue fun q w u h => ?_
  exact h.startVec1 ..

theorem keptOut_execConvert (t : State) (c) : KeptOut t (execConvert c t) := by
  unfold execConvert
  have h := Kept.refl t
  refine KeptOut.live _ ?_
  exact (h.issueVec1 ..).next

theorem keptOut_execSplit (t : State) (c) : KeptOut t (execSplit c t) := by
  unfold execSplit
  have h := Kept.refl t
  refine KeptOut.live _ ?_
  exact (h.issueVec1 ..).next

theorem keptOut_execDrain (t : State) (c) : KeptOut t (execDrain c t) := by
  unfold execDrain
  have h := Kept.refl t
  refine KeptOut.live _ ?_
  split
  · exact h.next
  · exact h.next
  · exact h.next
  · exact (h.issueVec1 ..).next

theorem Kept.storeRow (h : Kept s t) (row img) : Kept s (t.storeRow row img) := by
  unfold State.storeRow
  refine Kept.wrote ?_ _ _
  exact h.withMem rfl (fun w => Memory.writeRow_wf _ _ w)

theorem Kept.writeOwn (h : Kept s t) (k buf row img) : Kept s (t.writeOwn k buf row img) := by
  unfold State.writeOwn
  exact h.storeRow ..

theorem Kept.writeVec (h : Kept s t) (k buf row img) : Kept s (t.writeVec k buf row img) := by
  unfold State.writeVec
  exact Kept.ite (((h.poisonSlot ..).poisonSlot ..).ite (h.writeOwn ..)) (h.writeOwn ..)

theorem Kept.fmtEvents (h : Kept s t) (k ev) : Kept s (t.fmtEvents k ev) := by
  unfold State.fmtEvents
  dsimp only
  exact h.ite ((h.setReg ..).noteCycle ..)

theorem Kept.writeRows (h : Kept s t) (k buf row poison rows) : Kept s (t.writeRows k buf row poison rows) := by
  unfold State.writeRows
  refine Kept.foldl ?_ _ fun u x h => ?_
  · exact h
  · exact h.writeVec ..

theorem Kept.writeSlot (h : Kept s t) (k x poison rows) : Kept s (t.writeSlot k x poison rows) := by
  unfold State.writeSlot
  exact ((h.poisonSlot ..).poisonSlot ..).ite (h.writeRows ..)

theorem Kept.softStep (h : Kept s t) (k v fc oSlots stateRow qrows qgroup mask init causal scale) : Kept s (t.softStep k v fc oSlots stateRow qrows qgroup mask init causal scale) := by
  unfold State.softStep
  dsimp only
  refine Kept.foldl ?_ _ fun u x h => ?_
  · exact (h.writeRows ..).writeVec ..
  · exact h.writeSlot ..

theorem Kept.softFinal (h : Kept s t) (k lease v fc round index oSlots stateRow qrows) : Kept s (t.softFinal k lease v fc round index oSlots stateRow qrows) := by
  unfold State.softFinal
  dsimp only
  exact (((h.writeRows ..).fmtEvents ..).bump ..).onCore ..

theorem Kept.softMerge (h : Kept s t) (k v oSlots stateRow qrows) : Kept s (t.softMerge k v oSlots stateRow qrows) := by
  unfold State.softMerge
  dsimp only
  refine Kept.foldl ?_ _ fun u x h => ?_
  · exact h.writeVec ..
  · exact h.writeSlot ..

theorem Kept.vecRow (h : Kept s t) (k v) : Kept s (t.vecRow k v).1 := by
  unfold State.vecRow
  dsimp only
  split
  · exact (h.fmtEvents ..).writeVec ..
  · exact (h.fmtEvents ..).writeVec ..
  · exact (h.fmtEvents ..).writeVec ..
  · exact (h.fmtEvents ..).writeVec ..
  · exact (h.fmtEvents ..).writeVec ..
  · exact (h.softStep ..).ite ((h.softFinal ..).ite (h.softMerge ..))

theorem keptOut_execVecRowWrite (t : State) (c pipe) : KeptOut t (execVecRowWrite c pipe t) := by
  unfold execVecRowWrite
  dsimp only
  have h := Kept.refl t
  refine KeptOut.live _ ?_
  split
  · exact h.next
  · split
    · exact h.next
    · exact ((h.vecRow ..).onCore ..).next

theorem keptOut_execEmptyBundle (t : State) (c) : KeptOut t (execEmptyBundle c t) := by
  have h := Kept.refl t
  unfold execEmptyBundle
  refine KeptOut.live _ ?_
  extract_lets k
  split
  · exact h.next
  · extract_lets first dud
    clear_value first dud
    split
    · exact h.next
    · split
      next e => exact (h.admission e).next
      · exact (h.refuse ..).next
      · exact (h.consume ..).next

theorem keptOut_execLoop (t : State) (c) : KeptOut t (execLoop c t) := by
  unfold execLoop
  have h := Kept.refl t
  refine KeptOut.live _ ?_
  refine Kept.next ?_
  refine h.issue fun q w u h => ?_
  exact h

theorem Kept.writeMask (h : Kept s t) (k w) : Kept s (t.writeMask k w) := by
  unfold State.writeMask
  dsimp only
  exact h.setReg ..

theorem keptOut_execWrmask (t : State) (c) : KeptOut t (execWrmask c t) := by
  unfold execWrmask
  have h := Kept.refl t
  refine KeptOut.live _ ?_
  refine Kept.next ?_
  refine h.issue fun q w u h => ?_
  exact h.writeMask ..

theorem keptOut_execDpre (t : State) (c) : KeptOut t (execDpre c t) := by
  unfold execDpre
  have h := Kept.refl t
  refine KeptOut.live _ ?_
  refine Kept.next ?_
  refine h.issue fun q w u h => ?_
  exact h.onCore ..

theorem keptOut_execDescFillDone (t : State) (c handle) : KeptOut t (execDescFillDone c handle t) := by
  unfold execDescFillDone
  dsimp only
  have h := Kept.refl t
  refine KeptOut.live _ ?_
  split
  · split
    · exact h.next
    · split
      · split
        · exact ((h.onCore ..).refuse ..).next
        · exact ((h.onCore ..).refuse ..).next
      · split
        · exact Kept.next (Kept.onCore (((((h.onCore ..).book ..).readFar ..).markKernel ..).ite (((h.onCore ..).book ..).readFar ..)) ..)
        · split
          · exact Kept.next (Kept.onCore (((((h.onCore ..).book ..).readFar ..).markKernel ..).ite (((h.onCore ..).book ..).readFar ..)) ..)
          · exact Kept.next (Kept.refuse (Kept.onCore (((((h.onCore ..).book ..).readFar ..).markKernel ..).ite (((h.onCore ..).book ..).readFar ..)) ..) ..)
  · exact h.next

theorem keptOut_execPred (t : State) (c) : KeptOut t (execPred c t) := by
  unfold execPred
  have h := Kept.refl t
  refine KeptOut.live _ ?_
  refine Kept.next ?_
  refine h.issue fun q w u h => ?_
  exact h.onCore ..

theorem keptOut_execMark (t : State) (c) : KeptOut t (execMark c t) := by
  unfold execMark
  have h := Kept.refl t
  refine KeptOut.live _ ?_
  refine Kept.next ?_
  refine h.issue fun q w u h => ?_
  exact h.setFld ..

theorem keptOut_execEndKernel (t : State) (c) : KeptOut t (execEndKernel c t) := by
  unfold execEndKernel
  have h := Kept.refl t
  refine KeptOut.live _ ?_
  refine Kept.next ?_
  refine h.issue fun q w u h => ?_
  exact h.onCore ..

theorem Kept.appendNote (h : Kept s t) (k ring st) : Kept s (t.appendNote k ring st) := by
  unfold State.appendNote
  dsimp only
  exact (h.setCore ..).syncLevel ..

theorem Kept.closeSlots (h : Kept s t) (k) : Kept s (t.closeSlots k) := by
  unfold State.closeSlots
  refine Kept.onCore (Kept.foldl h _ fun u x h => ?_) _ _
  exact h.withMem rfl (fun w => Memory.zeroRows_wf _ _ w)

theorem Kept.finishKernel (h : Kept s t) (k q st) : Kept s (t.finishKernel k q st) := by
  unfold State.finishKernel
  dsimp only
  exact Kept.onCore (Kept.charge (Kept.closeSlots ((((h.count ..).setFld ..).appendNote ..).ite ((h.count ..).setFld ..)) ..) ..) ..

theorem keptOut_execKernelComplete (t : State) (c) : KeptOut t (execKernelComplete c t) := by
  unfold execKernelComplete
  dsimp only
  have h := Kept.refl t
  refine KeptOut.live _ ?_
  split
  · exact h.next
  · split
    · exact h.next
    · split
      · split
        · exact ((h.finishKernel ..).setFld ..).next
        · exact ((((h.finishKernel ..).setFld ..).setFld ..).wholeFault ..).next
      · split
        · exact (h.finishKernel ..).next
        · exact (((h.finishKernel ..).setFld ..).wholeFault ..).next

theorem Kept.flagDelay (h : Kept s t) (src dst remote) : Kept s (t.flagDelay src dst remote).2 := by
  unfold State.flagDelay
  dsimp only
  split
  · exact h
  · exact ((h.cross ..).bridged ..).cross ..

theorem Kept.delivered (h : Kept s t) (o) : Kept s (t.delivered o).1 := by
  unfold State.delivered
  dsimp only
  exact h.flagDelay ..

theorem Kept.sendFlag (h : Kept s t) (k w set) : Kept s (t.sendFlag k w set) := by
  unfold State.sendFlag
  dsimp only
  split
  · split
    · exact h.same rfl rfl
    · exact (h.delivered ..).same rfl rfl
  · split
    · exact h.same rfl rfl
    · exact (h.delivered ..).same rfl rfl

theorem keptOut_execSet (t : State) (c) : KeptOut t (execSet c t) := by
  unfold execSet
  have h := Kept.refl t
  refine KeptOut.live _ ?_
  refine Kept.next ?_
  refine h.issue fun q w u h => ?_
  exact h.sendFlag ..

theorem keptOut_execClear (t : State) (c) : KeptOut t (execClear c t) := by
  unfold execClear
  have h := Kept.refl t
  refine KeptOut.live _ ?_
  refine Kept.next ?_
  refine h.issue fun q w u h => ?_
  exact h.sendFlag ..

theorem keptOut_execWait (t : State) (c) : KeptOut t (execWait c t) := by
  unfold execWait
  have h := Kept.refl t
  refine KeptOut.live _ ?_
  refine Kept.next ?_
  refine h.issue fun q w u h => ?_
  exact h

theorem keptOut_execWaitClr (t : State) (c) : KeptOut t (execWaitClr c t) := by
  unfold execWaitClr
  have h := Kept.refl t
  refine KeptOut.live _ ?_
  refine Kept.next ?_
  refine h.issue fun q w u h => ?_
  exact h.onCore ..

theorem keptOut_execTest (t : State) (c) : KeptOut t (execTest c t) := by
  unfold execTest
  have h := Kept.refl t
  refine KeptOut.live _ ?_
  refine Kept.next ?_
  refine h.issue fun q w u h => ?_
  exact h.onCore ..

theorem keptOut_execClaim (t : State) (c) : KeptOut t (execClaim c t) := by
  unfold execClaim
  have h := Kept.refl t
  refine KeptOut.live _ ?_
  refine Kept.next ?_
  refine h.issue fun q w u h => ?_
  exact h.onCore ..

theorem keptOut_execFlagDelivery (t : State) (src dst) : KeptOut t (execFlagDelivery src dst t) := by
  unfold execFlagDelivery
  dsimp only
  have h := Kept.refl t
  refine KeptOut.live _ ?_
  split
  · exact h.next
  · split
    · exact Kept.next ((h.delivered ..).same rfl rfl)
    · split
      · refine Kept.next (Kept.onCore ?_ ..)
        exact h.same rfl rfl
      · refine Kept.next (Kept.onCore ?_ ..)
        exact h.same rfl rfl

theorem keptOut_execSyncWaitTimeout (t : State) (c) : KeptOut t (execSyncWaitTimeout c t) := by
  unfold execSyncWaitTimeout
  dsimp only
  have h := Kept.refl t
  refine KeptOut.live _ ?_
  split
  · exact h.next
  · split
    · exact h.next
    · split
      · exact h.next
      · exact (h.refuse ..).next

theorem keptOut_execKernelStart (t : State) (c) : KeptOut t (execKernelStart c t) := by
  unfold execKernelStart
  dsimp only
  have h := Kept.refl t
  refine KeptOut.live _ ?_
  split
  · exact h.next
  · split
    · exact h.next
    · split
      · exact (h.onCore ..).next
      · exact Kept.next (Kept.setFld (Kept.setFld (Kept.onCore ((h.scanRead ..).ite h) ..) ..) ..)

theorem keptOut_execRingFetch (t : State) (c) : KeptOut t (execRingFetch c t) := by
  unfold execRingFetch
  dsimp only
  have h := Kept.refl t
  refine KeptOut.live _ ?_
  split
  · exact h.next
  · split
    · split
      · exact h.next
      · refine Kept.next ?_
        refine Kept.onCore ?_ ..
        refine Kept.foldl ?_ _ fun u x h => ?_
        · exact h.rowWords ..
        · exact h.book ..
    · split
      · exact h.next
      · refine Kept.next ?_
        refine Kept.onCore ?_ ..
        refine Kept.foldl ?_ _ fun u x h => ?_
        · exact h.rowWords ..
        · exact h.book ..

theorem keptOut_execRingBaseWrite (t : State) (a d i v) : KeptOut t (execRingBaseWrite a d i v t) := by
  unfold execRingBaseWrite
  have h := Kept.refl t
  exact keptOut_writeCmd ..

theorem keptOut_execRingCfgWrite (t : State) (a d i v) : KeptOut t (execRingCfgWrite a d i v t) := by
  unfold execRingCfgWrite
  have h := Kept.refl t
  exact keptOut_writeCmd ..

theorem keptOut_execRingProdWrite (t : State) (a d i v) : KeptOut t (execRingProdWrite a d i v t) := by
  unfold execRingProdWrite
  have h := Kept.refl t
  exact keptOut_writeCmd ..

theorem keptOut_execSkipKernel (t : State) (a d i) : KeptOut t (execSkipKernel a d i t) := by
  unfold execSkipKernel
  have h := Kept.refl t
  exact keptOut_writeCmd ..

theorem keptOut_execDiscard (t : State) (a d i) : KeptOut t (execDiscard a d i t) := by
  unfold execDiscard
  have h := Kept.refl t
  exact keptOut_writeCmd ..

theorem keptOut_execClearFault (t : State) (a d i) : KeptOut t (execClearFault a d i t) := by
  unfold execClearFault
  have h := Kept.refl t
  exact keptOut_writeCmd ..

theorem Kept.leaseFault (h : Kept s t) (n st cyc) : Kept s (t.leaseFault n st cyc) := by
  unfold State.leaseFault
  exact (h.bump ..).postEvent ..

theorem Kept.stopKernel (h : Kept s t) (k st) : Kept s (t.stopKernel k st) := by
  unfold State.stopKernel
  split
  · exact h
  · exact h.ite (h.refuse ..)

theorem Kept.weltStop (h : Kept s t) (hs st) : Kept s (t.weltStop hs st) := by
  unfold State.weltStop
  exact h.ite (h.weltDone ..)

theorem Kept.batchEnd (h : Kept s t) (d p r) : Kept s (t.batchEnd d p r) := by
  unfold State.batchEnd
  dsimp only
  refine Kept.raise (Kept.setFld (Kept.charge ?_ ..) ..) ..
  exact h.same rfl rfl

theorem Kept.landFlag (h : Kept s t) (k f) : Kept s (t.landFlag k f) := by
  unfold State.landFlag
  exact (h.onCore ..).ite (h.onCore ..)

theorem Kept.flagDie (h : Kept s t) (d lease f) : Kept s (t.flagDie d lease f) := by
  unfold State.flagDie
  refine Kept.foldl ?_ _ fun u x h => ?_
  · exact h
  · split
    · exact h.landFlag ..
    · exact h

theorem Kept.batchDone (h : Kept s t) (d p r) : Kept s (t.batchDone d p r) := by
  unfold State.batchDone
  dsimp only
  split
  · exact (h.batchEnd ..).flagDie ..
  · exact h.batchEnd ..

theorem Kept.poolStop (h : Kept s t) (d p st) : Kept s (t.poolStop d p st) := by
  unfold State.poolStop
  dsimp only
  refine Kept.setFld ?_ ..
  split
  · exact h
  · exact (h.batchDone ..).ite ((h.batchEnd ..).firstStatus ..)

theorem Kept.collRecord (h : Kept s t) (io st) : Kept s (t.collRecord io st) := by
  unfold State.collRecord
  dsimp only
  exact ((h.setFld ..).count ..).raise ..

theorem Kept.collFinish (h : Kept s t) (io r st) : Kept s (t.collFinish io r st) := by
  unfold State.collFinish
  dsimp only
  split
  · exact (((((h.onColl ..).setFld ..).charge ..).collRecord ..).flagDie ..).ite ((((h.onColl ..).setFld ..).charge ..).collRecord ..)
  · exact (((h.onColl ..).setFld ..).charge ..).collRecord ..

theorem Kept.onRun (h : Kept s t) (io f) : Kept s (t.onRun io f) := by
  unfold State.onRun
  exact h.onColl ..

theorem Kept.emit (h : Kept s t) (p) : Kept s (t.emit p) := by
  unfold State.emit
  split
  · exact h
  · refine Kept.drainEgress ?_ ..
    exact h.same rfl rfl

theorem Kept.setConn (h : Kept s t) (u vc c) : Kept s (t.setConn u vc c) := by
  unfold State.setConn
  exact h.same rfl rfl

theorem Kept.sendNow (h : Kept s t) (p rows) : Kept s (t.sendNow p rows) := by
  unfold State.sendNow
  dsimp only
  exact (h.setConn ..).emit ..

theorem Kept.sendPkt (h : Kept s t) (p rows) : Kept s (t.sendPkt p rows) := by
  unfold State.sendPkt
  dsimp only
  exact (h.sendNow ..).ite (h.setConn ..)

theorem Kept.collSend (h : Kept s t) (io r u cop row pay) : Kept s (t.collSend io r u cop row pay) := by
  unfold State.collSend
  dsimp only
  exact h.sendPkt ..

theorem Kept.collAbortAll (h : Kept s t) (io r st) : Kept s (t.collAbortAll io r st) := by
  unfold State.collAbortAll
  refine Kept.foldl ?_ _ fun u x h => ?_
  · exact h
  · exact h.collSend ..

theorem Kept.collStopRun (h : Kept s t) (io st tell) : Kept s (t.collStopRun io st tell) := by
  unfold State.collStopRun
  dsimp only
  split
  · exact h
  · exact h.ite (((h.onRun ..).collAbortAll ..).ite (h.onRun ..))

theorem Kept.collQuiesce (h : Kept s t) (io p st) : Kept s (t.collQuiesce io p st) := by
  unfold State.collQuiesce
  dsimp only
  refine Kept.iter ?_ _ fun x u h => ?_
  · refine Kept.setFld ?_ ..
    refine Kept.onColl ?_ ..
    split
    · exact ((h.collStopRun ..).collFinish ..).ite h
    · exact h
  · exact h.collRecord ..

theorem Kept.endCode (h : Kept s t) (sc n st) : Kept s (t.endCode sc n st) := by
  unfold State.endCode
  dsimp only
  refine Kept.foldl ?_ _ fun u x h => ?_
  · exact h
  · exact h.extEnd ..

theorem Kept.noteSlots (h : Kept s t) (p) : Kept s (t.noteSlots p) := by
  unfold State.noteSlots
  split
  · exact h.setFld ..
  · exact h

theorem Kept.dropReqs (h : Kept s t) (p) : Kept s (t.dropReqs p) := by
  unfold State.dropReqs
  refine Kept.foldl ?_ _ fun u x h => ?_
  · exact h.same rfl rfl
  · exact h.noteSlots ..

theorem Kept.onSession (h : Kept s t) (k f) : Kept s (t.onSession k f) := by
  unfold State.onSession
  split
  · exact h
  · exact h.setSession ..

theorem Kept.replyOne (h : Kept s t) (k r) : Kept s (t.replyOne k r) := by
  unfold State.replyOne
  dsimp only
  exact (h.sendIn ..).onSession ..

theorem Kept.settleCmds (h : Kept s t) (k n) : Kept s (t.settleCmds k n) := by
  induction n generalizing t with
  | zero => exact h
  | succ n ih =>
    unfold State.settleCmds
    split
    · exact h
    · split
      · exact h
      · split
        · exact ih (h.replyOne ..)
        · split
          · exact ih (h.replyOne ..)
          · exact h

theorem Kept.reply (h : Kept s t) (k r) : Kept s (t.reply k r) := by
  unfold State.reply
  split
  · exact h
  · exact ((h.replyOne ..).settleCmds ..).ite h

theorem Kept.stopCmd (h : Kept s t) (k c st) : Kept s (t.stopCmd k c st) := by
  unfold State.stopCmd
  dsimp only
  refine Kept.reply ?_ ..
  split
  · exact h.dropReqs ..
  · exact h

theorem Kept.endCommands (h : Kept s t) (n st p) : Kept s (t.endCommands n st p) := by
  unfold State.endCommands
  dsimp only
  refine Kept.foldl ?_ _ fun u x h => ?_
  · exact h
  · refine Kept.settleCmds ?_ ..
    refine Kept.foldl ?_ _ fun u x h => ?_
    · exact h.setSession ..
    · exact h.stopCmd ..

theorem Kept.dropWaiting (h : Kept s t) (sc n) : Kept s (t.dropWaiting sc n) := by
  unfold State.dropWaiting
  dsimp only
  exact h.same rfl rfl

theorem Kept.setLeaseState (h : Kept s t) (n v) : Kept s (t.setLeaseState n v) := by
  unfold State.setLeaseState
  exact h.setFld ..

theorem Kept.snapAbort (h : Kept s t) (n st) : Kept s (t.snapAbort n st) := by
  unfold State.snapAbort
  dsimp only
  split
  · exact h
  · split
    · exact h
    · split
      · refine Kept.reply ?_ ..
        exact h.same rfl rfl
      · exact h.same rfl rfl

theorem Kept.quiesceStart (h : Kept s t) (n sc cause job) : Kept s (t.quiesceStart n sc cause job) := by
  unfold State.quiesceStart
  extract_lets s1 s2 s3 s4 s5 s6 s7
  have k1 : Kept s s1 := h.foldl _ fun _ _ h => h.stopKernel ..
  have k2 : Kept s s2 := k1.foldl _ fun _ _ h => h.faultRing ..
  have k3 : Kept s s3 := k2.foldl _ fun _ _ h => h.weltStop ..
  have k4 : Kept s s4 := k3.foldl _ fun _ _ h => h.poolStop ..
  have k5 : Kept s s5 := by
    unfold s5
    split
    · exact k4.foldl _ fun _ _ h => h.collQuiesce ..
    · exact k4.collQuiesce ..
    · exact k4
  have k6 : Kept s s6 := ((k5.dropWaiting ..).endCommands ..).endCode ..
  have k7 : Kept s s7 := ((k6.snapAbort ..).setLeaseState ..).ite k6
  exact k7.same rfl rfl

theorem Kept.monFault (h : Kept s t) (c) : Kept s (t.monFault c) := by
  unfold State.monFault
  dsimp only
  split
  · exact ((h.leaseFault ..).raise ..).ite (((h.leaseFault ..).raise ..).quiesceStart ..)
  · split
    · refine Kept.raise ?_ ..
      refine Kept.leaseFault ?_ ..
      refine Kept.noteFld ?_ ..
      refine Kept.foldl ?_ _ fun u x h => ?_
      · exact h
      · exact h.setReg ..
    · refine Kept.quiesceStart ?_ ..
      refine Kept.raise ?_ ..
      refine Kept.leaseFault ?_ ..
      refine Kept.noteFld ?_ ..
      refine Kept.foldl ?_ _ fun u x h => ?_
      · exact h
      · exact h.setReg ..

theorem keptOut_execMonitorSample (t : State) : KeptOut t (execMonitorSample t) := by
  unfold execMonitorSample
  dsimp only
  have h := Kept.refl t
  refine KeptOut.live _ ?_
  split
  · exact h.next
  · refine Kept.next ?_
    refine Kept.foldl ?_ _ fun u x h => ?_
    · exact h.same rfl rfl
    · exact h.monFault ..

theorem Kept.dumpWords (h : Kept s t) (k q a) : Kept s (t.dumpWords k q a).1 := by
  unfold State.dumpWords
  dsimp only
  split
  · refine Kept.markKernel ?_ ..
    refine Kept.foldl ?_ _ fun u x h => ?_
    · exact h.rowWords ..
    · exact h.bookFor ..
  · refine Kept.foldl ?_ _ fun u x h => ?_
    · exact h.rowWords ..
    · exact h.bookFor ..

theorem Kept.readOwnWords (h : Kept s t) (k buf row bundle ws) : Kept s (t.readOwnWords k buf row bundle ws).1 := by
  unfold State.readOwnWords
  dsimp only
  exact Kept.ite (Kept.coreEvent (((h.readRaw ..).freeze ..).ite (h.readRaw ..)) ..) (((h.readRaw ..).freeze ..).ite (h.readRaw ..))

theorem Kept.readOwn (h : Kept s t) (k buf row bundle) : Kept s (t.readOwn k buf row bundle).1 := by
  unfold State.readOwn
  exact h.readOwnWords ..

theorem Kept.dumpRead (h : Kept s t) (k q row) : Kept s (t.dumpRead k q row).1 := by
  unfold State.dumpRead
  dsimp only
  split
  · exact h.readOwn ..
  · exact (((h.bookFor ..).readFar ..).markKernel ..).ite ((h.bookFor ..).readFar ..)

theorem Kept.dumpSpan (h : Kept s t) {k lease dest l bad} (e : t.dumpSpan k lease dest l bad = .ok u) : Kept s u := by
  unfold State.dumpSpan at e
  split at e
  · cases e
  · cases e
    refine Kept.foldl h _ fun u i h => ?_
    dsimp only
    split
    · exact h
    · exact h.bookWrite ..

theorem Dumped.of_eq_done {e : Except Status State} (h : Dumped.of e = .done u) : e = .ok u := by
  cases e <;> cases h
  rfl

theorem Kept.dumpTensor (h : Kept s t) {k q dest d} (e : t.dumpTensor k q dest d = .done u) : Kept s u := by
  unfold State.dumpTensor at e
  extract_lets b bytes offs rowsOf rd cells packed at e
  have r : Kept s rd.1 := Kept.foldlOn (σ := State × List (Nat × RowImg)) Prod.fst h _ fun _ _ h => h.dumpRead ..
  split at e
  · cases e
  · split at e
    · cases e
    · exact r.dumpSpan (Dumped.of_eq_done e)

theorem Kept.descWords (h : Kept s t) {k q x l} (e : t.descWords k q x = .ok (u, l)) : Kept s u := by
  unfold State.descWords at e
  split at e
  · cases e; exact h
  · dsimp only at e
    split at e
    · cases e
    · cases e; exact h.dumpRead ..

theorem Kept.dumpEntry (h : Kept s t) {k q w0 w1} (e : t.dumpEntry k q w0 w1 = .done u) : Kept s u := by
  unfold State.dumpEntry at e
  dsimp only at e
  split at e
  · cases e
  · split at e
    · split at e
      · cases e
      · split at e
        · cases e
        next d => 
          split at e
          · cases e
          · exact (h.descWords d).dumpTensor e
    · split at e
      · cases e
      · exact (h.readHeld ..).dumpSpan (Dumped.of_eq_done e)
    · cases e

theorem Kept.dumpList (h : Kept s t) (k q a n) : Kept s (t.dumpList k q a n).1 := by
  induction n generalizing t a with
  | zero => exact h
  | succ n ih =>
    unfold State.dumpList
    split
    · exact h
    · dsimp only
      split
      · exact h.dumpWords ..
      · exact h
      next e => exact ih ((h.dumpWords ..).dumpEntry e) _

theorem Kept.writeDump (h : Kept s t) (k q) : Kept s (t.writeDump k q) := by
  unfold State.writeDump
  dsimp only
  exact (h.dumpList ..).onCore ..

theorem keptOut_execPrefixDump (t : State) (c) : KeptOut t (execPrefixDump c t) := by
  unfold execPrefixDump
  dsimp only
  have h := Kept.refl t
  refine KeptOut.live _ ?_
  split
  · exact h.next
  · split
    · exact h.next
    · split
      · split
        · exact (h.writeDump ..).next
        · split
          · exact Kept.next (Kept.setFld (Kept.finishKernel (Kept.setFld (Kept.setFld (Kept.count (Kept.count ((((h.writeDump ..).scanRead ..).markKernel ..).ite ((h.writeDump ..).scanRead ..)) ..) ..) ..) ..) ..) ..)
          · exact Kept.next (Kept.setFld (Kept.setFld (Kept.finishKernel (Kept.setFld (Kept.setFld (Kept.count (Kept.count ((((h.writeDump ..).scanRead ..).markKernel ..).ite ((h.writeDump ..).scanRead ..)) ..) ..) ..) ..) ..) ..) ..)
      · split
        · exact h.next
        · split
          · exact Kept.next (Kept.setFld (Kept.finishKernel (Kept.setFld (Kept.setFld (Kept.count (Kept.count (((h.scanRead ..).markKernel ..).ite (h.scanRead ..)) ..) ..) ..) ..) ..) ..)
          · exact Kept.next (Kept.setFld (Kept.setFld (Kept.finishKernel (Kept.setFld (Kept.setFld (Kept.count (Kept.count (((h.scanRead ..).markKernel ..).ite (h.scanRead ..)) ..) ..) ..) ..) ..) ..) ..)

theorem Kept.countBank (h : Kept s t) (b row corr unc) : Kept s (t.countBank b row corr unc) := by
  unfold State.countBank
  dsimp only
  split
  · exact h.countCoreEcc ..
  · exact h.countSdmEcc ..

theorem keptOut_execPatrolRead (t : State) (b row) : KeptOut t (execPatrolRead b row t) := by
  unfold execPatrolRead
  dsimp only
  have h := Kept.refl t
  refine KeptOut.live _ ?_
  split
  · exact h.next
  · split
    · exact h.next
    · split
      · split
        · exact (h.countBank ..).next
        · exact Kept.next ((h.countBank ..).same rfl rfl)
      · split
        · refine Kept.next (Kept.countBank ?_ ..)
          exact h.same rfl rfl
        · refine Kept.next (Kept.same (Kept.countBank ?_ ..) rfl rfl)
          exact h.same rfl rfl

theorem keptOut_execPatrolWriteback (t : State) (b) : KeptOut t (execPatrolWriteback b t) := by
  have h := Kept.refl t
  unfold execPatrolWriteback
  refine KeptOut.live _ ?_
  split
  · exact h.next
  · split
    · exact h.next
    · exact Kept.next (h.same rfl rfl)

theorem keptOut_execRowEccClr (t : State) (a d core v) : KeptOut t (execRowEccClr a d core v t) := by
  unfold execRowEccClr
  have h := Kept.refl t
  exact keptOut_writeCmd ..

theorem keptOut_execSdmPartWrite (t : State) (a d p v) : KeptOut t (execSdmPartWrite a d p v t) := by
  unfold execSdmPartWrite
  have h := Kept.refl t
  exact keptOut_writeCmd ..

theorem Kept.freeSession (h : Kept s t) (k) : Kept s (t.freeSession k) := by
  unfold State.freeSession
  refine Kept.countSessions ?_ ..
  exact h.same rfl rfl

theorem Kept.bindingEnd (h : Kept s t) : Kept s t.bindingEnd := by
  unfold State.bindingEnd
  split
  · exact h
  next b _ =>
    have k : Kept s { t with binding := none } := h.same rfl rfl
    extract_lets s1 s2 s3 s4
    have k2 : Kept s s2 := (((k.setLeaseState ..).setFld ..).setFld ..).setFld ..
    have k3 : Kept s s3 := k2.same rfl rfl
    have k4 : Kept s s4 := Kept.ite (k3.foldl _ fun _ _ h => h.freeSession ..) k
    split
    · exact h
    · exact k4.reply ..

theorem Kept.scrubCore (h : Kept s t) (k) : Kept s (t.scrubCore k) := by
  unfold State.scrubCore
  extract_lets s1 s2 one masks
  have k1 : Kept s s1 := h.withMem rfl (fun w => Memory.zeroRows_wf _ _ w)
  exact Kept.foldl (k1.onCore ..) _ fun _ _ h => h.resetReg ..

theorem Kept.scrubDone (h : Kept s t) (x) : Kept s (t.scrubDone x) := by
  unfold State.scrubDone
  split
  · extract_lets k u
    have a : Kept s u := by
      unfold u
      split
      · exact h.setFld ..
      · exact h
    exact h.ite ((a.scrubCore ..).onCore ..)
  · split
    · exact h
    · exact h.withMem rfl (fun w => Memory.zeroRows_wf _ _ w)

theorem keptOut_execScrubComplete (t : State) (t') : KeptOut t (execScrubComplete t' t) := by
  unfold execScrubComplete
  have h := Kept.refl t
  refine KeptOut.live _ ?_
  exact ((h.scrubDone ..).bindingEnd ..).next

theorem keptOut_execSdmWcacheCfgWrite (t : State) (a d v) : KeptOut t (execSdmWcacheCfgWrite a d v t) := by
  unfold execSdmWcacheCfgWrite
  have h := Kept.refl t
  exact keptOut_writeCmd ..

theorem keptOut_execAstkCfgWrite (t : State) (a d g v) : KeptOut t (execAstkCfgWrite a d g v t) := by
  unfold execAstkCfgWrite
  have h := Kept.refl t
  exact keptOut_writeCmd ..

theorem keptOut_execAstkTopWrite (t : State) (a d g v) : KeptOut t (execAstkTopWrite a d g v t) := by
  unfold execAstkTopWrite
  have h := Kept.refl t
  exact keptOut_writeCmd ..

theorem Kept.stackRefuse (h : Kept s t) (k n x st) : Kept s (t.stackRefuse k n x st) := by
  unfold State.stackRefuse
  exact h.refuse ..

theorem Kept.raiseTop (h : Kept s t) (d g top) : Kept s (t.raiseTop d g top) := by
  unfold State.raiseTop
  dsimp only
  split
  · exact ((h.setFld ..).setFld ..).setFld ..
  · exact (h.setFld ..).setFld ..

theorem Kept.pushHalf (h : Kept s t) (d g k n h') : Kept s (t.pushHalf d g k n h') := by
  unfold State.pushHalf
  dsimp only
  exact (h.raiseTop ..).onCore ..

theorem keptOut_execAstkPush (t : State) (d g c ch) : KeptOut t (execAstkPush d g c ch t) := by
  unfold execAstkPush
  dsimp only
  have h := Kept.refl t
  refine KeptOut.live _ ?_
  split
  · split
    · split
      · exact ((h.settle ..).arrivals ..).next
      · split
        · exact ((((h.settle ..).arrivals ..).stackNext ..).stackRefuse ..).next
        · split
          · exact ((((h.settle ..).arrivals ..).stackNext ..).stackRefuse ..).next
          · split
            · exact ((((h.settle ..).arrivals ..).stackNext ..).stackRefuse ..).next
            · exact ((((h.settle ..).arrivals ..).pushHalf ..).stackNext ..).next
    · exact ((h.settle ..).arrivals ..).next
  · exact ((h.settle ..).arrivals ..).next

theorem Kept.chunk (h : Kept s t) (d g lease first spill n) : Kept s (t.chunk d g lease first spill n) := by
  induction n with
  | zero => exact h
  | succ n ih =>
    unfold State.chunk
    dsimp only
    split
    · exact ih
    · exact ih.submit ..

theorem keptOut_execAstkSpill (t : State) (d g) : KeptOut t (execAstkSpill d g t) := by
  unfold execAstkSpill
  dsimp only
  have h := Kept.refl t
  refine KeptOut.live _ ?_
  split
  · exact h.next
  · refine Kept.next ?_
    refine Kept.setRun ?_ ..
    split
    · exact ((h.chunk ..).setFld ..).bump ..
    · exact (h.chunk ..).setFld ..

theorem keptOut_execAstkRefill (t : State) (d g) : KeptOut t (execAstkRefill d g t) := by
  unfold execAstkRefill
  dsimp only
  have h := Kept.refl t
  refine KeptOut.live _ ?_
  split
  · exact h.next
  · exact ((h.chunk ..).setRun ..).next

theorem keptOut_execAstkRefillLand (t : State) (d g) : KeptOut t (execAstkRefillLand d g t) := by
  unfold execAstkRefillLand
  dsimp only
  have h := Kept.refl t
  refine KeptOut.live _ ?_
  split
  · exact h.next
  · refine Kept.next (Kept.setRun (Kept.setFld ?_ ..) ..)
    exact h.same rfl rfl

theorem Kept.lowerTop (h : Kept s t) (d g top) : Kept s (t.lowerTop d g top) := by
  unfold State.lowerTop
  dsimp only
  split
  · exact ((((h.setFld ..).setFld ..).setFld ..).setFld ..).ite (h.setFld ..)
  · exact h.setFld ..

theorem Kept.popRows (h : Kept s t) (d g k n x h') : Kept s (t.popRows d g k n x h') := by
  unfold State.popRows
  dsimp only
  exact (h.lowerTop ..).onCore ..

theorem keptOut_execAstkPop (t : State) (d g c ch) : KeptOut t (execAstkPop d g c ch t) := by
  unfold execAstkPop
  dsimp only
  have h := Kept.refl t
  refine KeptOut.live _ ?_
  split
  · split
    · exact ((h.settle ..).arrivals ..).next
    · split
      · exact ((((h.settle ..).arrivals ..).stackNext ..).stackRefuse ..).next
      · split
        · split
          · exact ((((h.settle ..).arrivals ..).stackNext ..).stackRefuse ..).next
          · exact ((((h.settle ..).arrivals ..).popRows ..).stackNext ..).next
        · split
          · exact ((((h.settle ..).arrivals ..).stackNext ..).stackRefuse ..).next
          · exact ((((h.settle ..).arrivals ..).popRows ..).stackNext ..).next
  · exact ((h.settle ..).arrivals ..).next

theorem Kept.startXfer (h : Kept s t) (k n q w) : Kept s (t.startXfer k n q w) := by
  unfold State.startXfer
  dsimp only
  refine Kept.setCore ?_ ..
  exact h.same rfl rfl

theorem keptOut_execArm (t : State) (c e) : KeptOut t (execArm c e t) := by
  unfold execArm
  have h := Kept.refl t
  refine KeptOut.live _ ?_
  refine Kept.next ?_
  refine h.issue fun q w u h => ?_
  exact h.startXfer ..

theorem Kept.releaseHalf (h : Kept s t) (k n) : Kept s (t.releaseHalf k n) := by
  unfold State.releaseHalf
  exact h.onCore ..

theorem keptOut_execRel (t : State) (c e) : KeptOut t (execRel c e t) := by
  unfold execRel
  have h := Kept.refl t
  refine KeptOut.live _ ?_
  refine Kept.next ?_
  refine h.issue fun q w u h => ?_
  exact h.releaseHalf ..

theorem Kept.localRequest (h : Kept s t) (k n x q lease row addr wait img) : Kept s (t.localRequest k n x q lease row addr wait img) := by
  unfold State.localRequest
  dsimp only
  exact (h.submit ..).ite (((h.bump ..).submit ..).ite ((h.bump ..).submit ..))

theorem Kept.sendPacked (h : Kept s t) (x) : Kept s (t.sendPacked x) := by
  unfold State.sendPacked
  dsimp only
  refine Kept.sendPkt ?_ ..
  split
  · exact h.setConn ..
  · exact h

theorem Kept.sendRow (h : Kept s t) (lease vc unit addr write owner img) : Kept s (t.sendRow lease vc unit addr write owner img) := by
  unfold State.sendRow
  dsimp only
  split
  · refine Kept.ite (Kept.ite (Kept.sendPacked ?_ ..) (h.same rfl rfl)) (Kept.sendPacked ?_ ..)
    · exact h.same rfl rfl
    · exact h.same rfl rfl
  · exact h.same rfl rfl

theorem Kept.formReq (h : Kept s t) (k n lease x q) : Kept s (t.formReq k n lease x q) := by
  unfold State.formReq
  dsimp only
  split
  · refine Kept.localRequest ?_ ..
    split
    · exact h
    · exact h.readOwn ..
  · split
    · split
      · exact h
      · exact h.readOwn ..
    · refine Kept.sendRow ?_ ..
      split
      · exact h
      · exact h.readOwn ..

theorem keptOut_execStreamRequest (t : State) (c e) : KeptOut t (execStreamRequest c e t) := by
  unfold execStreamRequest
  dsimp only
  have h := Kept.refl t
  refine KeptOut.live _ ?_
  split
  · split
    · exact (h.settle ..).next
    · exact (((h.settle ..).formReq ..).onCore ..).next
  · exact (h.settle ..).next

theorem Kept.writeSdm (h : Kept s t) (d row img) : Kept s (t.writeSdm d row img) := by
  unfold State.writeSdm
  exact h.storeRow ..

theorem Kept.cacheInstall (h : Kept s t) (d addr lease img) : Kept s (t.cacheInstall d addr lease img) := by
  unfold State.cacheInstall
  dsimp only
  refine h.ite (Kept.bookWrite (Kept.writeSdm ?_ ..) ..)
  exact h.same rfl rfl

theorem Kept.installRow (h : Kept s t) (k r) : Kept s (t.installRow k r) := by
  unfold State.installRow
  exact (h.cacheInstall ..).ite h

theorem Kept.landRow (h : Kept s t) (k n i buf row img fresh) : Kept s (t.landRow k n i buf row img fresh) := by
  unfold State.landRow
  dsimp only
  exact Kept.onCore (((h.writeOwn ..).markKernel ..).ite (h.writeOwn ..)) ..

theorem keptOut_execStreamRowLand (t : State) (c ch) : KeptOut t (execStreamRowLand c ch t) := by
  unfold execStreamRowLand
  dsimp only
  have h := Kept.refl t
  refine KeptOut.live _ ?_
  split
  · exact h.next
  · split
    · split
      · exact h.next
      · refine Kept.next (Kept.onCore (Kept.landRow (Kept.ite (Kept.coreEvent (Kept.installRow ?_ ..) ..) (Kept.installRow ?_ ..)) ..) ..)
        · exact h.same rfl rfl
        · exact h.same rfl rfl
    · exact h.next

theorem keptOut_execStoreRowWritten (t : State) (c ch) : KeptOut t (execStoreRowWritten c ch t) := by
  unfold execStoreRowWritten
  dsimp only
  have h := Kept.refl t
  refine KeptOut.live _ ?_
  split
  · exact h.next
  · split
    · split
      · exact h.next
      · refine Kept.next (Kept.onCore ?_ ..)
        exact h.same rfl rfl
    · exact h.next

theorem keptOut_execTransferComplete (t : State) (c ch) : KeptOut t (execTransferComplete c ch t) := by
  unfold execTransferComplete
  dsimp only
  have h := Kept.refl t
  refine KeptOut.live _ ?_
  split
  · exact (h.settle ..).next
  · split
    · exact (h.settle ..).next
    · exact ((h.settle ..).onCore ..).next

theorem Kept.wake (h : Kept s t) (d k ch) : Kept s (t.wake d k ch) := by
  unfold State.wake
  exact h.ite (h.onCtl ..)

theorem Kept.meetDown (h : Kept s t) : Kept s (t.meetDown) := by
  unfold State.meetDown
  refine Kept.foldl ?_ _ fun u x h => ?_
  · exact h
  · split
    · split
      · exact h
      · exact h.wake ..
    · exact h

theorem Kept.crossingsBack (h : Kept s t) (o home t') : Kept s (t.crossingsBack o home t').2 := by
  unfold State.crossingsBack
  dsimp only
  exact (h.bridged ..).ownCrossing ..

theorem Kept.chargeBytes (h : Kept s t) (lease row n) : Kept s (t.chargeBytes lease row n) := by
  unfold State.chargeBytes
  dsimp only
  split
  · exact h
  · exact (h.charge ..).ite ((h.charge ..).ite ((h.charge ..).ite h))

theorem Kept.wholeWrite (h : Kept s t) (r) : Kept s (t.wholeWrite r).1 := by
  unfold State.wholeWrite
  dsimp only
  split
  · exact h
  · exact (h.readFar ..).chargeBytes ..

theorem Kept.dropLines (h : Kept s t) (row) : Kept s (t.dropLines row) := by
  unfold State.dropLines
  dsimp only
  refine Kept.ite (Kept.same (Kept.ite ?_ h) rfl rfl) (Kept.ite (h.same rfl rfl) h)
  exact h.same rfl rfl

theorem Kept.meetParity (h : Kept s t) (row img) : Kept s (t.meetParity row img).1 := by
  unfold State.meetParity
  split
  · exact h
  · exact h.same rfl rfl

theorem Kept.uncopy (h : Kept s t) (row) : Kept s (t.uncopy row) := by
  unfold State.uncopy
  dsimp only
  exact (h.onCtl ..).ite h

theorem Kept.patchCopy (h : Kept s t) (r bad) : Kept s (t.patchCopy r bad) := by
  unfold State.patchCopy
  dsimp only
  split
  · exact h
  · exact h.onCtl ..

theorem Kept.applyWrite (h : Kept s t) (r) : Kept s (t.applyWrite r) := by
  unfold State.applyWrite
  extract_lets ws u p q v m
  have ku : Kept s u := h.dropLines ..
  split
  · split
    · exact ((ku.uncopy ..).meetParity ..).storeRow ..
    · have kv : Kept s v := (ku.meetParity ..).patchCopy ..
      refine Kept.wrote ?_ _ _
      exact kv.withMem rfl fun w => Memory.writePiece_wf _ _ _ w
  · split
    · exact h.storeRow ..
    · refine Kept.wrote ?_ _ _
      have w : t.mem.wf = true → m.wf = true := fun w => Memory.writeWords_wf _ _ w
      refine h.withMem rfl fun x => ?_
      show (if r.img.poison then _ else m).wf = true
      split
      · exact w x
      · exact w x

theorem Kept.engineRead (h : Kept s t) (r) : Kept s (t.engineRead r).1 := by
  unfold State.engineRead
  dsimp only
  split
  · exact h.readFar ..
  · exact h

theorem Kept.applyRead (h : Kept s t) (r) : Kept s (t.applyRead r).1 := by
  unfold State.applyRead
  dsimp only
  exact (h.readCells ..).ite ((h.readCells ..).same rfl rfl)

theorem Kept.putGranted (h : Kept s t) (old new) : Kept s (t.putGranted old new) := by
  unfold State.putGranted
  exact h.same rfl rfl

theorem Kept.activate (h : Kept s t) (d k row) : Kept s (t.activate d k row) := by
  unfold State.activate
  dsimp only
  exact (h.onCtl ..).ite (h.onCtl ..)

theorem Kept.noteGrant (h : Kept s t) (d k p promoted) : Kept s (t.noteGrant d k p promoted) := by
  unfold State.noteGrant
  dsimp only
  exact ((((h.setFld ..).setFld ..).noteFld ..).tally ..).ite (((h.setFld ..).setFld ..).noteFld ..)

theorem Kept.grantDram (h : Kept s t) (d k r) : Kept s (t.grantDram d k r) := by
  unfold State.grantDram
  dsimp only
  refine Kept.noteGrant ?_ ..
  split
  · refine Kept.onCtl ?_ ..
    refine Kept.activate ?_ ..
    refine Kept.putGranted ?_ ..
    split
    · exact ((h.crossingsBack ..).wholeWrite ..).applyWrite ..
    · split
      · exact (h.crossingsBack ..).engineRead ..
      · exact (h.crossingsBack ..).applyRead ..
  · refine Kept.activate ?_ ..
    refine Kept.putGranted ?_ ..
    split
    · exact ((h.crossingsBack ..).wholeWrite ..).applyWrite ..
    · split
      · exact (h.crossingsBack ..).engineRead ..
      · exact (h.crossingsBack ..).applyRead ..

theorem Kept.grantLoop (h : Kept s t) (d k p l left passed) : Kept s (t.grantLoop d k p l left passed).1 := by
  induction l generalizing t left passed with
  | nil => exact h
  | cons r l ih =>
    have g := h.grantDram d k r
    exact h.iteFst ((ih h _ _).iteFst (g.iteFst (ih g _ _)))

theorem Kept.missLate (h : Kept s t) (r) : Kept s (t.missLate r).1 := by
  unfold State.missLate
  exact h

theorem Kept.grantMade (h : Kept s t) (r) : Kept s (t.grantMade r).1 := by
  unfold State.grantMade
  dsimp only
  split
  · exact h
  · exact h.crossingsBack ..

theorem Kept.cacheTouch (h : Kept s t) (d addr lease) : Kept s (t.cacheTouch d addr lease) := by
  unfold State.cacheTouch
  dsimp only
  split
  · exact h
  · exact h.same rfl rfl

theorem Kept.readFor (h : Kept s t) (r row) : Kept s (t.readFor r row).1 := by
  unfold State.readFor
  dsimp only
  exact (h.readFar ..).chargeBytes ..

theorem Kept.serveHit (h : Kept s t) (r) : Kept s (t.serveHit r).1 := by
  unfold State.serveHit
  dsimp only
  split
  · exact h.missLate ..
  · split
    · exact h.missLate ..
    · exact ((h.cacheTouch ..).grantMade ..).readFor ..

theorem Kept.performSram (h : Kept s t) (r) : Kept s (t.performSram r).1 := by
  unfold State.performSram
  dsimp only
  split
  · exact h.serveHit ..
  · split
    · exact (((h.grantMade ..).wholeWrite ..).applyWrite ..).chargeBytes ..
    · split
      · exact ((h.grantMade ..).engineRead ..).chargeBytes ..
      · exact (h.grantMade ..).readFor ..

theorem Kept.passOn (h : Kept s t) (old r) : Kept s (t.passOn old r) := by
  unfold State.passOn
  dsimp only
  split
  · exact (h.putGranted ..).ite (h.same rfl rfl)
  · exact h.same rfl rfl
  · refine Kept.submit ?_ ..
    exact h.same rfl rfl
  · refine Kept.submit ?_ ..
    exact h.same rfl rfl
  · exact h.putGranted ..

theorem Kept.serve (h : Kept s t) (r) : Kept s (t.serve r) := by
  unfold State.serve
  dsimp only
  exact Kept.ite (h.same rfl rfl) (((h.performSram ..).putGranted ..).ite ((h.performSram ..).passOn ..))

theorem Kept.grantBank (h : Kept s t) (p ready) : Kept s (t.grantBank p ready) := by
  have put (r : MemReq) (b : Tab BankRun) : Kept s { t.serve r with banks := b } := (h.serve r).same rfl rfl
  unfold State.grantBank
  dsimp only
  split
  · exact h
  · exact put ..
  · split
    · exact put ..
    · exact put ..
  · exact put ..

theorem keptOut_execTemperGrant (t : State) (p) : KeptOut t (execTemperGrant p t) := by
  unfold execTemperGrant
  dsimp only
  have h := Kept.refl t
  refine KeptOut.live _ ?_
  split
  · split
    · exact (h.meetDown ..).next
    · split
      · exact (h.meetDown ..).next
      · exact ((((h.meetDown ..).grantLoop ..).tally ..).onCtl ..).next
  · split
    · exact (h.meetDown ..).next
    · exact ((h.meetDown ..).grantBank ..).next

theorem keptOut_execStarvePromote (t : State) (p) : KeptOut t (execStarvePromote p t) := by
  unfold execStarvePromote
  dsimp only
  have h := Kept.refl t
  refine KeptOut.live _ ?_
  exact Kept.next (h.same rfl rfl)

theorem keptOut_execMcqClr (t : State) (a d v) : KeptOut t (execMcqClr a d v t) := by
  unfold execMcqClr
  have h := Kept.refl t
  exact keptOut_writeCmd ..

theorem Kept.startThread (h : Kept s t) (k e q w) : Kept s (t.startThread k e q w) := by
  unfold State.startThread
  dsimp only
  split
  · exact h
  · exact h.setCore ..

theorem keptOut_execAwl (t : State) (c e) : KeptOut t (execAwl c e t) := by
  unfold execAwl
  have h := Kept.refl t
  refine KeptOut.live _ ?_
  refine Kept.next ?_
  refine h.issue fun q w u h => ?_
  exact h.startThread ..

theorem Kept.awlRows (h : Kept s t) (k a rows) : Kept s (t.awlRows k a rows).1 := by
  unfold State.awlRows
  dsimp only
  refine Kept.foldlOn Prod.fst ?_ _ fun u x h => ?_
  · exact h
  · split
    · exact h
    · exact h.writeOwn ..

theorem Kept.skipEntry (h : Kept s t) (k a) : Kept s (t.skipEntry k a).1 := by
  unfold State.skipEntry
  split
  · exact h
  · exact h.awlRows ..

theorem Kept.awlSettle (h : Kept s t) (k t' a) : Kept s (t.awlSettle k t' a) := by
  unfold State.awlSettle
  dsimp only
  exact h.onCore ..

theorem Kept.formPiece (h : Kept s t) (k t' lease ix a) : Kept s (t.formPiece k t' lease ix a) := by
  unfold State.formPiece
  dsimp only
  split
  · exact h
  · refine Kept.onCore ?_ ..
    refine Kept.awlSettle ?_ ..
    refine Kept.submit ?_ ..
    split
    · exact h.readOwnWords ..
    · exact h

theorem Kept.awlEntry (h : Kept s t) (k t' lease a read) : Kept s (t.awlEntry k t' lease a read) := by
  unfold State.awlEntry
  dsimp only
  exact Kept.ite ((((h.skipEntry ..).awlSettle ..).onCore ..).ite ((h.skipEntry ..).awlSettle ..)) (Kept.ite (Kept.refuse (((((h.bump ..).skipEntry ..).awlSettle ..).onCore ..).ite (((h.bump ..).skipEntry ..).awlSettle ..)) ..) (h.formPiece ..))

theorem Kept.awlIndices (h : Kept s t) (k t' lease a) : Kept s (t.awlIndices k t' lease a).1 := by
  unfold State.awlIndices
  dsimp only
  split
  · exact h
  · split
    · exact h.readOwnWords ..
    · exact (((h.readFar ..).book ..).markKernel ..).ite ((h.readFar ..).book ..)

theorem Kept.readIndices (h : Kept s t) (k t' lease a) : Kept s (t.readIndices k t' lease a).1 := by
  unfold State.readIndices
  dsimp only
  exact h.awlIndices ..

theorem keptOut_execAwlPieceRequest (t : State) (c) : KeptOut t (execAwlPieceRequest c t) := by
  unfold execAwlPieceRequest
  dsimp only
  have h := Kept.refl t
  refine KeptOut.live _ ?_
  split
  · split
    · exact h.next
    · split
      · exact h.next
      · split
        · exact h.next
        · split
          · exact (h.awlEntry ..).next
          · split
            · exact ((h.readIndices ..).awlEntry ..).next
            · exact (((h.readIndices ..).awlSettle ..).onCore ..).next
  · exact h.next

theorem keptOut_execAwlPieceLand (t : State) (c t') : KeptOut t (execAwlPieceLand c t' t) := by
  unfold execAwlPieceLand
  dsimp only
  have h := Kept.refl t
  refine KeptOut.live _ ?_
  split
  · split
    · split
      · exact h.next
      · split
        · refine Kept.next (Kept.awlSettle (Kept.ite (Kept.markKernel ?_ ..) ?_) ..)
          · exact h.same rfl rfl
          · exact h.same rfl rfl
        · refine Kept.next (Kept.awlSettle (Kept.awlRows (Kept.ite (Kept.markKernel ?_ ..) ?_) ..) ..)
          · exact h.same rfl rfl
          · exact h.same rfl rfl
    · exact h.next
  · exact h.next

theorem Kept.countSpill (h : Kept s t) (r) : Kept s (t.countSpill r) := by
  unfold State.countSpill
  split
  · exact h.bump ..
  · exact h

theorem Kept.donePerform (h : Kept s t) (old r) : Kept s (t.donePerform old r) := by
  unfold State.donePerform
  split
  · exact h.same rfl rfl
  · exact h.same rfl rfl
  · exact h.passOn ..

theorem Kept.performDram (h : Kept s t) (r late) : Kept s (t.performDram r late) := by
  unfold State.performDram
  dsimp only
  exact (((h.chargeBytes ..).passOn ..).noteSlots ..).ite (Kept.noteSlots (Kept.donePerform (Kept.countSpill (Kept.chargeBytes (((h.countDram ..).dramEvent ..).ite (h.countDram ..)) ..) ..) ..) ..)

theorem keptOut_execRowPerform (t : State) (d k) : KeptOut t (execRowPerform d k t) := by
  unfold execRowPerform
  dsimp only
  have h := Kept.refl t
  refine KeptOut.live _ ?_
  split
  · exact h.next
  · split
    · exact h.next
    · exact (h.performDram ..).next

theorem Kept.readQuiet (h : Kept s t) (row) : Kept s (t.readQuiet row).1 := by
  unfold State.readQuiet
  dsimp only
  refine Kept.same (Kept.readCells ?_ ..) rfl rfl
  exact h.same rfl rfl

theorem keptOut_execMemcPatrol (t : State) (d k p row) : KeptOut t (execMemcPatrol d k p row t) := by
  have h := Kept.refl t
  unfold execMemcPatrol
  refine KeptOut.live _ ?_
  extract_lets key last every early inRange s1 rd s2 r s3 s4 s5
  have k2 : Kept t s2 := (h.onCtl ..).readQuiet ..
  have k3 : Kept t s3 := k2.ite (k2.same rfl rfl)
  have k4 : Kept t s4 := k3.countDram ..
  have k5 : Kept t s5 := (k4.dramEvent ..).ite k4
  have k6 : Kept t { s5 with mem := s5.mem.repair key } := k5.same rfl rfl
  split
  · exact h.next
  · exact (k5.ite k6).next

theorem keptOut_execMemcEccClr (t : State) (a d k v) : KeptOut t (execMemcEccClr a d k v t) := by
  unfold execMemcEccClr
  have h := Kept.refl t
  exact keptOut_writeCmd ..

theorem keptOut_execFailedPcWrite (t : State) (a d k v) : KeptOut t (execFailedPcWrite a d k v t) := by
  unfold execFailedPcWrite
  have h := Kept.refl t
  exact keptOut_writeCmd ..

theorem keptOut_execHbmSpareStart (t : State) (a d k v) : KeptOut t (execHbmSpareStart a d k v t) := by
  unfold execHbmSpareStart
  have h := Kept.refl t
  exact keptOut_writeCmd ..

theorem Kept.keepCopy (h : Kept s t) (d k row img) : Kept s (t.keepCopy d k row img) := by
  unfold State.keepCopy
  dsimp only
  exact h.onCtl ..

theorem Kept.mapSpare (h : Kept s t) (d k pc) : Kept s (t.mapSpare d k pc) := by
  unfold State.mapSpare
  dsimp only
  refine Kept.onCtl (Kept.setFld (Kept.setFld ?_ _ _ _) _ _ _) _ _ _
  exact h.withMem rfl fun w => Memory.foldl_wf _ (fun _ _ w => Memory.copyIn_wf _ _ w) w

theorem keptOut_execSpareCopyRow (t : State) (d k) : KeptOut t (execSpareCopyRow d k t) := by
  unfold execSpareCopyRow
  dsimp only
  have h := Kept.refl t
  refine KeptOut.live _ ?_
  split
  · split
    · exact h.next
    · split
      · exact (h.wake ..).next
      · refine Kept.next (Kept.ite (Kept.mapSpare (Kept.setFld (Kept.onCtl (Kept.keepCopy (Kept.ite (Kept.dramEvent (Kept.countDram ((h.readCells ..).ite ?_) ..) ..) (Kept.countDram ((h.readCells ..).ite ?_) ..)) ..) ..) ..) ..) (Kept.setFld (Kept.onCtl (Kept.keepCopy (Kept.ite (Kept.dramEvent (Kept.countDram ((h.readCells ..).ite ?_) ..) ..) (Kept.countDram ((h.readCells ..).ite ?_) ..)) ..) ..) ..))
        · exact (h.readCells ..).same rfl rfl
        · exact (h.readCells ..).same rfl rfl
        · exact (h.readCells ..).same rfl rfl
        · exact (h.readCells ..).same rfl rfl
  · split
    · exact h.next
    · split
      · exact (h.wake ..).next
      · refine Kept.next (Kept.ite (Kept.mapSpare (Kept.setFld (Kept.onCtl (Kept.keepCopy (Kept.ite (Kept.dramEvent (Kept.countDram ((h.readCells ..).ite ?_) ..) ..) (Kept.countDram ((h.readCells ..).ite ?_) ..)) ..) ..) ..) ..) (Kept.setFld (Kept.onCtl (Kept.keepCopy (Kept.ite (Kept.dramEvent (Kept.countDram ((h.readCells ..).ite ?_) ..) ..) (Kept.countDram ((h.readCells ..).ite ?_) ..)) ..) ..) ..))
        · exact (h.readCells ..).same rfl rfl
        · exact (h.readCells ..).same rfl rfl
        · exact (h.readCells ..).same rfl rfl
        · exact (h.readCells ..).same rfl rfl

theorem keptOut_execDownReq (t : State) (a d k v) : KeptOut t (execDownReq a d k v t) := by
  unfold execDownReq
  have h := Kept.refl t
  exact keptOut_writeCmd ..

theorem Kept.channelDown (h : Kept s t) (d k ch) : Kept s (t.channelDown d k ch) := by
  unfold State.channelDown
  dsimp only
  exact (h.setFld ..).pdnEnd ..

theorem keptOut_execPdnEnter (t : State) (d k) : KeptOut t (execPdnEnter d k t) := by
  unfold execPdnEnter
  have h := Kept.refl t
  refine KeptOut.live _ ?_
  split
  · exact h.next
  · exact Kept.next ((h.channelDown ..).ite h)

theorem keptOut_execPdnTimeout (t : State) (d k) : KeptOut t (execPdnTimeout d k t) := by
  unfold execPdnTimeout
  have h := Kept.refl t
  refine KeptOut.live _ ?_
  split
  · exact h.next
  · split
    · exact h.next
    · exact (h.pdnEnd ..).next

theorem keptOut_execChannelWake (t : State) (d k ch) : KeptOut t (execChannelWake d k ch t) := by
  unfold execChannelWake
  dsimp only
  have h := Kept.refl t
  refine KeptOut.live _ ?_
  split
  · exact h.next
  · split
    · exact h.next
    · exact ((h.setFld ..).onCtl ..).next

theorem keptOut_execTagFill (t : State) (d k) : KeptOut t (execTagFill d k t) := by
  unfold execTagFill
  have h := Kept.refl t
  refine KeptOut.live _ ?_
  split
  · exact h.next
  · exact (h.onCtl ..).next

theorem keptOut_execTagFillComplete (t : State) (d k) : KeptOut t (execTagFillComplete d k t) := by
  have h := Kept.refl t
  unfold execTagFillComplete
  refine KeptOut.live _ ?_
  split
  · exact h.next
  next f _ =>
    have a : Kept t { t with mem := { t.mem with untagged := sins t.mem.untagged f.blk } } := h.same rfl rfl
    split
    · exact h.next
    · dsimp only
      split
      · exact ((a.onCtl ..).performDram ..).next
      · exact (a.onCtl ..).next

theorem keptOut_execBackgroundTagFill (t : State) (d k blk) : KeptOut t (execBackgroundTagFill d k blk t) := by
  have h := Kept.refl t
  unfold execBackgroundTagFill
  refine KeptOut.live _ ?_
  dsimp only
  split
  · exact h.next
  · exact Kept.next (h.same rfl rfl)

theorem keptOut_execPerBankRefresh (t : State) (d k p b) : KeptOut t (execPerBankRefresh d k p b t) := by
  unfold execPerBankRefresh
  dsimp only
  have h := Kept.refl t
  refine KeptOut.live _ ?_
  exact (h.onCtl ..).next

theorem keptOut_execTempSample (t : State) (d k t') : KeptOut t (execTempSample d k t' t) := by
  unfold execTempSample
  dsimp only
  have h := Kept.refl t
  refine KeptOut.live _ ?_
  exact Kept.next (Kept.syncAlerts (((((h.setFld ..).setFld ..).setFld ..).raise ..).ite (((h.setFld ..).setFld ..).setFld ..)) ..)

theorem keptOut_frameCmd (t : State) (a d g cmd v) : KeptOut t (t.frameCmd a d g cmd v) := by
  unfold State.frameCmd
  have h := Kept.refl t
  exact keptOut_writeCmd ..

theorem keptOut_execFrameOpen (t : State) (a d g v) : KeptOut t (execFrameOpen a d g v t) := by
  unfold execFrameOpen
  have h := Kept.refl t
  exact keptOut_frameCmd ..

theorem keptOut_execFrameDrain (t : State) (a d g v) : KeptOut t (execFrameDrain a d g v t) := by
  unfold execFrameDrain
  have h := Kept.refl t
  exact keptOut_frameCmd ..

theorem keptOut_execFrameNoAction (t : State) (a d g v) : KeptOut t (execFrameNoAction a d g v t) := by
  unfold execFrameNoAction
  have h := Kept.refl t
  exact keptOut_frameCmd ..

theorem keptOut_execFrameCmdReserved (t : State) (a d g v) : KeptOut t (execFrameCmdReserved a d g v t) := by
  unfold execFrameCmdReserved
  have h := Kept.refl t
  exact keptOut_frameCmd ..

theorem keptOut_execNorm (t : State) (a hs g) : KeptOut t (execNorm a hs g t) := by
  unfold execNorm
  have h := Kept.refl t
  exact keptOut_writeCmd ..

theorem keptOut_execApply (t : State) (a hs g) : KeptOut t (execApply a hs g t) := by
  unfold execApply
  have h := Kept.refl t
  exact keptOut_writeCmd ..

theorem keptOut_execFinish (t : State) (a hs g) : KeptOut t (execFinish a hs g t) := by
  unfold execFinish
  have h := Kept.refl t
  exact keptOut_writeCmd ..

theorem keptOut_execWeltClose (t : State) (a hs g) : KeptOut t (execWeltClose a hs g t) := by
  unfold execWeltClose
  have h := Kept.refl t
  exact keptOut_writeCmd ..

theorem Kept.stepEnd (h : Kept s t) (lease) : Kept s (t.stepEnd lease) := by
  unfold State.stepEnd
  split
  · exact h.same rfl rfl
  · exact h

theorem keptOut_execWeltCmdEnd (t : State) (hs) : KeptOut t (execWeltCmdEnd hs t) := by
  unfold execWeltCmdEnd
  dsimp only
  have h := Kept.refl t
  refine KeptOut.live _ ?_
  split
  · exact h.next
  · exact Kept.next (Kept.weltDone (Kept.ite (Kept.stepEnd (Kept.setFld ((((h.setFld ..).setFld ..).onWelt ..).ite (h.setFld ..)) ..) ..) ((((h.setFld ..).setFld ..).onWelt ..).ite (h.setFld ..))) ..)

theorem Kept.weltVec (h : Kept s t) (g a n) : Kept s (t.weltVec g a n).1 := by
  unfold State.weltVec
  dsimp only
  refine Kept.foldlOn Prod.fst ?_ _ fun u x h => ?_
  · exact h
  · exact h.agentRead ..

theorem Kept.facFactors (h : Kept s t) (g x w) : Kept s (t.facFactors g x w).1 := by
  unfold State.facFactors
  dsimp only
  refine Kept.weltVec ?_ ..
  refine Kept.weltVec ?_ ..
  refine Kept.foldlOn Prod.fst ?_ _ fun u x h => ?_
  · exact h
  · exact h.agentRead ..

theorem Kept.facAcc (h : Kept s t) (g hs x h' base n off bad) : Kept s (t.facAcc g hs x h' base n off bad).1 := by
  unfold State.facAcc
  dsimp only
  refine Kept.foldlOn Prod.fst ?_ _ fun u x h => ?_
  · exact h
  · split
    · exact h
    · refine Kept.agentPut ?_ ..
      refine Kept.agentRead ?_ ..
      refine Kept.foldlOn Prod.fst ?_ _ fun u x h => ?_
      · exact h
      · exact h.agentRead ..

theorem Kept.weltPut (h : Kept s t) (g a xs poison) : Kept s (t.weltPut g a xs poison) := by
  unfold State.weltPut
  refine Kept.foldl ?_ _ fun u x h => ?_
  · exact h
  · exact h.agentWrite ..

theorem Kept.facAccumulate (h : Kept s t) (g hs x h' bad) : Kept s (t.facAccumulate g hs x h' bad).1 := by
  unfold State.facAccumulate
  dsimp only
  exact ((h.facAcc ..).facAcc ..).weltPut ..

theorem Kept.facGo (h : Kept s t) (l u second) : Kept s (t.facGo l u second) := by
  unfold State.facGo
  dsimp only
  exact (h.weltDone ..).ite (((h.facFactors ..).onWelt ..).ite ((h.facAccumulate ..).onWelt ..))

theorem keptOut_execFacExchangeReady (t : State) (hs l) : KeptOut t (execFacExchangeReady hs l t) := by
  unfold execFacExchangeReady
  dsimp only
  have h := Kept.refl t
  refine KeptOut.live _ ?_
  split
  · refine Kept.next ?_
    refine Kept.foldl ?_ _ fun u x h => ?_
    · exact h
    · exact h.facGo ..
  · split
    · refine Kept.next ?_
      refine Kept.foldl ?_ _ fun u x h => ?_
      · exact h
      · exact h.facGo ..
    · exact h.next

theorem keptOut_execWeltLayerCommit (t : State) (hs) : KeptOut t (execWeltLayerCommit hs t) := by
  unfold execWeltLayerCommit
  dsimp only
  have h := Kept.refl t
  refine KeptOut.live _ ?_
  split
  · exact h.next
  · split
    · exact h.next
    · exact ((((((h.setFld ..).setFld ..).setFld ..).setFld ..).onWelt ..).weltNext ..).next

theorem keptOut_execWeltStepTimeout (t : State) (hs) : KeptOut t (execWeltStepTimeout hs t) := by
  unfold execWeltStepTimeout
  dsimp only
  have h := Kept.refl t
  refine KeptOut.live _ ?_
  split
  · exact h.next
  · split
    · exact ((h.weltCloseStep ..).weltDone ..).next
    · exact ((h.weltCloseStep ..).setFld ..).next

theorem keptOut_execWeltEpochWrite (t : State) (a hs l v) : KeptOut t (execWeltEpochWrite a hs l v t) := by
  unfold execWeltEpochWrite
  have h := Kept.refl t
  exact keptOut_writeCmd ..

theorem keptOut_execKvpEnable (t : State) (a d p v) : KeptOut t (execKvpEnable a d p v t) := by
  unfold execKvpEnable
  have h := Kept.refl t
  exact keptOut_writeCmd ..

theorem keptOut_execKvpInitDone (t : State) (d p) : KeptOut t (execKvpInitDone d p t) := by
  unfold execKvpInitDone
  dsimp only
  have h := Kept.refl t
  refine KeptOut.live _ ?_
  split
  · exact h.next
  · exact ((h.setFld ..).setFld ..).next

theorem keptOut_execKvpGo (t : State) (a d p v) : KeptOut t (execKvpGo a d p v t) := by
  unfold execKvpGo
  have h := Kept.refl t
  exact keptOut_writeCmd ..

theorem Kept.entryDone (h : Kept s t) (d p addr st page) : Kept s (t.entryDone d p addr st page) := by
  unfold State.entryDone
  extract_lets x sr g w u v z
  have k1 : Kept s u := by
    unfold u
    split
    · exact h
    · split
      · exact (h.poolWrite ..).poolWrite ..
      · exact h.poolWrite ..
  have k3 : Kept s z := (k1.firstStatus ..).setFld ..
  split
  · exact k3.same rfl rfl
  · exact k3

theorem Kept.poolRead (h : Kept s t) (g a n) : Kept s (t.poolRead g a n).1 := by
  unfold State.poolRead
  dsimp only
  refine Kept.foldlOn Prod.fst ?_ _ fun u x h => ?_
  · exact h
  · exact h.agentRead ..

theorem Kept.entry (h : Kept s t) {d p op : Nat} {eff : Agent → PoolShape → PoolEntry → State → State × Status × Option Nat}
    (k : ∀ g x e u, Kept s u → Kept s (eff g x e u).1) : Kept s (t.entry d p op eff) := by
  unfold State.entry
  split
  · exact h
  · split
    · exact h
    · dsimp only
      split
      · exact h.entryDone ..
      · split
        · exact h
        · split
          · exact (h.poolRead ..).entryDone ..
          · exact (k _ _ _ _ (h.poolRead ..)).entryDone ..

theorem Kept.popPage (h : Kept s t) (d p x) : Kept s (t.popPage d p x).1 := by
  unfold State.popPage
  dsimp only
  exact (h.poolRead ..).setFld ..

theorem Kept.setCount (h : Kept s t) (g x n v) : Kept s (t.setCount g x n v) := by
  unfold State.setCount
  exact h.poolWrite ..

theorem keptOut_execAlloc (t : State) (d p) : KeptOut t (execAlloc d p t) := by
  unfold execAlloc
  dsimp only
  have h := Kept.refl t
  refine KeptOut.live _ ?_
  refine Kept.next ?_
  refine h.entry fun g x e u h => ?_
  split
  · exact h
  · refine Kept.setCount ?_ ..
    exact h.popPage ..

theorem Kept.pageCount (h : Kept s t) (g x n) : Kept s (t.pageCount g x n).1 := by
  unfold State.pageCount
  dsimp only
  exact h.poolRead ..

theorem keptOut_execShare (t : State) (d p) : KeptOut t (execShare d p t) := by
  unfold execShare
  dsimp only
  have h := Kept.refl t
  refine KeptOut.live _ ?_
  refine Kept.next ?_
  refine h.entry fun g x e u h => ?_
  split
  · exact h.pageCount ..
  · split
    · exact h.pageCount ..
    · refine Kept.setCount ?_ ..
      exact h.pageCount ..

theorem Kept.pushPage (h : Kept s t) (d p x q) : Kept s (t.pushPage d p x q) := by
  unfold State.pushPage
  dsimp only
  exact (h.poolWrite ..).setFld ..

theorem keptOut_execFree (t : State) (d p) : KeptOut t (execFree d p t) := by
  unfold execFree
  dsimp only
  have h := Kept.refl t
  refine KeptOut.live _ ?_
  refine Kept.next ?_
  refine h.entry fun g x e u h => ?_
  split
  · exact h.pageCount ..
  · split
    · refine Kept.pushPage ?_ ..
      refine Kept.setCount ?_ ..
      exact h.pageCount ..
    · refine Kept.setCount ?_ ..
      exact h.pageCount ..

theorem Kept.copyPage (h : Kept s t) (g x a b) : Kept s (t.copyPage g x a b) := by
  unfold State.copyPage
  dsimp only
  refine Kept.foldl ?_ _ fun u x h => ?_
  · exact h
  · refine Kept.foldl ?_ _ fun u x h => ?_
    · exact h
    · refine Kept.agentWrite ?_ ..
      exact h.agentRead ..

theorem keptOut_execMakePrivate (t : State) (d p) : KeptOut t (execMakePrivate d p t) := by
  unfold execMakePrivate
  dsimp only
  have h := Kept.refl t
  refine KeptOut.live _ ?_
  refine Kept.next ?_
  refine h.entry fun g x e u h => ?_
  split
  · exact h.pageCount ..
  · split
    · exact h.pageCount ..
    · split
      · exact h.pageCount ..
      · refine Kept.setCount ?_ ..
        refine Kept.setCount ?_ ..
        refine Kept.copyPage ?_ ..
        refine Kept.popPage ?_ ..
        exact h.pageCount ..

theorem Kept.appendPlane (h : Kept s t) (g stage page n f) : Kept s (t.appendPlane g stage page n f) := by
  unfold State.appendPlane
  dsimp only
  refine Kept.foldl ?_ _ fun u x h => ?_
  · refine Kept.foldlOn Prod.fst ?_ _ fun u x h => ?_
    · exact h.poolRead ..
    · exact h.agentRead ..
  · exact h.agentWrite ..

theorem Kept.appendTokens (h : Kept s t) (g x e) : Kept s (t.appendTokens g x e) := by
  unfold State.appendTokens
  dsimp only
  refine Kept.foldl ?_ _ fun u x h => ?_
  · refine Kept.foldl ?_ _ fun u x h => ?_
    · exact h
    · exact h.appendPlane ..
  · exact h.appendPlane ..

theorem keptOut_execAppend (t : State) (d p) : KeptOut t (execAppend d p t) := by
  unfold execAppend
  dsimp only
  have h := Kept.refl t
  refine KeptOut.live _ ?_
  refine Kept.next ?_
  refine h.entry fun g x e u h => ?_
  split
  · exact h
  · split
    · exact h.pageCount ..
    · split
      · exact h.pageCount ..
      · refine Kept.appendTokens ?_ ..
        exact h.pageCount ..

theorem keptOut_execKvpBatchComplete (t : State) (d p) : KeptOut t (execKvpBatchComplete d p t) := by
  unfold execKvpBatchComplete
  have h := Kept.refl t
  refine KeptOut.live _ ?_
  split
  · exact h.next
  · exact Kept.next ((h.batchDone ..).ite h)

theorem Kept.issueSoft (h : Kept s t) (k mode) : Kept s (t.issueSoft k mode) := by
  unfold State.issueSoft
  split
  · exact h.issueVec1 ..
  · exact (h.issueVec1 ..).ite h

theorem keptOut_execSoftmaxStep (t : State) (c) : KeptOut t (execSoftmaxStep c t) := by
  unfold execSoftmaxStep
  have h := Kept.refl t
  refine KeptOut.live _ ?_
  exact (h.issueSoft ..).next

theorem keptOut_execSoftmaxFinal (t : State) (c) : KeptOut t (execSoftmaxFinal c t) := by
  unfold execSoftmaxFinal
  have h := Kept.refl t
  refine KeptOut.live _ ?_
  exact (h.issueSoft ..).next

theorem keptOut_execSoftmaxMerge (t : State) (c) : KeptOut t (execSoftmaxMerge c t) := by
  unfold execSoftmaxMerge
  have h := Kept.refl t
  refine KeptOut.live _ ?_
  exact (h.issueSoft ..).next

theorem Kept.portChanged (h : Kept s t) (p) : Kept s (t.portChanged p) := by
  unfold State.portChanged
  split
  · exact h.raise ..
  · exact h

theorem Kept.setPort (h : Kept s t) (p up degraded speed lanes) : Kept s (t.setPort p up degraded speed lanes) := by
  unfold State.setPort
  dsimp only
  exact (((((h.setFld ..).setFld ..).setFld ..).setFld ..).portChanged ..).ite ((((h.setFld ..).setFld ..).setFld ..).setFld ..)

theorem keptOut_execPortRetrain (t : State) (p failed) : KeptOut t (execPortRetrain p failed t) := by
  unfold execPortRetrain
  dsimp only
  have h := Kept.refl t
  refine KeptOut.live _ ?_
  split
  · exact h.next
  · refine Kept.next (Kept.drainEgress ?_ ..)
    exact ((h.setPort p false (t.portMode p == 0 && failed != 0#4) (0) (0)).bump ((portRegs p).2.1) PEER_PORT_STATUS.RETRAINS (1)).same rfl rfl

theorem keptOut_execPortTrainEnd (t : State) (p lanes speed) : KeptOut t (execPortTrainEnd p lanes speed t) := by
  unfold execPortTrainEnd
  dsimp only
  have h := Kept.refl t
  refine KeptOut.live _ ?_
  split
  · exact h.next
  · split
    · refine Kept.next (Kept.drainEgress (Kept.setPort ?_ ..) ..)
      exact h.same rfl rfl
    · split
      · refine Kept.next (Kept.drainEgress ?_ ..)
        refine Kept.same (Kept.setPort ?_ ..) rfl rfl
        exact h.same rfl rfl
      · refine Kept.next (Kept.setPort ?_ ..)
        exact h.same rfl rfl

theorem keptOut_execPeerPortClr (t : State) (a q v) : KeptOut t (execPeerPortClr a q v t) := by
  unfold execPeerPortClr
  have h := Kept.refl t
  exact keptOut_writeCmd ..

theorem keptOut_execFabCfgWrite (t : State) (a v) : KeptOut t (execFabCfgWrite a v t) := by
  unfold execFabCfgWrite
  have h := Kept.refl t
  exact keptOut_writeCmd ..

theorem keptOut_execFabCoordWrite (t : State) (a u v) : KeptOut t (execFabCoordWrite a u v t) := by
  unfold execFabCoordWrite
  have h := Kept.refl t
  exact keptOut_writeCmd ..

theorem keptOut_execFabVcWrite (t : State) (a vc v) : KeptOut t (execFabVcWrite a vc v t) := by
  unfold execFabVcWrite
  have h := Kept.refl t
  exact keptOut_writeCmd ..

theorem keptOut_execFabStatClr (t : State) (a v) : KeptOut t (execFabStatClr a v t) := by
  unfold execFabStatClr
  have h := Kept.refl t
  exact keptOut_writeCmd ..

theorem Kept.fecCount (h : Kept s t) (p corr uncorr) : Kept s (t.fecCount p corr uncorr) := by
  unfold State.fecCount
  dsimp only
  exact h.ite (((h.tally ((portRegs p).2.2) PEER_PORT_ERR.FEC_CORR corr).tally ((portRegs p).2.2) PEER_PORT_ERR.FEC_UNCORR uncorr).ite (((h.tally ((portRegs p).2.2) PEER_PORT_ERR.FEC_CORR corr).tally ((portRegs p).2.2) PEER_PORT_ERR.FEC_UNCORR uncorr).same rfl rfl))

theorem Kept.creditIn (h : Kept s t) (q credit) : Kept s (t.creditIn q credit) := by
  unfold State.creditIn
  dsimp only
  refine h.ite (Kept.drainEgress ?_ ..)
  exact h.same rfl rfl

theorem Kept.freePkt (h : Kept s t) (q p) : Kept s (t.freePkt q p) := by
  unfold State.freePkt
  exact h.ite (h.freeCells ..)

theorem Kept.frameIn (h : Kept s t) (q p) : Kept s (t.frameIn q p).1 := by
  unfold State.frameIn
  dsimp only
  split
  · exact (h.fecCount ..).tally ..
  · split
    · split
      · exact ((((h.fecCount ..).charge ..).creditIn ..).tally ..).freePkt ..
      · split
        · exact (((h.fecCount ..).charge ..).creditIn ..).freePkt ..
        · exact ((h.fecCount ..).charge ..).creditIn ..
    · split
      · exact (((h.fecCount ..).creditIn ..).tally ..).freePkt ..
      · split
        · exact ((h.fecCount ..).creditIn ..).freePkt ..
        · exact (h.fecCount ..).creditIn ..

theorem Kept.bringRow (h : Kept s t) (q o write lease img) : Kept s (t.bringRow q o write lease img) := by
  unfold State.bringRow
  dsimp only
  exact ((h.cross ..).crossingsBack ..).same rfl rfl

theorem Kept.sendWaitingOn (h : Kept s t) (u vc) : Kept s (t.sendWaitingOn u vc) := by
  unfold State.sendWaitingOn
  dsimp only
  refine Kept.foldl ?_ _ fun u x h => ?_
  · exact h.setConn ..
  · split
    · exact h.sendNow ..
    · exact h.setConn ..

theorem Kept.sendWaiting (h : Kept s t) : Kept s (t.sendWaiting) := by
  unfold State.sendWaiting
  refine Kept.foldl ?_ _ fun u x h => ?_
  · exact h
  · exact h.sendWaitingOn ..

theorem Kept.acked (h : Kept s t) (q u vc ack sack) : Kept s (t.acked q u vc ack sack) := by
  unfold State.acked
  dsimp only
  refine Kept.sendWaiting ?_ ..
  refine Kept.foldl ?_ _ fun u x h => ?_
  · exact h.setConn ..
  · split
    · refine Kept.foldl ?_ _ fun u x h => ?_
      · exact h
      · exact h.bringRow ..
    · exact h

theorem Kept.sendAck (h : Kept s t) (p) : Kept s (t.sendAck p) := by
  unfold State.sendAck
  dsimp only
  exact h.emit ..

theorem Kept.takeIn (h : Kept s t) (q p) : Kept s (t.takeIn q p).1 := by
  unfold State.takeIn
  dsimp only
  split
  · exact h.freePkt ..
  · split
    · exact h.freePkt ..
    · split
      · exact ((h.freePkt ..).acked ..).ite (h.freePkt ..)
      · split
        · exact Kept.sendAck (((h.freePkt ..).acked ..).ite (h.freePkt ..)) ..
        · exact Kept.setConn (((h.freePkt ..).acked ..).ite (h.freePkt ..)) ..

theorem Kept.receive (h : Kept s t) {q : Fin 16} {p : DftPacket} {type : Nat} {act : State → State} (k : ∀ u, Kept s u → Kept s (act u)) : Kept s (t.receive q p type act) := by
  unfold State.receive
  split
  · exact h
  · split
    · exact h
    · dsimp only
      split
      · exact h.frameIn ..
      · split
        · exact (h.frameIn ..).takeIn ..
        · have a := k _ ((h.frameIn q p).takeIn q.val p)
          split
          · exact a.sendAck ..
          · exact a

theorem Kept.respond (h : Kept s t) (p type st pay) : Kept s (t.respond p type st pay) := by
  unfold State.respond
  dsimp only
  exact h.sendPkt ..

theorem Kept.remoteRun (h : Kept s t) {q : Nat} {p : DftPacket} {ask : State → List Nat → State} (k : ∀ u l, Kept s u → Kept s (ask u l)) : Kept s (t.remoteRun q p ask) := by
  unfold State.remoteRun
  split
  · exact h.respond ..
  · exact (k _ _ h).same rfl rfl

theorem Kept.remoteWrite (h : Kept s t) (q p) : Kept s (t.remoteWrite q p) := by
  unfold State.remoteWrite
  refine h.remoteRun fun u l h => ?_
  refine Kept.foldl ?_ _ fun u x h => ?_
  · exact h
  · exact h.bookWrite ..

theorem keptOut_execDftWrite (t : State) (q p) : KeptOut t (execDftWrite q p t) := by
  unfold execDftWrite
  have h := Kept.refl t
  refine KeptOut.live _ ?_
  refine Kept.next ?_
  refine h.receive fun u h => ?_
  exact h.remoteWrite ..

theorem Kept.remoteRead (h : Kept s t) (q p) : Kept s (t.remoteRead q p) := by
  unfold State.remoteRead
  refine h.remoteRun fun u l h => ?_
  refine Kept.foldl ?_ _ fun u x h => ?_
  · exact h
  · exact h.bookFor ..

theorem keptOut_execDftRead (t : State) (q p) : KeptOut t (execDftRead q p t) := by
  unfold execDftRead
  have h := Kept.refl t
  refine KeptOut.live _ ?_
  refine Kept.next ?_
  refine h.receive fun u h => ?_
  exact h.remoteRead ..

theorem Kept.takeData (h : Kept s t) (q p) : Kept s (t.takeData q p) := by
  unfold State.takeData
  dsimp only
  split
  · exact h
  · refine Kept.foldl ?_ _ fun u x h => ?_
    · exact h.setConn ..
    · exact h.bringRow ..

theorem keptOut_execReadData (t : State) (q p) : KeptOut t (execReadData q p t) := by
  unfold execReadData
  have h := Kept.refl t
  refine KeptOut.live _ ?_
  refine Kept.next ?_
  refine h.receive fun u h => ?_
  exact h.takeData ..

theorem Kept.rowFailed (h : Kept s t) (o st) : Kept s (t.rowFailed o st) := by
  unfold State.rowFailed
  split
  · exact (h.refuse ..).ite h
  · exact h

theorem Kept.takeNak (h : Kept s t) (p) : Kept s (t.takeNak p) := by
  unfold State.takeNak
  dsimp only
  split
  · exact (h.setConn ..).rowFailed ..
  · exact h.setConn ..

theorem keptOut_execNak (t : State) (q p) : KeptOut t (execNak q p t) := by
  unfold execNak
  have h := Kept.refl t
  refine KeptOut.live _ ?_
  refine Kept.next ?_
  refine h.receive fun u h => ?_
  exact h.takeNak ..

theorem Kept.resend (h : Kept s t) (u vc seq fast) : Kept s (t.resend u vc seq fast) := by
  unfold State.resend
  dsimp only
  split
  · exact h
  · exact ((h.setConn ..).tally ..).emit ..

theorem Kept.fastResend (h : Kept s t) (u vc ack sack) : Kept s (t.fastResend u vc ack sack) := by
  unfold State.fastResend
  dsimp only
  refine Kept.foldl ?_ _ fun u x h => ?_
  · exact h
  · exact h.resend ..

theorem keptOut_execAck (t : State) (q p) : KeptOut t (execAck q p t) := by
  unfold execAck
  have h := Kept.refl t
  refine KeptOut.live _ ?_
  refine Kept.next ?_
  refine h.receive fun u h => ?_
  split
  · exact h.fastResend ..
  · exact h

theorem keptOut_execCredit (t : State) (q p) : KeptOut t (execCredit q p t) := by
  unfold execCredit
  have h := Kept.refl t
  refine KeptOut.live _ ?_
  refine Kept.next ?_
  refine h.receive fun u h => ?_
  exact h

theorem Kept.forward (h : Kept s t) (q p dir) : Kept s (t.forward q p dir) := by
  unfold State.forward
  dsimp only
  refine Kept.drainEgress ?_ ..
  exact h.same rfl rfl

theorem keptOut_execPacketForward (t : State) (q p) : KeptOut t (execPacketForward q p t) := by
  unfold execPacketForward
  dsimp only
  have h := Kept.refl t
  refine KeptOut.live _ ?_
  split
  · exact h.next
  · split
    · exact (h.frameIn ..).next
    · split
      · exact (((h.frameIn ..).tally ..).freeCells ..).next
      · split
        · exact ((h.frameIn ..).freeCells ..).next
        · exact ((h.frameIn ..).forward ..).next

theorem Kept.returnCells (h : Kept s t) (q vc cls) : Kept s (t.returnCells q vc cls) := by
  unfold State.returnCells
  dsimp only
  exact h.ite (h.same rfl rfl)

theorem keptOut_execCreditReturn (t : State) (q vc cls) : KeptOut t (execCreditReturn q vc cls t) := by
  unfold execCreditReturn
  have h := Kept.refl t
  refine KeptOut.live _ ?_
  split
  · exact h.next
  · exact (h.returnCells ..).next

theorem Kept.retransmitTimeout (h : Kept s t) {x vc seq : Nat} {fail : State → State} (k : ∀ u, Kept s u → Kept s (fail u)) : Kept s (t.retransmitTimeout x vc seq fail) := by
  unfold State.retransmitTimeout
  split
  · exact h
  · split
    · exact h
    · split
      · exact k _ h
      · exact h.resend ..

theorem Kept.sendResync (h : Kept s t) (kind u vc epoch) : Kept s (t.sendResync kind u vc epoch) := by
  unfold State.sendResync
  dsimp only
  exact h.emit ..

theorem Kept.connFail (h : Kept s t) (u vc) : Kept s (t.connFail u vc) := by
  unfold State.connFail
  dsimp only
  refine Kept.sendWaiting ?_ ..
  refine Kept.sendResync ?_ ..
  refine Kept.raise ?_ ..
  refine Kept.tally ?_ ..
  refine Kept.foldl ?_ _ fun u x h => ?_
  · exact h.setConn ..
  · exact h.rowFailed ..

theorem Kept.connLost (h : Kept s t) (u vc) : Kept s (t.connLost u vc) := by
  unfold State.connLost
  dsimp only
  refine Kept.foldl ?_ _ fun u x h => ?_
  · exact h.connFail ..
  · exact h.collStopRun ..

theorem keptOut_execRetransmitTimeout (t : State) (conn seq) : KeptOut t (execRetransmitTimeout conn seq t) := by
  unfold execRetransmitTimeout
  have h := Kept.refl t
  refine KeptOut.live _ ?_
  refine Kept.next ?_
  refine h.retransmitTimeout fun u h => ?_
  exact h.connLost ..

theorem Kept.mgmtIn (h : Kept s t) {q : Fin 16} {p : DftPacket} {kind : Nat} {act : State → State} (k : ∀ u, Kept s u → Kept s (act u)) : Kept s (t.mgmtIn q p kind act) := by
  have f := (h.frameIn q p).freeCells q.val 0 (pktClass p) (pktCells p)
  unfold State.mgmtIn
  split
  · exact h
  · split
    · exact h
    · dsimp only
      split
      · exact h.frameIn ..
      · split
        · exact f.tally ..
        · split
          · exact h
          · exact k _ f

theorem Kept.connReset (h : Kept s t) (u vc epoch) : Kept s (t.connReset u vc epoch) := by
  unfold State.connReset
  dsimp only
  refine Kept.sendWaiting ?_ ..
  refine Kept.foldl ?_ _ fun u x h => ?_
  · exact h.setConn ..
  · exact h.rowFailed ..

theorem Kept.takeResync (h : Kept s t) (p) : Kept s (t.takeResync p) := by
  unfold State.takeResync
  dsimp only
  refine Kept.sendResync ?_ ..
  split
  · exact ((h.connReset ..).setConn ..).ite h
  · exact h.ite (h.connReset ..)

theorem keptOut_execResync (t : State) (q p) : KeptOut t (execResync q p t) := by
  unfold execResync
  have h := Kept.refl t
  refine KeptOut.live _ ?_
  refine Kept.next ?_
  refine h.mgmtIn fun u h => ?_
  exact h.takeResync ..

theorem Kept.takeResyncAck (h : Kept s t) (p) : Kept s (t.takeResyncAck p) := by
  unfold State.takeResyncAck
  dsimp only
  split
  · exact h
  · exact h.ite (((h.setConn ..).connReset ..).ite ((h.setConn ..).sendWaiting ..))

theorem keptOut_execResyncAck (t : State) (q p) : KeptOut t (execResyncAck q p t) := by
  unfold execResyncAck
  have h := Kept.refl t
  refine KeptOut.live _ ?_
  refine Kept.next ?_
  refine h.mgmtIn fun u h => ?_
  exact h.takeResyncAck ..

theorem keptOut_execResyncRepeat (t : State) (conn) : KeptOut t (execResyncRepeat conn t) := by
  unfold execResyncRepeat
  dsimp only
  have h := Kept.refl t
  refine KeptOut.live _ ?_
  split
  · exact h.next
  · split
    · exact h.next
    · exact ((h.setConn ..).sendResync ..).next

theorem keptOut_execCollGroupWrite (t : State) (a io g v members) : KeptOut t (execCollGroupWrite a io g v members t) := by
  unfold execCollGroupWrite
  split
  next u e => exact ⟨(keptOut_writeCmd u a _ _).goesOn, fun w f => ((keptOut_writeCmd t a _ _).state u e).trans ((keptOut_writeCmd u a _ _).state w f)⟩
  · exact keptOut_writeCmd ..

theorem keptOut_execCollSubmit (t : State) (a io v) : KeptOut t (execCollSubmit a io v t) := by
  unfold execCollSubmit
  have h := Kept.refl t
  exact keptOut_writeCmd ..

theorem Kept.collQueued (h : Kept s t) (io rest) : Kept s (t.collQueued io rest) := by
  unfold State.collQueued
  exact ((h.onColl ..).setFld ..).setFld ..

theorem Kept.collTaken (h : Kept s t) (io a who rest) : Kept s (t.collTaken io a who rest).1 := by
  unfold State.collTaken
  dsimp only
  split
  · exact (h.collQueued ..).collBlock ..
  · exact h.collQueued ..

theorem Kept.collRead (h : Kept s t) (g a n) : Kept s (t.collRead g a n).1 := by
  unfold State.collRead
  dsimp only
  refine Kept.foldlOn Prod.fst ?_ _ fun u x h => ?_
  · exact h
  · exact h.agentRead ..

theorem Kept.collInput (h : Kept s t) (io r) : Kept s (t.collInput io r).1 := by
  have k (a src n) : Kept s (t.collRead a src n).1 := h.collRead ..
  unfold State.collInput
  extract_lets n p one m q w
  exact Kept.iteFst (k ..).fstOf (Kept.iteFst (k ..).fstOf (k ..).fstOf)

theorem Kept.collAbortIn (h : Kept s t) (io p) : Kept s (t.collAbortIn io p) := by
  unfold State.collAbortIn
  exact h.collStopRun ..

theorem Kept.collTrySend (h : Kept s t) (io) : Kept s (t.collTrySend io) := by
  unfold State.collTrySend
  dsimp only
  split
  · exact h
  · split
    · exact h
    · split
      · exact h
      · split
        · exact h
        · refine Kept.foldl ?_ _ fun u x h => ?_
          · exact h.onRun ..
          · exact h.collSend ..

theorem Kept.collWrite (h : Kept s t) (io r first l) : Kept s (t.collWrite io r first l) := by
  unfold State.collWrite
  dsimp only
  split
  · refine Kept.onRun ?_ ..
    refine Kept.foldl ?_ _ fun u x h => ?_
    · exact h
    · exact h.agentWrite ..
  · refine Kept.foldl ?_ _ fun u x h => ?_
    · exact h
    · exact h.agentWrite ..

theorem Kept.collConvert (h : Kept s t) (io r) : Kept s (t.collConvert io r) := by
  unfold State.collConvert
  dsimp only
  exact (h.collWrite ..).ite ((h.collWrite ..).ite ((h.collWrite ..).onRun ..))

theorem Kept.collRun (h : Kept s t) (io n) : Kept s (t.collRun io n) := by
  induction n generalizing t with
  | zero => exact h
  | succ n ih =>
    have a := h.collTrySend io
    unfold State.collRun
    dsimp only
    split
    · exact a
    next r _ =>
      split
      · exact a
      · split
        · exact a.onRun ..
        next st rest _ =>
          split
          · exact a
          · have c := ((a.collConvert io r).ite (p := (st.mode == 3) = true) a).onRun io (fun r => { r with steps := rest, sent := false, got := [] })
            refine ih ?_
            split
            · split
              · exact c.ite (c.collSend ..)
              · exact c
            · exact c

theorem Kept.collGo (h : Kept s t) (io) : Kept s (t.collGo io) := by
  unfold State.collGo
  split
  · exact h
  · exact h.collRun ..

theorem Kept.collReadyIn (h : Kept s t) (io p) : Kept s (t.collReadyIn io p) := by
  unfold State.collReadyIn
  dsimp only
  split
  · exact h
  · exact (h.collStopRun ..).ite ((h.onRun ..).collGo ..)

theorem Kept.collEarly (h : Kept s t) (io) : Kept s (t.collEarly io) := by
  unfold State.collEarly
  dsimp only
  split
  · exact h
  · refine Kept.foldl ?_ _ fun u x h => ?_
    · exact h.onColl ..
    · split
      · exact h.collAbortIn ..
      · exact h.collReadyIn ..

theorem Kept.collBegin (h : Kept s t) (io r) : Kept s (t.collBegin io r) := by
  unfold State.collBegin
  dsimp only
  refine Kept.collEarly (Kept.collGo (Kept.onColl (Kept.collInput ?_ ..) ..) ..) ..
  exact h.same rfl rfl

theorem Kept.collStart (h : Kept s t) (io op) : Kept s (t.collStart io op) := by
  unfold State.collStart
  dsimp only
  split
  · split
    · exact h
    · split
      · exact (h.collTaken ..).onColl ..
      · split
        · exact (h.collTaken ..).onColl ..
        · exact (((h.collTaken ..).collBlock ..).onColl ..).ite (((h.collTaken ..).collBlock ..).collBegin ..)
  · exact h

theorem keptOut_execReduceScatter (t : State) (io) : KeptOut t (execReduceScatter io t) := by
  unfold execReduceScatter
  have h := Kept.refl t
  refine KeptOut.live _ ?_
  exact (h.collStart ..).next

theorem keptOut_execAllGather (t : State) (io) : KeptOut t (execAllGather io t) := by
  unfold execAllGather
  have h := Kept.refl t
  refine KeptOut.live _ ?_
  exact (h.collStart ..).next

theorem keptOut_execAllReduce (t : State) (io) : KeptOut t (execAllReduce io t) := by
  unfold execAllReduce
  have h := Kept.refl t
  refine KeptOut.live _ ?_
  exact (h.collStart ..).next

theorem keptOut_execNormred (t : State) (io) : KeptOut t (execNormred io t) := by
  unfold execNormred
  have h := Kept.refl t
  refine KeptOut.live _ ?_
  exact (h.collStart ..).next

theorem Kept.collReceive (h : Kept s t) {q : Fin 16} {p : DftPacket} {cop : Nat} {act : State → Nat → CollRun → State} (k : ∀ u io r, Kept s u → Kept s (act u io r)) : Kept s (t.collReceive q p cop act) := by
  unfold State.collReceive
  split
  · exact h
  · refine h.receive fun u h => ?_
    have w : Kept s (if cop == 0 || !u.collAhead p then u else u.onColl (collEngine p) (fun e => { e with early := e.early ++ [p] })) := h.ite (h.onColl ..)
    dsimp only
    split
    · split
      · exact k _ _ _ h
      · exact w
    · exact w

theorem keptOut_execCollReady (t : State) (q p) : KeptOut t (execCollReady q p t) := by
  unfold execCollReady
  have h := Kept.refl t
  refine KeptOut.live _ ?_
  refine Kept.next ?_
  refine h.collReceive fun u io r h => ?_
  exact h.collReadyIn ..

theorem Kept.collRow (h : Kept s t) (io row x) : Kept s (t.collRow io row x) := by
  unfold State.collRow
  dsimp only
  split
  · exact h
  · split
    · exact h
    · exact h.ite (((h.onRun ..).collWrite ..).ite (h.onRun ..))

theorem Kept.collDataIn (h : Kept s t) (io p r) : Kept s (t.collDataIn io p r) := by
  unfold State.collDataIn
  dsimp only
  split
  · split
    · exact h
    · refine Kept.collGo ?_ ..
      refine Kept.foldl ?_ _ fun u x h => ?_
      · exact h
      · exact h.collRow ..
  · exact h

theorem keptOut_execCollData (t : State) (q p) : KeptOut t (execCollData q p t) := by
  unfold execCollData
  have h := Kept.refl t
  refine KeptOut.live _ ?_
  refine Kept.next ?_
  refine h.collReceive fun u io r h => ?_
  exact h.collDataIn ..

theorem keptOut_execCollAbort (t : State) (q p) : KeptOut t (execCollAbort q p t) := by
  unfold execCollAbort
  have h := Kept.refl t
  refine KeptOut.live _ ?_
  refine Kept.next ?_
  refine h.collReceive fun u io r h => ?_
  exact h.collAbortIn ..

theorem keptOut_execCollTimeout (t : State) (io) : KeptOut t (execCollTimeout io t) := by
  unfold execCollTimeout
  have h := Kept.refl t
  refine KeptOut.live _ ?_
  split
  · exact h.next
  · split
    · exact h.next
    · exact (h.collStopRun ..).next

theorem keptOut_execCollEnd (t : State) (io) : KeptOut t (execCollEnd io t) := by
  unfold execCollEnd
  have h := Kept.refl t
  refine KeptOut.live _ ?_
  split
  · exact h.next
  · split
    · exact h.next
    · exact Kept.next (h.ite (h.collFinish ..))

theorem Kept.hcAccess (h : Kept s t) {k a n : Nat} {eff : State → State} (e : ∀ u, Kept s u → Kept s (eff u)) : Kept s (t.hcAccess k a n eff) := by
  unfold State.hcAccess
  split
  · exact h
  · split
    · exact (h.extEnd ..).answer ..
    · exact e _ (h.hcWake k)

theorem Kept.hcCbo (h : Kept s t) {x : HcId} {a : Nat} {eff : Nat → State → State} (e : ∀ r u, Kept s u → Kept s (eff r u)) : Kept s (t.hcCbo x a eff) := by
  unfold State.hcCbo
  refine h.hcAccess fun u h => ?_
  split
  · exact h.answer ..
  · exact (e _ _ h).answer ..

theorem keptOut_execCboInval (t : State) (h' addr user) : KeptOut t (execCboInval h' addr user t) := by
  unfold execCboInval
  have h := Kept.refl t
  refine KeptOut.live _ ?_
  refine Kept.next ?_
  refine h.hcCbo fun r u h => ?_
  exact h.cbo ..

theorem keptOut_execCboClean (t : State) (h' addr) : KeptOut t (execCboClean h' addr t) := by
  unfold execCboClean
  have h := Kept.refl t
  refine KeptOut.live _ ?_
  refine Kept.next ?_
  refine h.hcCbo fun r u h => ?_
  exact h.cbo ..

theorem keptOut_execCboFlush (t : State) (h' addr) : KeptOut t (execCboFlush h' addr t) := by
  unfold execCboFlush
  have h := Kept.refl t
  refine KeptOut.live _ ?_
  refine Kept.next ?_
  refine h.hcCbo fun r u h => ?_
  exact h.cbo ..

theorem keptOut_execCboZero (t : State) (h' addr) : KeptOut t (execCboZero h' addr t) := by
  unfold execCboZero
  dsimp only
  have h := Kept.refl t
  refine KeptOut.live _ ?_
  refine Kept.next ?_
  refine h.hcCbo fun r u h => ?_
  refine Kept.same (Kept.performBack ?_ ..) rfl rfl
  exact h.same rfl rfl

theorem keptOut_execFence (t : State) (h') : KeptOut t (execFence h' t) := by
  unfold execFence
  have h := Kept.refl t
  refine KeptOut.live _ ?_
  exact Kept.next (h.ite (h.performBacks ..))

theorem Kept.icClaim (h : Kept s t) (ic x) : Kept s (t.icClaim ic x).1 := by
  unfold State.icClaim
  split
  · exact h
  next y _ =>
    refine Kept.notePending (Kept.noteEsc ?_ _) _ _ _
    exact ((h.putBit (icPending ic y) (y % 64) false).putBit (icActive ic y) (y % 64) true).same rfl rfl

theorem Kept.ringNoteRead (h : Kept s t) (k) : Kept s (t.ringNoteRead k).1 := by
  unfold State.ringNoteRead
  split
  · exact h
  · exact (h.onCore ..).syncLevel ..

theorem Kept.undoExpiry (h : Kept s t) (d m) : Kept s (t.undoExpiry d m) := by
  unfold State.undoExpiry
  split
  · exact (h.setFld ..).ite h
  · exact h

theorem Kept.eyeTaken (h : Kept s t) (d m next) : Kept s (t.eyeTaken d m next) := by
  unfold State.eyeTaken
  dsimp only
  refine Kept.eyeSync ?_ ..
  exact (((h.undoExpiry d m).setFld (eye RegName.EYE_STATUS d m) EYE_STATUS.FULL (flag next)).setW1c (eye RegName.EYE_STATUS d m) EYE_STATUS.EMPTIED).same rfl rfl

theorem Kept.eyeTake (h : Kept s t) (d m) : Kept s (t.eyeTake d m).1 := by
  unfold State.eyeTake
  split
  · exact h
  · split
    · exact (h.eyeTaken ..).fstOf
    next w _ =>
      refine Kept.fstOf (Kept.same (t := (t.setFld (eye .EYE_STATUS d m) EYE_STATUS.COLLISION (flag w.collided)).eyeTaken d m w.committed) ?_ rfl rfl)
      refine Kept.eyeTaken ?_ ..
      exact h.setFld ..

theorem Kept.readAct (h : Kept s t) (r) : Kept s (t.readAct r).1 := by
  unfold State.readAct
  split
  · exact h.icClaim ..
  · exact h.ringNoteRead ..
  · split
    · exact h.eyeTake ..
    · exact h
  · exact h

theorem Kept.regRead (h : Kept s t) (a addr) : Kept s (t.regRead a addr).1 := by
  unfold State.regRead
  dsimp only
  split
  · exact h
  · exact h
  · split
    · exact h
    · exact h.readAct ..

theorem Kept.hcRegister (h : Kept s t) (h' addr acc) : Kept s (t.hcRegister h' addr acc) := by
  unfold State.hcRegister
  dsimp only
  split
  · exact h.answer ..
  · split
    · exact ((h.regWrite ..).answer ..).ite (h.answer ..)
    · exact (h.regRead ..).answer ..

theorem Kept.meetCache (h : Kept s t) (k row line) : Kept s (t.meetCache k row line) := by
  unfold State.meetCache
  split
  · exact h.meetUpset ..
  · exact h

theorem Kept.l3Room (h : Kept s t) (k row) : Kept s (t.l3Room k row) := by
  unfold State.l3Room
  dsimp only
  split
  · exact h
  · split
    · exact h
    · exact ((h.draw ..).startBack ..).dropCached ..

theorem Kept.l3Fill (h : Kept s t) (k row) : Kept s (t.l3Fill k row).1 := by
  unfold State.l3Fill
  split
  · exact h
  · extract_lets s1 g r c
    have k1 : Kept s (r.s.bookFor g row) := (((h.performBacks ..).l3Room ..).readFar ..).bookFor ..
    exact k1.same rfl rfl

theorem Kept.hcEvent (h : Kept s t) (k addr source) : Kept s (t.hcEvent k addr source) := by
  unfold State.hcEvent
  dsimp only
  exact (((h.bump ..).chargeEvent ..).record ..).raise ..

theorem Kept.extFail (h : Kept s t) (r) : Kept s (t.extFail r) := by
  unfold State.extFail
  exact (h.extEnd ..).ite (h.same rfl rfl)

theorem Kept.hcPerform (h : Kept s t) (k addr row c acc) : Kept s (t.hcPerform k addr row c acc) := by
  unfold State.hcPerform
  dsimp only
  split
  · refine Kept.answer ?_ ..
    split
    · exact (h.hcEvent ..).extFail ..
    · exact h.hcEvent ..
  · split
    · refine Kept.answer ?_ ..
      exact h.same rfl rfl
    · refine Kept.answer ?_ ..
      exact h.same rfl rfl

theorem Kept.hcTouch (h : Kept s t) (k line fetch) : Kept s (t.hcTouch k line fetch) := by
  unfold State.hcTouch
  dsimp only
  exact h.ite ((h.draw ..).same rfl rfl)

theorem keptOut_execL3DemandFill (t : State) (h' addr acc) : KeptOut t (execL3DemandFill h' addr acc t) := by
  unfold execL3DemandFill
  dsimp only
  have h := Kept.refl t
  refine KeptOut.live _ ?_
  refine Kept.next ?_
  refine h.hcAccess fun u h => ?_
  split
  · exact h.hcRegister ..
  · split
    · exact h.answer ..
    · split
      · exact h.answer ..
      · split
        · exact h.meetCache ..
        · refine Kept.hcPerform ?_ ..
          refine Kept.hcTouch ?_ ..
          refine Kept.l3Fill ?_ ..
          exact h.meetCache ..

theorem keptOut_execL3RangeInval (t : State) (a d rows) : KeptOut t (execL3RangeInval a d rows t) := by
  unfold execL3RangeInval
  have h := Kept.refl t
  exact keptOut_writeCmd ..

theorem keptOut_execL3RangeClean (t : State) (a d rows) : KeptOut t (execL3RangeClean a d rows t) := by
  unfold execL3RangeClean
  have h := Kept.refl t
  exact keptOut_writeCmd ..

theorem keptOut_execL3RangeFlush (t : State) (a d rows) : KeptOut t (execL3RangeFlush a d rows t) := by
  unfold execL3RangeFlush
  have h := Kept.refl t
  exact keptOut_writeCmd ..

theorem keptOut_execL3RangeEnd (t : State) (d) : KeptOut t (execL3RangeEnd d t) := by
  unfold execL3RangeEnd
  dsimp only
  have h := Kept.refl t
  refine KeptOut.live _ ?_
  split
  · exact h.next
  · exact ((((h.performBacks ..).setFld ..).setFld ..).raise ..).next

theorem keptOut_execHcBindWrite (t : State) (a h' v) : KeptOut t (execHcBindWrite a h' v t) := by
  unfold execHcBindWrite
  have h := Kept.refl t
  exact keptOut_writeCmd ..

theorem Kept.extStart (h : Kept s t) (lease slot item k map) : Kept s (t.extStart lease slot item k map) := by
  unfold State.extStart
  split
  · exact Kept.ite (h.same rfl rfl) h
  · exact h.ite (h.same rfl rfl)

theorem Kept.extHeap (h : Kept s t) (r n) : Kept s (t.extHeap r n) := by
  unfold State.extHeap
  exact (h.extEnd ..).ite (h.same rfl rfl)

theorem Kept.extOutcome (h : Kept s t) (r o) : Kept s (t.extOutcome r o) := by
  unfold State.extOutcome
  split
  · exact h.extEnd ..
  · split
    · exact h.extEnd ..
    · exact h.extEnd ..
    · exact h.extFail ..
    · exact h.extFail ..

theorem keptOut_execExtensionInvoke (t : State) (lease slot item step) : KeptOut t (execExtensionInvoke lease slot item step t) := by
  unfold execExtensionInvoke
  have h := Kept.refl t
  refine KeptOut.live _ ?_
  split
  · exact h.next
  · split
    · exact (h.extStart ..).next
    · split
      · exact h.next
      · exact (h.extHeap ..).next
    · split
      · exact h.next
      · exact (h.extOutcome ..).next

theorem keptOut_execCodeTimeLimit (t : State) (lease slot) : KeptOut t (execCodeTimeLimit lease slot t) := by
  unfold execCodeTimeLimit
  have h := Kept.refl t
  refine KeptOut.live _ ?_
  refine Kept.next ?_
  refine Kept.foldl ?_ _ fun u x h => ?_
  · exact h
  · exact h.extEnd ..

theorem keptOut_execEyeMsgWrite (t : State) (a d m k v) : KeptOut t (execEyeMsgWrite a d m k v t) := by
  unfold execEyeMsgWrite
  have h := Kept.refl t
  exact keptOut_writeCmd ..

theorem keptOut_execEyeCommit (t : State) (a d m v) : KeptOut t (execEyeCommit a d m v t) := by
  unfold execEyeCommit
  have h := Kept.refl t
  exact keptOut_writeCmd ..

theorem keptOut_readCmd (t : State) (a addr) : KeptOut t (t.readCmd a addr) := by
  unfold State.readCmd
  dsimp only
  have h := Kept.refl t
  refine KeptOut.live _ ?_
  refine Kept.next ?_
  refine h.byActor fun u h => ?_
  refine Kept.answer ?_ ..
  exact h.regRead ..

theorem keptOut_execEyeTake (t : State) (a d m) : KeptOut t (execEyeTake a d m t) := by
  unfold execEyeTake
  have h := Kept.refl t
  exact keptOut_readCmd ..

theorem keptOut_execEyeTimeout (t : State) (d m) : KeptOut t (execEyeTimeout d m t) := by
  unfold execEyeTimeout
  dsimp only
  have h := Kept.refl t
  refine KeptOut.live _ ?_
  split
  · exact h.next
  · split
    · exact h.next
    · refine Kept.next (Kept.eyeSync ?_ ..)
      exact (h.setW1c (eye RegName.EYE_STATUS ↑d ↑m) EYE_STATUS.TIMEOUT).same rfl rfl

theorem keptOut_execEyeDbSet (t : State) (a d m v) : KeptOut t (execEyeDbSet a d m v t) := by
  unfold execEyeDbSet
  have h := Kept.refl t
  exact keptOut_writeCmd ..

theorem keptOut_execEyeCfgWrite (t : State) (a d m v) : KeptOut t (execEyeCfgWrite a d m v t) := by
  unfold execEyeCfgWrite
  have h := Kept.refl t
  exact keptOut_writeCmd ..

theorem keptOut_execIcRingNoteRead (t : State) (a c) : KeptOut t (execIcRingNoteRead a c t) := by
  unfold execIcRingNoteRead
  have h := Kept.refl t
  exact keptOut_readCmd ..

theorem keptOut_execIcSwset (t : State) (a ic v) : KeptOut t (execIcSwset a ic v t) := by
  unfold execIcSwset
  have h := Kept.refl t
  exact keptOut_writeCmd ..

theorem keptOut_execIcClaim (t : State) (ic t') : KeptOut t (execIcClaim ic t' t) := by
  unfold execIcClaim
  dsimp only
  have h := Kept.refl t
  refine KeptOut.live _ ?_
  split
  · exact h.next
  · exact ((h.icClaim ..).answer ..).next

theorem keptOut_execIcComplete (t : State) (ic t' v) : KeptOut t (execIcComplete ic t' v t) := by
  unfold execIcComplete
  dsimp only
  have h := Kept.refl t
  refine KeptOut.live _ ?_
  split
  · exact h.next
  · exact (((h.icComplete ..).rrNote ..).answer ..).next

theorem keptOut_execIcPendingWrite (t : State) (a ic w v) : KeptOut t (execIcPendingWrite a ic w v t) := by
  unfold execIcPendingWrite
  have h := Kept.refl t
  exact keptOut_writeCmd ..

theorem keptOut_execRrAdvance (t : State) (ic x) : KeptOut t (execRrAdvance ic x t) := by
  unfold execRrAdvance
  dsimp only
  have h := Kept.refl t
  refine KeptOut.live _ ?_
  split
  · split
    · exact h.next
    · split
      · exact h.next
      · refine Kept.next (Kept.rrMark ?_ ..)
        exact h.same rfl rfl
  · exact h.next

theorem Kept.fifoErrors (h : Kept s t) (h' p) : Kept s (t.fifoErrors h' p) := by
  unfold State.fifoErrors
  dsimp only
  exact h.ite ((h.tally ..).tally ..)

theorem Kept.storeFifo (h : Kept s t) (x n p w) : Kept s (t.storeFifo x n p w) := by
  unfold State.storeFifo
  extract_lets rows body s1 s2 tags mine bad
  have k1 : Kept s s1 := h.withMem rfl (fun w => Memory.write_wf _ _ w)
  have k2 : Kept s s2 := k1.withMem rfl (fun w => Memory.write_wf _ _ w)
  exact k2.setRx ..

theorem Kept.storeLanding (h : Kept s t) (h' n p lease) : Kept s (t.storeLanding h' n p lease) := by
  unfold State.storeLanding
  refine Kept.foldl ?_ _ fun u x h => ?_
  · exact h
  · exact h.agentWrite ..

theorem Kept.closePacket (h : Kept s t) (x pk) : Kept s (t.closePacket x pk) := by
  unfold State.closePacket
  refine Kept.setRx ?_ _ _
  exact h.withMem rfl (fun w => Memory.write_wf _ _ w)

theorem Kept.takeCommand (h : Kept s t) (h' k x p landing) : Kept s (t.takeCommand h' k x p landing) := by
  unfold State.takeCommand
  dsimp only
  split
  · exact ((h.setSession ..).chargePort ..).tally ..
  · split
    · split
      · exact ((h.setSession ..).chargePort ..).sendIn ..
      · exact ((h.setSession ..).chargePort ..).bump ..
    · exact ((((h.setSession ..).chargePort ..).sendIn ..).bump ..).ite (((h.setSession ..).chargePort ..).ite ((((h.setSession ..).chargePort ..).setSession ..).settleCmds ..))

theorem keptOut_execHostPacketReceive (t : State) (x p) : KeptOut t (execHostPacketReceive x p t) := by
  have h := Kept.refl t
  have f := h.fecCount (.host x) p.fecCorr p.fecUncorr
  unfold execHostPacketReceive
  refine KeptOut.live _ (h.next.ite ?_)
  dsimp only
  generalize t.fecCount (.host x) p.fecCorr p.fecUncorr = u at f
  refine (f.tally ..).next.ite ((f.setRx ..).next.ite ((f.tally ..).next.ite ?_))
  have k1 := (f.storeFifo x.val (u.fld (hp .HP_FIFO_PTR x.val) HP_FIFO_PTR.TAIL) p 0).fifoErrors x.val p
  generalize (u.storeFifo x.val (u.fld (hp .HP_FIFO_PTR x.val) HP_FIFO_PTR.TAIL) p 0).fifoErrors x.val p = u1 at k1
  have k4 {q l y} := ((k1.ite (p := u1.minimal = true) (k1.storeLanding x.val (u.fld (hp .HP_LAND_PTR x.val) HP_LAND_PTR.TAIL) p l)).setRx x.val y).count (hp .HP_LAND_PTR x.val) HP_LAND_PTR.TAIL q
  have k5 {q l y a b} := ((k4 (q := q) (l := l) (y := y)).count (hp .HP_FIFO_PTR x.val) HP_FIFO_PTR.TAIL a).closePacket x.val b
  refine (k4.count ..).next.ite ((k5.bump ..).next.ite ((k5.bump ..).next.ite (k5.next.ite ?_)))
  split
  · exact (k5.takeCommand ..).next
  · exact (k5.setRx ..).next

theorem keptOut_execFifoPacketTimeout (t : State) (h') : KeptOut t (execFifoPacketTimeout h' t) := by
  unfold execFifoPacketTimeout
  dsimp only
  have h := Kept.refl t
  refine KeptOut.live _ ?_
  split
  · exact h.next
  · split
    · exact h.next
    · exact Kept.next ((((h.count ..).closePacket ..).dropPacket ..).ite ((h.count ..).closePacket ..))

theorem keptOut_execHpFifoHeadWrite (t : State) (a h' v) : KeptOut t (execHpFifoHeadWrite a h' v t) := by
  unfold execHpFifoHeadWrite
  have h := Kept.refl t
  exact keptOut_writeCmd ..

theorem keptOut_execHpLandHeadWrite (t : State) (a h' v) : KeptOut t (execHpLandHeadWrite a h' v t) := by
  unfold execHpLandHeadWrite
  have h := Kept.refl t
  exact keptOut_writeCmd ..

theorem keptOut_execDropRest (t : State) (a h' v) : KeptOut t (execDropRest a h' v t) := by
  unfold execDropRest
  have h := Kept.refl t
  exact keptOut_writeCmd ..

theorem keptOut_execHpClr (t : State) (a h' v) : KeptOut t (execHpClr a h' v t) := by
  unfold execHpClr
  have h := Kept.refl t
  exact keptOut_writeCmd ..

theorem Kept.sendClear (h : Kept s t) (h' dest st params data) : Kept s (t.sendClear h' dest st params data) := by
  unfold State.sendClear
  exact h.same rfl rfl

theorem Kept.offer (h : Kept s t) (h' slot v w hello key peer) : Kept s (t.offer h' slot v w hello key peer) := by
  unfold State.offer
  dsimp only
  exact ((h.draw ..).setSession ..).sendClear ..

theorem keptOut_execHello (t : State) (h' verMin verMax window key) : KeptOut t (execHello h' verMin verMax window key t) := by
  unfold execHello
  dsimp only
  have h := Kept.refl t
  refine KeptOut.live _ ?_
  split
  · exact h.next
  · split
    · exact ((h.setRx ..).sendClear ..).next
    · split
      · exact ((h.setRx ..).sendClear ..).next
      · split
        · exact ((h.setRx ..).sendClear ..).next
        · exact ((h.setRx ..).offer ..).next

theorem Kept.landRead (h : Kept s t) (h' lease l) : Kept s (t.landRead h' lease l).1 := by
  unfold State.landRead
  dsimp only
  refine Kept.foldlOn Prod.fst ?_ _ fun u x h => ?_
  · exact h
  · exact h.agentRead ..

theorem keptOut_execAuth (t : State) (q role keyDigest sig) : KeptOut t (execAuth q role keyDigest sig t) := by
  unfold execAuth
  dsimp only
  have h := Kept.refl t
  refine KeptOut.live _ ?_
  split
  · exact h.next
  · split
    · exact (h.reply ..).next
    · split
      · exact (((h.landRead ..).reply ..).freeSession ..).next
      · refine Kept.next (Kept.reply (Kept.onSession (Kept.ite ?_ (h.landRead ..)) ..) ..)
        exact (h.landRead ..).same rfl rfl

theorem keptOut_execAuthTimeout (t : State) (h' session) : KeptOut t (execAuthTimeout h' session t) := by
  unfold execAuthTimeout
  have h := Kept.refl t
  refine KeptOut.live _ ?_
  split
  · exact h.next
  · split
    · exact h.next
    · exact (h.freeSession ..).next

theorem Kept.onCmd (h : Kept s t) (k seq f) : Kept s (t.onCmd k seq f) := by
  unfold State.onCmd
  exact h.onSession ..

theorem Kept.beginCmd (h : Kept s t) (k seq bound) : Kept s (t.beginCmd k seq bound) := by
  unfold State.beginCmd
  exact h.onCmd ..

theorem Kept.holdCmd (h : Kept s t) (k seq bound done) : Kept s (t.holdCmd k seq bound done) := by
  unfold State.holdCmd
  exact h.onCmd ..

theorem Kept.dcp (h : Kept s t) {q : DcpHdr} {o plen bound : Nat} {dlenOk paramOk leaseOk : Bool} {act : State → Nat → Session → State × DcpOut}
    (e : ∀ u k x, Kept s u → Kept s (act u k x).1) : Kept s (t.dcp q o plen dlenOk paramOk leaseOk bound act) := by
  unfold State.dcp
  split
  · exact h
  next k x _ =>
    have r := h.landRead q.port.val x.lease (x.landing q.seq)
    dsimp only
    split
    · exact r.reply ..
    · have a := e _ k x r
      split
      · exact a.reply ..
      · exact a.beginCmd ..
      · exact a.holdCmd ..
      · exact (a.replyOne ..).freeSession ..

theorem keptOut_execClose (t : State) (q) : KeptOut t (execClose q t) := by
  unfold execClose
  have h := Kept.refl t
  refine KeptOut.live _ ?_
  refine Kept.next ?_
  refine h.dcp fun u k x h => ?_
  exact h

theorem keptOut_execKeepalive (t : State) (q) : KeptOut t (execKeepalive q t) := by
  unfold execKeepalive
  have h := Kept.refl t
  refine KeptOut.live _ ?_
  refine Kept.next ?_
  refine h.dcp fun u k x h => ?_
  exact h

theorem keptOut_execEventAck (t : State) (q evseq) : KeptOut t (execEventAck q evseq t) := by
  unfold execEventAck
  have h := Kept.refl t
  refine KeptOut.live _ ?_
  refine Kept.next ?_
  refine h.dcp fun u k x h => ?_
  exact h.onSession ..

theorem keptOut_execIdentify (t : State) (q) : KeptOut t (execIdentify q t) := by
  unfold execIdentify
  have h := Kept.refl t
  refine KeptOut.live _ ?_
  refine Kept.next ?_
  refine h.dcp fun u k x h => ?_
  exact h

theorem keptOut_execAttest (t : State) (q nonce) : KeptOut t (execAttest q nonce t) := by
  unfold execAttest
  dsimp only
  have h := Kept.refl t
  refine KeptOut.live _ ?_
  refine Kept.next ?_
  refine h.dcp fun u k x h => ?_
  exact h

theorem keptOut_execStartRecord (t : State) (q) : KeptOut t (execStartRecord q t) := by
  unfold execStartRecord
  have h := Kept.refl t
  refine KeptOut.live _ ?_
  refine Kept.next ?_
  refine h.dcp fun u k x h => ?_
  exact h

theorem Kept.readAll (h : Kept s t) (a l) : Kept s (t.readAll a l).1 := by
  induction l generalizing t with
  | nil => exact h
  | cons x l ih =>
    unfold State.readAll
    split
    · exact h
    · dsimp only
      split
      · exact h.regRead ..
      · exact ih (h.regRead ..)

theorem keptOut_execRegRead (t : State) (q addrs) : KeptOut t (execRegRead q addrs t) := by
  unfold execRegRead
  dsimp only
  have h := Kept.refl t
  refine KeptOut.live _ ?_
  refine Kept.next ?_
  refine h.dcp fun u k x h => ?_
  split
  · exact h.readAll ..
  · exact h

theorem Kept.frameTurn (h : Kept s t) (d g ses seq) : Kept s (t.frameTurn d g ses seq).1 := by
  unfold State.frameTurn
  dsimp only
  split
  · exact h.arrivals ..
  · split
    · exact (h.arrivals ..).setRun ..
    · split
      · exact h.arrivals ..
      · exact (h.arrivals ..).setRun ..

theorem Kept.writeTurn (h : Kept s t) (a ses seq addr) : Kept s (t.writeTurn a ses seq addr).1 := by
  unfold State.writeTurn
  split
  · split
    · exact h.frameTurn ..
    · exact h
  · exact h

theorem Kept.writeAll (h : Kept s t) (a ses seq l n) : Kept s (t.writeAll a ses seq l n).1 := by
  induction l generalizing t n with
  | nil => exact h
  | cons x l ih =>
    have w := h.writeTurn a ses seq x.1
    unfold State.writeAll
    dsimp only
    split
    · exact w
    · split
      · exact w.regWrite ..
      · exact ih (w.regWrite ..) _

theorem keptOut_execRegWrite (t : State) (q writes) : KeptOut t (execRegWrite q writes t) := by
  unfold execRegWrite
  dsimp only
  have h := Kept.refl t
  refine KeptOut.live _ ?_
  refine Kept.next ?_
  refine h.dcp fun u k x h => ?_
  split
  · exact h.writeAll ..
  · exact h.writeAll ..

theorem Kept.memAsk (h : Kept s t) (g rows) : Kept s (t.memAsk g rows) := by
  unfold State.memAsk
  refine Kept.foldl ?_ _ fun u x h => ?_
  · exact h
  · split
    · exact h.bookFor ..
    · exact h

theorem Kept.memBegin (h : Kept s t) (k seq a len) : Kept s (t.memBegin k seq a len) := by
  unfold State.memBegin
  exact h.onCmd ..

theorem keptOut_execMemRead (t : State) (q addr len) : KeptOut t (execMemRead q addr len t) := by
  unfold execMemRead
  have h := Kept.refl t
  refine KeptOut.live _ ?_
  refine Kept.next ?_
  refine h.dcp fun u k x h => ?_
  split
  · exact h
  · refine Kept.memAsk ?_ ..
    exact h.memBegin ..

theorem Kept.memPut (h : Kept s t) (g a data r) : Kept s (t.memPut g a data r) := by
  unfold State.memPut
  dsimp only
  exact h.agentPut ..

theorem Kept.memPutAll (h : Kept s t) (g a data rows) : Kept s (t.memPutAll g a data rows) := by
  unfold State.memPutAll
  refine Kept.foldl ?_ _ fun u x h => ?_
  · exact h
  · exact h.memPut ..

theorem keptOut_execMemWrite (t : State) (q addr len data) : KeptOut t (execMemWrite q addr len data t) := by
  unfold execMemWrite
  have h := Kept.refl t
  refine KeptOut.live _ ?_
  refine Kept.next ?_
  refine h.dcp fun u k x h => ?_
  split
  · exact h
  · refine Kept.memPutAll ?_ ..
    exact h.memBegin ..

theorem Kept.newTenant (h : Kept s t) (n) : Kept s (t.newTenant n) := by
  unfold State.newTenant
  dsimp only
  refine Kept.resetReg (Kept.resetReg (Kept.setReg ?_ ..) ..) ..
  exact h.same rfl rfl

theorem keptOut_execLeaseCreate (t : State) (q lease vc shares seed) : KeptOut t (execLeaseCreate q lease vc shares seed t) := by
  have h := Kept.refl t
  unfold execLeaseCreate
  refine KeptOut.live _ ?_
  split
  · exact h.next
  · refine Kept.next (h.dcp fun u k x h => ?_)
    extract_lets n v w y
    have kw : Kept t w := ((((h.resetReg ..).setLeaseState ..).setFld ..).setFld ..).setReg ..
    have ky : Kept t y := Kept.foldl (t := { w with energyBytes := tdel w.energyBytes n }) (kw.same rfl rfl) _ fun _ _ h => h.resetReg _
    split
    · exact h
    · exact ky.newTenant ..

theorem Kept.groupRead (h : Kept s t) (kind first) : Kept s (t.groupRead kind first).1 := by
  unfold State.groupRead
  dsimp only
  split
  · exact h
  · exact (h.collBlock ..).collBlock ..

theorem Kept.takeCore (h : Kept s t) (k n) : Kept s (t.takeCore k n) := by
  unfold State.takeCore
  dsimp only
  exact (((h.scrubCore ..).onCore ..).setFld ..).setFld ..

theorem Kept.shareCore (h : Kept s t) (k n) : Kept s (t.shareCore k n) := by
  unfold State.shareCore
  dsimp only
  exact Kept.onCore (Kept.setReg (Kept.setFld (Kept.setFld ((((h.scrubCore ..).onCore ..).setFld ..).ite h) ..) ..) ..) ..

theorem Kept.dropFrameLines (h : Kept s t) (p) : Kept s (t.dropFrameLines p) := by
  unfold State.dropFrameLines
  exact h.same rfl rfl

theorem Kept.zeroExtent (h : Kept s t) (row n) : Kept s (t.zeroExtent row n) := by
  unfold State.zeroExtent
  exact (h.dropFrameLines _).withMem rfl (fun w => Memory.zeroRows_wf _ _ w)

theorem Kept.setOwner (h : Kept s t) (kind k n) : Kept s (t.setOwner kind k n) := by
  unfold State.setOwner
  exact h.same rfl rfl

theorem Kept.takeAt (h : Kept s t) (kind first i n) : Kept s (t.takeAt kind first i n) := by
  unfold State.takeAt
  dsimp only
  split
  · exact (h.setReg ..).setOwner ..
  · exact h.setReg ..
  · exact ((h.hcSetBind ..).setFld ..).bump ..
  · exact (h.setFld ..).setOwner ..
  · exact (h.setFld ..).setOwner ..
  · refine Kept.foldl ?_ _ fun u x h => ?_
    · exact h
    · refine Kept.setFld ?_ ..
      exact h.setFld ..
  · refine Kept.setOwner ?_ ..
    refine Kept.foldl ?_ _ fun u x h => ?_
    · exact h
    · exact h.setFld ..
  · exact (h.eyeZero ..).setReg ..
  · exact ((h.setReg ..).collFresh ..).setReg ..
  · exact ((h.resetReg ..).setFld ..).setOwner ..
  · exact h

theorem Kept.take (h : Kept s t) (kind first count n) : Kept s (t.take kind first count n) := by
  unfold State.take
  dsimp only
  split
  · exact h.foldl _ fun _ _ h => h.takeCore ..
  · exact h.foldl _ fun _ _ h => h.shareCore ..
  · refine Kept.setReg ?_ _ _
    exact h.withMem rfl (fun w => Memory.zeroRows_wf _ _ w)
  · exact h.same rfl rfl
  · exact h.same rfl rfl
  · exact (h.zeroExtent (siteRow (siteOf first) + bits first 35 0 / 512) (count / 512)).same rfl rfl
  · exact h.foldl _ fun _ _ h => h.takeAt ..

theorem keptOut_execLeaseBind (t : State) (q lease kind first count) : KeptOut t (execLeaseBind q lease kind first count t) := by
  unfold execLeaseBind
  dsimp only
  have h := Kept.refl t
  refine KeptOut.live _ ?_
  split
  · exact h.next
  · refine Kept.next ?_
    refine h.dcp fun u k x h => ?_
    split
    · exact h.groupRead ..
    · split
      · exact h.groupRead ..
      · refine Kept.take ?_ ..
        exact h.groupRead ..

theorem Kept.unbind (h : Kept s t) (q op plen n dest kind first count) : Kept s (t.unbind q op plen n dest kind first count) := by
  unfold State.unbind
  refine h.dcp fun u k x h => ?_
  extract_lets g v w
  have r : Kept s g.1 := by
    unfold g
    split
    · exact h.groupRead ..
    · exact h
  have b : Kept s w := r.same rfl rfl
  split
  · exact r
  · exact b.quiesceStart ..

theorem keptOut_execLeaseUnbind (t : State) (q lease kind first count) : KeptOut t (execLeaseUnbind q lease kind first count t) := by
  unfold execLeaseUnbind
  have h := Kept.refl t
  refine KeptOut.live _ ?_
  split
  · exact h.next
  · exact (h.unbind ..).next

theorem keptOut_execLeaseRebind (t : State) (q src dst kind first count) : KeptOut t (execLeaseRebind q src dst kind first count t) := by
  unfold execLeaseRebind
  have h := Kept.refl t
  refine KeptOut.live _ ?_
  split
  · exact h.next
  · exact (h.unbind ..).next

theorem Kept.leaveCore (h : Kept s t) (k dest shared) : Kept s (t.leaveCore k dest shared) := by
  unfold State.leaveCore
  dsimp only
  exact ((h.setReg ..).setReg ..).onCore ..

theorem Kept.unshareCore (h : Kept s t) (k n) : Kept s (t.unshareCore k n) := by
  unfold State.unshareCore
  dsimp only
  split
  · exact h
  · exact ((h.setFld ..).setReg ..).onCore ..

theorem Kept.stackHalt (h : Kept s t) (d g) : Kept s (t.stackHalt d g) := by
  unfold State.stackHalt
  dsimp only
  exact (h.dropReqs ..).same rfl rfl

theorem Kept.stackOff (h : Kept s t) (d g) : Kept s (t.stackOff d g) := by
  unfold State.stackOff
  exact ((h.setFld ..).clearStack ..).stackHalt ..

theorem Kept.leavePart (h : Kept s t) (d p dest) : Kept s (t.leavePart d p dest) := by
  unfold State.leavePart
  dsimp only
  split
  · refine Kept.setFld ?_ ..
    refine Kept.scrubPart ?_ ..
    refine Kept.foldl ?_ _ fun u x h => ?_
    · refine Kept.foldl ?_ _ fun u x h => ?_
      · exact h
      · split
        · exact h.stackOff ..
        · exact h
    · split
      · exact h.setFld ..
      · exact h
  · refine Kept.setFld ?_ ..
    refine Kept.scrubPart ?_ ..
    refine Kept.foldl ?_ _ fun u x h => ?_
    · refine Kept.foldl ?_ _ fun u x h => ?_
      · exact h
      · split
        · exact h.stackOff ..
        · exact h
    · split
      · exact h.setFld ..
      · exact h

theorem Kept.dropFrames (h : Kept s t) (pkg d first count) : Kept s (t.dropFrames pkg d first count) := by
  unfold State.dropFrames
  exact h.same rfl rfl

theorem Kept.cleanFrames (h : Kept s t) (pkg d first count) : Kept s (t.cleanFrames pkg d first count) := by
  unfold State.cleanFrames
  extract_lets blk n sts mine u
  have k : Kept s u := ((h.dropRows ..).dropFrameLines ..).dropReqs ..
  exact k.withMem rfl fun w => Memory.foldl_wf _ (fun _ _ w => Memory.setTags_wf _ _ w) w

theorem Kept.dropExtents (h : Kept s t) (site first count) : Kept s (t.dropExtents site first count) := by
  unfold State.dropExtents
  exact h.same rfl rfl

theorem Kept.resetRing (h : Kept s t) (d i) : Kept s (t.resetRing d i) := by
  unfold State.resetRing
  refine Kept.dropClaims ?_ ..
  refine Kept.foldl ?_ _ fun u x h => ?_
  · exact h
  · exact h.resetReg ..

theorem Kept.weltRelease (h : Kept s t) (hs first n) : Kept s (t.weltRelease hs first n) := by
  unfold State.weltRelease
  dsimp only
  refine Kept.foldl ?_ _ fun u x h => ?_
  · refine Kept.foldl ?_ _ fun u x h => ?_
    · exact (h.weltCloseStep ..).ite h
    · exact h.setFld ..
  · split
    · exact h.setFld ..
    · exact h

theorem Kept.leaveAt (h : Kept s t) (kind d i n) : Kept s (t.leaveAt kind d i n) := by
  unfold State.leaveAt
  dsimp only
  split
  · exact (h.resetRing ..).setOwner ..
  · exact h.setFld ..
  · exact ((h.hcSetBind ..).setFld ..).setFld ..
  · exact ((h.stackOff ..).setFld ..).setOwner ..
  · exact (h.setFld ..).setOwner ..
  · refine Kept.foldl ?_ _ fun u x h => ?_
    · exact h
    · exact h.weltRelease ..
  · refine Kept.setOwner ?_ ..
    refine Kept.foldl ?_ _ fun u x h => ?_
    · exact h
    · exact h.setFld ..
  · exact (h.eyeZero ..).setFld ..
  · exact h.setFld ..
  · exact (h.setFld ..).setOwner ..
  · exact h

theorem Kept.leaveAll (h : Kept s t) (n) : Kept s (t.leaveAll n) := by
  unfold State.leaveAll
  dsimp only
  refine Kept.foldl ?_ _ fun u x h => ?_
  · refine Kept.foldl ?_ _ fun u x h => ?_
    · refine Kept.foldl ?_ _ fun u x h => ?_
      · refine Kept.foldl ?_ _ fun u x h => ?_
        · refine Kept.foldl ?_ _ fun u x h => ?_
          · refine Kept.foldl ?_ _ fun u x h => ?_
            · refine Kept.foldl ?_ _ fun u x h => ?_
              · exact h
              · refine Kept.foldl ?_ _ fun u x h => ?_
                · exact h
                · split
                  · exact h.leaveCore ..
                  · split
                    · split
                      · exact h.leaveCore ..
                      · exact h.unshareCore ..
                    · exact h
            · refine Kept.foldl ?_ _ fun u x h => ?_
              · exact h
              · exact h.leavePart ..
          · refine Kept.dropFrames ?_ ..
            exact h.cleanFrames ..
        · refine Kept.zeroExtent ?_ ..
          refine Kept.dropExtents ?_ ..
          exact h.dropRows ..
      · exact h.leaveAt ..
    · refine Kept.foldl ?_ _ fun u x h => ?_
      · refine Kept.foldl ?_ _ fun u x h => ?_
        · refine Kept.foldl ?_ _ fun u x h => ?_
          · refine Kept.foldl ?_ _ fun u x h => ?_
            · exact h
            · split
              · exact h.leaveAt ..
              · exact h
          · split
            · exact h.leaveAt ..
            · exact h
        · split
          · exact h.leaveAt ..
          · exact h
      · split
        · exact h.leaveAt ..
        · exact h
  · split
    · exact h.leaveAt ..
    · exact h

theorem Kept.shareOver (h : Kept s t) (k n m) : Kept s (t.shareOver k n m) := by
  unfold State.shareOver
  dsimp only
  exact (((h.unshareCore ..).shareCore ..).onCore ..).ite ((h.unshareCore ..).shareCore ..)

theorem Kept.leave (h : Kept s t) (kind first count n dest) : Kept s (t.leave kind first count n dest) := by
  unfold State.leave
  dsimp only
  split
  · refine Kept.foldl ?_ _ fun u x h => ?_
    · exact h
    · exact h.leaveCore ..
  · refine Kept.foldl ?_ _ fun u x h => ?_
    · exact h
    · split
      · exact h.leaveCore ..
      · split
        · exact h.shareOver ..
        · exact h.unshareCore ..
  · refine Kept.foldl ?_ _ fun u x h => ?_
    · exact h
    · exact h.leavePart ..
  · split
    · exact ((h.cleanFrames ..).dropFrames ..).take ..
    · exact (h.cleanFrames ..).dropFrames ..
  · split
    · exact ((h.cleanFrames ..).dropFrames ..).take ..
    · exact (h.cleanFrames ..).dropFrames ..
  · split
    · exact (((h.dropRows ..).dropExtents ..).zeroExtent ..).take ..
    · exact ((h.dropRows ..).dropExtents ..).zeroExtent ..
  · split
    · refine Kept.take ?_ ..
      refine Kept.foldl ?_ _ fun u x h => ?_
      · exact h
      · exact h.leaveAt ..
    · refine Kept.foldl ?_ _ fun u x h => ?_
      · exact h
      · exact h.leaveAt ..

theorem Kept.setFlds (h : Kept s t) (f : Nat → Reg) (x : Fld) (v : Nat) (l : List Nat) : Kept s (l.foldl (fun s b => s.setFld (f b) x v) t) := h.foldl l fun _ _ h => h.setFld ..

theorem Kept.quiesceEnd (h : Kept s t) (q st) : Kept s (t.quiesceEnd q st) := by
  have k0 : Kept s { t with quiesces := t.quiesces.erase q } := h.same rfl rfl
  unfold State.quiesceEnd
  extract_lets v all keep w
  have kv : Kept s v := k0.setFlds _ _ _ _
  have kw : Kept s w := (kv.setLeaseState ..).ite kv
  clear_value w
  split
  · exact kw
  · exact kw.reply ..
  · split
    · exact kw
    next b _ =>
      have kb : Kept s { w with binding := some { b with released := true, status := st } } := kw.same rfl rfl
      dsimp only
      generalize ({ w with binding := some { b with released := true, status := st } } : State) = x at kb
      exact Kept.bindingEnd (kb.ite ((kb.leaveAll ..).ite (kb.leave ..)))

theorem keptOut_execQuiesceComplete (t : State) (lease) : KeptOut t (execQuiesceComplete lease t) := by
  unfold execQuiesceComplete
  have h := Kept.refl t
  refine KeptOut.live _ ?_
  split
  · exact h.next
  · exact (h.quiesceEnd ..).next

theorem Kept.abandon (h : Kept s t) (sc l n) : Kept s (t.abandon sc l n) := by
  unfold State.abandon
  dsimp only
  exact h.same rfl rfl

theorem Kept.outcomeState (h : Kept s t) {o : Host.Outcome State Fault Refusal} (k : KeptOut t o) : Kept s (outcomeState t o) := by
  unfold Machine.outcomeState
  split
  next u => exact h.trans (k.state u rfl)
  · exact h

theorem Kept.forceCore (h : Kept s t) (k) : Kept s (t.forceCore k) := by
  unfold State.forceCore
  split
  · exact h
  · split
    · exact h.outcomeState (keptOut_execKernelComplete ..)
    · refine Kept.finishKernel ?_ _ _ _
      exact ((h.onCore k _).dropReqs (ofCore k)).same rfl rfl

theorem Kept.force (h : Kept s t) (q) : Kept s (t.force q) := by
  unfold State.force
  dsimp only
  refine Kept.dropReqs ?_ ..
  refine Kept.foldl ?_ _ fun u x h => ?_
  · refine Kept.abandon ?_ ..
    refine Kept.foldl ?_ _ fun u x h => ?_
    · exact h
    · exact h.forceCore ..
  · split
    · split
      · exact h.stackHalt ..
      · exact h
    · split
      · exact h.stackHalt ..
      · exact h
    · split
      · exact h.stackHalt ..
      · exact h

theorem keptOut_execQuiesceTimeout (t : State) (lease) : KeptOut t (execQuiesceTimeout lease t) := by
  unfold execQuiesceTimeout
  have h := Kept.refl t
  refine KeptOut.live _ ?_
  split
  · exact h.next
  · exact ((h.force ..).quiesceEnd ..).next

theorem Kept.abortRing (h : Kept s t) (k seq n target) : Kept s (t.abortRing k seq n target).1 := by
  unfold State.abortRing
  dsimp only
  split
  · exact h
  · split
    · split
      · exact h
      · split
        · exact h.quiesceStart ..
        · split
          · exact h.setFld ..
          · exact h
    · split
      · exact h
      · split
        · exact h.quiesceStart ..
        · split
          · exact h.setFld ..
          · exact h

theorem Kept.abortCommand (h : Kept s t) (own seq n target) : Kept s (t.abortCommand own seq n target).1 := by
  unfold State.abortCommand
  dsimp only
  split
  · exact h
  · split
    · exact h
    · split
      · exact h
      · split
        · exact h
        · split
          · exact (h.snapAbort ..).ite (h.stopCmd ..)
          · exact (h.onSession ..).settleCmds ..

theorem keptOut_execLeaseAbort (t : State) (q lease scope target) : KeptOut t (execLeaseAbort q lease scope target t) := by
  unfold execLeaseAbort
  dsimp only
  have h := Kept.refl t
  refine KeptOut.live _ ?_
  split
  · exact h.next
  · refine Kept.next ?_
    refine h.dcp fun u k x h => ?_
    split
    · exact h
    · split
      · split
        · exact h
        · refine Kept.quiesceStart ?_ ..
          exact h.same rfl rfl
      · exact h.abortRing ..
      · exact h.abortCommand ..

theorem keptOut_execLeaseKey (t : State) (q lease digest) : KeptOut t (execLeaseKey q lease digest t) := by
  unfold execLeaseKey
  have h := Kept.refl t
  refine KeptOut.live _ ?_
  refine Kept.next ?_
  refine h.dcp fun u k x h => ?_
  split
  · exact h
  · exact h.same rfl rfl

theorem keptOut_execLeaseAcct (t : State) (q lease) : KeptOut t (execLeaseAcct q lease t) := by
  unfold execLeaseAcct
  dsimp only
  have h := Kept.refl t
  refine KeptOut.live _ ?_
  refine Kept.next ?_
  refine h.dcp fun u k x h => ?_
  exact h

theorem Kept.promptIn (h : Kept s t) (n id adapter maxNew more text) : Kept s (t.promptIn n id adapter maxNew more text) := by
  unfold State.promptIn
  exact Kept.ite (h.same rfl rfl) (h.same rfl rfl)

theorem keptOut_execPromptSubmit (t : State) (q prompt adapter maxNew more text) : KeptOut t (execPromptSubmit q prompt adapter maxNew more text t) := by
  unfold execPromptSubmit
  have h := Kept.refl t
  refine KeptOut.live _ ?_
  refine Kept.next ?_
  refine h.dcp fun u k x h => ?_
  exact h.promptIn ..

theorem keptOut_execRolloutFetch (t : State) (q prompt maxBytes) : KeptOut t (execRolloutFetch q prompt maxBytes t) := by
  unfold execRolloutFetch
  dsimp only
  have h := Kept.refl t
  refine KeptOut.live _ ?_
  refine Kept.next ?_
  refine h.dcp fun u k x h => ?_
  split
  · exact h
  · split
    · exact h
    · exact h.same rfl rfl

theorem keptOut_execDataPush (t : State) (q stream records data) : KeptOut t (execDataPush q stream records data t) := by
  unfold execDataPush
  dsimp only
  have h := Kept.refl t
  refine KeptOut.live _ ?_
  refine Kept.next ?_
  refine h.dcp fun u k x h => ?_
  exact h.same rfl rfl

theorem Kept.codeChunk (h : Kept s t) (n slot final offset total chunk) : Kept s (t.codeChunk n slot final offset total chunk).1 := by
  unfold State.codeChunk
  dsimp only
  split
  · exact h
  · split
    · exact h.same rfl rfl
    · split
      · split
        · exact h
        · exact h.same rfl rfl
      · split
        · exact h
        · exact h.same rfl rfl

theorem keptOut_execCodeLoad (t : State) (q slot final offset total chunk) : KeptOut t (execCodeLoad q slot final offset total chunk t) := by
  unfold execCodeLoad
  dsimp only
  have h := Kept.refl t
  refine KeptOut.live _ ?_
  refine Kept.next ?_
  refine h.dcp fun u k x h => ?_
  split
  · exact h
  · exact h.codeChunk ..

theorem keptOut_execCodeLimits (t : State) (q slot timeMs heap) : KeptOut t (execCodeLimits q slot timeMs heap t) := by
  unfold execCodeLimits
  dsimp only
  have h := Kept.refl t
  refine KeptOut.live _ ?_
  refine Kept.next ?_
  refine h.dcp fun u k x h => ?_
  exact h.same rfl rfl

theorem Kept.stopLease (h : Kept s t) (n cmd restore id b re) : Kept s (t.stopLease n cmd restore id b re) := by
  unfold State.stopLease
  extract_lets u
  have k : Kept s u := h.foldl _ fun _ _ h => h.hcFlush ..
  exact k.same rfl rfl

theorem keptOut_execSnapshotTake (t : State) (q) : KeptOut t (execSnapshotTake q t) := by
  unfold execSnapshotTake
  dsimp only
  have h := Kept.refl t
  refine KeptOut.live _ ?_
  refine Kept.next ?_
  refine h.dcp fun u k x h => ?_
  split
  · exact h
  · exact h.stopLease ..

theorem Kept.snapReply (h : Kept s t) (o st params) : Kept s (t.snapReply o st params) := by
  unfold State.snapReply
  split
  · exact h.reply ..
  · exact h

theorem Kept.stopEnded (h : Kept s t) (o) : Kept s (t.stopEnded o) := by
  unfold State.stopEnded
  refine Kept.setFld ?_ ..
  exact h.same rfl rfl

theorem Kept.snapFetch (h : Kept s t) (n a bytes) : Kept s (t.snapFetch n a bytes).1 := by
  unfold State.snapFetch
  dsimp only
  refine Kept.foldlOn Prod.fst ?_ _ fun u x h => ?_
  · exact h
  · exact h.agentRead ..

theorem Kept.snapImage (h : Kept s t) (n id) : Kept s (t.snapImage n id).1 := by
  unfold State.snapImage
  dsimp only
  refine Kept.foldlOn Prod.fst ?_ _ fun u x h => ?_
  · exact h
  · refine Kept.foldlOn Prod.fst ?_ _ fun u x h => ?_
    · exact h
    · exact h.snapFetch ..

theorem Kept.stageCount (h : Kept s t) (n) : Kept s (t.stageCount n) := by
  unfold State.stageCount
  exact (h.setFld ..).setFld ..

theorem Kept.stageNew (h : Kept s t) (n id b got) : Kept s (t.stageNew n id b got) := by
  unfold State.stageNew
  extract_lets u
  have k : Kept s u := by
    unfold u
    split
    · exact h.same rfl rfl
    · exact h
  refine Kept.stageCount ?_ _
  exact k.same rfl rfl

theorem Kept.clearTag (h : Kept s t) (row) : Kept s (t.clearTag row) := by
  unfold State.clearTag
  split
  · exact h.same rfl rfl
  · exact h

theorem Kept.writeDram (h : Kept s t) (row img) : Kept s (t.writeDram row img) := by
  unfold State.writeDram
  dsimp only
  exact ((((h.clearTag ..).dropLines ..).uncopy ..).meetParity ..).storeRow ..

theorem Kept.writeFar (h : Kept s t) (row img) : Kept s (t.writeFar row img) := by
  unfold State.writeFar
  exact (h.writeDram ..).ite (h.storeRow ..)

theorem Kept.stageWrite (h : Kept s t) (x off l) : Kept s (t.stageWrite x off l) := by
  unfold State.stageWrite
  dsimp only
  refine Kept.foldl ?_ _ fun u x h => ?_
  · exact h
  · refine Kept.chargeBytes ?_ ..
    exact h.writeFar ..

theorem Kept.interval (h : Kept s t) (n) : Kept s (t.interval n) := by
  unfold State.interval
  dsimp only
  exact (h.setFld ..).setFld ..

theorem Kept.takeEnd (h : Kept s t) (o) : Kept s (t.takeEnd o) := by
  unfold State.takeEnd
  extract_lets n id im s1 b s2 s3 s4
  have k1 : Kept s s1 := (h.snapImage ..).stopEnded ..
  have k2 : Kept s s2 := by
    unfold s2
    clear_value s1
    refine Kept.stageNew ?_ _ _ _ _
    exact k1.same rfl rfl
  have k3 : Kept s s3 := by
    unfold s3
    clear_value s2
    split
    · exact k2.stageWrite ..
    · exact k2
  clear_value s1 s3
  split
  · exact k1.snapReply ..
  · exact ((k3.interval ..).snapReply ..).postEvent ..

theorem Kept.stopEnd (h : Kept s t) (o) : Kept s (t.stopEnd o) := by
  unfold State.stopEnd
  exact ((h.stopEnded ..).snapReply ..).ite (h.takeEnd ..)

theorem keptOut_execSnapshotStopEnd (t : State) (lease) : KeptOut t (execSnapshotStopEnd lease t) := by
  unfold execSnapshotStopEnd
  have h := Kept.refl t
  refine KeptOut.live _ ?_
  split
  · exact h.next
  · split
    · exact h.next
    · exact (h.stopEnd ..).next

theorem Kept.stageRead (h : Kept s t) (x off n) : Kept s (t.stageRead x off n).1 := by
  unfold State.stageRead
  exact Kept.foldlOn (σ := State × List Byte × Bool) Prod.fst h _ fun a j h => (h.readFar (a.1.stageRow x (off / 512 + j)) (some x.lease)).chargeBytes (some x.lease) _ 512

theorem keptOut_execSnapshotPull (t : State) (q id offset len) : KeptOut t (execSnapshotPull q id offset len t) := by
  unfold execSnapshotPull
  dsimp only
  have h := Kept.refl t
  refine KeptOut.live _ ?_
  refine Kept.next ?_
  refine h.dcp fun u k x h => ?_
  split
  · exact h
  · split
    · exact h
    · split
      · exact h.stageRead ..
      · exact h.stageRead ..

theorem Kept.pushInto (h : Kept s t) (im off data) : Kept s (t.pushInto im off data).1 := by
  unfold State.pushInto
  split
  · exact h
  · exact (h.stageWrite im off data).same rfl rfl

theorem keptOut_execSnapshotPush (t : State) (q id offset data) : KeptOut t (execSnapshotPush q id offset data t) := by
  unfold execSnapshotPush
  dsimp only
  have h := Kept.refl t
  refine KeptOut.live _ ?_
  refine Kept.next ?_
  refine h.dcp fun u k x h => ?_
  split
  · exact h
  · split
    · exact h.pushInto ..
    · split
      · exact h
      · split
        · exact h
        · split
          · refine Kept.pushInto ?_ ..
            exact h.stageNew ..
          · exact h.stageNew ..

theorem Kept.restoreRefused (h : Kept s t) (n st) : Kept s (t.restoreRefused n st).1 := by
  unfold State.restoreRefused
  exact h.setFld ..

theorem Kept.snapStore (h : Kept s t) (n a l) : Kept s (t.snapStore n a l) := by
  unfold State.snapStore
  dsimp only
  refine Kept.foldl ?_ _ fun u x h => ?_
  · exact h
  · split
    · exact h
    · exact h.agentPut ..

theorem Kept.weltCopy (h : Kept s t) (g l t' x rows) : Kept s (t.weltCopy g l t' x rows) := by
  unfold State.weltCopy
  dsimp only
  split
  · exact h
  · refine Kept.foldl ?_ _ fun u x h => ?_
    · exact h
    · exact h.agentPut ..

theorem Kept.restoreLayer (h : Kept s t) (n img r) : Kept s (t.restoreLayer n img r) := by
  unfold State.restoreLayer
  dsimp only
  split
  · refine Kept.foldlOn Prod.fst ?_ _ fun u x h => ?_
    · exact h
    · exact h.snapStore ..
  · refine Kept.weltCopy ?_ ..
    refine Kept.foldlOn Prod.fst ?_ _ fun u x h => ?_
    · exact h
    · exact h.snapStore ..

theorem Kept.restoreEpoch (h : Kept s t) (r) : Kept s (t.restoreEpoch r) := by
  unfold State.restoreEpoch
  dsimp only
  refine Kept.foldl ?_ _ fun u x h => ?_
  · exact h
  · refine Kept.putBit ?_ ..
    refine Kept.setFld ?_ ..
    refine Kept.setFld ?_ ..
    refine Kept.setFld ?_ ..
    exact h.setFld ..

theorem Kept.restoreGroup (h : Kept s t) (g) : Kept s (t.restoreGroup g) := by
  unfold State.restoreGroup
  dsimp only
  refine Kept.foldl ?_ _ fun u x h => ?_
  · exact h
  · refine Kept.setFld ?_ ..
    refine Kept.setFld ?_ ..
    refine Kept.setFld ?_ ..
    exact h.setFld ..

theorem Kept.restoreRecord (h : Kept s t) (n img) : Kept s (t.restoreRecord n img) := by
  unfold State.restoreRecord
  dsimp only
  exact ((((h.setFld ..).setFld ..).setFld ..).setFld ..).setFld ..

theorem Kept.restoreStreams (h : Kept s t) (n img) : Kept s (t.restoreStreams n img) := by
  unfold State.restoreStreams
  dsimp only
  refine Kept.foldl ?_ _ fun u x h => ?_
  · exact h.setFld ..
  · exact h.same rfl rfl

theorem Kept.restoreImage (h : Kept s t) (n img) : Kept s (t.restoreImage n img) := by
  unfold State.restoreImage
  dsimp only
  refine Kept.restoreRecord ?_ ..
  refine Kept.restoreStreams ?_ ..
  refine Kept.foldl ?_ _ fun u x h => ?_
  · refine Kept.foldl ?_ _ fun u x h => ?_
    · refine Kept.foldl ?_ _ fun u x h => ?_
      · exact h
      · exact h.restoreLayer ..
    · exact h.restoreEpoch ..
  · exact h.restoreGroup ..

theorem keptOut_execSnapshotRestore (t : State) (q id rederive) : KeptOut t (execSnapshotRestore q id rederive t) := by
  unfold execSnapshotRestore
  dsimp only
  have h := Kept.refl t
  refine KeptOut.live _ ?_
  refine Kept.next ?_
  refine h.dcp fun u k x h => ?_
  split
  · exact h.restoreRefused ..
  · split
    · exact h.restoreRefused ..
    · split
      · refine Kept.restoreRefused ?_ ..
        exact h.stageRead ..
      · refine Kept.restoreImage ?_ ..
        refine Kept.stopLease ?_ ..
        exact h.stageRead ..

theorem keptOut_execImageBegin (t : State) (q total) : KeptOut t (execImageBegin q total t) := by
  unfold execImageBegin
  have h := Kept.refl t
  refine KeptOut.live _ ?_
  refine Kept.next ?_
  refine h.dcp fun u k x h => ?_
  exact h.same rfl rfl

theorem keptOut_execImageChunk (t : State) (q offset data) : KeptOut t (execImageChunk q offset data t) := by
  unfold execImageChunk
  have h := Kept.refl t
  refine KeptOut.live _ ?_
  refine Kept.next ?_
  refine h.dcp fun u k x h => ?_
  split
  · exact h
  · split
    · exact h
    · exact h.same rfl rfl

theorem keptOut_execImageCommit (t : State) (q) : KeptOut t (execImageCommit q t) := by
  unfold execImageCommit
  have h := Kept.refl t
  refine KeptOut.live _ ?_
  refine Kept.next ?_
  split
  · exact h
  · refine h.dcp fun u k x h => ?_
    split
    · exact h
    · split
      · exact h
      · split
        · exact h
        · exact h.same rfl rfl

theorem Kept.storeArea (h : Kept s t) (a) : Kept s (t.storeArea a) := by
  unfold State.storeArea
  refine Kept.setFld ?_ ..
  exact h.same rfl rfl

theorem keptOut_execRestart (t : State) (q) : KeptOut t (execRestart q t) := by
  unfold execRestart
  refine KeptOut.live _ (Kept.next ((Kept.refl t).dcp fun u k x h => ?_))
  exact (h.storeArea { u.startArea with failCount := 0 }).same rfl rfl

theorem Kept.emitOn (h : Kept s t) (q p) : Kept s (t.emitOn q p) := by
  unfold State.emitOn
  refine Kept.drainEgress ?_ ..
  exact h.same rfl rfl

theorem Kept.sendLink (h : Kept s t) (q bytes) : Kept s (t.sendLink q bytes) := by
  unfold State.sendLink
  exact (h.emitOn ..).ite h

theorem Kept.announce (h : Kept s t) : Kept s (t.announce) := by
  unfold State.announce
  dsimp only
  refine Kept.foldl ?_ _ fun u x h => ?_
  · exact h.same rfl rfl
  · exact h.sendLink ..

theorem keptOut_execUnitAddress (t : State) (q addr) : KeptOut t (execUnitAddress q addr t) := by
  unfold execUnitAddress
  dsimp only
  have h := Kept.refl t
  refine KeptOut.live _ ?_
  refine Kept.next ?_
  refine h.dcp fun u k x h => ?_
  split
  · exact h
  · split
    · exact h
    · refine Kept.announce (Kept.setFld (Kept.setFld ?_ ..) ..) ..
      exact h.same rfl rfl

theorem keptOut_execCommandTimeout (t : State) (h' session) : KeptOut t (execCommandTimeout h' session t) := by
  unfold execCommandTimeout
  have h := Kept.refl t
  refine KeptOut.live _ ?_
  split
  · exact h.next
  · split
    · exact h.next
    · exact (h.reply ..).next

theorem keptOut_execSessionIdleTimeout (t : State) (h' session) : KeptOut t (execSessionIdleTimeout h' session t) := by
  unfold execSessionIdleTimeout
  have h := Kept.refl t
  refine KeptOut.live _ ?_
  split
  · exact h.next
  · split
    · exact h.next
    · exact (h.freeSession ..).next

theorem keptOut_execEventRetransmit (t : State) (h' session) : KeptOut t (execEventRetransmit h' session t) := by
  unfold execEventRetransmit
  dsimp only
  have h := Kept.refl t
  refine KeptOut.live _ ?_
  split
  · exact h.next
  · split
    · exact (h.freeSession ..).next
    · refine Kept.next ?_
      refine Kept.foldl ?_ _ fun u x h => ?_
      · exact h.setSession ..
      · exact h.sendIn ..

/-- The time, the bytes and the input energy of an accrual are noted (15 R559). -/
def State.energyNoted (t s : State) (l : List Nat) (x : Nat) : State :=
  State.count { t with energyAt := s.now, energyBytes := l.filterMap fun n => if s.leaseBytes n == 0 then none else some (n, s.leaseBytes n) } ⟨.PWR_ENERGY, selSv0, 0, 0⟩ PWR_ENERGY.ENERGY_UJ x

theorem Kept.energyNoted (h : Kept s t) (l x) : Kept s (t.energyNoted u l x) := by
  unfold State.energyNoted
  refine Kept.count ?_ ..
  exact h.same rfl rfl

theorem execEnergyAccrue_eq (t : State) (e x) : execEnergyAccrue e x t = t.live fun s => if s.now < s.energyAt + ms 1 then .next s
    else .next (State.energyNoted (((List.range 256).filter (fun n => 0 < s.calibrated e x n)).foldl (fun t n => t.charge n 44 (s.calibrated e x n)) s) s (List.range 256) x) := by
  rw [execEnergyAccrue]
  generalize List.range 256 = l
  rfl

theorem keptOut_execEnergyAccrue (t : State) (e x) : KeptOut t (execEnergyAccrue e x t) := by
  rw [execEnergyAccrue_eq]
  have h := Kept.refl t
  exact KeptOut.live _ (h.next.ite (Kept.next (Kept.energyNoted (h.foldl _ fun _ _ h => h.charge ..) ..)))

theorem Kept.rasForget (h : Kept s t) (r) : Kept s (t.rasForget r) := by
  unfold State.rasForget
  dsimp only
  exact h.same rfl rfl

theorem Kept.resetRegs (h : Kept s t) (f : Nat → Reg) (l : List Nat) : Kept s (l.foldl (fun s b => s.resetReg (f b)) t) := h.foldl l fun _ _ h => h.resetReg _

theorem Kept.mapCore (h : Kept s t) (k) : Kept s (t.mapCore k) := by
  unfold State.mapCore
  extract_lets u v w
  have ku : Kept s u := (h.scrubCore k).onCore k _
  have kv : Kept s v := ku.resetRegs (fun b => coreReg .ROW_ECC_CNT k b) _
  have kw : Kept s w := kv.rasForget ..
  clear_value v
  exact kw.same rfl rfl

theorem keptOut_execSpareCoreMap (t : State) (c) : KeptOut t (execSpareCoreMap c t) := by
  unfold execSpareCoreMap
  dsimp only
  have h := Kept.refl t
  refine KeptOut.live _ ?_
  split
  · exact h.next
  · split
    · refine Kept.next (Kept.bump ?_ ..)
      exact h.same rfl rfl
    · refine Kept.next (Kept.mapCore (Kept.setFld ?_ ..) ..)
      exact h.same rfl rfl

theorem Kept.rasCounter (h : Kept s t) (r w) : Kept s (t.rasCounter r w).1 := by
  unfold State.rasCounter
  dsimp only
  exact h.same rfl rfl

theorem Kept.rasAct (h : Kept s t) (r) : Kept s (t.rasAct r) := by
  unfold State.rasAct
  split
  · exact h.same rfl rfl
  · exact h.ite (h.same rfl rfl)
  · exact (h.spareWrite ..).ite (h.same rfl rfl)
  · exact h.same rfl rfl

theorem Kept.rasTrigger (h : Kept s t) (r) : Kept s (t.rasTrigger r) := by
  unfold State.rasTrigger
  exact ((h.rasAct ..).rasForget ..).ite (h.same rfl rfl)

theorem keptOut_execRasSample (t : State) : KeptOut t (execRasSample t) := by
  unfold execRasSample
  dsimp only
  have h := Kept.refl t
  refine KeptOut.live _ ?_
  split
  · exact h.next
  · refine Kept.next ?_
    refine Kept.foldl ?_ _ fun u x h => ?_
    · refine Kept.foldlOn Prod.fst ?_ _ fun u x h => ?_
      · exact h.same rfl rfl
      · exact h.rasCounter ..
    · exact h.rasTrigger ..

theorem keptOut_execBankRetire (t : State) (d b) : KeptOut t (execBankRetire d b t) := by
  unfold execBankRetire
  dsimp only
  have h := Kept.refl t
  refine KeptOut.live _ ?_
  split
  · exact h.next
  · refine Kept.next (Kept.bump (Kept.ite ?_ ?_) ..)
    · exact h.same rfl rfl
    · exact h.same rfl rfl

theorem keptOut_execAutoSnapshot (t : State) (lease) : KeptOut t (execAutoSnapshot lease t) := by
  unfold execAutoSnapshot
  dsimp only
  have h := Kept.refl t
  refine KeptOut.live _ ?_
  split
  · exact h.next
  · split
    · exact Kept.next (h.same rfl rfl)
    · refine Kept.next (Kept.stopLease ?_ ..)
      exact h.same rfl rfl

theorem Kept.epochUnit (h : Kept s t) (n hs g) : Kept s (t.epochUnit n hs g) := by
  unfold State.epochUnit
  dsimp only
  split
  · exact Kept.agentWrite (((((h.weltCloseStep ..).setFld ..).setFld ..).raise ..).ite h) ..
  · exact ((((h.weltCloseStep ..).setFld ..).setFld ..).raise ..).ite h

theorem Kept.noteFailure (h : Kept s t) (n) : Kept s (t.noteFailure n) := by
  unfold State.noteFailure
  refine h.ite (Kept.interval ?_ ..)
  exact h.same rfl rfl

theorem keptOut_execEpochCheck (t : State) (lease g) : KeptOut t (execEpochCheck lease g t) := by
  unfold execEpochCheck
  dsimp only
  have h := Kept.refl t
  refine KeptOut.live _ ?_
  split
  · exact h.next
  · refine Kept.next ?_
    refine Kept.foldl ?_ _ fun u x h => ?_
    · exact h.noteFailure ..
    · exact h.epochUnit ..

theorem Kept.clockFailed (h : Kept s t) (cause) : Kept s (t.clockFailed cause) := by
  unfold State.clockFailed
  dsimp only
  exact ((((h.setFld ..).bump ..).syncAlerts ..).raise ..).postEvent ..

theorem Kept.refFailed (h : Kept s t) (cause) : Kept s (t.refFailed cause) := by
  unfold State.refFailed
  dsimp only
  refine Kept.clockFailed ?_ ..
  exact ((h.setFld clkMon CLK_MON_STATUS.REF_OK (0)).setFld clkMon CLK_MON_STATUS.HOLDOVER (1)).same rfl rfl

theorem keptOut_execRefWindow (t : State) (edges) : KeptOut t (execRefWindow edges t) := by
  unfold execRefWindow
  dsimp only
  have h := Kept.refl t
  refine KeptOut.live _ ?_
  split
  · exact Kept.next ((h.setFld ..).ite ((h.setFld ..).refFailed ..))
  · split
    · exact (h.setFld ..).next
    · refine Kept.next (Kept.ite (Kept.setFld ?_ clkMon CLK_MON_STATUS.REF_OK (1)) ((h.setFld clkMon CLK_MON_STATUS.LAST_COUNT edges).same rfl rfl))
      exact (h.setFld clkMon CLK_MON_STATUS.LAST_COUNT edges).same rfl rfl

theorem keptOut_execRefLoss (t : State) : KeptOut t (execRefLoss t) := by
  unfold execRefLoss
  have h := Kept.refl t
  refine KeptOut.live _ ?_
  exact Kept.next ((h.refFailed ..).ite h)

theorem keptOut_execRootSv0Lost (t : State) : KeptOut t (execRootSv0Lost t) := by
  unfold execRootSv0Lost
  have h := Kept.refl t
  refine KeptOut.live _ ?_
  split
  · exact h.next
  · split
    · exact Kept.next (h.same rfl rfl)
    · exact ((h.setFld ..).clockFailed ..).next

theorem keptOut_execRelock (t : State) (a v) : KeptOut t (execRelock a v t) := by
  unfold execRelock
  have h := Kept.refl t
  exact keptOut_writeCmd ..

theorem keptOut_execRelockComplete (t : State) : KeptOut t (execRelockComplete t) := by
  unfold execRelockComplete
  have h := Kept.refl t
  refine KeptOut.live _ ?_
  split
  · exact h.next
  · refine Kept.next (Kept.syncAlerts (Kept.setFld ?_ ..) ..)
    exact h.same rfl rfl

theorem keptOut_execRelockTimeout (t : State) : KeptOut t (execRelockTimeout t) := by
  unfold execRelockTimeout
  have h := Kept.refl t
  refine KeptOut.live _ ?_
  split
  · exact h.next
  · split
    · exact h.next
    · exact Kept.next (h.same rfl rfl)

theorem keptOut_execRootSv0 (t : State) (a v) : KeptOut t (execRootSv0 a v t) := by
  unfold execRootSv0
  have h := Kept.refl t
  exact keptOut_writeCmd ..

theorem keptOut_execIslandWake (t : State) (c) : KeptOut t (execIslandWake c t) := by
  unfold execIslandWake
  have h := Kept.refl t
  refine KeptOut.live _ ?_
  exact Kept.next ((h.onCore ..).ite h)

theorem keptOut_execPowerSample (t : State) (watts) : KeptOut t (execPowerSample watts t) := by
  unfold execPowerSample
  dsimp only
  have h := Kept.refl t
  refine KeptOut.live _ ?_
  split
  · exact h.next
  · refine Kept.next (Kept.setFld (Kept.setFld ?_ ..) ..)
    exact (h.draw ..).same rfl rfl

theorem keptOut_execDutyDecision (t : State) (stepW tj) : KeptOut t (execDutyDecision stepW tj t) := by
  unfold execDutyDecision
  dsimp only
  have h := Kept.refl t
  refine KeptOut.live _ ?_
  split
  · exact h.next
  · refine Kept.next (Kept.ite (Kept.raise (Kept.syncAlerts (Kept.setFld (Kept.setFld (Kept.setFld (Kept.setFld (Kept.setFld ?_ ..) ..) ..) ..) ..) ..) ..) (Kept.syncAlerts (Kept.setFld (Kept.setFld (Kept.setFld (Kept.setFld (Kept.setFld ?_ ..) ..) ..) ..) ..) ..))
    · exact h.same rfl rfl
    · exact h.same rfl rfl

theorem keptOut_execClusterPowerOff (t : State) (d cl) : KeptOut t (execClusterPowerOff d cl t) := by
  unfold execClusterPowerOff
  dsimp only
  have h := Kept.refl t
  refine KeptOut.live _ ?_
  split
  · exact h.next
  · exact Kept.next (h.same rfl rfl)

theorem Kept.cutFlash (h : Kept s t) : Kept s (t.cutFlash) := by
  unfold State.cutFlash
  dsimp only
  split
  · exact h
  · exact (h.draw ..).same rfl rfl



theorem State.grade_cold (s : State) (l : Life) : (s.cold l).grade = s.cutFlash.grade := rfl

theorem State.mem_cold (s : State) (l : Life) : (s.cold l).mem = State.reset.mem := rfl

theorem Kept.cold (h : Kept s t) (l) : Kept s (t.cold l) :=
  ⟨(t.grade_cold l).trans h.cutFlash.grade, fun _ => by rw [t.mem_cold]; rfl⟩

theorem Kept.stageBegin (h : Kept s t) (n) : Kept s (t.stageBegin n) := by
  unfold State.stageBegin
  refine Kept.syncAlerts (Kept.setFld ?_ ..) ..
  exact h.same rfl rfl

theorem Kept.newNonce (h : Kept s t) : Kept s (t.newNonce) := by
  unfold State.newNonce
  dsimp only
  refine Kept.foldl ?_ _ fun u x h => ?_
  · exact h
  · refine Kept.setReg ?_ ..
    exact h.draw ..

theorem keptOut_execStartBegin (t : State) : KeptOut t (execStartBegin t) := by
  have h := Kept.refl t
  unfold execStartBegin
  refine KeptOut.live _ ?_
  split
  · exact h.next
  · dsimp only
    have k := h.cold .running
    generalize t.cold .running = u at k
    refine Kept.next (Kept.stageBegin (Kept.newNonce (Kept.setFld (Kept.setFld ?_ _ _ _) _ _ _)) _)
    exact k.same rfl rfl

theorem Kept.loadRegs (h : Kept s t) (t' p) : Kept s (t.loadRegs t' p) := by
  unfold State.loadRegs
  refine Kept.foldl ?_ _ fun u x h => ?_
  · exact h
  · split
    · split
      · exact h.setReg ..
      · exact h
    · exact h

theorem Kept.storeRead (h : Kept s t) : Kept s (t.storeRead) := by
  unfold State.storeRead
  dsimp only
  refine Kept.setFld (Kept.setFld (Kept.storeArea ?_ ..) ..) ..
  exact (h.loadRegs ..).same rfl rfl

theorem Kept.portsDown (h : Kept s t) : Kept s (t.portsDown) := by
  unfold State.portsDown
  dsimp only
  refine Kept.foldl ?_ _ fun u x h => ?_
  · exact h.same rfl rfl
  · split
    · exact h.setPort ..
    · exact h

theorem Kept.startFailed (h : Kept s t) (reason detail) : Kept s (t.startFailed reason detail) := by
  unfold State.startFailed
  dsimp only
  exact (h.storeArea ({ failCount := min 3 (t.startArea.failCount + 1), number := t.startArea.number, fails := List.take 8 ({ number := t.startArea.number, reason := reason, stage := t.stage, detail := detail } :: t.startArea.fails) })).same rfl rfl

theorem Kept.linkUp (h : Kept s t) (sel p) : Kept s (t.linkUp sel p) := by
  unfold State.linkUp
  dsimp only
  refine Kept.setFld (Kept.ite (h.ite ?_) (Kept.setFld (h.ite ?_) ..)) ..
  · exact h.same rfl rfl
  · exact h.same rfl rfl

theorem Kept.linksUp (h : Kept s t) : Kept s (t.linksUp) := by
  unfold State.linksUp
  refine Kept.foldl ?_ _ fun u x h => ?_
  · exact h
  · exact h.linkUp ..

theorem Kept.clockMode (h : Kept s t) : Kept s (t.clockMode) := by
  unfold State.clockMode
  dsimp only
  exact h.same rfl rfl

theorem Kept.leasesReturn (h : Kept s t) : Kept s (t.leasesReturn) := by
  unfold State.leasesReturn
  dsimp only
  refine Kept.foldl ?_ _ fun u x h => ?_
  · exact h.loadRegs ..
  · split
    · refine Kept.setFld ?_ ..
      exact h.same rfl rfl
    · refine Kept.resetReg ?_ ..
      exact h.resetReg ..

theorem Kept.startDone (h : Kept s t) : Kept s t.startDone := by
  have k0 := (h.storeArea { t.startArea with failCount := 0 }).leasesReturn
  unfold State.startDone
  generalize t.storeArea { t.startArea with failCount := 0 } = u at k0 ⊢
  dsimp only
  generalize u.leasesReturn = v at k0 ⊢
  refine Kept.stageBegin (Kept.setFld ?_ _ _ _) _
  exact k0.same rfl rfl

theorem Kept.stagePass (h : Kept s t) : Kept s (t.stagePass) := by
  unfold State.stagePass
  dsimp only
  split
  · refine Kept.stageBegin ?_ ..
    exact h.same rfl rfl
  · exact h.stageBegin ..
  · exact ((((h.storeRead ..).setFld ..).portsDown ..).syncAlerts ..).ite ((h.storeRead ..).stageBegin ..)
  · refine Kept.stageBegin ?_ ..
    exact h.same rfl rfl
  · exact h.stageBegin ..
  · split
    · exact h.startFailed ..
    · exact ((h.clockMode ..).linksUp ..).stageBegin ..
  · exact h.stageBegin ..
  · exact h.startDone ..

theorem Kept.stageFail (h : Kept s t) (detail late) : Kept s (t.stageFail detail late) := by
  unfold State.stageFail
  dsimp only
  split
  · exact h.same rfl rfl
  · exact (h.stagePass ..).ite (h.startFailed ..)
  · exact h
  · exact h.startFailed ..
  · exact h.startFailed ..
  · exact h.startFailed ..
  · exact ((h.draw ..).startFailed ..).ite ((h.startFailed ..).ite (h.startFailed ..))
  · exact h.startFailed ..

theorem keptOut_execStartStage (t : State) (r) : KeptOut t (execStartStage r t) := by
  unfold execStartStage
  have h := Kept.refl t
  refine KeptOut.live _ ?_
  split
  · exact h.next
  · split
    · exact (h.stageFail ..).next
    · split
      · exact (h.stageFail ..).next
      · split
        · exact h.next
        · split
          · exact (h.stageFail ..).next
          · exact (h.stagePass ..).next

theorem keptOut_execStageTimeout (t : State) : KeptOut t (execStageTimeout t) := by
  unfold execStageTimeout
  have h := Kept.refl t
  refine KeptOut.live _ ?_
  split
  · exact h.next
  · exact (h.stageFail ..).next

theorem keptOut_execHeartbeat (t : State) : KeptOut t (execHeartbeat t) := by
  unfold execHeartbeat
  have h := Kept.refl t
  refine KeptOut.live _ ?_
  exact Kept.next (h.ite (h.same rfl rfl))

theorem keptOut_execSv1Takeover (t : State) : KeptOut t (execSv1Takeover t) := by
  have h := Kept.refl t
  unfold execSv1Takeover
  refine KeptOut.live _ ?_
  split
  · exact h.next
  · split
    · exact h.next
    · dsimp only
      refine Kept.next (Kept.syncAlerts (Kept.setFld (Kept.setFld (Kept.setFld (Kept.loadRegs ?_ _ _) _ _ _) _ _ _) _ _ _))
      exact (h.cold .running).same rfl rfl

theorem keptOut_execRetainedStoreWrite (t : State) (copies) : KeptOut t (execRetainedStoreWrite copies t) := by
  unfold execRetainedStoreWrite
  dsimp only
  have h := Kept.refl t
  refine KeptOut.live _ ?_
  refine Kept.next ?_
  split
  · exact Kept.ite ((h.draw ..).same rfl rfl) ((h.draw ..).same rfl rfl)
  · exact Kept.ite (h.same rfl rfl) (h.same rfl rfl)

theorem keptOut_execRecoveryMirror (t : State) : KeptOut t (execRecoveryMirror t) := by
  unfold execRecoveryMirror
  dsimp only
  have h := Kept.refl t
  refine KeptOut.live _ ?_
  split
  · exact h.next
  · exact Kept.next (h.same rfl rfl)

theorem keptOut_execNeighbourAdvertisement (t : State) (x) : KeptOut t (execNeighbourAdvertisement x t) := by
  have h := Kept.refl t
  unfold execNeighbourAdvertisement
  refine KeptOut.live _ ?_
  dsimp only
  split
  · exact h.next
  · exact Kept.next ((h.setRx x.val { t.rx x.val with announced := t.portAnnounces x.val }).same rfl rfl)

theorem keptOut_execAnnounceSend (t : State) : KeptOut t (execAnnounceSend t) := by
  unfold execAnnounceSend
  have h := Kept.refl t
  refine KeptOut.live _ ?_
  split
  · split
    · exact h.next
    · exact (h.announce ..).next
  · exact (h.announce ..).next

theorem Kept.linkIn (h : Kept s t) {q : Fin 16} {p : DftPacket} {kind : Nat} {act : State → List Byte → State} (k : ∀ u l, Kept s u → Kept s (act u l)) : Kept s (t.linkIn q p kind act) := by
  have f := (h.frameIn q p).freeCells q.val 0 (pktClass p) (pktCells p)
  unfold State.linkIn
  split
  · exact h
  · dsimp only
    split
    · exact h.frameIn ..
    · split
      · exact f.tally ..
      · split
        · exact h
        · exact k _ _ f

theorem keptOut_execAnnounce (t : State) (q p) : KeptOut t (execAnnounce q p t) := by
  unfold execAnnounce
  refine KeptOut.live _ (Kept.next ((Kept.refl t).linkIn fun u b h => ?_))
  extract_lets addr other v w
  have k : Kept t v := h.setFld ..
  have l : Kept t w := Kept.ite (k.same rfl rfl) k
  exact (l.setW1c ..).ite l

theorem Kept.takePos (h : Kept s t) (pos src) : Kept s (t.takePos pos src) := by
  unfold State.takePos
  exact (h.setFld ..).setFld ..

theorem Kept.sendToken (h : Kept s t) (p) : Kept s (t.sendToken p) := by
  unfold State.sendToken
  exact (h.setW1c ..).ite (h.sendLink ..)

theorem keptOut_execEnumStart (t : State) : KeptOut t (execEnumStart t) := by
  unfold execEnumStart
  dsimp only
  have h := Kept.refl t
  refine KeptOut.live _ ?_
  split
  · exact h.next
  · split
    · exact h.next
    · split
      · exact Kept.next (h.same rfl rfl)
      · refine Kept.next (Kept.ite (Kept.sendToken (Kept.takePos ?_ ..) ..) (Kept.setFld (Kept.takePos ?_ ..) ..))
        · exact h.same rfl rfl
        · exact h.same rfl rfl

theorem Kept.sendEnd (h : Kept s t) (q n) : Kept s (t.sendEnd q n) := by
  unfold State.sendEnd
  exact h.sendLink ..

theorem keptOut_execToken (t : State) (q p) : KeptOut t (execToken q p t) := by
  unfold execToken
  dsimp only
  have h := Kept.refl t
  refine KeptOut.live _ ?_
  refine Kept.next ?_
  refine h.linkIn fun u l h => ?_
  split
  · split
    · refine Kept.sendEnd ?_ ..
      exact h.setFld ..
    · exact h.setW1c ..
  · split
    · exact h
    · split
      · refine Kept.sendToken ?_ ..
        exact h.takePos ..
      · refine Kept.sendEnd ?_ ..
        refine Kept.setFld ?_ ..
        exact h.takePos ..

theorem keptOut_execTokenEnd (t : State) (q p) : KeptOut t (execTokenEnd q p t) := by
  unfold execTokenEnd
  dsimp only
  have h := Kept.refl t
  refine KeptOut.live _ ?_
  refine Kept.next ?_
  refine h.linkIn fun u l h => ?_
  split
  · exact h.setFld ..
  · split
    · refine Kept.sendEnd ?_ ..
      exact h.setFld ..
    · split
      · refine Kept.sendEnd ?_ ..
        exact h.setFld ..
      · exact h.setFld ..

theorem keptOut_execEnumStrapFallback (t : State) : KeptOut t (execEnumStrapFallback t) := by
  unfold execEnumStrapFallback
  have h := Kept.refl t
  refine KeptOut.live _ ?_
  split
  · exact h.next
  · split
    · exact h.next
    · exact (h.takePos ..).next

theorem keptOut_execAddressReclaim (t : State) : KeptOut t (execAddressReclaim t) := by
  unfold execAddressReclaim
  have h := Kept.refl t
  refine KeptOut.live _ ?_
  split
  · split
    · exact h.next
    · split
      · refine Kept.next (Kept.announce (Kept.setFld (Kept.setFld ?_ ..) ..) ..)
        exact h.same rfl rfl
      · split
        · exact Kept.next (h.same rfl rfl)
        · exact h.next
  · exact h.next

theorem keptOut_execVerify (t : State) (a v) : KeptOut t (execVerify a v t) := by
  unfold execVerify
  have h := Kept.refl t
  exact keptOut_writeCmd ..

theorem Kept.verifyEnd (h : Kept s t) : Kept s (t.verifyEnd) := by
  unfold State.verifyEnd
  dsimp only
  refine Kept.newNonce (Kept.ite (Kept.setFld (Kept.setFld (Kept.setFld (Kept.setFld ?_ ..) ..) ..) ..) (Kept.setFld (Kept.setFld (Kept.setFld ?_ ..) ..) ..)) ..
  · exact h.same rfl rfl
  · exact h.same rfl rfl

theorem keptOut_execVerifyComplete (t : State) : KeptOut t (execVerifyComplete t) := by
  unfold execVerifyComplete
  have h := Kept.refl t
  refine KeptOut.live _ ?_
  exact Kept.next (h.ite (h.verifyEnd ..))

theorem keptOut_execLock (t : State) (a v) : KeptOut t (execLock a v t) := by
  unfold execLock
  have h := Kept.refl t
  exact keptOut_writeCmd ..

theorem keptOut_execPertWrite (t : State) (a addr v) : KeptOut t (execPertWrite a addr v t) := by
  unfold execPertWrite
  have h := Kept.refl t
  split
  · split
    · exact keptOut_writeCmd ..
    · exact h.next
  · split
    · exact keptOut_writeCmd ..
    · exact h.next

theorem keptOut_execInjArm (t : State) (a v) : KeptOut t (execInjArm a v t) := by
  unfold execInjArm
  have h := Kept.refl t
  exact keptOut_writeCmd ..

theorem keptOut_execTapInstruction (t : State) (t') : KeptOut t (execTapInstruction t' t) := by
  unfold execTapInstruction
  have h := Kept.refl t
  split
  · exact h.next
  · split
    · exact h.next
    · exact (h.answer ..).next
    · exact h.next
    · exact h.next
    · split
      · exact keptOut_readCmd ..
      · exact h.next
    · split
      · exact keptOut_writeCmd ..
      · exact h.next

theorem Kept.holdReset (h : Kept s t) : Kept s t.holdReset := by
  unfold State.holdReset
  refine Kept.setFld ?_ _ _ _
  exact (h.cold .inReset).same rfl rfl

theorem keptOut_execResetAssert (t : State) : KeptOut t (execResetAssert t) := by
  unfold execResetAssert
  have h := Kept.refl t
  exact Kept.next (Kept.ite (h.ite (h.holdReset ..)) (h.same rfl rfl))

theorem keptOut_execResetRelease (t : State) (straps) : KeptOut t (execResetRelease straps t) := by
  unfold execResetRelease
  dsimp only
  have h := Kept.refl t
  split
  · exact h.next
  · exact Kept.next (Kept.ite (h.same rfl rfl) (h.same rfl rfl))

theorem keptOut_execPowerLoss (t : State) : KeptOut t (execPowerLoss t) := by
  have h := Kept.refl t
  unfold execPowerLoss
  refine Kept.next (h.ite ?_)
  exact (h.cold .unpowered).same rfl rfl

theorem keptOut_execPowerRestore (t : State) : KeptOut t (execPowerRestore t) := by
  unfold execPowerRestore
  have h := Kept.refl t
  exact Kept.next (Kept.ite ((h.holdReset ..).ite (h.same rfl rfl)) h)

theorem Kept.tripRecord (h : Kept s t) (cause die temp) : Kept s (t.tripRecord cause die temp) := by
  unfold State.tripRecord
  exact (((h.setFld ..).setFld ..).setFld ..).setW1c ..

theorem keptOut_execVinOvervoltage (t : State) : KeptOut t (execVinOvervoltage t) := by
  unfold execVinOvervoltage
  dsimp only
  have h := Kept.refl t
  split
  · exact h.next
  · exact (((h.draw ..).tripRecord ..).cold ..).next

theorem keptOut_execJunctionSample (t : State) (k sel t') : KeptOut t (execJunctionSample k sel t' t) := by
  unfold execJunctionSample
  dsimp only
  have h := Kept.refl t
  split
  · exact h.next
  · split
    · exact Kept.next (h.same rfl rfl)
    · split
      · exact ((h.tripRecord ..).cold ..).next
      · exact Kept.next (h.same rfl rfl)

theorem keptOut_execThermtripExternal (t : State) : KeptOut t (execThermtripExternal t) := by
  unfold execThermtripExternal
  have h := Kept.refl t
  exact Kept.next (h.ite (h.noteLine ..))

theorem keptOut_execAlertHoldExpire (t : State) (i) : KeptOut t (execAlertHoldExpire i t) := by
  unfold execAlertHoldExpire
  dsimp only
  have h := Kept.refl t
  exact Kept.next ((h.setFld ..).ite h)

theorem keptOut_execPeerSigWrite (t : State) (a d k v) : KeptOut t (execPeerSigWrite a d k v t) := by
  unfold execPeerSigWrite
  have h := Kept.refl t
  exact keptOut_writeCmd ..

theorem keptOut_execAutoNegotiation (t : State) (p) : KeptOut t (execAutoNegotiation p t) := by
  unfold execAutoNegotiation
  have h := Kept.refl t
  refine KeptOut.live _ ?_
  split
  · exact h.next
  · exact Kept.next (h.same rfl rfl)

theorem keptOut_execStandbyRootLost (t : State) : KeptOut t (execStandbyRootLost t) := by
  unfold execStandbyRootLost
  dsimp only
  have h := Kept.refl t
  refine KeptOut.live _ ?_
  exact Kept.next (Kept.ite (h.same rfl rfl) (h.same rfl rfl))

theorem keptOut_execThermtripExternalRelease (t : State) : KeptOut t (execThermtripExternalRelease t) := by
  unfold execThermtripExternalRelease
  have h := Kept.refl t
  exact (h.noteLine ..).next

theorem keptOut_execCreditHoldEnd (t : State) (w) : KeptOut t (execCreditHoldEnd w t) := by
  unfold execCreditHoldEnd
  have h := Kept.refl t
  refine KeptOut.live _ ?_
  split
  · exact Kept.next (h.same rfl rfl)
  · refine Kept.next ?_
    refine Kept.foldl ?_ _ fun u x h => ?_
    · exact h
    · split
      · exact h
      · exact h.returnCells ..

theorem keptOut_execFilteredLineChange (t : State) (ic x level) : KeptOut t (execFilteredLineChange ic x level t) := by
  unfold execFilteredLineChange
  dsimp only
  have h := Kept.refl t
  refine KeptOut.live _ ?_
  split
  · exact h.next
  · split
    · refine Kept.next (Kept.ite (Kept.syncLevel ?_ ..) (Kept.setPending ?_ ..))
      · exact h.same rfl rfl
      · exact h.same rfl rfl
    · exact Kept.next (h.same rfl rfl)

theorem keptOut_exec (t : State) (i) : KeptOut t (exec i t) := by
  cases i
  · exact keptOut_execRegisterWrite ..
  · exact keptOut_execLinkRowReceive ..
  · exact keptOut_execLinkReplay ..
  · exact keptOut_execLinkErrClr ..
  · exact keptOut_execWld ..
  · exact keptOut_execWldComplete ..
  · exact keptOut_execPass ..
  · exact keptOut_execPassVector ..
  · exact keptOut_execPassRelease ..
  · exact keptOut_execFreezeEnd ..
  · exact keptOut_execElem ..
  · exact keptOut_execConvert ..
  · exact keptOut_execSplit ..
  · exact keptOut_execDrain ..
  · exact keptOut_execVecRowWrite ..
  · exact keptOut_execEmptyBundle ..
  · exact keptOut_execLoop ..
  · exact keptOut_execWrmask ..
  · exact keptOut_execDpre ..
  · exact keptOut_execDescFillDone ..
  · exact keptOut_execPred ..
  · exact keptOut_execMark ..
  · exact keptOut_execEndKernel ..
  · exact keptOut_execKernelComplete ..
  · exact keptOut_execSet ..
  · exact keptOut_execClear ..
  · exact keptOut_execWait ..
  · exact keptOut_execWaitClr ..
  · exact keptOut_execTest ..
  · exact keptOut_execClaim ..
  · exact keptOut_execFlagDelivery ..
  · exact keptOut_execSyncWaitTimeout ..
  · exact keptOut_execKernelStart ..
  · exact keptOut_execRingFetch ..
  · exact keptOut_execRingBaseWrite ..
  · exact keptOut_execRingCfgWrite ..
  · exact keptOut_execRingProdWrite ..
  · exact keptOut_execSkipKernel ..
  · exact keptOut_execDiscard ..
  · exact keptOut_execClearFault ..
  · exact keptOut_execMonitorSample ..
  · exact keptOut_execPrefixDump ..
  · exact keptOut_execPatrolRead ..
  · exact keptOut_execPatrolWriteback ..
  · exact keptOut_execRowEccClr ..
  · exact keptOut_execSdmPartWrite ..
  · exact keptOut_execScrubComplete ..
  · exact keptOut_execSdmWcacheCfgWrite ..
  · exact keptOut_execAstkCfgWrite ..
  · exact keptOut_execAstkTopWrite ..
  · exact keptOut_execAstkPush ..
  · exact keptOut_execAstkSpill ..
  · exact keptOut_execAstkRefill ..
  · exact keptOut_execAstkRefillLand ..
  · exact keptOut_execAstkPop ..
  · exact keptOut_execArm ..
  · exact keptOut_execRel ..
  · exact keptOut_execStreamRequest ..
  · exact keptOut_execStreamRowLand ..
  · exact keptOut_execStoreRowWritten ..
  · exact keptOut_execTransferComplete ..
  · exact keptOut_execTemperGrant ..
  · exact keptOut_execStarvePromote ..
  · exact keptOut_execMcqClr ..
  · exact keptOut_execAwl ..
  · exact keptOut_execAwlPieceRequest ..
  · exact keptOut_execAwlPieceLand ..
  · exact keptOut_execRowPerform ..
  · exact keptOut_execMemcPatrol ..
  · exact keptOut_execMemcEccClr ..
  · exact keptOut_execFailedPcWrite ..
  · exact keptOut_execHbmSpareStart ..
  · exact keptOut_execSpareCopyRow ..
  · exact keptOut_execDownReq ..
  · exact keptOut_execPdnEnter ..
  · exact keptOut_execPdnTimeout ..
  · exact keptOut_execChannelWake ..
  · exact keptOut_execTagFill ..
  · exact keptOut_execTagFillComplete ..
  · exact keptOut_execBackgroundTagFill ..
  · exact keptOut_execPerBankRefresh ..
  · exact keptOut_execTempSample ..
  · exact keptOut_execFrameOpen ..
  · exact keptOut_execFrameDrain ..
  · exact keptOut_execFrameNoAction ..
  · exact keptOut_execFrameCmdReserved ..
  · exact keptOut_execNorm ..
  · exact keptOut_execApply ..
  · exact keptOut_execFinish ..
  · exact keptOut_execWeltClose ..
  · exact keptOut_execWeltCmdEnd ..
  · exact keptOut_execFacExchangeReady ..
  · exact keptOut_execWeltLayerCommit ..
  · exact keptOut_execWeltStepTimeout ..
  · exact keptOut_execWeltEpochWrite ..
  · exact keptOut_execKvpEnable ..
  · exact keptOut_execKvpInitDone ..
  · exact keptOut_execKvpGo ..
  · exact keptOut_execAlloc ..
  · exact keptOut_execShare ..
  · exact keptOut_execFree ..
  · exact keptOut_execMakePrivate ..
  · exact keptOut_execAppend ..
  · exact keptOut_execKvpBatchComplete ..
  · exact keptOut_execSoftmaxStep ..
  · exact keptOut_execSoftmaxFinal ..
  · exact keptOut_execSoftmaxMerge ..
  · exact keptOut_execPortRetrain ..
  · exact keptOut_execPortTrainEnd ..
  · exact keptOut_execPeerPortClr ..
  · exact keptOut_execFabCfgWrite ..
  · exact keptOut_execFabCoordWrite ..
  · exact keptOut_execFabVcWrite ..
  · exact keptOut_execFabStatClr ..
  · exact keptOut_execDftWrite ..
  · exact keptOut_execDftRead ..
  · exact keptOut_execReadData ..
  · exact keptOut_execNak ..
  · exact keptOut_execAck ..
  · exact keptOut_execCredit ..
  · exact keptOut_execPacketForward ..
  · exact keptOut_execCreditReturn ..
  · exact keptOut_execRetransmitTimeout ..
  · exact keptOut_execResync ..
  · exact keptOut_execResyncAck ..
  · exact keptOut_execResyncRepeat ..
  · exact keptOut_execCollGroupWrite ..
  · exact keptOut_execCollSubmit ..
  · exact keptOut_execReduceScatter ..
  · exact keptOut_execAllGather ..
  · exact keptOut_execAllReduce ..
  · exact keptOut_execNormred ..
  · exact keptOut_execCollReady ..
  · exact keptOut_execCollData ..
  · exact keptOut_execCollAbort ..
  · exact keptOut_execCollTimeout ..
  · exact keptOut_execCollEnd ..
  · exact keptOut_execCboInval ..
  · exact keptOut_execCboClean ..
  · exact keptOut_execCboFlush ..
  · exact keptOut_execCboZero ..
  · exact keptOut_execFence ..
  · exact keptOut_execL3DemandFill ..
  · exact keptOut_execL3RangeInval ..
  · exact keptOut_execL3RangeClean ..
  · exact keptOut_execL3RangeFlush ..
  · exact keptOut_execL3RangeEnd ..
  · exact keptOut_execHcBindWrite ..
  · exact keptOut_execExtensionInvoke ..
  · exact keptOut_execCodeTimeLimit ..
  · exact keptOut_execEyeMsgWrite ..
  · exact keptOut_execEyeCommit ..
  · exact keptOut_execEyeTake ..
  · exact keptOut_execEyeTimeout ..
  · exact keptOut_execEyeDbSet ..
  · exact keptOut_execEyeCfgWrite ..
  · exact keptOut_execIcRingNoteRead ..
  · exact keptOut_execIcSwset ..
  · exact keptOut_execIcClaim ..
  · exact keptOut_execIcComplete ..
  · exact keptOut_execIcPendingWrite ..
  · exact keptOut_execRrAdvance ..
  · exact keptOut_execHostPacketReceive ..
  · exact keptOut_execFifoPacketTimeout ..
  · exact keptOut_execHpFifoHeadWrite ..
  · exact keptOut_execHpLandHeadWrite ..
  · exact keptOut_execDropRest ..
  · exact keptOut_execHpClr ..
  · exact keptOut_execHello ..
  · exact keptOut_execAuth ..
  · exact keptOut_execAuthTimeout ..
  · exact keptOut_execClose ..
  · exact keptOut_execKeepalive ..
  · exact keptOut_execEventAck ..
  · exact keptOut_execIdentify ..
  · exact keptOut_execAttest ..
  · exact keptOut_execStartRecord ..
  · exact keptOut_execRegRead ..
  · exact keptOut_execRegWrite ..
  · exact keptOut_execMemRead ..
  · exact keptOut_execMemWrite ..
  · exact keptOut_execLeaseCreate ..
  · exact keptOut_execLeaseBind ..
  · exact keptOut_execLeaseUnbind ..
  · exact keptOut_execLeaseRebind ..
  · exact keptOut_execQuiesceComplete ..
  · exact keptOut_execQuiesceTimeout ..
  · exact keptOut_execLeaseAbort ..
  · exact keptOut_execLeaseKey ..
  · exact keptOut_execLeaseAcct ..
  · exact keptOut_execPromptSubmit ..
  · exact keptOut_execRolloutFetch ..
  · exact keptOut_execDataPush ..
  · exact keptOut_execCodeLoad ..
  · exact keptOut_execCodeLimits ..
  · exact keptOut_execSnapshotTake ..
  · exact keptOut_execSnapshotStopEnd ..
  · exact keptOut_execSnapshotPull ..
  · exact keptOut_execSnapshotPush ..
  · exact keptOut_execSnapshotRestore ..
  · exact keptOut_execImageBegin ..
  · exact keptOut_execImageChunk ..
  · exact keptOut_execImageCommit ..
  · exact keptOut_execRestart ..
  · exact keptOut_execUnitAddress ..
  · exact keptOut_execCommandTimeout ..
  · exact keptOut_execSessionIdleTimeout ..
  · exact keptOut_execEventRetransmit ..
  · exact keptOut_execEnergyAccrue ..
  · exact keptOut_execSpareCoreMap ..
  · exact keptOut_execRasSample ..
  · exact keptOut_execBankRetire ..
  · exact keptOut_execAutoSnapshot ..
  · exact keptOut_execEpochCheck ..
  · exact keptOut_execRefWindow ..
  · exact keptOut_execRefLoss ..
  · exact keptOut_execRootSv0Lost ..
  · exact keptOut_execRelock ..
  · exact keptOut_execRelockComplete ..
  · exact keptOut_execRelockTimeout ..
  · exact keptOut_execRootSv0 ..
  · exact keptOut_execIslandWake ..
  · exact keptOut_execPowerSample ..
  · exact keptOut_execDutyDecision ..
  · exact keptOut_execClusterPowerOff ..
  · exact keptOut_execStartBegin ..
  · exact keptOut_execStartStage ..
  · exact keptOut_execStageTimeout ..
  · exact keptOut_execHeartbeat ..
  · exact keptOut_execSv1Takeover ..
  · exact keptOut_execRetainedStoreWrite ..
  · exact keptOut_execRecoveryMirror ..
  · exact keptOut_execNeighbourAdvertisement ..
  · exact keptOut_execAnnounceSend ..
  · exact keptOut_execAnnounce ..
  · exact keptOut_execEnumStart ..
  · exact keptOut_execToken ..
  · exact keptOut_execTokenEnd ..
  · exact keptOut_execEnumStrapFallback ..
  · exact keptOut_execAddressReclaim ..
  · exact keptOut_execVerify ..
  · exact keptOut_execVerifyComplete ..
  · exact keptOut_execLock ..
  · exact keptOut_execPertWrite ..
  · exact keptOut_execInjArm ..
  · exact keptOut_execTapInstruction ..
  · exact keptOut_execResetAssert ..
  · exact keptOut_execResetRelease ..
  · exact keptOut_execPowerLoss ..
  · exact keptOut_execPowerRestore ..
  · exact keptOut_execVinOvervoltage ..
  · exact keptOut_execJunctionSample ..
  · exact keptOut_execThermtripExternal ..
  · exact keptOut_execAlertHoldExpire ..
  · exact keptOut_execPeerSigWrite ..
  · exact keptOut_execAutoNegotiation ..
  · exact keptOut_execStandbyRootLost ..
  · exact keptOut_execThermtripExternalRelease ..
  · exact keptOut_execCreditHoldEnd ..
  · exact keptOut_execFilteredLineChange ..

theorem Kept.hcCycle (h : Kept s t) : Kept s (t.hcCycle) := by
  unfold State.hcCycle
  refine Kept.foldl ?_ _ fun u x h => ?_
  · exact h
  · split
    · split
      · exact h
      · exact h.charge ..
    · exact h

theorem Kept.pdnOn (h : Kept s t) : Kept s (t.pdnOn) := by
  unfold State.pdnOn
  split
  · exact h
  · refine Kept.foldl ?_ _ fun u x h => ?_
    · exact h
    · split
      · split
        · exact h.channelDown ..
        · exact h
      · exact h

theorem keptOut_bundleOps (t : State) (c) : ∀ f ∈ bundleOps c, KeptOut t (f t) := by
  intro f hf
  simp only [bundleOps, List.mem_append, List.mem_flatMap, List.mem_range, List.mem_cons, List.not_mem_nil, or_false] at hf
  rcases hf with ((⟨a, -, rfl | rfl⟩ | rfl | rfl | rfl | rfl | rfl | rfl | rfl) | ⟨e, -, rfl | rfl | rfl⟩) | rfl | rfl | rfl | rfl | rfl | rfl | rfl | rfl | rfl | rfl | rfl | rfl
  · exact keptOut_execWld ..
  · exact keptOut_execPass ..
  · exact keptOut_execElem ..
  · exact keptOut_execConvert ..
  · exact keptOut_execSplit ..
  · exact keptOut_execDrain ..
  · exact keptOut_execSoftmaxStep ..
  · exact keptOut_execSoftmaxFinal ..
  · exact keptOut_execSoftmaxMerge ..
  · exact keptOut_execArm ..
  · exact keptOut_execRel ..
  · exact keptOut_execAwl ..
  · exact keptOut_execLoop ..
  · exact keptOut_execWrmask ..
  · exact keptOut_execDpre ..
  · exact keptOut_execPred ..
  · exact keptOut_execMark ..
  · exact keptOut_execEndKernel ..
  · exact keptOut_execSet ..
  · exact keptOut_execClear ..
  · exact keptOut_execWait ..
  · exact keptOut_execWaitClr ..
  · exact keptOut_execTest ..
  · exact keptOut_execClaim ..

theorem Kept.outcomes (l : List (State → Host.Outcome State Fault Refusal)) (k : ∀ f ∈ l, ∀ u, KeptOut u (f u)) (h : Kept s t) : Kept s (l.foldl (fun s f => Machine.outcomeState s (f s)) t) := by
  induction l generalizing t with
  | nil => exact h
  | cons f l ih => exact ih (fun g hg => k g (List.mem_cons_of_mem _ hg)) (h.outcomeState (k f List.mem_cons_self t))

theorem Kept.finishBundle (h : Kept s t) (k) : Kept s (t.finishBundle k) := by
  unfold State.finishBundle
  split
  · split
    · exact Kept.outcomes _ (fun f hf u => keptOut_bundleOps u _ f hf) h
    · exact h
  · exact h

theorem Kept.verifyOn (h : Kept s t) : Kept s (t.verifyOn) := by
  unfold State.verifyOn
  split
  · exact h.ite (h.verifyEnd ..)
  · exact h

theorem Kept.stopOn (h : Kept s t) : Kept s (t.stopOn) := by
  unfold State.stopOn
  split
  · exact h.ite (h.stopEnd ..)
  · exact h

theorem Kept.flashOn (h : Kept s t) : Kept s (t.flashOn) := by
  unfold State.flashOn
  split
  · exact h
  · refine Kept.reply ?_ ..
    exact h.same rfl rfl

theorem Kept.memBytes (h : Kept s t) (l as) : Kept s (t.memBytes l as).1 := by
  induction as generalizing t with
  | nil => exact h
  | cons a as ih =>
    unfold State.memBytes
    split
    · exact ih h
    · split
      · exact ih (t := { t with fresh := t.fresh + 1 }) (h.same rfl rfl)
      · exact ih h

theorem Kept.memDone (h : Kept s t) (k c m) : Kept s (t.memDone k c m) := by
  unfold State.memDone
  dsimp only
  refine Kept.ite (Kept.reply (Kept.memBytes ?_ ..) ..) (Kept.reply ?_ ..)
  · exact h.same rfl rfl
  · exact h.same rfl rfl

theorem Kept.memsOn (h : Kept s t) : Kept s t.memsOn := by
  unfold State.memsOn
  extract_lets u
  have k : Kept s u := h.foldl _ fun _ _ h => h.memDone ..
  split
  · exact k.same rfl rfl
  · exact k

theorem Kept.signals (h : Kept s t) (row lease) : Kept s (t.signals row lease) := by
  unfold State.signals
  dsimp only
  split
  · exact h
  · refine Kept.foldl ?_ _ fun u x h => ?_
    · exact h
    · exact h.landFlag ..

theorem Kept.peerDone (h : Kept s t) (d) : Kept s (t.peerDone d) := by
  unfold State.peerDone
  dsimp only
  split
  · split
    · refine Kept.foldl ?_ _ fun u x h => ?_
      · exact h.same rfl rfl
      · exact h.signals ..
    · split
      · refine Kept.respond ?_ ..
        refine Kept.sendAck ?_ ..
        refine Kept.foldl ?_ _ fun u x h => ?_
        · exact h.same rfl rfl
        · exact h.signals ..
      · refine Kept.sendAck ?_ ..
        refine Kept.foldl ?_ _ fun u x h => ?_
        · exact h.same rfl rfl
        · exact h.signals ..
  · refine Kept.ite (h.same rfl rfl) (Kept.respond ?_ ..)
    exact h.same rfl rfl

theorem Kept.peersOn (h : Kept s t) : Kept s (t.peersOn) := by
  unfold State.peersOn
  dsimp only
  split
  · exact h
  · refine Kept.foldl ?_ _ fun u x h => ?_
    · exact h.same rfl rfl
    · exact h.peerDone ..

theorem Kept.trainingOn (h : Kept s t) : Kept s (t.trainingOn) := by
  unfold State.trainingOn
  exact h.same rfl rfl

theorem Kept.packedOn (h : Kept s t) : Kept s (t.packedOn) := by
  unfold State.packedOn
  dsimp only
  split
  · exact h
  · refine Kept.foldl ?_ _ fun u x h => ?_
    · exact h.same rfl rfl
    · exact h.sendPacked ..

theorem Kept.normRow {a : NormAcc} (h : Kept s a.s) (g addr count) : Kept s (a.row g addr count).s := by
  unfold NormAcc.row
  dsimp only
  split
  · exact h.agentRead ..
  · exact h.agentRead ..

theorem Kept.normOn (h : Kept s t) (hs l) : Kept s (t.normOn hs l) := by
  unfold State.normOn
  extract_lets w x all rows o ends u v
  have k : Kept s o.s := Kept.foldlOn NormAcc.s h _ fun _ _ h => h.normRow ..
  have ku : Kept s u := (k.setW1c ..).ite k
  have kv : Kept s v := ku.onWelt ..
  split
  · exact h.weltDone ..
  · exact (kv.normEnd ..).ite kv

theorem Kept.weltPoison (h : Kept s t) (g a) : Kept s (t.weltPoison g a) := by
  unfold State.weltPoison
  exact h.agentPut ..

theorem Kept.weltUpdate (h : Kept s t) (g l t' x rows reads writes marks known f) : Kept s (t.weltUpdate g l t' x rows reads writes marks known f).s := by
  unfold State.weltUpdate
  dsimp only
  split
  · refine Kept.weltCopy ?_ ..
    refine Kept.foldlOn Prod.fst ?_ _ fun u x h => ?_
    · exact h
    · split
      · refine Kept.foldl ?_ _ fun u x h => ?_
        · refine Kept.foldlOn Prod.fst ?_ _ fun u x h => ?_
          · exact h
          · exact h.agentRead ..
        · exact h.weltPoison ..
      · refine Kept.foldl ?_ _ fun u x h => ?_
        · refine Kept.foldlOn Prod.fst ?_ _ fun u x h => ?_
          · exact h
          · exact h.agentRead ..
        · exact h.agentPut ..
  · refine Kept.foldlOn Prod.fst ?_ _ fun u x h => ?_
    · exact h
    · split
      · refine Kept.foldl ?_ _ fun u x h => ?_
        · refine Kept.foldlOn Prod.fst ?_ _ fun u x h => ?_
          · exact h
          · exact h.agentRead ..
        · exact h.weltPoison ..
      · refine Kept.foldl ?_ _ fun u x h => ?_
        · refine Kept.foldlOn Prod.fst ?_ _ fun u x h => ?_
          · exact h
          · exact h.agentRead ..
        · exact h.agentPut ..

theorem Kept.weltRule (h : Kept s t) (hs l x rows) : Kept s (t.weltRule hs l x rows).s := by
  unfold State.weltRule
  dsimp only
  split
  · exact h.weltUpdate ..
  · exact h.weltUpdate ..
  · split
    · exact h.weltUpdate ..
    · exact h.weltUpdate ..

theorem Kept.weltRowsOn (h : Kept s t) (hs l) : Kept s (t.weltRowsOn hs l) := by
  unfold State.weltRowsOn
  dsimp only
  exact (h.weltDone ..).ite (((h.weltRule ..).onWelt ..).ite (((((h.weltRule ..).onWelt ..).onWelt ..).weltNext ..).ite (((h.weltRule ..).onWelt ..).onWelt ..)))

theorem Kept.facPartials (h : Kept s t) (g x h' rows w) : Kept s (t.facPartials g x h' rows w).1 := by
  unfold State.facPartials
  dsimp only
  refine Kept.foldlOn Prod.fst ?_ _ fun u x h => ?_
  · exact h
  · exact h.agentRead ..

theorem Kept.facBlock (h : Kept s t) (g hs x w) : Kept s (t.facBlock g hs x w) := by
  unfold State.facBlock
  dsimp only
  exact (h.weltPut ..).weltPut ..

theorem Kept.facElems (h : Kept s t) (g l x h' rows w) : Kept s (t.facElems g l x h' rows w).1 := by
  unfold State.facElems
  dsimp only
  refine Kept.weltCopy ?_ ..
  refine Kept.foldl ?_ _ fun u x h => ?_
  · refine Kept.foldlOn Prod.fst ?_ _ fun u x h => ?_
    · exact h
    · exact (h.agentRead ..).agentRead ..
  · exact h.agentPut ..

theorem Kept.facPoison (h : Kept s t) (g hs x) : Kept s (t.facPoison g hs x) := by
  unfold State.facPoison
  dsimp only
  refine Kept.foldl ?_ _ fun u x h => ?_
  · exact h
  · exact h.weltPoison ..

theorem Kept.weltFacOn (h : Kept s t) (hs l) : Kept s (t.weltFacOn hs l) := by
  unfold State.weltFacOn
  dsimp only
  exact (h.weltDone ..).ite (Kept.ite (Kept.onWelt (((h.facPartials ..).facBlock ..).ite (h.facPartials ..)) ..) (Kept.onWelt (((h.facElems ..).facPoison ..).ite (h.facElems ..)) ..))

theorem Kept.weltOn (h : Kept s t) (hs) : Kept s (t.weltOn hs) := by
  unfold State.weltOn
  dsimp only
  split
  · exact h
  · exact h.ite ((h.normOn ..).ite ((h.weltRowsOn ..).ite ((h.weltFacOn ..).ite h)))

theorem Kept.weltsOn (h : Kept s t) : Kept s (t.weltsOn) := by
  unfold State.weltsOn
  refine Kept.foldl ?_ _ fun u x h => ?_
  · exact h
  · exact h.weltOn ..

theorem Kept.stackArrivals (h : Kept s t) : Kept s (t.stackArrivals) := by
  unfold State.stackArrivals
  dsimp only
  refine Kept.foldl ?_ _ fun u x h => ?_
  · exact h
  · exact h.arrivals ..

theorem Kept.arrive (h : Kept s t) : Kept s (t.arrive) := by
  unfold State.arrive
  dsimp only
  refine Kept.performBacks ?_ ..
  refine Kept.verifyOn ?_ ..
  refine Kept.stopOn ?_ ..
  refine Kept.flashOn ?_ ..
  refine Kept.memsOn ?_ ..
  refine Kept.peersOn ?_ ..
  refine Kept.trainingOn ?_ ..
  refine Kept.packedOn ?_ ..
  refine Kept.weltsOn ?_ ..
  refine Kept.meetDown ?_ ..
  refine Kept.stackArrivals ?_ ..
  refine Kept.foldl ?_ _ fun u x h => ?_
  · exact h
  · refine Kept.detect ?_ ..
    exact h.settle ..


/-- One cycle of the clocks: whatever they come to, what falls in the new cycle is kept. -/
theorem Kept.advanced (h : Kept s t) (n c : Nat) : Kept s ({ t with now := n, coreClock := c } : State).arrive := by
  have k : Kept s { t with now := n, coreClock := c } := h.same rfl rfl
  exact k.arrive

theorem Kept.tick (h : Kept s t) : Kept s t.tick := by
  have k : Kept s (((t.cores.map (·.1)).foldl State.finishBundle t).pdnOn.hcCycle) := ((h.foldl _ fun u k h => h.finishBundle k).pdnOn).hcCycle
  unfold State.tick
  split
  · exact k.advanced _ _
  · exact h.same rfl rfl

/-- A step keeps the grade, and memory in its canonical form: a cycle of the clock does, and every command does. -/
theorem keptOut_step (s : State) : KeptOut s (step s) := by
  unfold step
  split
  · exact (Kept.refl s).tick.next
  next c rest e =>
    have k : Kept s { s with pending := rest } := (Kept.refl s).same rfl rfl
    exact ⟨(keptOut_exec _ c).goesOn, fun u eu => k.trans ((keptOut_exec _ c).state u eu)⟩

end Sys2Proof.Machine

open Sys2Proof Sys2Proof.Machine

/-- Settles O3: every branch of every command's meaning ends in a next state (`keptOut_exec`). -/
theorem everyCommandGoesOn : Obligations.EveryCommandGoesOn := fun c s => (keptOut_exec s c).goesOn

/-- Settles O4: whatever the front command is, or on an empty queue the cycle of the clock, each operation on the state keeps memory canonical (`keptOut_step`). -/
theorem stepKeepsMemoryCanonical : Obligations.StepKeepsMemoryCanonical :=
  fun s t w e => ((keptOut_step s).state t e).wf w

/-- Settles O6: no operation on the state writes the grade (`keptOut_step`). -/
theorem stepKeepsTheFusedGrade : Obligations.StepKeepsTheFusedGrade :=
  fun s t e => ((keptOut_step s).state t e).grade

end

section
set_option Elab.async false -- one proof after the other: the whole text stands near the memory limit of the check
/-! A step takes the front command; with none queued it is one cycle of the clocks, in which a unit at rest changes nothing else. -/
namespace Sys2Proof.Machine

variable {s : State}

theorem State.trainingOn_of_nil (h : s.training = []) : s.trainingOn = s := by
  have e : s.training.filter (fun x => x.2.due.all (fun d => s.now ≤ d)) = s.training := by simp [h]
  unfold State.trainingOn
  rw [e]

theorem State.performBacks_of_nil (h : s.writeBacks = []) (p : WriteBack → Bool) : s.performBacks p = s := by
  have e : s.writeBacks.filter (fun w => !p w) = s.writeBacks := by simp [h]
  have none : s.writeBacks.filter p = [] := by simp [h]
  unfold State.performBacks
  rw [e, none]
  rfl

theorem State.memsOn_of_nil (h : s.reqs = []) (k : s.sessions = []) : s.memsOn = s := by
  simp [State.memsOn, State.memCmds, h, k]

theorem State.packedOn_of_nil (h : s.packing = []) : s.packedOn = s := by simp [State.packedOn, h]

theorem State.peersOn_of_nil (h : s.peerDue = []) : s.peersOn = s := by simp [State.peersOn, h]

/-- Where nothing is at work nothing falls in a cycle. -/
theorem State.arrive_of_atRest (h : AtRest s) : s.arrive = s := by
  obtain ⟨hcores, hreqs, hwelts, -, hbacks, hpacking, htraining, hpeers, hsessions, hflash, hsnap, hverify, -⟩ := h
  have arrivals : s.stackArrivals = s := by simp [State.stackArrivals, hcores]
  have down : s.meetDown = s := by simp [State.meetDown, hreqs]
  have welts : s.weltsOn = s := by simp [State.weltsOn, hwelts]
  have flash : s.flashOn = s := by simp [State.flashOn, hflash]
  have stop : s.stopOn = s := by simp [State.stopOn, hsnap]
  have verify : s.verifyOn = s := by simp [State.verifyOn, hverify]
  simp only [State.arrive, hcores, List.map_nil, List.foldl_nil, arrivals, down, welts, State.packedOn_of_nil hpacking, State.trainingOn_of_nil htraining, State.peersOn_of_nil hpeers,
    State.memsOn_of_nil hreqs hsessions, flash, stop, verify, State.performBacks_of_nil hbacks]

/-- Where nothing is at work, issuing, powering down and charging before the cycle have nothing to do. -/
theorem State.begun_of_atRest (h : AtRest s) : ((s.cores.map (·.1)).foldl State.finishBundle s).pdnOn.hcCycle = s := by
  obtain ⟨hcores, -, -, hctls, -, -, -, -, -, -, -, -, hhost⟩ := h
  have down : s.pdnOn = s := by simp [State.pdnOn, hctls]
  simp only [hcores, List.map_nil, List.foldl_nil, down, State.hcCycle]
  refine List.foldlRecOn (motive := fun t => t = s) (List.range 64) _ rfl fun t ht k hk => ?_
  subst ht
  simp [hhost k (List.mem_range.mp hk)]

/-- The tensor-core clock moves by one in one of the DUTY of each sixteen cycles, or stays. -/
theorem State.tick_of_running (h : s.life = .running) {u : State} (hu : u = ((s.cores.map (·.1)).foldl State.finishBundle s).pdnOn.hcCycle) :
    ∃ n, s.tick = State.arrive { u with now := u.now + 1, coreClock := n } ∧ (n = u.coreClock ∨
      (n = u.coreClock + 1 ∧ arithIndex u.arithMhz u.now < arithIndex u.arithMhz (u.now + 1) ∧
        dutyRuns (u.fld ⟨.PWR_STATUS, selSv0, 0, 0⟩ PWR_STATUS.DUTY) (arithIndex u.arithMhz u.now) = true)) := by
  refine ⟨_, by unfold State.tick; rw [if_pos h, ← hu], ?_⟩
  split
  next moves => exact .inr ⟨rfl, by simpa using moves⟩
  next => exact .inl rfl

theorem State.tick_of_not_running (h : s.life ≠ .running) : s.tick = { s with now := s.now + 1 } := if_neg h

/-- A register whose reset word is that of its name reads as its name's fields say. -/
theorem State.fld_reset {r : Reg} {f : Fld} (n : RegName) (h : r.resetWord = BitVec.ofNat 64 n.resetNat) (z : bits (BitVec.ofNat 64 n.resetNat).toNat f.hi f.lo = 0) : State.reset.fld r f = 0 := by
  have word : State.reset.reg r = BitVec.ofNat 64 n.resetNat := h
  rw [State.fld, word, z]

end Sys2Proof.Machine

open Sys2Proof Sys2Proof.Machine

/-- Settles O1. -/
theorem stepTakesTheFrontCommand : Obligations.StepTakesTheFrontCommand := fun _ _ _ => rfl

/-- Settles O2: of a unit at rest neither what comes before the cycle nor what falls in it has anything to do. -/
theorem emptyQueuePassesOneCycle : Obligations.EmptyQueuePassesOneCycle := by
  have cycle : ∀ s : State, s.pending = [] → step s = .next s.tick := fun s e => by simp [step, e]
  refine ⟨?running, ?atRest, ?stopped⟩
  case running =>
    intro s u e l hu
    obtain ⟨n, ht, hn⟩ := State.tick_of_running l hu
    exact ⟨n, by rw [cycle s e, ht], hn⟩
  case atRest =>
    intro s e l h
    obtain ⟨n, ht, hn⟩ := State.tick_of_running l (State.begun_of_atRest h).symm
    have rest : AtRest { s with now := s.now + 1, coreClock := n } := h
    exact ⟨n, by rw [cycle s e, ht, State.arrive_of_atRest rest], hn⟩
  case stopped =>
    intro s e l
    rw [cycle s e, State.tick_of_not_running l]

/-- Settles O5: no byte is listed at reset. -/
theorem resetMemoryIsCanonical : Obligations.ResetMemoryIsCanonical := ⟨rfl, fun _ => rfl⟩

/-- Settles O9: no register has been written at reset, so each reads as its reset word. -/
theorem resetLeavesTheUnitIdle : Obligations.ResetLeavesTheUnitIdle := by
  have word : ∀ r : Reg, State.reset.reg r = r.resetWord := fun _ => rfl
  refine ⟨word, fun k n => ⟨rfl, rfl⟩, rfl, rfl, fun d i => ?_, fun n => ?_, fun k => ⟨rfl, ?_⟩, rfl, fun p => ?_, fun ic x => ?_⟩
  · have stored : State.reset.fld (ringReg .RING_STATUS d i) RING_STATUS.STATE = 0 := State.fld_reset .RING_STATUS rfl (by decide)
    have disabled : State.reset.fld (ringReg .RING_CFG d i) RING_CFG.ENABLE = 0 := State.fld_reset .RING_CFG rfl (by decide)
    have produced : State.reset.fld (ringReg .RING_PROD d i) RING_PROD.PRODUCED = 0 := State.fld_reset .RING_PROD rfl (by decide)
    have consumed : State.reset.fld (ringReg .RING_CONS d i) RING_CONS.CONSUMED = 0 := State.fld_reset .RING_CONS rfl (by decide)
    simp [State.ringState, State.ringStored, State.ringDepth, stored, disabled, produced, consumed]
  · exact State.fld_reset (r := leaseCfg n) .LEASE_CFG rfl (by decide)
  · have unbound : State.reset.fld (tcBind k) TC_BIND.MODE = 0 := State.fld_reset .TC_BIND rfl (by decide)
    simp [State.holder, unbound]
  · cases p
    case peer q =>
      have down : State.reset.fld (peerPort .PEER_PORT_STATUS q.val) PEER_PORT_STATUS.UP = 0 := State.fld_reset .PEER_PORT_STATUS rfl (by decide)
      simp [State.portUp, portRegs, down]
    case host h =>
      have down : State.reset.fld ⟨.HP_STATUS, selIo h.val, 0, 0⟩ PEER_PORT_STATUS.UP = 0 := State.fld_reset .HP_STATUS rfl (by decide)
      simp [State.portUp, portRegs, down]
  · have zero : (icPending ic x).resetWord = 0#64 := rfl
    simp [State.isPending, word, zero, bitAt]
end

section
set_option Elab.async false -- one proof after the other: the whole text stands near the memory limit of the check
/-! Register writes by the rules of their fields (00 R8-R10), and the clear commands (01 R27, R28). -/
namespace Sys2Proof.Machine

variable {s t : State} {a : Actor} {r : Reg}

/-- A write that reaches its register is answered with what the register's own rule gives. -/
theorem Writable.next {v : Nat} {st : Status} (h : Writable s a r) (e : s.writeAct a r v = (t, st)) : s.writeCmd a r.addr v = .next (t.answer st 0) := by
  rw [h.cmd, e]

/-! A register whose write is none of the common rules has the rule of its block. -/

/-- A register whose write is not ignored, in a block of a kind. -/
def Reg.ruledBy (r : Reg) (k : SelKind) : Prop := (r.name.ignored && (r.name != .CTX_TABLE && r.name != .SDM_PART && r.name != .EYE_CFG)) = false ∧ r.name.isPert = false ∧ r.name.layout.kind = k

theorem State.writeAct_cd (s : State) (a : Actor) {r : Reg} (v : Nat) (h : r.ruledBy .cd) : s.writeAct a r v = s.cdWrite a r v := by
  obtain ⟨named, pert, kind⟩ := h
  simp [State.writeAct, named, pert, kind]

theorem State.writeAct_hs (s : State) (a : Actor) {r : Reg} (v : Nat) (h : r.ruledBy .hs) : s.writeAct a r v = s.hsWrite a r v := by
  obtain ⟨named, pert, kind⟩ := h
  simp [State.writeAct, named, pert, kind]

theorem State.writeAct_ic (s : State) (a : Actor) {r : Reg} (v : Nat) (h : r.ruledBy .ic) : s.writeAct a r v = s.icWrite a r v := by
  obtain ⟨named, pert, kind⟩ := h
  simp [State.writeAct, named, pert, kind]

theorem State.writeAct_io (s : State) (a : Actor) {r : Reg} (v : Nat) (h : r.ruledBy .io ∨ r.ruledBy .hp) : s.writeAct a r v = s.ioWrite a r v := by
  rcases h with ⟨named, pert, kind⟩ | ⟨named, pert, kind⟩ <;> simp [State.writeAct, named, pert, kind]

theorem State.writeAct_sv (s : State) (a : Actor) {r : Reg} (v : Nat) (h : r.ruledBy .sv0) : s.writeAct a r v = s.svWrite a r v := by
  obtain ⟨named, pert, kind⟩ := h
  simp [State.writeAct, named, pert, kind]

/-- A register's value is a 64-bit word: a field of it reads the same from the number and from the word. -/
theorem bits_toNat_ofNat (w : Nat) {hi lo : Nat} (h : hi < 64) : bits (BitVec.ofNat 64 w).toNat hi lo = bits w hi lo := by
  refine Nat.eq_of_testBit_eq fun k => ?_
  rw [testBit_bits, testBit_bits, BitVec.toNat_ofNat, Nat.testBit_mod_two_pow]
  by_cases c : k < hi + 1 - lo
  · have : lo + k < 64 := by omega
    simp [this]
  · simp [c]

/-- A bit is 0 or 1 as the word's bit at its place. -/
theorem bits_one_eq (w k : Nat) : bits w k k = flag (w.testBit k) := by
  have e : k + 1 - k = 1 := by omega
  simp only [bits, e, flag, Nat.testBit, Nat.shiftRight_eq_div_pow, Nat.one_and_eq_mod_two, pow_one]
  rcases Nat.mod_two_eq_zero_or_one (w / 2 ^ k) with h | h <;> simp [h]

/-- What a write leaves of a W1C bit (00 R9). -/
theorem testBit_w1cKept (old v latest k : Nat) (h : k < 64) : (w1cKept old v latest).testBit k = (old.testBit k && !(v.testBit k && !latest.testBit k)) := by
  simp only [w1cKept, Nat.testBit_and, Nat.testBit_xor, Nat.testBit_two_pow_sub_one, h, decide_true, Bool.true_xor]

/-! What a write by the rules of a register's fields leaves of each. -/

/-- Fields that share no bit, each with its low bit below its high bit. -/
def Fld.apart (f g : Fld) : Bool := decide (g.lo ≤ g.hi) && (decide (f.hi < g.lo) || decide (g.hi < f.lo))

/-- What one field's rule makes of a register's value (00 R8, R9). -/
def FieldSpec.write (n : RegName) (v latest w : Nat) (f : FieldSpec) : Nat :=
  match f.acc with
  | .rw => if n.takes f (f.of v) then setBits w f.fld.hi f.fld.lo (f.of v) else w
  | .w1c => setBits w f.fld.hi f.fld.lo (bits (w1cKept w v latest) f.fld.hi f.fld.lo)
  | _ => w

theorem RegName.written_eq (n : RegName) (old v latest : Nat) : n.written old v latest = n.fields.foldl (FieldSpec.write n v latest) old := rfl

theorem FieldSpec.bits_write_apart {f : Fld} {g : FieldSpec} (h : f.apart g.fld = true) (n : RegName) (v latest w : Nat) :
    bits (FieldSpec.write n v latest w g) f.hi f.lo = bits w f.hi f.lo := by
  simp only [Fld.apart, Bool.and_eq_true, Bool.or_eq_true, decide_eq_true_eq] at h
  obtain ⟨order, out⟩ := h
  unfold FieldSpec.write
  split
  · split
    · exact bits_setBits_out _ _ _ _ _ _ order out
    · rfl
  · exact bits_setBits_out _ _ _ _ _ _ order out
  · rfl

theorem bits_writes_apart {f : Fld} {l : List FieldSpec} (h : l.all (fun g => f.apart g.fld) = true) (n : RegName) (v latest w : Nat) :
    bits (l.foldl (FieldSpec.write n v latest) w) f.hi f.lo = bits w f.hi f.lo := by
  induction l generalizing w with
  | nil => rfl
  | cons g l ih =>
    simp only [List.all_cons, Bool.and_eq_true] at h
    exact (ih h.2 _).trans (FieldSpec.bits_write_apart h.1 n v latest w)

/-- A readable and writable field reads, after a write whose value it takes, what was written, where the register's fields before it are `l` and those after it lie apart from it. -/
theorem RegName.bits_written {n : RegName} {f : FieldSpec} (l m : List FieldSpec) (fields : n.fields = l ++ f :: m) (acc : f.acc = .rw) (order : f.fld.lo ≤ f.fld.hi) (apart : m.all (fun g => f.fld.apart g.fld) = true)
    {v : Nat} (takes : n.takes f (f.of v) = true) (old latest : Nat) : bits (n.written old v latest) f.fld.hi f.fld.lo = f.of v := by
  have own (w : Nat) : FieldSpec.write n v latest w f = setBits w f.fld.hi f.fld.lo (f.of v) := by simp [FieldSpec.write, acc, takes]
  rw [n.written_eq, fields, List.foldl_append, List.foldl_cons, bits_writes_apart apart, own, bits_setBits_same _ _ _ _ order]
  exact Nat.mod_eq_of_lt (bits_lt ..)

/-- A field as wide as its range takes every value. -/
theorem RegName.takes_all {n : RegName} {f : FieldSpec} (named : n ≠ .PEER_PORT_CFG) (whole : f.min = 0 ∧ f.max + 1 = 2 ^ (f.fld.hi + 1 - f.fld.lo) ∧ f.mult = 1) (v : Nat) : n.takes f (f.of v) = true := by
  obtain ⟨low, high, mult⟩ := whole
  have top : f.of v < 2 ^ (f.fld.hi + 1 - f.fld.lo) := bits_lt ..
  have fits : f.of v ≤ f.max := by omega
  have name : (n == RegName.PEER_PORT_CFG) = false := by simpa using named
  simp [RegName.takes, FieldSpec.takes, low, fits, mult, name, Nat.mod_one]

/-! CORE_FMT_EVENTS (02 R57). -/

theorem fields_CORE_FMT_EVENTS : RegName.fields .CORE_FMT_EVENTS =
    [⟨CORE_FMT_EVENTS.NAN_TO_INT, .w1c, 0, 1, 1, 0⟩, ⟨CORE_FMT_EVENTS.OVF_SAT, .w1c, 0, 1, 1, 0⟩, ⟨CORE_FMT_EVENTS.OVF_NONFINITE, .w1c, 0, 1, 1, 0⟩, ⟨CORE_FMT_EVENTS.SCALE_NAN, .w1c, 0, 1, 1, 0⟩] := rfl

theorem written_CORE_FMT_EVENTS (old v latest : Nat) :
    bits (RegName.written .CORE_FMT_EVENTS old v latest) 0 0 = if bitAt v 0 && !bitAt latest 0 then 0 else bits old 0 0 := by
  have bit : ∀ w : Nat, bitAt w 0 = w.testBit 0 := fun w => by rw [bitAt_eq_bits, bits_one_eq]; cases w.testBit 0 <;> rfl
  have kept : ∀ w : Nat, bits (setBits w 0 0 (bits (w1cKept w v latest) 0 0)) 0 0 = bits (w1cKept w v latest) 0 0 := fun w => by
    rw [bits_setBits_same _ _ _ _ (Nat.le_refl _)]
    exact Nat.mod_eq_of_lt (bits_lt ..)
  simp only [RegName.written, fields_CORE_FMT_EVENTS, List.foldl_cons, List.foldl_nil, CORE_FMT_EVENTS.NAN_TO_INT, CORE_FMT_EVENTS.OVF_SAT, CORE_FMT_EVENTS.OVF_NONFINITE, CORE_FMT_EVENTS.SCALE_NAN, kept]
  rw [bits_one_eq, testBit_w1cKept _ _ _ _ (by decide), bit, bit, bits_one_eq old]
  have out : ∀ (w x : Nat) {k : Nat}, 0 < k → (setBits w k k x).testBit 0 = w.testBit 0 := fun w x k h => by
    rw [testBit_setBits _ _ _ _ _ (Nat.le_refl _), if_neg (by omega)]
  rw [out _ _ (by decide), out _ _ (by decide), out _ _ (by decide)]
  cases v.testBit 0 <;> cases latest.testBit 0 <;> simp [flag]

/-- Firmware's write of CORE_FMT_EVENTS changes that register alone, by the rule of its W1C bits. -/
theorem State.writeAct_CORE_FMT_EVENTS (s : State) (k v : Nat) : s.writeAct .firmware (coreReg .CORE_FMT_EVENTS k) v =
    (s.setReg (coreReg .CORE_FMT_EVENTS k) (BitVec.ofNat 64 (RegName.written .CORE_FMT_EVENTS (s.reg (coreReg .CORE_FMT_EVENTS k)).toNat v (s.thisCycle (coreReg .CORE_FMT_EVENTS k)))), .ok) := rfl

/-! TEMPER_CFG (06 R254). -/

theorem State.writeAct_TEMPER_CFG (s : State) (d v : Nat) : s.writeAct .mgmt (temperCfg d) v =
    if RegName.inRange .TEMPER_CFG v then (s.setReg (temperCfg d) (BitVec.ofNat 64 (RegName.written .TEMPER_CFG (s.reg (temperCfg d)).toNat v (s.thisCycle (temperCfg d)))), .ok) else (s, .range) := by
  have plain : s.writeAct .mgmt (temperCfg d) v = s.plainWrite .mgmt (temperCfg d) v := rfl
  have name : (temperCfg d).name = .TEMPER_CFG := rfl
  rw [plain, State.plainWrite, name]
  cases RegName.inRange .TEMPER_CFG v <;> rfl

/-- STARVE_LIMIT (06 R254). -/
def starveLimit : FieldSpec := ⟨TEMPER_CFG.STARVE_LIMIT, .rw, 1024, 65535, 1, 8192⟩

theorem takes_starveLimit (v : Nat) : RegName.takes .TEMPER_CFG starveLimit (starveLimit.of v) = true ↔ 1024 ≤ bits v 15 0 := by
  have word : bits v 15 0 < 65536 := bits_lt ..
  have rule : RegName.takes .TEMPER_CFG starveLimit (starveLimit.of v) = ((decide (1024 ≤ bits v 15 0) && decide (bits v 15 0 ≤ 65535) && bits v 15 0 % 1 == 0) && !false) := rfl
  simp [rule, Nat.le_of_lt_succ word, Nat.mod_one]

theorem inRange_TEMPER_CFG (v : Nat) : RegName.inRange .TEMPER_CFG v = true ↔ 1024 ≤ bits v 15 0 := by
  have rule : RegName.inRange .TEMPER_CFG v = (RegName.takes .TEMPER_CFG starveLimit (starveLimit.of v) && true) := rfl
  rw [rule, Bool.and_true, takes_starveLimit]

theorem written_TEMPER_CFG {v : Nat} (h : 1024 ≤ bits v 15 0) (old latest : Nat) : bits (RegName.written .TEMPER_CFG old v latest) 15 0 = bits v 15 0 :=
  RegName.bits_written [] [] rfl rfl (by decide) rfl ((takes_starveLimit v).2 h) old latest

/-! The clear commands. -/

theorem State.thisCycle_clearReg (s : State) (q r : Reg) : (s.clearReg q).thisCycle r = s.thisCycle r := by
  unfold State.clearReg
  split <;> rfl

/-- A counter register holds what it has counted in this cycle once it, or another name of its address, is cleared; clearing another leaves it. -/
theorem State.reg_clearReg_of (s : State) {q r : Reg} (hq : q.resetWord = 0#64) (hr : r.resetWord = 0#64) (h : q.addr = r.addr ∨ s.reg r = BitVec.ofNat 64 (s.thisCycle r)) :
    (s.clearReg q).reg r = BitVec.ofNat 64 (s.thisCycle r) := by
  by_cases e : q.addr = r.addr
  · have word : ∀ t : State, t.reg r = t.reg q := fun t => by simp [State.reg, e, hq, hr]
    have count : s.thisCycle q = s.thisCycle r := by simp [State.thisCycle, e]
    rw [word, s.reg_clearReg_same q hq, count]
  · have other : (s.clearReg q).reg r = s.reg r := by
      unfold State.clearReg
      split
      · exact s.reg_resetReg_ne (Ne.symm e)
      · exact s.reg_setReg_ne _ (Ne.symm e)
    rw [other]
    exact h.resolve_left e

/-- Each of a list of counters holds, once all are cleared, what it has counted in this cycle (01 R28). -/
theorem State.reg_clearRegs (s : State) {l : List Reg} (hl : ∀ q, q ∈ l → q.resetWord = 0#64) (hr : r.resetWord = 0#64) (h : r ∈ l ∨ s.reg r = BitVec.ofNat 64 (s.thisCycle r)) :
    (l.foldl State.clearReg s).reg r = BitVec.ofNat 64 (s.thisCycle r) := by
  induction l generalizing s with
  | nil => exact h.resolve_left List.not_mem_nil
  | cons q l ih =>
    have zero := hl q List.mem_cons_self
    have cleared := s.reg_clearReg_of (q := q) zero hr
    have rest := ih (s.clearReg q) (fun x hx => hl x (List.mem_cons_of_mem _ hx))
    rw [State.thisCycle_clearReg] at rest
    refine rest ?_
    rcases h with h | h
    · rcases List.mem_cons.1 h with rfl | h
      · exact .inr (cleared (.inl rfl))
      · exact .inl h
    · exact .inr (cleared (.inr h))

theorem OnlyRegs.clearRegs (s : State) (l : List Reg) : OnlyRegs s (l.foldl State.clearReg s) l :=
  OnlyRegs.foldl l (fun _ _ hx a => a.clearReg hx) (OnlyRegs.refl s l)

/-- A clear command that clears a list of counters, none of which has another reset value than zero. -/
theorem Writable.clears {l : List Reg} {v : Nat} (h : Writable s a r) (e : s.writeAct a r v = (l.foldl State.clearReg s, .ok)) (zero : ∀ q, q ∈ l → q.resetWord = 0#64) :
    ∃ t : State, s.writeCmd a r.addr v = .next (t.answer .ok 0) ∧ OnlyRegs s t l ∧ ∀ q, q ∈ l → t.reg q = BitVec.ofNat 64 (s.thisCycle q) :=
  ⟨_, h.next e, OnlyRegs.clearRegs s l, fun q hq => s.reg_clearRegs zero (zero q hq) (.inl hq)⟩

/-- The counters of a family are cleared as the list of them. -/
theorem State.foldl_clear_map (s : State) (l : List Nat) (f : Nat → Reg) : l.foldl (fun s k => s.clearReg (f k)) s = (l.map f).foldl State.clearReg s := by
  rw [List.foldl_map]

theorem bitAt_clear (v : Nat) : bitAt (setBit v 0 true) 0 = true := bitAt_setBit_same v 0 true

/-! MCQ_CLR (06 R256). -/

/-- The three statistics of MCQ_STAT that MCQ_CLR clears. -/
def mcqTallies : List Fld := [MCQ_STAT.PEAK, MCQ_STAT.CAP_DEFERS, MCQ_STAT.STARVE_GRANTS]

theorem OnlyRegs.clearTally {rs : List Reg} (fs : List Fld) (h : OnlyRegs s t rs) (hr : r ∈ rs) : OnlyRegs s (t.clearTally r fs) rs :=
  OnlyRegs.foldl fs (fun _ _ _ b => b.setFld _ _ hr) h

theorem State.fld_mcqStat_clearTally (s : State) (d k : Nat) :
    (∀ f, f ∈ mcqTallies → (s.clearTally (mcqStat d k) mcqTallies).fld (mcqStat d k) f = bits (s.thisCycle (mcqStat d k)) f.hi f.lo) ∧
      (s.clearTally (mcqStat d k) mcqTallies).fld (mcqStat d k) MCQ_STAT.INFLIGHT = s.fld (mcqStat d k) MCQ_STAT.INFLIGHT := by
  have peak : bits (s.thisCycle (mcqStat d k)) 63 52 < 4096 := bits_lt ..
  have defers : bits (s.thisCycle (mcqStat d k)) 39 20 < 1048576 := bits_lt ..
  have starved : bits (s.thisCycle (mcqStat d k)) 19 0 < 1048576 := bits_lt ..
  have count (t : State) (f : Fld) (v : Nat) : (t.setFld (mcqStat d k) f v).thisCycle (mcqStat d k) = t.thisCycle (mcqStat d k) := rfl
  constructor
  · simp only [mcqTallies, List.mem_cons, List.not_mem_nil, or_false, forall_eq_or_imp, forall_eq]
    simp [State.clearTally, count, State.fld_setFld_same, State.fld_setFld_other, MCQ_STAT.PEAK, MCQ_STAT.CAP_DEFERS, MCQ_STAT.STARVE_GRANTS, peak, defers, starved]
  · simp [State.clearTally, mcqTallies, State.fld_setFld_other, MCQ_STAT.PEAK, MCQ_STAT.CAP_DEFERS, MCQ_STAT.STARVE_GRANTS, MCQ_STAT.INFLIGHT]

theorem addr_mcqStat_ne {k j : Nat} (h : j ≠ k) (d : Nat) : (mcqStat d j).addr ≠ (mcqStat d k).addr := by
  simp only [Reg.addr, mcqStat, RegName.layout]; omega

/-- The statistics of queue `k` hold what they have counted in this cycle of `s`, and INFLIGHT is as in `s`. -/
def McqCleared (s t : State) (d k : Nat) : Prop :=
  (∀ f, f ∈ mcqTallies → t.fld (mcqStat d k) f = bits (s.thisCycle (mcqStat d k)) f.hi f.lo) ∧ t.fld (mcqStat d k) MCQ_STAT.INFLIGHT = s.fld (mcqStat d k) MCQ_STAT.INFLIGHT

theorem State.clearTally_mcq_of {k j : Nat} {d : Nat} (h : j = k ∧ t.fld (mcqStat d k) MCQ_STAT.INFLIGHT = s.fld (mcqStat d k) MCQ_STAT.INFLIGHT ∨ McqCleared s t d k)
    (count : t.thisCycle (mcqStat d k) = s.thisCycle (mcqStat d k)) : McqCleared s (t.clearTally (mcqStat d j) mcqTallies) d k := by
  by_cases e : j = k
  · subst e
    obtain ⟨tallies, inflight⟩ := t.fld_mcqStat_clearTally d j
    refine ⟨fun f hf => by rw [tallies f hf, count], inflight.trans ?_⟩
    rcases h with ⟨-, h⟩ | ⟨-, h⟩ <;> exact h
  · have other (f : Fld) : (t.clearTally (mcqStat d j) mcqTallies).fld (mcqStat d k) f = t.fld (mcqStat d k) f :=
      ((OnlyRegs.refl t [mcqStat d j]).clearTally mcqTallies List.mem_cons_self).same.fld f (by simpa using addr_mcqStat_ne (Ne.symm e) d)
    have h := h.resolve_left fun x => e x.1
    exact ⟨fun f hf => (other f).trans (h.1 f hf), (other _).trans h.2⟩

/-- MCQ_CLR of a list of queues: those listed are cleared. -/
theorem State.clearMcqs_spec {l : List Nat} {d k : Nat} (h : k ∈ l ∧ t.fld (mcqStat d k) MCQ_STAT.INFLIGHT = s.fld (mcqStat d k) MCQ_STAT.INFLIGHT ∨ McqCleared s t d k)
    (count : t.thisCycle (mcqStat d k) = s.thisCycle (mcqStat d k)) : McqCleared s (l.foldl (fun s k => s.clearTally (mcqStat d k) mcqTallies) t) d k := by
  induction l generalizing t with
  | nil => exact h.resolve_left fun x => List.not_mem_nil x.1
  | cons j l ih =>
    refine ih ?_ count
    by_cases e : j = k
    · exact .inr (State.clearTally_mcq_of (h.imp (fun x => ⟨e, x.2⟩) id) count)
    · rcases h with ⟨hk, h⟩ | h
      · refine .inl ⟨(List.mem_cons.1 hk).resolve_left (Ne.symm e), ?_⟩
        rw [← h]
        exact ((OnlyRegs.refl t [mcqStat d j]).clearTally mcqTallies List.mem_cons_self).same.fld _ (by simpa using addr_mcqStat_ne (Ne.symm e) d)
      · exact .inr (State.clearTally_mcq_of (.inr h) count)

/-- A state whose register file is that of another differs in no more registers. -/
theorem SameRegs.of_eq {u : State} {rs : List Reg} (h : SameRegs s t rs) (e : u.regs = t.regs) : SameRegs s u rs := h.trans (SameRegs.of_regs e)

/-! Registers beside the parts of the state that are no registers. -/

section
variable (s : State) (q : Reg) (g : Fld)

@[simp] theorem State.reg_onCtl (d k : Nat) (f : Controller → Controller) : (s.onCtl d k f).reg q = s.reg q := rfl
@[simp] theorem State.fld_onCtl (d k : Nat) (f : Controller → Controller) : (s.onCtl d k f).fld q g = s.fld q g := rfl
@[simp] theorem State.reg_onColl (i : Nat) (f : CollEngine → CollEngine) : (s.onColl i f).reg q = s.reg q := rfl
@[simp] theorem State.fld_onColl (i : Nat) (f : CollEngine → CollEngine) : (s.onColl i f).fld q g = s.fld q g := rfl
@[simp] theorem State.reg_onWelt (i : Nat) (f : WeltRun → WeltRun) : (s.onWelt i f).reg q = s.reg q := rfl
@[simp] theorem State.fld_onWelt (i : Nat) (f : WeltRun → WeltRun) : (s.onWelt i f).fld q g = s.fld q g := rfl
@[simp] theorem State.reg_onCore (k : Nat) (f : Core → Core) : (s.onCore k f).reg q = s.reg q := rfl
@[simp] theorem State.fld_onCore (k : Nat) (f : Core → Core) : (s.onCore k f).fld q g = s.fld q g := rfl
@[simp] theorem State.reg_setCore (k : Nat) (c : Core) : (s.setCore k c).reg q = s.reg q := rfl
@[simp] theorem State.fld_setCore (k : Nat) (c : Core) : (s.setCore k c).fld q g = s.fld q g := rfl
@[simp] theorem State.reg_setConn (x y : Nat) (c : Conn) : (s.setConn x y c).reg q = s.reg q := rfl
@[simp] theorem State.fld_setConn (x y : Nat) (c : Conn) : (s.setConn x y c).fld q g = s.fld q g := rfl
@[simp] theorem State.reg_setRx (x : Nat) (c : HostRx) : (s.setRx x c).reg q = s.reg q := rfl
@[simp] theorem State.fld_setRx (x : Nat) (c : HostRx) : (s.setRx x c).fld q g = s.fld q g := rfl
@[simp] theorem State.reg_setRun (x y : Nat) (c : StackRun) : (s.setRun x y c).reg q = s.reg q := rfl
@[simp] theorem State.fld_setRun (x y : Nat) (c : StackRun) : (s.setRun x y c).fld q g = s.fld q g := rfl

end

/-! Addresses, and words that hold themselves. -/

/-- Registers of one layout of strides lie apart where their bases do. -/
theorem addr_ne_of_base {n m : RegName} (x i j : Nat) (h : n.layout.base ≠ m.layout.base ∧ n.layout.strideI = m.layout.strideI ∧ n.layout.strideJ = m.layout.strideJ) :
    (⟨n, x, i, j⟩ : Reg).addr ≠ (⟨m, x, i, j⟩ : Reg).addr := by
  obtain ⟨hb, hi, hj⟩ := h
  simp only [Reg.addr, hi, hj]
  omega

theorem addr_ringReg_ne {n m : RegName} (d i : Nat) (h : n.layout.base ≠ m.layout.base ∧ n.layout.strideI = m.layout.strideI ∧ n.layout.strideJ = m.layout.strideJ) :
    (ringReg n d i).addr ≠ (ringReg m d i).addr := addr_ne_of_base _ _ _ h

/-! The commands. -/

theorem exec_registerWrite (s : State) (a : Actor) {r : Reg} (low : r.addr < 2 ^ 48) (v : Word) : exec (.registerWrite a (BitVec.ofNat 48 r.addr) v) s = s.writeCmd a r.addr v.toNat := by
  have e : (BitVec.ofNat 48 r.addr).toNat = r.addr := by rw [BitVec.toNat_ofNat, Nat.mod_eq_of_lt low]
  change s.writeCmd a (BitVec.ofNat 48 r.addr).toNat v.toNat = _
  rw [e]

theorem addr_temperCfg_lt (d : Die) : (temperCfg d.val).addr < 2 ^ 48 := by
  have h := d.isLt
  simp only [Reg.addr, temperCfg, RegName.layout, selCd]
  omega

end Sys2Proof.Machine

open Sys2Proof Sys2Proof.Machine

/-- Settles O10: a write that reaches its register is its register's rule, and the two registers told apart have no rule but their fields'. -/
theorem registerWriteFollowsTheFieldRules : Obligations.RegisterWriteFollowsTheFieldRules := by
  unfold Obligations.RegisterWriteFollowsTheFieldRules
  refine ⟨?rule, ?w1c, ?refused, ?taken⟩
  case rule =>
    intro s a r v h low
    rw [exec_registerWrite s a low v]
    exact h.cmd v.toNat
  case w1c =>
    intro s k v h low
    rw [exec_registerWrite s _ low v]
    refine ⟨_, h.next (s.writeAct_CORE_FMT_EVENTS k v.toNat), (OnlyRegs.refl s _).setReg _ List.mem_cons_self, ?_⟩
    rw [State.fld_setReg_same, bits_toNat_ofNat _ (by decide)]
    exact written_CORE_FMT_EVENTS _ _ _
  case refused =>
    intro s d v h small
    rw [exec_registerWrite s _ (addr_temperCfg_lt d) v]
    refine h.next ((s.writeAct_TEMPER_CFG d.val v.toNat).trans (if_neg ?_))
    rw [inRange_TEMPER_CFG]
    omega
  case taken =>
    intro s d v h large
    rw [exec_registerWrite s _ (addr_temperCfg_lt d) v]
    refine ⟨_, h.next ((s.writeAct_TEMPER_CFG d.val v.toNat).trans (if_pos ((inRange_TEMPER_CFG _).2 large))), (OnlyRegs.refl s _).setReg _ List.mem_cons_self, ?_⟩
    rw [State.fld_setReg_same, bits_toNat_ofNat _ (by decide)]
    exact written_TEMPER_CFG large _ _

/-- Settles O11: each clear command clears the list of its counters. -/
theorem clearCommandsZeroTheirCounters : Obligations.ClearCommandsZeroTheirCounters := by
  unfold Obligations.ClearCommandsZeroTheirCounters
  refine ⟨?link, ?core, ?shared, ?memc, ?port, ?fab, ?host, ?mcq⟩
  case link =>
    intro s a e v h port
    have act : s.writeAct a (linkReg .LINK_ERR_CLR e.sel.val e.port.val) (setBit v.toNat 0 true) = s.linkErrClr e.sel.val e.port.val (setBit v.toNat 0 true) := rfl
    obtain ⟨t, n, only, zero⟩ := h.clears (l := [linkReg .LINK_ERR_CNT e.sel.val e.port.val]) (act.trans (by simp [State.linkErrClr, port])) (by rintro q hq; cases List.mem_singleton.1 hq; rfl)
    exact ⟨t, n, only, zero _ List.mem_cons_self⟩
  case core =>
    intro s a d c v h
    have act : s.writeAct a ⟨.ROW_ECC_CLR, selCd d.val, c.val, 0⟩ (setBit v.toNat 0 true) = s.rowEccClr d.val (some c.val) (setBit v.toNat 0 true) := rfl
    obtain ⟨t, n, only, zero⟩ := h.clears (act.trans (by simp only [State.rowEccClr, bitAt_clear, State.foldl_clear_map]; rfl)) (List.forall_mem_map.2 fun _ _ => rfl)
    exact ⟨t, n, only, fun b hb => zero _ (List.mem_map_of_mem (List.mem_range.2 hb))⟩
  case shared =>
    intro s a d v h
    have act : s.writeAct a ⟨.SDM_ECC_CLR, selCd d.val, 0, 0⟩ (setBit v.toNat 0 true) = s.rowEccClr d.val none (setBit v.toNat 0 true) := rfl
    obtain ⟨t, n, only, zero⟩ := h.clears (act.trans (by simp only [State.rowEccClr, bitAt_clear, State.foldl_clear_map]; rfl)) (List.forall_mem_map.2 fun _ _ => rfl)
    exact ⟨t, n, only, fun b hb => zero _ (List.mem_map_of_mem (List.mem_range.2 hb))⟩
  case memc =>
    intro s a d k v h
    have act : s.writeAct a (memc .MEMC_ECC_CLR d.val k.val) (setBit v.toNat 0 true) = s.memcEccClr d.val k.val (setBit v.toNat 0 true) := rfl
    obtain ⟨t, n, only, zero⟩ := h.clears (act.trans (by simp only [State.memcEccClr, bitAt_clear, State.foldl_clear_map]; rfl)) (List.forall_mem_map.2 fun _ _ => rfl)
    exact ⟨t, n, only, fun p hp => zero _ (List.mem_map_of_mem (List.mem_range.2 hp))⟩
  case port =>
    intro s a q v h
    have act : s.writeAct a (peerPort .PEER_PORT_CLR q.val) (setBit v.toNat 0 true) = s.peerPortClr (4 * (20 + q.val / 4 - 20) + q.val % 4) (setBit v.toNat 0 true) := rfl
    have port : 4 * (20 + q.val / 4 - 20) + q.val % 4 = q.val := by omega
    rw [port] at act
    obtain ⟨t, n, only, zero⟩ := h.clears (l := [peerPort .PEER_PORT_ERR q.val]) (act.trans (by simp [State.peerPortClr])) (by rintro q hq; cases List.mem_singleton.1 hq; rfl)
    exact ⟨t, n, only, zero _ List.mem_cons_self⟩
  case fab =>
    intro s a v h
    have act : s.writeAct a ⟨.FAB_STAT_CLR, selSv0, 0, 0⟩ (setBit v.toNat 0 true) = s.fabStatClr (setBit v.toNat 0 true) := rfl
    obtain ⟨t, n, only, zero⟩ := h.clears (l := [fabStat]) (act.trans (by simp [State.fabStatClr])) (by rintro q hq; cases List.mem_singleton.1 hq; rfl)
    exact ⟨t, n, only, zero _ List.mem_cons_self⟩
  case host =>
    intro s a x v h
    have act : s.writeAct a (hp .HP_CLR x.val) (setBit v.toNat 0 true) = s.hpClr (20 + x.val - 20) (setBit v.toNat 0 true) := rfl
    rw [Nat.add_sub_cancel_left] at act
    exact h.clears (l := [hp .HP_ERR x.val, hp .HP_SEC x.val, hp .HP_FIFO_STAT x.val]) (act.trans (by simp [State.hpClr])) (by
      intro q hq
      simp only [List.mem_cons, List.not_mem_nil, or_false] at hq
      rcases hq with rfl | rfl | rfl <;> rfl)
  case mcq =>
    intro s a d v h
    have act : s.writeAct a ⟨.MCQ_CLR, selCd d.val, 0, 0⟩ (setBit v.toNat 0 true) = s.mcqClr d.val (setBit v.toNat 0 true) := rfl
    have clear : s.mcqClr d.val (setBit v.toNat 0 true) = ((List.range 6).foldl (fun s k => s.clearTally (mcqStat d.val k) mcqTallies) s, .ok) := by
      simp only [State.mcqClr, bitAt_clear]
      rfl
    refine ⟨_, h.next (act.trans clear), ?_, fun k hk => ?_⟩
    · exact OnlyRegs.foldl _ (fun _ k hk b => b.clearTally mcqTallies (List.mem_map_of_mem hk)) (OnlyRegs.refl s _)
    · obtain ⟨tallies, inflight⟩ := State.clearMcqs_spec (s := s) (.inl ⟨List.mem_range.2 hk, rfl⟩) (rfl : s.thisCycle (mcqStat d.val k) = _)
      exact ⟨tallies _ (by simp [mcqTallies]), tallies _ (by simp [mcqTallies]), tallies _ (by simp [mcqTallies]), inflight⟩
end

section
set_option Elab.async false -- one proof after the other: the whole text stands near the memory limit of the check
/-! Rings: base, configuration, publishing and control (04 R150-R155, R166, R167). -/
namespace Sys2Proof.Machine

variable {s t : State} {a : Actor} {d i : Nat}

theorem State.cdWrite_RING_BASE (s : State) (a : Actor) (d i v : Nat) : s.cdWrite a (ringReg .RING_BASE d i) v = s.ringBaseWrite d i v := rfl
theorem State.cdWrite_RING_CFG (s : State) (a : Actor) (d i v : Nat) : s.cdWrite a (ringReg .RING_CFG d i) v = s.ringCfgWrite a d i v := rfl
theorem State.cdWrite_RING_PROD (s : State) (a : Actor) (d i v : Nat) : s.cdWrite a (ringReg .RING_PROD d i) v = s.ringProdWrite d i v := rfl

/-- The low field of a number that is that field already. -/
theorem bits_bits_low (w hi : Nat) : bits (bits w hi 0) hi 0 = bits w hi 0 := by simp [bits]

theorem State.ringBaseWrite_of (off : s.fld (ringReg .RING_CFG d i) RING_CFG.ENABLE = 0) (idle : s.ringCore d i = none) {v : Nat} (aligned : bits v 11 0 = 0) (space : bits v 47 44 ≤ 2) :
    s.ringBaseWrite d i v = (((s.setReg (ringReg .RING_BASE d i) (BitVec.ofNat 64 (bits v 47 0))).setReg (ringReg .RING_PROD d i) 0).setReg (ringReg .RING_CONS d i) 0, .ok) := by
  have low : bits v 47 0 % 4096 = 0 := by
    simp only [bits] at aligned ⊢
    omega
  have high : ¬2 < bits (bits v 47 0) 47 44 := by
    simp only [bits] at space ⊢
    omega
  simp [State.ringBaseWrite, off, idle, low, high]

theorem State.ringBaseWrite_refused (h : s.fld (ringReg .RING_CFG d i) RING_CFG.ENABLE = 1 ∨ (s.ringCore d i).isSome = true) (v : Nat) : s.ringBaseWrite d i v = (s, .state) := by
  simp [State.ringBaseWrite, h]

theorem State.underrunOver_of (h : s.ringStored d i ≠ 7) : s.underrunOver d i = s := by simp [State.underrunOver, h]

theorem State.underrunOver_ends (h : s.ringStored d i = 7) (k : s.ringDepth d i ≠ 0) : s.underrunOver d i = s.setFld (ringReg .RING_STATUS d i) RING_STATUS.STATE 3 := by
  simp [State.underrunOver, h, k]

theorem State.wholeFault_of (h : s.fld (ringReg .RING_CFG d i) RING_CFG.WHOLE = 0 ∨ s.fld (ringReg .RING_CFG d i) RING_CFG.ENABLE = 0) : s.wholeFault d i = s := by
  unfold State.wholeFault
  rcases h with h | h <;> simp [h]

/-! RING_CFG (04 R151-R153). -/

/-- The fields, but ENABLE, that firmware's write `v` leaves of a disabled ring's RING_CFG `old`, with every field in range. -/
def ringCfgBody (old v : Nat) : Nat :=
  let own := ringOwn.foldl (fun w f => setBits w f.hi f.lo (bits v f.hi f.lo)) old
  let wait := setBits own RING_CFG.WAIT_TMO.hi RING_CFG.WAIT_TMO.lo (bits v RING_CFG.WAIT_TMO.hi RING_CFG.WAIT_TMO.lo)
  setBits wait RING_CFG.WHOLE.hi RING_CFG.WHOLE.lo (bits v RING_CFG.WHOLE.hi RING_CFG.WHOLE.lo)

/-- The word that such a write with ENABLE 0 leaves. -/
def ringCfgWord (old v : Nat) : Nat := setBits (ringCfgBody old v) RING_CFG.ENABLE.hi RING_CFG.ENABLE.lo 0

/-- Whether the write gives the ring another owner, core or size, which ends the claims of its bundles (04 R174). -/
def ringCfgMoves (old v : Nat) : Bool := ringOwn.any (fun f => bits (ringCfgBody old v) f.hi f.lo != bits old f.hi f.lo)

theorem ringCfgWord_fields (old v : Nat) :
    bits (ringCfgWord old v) 63 56 = bits v 63 56 ∧ bits (ringCfgWord old v) 55 46 = bits v 55 46 ∧ bits (ringCfgWord old v) 45 39 = bits v 45 39 ∧ bits (ringCfgWord old v) 38 34 = bits v 38 34 ∧
      bits (ringCfgWord old v) 33 29 = bits v 33 29 ∧ bits (ringCfgWord old v) 1 1 = bits v 1 1 ∧ bits (ringCfgWord old v) 0 0 = 0 := by
  have whole (hi lo : Nat) : bits v hi lo % 2 ^ (hi + 1 - lo) = bits v hi lo := Nat.mod_eq_of_lt (bits_lt ..)
  have bit : bits v 1 1 < 2 := bits_lt ..
  refine ⟨?_, ?_, ?_, ?_, ?_, ?_, ?_⟩ <;>
    simp [ringCfgWord, ringCfgBody, ringOwn, RING_CFG.LEASE, RING_CFG.CONTEXT, RING_CFG.CORE, RING_CFG.SIZE_LOG2, RING_CFG.WAIT_TMO, RING_CFG.WHOLE, RING_CFG.ENABLE, bits_setBits_out, -Nat.reducePow, whole, Nat.mod_eq_of_lt bit]

/-- A state with RING_CFG written, and the claims of the ring's bundles ended where `moves`. -/
def State.ringConfigured (s : State) (d i w : Nat) (moves : Bool) : State :=
  if moves then (s.setReg (ringReg .RING_CFG d i) (BitVec.ofNat 64 w)).dropClaims (globalRing d i) else s.setReg (ringReg .RING_CFG d i) (BitVec.ofNat 64 w)

theorem State.ringConfigured_spec (s : State) (d i w : Nat) (moves : Bool) : (s.ringConfigured d i w moves).reg (ringReg .RING_CFG d i) = BitVec.ofNat 64 w ∧
    SameRegs s (s.ringConfigured d i w moves) [ringReg .RING_CFG d i] ∧ (s.ringConfigured d i w moves).mem = s.mem := by
  have same : SameRegs s (s.setReg (ringReg .RING_CFG d i) (BitVec.ofNat 64 w)) [ringReg .RING_CFG d i] := (SameRegs.refl s _).setReg _ List.mem_cons_self
  cases moves
  · exact ⟨State.reg_setReg_same .., same, rfl⟩
  · exact ⟨State.reg_setReg_same s .., same, rfl⟩

/-- Firmware's configuration of a disabled ring with ENABLE 0 and every field in range. -/
theorem State.ringCfgWrite_spec {v : Nat} (off : s.fld (ringReg .RING_CFG d i) RING_CFG.ENABLE = 0) (want : bits v RING_CFG.ENABLE.hi RING_CFG.ENABLE.lo = 0)
    (low : 9 ≤ bits v RING_CFG.SIZE_LOG2.hi RING_CFG.SIZE_LOG2.lo) (high : bits v RING_CFG.SIZE_LOG2.hi RING_CFG.SIZE_LOG2.lo ≤ 24)
    (exposed : s.exposed d (bits v RING_CFG.CORE.hi RING_CFG.CORE.lo) = true) (tmo : bits v RING_CFG.WAIT_TMO.hi RING_CFG.WAIT_TMO.lo ≤ 16) :
    ∃ t : State, s.ringCfgWrite .firmware d i v = (t, .ok) ∧ t.reg (ringReg .RING_CFG d i) = BitVec.ofNat 64 (ringCfgWord (s.reg (ringReg .RING_CFG d i)).toNat v) ∧
      SameRegs s t [ringReg .RING_CFG d i] ∧ t.mem = s.mem := by
  obtain ⟨cfg, same, mem⟩ := s.ringConfigured_spec d i (ringCfgWord (s.reg (ringReg .RING_CFG d i)).toNat v) (ringCfgMoves (s.reg (ringReg .RING_CFG d i)).toNat v)
  have write : s.ringCfgWrite .firmware d i v =
      ((s.ringConfigured d i (ringCfgWord (s.reg (ringReg .RING_CFG d i)).toNat v) (ringCfgMoves (s.reg (ringReg .RING_CFG d i)).toNat v)).wholeFault d i, .ok) := by
    simp [State.ringCfgWrite, off, want, exposed, low, high, tmo, isDcp, State.ringConfigured, ringCfgMoves, ringCfgWord, ringCfgBody, flag]
  have disabled : (s.ringConfigured d i (ringCfgWord (s.reg (ringReg .RING_CFG d i)).toNat v) (ringCfgMoves (s.reg (ringReg .RING_CFG d i)).toNat v)).fld (ringReg .RING_CFG d i) RING_CFG.ENABLE = 0 := by
    rw [State.fld, cfg, bits_toNat_ofNat _ (by decide)]
    exact (ringCfgWord_fields _ _).2.2.2.2.2.2
  rw [State.wholeFault_of (.inr disabled)] at write
  exact ⟨_, write, cfg, same, mem⟩

theorem State.ringStored_setProd (s : State) (d i : Nat) (v : Word) : (s.setReg (ringReg .RING_PROD d i) v).ringStored d i = s.ringStored d i :=
  State.fld_setReg_ne _ _ _ (addr_ringReg_ne _ _ (by decide))

/-- A producer's write within the ring's size that moves both counts forward, by no fewer words than bundles. -/
theorem State.ringProdWrite_of {v : Word} (active : s.active (s.ringLease d i) = true) (free : s.snapStopped (s.ringLease d i) = false)
    (room : diff32 (bits v.toNat 31 0) (s.ringHead d i) ≤ (s.ringSize d i : Int)) (forward : 0 ≤ diff32 (bits v.toNat 63 32) (s.fld (ringReg .RING_PROD d i) RING_PROD.PRODUCED))
    (ordered : diff32 (bits v.toNat 63 32) (s.fld (ringReg .RING_PROD d i) RING_PROD.PRODUCED) ≤ diff32 (bits v.toNat 31 0) (s.fld (ringReg .RING_PROD d i) RING_PROD.TAIL)) :
    s.ringProdWrite d i v.toNat = (((s.setReg (ringReg .RING_PROD d i) v).underrunOver d i).wholeFault d i, .ok) := by
  have room' := Int.not_lt.2 room
  have forward' := Int.not_lt.2 forward
  have ordered' := Int.not_lt.2 ordered
  have tail := Int.not_lt.2 (forward.trans ordered)
  simp [State.ringProdWrite, active, free, room', forward', ordered', tail]

end Sys2Proof.Machine

open Sys2Proof Sys2Proof.Machine

/-- Settles O12. -/
theorem ringBaseWriteTakesAnAlignedBase : Obligations.RingBaseWriteTakesAnAlignedBase := by
  unfold Obligations.RingBaseWriteTakesAnAlignedBase
  refine ⟨?taken, ?refused⟩
  case taken =>
    intro s a d i v h off idle aligned space
    have act : s.writeAct a (ringReg .RING_BASE d.val i.val) v.toNat = s.ringBaseWrite d.val i.val v.toNat := (s.writeAct_cd a _ ⟨rfl, rfl, rfl⟩).trans (State.cdWrite_RING_BASE ..)
    refine ⟨_, h.next (act.trans (State.ringBaseWrite_of off idle aligned space)), (((OnlyRegs.refl s _).setReg _ (by simp)).setReg _ (by simp)).setReg _ (by simp), ?_, ?_, State.reg_setReg_same _ _ _⟩
    · refine (State.fld_setReg_ne _ _ _ (addr_ringReg_ne _ _ (by decide))).trans ((State.fld_setReg_ne _ _ _ (addr_ringReg_ne _ _ (by decide))).trans ((State.fld_setReg_same _ _ _ _).trans ?_))
      exact (bits_toNat_ofNat _ (by decide)).trans (bits_bits_low _ _)
    · exact (State.reg_setReg_ne _ _ (addr_ringReg_ne _ _ (by decide))).trans (State.reg_setReg_same _ _ _)
  case refused =>
    intro s a d i v h barred
    have act : s.writeAct a (ringReg .RING_BASE d.val i.val) v.toNat = s.ringBaseWrite d.val i.val v.toNat := (s.writeAct_cd a _ ⟨rfl, rfl, rfl⟩).trans (State.cdWrite_RING_BASE ..)
    exact h.next (act.trans (State.ringBaseWrite_refused barred _))

/-- Settles O13: what a write leaves RING_CFG is the sum of its fields, and a write of RING_PROD that is taken meets neither WHOLE nor, but for its UNDERRUN, the state of the ring. -/
theorem ringConfigureAndPublish : Obligations.RingConfigureAndPublish := by
  unfold Obligations.RingConfigureAndPublish
  refine ⟨?config, ?publish, ?underrun, ?refused⟩
  case config =>
    intro s d i v h off want low high exposed tmo
    have act : s.writeAct .firmware (ringReg .RING_CFG d.val i.val) v.toNat = s.ringCfgWrite .firmware d.val i.val v.toNat := (s.writeAct_cd .firmware _ ⟨rfl, rfl, rfl⟩).trans (State.cdWrite_RING_CFG ..)
    obtain ⟨t, e, cfg, same, mem⟩ := State.ringCfgWrite_spec off want low high exposed tmo
    obtain ⟨lease, context, core, size, wait, whole, enable⟩ := ringCfgWord_fields (s.reg (ringReg .RING_CFG d.val i.val)).toNat v.toNat
    have fld (f : Fld) (hf : f.hi < 64) : t.fld (ringReg .RING_CFG d.val i.val) f = bits (ringCfgWord (s.reg (ringReg .RING_CFG d.val i.val)).toNat v.toNat) f.hi f.lo := by
      rw [State.fld, cfg, bits_toNat_ofNat _ hf]
    exact ⟨t, h.next (act.trans e), same, mem, (fld _ (by decide)).trans lease, (fld _ (by decide)).trans context, (fld _ (by decide)).trans core, (fld _ (by decide)).trans size,
      (fld _ (by decide)).trans wait, (fld _ (by decide)).trans whole, (fld _ (by decide)).trans enable⟩
  case publish =>
    intro s a d i v h active free whole room forward ordered state
    have act : s.writeAct a (ringReg .RING_PROD d.val i.val) v.toNat = s.ringProdWrite d.val i.val v.toNat := (s.writeAct_cd a _ ⟨rfl, rfl, rfl⟩).trans (State.cdWrite_RING_PROD ..)
    have stored : (s.setReg (ringReg .RING_PROD d.val i.val) v).ringStored d.val i.val ≠ 7 := by rw [State.ringStored_setProd]; exact state
    refine h.next (act.trans ?_)
    rw [State.ringProdWrite_of active free room forward ordered, State.underrunOver_of stored, State.wholeFault_of (.inl ?_)]
    exact (State.fld_setReg_ne _ _ _ (addr_ringReg_ne _ _ (by decide))).trans whole
  case underrun =>
    intro s a d i v h active free whole room forward ordered state available
    have act : s.writeAct a (ringReg .RING_PROD d.val i.val) v.toNat = s.ringProdWrite d.val i.val v.toNat := (s.writeAct_cd a _ ⟨rfl, rfl, rfl⟩).trans (State.cdWrite_RING_PROD ..)
    have stored : (s.setReg (ringReg .RING_PROD d.val i.val) v).ringStored d.val i.val = 7 := by rw [State.ringStored_setProd]; exact state
    refine h.next (act.trans ?_)
    rw [State.ringProdWrite_of active free room forward ordered, State.underrunOver_ends stored available, State.wholeFault_of (.inl ?_)]
    exact (State.fld_setFld_ne _ _ _ _ (addr_ringReg_ne _ _ (by decide))).trans ((State.fld_setReg_ne _ _ _ (addr_ringReg_ne _ _ (by decide))).trans whole)
  case refused =>
    intro s a d i v h active free full
    have act : s.writeAct a (ringReg .RING_PROD d.val i.val) v.toNat = s.ringProdWrite d.val i.val v.toNat := (s.writeAct_cd a _ ⟨rfl, rfl, rfl⟩).trans (State.cdWrite_RING_PROD ..)
    refine h.next (act.trans ?_)
    simp [State.ringProdWrite, active, free, full, State.pushRefused]

/-- A ring of one bundle to skip, the words of which lie in a row whose next access meets a physical error (07 R271). -/
def skippedUpset : State :=
  { State.reset.setFld (ringReg .RING_PROD 0 3) RING_PROD.PRODUCED 1 with upsets := [⟨0, false, 0⟩], mem := { State.reset.mem with untagged := [0] } }

/-- Refutes O14: SKIP_KERNEL reads the rows it searches for the END, and in `skippedUpset` that read meets and ends the row's physical error, which is no register. -/
theorem not_ringControlClearsSkipsAndDiscards : ¬ Obligations.RingControlClearsSkipsAndDiscards := by
  unfold Obligations.RingControlClearsSkipsAndDiscards
  rintro ⟨-, -, skip, -⟩
  have reached : Writable skippedUpset .firmware (ringReg .RING_CTRL 0 3) := by unfold Writable; decide
  obtain ⟨t, e, ⟨⟨g, l, only⟩, -⟩, -⟩ := skip skippedUpset .firmware 0 3 _ _ _ reached (by decide) rfl
  have met : (outcomeState State.reset (exec (.skipKernel .firmware 0 3) skippedUpset)).upsets = [] := by decide
  rw [e] at met
  have none : t.upsets = [] := met
  have kept : t.upsets = [⟨0, false, 0⟩] := by rw [only]; rfl
  exact absurd (kept.symm.trans none) (by decide)
end

section
set_option Elab.async false -- one proof after the other: the whole text stands near the memory limit of the check
/-! Partitions, the weight-cache carve-out and the configuration of activation stacks (05 R204, R205, R212, R219, R220). -/
namespace Sys2Proof.Machine

variable {s t : State} {a : Actor} {d g p : Nat}

theorem State.cdWrite_SDM_PART (s : State) (a : Actor) (d p v : Nat) : s.cdWrite a (sdmPart d p) v = s.sdmPartWrite a d p v := rfl
theorem State.cdWrite_SDM_WCACHE_CFG (s : State) (a : Actor) (d v : Nat) : s.cdWrite a (wcacheCfg d) v = s.wcacheCfgWrite d v := rfl
theorem State.cdWrite_ASTK_CFG (s : State) (a : Actor) (d g v : Nat) : s.cdWrite a (astkCfg d g) v = s.astkCfgWrite a d g v := rfl
theorem State.cdWrite_ASTK_TOP (s : State) (a : Actor) (d g v : Nat) : s.cdWrite a (astk .ASTK_TOP d g) v = s.astkTopWrite d g v := rfl

/-! A partition entry. -/

/-- VALID of a partition entry is what a write says, whatever of its other fields is in range. -/
theorem written_SDM_PART_valid (old v latest : Nat) : bits (RegName.written .SDM_PART old v latest) 55 55 = bits v 55 55 :=
  RegName.bits_written (f := ⟨SDM_PART.VALID, .rw, 0, 1, 1, 0⟩) [⟨SDM_PART.LEASE, .rw, 0, 255, 1, 0⟩] _ rfl rfl (by decide) (by decide) (RegName.takes_all (by decide) (by decide) v) old latest

/-- The word that a write leaves a partition entry. -/
def State.partWord (s : State) (d p v : Nat) : Nat := RegName.written .SDM_PART (s.reg (sdmPart d p)).toNat v

/-- Firmware's entry that passes the partition check or is made not VALID is taken; the rows are scrubbed where it takes a VALID entry from its lease. -/
theorem State.sdmPartWrite_of {v : Nat}
    (check : bits v 55 55 = 1 → s.partCheck d p (bits (s.partWord d p v) SDM_PART.FIRST_BANK.hi SDM_PART.FIRST_BANK.lo) (bits (s.partWord d p v) SDM_PART.BANKS.hi SDM_PART.BANKS.lo) = none) :
    s.sdmPartWrite .firmware d p v =
      ((if s.fld (sdmPart d p) SDM_PART.VALID == 1 && (bits v 55 55 == 0 || bits (s.partWord d p v) SDM_PART.LEASE.hi SDM_PART.LEASE.lo != s.fld (sdmPart d p) SDM_PART.LEASE) then s.scrubPart d p else s).setReg
        (sdmPart d p) (BitVec.ofNat 64 (s.partWord d p v)), .ok) := by
  have valid : bits (s.partWord d p v) SDM_PART.VALID.hi SDM_PART.VALID.lo = bits v 55 55 := written_SDM_PART_valid ..
  have passed : (if bits v SDM_PART.VALID.hi SDM_PART.VALID.lo == 1 then s.partCheck d p (bits (s.partWord d p v) SDM_PART.FIRST_BANK.hi SDM_PART.FIRST_BANK.lo) (bits (s.partWord d p v) SDM_PART.BANKS.hi SDM_PART.BANKS.lo) else none) = none := by
    by_cases h : bits v 55 55 = 1
    · rw [check h, ite_self]
    · exact if_neg fun e => h (beq_iff_eq.1 e)
  unfold State.partWord at *
  simp only [State.sdmPartWrite, isDcp, passed, valid, Bool.false_and]
  rfl

theorem State.fld_resetReg_ne (s : State) {r q : Reg} (f : Fld) (h : q.addr ≠ r.addr) : (s.resetReg r).fld q f = s.fld q f := by
  rw [State.fld, s.reg_resetReg_ne h, State.fld]

/-! Clearing a stack (05 R219). -/

theorem State.reg_resetReg_zero (s : State) {q r : Reg} (hr : r.resetWord = 0#64) (h : q.addr = r.addr ∨ s.reg r = 0#64) : (s.resetReg q).reg r = 0#64 := by
  by_cases e : q.addr = r.addr
  · simp [State.reg, State.resetReg, e, hr]
  · rw [State.reg_resetReg_ne _ (Ne.symm e)]
    exact h.resolve_left e

/-- Of registers reset one after another each holds its reset value in the end. -/
theorem State.reg_resetRegs (s : State) {l : List Reg} {r : Reg} (hr : r.resetWord = 0#64) (h : r ∈ l ∨ s.reg r = 0#64) : (l.foldl State.resetReg s).reg r = 0#64 := by
  induction l generalizing s with
  | nil => exact h.resolve_left List.not_mem_nil
  | cons q l ih =>
    refine ih (s.resetReg q) ?_
    by_cases e : q.addr = r.addr
    · exact .inr (s.reg_resetReg_zero hr (.inl e))
    · exact h.imp (fun h => (List.mem_cons.1 h).resolve_left fun x => e (by rw [x])) fun h => s.reg_resetReg_zero hr (.inr h)

theorem OnlyRegs.resetRegs (s : State) (l : List Reg) : OnlyRegs s (l.foldl State.resetReg s) l := OnlyRegs.foldl l (fun _ _ hx a => a.resetReg hx) (OnlyRegs.refl s l)

/-- The registers of a stack that are zero once it is cleared. -/
def stackRegs (d g : Nat) : List Reg :=
  [astk .ASTK_TOP d g, astk .ASTK_FLOOR d g, astk .ASTK_STAT d g, fstat d g] ++
    (List.range 16).flatMap (fun f => [frameReg .ASTK_FRAME d g f, frameReg .ASTK_FACCT d g f, frameReg .ASTK_FEXP d g f])

theorem State.clearStack_eq (s : State) (d g : Nat) : s.clearStack d g = (stackRegs d g).foldl State.resetReg s := by
  rw [stackRegs, List.foldl_append, List.foldl_flatMap]
  rfl

theorem State.clearStack_spec (s : State) (d g : Nat) : (s.clearStack d g).mem = s.mem ∧ (s.clearStack d g).cores = s.cores ∧ (s.clearStack d g).stackTop d g = 0 ∧ (s.clearStack d g).stackFloor d g = 0 ∧
    (s.clearStack d g).frameCount d g = 0 := by
  obtain ⟨⟨r, l, e⟩, -⟩ := OnlyRegs.resetRegs s (stackRegs d g)
  have zero {r : Reg} (f : Fld) (hr : r.resetWord = 0#64) (h : r ∈ stackRegs d g) : (s.clearStack d g).fld r f = 0 := by
    rw [State.fld, State.clearStack_eq, s.reg_resetRegs hr (.inl h)]
    simp [bits]
  refine ⟨?_, ?_, zero _ rfl (by simp [stackRegs]), zero _ rfl (by simp [stackRegs]), zero _ rfl (by simp [stackRegs])⟩ <;> rw [State.clearStack_eq, e]

end Sys2Proof.Machine

open Sys2Proof Sys2Proof.Machine

/-- Settles O15: each register's own rule, with its checks passed. -/
theorem rowMemoryConfigurationIsTaken : Obligations.RowMemoryConfigurationIsTaken := by
  unfold Obligations.RowMemoryConfigurationIsTaken
  refine ⟨?keeps, ?leaves, ?carve, ?stack, ?top⟩
  case keeps =>
    intro s d p v h check stays
    have act := (s.writeAct_cd .firmware v.toNat (r := sdmPart d.val p.val) ⟨rfl, rfl, rfl⟩).trans (State.cdWrite_SDM_PART ..)
    refine h.next (act.trans ((State.sdmPartWrite_of check).trans ?_))
    rw [if_neg]
    · rfl
    · simp only [Bool.and_eq_true, Bool.or_eq_true, beq_iff_eq, bne_iff_ne, ne_eq]
      rintro ⟨valid, off⟩
      rcases stays with stays | ⟨on, lease⟩
      · omega
      · exact off.elim (by omega) fun x => x lease
  case leaves =>
    intro s d p v h check valid leaves
    have act := (s.writeAct_cd .firmware v.toNat (r := sdmPart d.val p.val) ⟨rfl, rfl, rfl⟩).trans (State.cdWrite_SDM_PART ..)
    refine h.next (act.trans ((State.sdmPartWrite_of check).trans ?_))
    rw [if_pos]
    · rfl
    · simpa [valid, State.partWord] using leaves
  case carve =>
    intro s a d v h banks free
    have act := (s.writeAct_cd a v.toNat (r := wcacheCfg d.val) ⟨rfl, rfl, rfl⟩).trans (State.cdWrite_SDM_WCACHE_CFG ..)
    have few : ¬32 < bits v.toNat SDM_WCACHE_CFG.BANKS.hi SDM_WCACHE_CFG.BANKS.lo := Nat.not_lt.2 banks
    have apart : s.partsMeet d.val 32 (96 - bits v.toNat SDM_WCACHE_CFG.BANKS.hi SDM_WCACHE_CFG.BANKS.lo) (bits v.toNat SDM_WCACHE_CFG.BANKS.hi SDM_WCACHE_CFG.BANKS.lo) = false := free
    refine ⟨_, h.next (act.trans ((if_neg few).trans (if_neg (by simp [apart])))), ?_, rfl, tget_tset_same .., ?_, ?_⟩
    · exact SameRegs.resetReg (SameRegs.setFld _ _ (SameRegs.of_regs rfl) (by simp)) (by simp)
    · refine (State.fld_resetReg_ne _ _ (addr_ne_of_base _ _ _ (by decide))).trans ((State.fld_setFld_same _ _ _ _ (by decide) (by decide)).trans ?_)
      exact Nat.mod_eq_of_lt (bits_lt ..)
    · exact State.reg_resetReg_same _ _
  case stack =>
    intro s d g v h off want
    have act := (s.writeAct_cd .firmware v.toNat (r := astkCfg d.val g.val) ⟨rfl, rfl, rfl⟩).trans (State.cdWrite_ASTK_CFG ..)
    exact h.next (act.trans (by simp [State.astkCfgWrite, off, want, isDcp, flag]))
  case top =>
    intro s a d g v h off zero
    have act := (s.writeAct_cd a v.toNat (r := astk .ASTK_TOP d.val g.val) ⟨rfl, rfl, rfl⟩).trans (State.cdWrite_ASTK_TOP ..)
    exact ⟨_, h.next (act.trans (by simp [State.astkTopWrite, off, zero])), s.clearStack_spec d.val g.val⟩
end

section
set_option Elab.async false -- one proof after the other: the whole text stands near the memory limit of the check
/-! Spare channels and power-down, the fabric's configuration, signals and collective groups (07 R286-R291; 11 R412-R444). -/
namespace Sys2Proof.Machine

variable {s t : State} {a : Actor} {d k : Nat}

theorem State.cdWrite_HBM_SPARE (s : State) (a : Actor) (d k v : Nat) (h : k < 4) : s.cdWrite a (memc .HBM_SPARE d k) v = s.spareWrite d k v := if_pos h
theorem State.cdWrite_HBM_PDN_CTRL (s : State) (a : Actor) (d k v : Nat) (h : k < 4) : s.cdWrite a (memc .HBM_PDN_CTRL d k) v = s.pdnWrite d k v := if_pos h
theorem State.cdWrite_PEER_SIG (s : State) (a : Actor) (d k v : Nat) : s.cdWrite a (peerSig d k) v = s.peerSigWrite a d k v := rfl
theorem State.svWrite_FAB_CFG (s : State) (a : Actor) (v : Nat) : s.svWrite a fabCfg v = s.fabCfgWrite a v := rfl
theorem State.svWrite_FAB_COORD (s : State) (a : Actor) (u v : Nat) : s.svWrite a (fabCoord u) v = s.fabCoordWrite a u v := rfl
theorem State.svWrite_FAB_VC (s : State) (a : Actor) (u v : Nat) : s.svWrite a (fabVc u) v = s.fabVcWrite a u v := rfl
theorem State.ioWrite_COLL_GROUP (s : State) (a : Actor) (io g v : Nat) : s.ioWrite a (collGroup io g) v = s.collGroupWrite a io g v := by
  have die : selIo io - 20 = io := Nat.add_sub_cancel_left ..
  simp only [State.ioWrite, collGroup, die]
theorem State.ioWrite_COLL_MEMBERS (s : State) (a : Actor) (io g v : Nat) : s.ioWrite a ⟨.COLL_MEMBERS, selIo io, g, 0⟩ v = s.collMembersWrite a io g v := by
  have die : selIo io - 20 = io := Nat.add_sub_cancel_left ..
  simp only [State.ioWrite, die]
theorem State.ioWrite_COLL_SUBMIT (s : State) (a : Actor) (io v : Nat) : s.ioWrite a ⟨.COLL_SUBMIT, selIo io, 0, 0⟩ v = s.collSubmit a io v := by
  have die : selIo io - 20 = io := Nat.add_sub_cancel_left ..
  simp only [State.ioWrite, die]

/-- A register without a rule of its own takes firmware's write field by field. -/
theorem State.plainWrite_firmware (s : State) (r : Reg) (v : Nat) : s.plainWrite .firmware r v = (s.setReg r (BitVec.ofNat 64 (r.name.written (s.reg r).toNat v (s.thisCycle r))), .ok) := rfl

/-! The spare channel (07 R286). -/

/-- FAILED_PC written, and a copy begun with PROGRESS 0 where the write says START. -/
theorem State.spareWrite_idle {v : Nat} (h : s.spareState d k = 0) : s.spareWrite d k v =
    (if bitAt v 0 then
      (((s.setFld (memc .HBM_SPARE d k) HBM_SPARE.FAILED_PC (bits v 13 9)).setFld (memc .HBM_SPARE d k) HBM_SPARE.STATE 1).setFld (memc .HBM_SPARE d k) HBM_SPARE.PROGRESS 0).onCtl d k (fun c => { c with lastCopy := none, copied := [] })
    else s.setFld (memc .HBM_SPARE d k) HBM_SPARE.FAILED_PC (bits v 13 9), .ok) := by
  unfold State.spareWrite
  simp only [h]
  cases bitAt v 0 <;> rfl

/-- Setting bit `n` of a word leaves a field that does not hold it. -/
theorem bits_setBit_out (w n hi lo : Nat) (b : Bool) (h : hi < n ∨ n < lo) : bits (setBit w n b) hi lo = bits w hi lo := bits_setBits_out _ _ _ _ _ _ (Nat.le_refl n) h

/-! Power-down (07 R290, R291). -/

/-- A request for a group that is up, with none waiting and no copy running. -/
theorem State.pdnWrite_of {v : Nat} (req : bitAt v 8 = true) (none : s.fld (pdnStatus d k) HBM_PDN_STATUS.PENDING = 0) (still : s.spareState d k ≠ 1)
    (up : bitAt (s.fld (pdnStatus d k) HBM_PDN_STATUS.DOWN) (bits v HBM_PDN_CTRL.GROUP.hi HBM_PDN_CTRL.GROUP.lo) = false) :
    s.pdnWrite d k v = (((s.setFld (memc .HBM_PDN_CTRL d k) HBM_PDN_CTRL.GROUP (bits v HBM_PDN_CTRL.GROUP.hi HBM_PDN_CTRL.GROUP.lo)).setFld (pdnStatus d k) HBM_PDN_STATUS.PENDING 1).onCtl d k
      (fun c => { c with pdn := some (bits v HBM_PDN_CTRL.GROUP.hi HBM_PDN_CTRL.GROUP.lo, s.now) }), .ok) := by
  have down : (s.setFld (memc .HBM_PDN_CTRL d k) HBM_PDN_CTRL.GROUP (bits v HBM_PDN_CTRL.GROUP.hi HBM_PDN_CTRL.GROUP.lo)).fld (pdnStatus d k) HBM_PDN_STATUS.DOWN = s.fld (pdnStatus d k) HBM_PDN_STATUS.DOWN :=
    State.fld_setFld_ne _ _ _ _ (addr_ne_of_base _ _ _ (by decide))
  have free : (s.fld (pdnStatus d k) HBM_PDN_STATUS.PENDING == 1 || s.spareState d k == 1) = false := by simp [none, still]
  unfold State.pdnWrite
  rw [req, free]
  dsimp only
  rw [down, up]
  rfl

/-! Submissions (11 R444). -/

/-- A submission of an aligned descriptor on an engine with room, by firmware, management or a running lease. -/
theorem State.collSubmit_of {io v : Nat} (aligned : bits v 5 0 = 0) (live : ∀ n, actorLease a = some n → s.active n = true ∧ s.snapStopped n = false) (room : (s.coll io).queue.length < 16) :
    s.collSubmit a io v = ((s.onColl io (fun e => { e with queue := e.queue ++ [(bits v 47 0, actorLease a)] })).setFld (collStatus io) COLL_STATUS.QUEUED ((s.coll io).queue.length + 1), .ok) := by
  have whole : bits v 47 0 % 64 = 0 := by
    simp only [bits] at aligned ⊢
    omega
  have active : (match actorLease a with | some n => !s.active n | none => false) = false := by
    cases e : actorLease a with
    | none => rfl
    | some n => simp [(live n e).1]
  have free : (match actorLease a with | some n => s.snapStopped n | none => false) = false := by
    cases e : actorLease a with
    | none => rfl
    | some n => simp [(live n e).2]
  unfold State.collSubmit
  refine (if_neg ?_).trans ((if_neg ?_).trans ((if_neg ?_).trans (if_neg (Nat.not_le.2 room))))
  · have desc : bits v COLL_SUBMIT.DESC.hi COLL_SUBMIT.DESC.lo % 64 = 0 := whole
    simp [desc]
  · exact fun e => Bool.false_ne_true (active.symm.trans e)
  · exact fun e => Bool.false_ne_true (free.symm.trans e)

/-! A second write by firmware. -/

/-- Which register an address names depends on the grade, the absent cores and which concentrator works. -/
theorem State.regTarget_congr (grade : t.grade = s.grade) (absent : t.absent = s.absent) (sv1 : t.sv1 = s.sv1) (x : Nat) : t.regTarget x = s.regTarget x := by
  simp only [State.regTarget, State.exposed, State.icLive, grade, absent, sv1]
  rfl

/-- What registers hold, and what an access was answered, does not bar firmware from a register that is not a debug register. -/
theorem Writable.firmware_after {r : Reg} (h : Writable s .firmware r) (open' : r.name.isDebug = false) (g : Tab Word) (l : Tab (Nat × Word)) (x : Access) :
    Writable { s with regs := g, latest := l, access := x } .firmware r := by
  obtain ⟨live, barred, target, bar⟩ := h
  refine ⟨live, barred, ?_, ?_⟩
  · rw [← target, State.regTarget_congr (s := s)] <;> rfl
  simp only [State.writeBar, open', Bool.and_false, Bool.false_or] at bar ⊢
  exact bar

/-! Collective groups (11 R442). -/

/-- COLL_MEMBERS of a group, the address of its member list. -/
def collMembers (io g : Nat) : Reg := ⟨.COLL_MEMBERS, selIo io, g, 0⟩

theorem addr_collGroup_ne_collMembers (io g : Nat) : (collGroup io g).addr ≠ (collMembers io g).addr := addr_ne_of_base (n := .COLL_GROUP) (m := .COLL_MEMBERS) (selIo io) g 0 (by decide)

/-- No member list is taken as one, of a group that is not VALID. -/
theorem State.collMembersWrite_zero {io g : Nat} (invalid : s.fld (collGroup io g) COLL_GROUP.VALID = 0) :
    s.collMembersWrite .firmware io g 0 = (s.setReg (collMembers io g) (BitVec.ofNat 64 (RegName.written .COLL_MEMBERS (s.reg (collMembers io g)).toNat 0 (s.thisCycle (collMembers io g)))), .ok) := by
  have space : (bits 0 47 44 != 2) = true := by decide
  unfold State.collMembersWrite
  exact (if_neg (by simp [invalid])).trans ((if_pos (by rw [space]; rfl)).trans (if_pos (by decide)))

theorem written_COLL_MEMBERS_zero (old latest : Nat) : bits (RegName.written .COLL_MEMBERS old 0 latest) 47 0 = 0 :=
  RegName.bits_written (f := ⟨COLL_MEMBERS.MEMBERS, .rw, 0, 0xffffffffffff, 512, 0⟩) [] [] rfl rfl (by decide) rfl (by decide) old latest

/-- Firmware's word of a group that is not VALID, with VALID 0, is taken. -/
theorem State.collGroupWrite_of {io g v : Nat} (invalid : s.fld (collGroup io g) COLL_GROUP.VALID = 0) (want : bitAt v COLL_GROUP.VALID.lo = false) :
    s.collGroupWrite .firmware io g v = (s.setReg (collGroup io g) (BitVec.ofNat 64 (RegName.written .COLL_GROUP (s.reg (collGroup io g)).toNat v)), .ok) := by
  unfold State.collGroupWrite
  refine (if_neg (by simp [invalid])).trans ((if_neg (by simp [isDcp])).trans (if_pos (by rw [want]; rfl)))

/-- Firmware's command for a group writes its members, then, in the state that leaves, its word. -/
theorem exec_collGroupWrite {u : State} (io : Die) (g : Fin 64) (v : Word) {w : Word} (hm : Writable s .firmware (collMembers io.val g.val)) (hg : Writable s .firmware (collGroup io.val g.val))
    (members : s.writeAct .firmware (collMembers io.val g.val) 0 = (s.setReg (collMembers io.val g.val) w, .ok))
    (group : State.writeAct ((s.setReg (collMembers io.val g.val) w).answer .ok 0) .firmware (collGroup io.val g.val) v.toNat = (u, .ok)) : exec (.collGroupWrite .firmware io g v 0) s = .next (u.answer .ok 0) := by
  have first : s.writeCmd .firmware (⟨.COLL_MEMBERS, selIo io.val, g.val, 0⟩ : Reg).addr (0 : Word).toNat = .next ((s.setReg (collMembers io.val g.val) w).answer .ok 0) := hm.next members
  have again : Writable ((s.setReg (collMembers io.val g.val) w).answer .ok 0) .firmware (collGroup io.val g.val) := hg.firmware_after rfl _ _ _
  change execCollGroupWrite .firmware io g v 0 s = _
  unfold execCollGroupWrite
  rw [first]
  exact again.next group

end Sys2Proof.Machine

open Sys2Proof Sys2Proof.Machine

/-- Settles O17. -/
theorem spareAndPowerDownRequestsStart : Obligations.SpareAndPowerDownRequestsStart := by
  unfold Obligations.SpareAndPowerDownRequestsStart
  refine ⟨?failed, ?start, ?down⟩
  case failed =>
    intro s a d k v h idle
    have act := (s.writeAct_cd a (setBit v.toNat 0 false) (r := memc .HBM_SPARE d.val k.val) ⟨rfl, rfl, rfl⟩).trans (State.cdWrite_HBM_SPARE _ _ _ _ _ k.isLt)
    have pc : bits v.toNat 13 9 < 32 := bits_lt ..
    refine ⟨s.setFld (memc .HBM_SPARE d.val k.val) HBM_SPARE.FAILED_PC (bits v.toNat 13 9), h.next (act.trans ((State.spareWrite_idle idle).trans ?_)), (OnlyRegs.refl s _).setFld _ _ (by simp), ?_, ?_⟩
    · rw [bitAt_setBit_same, bits_setBit_out _ _ _ _ _ (by decide)]
      rfl
    · exact (State.fld_setFld_same _ _ _ _ (by decide) (by decide)).trans (Nat.mod_eq_of_lt pc)
    · exact (State.fld_setFld_other _ _ _ _ _ (by decide) (by decide) (by decide)).trans idle
  case start =>
    intro s a d k v h idle
    have act := (s.writeAct_cd a (setBit v.toNat 0 true) (r := memc .HBM_SPARE d.val k.val) ⟨rfl, rfl, rfl⟩).trans (State.cdWrite_HBM_SPARE _ _ _ _ _ k.isLt)
    have pc : bits v.toNat 13 9 < 32 := bits_lt ..
    refine ⟨_, h.next (act.trans ((State.spareWrite_idle idle).trans (congrArg (·, Status.ok) (if_pos (bitAt_clear _))))), ?_, rfl, ?_, ?_, ?_⟩
    · exact ((((SameRegs.refl s _).setFld _ _ (by simp)).setFld _ _ (by simp)).setFld _ _ (by simp)).of_eq rfl
    · rw [State.fld_onCtl, bits_setBit_out _ _ _ _ _ (by decide)]
      exact (State.fld_setFld_other _ _ _ _ _ (by decide) (by decide) (by decide)).trans ((State.fld_setFld_other _ _ _ _ _ (by decide) (by decide) (by decide)).trans
        ((State.fld_setFld_same _ _ _ _ (by decide) (by decide)).trans (Nat.mod_eq_of_lt pc)))
    · rw [State.spareState, State.fld_onCtl]
      exact (State.fld_setFld_other _ _ _ _ _ (by decide) (by decide) (by decide)).trans (State.fld_setFld_same _ _ _ _ (by decide) (by decide))
    · rw [State.fld_onCtl]
      exact State.fld_setFld_same _ _ _ _ (by decide) (by decide)
  case down =>
    intro s a d k v h none still up
    have act := (s.writeAct_cd a (setBit v.toNat 8 true) (r := memc .HBM_PDN_CTRL d.val k.val) ⟨rfl, rfl, rfl⟩).trans (State.cdWrite_HBM_PDN_CTRL _ _ _ _ _ k.isLt)
    have group : bits (setBit v.toNat 8 true) HBM_PDN_CTRL.GROUP.hi HBM_PDN_CTRL.GROUP.lo = bits v.toNat HBM_PDN_CTRL.GROUP.hi HBM_PDN_CTRL.GROUP.lo := bits_setBit_out _ _ _ _ _ (by decide)
    refine ⟨_, h.next (act.trans (State.pdnWrite_of (bitAt_setBit_same _ _ _) none still (by rw [group]; exact up))), ?_, ?_, ?_, ?_⟩
    · exact (((SameRegs.refl s _).setFld _ _ (by simp)).setFld _ _ (by simp)).of_eq rfl
    · rfl
    · rw [State.fld_onCtl]
      exact State.fld_setFld_same _ _ _ _ (by decide) (by decide)
    · rw [State.ctl_onCtl_same, group]

/-- Settles O18. -/
theorem fabricConfigurationIsTaken : Obligations.FabricConfigurationIsTaken := by
  unfold Obligations.FabricConfigurationIsTaken
  refine ⟨?config, ?coord, ?channel⟩
  case config =>
    intro s v h off want
    have act := (s.writeAct_sv .firmware v.toNat (r := fabCfg) ⟨rfl, rfl, rfl⟩).trans (State.svWrite_FAB_CFG ..)
    have enable : bits (RegName.written .FAB_CFG (s.reg fabCfg).toNat v.toNat (s.thisCycle fabCfg)) 0 0 = 0 := by
      refine (RegName.bits_written (f := ⟨FAB_CFG.ENABLE, .rw, 0, 1, 1, 0⟩) [⟨FAB_CFG.UDP_PORT, .rw, 1, 65535, 1, 47089⟩, ⟨FAB_CFG.WRAP, .rw, 0, 7, 1, 0⟩, ⟨FAB_CFG.EXT_Z_M1, .rw, 0, 63, 1, 0⟩, ⟨FAB_CFG.EXT_Y_M1, .rw, 0, 63, 1, 0⟩,
        ⟨FAB_CFG.EXT_X_M1, .rw, 0, 63, 1, 0⟩] [] rfl rfl (by decide) rfl (RegName.takes_all (by decide) (by decide) _) _ _).trans ?_
      have bit : bits v.toNat 0 0 < 2 := bits_lt ..
      have clear : (bits v.toNat 0 0 == 1) = false := (bitAt_eq_bits _ _).symm.trans want
      have zero : bits v.toNat 0 0 ≠ 1 := by simpa using clear
      change bits v.toNat 0 0 = 0
      omega
    have stays : (s.setReg fabCfg (BitVec.ofNat 64 (RegName.written .FAB_CFG (s.reg fabCfg).toNat v.toNat (s.thisCycle fabCfg)))).fabOn = false := by
      rw [State.fabOn, State.fld_setReg_same, bits_toNat_ofNat _ (by decide)]
      exact beq_false_of_ne (by rw [show bits _ FAB_CFG.ENABLE.hi FAB_CFG.ENABLE.lo = 0 from enable]; decide)
    refine h.next (act.trans ?_)
    simp only [State.fabCfgWrite, off, want, State.plainWrite_firmware]
    exact congrArg (·, Status.ok) (if_neg (by rw [show (fabCfg).name = .FAB_CFG from rfl, stays]; simp))
  case coord =>
    intro s u v h zero all x y z own valid
    have act := (s.writeAct_sv .firmware v.toNat (r := fabCoord u.toNat) ⟨rfl, rfl, rfl⟩).trans (State.svWrite_FAB_COORD ..)
    refine h.next (act.trans ?_)
    unfold State.fabCoordWrite
    refine (if_neg ?address).trans ((if_neg ?extent).trans ((if_neg ?self).trans (if_neg ?count)))
    case address => simpa using ⟨fun e => zero (BitVec.eq_of_toNat_eq e), fun e => all (BitVec.eq_of_toNat_eq e)⟩
    case extent => simp [x, y, z]
    case self =>
      rw [Bool.and_eq_true, beq_iff_eq, beq_iff_eq]
      rintro ⟨e, on⟩
      exact own.elim (fun n => n e) fun off => by omega
    case count => simp [valid]
  case channel =>
    intro s vc v h off sum
    have act := (s.writeAct_sv .firmware v.toNat (r := fabVc vc.val) ⟨rfl, rfl, rfl⟩).trans (State.svWrite_FAB_VC ..)
    refine h.next (act.trans ?_)
    unfold State.fabVcWrite
    exact (if_neg (by simp [off])).trans (if_neg (Nat.not_lt.2 sum))

/-- Settles O19. -/
theorem signalsAndGroupsAreTaken : Obligations.SignalsAndGroupsAreTaken := by
  unfold Obligations.SignalsAndGroupsAreTaken
  refine ⟨?signal, ?absent, ?group, ?submit⟩
  case signal =>
    intro s d k v h exposed valid
    have act := (s.writeAct_cd .firmware v.toNat (r := peerSig d.val k.val) ⟨rfl, rfl, rfl⟩).trans (State.cdWrite_PEER_SIG ..)
    refine h.next (act.trans ?_)
    unfold State.peerSigWrite
    refine (if_neg ?_).trans ((if_neg ?_).trans ((if_neg ?_).trans ?_))
    · rw [exposed]
      decide
    · simp [actorLease]
    · simp [isDcp]
    · have keeps : keepFields (s.reg (peerSig d.val k.val)).toNat v.toNat [] = v.toNat := rfl
      simp only [beq_self_eq_true, if_true, keeps, valid]
      rfl
  case absent =>
    intro s a d k v h hidden
    have act := (s.writeAct_cd a v.toNat (r := peerSig d.val k.val) ⟨rfl, rfl, rfl⟩).trans (State.cdWrite_PEER_SIG ..)
    refine h.next (act.trans ?_)
    unfold State.peerSigWrite
    exact if_pos (by rw [hidden]; rfl)
  case group =>
    intro s io g v hm hg invalid want
    have members := (s.writeAct_io .firmware 0 (r := collMembers io.val g.val) (.inl ⟨rfl, rfl, rfl⟩)).trans ((State.ioWrite_COLL_MEMBERS ..).trans (State.collMembersWrite_zero invalid))
    have empty := written_COLL_MEMBERS_zero (s.reg (collMembers io.val g.val)).toNat (s.thisCycle (collMembers io.val g.val))
    generalize RegName.written .COLL_MEMBERS (s.reg (collMembers io.val g.val)).toNat 0 (s.thisCycle (collMembers io.val g.val)) = w at members empty
    have apart := addr_collGroup_ne_collMembers io.val g.val
    have still : (s.setReg (collMembers io.val g.val) (BitVec.ofNat 64 w)).fld (collGroup io.val g.val) COLL_GROUP.VALID = 0 := (State.fld_setReg_ne _ _ _ apart).trans invalid
    have old : (s.setReg (collMembers io.val g.val) (BitVec.ofNat 64 w)).reg (collGroup io.val g.val) = s.reg (collGroup io.val g.val) := State.reg_setReg_ne _ _ apart
    have group := (State.writeAct_io ((s.setReg (collMembers io.val g.val) (BitVec.ofNat 64 w)).answer .ok 0) .firmware v.toNat (r := collGroup io.val g.val) (.inl ⟨rfl, rfl, rfl⟩)).trans
      ((State.ioWrite_COLL_GROUP ..).trans (State.collGroupWrite_of still want))
    refine ⟨_, exec_collGroupWrite io g v hm hg members group, ?_, ?_, ?_, ?_⟩
    · exact ((SameRegs.of_eq ((SameRegs.refl s _).setReg _ (by simp [collMembers])) rfl).setReg _ (by simp))
    · rfl
    · refine (State.fld_setReg_ne _ _ _ apart.symm).trans ((State.fld_answer _ _ _ _ _).trans ((State.fld_setReg_same _ _ _ _).trans ?_))
      exact (bits_toNat_ofNat _ (by decide)).trans empty
    · refine (State.reg_setReg_same _ _ _).trans ?_
      rw [← old]
      rfl
  case submit =>
    intro s a io v h aligned live room
    have act := (s.writeAct_io a v.toNat (r := ⟨.COLL_SUBMIT, selIo io.val, 0, 0⟩) (.inl ⟨rfl, rfl, rfl⟩)).trans (State.ioWrite_COLL_SUBMIT ..)
    refine ⟨_, h.next (act.trans (State.collSubmit_of aligned live room)), ?_, ?_, ?_, ?_⟩
    · exact (SameRegs.of_eq (SameRegs.refl s _) rfl).setFld _ _ (by simp)
    · rfl
    · exact s.coll_onColl_same io.val (fun e => { e with queue := e.queue ++ [(bits v.toNat 47 0, actorLease a)] })
    · refine (State.fld_setFld_same _ _ _ _ (by decide) (by decide)).trans (Nat.mod_eq_of_lt ?_)
      change (s.coll io.val).queue.length + 1 < 32
      omega

end

section
set_option Elab.async false -- one proof after the other: the whole text stands near the memory limit of the check
/-! Interrupt controllers (13 R491-R502): what raising, claiming, completing and clearing leave of PENDING and ACTIVE. -/
namespace Sys2Proof.Machine

variable {s t : State} {ic x y : Nat}

theorem Aside.filteredHigh (h : Aside s t) : t.filteredHigh = s.filteredHigh := by obtain ⟨⟨_, _, _, _, _, _, _, _, _, rfl⟩, _⟩ := h; rfl
theorem Aside.claimedBy (h : Aside s t) : t.claimedBy = s.claimedBy := by obtain ⟨⟨_, _, _, _, _, _, _, _, _, rfl⟩, _⟩ := h; rfl

theorem bitAt_eq_testBit (w k : Nat) : bitAt w k = w.testBit k := by
  rw [bitAt_eq_bits, bits_one_eq]
  cases w.testBit k <;> rfl

/-! Where PENDING and ACTIVE of a source lie. -/

theorem addr_icPending_ne_icActive (ic y : Nat) (hx : x < 1024) : (icPending ic x).addr ≠ (icActive ic y).addr := by
  simp only [Reg.addr, icPending, icActive, RegName.layout]
  omega

theorem icPending_of_word (ic w : Nat) {b : Nat} (hb : b < 64) : icPending ic (64 * w + b) = icReg .IC_PENDING ic w := by
  have word : (64 * w + b) / 64 = w := by omega
  simp only [icPending, icReg, word]

/-! One bit of a register written. -/

theorem State.toNat_reg_putBit (s : State) (r : Reg) {k : Nat} (b : Bool) (hk : k < 64) : ((s.putBit r k b).reg r).toNat = setBit (s.reg r).toNat k b := by
  rw [State.putBit, State.reg_setReg_same, BitVec.toNat_ofNat]
  exact Nat.mod_eq_of_lt (setBits_lt (Nat.le_refl k) hk (s.reg r).isLt)

theorem State.reg_putBit_ne (s : State) {r q : Reg} (k : Nat) (b : Bool) (h : q.addr ≠ r.addr) : (s.putBit r k b).reg q = s.reg q := State.reg_setReg_ne _ _ h

theorem State.isPending_putBit_same (s : State) (ic x : Nat) (b : Bool) : (s.putBit (icPending ic x) (x % 64) b).isPending ic x = b := by
  rw [State.isPending, s.toNat_reg_putBit _ _ (Nat.mod_lt _ (by decide)), bitAt_setBit_same]

/-- A PENDING bit written leaves every other source's. -/
theorem State.isPending_putBit_ne (s : State) (ic : Nat) (b : Bool) (h : y ≠ x) : (s.putBit (icPending ic x) (x % 64) b).isPending ic y = s.isPending ic y := by
  by_cases e : y / 64 = x / 64
  · have reg : icPending ic y = icPending ic x := by simp only [icPending, e]
    have bit : y % 64 ≠ x % 64 := by omega
    rw [State.isPending, State.isPending, reg, s.toNat_reg_putBit _ _ (Nat.mod_lt _ (by decide)), bitAt_setBit_ne _ _ _ _ bit]
  · have apart : (icPending ic y).addr ≠ (icPending ic x).addr := by
      simp only [Reg.addr, icPending, RegName.layout]
      omega
    rw [State.isPending, State.isPending, s.reg_putBit_ne _ _ apart]

theorem State.isActive_putBit_same (s : State) (ic x : Nat) (b : Bool) : (s.putBit (icActive ic x) (x % 64) b).isActive ic x = b := by
  rw [State.isActive, s.toNat_reg_putBit _ _ (Nat.mod_lt _ (by decide)), bitAt_setBit_same]

theorem State.isActive_congr (h : t.regs = s.regs) (ic x : Nat) : t.isActive ic x = s.isActive ic x := by simp only [State.isActive, State.reg, h]
theorem State.isPending_congr (h : t.regs = s.regs) (ic x : Nat) : t.isPending ic x = s.isPending ic x := by simp only [State.isPending, State.reg, h]

/-! Notes of the cycle and of round robin keep every register. -/

@[simp] theorem State.noteLine_regs (s : State) (k : Nat) (b : Bool) : (s.noteLine k b).regs = s.regs := by unfold State.noteLine; split <;> rfl
@[simp] theorem State.noteEsc_regs (s : State) (ic : Nat) : (s.noteEsc ic).regs = s.regs := by
  unfold State.noteEsc
  split
  · exact s.noteLine_regs _ _
  · rfl
@[simp] theorem State.notePending_regs (s : State) (ic x : Nat) (b : Bool) : (s.notePending ic x b).regs = s.regs := rfl
@[simp] theorem State.rrBegin_regs (s : State) (ic x : Nat) : (s.rrBegin ic x).regs = s.regs := rfl

/-- Round robin noted anew for sources whose target has changed: no more than its own tables differ. -/
theorem State.rrNote_eq (s old : State) (ic : Nat) : ∃ (a b : Tab Nat), s.rrNote old ic = { s with rrSince := a, roundRobin := b } := by
  unfold State.rrNote
  refine List.foldlRecOn (motive := fun t => ∃ (a b : Tab Nat), t = { s with rrSince := a, roundRobin := b }) _ _ ⟨s.rrSince, s.roundRobin, rfl⟩ ?_
  rintro t ⟨a, b, rfl⟩ x -
  split
  · exact ⟨a, b, rfl⟩
  · split <;> exact ⟨_, _, rfl⟩

theorem State.rrNote_regs (s old : State) (ic : Nat) : (s.rrNote old ic).regs = s.regs := by obtain ⟨a, b, e⟩ := s.rrNote_eq old ic; rw [e]
theorem State.rrNote_mem (s old : State) (ic : Nat) : (s.rrNote old ic).mem = s.mem := by obtain ⟨a, b, e⟩ := s.rrNote_eq old ic; rw [e]
theorem State.rrNote_cores (s old : State) (ic : Nat) : (s.rrNote old ic).cores = s.cores := by obtain ⟨a, b, e⟩ := s.rrNote_eq old ic; rw [e]
theorem State.rrNote_claimedBy (s old : State) (ic : Nat) : (s.rrNote old ic).claimedBy = s.claimedBy := by obtain ⟨a, b, e⟩ := s.rrNote_eq old ic; rw [e]

/-! A source made PENDING (13 R495). -/

theorem State.setPending_regs (s : State) (ic x : Nat) : (s.setPending ic x).regs = (s.putBit (icPending ic x) (x % 64) true).regs := by
  unfold State.setPending
  rw [State.notePending_regs, State.noteEsc_regs]
  split <;> rfl

theorem State.isPending_setPending_same (s : State) (ic x : Nat) : (s.setPending ic x).isPending ic x = true := by
  rw [State.isPending_congr (s.setPending_regs ic x), s.isPending_putBit_same]

theorem State.isPending_setPending_ne (s : State) (ic : Nat) (h : y ≠ x) : (s.setPending ic x).isPending ic y = s.isPending ic y := by
  rw [State.isPending_congr (s.setPending_regs ic x), s.isPending_putBit_ne _ _ h]

theorem State.isActive_setPending (s : State) (ic y : Nat) (hx : x < 1024) : (s.setPending ic x).isActive ic y = s.isActive ic y := by
  rw [State.isActive_congr (s.setPending_regs ic x), State.isActive, State.isActive, s.reg_putBit_ne _ _ (addr_icPending_ne_icActive ic y hx).symm]

theorem State.setPending_sameRegs (s : State) (ic x : Nat) : SameRegs s (s.setPending ic x) [icPending ic x] :=
  SameRegs.of_eq ((SameRegs.refl s _).setReg _ (List.mem_singleton.2 rfl)) (s.setPending_regs ic x)

/-- A level source met by its line is made PENDING, or nothing is done. -/
theorem State.syncLevel_cases (s : State) (ic x : Nat) (line : Bool) : (line = true ∧ x < 1024 ∧ s.syncLevel ic x line = s.setPending ic x) ∨ s.syncLevel ic x line = s := by
  unfold State.syncLevel
  split
  next h =>
    simp only [Bool.and_eq_true] at h
    exact .inl ⟨h.1.1, State.sourceUsed_lt h.2, rfl⟩
  next => exact .inr rfl

theorem State.syncSource_cases (s : State) (ic x : Nat) :
    (sourceLevel ic x = true ∧ s.levelLine ic x = true ∧ x < 1024 ∧ s.syncSource ic x = s.setPending ic x) ∨ s.syncSource ic x = s := by
  unfold State.syncSource
  split
  next level => exact (s.syncLevel_cases ic x (s.levelLine ic x)).imp (fun h => ⟨level, h⟩) id
  next => exact .inr rfl

theorem State.aside_syncSource (s : State) (ic x : Nat) : Aside s (s.syncSource ic x) := by
  rcases s.syncSource_cases ic x with ⟨-, -, low, e⟩ | e <;> rw [e]
  · exact s.aside_setPending ic x low
  · exact Aside.refl s

/-! The line of a level source. -/

/-- Writes of PENDING bits move no line of a level source. -/
theorem Aside.levelLine (h : Aside s t) (level : sourceLevel ic x = true) : t.levelLine ic x = s.levelLine ic x := by
  unfold State.levelLine
  rw [h.filteredHigh]
  split
  · rfl
  · next die =>
    have die : ic < 4 := by omega
    have range : (0x50 ≤ x ∧ x < 0xA0) ∨ (0x100 ≤ x ∧ x ≤ 0x33F) := by simpa [sourceLevel, die] using level
    have eye {n : RegName} (hn : n.behindWords) {m : Nat} (hm : m < 512) (f : Fld) : t.fld (eye n ic m) f = s.fld (eye n ic m) f := h.fld (hn.plain ⟨ic, die⟩ ⟨m, hm⟩) f
    have cfg {m : Nat} (hm : m < 512) := eye RegName.behindWords_EYE_CFG hm
    have status {m : Nat} (hm : m < 512) := eye RegName.behindWords_EYE_STATUS hm
    have db {m : Nat} (hm : m < 512) := eye RegName.behindWords_EYE_DB hm
    have mask {m : Nat} (hm : m < 512) := eye RegName.behindWords_EYE_DB_MASK hm
    split
    · rw [State.core_congr h.cores]
    · split
      · have hm : x - 0x100 < 512 := by omega
        simp only [State.eyeRx, cfg hm, status hm, db hm, mask hm]
      · have lines : t.eyeLines ic (x - 0x300) = s.eyeLines ic (x - 0x300) := by
          refine List.foldl_ext _ _ _ fun w i hi => ?_
          have hm : 8 * (x - 0x300) + i < 512 := by
            have := List.mem_range.1 hi
            omega
          simp only [State.eyeTx, cfg hm, status hm]
        rw [lines]

/-! The commands. -/

theorem icOf_icSel (c : IcId) : icOf (icSel (icKey c)) = icKey c := by
  cases c with
  | die d => simp [icSel, icKey, icOf]
  | sv0 => rfl
  | sv1 => rfl

theorem State.icWrite_eq {u : State} {a : Actor} {c : IcId} {n : RegName} {w v : Nat} {st : Status}
    (h : s.icWriteReg a (icReg n (icKey c) w) v = (u, st)) : s.icWrite a (icReg n (icKey c) w) v = (u.rrNote s (icKey c), st) := by
  rw [State.icWrite, h, icReg, icOf_icSel]

theorem State.icWriteReg_IC_SWSET (s : State) (a : Actor) (c : IcId) (v : Nat) : s.icWriteReg a (icReg .IC_SWSET (icKey c) 0) v = s.icSwset (icKey c) v :=
  congrArg (s.icSwset · v) (icOf_icSel c)

theorem State.icWriteReg_IC_PENDING (s : State) (a : Actor) (c : IcId) (w v : Nat) : s.icWriteReg a (icReg .IC_PENDING (icKey c) w) v = s.icPendingWrite (icKey c) w v :=
  congrArg (s.icPendingWrite · w v) (icOf_icSel c)

variable {a : Actor} {c : IcId}

/-- Raising a software source (13 R497). -/
theorem Writable.icSwset {v : Word} (h : Writable s a (icReg .IC_SWSET (icKey c) 0)) (low : 0x340 ≤ bits v.toNat 9 0) (high : bits v.toNat 9 0 ≤ 0x37F)
    (listed : sourceListed (icKey c) (bits v.toNat 9 0) = true) :
    exec (.icSwset a c v) s = .next (((s.setPending (icKey c) (bits v.toNat 9 0)).rrNote s (icKey c)).answer .ok 0) := by
  have act : s.icWriteReg a (icReg .IC_SWSET (icKey c) 0) v.toNat = (s.setPending (icKey c) (bits v.toNat 9 0), .ok) := by
    rw [s.icWriteReg_IC_SWSET, State.icSwset]
    simp only [low, high, listed, decide_true, Bool.and_self, if_true]
  exact h.next ((s.writeAct_ic a v.toNat ⟨rfl, rfl, rfl⟩).trans (State.icWrite_eq act))

/-! The notification read (13 R499). -/

theorem State.ringNoteRead_spec {k : Nat} {n : RingNote} {l : List RingNote} (notes : (s.core k).notes = n :: l) :
    ∃ t, s.ringNoteRead k = (t, BitVec.ofNat 64 (setBits (setBits (setBit (setBit 0 63 true) 62 n.overflow) 47 32 n.status) 13 0 n.ring)) ∧ (t.core k).notes = l ∧ t.mem = s.mem := by
  let u : State := s.onCore k (fun c => { c with notes := l })
  have aside : Aside u (u.syncLevel (coreDie k) (0x50 + coreNum k) (!l.isEmpty)) := u.aside_syncLevel ..
  refine ⟨u.syncLevel (coreDie k) (0x50 + coreNum k) (!l.isEmpty), by simp only [State.ringNoteRead, notes]; rfl, ?_, ?_⟩
  · rw [State.core_congr aside.cores]
    simp [u, State.onCore]
  · rw [aside.mem]
    rfl

theorem coreKey_coreDie_coreNum (k : Nat) : coreKey (coreDie k) (coreNum k) = k := by
  simp only [coreKey, coreDie, coreNum]
  omega

theorem Readable.readNote {c : CoreId} {v : Word} (h : Readable s a (coreReg .IC_RING_NOTE (ckey c))) (e : s.ringNoteRead (ckey c) = (t, v)) :
    exec (.icRingNoteRead a c) s = .next (t.answer .ok v) := by
  have act : s.readAct (coreReg .IC_RING_NOTE (ckey c)) = s.ringNoteRead (ckey c) := congrArg s.ringNoteRead (coreKey_coreDie_coreNum (ckey c))
  have cmd : exec (.icRingNoteRead a c) s = .next ((s.readAct (coreReg .IC_RING_NOTE (ckey c))).1.answer .ok (s.readAct (coreReg .IC_RING_NOTE (ckey c))).2) := h.cmd
  rw [cmd, act, e]

theorem note_valid (n : RingNote) : bits (BitVec.ofNat 64 (setBits (setBits (setBit (setBit 0 63 true) 62 n.overflow) 47 32 n.status) 13 0 n.ring)).toNat 63 63 = 1 := by
  rw [bits_toNat_ofNat _ (by decide), bits_setBits_out _ _ _ _ _ _ (by decide) (.inr (by decide)), bits_setBits_out _ _ _ _ _ _ (by decide) (.inr (by decide)),
    bits_setBit_out _ _ _ _ _ (.inr (by decide))]
  rfl

theorem note_ring (n : RingNote) : bits (BitVec.ofNat 64 (setBits (setBits (setBit (setBit 0 63 true) 62 n.overflow) 47 32 n.status) 13 0 n.ring)).toNat 13 0 = n.ring % 2 ^ 14 := by
  rw [bits_toNat_ofNat _ (by decide), bits_setBits_same _ _ _ _ (by decide)]

/-! A claim (13 R500) and a completion (13 R501). -/

theorem State.icClaim_spec {n : Nat} (choice : s.claimChoice ic n = some x) (hx : x < 1024) :
    ∃ t, s.icClaim ic n = (t, BitVec.ofNat 64 x) ∧ t.isPending ic x = false ∧ t.isActive ic x = true ∧ tget? t.claimedBy (ic * 1024 + x) = some n ∧ t.mem = s.mem := by
  let u : State := (s.putBit (icPending ic x) (x % 64) false).putBit (icActive ic x) (x % 64) true
  let w : State := { u with claimedBy := tset s.claimedBy (ic * 1024 + x) n, lastClaim := tset s.lastClaim (ic * 1024 + x) (n + 1), roundRobin := tdel s.roundRobin (ic * 1024 + x) }
  have aside : Aside w ((w.noteEsc ic).notePending ic x false) := (w.aside_noteEsc ic).trans (State.aside_notePending _ ic x false)
  have regs : ((w.noteEsc ic).notePending ic x false).regs = u.regs := w.noteEsc_regs ic
  refine ⟨(w.noteEsc ic).notePending ic x false, ?_, ?_, ?_, ?_, ?_⟩
  · rw [State.icClaim, choice]
    rfl
  · rw [State.isPending_congr regs, State.isPending, State.reg_putBit_ne _ _ _ (addr_icPending_ne_icActive ic x hx), ← State.isPending, s.isPending_putBit_same]
  · rw [State.isActive_congr regs, State.isActive_putBit_same]
  · rw [aside.claimedBy, tget?_tset_same]
  · rw [aside.mem]
    rfl

theorem State.icComplete_spec {n v : Nat} (active : s.isActive ic (bits v 9 0) = true) (claimant : tget? s.claimedBy (ic * 1024 + bits v 9 0) = some n) :
    ∃ t, s.icComplete ic n v = (t, .ok) ∧ t.isActive ic (bits v 9 0) = false ∧ tget? t.claimedBy (ic * 1024 + bits v 9 0) = none ∧ t.mem = s.mem := by
  let u : State := { s.putBit (icActive ic (bits v 9 0)) (bits v 9 0 % 64) false with claimedBy := tdel s.claimedBy (ic * 1024 + bits v 9 0) }
  have aside : Aside u (u.syncSource ic (bits v 9 0)) := u.aside_syncSource ic _
  have ended : u.isActive ic (bits v 9 0) = false := s.isActive_putBit_same ic (bits v 9 0) false
  refine ⟨u.syncSource ic (bits v 9 0), ?_, ?_, ?_, ?_⟩
  · have claimed : (s.isActive ic (bits v 9 0) && tget? s.claimedBy (ic * 1024 + bits v 9 0) == some n) = true := by rw [active, claimant, beq_self_eq_true, Bool.and_self]
    exact if_pos claimed
  · rcases u.syncSource_cases ic (bits v 9 0) with ⟨-, -, low, e⟩ | e
    · rw [e, u.isActive_setPending ic _ low, ended]
    · rw [e, ended]
  · rw [aside.claimedBy]
    exact tget?_tdel_same ..
  · rw [aside.mem]
    rfl

/-! A write of PENDING (13 R502). -/

/-- PENDING words written and level sources met keep a bit clear whose level line is not 1. -/
theorem State.isPending_syncSources (u : State) (level : Nat → Prop) (lines : ∀ t, Aside u t → ∀ z, sourceLevel ic z = true → t.levelLine ic z = true → level z) (l : List Nat) :
    Aside u (l.foldl (fun t z => t.syncSource ic z) u) ∧ ∀ y, (l.foldl (fun t z => t.syncSource ic z) u).isPending ic y = true → u.isPending ic y = true ∨ level y := by
  refine List.foldlRecOn (motive := fun t => Aside u t ∧ ∀ y, t.isPending ic y = true → u.isPending ic y = true ∨ level y) _ _ ⟨Aside.refl u, fun _ h => .inl h⟩ ?_
  rintro t ⟨aside, kept⟩ z -
  refine ⟨aside.trans (t.aside_syncSource ic z), fun y pending => ?_⟩
  rcases t.syncSource_cases ic z with ⟨isLevel, line, -, e⟩ | e
  · rw [e] at pending
    by_cases same : y = z
    · exact same ▸ .inr (lines t aside z isLevel line)
    · exact kept y (t.isPending_setPending_ne ic same ▸ pending)
  · exact kept y (e ▸ pending)

/-- PENDING bits of a word written without a source: only what hardware has set in this same cycle. -/
theorem bitAt_cleared {n m : Nat} (mask b : Nat) : bitAt (((0 &&& n) ||| m) &&& mask) b = true → bitAt m b = true := by
  simp only [bitAt_eq_testBit, Nat.testBit_and, Nat.testBit_or, Nat.zero_testBit, Bool.false_and, Bool.false_or, Bool.and_eq_true]
  exact And.left

theorem State.icPendingWrite_zero (s : State) (ic w : Nat) (hw : w < 16) :
    ∃ t, s.icPendingWrite ic w 0 = (t, .ok) ∧ t.mem = s.mem ∧ t.cores = s.cores ∧
      ∀ b, b < 64 → t.isPending ic (64 * w + b) = true →
        bitAt (s.thisCycle (icReg .IC_PENDING ic w)) b = true ∨ sourceLevel ic (64 * w + b) = true ∧ s.levelLine ic (64 * w + b) = true := by
  let m : Nat := ((0 &&& ((2 ^ 64 - 1) ^^^ s.thisCycle (icReg .IC_ACTIVE ic w))) ||| s.thisCycle (icReg .IC_PENDING ic w)) &&& listedMask ic w
  let v : State := s.setReg (icReg .IC_PENDING ic w) (BitVec.ofNat 64 m)
  have word : icPending ic (64 * w + 0) = icReg .IC_PENDING ic w := icPending_of_word ic w (by decide)
  have written : Aside s (v.noteEsc ic) := (Aside.setReg s _ _ fun q plain => word ▸ plain.2.2.2 ic _ (by omega)).trans (v.aside_noteEsc ic)
  have run : ((List.range 64).foldl (fun t b => t.syncSource ic (64 * w + b)) (v.noteEsc ic)) =
      ((List.range 64).map (fun b => 64 * w + b)).foldl (fun t z => t.syncSource ic z) (v.noteEsc ic) := List.foldl_map.symm
  obtain ⟨aside, pending⟩ := (v.noteEsc ic).isPending_syncSources (ic := ic) (fun z => sourceLevel ic z = true ∧ s.levelLine ic z = true)
    (fun t h z level line => ⟨level, (written.trans h).levelLine level ▸ line⟩) ((List.range 64).map (fun b => 64 * w + b))
  refine ⟨_, rfl, ?_, ?_, fun b hb set => ?_⟩
  · exact (congrArg State.mem run).trans (aside.mem.trans written.mem)
  · exact (congrArg State.cores run).trans (aside.cores.trans written.cores)
  · have set' := (congrArg (State.isPending · ic (64 * w + b)) run).symm.trans set
    refine (pending _ set').imp_left fun before => ?_
    have bit : (64 * w + b) % 64 = b := by omega
    rw [State.isPending_congr (v.noteEsc_regs ic), State.isPending, icPending_of_word ic w hb, State.reg_setReg_same, bit, BitVec.toNat_ofNat] at before
    have low : bitAt m b = true := by
      rw [bitAt_eq_testBit, Nat.testBit_mod_two_pow] at before
      rw [bitAt_eq_testBit]
      simp only [Bool.and_eq_true] at before
      exact before.2
    exact bitAt_cleared _ b low

end Sys2Proof.Machine

open Sys2Proof Sys2Proof.Machine

/-- Settles O21: each command is cited by what it leaves of PENDING and ACTIVE; what round robin and the interrupt lines note beside it is neither. -/
theorem interruptsAreRaisedClaimedAndCompleted : Obligations.InterruptsAreRaisedClaimedAndCompleted := by
  unfold Obligations.InterruptsAreRaisedClaimedAndCompleted
  refine ⟨?note, ?swset, ?claim, ?complete, ?pending, ?round, ?low, ?high⟩
  case note =>
    intro s a c n l hr notes
    obtain ⟨t, read, held, mem⟩ := s.ringNoteRead_spec notes
    refine ⟨_, hr.readNote read, rfl, ?_, ?_, held, mem⟩
    · exact note_valid n
    · exact note_ring n
  case swset =>
    intro s a ic v hw low high listed
    refine ⟨_, hw.icSwset low high listed, ?_, ?_, ?_⟩
    · exact SameRegs.of_eq (s.setPending_sameRegs _ _) (State.rrNote_regs _ _ _)
    · rw [State.rrNote_mem, (s.aside_setPending _ _ (by omega)).mem]
    · rw [State.isPending_congr (State.rrNote_regs _ _ _), s.isPending_setPending_same]
  case claim =>
    intro s ic n x live on target choice hx
    obtain ⟨t, act, pending, active, claimant, mem⟩ := s.icClaim_spec choice hx
    refine ⟨t.answer .ok (BitVec.ofNat 64 x), ?_, rfl, pending, active, claimant, mem⟩
    change execIcClaim ic n s = _
    rw [execIcClaim, State.live_run live]
    refine (if_neg ?_).trans ?_
    · simp [on, target]
    · rw [act]
  case complete =>
    intro s ic n v live on target active claimant
    obtain ⟨t, act, ended, free, mem⟩ := s.icComplete_spec active claimant
    refine ⟨t.rrNote s (icKey ic), ?_, ?_, ?_, ?_⟩
    · change execIcComplete ic n v s = _
      rw [execIcComplete, State.live_run live]
      refine (if_neg ?_).trans ?_
      · simp [on, target]
      · rw [act]
    · rw [State.isActive_congr (t.rrNote_regs _ _), ended]
    · rw [t.rrNote_claimedBy, free]
    · rw [t.rrNote_mem, mem]
  case pending =>
    intro s a ic w hw
    obtain ⟨t, act, mem, cores, bits⟩ := s.icPendingWrite_zero (icKey ic) w.val w.isLt
    refine ⟨t.rrNote s (icKey ic), ?_, ?_, ?_, fun b hb set => ?_⟩
    · exact hw.next (v := 0) ((s.writeAct_ic a 0 ⟨rfl, rfl, rfl⟩).trans (State.icWrite_eq ((s.icWriteReg_IC_PENDING a ic w.val 0).trans act)))
    · rw [t.rrNote_mem, mem]
    · rw [t.rrNote_cores, cores]
    · exact bits b hb (State.isPending_congr (t.rrNote_regs _ _) _ _ ▸ set)
  case round =>
    intro s ic x n live on due rounds maskable target
    change execRrAdvance ic x s = _
    simp only [execRrAdvance, State.live_run live, on, due, rounds, maskable, target, Bool.not_false, Bool.and_self, if_true, State.rrMark]
    split <;> rfl
  case low =>
    intro s ic x live on filtered was held
    change execFilteredLineChange ic x false s = _
    simp only [execFilteredLineChange, State.live_run live, on, filtered, was, held]
    rfl
  case high =>
    intro s ic x live on filtered edge was held
    let u : State := { s with filteredHigh := sins s.filteredHigh (icKey ic * 1024 + x.val) }
    refine ⟨u.setPending (icKey ic) x.val, ?_, u.isPending_setPending_same _ _, (u.aside_setPending _ _ x.isLt).filteredHigh⟩
    change execFilteredLineChange ic x true s = _
    simp only [execFilteredLineChange, State.live_run live, on, filtered, edge, was, held]
    rfl
end

section
set_option Elab.async false -- one proof after the other: the whole text stands near the memory limit of the check
/-! Pointers of the host ports' FIFO and landing ring (14 R531, R532). -/
namespace Sys2Proof.Machine

variable {s : State} {a : Actor} {h : Fin 2} {v : Word}

theorem State.ioWrite_HP_FIFO_PTR (s : State) (a : Actor) (h v : Nat) : s.ioWrite a (hp .HP_FIFO_PTR h) v = s.hpHeadWrite h true v := by
  have die : 20 + h - 20 = h := by omega
  exact congrArg (s.hpHeadWrite · true v) die

theorem State.ioWrite_HP_LAND_PTR (s : State) (a : Actor) (h v : Nat) : s.ioWrite a (hp .HP_LAND_PTR h) v = s.hpHeadWrite h false v := by
  have die : 20 + h - 20 = h := by omega
  exact congrArg (s.hpHeadWrite · false v) die

theorem State.ioWrite_HP_FIFO_CTRL (s : State) (a : Actor) (h v : Nat) : s.ioWrite a (hp .HP_FIFO_CTRL h) v = s.dropRest h v := by
  have die : 20 + h - 20 = h := by omega
  exact congrArg (s.dropRest · v) die

/-- The pointer register of a host port's FIFO or landing ring. -/
abbrev hpPtr (fifo : Bool) (h : Nat) : Reg := hp (if fifo then .HP_FIFO_PTR else .HP_LAND_PTR) h

/-- A HEAD that no packet being dropped stands in the way of, and that lies between the old HEAD and TAIL (14 R531). -/
def State.headInRange (s : State) (h : Nat) (r : Reg) (new : Nat) : Prop :=
  (s.rx h).dropping = false ∧ 0 ≤ diff32 new (s.fld r HP_FIFO_PTR.HEAD) ∧ 0 ≤ diff32 (s.fld r HP_FIFO_PTR.TAIL) new ∧
    diff32 new (s.fld r HP_FIFO_PTR.HEAD) ≤ diff32 (s.fld r HP_FIFO_PTR.TAIL) (s.fld r HP_FIFO_PTR.HEAD)

theorem State.hpHeadWrite_inRange {i w : Nat} (fifo : Bool) (range : s.headInRange i (hpPtr fifo i) (bits w 31 0)) :
    s.hpHeadWrite i fifo w = (let t := s.setFld (hpPtr fifo i) HP_FIFO_PTR.HEAD (bits w 31 0); if fifo then t.freeRows i (bits w 31 0) else t, .ok) := by
  obtain ⟨dropping, forward, below, within⟩ := range
  refine (if_neg (by rw [dropping]; decide)).trans (if_neg ?_)
  simp only [Bool.or_eq_true, decide_eq_true_eq, not_or, Int.not_lt]
  exact ⟨⟨forward, below⟩, within⟩

theorem State.fld_head_written (s : State) (r : Reg) (v : Word) : (s.setFld r HP_FIFO_PTR.HEAD (bits v.toNat 31 0)).fld r HP_FIFO_PTR.HEAD = bits v.toNat 31 0 := by
  rw [State.fld_setFld_same _ _ _ _ (by decide) (by decide)]
  exact Nat.mod_eq_of_lt (bits_lt v.toNat 31 0)

theorem State.fld_tail_kept (s : State) (r : Reg) (w : Nat) : (s.setFld r HP_FIFO_PTR.HEAD w).fld r HP_FIFO_PTR.TAIL = s.fld r HP_FIFO_PTR.TAIL :=
  State.fld_setFld_other _ _ _ _ _ (by decide) (by decide) (.inr (by decide))

/-! DROP_REST (14 R532). -/

theorem Writable.exec_dropRest (hw : Writable s a (hp .HP_FIFO_CTRL h.val)) :
    exec (.dropRest a h v) s = .next ((s.dropRest h.val (setBit v.toNat 0 true)).1.answer (s.dropRest h.val (setBit v.toNat 0 true)).2 0) :=
  hw.next (v := setBit v.toNat 0 true) ((s.writeAct_io a _ (.inr ⟨rfl, rfl, rfl⟩)).trans (s.ioWrite_HP_FIFO_CTRL a h.val _))

theorem State.dropRest_packet {i w : Nat} {pk : FifoPkt} (set : bitAt w 0 = true) (waiting : s.fld (hp .HP_FIFO_PTR i) HP_FIFO_PTR.HEAD ≠ s.fld (hp .HP_FIFO_PTR i) HP_FIFO_PTR.TAIL)
    (packet : s.headPacket i = some pk) : s.dropRest i w = (if pk.closed then s.dropPacket i pk else s.setRx i { s.rx i with dropping := true }, .ok) := by
  unfold State.dropRest
  refine (if_neg ?_).trans ?_
  · simp [set, waiting]
  · rw [packet]

end Sys2Proof.Machine

open Sys2Proof Sys2Proof.Machine

/-- Settles O22: a HEAD in range is the one field the write changes, and DROP_REST acts on the packet at HEAD. -/
theorem hostFifoPointersAdvance : Obligations.HostFifoPointersAdvance := by
  unfold Obligations.HostFifoPointersAdvance
  refine ⟨?fifo, ?land, ?waits, ?drops⟩
  case fifo =>
    intro s a h v hw dropping forward below within
    let u : State := s.setFld (hp .HP_FIFO_PTR h.val) HP_FIFO_PTR.HEAD (bits v.toNat 31 0)
    have act := (s.ioWrite_HP_FIFO_PTR a h.val v.toNat).trans (State.hpHeadWrite_inRange true ⟨dropping, forward, below, within⟩)
    refine ⟨u.freeRows h.val (bits v.toNat 31 0), hw.next ((s.writeAct_io a v.toNat (.inr ⟨rfl, rfl, rfl⟩)).trans act), ?_, rfl, s.fld_head_written _ v, s.fld_tail_kept _ _⟩
    exact SameRegs.of_eq (t := u) ((SameRegs.refl s _).setFld _ _ List.mem_cons_self) rfl
  case land =>
    intro s a h v hw dropping forward below within
    have act := (s.ioWrite_HP_LAND_PTR a h.val v.toNat).trans (State.hpHeadWrite_inRange false ⟨dropping, forward, below, within⟩)
    exact ⟨_, hw.next ((s.writeAct_io a v.toNat (.inr ⟨rfl, rfl, rfl⟩)).trans act), (OnlyRegs.refl s _).setFld _ _ List.mem_cons_self, s.fld_head_written _ v, s.fld_tail_kept _ _⟩
  case waits =>
    intro s a h v pk hw waiting packet closed
    rw [hw.exec_dropRest, State.dropRest_packet (bitAt_setBit_same ..) waiting packet, closed]
    rfl
  case drops =>
    intro s a h v pk hw waiting packet closed
    rw [hw.exec_dropRest, State.dropRest_packet (bitAt_setBit_same ..) waiting packet, closed]
    rfl
end

section
set_option Elab.async false -- one proof after the other: the whole text stands near the memory limit of the check
/-! Host-class cores bound, and range operations of the L3 (12 R467-R474). -/
namespace Sys2Proof.Machine

variable {s t : State} {a : Actor} {d : Die} {v : Word}

/-! Binding a host-class core (12 R474). -/

theorem hcReg_index (k : Nat) (n : RegName) : (hcReg n k).sel * 16 + (hcReg n k).i = k := by
  simp only [hcReg, selCd]
  omega

theorem State.cdWrite_HC_BIND (s : State) (a : Actor) (k v : Nat) : s.cdWrite a (hcReg .HC_BIND k) v = s.hcBindWrite k v := congrArg (s.hcBindWrite · v) (hcReg_index k .HC_BIND)

theorem addr_hcReg_ne {n m : RegName} (k : Nat) (h : n.layout.base ≠ m.layout.base ∧ n.layout.strideI = m.layout.strideI ∧ n.layout.strideJ = m.layout.strideJ) :
    (hcReg n k).addr ≠ (hcReg m k).addr := addr_ne_of_base _ _ _ h

theorem State.hcLease_setStatus (s : State) (k : Nat) (f : Fld) (w : Nat) : (s.setFld (hcReg .HC_STATUS k) f w).hcLease k = s.hcLease k := by
  have apart := addr_hcReg_ne (n := .HC_BIND) (m := .HC_STATUS) k (by decide)
  simp only [State.hcLease, State.fld_setFld_ne s f _ w apart]

/-- HC_BIND with VALID 1 and a lease names that lease. -/
theorem State.hcLease_bound (s : State) (k l : Nat) : ((s.setFld (hcReg .HC_BIND k) HC_BIND.LEASE l).setFld (hcReg .HC_BIND k) HC_BIND.VALID 1).hcLease k = some (l % 2 ^ 8) := by
  rw [State.hcLease, State.fld_setFld_same _ _ _ _ (by decide) (by decide), State.fld_setFld_other _ _ _ _ _ (by decide) (by decide) (.inr (by decide)),
    State.fld_setFld_same _ _ _ _ (by decide) (by decide)]
  rfl

/-- A lease written again over VALID 1 is the lease named. -/
theorem State.hcLease_setLease (h : (s.hcLease k).isSome = true) (l : Nat) : (s.setFld (hcReg .HC_BIND k) HC_BIND.LEASE l).hcLease k = some (l % 2 ^ 8) := by
  have valid : (s.fld (hcReg .HC_BIND k) HC_BIND.VALID == 1) = true := by
    unfold State.hcLease at h
    split at h
    · assumption
    · exact absurd h (by decide)
  rw [State.hcLease, State.fld_setFld_other _ _ _ _ _ (by decide) (by decide) (.inl (by decide)), if_pos valid, State.fld_setFld_same _ _ _ _ (by decide) (by decide)]
  rfl

theorem State.hcSetBind_spec (s : State) (k l : Nat) :
    ∃ u, s.hcSetBind k (some l) = u ∧ u.hcLease k = some (l % 2 ^ 8) ∧ u.fld (hcReg .HC_STATUS k) HC_STATUS.BOUND = 1 := by
  refine ⟨_, rfl, ?_, ?_⟩
  · exact (State.hcLease_setStatus _ k _ _).trans (State.hcLease_bound _ k l)
  · exact (State.fld_setFld_same _ _ _ _ (by decide) (by decide)).trans rfl

theorem State.hcBindWrite_spec {k w : Nat} (other : (k % 16 == 0) = false) (quiesced : s.fld (hcReg .HC_STATUS k) HC_STATUS.QUIESCED = 1) (valid : bitAt w HC_BIND.VALID.lo = true) :
    ∃ t, s.hcBindWrite k w = (t, .ok) ∧ t.hcLease k = some (bits w HC_BIND.LEASE.hi HC_BIND.LEASE.lo) ∧ t.fld (hcReg .HC_STATUS k) HC_STATUS.BOUND = 1 ∧
      t.fld (hcReg .HC_STATUS k) HC_STATUS.QUIESCED = 0 := by
  obtain ⟨u, bound, lease, status⟩ := s.hcSetBind_spec k (bits w HC_BIND.LEASE.hi HC_BIND.LEASE.lo)
  have apart := addr_hcReg_ne (n := .HC_STATUS) (m := .HC_BIND) k (by decide)
  have low : bits w HC_BIND.LEASE.hi HC_BIND.LEASE.lo % 2 ^ 8 = bits w HC_BIND.LEASE.hi HC_BIND.LEASE.lo := Nat.mod_eq_of_lt (bits_lt w _ _)
  refine ⟨(u.setFld (hcReg .HC_BIND k) HC_BIND.LEASE (bits w HC_BIND.LEASE.hi HC_BIND.LEASE.lo)).setFld (hcReg .HC_STATUS k) HC_STATUS.QUIESCED 0, ?_, ?_, ?_, ?_⟩
  · unfold State.hcBindWrite
    refine (if_neg ?_).trans ?_
    · simp [other, quiesced]
    · rw [if_pos valid, bound]
  · rw [State.hcLease_setStatus, State.hcLease_setLease (by rw [lease]; rfl), low]
  · rw [State.fld_setFld_other _ _ _ _ _ (by decide) (by decide) (.inl (by decide)), State.fld_setFld_ne _ _ _ _ apart, status]
  · exact State.fld_setFld_same _ _ _ _ (by decide) (by decide)

/-! A range operation begun or refused (12 R467-R469). -/

theorem State.cdWrite_L3_RANGE_CTL (s : State) (a : Actor) (d v : Nat) : s.cdWrite a (l3Reg .L3_RANGE_CTL d) v = s.l3CtlWrite a d v := rfl

theorem bits_rangeWord_op {op n : Nat} (h : op < 4) : bits (rangeWord op n) L3_RANGE_CTL.OP.hi L3_RANGE_CTL.OP.lo = op := by
  rw [rangeWord, bits_setBit_out _ _ _ _ _ (.inr (by decide)), bits_setBits_out _ _ _ _ _ _ (by decide) (.inl (by decide)), bits_setBits_same _ _ _ _ (by decide)]
  exact Nat.mod_eq_of_lt h

theorem bits_rangeWord_rows {op n : Nat} (h : n < 2 ^ 24) : bits (rangeWord op n) L3_RANGE_CTL.ROWS.hi L3_RANGE_CTL.ROWS.lo = n := by
  rw [rangeWord, bits_setBit_out _ _ _ _ _ (.inr (by decide)), bits_setBits_same _ _ _ _ (by decide)]
  exact Nat.mod_eq_of_lt h

theorem State.l3CtlWrite_rangeWord (s : State) (a : Actor) (d : Nat) {op n : Nat} (h : op < 4) (k : n < 2 ^ 24) : s.l3CtlWrite a d (rangeWord op n) = s.l3Range a d op n := by
  rw [State.l3CtlWrite, bits_rangeWord_op h, bits_rangeWord_rows k]
  exact if_pos (bitAt_setBit_same ..)

/-- A range command with GO reaches its die's range operation. -/
theorem Writable.range {op : Nat} {n : BitVec 24} {st : Status} (h : Writable s a (l3Reg .L3_RANGE_CTL d.val)) (o : op < 4) (e : s.l3Range a d.val op n.toNat = (t, st)) :
    s.writeCmd a (l3Reg .L3_RANGE_CTL d.val).addr (rangeWord op n.toNat) = .next (t.answer st 0) :=
  h.next ((s.writeAct_cd a _ ⟨rfl, rfl, rfl⟩).trans ((s.cdWrite_L3_RANGE_CTL a d.val _).trans ((s.l3CtlWrite_rangeWord a d.val o n.isLt).trans e)))

theorem State.l3Range_busy {d n op : Nat} (busy : s.fld (l3Reg .L3_RANGE_STATUS d) L3_RANGE_STATUS.BUSY = 1) :
    s.l3Range a d op n = (s.setW1c (l3Reg .L3_RANGE_STATUS d) L3_RANGE_STATUS.REFUSED, .busy) := if_pos (beq_iff_eq.2 busy)

theorem State.l3Range_begun {d n op : Nat} {rows : List Nat} (idle : s.fld (l3Reg .L3_RANGE_STATUS d) L3_RANGE_STATUS.BUSY = 0) (o : op < 3) (some : n ≠ 0) (few : n < 2 ^ 24)
    (runs : ∀ l, actorLease a = .some l → s.active l = true ∧ s.snapStopped l = false)
    (span : s.findSpan (actorLease a) (s.fld (l3Reg .L3_RANGE_BASE d) L3_RANGE_BASE.BASE) (s.fld (l3Reg .L3_RANGE_BASE d) L3_RANGE_BASE.BASE + 512 * n - 1) = none)
    (held : s.l3Rows d (s.fld (l3Reg .L3_RANGE_BASE d) L3_RANGE_BASE.BASE) n = .some rows) : s.l3Range a d op n = (s.rangeBegun a d n op rows, .ok) := by
  unfold State.l3Range
  refine (if_neg (by simp [idle])).trans ((if_neg ?_).trans ((if_neg ?_).trans ((if_neg ?_).trans ((if_neg (by simp [span])).trans ?_))))
  · simp
    omega
  · cases lease : actorLease a with
    | none => simp
    | some l => simp [(runs l lease).1]
  · cases lease : actorLease a with
    | none => simp
    | some l => simp [(runs l lease).2]
  · rw [held]
    rfl

/-! The end of a range operation (12 R468). -/

/-- With no write-back of the kind asked for, none is performed. -/
theorem State.performBacks_none {p : WriteBack → Bool} (h : s.writeBacks.all (fun w => !p w) = true) : s.performBacks p = s := by
  have none : s.writeBacks.filter p = [] := List.filter_eq_nil_iff.2 fun w hw => by simpa using List.all_eq_true.1 h w hw
  have all : s.writeBacks.filter (fun w => !p w) = s.writeBacks := List.filter_eq_self.2 fun w hw => List.all_eq_true.1 h w hw
  rw [State.performBacks, none, all]
  rfl

/-- A source of a compute die that no filter takes is made PENDING when it is raised. -/
theorem State.raise_die (s : State) {x : Nat} (d : Die) (used : ∀ t : State, t.sourceUsed d.val x = true) (open' : sourceFiltered d.val x = false) : s.raise d.val x = s.setPending d.val x := by
  have die := d.isLt
  have same : (if (d.val == 4 && s.sv1) = true then 5 else d.val) = d.val := if_neg (by simp; omega)
  unfold State.raise
  simp only [same, used, open', Bool.not_true, Bool.false_eq_true, if_false]

/-- What lies on a compute die outside its PENDING words is no account word, session count, pin status or PENDING word. -/
theorem plain_of_die {q : Reg} (d : Die) {o : Nat} (ho : o < 2 ^ 38) (out : o < 0xE000200 ∨ 0xE000280 ≤ o) (h : q.addr = 8 * 2 ^ 44 + d.val * 2 ^ 38 + o) : Plain q := by
  have hd := d.isLt
  refine ⟨fun n w => ?_, fun k => ?_, ?_, fun ic x hx => ?_⟩ <;> rw [h]
  · simp only [Reg.addr, acct, RegName.layout, selSv0]; omega
  · simp only [Reg.addr, hp, RegName.layout, selIo]; omega
  · simp only [Reg.addr, RegName.layout, selSv0]; omega
  · simp only [Reg.addr, icPending, RegName.layout, icSel]; split <;> omega

theorem plain_L3_RANGE_STATUS (d : Die) : Plain (l3Reg .L3_RANGE_STATUS d.val) := plain_of_die d (o := 0xC100010) (by decide) (.inl (by decide)) (by simp only [Reg.addr, l3Reg, selCd, RegName.layout])

theorem State.sourceUsed_C2 (s : State) (d : Die) : s.sourceUsed d.val 0xC2 = true := by
  have die := d.isLt
  simp [State.sourceUsed, die]

theorem sourceFiltered_C2 (d : Die) : sourceFiltered d.val 0xC2 = false := by
  have die := d.isLt
  simp [sourceFiltered, die]

end Sys2Proof.Machine

open Sys2Proof Sys2Proof.Machine

/-- Settles O23: a binding, a range operation and its end are cited by what each writes of its own registers. -/
theorem hostCoresBindAndRangesRun : Obligations.HostCoresBindAndRangesRun := by
  unfold Obligations.HostCoresBindAndRangesRun
  refine ⟨?bind, ?begins, ?busy, ?ends⟩
  case bind =>
    intro s h v hw other quiesced valid
    have index : (hcKey h % 16 == 0) = false := by
      have low := h.h.isLt
      have nonzero : h.h.val ≠ 0 := fun e => other (Fin.ext e)
      simp [hcKey]
      omega
    obtain ⟨t, act, rest⟩ := s.hcBindWrite_spec index quiesced valid
    exact ⟨t, hw.next ((s.writeAct_cd _ v.toNat ⟨rfl, rfl, rfl⟩).trans ((s.cdWrite_HC_BIND _ _ _).trans act)), rest⟩
  case begins =>
    intro s a d n rows hw idle some runs span held
    have count : n.toNat ≠ 0 := fun e => some (BitVec.eq_of_toNat_eq e)
    have begun {op : Nat} (o : op < 3) := State.l3Range_begun idle o count n.isLt runs span held
    exact ⟨hw.range (by decide) (begun (by decide)), hw.range (by decide) (begun (by decide)), hw.range (by decide) (begun (by decide))⟩
  case busy =>
    intro s a d n hw busy
    exact ⟨hw.range (by decide) (State.l3Range_busy busy), hw.range (by decide) (State.l3Range_busy busy), hw.range (by decide) (State.l3Range_busy busy)⟩
  case ends =>
    intro s d live busy due backs
    let u : State := (s.setFld (l3Reg .L3_RANGE_STATUS d.val) L3_RANGE_STATUS.BUSY 0).setFld (l3Reg .L3_RANGE_STATUS d.val) L3_RANGE_STATUS.LAST_STATUS 0
    have aside : Aside u (u.setPending d.val 0xC2) := u.aside_setPending _ _ (by decide)
    have kept (f : Fld) := aside.fld (plain_L3_RANGE_STATUS d) f
    refine ⟨u.setPending d.val 0xC2, ?_, ?_, ?_, u.isPending_setPending_same _ _, aside.mem, ?_⟩
    · change execL3RangeEnd d s = _
      rw [execL3RangeEnd, State.live_run live]
      refine (if_neg ?_).trans ?_
      · simp only [busy, Bool.or_eq_true, decide_eq_true_eq, not_or, Nat.not_lt]
        exact ⟨by decide, due⟩
      · rw [State.performBacks_none backs]
        exact congrArg Host.Outcome.next (u.raise_die d (·.sourceUsed_C2 d) (sourceFiltered_C2 d))
    · rw [kept, State.fld_setFld_other _ _ _ _ _ (by decide) (by decide) (.inl (by decide)), State.fld_setFld_same _ _ _ _ (by decide) (by decide)]
      rfl
    · rw [kept, State.fld_setFld_same _ _ _ _ (by decide) (by decide)]
      rfl
    · obtain ⟨⟨_, _, _, _, _, _, _, _, _, e⟩, _⟩ := aside
      rw [e]
      rfl
end

section
set_option Elab.async false -- one proof after the other: the whole text stands near the memory limit of the check
/-! The reference monitor, the clock roots and power (16 R567-R585). -/
namespace Sys2Proof.Machine

variable {s t : State} {a : Actor} {v : Word}

/-! Registers of the supervisor that no account, session, pin or interrupt writes. -/

theorem plain_of_sv0 {q : Reg} {o : Nat} (low : o < 0x1000000) (pins : o ≠ 0xE00000) (h : q.addr = 8 * 2 ^ 44 + selSv0 * 2 ^ 38 + o) : Plain q := by
  refine ⟨fun n w => ?_, fun k => ?_, ?_, fun ic x hx => ?_⟩ <;> rw [h]
  · simp only [Reg.addr, acct, RegName.layout, selSv0]; omega
  · simp only [Reg.addr, hp, RegName.layout, selSv0, selIo, sesPort]; omega
  · simp only [Reg.addr, RegName.layout, selSv0]; omega
  · simp only [Reg.addr, icPending, RegName.layout, selSv0, icSel]; split <;> omega

theorem plain_clkMon : Plain clkMon := plain_of_sv0 (o := 0x800008) (by decide) (by decide) (by decide)
theorem plain_pwrStatus : Plain pwrStatus := plain_of_sv0 (o := 0x900008) (by decide) (by decide) (by decide)

theorem Aside.life (h : Aside s t) : t.life = s.life := by obtain ⟨⟨_, _, _, _, _, _, _, _, _, rfl⟩, _⟩ := h; rfl
theorem Aside.relockAt (h : Aside s t) : t.relockAt = s.relockAt := by obtain ⟨⟨_, _, _, _, _, _, _, _, _, rfl⟩, _⟩ := h; rfl

/-! A failed clock (16 R571). -/

/-- What is written of CLK_MON_STATUS for a failed clock. -/
abbrev State.failureNoted (s : State) (cause : Nat) : State := (s.setFld clkMon CLK_MON_STATUS.CAUSE cause).bump clkMon CLK_MON_STATUS.FAILS 1

theorem State.aside_clockFailed (s : State) (cause : Nat) : Aside (s.failureNoted cause) (s.clockFailed cause) :=
  ((s.failureNoted cause).aside_syncAlerts.trans (State.aside_raise _ 4 0)).trans (State.aside_postEvent _ (fun _ => true) 0x8002 .ok [])

theorem State.fld_clockFailed_cause (s : State) {c : Nat} (h : c < 4) : (s.clockFailed c).fld clkMon CLK_MON_STATUS.CAUSE = c := by
  rw [(s.aside_clockFailed c).fld plain_clkMon, State.fld_bump_other _ _ _ _ _ (by decide) (by decide) (.inl (by decide)), State.fld_setFld_same _ _ _ _ (by decide) (by decide)]
  exact Nat.mod_eq_of_lt h

/-- A failed clock leaves REF_OK, HOLDOVER and STANDBY as they are. -/
theorem State.fld_clockFailed_low (s : State) (c : Nat) {f : Fld} (h : f.hi < 3) : (s.clockFailed c).fld clkMon f = s.fld clkMon f := by
  rw [(s.aside_clockFailed c).fld plain_clkMon, State.fld_bump_other _ _ _ _ _ (by decide) (by decide) (.inl (Nat.lt_trans h (by decide))),
    State.fld_setFld_other _ _ _ _ _ (by decide) (by decide) (.inl h)]

theorem State.refFailed_spec (s : State) {c : Nat} (h : c < 4) :
    (s.refFailed c).fld clkMon CLK_MON_STATUS.REF_OK = 0 ∧ (s.refFailed c).fld clkMon CLK_MON_STATUS.HOLDOVER = 1 ∧ (s.refFailed c).fld clkMon CLK_MON_STATUS.CAUSE = c ∧
      (s.refFailed c).relockAt = none ∧ (s.refFailed c).mem = s.mem := by
  let u : State := { (s.setFld clkMon CLK_MON_STATUS.REF_OK 0).setFld clkMon CLK_MON_STATUS.HOLDOVER 1 with relockAt := none, goodWindows := 0 }
  have regs (f : Fld) : u.fld clkMon f = ((s.setFld clkMon CLK_MON_STATUS.REF_OK 0).setFld clkMon CLK_MON_STATUS.HOLDOVER 1).fld clkMon f := rfl
  refine ⟨?_, ?_, u.fld_clockFailed_cause h, (u.aside_clockFailed c).relockAt, (u.aside_clockFailed c).mem⟩
  · refine (u.fld_clockFailed_low c (by decide)).trans ((regs _).trans ?_)
    rw [State.fld_setFld_other _ _ _ _ _ (by decide) (by decide) (.inl (by decide)), State.fld_setFld_same _ _ _ _ (by decide) (by decide)]
    rfl
  · refine (u.fld_clockFailed_low c (by decide)).trans ((regs _).trans ?_)
    rw [State.fld_setFld_same _ _ _ _ (by decide) (by decide)]
    rfl

/-! A reference window (16 R569, R570). -/

theorem State.fld_window (s : State) (n : Nat) {f : Fld} (h : f.hi < 8) : (s.setFld clkMon CLK_MON_STATUS.LAST_COUNT n).fld clkMon f = s.fld clkMon f :=
  State.fld_setFld_other _ _ _ _ _ (by decide) (by decide) (.inl h)

theorem State.judging_setFld_clkMon (s : State) (f : Fld) (n : Nat) : (s.setFld clkMon f n).judging = s.judging := by
  have apart : (⟨.START_STATUS, selSv0, 0, 0⟩ : Reg).addr ≠ clkMon.addr := by decide
  simp only [State.judging, State.fld_setFld_ne s f _ n apart]
  rfl

theorem State.exec_refWindow_used (live : s.life = .running) (used : s.fld clkMon CLK_MON_STATUS.REF_OK = 1) (n : Nat) :
    exec (.refWindow n) s = .next (if windowHeld n then s.setFld clkMon CLK_MON_STATUS.LAST_COUNT n else (s.setFld clkMon CLK_MON_STATUS.LAST_COUNT n).refFailed 2) := by
  change execRefWindow n s = _
  rw [execRefWindow, State.live_run live]
  exact if_pos (by rw [s.fld_window n (by decide), used]; rfl)

theorem State.exec_refWindow_third (live : s.life = .running) (unused : s.fld clkMon CLK_MON_STATUS.REF_OK = 0) (judged : s.judging = true) {n : Nat} (good : windowGood n = true)
    (two : s.goodWindows = 2) :
    exec (.refWindow n) s = .next ({ s.setFld clkMon CLK_MON_STATUS.LAST_COUNT n with goodWindows := 3 }.setFld clkMon CLK_MON_STATUS.REF_OK 1) := by
  change execRefWindow n s = _
  rw [execRefWindow, State.live_run live]
  refine (if_neg (by rw [s.fld_window n (by decide), unused]; decide)).trans ((if_neg (by rw [s.judging_setFld_clkMon, judged]; decide)).trans ?_)
  have three : (if windowGood n then (s.setFld clkMon CLK_MON_STATUS.LAST_COUNT n).goodWindows + 1 else 0) = 3 := by rw [if_pos good]; exact congrArg (· + 1) two
  simp only [three]
  exact congrArg Host.Outcome.next (if_pos (Nat.le_refl 3))

/-! Roots and relock (16 R572, R573, R575). -/

theorem State.svWrite_CLK_CTRL (s : State) (a : Actor) (v : Nat) : s.svWrite a ⟨.CLK_CTRL, selSv0, 0, 0⟩ v = s.clkCtrlWrite v := rfl

theorem Writable.clkCtrl {w : Nat} {st : Status} (h : Writable s a ⟨.CLK_CTRL, selSv0, 0, 0⟩) (e : s.clkCtrlWrite w = (t, st)) :
    s.writeCmd a (⟨.CLK_CTRL, selSv0, 0, 0⟩ : Reg).addr w = .next (t.answer st 0) :=
  h.next ((s.writeAct_sv a w ⟨rfl, rfl, rfl⟩).trans ((s.svWrite_CLK_CTRL a w).trans e))

theorem State.clkCtrlWrite_relock {w : Nat} (set : bitAt w CLK_CTRL.RELOCK.lo = true) (clear : bitAt w CLK_CTRL.ROOT_SV0.lo = false) : s.clkCtrlWrite w = s.relock := by
  rw [State.clkCtrlWrite, set, clear]
  rfl

theorem State.clkCtrlWrite_root {w : Nat} (clear : bitAt w CLK_CTRL.RELOCK.lo = false) (set : bitAt w CLK_CTRL.ROOT_SV0.lo = true) : s.clkCtrlWrite w = s.rootSv0 := by
  rw [State.clkCtrlWrite, set, clear]
  rfl

theorem bitAt_setBit_apart (w : Nat) {j k : Nat} (b : Bool) (h : k ≠ j) : bitAt (setBit w j b) k = bitAt w k := bitAt_setBit_ne _ _ _ _ h

end Sys2Proof.Machine

open Sys2Proof Sys2Proof.Machine

/-- Settles O26: a window is judged by the branch of the monitor it falls in, and a failed reference writes CLK_MON_STATUS before what it raises. -/
theorem referenceWindowsAreJudged : Obligations.ReferenceWindowsAreJudged := by
  unfold Obligations.ReferenceWindowsAreJudged
  refine ⟨?held, ?off, ?lost, fun s c h => s.refFailed_spec h, ?good⟩
  case held =>
    intro s n live used low high
    rw [State.exec_refWindow_used live used, if_pos (by simp [windowHeld, low, high])]
  case off =>
    intro s n live used out
    rw [State.exec_refWindow_used live used, if_neg (by simp [windowHeld]; omega)]
  case lost =>
    intro s live used
    change execRefLoss s = _
    rw [execRefLoss, State.live_run live, if_pos (beq_iff_eq.2 used)]
  case good =>
    intro s n live unused judged low high two
    refine ⟨_, State.exec_refWindow_third live unused judged (by simp [windowGood, low, high]) two, rfl, ?_, ?_, ?_, rfl⟩
    · exact (State.fld_setFld_same _ _ _ _ (by decide) (by decide)).trans rfl
    · refine (State.fld_setFld_other _ _ _ _ _ (by decide) (by decide) (.inr (by decide))).trans ((State.fld_setFld_same s clkMon CLK_MON_STATUS.LAST_COUNT n (by decide) (by decide)).trans ?_)
      exact Nat.mod_eq_of_lt (Nat.lt_of_le_of_lt high (by decide))
    · have counted : SameRegs s { s.setFld clkMon CLK_MON_STATUS.LAST_COUNT n with goodWindows := 3 } [clkMon] :=
        SameRegs.of_eq ((SameRegs.refl s _).setFld CLK_MON_STATUS.LAST_COUNT n List.mem_cons_self) rfl
      exact counted.setFld _ _ List.mem_cons_self

/-- Settles O27: each command by its branch; a failed or returned root writes CLK_MON_STATUS before what it raises. -/
theorem clockRootsFailOverAndRelock : Obligations.ClockRootsFailOverAndRelock := by
  unfold Obligations.ClockRootsFailOverAndRelock
  refine ⟨?relock, ?root, ?complete, ?timeout, ?fails, ?none, ?standby⟩
  case relock =>
    intro s a v hw clear held idle
    refine hw.clkCtrl ((State.clkCtrlWrite_relock (bitAt_setBit_same ..) ((bitAt_setBit_apart _ _ (by decide)).trans clear)).trans (if_neg ?_))
    rw [held, idle]
    decide
  case root =>
    intro s a v hw clear standby
    have act := (State.clkCtrlWrite_root (s := s) (w := setBit v.toNat CLK_CTRL.ROOT_SV0.lo true) ((bitAt_setBit_apart _ _ (by decide)).trans clear) (bitAt_setBit_same ..)).trans
      (if_neg (by rw [standby]; decide))
    cases locked : bitAt (Config.freeWord s.fresh).toNat 0 with
    | true => exact hw.clkCtrl (act.trans (if_pos locked))
    | false => exact hw.clkCtrl (act.trans (if_neg (by rw [State.draw, locked]; decide)))
  case complete =>
    intro s c live relocking good
    let u : State := ({ s with relockAt := none } : State).setFld clkMon CLK_MON_STATUS.HOLDOVER 0
    refine ⟨u.syncAlerts, ?_, u.aside_syncAlerts.relockAt, ?_, u.aside_syncAlerts.mem, u.aside_syncAlerts.cores⟩
    · change execRelockComplete s = _
      rw [execRelockComplete, State.live_run live]
      exact if_neg (by rw [relocking, good, Option.isNone_some]; decide)
    · rw [u.aside_syncAlerts.fld plain_clkMon, State.fld_setFld_same _ _ _ _ (by decide) (by decide)]
      rfl
  case timeout =>
    intro s c live relocking bad due
    change execRelockTimeout s = _
    rw [execRelockTimeout, State.live_run live]
    simp only [relocking]
    refine if_neg ?_
    rw [bad]
    simp only [ms, Bool.or_eq_true, not_or]
    exact ⟨by decide, decide_eq_true_iff.not.2 (Nat.not_lt.2 due)⟩
  case fails =>
    intro s live standby root
    let u : State := s.setFld clkMon CLK_MON_STATUS.STANDBY 1
    refine ⟨u.clockFailed 3, ?_, (u.aside_clockFailed 3).life.trans live, ?_, u.fld_clockFailed_cause (by decide), (u.aside_clockFailed 3).mem⟩
    · change execRootSv0Lost s = _
      rw [execRootSv0Lost, State.live_run live]
      exact (if_neg (by rw [standby]; decide)).trans (if_neg (by rw [root]; decide))
    · rw [u.fld_clockFailed_low 3 (by decide), State.fld_setFld_same _ _ _ _ (by decide) (by decide)]
      rfl
  case none =>
    intro s live standby root
    change execRootSv0Lost s = _
    rw [execRootSv0Lost, State.live_run live]
    exact (if_neg (by rw [standby]; decide)).trans (if_pos root)
  case standby =>
    intro s live
    change execStandbyRootLost s = _
    rw [execStandbyRootLost, State.live_run live]
    by_cases standby : s.fld clkMon CLK_MON_STATUS.STANDBY = 1
    · rw [if_pos standby]
      exact congrArg Host.Outcome.next (if_pos (beq_iff_eq.2 standby))
    · rw [if_neg standby, ← live]
      exact congrArg Host.Outcome.next (if_neg fun e => standby (beq_iff_eq.1 e))
end

section
set_option Elab.async false -- one proof after the other: the whole text stands near the memory limit of the check
/-! Invocations of customer code (12 R475-R479). -/
namespace Sys2Proof.Machine

variable {s t : State} {n : Fin 256} {j : Fin 5} {x : Nat} {r : ExtRun}

/-! A run's end (12 R478). -/

/-- The completion of a rewarded prompt, and what it raises. -/
theorem State.rewarded_spec (s : State) (n item : Nat) (reward : List Byte) (st : Status) :
    ∃ u, Aside u (s.rewarded n item reward st) ∧ u.mem = s.mem ∧ u.cores = s.cores ∧ u.extDone = s.extDone ∧ u.extRuns = s.extRuns ∧
      u.completions = s.completions ++ (if s.prompts.any (fun p => p.lease == n && p.id == item && !p.more) = true then [⟨n, item, s.rolloutTokens n item ++ reward ++ beBytes 2 (code st)⟩] else []) := by
  unfold State.rewarded
  cases due : s.prompts.any (fun p => p.lease == n && p.id == item && !p.more) with
  | false => exact ⟨s, Aside.refl s, rfl, rfl, rfl, rfl, (List.append_nil _).symm⟩
  | true =>
    let u : State := { s with fresh := s.fresh + 1, completions := s.completions ++ [⟨n, item, s.rolloutTokens n item ++ reward ++ beBytes 2 (code st)⟩] }
    have raised : Aside u (u.postEvent (fun x => x.lease == some n) 0x8004 .ok (beBytes 8 (u.completions.countP (fun c => c.lease == n)))) := u.aside_postEvent _ _ _ _
    exact ⟨u, raised, rfl, rfl, rfl, rfl, rfl⟩

theorem Aside.extDone (h : Aside s t) : t.extDone = s.extDone := by obtain ⟨⟨_, _, _, _, _, _, _, _, _, rfl⟩, _⟩ := h; rfl
theorem Aside.extRuns (h : Aside s t) : t.extRuns = s.extRuns := by obtain ⟨⟨_, _, _, _, _, _, _, _, _, rfl⟩, _⟩ := h; rfl
theorem Aside.completions (h : Aside s t) : t.completions = s.completions := by obtain ⟨⟨_, _, _, _, _, _, _, _, _, rfl⟩, _⟩ := h; rfl

/-- An ended run leaves the runs, is recorded, and completes its prompt where it rewarded one. -/
theorem State.extEnd_spec (s : State) (r : ExtRun) (out : List Byte) (st : Status) :
    (s.extEnd r out st).extDone = s.extDone ++ [⟨r.lease, r.slot, r.item, st⟩] ∧ (s.extEnd r out st).extRuns = s.extRuns.erase r ∧ (s.extEnd r out st).mem = s.mem ∧ (s.extEnd r out st).cores = s.cores ∧
      (s.extEnd r out st).completions = s.completions ++
        (if r.slot = 0 ∧ s.prompts.any (fun p => p.lease == r.lease && p.id == r.item && !p.more) = true then [⟨r.lease, r.item, s.rolloutTokens r.lease r.item ++ out ++ beBytes 2 (code st)⟩] else []) := by
  let v : State := { s with extRuns := s.extRuns.erase r, extDone := s.extDone ++ [⟨r.lease, r.slot, r.item, st⟩] }
  by_cases zero : r.slot = 0
  · obtain ⟨u, aside, mem, cores, done, runs, completions⟩ := v.rewarded_spec r.lease r.item out st
    have e : s.extEnd r out st = v.rewarded r.lease r.item out st := if_pos (beq_iff_eq.2 zero)
    rw [e, aside.extDone, aside.extRuns, aside.mem, aside.cores, aside.completions]
    refine ⟨done, runs, mem, cores, completions.trans ?_⟩
    simp only [zero, true_and]
    rfl
  · have e : s.extEnd r out st = v := if_neg (by simp [zero])
    rw [e, if_neg (fun h => zero h.1), List.append_nil]
    exact ⟨rfl, rfl, rfl, rfl, rfl⟩

/-- Runs ended one after the other leave the runs as a difference of lists. -/
theorem State.extEnds_spec (l : List ExtRun) : ∀ s : State,
    (l.foldl (fun t r => t.extEnd r [] .timeout) s).extRuns = s.extRuns.diff l ∧
      (l.foldl (fun t r => t.extEnd r [] .timeout) s).extDone = s.extDone ++ l.map (fun r => ⟨r.lease, r.slot, r.item, .timeout⟩) ∧
      (l.foldl (fun t r => t.extEnd r [] .timeout) s).mem = s.mem ∧ (l.foldl (fun t r => t.extEnd r [] .timeout) s).cores = s.cores := by
  induction l with
  | nil => exact fun s => ⟨rfl, (List.append_nil _).symm, rfl, rfl⟩
  | cons r l ih =>
    intro s
    obtain ⟨done, runs, mem, cores, -⟩ := s.extEnd_spec r [] .timeout
    obtain ⟨runs', done', mem', cores'⟩ := ih (s.extEnd r [] .timeout)
    simp only [List.foldl_cons, runs', done', mem', cores', runs, done, mem, cores, List.diff_cons, List.map_cons, List.append_assoc, List.singleton_append, and_self]

/-! The steps of an invocation. -/

/-- The run of an item in a slot that has a core. -/
abbrev runsOn (n : Fin 256) (j : Fin 5) (x : Nat) (r : ExtRun) : Bool := r.lease == n.val && r.slot == j.val && r.item == x && r.core.isSome

theorem runsOn_iff : runsOn n j x r = true ↔ r.lease = n.val ∧ r.slot = j.val ∧ r.item = x ∧ r.core.isSome = true := by
  simp only [runsOn, Bool.and_eq_true, beq_iff_eq, and_assoc]

section
variable (live : s.life = .running) (image : (s.codeSlot n.val j.val).image.isSome = true) (stopped : s.snapStopped n.val = false)
include live image stopped

/-- A committed image of a lease not stopped reaches the step asked for. -/
theorem State.exec_extensionInvoke_start (k : HcId) (m : ExtMap) : exec (.extensionInvoke n j x (.start k m)) s = .next (s.extStart n.val j.val x (hcKey k) m) := by
  change execExtensionInvoke n j x (.start k m) s = _
  rw [execExtensionInvoke, State.live_run live]
  exact if_neg (by simp [Option.isSome_iff_ne_none.1 image, stopped])

variable (runs : s.extRuns.find? (runsOn n j x) = some r)
include runs

theorem State.exec_extensionInvoke_heap (b : Nat) : exec (.extensionInvoke n j x (.heap b)) s = .next (s.extHeap r b) := by
  change execExtensionInvoke n j x (.heap b) s = _
  rw [execExtensionInvoke, State.live_run live]
  refine (if_neg (by simp [Option.isSome_iff_ne_none.1 image, stopped])).trans ?_
  simp only [runs]

theorem State.exec_extensionInvoke_ends (o : ExtOutcome) : exec (.extensionInvoke n j x (.ends o)) s = .next (s.extOutcome r o) := by
  change execExtensionInvoke n j x (.ends o) s = _
  rw [execExtensionInvoke, State.live_run live]
  refine (if_neg (by simp [Option.isSome_iff_ne_none.1 image, stopped])).trans ?_
  simp only [runs]

end

theorem State.extLimit_of_runsOn (runs : s.extRuns.find? (runsOn n j x) = some r) : s.extLimit r = r.since + 1100000 * (s.codeSlot n.val j.val).timeMs := by
  obtain ⟨lease, slot, -, -⟩ := runsOn_iff.1 (List.find?_some runs)
  rw [State.extLimit, ms, lease, slot]

theorem State.extOutcome_late (late : s.extLimit r ≤ s.now) (o : ExtOutcome) : s.extOutcome r o = s.extEnd r [] .timeout := if_pos late

/-- A run that fails by itself is started once more on another core, and ends with the second failure. -/
theorem State.extOutcome_fails {o : ExtOutcome} (early : s.now < s.extLimit r) (fails : o = .faultPoison ∨ o = .badOutput) : s.extOutcome r o = s.extFail r := by
  refine (if_neg (Nat.not_le.2 early)).trans ?_
  rcases fails with rfl | rfl <;> rfl

/-- A run of a lease's slot that has met the slot's time limit. -/
abbrev State.pastLimit (s : State) (n : Fin 256) (j : Fin 5) (r : ExtRun) : Bool := r.lease == n.val && r.slot == j.val && r.core.isSome && s.extLimit r ≤ s.now

theorem State.exec_codeTimeLimit (live : s.life = .running) (n : Fin 256) (j : Fin 5) :
    exec (.codeTimeLimit n j) s = .next ((s.extRuns.filter (s.pastLimit n j)).foldl (fun s r => s.extEnd r [] .timeout) s) := by
  change execCodeTimeLimit n j s = _
  rw [execCodeTimeLimit, State.live_run live]

end Sys2Proof.Machine

open Sys2Proof Sys2Proof.Machine

/-- Settles O25: each step of an invocation by its branch, and the end of a run by what it leaves of the runs, the records and the completions. -/
theorem invocationsEndWithTheirStatus : Obligations.InvocationsEndWithTheirStatus := by
  unfold Obligations.InvocationsEndWithTheirStatus
  refine ⟨?start, ?again, ?heap, ?early, ?late, ?limit, ?ended⟩
  case start =>
    intro s n j x k m live image stopped fresh can
    rw [State.exec_extensionInvoke_start live image stopped, State.extStart, fresh]
    exact congrArg Host.Outcome.next (if_pos can)
  case again =>
    intro s n j x k m r live image stopped runs idle can
    rw [State.exec_extensionInvoke_start live image stopped, State.extStart, runs]
    exact congrArg Host.Outcome.next (if_neg (by simp [idle, can]))
  case heap =>
    intro s n j x b r live image stopped runs
    obtain ⟨lease, slot, -, -⟩ := runsOn_iff.1 (List.find?_some runs)
    rw [State.exec_extensionInvoke_heap live image stopped runs, State.extHeap, lease, slot]
    exact ⟨fun fits => congrArg Host.Outcome.next (if_neg (Nat.not_lt.2 fits)), fun past => congrArg Host.Outcome.next (if_pos past)⟩
  case early =>
    intro s n j x out r live image stopped runs early
    have before : s.now < s.extLimit r := State.extLimit_of_runsOn runs ▸ early
    have ends := State.exec_extensionInvoke_ends live image stopped runs
    refine ⟨?_, ?_, fun o fails => ?_⟩
    · exact (ends _).trans (congrArg Host.Outcome.next (if_neg (Nat.not_le.2 before)))
    · exact (ends _).trans (congrArg Host.Outcome.next (if_neg (Nat.not_le.2 before)))
    · rw [ends, State.extOutcome_fails before fails, State.extFail]
      refine ⟨fun first => ?_, fun second => ?_⟩
      · rw [first]
        rfl
      · rw [if_pos second]
  case late =>
    intro s n j x o r live image stopped runs late
    rw [State.exec_extensionInvoke_ends live image stopped runs, State.extOutcome_late (State.extLimit_of_runsOn runs ▸ late)]
  case limit =>
    intro s n j live
    obtain ⟨runs, done, mem, cores⟩ := State.extEnds_spec (s.extRuns.filter (s.pastLimit n j)) s
    refine ⟨_, State.exec_codeTimeLimit live n j, mem, cores, fun r hr lease slot core past => ?_⟩
    have due : s.pastLimit n j r = true := by
      simp only [State.pastLimit, lease, slot, core, beq_self_eq_true, Bool.true_and, decide_eq_true_eq, State.extLimit, ms]
      exact past
    refine ⟨?_, ?_⟩
    · rw [runs, ← List.count_eq_zero, List.count_diff, List.count_filter due, Nat.sub_self]
    · rw [done]
      refine List.mem_append_right _ (List.mem_map.2 ⟨r, List.mem_filter.2 ⟨hr, due⟩, ?_⟩)
      rw [lease, slot]
  case ended =>
    intro s r out st
    obtain ⟨done, runs, mem, -, completions⟩ := s.extEnd_spec r out st
    exact ⟨done, runs, mem, completions⟩
end

section
set_option Elab.async false -- one proof after the other: the whole text stands near the memory limit of the check
/-! Power: samples, clusters, energy and the duty decision (16 R567, R577-R585). -/
namespace Sys2Proof.Machine

variable {s t : State}

/-- A running unit past the guard of a command. -/
theorem State.live_else {p : State → Prop} [DecidablePred p] {f g : State → Host.Outcome State Fault Refusal} (live : s.life = .running) (h : ¬p s) :
    s.live (fun s => if p s then f s else g s) = g s := by
  rw [State.live_run live]
  exact if_neg h

/-! Energy charged to the leases (15 R559). -/

theorem addr_acct_ne {m n : Nat} (w : Nat) (hm : m < 256) (hn : n < 256) (h : m ≠ n) : (acct m w).addr ≠ (acct n w).addr := by
  simp only [Reg.addr, acct, RegName.layout, selSv0]
  omega

theorem addr_pwrEnergy_ne_acct (n w : Nat) : (⟨.PWR_ENERGY, selSv0, 0, 0⟩ : Reg).addr ≠ (acct n w).addr := by
  simp only [Reg.addr, acct, RegName.layout, selSv0]
  omega

theorem State.fld_charge_same (s : State) (n w v : Nat) : (s.charge n w v).fld (acct n w) ACCT.COUNT = satAdd 64 (s.fld (acct n w) ACCT.COUNT) v :=
  State.fld_bump_same _ _ _ _ (by decide) (by decide)

/-- Charges of a list of leases without repetition, each of its own amount: a lease of the list is charged once, any other register kept. -/
theorem State.charges_spec (w : Nat) (amount : Nat → Nat) (l : List Nat) (low : ∀ n, n ∈ l → n < 256) (once : l.Nodup) : ∀ s : State,
    (l.foldl (fun t n => t.charge n w (amount n)) s).mem = s.mem ∧ (l.foldl (fun t n => t.charge n w (amount n)) s).cores = s.cores ∧
      (∀ q : Reg, (∀ n, n ∈ l → q.addr ≠ (acct n w).addr) → (l.foldl (fun t n => t.charge n w (amount n)) s).reg q = s.reg q) ∧
      ∀ n, n ∈ l → (l.foldl (fun t n => t.charge n w (amount n)) s).fld (acct n w) ACCT.COUNT = satAdd 64 (s.fld (acct n w) ACCT.COUNT) (amount n) := by
  induction l with
  | nil => exact fun s => ⟨rfl, rfl, fun _ _ => rfl, fun n hn => absurd hn List.not_mem_nil⟩
  | cons m l ih =>
    intro s
    obtain ⟨out, once⟩ := List.nodup_cons.1 once
    obtain ⟨mem, cores, others, charged⟩ := ih (fun n hn => low n (List.mem_cons_of_mem _ hn)) once (s.charge m w (amount m))
    refine ⟨mem, cores, fun q hq => ?_, fun n hn => ?_⟩
    · rw [List.foldl_cons, others q fun n hn => hq n (List.mem_cons_of_mem _ hn)]
      exact State.reg_setFld_ne _ _ _ (hq m List.mem_cons_self)
    · rw [List.foldl_cons]
      rcases List.mem_cons.1 hn with rfl | hn'
      · have kept := others (acct n w) fun k hk => addr_acct_ne w (low n hn) (low k (List.mem_cons_of_mem _ hk)) fun e => out (e ▸ hk)
        rw [State.fld, kept, ← State.fld, State.fld_charge_same]
      · have apart := addr_acct_ne w (low n hn) (low m List.mem_cons_self) fun e => out (e ▸ hn')
        rw [charged n hn', State.charge, State.fld_bump_ne _ _ _ _ apart]

/-- The leases that a sample charges. -/
abbrev State.charged (s : State) (e : EnergySample) (x : Nat) : List Nat := (List.range 256).filter (fun n => 0 < s.calibrated e x n)

theorem State.charged_lt {e : EnergySample} {x n : Nat} (h : n ∈ s.charged e x) : n < 256 := List.mem_range.1 (List.mem_filter.1 h).1

/-- The state with every lease charged. -/
abbrev State.charges (s : State) (e : EnergySample) (x : Nat) : State := (s.charged e x).foldl (fun t n => t.charge n 44 (s.calibrated e x n)) s

/-- Of the registers, charging writes ENERGY words alone. -/
theorem State.charges_sameRegs (s : State) (e : EnergySample) (x : Nat) {rs : List Reg} (h : ∀ n, n < 256 → acct n 44 ∈ rs) : SameRegs s (s.charges e x) rs :=
  List.foldlRecOn (motive := fun t => SameRegs s t rs) _ _ (SameRegs.refl s rs) fun _ same n hn => same.bump _ _ (h n (State.charged_lt hn))

/-- What the sample notes beside the charges. -/
abbrev State.noteEnergy (s : State) (now : Nat) (bytes : Tab Nat) : State := { s with energyAt := now, energyBytes := bytes }

theorem State.noteEnergy_regs (s : State) (now : Nat) (bytes : Tab Nat) : (s.noteEnergy now bytes).regs = s.regs := rfl
theorem State.noteEnergy_mem (s : State) (now : Nat) (bytes : Tab Nat) : (s.noteEnergy now bytes).mem = s.mem := rfl
theorem State.noteEnergy_cores (s : State) (now : Nat) (bytes : Tab Nat) : (s.noteEnergy now bytes).cores = s.cores := rfl
theorem State.noteEnergy_fld (s : State) (now : Nat) (bytes : Tab Nat) (q : Reg) (f : Fld) : (s.noteEnergy now bytes).fld q f = s.fld q f := rfl

/-- The state with every lease charged and the sample's time and bytes noted. -/
abbrev State.accrued (s : State) (e : EnergySample) (x : Nat) : State :=
  (s.charges e x).noteEnergy s.now ((List.range 256).filterMap (fun n => if s.leaseBytes n == 0 then none else some (n, s.leaseBytes n)))

theorem State.accrued_sameRegs (s : State) (e : EnergySample) (x : Nat) {rs : List Reg} (h : ∀ n, n < 256 → acct n 44 ∈ rs) : SameRegs s (s.accrued e x) rs :=
  SameRegs.of_eq (s.charges_sameRegs e x h) (State.noteEnergy_regs _ _ _)

theorem State.exec_energyAccrue (live : s.life = .running) {e : EnergySample} {x : Nat} (due : s.energyAt + 1100000 ≤ s.now) :
    exec (.energyAccrue e x) s = .next ((s.accrued e x).count ⟨.PWR_ENERGY, selSv0, 0, 0⟩ PWR_ENERGY.ENERGY_UJ x) := by
  change execEnergyAccrue e x s = _
  rw [execEnergyAccrue, State.live_run live]
  exact if_neg (by simp only [ms]; omega)

/-- A count of nothing leaves a full counter word as it is. -/
theorem satAdd_zero_fld (s : State) (n : Nat) : satAdd 64 (s.fld (acct n 44) ACCT.COUNT) 0 = s.fld (acct n 44) ACCT.COUNT := by
  have low : s.fld (acct n 44) ACCT.COUNT < 2 ^ 64 := bits_lt _ _ _
  rw [satAdd, Nat.add_zero]
  omega

theorem State.fld_charges (s : State) (e : EnergySample) (x : Nat) {n : Nat} (hn : n < 256) :
    (s.charges e x).fld (acct n 44) ACCT.COUNT = satAdd 64 (s.fld (acct n 44) ACCT.COUNT) (s.calibrated e x n) := by
  obtain ⟨-, -, others, charged⟩ := State.charges_spec 44 (s.calibrated e x) (s.charged e x) (fun _ => State.charged_lt) (List.nodup_range.filter _) s
  by_cases h : n ∈ s.charged e x
  · exact charged n h
  · have nothing : s.calibrated e x n = 0 := by
      have not : ¬0 < s.calibrated e x n := fun k => h (List.mem_filter.2 ⟨List.mem_range.2 hn, decide_eq_true k⟩)
      omega
    have kept := others (acct n 44) fun k hk => addr_acct_ne 44 hn (State.charged_lt hk) fun same => h (same ▸ hk)
    rw [nothing, satAdd_zero_fld, State.fld, kept, ← State.fld]

/-! The duty decision (16 R581-R584). -/

/-- DUTY as the decision leaves it, from what it is, whether the samples are above the limits, and the temperature. -/
def newDuty (duty tj : Nat) (peak over' room : Bool) : Nat :=
  if peak then max 4 (duty - 4) else if over' || decide (100 < tj) then max 4 (duty - 1) else if room && decide (tj ≤ 97) then min 16 (duty + 1) else duty

theorem newDuty_le {duty : Nat} (h : duty ≤ 16) (tj : Nat) (peak over' room : Bool) : newDuty duty tj peak over' room ≤ 16 := by
  unfold newDuty
  split
  · omega
  · split
    · omega
    · split <;> omega

/-- What the decision writes of PWR_STATUS. -/
abbrev State.writeDuty (s : State) (duty tj thermal floor : Nat) : State :=
  ((((s.setFld pwrStatus PWR_STATUS.DUTY duty).setFld pwrStatus PWR_STATUS.TJ_MAX tj).setFld pwrStatus PWR_STATUS.LIMITED (flag (duty < 16))).setFld pwrStatus PWR_STATUS.THERMAL thermal).setFld
    pwrStatus PWR_STATUS.FLOOR floor

theorem State.fld_writeDuty_DUTY (s : State) {duty : Nat} (h : duty ≤ 16) (tj thermal floor : Nat) : (s.writeDuty duty tj thermal floor).fld pwrStatus PWR_STATUS.DUTY = duty := by
  simp (disch := decide) only [State.fld_setFld_other, State.fld_setFld_same]
  exact Nat.mod_eq_of_lt (Nat.lt_of_le_of_lt h (by decide))

theorem State.fld_writeDuty_LIMITED (s : State) (duty tj thermal floor : Nat) : (s.writeDuty duty tj thermal floor).fld pwrStatus PWR_STATUS.LIMITED = flag (duty < 16) := by
  simp (disch := decide) only [State.fld_setFld_other, State.fld_setFld_same]
  cases (decide (duty < 16)) <;> rfl

theorem flag_eq_one_iff (p : Prop) [Decidable p] : flag (decide p) = 1 ↔ p := by
  by_cases h : p <;> simp [flag, h]

/-- DUTY as the decision computes it. -/
theorem newDuty_low (duty tj : Nat) (peak over' room : Bool) :
    (if peak then max 4 (duty - 4) else if peak || over' || decide (100 < tj) then max 4 (duty - 1) else if room && tj ≤ 97 then min 16 (duty + 1) else duty) = newDuty duty tj peak over' room := by
  cases peak <;> rfl

/-- What the decision leaves before its interrupt: DUTY and LIMITED written, the alerts taken up. -/
theorem State.exec_dutyDecision (live : s.life = .running) {w tj : Nat} (due : s.dutyAt + 110000 ≤ s.now) :
    ∃ (run m thermal floor duty : Nat) (raise : Bool), exec (.dutyDecision w tj) s =
        .next (let v := (({ s with floorRun := run, dutyAt := s.now } : State).writeDuty duty m thermal floor).syncAlerts; if raise then v.raise 4 3 else v) ∧
      duty = newDuty (s.fld pwrStatus PWR_STATUS.DUTY) tj (s.p100Above 0 (s.fld pwrLimit PWR_LIMIT.PEAK_W)) (s.p100Above 0 (s.fld pwrLimit PWR_LIMIT.SUST_W))
        (!s.p100Above w (s.fld pwrLimit PWR_LIMIT.SUST_W)) := by
  have step : exec (.dutyDecision w tj) s = execDutyDecision w tj s := rfl
  exact ⟨_, _, _, _, _, _, step.trans (State.live_else (p := fun s => s.now < s.dutyAt + 110000) live (Nat.not_lt.2 due)), newDuty_low _ _ _ _ _⟩

end Sys2Proof.Machine

open Sys2Proof Sys2Proof.Machine

/-- Settles O28: what each command writes; of the leases' ENERGY words, that each is charged once. -/
theorem powerIsSampledAndCharged : Obligations.PowerIsSampledAndCharged := by
  unfold Obligations.PowerIsSampledAndCharged
  refine ⟨?wake, ?sample, ?cluster, ?energy⟩
  case wake =>
    intro s c live gated
    change execIslandWake c s = _
    rw [execIslandWake, State.live_run live, if_pos gated]
    rfl
  case sample =>
    intro s w live due
    have late : ¬s.now < s.powerAt + 11000 := Nat.not_lt.2 due
    let u : State := { s with fresh := s.fresh + 1, watts := (w :: s.watts).take 1000, powerAt := s.now }
    have apart : pwrStatus.addr ≠ (⟨.PKG_PIN_STATUS, selSv0, 0, 0⟩ : Reg).addr := by decide
    refine ⟨(u.setFld pwrStatus PWR_STATUS.POWER_W (((w :: s.watts).take 1000).sum / ((w :: s.watts).take 1000).length)).setFld ⟨.PKG_PIN_STATUS, selSv0, 0, 0⟩ PKG_PIN_STATUS.VIN_10MV
      (bits (Config.freeWord s.fresh).toNat 15 0), ?_, rfl, rfl, ?_, ?_, rfl, rfl⟩
    · change execPowerSample w s = _
      rw [execPowerSample, State.live_run live]
      exact if_neg late
    · rw [State.fld_setFld_ne _ _ _ _ apart, State.fld_setFld_same _ _ _ _ (by decide) (by decide)]
      rfl
    · have same : SameRegs s u [pwrStatus, ⟨.PKG_PIN_STATUS, selSv0, 0, 0⟩] := SameRegs.of_eq (SameRegs.refl s _) rfl
      exact (same.setFld _ _ List.mem_cons_self).setFld _ _ (List.mem_cons_of_mem _ List.mem_cons_self)
  case cluster =>
    intro s d c live on unused free
    change execClusterPowerOff d c s = _
    rw [execClusterPowerOff, State.live_run live]
    refine if_neg ?_
    have unbound : (List.range 4).any (fun i => (s.hcLease (4 * (4 * d.val + c.val) + i)).isSome) = false :=
      List.any_eq_false.2 fun i hi => by rw [free i (List.mem_range.1 hi)]; decide
    rw [on, unbound]
    simp only [ms, Bool.false_or, Bool.or_false]
    exact decide_eq_true_iff.not.2 (Nat.not_lt.2 unused)
  case energy =>
    intro s e x live due
    obtain ⟨mem, cores, others, -⟩ := State.charges_spec 44 (s.calibrated e x) (s.charged e x) (fun _ => State.charged_lt) (List.nodup_range.filter _) s
    have words : ∀ n, n < 256 → acct n 44 ∈ (⟨.PWR_ENERGY, selSv0, 0, 0⟩ :: (List.range 256).map (fun n => acct n 44) : List Reg) :=
      fun n hn => List.mem_cons_of_mem _ (List.mem_map_of_mem (List.mem_range.2 hn))
    refine ⟨_, State.exec_energyAccrue live due, State.count_energyAt .., (State.count_mem ..).trans ((State.noteEnergy_mem ..).trans mem), (State.count_cores ..).trans ((State.noteEnergy_cores ..).trans cores), fun n hn => ?_, ?_, ?_⟩
    · exact (State.fld_count_ne _ _ _ _ (addr_pwrEnergy_ne_acct n 44).symm).trans ((State.noteEnergy_fld ..).trans (s.fld_charges e x hn))
    · exact (s.accrued_sameRegs e x words).count _ _ List.mem_cons_self
    · refine (State.fld_count_same _ _ _ _ (by decide) (by decide)).trans ?_
      have kept := others ⟨.PWR_ENERGY, selSv0, 0, 0⟩ fun n _ => addr_pwrEnergy_ne_acct n 44
      have word : (s.charges e x).fld ⟨.PWR_ENERGY, selSv0, 0, 0⟩ PWR_ENERGY.ENERGY_UJ = s.fld ⟨.PWR_ENERGY, selSv0, 0, 0⟩ PWR_ENERGY.ENERGY_UJ := by rw [State.fld, kept, ← State.fld]
      exact congrArg (fun k => (k + x) % 2 ^ (PWR_ENERGY.ENERGY_UJ.hi + 1 - PWR_ENERGY.ENERGY_UJ.lo)) ((State.noteEnergy_fld ..).trans word)

/-- Settles O29: DUTY is `newDuty` of the samples, which keeps it at most 16; alerts and interrupts leave PWR_STATUS. -/
theorem dutyFollowsPowerAndHeat : Obligations.DutyFollowsPowerAndHeat := by
  unfold Obligations.DutyFollowsPowerAndHeat
  intro s w tj live due most
  obtain ⟨run, m, thermal, floor, duty, raise, act, isNew⟩ := State.exec_dutyDecision (w := w) (tj := tj) live due
  have le : duty ≤ 16 := isNew ▸ newDuty_le most _ _ _ _
  let u : State := { s with floorRun := run, dutyAt := s.now }
  have alerts : Aside (u.writeDuty duty m thermal floor) (u.writeDuty duty m thermal floor).syncAlerts := State.aside_syncAlerts _
  have aside : Aside (u.writeDuty duty m thermal floor) (if raise then (u.writeDuty duty m thermal floor).syncAlerts.raise 4 3 else (u.writeDuty duty m thermal floor).syncAlerts) := by
    cases raise
    · exact alerts
    · exact alerts.trans (State.aside_raise _ 4 3)
  refine ⟨_, act, aside.mem, aside.cores, ?_, ?_⟩
  · exact (aside.fld plain_pwrStatus _).trans ((u.fld_writeDuty_DUTY le _ _ _).trans isNew)
  · have written := (aside.fld plain_pwrStatus PWR_STATUS.DUTY).trans (u.fld_writeDuty_DUTY le _ _ _)
    have limited := (aside.fld plain_pwrStatus PWR_STATUS.LIMITED).trans (u.fld_writeDuty_LIMITED duty _ _ _)
    rw [written, limited]
    exact flag_eq_one_iff _
end

section
set_option Elab.async false -- one proof after the other: the whole text stands near the memory limit of the check
/-! A session's kept replies (14 R518-R521). -/
namespace Sys2Proof.Machine

variable {s : State} {k : Nat} {x : Session}

theorem State.sessions_chargePort (s : State) (n : Option Nat) (h tx v : Nat) : (s.chargePort n h tx v).sessions = s.sessions := by
  cases n <;> rfl

/-- What sending on a session leaves of the sessions: a packet number taken. -/
theorem State.sessions_sendIn (isOpen : tget? s.sessions k = some x) (seq op : Nat) (ev : Bool) (st : Status) (p d : List Byte) :
    (s.sendIn k seq op ev st p d).sessions = tset s.sessions k { x with sendPn := x.sendPn + 1 } := by
  rw [State.sendIn, isOpen]
  exact State.sessions_chargePort _ _ _ _ _

theorem State.sessions_onSession (isOpen : tget? s.sessions k = some x) (f : Session → Session) : (s.onSession k f).sessions = tset s.sessions k (f x) := by
  rw [State.onSession, isOpen]
  rfl

/-- A session as a reply leaves it. -/
def Session.replied (x : Session) (r : DcpReply) : Session :=
  { x with sendPn := x.sendPn + 1, next := r.seq + 1, cmds := x.cmds.filter (fun c => c.seq != r.seq), replies := (r :: x.replies).take (2 * x.window) }

theorem State.session_replyOne (isOpen : tget? s.sessions k = some x) (r : DcpReply) : tget? (s.replyOne k r).sessions k = some (x.replied r) := by
  have sent : tget? (s.sendIn k r.seq r.opcode false r.status r.params r.data).sessions k = some { x with sendPn := x.sendPn + 1 } := by
    rw [State.sessions_sendIn isOpen, tget?_tset_same]
  rw [State.replyOne, State.sessions_onSession sent, tget?_tset_same]
  rfl

theorem State.session_replyOne_ne (isOpen : tget? s.sessions k = some x) (r : DcpReply) {j : Nat} (h : j ≠ k) : tget? (s.replyOne k r).sessions j = tget? s.sessions j := by
  have sent : tget? (s.sendIn k r.seq r.opcode false r.status r.params r.data).sessions k = some { x with sendPn := x.sendPn + 1 } := by
    rw [State.sessions_sendIn isOpen, tget?_tset_same]
  rw [State.replyOne, State.sessions_onSession sent, tget?_tset_ne _ _ h, State.sessions_sendIn isOpen, tget?_tset_ne _ _ h]

/-- A session without commands has none to settle. -/
theorem State.settleCmds_none (isOpen : tget? s.sessions k = some x) (done : x.cmds = []) (n : Nat) : s.settleCmds k n = s := by
  cases n with
  | zero => rfl
  | succ n =>
    rw [State.settleCmds, isOpen]
    simp only [done, List.find?_nil]

/-- A reply to a session's only command is that reply alone. -/
theorem State.reply_only {c : DcpCmd} {r : DcpReply} (isOpen : tget? s.sessions k = some x) (only : x.cmds = [c]) (seq : c.seq = r.seq) : s.reply k r = s.replyOne k r := by
  have answered : x.cmds.any (fun c => c.seq == r.seq) = true := by simp [only, seq]
  have done : (x.replied r).cmds = [] := by simp [Session.replied, only, seq]
  rw [State.reply, isOpen]
  exact (if_pos answered).trans (State.settleCmds_none (State.session_replyOne isOpen r) done _)

end Sys2Proof.Machine

open Sys2Proof Sys2Proof.Machine

/-- Settles O55: a reply to the session's only command leaves `Session.replied` and settles nothing more. -/
theorem repliesAreKeptAndSent : Obligations.RepliesAreKeptAndSent := by
  unfold Obligations.RepliesAreKeptAndSent
  intro s k x c r opened only seq _
  have done : (x.replied r).cmds = [] := by simp [Session.replied, only, seq]
  rw [State.reply_only opened only seq]
  exact ⟨x.replied r, State.session_replyOne opened r, rfl, rfl, done, rfl, rfl, (s.aside_replyOne k r).mem, (s.aside_replyOne k r).cores, fun j h => State.session_replyOne_ne opened r h⟩
end

section
set_option Elab.async false -- one proof after the other: the whole text stands near the memory limit of the check
/-! Repair: cores mapped to spares, banks retired, error counters sampled (18 R615-R617). -/
namespace Sys2Proof.Machine

variable {s t : State}

/-! Registers of the compute dies and of the supervisor lie apart. -/

/-- A register of a compute die, at an offset within its die. -/
def OnDie (q : Reg) : Prop := q.sel < 4 ∧ q.name.layout.base + q.name.layout.strideI * q.i + q.name.layout.strideJ * q.j < 2 ^ 38

theorem OnDie.addr_ne_sv0 {q : Reg} (h : OnDie q) (n : RegName) (i j : Nat) : (⟨n, selSv0, i, j⟩ : Reg).addr ≠ q.addr := by
  obtain ⟨die, off⟩ := h
  simp only [Reg.addr, selSv0]
  omega

theorem ckey_die (c : CoreId) : coreDie (ckey c) < 4 := by
  have die := c.die.isLt
  have core := c.core.isLt
  simp only [coreDie, ckey, coreKey]
  omega

/-- A core's register lies on its die. -/
theorem onDie_coreReg (c : CoreId) {n : RegName} {j : Nat} (h : n.layout.base + n.layout.strideI * 127 + n.layout.strideJ * j < 2 ^ 38) : OnDie (coreReg n (ckey c) j) := by
  refine ⟨ckey_die c, ?_⟩
  have num : coreNum (ckey c) ≤ 127 := by
    simp only [coreNum]
    omega
  have := Nat.mul_le_mul_left n.layout.strideI num
  simp only [coreReg]
  omega

/-- The registers that a core's scrub resets. -/
def scrubRegs (k : Nat) : List Reg :=
  [coreReg .CORE_ECC_STALLS k, coreReg .CORE_FMT_EVENTS k, coreReg .CORE_DI_EVENT k, coreReg .CORE_DI_ROW k, coreReg .AWL_STATUS k, coreReg .ATTN_STATUS k] ++
    ((List.range 16).map (fun n => coreReg .MA_MASK_ROW k n) ++ (List.range 16).map (fun n => coreReg .MA_MASK_COL k n))

theorem onDie_scrubRegs {c : CoreId} {q : Reg} (h : q ∈ scrubRegs (ckey c)) : OnDie q := by
  simp only [scrubRegs, List.mem_append, List.mem_cons, List.not_mem_nil, or_false, List.mem_map, List.mem_range] at h
  rcases h with (rfl | rfl | rfl | rfl | rfl | rfl) | ⟨n, hn, rfl⟩ | ⟨n, hn, rfl⟩
  all_goals refine onDie_coreReg c ?_
  all_goals simp only [RegName.layout]; omega

theorem State.reg_resetRegs_apart {l : List Reg} {q : Reg} (h : ∀ r, r ∈ l → q.addr ≠ r.addr) (s : State) : (l.foldl State.resetReg s).reg q = s.reg q :=
  List.foldlRecOn (motive := fun t => t.reg q = s.reg q) _ _ rfl fun (t : State) e r hr => (t.reg_resetReg_ne (h r hr)).trans e

/-! A core mapped to a spare (18 R615). -/

/-- The error counters of a core's banks. -/
def eccRegs (k : Nat) : List Reg := (List.range 22).map (fun b => coreReg .ROW_ECC_CNT k b)

theorem onDie_eccRegs {c : CoreId} {q : Reg} (h : q ∈ eccRegs (ckey c)) : OnDie q := by
  obtain ⟨n, hn, rfl⟩ := List.mem_map.1 h
  have low := List.mem_range.1 hn
  refine onDie_coreReg c ?_
  simp only [RegName.layout]
  omega

theorem State.foldl_eccRegs (s : State) (k : Nat) : (eccRegs k).foldl State.resetReg s = (List.range 22).foldl (fun s b => s.resetReg (coreReg .ROW_ECC_CNT k b)) s := by
  rw [eccRegs, List.foldl_map]

/-- Registers reset one after another, and nothing else. -/
theorem State.resetRegs_keeps (s : State) (l : List Reg) : (l.foldl State.resetReg s).absent = s.absent ∧ (l.foldl State.resetReg s).marked = s.marked := by
  obtain ⟨⟨g, n, e⟩, -⟩ := OnlyRegs.resetRegs s l
  rw [e]
  exact ⟨rfl, rfl⟩

/-- A scrub zeroes a core's rows, state and registers, and leaves the rest of the unit. -/
theorem State.scrubCore_spec (s : State) (k : Nat) :
    (s.scrubCore k).absent = s.absent ∧ (s.scrubCore k).marked = s.marked ∧ ∀ q : Reg, (∀ r, r ∈ scrubRegs k → q.addr ≠ r.addr) → (s.scrubCore k).reg q = s.reg q := by
  let u : State := ({ s with mem := s.mem.zeroRows (coreRow k) 9472 } : State).onCore k (fun c =>
    { Core.reset with charge := c.charge, lastRing := c.lastRing, frozen := c.frozen, freezeAt := c.freezeAt, freeAt := c.freeAt, gated := c.gated, scrubDue := c.scrubDue, switchAt := c.switchAt })
  have form : s.scrubCore k = (scrubRegs k).foldl State.resetReg u := rfl
  obtain ⟨absent, marked⟩ := u.resetRegs_keeps (scrubRegs k)
  rw [form]
  exact ⟨absent, marked, fun q apart => State.reg_resetRegs_apart apart u⟩

/-- What is forgotten with a core is its error history alone. -/
theorem State.forgotten (s : State) (r : Reg) (g : Tab (Nat × Nat)) : ∃ a b c, ({ s.rasForget r with rasSeen := g } : State) = { s with rasCorr := a, uncRows := b, rasSeen := c } := ⟨_, _, _, rfl⟩

/-- A core as a scrub and the end of its clock leave it. -/
def State.scrubGated (s : State) (k : Nat) : State := (s.scrubCore k).onCore k (fun c => { c with gated := true })

theorem State.scrubGated_spec (s : State) (k : Nat) :
    (s.scrubGated k).absent = s.absent ∧ (s.scrubGated k).marked = s.marked ∧ ∀ q : Reg, (∀ r, r ∈ scrubRegs k → q.addr ≠ r.addr) → (s.scrubGated k).reg q = s.reg q := by
  have spec := s.scrubCore_spec k
  unfold State.scrubGated
  generalize s.scrubCore k = u at spec
  exact spec

theorem State.mapCore_eq (s : State) (k : Nat) : ∃ a b c, s.mapCore k = { (eccRegs k).foldl State.resetReg (s.scrubGated k) with rasCorr := a, uncRows := b, rasSeen := c } := by
  rw [State.foldl_eccRegs]
  unfold State.mapCore
  exact State.forgotten ((List.range 22).foldl (fun s b => s.resetReg (coreReg .ROW_ECC_CNT k b)) (s.scrubGated k)) (coreReg .ROW_ECC_CNT k) _

theorem State.mapCore_spec (s : State) (k : Nat) :
    (s.mapCore k).absent = s.absent ∧ (s.mapCore k).marked = s.marked ∧
      ∀ q : Reg, (∀ r, r ∈ scrubRegs k → q.addr ≠ r.addr) → (∀ r, r ∈ eccRegs k → q.addr ≠ r.addr) → (s.mapCore k).reg q = s.reg q := by
  obtain ⟨absent, marked, regs⟩ := s.scrubGated_spec k
  obtain ⟨a, b, c, form⟩ := s.mapCore_eq k
  obtain ⟨absent', marked'⟩ := (s.scrubGated k).resetRegs_keeps (eccRegs k)
  have kept := fun (q : Reg) (h : ∀ r, r ∈ eccRegs k → q.addr ≠ r.addr) => State.reg_resetRegs_apart h (s.scrubGated k)
  rw [form]
  generalize (eccRegs k).foldl State.resetReg (s.scrubGated k) = v at absent' marked' kept
  exact ⟨absent'.trans absent, marked'.trans marked, fun q scrubbed counted => (kept q counted).trans (regs q scrubbed)⟩

/-- A core due for a spare, exposed, unbound and not being scrubbed. -/
def State.spareDue (s : State) (c : CoreId) : Prop :=
  s.life = .running ∧ s.marked.contains (ckey c) = true ∧ s.exposed c.die.val c.core.val = true ∧ s.fld (tcBind (ckey c)) TC_BIND.MODE = 0 ∧ (s.core (ckey c)).scrubDue = none

theorem State.exec_spareCoreMap {c : CoreId} (h : s.spareDue c) :
    exec (.spareCoreMap c) s =
      (let u : State := { s with marked := sdel s.marked (ckey c) }
      if s.fld (rasSpare c.die.val) RAS_SPARE.SPARES_LEFT == 0 then .next (({ u with absent := sins s.absent (ckey c) } : State).bump (rasSpare c.die.val) RAS_SPARE.UNCOVERED 1)
      else .next ((u.setFld (rasSpare c.die.val) RAS_SPARE.SPARES_LEFT (s.fld (rasSpare c.die.val) RAS_SPARE.SPARES_LEFT - 1)).mapCore (ckey c))) := by
  obtain ⟨live, marked, exposed, free, idle⟩ := h
  change execSpareCoreMap c s = _
  rw [execSpareCoreMap, State.live_run live]
  exact if_neg (by rw [marked, exposed, free, idle]; simp)

theorem State.exposed_absent (s : State) (c : CoreId) (h : s.absent.contains (ckey c) = true) : s.exposed c.die.val c.core.val = false := by
  have absent : s.absent.contains (coreKey c.die.val c.core.val) = true := h
  rw [State.exposed, absent]
  simp

/-! Counters sampled (18 R615). -/

theorem State.rasAt_spareWrite (s : State) (d k v : Nat) : (s.spareWrite d k v).1.rasAt = s.rasAt := by
  unfold State.spareWrite
  split
  · split <;> rfl
  · rfl
  · rfl

theorem State.rasAt_rasAct (s : State) (r : Reg) : (s.rasAct r).rasAt = s.rasAt := by
  unfold State.rasAct
  split
  · rfl
  · split <;> rfl
  · split
    · exact s.rasAt_spareWrite _ _ _
    · rfl
  · rfl

theorem State.rasAt_rasTrigger (s : State) (r : Reg) : (s.rasTrigger r).rasAt = s.rasAt := by
  unfold State.rasTrigger
  split
  · exact s.rasAt_rasAct r
  · rfl

theorem State.exec_rasSample (live : s.life = .running) (stage : s.stage = 9) (due : s.rasAt + 11000000000 ≤ s.now) : ∃ t, exec .rasSample s = .next t ∧ t.rasAt = s.now := by
  have early : ¬(s.stage != 9 || decide (s.now < s.rasAt + ms 10000)) = true := by
    have bound : ms 10000 = 11000000000 := rfl
    rw [stage, bound, bne_self_eq_false, Bool.false_or]
    exact decide_eq_true_iff.not.2 (Nat.not_lt.2 due)
  have step : exec .rasSample s = execRasSample s := rfl
  refine ⟨_, step.trans ((State.live_run live).trans (if_neg early)), ?_⟩
  refine List.foldlRecOn (motive := fun t : State => t.rasAt = s.now) _ _ ?_ fun t at' r _ => (t.rasAt_rasTrigger r).trans at'
  exact List.foldlRecOn (motive := fun p : State × List Reg => p.1.rasAt = s.now) _ _ rfl fun _ at' _ _ => at'

end Sys2Proof.Machine

open Sys2Proof Sys2Proof.Machine

/-- Settles O34: a mapped core loses its own registers and contents alone, which RAS_SPARE is none of; a sample's triggers leave its time. -/
theorem sparesAndRetirements : Obligations.SparesAndRetirements := by
  unfold Obligations.SparesAndRetirements
  refine ⟨?spare, ?none, ?bank, fun s live stage due => State.exec_rasSample live stage due⟩
  case spare =>
    intro s c live marked exposed free idle left
    let u : State := ({ s with marked := sdel s.marked (ckey c) } : State).setFld (rasSpare c.die.val) RAS_SPARE.SPARES_LEFT (s.fld (rasSpare c.die.val) RAS_SPARE.SPARES_LEFT - 1)
    obtain ⟨absent, mark, regs⟩ := u.mapCore_spec (ckey c)
    refine ⟨u.mapCore (ckey c), (State.exec_spareCoreMap ⟨live, marked, exposed, free, idle⟩).trans (if_neg fun e => left (beq_iff_eq.1 e)), ?_, absent, mark⟩
    have kept : (u.mapCore (ckey c)).fld (rasSpare c.die.val) RAS_SPARE.SPARES_LEFT = u.fld (rasSpare c.die.val) RAS_SPARE.SPARES_LEFT :=
      congrArg (fun w : Word => bits w.toNat RAS_SPARE.SPARES_LEFT.hi RAS_SPARE.SPARES_LEFT.lo)
        (regs _ (fun r h => (onDie_scrubRegs h).addr_ne_sv0 _ _ _) (fun r h => (onDie_eccRegs h).addr_ne_sv0 _ _ _))
    refine kept.trans ((State.fld_setFld_same _ _ _ _ (by decide) (by decide)).trans (Nat.mod_eq_of_lt ?_))
    exact Nat.lt_of_le_of_lt (Nat.sub_le _ _) (bits_lt _ _ _)
  case none =>
    intro s c live marked exposed free idle left
    let u : State := { s with marked := sdel s.marked (ckey c), absent := sins s.absent (ckey c) }
    refine ⟨u.bump (rasSpare c.die.val) RAS_SPARE.UNCOVERED 1, (State.exec_spareCoreMap ⟨live, marked, exposed, free, idle⟩).trans (if_pos (beq_iff_eq.2 left)), rfl, ?_, ?_, rfl⟩
    · exact State.exposed_absent _ c (List.contains_iff_mem.2 ((mem_sins s.absent (ckey c) (ckey c)).2 (.inl rfl)))
    · have same : SameRegs s u [rasSpare c.die.val] := SameRegs.of_regs rfl
      exact same.bump _ _ List.mem_cons_self
  case bank =>
    intro s d b live due retired free few
    have valid : (List.range 32).any (fun p => s.fld (sdmPart d.val p) SDM_PART.VALID == 1 && decide (s.fld (sdmPart d.val p) SDM_PART.FIRST_BANK ≤ b.val) &&
        decide (b.val < s.fld (sdmPart d.val p) SDM_PART.FIRST_BANK + s.fld (sdmPart d.val p) SDM_PART.BANKS)) = false :=
      List.any_eq_false.2 fun p hp => by rw [free p (List.mem_range.1 hp)]; simp
    let u (w : Tab (List CacheLine)) : State := { s with retireDue := s.retireDue.erase (d.val, b.val), retired := s.retired ++ [(d.val, b.val)], wcache := w }
    have act : ∃ w, exec (.bankRetire d b) s = .next ((u w).bump (rasSpare d.val) RAS_SPARE.BANKS_RETIRED 1) := by
      have step : exec (.bankRetire d b) s = .next ((if 96 - s.carve d.val ≤ b.val then u (tset s.wcache d.val ((tget [] s.wcache d.val).filter (fun l => s.lineBank d.val l.addr != b.val))) else u s.wcache).bump
          (rasSpare d.val) RAS_SPARE.BANKS_RETIRED 1) := by
        change execBankRetire d b s = _
        rw [execBankRetire, State.live_run live]
        refine if_neg ?_
        rw [due, retired, valid]
        decide
      rw [step]
      split
      · exact ⟨_, rfl⟩
      · exact ⟨_, rfl⟩
    obtain ⟨w, act⟩ := act
    refine ⟨_, act, rfl, ?_, ?_, rfl⟩
    · refine (State.fld_bump_same _ _ _ _ (by decide) (by decide)).trans ?_
      have width : RAS_SPARE.BANKS_RETIRED.hi + 1 - RAS_SPARE.BANKS_RETIRED.lo = 7 := rfl
      have kept : (u w).fld (rasSpare d.val) RAS_SPARE.BANKS_RETIRED = s.fld (rasSpare d.val) RAS_SPARE.BANKS_RETIRED := rfl
      rw [width, kept, satAdd]
      omega
    · have same : SameRegs s (u w) [rasSpare d.val] := SameRegs.of_regs rfl
      exact same.bump _ _ List.mem_cons_self
end

section
set_option Elab.async false -- one proof after the other: the whole text stands near the memory limit of the check
/-! Prompt, rollout, data and code commands (14 R523, R525). -/
namespace Sys2Proof.Machine

variable {s u t : State} {q : DcpHdr} {o plen dlen k : Nat} {named dlenOk paramOk : Bool} {x : Session} {st : Status} {params data : List Byte}

/-- A command that is performed runs only on a unit that runs. -/
theorem Performs.live (h : Performs s q o plen dlen named k x u) : s.life = .running := h.1

/-- The length of the data of a command that is performed is that of its header. -/
theorem Performs.dlen_eq (h : Performs s q o plen dlen named k x u) : q.dlen = dlen := by
  obtain ⟨-, -, -, -, -, -, eq, -, -⟩ := h
  exact eq

/-- A command whose operation replies is answered with that reply. -/
theorem Performs.replies (h : Performs s q o plen dlen named k x u) (hd : dlenOk = true) (hp : paramOk = true) (bound : Nat) {act : State → Nat → Session → State × DcpOut}
    (e : act u k x = (t, .reply st params data)) : s.live (fun s => .next (s.dcp q o plen dlenOk paramOk named bound act)) = .next (t.reply k (replyOf q o st params data)) := by
  rw [State.live_run h.live, h.dcp hd hp bound act, e]
  rfl

theorem State.promptIn_new {n id : Nat} (first : s.prompts.any (fun p => p.lease == n && p.id == id && p.more) = false) (ad mx : Nat) (more : Bool) (text : List Byte) :
    (s.promptIn n id ad mx more text).prompts = s.prompts ++ [⟨n, id, ad, mx, more, text⟩] := by
  rw [State.promptIn, first]
  rfl

end Sys2Proof.Machine

open Sys2Proof Sys2Proof.Machine

/-- Settles O59: each command is performed and answered with what its operation replies. -/
theorem serviceCommandsAct : Obligations.ServiceCommandsAct := by
  unfold Obligations.ServiceCommandsAct
  refine ⟨?submit, fun s n id ad mx more text first => State.promptIn_new first ad mx more text, ?fetch, ?push, ?load, ?limits⟩
  case submit =>
    intro s q id ad mx more text k x u h some few low high
    exact h.replies (by simp [h.dlen_eq, some, few]) (by simp [low, high]) _ rfl
  case fetch =>
    intro s q id mx k x u c h low high found fits
    refine h.replies (by simp [h.dlen_eq]) (by simp [low, high]) _ ?_
    simp only [found]
    exact if_neg (Nat.not_lt.2 fits)
  case push =>
    intro s q st n data k x u h some few low count
    refine ⟨_, h.replies (by simp [h.dlen_eq, some, few]) (by rw [decide_eq_true low, decide_eq_true count]; rfl) _ rfl, ?_, rfl, rfl⟩
    simp only [State.stream, tget_tset_same]
  case load =>
    intro s q slot off total fin chunk k x u h some few low size runs
    refine h.replies (by simp [h.dlen_eq, some, few]) (by simp [low, size]) _ ?_
    rw [runs]
    rfl
  case limits =>
    intro s q slot tm heap k x u h low least most small large whole
    exact h.replies (by simp [h.dlen_eq]) (by rw [decide_eq_true low, decide_eq_true least, decide_eq_true most, decide_eq_true small, decide_eq_true large, whole]; rfl) _ rfl
end

section
set_option Elab.async false -- one proof after the other: the whole text stands near the memory limit of the check
/-! Debug access: grants, perturbation, injection and the test access port (19 R642-R652). -/
namespace Sys2Proof.Machine

variable {s t : State} {a : Actor} {v : Word}

/-! Verify and lock (19 R642-R645). -/

theorem State.svWrite_DBG_CTRL (s : State) (a : Actor) (v : Nat) : s.svWrite a ⟨.DBG_CTRL, selSv0, 0, 0⟩ v = s.dbgCtrlWrite v := rfl

theorem Writable.dbgCtrl {w : Nat} {st : Status} (h : Writable s a ⟨.DBG_CTRL, selSv0, 0, 0⟩) (e : s.dbgCtrlWrite w = (t, st)) :
    s.writeCmd a (⟨.DBG_CTRL, selSv0, 0, 0⟩ : Reg).addr w = .next (t.answer st 0) :=
  h.next ((s.writeAct_sv a w ⟨rfl, rfl, rfl⟩).trans ((s.svWrite_DBG_CTRL a w).trans e))

theorem State.dbgCtrlWrite_verify {w : Nat} (set : bitAt w DBG_CTRL.VERIFY.lo = true) (clear : bitAt w DBG_CTRL.LOCK.lo = false) : s.dbgCtrlWrite w = s.dbgVerify := by
  rw [State.dbgCtrlWrite, set, clear]
  rfl

theorem State.dbgCtrlWrite_lock {w : Nat} (clear : bitAt w DBG_CTRL.VERIFY.lo = false) (set : bitAt w DBG_CTRL.LOCK.lo = true) : s.dbgCtrlWrite w = (s.dbgLock, .ok) := by
  rw [State.dbgCtrlWrite, set, clear]
  rfl

theorem State.granted_none (h : s.fld dbgStatus DBG_STATUS.GRANTED = 0) (k : Nat) : s.granted k = false := by
  rw [State.granted, h, bitAt_eq_testBit, Nat.zero_testBit]

/-! A verification's end (19 R643, R644). -/

/-- A new nonce is drawn into its own four words. -/
theorem State.newNonce_spec (s : State) :
    s.newNonce.mem = s.mem ∧ s.newNonce.cores = s.cores ∧ s.newNonce.verifyAt = s.verifyAt ∧ ∀ f, s.newNonce.fld dbgStatus f = s.fld dbgStatus f := by
  refine List.foldlRecOn (motive := fun t : State => t.mem = s.mem ∧ t.cores = s.cores ∧ t.verifyAt = s.verifyAt ∧ ∀ f, t.fld dbgStatus f = s.fld dbgStatus f) _ _ ⟨rfl, rfl, rfl, fun _ => rfl⟩ ?_
  rintro t ⟨mem, cores, done, kept⟩ k -
  refine ⟨mem, cores, done, fun f => Eq.trans ?_ (kept f)⟩
  have apart : dbgStatus.addr ≠ (⟨.DBG_NONCE, selSv0, k, 0⟩ : Reg).addr := by
    simp only [Reg.addr, dbgStatus, RegName.layout]
    omega
  simp only [State.fld, State.reg_setReg_ne _ _ apart]
  rfl

theorem State.tokenFault_lt (s : State) : s.tokenFault < 8 := by
  unfold State.tokenFault
  dsimp only
  repeat' split
  all_goals decide

/-- What a verification's end writes of DBG_STATUS. -/
abbrev State.verified (s : State) (bad : Nat) : State :=
  ((({ s with verifyAt := none } : State).setFld dbgStatus DBG_STATUS.BUSY 0).setFld dbgStatus DBG_STATUS.RESULT (if bad == 0 then 1 else 2)).setFld dbgStatus DBG_STATUS.DETAIL bad

theorem State.verifyEnd_spec (s : State) :
    s.verifyEnd.verifyAt = none ∧ s.verifyEnd.fld dbgStatus DBG_STATUS.BUSY = 0 ∧ s.verifyEnd.fld dbgStatus DBG_STATUS.RESULT = (if s.tokenFault = 0 then 1 else 2) ∧
      s.verifyEnd.fld dbgStatus DBG_STATUS.DETAIL = s.tokenFault ∧ (s.tokenFault ≠ 0 → s.verifyEnd.fld dbgStatus DBG_STATUS.GRANTED = s.fld dbgStatus DBG_STATUS.GRANTED) ∧ s.verifyEnd.mem = s.mem ∧
      s.verifyEnd.cores = s.cores := by
  have low := s.tokenFault_lt
  by_cases good : s.tokenFault = 0
  · let u : State := (s.verified s.tokenFault).setFld dbgStatus DBG_STATUS.GRANTED (leNat (imgField s.token 8 4))
    have form : s.verifyEnd = u.newNonce := congrArg State.newNonce (if_pos (beq_iff_eq.2 good))
    obtain ⟨mem, cores, done, kept⟩ := u.newNonce_spec
    rw [form]
    refine ⟨done, ?_, ?_, ?_, fun bad => absurd good bad, mem, cores⟩
    · rw [kept]
      simp (disch := decide) only [u, State.fld_setFld_other, State.fld_setFld_same]
      rfl
    · rw [kept]
      simp (disch := decide) only [u, State.fld_setFld_other, State.fld_setFld_same, good]
      rfl
    · rw [kept]
      simp (disch := decide) only [u, State.fld_setFld_other, State.fld_setFld_same]
      exact Nat.mod_eq_of_lt low
  · have form : s.verifyEnd = (s.verified s.tokenFault).newNonce := congrArg State.newNonce (if_neg fun e => good (beq_iff_eq.1 e))
    obtain ⟨mem, cores, done, kept⟩ := (s.verified s.tokenFault).newNonce_spec
    rw [form]
    have two : (s.tokenFault == 0) = false := beq_eq_false_iff_ne.2 good
    refine ⟨done, ?_, ?_, ?_, fun _ => ?_, mem, cores⟩
    · rw [kept]
      simp (disch := decide) only [State.fld_setFld_other, State.fld_setFld_same]
      rfl
    · rw [kept, if_neg good]
      simp (disch := decide) only [State.fld_setFld_other, State.fld_setFld_same, two]
      rfl
    · rw [kept]
      simp (disch := decide) only [State.fld_setFld_same]
      exact Nat.mod_eq_of_lt low
    · rw [kept]
      simp (disch := decide) only [State.fld_setFld_other]
      rfl

/-! Perturbation and injection (19 R648, R652). -/

theorem pert_xing_named (d : Die) : (match Reg.ofAddr (BitVec.ofNat 48 (⟨.PERT_XING, selCd d.val, 0, 0⟩ : Reg).addr).toNat with | some r => r.name.isPert | none => false) = true := by
  revert d
  decide

theorem pert_xing_addr (d : Die) : (BitVec.ofNat 48 (⟨.PERT_XING, selCd d.val, 0, 0⟩ : Reg).addr).toNat = (⟨.PERT_XING, selCd d.val, 0, 0⟩ : Reg).addr := by
  revert d
  decide

/-- The old value kept of a perturbation register is none of the registers. -/
theorem State.pertKeep_reads (s : State) (r q : Reg) : (s.pertKeep r).reg q = s.reg q ∧ (s.pertKeep r).thisCycle q = s.thisCycle q := by
  unfold State.pertKeep
  split
  · split <;> exact ⟨rfl, rfl⟩
  · exact ⟨rfl, rfl⟩

theorem State.pertWrite_xing (granted : s.granted 0 = true) (whole : isDcp a = false) (d v : Nat) :
    s.pertWrite a ⟨.PERT_XING, d, 0, 0⟩ v =
      ((s.pertKeep ⟨.PERT_XING, d, 0, 0⟩).setReg ⟨.PERT_XING, d, 0, 0⟩ (BitVec.ofNat 64 (RegName.written .PERT_XING (s.reg ⟨.PERT_XING, d, 0, 0⟩).toNat v (s.thisCycle ⟨.PERT_XING, d, 0, 0⟩))), .ok) := by
  obtain ⟨reg, cycle⟩ := s.pertKeep_reads ⟨.PERT_XING, d, 0, 0⟩ ⟨.PERT_XING, d, 0, 0⟩
  refine (if_neg (by rw [granted]; decide)).trans ((if_neg ?_).trans ((if_neg (by rw [whole]; exact Bool.false_ne_true)).trans ?_))
  · simp only [show ((RegName.PERT_XING == RegName.PERT_LINKCR) || (RegName.PERT_XING == RegName.PERT_CREDIT)) = false from rfl, Bool.false_and]
    exact Bool.false_ne_true
  · rw [reg, cycle]

theorem State.writeAct_pert (s : State) (a : Actor) (d v : Nat) : s.writeAct a ⟨.PERT_XING, d, 0, 0⟩ v = s.pertWrite a ⟨.PERT_XING, d, 0, 0⟩ v :=
  (if_neg (show ¬(RegName.PERT_XING.ignored && _) = true from Bool.false_ne_true)).trans (if_pos rfl)

theorem State.svWrite_INJ_CTRL (s : State) (a : Actor) (v : Nat) : s.svWrite a injCtrl v = s.injCtrlWrite a v := rfl

theorem State.injCtrlWrite_armed {w : Nat} {x : Inject} (granted : s.granted 1 = true) (arm : bitAt w INJ_CTRL.ARM.lo = true) (sound : s.injArm w = .ok x) :
    s.injCtrlWrite a w = (({ s with inject := some x } : State).setReg injCtrl (BitVec.ofNat 64 (RegName.written .INJ_CTRL (s.reg injCtrl).toNat w)), .ok) := by
  refine (if_neg (by rw [granted]; decide)).trans ((if_pos arm).trans ?_)
  rw [sound]

end Sys2Proof.Machine

open Sys2Proof Sys2Proof.Machine

/-- Settles O30: each command reaches the rule of its register, and each rule is cited by what it leaves of DBG_STATUS, the arming and the perturbation registers. -/
theorem debugGrantsAndInjections : Obligations.DebugGrantsAndInjections := by
  unfold Obligations.DebugGrantsAndInjections
  refine ⟨?verify, ?complete, ?lock, ?pert, ?arm, ?credit, ?bypass, ?privileged⟩
  case verify =>
    intro s a v hw clear ungranted idle
    refine hw.dbgCtrl ((State.dbgCtrlWrite_verify (bitAt_setBit_same ..) ((bitAt_setBit_apart _ _ (by decide)).trans clear)).trans (if_neg ?_))
    rw [ungranted, idle]
    decide
  case complete =>
    intro s c live running
    refine ⟨s.verifyEnd, ?_, s.verifyEnd_spec⟩
    change execVerifyComplete s = _
    rw [execVerifyComplete, State.live_run live, running]
    rfl
  case lock =>
    intro s a v hw clear
    have ended : s.dbgLock.fld dbgStatus DBG_STATUS.GRANTED = 0 := (State.fld_setFld_same _ _ _ _ (by decide) (by decide)).trans rfl
    refine ⟨s.dbgLock, hw.dbgCtrl (State.dbgCtrlWrite_lock ((bitAt_setBit_apart _ _ (by decide)).trans clear) (bitAt_setBit_same ..)), rfl, ended, State.granted_none ended, rfl, rfl⟩
  case pert =>
    intro s a d v hw granted whole
    have step : exec (.pertWrite a (BitVec.ofNat 48 (⟨.PERT_XING, selCd d.val, 0, 0⟩ : Reg).addr) v) s = s.writeCmd a (BitVec.ofNat 48 (⟨.PERT_XING, selCd d.val, 0, 0⟩ : Reg).addr).toNat v.toNat :=
      if_pos (pert_xing_named d)
    rw [step, pert_xing_addr d]
    exact hw.next ((s.writeAct_pert a _ _).trans (State.pertWrite_xing granted whole _ _))
  case arm =>
    intro s a v x hw granted sound
    have act := State.injCtrlWrite_armed (a := a) granted (bitAt_setBit_same v.toNat INJ_CTRL.ARM.lo true) sound
    refine ⟨_, hw.next ((s.writeAct_sv a _ ⟨rfl, rfl, rfl⟩).trans ((s.svWrite_INJ_CTRL a _).trans act)), rfl, ?_, rfl, rfl⟩
    have same : SameRegs s { s with inject := some x } [injCtrl] := SameRegs.of_regs rfl
    exact same.setReg _ List.mem_cons_self
  case credit =>
    intro s d live
    change execCreditHoldEnd (.links d) s = _
    rw [execCreditHoldEnd, State.live_run live]
  case bypass =>
    intro s powered
    have on : ¬(!s.powered) = true := by rw [powered]; decide
    exact ⟨if_neg on, if_neg on⟩
  case privileged =>
    intro s x v powered granted
    have on : ¬(!s.powered) = true := by rw [powered]; decide
    exact ⟨(if_neg on).trans (if_pos granted), (if_neg on).trans (if_pos granted)⟩
end

section
set_option Elab.async false -- one proof after the other: the whole text stands near the memory limit of the check
/-! What sending packets leaves: the account words, what waits, the credits and the wire (11 R425, 15 R557). -/
namespace Sys2Proof.Machine

variable {s t u : State}

/-- Only what sending touches differs: packets that wait, arbitration, credits, the wire, and of the registers the account words. -/
def Sent (s t : State) : Prop :=
  (∃ g e a p w f, t = { s with regs := g, egress := e, arbiters := a, spent := p, wire := w, freed := f }) ∧ SameRegs s t accounts

theorem Sent.refl (s : State) : Sent s s := ⟨⟨s.regs, s.egress, s.arbiters, s.spent, s.wire, s.freed, rfl⟩, SameRegs.refl s _⟩

theorem Sent.trans (a : Sent s t) (b : Sent t u) : Sent s u := by
  obtain ⟨⟨g, e, x, p, w, f, rfl⟩, a⟩ := a
  obtain ⟨⟨g', e', x', p', w', f', rfl⟩, b⟩ := b
  exact ⟨⟨g', e', x', p', w', f', rfl⟩, a.trans b⟩

theorem Sent.mem (h : Sent s t) : t.mem = s.mem := by obtain ⟨⟨_, _, _, _, _, _, rfl⟩, -⟩ := h; rfl
theorem Sent.cores (h : Sent s t) : t.cores = s.cores := by obtain ⟨⟨_, _, _, _, _, _, rfl⟩, -⟩ := h; rfl
theorem Sent.announcedAt (h : Sent s t) : t.announcedAt = s.announcedAt := by obtain ⟨⟨_, _, _, _, _, _, rfl⟩, -⟩ := h; rfl
theorem Sent.reclaimDue (h : Sent s t) : t.reclaimDue = s.reclaimDue := by obtain ⟨⟨_, _, _, _, _, _, rfl⟩, -⟩ := h; rfl

theorem acct_mem_accounts (n w : Nat) : (acct n w).addr ∈ accounts.map Reg.addr := by
  refine List.mem_map_of_mem (List.mem_flatMap.2 ⟨n % 256, List.mem_range.2 (Nat.mod_lt _ (by decide)), List.mem_map.2 ⟨w % 64, List.mem_range.2 (Nat.mod_lt _ (by decide)), ?_⟩⟩)
  simp only [acct, Nat.mod_mod]

/-- A register that no account word is. -/
theorem not_account {q : Reg} (h : ∀ n w, q.addr ≠ (acct n w).addr) : q.addr ∉ accounts.map Reg.addr := by
  intro mem
  obtain ⟨r, hr, e⟩ := List.mem_map.1 mem
  obtain ⟨n, -, hr⟩ := List.mem_flatMap.1 hr
  obtain ⟨w, -, rfl⟩ := List.mem_map.1 hr
  exact h n w e.symm

theorem Sent.fld (h : Sent s t) {q : Reg} (apart : ∀ n w, q.addr ≠ (acct n w).addr) (f : Fld) : t.fld q f = s.fld q f := h.2.fld f (not_account apart)

theorem State.sent_charge (s : State) (n w v : Nat) : Sent s (s.charge n w v) := by
  refine ⟨⟨_, s.egress, s.arbiters, s.spent, s.wire, s.freed, rfl⟩, fun x hx => ?_⟩
  have apart : x ≠ (acct n w).addr := fun e => hx (e ▸ acct_mem_accounts n w)
  exact tget?_tset_ne _ _ apart

theorem Sent.withSpent (h : Sent s t) (p : Tab Nat) : Sent s { t with spent := p } := h.trans ⟨⟨t.regs, t.egress, t.arbiters, p, t.wire, t.freed, rfl⟩, SameRegs.of_regs rfl⟩

theorem State.sent_freeCells (s : State) (q vc cls n : Nat) : Sent s (s.freeCells q vc cls n) := ⟨⟨s.regs, s.egress, s.arbiters, s.spent, s.wire, _, rfl⟩, SameRegs.of_regs rfl⟩

theorem State.sent_putOnWire (s : State) (q : Nat) (e : Egress) : Sent s (s.putOnWire q e) := by
  let u : State := { s with spent := tset s.spent (creditKey q e.pkt.vc.val (pktClass e.pkt)) (tget 0 s.spent (creditKey q e.pkt.vc.val (pktClass e.pkt)) + pktCells e.pkt), wire := tset s.wire q (s.framed q e.pkt) }
  have wired : Sent s u := ⟨⟨s.regs, s.egress, s.arbiters, _, _, s.freed, rfl⟩, SameRegs.of_regs rfl⟩
  have charged : Sent s (if pktCharged e.pkt then u.charge e.pkt.lease.val (12 + q) (frameBytes e.pkt) else u) := by
    split
    · exact wired.trans (u.sent_charge _ _ _)
    · exact wired
  unfold State.putOnWire
  dsimp only
  split
  · exact charged.trans (State.sent_freeCells ..)
  · exact charged

theorem State.sent_sendEgress (s : State) : Sent s s.sendEgress := by
  unfold State.sendEgress
  dsimp only
  split
  · exact Sent.refl s
  · split
    · exact Sent.refl s
    · next x _ =>
      refine Sent.trans ?_ (State.sent_putOnWire ..)
      exact ⟨⟨s.regs, _, _, s.spent, s.wire, s.freed, rfl⟩, SameRegs.of_regs rfl⟩

theorem State.sent_drainEgress (s : State) : Sent s s.drainEgress := by
  unfold State.drainEgress
  generalize s.egress.length = n
  induction n with
  | zero => exact Sent.refl s
  | succ n ih => exact ih.trans (State.sent_sendEgress _)

/-- Packets given to the egress, and what may leave. -/
theorem State.sent_enqueue (s : State) (l : List Egress) : Sent s ({ s with egress := l } : State).drainEgress :=
  Sent.trans (t := { s with egress := l }) ⟨⟨s.regs, l, s.arbiters, s.spent, s.wire, s.freed, rfl⟩, SameRegs.of_regs rfl⟩ (State.sent_drainEgress _)

theorem State.sent_emit (s : State) (p : DftPacket) : Sent s (s.emit p) := by
  unfold State.emit
  split
  · exact Sent.refl s
  · exact s.sent_enqueue _

theorem State.sent_sendLink (s : State) (q : Fin 16) (l : List Byte) : Sent s (s.sendLink q l) := by
  unfold State.sendLink
  split
  · exact s.sent_enqueue _
  · exact Sent.refl s

theorem State.sent_creditIn (s : State) (q credit : Nat) : Sent s (s.creditIn q credit) := by
  unfold State.creditIn
  dsimp only
  split
  · exact Sent.refl s
  · exact ((Sent.refl s).withSpent _).trans (State.sent_drainEgress _)

/-! A frame taken in at a peer port (11 R422, R425). -/

/-- Only what a frame taken in touches differs: the FEC counts of its port, the account words and what sending touches. -/
def Heard (q : Nat) (s t : State) : Prop :=
  (∃ g n r e a p w f, t = { s with regs := g, latest := n, fecRecent := r, egress := e, arbiters := a, spent := p, wire := w, freed := f }) ∧ SameRegs s t (peerPort .PEER_PORT_ERR q :: accounts)

theorem SameRegs.cons {rs : List Reg} (h : SameRegs s t rs) (r : Reg) : SameRegs s t (r :: rs) := fun x hx => h x fun m => hx (List.mem_cons_of_mem _ m)

theorem Sent.heard (h : Sent s t) (q : Nat) : Heard q s t := by
  obtain ⟨⟨g, e, a, p, w, f, rfl⟩, h⟩ := h
  exact ⟨⟨g, s.latest, s.fecRecent, e, a, p, w, f, rfl⟩, h.cons _⟩

theorem Heard.trans {q : Nat} (a : Heard q s t) (b : Heard q t u) : Heard q s u := by
  obtain ⟨⟨g, n, r, e, x, p, w, f, rfl⟩, a⟩ := a
  obtain ⟨⟨g', n', r', e', x', p', w', f', rfl⟩, b⟩ := b
  exact ⟨⟨g', n', r', e', x', p', w', f', rfl⟩, a.trans b⟩

theorem Heard.refl (q : Nat) (s : State) : Heard q s s := (Sent.refl s).heard q

theorem Heard.mem {q : Nat} (h : Heard q s t) : t.mem = s.mem := by obtain ⟨⟨_, _, _, _, _, _, _, _, rfl⟩, -⟩ := h; rfl
theorem Heard.cores {q : Nat} (h : Heard q s t) : t.cores = s.cores := by obtain ⟨⟨_, _, _, _, _, _, _, _, rfl⟩, -⟩ := h; rfl

theorem Heard.fld {k : Nat} (h : Heard k s t) {q : Reg} (apart : ∀ n w, q.addr ≠ (acct n w).addr) (errs : q.addr ≠ (peerPort .PEER_PORT_ERR k).addr) (f : Fld) : t.fld q f = s.fld q f :=
  h.2.fld f fun m => by
    rcases List.mem_cons.1 m with e | m
    · exact errs e
    · exact not_account apart m

theorem State.heard_tally (s : State) (q : Nat) (f : Fld) (n : Nat) : Heard q s (s.tally (peerPort .PEER_PORT_ERR q) f n) := by
  obtain ⟨⟨g, l, e⟩, same⟩ := (OnlyRegs.refl s [peerPort .PEER_PORT_ERR q]).tally f n List.mem_cons_self
  refine ⟨⟨g, l, s.fecRecent, s.egress, s.arbiters, s.spent, s.wire, s.freed, e⟩, fun x hx => same x fun m => hx ?_⟩
  exact List.mem_cons.2 (.inl (List.mem_singleton.1 m))

theorem State.heard_fecCount (s : State) (q : Fin 16) (corr uncorr : Nat) : Heard q.val s (s.fecCount (.peer q) corr uncorr) := by
  have counted := (s.heard_tally q.val PEER_PORT_ERR.FEC_CORR corr).trans (State.heard_tally _ q.val PEER_PORT_ERR.FEC_UNCORR uncorr)
  unfold State.fecCount
  dsimp only
  split
  · exact Heard.refl _ s
  · split
    · exact counted
    · refine counted.trans ⟨⟨_, _, _, _, _, _, _, _, rfl⟩, SameRegs.of_regs rfl⟩

/-- A frame that its port takes. -/
theorem State.heard_frameIn (s : State) (q : Fin 16) (p : DftPacket) (taken : (s.frameIn q p).2 = true) : Heard q.val s (s.frameIn q p).1 := by
  have counted := s.heard_fecCount q p.fecCorr p.fecUncorr
  revert taken
  unfold State.frameIn
  dsimp only
  split
  · exact fun no => absurd no Bool.false_ne_true
  · have charged : Heard q.val s (if pktCharged p then (s.fecCount (.peer q) p.fecCorr p.fecUncorr).charge p.lease.val (28 + q.val) (frameBytes p) else s.fecCount (.peer q) p.fecCorr p.fecUncorr) := by
      split
      · exact counted.trans ((State.sent_charge ..).heard _)
      · exact counted
    revert charged
    generalize (if pktCharged p then (s.fecCount (.peer q) p.fecCorr p.fecUncorr).charge p.lease.val (28 + q.val) (frameBytes p) else s.fecCount (.peer q) p.fecCorr p.fecUncorr) = u
    intro charged
    have credited := charged.trans ((State.sent_creditIn _ q.val p.credit).heard q.val)
    split
    · exact fun no => absurd no Bool.false_ne_true
    · split
      · exact fun no => absurd no Bool.false_ne_true
      · exact fun _ => credited

end Sys2Proof.Machine
end

section
set_option Elab.async false -- one proof after the other: the whole text stands near the memory limit of the check
/-! Enumeration, addresses and link-scope packets (17 R604-R610). -/
namespace Sys2Proof.Machine

variable {s t u : State} {q : Fin 16} {p : DftPacket}

theorem plain_unitAddr : Plain unitAddr := plain_of_sv0 (o := 0xA00008) (by decide) (by decide) (by decide)

theorem addr_unitAddr_ne_peerPort (n : RegName) (q : Fin 16) (h : n.layout.base + n.layout.strideI * 3 < 2 ^ 38) : unitAddr.addr ≠ (peerPort n q.val).addr := by
  have port := q.isLt
  have low := Nat.mul_le_mul_left n.layout.strideI (show q.val % 4 ≤ 3 by omega)
  have base : unitAddr.addr = 8 * 2 ^ 44 + 24 * 2 ^ 38 + 0xA00008 := rfl
  rw [base]
  simp only [Reg.addr, peerPort, selIo]
  omega

/-- UNIT_ADDR holds what it held where packets are sent or taken in. -/
theorem Sent.unitAddr (h : Sent s t) (f : Fld) : t.fld unitAddr f = s.fld unitAddr f := h.fld plain_unitAddr.1 f
theorem Heard.unitAddr (h : Heard q.val s t) (f : Fld) : t.fld unitAddr f = s.fld unitAddr f :=
  h.fld plain_unitAddr.1 (addr_unitAddr_ne_peerPort .PEER_PORT_ERR q (by decide)) f

/-! ANNOUNCE (17 R606). -/

theorem State.sent_announce (s : State) : Sent { s with announcedAt := some s.now } s.announce :=
  List.foldlRecOn (motive := Sent { s with announcedAt := some s.now }) _ _ (Sent.refl _) fun t sent q _ => sent.trans (t.sent_sendLink q _)

theorem State.sameRegs_announce (s : State) : SameRegs s s.announce accounts := (SameRegs.of_regs (s := s) (t := { s with announcedAt := some s.now }) rfl).trans s.sent_announce.2

/-! Positions (17 R607, R609). -/

theorem State.takePos_spec (s : State) (pos : Nat) {src : Nat} (h : src < 4) :
    OnlyRegs s (s.takePos pos src) [unitAddr] ∧ (s.takePos pos src).fld unitAddr UNIT_ADDR.CHAIN_POS = pos % 65536 ∧ (s.takePos pos src).fld unitAddr UNIT_ADDR.CHAIN_SRC = src := by
  refine ⟨((OnlyRegs.refl s _).setFld _ _ List.mem_cons_self).setFld _ _ List.mem_cons_self, ?_, ?_⟩
  · exact (State.fld_setFld_other _ _ _ _ _ (by decide) (by decide) (.inr (by decide))).trans (State.fld_setFld_same _ _ _ _ (by decide) (by decide))
  · exact (State.fld_setFld_same _ _ _ _ (by decide) (by decide)).trans (Nat.mod_eq_of_lt h)

/-! Link-scope packets (17 R605). -/

/-- A link-scope packet of its kind acts on the state its frame leaves, with its cells freed. -/
theorem State.linkIn_acts {k : Nat} (act : State → List Byte → State) (up : s.portUp (.peer q) = true) (ok : s.frameOk p = true) (link : linkScope p = true) (kind : mgmtKind p = k) (known : 1 ≤ k ∧ k ≤ 5)
    (taken : (s.frameIn q p).2 = true) : ∃ u, Heard q.val s u ∧ s.linkIn q p k act = act u (p.pay.headD ⟨[], false⟩).bytes := by
  refine ⟨(s.frameIn q p).1.freeCells q.val 0 (pktClass p) (pktCells p), (s.heard_frameIn q p taken).trans ((State.sent_freeCells ..).heard _), ?_⟩
  unfold State.linkIn
  refine (if_neg (by rw [up, ok, link]; decide)).trans ((if_neg (by rw [taken]; decide)).trans ((if_neg ?_).trans (if_neg ?_)))
  · rw [kind]
    simp only [Bool.or_eq_true, beq_iff_eq, decide_eq_true_eq]
    omega
  · rw [kind]
    simp

/-- What a TOKEN_END does besides CHAIN_LEN is send. -/
theorem State.tokenEnd_sends (s : State) (q : Fin 16) (n : Nat) :
    Sent s (if s.fld unitAddr UNIT_ADDR.CHAIN_SRC == 1 then s else if q == 0 then s.sendEnd 1 n else if q == 1 then s.sendEnd 0 n else s) := by
  split
  · exact Sent.refl s
  · split
    · exact s.sent_sendLink 1 _
    · split
      · exact s.sent_sendLink 0 _
      · exact Sent.refl s

/-- What is done once a position is taken keeps it and where it comes from. -/
theorem State.tokenOn_spec (s : State) (n : Nat) :
    ∃ v, v = (if s.portUp (.peer 1) then s.sendToken (n + 1) else (s.setFld unitAddr UNIT_ADDR.CHAIN_LEN (n + 1)).sendEnd 0 (n + 1)) ∧ v.mem = s.mem ∧ v.cores = s.cores ∧
      v.fld unitAddr UNIT_ADDR.CHAIN_POS = s.fld unitAddr UNIT_ADDR.CHAIN_POS ∧ v.fld unitAddr UNIT_ADDR.CHAIN_SRC = s.fld unitAddr UNIT_ADDR.CHAIN_SRC := by
  refine ⟨_, rfl, ?_⟩
  split
  · unfold State.sendToken
    split
    · refine ⟨rfl, rfl, ?_, ?_⟩
      · exact State.fld_setFld_other _ _ _ _ _ (by decide) (by decide) (.inr (by decide))
      · exact State.fld_setFld_other _ _ _ _ _ (by decide) (by decide) (.inr (by decide))
    · have sent := s.sent_sendLink 1 (leBytes 2 2 ++ leBytes 2 (n + 1))
      exact ⟨sent.mem, sent.cores, sent.unitAddr _, sent.unitAddr _⟩
  · have sent := (s.setFld unitAddr UNIT_ADDR.CHAIN_LEN (n + 1)).sent_sendLink 0 (leBytes 2 3 ++ leBytes 2 (n + 1))
    refine ⟨sent.mem, sent.cores, (sent.unitAddr _).trans ?_, (sent.unitAddr _).trans ?_⟩
    · exact State.fld_setFld_other _ _ _ _ _ (by decide) (by decide) (.inr (by decide))
    · exact State.fld_setFld_other _ _ _ _ _ (by decide) (by decide) (.inl (by decide))

/-- The PARTNER that an ANNOUNCE leaves, before it is compared with what the unit knows of its own address. -/
theorem State.partner_announced (s : State) (q : Fin 16) (addr : Nat) (other conflict : Bool) :
    ∃ v, v = (let v := s.setFld (peerPort .PEER_PORT_STATUS q.val) PEER_PORT_STATUS.PARTNER addr
        let v := if other then { v with foreign := true } else v
        if conflict then v.setW1c unitAddr UNIT_ADDR.CONFLICT else v) ∧
      v.fld (peerPort .PEER_PORT_STATUS q.val) PEER_PORT_STATUS.PARTNER = addr % 65536 ∧ v.mem = s.mem ∧ v.cores = s.cores := by
  have apart := (addr_unitAddr_ne_peerPort .PEER_PORT_STATUS q (by decide)).symm
  have partner : (s.setFld (peerPort .PEER_PORT_STATUS q.val) PEER_PORT_STATUS.PARTNER addr).fld (peerPort .PEER_PORT_STATUS q.val) PEER_PORT_STATUS.PARTNER = addr % 65536 :=
    State.fld_setFld_same _ _ _ _ (by decide) (by decide)
  refine ⟨_, rfl, ?_⟩
  cases other <;> cases conflict
  · exact ⟨partner, rfl, rfl⟩
  · exact ⟨(State.fld_setFld_ne _ _ _ _ apart).trans partner, rfl, rfl⟩
  · exact ⟨partner, rfl, rfl⟩
  · exact ⟨(State.fld_setFld_ne _ _ _ _ apart).trans partner, rfl, rfl⟩

end Sys2Proof.Machine

open Sys2Proof Sys2Proof.Machine

/-- Settles O33: what a unit sends leaves UNIT_ADDR and the ports alone, and each command writes its own fields of them. -/
theorem unitsEnumerateAndTakeLinkPackets : Obligations.UnitsEnumerateAndTakeLinkPackets := by
  unfold Obligations.UnitsEnumerateAndTakeLinkPackets
  refine ⟨?advert, ?send, ?announced, ?first, ?strap, ?reclaim, ?announce, ?token, ?tokenEnd⟩
  case advert =>
    intro s h live up first
    change execNeighbourAdvertisement h s = _
    rw [execNeighbourAdvertisement, State.live_run live]
    refine (if_neg (by rw [up, first]; simp)).trans ?_
    rw [first]
  case send =>
    intro s live never
    change execAnnounceSend s = _
    rw [execAnnounceSend, State.live_run live, never]
  case announced =>
    exact fun s => ⟨s.sent_announce.announcedAt, s.sent_announce.mem, s.sameRegs_announce⟩
  case first =>
    intro s c live complete fresh due strap down
    let u : State := { s with enumAt := some s.now, reclaimDue := s.addrRecord.isSome && s.self == 0 }
    obtain ⟨only, pos, src⟩ := u.takePos_spec 0 (src := 1) (by decide)
    have act : exec .enumStart s = .next ((u.takePos 0 1).setFld unitAddr UNIT_ADDR.CHAIN_LEN 1) := by
      change execEnumStart s = _
      rw [execEnumStart, State.live_run live, complete]
      have bound : ms 1000 = 1100000000 := rfl
      refine (if_neg ?_).trans ?_
      · rw [fresh, bound, Option.isSome_none, Bool.false_or]
        exact decide_eq_true_iff.not.2 (Nat.not_lt.2 due)
      · rw [← complete]
        refine (if_neg ?_).trans (congrArg Host.Outcome.next (if_neg ?_))
        · have zero : u.strap = 0 := strap
          rw [zero]
          exact Bool.false_ne_true
        · have apart : (peerPort .PEER_PORT_STATUS 1).addr ≠ unitAddr.addr := by decide
          have same : (u.takePos 0 1).portUp (.peer 1) = s.portUp (.peer 1) :=
            congrArg (· == 1) ((State.fld_setFld_ne _ _ _ _ apart).trans (State.fld_setFld_ne _ _ _ _ apart))
          rw [same, down]
          exact Bool.false_ne_true
    refine ⟨_, act, rfl, ?_, ?_, ?_, ?_, rfl⟩
    · exact (State.fld_setFld_other _ _ _ _ _ (by decide) (by decide) (.inr (by decide))).trans pos
    · exact (State.fld_setFld_other _ _ _ _ _ (by decide) (by decide) (.inl (by decide))).trans src
    · exact (State.fld_setFld_same _ _ _ _ (by decide) (by decide)).trans rfl
    · have same : SameRegs s u [unitAddr] := SameRegs.of_regs rfl
      exact (same.trans only.same).setFld _ _ List.mem_cons_self
  case strap =>
    intro s c live enumerated due none some low
    obtain ⟨only, pos, src⟩ := s.takePos_spec s.strap (src := 3) (by decide)
    refine ⟨s.takePos s.strap 3, ?_, only, pos.trans (Nat.mod_eq_of_lt (by omega)), src⟩
    change execEnumStrapFallback s = _
    rw [execEnumStrapFallback, State.live_run live, enumerated]
    have bound : ms 2000 = 2200000000 := rfl
    have strapped : (s.strap == 0) = false := beq_eq_false_iff_ne.2 some
    have given : (s.strap == 0x7F) = false := beq_eq_false_iff_ne.2 (by omega)
    refine if_neg ?_
    rw [none, bound, strapped, given, Bool.or_false, Bool.or_false, Bool.or_false]
    exact decide_eq_true_iff.not.2 (Nat.not_lt.2 due)
  case reclaim =>
    intro s c r live enumerated record due ports foreign time low
    let u : State := (({ s with reclaimDue := false } : State).setFld unitAddr UNIT_ADDR.ADDRESS r.addr).setFld unitAddr UNIT_ADDR.RECLAIMED 1
    have sent := u.sent_announce
    have word (f : Fld) : u.announce.fld unitAddr f = u.fld unitAddr f := sent.unitAddr f
    refine ⟨u.announce, ?_, ?_, ?_, sent.reclaimDue, ?_, sent.mem⟩
    · change execAddressReclaim s = _
      rw [execAddressReclaim, State.live_run live, enumerated, record]
      have bound : ms 5000 = 5500000000 := rfl
      refine (if_neg (by rw [due]; decide)).trans ?_
      rw [← enumerated, ← record]
      refine if_pos ?_
      rw [ports, foreign, bound]
      exact decide_eq_true time
    · refine (word _).trans ((State.fld_setFld_other _ _ _ _ _ (by decide) (by decide) (.inr (by decide))).trans ((State.fld_setFld_same _ _ _ _ (by decide) (by decide)).trans ?_))
      exact Nat.mod_eq_of_lt low
    · exact (word _).trans ((State.fld_setFld_same _ _ _ _ (by decide) (by decide)).trans rfl)
    · have same : SameRegs s { s with reclaimDue := false } (unitAddr :: accounts) := SameRegs.of_regs rfl
      have written : SameRegs s u (unitAddr :: accounts) := (same.setFld _ _ List.mem_cons_self).setFld _ _ List.mem_cons_self
      exact written.trans (u.sameRegs_announce.cons _)
  case announce =>
    intro s q p live up ok link kind taken
    obtain ⟨u, heard, act⟩ := State.linkIn_acts (fun s b =>
      let addr := leNat ((b.drop 2).take 2)
      let other := (b.drop 8).take 64 != identityDigest
      let s := s.setFld (peerPort .PEER_PORT_STATUS q.val) PEER_PORT_STATUS.PARTNER addr
      let s := if other && (match s.addrRecord with | some r => r.addr == addr | none => false) then { s with foreign := true } else s
      if other && bitAt (b.getD 4 0#8).toNat 0 && addr == s.self && addr != 0 then s.setW1c unitAddr UNIT_ADDR.CONFLICT else s) up ok link kind (by decide) taken
    obtain ⟨v, form, partner, mem, cores⟩ := u.partner_announced q (leNat (((p.pay.headD ⟨[], false⟩).bytes.drop 2).take 2)) _ _
    refine ⟨v, ?_, partner, mem.trans heard.mem, cores.trans heard.cores⟩
    change execAnnounce q p s = _
    rw [execAnnounce, State.live_run live]
    exact congrArg Host.Outcome.next (act.trans form.symm)
  case token =>
    intro s p live up ok link kind none taken
    obtain ⟨u, heard, act⟩ := State.linkIn_acts (q := 0) (fun s b =>
      let n := leNat ((b.drop 2).take 2)
      if s.hasPos then
        if s.fld unitAddr UNIT_ADDR.CHAIN_SRC == 1 && (0 : Fin 16) == 0 then (s.setFld unitAddr UNIT_ADDR.CHAIN_LEN n).sendEnd 1 n
        else s.setW1c unitAddr UNIT_ADDR.CHAIN_ERR
      else if (0 : Fin 16) != 0 then s
      else
        let s := s.takePos n 2
        if s.portUp (.peer 1) then s.sendToken (n + 1) else (s.setFld unitAddr UNIT_ADDR.CHAIN_LEN (n + 1)).sendEnd 0 (n + 1)) up ok link kind (by decide) taken
    have still : u.hasPos = false := (congrArg (· != 0) (heard.unitAddr (q := 0) UNIT_ADDR.CHAIN_SRC)).trans none
    obtain ⟨only, pos, src⟩ := u.takePos_spec (leNat (((p.pay.headD ⟨[], false⟩).bytes.drop 2).take 2)) (src := 2) (by decide)
    obtain ⟨v, form, mem, cores, pos', src'⟩ := (u.takePos (leNat (((p.pay.headD ⟨[], false⟩).bytes.drop 2).take 2)) 2).tokenOn_spec (leNat (((p.pay.headD ⟨[], false⟩).bytes.drop 2).take 2))
    refine ⟨v, ?_, pos'.trans pos, src'.trans src, mem.trans heard.mem, cores.trans heard.cores⟩
    change execToken 0 p s = _
    rw [execToken, State.live_run live]
    refine congrArg Host.Outcome.next (act.trans ((if_neg ?_).trans ((if_neg (by decide)).trans form.symm)))
    rw [still]
    exact Bool.false_ne_true
  case tokenEnd =>
    intro s q p live up ok link kind taken
    obtain ⟨u, heard, act⟩ := State.linkIn_acts (fun s b =>
      let n := leNat ((b.drop 2).take 2)
      let s := s.setFld unitAddr UNIT_ADDR.CHAIN_LEN n
      if s.fld unitAddr UNIT_ADDR.CHAIN_SRC == 1 then s else if q == 0 then s.sendEnd 1 n else if q == 1 then s.sendEnd 0 n else s) up ok link kind (by decide) taken
    have sent := (u.setFld unitAddr UNIT_ADDR.CHAIN_LEN (leNat (((p.pay.headD ⟨[], false⟩).bytes.drop 2).take 2))).tokenEnd_sends q (leNat (((p.pay.headD ⟨[], false⟩).bytes.drop 2).take 2))
    refine ⟨_, ?_, (sent.unitAddr _).trans (State.fld_setFld_same _ _ _ _ (by decide) (by decide)), sent.mem.trans heard.mem, sent.cores.trans heard.cores⟩
    change execTokenEnd q p s = _
    rw [execTokenEnd, State.live_run live]
    exact congrArg Host.Outcome.next act
end

section
set_option Elab.async false -- one proof after the other: the whole text stands near the memory limit of the check
/-! Array, vector and engine operations of a bundle (03 R76, R80, R97; 06 R231-R260). -/
namespace Sys2Proof.Machine

variable {s : State} {k j op : Nat} {q : Kernel} {b : Bundle}

theorem SlotIssues.live (h : SlotIssues s k j op q b) : s.life = .running := h.1

/-- A command that is one operation of a bundle and issues has its effect, and its slot is noted. -/
theorem SlotIssues.issues (h : SlotIssues s k j op q b) (eff : Kernel → Nat → State → State) :
    s.live (fun s => .next (s.issue k j op eff)) = .next ((eff q (b.op j) (s.entered k q b)).slotDone k j b) := by
  rw [State.live_run h.live, h.issue eff]

/-- Every kind of DRAIN starts its run on pipeline 1. -/
theorem SlotIssues.drains {op : Nat} (h : SlotIssues s k 5 op q b) : s.issueVec1 k op = ((s.entered k q b).startVec1 k q (b.op 5)).slotDone k 5 b := h.issue _

theorem SlotIssues.softens (h : SlotIssues s k 5 3 q b) {m : Nat} (mode : s.drainMode k = some (some m)) :
    s.issueSoft k m = ((s.entered k q b).startVec1 k q (b.op 5)).slotDone k 5 b := by
  rw [State.issueSoft, mode]
  exact (if_pos (beq_self_eq_true _)).trans h.drains

/-- The transfer that ARM names. -/
def State.namedXfer (s : State) (k n w : Nat) (q : Kernel) : Xfer :=
  ⟨s.nextId, opf w 63 48, streamDesc ((s.core k).descOf (opf w 63 48)), (streamDesc ((s.core k).descOf (opf w 63 48))).total,
    firstHalf (if ((s.core k).chan n).cur.isSome then ((s.core k).chan n).cur else if ((s.core k).chan n).halves.isEmpty then none else ((s.core k).chan n).last) (streamDesc ((s.core k).descOf (opf w 63 48))),
    0, 0, 0, q.idx, s.ctime k + 1, 0, []⟩

theorem State.chan_startXfer (s : State) (k n w : Nat) (q : Kernel) :
    ((s.startXfer k n q w).core k).chan n =
      (if ((s.core k).chan n).cur.isSome then { (s.core k).chan n with pend := some (s.namedXfer k n w q) } else { (s.core k).chan n with cur := some (s.namedXfer k n w q) }) := by
  unfold State.startXfer
  simp only [State.core_setCore_same, Core.chan_setChan_same]
  rfl

theorem State.awl_startThread {t e w : Nat} (free : findIdx (fun t => (tget? (s.core k).awl t).isNone) 16 = some t) :
    ∃ a : AwlThread, tget? ((s.startThread k e q w).core k).awl t = some a ∧ a.entry = 0 ∧ a.landed = 0 ∧ a.outstanding = 0 ∧ a.stopped = false ∧ a.bundle = q.idx ∧ a.slot = 6 + e := by
  unfold State.startThread
  dsimp only
  rw [free]
  simp only [State.core_setCore_same, tget?_tset_same]
  exact ⟨_, rfl, rfl, rfl, rfl, rfl, rfl, rfl⟩

end Sys2Proof.Machine

open Sys2Proof Sys2Proof.Machine

/-- Settles O35: every operation issues by `SlotIssues.issues`; ARM and AWL are cited by the channel and the thread they leave. -/
theorem arrayVectorAndEngineOperationsIssue : Obligations.ArrayVectorAndEngineOperationsIssue := by
  unfold Obligations.ArrayVectorAndEngineOperationsIssue
  refine ⟨fun s c ma q b h => h.issues _, fun s c ma q b h => h.issues _, fun s c q b h => h.issues _, fun s c q b h => h.issues _, fun s c q b h => h.issues _, ?drain, fun s c e q b h => h.issues _, ?xfer,
    fun s c e q b h => h.issues _, fun s c e q b h => h.issues _, fun s k e w q t free => State.awl_startThread free⟩
  case drain =>
    intro s c q b h
    refine ⟨fun mode => ?_, fun mode => ?_, fun mode => ?_, fun mode => ?_⟩
    · change execDrain c s = _
      rw [execDrain, State.live_run h.live, mode]
      exact congrArg Host.Outcome.next h.drains
    · change execSoftmaxStep c s = _
      rw [execSoftmaxStep, State.live_run h.live, h.softens mode]
    · change execSoftmaxFinal c s = _
      rw [execSoftmaxFinal, State.live_run h.live, h.softens mode]
    · change execSoftmaxMerge c s = _
      rw [execSoftmaxMerge, State.live_run h.live, h.softens mode]
  case xfer =>
    intro s k n w q
    refine ⟨s.namedXfer k n w q, rfl, rfl, rfl, rfl, rfl, rfl, fun idle => ?_, fun busy => ?_⟩
    · rw [s.chan_startXfer, idle]
      rfl
    · rw [s.chan_startXfer, if_pos (Option.isSome_iff_ne_none.2 busy)]
      exact ⟨rfl, rfl⟩
end

section
set_option Elab.async false -- one proof after the other: the whole text stands near the memory limit of the check
/-! Sequencer and synchronisation operations, and what every slot operation leaves alone (03 R67, R97; 04 R118-R137, R168-R173). -/
namespace Sys2Proof.Machine

variable {s t u : State} {k j op : Nat} {q : Kernel} {b : Bundle}

/-! Empty bundles (04 R118, R135). -/

/-- The slot in which the empty-bundle rule of R118 finds a bundle without an operation. -/
theorem Bundle.first_none (h : ∀ j, b.has j = false) : (List.range 10).find? b.has = none := List.find?_eq_none.2 fun j _ => by simp [h j]

theorem State.admission_squashed (squashed : q.squashed = true) (sound : s.squashCheck k b = none) (fresh : q.lastIssue ≠ some (s.ctime k)) : s.admission k q b = .go := by
  unfold State.admission
  refine (if_neg fun e => fresh (beq_iff_eq.1 e)).trans ((if_pos squashed).trans ?_)
  rw [sound]

section
variable {c : CoreId} (live : s.life = .running) (may : s.mayIssue (ckey c) = some (q, b)) (unissued : q.slots = 0) (go : s.admission (ckey c) q b = .go)
include live may unissued go

/-- A bundle of which no slot has issued, and that is squashed or without a sound first operation, is consumed once it is admitted. -/
theorem State.exec_emptyBundle
    (idle : (q.squashed || !b.headerOk || (match (List.range 10).find? b.has with | none => true | some j => b.code j == 0 || slotMaxOp j < b.code j)) = true) :
    exec (.emptyBundle c) s = .next (s.consume (ckey c) b true) := by
  change execEmptyBundle c s = _
  rw [execEmptyBundle, State.live_run live]
  simp only [may, go]
  have passes (x : Bool) (h : x = true) : ¬(!x || q.slots != 0) = true := by
    rw [h, unissued]
    decide
  exact if_neg (passes _ idle)

end

/-! What a slot operation leaves alone. -/

/-- A source raised writes registers, and notes of the cycle and of the lines. -/
theorem local_raise (s : State) (k ic x : Nat) : Local k s (s.raise ic x) := by
  have esc (u : State) (i : Nat) : Local k u (u.noteEsc i) := by
    unfold State.noteEsc State.noteLine
    split
    · split
      · exact .refl ..
      · exact ⟨rfl, rfl, rfl, rfl, rfl, rfl, rfl, rfl, rfl, rfl, fun _ _ => rfl⟩
    · exact .refl ..
  have pending (i : Nat) : Local k s (s.setPending i x) := by
    have set : Local k s ((if s.isPending i x then s else s.rrBegin i x).putBit (icPending i x) (x % 64) true) := by
      split <;> exact ⟨rfl, rfl, rfl, rfl, rfl, rfl, rfl, rfl, rfl, rfl, fun _ _ => rfl⟩
    have noted (u : State) : Local k u (u.notePending i x true) := ⟨rfl, rfl, rfl, rfl, rfl, rfl, rfl, rfl, rfl, rfl, fun _ _ => rfl⟩
    exact (set.trans (esc _ i)).trans (noted _)
  unfold State.raise
  generalize (if (ic == 4 && s.sv1) = true then 5 else ic) = i
  dsimp only
  split
  · exact .refl ..
  · split
    · exact ⟨rfl, rfl, rfl, rfl, rfl, rfl, rfl, rfl, rfl, rfl, fun _ _ => rfl⟩
    · exact pending i

/-- A record of an event writes its registers alone. -/
theorem local_record (s : State) (k : Nat) (e : Reg) (valid count : Fld) (w : Nat) (more : List (Reg × Nat)) : Local k s (s.record e valid count w more) := by
  have note (u : State) (r : Reg) (v : Nat) : Local k u (u.noteCycle r v) := ⟨rfl, rfl, rfl, rfl, rfl, rfl, rfl, rfl, rfl, rfl, fun _ _ => rfl⟩
  have put : Local k s (s.putRecord e count w) := local_setReg ..
  have written : Local k s (if s.fld e valid == 1 then s else more.foldl (fun s p => s.setReg p.1 (BitVec.ofNat 64 p.2)) (s.putRecord e count w)) := by
    split
    · exact .refl ..
    · exact List.foldlRecOn (motive := Local k s) _ _ put fun _ l _ _ => l.trans (local_setReg ..)
  unfold State.record
  dsimp only
  split
  · exact List.foldlRecOn (motive := Local k s) _ _ (written.trans (note ..)) fun _ l _ _ => l.trans (note ..)
  · exact written

theorem local_coreEvent (s : State) (k buf row bundle map : Nat) : Local k s (s.coreEvent k buf row bundle map) := by
  unfold State.coreEvent State.markKernel
  dsimp only
  refine Local.trans (Local.trans ?_ (local_raise _ k _ _)) (local_onCore ..)
  split
  · exact ((local_bump ..).trans (local_record ..)).trans (local_bump ..)
  · exact (local_bump ..).trans (local_record ..)

/-- An injection that fires is over, and counted. -/
theorem local_fired (s : State) (k : Nat) : Local k s s.fired := by
  have off : Local k s { s with inject := none } := ⟨rfl, rfl, rfl, rfl, rfl, rfl, rfl, rfl, rfl, rfl, fun _ _ => rfl⟩
  exact ((off.trans (local_setFld ..)).trans (local_bump ..)).trans (local_setW1c ..)

/-- Reading a row of a core's own memory meets errors, which are counted, and changes nothing it holds. -/
theorem local_readRaw (s : State) (i k buf row : Nat) (ws : Nat → Bool) : Local i s (s.readRaw k buf row ws).s := by
  have tally (u : State) (r : Reg) (f : Fld) (n : Nat) : Local i u (u.tally r f n) := ⟨rfl, rfl, rfl, rfl, rfl, rfl, rfl, rfl, rfl, rfl, fun _ _ => rfl⟩
  have words : Local i s (s.readWords (bufRow k buf row) ws).1 := by
    unfold State.readWords
    dsimp only
    split
    · exact Local.ite _ (local_fired ..) (.refl ..)
    · exact .refl ..
  have uncounted (u : State) (r n : Nat) : Local i u (u.noteUnc r n) := by
    unfold State.noteUnc
    split
    · exact .refl ..
    · exact ⟨rfl, rfl, rfl, rfl, rfl, rfl, rfl, rfl, rfl, rfl, fun _ _ => rfl⟩
  have noted (u : State) (r : Reg) (f : Fld) (v : Nat) : Local i u (u.noteFld r f v) := ⟨rfl, rfl, rfl, rfl, rfl, rfl, rfl, rfl, rfl, rfl, fun _ _ => rfl⟩
  have counted (u : State) (corr unc : Nat) : Local i u (u.countCoreEcc k buf row corr unc) := by
    unfold State.countCoreEcc
    split
    · exact .refl ..
    · exact ((((uncounted ..).trans (tally ..)).trans (tally ..)).trans (local_setFld ..)).trans (noted ..)
  unfold State.readRaw
  dsimp only
  refine Local.trans ?_ (counted ..)
  split
  · exact words
  · exact words.trans ⟨rfl, rfl, rfl, rfl, rfl, rfl, rfl, rfl, rfl, rfl, fun _ _ => rfl⟩

/-- What a row read leads to: a stall for a corrected word, a record for a fresh uncorrectable one. -/
theorem local_met (r : OwnRead) (h : Local k s r.s) (t buf row bundle map : Nat) :
    Local k s (if r.fresh then (if r.corr then r.s.correctAt k t else r.s).coreEvent k buf row bundle map else (if r.corr then r.s.correctAt k t else r.s)) := by
  have stalled : Local k s (if r.corr then r.s.correctAt k t else r.s) := by
    split
    · exact h.trans (local_correctAt ..)
    · exact h
  split
  · exact stalled.trans (local_coreEvent ..)
  · exact stalled

theorem local_wldRead (s : State) (k a bundle x row half er sb : Nat) (tr : Bool) (n : Nat) : Local k s (s.wldRead k a bundle x row half er sb tr n).1 := by
  induction n with
  | zero => exact .refl ..
  | succ n ih =>
    unfold State.wldRead
    exact local_met _ (ih.trans (local_readRaw ..)) _ _ _ _ _

theorem local_readHeld (k bundle x : Nat) (l : List (Nat × Nat × Nat)) : ∀ s : State, Local k s (s.readHeld k bundle x l).1 := by
  induction l with
  | nil => exact fun s => .refl ..
  | cons p l ih =>
    intro s
    obtain ⟨t, buf, row⟩ := p
    unfold State.readHeld
    exact (local_met (s.readRaw k buf row (fun _ => true)) (local_readRaw ..) _ _ _ _ _).trans (ih _)

theorem local_startLoad (s : State) (k a : Nat) (q : Kernel) (w : Nat) : Local k s (s.startLoad k a q w) := by
  unfold State.startLoad
  dsimp only
  exact Local.ite _ (((local_wldRead ..).trans (local_onCore ..)).trans (local_setW1c ..)) ((local_wldRead ..).trans (local_onCore ..))

theorem local_startVec (s : State) (k pipe : Nat) (v : VecRun) : Local k s (s.startVec k pipe v) := by
  unfold State.startVec
  exact (local_readHeld ..).trans (local_onCore ..)

theorem local_startXfer (s : State) (k n : Nat) (q : Kernel) (w : Nat) : Local k s (s.startXfer k n q w) := by
  have named : Local k s { s with nextId := s.nextId + 1 } := ⟨rfl, rfl, rfl, rfl, rfl, rfl, rfl, rfl, rfl, rfl, fun _ _ => rfl⟩
  exact named.trans (local_setCore ..)

theorem local_startThread (s : State) (k e : Nat) (q : Kernel) (w : Nat) : Local k s (s.startThread k e q w) := by
  unfold State.startThread
  dsimp only
  split
  · exact .refl ..
  · exact local_setCore ..

theorem local_writeMask (s : State) (k w : Nat) : Local k s (s.writeMask k w) := local_setReg ..

/-- A draw on a perturbation changes what is perturbed, and nothing else. -/
theorem State.perturb_eq (s : State) (x y z m : Nat) (r : Bool) (t : Nat) : ∃ p, (s.perturb x y z m r t).2 = { s with perturbed := p } := by
  unfold State.perturb
  split
  · exact ⟨s.perturbed, rfl⟩
  · exact ⟨_, rfl⟩

theorem State.cross_eq (s : State) (d cls idx t : Nat) : ∃ p, (s.cross d cls idx t).2 = { s with perturbed := p } := by
  unfold State.cross
  dsimp only
  split
  · exact s.perturb_eq ..
  · exact ⟨s.perturbed, rfl⟩

theorem State.bridged_eq (s : State) (x y t : Nat) : ∃ p, (s.bridged x y t).2 = { s with perturbed := p } := by
  refine List.foldlRecOn (motive := fun v : Nat × State => ∃ p, v.2 = { s with perturbed := p }) _ _ ⟨s.perturbed, rfl⟩ ?_
  rintro ⟨n, v⟩ ⟨p, rfl⟩ d -
  exact State.cross_eq { s with perturbed := p } ..

/-- A flag update on its way draws on the perturbation of the crossings it passes, and on nothing else. -/
theorem State.delivered_eq (s : State) (o : FlagOp) : ∃ p, (s.delivered o).1 = { s with perturbed := p } := by
  unfold State.delivered State.flagDelay
  split
  · exact ⟨s.perturbed, rfl⟩
  · obtain ⟨p, a⟩ := s.cross_eq (coreDie o.src) 13 (2 * coreNum o.src) s.now
    dsimp only
    rw [a]
    obtain ⟨p', b⟩ := State.bridged_eq { s with perturbed := p } (coreDie o.src) (coreDie o.dst) (s.cross (coreDie o.src) 13 (2 * coreNum o.src) s.now).1
    rw [b]
    exact State.cross_eq { s with perturbed := p' } ..

/-- A flag update given to a core: it waits, or is on its way. -/
theorem State.sendFlag_eq (s : State) (k w : Nat) (set : Bool) : ∃ p l, s.sendFlag k w set = { s with perturbed := p, flagOps := l } := by
  have sent (o : FlagOp) : ∃ p o', (if o.fence.isSome then (s, o) else s.delivered o) = ({ s with perturbed := p }, o') := by
    split
    · exact ⟨s.perturbed, o, rfl⟩
    · obtain ⟨p, e⟩ := s.delivered_eq o
      exact ⟨p, _, Prod.ext e rfl⟩
  obtain ⟨p, o, e⟩ := sent ⟨k, syncTarget k w, opf w 4 4 == 1, opf w 23 14, set, if opf w 24 24 == 1 then some (s.core k).fence else none, hops (coreDie k) (coreDie (syncTarget k w)), none⟩
  refine ⟨p, s.flagOps ++ [o], ?_⟩
  unfold State.sendFlag
  dsimp only at e ⊢
  rw [e]

theorem local_sendFlag (s : State) (k w : Nat) (set : Bool) : Local k s (s.sendFlag k w set) := by
  obtain ⟨p, l, e⟩ := s.sendFlag_eq k w set
  rw [e]
  exact ⟨rfl, rfl, rfl, rfl, rfl, rfl, rfl, rfl, rfl, rfl, fun _ _ => rfl⟩

/-- What no operation of a bundle touches, whatever core it acts on. -/
structure Outside (s t : State) : Prop where
  mem : t.mem = s.mem
  now : t.now = s.now
  coreClock : t.coreClock = s.coreClock
  life : t.life = s.life
  pending : t.pending = s.pending
  reqs : t.reqs = s.reqs
  ctls : t.ctls = s.ctls
  welts : t.welts = s.welts
  pools : t.pools = s.pools
  sessions : t.sessions = s.sessions

theorem Local.outside (h : Local k s t) : Outside s t := ⟨h.mem, h.now, h.coreClock, h.life, h.pending, h.reqs, h.ctls, h.welts, h.pools, h.sessions⟩

theorem Outside.trans (a : Outside s t) (b : Outside t u) : Outside s u :=
  ⟨b.mem.trans a.mem, b.now.trans a.now, b.coreClock.trans a.coreClock, b.life.trans a.life, b.pending.trans a.pending, b.reqs.trans a.reqs, b.ctls.trans a.ctls, b.welts.trans a.welts,
    b.pools.trans a.pools, b.sessions.trans a.sessions⟩

theorem Outside.refl (s : State) : Outside s s := (Local.refl 0 s).outside

/-- What issuing an operation does beside its effect is the core's own. -/
theorem outside_issue {eff : Kernel → Nat → State → State} (s : State) (k j op : Nat) (h : ∀ q w u, Outside u (eff q w u)) : Outside s (s.issue k j op eff) := by
  have done (u : State) (b : Bundle) : Outside u (u.slotDone k j b) := (local_slotDone u k j b).outside
  have settled := (local_settle s k).outside
  unfold State.issue
  split
  · exact .refl s
  · next q b _ =>
    dsimp only
    split
    · exact .refl s
    · split
      · exact (h ..).trans (done ..)
      · split
        · next w hw => exact settled.trans (local_wait _ _ _ _ _ hw).outside
        · exact settled.trans (local_refuse ..).outside
        · exact settled.trans ((local_onCore ..).outside.trans ((h ..).trans (done ..)))

/-- The operations that write no register when they issue into an admitted bundle that they do not complete. -/
def Quiet (j op : Nat) : Prop := (j < 4 → op ≠ 1) ∧ j ≠ 4 ∧ j ≠ 5 ∧ (j = 8 → op ≠ 2 ∧ op ≠ 5)

/-- The slots of the core's kernel that have issued. -/
abbrev State.issued (s : State) (k : Nat) : Option Nat := (s.core k).kernel.map (·.slots)

/-- The effect of a slot operation: outside its core nothing but, for CLAIM, its target core; and where it is quiet no register and no note of the slots that have issued. -/
structure SlotEffect (k j op : Nat) (eff : Kernel → Nat → State → State) : Prop where
  outside : ∀ q w u, Outside u (eff q w u)
  cores : (j = 9 → op ≠ 6) → ∀ q w u, Local k u (eff q w u)
  quiet : Quiet j op → ∀ q w u, (eff q w u).regs = u.regs ∧ (eff q w u).issued k = u.issued k

theorem SlotEffect.of_local {eff : Kernel → Nat → State → State} (h : ∀ q w u, Local k u (eff q w u)) (r : Quiet j op → ∀ q w u, (eff q w u).regs = u.regs ∧ (eff q w u).issued k = u.issued k) :
    SlotEffect k j op eff := ⟨fun q w u => (h q w u).outside, fun _ => h, r⟩

/-- A change of a core that leaves the slots of its kernel. -/
theorem State.issued_onCore (s : State) (k i : Nat) (f : Core → Core) (h : ∀ c, (f c).kernel.map (·.slots) = c.kernel.map (·.slots)) : (s.onCore i f).issued k = s.issued k := by
  by_cases e : k = i
  · rw [State.issued, e, State.core_onCore_same, h]
  · rw [State.issued, State.core_onCore_ne _ _ e]

theorem SlotEffect.pass (k a : Nat) : SlotEffect k a 2 (fun q w s => s.startPass k a q w) :=
  .of_local (fun _ _ _ => by unfold State.startPass; exact local_onCore ..) fun _ _ _ u => ⟨rfl, u.issued_onCore k k _ fun _ => rfl⟩

theorem Core.kernel_prefetch (c : Core) (t bundle w : Nat) : (c.prefetch t bundle w).kernel = c.kernel :=
  List.foldlRecOn (motive := fun x : Core => x.kernel = c.kernel) _ _ rfl fun x e h _ => by
    split
    · exact e
    · exact e

theorem Core.kernel_clearFlag (c : Core) (clock f : Nat) : (c.clearFlag clock f).kernel = c.kernel := by
  unfold Core.clearFlag
  split
  · split <;> rfl
  · rfl

theorem State.startXfer_quiet (s : State) (k n w : Nat) (q : Kernel) : (s.startXfer k n q w).regs = s.regs ∧ (s.startXfer k n q w).issued k = s.issued k := by
  refine ⟨rfl, ?_⟩
  unfold State.issued State.startXfer
  dsimp only
  rw [State.core_setCore_same]
  rfl

theorem State.startThread_quiet (s : State) (k e w : Nat) (q : Kernel) : (s.startThread k e q w).regs = s.regs ∧ (s.startThread k e q w).issued k = s.issued k := by
  unfold State.startThread
  dsimp only
  split
  · exact ⟨rfl, rfl⟩
  · refine ⟨rfl, ?_⟩
    rw [State.issued, State.core_setCore_same]
    rfl

theorem State.sendFlag_quiet (s : State) (k w : Nat) (set : Bool) : (s.sendFlag k w set).regs = s.regs ∧ (s.sendFlag k w set).issued k = s.issued k := by
  obtain ⟨p, l, e⟩ := s.sendFlag_eq k w set
  rw [e]
  exact ⟨rfl, rfl⟩

/-- Operations that are not quiet. -/
theorem not_quiet_load (a : Fin 4) : ¬Quiet a.val 1 := fun h => h.1 a.isLt rfl
theorem not_quiet_vec {j op : Nat} (h : j = 4 ∨ j = 5) : ¬Quiet j op := fun ⟨_, a, b, _⟩ => h.elim a b
theorem not_quiet_ctrl {op : Nat} (h : op = 2 ∨ op = 5) : ¬Quiet 8 op := fun ⟨_, _, _, c⟩ => h.elim (c rfl).1 (c rfl).2

theorem SlotEffect.vec1 {op : Nat} (k : Nat) : SlotEffect k 5 op (fun q w s => s.startVec1 k q w) :=
  .of_local (fun _ _ _ => local_startVec ..) fun h => absurd h (not_quiet_vec (.inr rfl))

theorem SlotEffect.flag (k : Nat) {op : Nat} (set : Bool) : SlotEffect k 9 op (fun _ w s => s.sendFlag k w set) := .of_local (fun _ _ _ => local_sendFlag ..) fun _ _ _ u => u.sendFlag_quiet ..

theorem SlotEffect.xfer (k n : Nat) (g : Nat → Nat) : SlotEffect k n 1 (fun q w s => s.startXfer k (g w) q w) := .of_local (fun _ _ _ => local_startXfer ..) fun _ q w u => u.startXfer_quiet k (g w) w q
theorem SlotEffect.release (k n : Nat) (g : Nat → Nat) : SlotEffect k n 2 (fun _ w s => s.releaseHalf k (g w)) := .of_local (fun _ _ _ => local_onCore ..) fun _ _ _ u => ⟨rfl, u.issued_onCore k k _ fun _ => rfl⟩
theorem SlotEffect.thread (k n e : Nat) : SlotEffect k n 3 (fun q w s => s.startThread k e q w) := .of_local (fun _ _ _ => local_startThread ..) fun _ q w u => u.startThread_quiet k e w q
theorem SlotEffect.idle (k j op : Nat) : SlotEffect k j op (fun _ _ s => s) := .of_local (fun _ _ u => .refl _ u) fun _ _ _ _ => ⟨rfl, rfl⟩

theorem SlotEffect.dpre (k : Nat) : SlotEffect k 8 3 (fun q w s => s.onCore k (fun x => x.prefetch (s.ctime k) q.idx w)) :=
  .of_local (fun _ _ _ => local_onCore ..) fun _ _ _ u => ⟨rfl, u.issued_onCore k k _ fun x => congrArg (Option.map Kernel.slots) (x.kernel_prefetch ..)⟩

theorem SlotEffect.pred (k : Nat) : SlotEffect k 8 4 (fun _ w s => s.onCore k (fun x => { x with kernel := x.kernel.map (fun q => { q with window := opf w 13 4, squash := !q.pred }) })) :=
  .of_local (fun _ _ _ => local_onCore ..) fun _ _ _ u => ⟨rfl, u.issued_onCore k k _ fun _ => Option.map_map ..⟩

theorem SlotEffect.endKernel (k : Nat) : SlotEffect k 8 6 (fun _ w s => s.onCore k (fun x => { x with kernel := x.kernel.map (fun q => { q with ended := true, notify := opf w 4 4 == 1 }) })) :=
  .of_local (fun _ _ _ => local_onCore ..) fun _ _ _ u => ⟨rfl, u.issued_onCore k k _ fun _ => Option.map_map ..⟩

theorem SlotEffect.waitClr (k : Nat) : SlotEffect k 9 4 (fun _ w s => s.onCore k (fun x => x.clearFlag s.coreClock (opf w 23 14))) :=
  .of_local (fun _ _ _ => local_onCore ..) fun _ _ _ u => ⟨rfl, u.issued_onCore k k _ fun x => congrArg (Option.map Kernel.slots) (x.kernel_clearFlag ..)⟩

theorem SlotEffect.test (k : Nat) : SlotEffect k 9 5 (fun _ w s => s.onCore k (fun x => x.setPred (x.flags.contains (opf w 23 14)))) :=
  .of_local (fun _ _ _ => local_onCore ..) fun _ _ _ u => ⟨rfl, u.issued_onCore k k _ fun _ => Option.map_map ..⟩

/-- CLAIM notes its ring at the target core. -/
theorem SlotEffect.claim (k : Nat) :
    SlotEffect k 9 6 (fun q w s => s.onCore (syncTarget k w) (fun x => { x with claims := tset x.claims (opf w 23 14) (globalRing (coreDie k) q.ring) })) :=
  ⟨fun _ _ _ => (local_onCore ..).outside, fun h => absurd rfl (h rfl), fun _ _ _ u => ⟨rfl, u.issued_onCore k _ _ fun _ => rfl⟩⟩

/-- Every slot operation issues with an effect of its own, or, a DRAIN of another kind, does nothing. -/
theorem slotOf_acts {c : Instr} {k : CoreId} (h : slotOf c = some (k, j, op)) :
    ∃ eff, SlotEffect (ckey k) j op eff ∧ ∀ s, exec c s = s.live (fun s => .next (s.issue (ckey k) j op eff)) ∨ exec c s = s.live (fun s => .next s) := by
  have soft (c : CoreId) (m : Nat) (s : State) : s.issueSoft (ckey c) m = s.issueVec1 (ckey c) 3 ∨ s.issueSoft (ckey c) m = s := by
    unfold State.issueSoft
    split
    · exact .inl rfl
    · split
      · exact .inl rfl
      · exact .inr rfl
  have softens (c : CoreId) (m : Nat) (s : State) :
      s.live (fun s => .next (s.issueSoft (ckey c) m)) = s.live (fun s => .next (s.issueVec1 (ckey c) 3)) ∨ s.live (fun s => .next (s.issueSoft (ckey c) m)) = s.live (fun s => .next s) := by
    rcases soft c m s with e | e
    · exact .inl (by simp only [State.live, e])
    · exact .inr (by simp only [State.live, e])
  unfold slotOf at h
  split at h
  next c a => cases h; exact ⟨_, .of_local (fun _ _ _ => local_startLoad ..) fun h => absurd h (not_quiet_load a), fun s => .inl rfl⟩
  next c a => cases h; exact ⟨_, .pass _ _, fun s => .inl rfl⟩
  next c => cases h; exact ⟨_, .of_local (fun _ _ _ => local_startVec ..) fun h => absurd h (not_quiet_vec (.inl rfl)), fun s => .inl rfl⟩
  next c => cases h; exact ⟨_, .vec1 _, fun s => .inl rfl⟩
  next c => cases h; exact ⟨_, .vec1 _, fun s => .inl rfl⟩
  next c =>
    cases h
    refine ⟨_, .vec1 _, fun s => ?_⟩
    change execDrain k s = _ ∨ execDrain k s = _
    unfold execDrain State.live
    split
    · dsimp only
      split
      · exact .inr rfl
      · exact .inr rfl
      · exact .inr rfl
      · exact .inl rfl
    · exact .inl rfl
  next c => cases h; exact ⟨_, .vec1 _, fun s => softens k 0 s⟩
  next c => cases h; exact ⟨_, .vec1 _, fun s => softens k 1 s⟩
  next c => cases h; exact ⟨_, .vec1 _, fun s => softens k 2 s⟩
  next c e => cases h; exact ⟨_, .xfer _ _ fun w => 8 * e.val + opf w 6 4, fun s => .inl rfl⟩
  next c e => cases h; exact ⟨_, .release _ _ fun w => 8 * e.val + opf w 6 4, fun s => .inl rfl⟩
  next c e => cases h; exact ⟨_, .thread _ _ e.val, fun s => .inl rfl⟩
  next => cases h; exact ⟨_, .idle .., fun s => .inl rfl⟩
  next => cases h; exact ⟨_, .of_local (fun _ _ _ => local_writeMask ..) fun h => absurd h (not_quiet_ctrl (.inl rfl)), fun s => .inl rfl⟩
  next => cases h; exact ⟨_, .dpre _, fun s => .inl rfl⟩
  next => cases h; exact ⟨_, .pred _, fun s => .inl rfl⟩
  next => cases h; exact ⟨_, .of_local (fun q w _ => local_setFld _ _ (ringReg .RING_MARK (coreDie (ckey k)) q.ring) RING_MARK.VALUE (opf w 63 32)) fun h => absurd h (not_quiet_ctrl (.inr rfl)), fun s => .inl rfl⟩
  next => cases h; exact ⟨_, .endKernel _, fun s => .inl rfl⟩
  next => cases h; exact ⟨_, .flag _ true, fun s => .inl rfl⟩
  next => cases h; exact ⟨_, .flag _ false, fun s => .inl rfl⟩
  next => cases h; exact ⟨_, .idle .., fun s => .inl rfl⟩
  next => cases h; exact ⟨_, .waitClr _, fun s => .inl rfl⟩
  next => cases h; exact ⟨_, .test _, fun s => .inl rfl⟩
  next => cases h; exact ⟨_, .claim _, fun s => .inl rfl⟩
  next => exact absurd h (by simp)

/-- Noting a slot that does not complete its bundle writes no register. -/
theorem State.slotDone_regs (h : s.issued k = some q.slots) (more : setBit q.slots j true ≠ b.present) : (s.slotDone k j b).regs = s.regs := by
  obtain ⟨x, kernel, slots⟩ := Option.map_eq_some_iff.1 h
  unfold State.slotDone
  rw [kernel]
  dsimp only
  rw [slots, if_neg fun e => more (beq_iff_eq.1 e)]
  rfl

theorem State.issued_of_mayIssue (h : s.mayIssue k = some (q, b)) : s.issued k = some q.slots := by
  unfold State.mayIssue at h
  split at h
  · cases h
  · next x kernel =>
    split at h
    · cases h
    · obtain ⟨b', -, e⟩ := Option.map_eq_some_iff.1 h
      cases e
      rw [State.issued, kernel]
      rfl

end Sys2Proof.Machine

open Sys2Proof Sys2Proof.Machine

/-- Settles O36: every operation issues by `SlotIssues.issues`, and an empty or squashed bundle is consumed once it is admitted. -/
theorem sequencerAndSyncOperationsIssue : Obligations.SequencerAndSyncOperationsIssue := by
  unfold Obligations.SequencerAndSyncOperationsIssue
  refine ⟨fun s c q b h => h.issues _, fun s c q b h => h.issues _, fun s c q b h => h.issues _, fun s c q b h => h.issues _, fun s c q b h => h.issues _, fun s c q b h => h.issues _, fun s c q b h => h.issues _,
    fun s c q b h => h.issues _, fun s c q b h => h.issues _, fun s c q b h => h.issues _, fun s c q b h => h.issues _, fun s c q b h => h.issues _, ?squashed, ?empty⟩
  case squashed =>
    intro s c q b live may squashed none sound fresh
    refine State.exec_emptyBundle live may none (State.admission_squashed squashed sound fresh) ?_
    rw [squashed, Bool.true_or, Bool.true_or]
  case empty =>
    intro s c q b live may bare none go
    refine State.exec_emptyBundle live may none go ?_
    rw [Bundle.first_none bare]
    exact Bool.or_true _

/-- Settles O37: whatever a slot operation meets, `slotOf_acts` bounds its effect, and issuing adds what is the core's own. -/
theorem slotOperationsKeepTheRest : Obligations.SlotOperationsKeepTheRest := by
  unfold Obligations.SlotOperationsKeepTheRest
  refine ⟨?frame, ?regs⟩
  case frame =>
    intro c k j op s t slot act
    obtain ⟨eff, effect, acts⟩ := slotOf_acts slot
    have issues (h : t = s.issue (ckey k) j op eff) : Outside s t ∧ ((j = 9 → op ≠ 6) → SameCores s t (ckey k)) := by
      rw [h]
      exact ⟨outside_issue s _ _ _ effect.outside, fun own => (local_issue s _ _ _ _ (effect.cores own)).core⟩
    have stays (h : t = s) : Outside s t ∧ ((j = 9 → op ≠ 6) → SameCores s t (ckey k)) := by
      rw [h]
      exact ⟨.refl s, fun _ _ _ => rfl⟩
    have both : Outside s t ∧ ((j = 9 → op ≠ 6) → SameCores s t (ckey k)) := by
      by_cases live : s.life = .running
      · rcases acts s with e | e
        · rw [e, State.live_run live] at act
          exact issues (Host.Outcome.next.inj act).symm
        · rw [e, State.live_run live] at act
          exact stays (Host.Outcome.next.inj act).symm
      · rcases acts s with e | e
        · rw [e, State.live_of_not_running live _] at act
          exact stays (Host.Outcome.next.inj act).symm
        · rw [e, State.live_of_not_running live _] at act
          exact stays (Host.Outcome.next.inj act).symm
    obtain ⟨o, cores⟩ := both
    exact ⟨o.mem, o.now, o.coreClock, o.life, o.pending, o.reqs, o.ctls, o.welts, o.pools, o.sessions, cores⟩
  case regs =>
    intro c k j op q b s t slot issues admitted more load elem vec ctrl act
    obtain ⟨eff, effect, acts⟩ := slotOf_acts slot
    have live := issues.live
    rcases acts s with e | e
    · have entered : s.entered (ckey k) q b = s := if_pos admitted
      rw [e, issues.issues eff, entered] at act
      obtain ⟨regs, slots⟩ := effect.quiet ⟨load, elem, vec, ctrl⟩ q (b.op j) s
      obtain ⟨-, may, -⟩ := issues
      rw [← Host.Outcome.next.inj act, State.slotDone_regs (slots.trans (State.issued_of_mayIssue may)) more, regs]
    · rw [e, State.live_run live] at act
      rw [← Host.Outcome.next.inj act]
end

section
set_option Elab.async false -- one proof after the other: the whole text stands near the memory limit of the check
/-! Loads, passes, runs and freezes (03 R77-R110); flags (04 R151, R171-R173). -/
namespace Sys2Proof.Machine

variable {s t u : State} {k a : Nat}

/-- What adding the sums of an array's passes leaves: the clocks, the other cores, and the core's other arrays. -/
structure Adds (k a : Nat) (s t : State) : Prop where
  now : t.now = s.now
  coreClock : t.coreClock = s.coreClock
  core : ∀ j, j ≠ k → t.core j = s.core j
  arr : ∀ b, b ≠ a → (t.core k).arr b = (s.core k).arr b

theorem Adds.refl (k a : Nat) (s : State) : Adds k a s s := ⟨rfl, rfl, fun _ _ => rfl, fun _ _ => rfl⟩

theorem Adds.trans (x : Adds k a s t) (y : Adds k a t u) : Adds k a s u :=
  ⟨y.now.trans x.now, y.coreClock.trans x.coreClock, fun j h => (y.core j h).trans (x.core j h), fun b h => (y.arr b h).trans (x.arr b h)⟩

theorem Adds.ite {x y : State} (p : Prop) [Decidable p] (hx : Adds k a s x) (hy : Adds k a s y) : Adds k a s (if p then x else y) := by split <;> assumption

/-- What is no core's own changes no core. -/
theorem Adds.of_local (h : ∀ i, Local i s t) : Adds k a s t :=
  have core (j : Nat) : t.core j = s.core j := (h (j + 1)).core j (Nat.lt_succ_self j).ne
  ⟨(h k).now, (h k).coreClock, fun j _ => core j, fun b _ => congrArg (·.arr b) (core k)⟩

theorem Adds.onCore (s : State) {f : Core → Core} (h : ∀ c b, b ≠ a → (f c).arr b = c.arr b) : Adds k a s (s.onCore k f) :=
  ⟨rfl, rfl, fun _ e => State.core_onCore_ne _ _ e, fun b e => (congrArg (·.arr b) (State.core_onCore_same ..)).trans (h _ b e)⟩

/-- Memory is no part of a core. -/
theorem Adds.withMem (h : Adds k a s t) (m : Memory) : Adds k a s { t with mem := m } := ⟨h.now, h.coreClock, h.core, h.arr⟩

theorem adds_freeze (s : State) (k a : Nat) : Adds k a s (s.freeze k) := by
  unfold State.freeze
  split
  · exact .refl ..
  · have stopped : Adds k a s (s.onCore k fun c => { c with freezeAt := some s.coreClock }) := .onCore s fun _ _ _ => rfl
    exact stopped.trans (.of_local fun i => (local_bump ..).trans (local_bump ..))

theorem adds_coreEvent (s : State) (k a buf row bundle map : Nat) : Adds k a s (s.coreEvent k buf row bundle map) := by
  unfold State.coreEvent State.markKernel
  dsimp only
  refine Adds.trans (.of_local fun i => Local.trans ?_ (local_raise _ i _ _)) (.onCore _ fun _ _ _ => rfl)
  split
  · exact ((local_bump ..).trans (local_record ..)).trans (local_bump ..)
  · exact (local_bump ..).trans (local_record ..)

theorem adds_readEntries (s : State) (k a : Nat) (p : PassRun) (m : Nat) : Adds k a s (s.readEntries k a p m).1 := by
  have read (row : Nat) (ws : Nat → Bool) : Adds k a s (s.readRaw k 1 row ws).s := .of_local fun i => local_readRaw ..
  unfold State.readEntries
  generalize ((if bitAt p.halves 0 then p.words m 0 else []) ++ if bitAt p.halves 1 then p.words m 1 else []) = ws
  dsimp only
  split
  · exact .refl ..
  · have corrected (r : OwnRead) (h : Adds k a s r.s) : Adds k a s (if r.corr then r.s.freeze k else r.s) := .ite _ (h.trans (adds_freeze ..)) h
    exact .ite _ ((corrected _ (read ..)).trans (adds_coreEvent ..)) (corrected _ (read ..))

theorem adds_wrote (s : State) (k a row : Nat) (ws : Nat → Bool) : Adds k a s (s.wrote row ws) := by
  unfold State.wrote
  split
  · exact .ite _ ((Adds.of_local fun i => local_fired s i).withMem _) (.refl ..)
  · exact .refl ..

theorem adds_poisonSlot (s : State) (k a slot h : Nat) : Adds k a s (s.poisonSlot k slot h) := by
  unfold State.poisonSlot
  have poisoned : Adds k a s (s.onCore k fun c => { c with slotPoison := setBit c.slotPoison (2 * slot + h) true }) := .onCore s fun _ _ _ => rfl
  exact .ite _ (.refl ..) (poisoned.withMem _)

theorem adds_passHalf (s : State) (k a : Nat) (p : PassRun) (m h : Nat) (xs : List F32) (poisoned : Bool) : Adds k a s (s.passHalf k p m h xs poisoned) := by
  have cleared (c : Prop) [Decidable c] : Adds k a s (if c then s.onCore k (fun c => { c with slotPoison := setBit c.slotPoison (2 * p.slot + h) false }) else s) :=
    .ite _ (.onCore s fun _ _ _ => rfl) (.refl ..)
  unfold State.passHalf
  dsimp only
  exact .ite _ (.refl ..) (.ite _ (adds_poisonSlot ..) (.ite _ (cleared _) (((cleared _).withMem _).trans (adds_wrote ..))))

theorem adds_addVector (s : State) (k a : Nat) (p : PassRun) (x : PassSums) : Adds k a s (s.addVector k a p x).1 := by
  unfold State.addVector
  dsimp only
  have lower (c : Prop) [Decidable c] (v : State) (h : Adds k a s v) (p : PassRun) (n : Nat) (b : Bool) : Adds k a s (if c then v.passHalf k p x.vec n (if n = 0 then x.lower else x.upper) b else v) :=
    .ite _ (h.trans (adds_passHalf ..)) h
  exact lower _ _ (lower _ _ (adds_readEntries ..) _ 0 _) _ 1 _

theorem adds_addPass (s : State) (k a t : Nat) (p : PassRun) : Adds k a s (s.addPass k a t p) := by
  unfold State.addPass
  dsimp only
  refine Adds.trans ?_ (.onCore _ fun c b e => Core.arr_setArr_ne _ _ e)
  exact List.foldlRecOn (motive := fun q : State × PassRun => Adds k a s q.1) _ _ (.refl ..) fun q h x _ => h.trans (adds_addVector ..)

theorem adds_addDue (s : State) (k a half : Nat) : Adds k a s (s.addDue k a half) := by
  unfold State.addDue
  exact List.foldlRecOn (motive := Adds k a s) _ _ (.refl ..) fun u h p _ => h.trans (adds_addPass ..)

end Sys2Proof.Machine

open Sys2Proof Sys2Proof.Machine

/-- A kernel that has ended while a bundle of it is still admitted. -/
def admittedAtEnd : Kernel :=
  { ring := 0, lease := 0, startAt := 0, idx := 0, pos := 0, high := 0, fbase := 0, fetched := [], loops := [], pred := false, window := 0, squash := false, slots := 0, admitted := true, lastIssue := none, prefixLen := none,
    ended := true, notify := false, integrity := false, refusal := none, stopStatus := none, stopped := false, dump := none, dumped := 0, freeAt := 0, waitSince := none }

/-- The unit after reset, but for that kernel on core 0 of die 0. -/
def admittedAtEndState : State := State.reset.onCore 0 fun c => { c with kernel := some admittedAtEnd }

/-- Refutes O40: a kernel is over only where no bundle of it is admitted, which its completion clause does not ask for: in `admittedAtEndState` the kernel stays. -/
theorem not_kernelsStartFetchAndComplete : ¬ Obligations.KernelsStartFetchAndComplete := by
  unfold Obligations.KernelsStartFetchAndComplete
  rintro ⟨-, -, -, -, completes, -⟩
  have live : admittedAtEndState.life = .running := rfl
  have kernel : (admittedAtEndState.core (ckey ⟨0, 0⟩)).kernel = some admittedAtEnd := rfl
  have notOver : admittedAtEndState.kernelOver (ckey ⟨0, 0⟩) admittedAtEnd = false := rfl
  have stays : exec (.kernelComplete ⟨0, 0⟩) admittedAtEndState = .next admittedAtEndState := by
    change execKernelComplete ⟨0, 0⟩ admittedAtEndState = _
    rw [execKernelComplete, State.live_run live]
    dsimp only
    rw [kernel]
    dsimp only
    rw [notOver]
    rfl
  obtain ⟨t, act, gone, -⟩ := completes admittedAtEndState ⟨0, 0⟩ admittedAtEnd live kernel (by decide) rfl rfl (by decide) (by decide)
  rw [← Host.Outcome.next.inj (stays.symm.trans act), kernel] at gone
  nomatch gone

/-- Settles O38: `adds_addDue` bounds what the due sums change; each command then has its own effect where it is due. -/
theorem arraysCompleteAndRelease : Obligations.ArraysCompleteAndRelease := by
  unfold Obligations.ArraysCompleteAndRelease
  have frozen {s : State} {k : Nat} (h : s.frozen k = false) : ¬s.frozen k = true := by simp [h]
  refine ⟨?load, ?loaded, ?vector, ?release, ?adds, ?none, ?row, ?freeze⟩
  case load =>
    intro s c ma h l live thawed due
    change execWldComplete c ma h s = _
    rw [execWldComplete, State.live_run live]
    refine (if_neg (frozen thawed)).trans ?_
    rw [due]
  case loaded =>
    refine fun m l => ⟨rfl, rfl, rfl, fun x h => ?_, fun x h => ?_, fun h => ?_, fun h => ?_⟩
    all_goals
      unfold MatArray.loaded
      rw [h]
      rfl
  case vector =>
    intro s w c ma h p live thawed added due
    change execPassVector c ma h s = _
    rw [execPassVector, State.live_run live]
    refine (if_neg (frozen thawed)).trans ?_
    dsimp only
    rw [added, due]
  case release =>
    intro s w c ma h p live thawed added due
    refine ⟨w.onCore (ckey c) (fun x => x.setArr ma.val { x.arr ma.val with passes := (x.arr ma.val).passes.erase p }), ?_, ?_, fun j e => State.core_onCore_ne _ _ e, rfl, rfl⟩
    · change execPassRelease c ma h s = _
      rw [execPassRelease, State.live_run live]
      refine (if_neg (frozen thawed)).trans ?_
      dsimp only
      rw [added, due]
    · rw [State.core_onCore_same, Core.arr_setArr_same]
  case adds => exact fun s k a half => have h := adds_addDue s k a half; ⟨h.core, h.arr, h.now, h.coreClock⟩
  case none =>
    intro s k a half idle
    unfold State.addDue
    rw [idle]
    rfl
  case row =>
    intro s c pipe v live thawed due
    have act : ∃ f, exec (.vecRowWrite c pipe) s = .next ((s.vecRow (ckey c) v).1.onCore (ckey c) f) := by
      change ∃ f, execVecRowWrite c pipe s = _
      rw [execVecRowWrite, State.live_run live]
      dsimp only
      rw [if_neg (frozen thawed), due]
      exact ⟨_, rfl⟩
    obtain ⟨f, act⟩ := act
    exact ⟨_, act, rfl, rfl⟩
  case freeze =>
    intro s c n live froze past
    change execFreezeEnd c s = _
    rw [execFreezeEnd, State.live_run live]
    dsimp only
    rw [froze]
    exact if_neg (Nat.not_le.2 past)

/-- Settles O39: what `State.dueFlag` finds is sent, held at the crossing or applied, by its `ready` and its target; a wait past WAIT_TMO is refused. -/
theorem flagsAreDeliveredAndTimeOut : Obligations.FlagsAreDeliveredAndTimeOut := by
  unfold Obligations.FlagsAreDeliveredAndTimeOut
  have acts {s : State} {x y : CoreId} {o : FlagOp} (live : s.life = .running) (due : s.dueFlag (ckey x) (ckey y) = some o) :
      exec (.flagDelivery x y) s = if o.ready.isNone then .next { (s.delivered o).1 with flagOps := s.flagOps.map (fun z => if z == o then (s.delivered o).2 else z) }
        else if s.frozen o.dst then .next (({ s with flagOps := s.flagOps.erase o } : State).onCore o.dst (fun c => { c with crossing := c.crossing ++ [.flag o.flag o.set] }))
        else .next (({ s with flagOps := s.flagOps.erase o } : State).onCore o.dst (fun c => c.applyFlag s.coreClock o.flag o.set)) := by
    change execFlagDelivery x y s = _
    rw [execFlagDelivery, State.live_run live, due]
  refine ⟨?sent, ?landed, ?set, ?held, ?late⟩
  case sent =>
    intro s x y o live due fresh
    refine (acts live due).trans ((if_pos ?_).trans rfl)
    rw [fresh]
    rfl
  case landed =>
    intro s x y o n live due ready thawed
    refine (acts live due).trans ((if_neg ?_).trans (if_neg ?_))
    · simp [ready]
    · simp [thawed]
  case set =>
    refine fun c n f => ⟨(mem_sins ..).2 (.inl rfl), fun g e => (mem_sins ..).trans (or_iff_right e)⟩
  case held =>
    intro s x y o n live due ready frozen
    refine (acts live due).trans ((if_neg ?_).trans (if_pos frozen))
    simp [ready]
  case late =>
    intro s c q b n live may since waits least most late
    change execSyncWaitTimeout c s = _
    rw [execSyncWaitTimeout, State.live_run live]
    dsimp only
    rw [may]
    dsimp only
    rw [since]
    refine if_neg ?_
    rw [waits]
    have some : (s.fld (ringReg .RING_CFG (coreDie (ckey c)) q.ring) RING_CFG.WAIT_TMO == 0) = false := beq_eq_false_iff_ne.2 (Nat.pos_iff_ne_zero.1 least)
    have most' : ¬16 < s.fld (ringReg .RING_CFG (coreDie (ckey c)) q.ring) RING_CFG.WAIT_TMO := Nat.not_lt.2 most
    rw [some, decide_eq_false most', decide_eq_false (Nat.not_lt.2 late)]
    decide
end

section
set_option Elab.async false -- one proof after the other: the whole text stands near the memory limit of the check
/-! A store whose near row names a bank past the core's own (06 R239): the count of the errors it meets is the unit's address. -/
namespace Sys2Proof.Machine

/-- The bank number whose ROW_ECC_CNT has the address of UNIT_ADDR: a bank of core 0 would be below 22. -/
def wildBank : Nat := (unitAddr.addr - (coreReg .ROW_ECC_CNT 0 0).addr) / 8

/-- A store of one row to unit 5. -/
def wildStore : Xfer :=
  { id := 7, handle := 0, d := { unit := 5, rate := 0, far := 0, ext := [1, 1, 1, 1], stride := [0, 0, 0, 0], nearBuf := 2, nearRow := 0, halfRows := 1, dir := 1, stack := 0, cache := false },
    total := 1, first := 0, formed := 0, done := 0, handed := 0, bundle := 0, start := 0, upTo := 0, beyond := [] }

/-- Its half, which is read out from a row of `wildBank`. -/
def wildHalf : HalfFill := { xfer := 7, buf := 2, row := 512 * wildBank, n := 1, st := 3, got := 0, rel := none, side := 0, size := 0, low := none }

/-- The request the store forms next. -/
def wildReq : NextReq := ⟨{ wildHalf with got := 1 }, false, 512 * wildBank, 0, none⟩

/-- Unit 5, core 0 of which runs a kernel with that store, and a word of its row uncorrectable. -/
def wildState : State :=
  let s := (State.reset.setFld unitAddr UNIT_ADDR.ADDRESS 5).onCore 0 fun c => { c with kernel := some { admittedAtEnd with ended := false, admitted := false }, chans := [(0, ⟨some wildStore, none, [wildHalf], none, false⟩)] }
  { s with mem := { s.mem with damage := [⟨bufRow 0 2 (512 * wildBank), 0, [(0, 1), (1, 1)]⟩] } }

end Sys2Proof.Machine

open Sys2Proof Sys2Proof.Machine

/-- Refutes O41: forming a store's request reads the row out first. In `wildState` the uncorrectable word it meets is counted in the register of UNIT_ADDR, so that the row is another unit's by the time its request is formed, and no
request joins those of this unit's memory. -/
theorem not_streamsRequestLandAndComplete : ¬ Obligations.StreamsRequestLandAndComplete := by
  unfold Obligations.StreamsRequestLandAndComplete
  rintro ⟨request, -⟩
  have free (e : Nat) : (wildState.core 0).engineFree (wildState.ctime 0) e = true := rfl
  obtain ⟨t, m, l, act, reqs, -⟩ := request wildState wildState ⟨0, 0⟩ 0 { admittedAtEnd with ended := false, admitted := false } 0 0 wildStore wildReq rfl rfl rfl (by decide) rfl (free 0) (fun _ => free 2) rfl rfl
  have none : (outcomeState wildState (exec (.streamRequest ⟨0, 0⟩ 0) wildState)).reqs = [] := by decide
  rw [act] at none
  exact absurd (reqs.symm.trans none) (by simp)
end

section
set_option Elab.async false -- one proof after the other: the whole text stands near the memory limit of the check
/-! What reading rows can change, of every kind of memory (03 R101-R110, 05 R194-R196, 07 R271-R284): error counts and records, what is noted of them, and at a core its freeze and its kernel's integrity. -/
namespace Sys2Proof.Machine

variable {s t u : State} {k : Nat}

/-- A core that has met errors. -/
def Core.met (c : Core) (f : Option Nat) (b : Bool) : Core := { c with freezeAt := f, kernel := c.kernel.map (fun q => { q with integrity := q.integrity || b }) }

theorem Core.met_refl (c : Core) : c = c.met c.freezeAt false := by
  unfold Core.met
  simp only [Bool.or_false]
  exact congrArg (fun q => { c with kernel := q }) (Option.map_id' ..).symm

theorem Core.met_met (c : Core) (f g : Option Nat) (a b : Bool) : (c.met f a).met g b = c.met g (a || b) := by
  simp only [Core.met, Option.map_map, Function.comp_def, Bool.or_assoc]

/-- Nothing differs but what a read of rows may change. -/
def Met (s t : State) : Prop :=
  (∃ g n w i u x c e h p l a r o, t = { s with regs := g, latest := n, fresh := w, inject := i, upsets := u, uncRows := x, cores := c, sessions := e, hostWire := h, pulses := p, rawLines := l, alertSince := a, rrSince := r, roundRobin := o }) ∧
    ∀ k, (∃ f b, t.core k = (s.core k).met f b) ∧ t.ctime k = s.ctime k

theorem Met.of_cores
    (h : ∃ g n w i u x e h p l a r o, t = { s with regs := g, latest := n, fresh := w, inject := i, upsets := u, uncRows := x, sessions := e, hostWire := h, pulses := p, rawLines := l, alertSince := a, rrSince := r, roundRobin := o }) : Met s t := by
  obtain ⟨g, n, w, i, u, x, e, h, p, l, a, r, o, rfl⟩ := h
  exact ⟨⟨g, n, w, i, u, x, s.cores, e, h, p, l, a, r, o, rfl⟩, fun k => ⟨⟨_, _, Core.met_refl _⟩, rfl⟩⟩

theorem Met.refl (s : State) : Met s s := .of_cores ⟨s.regs, s.latest, s.fresh, s.inject, s.upsets, s.uncRows, s.sessions, s.hostWire, s.pulses, s.rawLines, s.alertSince, s.rrSince, s.roundRobin, rfl⟩

theorem Met.trans (a : Met s t) (b : Met t u) : Met s u := by
  obtain ⟨⟨g, n, w, i, v, x, c, e, h, p, l, y, r, o, rfl⟩, a⟩ := a
  obtain ⟨⟨g', n', w', i', v', x', c', e', h', p', l', y', r', o', rfl⟩, b⟩ := b
  refine ⟨⟨g', n', w', i', v', x', c', e', h', p', l', y', r', o', rfl⟩, fun k => ?_⟩
  obtain ⟨⟨f, d, core⟩, time⟩ := a k
  obtain ⟨⟨f', d', core'⟩, time'⟩ := b k
  exact ⟨⟨f', d || d', by rw [core', core, Core.met_met]⟩, time'.trans time⟩

theorem Met.ite {a b : State} (p : Prop) [Decidable p] (x : Met s a) (y : Met s b) : Met s (if p then a else b) := by split <;> assumption

theorem Met.foldl {α : Type} {f : State → α → State} (l : List α) (h : ∀ t x, Met t (f t x)) : Met s (l.foldl f s) := List.foldlRecOn (motive := Met s) _ _ (.refl s) fun t a x _ => a.trans (h t x)

theorem Met.of_regs (g : Tab Word) (n : Tab (Nat × Word)) : Met s { s with regs := g, latest := n } := .of_cores ⟨g, n, s.fresh, s.inject, s.upsets, s.uncRows, s.sessions, s.hostWire, s.pulses, s.rawLines, s.alertSince, s.rrSince, s.roundRobin, rfl⟩

theorem Aside.met (h : Aside s t) : Met s t := by
  obtain ⟨⟨g, n, e, w, p, l, a, r, o, rfl⟩, -⟩ := h
  exact .of_cores ⟨g, n, s.fresh, s.inject, s.upsets, s.uncRows, e, w, p, l, a, r, o, rfl⟩

/-! What a read leaves. -/

section
variable (h : Met s t)
include h
theorem Met.mem : t.mem = s.mem := by obtain ⟨⟨_, _, _, _, _, _, _, _, _, _, _, _, _, _, rfl⟩, -⟩ := h; rfl
theorem Met.now : t.now = s.now := by obtain ⟨⟨_, _, _, _, _, _, _, _, _, _, _, _, _, _, rfl⟩, -⟩ := h; rfl
theorem Met.reqs : t.reqs = s.reqs := by obtain ⟨⟨_, _, _, _, _, _, _, _, _, _, _, _, _, _, rfl⟩, -⟩ := h; rfl
theorem Met.ctls : t.ctls = s.ctls := by obtain ⟨⟨_, _, _, _, _, _, _, _, _, _, _, _, _, _, rfl⟩, -⟩ := h; rfl
theorem Met.life : t.life = s.life := by obtain ⟨⟨_, _, _, _, _, _, _, _, _, _, _, _, _, _, rfl⟩, -⟩ := h; rfl
theorem Met.patrol : t.patrol = s.patrol := by obtain ⟨⟨_, _, _, _, _, _, _, _, _, _, _, _, _, _, rfl⟩, -⟩ := h; rfl
theorem Met.ctime (k : Nat) : t.ctime k = s.ctime k := (h.2 k).2
theorem Met.rowAt (a : Nat) : t.rowAt a = s.rowAt a := by obtain ⟨⟨_, _, _, _, _, _, _, _, _, _, _, _, _, _, rfl⟩, -⟩ := h; rfl
theorem Met.core (k : Nat) : ∃ f b, t.core k = (s.core k).met f b := (h.2 k).1
end

/-! What counts and records errors. -/

theorem State.met_setReg (s : State) (r : Reg) (v : Word) : Met s (s.setReg r v) := .of_regs _ _
theorem State.met_bump (s : State) (r : Reg) (f : Fld) (n : Nat) : Met s (s.bump r f n) := .of_regs _ _
theorem State.met_tally (s : State) (r : Reg) (f : Fld) (n : Nat) : Met s (s.tally r f n) := .of_regs _ _
theorem State.met_setFld (s : State) (r : Reg) (f : Fld) (n : Nat) : Met s (s.setFld r f n) := .of_regs _ _
theorem State.met_noteFld (s : State) (r : Reg) (f : Fld) (n : Nat) : Met s (s.noteFld r f n) := .of_regs _ _
theorem State.met_setW1c (s : State) (r : Reg) (f : Fld) : Met s (s.setW1c r f) := .of_regs _ _
theorem State.met_noteCycle (s : State) (r : Reg) (w : Nat) : Met s (s.noteCycle r w) := .of_regs _ _
theorem State.met_charge (s : State) (n w v : Nat) : Met s (s.charge n w v) := .of_regs _ _
theorem State.met_raise (s : State) (ic x : Nat) : Met s (s.raise ic x) := (s.aside_raise ic x).met

theorem State.met_chargeEvent (s : State) (l : Option Nat) : Met s (s.chargeEvent l) := by
  cases l with
  | none => exact .refl s
  | some n => exact s.met_charge n 45 1

theorem State.met_noteUnc (s : State) (row unc : Nat) : Met s (s.noteUnc row unc) := by
  unfold State.noteUnc
  exact .ite _ (.refl s) (.of_cores ⟨_, _, _, _, _, _, _, _, _, _, _, _, _, rfl⟩)

theorem State.met_record (s : State) (e : Reg) (valid count : Fld) (w : Nat) (more : List (Reg × Nat)) : Met s (s.record e valid count w more) := by
  have written : Met s (if s.fld e valid == 1 then s else more.foldl (fun s p => s.setReg p.1 (BitVec.ofNat 64 p.2)) (s.putRecord e count w)) :=
    .ite _ (.refl s) ((s.met_setReg ..).trans (.foldl more fun t p => t.met_setReg ..))
  unfold State.record
  dsimp only
  exact .ite _ ((written.trans (State.met_noteCycle ..)).trans (.foldl more fun t p => t.met_noteCycle ..)) written

theorem State.met_fired (s : State) : Met s s.fired := by
  have off : Met s { s with inject := none } := .of_cores ⟨_, _, _, _, _, _, _, _, _, _, _, _, _, rfl⟩
  exact ((off.trans (State.met_setFld ..)).trans (State.met_bump ..)).trans (State.met_setW1c ..)

theorem Met.withFresh (h : Met s t) (n : Nat) : Met s { t with fresh := n } := h.trans (.of_cores ⟨_, _, _, _, _, _, _, _, _, _, _, _, _, rfl⟩)
theorem Met.withUpsets (h : Met s t) (l : List Upset) : Met s { t with upsets := l } := h.trans (.of_cores ⟨_, _, _, _, _, _, _, _, _, _, _, _, _, rfl⟩)

/-- A change of one core that keeps its time. -/
theorem State.met_onCore (s : State) (k : Nat) (g : Core → Core) (h : ∃ f b, g (s.core k) = (s.core k).met f b) (time : (g (s.core k)).time s.coreClock = (s.core k).time s.coreClock) : Met s (s.onCore k g) := by
  refine ⟨⟨s.regs, s.latest, s.fresh, s.inject, s.upsets, s.uncRows, _, s.sessions, s.hostWire, s.pulses, s.rawLines, s.alertSince, s.rrSince, s.roundRobin, rfl⟩, fun j => ?_⟩
  by_cases e : j = k
  · subst e
    rw [State.ctime, State.core_onCore_same]
    exact ⟨h, time⟩
  · rw [State.ctime, State.core_onCore_ne _ _ e]
    exact ⟨⟨_, _, Core.met_refl _⟩, rfl⟩

theorem State.met_markKernel (s : State) (k : Nat) : Met s (s.markKernel k) := by
  refine s.met_onCore k _ ⟨(s.core k).freezeAt, true, ?_⟩ rfl
  unfold Core.met
  simp only [Bool.or_true]

/-- A freeze stops the core at the time it has. -/
theorem State.met_freeze (s : State) (k : Nat) : Met s (s.freeze k) := by
  unfold State.freeze
  split
  · exact .refl s
  · next running =>
    have thawed : (s.core k).freezeAt = none := Option.not_isSome_iff_eq_none.1 running
    have stopped : Met s (s.onCore k fun c => { c with freezeAt := some s.coreClock }) := by
      refine s.met_onCore k _ ⟨some s.coreClock, false, ?_⟩ ?_
      · exact congrArg (fun c : Core => { c with freezeAt := some s.coreClock }) (Core.met_refl _)
      · simp only [Core.time, thawed]
    exact (stopped.trans (State.met_bump ..)).trans (State.met_bump ..)

theorem State.met_coreEvent (s : State) (k buf row bundle map : Nat) : Met s (s.coreEvent k buf row bundle map) := by
  have charged (u : State) (h : Met s u) : Met s (match u.holder k with | some n => u.charge n 45 1 | none => u) := by
    split
    · exact h.trans (State.met_charge ..)
    · exact h
  unfold State.coreEvent
  exact ((charged _ ((s.met_bump ..).trans (State.met_record ..))).trans (State.met_raise ..)).trans (State.met_markKernel ..)

/-! Reads. -/

theorem State.met_readWords (s : State) (row : Nat) (ws : Nat → Bool) : Met s (s.readWords row ws).1 := by
  unfold State.readWords
  dsimp only
  split
  · exact .ite _ s.met_fired (.refl s)
  · exact .refl s

/-- What is uncorrectable reads as a fresh value. -/
theorem Met.freshened (h : Met s t) (unc : Nat) : Met s (if unc == 0 then t else { t with fresh := t.fresh + 1 }) := .ite _ h (h.withFresh _)

theorem State.met_countCoreEcc (s : State) (k buf row corr unc : Nat) : Met s (s.countCoreEcc k buf row corr unc) := by
  unfold State.countCoreEcc
  exact .ite _ (.refl s) (((((s.met_noteUnc ..).trans (State.met_tally ..)).trans (State.met_tally ..)).trans (State.met_setFld ..)).trans (State.met_noteFld ..))

theorem State.met_countSdmEcc (s : State) (d row corr unc : Nat) : Met s (s.countSdmEcc d row corr unc) := by
  unfold State.countSdmEcc
  exact .ite _ (.refl s) (((((s.met_noteUnc ..).trans (State.met_tally ..)).trans (State.met_tally ..)).trans (State.met_setFld ..)).trans (State.met_noteFld ..))

theorem State.met_countDram (s : State) (row corr unc : Nat) : Met s (s.countDram row corr unc) := by
  unfold State.countDram
  exact .ite _ (.refl s) (((s.met_noteUnc ..).trans (State.met_tally ..)).trans (State.met_tally ..))

theorem State.met_dramEvent (s : State) (row : Nat) (l : Option Nat) : Met s (s.dramEvent row l) := by
  unfold State.dramEvent
  exact (((s.met_bump ..).trans (State.met_chargeEvent ..)).trans (State.met_record ..)).trans (State.met_raise ..)

theorem State.met_readRaw (s : State) (k buf row : Nat) (ws : Nat → Bool) : Met s (s.readRaw k buf row ws).s := ((s.met_readWords ..).freshened _).trans (State.met_countCoreEcc ..)

theorem State.met_readOwnWords (s : State) (k buf row bundle : Nat) (ws : Nat → Bool) : Met s (s.readOwnWords k buf row bundle ws).1 := by
  have frozen : Met s (if (s.readRaw k buf row ws).corr then (s.readRaw k buf row ws).s.freeze k else (s.readRaw k buf row ws).s) := .ite _ ((s.met_readRaw ..).trans (State.met_freeze ..)) (s.met_readRaw ..)
  unfold State.readOwnWords
  exact .ite _ (frozen.trans (State.met_coreEvent ..)) frozen

theorem State.met_readCells (s : State) (row : Nat) (ws : Nat → Bool) : Met s (s.readCells row ws).1 := by
  unfold State.readCells
  dsimp only
  split
  · exact s.met_readWords row ws
  · split
    · exact s.met_readWords row ws
    · next x _ _ =>
      have erased : Met s { (s.readWords row ws).1 with upsets := (s.readWords row ws).1.upsets.erase x } := (s.met_readWords row ws).withUpsets _
      have counted (c : Prop) [Decidable c] : Met s (if c then State.tally { (s.readWords row ws).1 with upsets := (s.readWords row ws).1.upsets.erase x } (memc .MEMC_ECC_CNT (ctlOf row).1 (ctlOf row).2 (s.physPc row)) MEMC_ECC_CNT.ODECC 1
        else { (s.readWords row ws).1 with upsets := (s.readWords row ws).1.upsets.erase x }) := .ite _ (erased.trans (State.met_tally ..)) erased
      split
      · exact counted _
      · exact counted _

theorem State.met_readDram (s : State) (row : Nat) (l : Option Nat) : Met s (s.readDram row l).s := by
  have counted := ((s.met_readCells row fun _ => true).freshened (s.readCells row fun _ => true).2.unc).trans (State.met_countDram _ row (s.readCells row fun _ => true).2.corr (s.readCells row fun _ => true).2.unc)
  unfold State.readDram
  exact .ite _ (counted.trans (State.met_dramEvent ..)) counted

theorem State.met_readSdm (s : State) (d row : Nat) (l : Option Nat) : Met s (s.readSdm d row l).1 := by
  have counted := ((s.met_readWords (sdmRow d + row) fun _ => true).freshened (s.readWords (sdmRow d + row) fun _ => true).2.unc).trans
    (State.met_countSdmEcc _ d row (s.readWords (sdmRow d + row) fun _ => true).2.corr (s.readWords (sdmRow d + row) fun _ => true).2.unc)
  unfold State.readSdm
  dsimp only
  split
  · exact counted
  · exact (((counted.trans (State.met_bump ..)).trans (State.met_chargeEvent ..)).trans (State.met_record ..)).trans (State.met_raise ..)

theorem State.met_readCoreFar (s : State) (k row : Nat) : Met s (s.readCoreFar k row).1 := by
  have counted := ((s.met_readWords (bufRow k 2 row) fun _ => true).freshened (s.readWords (bufRow k 2 row) fun _ => true).2.unc).trans
    (State.met_countCoreEcc _ k 2 row (s.readWords (bufRow k 2 row) fun _ => true).2.corr (s.readWords (bufRow k 2 row) fun _ => true).2.unc)
  unfold State.readCoreFar
  exact .ite _ counted (counted.trans (State.met_freeze ..))

theorem State.met_readFar (s : State) (row : Nat) (l : Option Nat) : Met s (s.readFar row l).s := by
  unfold State.readFar
  split
  · exact s.met_readDram row l
  · split
    · exact s.met_readSdm ..
    · exact s.met_readCoreFar ..

end Sys2Proof.Machine
end

section
set_option Elab.async false -- one proof after the other: the whole text stands near the memory limit of the check
/-! Pieces of gathers and scatters (06 R260-R266). -/
namespace Sys2Proof.Machine

variable {s v : State} {k t lease : Nat} {a w : AwlThread} {rd done : Bool} {q : Kernel}

/-- A request sent joins the others, with the time of its arrival; of the rest its number and the perturbation of its way differ. -/
theorem State.submit_eq (s : State) (r : MemReq) : ∃ n p x e, s.submit r = { s with nextId := n, perturbed := p, reqs := s.reqs ++ [{ r with reached := x, eligible := x, extra := e }] } := by
  have crossed (u : State) : ∃ p x, (if r.inner.isSome then (r.reached, u) else u.crossings r.owner (pointDie r.point) r.reached) = (x, { u with perturbed := p }) := by
    split
    · exact ⟨u.perturbed, _, rfl⟩
    · unfold State.crossings State.ownCrossing
      cases r.owner.crossing with
      | none =>
        obtain ⟨p, e⟩ := u.bridged_eq r.owner.die (pointDie r.point) r.reached
        exact ⟨p, _, Prod.ext rfl e⟩
      | some x =>
        obtain ⟨p, e⟩ := u.cross_eq r.owner.die x.1 (2 * x.2 + Bool.toNat false) r.reached
        obtain ⟨p', e'⟩ := State.bridged_eq { u with perturbed := p } r.owner.die (pointDie r.point) (u.cross r.owner.die x.1 (2 * x.2 + Bool.toNat false) r.reached).1
        dsimp only
        rw [e]
        exact ⟨p', _, Prod.ext rfl e'⟩
  have delayed (u : State) : ∃ p e, u.memDelay r.point = (e, { u with perturbed := p }) := by
    unfold State.memDelay
    split
    · obtain ⟨p, e⟩ := u.perturb_eq ..
      exact ⟨p, _, Prod.ext rfl e⟩
    · exact ⟨u.perturbed, _, rfl⟩
  obtain ⟨p, x, way⟩ := crossed { s with nextId := s.nextId + 1 }
  obtain ⟨p', e, delay⟩ := delayed { s with nextId := s.nextId + 1, perturbed := p }
  refine ⟨s.nextId + 1, p', x, e, ?_⟩
  unfold State.submit
  dsimp only at way ⊢
  rw [way]
  dsimp only
  rw [delay]

theorem State.reqs_submit (s : State) (r : MemReq) : ∃ x e, (s.submit r).reqs = s.reqs ++ [{ r with reached := x, eligible := x, extra := e }] := by
  obtain ⟨n, p, x, e, h⟩ := s.submit_eq r
  exact ⟨x, e, by rw [h]⟩

theorem State.ctime_submit (s : State) (r : MemReq) (k : Nat) : (s.submit r).ctime k = s.ctime k := by
  obtain ⟨n, p, x, e, h⟩ := s.submit_eq r
  rw [h]
  rfl

theorem State.ctime_book (s : State) (e : Engine) (die i row : Nat) (narrow : Bool) (l d : Option Nat) (k : Nat) : (s.book e die i row narrow l d).ctime k = s.ctime k := by
  unfold State.book
  exact s.ctime_submit ..

/-- A change of a core that keeps what its clock goes by keeps its time. -/
theorem State.ctime_onCore (s : State) (k j : Nat) (f : Core → Core) (h : ∀ c, (f c).freezeAt = c.freezeAt ∧ (f c).frozen = c.frozen) : (s.onCore k f).ctime j = s.ctime j := by
  by_cases e : j = k
  · obtain ⟨freeze, frozen⟩ := h (s.core k)
    rw [e, State.ctime, State.core_onCore_same, Core.time, freeze, frozen]
    rfl
  · rw [State.ctime, State.core_onCore_ne _ _ e]
    rfl

theorem State.ctime_awlIndices (s : State) (k t lease : Nat) (a : AwlThread) : (s.awlIndices k t lease a).1.ctime k = s.ctime k := by
  unfold State.awlIndices
  dsimp only
  split
  · rfl
  · next row _ =>
    split
    · exact (s.met_readOwnWords ..).ctime k
    · have asked (i : Nat) (n : Bool) (l d : Option Nat) : ((s.readFar row (some lease)).s.book .index (coreDie k) i row n l d).ctime k = s.ctime k := (State.ctime_book ..).trans ((s.met_readFar ..).ctime k)
      dsimp only
      split
      · exact ((State.met_markKernel _ k).ctime k).trans (asked ..)
      · exact asked ..

theorem State.ctime_indicesHeld (h : s.indicesHeld k t lease a = (v, w, rd, done)) : v.ctime k = s.ctime k := by
  unfold State.indicesHeld at h
  split at h
  · obtain ⟨rfl, -⟩ := Prod.ext_iff.1 h
    exact s.ctime_awlIndices k t lease a
  · obtain ⟨rfl, -⟩ := Prod.ext_iff.1 h
    rfl

/-- The engine serves its thread: the entry at hand where its index values are in hand, and nothing else where they are still to come. -/
theorem State.exec_awlPieceRequest {c : CoreId} (live : s.life = .running) (kernel : (s.core (ckey c)).kernel = some q) (thread : s.awlThread (ckey c) = some t) (thawed : s.frozen (ckey c) = false)
    (free : (s.core (ckey c)).engineFree (s.ctime (ckey c)) 6 = true) (at' : tget? (s.core (ckey c)).awl t = some a) (reach : s.indexReach a = true) (held : s.indicesHeld (ckey c) t q.lease a = (v, w, rd, done)) :
    exec (.awlPieceRequest c) s = .next (if done then v.awlEntry (ckey c) t q.lease w rd else (v.awlSettle (ckey c) t w).onCore (ckey c) (fun x => x.formed (s.ctime (ckey c)) 6)) := by
  change execAwlPieceRequest c s = _
  rw [execAwlPieceRequest, State.live_run live]
  dsimp only
  rw [kernel, thread]
  dsimp only
  rw [thawed, free, at']
  dsimp only
  rw [reach]
  unfold State.indicesHeld at held
  cases empty : a.ixs.isEmpty with
  | false =>
    rw [empty] at held
    cases held
    rfl
  | true =>
    rw [empty] at held
    cases held
    cases (s.readIndices (ckey c) t q.lease a).2.2 <;> rfl

/-- The request that a thread's entry forms for the piece at `p`, which lies in `row`. -/
structure IsPiece (m : MemReq) (k t lease row p : Nat) (a : AwlThread) : Prop where
  row : m.row = row
  off : m.off = p % 512
  bytes : m.bytes = 64
  write : m.write = a.scatter
  stage : m.stage = 0
  owner : m.owner = .awl k t (a.entry * a.span + a.piece)
  lease : m.lease = some lease

theorem MemReq.narrow_eq (r : MemReq) : ∃ c b, r.narrow = { r with cls := c, beats := b } := by
  unfold MemReq.narrow
  split
  · exact ⟨2, 8, rfl⟩
  · exact ⟨r.cls, r.beats, rfl⟩

/-- A piece's request joins the others, the engine has formed it, and the next thread is served first. -/
theorem State.formPiece_spec {ix row : Nat} (s : State) (k t lease : Nat) (a : AwlThread) (place : s.rowAt (a.tableBase + 64 * (ix * a.stride + a.piece)) = some row) :
    ∃ m l, (s.formPiece k t lease ix a).reqs = l ++ [m] ∧ (a.scatter = false → l = s.reqs) ∧ IsPiece m k t lease row (a.tableBase + 64 * (ix * a.stride + a.piece)) a ∧
      ((s.formPiece k t lease ix a).core k).awlCur = (t + 1) % 16 ∧ ((s.formPiece k t lease ix a).core k).engineFree (s.ctime k) 6 = false := by
  let src := if a.scatter then s.readOwnWords k a.nearBuf (a.nearRow + (a.entry * a.span + a.piece) / 8) a.bundle (fun w => w / 2 == (a.entry * a.span + a.piece) % 8) else (s, (⟨[], false⟩ : RowImg))
  have read : Met s src.1 := by
    unfold src
    split
    · exact s.met_readOwnWords ..
    · exact .refl s
  have asked (r : MemReq) (b : AwlThread) : ∃ x e, ((((src.1.submit r).awlSettle k t b).onCore k fun c => { c.formed ((src.1.submit r).ctime k) 6 with awlCur := (t + 1) % 16 })).reqs = s.reqs ++ [{ r with reached := x, eligible := x, extra := e }] := by
    obtain ⟨x, e, h⟩ := src.1.reqs_submit r
    exact ⟨x, e, h.trans (by rw [read.reqs])⟩
  have core (r : MemReq) (b : AwlThread) :
      ((((src.1.submit r).awlSettle k t b).onCore k fun c => { c.formed ((src.1.submit r).ctime k) 6 with awlCur := (t + 1) % 16 }).core k).engineFree (s.ctime k) 6 = false := by
    rw [State.core_onCore_same, State.ctime_submit, read.ctime]
    unfold Core.engineFree Core.formed
    dsimp only
    rw [tget_tset_same]
    exact decide_eq_false (Nat.not_le.2 (Nat.lt_succ_self _))
  unfold State.formPiece
  dsimp only
  rw [place]
  dsimp only
  obtain ⟨n, b, narrow⟩ := (src.1.newReq row (a.tableBase + 64 * (ix * a.stride + a.piece)) a.scatter (.awl k t (a.entry * a.span + a.piece)) (some lease) (some (src.1.now + 512))
    ⟨(src.2.bytes.drop (64 * ((a.entry * a.span + a.piece) % 8))).take 64, src.2.poison⟩).narrow_eq
  obtain ⟨x, e, reqs⟩ := asked _ _
  exact ⟨_, _, reqs, fun _ => rfl, by rw [narrow]; exact ⟨rfl, rfl, rfl, rfl, rfl, rfl, rfl⟩, by rw [State.core_onCore_same], core _ _⟩

/-- Rows stored: memory, and what an injection that fires leaves in the registers. -/
def Stored (s t : State) : Prop := ∃ m g n i, t = { s with mem := m, regs := g, latest := n, inject := i }

theorem Stored.refl (s : State) : Stored s s := ⟨s.mem, s.regs, s.latest, s.inject, rfl⟩

theorem Stored.trans {t u : State} (a : Stored s t) (b : Stored t u) : Stored s u := by
  obtain ⟨m, g, n, i, rfl⟩ := a
  obtain ⟨m', g', n', i', rfl⟩ := b
  exact ⟨m', g', n', i', rfl⟩

theorem Stored.reqs {t : State} (h : Stored s t) : t.reqs = s.reqs := by obtain ⟨_, _, _, _, rfl⟩ := h; rfl
theorem Stored.core {t : State} (h : Stored s t) (k : Nat) : t.core k = s.core k := by obtain ⟨_, _, _, _, rfl⟩ := h; rfl

theorem State.stored_fired (s : State) : Stored s s.fired := ⟨_, _, _, _, rfl⟩

theorem State.stored_wrote (s : State) (row : Nat) (ws : Nat → Bool) : Stored s (s.wrote row ws) := by
  unfold State.wrote
  split
  · split
    · exact s.stored_fired.trans ⟨_, _, _, _, rfl⟩
    · exact .refl s
  · exact .refl s

theorem State.stored_storeRow (s : State) (row : Nat) (img : RowImg) : Stored s (s.storeRow row img) := by
  have put : Stored s { s with mem := s.mem.writeRow row img } := ⟨_, _, _, _, rfl⟩
  exact put.trans (State.stored_wrote ..)

theorem State.stored_awlRows (s : State) (k : Nat) (a : AwlThread) (rows : List Nat) : Stored s (s.awlRows k a rows).1 := by
  unfold State.awlRows
  refine List.foldlRecOn (motive := fun p : State × AwlThread => Stored s p.1) _ _ (.refl s) fun p h r _ => ?_
  dsimp only
  split
  · exact h
  · exact h.trans (State.stored_storeRow ..)

end Sys2Proof.Machine

open Sys2Proof Sys2Proof.Machine

/-- Settles O42: `exec_awlPieceRequest` gives the entry at hand or the wait for its index values, `formPiece_spec` the request; a landed piece is counted by what stores its rows. -/
theorem piecesAreRequestedAndLand : Obligations.PiecesAreRequestedAndLand := by
  unfold Obligations.PiecesAreRequestedAndLand
  refine ⟨?piece, ?skipped, ?range, ?late, ?scatter, ?gather⟩
  case piece =>
    intro s v c q t row p a w rd live kernel thread thawed free at' reach held inside some at'' place
    subst at''
    have act := State.exec_awlPieceRequest live kernel thread thawed free at' reach held
    obtain ⟨m, l, reqs, gathers, piece, cur, busy⟩ := v.formPiece_spec (ckey c) t q.lease w place
    refine ⟨_, m, l, act.trans (congrArg Host.Outcome.next ?_), reqs, gathers, piece.row, piece.off, piece.bytes, piece.write, piece.stage, piece.owner, piece.lease, cur, ?_⟩
    · refine (if_pos rfl).trans ((if_neg ?_).trans (if_neg (Nat.not_le.2 inside)))
      exact fun e => some (beq_iff_eq.1 e)
    · rw [State.ctime_indicesHeld held] at busy
      exact busy
  case skipped =>
    intro s v c q t a w rd live kernel thread thawed free at' reach held null
    refine (State.exec_awlPieceRequest live kernel thread thawed free at' reach held).trans (congrArg Host.Outcome.next ?_)
    exact (if_pos rfl).trans (if_pos (beq_iff_eq.2 null))
  case range =>
    intro s v z c q t a w rd live kernel thread thawed free at' reach held some past bumped
    subst bumped
    refine (State.exec_awlPieceRequest live kernel thread thawed free at' reach held).trans (congrArg Host.Outcome.next ?_)
    refine (if_pos rfl).trans ((if_neg ?_).trans (if_pos past))
    exact fun e => some (beq_iff_eq.1 e)
  case late =>
    intro s v c q t a w rd live kernel thread thawed free at' reach held
    exact State.exec_awlPieceRequest live kernel thread thawed free at' reach held
  case scatter =>
    intro s c t a m n live thawed at' due owner fresh scatter
    change execAwlPieceLand c t s = _
    rw [execAwlPieceLand, State.live_run live]
    dsimp only
    rw [due, at']
    dsimp only
    rw [owner]
    dsimp only
    rw [thawed, fresh, scatter]
    rfl
  case gather =>
    intro s c t a m n live thawed at' due owner gather
    let u : State := if m.fresh then ({ s with reqs := s.reqs.erase m } : State).markKernel (ckey c) else { s with reqs := s.reqs.erase m }
    have reqs : u.reqs = s.reqs.erase m := by
      unfold u
      split <;> rfl
    have cores (j : Nat) (e : j ≠ ckey c) : u.core j = s.core j := by
      unfold u
      split
      · exact State.core_onCore_ne _ _ e
      · rfl
    have landed : ∃ b l d, exec (.awlPieceLand c t) s = .next ((u.awlRows (ckey c) b l).1.awlSettle (ckey c) t.val d) := by
      change ∃ b l d, execAwlPieceLand c t s = _
      rw [execAwlPieceLand, State.live_run live]
      dsimp only
      rw [due, at']
      dsimp only
      rw [owner]
      dsimp only
      rw [thawed, gather]
      exact ⟨_, _, _, rfl⟩
    obtain ⟨b, l, d, act⟩ := landed
    have stored := u.stored_awlRows (ckey c) b l
    exact ⟨_, act, stored.reqs.trans reqs, fun j e => (State.core_onCore_ne _ _ e).trans ((stored.core j).trans (cores j e))⟩
end

section
set_option Elab.async false -- one proof after the other: the whole text stands near the memory limit of the check
/-! Grants at banks, crossings and controllers (06 R248-R257). -/
namespace Sys2Proof.Machine

variable {s w : State} {p : GrantPoint} {r : MemReq}

theorem State.now_meetDown (s : State) : s.meetDown.now = s.now := by
  have woken (u : State) (d k ch : Nat) : (u.wake d k ch).now = u.now := by
    unfold State.wake
    split <;> rfl
  unfold State.meetDown
  refine List.foldlRecOn (motive := fun u : State => u.now = s.now) _ _ rfl fun u h r _ => ?_
  split
  · split
    · exact h
    · exact (woken ..).trans h
  · exact h

/-- A grant at a bank or crossing: none where it has granted in this cycle. -/
theorem State.exec_temperGrant_bank (live : s.life = .running) (down : s.meetDown = w) (bank : ∀ d k, p ≠ .ctl d k) :
    exec (.temperGrant p) s = if w.justGranted p then .next w else .next (w.grantBank p ((w.readyReqs p).filter w.rowPortFree)) := by
  change execTemperGrant p s = _
  rw [execTemperGrant, State.live_run live]
  dsimp only
  rw [down]
  cases p with
  | ctl d k => exact absurd rfl (bank d k)
  | shared d b => rfl
  | core c => rfl

/-- No NARROW request waits where none is ready. -/
theorem narrowTurn_none {l : List MemReq} (h : ∀ x, x ∈ l → x.cls ≠ 2) (turn : Nat) : narrowTurn (l.filter (fun r => r.cls == 2)) turn = none := by
  have none : l.filter (fun r => r.cls == 2) = [] := List.filter_eq_nil_iff.2 fun x hx => by simp [h x hx]
  rw [none]
  rfl

theorem State.rank_none {l : List MemReq} (w : State) (h : ∀ x, x ∈ l → x.cls = 2) : (w.rankReqs (l.filter (fun r => r.cls != 2))).head? = none := by
  have none : l.filter (fun r => r.cls != 2) = [] := List.filter_eq_nil_iff.2 fun x hx => by simp [h x hx]
  rw [none]
  rfl

/-- A ROW request goes first while fewer than seven have gone in a row, or no NARROW one waits. -/
theorem State.grantBank_row {l : List MemReq} (first : (w.rankReqs (l.filter (fun r => r.cls != 2))).head? = some r) (may : (∀ x, x ∈ l → x.cls ≠ 2) ∨ (tget (⟨0, 0, 0⟩ : BankRun) w.banks (pointKey p)).rows < 7) :
    ∃ n, n ≤ 7 ∧ w.grantBank p l = { w.serve r with banks := tset (w.serve r).banks (pointKey p) ⟨w.now + 1, n, (tget (⟨0, 0, 0⟩ : BankRun) w.banks (pointKey p)).turn⟩ } := by
  unfold State.grantBank
  dsimp only
  rw [first]
  cases turn : narrowTurn (l.filter (fun r => r.cls == 2)) (tget (⟨0, 0, 0⟩ : BankRun) w.banks (pointKey p)).turn with
  | none => exact ⟨0, Nat.zero_le _, rfl⟩
  | some n =>
    rcases may with none | few
    · rw [narrowTurn_none none] at turn
      nomatch turn
    · exact ⟨_, few, if_pos few⟩

/-- A NARROW request goes in its turn where seven ROW requests have gone before it, or no other waits. -/
theorem State.grantBank_narrow {l : List MemReq} (turn : narrowTurn (l.filter (fun r => r.cls == 2)) (tget (⟨0, 0, 0⟩ : BankRun) w.banks (pointKey p)).turn = some r)
    (may : (∀ x, x ∈ l → x.cls = 2) ∨ 7 ≤ (tget (⟨0, 0, 0⟩ : BankRun) w.banks (pointKey p)).rows) :
    w.grantBank p l = { w.serve r with banks := tset (w.serve r).banks (pointKey p) ⟨w.now + 1, 0, r.rank⟩ } := by
  unfold State.grantBank
  dsimp only
  rw [turn]
  cases first : (w.rankReqs (l.filter (fun r => r.cls != 2))).head? with
  | none => rfl
  | some x =>
    rcases may with none | seven
    · rw [w.rank_none none] at first
      nomatch first
    · exact if_neg (Nat.not_lt.2 seven)

theorem State.grantMade_stage (s : State) (r : MemReq) : (s.grantMade r).2.stage = 2 ∧ (s.grantMade r).2.grantedAt = s.now ∧ (s.grantMade r).2.owner = r.owner := by
  unfold State.grantMade
  split <;> exact ⟨rfl, rfl, rfl⟩

/-- What is no engine's is performed in its grant, at a bank or a crossing. -/
theorem State.performSram_stage (s : State) (r : MemReq) (own : r.owner.isEngine = false) (sram : isDram r.row = false) : (s.performSram r).2.stage = 2 ∧ (s.performSram r).2.grantedAt = s.now := by
  obtain ⟨stage, granted, owner⟩ := s.grantMade_stage r
  have whole (u : State) : u.wholeWrite (s.grantMade r).2 = (u, (s.grantMade r).2) := by
    unfold State.wholeWrite
    rw [owner, own]
    rfl
  unfold State.performSram
  rw [sram, own]
  dsimp only
  cases r.write with
  | true => simpa [whole] using ⟨stage, granted⟩
  | false => exact ⟨stage, granted⟩

/-! What a controller's grants keep: the time. -/

theorem State.met_chargeBytes (s : State) (l : Option Nat) (row n : Nat) : Met s (s.chargeBytes l row n) := by
  unfold State.chargeBytes
  split
  · exact .refl s
  · exact .ite _ (s.met_charge ..) (.ite _ (s.met_charge ..) (.ite _ (s.met_charge ..) (.refl s)))

theorem State.now_crossingsBack (s : State) (o : ReqOwner) (d t : Nat) : (s.crossingsBack o d t).2.now = s.now := by
  obtain ⟨p, e⟩ := s.bridged_eq d o.die t
  unfold State.crossingsBack State.ownCrossing
  dsimp only
  rw [e]
  split
  · obtain ⟨p', e'⟩ := State.cross_eq { s with perturbed := p } ..
    rw [e']
  · rfl

theorem State.now_wholeWrite (s : State) (r : MemReq) : (s.wholeWrite r).1.now = s.now := by
  unfold State.wholeWrite
  split
  · rfl
  · exact ((s.met_readFar ..).trans (State.met_chargeBytes ..)).now

theorem Stored.now {t : State} (h : Stored s t) : t.now = s.now := by obtain ⟨_, _, _, _, rfl⟩ := h; rfl

theorem State.now_dropLines (s : State) (row : Nat) : (s.dropLines row).now = s.now := by
  have lines (b : Bool) (u : State) (h : u.now = s.now) : (if b then { u with reqs := u.reqs.map (fun r => if r.row / 8 == row / 8 then { r with install := false } else r) } else u).now = s.now := by
    cases b <;> exact h
  unfold State.dropLines
  dsimp only
  refine lines _ _ ?_
  split <;> rfl

theorem State.now_applyWrite (s : State) (r : MemReq) : (s.applyWrite r).now = s.now := by
  have uncopied (u : State) : (u.uncopy r.row).now = u.now := by
    unfold State.uncopy
    dsimp only
    split <;> rfl
  have parity (u : State) : (u.meetParity r.row r.img).1.now = u.now := by
    unfold State.meetParity
    split <;> rfl
  have patched (u : State) (b : Bool) : (u.patchCopy r b).now = u.now := by
    unfold State.patchCopy
    dsimp only
    split <;> rfl
  unfold State.applyWrite
  dsimp only
  split
  · split
    · exact (State.stored_storeRow ..).now.trans ((parity _).trans ((uncopied _).trans (s.now_dropLines _)))
    · exact (State.stored_wrote ..).now.trans ((patched ..).trans ((parity _).trans (s.now_dropLines _)))
  · split
    · exact (State.stored_storeRow ..).now
    · exact (State.stored_wrote ..).now

theorem State.now_dramMade (s : State) (r : MemReq) : (if r.write then let w := s.wholeWrite r; (w.1.applyWrite w.2, w.2) else if r.owner.isEngine then s.engineRead r else s.applyRead r).1.now = s.now := by
  split
  · exact (State.now_applyWrite ..).trans (s.now_wholeWrite r)
  · split
    · unfold State.engineRead
      split
      · exact (s.met_readFar ..).now
      · rfl
    · exact ((s.met_readCells ..).freshened _).now

theorem State.now_noteGrant (s : State) (d k : Nat) (p : GrantPoint) (b : Bool) : (s.noteGrant d k p b).now = s.now := by
  unfold State.noteGrant
  cases b <;> rfl

theorem State.now_activate (s : State) (d k row : Nat) : (s.activate d k row).now = s.now := by
  unfold State.activate
  dsimp only
  split <;> rfl

theorem State.now_grantDram (s : State) (d k : Nat) (r : MemReq) : (s.grantDram d k r).now = s.now := by
  have filled (b : Bool) (u : State) (f : Controller → Controller) (h : u.now = s.now) : (if b then u.onCtl d k f else u).now = s.now := by
    cases b <;> exact h
  unfold State.grantDram
  refine (State.now_noteGrant ..).trans (filled _ _ _ ((State.now_activate ..).trans ?_))
  exact (State.now_dramMade _ r).trans (s.now_crossingsBack ..)

theorem State.now_grantLoop (d k : Nat) (p : GrantPoint) (l : List MemReq) : ∀ (s : State) (left passed : Nat), (s.grantLoop d k p l left passed).1.now = s.now := by
  induction l with
  | nil => exact fun _ _ _ => rfl
  | cons r l ih =>
    intro s left passed
    unfold State.grantLoop
    generalize (if k < 4 then 3200 else 400) = slots
    split
    · rfl
    · split
      · exact ih ..
      · dsimp only
        split
        · exact s.now_grantDram d k r
        · exact (ih ..).trans (s.now_grantDram d k r)

end Sys2Proof.Machine

open Sys2Proof Sys2Proof.Machine

/-- Settles O43: a bank's grant is `grantBank`, by its two turns; a controller's grants keep the time that its next ones are due by; a promotion changes one mark of a request. -/
theorem requestsAreGrantedAndPromoted : Obligations.RequestsAreGrantedAndPromoted := by
  unfold Obligations.RequestsAreGrantedAndPromoted
  refine ⟨?row, ?narrow, ?granted, ?beat, ?performed, ?controller, ?starve⟩
  case row =>
    intro s w p l r live down bank free ready first may
    subst ready
    obtain ⟨n, most, act⟩ := State.grantBank_row first may
    refine ⟨n, most, (State.exec_temperGrant_bank live down bank).trans ((if_neg (by simp [free])).trans ?_)⟩
    rw [act, ← down, State.now_meetDown]
  case narrow =>
    intro s w p l r live down bank free ready turn may
    subst ready
    refine (State.exec_temperGrant_bank live down bank).trans ((if_neg (by simp [free])).trans ?_)
    rw [State.grantBank_narrow turn may, ← down, State.now_meetDown]
  case granted => exact fun s w p live down bank granted => (State.exec_temperGrant_bank live down bank).trans (if_pos granted)
  case beat => exact fun s r more => if_pos more
  case performed => exact fun s r own sram => s.performSram_stage r own sram
  case controller =>
    intro s w d k live down due started some
    have now : w.now = s.now := by rw [← down, State.now_meetDown]
    let q := w.grantLoop d.val k.val (.ctl d k) (w.rankReqs ((w.readyReqs (.ctl d k)).filter (w.dramReady d.val k.val))) (w.grantRate d.val k.val).1 0
    let t := q.1.tally (mcqStat d.val k.val) MCQ_STAT.CAP_DEFERS q.2
    have act : exec (.temperGrant (.ctl d k)) s = .next (t.onCtl d.val k.val (fun c => { c with nextGrant := t.now + (w.grantRate d.val k.val).2 })) := by
      change execTemperGrant (.ctl d k) s = _
      rw [execTemperGrant, State.live_run live]
      dsimp only
      rw [down]
      refine (if_neg ?_).trans (if_neg ?_)
      · have all : (w.ctl d.val k.val).fills.any (fun f => !f.started) = false := by simpa using started
        rw [now, all, decide_eq_false (Nat.not_lt.2 due)]
        decide
      · exact fun e => some (List.isEmpty_iff.1 e)
    refine ⟨_, act, ?_⟩
    have granted : t.now = s.now := (State.now_grantLoop ..).trans now
    rw [State.ctl_onCtl_same]
    exact congrArg (· + (w.grantRate d.val k.val).2) granted
  case starve =>
    intro s p live
    let lim := s.fld (temperCfg (pointDie p)) TEMPER_CFG.STARVE_LIMIT
    let f (r : MemReq) : MemReq := if r.point == p && r.stage == 0 && r.reached + lim ≤ s.now then { r with promoted := true } else r
    refine ⟨{ s with reqs := s.reqs.map f }, ?_, rfl, List.length_map .., fun j r at' => ⟨f r, ?_, ?_, ?_, ?_⟩⟩
    · change execStarvePromote p s = _
      rw [execStarvePromote, State.live_run live]
    · exact (List.getElem?_map ..).trans (congrArg (Option.map f) at')
    · unfold f
      split <;> rfl
    · intro promoted
      unfold f
      split
      · rfl
      · exact promoted
    · intro point stage reached
      have due : (r.point == p && r.stage == 0 && decide (r.reached + lim ≤ s.now)) = true := by simpa [point, stage] using reached
      exact congrArg MemReq.promoted (if_pos due)
end

section
set_option Elab.async false -- one proof after the other: the whole text stands near the memory limit of the check
/-! Patrols and scrubs (05 R195, R196, R208-R210; 07 R280; 15 R555). -/
namespace Sys2Proof.Machine

variable {s t u : State} {k : Nat}

theorem State.met_countBank (s : State) (b : BankId) (row corr unc : Nat) : Met s (s.countBank b row corr unc) := by
  cases b with
  | core c i => exact s.met_countCoreEcc ..
  | shared d i => exact s.met_countSdmEcc ..

/-- A patrol's read of a row of an idle bank is counted, and the single-symbol errors it finds are noted. -/
theorem State.exec_patrolRead {b : BankId} {row r : Nat} (live : s.life = .running) (place : s.bankRow b row = some r) (idle : s.bankIdle b = true) :
    ∃ u, Met s u ∧ exec (.patrolRead b row) s =
      if ((s.mem.damageOf r).filter (fun d => d.syms.length == 1)).isEmpty then .next u else .next { u with patrol := s.patrol ++ [⟨s.bankId b, (s.mem.damageOf r).filter (fun d => d.syms.length == 1)⟩] } := by
  let rd := s.mem.readRow r s.fresh
  let v : State := if rd.unc == 0 then s else { s with fresh := s.fresh + 1 }
  have read : Met s v := (Met.refl s).freshened rd.unc
  have counted := read.trans (v.met_countBank b row rd.corr rd.unc)
  have bank : (v.countBank b row rd.corr rd.unc).bankId b = s.bankId b := by
    obtain ⟨⟨_, _, _, _, _, _, _, _, _, _, _, _, _, _, e⟩, -⟩ := counted
    rw [e]
    unfold State.bankId State.bankRow
    cases b <;> rfl
  refine ⟨v.countBank b row rd.corr rd.unc, counted, ?_⟩
  change execPatrolRead b row s = _
  rw [execPatrolRead, State.live_run live]
  dsimp only
  rw [place]
  dsimp only
  rw [idle]
  rw [counted.mem, counted.patrol, bank]
  rfl

/-- What is counted and recorded of a DRAM row is no core's. -/
theorem State.cores_raise (s : State) (ic x : Nat) : (s.raise ic x).cores = s.cores := (s.aside_raise ic x).cores

theorem State.cores_record (s : State) (e : Reg) (valid count : Fld) (w : Nat) (more : List (Reg × Nat)) : (s.record e valid count w more).cores = s.cores := by
  have put (v : State) : (more.foldl (fun s p => s.setReg p.1 (BitVec.ofNat 64 p.2)) v).cores = v.cores := List.foldlRecOn (motive := fun t : State => t.cores = v.cores) _ _ rfl fun t h x _ => h
  have noted (v : State) : (more.foldl (fun s p => s.noteCycle p.1 p.2) v).cores = v.cores := List.foldlRecOn (motive := fun t : State => t.cores = v.cores) _ _ rfl fun t h x _ => h
  have written : (if s.fld e valid == 1 then s else more.foldl (fun s p => s.setReg p.1 (BitVec.ofNat 64 p.2)) (s.putRecord e count w)).cores = s.cores := by
    split
    · rfl
    · exact put _
  unfold State.record
  dsimp only
  split
  · exact (noted _).trans written
  · exact written

theorem State.cores_countDram (s : State) (row corr unc : Nat) : (s.countDram row corr unc).cores = s.cores := by
  have noted : (s.noteUnc row unc).cores = s.cores := by
    unfold State.noteUnc
    split <;> rfl
  unfold State.countDram
  split
  · rfl
  · exact noted

theorem State.cores_dramEvent (s : State) (row : Nat) (l : Option Nat) : (s.dramEvent row l).cores = s.cores := by
  have charged (v : State) : (v.chargeEvent l).cores = v.cores := by
    cases l <;> rfl
  unfold State.dramEvent
  exact (State.cores_raise ..).trans ((State.cores_record ..).trans (charged _))

/-- A patrol's read of a row that no physical error awaits reads its words as they are. -/
theorem State.readQuiet_eq {row : Nat} (calm : s.upset row = none) : s.readQuiet row = (s, s.mem.readRow row s.fresh) := by
  have read : State.readCells { s with inject := none } row (fun _ => true) = ({ s with inject := none }, s.mem.readRow row s.fresh) := by
    unfold State.readCells
    have same : State.upset { s with inject := none } row = none := calm
    rw [same]
    rfl
  unfold State.readQuiet
  rw [read]

/-! The scrub of a core. -/

/-- A scrubbed core: as after reset, but for what the manual keeps. -/
def Core.scrubbed (c : Core) : Core :=
  { Core.reset with charge := c.charge, lastRing := c.lastRing, frozen := c.frozen, freezeAt := c.freezeAt, freeAt := c.freeAt, gated := c.gated, scrubDue := c.scrubDue, switchAt := c.switchAt }

theorem State.scrubCore_eq (s : State) (k : Nat) : ∃ g n, s.scrubCore k = { ({ s with mem := s.mem.zeroRows (coreRow k) 9472 } : State).onCore k Core.scrubbed with regs := g, latest := n } :=
  (OnlyRegs.resetRegs (({ s with mem := s.mem.zeroRows (coreRow k) 9472 } : State).onCore k Core.scrubbed) (scrubRegs k)).1

/-- A core's binding is none of the registers its scrub resets. -/
theorem tcBind_apart_scrubRegs {q : Reg} (h : q ∈ scrubRegs k) : (tcBind k).addr ≠ q.addr := by
  have num : coreNum k < 128 := Nat.mod_lt _ (by decide)
  simp only [scrubRegs, List.mem_append, List.mem_cons, List.not_mem_nil, or_false, List.mem_map, List.mem_range] at h
  rcases h with (rfl | rfl | rfl | rfl | rfl | rfl) | ⟨n, hn, rfl⟩ | ⟨n, hn, rfl⟩
  all_goals
    simp only [Reg.addr, tcBind, coreReg, RegName.layout]
    omega

/-- What the end of a core's scrub leaves. -/
theorem State.scrubEnd_spec (s : State) (k : Nat) :
    let t := (s.scrubCore k).onCore k (fun x => { x with scrubDue := none })
    t.mem = s.mem.zeroRows (coreRow k) 9472 ∧ (t.core k).scrubDue = none ∧ (t.core k).flags = [] ∧ (t.core k).claims = [] ∧ SameCores s t k ∧ ∀ f, t.fld (tcBind k) f = s.fld (tcBind k) f := by
  obtain ⟨-, -, regs⟩ := s.scrubCore_spec k
  have word := regs (tcBind k) fun r h => tcBind_apart_scrubRegs h
  obtain ⟨g, m, e⟩ := s.scrubCore_eq k
  have mem : (s.scrubCore k).mem = s.mem.zeroRows (coreRow k) 9472 := by rw [e]; rfl
  have core : (s.scrubCore k).core k = (s.core k).scrubbed := by
    rw [e]
    exact State.core_onCore_same ..
  have others (j : Nat) (h : j ≠ k) : (s.scrubCore k).core j = s.core j := by
    rw [e]
    exact State.core_onCore_ne _ _ h
  generalize s.scrubCore k = u at word mem core others
  refine ⟨mem, ?_, ?_, ?_, fun j h => (State.core_onCore_ne _ _ h).trans (others j h), fun f => congrArg (fun w : Word => bits w.toNat f.hi f.lo) word⟩
  all_goals rw [State.core_onCore_same, core]
  all_goals rfl

/-- The end of a core's scrub. -/
theorem State.exec_scrubComplete_core {c : CoreId} {n : Nat} (live : s.life = .running) (unbound : s.binding = none) (due : (s.core (ckey c)).scrubDue = some n) :
    ∃ v, (v = s ∨ v = s.setFld (tcBind (ckey c)) TC_BIND.HOLDER n) ∧ ((s.core (ckey c)).switchAt.isSome = true → v = s.setFld (tcBind (ckey c)) TC_BIND.HOLDER n) ∧
      exec (.scrubComplete (.core c)) s = .next ((v.scrubCore (ckey c)).onCore (ckey c) (fun x => { x with scrubDue := none })) := by
  let v : State := match (s.core (ckey c)).switchAt, (s.core (ckey c)).scrubDue with
    | some _, some n => s.setFld (tcBind (ckey c)) TC_BIND.HOLDER n
    | _, _ => s
  have done : s.scrubDone (.core c) = (v.scrubCore (ckey c)).onCore (ckey c) (fun x => { x with scrubDue := none }) := by
    unfold State.scrubDone
    exact if_neg (by simp [due])
  have same : v.binding = none := by
    unfold v
    split <;> exact unbound
  have ends (g : State) (h : g.binding = none) : g.bindingEnd = g := by
    unfold State.bindingEnd
    rw [h]
  refine ⟨v, ?_, ?_, ?_⟩
  · unfold v
    rw [due]
    cases (s.core (ckey c)).switchAt with
    | none => exact .inl rfl
    | some _ => exact .inr rfl
  · intro switch
    obtain ⟨x, at'⟩ := Option.isSome_iff_exists.1 switch
    unfold v
    rw [due, at']
  · change execScrubComplete (.core c) s = _
    rw [execScrubComplete, State.live_run live, done, ends]
    obtain ⟨g, m, e⟩ := v.scrubCore_eq (ckey c)
    rw [e]
    exact same

end Sys2Proof.Machine

open Sys2Proof Sys2Proof.Machine

/-- Settles O44: a patrol reads through `exec_patrolRead`, the controllers' through `readQuiet_eq`; a scrub of a core is `scrubCore_eq`, which its binding stands apart from. -/
theorem patrolsAndScrubsRepair : Obligations.PatrolsAndScrubsRepair := by
  unfold Obligations.PatrolsAndScrubsRepair
  refine ⟨?clean, ?ones, ?busy, ?back, ?memc, ?core, ?part⟩
  case clean =>
    intro s b row r live place idle none
    obtain ⟨u, met, act⟩ := State.exec_patrolRead live place idle
    rw [none] at act
    exact ⟨u, act, met.mem, met.patrol⟩
  case ones =>
    intro s b row r live place idle some
    obtain ⟨u, met, act⟩ := State.exec_patrolRead live place idle
    rw [if_neg fun e => some (List.isEmpty_iff.1 e)] at act
    exact ⟨_, act, met.mem, rfl⟩
  case busy =>
    intro s b row live busy
    constructor
    · change execPatrolRead b row s = _
      rw [execPatrolRead, State.live_run live]
      dsimp only
      split
      · rfl
      · rw [busy]
        rfl
    · change execPatrolWriteback b s = _
      rw [execPatrolWriteback, State.live_run live]
      dsimp only
      split
      · rfl
      · rw [busy]
        rfl
  case back =>
    intro s b p live idle noted
    refine ⟨{ s with patrol := s.patrol.erase p, mem := { s.mem with damage := s.mem.damage.filter (fun d => !p.fixes.contains d) } }, ?_, rfl, rfl, fun d => ?_, rfl, rfl⟩
    · change execPatrolWriteback b s = _
      rw [execPatrolWriteback, State.live_run live]
      dsimp only
      rw [noted]
      dsimp only
      rw [idle]
      rfl
    · simp [List.mem_filter]
  case memc =>
    intro s d k p row live stack site last up untagged calm
    let every := if k.val < 4 then 65536 else 512
    let v := s.onCtl d.val k.val (fun c => { c with patrolled := tset c.patrolled p.val s.now })
    let r := s.mem.readRow (ctlRow d.val k.val row) s.fresh
    let f : State := if r.unc == 0 then v else { v with fresh := v.fresh + 1 }
    let g := f.countDram (ctlRow d.val k.val row) r.corr r.unc
    let e := if 0 < r.unc && !r.stored then g.dramEvent (ctlRow d.val k.val row) none else g
    have fresh : Met v f := (Met.refl v).freshened r.unc
    have met : Met v e := .ite _ ((fresh.trans (f.met_countDram ..)).trans (g.met_dramEvent ..)) (fresh.trans (f.met_countDram ..))
    have cores : e.cores = s.cores := by
      have counted : g.cores = s.cores := (f.cores_countDram ..).trans (by unfold f; split <;> rfl)
      unfold e
      split
      · exact (g.cores_dramEvent ..).trans counted
      · exact counted
    have act : exec (.memcPatrol d k p row) s = .next (if r.corr == 0 then e else { e with mem := e.mem.repair (ctlRow d.val k.val row) }) := by
      change execMemcPatrol d k p row s = _
      rw [execMemcPatrol, State.live_run live]
      dsimp only
      have early : (match tget? (s.ctl d.val k.val).patrolled p.val with | some t => decide (s.now < t + every) | none => false) = false := by
        cases at' : tget? (s.ctl d.val k.val).patrolled p.val with
        | none => rfl
        | some n => exact decide_eq_false (Nat.not_lt.2 (last n at'))
      have inside : (if k.val < 4 then row % 32 == p.val && decide (row < 156250016) else p.val == 0 && decide (row < 125000000)) = true := by
        split
        · next low =>
          obtain ⟨bank, top⟩ := stack low
          simp [bank, top]
        · next high =>
          obtain ⟨bank, top⟩ := site (Nat.not_lt.1 high)
          simp [bank, top]
      have quiet : v.readQuiet (ctlRow d.val k.val row) = (v, r) := State.readQuiet_eq calm
      have passes (a b : Bool) (ha : a = false) (hb : b = true) : ¬(a || !b || false || false) = true := by
        rw [ha, hb]
        decide
      refine (if_neg ?_).trans ?_
      · rw [up, untagged]
        exact passes _ _ early inside
      · rw [quiet]
    have ctl : tget? (e.ctl d.val k.val).patrolled p.val = some s.now := by
      rw [State.ctl, met.ctls]
      exact (congrArg (fun c : Controller => tget? c.patrolled p.val) (State.ctl_onCtl_same ..)).trans (tget?_tset_same ..)
    refine ⟨_, act, ?_, ?_, ?_⟩
    · split <;> exact ctl
    · by_cases none : r.corr = 0
      · rw [if_pos (beq_iff_eq.2 none), if_pos none]
        exact met.mem
      · rw [if_neg fun h => none (beq_iff_eq.1 h), if_neg none]
        exact congrArg (fun m : Memory => m.repair (ctlRow d.val k.val row)) met.mem
    · split <;> exact cores
  case core =>
    intro s c n live unbound due
    obtain ⟨v, either, switch, act⟩ := State.exec_scrubComplete_core live unbound due
    obtain ⟨zeroed, done, flags, claims, others, word⟩ := v.scrubEnd_spec (ckey c)
    have mem : v.mem = s.mem := by rcases either with rfl | rfl <;> rfl
    have cores (j : Nat) : v.core j = s.core j := by rcases either with rfl | rfl <;> rfl
    refine ⟨_, act, zeroed.trans (congrArg (fun m : Memory => m.zeroRows _ _) mem), done, flags, claims, fun j apart => (others j apart).trans (cores j), fun switched low => (word _).trans ?_⟩
    rw [switch switched, State.fld_setFld_same _ _ _ _ (by decide) (by decide)]
    exact Nat.mod_eq_of_lt low
  case part =>
    intro s d p x live unbound found
    change execScrubComplete (.part d p) s = _
    rw [execScrubComplete, State.live_run live]
    unfold State.scrubDone
    dsimp only
    rw [found]
    unfold State.bindingEnd
    dsimp only
    rw [unbound]
end

section
set_option Elab.async false -- one proof after the other: the whole text stands near the memory limit of the check
/-! Activation stacks: pushes, spills, refills and pops (05 R218-R227, 06 R235-R241, 08 R318-R325). -/
namespace Sys2Proof.Machine

variable {s w : State} {d : Die} {g : Fin 64} {c : CoreId} {ch : Fin 16} {q : Kernel} {x : Xfer} {h : HalfFill} {u m : Nat}

/-- A push in its turn, by the stack's use, its top frame and the FLOOR it needs. -/
theorem PushTurn.exec_astkPush (turn : PushTurn s w d.val g.val (ckey c) ch.val q x h) :
    exec (.astkPush d g c ch) s = match w.stackUse d.val g.val (ckey c) q.lease with
      | some st => .next ((w.stackNext d.val g.val).stackRefuse (ckey c) ch.val x st)
      | none =>
        if (w.topFrame d.val g.val).any (fun t => t.2 == 2) then .next ((w.stackNext d.val g.val).stackRefuse (ckey c) ch.val x .state)
        else if w.stackFloor d.val g.val < w.floorFor d.val g.val h.n && w.fld (astk .ASTK_SPILL_ROWS d.val g.val) ASTK_SPILL_ROWS.ROWS < w.floorFor d.val g.val h.n then
          .next ((w.stackNext d.val g.val).stackRefuse (ckey c) ch.val x .noResource)
        else .next ((w.pushHalf d.val g.val (ckey c) ch.val h).stackNext d.val g.val) := by
  obtain ⟨⟨live, arrived, kernel, cur, head, thawed, still⟩, dir, half⟩ := turn
  change execAstkPush d g c ch s = _
  rw [execAstkPush, State.live_run live]
  dsimp only
  rw [arrived, kernel, cur]
  dsimp only
  rw [half]
  dsimp only
  rw [dir, head, thawed, still]
  exact if_neg (by simp)

/-- A pop in its turn, by the stack's use and the rows that its frame and the stack hold. -/
theorem PopTurn.exec_astkPop (turn : PopTurn s w d.val g.val (ckey c) ch.val q x u m) :
    exec (.astkPop d g c ch) s = match w.stackUse d.val g.val (ckey c) q.lease with
      | some st => .next ((w.stackNext d.val g.val).stackRefuse (ckey c) ch.val x st)
      | none =>
        if w.stackTop d.val g.val < m || !(match w.topFrame d.val g.val with
            | none => true
            | some (f, st) => st == 3 && m ≤ w.stackTop d.val g.val - w.fld (frameReg .ASTK_FRAME d.val g.val f) ASTK_FRAME.BASE) then .next ((w.stackNext d.val g.val).stackRefuse (ckey c) ch.val x .range)
        else .next ((w.popRows d.val g.val (ckey c) ch.val x (x.popHalf u (w.stackTop d.val g.val - m))).stackNext d.val g.val) := by
  obtain ⟨⟨live, arrived, kernel, cur, head, thawed, still⟩, dir, rfl, rfl⟩ := turn
  change execAstkPop d g c ch s = _
  rw [execAstkPop, State.live_run live]
  dsimp only
  rw [arrived, kernel, cur]
  dsimp only
  rw [dir, head, thawed, still]
  exact if_neg (by simp)

/-! The registers of a stack stand apart. -/

theorem astk_apart {n m : RegName} (d g : Nat) (f : Nat) (low : n.layout.base < m.layout.base) (sn : n.layout.strideI = 0x40) (jn : n.layout.strideJ = 0) (sm : 0x40 ≤ m.layout.strideI) :
    (⟨n, selCd d, g, 0⟩ : Reg).addr ≠ (⟨m, selCd d, g, f⟩ : Reg).addr := by
  have more := Nat.mul_le_mul_right g sm
  simp only [Reg.addr, sn, jn]
  omega

theorem astk_apart_frame {n m : RegName} (d g f : Nat) (h : n = .ASTK_TOP ∨ n = .ASTK_FLOOR) (hm : m = .ASTK_FRAME ∨ m = .ASTK_FACCT ∨ m = .ASTK_FEXP) : (astk n d g).addr ≠ (frameReg m d g f).addr := by
  rcases h with rfl | rfl <;> rcases hm with rfl | rfl | rfl <;> exact astk_apart d g f (by decide) rfl rfl (by decide)

/-- TOP raised reads so; memory, requests and cores are as they were. -/
theorem State.raiseTop_spec (s : State) (d g top : Nat) (low : top < 2 ^ (ASTK_TOP.TOP.hi + 1 - ASTK_TOP.TOP.lo)) : (s.raiseTop d g top).stackTop d g = top ∧ (s.raiseTop d g top).mem = s.mem ∧ (s.raiseTop d g top).reqs = s.reqs ∧ (s.raiseTop d g top).cores = s.cores := by
  have stat : (astk .ASTK_TOP d g).addr ≠ (astk .ASTK_STAT d g).addr := addr_ne_of_base _ _ _ (by decide)
  have set (v : Nat) : ((s.setFld (astk .ASTK_TOP d g) ASTK_TOP.TOP top).setFld (astk .ASTK_STAT d g) ASTK_STAT.HWM v).fld (astk .ASTK_TOP d g) ASTK_TOP.TOP = top :=
    (State.fld_setFld_ne _ _ _ _ stat).trans ((State.fld_setFld_same _ _ _ _ (by decide) (by decide)).trans (Nat.mod_eq_of_lt low))
  unfold State.raiseTop
  dsimp only
  split
  · exact ⟨(State.fld_setFld_ne _ _ _ _ (astk_apart_frame d g _ (.inl rfl) (.inr (.inl rfl)))).trans (set _), rfl, rfl, rfl⟩
  · exact ⟨set _, rfl, rfl, rfl⟩

/-- TOP lowered reads so; memory, requests and cores are as they were. -/
theorem State.lowerTop_spec (s : State) (d g top : Nat) (low : top < 2 ^ (ASTK_TOP.TOP.hi + 1 - ASTK_TOP.TOP.lo)) : (s.lowerTop d g top).stackTop d g = top ∧ (s.lowerTop d g top).mem = s.mem ∧ (s.lowerTop d g top).reqs = s.reqs ∧ (s.lowerTop d g top).cores = s.cores := by
  have set : (s.setFld (astk .ASTK_TOP d g) ASTK_TOP.TOP top).fld (astk .ASTK_TOP d g) ASTK_TOP.TOP = top := (State.fld_setFld_same _ _ _ _ (by decide) (by decide)).trans (Nat.mod_eq_of_lt low)
  have stat : (astk .ASTK_TOP d g).addr ≠ (fstat d g).addr := astk_apart d g 0 (m := .ASTK_FSTAT) (by decide) rfl rfl (by decide)
  unfold State.lowerTop
  dsimp only
  split
  · split
    · exact ⟨(State.fld_setFld_ne _ _ _ _ stat).trans ((State.fld_setFld_ne _ _ _ _ stat).trans ((State.fld_setFld_ne _ _ _ _ (astk_apart_frame d g _ (.inl rfl) (.inl rfl))).trans set)), rfl, rfl, rfl⟩
    · exact ⟨set, rfl, rfl, rfl⟩
  · exact ⟨set, rfl, rfl, rfl⟩

/-- FLOOR raised by a spill, and counted in the top frame. -/
def State.spilledTo (s : State) (d g floor : Nat) : State :=
  let s := s.setFld (astk .ASTK_FLOOR d g) ASTK_FLOOR.FLOOR floor
  match s.topFrame d g with
  | some (t, _) => s.bump (frameReg .ASTK_FEXP d g t) ASTK_FEXP.SPILLED 64
  | none => s

theorem State.spilledTo_spec (s : State) (d g floor : Nat) (low : floor < 2 ^ (ASTK_FLOOR.FLOOR.hi + 1 - ASTK_FLOOR.FLOOR.lo)) :
    (s.spilledTo d g floor).stackFloor d g = floor ∧ (s.spilledTo d g floor).stackTop d g = s.stackTop d g ∧ (s.spilledTo d g floor).mem = s.mem ∧ (s.spilledTo d g floor).now = s.now := by
  have set : (s.setFld (astk .ASTK_FLOOR d g) ASTK_FLOOR.FLOOR floor).stackFloor d g = floor := (State.fld_setFld_same _ _ _ _ (by decide) (by decide)).trans (Nat.mod_eq_of_lt low)
  have top : (s.setFld (astk .ASTK_FLOOR d g) ASTK_FLOOR.FLOOR floor).stackTop d g = s.stackTop d g := State.fld_setFld_ne _ _ _ _ (addr_ne_of_base (n := .ASTK_TOP) (m := .ASTK_FLOOR) _ _ _ (by decide))
  unfold State.spilledTo
  dsimp only
  split
  · exact ⟨(State.fld_setFld_ne _ _ _ _ (astk_apart_frame _ _ _ (.inr rfl) (.inr (.inr rfl)))).trans set, (State.fld_setFld_ne _ _ _ _ (astk_apart_frame _ _ _ (.inl rfl) (.inr (.inr rfl)))).trans top, rfl, rfl⟩
  · exact ⟨set, top, rfl, rfl⟩

theorem State.stackRun_setRun (s : State) (d g : Nat) (r : StackRun) : (s.setRun d g r).stackRun d g = r := by
  unfold State.stackRun State.setRun
  exact tget_tset_same ..

/-- The requests of a chunk of 64 rows join the others. -/
theorem State.chunk_eq (s : State) (d g lease first : Nat) (spill : Bool) (n : Nat) : ∃ i p l, s.chunk d g lease first spill n = { s with nextId := i, perturbed := p, reqs := l } := by
  have sent (v : State) (r : MemReq) (h : ∃ i p l, v = { s with nextId := i, perturbed := p, reqs := l }) : ∃ i p l, v.submit r = { s with nextId := i, perturbed := p, reqs := l } := by
    obtain ⟨i, p, l, rfl⟩ := h
    obtain ⟨i', p', x, y, e⟩ := State.submit_eq { s with nextId := i, perturbed := p, reqs := l } r
    exact ⟨i', p', _, e⟩
  induction n with
  | zero => exact ⟨s.nextId, s.perturbed, s.reqs, rfl⟩
  | succ n ih =>
    unfold State.chunk
    dsimp only
    split
    · exact ih
    · exact sent _ _ ih

/-- They change no register, no memory, and nothing that waits at a stack. -/
theorem State.chunk_keeps (s : State) (d g lease first : Nat) (spill : Bool) (n : Nat) :
    (s.chunk d g lease first spill n).now = s.now ∧ (s.chunk d g lease first spill n).mem = s.mem ∧ ∀ r f, (s.chunk d g lease first spill n).fld r f = s.fld r f := by
  obtain ⟨i, p, l, e⟩ := s.chunk_eq d g lease first spill n
  rw [e]
  exact ⟨rfl, rfl, fun _ _ => rfl⟩

/-- A frame command that finds others waiting stands behind them. -/
theorem State.frameCmd_waits {s u : State} {a : Actor} {d g v : Nat} (hw : Writable s a (astk .ASTK_FCMD d g)) (turn : (s.stackRun d g).waiting.head? ≠ some turnTicket) (arrived : u = s.arrivals d g)
    (behind : (u.stackRun d g).waiting ≠ []) (c : Nat) :
    s.frameCmd a d g c v = .next ((u.setRun d g { u.stackRun d g with waiting := (u.stackRun d g).waiting ++ [.posted (setBits v ASTK_FCMD.CMD.hi ASTK_FCMD.CMD.lo c)] }).answer .ok 0) := by
  subst arrived
  have written (v : Nat) : s.fcmdWrite d g v = (((s.arrivals d g).setRun d g { (s.arrivals d g).stackRun d g with waiting := ((s.arrivals d g).stackRun d g).waiting ++ [.posted v] }), .ok) := by
    unfold State.fcmdWrite
    refine (if_neg fun e => turn (beq_iff_eq.1 e)).trans (if_neg fun e => behind (List.isEmpty_iff.1 e))
  rw [State.frameCmd, hw.cmd]
  exact congrArg (fun p : State × Status => Host.Outcome.next (p.1.answer p.2 0)) (written _)

end Sys2Proof.Machine

open Sys2Proof Sys2Proof.Machine

/-- Settles O45: a turn's outcomes are those of `exec_astkPush` and `exec_astkPop`; TOP reads as `raiseTop_spec` and `lowerTop_spec` say; a chunk's requests change neither registers nor memory. -/
theorem stacksPushSpillRefillAndPop : Obligations.StacksPushSpillRefillAndPop := by
  unfold Obligations.StacksPushSpillRefillAndPop
  have topLow (s : State) (d g : Nat) : s.stackTop d g < 2 ^ (ASTK_TOP.TOP.hi + 1 - ASTK_TOP.TOP.lo) := bits_lt ..
  refine ⟨?push, ?pushed, ?barred, ?sealed, ?full, ?ready, ?spill, ?refill, ?land, ?pop, ?popped, ?half, ?range, ?frame⟩
  case push =>
    intro s w d g c ch q x h turn use unsealed room
    rw [turn.exec_astkPush, use]
    refine (if_neg (by simp [unsealed])).trans (if_neg fun e => ?_)
    obtain ⟨needs, short⟩ := Bool.and_eq_true_iff.1 e
    exact absurd (room (of_decide_eq_true needs)) (Nat.not_le.2 (of_decide_eq_true short))
  case pushed =>
    intro w d g k n h low
    obtain ⟨top, mem, reqs, cores⟩ := w.raiseTop_spec d g (w.stackTop d g + h.n) low
    have core : (w.raiseTop d g (w.stackTop d g + h.n)).core k = w.core k := congrArg (fun t => tget Core.reset t k) cores
    unfold State.pushHalf
    dsimp only
    generalize w.raiseTop d g (w.stackTop d g + h.n) = v at top mem reqs core
    refine ⟨top, mem, reqs, ?_⟩
    rw [State.core_onCore_same, Core.chan_setChan_same, core]
  case barred =>
    intro s w d g c ch q x h st turn use
    rw [turn.exec_astkPush, use]
  case sealed =>
    intro s w d g c ch q x h turn use sealed'
    rw [turn.exec_astkPush, use]
    exact if_pos sealed'
  case full =>
    intro s w d g c ch q x h turn use unsealed needs short
    rw [turn.exec_astkPush, use]
    exact (if_neg (by simp [unsealed])).trans (if_pos (by simp [needs, short]))
  case ready =>
    intro s d g r
    unfold State.stackReady
    constructor
    · intro h
      simp only [if_true, Bool.and_eq_true, decide_eq_true_eq] at h
      obtain ⟨⟨low, -⟩, -⟩ := h
      omega
    · intro h
      simp only [Bool.false_eq_true, if_false, Bool.and_eq_true, decide_eq_true_eq] at h
      exact h.1
  case spill =>
    intro s d g live high calm out tall formed idle
    obtain ⟨now, mem, flds⟩ := s.chunk_keeps d.val g.val (s.stackLease d.val g.val) (s.stackFloor d.val g.val) true 64
    obtain ⟨v, chunk⟩ : ∃ v, s.chunk d.val g.val (s.stackLease d.val g.val) (s.stackFloor d.val g.val) true 64 = v := ⟨_, rfl⟩
    rw [chunk] at now mem flds
    have act : exec (.astkSpill d g) s = .next ((v.spilledTo d.val g.val (s.stackFloor d.val g.val + 64)).setRun d.val g.val { s.stackRun d.val g.val with readOut := (v.spilledTo d.val g.val (s.stackFloor d.val g.val + 64)).now + 64 }) := by
      change execAstkSpill d g s = _
      rw [execAstkSpill, State.live_run live]
      dsimp only
      rw [chunk]
      refine if_neg ?_
      rw [calm, formed, idle, decide_eq_false (Nat.not_le.2 high), decide_eq_false (Nat.not_lt.2 out)]
      decide
    have low : s.stackFloor d.val g.val + 64 < 2 ^ (ASTK_FLOOR.FLOOR.hi + 1 - ASTK_FLOOR.FLOOR.lo) := Nat.lt_of_le_of_lt tall (topLow ..)
    obtain ⟨floor, top, mem', now'⟩ := v.spilledTo_spec d.val g.val _ low
    refine ⟨_, act, floor, top.trans (flds ..), ?_, mem'.trans mem⟩
    exact (congrArg StackRun.readOut (State.stackRun_setRun ..)).trans (congrArg (· + 64) (now'.trans now))
  case refill =>
    intro s d g live calm some room spilled idle
    obtain ⟨now, mem, flds⟩ := s.chunk_keeps d.val g.val (s.stackLease d.val g.val) (s.stackFloor d.val g.val - 64) false 64
    obtain ⟨v, chunk⟩ : ∃ v, s.chunk d.val g.val (s.stackLease d.val g.val) (s.stackFloor d.val g.val - 64) false 64 = v := ⟨_, rfl⟩
    rw [chunk] at now mem flds
    have act : exec (.astkRefill d g) s = .next (v.setRun d.val g.val { s.stackRun d.val g.val with refill := true }) := by
      change execAstkRefill d g s = _
      rw [execAstkRefill, State.live_run live]
      dsimp only
      rw [chunk]
      refine if_neg ?_
      have floor : (s.stackFloor d.val g.val == 0) = false := beq_eq_false_iff_ne.2 some
      rw [calm, floor, spilled, idle, decide_eq_false (Nat.not_lt.2 room)]
      decide
    exact ⟨_, act, congrArg StackRun.refill (State.stackRun_setRun ..), flds .., flds .., mem⟩
  case land =>
    intro s d g live runs low landed
    let v := ({ s with reqs := s.reqs.filter (fun r => !r.refills d.val g.val) } : State).setFld (astk .ASTK_FLOOR d.val g.val) ASTK_FLOOR.FLOOR (s.stackFloor d.val g.val - 64)
    refine ⟨v.setRun d.val g.val { s.stackRun d.val g.val with refill := false }, ?_, ?_, ?_, rfl⟩
    · change execAstkRefillLand d g s = _
      rw [execAstkRefillLand, State.live_run live]
      refine if_neg ?_
      have none : s.reqs.any (fun r => r.refills d.val g.val && !(r.owner == .refillIn d.val g.val && r.stage == 2 && decide (r.due ≤ s.now))) = false := by
        refine List.any_eq_false.2 fun r hr e => ?_
        obtain ⟨mine, late⟩ := Bool.and_eq_true_iff.1 e
        obtain ⟨owner, stage, due⟩ := landed r hr mine
        simp [owner, stage, due] at late
      rw [runs, none]
      decide
    · exact congrArg StackRun.refill (State.stackRun_setRun ..)
    · exact (State.fld_setFld_same _ _ _ _ (by decide) (by decide)).trans (Nat.mod_eq_of_lt (Nat.lt_of_le_of_lt (Nat.sub_le ..) (bits_lt ..)))
  case pop =>
    intro s w d g c ch q x u m turn use holds frame
    rw [turn.exec_astkPop, use]
    refine if_neg ?_
    cases top : w.topFrame d.val g.val with
    | none => simp [Nat.not_lt.2 holds]
    | some p =>
      obtain ⟨drained, rows⟩ := frame p.1 p.2 top
      simp [Nat.not_lt.2 holds, drained, rows]
  case popped =>
    intro w d g k n x h
    obtain ⟨top, mem, reqs, cores⟩ := w.lowerTop_spec d g (w.stackTop d g - h.n) (Nat.lt_of_le_of_lt (Nat.sub_le ..) (topLow ..))
    have core : (w.lowerTop d g (w.stackTop d g - h.n)).core k = w.core k := congrArg (fun t => tget Core.reset t k) cores
    unfold State.popRows
    dsimp only
    generalize w.lowerTop d g (w.stackTop d g - h.n) = v at top mem reqs core
    refine ⟨top, mem, reqs, ?_⟩
    rw [State.core_onCore_same, Core.chan_setChan_same, core]
  case half => exact fun x u low => ⟨rfl, rfl, rfl⟩
  case range =>
    intro s w d g c ch q x u m turn use past
    rw [turn.exec_astkPop, use]
    refine if_pos ?_
    rcases past with few | ⟨f, st, top, bad⟩
    · rw [decide_eq_true few]
      rfl
    · rw [top]
      rcases bad with open' | few
      · simp [open']
      · simp [Nat.not_le.2 few]
  case frame => exact fun s u a d g v hw turn arrived behind => ⟨State.frameCmd_waits hw turn arrived behind 1, State.frameCmd_waits hw turn arrived behind 2⟩
end

section
set_option Elab.async false -- one proof after the other: the whole text stands near the memory limit of the check
/-! What the memory controllers do (07 R277-R301). -/
namespace Sys2Proof.Machine

variable {s t : State} {q : Reg}

theorem memc_addr (n : RegName) (d k p : Nat) : (memc n d k p).addr = 8 * 2 ^ 44 + d * 2 ^ 38 + (n.layout.base + n.layout.strideI * k + n.layout.strideJ * p) := by
  simp only [Reg.addr, memc, selCd]
  omega

/-- A controller's registers, but for its error counts, are none that charges and interrupts write. -/
theorem plain_memc {n : RegName} (d : Die) {k : Nat} (hk : k < 6) (h : 0x8000000 ≤ n.layout.base ∧ n.layout.base < 0x8000100 ∧ n.layout.strideI = 0x10000 ∧ n.layout.strideJ = 0) : Plain (memc n d.val k) := by
  obtain ⟨low, high, si, sj⟩ := h
  refine plain_of_die d (o := n.layout.base + 0x10000 * k) (by omega) (.inl (by omega)) ?_
  rw [memc_addr, si, sj]
  omega

theorem State.physPc_le (s : State) (row : Nat) : s.physPc row ≤ 32 := by
  unfold State.physPc
  dsimp only
  split
  · exact Nat.zero_le _
  · split
    · exact Nat.le_refl _
    · omega

theorem ctlOf_le (row : Nat) : (ctlOf row).2 ≤ 5 := by
  unfold ctlOf
  dsimp only
  split <;> dsimp only <;> omega

/-- HBM_SPARE of a controller is none of the error counts and records that a read leaves. -/
theorem hbmSpare_apart (d k row p : Nat) (hp : p ≤ 32) :
    (memc .HBM_SPARE d k).addr ≠ (memc .MEMC_ECC_CNT (ctlOf row).1 (ctlOf row).2 p).addr ∧ (memc .HBM_SPARE d k).addr ≠ (memc .MEMC_DI_EVENT (ctlOf row).1 (ctlOf row).2).addr := by
  have controller := ctlOf_le row
  rw [memc_addr, memc_addr, memc_addr]
  simp only [RegName.layout]
  constructor <;> omega

theorem State.reg_noteUnc (s : State) (row unc : Nat) (q : Reg) : (s.noteUnc row unc).reg q = s.reg q := by
  unfold State.noteUnc
  split <;> rfl

theorem State.reg_countDram {row : Nat} (s : State) (corr unc : Nat) (apart : ∀ p, p ≤ 32 → q.addr ≠ (memc .MEMC_ECC_CNT (ctlOf row).1 (ctlOf row).2 p).addr) : (s.countDram row corr unc).reg q = s.reg q := by
  have counted (u : State) (f : Fld) (n : Nat) : (u.tally (memc .MEMC_ECC_CNT (ctlOf row).1 (ctlOf row).2 (s.physPc row)) f n).reg q = u.reg q := State.reg_setReg_ne _ _ (apart _ (s.physPc_le row))
  unfold State.countDram
  split
  · rfl
  · exact (counted ..).trans ((counted ..).trans (s.reg_noteUnc ..))

theorem State.reg_record (s : State) {e : Reg} (valid count : Fld) (w : Nat) (apart : q.addr ≠ e.addr) : (s.record e valid count w []).reg q = s.reg q := by
  have written : (if s.fld e valid == 1 then s else s.putRecord e count w).reg q = s.reg q := by
    split
    · rfl
    · exact State.reg_setReg_ne _ _ apart
  unfold State.record
  dsimp only [List.foldl]
  split
  · exact written
  · exact written

theorem State.reg_dramEvent {row : Nat} (s : State) (l : Option Nat) (plain : Plain q) (apart : q.addr ≠ (memc .MEMC_DI_EVENT (ctlOf row).1 (ctlOf row).2).addr) : (s.dramEvent row l).reg q = s.reg q := by
  have charged (u : State) : (u.chargeEvent l).reg q = u.reg q := by
    cases l with
    | none => rfl
    | some n => exact (u.aside_charge n 45 1).2 q plain
  unfold State.dramEvent
  exact ((State.aside_raise ..).2 q plain).trans ((State.reg_record _ _ _ _ apart).trans ((charged _).trans (State.reg_setFld_ne _ _ _ apart)))

theorem State.cores_chargeEvent (s : State) (l : Option Nat) : (s.chargeEvent l).cores = s.cores := by
  cases l <;> rfl

/-! The copy of a failed pseudo-channel (07 R286-R288). -/

/-- The state after the read `p` of row `key` by the copier, the row kept, and the progress noted. -/
def State.copied (p : State × RowRead) (d k key n : Nat) : State :=
  let s := if p.2.unc == 0 then p.1 else { p.1 with fresh := p.1.fresh + 1 }
  let s := s.countDram key p.2.corr p.2.unc
  let s := if 0 < p.2.unc && !p.2.stored then s.dramEvent key none else s
  let s := (s.keepCopy d k key p.2.img).onCtl d k (fun c => { c with lastCopy := some s.now })
  s.setFld (memc .HBM_SPARE d k) HBM_SPARE.PROGRESS (n + 1)

/-- The copier's turn: a row of the failed pseudo-channel, which wakes its channel first. -/
theorem State.exec_spareCopyRow {d : Die} {k : Fin 4} (live : s.life = .running) (copying : s.spareState d.val k.val = 1) (runs : s.copierRuns = true)
    (due : ∀ n, (s.ctl d.val k.val).lastCopy = some n → n + 16 ≤ s.now) (n key : Nat) (hn : n = s.fld (memc .HBM_SPARE d.val k.val) HBM_SPARE.PROGRESS)
    (hkey : key = ctlRow d.val k.val (32 * n + s.fld (memc .HBM_SPARE d.val k.val) HBM_SPARE.FAILED_PC)) :
    exec (.spareCopyRow d k) s = if s.isDown key then .next (s.wake d.val k.val (chanOfRow key))
      else .next (if n + 1 == pcRows then (State.copied (s.readCells key fun _ => true) d.val k.val key n).mapSpare d.val k.val (s.fld (memc .HBM_SPARE d.val k.val) HBM_SPARE.FAILED_PC)
        else State.copied (s.readCells key fun _ => true) d.val k.val key n) := by
  subst hn hkey
  have early : (match (s.ctl d.val k.val).lastCopy with | some t => decide (s.now < t + 16) | none => false) = false := by
    cases at' : (s.ctl d.val k.val).lastCopy with
    | none => rfl
    | some n => exact decide_eq_false (Nat.not_lt.2 (due n at'))
  have passes (a b : Bool) (x : Nat) (ha : a = false) (hb : b = true) (hx : x = 1) : ¬(x != 1 || a || !b) = true := by
    rw [ha, hb, hx]
    decide
  change execSpareCopyRow d k s = _
  rw [execSpareCopyRow, State.live_run live]
  exact if_neg (passes _ _ _ early runs copying)

/-- A row copied is counted; the state of the copy, memory and the cores stay. -/
theorem State.copied_spec (s : State) (r : RowRead) (d : Die) (k : Fin 4) (key n : Nat) (low : n + 1 < pcRows) :
    (State.copied (s, r) d.val k.val key n).fld (memc .HBM_SPARE d.val k.val) HBM_SPARE.PROGRESS = n + 1 ∧ (State.copied (s, r) d.val k.val key n).spareState d.val k.val = s.spareState d.val k.val ∧
      (State.copied (s, r) d.val k.val key n).mem = s.mem := by
  have plain : Plain (memc .HBM_SPARE d.val k.val) := plain_memc d (by omega) (by decide)
  let f : State := if r.unc == 0 then s else { s with fresh := s.fresh + 1 }
  let e := if 0 < r.unc && !r.stored then (f.countDram key r.corr r.unc).dramEvent key none else f.countDram key r.corr r.unc
  have met : Met s e := by
    have counted := ((Met.refl s).freshened r.unc).trans (f.met_countDram key r.corr r.unc)
    exact .ite _ (counted.trans (State.met_dramEvent ..)) counted
  have word : e.reg (memc .HBM_SPARE d.val k.val) = s.reg (memc .HBM_SPARE d.val k.val) := by
    have counted : (f.countDram key r.corr r.unc).reg (memc .HBM_SPARE d.val k.val) = s.reg (memc .HBM_SPARE d.val k.val) :=
      (f.reg_countDram _ _ fun p hp => (hbmSpare_apart d.val k.val key p hp).1).trans (by unfold f; split <;> rfl)
    unfold e
    split
    · exact (State.reg_dramEvent _ _ plain (hbmSpare_apart d.val k.val key 0 (by decide)).2).trans counted
    · exact counted
  have form : State.copied (s, r) d.val k.val key n = ((e.keepCopy d.val k.val key r.img).onCtl d.val k.val (fun c => { c with lastCopy := some e.now })).setFld (memc .HBM_SPARE d.val k.val) HBM_SPARE.PROGRESS (n + 1) := rfl
  rw [form]
  generalize e = v at met word
  refine ⟨(State.fld_setFld_same _ _ _ _ (by decide) (by decide)).trans (Nat.mod_eq_of_lt (Nat.lt_trans low (by decide))), ?_, met.mem⟩
  exact (State.fld_setFld_other _ _ _ _ _ (by decide) (by decide) (.inl (by decide))).trans (congrArg (fun w : Word => bits w.toNat _ _) word)

theorem State.cores_readCells (s : State) (row : Nat) (ws : Nat → Bool) : (s.readCells row ws).1.cores = s.cores := by
  have words : (s.readWords row ws).1.cores = s.cores := by
    unfold State.readWords
    dsimp only
    split
    · split <;> rfl
    · rfl
  have counted (u : State) (b : Bool) (r : Reg) (f : Fld) (h : u.cores = s.cores) : (if b then u.tally r f 1 else u).cores = s.cores := by
    cases b <;> exact h
  unfold State.readCells
  dsimp only
  split
  · exact words
  · split
    · exact words
    · split
      · exact counted _ _ _ _ words
      · exact counted _ _ _ _ words

theorem State.cores_copied (p : State × RowRead) (d k key n : Nat) : (State.copied p d k key n).cores = p.1.cores := by
  have fresh : (if p.2.unc == 0 then p.1 else { p.1 with fresh := p.1.fresh + 1 }).cores = p.1.cores := by split <;> rfl
  have event (u : State) (b : Bool) (h : u.cores = p.1.cores) : (if b then u.dramEvent key none else u).cores = p.1.cores := by
    cases b with
    | false => exact h
    | true => exact (u.cores_dramEvent ..).trans h
  exact event _ _ ((State.cores_countDram ..).trans fresh)

/-- A row that no physical error awaits reads, with no injection armed, as it is. -/
theorem State.readCells_calm {row : Nat} (calm : s.upset row = none) (off : s.inject = none) : s.readCells row (fun _ => true) = (s, s.mem.readRow row s.fresh) := by
  unfold State.readCells State.readWords State.seen
  rw [calm, off]
  rfl

theorem State.mapSpare_spec (s : State) (d k pc : Nat) : (s.mapSpare d k pc).spareState d k = 2 ∧ (s.mapSpare d k pc).cores = s.cores := by
  unfold State.mapSpare State.spareState
  extract_lets _ _ u ras v
  constructor
  · rw [State.fld_onCtl]
    exact State.fld_setFld_same v (memc .HBM_SPARE d k) HBM_SPARE.STATE 2 (by decide) (by decide)
  · rw [State.onCtl_cores, State.setFld_cores, State.setFld_cores]

/-! Power-down (07 R290-R293). -/

/-- A bit of a 16-bit field set as a whole. -/
theorem bitAt_mod_same {w n : Nat} {b : Bool} (h : n < 16) : bitAt (setBit w n b % 2 ^ 16) n = b := by
  have low : bitAt (setBit w n b % 2 ^ 16) n = bitAt (setBit w n b) n := by
    rw [bitAt_eq_testBit, bitAt_eq_testBit, Nat.testBit_mod_two_pow]
    simp [h]
  rw [low, bitAt_setBit_same]

theorem State.bitAt_setDown {d k ch : Nat} (s : State) (b : Bool) (low : ch < 16) :
    bitAt ((s.setFld (pdnStatus d k) HBM_PDN_STATUS.DOWN (setBit (s.fld (pdnStatus d k) HBM_PDN_STATUS.DOWN) ch b)).fld (pdnStatus d k) HBM_PDN_STATUS.DOWN) ch = b := by
  rw [State.fld_setFld_same _ _ _ _ (by decide) (by decide)]
  exact bitAt_mod_same low

theorem State.channelDown_spec {d k ch : Nat} (s : State) (low : ch < 16) :
    ((s.channelDown d k ch).ctl d k).pdn = none ∧ bitAt ((s.channelDown d k ch).fld (pdnStatus d k) HBM_PDN_STATUS.DOWN) ch = true ∧ (s.channelDown d k ch).fld (pdnStatus d k) HBM_PDN_STATUS.RESULT = 1 ∧
      (s.channelDown d k ch).fld (pdnStatus d k) HBM_PDN_STATUS.PENDING = 0 ∧ SameRegs s (s.channelDown d k ch) [pdnStatus d k] ∧ (s.channelDown d k ch).mem = s.mem := by
  let u := s.setFld (pdnStatus d k) HBM_PDN_STATUS.DOWN (setBit (s.fld (pdnStatus d k) HBM_PDN_STATUS.DOWN) ch true)
  have down : bitAt (u.fld (pdnStatus d k) HBM_PDN_STATUS.DOWN) ch = true := s.bitAt_setDown true low
  have only : SameRegs s ((u.setFld (pdnStatus d k) HBM_PDN_STATUS.PENDING 0).setFld (pdnStatus d k) HBM_PDN_STATUS.RESULT 1) [pdnStatus d k] :=
    (((SameRegs.refl s [pdnStatus d k]).setFld _ _ List.mem_cons_self).setFld _ _ List.mem_cons_self).setFld _ _ List.mem_cons_self
  have form : s.channelDown d k ch = ((u.setFld (pdnStatus d k) HBM_PDN_STATUS.PENDING 0).setFld (pdnStatus d k) HBM_PDN_STATUS.RESULT 1).onCtl d k (fun c => { c with pdn := none }) := rfl
  have mem : u.mem = s.mem := rfl
  rw [form]
  generalize u = v at down only mem
  refine ⟨by rw [State.ctl_onCtl_same], ?_, State.fld_setFld_same _ _ _ _ (by decide) (by decide), ?_, only, mem⟩
  · have kept : ((v.setFld (pdnStatus d k) HBM_PDN_STATUS.PENDING 0).setFld (pdnStatus d k) HBM_PDN_STATUS.RESULT 1).fld (pdnStatus d k) HBM_PDN_STATUS.DOWN = v.fld (pdnStatus d k) HBM_PDN_STATUS.DOWN := by
      simp (disch := decide) only [State.fld_setFld_other]
    exact (congrArg (bitAt · ch) kept).trans down
  · exact (State.fld_setFld_other _ _ _ _ _ (by decide) (by decide) (by decide)).trans (State.fld_setFld_same _ _ _ _ (by decide) (by decide))

/-! Granted rows performed (07 R277, R297). -/

/-- Performing a request granted before touches neither memory nor the controllers: its data are those of its grant. -/
theorem State.performDram_keeps (s : State) (r : MemReq) (late : Nat) : (s.performDram r late).mem = s.mem ∧ (s.performDram r late).ctls = s.ctls := by
  have slots (u : State) (p : GrantPoint) : (u.noteSlots p).mem = u.mem ∧ (u.noteSlots p).ctls = u.ctls := by
    unfold State.noteSlots
    split <;> exact ⟨rfl, rfl⟩
  have sent (u : State) (x : MemReq) : (u.submit x).mem = u.mem ∧ (u.submit x).ctls = u.ctls := by
    obtain ⟨n, p, a, e, h⟩ := u.submit_eq x
    rw [h]
    exact ⟨rfl, rfl⟩
  have passed (u : State) (old x : MemReq) : (u.passOn old x).mem = u.mem ∧ (u.passOn old x).ctls = u.ctls := by
    unfold State.passOn
    dsimp only
    split
    · split <;> exact ⟨rfl, rfl⟩
    · exact ⟨rfl, rfl⟩
    · exact sent _ _
    · exact sent _ _
    · exact ⟨rfl, rfl⟩
  have done (u : State) (old x : MemReq) : (u.donePerform old x).mem = u.mem ∧ (u.donePerform old x).ctls = u.ctls := by
    unfold State.donePerform
    split
    · exact ⟨rfl, rfl⟩
    · exact ⟨rfl, rfl⟩
    · exact passed ..
  have spilled (u : State) : (u.countSpill r).mem = u.mem ∧ (u.countSpill r).ctls = u.ctls := by
    unfold State.countSpill
    split <;> exact ⟨rfl, rfl⟩
  unfold State.performDram
  dsimp only
  split
  · have charged := s.met_chargeBytes r.lease r.row r.charged
    exact ⟨(slots ..).1.trans ((passed ..).1.trans charged.mem), (slots ..).2.trans ((passed ..).2.trans charged.ctls)⟩
  · have event : Met s (if r.fresh then (s.countDram r.row r.corr r.unc).dramEvent r.row r.lease else s.countDram r.row r.corr r.unc) := .ite _ ((s.met_countDram ..).trans (State.met_dramEvent ..)) (s.met_countDram ..)
    have charged := event.trans (State.met_chargeBytes _ r.lease r.row r.charged)
    exact ⟨(slots ..).1.trans ((done ..).1.trans ((spilled _).1.trans charged.mem)), (slots ..).2.trans ((done ..).2.trans ((spilled _).2.trans charged.ctls))⟩

/-! Temperature (07 R300, R301). -/

/-- MEMC_THERM as a sample leaves it. -/
def State.sampled (s : State) (d k x hot warm : Nat) : State :=
  ((s.setFld (memc .MEMC_THERM d k) MEMC_THERM.TEMP x).setFld (memc .MEMC_THERM d k) MEMC_THERM.REFX2 warm).setFld (memc .MEMC_THERM d k) MEMC_THERM.THROTTLE hot

theorem State.sampled_spec (s : State) (d k x hot warm : Nat) (hx : x < 256) (hh : hot < 2) (hw : warm < 2) :
    (s.sampled d k x hot warm).fld (memc .MEMC_THERM d k) MEMC_THERM.TEMP = x ∧ (s.sampled d k x hot warm).fld (memc .MEMC_THERM d k) MEMC_THERM.THROTTLE = hot ∧ (s.sampled d k x hot warm).fld (memc .MEMC_THERM d k) MEMC_THERM.REFX2 = warm := by
  unfold State.sampled
  simp (disch := decide) only [State.fld_setFld_other, State.fld_setFld_same]
  exact ⟨Nat.mod_eq_of_lt hx, Nat.mod_eq_of_lt hh, Nat.mod_eq_of_lt hw⟩

end Sys2Proof.Machine

open Sys2Proof Sys2Proof.Machine

/-- Settles O46: the copier's turn is `exec_spareCopyRow`, of which `copied_spec` and `mapSpare_spec` say what it leaves; a request's performing keeps memory and controllers; the rest are the commands' own effects on their registers. -/
theorem controllersPerformCopyAndPowerDown : Obligations.ControllersPerformCopyAndPowerDown := by
  unfold Obligations.ControllersPerformCopyAndPowerDown
  refine ⟨?perform, ?copy, ?last, ?wakes, ?down, ?timeout, ?wake, ?fill, ?filled, ?background, ?refresh, ?temp⟩
  case perform =>
    intro s d k r live next due
    change execRowPerform d k s = _
    rw [execRowPerform, State.live_run live]
    dsimp only
    rw [next]
    exact if_neg (Nat.not_lt.2 due)
  case copy =>
    intro s d k live copying runs due up calm off more
    have act := State.exec_spareCopyRow live copying runs due _ _ rfl rfl
    rw [if_neg (by rw [up]; exact Bool.false_ne_true), if_neg fun e => more.ne (beq_iff_eq.1 e), State.readCells_calm calm off] at act
    obtain ⟨progress, state, mem⟩ := s.copied_spec (s.mem.readRow _ s.fresh) d k (ctlRow d.val k.val (32 * s.fld (memc .HBM_SPARE d.val k.val) HBM_SPARE.PROGRESS + s.fld (memc .HBM_SPARE d.val k.val) HBM_SPARE.FAILED_PC)) _ more
    exact ⟨_, act, progress, state.trans copying, mem, State.cores_copied ..⟩
  case last =>
    intro s d k live copying runs due up last
    have act := State.exec_spareCopyRow live copying runs due _ _ rfl rfl
    rw [if_neg (by rw [up]; exact Bool.false_ne_true), if_pos (beq_iff_eq.2 last)] at act
    obtain ⟨state, cores⟩ := State.mapSpare_spec (State.copied (s.readCells (ctlRow d.val k.val (32 * s.fld (memc .HBM_SPARE d.val k.val) HBM_SPARE.PROGRESS + s.fld (memc .HBM_SPARE d.val k.val) HBM_SPARE.FAILED_PC)) fun _ => true) d.val k.val
      (ctlRow d.val k.val (32 * s.fld (memc .HBM_SPARE d.val k.val) HBM_SPARE.PROGRESS + s.fld (memc .HBM_SPARE d.val k.val) HBM_SPARE.FAILED_PC)) (s.fld (memc .HBM_SPARE d.val k.val) HBM_SPARE.PROGRESS)) d.val k.val
      (s.fld (memc .HBM_SPARE d.val k.val) HBM_SPARE.FAILED_PC)
    exact ⟨_, act, state, cores.trans ((State.cores_copied ..).trans (s.cores_readCells ..))⟩
  case wakes =>
    intro s d k live copying runs due down
    exact (State.exec_spareCopyRow live copying runs due _ _ rfl rfl).trans (if_pos down)
  case down =>
    intro s d k ch n live low asked soon none
    have ready : s.pdnReady d k (ch, n) = true := by simp [State.pdnReady, soon, none]
    refine ⟨_, ?_, s.channelDown_spec low⟩
    change execPdnEnter d k s = _
    rw [execPdnEnter, State.live_run live, asked]
    exact congrArg Host.Outcome.next (if_pos ready)
  case timeout =>
    intro s d k ch n live asked late
    change execPdnTimeout d k s = _
    rw [execPdnTimeout, State.live_run live, asked]
    exact if_neg (Nat.not_lt.2 late)
  case wake =>
    intro s d k ch w live waking due
    have only : SameRegs s (s.setFld (pdnStatus d.val k.val) HBM_PDN_STATUS.DOWN (setBit (s.fld (pdnStatus d.val k.val) HBM_PDN_STATUS.DOWN) ch.val false)) [pdnStatus d.val k.val] :=
      (SameRegs.refl s [pdnStatus d.val k.val]).setFld _ _ List.mem_cons_self
    refine ⟨(s.setFld (pdnStatus d.val k.val) HBM_PDN_STATUS.DOWN (setBit (s.fld (pdnStatus d.val k.val) HBM_PDN_STATUS.DOWN) ch.val false)).onCtl d.val k.val (fun c => { c with wakes := c.wakes.filter (fun x => x.1 != ch.val) }), ?_,
      s.bitAt_setDown false ch.isLt, only, rfl⟩
    change execChannelWake d k ch s = _
    rw [execChannelWake, State.live_run live]
    dsimp only
    rw [waking]
    exact if_neg (Nat.not_lt.2 due)
  case fill =>
    intro s d k f live next
    change execTagFill d k s = _
    rw [execTagFill, State.live_run live]
    rw [next]
  case filled =>
    intro s d k f live head started due
    let v := ({ s with mem := { s.mem with untagged := sins s.mem.untagged f.blk } } : State).onCtl d.val k.val (fun c => { c with fills := c.fills.drop 1 })
    have act : exec (.tagFillComplete d k) s = match s.reqs.find? (fun r => r.id == f.req && r.stage == 1) with | some r => .next (v.performDram r 63) | none => .next v := by
      change execTagFillComplete d k s = _
      rw [execTagFillComplete, State.live_run live]
      dsimp only
      rw [head]
      refine if_neg ?_
      rw [started, decide_eq_false (Nat.not_lt.2 due)]
      decide
    have fills : (v.ctl d.val k.val).fills = (s.ctl d.val k.val).fills.drop 1 := congrArg Controller.fills (State.ctl_onCtl_same ..)
    have mem : v.mem = { s.mem with untagged := sins s.mem.untagged f.blk } := rfl
    generalize v = v at act fills mem
    cases waits : s.reqs.find? (fun r => r.id == f.req && r.stage == 1) with
    | none =>
      rw [waits] at act
      exact ⟨v, act, fills, mem⟩
    | some r =>
      rw [waits] at act
      obtain ⟨mem', ctls⟩ := v.performDram_keeps r 63
      exact ⟨_, act, (congrArg (fun c => (tget Controller.idle c (ctlKey d.val k.val)).fills) ctls).trans fills, mem'.trans mem⟩
  case background =>
    intro s d k blk live idle low tagged bound
    change execBackgroundTagFill d k blk s = _
    rw [execBackgroundTagFill, State.live_run live]
    refine if_neg ?_
    rw [idle, tagged, bound, decide_eq_false (Nat.not_le.2 low)]
    decide
  case refresh =>
    intro s d k p b live
    change execPerBankRefresh d k p b s = _
    rw [execPerBankRefresh, State.live_run live]
  case temp =>
    intro s d k x live
    let keep := fun (on : Bool) (lim : Nat) => decide (lim < x.val) || (on && decide (lim - 3 < x.val))
    let hot := keep (s.fld (memc .MEMC_THERM d.val k.val) MEMC_THERM.THROTTLE == 1) 95
    let warm := keep (s.fld (memc .MEMC_THERM d.val k.val) MEMC_THERM.REFX2 == 1) 85
    let u := s.sampled d.val k.val x.val (flag hot) (flag warm)
    let v := if hot && !(s.fld (memc .MEMC_THERM d.val k.val) MEMC_THERM.THROTTLE == 1) then u.raise d.val (0xBA + k.val) else u
    have small (b : Bool) : flag b < 2 := by cases b <;> decide
    have plain : Plain (memc .MEMC_THERM d.val k.val) := plain_memc d k.isLt (by decide)
    have raised : Aside u v := by
      unfold v
      split
      · exact u.aside_raise ..
      · exact .refl u
    have aside : Aside u v.syncAlerts := raised.trans v.aside_syncAlerts
    obtain ⟨temp, throttle, refx⟩ := s.sampled_spec d.val k.val x.val (flag hot) (flag warm) x.isLt (small _) (small _)
    have above (on : Bool) (lim : Nat) (h : lim < x.val) : keep on lim = true := by simp [keep, h]
    have below (on : Bool) (lim : Nat) (h : x.val ≤ lim - 3) : keep on lim = false := by
      have low : ¬lim < x.val := by omega
      simp [keep, low, Nat.not_lt.2 h]
    refine ⟨v.syncAlerts, ?_, (aside.fld plain _).trans temp, aside.mem, aside.cores, fun h => ?_, fun h => ?_, fun h => ?_, fun h => ?_⟩
    · change execTempSample d k x s = _
      rw [execTempSample, State.live_run live]
      rfl
    · exact (aside.fld plain _).trans (throttle.trans (congrArg flag (above _ _ h)))
    · exact (aside.fld plain _).trans (throttle.trans (congrArg flag (below _ _ h)))
    · exact (aside.fld plain _).trans (refx.trans (congrArg flag (above _ _ h)))
    · exact (aside.fld plain _).trans (refx.trans (congrArg flag (below _ _ h)))
end

section
set_option Elab.async false -- one proof after the other: the whole text stands near the memory limit of the check
/-! The Welt units: commands, the layers of a step, and the end of a step (09 R342-R363). -/
namespace Sys2Proof.Machine

variable {s t : State} {a : Actor}

theorem State.groupLease_fld {hs g n : Nat} (h : s.groupLease hs g = some n) : s.fld (Machine.welt .WELT_GROUP_CFG hs g) WELT_GROUP_CFG.LEASE = n := by
  unfold State.groupLease at h
  dsimp only at h
  split at h
  · exact Option.some.inj h
  · nomatch h

/-! A command written into WELT_CMD. -/

theorem bits_weltWord {op g : Nat} (o : op < 16) (h : g < 128) : bits (weltWord op g) WELT_CMD.OP.hi WELT_CMD.OP.lo = op ∧ bits (weltWord op g) WELT_CMD.GROUP.hi WELT_CMD.GROUP.lo = g := by
  constructor
  · rw [weltWord, bits_setBits_out _ _ _ _ _ _ (by decide) (.inl (by decide))]
    exact (congrArg (· % 16) (Nat.div_one op)).trans (Nat.mod_eq_of_lt o)
  · rw [weltWord, bits_setBits_same _ _ _ _ (by decide)]
    exact Nat.mod_eq_of_lt h

theorem Writable.weltCmd {hs : Fin 16} {g : Fin 128} {op : Nat} {st : Status} (h : Writable s a (Machine.welt .WELT_CMD hs.val)) (o : op < 16) (e : s.weltCmd a hs.val op g.val = (t, st)) :
    s.writeCmd a (Machine.welt .WELT_CMD hs.val).addr (weltWord op g.val) = .next (t.answer st 0) := by
  refine h.next ((s.writeAct_hs a _ ⟨rfl, rfl, rfl⟩).trans ?_)
  change s.weltCmd a (4 + hs.val - 4) _ _ = _
  rw [Nat.add_sub_cancel_left, (bits_weltWord o g.isLt).1, (bits_weltWord o g.isLt).2, e]

/-- A command that passes its checks on an idle unit is accepted and does its work. -/
theorem State.weltCmd_accepted {hs op g n : Nat} (busy : s.weltBusy hs = false) (own : s.groupLease hs g = some n) (go : s.snapStopped n = false) (check : s.weltCheck a hs op g = none) :
    s.weltCmd a hs op g = if op == 1 then ((s.weltAccept hs op g).weltNorm hs g n, .ok) else if op == 2 then ((s.weltAccept hs op g).weltApply hs g n, .ok)
      else if op == 3 then ((s.weltAccept hs op g).weltFinish hs g, .ok) else (((s.weltAccept hs op g).weltCloseStep hs).onWelt hs (fun w => { w with toPhase := 0 }), .ok) := by
  unfold State.weltCmd
  rw [busy, own, check, State.groupLease_fld own]
  simp only [go, Bool.or_self, Bool.false_eq_true, if_false]

/-- A command that fails its checks on an idle unit is refused with what the check gives. -/
theorem State.weltCmd_refused {hs op g n : Nat} {e : Status × Option Nat} (busy : s.weltBusy hs = false) (own : s.groupLease hs g = some n) (go : s.snapStopped n = false)
    (check : s.weltCheck a hs op g = some e) : s.weltCmd a hs op g = (s.weltRefuse hs op e.1 e.2, e.1) := by
  unfold State.weltCmd
  rw [busy, own, check]
  simp only [go, Bool.or_self, Bool.false_eq_true, if_false]

theorem State.weltAccept_spec (s : State) (hs g : Nat) {op : Nat} (o : op < 8) :
    (s.weltAccept hs op g).weltBusy hs = true ∧ (s.weltAccept hs op g).wstat hs WELT_STATUS.LAST_OP = op ∧ (s.weltAccept hs op g).mem = s.mem ∧ ((s.weltAccept hs op g).welt hs).op = op ∧
      ((s.weltAccept hs op g).welt hs).group = g := by
  unfold State.weltAccept
  dsimp only
  refine ⟨?_, ?_, rfl, ?_, ?_⟩
  · rw [State.weltBusy, State.wstat, State.fld_onWelt, State.fld_setFld_same _ _ _ _ (by decide) (by decide)]
    rfl
  · rw [State.wstat, State.fld_onWelt, State.fld_setFld_other _ _ _ _ _ (by decide) (by decide) (by decide), State.fld_setFld_same _ _ _ _ (by decide) (by decide)]
    exact Nat.mod_eq_of_lt o
  · rw [State.welt_onWelt_same]
  · rw [State.welt_onWelt_same]

theorem State.weltRefuse_spec (s : State) (hs op : Nat) (st : Status) (l : Option Nat) :
    (s.weltRefuse hs op st l).mem = s.mem ∧ (s.weltRefuse hs op st l).weltBusy hs = s.weltBusy hs ∧ (s.weltRefuse hs op st l).welts = s.welts := by
  have same : (s.weltRefuse hs op st l).fld (Machine.welt .WELT_STATUS hs) WELT_STATUS.BUSY = s.fld (Machine.welt .WELT_STATUS hs) WELT_STATUS.BUSY := by
    cases l <;> simp (disch := decide) only [State.weltRefuse, State.fld_setFld_other]
  refine ⟨?_, by rw [State.weltBusy, State.weltBusy, State.wstat, State.wstat, same], ?_⟩ <;> cases l <;> rfl

/-! The registers of a unit, and what only looks aside from them. -/

theorem plain_hs {q : Reg} (hs : Fin 16) {o : Nat} (ho : o < 2 ^ 38) (h : q.addr = 8 * 2 ^ 44 + (4 + hs.val) * 2 ^ 38 + o) : Plain q := by
  have hi := hs.isLt
  refine ⟨fun n w => ?_, fun k => ?_, ?_, fun ic x hx => ?_⟩ <;> rw [h]
  · simp only [Reg.addr, acct, RegName.layout, selSv0]; omega
  · simp only [Reg.addr, hp, RegName.layout, selIo]; omega
  · simp only [Reg.addr, RegName.layout, selSv0]; omega
  · simp only [Reg.addr, icPending, RegName.layout, icSel]; split <;> omega

theorem plain_weltStatus (hs : Fin 16) : Plain (Machine.welt .WELT_STATUS hs.val) :=
  plain_hs hs (o := 8) (by decide) (by simp only [Reg.addr, Machine.welt, RegName.layout, selHs])

theorem Aside.welt (h : Aside s t) (hs : Nat) : t.welt hs = s.welt hs := by obtain ⟨⟨_, _, _, _, _, _, _, _, _, rfl⟩, _⟩ := h; rfl

theorem status_apart_layer (hs l : Nat) : (Machine.welt .WELT_STATUS hs).addr ≠ (Machine.welt .WELT_LAYER_STATE hs l).addr := by
  simp only [Reg.addr, Machine.welt, RegName.layout]; omega

theorem status_apart_group (hs g : Nat) : (Machine.welt .WELT_STATUS hs).addr ≠ (Machine.welt .WELT_GROUP_CFG hs g).addr := by
  simp only [Reg.addr, Machine.welt, RegName.layout]; omega

/-- The end of a command (09 R344): BUSY and the run's OP are cleared, its status is left, and PHASE, memory and cores are kept. -/
theorem State.weltDone_spec (s : State) (hs : Fin 16) (st : Status) :
    (s.weltDone hs.val st).weltBusy hs.val = false ∧ (s.weltDone hs.val st).wstat hs.val WELT_STATUS.LAST_STATUS = code st ∧
      (s.weltDone hs.val st).wstat hs.val WELT_STATUS.PHASE = s.wstat hs.val WELT_STATUS.PHASE ∧ ((s.weltDone hs.val st).welt hs.val).op = 0 ∧ (s.weltDone hs.val st).mem = s.mem ∧ (s.weltDone hs.val st).cores = s.cores := by
  have plain := plain_weltStatus hs
  unfold State.weltDone
  dsimp only
  have charged := s.aside_charge (s.weltLease hs.val) 2 (s.now - (s.welt hs.val).since)
  generalize s.charge (s.weltLease hs.val) 2 (s.now - (s.welt hs.val).since) = c at charged ⊢
  have raised := State.aside_raise (((c.setFld (Machine.welt .WELT_STATUS hs.val) WELT_STATUS.BUSY 0).setFld (Machine.welt .WELT_STATUS hs.val) WELT_STATUS.LAST_STATUS (code st)).onWelt hs.val
    (fun w => { w with op := 0, todo := [], pos := 0, stage := 0 })) (hs.val / 4) (0xB0 + hs.val % 4)
  refine ⟨?_, ?_, ?_, ?_, raised.mem.trans charged.mem, raised.cores.trans charged.cores⟩
  · rw [State.weltBusy, State.wstat, raised.fld plain, State.fld_onWelt, State.fld_setFld_other _ _ _ _ _ (by decide) (by decide) (by decide), State.fld_setFld_same _ _ _ _ (by decide) (by decide)]
    rfl
  · rw [State.wstat, raised.fld plain, State.fld_onWelt, State.fld_setFld_same _ _ _ _ (by decide) (by decide)]
    cases st <;> rfl
  · rw [State.wstat, raised.fld plain, State.fld_onWelt, State.fld_setFld_other _ _ _ _ _ (by decide) (by decide) (by decide), State.fld_setFld_other _ _ _ _ _ (by decide) (by decide) (by decide),
      charged.fld plain, State.wstat]
  · rw [raised.welt, State.welt_onWelt_same]

/-- A step that closes (09 R345, R360) leaves PHASE 0 and memory as it was, and BUSY too. -/
theorem State.weltCloseStep_spec (s : State) (hs : Nat) :
    (s.weltCloseStep hs).wstat hs WELT_STATUS.PHASE = 0 ∧ (s.weltCloseStep hs).weltBusy hs = s.weltBusy hs ∧ (s.weltCloseStep hs).mem = s.mem := by
  have waits (l : List Nat) (u : State) (p : State → Nat → Bool) :
      (l.foldl (fun s l => if p s l = true then s.setFld (Machine.welt .WELT_LAYER_STATE hs l) WELT_LAYER_STATE.ORT_WAIT 0 else s) u).wstat hs WELT_STATUS.BUSY = u.wstat hs WELT_STATUS.BUSY ∧
        (l.foldl (fun s l => if p s l = true then s.setFld (Machine.welt .WELT_LAYER_STATE hs l) WELT_LAYER_STATE.ORT_WAIT 0 else s) u).mem = u.mem := by
    induction l generalizing u with
    | nil => exact ⟨rfl, rfl⟩
    | cons x xs ih =>
      rw [List.foldl_cons]
      obtain ⟨stat, mem⟩ := ih (if p u x = true then u.setFld (Machine.welt .WELT_LAYER_STATE hs x) WELT_LAYER_STATE.ORT_WAIT 0 else u)
      refine ⟨stat.trans ?_, mem.trans ?_⟩ <;> split
      · exact State.fld_setFld_ne _ _ _ _ (status_apart_layer hs x)
      all_goals rfl
  unfold State.weltCloseStep
  dsimp only
  have kept : ∃ u : State, (if (s.wstat hs WELT_STATUS.PHASE == 2) = true then (s.groupLayers hs (s.wstat hs WELT_STATUS.OPEN_GROUP)).foldl (fun s l => if ((s.weltLayer hs l).rule == 3) = true then
      s.setFld (Machine.welt .WELT_LAYER_STATE hs l) WELT_LAYER_STATE.ORT_WAIT 0 else s) s else s) = u ∧ u.wstat hs WELT_STATUS.BUSY = s.wstat hs WELT_STATUS.BUSY ∧ u.mem = s.mem := by
    refine ⟨_, rfl, ?_⟩
    split
    · exact waits _ s (fun s l => (s.weltLayer hs l).rule == 3)
    · exact ⟨rfl, rfl⟩
  obtain ⟨u, e, busy, mem⟩ := kept
  rw [e]
  refine ⟨?_, ?_, mem⟩
  · exact State.fld_setFld_same _ _ _ _ (by decide) (by decide)
  · rw [State.weltBusy, State.wstat, State.fld_setFld_other _ _ _ _ _ (by decide) (by decide) (by decide), State.weltBusy]
    exact congrArg (· == 1) busy

/-- What the last layer of a command leaves of the unit when it commits (09 R361, R363). -/
def State.committed (s : State) (hs l : Nat) (bad : Bool) : State :=
  ((((s.setFld (Machine.welt .WELT_LAYER_STATE hs l) WELT_LAYER_STATE.EPOCH (s.welt hs).t).setFld (Machine.welt .WELT_LAYER_STATE hs l) WELT_LAYER_STATE.APPLYING 0).setFld
    (Machine.welt .WELT_LAYER_STATE hs l) WELT_LAYER_STATE.ORT_WAIT 0).setFld (Machine.welt .WELT_LAYER_STATE hs l) WELT_LAYER_STATE.DAMAGED (flag bad)).onWelt hs
    (fun w => { w with todo := [], stage := 0, bad := false, damaged := w.damaged || bad })

theorem State.committed_spec (s : State) (hs l : Nat) (bad : Bool) (epoch : (s.welt hs).t < 2 ^ 32) :
    ((s.committed hs l bad).welt hs).todo = [] ∧ (s.committed hs l bad).fld (Machine.welt .WELT_LAYER_STATE hs l) WELT_LAYER_STATE.EPOCH = (s.welt hs).t ∧
      (s.committed hs l bad).fld (Machine.welt .WELT_LAYER_STATE hs l) WELT_LAYER_STATE.APPLYING = 0 ∧ (s.committed hs l bad).fld (Machine.welt .WELT_LAYER_STATE hs l) WELT_LAYER_STATE.ORT_WAIT = 0 ∧
      (s.committed hs l bad).fld (Machine.welt .WELT_LAYER_STATE hs l) WELT_LAYER_STATE.DAMAGED = flag bad ∧ SameRegs s (s.committed hs l bad) [Machine.welt .WELT_LAYER_STATE hs l] ∧ (s.committed hs l bad).mem = s.mem := by
  have mine := List.mem_singleton_self (Machine.welt .WELT_LAYER_STATE hs l)
  refine ⟨by rw [State.committed, State.welt_onWelt_same], ?_, ?_, ?_, ?_, ?_, rfl⟩
  · simp (disch := decide) only [State.committed, State.fld_onWelt, State.fld_setFld_other, State.fld_setFld_same]
    exact Nat.mod_eq_of_lt epoch
  · simp (disch := decide) only [State.committed, State.fld_onWelt, State.fld_setFld_other, State.fld_setFld_same]
    rfl
  · simp (disch := decide) only [State.committed, State.fld_onWelt, State.fld_setFld_other, State.fld_setFld_same]
    rfl
  · simp (disch := decide) only [State.committed, State.fld_onWelt, State.fld_setFld_same]
    cases bad <;> rfl
  · exact (((((SameRegs.refl s _).setFld _ _ mine).setFld _ _ mine).setFld _ _ mine).setFld _ _ mine)

theorem State.exec_weltLayerCommit {hs : Fin 16} {l : Nat} (live : s.life = .running) (todo : (s.welt hs.val).todo = [l]) (stage : (s.welt hs.val).stage = 3) (op : (s.welt hs.val).op ≠ 1)
    (wait : s.weltWaits hs.val = false) :
    exec (.weltLayerCommit hs) s = .next (s.committed hs.val l ((s.welt hs.val).bad || (s.welt hs.val).ortBad.any (fun q => q.1 == l))) := by
  change execWeltLayerCommit hs s = _
  rw [execWeltLayerCommit, State.live_run live]
  dsimp only
  have goes : ¬((s.welt hs.val).stage != 3 || (s.welt hs.val).op == 1 || s.weltWaits hs.val) = true := by simp [stage, op, wait]
  simp only [todo, goes]
  change Host.Outcome.next ((s.committed hs.val l _).weltNext hs.val) = _
  have rest : ∀ b, ((s.committed hs.val l b).welt hs.val).todo = [] := fun b => by rw [State.committed, State.welt_onWelt_same]
  simp only [State.weltNext, rest]

/-- The state in which an ended command's status is left (09 R344, R349, R351): PHASE, the open group of a NORM, and STEP of the command that ends the step. -/
def State.phased (s : State) (hs : Nat) (w : WeltRun) : State :=
  let s := s.setFld (Machine.welt .WELT_STATUS hs) WELT_STATUS.PHASE w.toPhase
  let s := if w.op == 1 then (s.setFld (Machine.welt .WELT_STATUS hs) WELT_STATUS.OPEN_GROUP w.group).onWelt hs (fun w => { w with opened := s.now }) else s
  if w.advance then (s.setFld (Machine.welt .WELT_GROUP_CFG hs w.group) WELT_GROUP_CFG.STEP w.t).stepEnd (s.groupLease hs w.group) else s

theorem State.fld_stepEnd (s : State) (n : Option Nat) (r : Reg) (f : Fld) : (s.stepEnd n).fld r f = s.fld r f := by cases n <;> rfl

theorem State.mem_stepEnd (s : State) (n : Option Nat) : (s.stepEnd n).mem = s.mem := by cases n <;> rfl

theorem State.cores_stepEnd (s : State) (n : Option Nat) : (s.stepEnd n).cores = s.cores := by cases n <;> rfl

theorem State.phased_spec (s : State) (hs : Nat) (w : WeltRun) :
    (s.phased hs w).wstat hs WELT_STATUS.PHASE = w.toPhase % 2 ^ (WELT_STATUS.PHASE.hi + 1 - WELT_STATUS.PHASE.lo) ∧ (s.phased hs w).mem = s.mem ∧ (s.phased hs w).cores = s.cores := by
  refine ⟨?_, ?_, ?_⟩
  · have set : ∀ u : State, (u.setFld (Machine.welt .WELT_GROUP_CFG hs w.group) WELT_GROUP_CFG.STEP w.t).fld (Machine.welt .WELT_STATUS hs) WELT_STATUS.PHASE = u.fld (Machine.welt .WELT_STATUS hs) WELT_STATUS.PHASE :=
      fun u => State.fld_setFld_ne _ _ _ _ (status_apart_group hs w.group)
    cases n : w.op == 1 <;> cases g : w.advance <;>
      simp (disch := decide) only [State.phased, n, g, State.wstat, State.fld_stepEnd, set, State.fld_onWelt, State.fld_setFld_other, State.fld_setFld_same, if_true, Bool.false_eq_true, if_false]
  · cases n : w.op == 1 <;> cases g : w.advance <;> simp only [State.phased, n, g, if_true, Bool.false_eq_true, if_false, State.mem_stepEnd] <;> rfl
  · cases n : w.op == 1 <;> cases g : w.advance <;> simp only [State.phased, n, g, if_true, Bool.false_eq_true, if_false, State.cores_stepEnd] <;> rfl

theorem State.exec_weltCmdEnd {hs : Fin 16} (live : s.life = .running) (op : (s.welt hs.val).op ≠ 0) (todo : (s.welt hs.val).todo = []) (wait : s.weltWaits hs.val = false) :
    exec (.weltCmdEnd hs) s = .next ((s.phased hs.val (s.welt hs.val)).weltDone hs.val
      (if (s.welt hs.val).status == .ok && (s.welt hs.val).advance && (s.welt hs.val).damaged then .integrity else (s.welt hs.val).status)) := by
  change execWeltCmdEnd hs s = _
  rw [execWeltCmdEnd, State.live_run live]
  exact if_neg (by simp [op, todo, wait])

theorem State.exec_weltStepTimeout {hs : Fin 16} (live : s.life = .running) (phase : s.wstat hs.val WELT_STATUS.PHASE ≠ 0) (late : (s.welt hs.val).opened + 11000000000 ≤ s.now) (busy : s.weltBusy hs.val = false) :
    exec (.weltStepTimeout hs) s = .next ((s.weltCloseStep hs.val).setFld (Machine.welt .WELT_STATUS hs.val) WELT_STATUS.LAST_STATUS (code .timeout)) := by
  have idle : (s.weltCloseStep hs.val).weltBusy hs.val = false := (s.weltCloseStep_spec hs.val).2.1.trans busy
  have goes : ¬(s.wstat hs.val WELT_STATUS.PHASE == 0 || decide (s.now < (s.welt hs.val).opened + 11000000000)) = true := by
    simp only [Bool.or_eq_true, beq_iff_eq, decide_eq_true_eq, not_or, Nat.not_lt]
    exact ⟨phase, late⟩
  change execWeltStepTimeout hs s = _
  rw [execWeltStepTimeout, State.live_run live]
  dsimp only
  rw [if_neg goes, idle]
  exact if_neg Bool.false_ne_true

section
variable {hs : Fin 16} {l : Fin 4096} (live : s.life = .running)
include live

/-- Where every holder's first sums are done, all go on with them (09 R356). -/
theorem State.exec_facExchangeReady_first (all : (s.holders hs.val l.val).all (fun u => s.facAt l.val u 1) = true) :
    exec (.facExchangeReady hs l) s = .next ((s.holders hs.val l.val).foldl (fun s u => s.facGo l.val u false) s) := by
  change execFacExchangeReady hs l s = _
  rw [execFacExchangeReady, State.live_run live]
  dsimp only
  rw [if_pos all]

/-- Where every holder's second sums are done, all go on with them (09 R356). -/
theorem State.exec_facExchangeReady_second (first : (s.holders hs.val l.val).all (fun u => s.facAt l.val u 1) = false) (all : (s.holders hs.val l.val).all (fun u => s.facAt l.val u 2) = true) :
    exec (.facExchangeReady hs l) s = .next ((s.holders hs.val l.val).foldl (fun s u => s.facGo l.val u true) s) := by
  change execFacExchangeReady hs l s = _
  rw [execFacExchangeReady, State.live_run live]
  dsimp only
  rw [if_neg (by rw [first]; decide), if_pos all]

end

/-- Firmware's epoch of a layer outside a step (09 R363). -/
def State.epochSet (s : State) (hs l v : Nat) : State :=
  (((s.setFld (Machine.welt .WELT_LAYER_STATE hs l) WELT_LAYER_STATE.EPOCH (bits v 63 32)).setFld (Machine.welt .WELT_LAYER_STATE hs l) WELT_LAYER_STATE.APPLYING 0).setFld
    (Machine.welt .WELT_LAYER_STATE hs l) WELT_LAYER_STATE.ORT_WAIT 0).setFld (Machine.welt .WELT_LAYER_STATE hs l) WELT_LAYER_STATE.DAMAGED 0

theorem State.epochSet_spec (s : State) (hs l v : Nat) :
    OnlyRegs s (s.epochSet hs l v) [Machine.welt .WELT_LAYER_STATE hs l] ∧ (s.epochSet hs l v).fld (Machine.welt .WELT_LAYER_STATE hs l) WELT_LAYER_STATE.EPOCH = bits v 63 32 ∧
      (s.epochSet hs l v).fld (Machine.welt .WELT_LAYER_STATE hs l) WELT_LAYER_STATE.DAMAGED = 0 := by
  have mine := List.mem_singleton_self (Machine.welt .WELT_LAYER_STATE hs l)
  refine ⟨((((OnlyRegs.refl s _).setFld _ _ mine).setFld _ _ mine).setFld _ _ mine).setFld _ _ mine, ?_, ?_⟩
  · simp (disch := decide) only [State.epochSet, State.fld_setFld_other, State.fld_setFld_same]
    exact Nat.mod_eq_of_lt (bits_lt v 63 32)
  · simp (disch := decide) only [State.epochSet, State.fld_setFld_same]
    rfl

theorem Writable.exec_weltEpochWrite {hs : Fin 16} {l : Fin 4096} {v : Word} (h : Writable s .firmware (Machine.welt .WELT_LAYER_STATE hs.val l.val))
    (shut : s.stepOpen hs.val (s.weltLayer hs.val l.val).group = false) : exec (.weltEpochWrite .firmware hs l v) s = .next ((s.epochSet hs.val l.val v.toNat).answer .ok 0) := by
  refine h.next ((s.writeAct_hs .firmware _ ⟨rfl, rfl, rfl⟩).trans ?_)
  change s.weltEpochWrite .firmware (4 + hs.val - 4) l.val v.toNat = _
  rw [Nat.add_sub_cancel_left, State.weltEpochWrite, shut]
  rfl

end Sys2Proof.Machine

open Sys2Proof Sys2Proof.Machine

/-- Settles O47: the command word's fields give the command, the check its outcome, and what acceptance and refusal write is read back field by field. -/
theorem weltCommandsAreAcceptedOrRefused : Obligations.WeltCommandsAreAcceptedOrRefused := by
  unfold Obligations.WeltCommandsAreAcceptedOrRefused
  refine ⟨fun s a hs g n w busy own go => ⟨fun c => ?_, fun c => ?_, fun c => ?_, fun c => ?_, fun st l c => ?_⟩, fun s hs op g o => s.weltAccept_spec hs g o, fun s hs op st l => s.weltRefuse_spec hs op st l⟩
  · exact w.weltCmd (by decide) (State.weltCmd_accepted busy own go c)
  · exact w.weltCmd (by decide) (State.weltCmd_accepted busy own go c)
  · exact w.weltCmd (by decide) (State.weltCmd_accepted busy own go c)
  · exact w.weltCmd (by decide) (State.weltCmd_accepted busy own go c)
  · exact w.weltCmd (by decide) (State.weltCmd_refused busy own go c)

/-- Settles O48: each command of a step is performed as its guards hold, and the registers it wrote are read back. -/
theorem weltStepsAdvance : Obligations.WeltStepsAdvance := by
  unfold Obligations.WeltStepsAdvance
  refine ⟨fun s hs l live todo stage op wait epoch => ?_, fun s hs live op _ todo wait => ?_, fun s hs live phase late busy => ?_, fun s hs l live all => ?_, fun s hs l live first all => ?_,
    fun s hs l v w shut => ?_⟩
  · obtain ⟨left, taken, applied, waited, damaged, same, mem⟩ := s.committed_spec hs.val l ((s.welt hs.val).bad || (s.welt hs.val).ortBad.any (fun q => q.1 == l)) epoch
    refine ⟨_, State.exec_weltLayerCommit live todo stage op wait, left, taken, applied, waited, ?_, same, mem⟩
    rw [damaged]
    cases (s.welt hs.val).bad <;> simp [flag]
  · obtain ⟨phase, mem, cores⟩ := s.phased_spec hs.val (s.welt hs.val)
    obtain ⟨idle, status, phase', op', mem', cores'⟩ := (s.phased hs.val (s.welt hs.val)).weltDone_spec hs
      (if (s.welt hs.val).status == .ok && (s.welt hs.val).advance && (s.welt hs.val).damaged then .integrity else (s.welt hs.val).status)
    exact ⟨_, State.exec_weltCmdEnd live op todo wait, idle, phase'.trans phase, op', mem'.trans mem, cores'.trans cores, status⟩
  · obtain ⟨closed, _, mem⟩ := s.weltCloseStep_spec hs.val
    refine ⟨_, State.exec_weltStepTimeout live phase late busy, ?_, ?_, (State.setFld_mem ..).trans mem⟩
    · rw [State.wstat, State.fld_setFld_other _ _ _ _ _ (by decide) (by decide) (by decide)]
      exact closed
    · rw [State.wstat, State.fld_setFld_same _ _ _ _ (by decide) (by decide)]
      rfl
  · exact State.exec_facExchangeReady_first live all
  · exact State.exec_facExchangeReady_second live first all
  · obtain ⟨only, epoch, damaged⟩ := s.epochSet_spec hs.val l.val v.toNat
    exact ⟨_, w.exec_weltEpochWrite shut, only, epoch, damaged⟩
end

section
set_option Elab.async false -- one proof after the other: the whole text stands near the memory limit of the check
/-! The KV pools (10 R365-R372). -/
namespace Sys2Proof.Machine

variable {s t : State} {a : Actor} {q : Reg}

/-! Registers whose place in their block no row read, charge or interrupt writes. -/

/-- A register between the cores' windows and the host ports' registers, or between the controllers' registers and the interrupts' pending words, of whichever block. -/
def Reg.Spared (q : Reg) : Prop := ∃ b o, (0x1800000 ≤ o ∧ o < 0x3000000 ∨ 0x8060000 ≤ o ∧ o < 0xE000200) ∧ q.addr = 8 * 2 ^ 44 + b * 2 ^ 38 + o

theorem Reg.Spared.apart (h : q.Spared) {r : Reg} {b o : Nat} (place : o < 0x1800000 ∨ 0x3000000 ≤ o ∧ o < 0x8060000 ∨ 0xE000200 ≤ o ∧ o < 2 ^ 38) (e : r.addr = 8 * 2 ^ 44 + b * 2 ^ 38 + o) : q.addr ≠ r.addr := by
  obtain ⟨b', o', place', e'⟩ := h
  omega

theorem Reg.Spared.plain (h : q.Spared) : Plain q := by
  refine ⟨fun n w => h.apart (b := selSv0) (o := 0x1000000 + 0x200 * (n % 256) + 0x8 * (w % 64)) (by omega) ?_, fun k => h.apart (b := selIo (sesPort k)) (o := 0x3000008) (by decide) ?_,
    h.apart (b := selSv0) (o := 0xE00000) (by decide) ?_, fun ic x hx => h.apart (b := icSel ic) (o := 0xE000200 + 0x8 * (x / 64)) (by omega) ?_⟩
  · simp only [Reg.addr, acct, RegName.layout]
    omega
  · simp only [Reg.addr, hp, RegName.layout]
  · simp only [Reg.addr, RegName.layout]
  · simp only [Reg.addr, icPending, RegName.layout]
    omega

theorem Reg.Spared.apart_memc (h : q.Spared) {n : RegName} (row p : Nat) (hp : p ≤ 32) (low : 0x3000000 ≤ n.layout.base ∧ n.layout.base ≤ 0x8000100 ∧ n.layout.strideI = 0x10000 ∧ n.layout.strideJ ≤ 8) :
    q.addr ≠ (memc n (ctlOf row).1 (ctlOf row).2 p).addr := by
  have controller := ctlOf_le row
  obtain ⟨high, base, si, sj⟩ := low
  have word := Nat.mul_le_mul sj hp
  refine h.apart (b := (ctlOf row).1) (o := n.layout.base + n.layout.strideI * (ctlOf row).2 + n.layout.strideJ * p) ?_ (memc_addr ..)
  rw [si]
  omega

section
variable (h : q.Spared)
include h

theorem State.reg_fired (s : State) : s.fired.reg q = s.reg q := by
  have ctrl : q.addr ≠ injCtrl.addr := h.apart (b := selSv0) (o := 0xD00108) (by decide) (by decide)
  have stat : q.addr ≠ injStatus.addr := h.apart (b := selSv0) (o := 0xD00110) (by decide) (by decide)
  exact (State.reg_setReg_ne _ _ stat).trans ((State.reg_setReg_ne _ _ stat).trans (State.reg_setReg_ne _ _ ctrl))

theorem State.reg_readWords (s : State) (row : Nat) (ws : Nat → Bool) : (s.readWords row ws).1.reg q = s.reg q := by
  unfold State.readWords
  dsimp only
  split
  · dsimp only
    split
    · exact s.reg_fired h
    · rfl
  · rfl

theorem State.reg_countCoreEcc (s : State) (k row corr unc : Nat) (low : row < 2 ^ 15) : (s.countCoreEcc k 2 row corr unc).reg q = s.reg q := by
  have apart : q.addr ≠ (⟨.ROW_ECC_CNT, selCd (coreDie k), coreNum k, (bankOf 2 row).1⟩ : Reg).addr := by
    refine h.apart (b := coreDie k) (o := 0x4000000 + 0x100 * coreNum k + 0x8 * (row / 512)) ?_ ?_
    · have : coreNum k < 128 := Nat.mod_lt _ (by decide)
      omega
    · simp only [Reg.addr, RegName.layout, selCd, bankOf]
      omega
  unfold State.countCoreEcc
  split
  · rfl
  · exact (State.reg_setReg_ne _ _ apart).trans ((State.reg_setReg_ne _ _ apart).trans ((State.reg_setReg_ne _ _ apart).trans (s.reg_noteUnc ..)))

theorem State.reg_countSdmEcc (s : State) (d row corr unc : Nat) (low : row < 2 ^ 31) : (s.countSdmEcc d row corr unc).reg q = s.reg q := by
  have apart : q.addr ≠ (⟨.SDM_ECC_CNT, selCd d, row / 8192, 0⟩ : Reg).addr := by
    refine h.apart (b := d) (o := 0x5000000 + 0x8 * (row / 8192)) (by omega) ?_
    simp only [Reg.addr, RegName.layout, selCd]
    omega
  unfold State.countSdmEcc
  split
  · rfl
  · exact (State.reg_setReg_ne _ _ apart).trans ((State.reg_setReg_ne _ _ apart).trans ((State.reg_setReg_ne _ _ apart).trans (s.reg_noteUnc ..)))

theorem State.reg_freeze (s : State) (k : Nat) : (s.freeze k).reg q = s.reg q := by
  have apart : q.addr ≠ (⟨.CORE_ECC_STALLS, selCd (coreDie k), coreNum k, 0⟩ : Reg).addr := by
    have : coreNum k < 128 := Nat.mod_lt _ (by decide)
    refine h.apart (b := coreDie k) (o := 0x1000010 + 0x10000 * coreNum k) (by omega) ?_
    simp only [Reg.addr, RegName.layout, selCd]
    omega
  unfold State.freeze
  split
  · rfl
  · exact (State.reg_setReg_ne _ _ apart).trans (State.reg_setReg_ne _ _ apart)

theorem State.reg_countedDram (s : State) (row corr unc : Nat) : (s.countDram row corr unc).reg q = s.reg q :=
  s.reg_countDram corr unc fun p hp => h.apart_memc row p hp (by decide)

theorem State.reg_eventDram (s : State) (row : Nat) (l : Option Nat) : (s.dramEvent row l).reg q = s.reg q :=
  s.reg_dramEvent l h.plain (h.apart_memc row 0 (by decide) (by decide))

theorem State.reg_readCells (s : State) (row : Nat) (ws : Nat → Bool) : (s.readCells row ws).1.reg q = s.reg q := by
  have counted (u : State) : (u.tally (memc .MEMC_ECC_CNT (ctlOf row).1 (ctlOf row).2 (s.physPc row)) MEMC_ECC_CNT.ODECC 1).reg q = u.reg q :=
    State.reg_setReg_ne _ _ (h.apart_memc row _ (s.physPc_le row) (by decide))
  have read := s.reg_readWords h row ws
  unfold State.readCells
  dsimp only
  split
  · exact read
  · next u _ =>
    split
    · exact read
    · have both : (if u.onDie then ({ (s.readWords row ws).1 with upsets := (s.readWords row ws).1.upsets.erase u } : State).tally (memc .MEMC_ECC_CNT (ctlOf row).1 (ctlOf row).2 (s.physPc row)) MEMC_ECC_CNT.ODECC 1
          else { (s.readWords row ws).1 with upsets := (s.readWords row ws).1.upsets.erase u }).reg q = s.reg q := by
        split
        · exact (counted _).trans read
        · exact read
      split
      · exact both
      · exact both

omit h in
theorem State.reg_freshened (s : State) (n f : Nat) : (if n == 0 then s else { s with fresh := f }).reg q = s.reg q := by split <;> rfl

theorem State.reg_readDram (s : State) (row : Nat) (l : Option Nat) : (s.readDram row l).s.reg q = s.reg q := by
  unfold State.readDram
  dsimp only
  have read := s.reg_readCells h row (fun _ => true)
  generalize s.readCells row (fun _ => true) = p at read ⊢
  have counted := (State.reg_countedDram h _ row p.2.corr p.2.unc).trans ((State.reg_freshened p.1 p.2.unc (p.1.fresh + 1)).trans read)
  split
  · exact (State.reg_eventDram h _ row l).trans counted
  · exact counted

theorem State.reg_readSdm (s : State) (d row : Nat) (l : Option Nat) (low : row < 2 ^ 31) : (s.readSdm d row l).1.reg q = s.reg q := by
  have event : q.addr ≠ (⟨.SDM_DI_EVENT, selCd d, 0, 0⟩ : Reg).addr := by
    refine h.apart (b := d) (o := 0x5000600) (by decide) ?_
    simp only [Reg.addr, RegName.layout, selCd]
  have charged (u : State) : (u.chargeEvent l).reg q = u.reg q := by
    cases l with
    | none => rfl
    | some n => exact (u.aside_charge n 45 1).2 q h.plain
  unfold State.readSdm
  dsimp only
  have read := s.reg_readWords h (sdmRow d + row) (fun _ => true)
  generalize s.readWords (sdmRow d + row) (fun _ => true) = p at read ⊢
  have counted := (State.reg_countSdmEcc h _ d row p.2.corr p.2.unc low).trans ((State.reg_freshened p.1 p.2.unc (p.1.fresh + 1)).trans read)
  split
  · exact counted
  · exact ((State.aside_raise ..).2 q h.plain).trans ((State.reg_record _ _ _ _ event).trans ((charged _).trans ((State.reg_setFld_ne _ _ _ event).trans counted)))

theorem State.reg_readCoreFar (s : State) (k row : Nat) (low : row < 2 ^ 15) : (s.readCoreFar k row).1.reg q = s.reg q := by
  unfold State.readCoreFar
  dsimp only
  have read := s.reg_readWords h (bufRow k 2 row) (fun _ => true)
  generalize s.readWords (bufRow k 2 row) (fun _ => true) = p at read ⊢
  have counted := (State.reg_countCoreEcc h _ k row p.2.corr p.2.unc low).trans ((State.reg_freshened p.1 p.2.unc (p.1.fresh + 1)).trans read)
  split
  · exact counted
  · exact (State.reg_freeze h _ k).trans counted

theorem State.reg_readFar (s : State) (row : Nat) (l : Option Nat) : (s.readFar row l).s.reg q = s.reg q := by
  unfold State.readFar
  split
  · exact s.reg_readDram h row l
  · split
    · exact s.reg_readSdm h _ _ l (Nat.mod_lt _ (by decide))
    · exact s.reg_readCoreFar h _ _ (Nat.mod_lt _ (by decide))

omit h in
theorem State.reg_submit (s : State) (r : MemReq) : (s.submit r).reg q = s.reg q := by
  obtain ⟨n, p, x, e, h⟩ := s.submit_eq r
  rw [h]
  rfl

theorem State.reg_agentRead (s : State) (g : Agent) (a : Nat) : (s.agentRead g a).1.reg q = s.reg q := by
  unfold State.agentRead
  split
  · rfl
  · exact (State.reg_submit ..).trans (s.reg_readFar h ..)

omit h in
theorem State.reg_agentWrite (s : State) (g : Agent) (a : Nat) (img : RowImg) : (s.agentWrite g a img).reg q = s.reg q := by
  unfold State.agentWrite State.agentPut
  split
  · rfl
  · exact State.reg_submit ..

theorem State.reg_poolWrite (s : State) (g : Agent) (a : Nat) (l : List Byte) (bad : Bool) : (s.poolWrite g a l bad).reg q = s.reg q := by
  unfold State.poolWrite
  refine List.foldlRecOn (motive := fun t : State => t.reg q = s.reg q) _ _ rfl fun t read i _ => ?_
  dsimp only
  split
  · exact (State.reg_agentWrite ..).trans read
  · exact (State.reg_agentWrite ..).trans ((State.reg_agentRead h ..).trans read)

end

/-! Enabling a pool, the end of its initialisation, and the start and end of a batch. -/

theorem kvp_spared (n : RegName) (d : Die) (p : Fin 16) (h : 0x9000000 ≤ n.layout.base ∧ n.layout.base < 0x9000100 ∧ n.layout.strideI = 0x100) : (kvp n d.val p.val).Spared := by
  obtain ⟨low, high, si⟩ := h
  refine ⟨d.val, n.layout.base + 0x100 * p.val, by omega, ?_⟩
  simp only [Reg.addr, kvp, selCd, si]
  omega

theorem kvp_apart {n m : RegName} (d p : Nat) (h : n.layout.base ≠ m.layout.base ∧ n.layout.strideI = m.layout.strideI ∧ n.layout.strideJ = m.layout.strideJ) : (kvp n d p).addr ≠ (kvp m d p).addr :=
  addr_ne_of_base _ _ _ h

/-- A pool that is being initialised (10 R366): its configuration taken, its page lists asked to be written, and INIT 1. -/
def State.poolBegun (s : State) (d p w : Nat) (x : PoolShape) : State :=
  ((s.setReg (kvp .KVP_CFG d p) (BitVec.ofNat 64 w)).poolWrite (poolAgent d p x.lease) x.meta' x.initial false).setFld (kvp .KVP_STATUS d p) KVP_STATUS.INIT 1

theorem State.poolBegun_spec (s : State) (d : Die) (p : Fin 16) (w : Nat) (x : PoolShape) :
    (s.poolBegun d.val p.val w x).fld (kvp .KVP_STATUS d.val p.val) KVP_STATUS.INIT = 1 ∧ (s.poolBegun d.val p.val w x).fld (kvp .KVP_CFG d.val p.val) KVP_CFG.ENABLE = bits w 55 55 := by
  refine ⟨State.fld_setFld_same _ _ _ _ (by decide) (by decide), ?_⟩
  unfold State.poolBegun State.fld
  rw [State.reg_setFld_ne _ _ _ (kvp_apart _ _ (by decide)), State.reg_poolWrite (kvp_spared .KVP_CFG d p (by decide)), State.reg_setReg_same]
  exact bits_toNat_ofNat w (by decide)

/-- A reserved bit cleared leaves every field apart from it. -/
theorem bits_keepFields_apart (w : Nat) (hi lo : Nat) (h : hi < 52 ∧ 41 < lo ∨ hi < 36 ∨ 54 < lo) : bits (keepFields 0 w [⟨54, 52⟩, ⟨41, 36⟩]) hi lo = bits w hi lo := by
  unfold keepFields
  simp only [List.foldl]
  rw [bits_setBits_out _ _ _ _ _ _ (by decide) (by omega), bits_setBits_out _ _ _ _ _ _ (by decide) (by omega)]

theorem need_none {b : Bool} {st : Status} : need b st = none ↔ b = true := by cases b <;> simp [need]

/-- A sound configuration has listed formats, and a dimension, regions and pages in range. -/
theorem State.poolCheck_none {d p dim : Nat} {x : PoolShape} (h : s.poolCheck d p x dim = none) :
    (kfmtOk x.kfmt && vfmtOk x.vfmt) = true ∧ (decide (dim ≤ 2) && x.regions != 0 && x.pages != 0) = true := by
  unfold State.poolCheck firstFail at h
  rw [List.findSome?_eq_none_iff] at h
  exact ⟨need_none.1 (h _ (.head _)), need_none.1 (h _ (.tail _ (.head _)))⟩

/-- Firmware's write of a sound configuration with ENABLE 1 on a disabled pool begins its initialisation (10 R366). -/
theorem State.kvpCfgWrite_begins {d p v w : Nat} (off : s.fld (kvp .KVP_CFG d p) KVP_CFG.ENABLE = 0) (word : w = keepFields 0 (setBits v KVP_CFG.ENABLE.hi KVP_CFG.ENABLE.lo 1) [⟨54, 52⟩, ⟨41, 36⟩])
    (sound : s.poolCheck d p (poolShape w (s.fld (kvp .KVP_BASE d p) KVP_BASE.BASE) (s.fld (kvp .KVP_META d p) KVP_META.META)) (bits w KVP_CFG.DIM.hi KVP_CFG.DIM.lo) = none) :
    s.kvpCfgWrite .firmware d p (setBits v KVP_CFG.ENABLE.hi KVP_CFG.ENABLE.lo 1) =
      (s.poolBegun d p w (poolShape w (s.fld (kvp .KVP_BASE d p) KVP_BASE.BASE) (s.fld (kvp .KVP_META d p) KVP_META.META)), .ok) := by
  obtain ⟨fmts, range⟩ := State.poolCheck_none sound
  have want : bits (setBits v KVP_CFG.ENABLE.hi KVP_CFG.ENABLE.lo 1) KVP_CFG.ENABLE.hi KVP_CFG.ENABLE.lo = 1 := bits_setBits_same _ _ _ _ (by decide)
  have field (f : Fld) (apart : f.hi < 52 ∧ 41 < f.lo ∨ f.hi < 36 ∨ 54 < f.lo) : bits (setBits v KVP_CFG.ENABLE.hi KVP_CFG.ENABLE.lo 1) f.hi f.lo = bits w f.hi f.lo := by
    rw [word, bits_keepFields_apart _ _ _ apart]
  simp only [Bool.and_eq_true, decide_eq_true_eq] at fmts range
  obtain ⟨kfmt, vfmt⟩ := fmts
  obtain ⟨⟨dim, regions⟩, pages⟩ := range
  have kfmt' : kfmtOk (bits w KVP_CFG.KFMT.hi KVP_CFG.KFMT.lo) = true := kfmt
  have vfmt' : vfmtOk (bits w KVP_CFG.VFMT.hi KVP_CFG.VFMT.lo) = true := vfmt
  have regions' : (bits w KVP_CFG.REGIONS.hi KVP_CFG.REGIONS.lo != 0) = true := regions
  have pages' : (bits w KVP_CFG.PAGES.hi KVP_CFG.PAGES.lo != 0) = true := pages
  have keep (old v : Nat) : keepFields old v [] = v := rfl
  have firmware : (Actor.firmware == Actor.firmware) = true := rfl
  have mine : s.mayPool .firmware d p = true := rfl
  have dcp : isDcp .firmware = false := rfl
  unfold State.kvpCfgWrite
  simp only [want, off, field KVP_CFG.KFMT (by decide), field KVP_CFG.VFMT (by decide), field KVP_CFG.DIM (by decide), field KVP_CFG.REGIONS (by decide), field KVP_CFG.PAGES (by decide), kfmt', vfmt', dim, regions', pages',
    firmware, mine, dcp, if_true, List.append_nil, keep, ← word, sound]
  rfl

/-- A batch begun (10 R370). -/
def State.batchBegun (s : State) (d p n : Nat) (f : Option Nat) : State :=
  { ((s.setFld (kvp .KVP_STATUS d p) KVP_STATUS.BUSY 1).setFld (kvp .KVP_STATUS d p) KVP_STATUS.DONE 0).setFld (kvp .KVP_STATUS d p) KVP_STATUS.LAST_STATUS 0 with
    pools := tset s.pools (16 * d + p) ⟨n, 0, f, s.now⟩ }

theorem State.batchBegun_spec (s : State) (d p n : Nat) (f : Option Nat) :
    (s.batchBegun d p n f).fld (kvp .KVP_STATUS d p) KVP_STATUS.BUSY = 1 ∧ (s.batchBegun d p n f).fld (kvp .KVP_STATUS d p) KVP_STATUS.DONE = 0 ∧ SameRegs s (s.batchBegun d p n f) [kvp .KVP_STATUS d p] ∧
      (s.batchBegun d p n f).mem = s.mem ∧ (s.batchBegun d p n f).poolRun d p = some ⟨n, 0, f, s.now⟩ := by
  have mine := List.mem_singleton_self (kvp .KVP_STATUS d p)
  have set : (s.batchBegun d p n f).fld = (((s.setFld (kvp .KVP_STATUS d p) KVP_STATUS.BUSY 1).setFld (kvp .KVP_STATUS d p) KVP_STATUS.DONE 0).setFld (kvp .KVP_STATUS d p) KVP_STATUS.LAST_STATUS 0).fld := rfl
  refine ⟨?_, ?_, (((SameRegs.refl s _).setFld _ _ mine).setFld _ _ mine).setFld _ _ mine, rfl, tget?_tset_same ..⟩
  · rw [set]
    simp (disch := decide) only [State.fld_setFld_other, State.fld_setFld_same]
    rfl
  · rw [set]
    simp (disch := decide) only [State.fld_setFld_other, State.fld_setFld_same]
    rfl

/-- GO with a count on an enabled, idle pool of an ACTIVE lease begins a batch. -/
theorem State.kvpGo_begins {d p v : Nat} (may : s.mayPool a d p = true) (busy : s.fld (kvp .KVP_STATUS d p) KVP_STATUS.BUSY = 0) (ready : s.fld (kvp .KVP_STATUS d p) KVP_STATUS.INIT = 0)
    (enabled : s.fld (kvp .KVP_CFG d p) KVP_CFG.ENABLE = 1) (active : s.active (s.fld (kvp .KVP_CFG d p) KVP_CFG.LEASE) = true) (go : s.snapStopped (s.fld (kvp .KVP_CFG d p) KVP_CFG.LEASE) = false)
    (named : bits v KVP_GO.COUNT.hi KVP_GO.COUNT.lo ≠ 0) :
    s.kvpGo a d p (setBit v 0 true) = (s.batchBegun d p (bits v KVP_GO.COUNT.hi KVP_GO.COUNT.lo) (if bitAt v KVP_GO.SETFLAG.lo then some (bits v KVP_GO.FLAG.hi KVP_GO.FLAG.lo) else none), .ok) := by
  have count : bits (setBit v 0 true) KVP_GO.COUNT.hi KVP_GO.COUNT.lo = bits v KVP_GO.COUNT.hi KVP_GO.COUNT.lo := bits_setBit_out _ _ _ _ _ (by decide)
  have flag' : bits (setBit v 0 true) KVP_GO.FLAG.hi KVP_GO.FLAG.lo = bits v KVP_GO.FLAG.hi KVP_GO.FLAG.lo := bits_setBit_out _ _ _ _ _ (by decide)
  have set : bitAt (setBit v 0 true) KVP_GO.SETFLAG.lo = bitAt v KVP_GO.SETFLAG.lo := bitAt_setBit_apart _ _ (by decide)
  unfold State.kvpGo
  dsimp only
  rw [count, flag', set, may, bitAt_setBit_same, busy, ready, enabled, active, go]
  have counted : (bits v KVP_GO.COUNT.hi KVP_GO.COUNT.lo == 0) = false := beq_eq_false_iff_ne.2 named
  rw [counted]
  rfl

/-- A flag set at the cores of a die keeps everything but the cores. -/
theorem State.flagDie_keeps (s : State) (d l f : Nat) : (s.flagDie d l f).regs = s.regs ∧ (s.flagDie d l f).pools = s.pools ∧ (s.flagDie d l f).colls = s.colls ∧ (s.flagDie d l f).mem = s.mem := by
  unfold State.flagDie
  refine List.foldlRecOn (motive := fun t : State => t.regs = s.regs ∧ t.pools = s.pools ∧ t.colls = s.colls ∧ t.mem = s.mem) _ _ ⟨rfl, rfl, rfl, rfl⟩ fun t kept c _ => ?_
  split
  · unfold State.landFlag
    split
    · exact kept
    · exact kept
  · exact kept

theorem Aside.pools (h : Aside s t) : t.pools = s.pools := by obtain ⟨⟨_, _, _, _, _, _, _, _, _, rfl⟩, _⟩ := h; rfl

/-- A batch over: it is gone, BUSY is 0 and memory as it was (10 R371). -/
theorem State.batchDone_spec (s : State) (d : Die) (p : Fin 16) (r : PoolRun) :
    (s.batchDone d.val p.val r).poolRun d.val p.val = none ∧ (s.batchDone d.val p.val r).fld (kvp .KVP_STATUS d.val p.val) KVP_STATUS.BUSY = 0 ∧ (s.batchDone d.val p.val r).mem = s.mem := by
  have ended : (s.batchEnd d.val p.val r).poolRun d.val p.val = none ∧ (s.batchEnd d.val p.val r).fld (kvp .KVP_STATUS d.val p.val) KVP_STATUS.BUSY = 0 ∧ (s.batchEnd d.val p.val r).mem = s.mem := by
    unfold State.batchEnd
    dsimp only
    generalize ({ s with pools := tdel s.pools (16 * d.val + p.val) } : State).fld (kvp .KVP_CFG d.val p.val) KVP_CFG.LEASE = l
    have charged := State.aside_charge { s with pools := tdel s.pools (16 * d.val + p.val) } l 4 (s.now - r.since)
    generalize State.charge { s with pools := tdel s.pools (16 * d.val + p.val) } l 4 (s.now - r.since) = c at charged ⊢
    have raised := State.aside_raise (c.setFld (kvp .KVP_STATUS d.val p.val) KVP_STATUS.BUSY 0) d.val (0xA0 + p.val)
    refine ⟨?_, ?_, raised.mem.trans charged.mem⟩
    · rw [State.poolRun, raised.pools]
      exact (congrArg (tget? · _) charged.pools).trans (tget?_tdel_same ..)
    · rw [raised.fld (kvp_spared .KVP_STATUS d p (by decide)).plain]
      exact State.fld_setFld_same _ _ _ _ (by decide) (by decide)
  obtain ⟨gone, idle, mem⟩ := ended
  unfold State.batchDone
  dsimp only
  generalize s.batchEnd d.val p.val r = u at gone idle mem ⊢
  generalize u.fld (kvp .KVP_CFG d.val p.val) KVP_CFG.LEASE = l
  cases r.flag with
  | none => exact ⟨gone, idle, mem⟩
  | some f =>
    obtain ⟨regs, pools, _, kept⟩ := u.flagDie_keeps d.val l f
    refine ⟨?_, ?_, kept.trans mem⟩
    · rw [State.poolRun, pools]
      exact gone
    · rw [State.fld, State.reg, regs]
      exact idle

/-! The entry whose turn it is. -/

/-- An entry of the operation, sound, is given to it. -/
theorem PoolTurn.entry {s u : State} {d p op : Nat} {r : PoolRun} {e : PoolEntry} {eff : Agent → PoolShape → PoolEntry → State → State × Status × Option Nat} (h : PoolTurn s d p op r e u) (listed : opListed op = true) :
    s.entry d p op eff = (eff (s.poolUser d p) (s.pool d p) e u).1.entryDone d p (s.listAt d p r.next) (eff (s.poolUser d p) (s.pool d p) e u).2.1 (eff (s.poolUser d p) (s.pool d p) e u).2.2 := by
  obtain ⟨_, run, more, idle, reach, ⟨place, found⟩, rfl, rfl, clean, page, stage, rfl⟩ := h
  unfold State.entry
  rw [run]
  dsimp only
  rw [if_neg (by simp [more, idle, reach]), found]
  dsimp only
  have staged : ((s.nextEntry d p r.next).op == 5 && !s.spanReach (s.nextEntry d p r.next).stage (s.pool d p).pageBytes) = false := by
    by_cases five : (s.nextEntry d p r.next).op = 5
    · rw [stage five]; simp
    · simp [five]
  have paged : ((s.nextEntry d p r.next).op != 1 && decide ((s.pool d p).pages ≤ (s.nextEntry d p r.next).page)) = false := by
    rcases page with one | low
    · simp [one]
    · simp [low]
  rw [if_neg (by simp [staged]), if_neg (by rw [listed, clean, paged]; decide)]

theorem PoolTurn.live {s u : State} {d p op : Nat} {r : PoolRun} {e : PoolEntry} (h : PoolTurn s d p op r e u) : s.life = .running := h.1

/-- An entry whose place in the list may not be accessed is done with that status. -/
theorem State.entry_refused {d p op : Nat} {r : PoolRun} {st : Status} (eff : Agent → PoolShape → PoolEntry → State → State × Status × Option Nat) (run : s.poolRun d p = some r) (more : r.next < r.count)
    (idle : s.poolWaits d p = false) (reach : s.spanReach (s.listAt d p r.next) 16 = true) (found : s.find (some (s.pool d p).lease) (s.listAt d p r.next) = .error st) :
    s.entry d p op eff = s.entryDone d p (s.listAt d p r.next) st none := by
  unfold State.entry
  rw [run]
  dsimp only
  rw [if_neg (by simp [more, idle, reach]), found]

end Sys2Proof.Machine

open Sys2Proof Sys2Proof.Machine

/-- Settles O49: the configuration's fields are those the check passes, the entry's turn gives it to its operation, and the registers written are read back. -/
theorem poolBatchesRun : Obligations.PoolBatchesRun := by
  unfold Obligations.PoolBatchesRun
  refine ⟨fun s d p v w writable off word sound => ?_, fun s d p live init idle => ?_, fun s a d p v w may busy ready enabled active go named => ?_, fun s u d p r e turn => ?_, fun s u v d p r e n turn count => ?_,
    fun s u v d p r e n turn count => ?_, fun s u v d p r e n turn count => ?_, fun s u v d p r e n turn count staged one named token source region => ?_, fun s u v d p r e n turn count staged more => ?_,
    fun s c d p r st kind live run more idle reach found => ?_, fun s d p r live run all idle => ?_⟩
  · obtain ⟨init, enable⟩ := s.poolBegun_spec d p w (poolShape w (s.fld (kvp .KVP_BASE d.val p.val) KVP_BASE.BASE) (s.fld (kvp .KVP_META d.val p.val) KVP_META.META))
    refine ⟨_, writable.next ((s.writeAct_cd .firmware _ ⟨rfl, rfl, rfl⟩).trans (State.kvpCfgWrite_begins off word sound)), init, enable.trans ?_⟩
    rw [word, bits_keepFields_apart _ _ _ (by decide)]
    exact bits_setBits_same _ _ _ _ (by decide)
  · refine ⟨(s.setFld (kvp .KVP_STATUS d.val p.val) KVP_STATUS.INIT 0).setFld (kvp .KVP_FREE d.val p.val) KVP_FREE.FREE (s.pool d.val p.val).pages, ?_,
      ((OnlyRegs.refl s _).setFld _ _ (.head _)).setFld _ _ (.tail _ (.head _)), ?_, State.fld_setFld_same _ _ _ _ (by decide) (by decide)⟩
    · change execKvpInitDone d p s = _
      rw [execKvpInitDone, State.live_run live]
      exact if_neg (by simp [init, idle])
    · rw [State.fld_setFld_ne _ _ _ _ (kvp_apart _ _ (by decide))]
      exact State.fld_setFld_same _ _ _ _ (by decide) (by decide)
  · obtain ⟨run, done, same, mem, begun⟩ := s.batchBegun_spec d.val p.val (bits v.toNat KVP_GO.COUNT.hi KVP_GO.COUNT.lo) (if bitAt v.toNat KVP_GO.SETFLAG.lo then some (bits v.toNat KVP_GO.FLAG.hi KVP_GO.FLAG.lo) else none)
    exact ⟨_, w.next ((s.writeAct_cd a _ ⟨rfl, rfl, rfl⟩).trans (State.kvpGo_begins may busy ready enabled active go named)), run, done, same, mem, begun⟩
  · change execAlloc d p s = _
    rw [execAlloc, State.live_run turn.live, turn.entry rfl]
    dsimp only
    by_cases none' : u.freePages d.val p.val = 0
    · simp only [none', beq_self_eq_true, if_true]
    · simp only [none', beq_eq_false_iff_ne.2 none', Bool.false_eq_true, if_false]
  · change execShare d p s = _
    rw [execShare, State.live_run turn.live, turn.entry rfl]
    dsimp only
    rw [count]
    dsimp only
    by_cases zero : n = 0
    · simp only [zero, beq_self_eq_true, if_true]
    · by_cases full : n = 65535
      · simp only [full]
        rfl
      · simp only [zero, full, beq_eq_false_iff_ne.2 zero, beq_eq_false_iff_ne.2 full, Bool.false_eq_true, if_false]
  · change execFree d p s = _
    rw [execFree, State.live_run turn.live, turn.entry rfl]
    dsimp only
    rw [count]
    dsimp only
    by_cases zero : n = 0
    · simp only [zero, beq_self_eq_true, if_true]
    · by_cases one : n = 1
      · simp only [one]
        rfl
      · simp only [zero, one, beq_eq_false_iff_ne.2 zero, beq_eq_false_iff_ne.2 one, Bool.false_eq_true, if_false]
  · change execMakePrivate d p s = _
    rw [execMakePrivate, State.live_run turn.live, turn.entry rfl]
    dsimp only
    rw [count]
    dsimp only
    by_cases zero : n = 0
    · simp only [zero, beq_self_eq_true, if_true]
    · by_cases one : n = 1
      · simp only [one]
        rfl
      · by_cases none' : u.freePages d.val p.val = 0
        · simp only [zero, one, none', beq_eq_false_iff_ne.2 zero, beq_eq_false_iff_ne.2 one, beq_self_eq_true, Bool.false_eq_true, if_false, if_true]
        · simp only [zero, one, none', beq_eq_false_iff_ne.2 zero, beq_eq_false_iff_ne.2 one, beq_eq_false_iff_ne.2 none', Bool.false_eq_true, if_false]
  · change execAppend d p s = _
    rw [execAppend, State.live_run turn.live, turn.entry rfl]
    dsimp only
    have sound : (e.count == 0 || decide (64 < e.offset + e.count) || decide (64 < e.src + e.count) || decide ((s.pool d.val p.val).regions ≤ e.region) || (none : Option Status).isSome) = false := by
      simp [named, token, source, region]
    rw [count, staged, one]
    dsimp only
    rw [sound]
    rfl
  · change execAppend d p s = _
    rw [execAppend, State.live_run turn.live, turn.entry rfl]
    dsimp only
    rw [count, staged]
    dsimp only
    rw [if_neg (by decide), if_pos (by simpa using more)]
  · rcases kind with rfl | rfl | rfl | rfl | rfl
    · change execAlloc d p s = _
      rw [execAlloc, State.live_run live, State.entry_refused _ run more idle reach found]
    · change execShare d p s = _
      rw [execShare, State.live_run live, State.entry_refused _ run more idle reach found]
    · change execFree d p s = _
      rw [execFree, State.live_run live, State.entry_refused _ run more idle reach found]
    · change execMakePrivate d p s = _
      rw [execMakePrivate, State.live_run live, State.entry_refused _ run more idle reach found]
    · change execAppend d p s = _
      rw [execAppend, State.live_run live, State.entry_refused _ run more idle reach found]
  · obtain ⟨gone, over', mem⟩ := s.batchDone_spec d p r
    refine ⟨s.batchDone d.val p.val r, ?_, gone, over', mem⟩
    change execKvpBatchComplete d p s = _
    rw [execKvpBatchComplete, State.live_run live, run]
    exact congrArg Host.Outcome.next (if_pos (by simp [State.batchOver, all, idle]))
end

section
set_option Elab.async false -- one proof after the other: the whole text stands near the memory limit of the check
/-! Leases created, bound, unbound, aborted and quiesced (15 R536-R547). -/
namespace Sys2Proof.Machine

variable {s t u v : State} {q : DcpHdr} {o plen dlen k : Nat} {named dlenOk paramOk : Bool} {x : Session}

/-! What a command's operation gives besides a reply. -/

/-- A command whose operation runs on is begun, with its bound. -/
theorem Performs.runs (h : Performs s q o plen dlen named k x u) (hd : dlenOk = true) (hp : paramOk = true) (bound : Nat) {act : State → Nat → Session → State × DcpOut} (e : act u k x = (t, .runs)) :
    s.dcp q o plen dlenOk paramOk named bound act = t.beginCmd k q.seq bound := by
  rw [h.dcp hd hp bound act, e]

/-- A command whose operation waits is held. -/
theorem Performs.waits (h : Performs s q o plen dlen named k x u) (hd : dlenOk = true) (hp : paramOk = true) (bound : Nat) {done : Nat} {act : State → Nat → Session → State × DcpOut} (e : act u k x = (t, .waits done)) :
    s.dcp q o plen dlenOk paramOk named bound act = t.holdCmd k q.seq bound done := by
  rw [h.dcp hd hp bound act, e]

/-- A command whose operation replies is answered with that reply. -/
theorem Performs.answered (h : Performs s q o plen dlen named k x u) (hd : dlenOk = true) (hp : paramOk = true) (bound : Nat) {st : Status} {params data : List Byte} {act : State → Nat → Session → State × DcpOut}
    (e : act u k x = (t, .reply st params data)) : s.dcp q o plen dlenOk paramOk named bound act = t.reply k (replyOf q o st params data) := by
  rw [h.dcp hd hp bound act, e]
  rfl

theorem Performs.no_data (h : Performs s q o plen 0 named k x u) : (q.dlen == 0) = true := by rw [h.dlen_eq]; rfl

/-! LEASE_CREATE (15 R536). -/

/-- The configuration of a lease made ACTIVE. -/
def State.leaseNamed (s : State) (n vc sh : Nat) : State :=
  (((s.resetReg (leaseCfg n)).setLeaseState n 1).setFld (leaseCfg n) LEASE_CFG.VC vc).setFld (leaseCfg n) LEASE_CFG.SHARES sh

/-- A lease made ACTIVE: its configuration and its seed, with no energy counted. -/
def State.leaseSet (s : State) (n vc sh : Nat) (seed : Word) : State :=
  let s := (s.leaseNamed n vc sh).setReg ⟨.LEASE_SEED, selSv0, n, 0⟩ seed
  { s with energyBytes := tdel s.energyBytes n }

/-- A lease created: set, with its accounts at zero, for a new tenant. -/
def State.leaseMade (s : State) (n vc sh : Nat) (seed : Word) : State :=
  ((List.range 64).foldl (fun s w => s.resetReg (acct n w)) (s.leaseSet n vc sh seed)).newTenant n

theorem State.leaseSet_spec (s : State) (n : Nat) {vc sh : Nat} (seed : Word) (hv : vc ≤ 7) (hs : sh ≤ 65535) :
    (s.leaseSet n vc sh seed).leaseState n = 1 ∧ (s.leaseSet n vc sh seed).fld (leaseCfg n) LEASE_CFG.VC = vc ∧ (s.leaseSet n vc sh seed).fld (leaseCfg n) LEASE_CFG.SHARES = sh ∧
      (s.leaseSet n vc sh seed).reg ⟨.LEASE_SEED, selSv0, n, 0⟩ = seed ∧ (s.leaseSet n vc sh seed).mem = s.mem ∧ (s.leaseSet n vc sh seed).cores = s.cores := by
  have words (r : Reg) : (s.leaseSet n vc sh seed).reg r = ((s.leaseNamed n vc sh).setReg ⟨.LEASE_SEED, selSv0, n, 0⟩ seed).reg r := by
    simp only [State.leaseSet, State.reg]
  have config (f : Fld) : (s.leaseSet n vc sh seed).fld (leaseCfg n) f = (s.leaseNamed n vc sh).fld (leaseCfg n) f := by
    have apart : (leaseCfg n).addr ≠ (⟨.LEASE_SEED, selSv0, n, 0⟩ : Reg).addr := addr_ne_of_base _ _ _ (by decide)
    rw [State.fld, words, State.reg_setReg_ne _ _ apart, State.fld]
  refine ⟨?_, ?_, ?_, ?_, ?_, ?_⟩
  · rw [State.leaseState, config]
    simp (disch := decide) only [State.leaseNamed, State.setLeaseState, State.fld_setFld_other, State.fld_setFld_same]
    rfl
  · rw [config]
    simp (disch := decide) only [State.leaseNamed, State.setLeaseState, State.fld_setFld_other, State.fld_setFld_same]
    exact Nat.mod_eq_of_lt (Nat.lt_succ_of_le hv)
  · rw [config]
    simp (disch := decide) only [State.leaseNamed, State.setLeaseState, State.fld_setFld_same]
    exact Nat.mod_eq_of_lt (Nat.lt_succ_of_le hs)
  · rw [words, State.reg_setReg_same]
  · simp only [State.leaseSet, State.leaseNamed, State.setLeaseState, State.setReg_mem, State.setFld_mem, State.resetReg_mem]
  · simp only [State.leaseSet, State.leaseNamed, State.setLeaseState, State.setReg_cores, State.setFld_cores, State.resetReg_cores]

theorem State.newTenant_keeps (s : State) (n : Nat) {r : Reg} (h : ∀ m, m ∈ [RegName.RNG_STEP, .SNAP_STAT, .SNAP_RESTORE] → r.addr ≠ (⟨m, selSv0, n, 0⟩ : Reg).addr) :
    (s.newTenant n).reg r = s.reg r ∧ (s.newTenant n).mem = s.mem ∧ (s.newTenant n).cores = s.cores :=
  ⟨(State.reg_resetReg_ne _ (h _ (.tail _ (.tail _ (.head _))))).trans ((State.reg_resetReg_ne _ (h _ (.tail _ (.head _)))).trans (State.reg_setReg_ne _ _ (h _ (.head _)))), rfl, rfl⟩

theorem State.resetRegs_mem_cores (s : State) (l : List Reg) : (l.foldl State.resetReg s).mem = s.mem ∧ (l.foldl State.resetReg s).cores = s.cores :=
  List.foldlRecOn (motive := fun t : State => t.mem = s.mem ∧ t.cores = s.cores) _ _ ⟨rfl, rfl⟩ fun _ e _ _ => e

theorem State.leaseMade_spec (s : State) {n vc sh : Nat} (seed : Word) (hn : n < 256) (hv : vc ≤ 7) (hs : sh ≤ 65535) :
    (s.leaseMade n vc sh seed).leaseState n = 1 ∧ (s.leaseMade n vc sh seed).fld (leaseCfg n) LEASE_CFG.VC = vc ∧ (s.leaseMade n vc sh seed).fld (leaseCfg n) LEASE_CFG.SHARES = sh ∧
      (s.leaseMade n vc sh seed).reg ⟨.LEASE_SEED, selSv0, n, 0⟩ = seed ∧ (s.leaseMade n vc sh seed).fld (acct n 0) ACCT.COUNT = 0 ∧ (s.leaseMade n vc sh seed).mem = s.mem ∧ (s.leaseMade n vc sh seed).cores = s.cores := by
  have apart (m : RegName) (hm : m ∈ [RegName.RNG_STEP, .SNAP_STAT, .SNAP_RESTORE]) : (leaseCfg n).addr ≠ (⟨m, selSv0, n, 0⟩ : Reg).addr ∧ (⟨.LEASE_SEED, selSv0, n, 0⟩ : Reg).addr ≠ (⟨m, selSv0, n, 0⟩ : Reg).addr ∧
      (acct n 0).addr ≠ (⟨m, selSv0, n, 0⟩ : Reg).addr := by
    simp only [List.mem_cons, List.not_mem_nil, or_false] at hm
    rcases hm with rfl | rfl | rfl <;> simp only [Reg.addr, leaseCfg, acct, RegName.layout] <;> omega
  have counts (r : Reg) (hr : r ∈ (List.range 64).map (acct n)) : (leaseCfg n).addr ≠ r.addr ∧ (⟨.LEASE_SEED, selSv0, n, 0⟩ : Reg).addr ≠ r.addr := by
    obtain ⟨w, -, rfl⟩ := List.mem_map.1 hr
    simp only [Reg.addr, leaseCfg, acct, RegName.layout]
    omega
  obtain ⟨state, chan, shares, seeded, mem, cores⟩ := s.leaseSet_spec n seed hv hs
  have form : s.leaseMade n vc sh seed = (((List.range 64).map (acct n)).foldl State.resetReg (s.leaseSet n vc sh seed)).newTenant n := by rw [State.leaseMade, List.foldl_map]
  have mine : acct n 0 ∈ (List.range 64).map (acct n) := List.mem_map.2 ⟨0, List.mem_range.2 (by decide), rfl⟩
  rw [form]
  generalize s.leaseSet n vc sh seed = c at state chan shares seeded mem cores ⊢
  generalize (List.range 64).map (acct n) = l at counts mine ⊢
  obtain ⟨rMem, rCores⟩ := c.resetRegs_mem_cores l
  obtain ⟨tConfig, tMem, tCores⟩ := State.newTenant_keeps (l.foldl State.resetReg c) n fun m hm => (apart m hm).1
  have config : ((l.foldl State.resetReg c).newTenant n).reg (leaseCfg n) = c.reg (leaseCfg n) := tConfig.trans (State.reg_resetRegs_apart (fun r hr => (counts r hr).1) c)
  refine ⟨?_, ?_, ?_, ?_, ?_, tMem.trans (rMem.trans mem), tCores.trans (rCores.trans cores)⟩
  · rw [State.leaseState, State.fld, config]
    exact state
  · rw [State.fld, config]
    exact chan
  · rw [State.fld, config]
    exact shares
  · exact (State.newTenant_keeps _ n fun m hm => (apart m hm).2.1).1.trans ((State.reg_resetRegs_apart (fun r hr => (counts r hr).2) c).trans seeded)
  · rw [State.fld, (State.newTenant_keeps _ n fun m hm => (apart m hm).2.2).1, c.reg_resetRegs rfl (.inl mine)]
    rfl

end Sys2Proof.Machine

open Sys2Proof Sys2Proof.Machine

/-- Settles O58: each command that may be performed is given to its operation, whose guards decide its outcome; of a lease made every word is read back. -/
theorem leasesAreCreatedBoundAndQuiesced : Obligations.LeasesAreCreatedBoundAndQuiesced := by
  unfold Obligations.LeasesAreCreatedBoundAndQuiesced
  refine ⟨fun s q n vc sh seed k x u h free lowVc highVc lowSh highSh state => ?_, fun s q n vc sh seed k x u h free lowVc highVc lowSh highSh state => ?_, fun s q n kind first count k x u v h free read => ⟨fun st c => ?_, fun c w => ?_, fun c w => ?_⟩,
    fun s q n kind first count k x u h free check => ?_, fun s q n m kind first count k x u v h free read check => ?_, fun s q n target k x u h free state calm => ?_, fun s q n d k x u h len state => ?_, fun s q n k x u h => ?_,
    fun s n z live found => ?_, fun s n z live found => ?_⟩
  · have params : (decide (2 ≤ vc) && decide (vc ≤ 7) && decide (1 ≤ sh) && decide (sh ≤ 65535)) = true := by simp [lowVc, highVc, lowSh, highSh]
    refine ⟨u.leaseMade n.val vc sh seed, ?_, u.leaseMade_spec seed n.isLt highVc highSh⟩
    change execLeaseCreate q n vc sh seed s = _
    rw [execLeaseCreate, State.live_run h.live, free, if_neg (by decide)]
    refine congrArg Host.Outcome.next (h.answered h.no_data params (ms 1) ?_)
    dsimp only
    rw [if_neg (by simp [state])]
    rfl
  · have params : (decide (2 ≤ vc) && decide (vc ≤ 7) && decide (1 ≤ sh) && decide (sh ≤ 65535)) = true := by simp [lowVc, highVc, lowSh, highSh]
    change execLeaseCreate q n vc sh seed s = _
    rw [execLeaseCreate, State.live_run h.live, free, if_neg (by decide)]
    refine congrArg Host.Outcome.next (h.answered h.no_data params (ms 1) ?_)
    exact if_pos (by simp [state])
  · change execLeaseBind q n kind first count s = _
    rw [execLeaseBind, State.live_run h.live, free, if_neg (by decide)]
    refine congrArg Host.Outcome.next (h.answered h.no_data rfl _ ?_)
    dsimp only
    rw [read, c]
    rfl
  · change execLeaseBind q n kind first count s = _
    rw [execLeaseBind, State.live_run h.live, free, if_neg (by decide)]
    refine congrArg Host.Outcome.next (h.waits h.no_data rfl _ ?_)
    dsimp only
    rw [read, c]
    exact if_pos w
  · change execLeaseBind q n kind first count s = _
    rw [execLeaseBind, State.live_run h.live, free, if_neg (by decide)]
    refine congrArg Host.Outcome.next (h.answered h.no_data rfl _ ?_)
    dsimp only
    rw [read, c]
    exact if_neg (by rw [w]; decide)
  · change execLeaseUnbind q n kind first count s = _
    rw [execLeaseUnbind, State.live_run h.live, free, if_neg (by decide)]
    simp only [State.unbind, beq_iff_eq]
    refine congrArg Host.Outcome.next (h.runs h.no_data rfl _ ?_)
    dsimp only [Option.isSome]
    rw [if_neg Bool.false_ne_true, check]
    rfl
  · change execLeaseRebind q n m kind first count s = _
    rw [execLeaseRebind, State.live_run h.live, free, if_neg (by decide)]
    simp only [State.unbind, beq_iff_eq]
    refine congrArg Host.Outcome.next (h.runs h.no_data rfl _ ?_)
    dsimp only [Option.isSome]
    rw [if_pos rfl, read, check]
    rfl
  · obtain ⟨live, turn, _⟩ := id h
    change execLeaseAbort q n 0 target s = _
    rw [execLeaseAbort, State.live_run live]
    dsimp only
    rw [free, turn]
    rw [if_neg (by simp)]
    refine congrArg Host.Outcome.next (h.runs h.no_data rfl _ ?_)
    rw [if_neg (by simp [state]), calm]
    rfl
  · refine h.replies h.no_data (by simp [len]) _ ?_
    exact if_neg (by simp [state])
  · obtain ⟨live, turn, _⟩ := id h
    change execLeaseAcct q n s = _
    rw [execLeaseAcct, State.live_run live]
    dsimp only
    rw [turn]
    exact congrArg Host.Outcome.next (h.answered h.no_data rfl _ rfl)
  · change execQuiesceComplete n s = _
    rw [execQuiesceComplete, State.live_run live, found]
  · change execQuiesceTimeout n s = _
    rw [execQuiesceTimeout, State.live_run live, found]
end

section
set_option Elab.async false -- one proof after the other: the whole text stands near the memory limit of the check
/-! Snapshots: the stop of a lease, its copy, the image's bytes, and its restore (18 R624-R638). -/
namespace Sys2Proof.Machine

variable {s t u : State} {q : DcpHdr} {k : Nat} {x : Session}

theorem State.exec_snapshotTake (h : Performs s q 0x0501 0 0 true k x u) :
    exec (.snapshotTake q) s = match u.takeCheck x.actsFor with
      | some st => .next (u.reply k (replyOf q 0x0501 st [] []))
      | none => .next ((u.stopLease x.actsFor (some (k, q.seq)) false 0 (u.snapBytes x.actsFor) false).beginCmd k q.seq (stopBound (s.snapBytes x.actsFor))) := by
  obtain ⟨live, turn, _⟩ := id h
  change execSnapshotTake q s = _
  rw [execSnapshotTake, State.live_run live]
  dsimp only
  rw [turn]
  cases check : u.takeCheck x.actsFor with
  | some st => exact congrArg Host.Outcome.next (h.answered h.no_data rfl _ (by rw [check]; rfl))
  | none => exact congrArg Host.Outcome.next (h.runs h.no_data rfl _ (by rw [check]))

theorem State.snapStopped_stopLease (s : State) (n : Nat) (cmd : Option (Nat × Nat)) (re : Bool) (id b : Nat) (rd : Bool) : (s.stopLease n cmd re id b rd).snapStopped n = true := by
  simp only [State.stopLease, State.snapStopped, beq_self_eq_true]

theorem State.exec_snapshotStopEnd {n : Fin 256} {o : SnapOp} (live : s.life = .running) (op : s.snapOp = some o) (lease : o.lease = n.val) (idle : s.engineBusy .dcp 0 o.lease = false) :
    exec (.snapshotStopEnd n) s = .next (s.stopEnd o) := by
  change execSnapshotStopEnd n s = _
  rw [execSnapshotStopEnd, State.live_run live, op]
  exact if_neg (by simp [idle, ← lease])

theorem State.exec_autoSnapshot {n : Fin 256} (live : s.life = .running) (ended : s.stepEnds.contains n.val = true) (e : u = { s with stepEnds := s.stepEnds.filter (· != n.val) })
    (auto : u.fld (snap .SNAP_POLICY n.val) SNAP_POLICY.AUTO = 1)
    (due : (tget? s.lastSnap n.val).getD (tget 0 s.leaseBorn n.val) + 1100000000 * u.fld (snap .SNAP_STAT n.val) SNAP_STAT.INTERVAL_S ≤ s.now) (check : u.takeCheck n.val = none) :
    exec (.autoSnapshot n) s = .next (u.stopLease n.val none false 0 (u.snapBytes n.val) false) := by
  subst e
  change execAutoSnapshot n s = _
  rw [execAutoSnapshot, State.live_run live]
  dsimp only
  rw [ended, if_neg (by decide)]
  refine if_neg ?_
  rw [auto, check, decide_eq_false (Nat.not_lt.2 due)]
  decide

theorem State.exec_epochCheck {n : Fin 256} {g : Fin 128} (live : s.life = .running) (some' : s.groupUnits n.val g.val ≠ []) (idle : ∀ u, u ∈ s.groupUnits n.val g.val → (s.welt u).op = 0) :
    exec (.epochCheck n g) s = .next ((s.groupUnits n.val g.val).foldl (fun s u => s.epochUnit n.val u g.val) (s.noteFailure n.val)) := by
  have first : (s.groupUnits n.val g.val).isEmpty = false := List.isEmpty_eq_false_iff.2 some'
  have calm : (s.groupUnits n.val g.val).any (fun hs => (s.welt hs).op != 0 && (s.welt hs).group == g.val) = false := by
    rw [List.any_eq_false]
    intro hs mem
    simp [idle hs mem]
  change execEpochCheck n g s = _
  rw [execEpochCheck, State.live_run live]
  dsimp only
  rw [first, calm, if_neg (by decide)]

theorem State.exec_snapshotPush {id : Word} {off : Nat} {data : List Byte} {im : SnapImage} (h : Performs s q 0x0503 16 data.length true k x u) (low : 1 ≤ data.length) (high : data.length ≤ 8192) (later : 38 < off)
    (image : u.snapOf x.actsFor id.toNat = some im) (room : off + data.length ≤ im.bytes) :
    exec (.snapshotPush q id off data) s = .next ((u.pushInto im off data).1.reply k (replyOf q 0x0503 .ok [] [])) := by
  refine h.replies (by simp [h.dlen_eq, low, high]) rfl _ ?_
  have early : decide (off ≤ 38) = false := decide_eq_false (Nat.not_le.2 later)
  dsimp only
  rw [early, Bool.false_and, Bool.false_and, if_neg Bool.false_ne_true, image]
  have taken : (u.pushInto im off data).2 = statusOut .ok := by rw [State.pushInto, if_neg (Nat.not_lt.2 room)]
  exact Prod.ext rfl taken

theorem State.exec_snapshotPull {id : Word} {off n : Nat} {im : SnapImage} (h : Performs s q 0x0502 24 0 true k x u) (low : 1 ≤ n) (high : n ≤ 8192) (image : u.snapOf x.actsFor id.toNat = some im) (room : off + n ≤ im.bytes)
    (sound : (u.stageRead im off n).2.2 = false) :
    exec (.snapshotPull q id off n) s = .next ((u.stageRead im off n).1.reply k (replyOf q 0x0502 .ok [] (u.stageRead im off n).2.1)) := by
  refine h.replies h.no_data (by simp [low, high]) _ ?_
  dsimp only
  rw [image]
  dsimp only
  rw [if_neg (Nat.not_lt.2 room), sound]
  exact if_neg Bool.false_ne_true

theorem State.exec_snapshotRestore_unknown {id : Word} {rd : Bool} (h : Performs s q 0x0504 16 0 true k x u) (image : u.snapOf x.actsFor id.toNat = none) :
    exec (.snapshotRestore q id rd) s = .next ((u.setFld (snap .SNAP_RESTORE x.actsFor) SNAP_RESTORE.LAST_STATUS (code .range)).reply k (replyOf q 0x0504 .range [] [])) := by
  change execSnapshotRestore q id rd s = _
  rw [execSnapshotRestore, State.live_run h.live]
  refine congrArg Host.Outcome.next (h.answered h.no_data rfl _ ?_)
  dsimp only
  rw [image]
  rfl

theorem State.exec_snapshotRestore {id : Word} {rd : Bool} {im : SnapImage} (h : Performs s q 0x0504 16 0 true k x u) (image : u.snapOf x.actsFor id.toNat = some im) (first : s.snapOf x.actsFor id.toNat = some im)
    (check : u.restoreCheck x.actsFor im = none) :
    exec (.snapshotRestore q id rd) s = .next (match (u.stageRead im 0 im.bytes).1.imageCheck x.actsFor (u.stageRead im 0 im.bytes).2.1 (u.stageRead im 0 im.bytes).2.2 rd with
      | none => (((u.stageRead im 0 im.bytes).1.stopLease x.actsFor (some (k, q.seq)) true im.id im.bytes rd).restoreImage x.actsFor (u.stageRead im 0 im.bytes).2.1).beginCmd k q.seq (stopBound im.bytes)
      | some st => ((u.stageRead im 0 im.bytes).1.setFld (snap .SNAP_RESTORE x.actsFor) SNAP_RESTORE.LAST_STATUS (code st)).reply k (replyOf q 0x0504 st [] [])) := by
  have turn : s.turn q 0x0504 = some (k, x) := h.2.1
  change execSnapshotRestore q _ rd s = _
  rw [execSnapshotRestore, State.live_run h.live]
  dsimp only
  rw [turn]
  dsimp only
  rw [first]
  dsimp only
  cases c : (u.stageRead im 0 im.bytes).1.imageCheck x.actsFor (u.stageRead im 0 im.bytes).2.1 (u.stageRead im 0 im.bytes).2.2 rd with
  | none =>
    refine congrArg Host.Outcome.next (h.runs h.no_data rfl _ ?_)
    rw [image]
    dsimp only
    rw [check]
    dsimp only
    rw [c]
  | some st =>
    refine congrArg Host.Outcome.next (h.answered h.no_data rfl _ ?_)
    rw [image]
    dsimp only
    rw [check]
    dsimp only
    rw [c]
    rfl

end Sys2Proof.Machine

open Sys2Proof Sys2Proof.Machine

/-- Settles O60: each command and event is what its guards leave of it. -/
theorem snapshotsStopCopyAndRestore : Obligations.SnapshotsStopCopyAndRestore := by
  unfold Obligations.SnapshotsStopCopyAndRestore
  refine ⟨fun s q k x u h => ⟨fun st check => ?_, fun check => ?_⟩, fun s n cmd re id b rd => s.snapStopped_stopLease n cmd re id b rd, fun s n o live op lease idle => ⟨fun restore => ?_, fun take => ?_⟩,
    fun s o => ⟨rfl, State.setFld_mem ..⟩, fun s q id off n k x u im h low high image room sound => State.exec_snapshotPull h low high image room sound,
    fun s q id off data k x u im h low high later image room => ⟨_, State.exec_snapshotPush h low high later image room, rfl⟩, fun s q id rd k x u im h image first check => State.exec_snapshotRestore h image first check,
    fun s q id rd k x u h image => State.exec_snapshotRestore_unknown h image, fun s u n live ended e auto due check => State.exec_autoSnapshot live ended e auto due check,
    fun s n g live some' idle => State.exec_epochCheck live some' idle⟩
  · rw [State.exec_snapshotTake h, check]
  · rw [State.exec_snapshotTake h, check]
  · rw [State.exec_snapshotStopEnd live op lease idle, State.stopEnd, if_pos restore]
  · rw [State.exec_snapshotStopEnd live op lease idle, State.stopEnd, if_neg (by simp [take])]
end

section
set_option Elab.async false -- one proof after the other: the whole text stands near the memory limit of the check
/-! Session, identity, image, restart and address commands (14 R522-R526; 17 R592-R609). -/
namespace Sys2Proof.Machine

variable {s t u : State} {q : DcpHdr} {k : Nat} {x : Session}

/-- The erased slot holds no image (17 R592). -/
theorem imageFault_nil : imageFault [] ≠ 0 := by
  have magic : (imgField [] 0 8 != [0x56#8, 0x34#8, 0x46#8, 0x57#8, 0x49#8, 0x4D#8, 0x47#8, 0x31#8]) = true := rfl
  unfold imageFault
  dsimp only
  rw [magic]
  simp only [Bool.true_or, if_true]
  decide

/-- A slot whose writing is cut off holds no image that a start accepts (17 R590, R592). -/
theorem State.cutFlash_faulty {w : FlashWrite} (h : s.flashWrite = some w) : imageFault s.cutFlash.flash ≠ 0 := by
  unfold State.cutFlash
  rw [h]
  dsimp only
  split
  · exact imageFault_nil
  · next sound => exact fun e => sound (beq_iff_eq.2 e)

theorem State.cold_flash (s : State) (l : Life) : (s.cold l).flash = s.cutFlash.flash ∧ (s.cold l).flashWrite = none := by
  unfold State.cold
  exact ⟨State.setReg_flash .., State.setReg_flashWrite ..⟩

theorem Sent.addrRecord (h : Sent s t) : t.addrRecord = s.addrRecord := by obtain ⟨⟨_, _, _, _, _, _, rfl⟩, -⟩ := h; rfl

/-- A unit given the address `n` (17 R609). -/
def State.addressed (s : State) (n : Nat) : State :=
  ((({ s with addrRecord := some ⟨n, s.portRecord⟩, reclaimDue := false, foreign := false } : State).setFld unitAddr UNIT_ADDR.ADDRESS n).setFld unitAddr UNIT_ADDR.RECLAIMED 0).announce

theorem State.addressed_spec (s : State) {n : Nat} (low : n < 2 ^ 16) :
    (s.addressed n).self = n ∧ (s.addressed n).fld unitAddr UNIT_ADDR.RECLAIMED = 0 ∧ (s.addressed n).addrRecord = some ⟨n, s.portRecord⟩ ∧ (s.addressed n).mem = s.mem := by
  unfold State.addressed
  generalize hc : ({ s with addrRecord := some ⟨n, s.portRecord⟩, reclaimDue := false, foreign := false } : State) = c
  have record : c.addrRecord = some ⟨n, s.portRecord⟩ := by rw [← hc]
  have mem : c.mem = s.mem := by rw [← hc]
  have sent := ((c.setFld unitAddr UNIT_ADDR.ADDRESS n).setFld unitAddr UNIT_ADDR.RECLAIMED 0).sent_announce
  refine ⟨?_, ?_, sent.addrRecord.trans record, sent.mem.trans mem⟩
  · refine (sent.unitAddr _).trans ((State.fld_setFld_other _ _ _ _ _ (by decide) (by decide) (.inr (by decide))).trans ((State.fld_setFld_same _ _ _ _ (by decide) (by decide)).trans ?_))
    exact Nat.mod_eq_of_lt low
  · exact (sent.unitAddr _).trans (State.fld_setFld_same _ _ _ _ (by decide) (by decide))

theorem State.exec_imageCommit {y : StagedImage} (h : Performs s q 0x0603 0 0 true k x u) (staged : u.staged = some y) (whole : y.whole = true) (free : s.flashWrite = none) :
    exec (.imageCommit q) s = .next (if imageFault y.bytes = 0 then ({ u with flashWrite := some ⟨k, q.seq, y.bytes⟩ } : State).beginCmd k q.seq (ms 10000) else u.reply k (replyOf q 0x0603 .auth [] [])) := by
  change execImageCommit q s = _
  rw [execImageCommit, State.live_run h.live, free, if_neg (by decide)]
  by_cases sound : imageFault y.bytes = 0
  · rw [if_pos sound]
    refine congrArg Host.Outcome.next (h.runs h.no_data rfl _ ?_)
    rw [staged]
    dsimp only
    rw [whole, sound]
    rfl
  · rw [if_neg sound]
    refine congrArg Host.Outcome.next (h.answered h.no_data rfl _ ?_)
    rw [staged]
    dsimp only
    rw [whole, if_neg (by decide)]
    exact if_pos (bne_iff_ne.2 sound)

theorem State.exec_imageChunk {off : Nat} {data : List Byte} {y : StagedImage} (h : Performs s q 0x0602 8 data.length true k x u) (low : 1 ≤ data.length) (high : data.length ≤ 8192) (staged : u.staged = some y)
    (room : off + data.length ≤ y.total) :
    exec (.imageChunk q off data) s = .next (({ u with staged := some { y with chunks := y.chunks ++ [(off, data)] } } : State).reply k (replyOf q 0x0602 .ok [] [])) := by
  refine h.replies (by simp [h.dlen_eq, low, high]) rfl _ ?_
  rw [staged]
  exact if_neg (Nat.not_lt.2 room)

theorem State.exec_unitAddress {a : BitVec 16} (h : Performs s q 0x0701 8 0 true k x u) (low : 1 ≤ a.toNat) (high : a.toNat ≤ 0xFFFE) (new : a.toNat ≠ u.self) (off : u.fld fabCfg FAB_CFG.ENABLE = 0) :
    exec (.unitAddress q a) s = .next ((u.addressed a.toNat).reply k (replyOf q 0x0701 .ok [] [])) := by
  refine h.replies h.no_data (by simp [low, high]) _ ?_
  dsimp only
  rw [if_neg (by simpa using new), off]
  rfl

end Sys2Proof.Machine

open Sys2Proof Sys2Proof.Machine

/-- Settles O56: each command that may be performed is answered by its operation; an interrupted write of the slot leaves no sound image. -/
theorem unitCommandsAreAnswered : Obligations.UnitCommandsAreAnswered := by
  unfold Obligations.UnitCommandsAreAnswered
  refine ⟨fun s q k x u h => h.replies h.no_data rfl _ rfl, fun s q k x u h => ?_, fun s q n k x u h low => h.replies h.no_data (decide_eq_true low) _ rfl, fun s q k x u h => h.replies h.no_data rfl _ rfl,
    fun s q nonce k x u h len => h.replies h.no_data (beq_iff_eq.2 len) _ rfl, fun s q k x u h => h.replies h.no_data rfl _ rfl, fun s q n k x u h low => h.replies h.no_data (decide_eq_true low) _ rfl,
    fun s q off data k x u y h low high staged room => State.exec_imageChunk h low high staged room, fun s q k x u y h staged whole free => State.exec_imageCommit h staged whole free,
    fun s q k x u h => h.replies h.no_data rfl _ rfl, fun s q a k x u h low high new off => ?_, fun s w h => ?_, fun s w l h => ?_⟩
  · change execClose q s = _
    rw [execClose, State.live_run h.live, h.dcp h.no_data rfl]
    rfl
  · obtain ⟨self, reclaimed, record, mem⟩ := u.addressed_spec a.isLt
    exact ⟨_, State.exec_unitAddress h low high new off, self, reclaimed, record, mem⟩
  · rw [State.flashOn, h]
  · obtain ⟨flash, write⟩ := s.cold_flash l
    exact ⟨flash ▸ State.cutFlash_faulty h, write⟩
end

section
set_option Elab.async false -- one proof after the other: the whole text stands near the memory limit of the check
/-! Diagnostic and memory commands (14 R523, R524; 01 R32-R34). -/
namespace Sys2Proof.Machine

variable {s u v : State} {q : DcpHdr} {k : Nat} {x : Session}

/-- The bound of a command answered within a millisecond. -/
theorem ms_one : ms 1 = 1100000 := rfl

theorem State.exec_regRead {l : List Word} (h : Performs s q 0x0104 (8 + 8 * l.length) 0 true k x u) (low : 1 ≤ l.length) (high : l.length ≤ 63) :
    exec (.regRead q l) s = .next (if (u.readAll x.actor (l.map (·.toNat))).2.1 = .ok then (u.readAll x.actor (l.map (·.toNat))).1.reply k (replyOf q 0x0104 .ok (u.readAll x.actor (l.map (·.toNat))).2.2 [])
      else u.reply k (replyOf q 0x0104 (u.readAll x.actor (l.map (·.toNat))).2.1 [] [])) := by
  have params : (decide (1 ≤ l.length) && decide (l.length ≤ 63)) = true := by simp [low, high]
  by_cases ok : (u.readAll x.actor (l.map (·.toNat))).2.1 = .ok
  · rw [if_pos ok]
    exact h.replies h.no_data params _ (if_pos (beq_iff_eq.2 ok))
  · rw [if_neg ok]
    exact h.replies h.no_data params _ (if_neg (mt beq_iff_eq.1 ok))

theorem State.exec_regWrite {l : List (Word × Word)} {n : Nat} {r : Option Status} (h : Performs s q 0x0105 (8 + 16 * l.length) 0 true k x u) (low : 1 ≤ l.length) (high : l.length ≤ 31)
    (written : u.writeAll x.actor k q.seq ((l.map (fun w => (w.1.toNat, w.2.toNat))).drop (x.written q.seq)) (x.written q.seq) = (v, r, n)) :
    exec (.regWrite q l) s = .next (match r with | some st => v.reply k (replyOf q 0x0105 st (beBytes 2 n) []) | none => v.holdCmd k q.seq 1100000 n) := by
  have params : (decide (1 ≤ l.length) && decide (l.length ≤ 31)) = true := by simp [low, high]
  change execRegWrite q l s = _
  rw [execRegWrite, State.live_run h.live]
  cases r with
  | some st => exact congrArg Host.Outcome.next (h.answered h.no_data params _ (by dsimp only; rw [written]))
  | none =>
    rw [← ms_one]
    exact congrArg Host.Outcome.next (h.waits h.no_data params _ (by dsimp only; rw [written]))

theorem State.exec_memRead {a : Word} {n : Nat} (h : Performs s q 0x0201 16 0 true k x u) (low : 1 ≤ n) (high : n ≤ 8192) :
    exec (.memRead q a n) s = .next (match u.memCheck x.actsFor a.toNat n with
      | some st => u.reply k (replyOf q 0x0201 st [] [])
      | none => ((u.memBegin k q.seq a.toNat n).memAsk (memAgent k x.actsFor) (spanRows a.toNat n)).beginCmd k q.seq 1100000) := by
  have params : (decide (1 ≤ n) && decide (n ≤ 8192)) = true := by simp [low, high]
  change execMemRead q a n s = _
  rw [execMemRead, State.live_run h.live]
  cases check : u.memCheck x.actsFor a.toNat n with
  | some st => exact congrArg Host.Outcome.next (h.answered h.no_data params _ (by rw [check]; rfl))
  | none =>
    rw [← ms_one]
    exact congrArg Host.Outcome.next (h.runs h.no_data params _ (by rw [check]))

theorem State.exec_memWrite {a : Word} {n : Nat} {data : List Byte} (h : Performs s q 0x0202 16 n true k x u) (len : data.length = n) (low : 1 ≤ n) (high : n ≤ 8192) :
    exec (.memWrite q a n data) s = .next (match u.memCheck x.actsFor a.toNat n with
      | some st => u.reply k (replyOf q 0x0202 st [] [])
      | none => ((u.memBegin k q.seq a.toNat n).memPutAll (memAgent k x.actsFor) a.toNat data (spanRows a.toNat n)).beginCmd k q.seq 1100000) := by
  have params : (decide (1 ≤ n) && decide (n ≤ 8192)) = true := by simp [low, high]
  have sized : (q.dlen == n && data.length == n) = true := by simp [h.dlen_eq, len]
  change execMemWrite q a n data s = _
  rw [execMemWrite, State.live_run h.live]
  cases check : u.memCheck x.actsFor a.toNat n with
  | some st => exact congrArg Host.Outcome.next (h.answered sized params _ (by rw [check]; rfl))
  | none =>
    rw [← ms_one]
    exact congrArg Host.Outcome.next (h.runs sized params _ (by rw [check]))

end Sys2Proof.Machine

open Sys2Proof Sys2Proof.Machine

/-- Settles O57: each command that may be performed is its operation's outcome, and the end of a memory command its reply. -/
theorem diagnosticAndMemoryCommandsAct : Obligations.DiagnosticAndMemoryCommandsAct := by
  unfold Obligations.DiagnosticAndMemoryCommandsAct
  refine ⟨fun s q l k x u h low high => ⟨fun ok => ?_, fun bad => ?_⟩, fun s q l k x u h low high => ⟨fun v st n written => State.exec_regWrite h low high written, fun v n written => State.exec_regWrite h low high written⟩,
    fun s q a n k x u h low high => ⟨fun st check => ?_, fun check => ?_⟩, fun s q a n data k x u h len low high => ⟨fun st check => ?_, fun check => ?_⟩, fun s k c m l mine op => ?_, fun s v k c m l b mine op bytes => ?_⟩
  · rw [State.exec_regRead h low high, if_pos ok]
  · rw [State.exec_regRead h low high, if_neg bad]
  · rw [State.exec_memRead h low high, check]
  · rw [State.exec_memRead h low high, check]
  · rw [State.exec_memWrite h len low high, check]
  · rw [State.exec_memWrite h len low high, check]
  · unfold State.memDone
    dsimp only
    rw [mine, op]
    rfl
  · unfold State.memDone
    dsimp only
    rw [mine, op, bytes]
    rfl
end

section
set_option Elab.async false -- one proof after the other: the whole text stands near the memory limit of the check
/-! Packets that arrive (11 R428), and the collectives they serve (11 R443-R453). -/
namespace Sys2Proof.Machine

variable {s t : State} {q : Fin 16} {p : DftPacket} {type : Nat}

/-- A packet that arrives acts on the state it leaves its connection in, and is acknowledged where its type is and its writing does not delay it. -/
theorem Arrives.receive (h : Arrives s q p type t) (act : State → State) : s.receive q p type act = if sequenced type && !(act t).ackLater p then (act t).sendAck p else act t := by
  obtain ⟨_, port, frame, kind, target, sound, taken⟩ := h
  have goes : ¬(s.frameOk p && (p.type != type || (p.dst.toNat != s.self && type != 6))) = true := by
    rcases target with self | credit
    · simp [kind, self]
    · simp [kind, credit]
  unfold State.receive
  rw [port, if_neg (by decide), if_neg goes]
  dsimp only
  rw [sound, if_neg (by decide), taken, kind]
  rfl

theorem Arrives.live (h : Arrives s q p type t) : s.life = .running := h.1

/-- Only a WRITE is acknowledged later. -/
theorem State.not_ackLater (u : State) (kind : p.type = type) (other : type ≠ 1) : u.ackLater p = false := by
  simp [State.ackLater, kind, other]

/-- A packet of another sequenced type acts and is acknowledged. -/
theorem Arrives.acknowledged (h : Arrives s q p type t) (seq : sequenced type = true) (other : type ≠ 1) (act : State → State) : s.receive q p type act = (act t).sendAck p := by
  obtain ⟨_, _, _, kind, _⟩ := id h
  rw [h.receive act, seq, State.not_ackLater _ kind other]
  rfl

/-- A packet of a type that is not acknowledged acts alone. -/
theorem Arrives.alone (h : Arrives s q p type t) (seq : sequenced type = false) (act : State → State) : s.receive q p type act = act t := by
  rw [h.receive act, seq]
  rfl

/-- A running unit performs a command that cannot fail. -/
theorem State.live_next {u : State} {g : State → State} (live : s.life = .running) (e : g s = u) : s.live (fun s => .next (g s)) = .next u := by
  rw [State.live_run live, e]

/-! The start of a collective (11 R443-R446). -/

theorem Met.colls (h : Met s t) : t.colls = s.colls := by obtain ⟨⟨_, _, _, _, _, _, _, _, _, _, _, _, _, _, rfl⟩, -⟩ := h; rfl

theorem State.colls_submit (s : State) (r : MemReq) : (s.submit r).colls = s.colls := by
  obtain ⟨n, p, x, e, h⟩ := s.submit_eq r
  rw [h]

theorem State.colls_agentRead (s : State) (g : Agent) (a : Nat) : (s.agentRead g a).1.colls = s.colls := by
  unfold State.agentRead
  split
  · rfl
  · exact (State.colls_submit ..).trans (State.met_readFar ..).colls

/-- What an engine reads of memory changes neither its queue and run nor its registers. -/
theorem State.collBlock_keeps (s : State) (g : Agent) (a n : Nat) : (s.collBlock g a n).1.colls = s.colls ∧ ∀ r, r.Spared → (s.collBlock g a n).1.reg r = s.reg r := by
  let keeps (t : State × Bool) : Prop := t.1.colls = s.colls ∧ ∀ r, r.Spared → t.1.reg r = s.reg r
  have first : keeps (s, false) := ⟨rfl, fun _ _ => rfl⟩
  unfold State.collBlock
  refine List.foldlRecOn (motive := keeps) _ _ first fun (t : State × Bool) kept i _ => ?_
  obtain ⟨colls, regs⟩ := kept
  exact ⟨(State.colls_agentRead ..).trans colls, fun r hr => (State.reg_agentRead hr ..).trans (regs r hr)⟩

theorem collStatus_spared (io : Nat) : (collStatus io).Spared := ⟨20 + io, 0x2001008, by decide, by simp only [Reg.addr, collStatus, RegName.layout, selIo]⟩

theorem State.collQueued_spec (s : State) (io : Nat) (rest : List (Nat × Option Nat)) :
    ((s.collQueued io rest).coll io).queue = rest ∧ (s.collQueued io rest).fld (collStatus io) COLL_STATUS.BUSY = 1 ∧ (s.collQueued io rest).mem = s.mem := by
  refine ⟨?_, State.fld_setFld_same _ _ _ _ (by decide) (by decide), by simp only [State.collQueued, State.setFld_mem, State.onColl_mem]⟩
  have engine : (s.collQueued io rest).coll io = (s.onColl io (fun e => { e with queue := rest })).coll io := by simp only [State.collQueued, State.coll, State.setFld_colls]
  rw [engine, State.coll_onColl_same]

theorem State.collTaken_spec (s : State) (io a : Nat) (who : Option Nat) (rest : List (Nat × Option Nat)) :
    (s.collTaken io a who rest).1.coll io = (s.collQueued io rest).coll io ∧ (s.collTaken io a who rest).1.fld (collStatus io) COLL_STATUS.BUSY = 1 := by
  obtain ⟨_, busy, _⟩ := s.collQueued_spec io rest
  unfold State.collTaken
  dsimp only
  split
  · obtain ⟨colls, regs⟩ := (s.collQueued io rest).collBlock_keeps (collAgent io who) a 64
    refine ⟨by rw [State.coll, colls, State.coll], ?_⟩
    rw [State.fld, regs _ (collStatus_spared io)]
    exact busy
  · exact ⟨rfl, busy⟩

theorem CollStart.start {io op : Nat} {r : CollRun} (h : CollStart s io op r t) : s.life = .running ∧ s.collStart io op = t.collBegin io r := by
  obtain ⟨live, idle, wait, a, who, rest, d, queue, desc, named, sound, run, block⟩ := h
  refine ⟨live, ?_⟩
  unfold State.collStart
  dsimp only
  rw [idle, queue]
  dsimp only
  rw [desc, Option.getD_some, named, wait, if_neg (by simp), sound, if_neg (by decide), Option.isSome_some, if_pos rfl, run]
  dsimp only
  rw [block]
  rfl

/-- A descriptor that may not be read, or that is unsound, ends its collective at once (11 R444). -/
theorem State.collStart_refused {io op a : Nat} {who : Option Nat} {rest : List (Nat × Option Nat)} (idle : (s.coll io).run = none) (queue : (s.coll io).queue = (a, who) :: rest) (wait : s.collWaits io = false)
    (bad : s.collDesc who a = none ∨ ∃ d, s.collDesc who a = some d ∧ dword d 0 % 16 = op ∧ (s.collTaken io a who rest).2 = false ∧ (s.collTaken io a who rest).1.collOf io who d = none) :
    s.collStart io op = (s.collTaken io a who rest).1.onColl io (fun e => { e with run := some ((s.collTaken io a who rest).1.collRefused who) }) := by
  unfold State.collStart
  dsimp only
  rw [idle, queue]
  dsimp only
  rcases bad with absent | ⟨d, desc, named, sound, run⟩
  · have unread : (s.collTaken io a who rest).2 = false := by
      unfold State.collTaken
      dsimp only
      rw [absent]
      rfl
    have word : dword ((none : Option (List Word)).getD []) 0 % 16 = 0 := rfl
    rw [absent, word, wait, if_neg (by simp), unread]
    rfl
  · rw [desc, Option.getD_some, named, wait, if_neg (by simp), sound, if_neg (by decide), Option.isSome_some, if_pos rfl, run]
    rfl

/-! The packets of a collective (11 R447-R451). -/

/-- A packet of the running collective acts on it; of one not started it is kept where it is ahead. -/
theorem Arrives.collective (h : Arrives s q p 7 t) {cop : Nat} (kind : collCop p = cop) (act : State → Nat → CollRun → State) :
    s.collReceive q p cop act = State.sendAck (match (t.coll (collEngine p)).run with
      | some r => if r.takes p then act t (collEngine p) r else if cop == 0 || !t.collAhead p then t else t.onColl (collEngine p) (fun e => { e with early := e.early ++ [p] })
      | none => if cop == 0 || !t.collAhead p then t else t.onColl (collEngine p) (fun e => { e with early := e.early ++ [p] })) p := by
  unfold State.collReceive
  exact (if_neg (by simp [kind])).trans (h.acknowledged rfl (by decide) _)

/-! The end of a collective (11 R452, R453). -/

theorem Aside.colls (h : Aside s t) : t.colls = s.colls := by obtain ⟨⟨_, _, _, _, _, _, _, _, _, rfl⟩, _⟩ := h; rfl

/-- The record of an ended collective: LAST_STATUS, and one more DONE. -/
theorem State.collRecord_spec (s : State) (io : Nat) (st : Status) :
    (s.collRecord io st).colls = s.colls ∧ (s.collRecord io st).fld (collStatus io) COLL_STATUS.BUSY = s.fld (collStatus io) COLL_STATUS.BUSY ∧ (s.collRecord io st).fld (collStatus io) COLL_STATUS.LAST_STATUS = code st ∧
      (s.collRecord io st).mem = s.mem := by
  have plain := (collStatus_spared io).plain
  have raised := State.aside_raise ((s.setFld (collStatus io) COLL_STATUS.LAST_STATUS (code st)).count (collStatus io) COLL_STATUS.DONE 1) io 0xC1
  refine ⟨raised.colls, (raised.fld plain _).trans ?_, (raised.fld plain _).trans ?_, raised.mem⟩
  · exact (State.fld_setFld_other _ _ _ _ _ (by decide) (by decide) (by decide)).trans (State.fld_setFld_other _ _ _ _ _ (by decide) (by decide) (by decide))
  · refine (State.fld_setFld_other _ _ _ _ _ (by decide) (by decide) (by decide)).trans ((State.fld_setFld_same _ _ _ _ (by decide) (by decide)).trans ?_)
    cases st <;> rfl

theorem State.collFinish_spec (s : State) (io : Nat) (r : CollRun) (st : Status) :
    ((s.collFinish io r st).coll io).run = none ∧ (s.collFinish io r st).fld (collStatus io) COLL_STATUS.BUSY = 0 ∧ (s.collFinish io r st).fld (collStatus io) COLL_STATUS.LAST_STATUS = code st ∧ (s.collFinish io r st).mem = s.mem := by
  unfold State.collFinish
  dsimp only
  generalize hc : (s.onColl io (fun e => { e with run := none })).setFld (collStatus io) COLL_STATUS.BUSY 0 = c
  have idle : (c.coll io).run = none := by
    rw [← hc, State.coll, State.setFld_colls, ← State.coll, State.coll_onColl_same]
  have busy : c.fld (collStatus io) COLL_STATUS.BUSY = 0 := by
    rw [← hc]
    exact State.fld_setFld_same _ _ _ _ (by decide) (by decide)
  have mem : c.mem = s.mem := by
    rw [← hc, State.setFld_mem, State.onColl_mem]
  generalize c.now - r.since = n
  have charged := c.aside_charge r.lease 3 n
  obtain ⟨colls, busy', status, mem'⟩ := (c.charge r.lease 3 n).collRecord_spec io st
  generalize (c.charge r.lease 3 n).collRecord io st = u at colls busy' status mem' ⊢
  have ended : (u.coll io).run = none ∧ u.fld (collStatus io) COLL_STATUS.BUSY = 0 ∧ u.fld (collStatus io) COLL_STATUS.LAST_STATUS = code st ∧ u.mem = s.mem :=
    ⟨by rw [State.coll, colls, charged.colls]; exact idle, busy'.trans ((charged.fld (collStatus_spared io).plain _).trans busy), status, mem'.trans (charged.mem.trans mem)⟩
  cases r.flag with
  | none => exact ended
  | some f =>
    dsimp only
    split
    · obtain ⟨idle, busy, status, mem⟩ := ended
      obtain ⟨regs, _, colls, kept⟩ := u.flagDie_keeps r.flagDie r.lease f
      refine ⟨by rw [State.coll, colls]; exact idle, by rw [State.fld, State.reg, regs]; exact busy, by rw [State.fld, State.reg, regs]; exact status, kept.trans mem⟩
    · exact ended

theorem State.exec_collTimeout {io : Die} {r : CollRun} (live : s.life = .running) (run : (s.coll io.val).run = some r) (going : r.ended = none) (late : r.since + ms (2 ^ r.tmo) ≤ s.now) :
    exec (.collTimeout io) s = .next (s.collStopRun io.val .timeout true) := by
  change execCollTimeout io s = _
  rw [execCollTimeout, State.live_run live, run]
  dsimp only
  rw [going, decide_eq_false (Nat.not_lt.2 late)]
  rfl

theorem State.exec_collEnd {io : Die} {r : CollRun} {st : Status} (live : s.life = .running) (run : (s.coll io.val).run = some r) (ended : r.ended = some st) (wait : s.collWaits io.val = false) :
    exec (.collEnd io) s = .next (s.collFinish io.val r st) := by
  change execCollEnd io s = _
  rw [execCollEnd, State.live_run live, run]
  dsimp only
  rw [ended, wait]
  rfl

end Sys2Proof.Machine

open Sys2Proof Sys2Proof.Machine

/-- Settles O53: a start is its descriptor's, a packet acts through the one way in for all, and the end of a collective is read back. -/
theorem collectivesRun : Obligations.CollectivesRun := by
  unfold Obligations.CollectivesRun
  refine ⟨fun s t io r h => ?_, fun s t io r h => ?_, fun s t io r h => ?_, fun s t io r h => ?_, fun s c op io a who rest kind live idle queue wait bad => ?_, fun s io a who rest => s.collTaken_spec io a who rest,
    fun s io rest => s.collQueued_spec io rest, fun s t q p r h run takes => ⟨fun kind => ?_, fun kind => ?_, fun kind => ?_⟩, fun s t q p h idle ahead => ⟨fun kind => ?_, fun kind => ?_⟩,
    fun s io r live run going late => State.exec_collTimeout live run going late, fun s io r st live run ended wait => ⟨_, State.exec_collEnd live run ended wait, s.collFinish_spec io.val r st⟩⟩
  case refine_1 =>
    obtain ⟨live, start⟩ := h.start
    exact State.live_next (g := fun s => s.collStart io.val 1) live start
  case refine_2 =>
    obtain ⟨live, start⟩ := h.start
    exact State.live_next (g := fun s => s.collStart io.val 2) live start
  case refine_3 =>
    obtain ⟨live, start⟩ := h.start
    exact State.live_next (g := fun s => s.collStart io.val 3) live start
  case refine_4 =>
    obtain ⟨live, start⟩ := h.start
    exact State.live_next (g := fun s => s.collStart io.val 4) live start
  case refine_5 =>
    rcases kind with ⟨rfl, rfl⟩ | ⟨rfl, rfl⟩ | ⟨rfl, rfl⟩ | ⟨rfl, rfl⟩
    · exact State.live_next (g := fun s => s.collStart io.val 1) live (State.collStart_refused idle queue wait bad)
    · exact State.live_next (g := fun s => s.collStart io.val 2) live (State.collStart_refused idle queue wait bad)
    · exact State.live_next (g := fun s => s.collStart io.val 3) live (State.collStart_refused idle queue wait bad)
    · exact State.live_next (g := fun s => s.collStart io.val 4) live (State.collStart_refused idle queue wait bad)
  case refine_6 =>
    refine State.live_next (g := fun s => s.collReceive q p 0 (fun s io r => s.collDataIn io p r)) h.live ((h.collective kind _).trans ?_)
    rw [run]
    exact congrArg (State.sendAck · p) (if_pos takes)
  case refine_7 =>
    refine State.live_next (g := fun s => s.collReceive q p 1 (fun s io _ => s.collReadyIn io p)) h.live ((h.collective kind _).trans ?_)
    rw [run]
    exact congrArg (State.sendAck · p) (if_pos takes)
  case refine_8 =>
    refine State.live_next (g := fun s => s.collReceive q p 2 (fun s io _ => s.collAbortIn io p)) h.live ((h.collective kind _).trans ?_)
    rw [run]
    exact congrArg (State.sendAck · p) (if_pos takes)
  case refine_9 =>
    refine State.live_next (g := fun s => s.collReceive q p 1 (fun s io _ => s.collReadyIn io p)) h.live ((h.collective kind _).trans ?_)
    rw [idle, ahead]
    rfl
  case refine_10 =>
    refine State.live_next (g := fun s => s.collReceive q p 2 (fun s io _ => s.collAbortIn io p)) h.live ((h.collective kind _).trans ?_)
    rw [idle, ahead]
    rfl
end

section
set_option Elab.async false -- one proof after the other: the whole text stands near the memory limit of the check
/-! Packets for this unit (11 R428-R436). -/
namespace Sys2Proof.Machine

variable {s t u : State} {q : Fin 16} {p : DftPacket} {d : PeerDue}

/-! A frame that fails its checks. -/

/-- Codewords counted leave the port number a frame is checked against. -/
theorem State.frameOk_fecCount (s : State) (q : Fin 16) (corr uncorr : Nat) (p : DftPacket) : (s.fecCount (.peer q) corr uncorr).frameOk p = s.frameOk p := by
  have port : (s.fecCount (.peer q) corr uncorr).dftPort = s.dftPort := by
    refine (s.heard_fecCount q corr uncorr).fld (fun n w => ?_) ?_ _
    · simp only [Reg.addr, fabCfg, acct, RegName.layout]
      omega
    · simp only [Reg.addr, fabCfg, peerPort, RegName.layout, selSv0]
      omega
  simp only [State.frameOk, port]

/-- A frame that fails its checks is counted, and goes no further. -/
theorem State.frameIn_unsound (bad : s.frameOk p = false) :
    s.frameIn q p = ((s.fecCount (.peer q) p.fecCorr p.fecUncorr).tally (peerPort .PEER_PORT_ERR q.val) PEER_PORT_ERR.DISCARDS 1, false) := by
  unfold State.frameIn
  dsimp only
  rw [State.frameOk_fecCount, bad]
  rfl

theorem State.receive_unsound (port : s.portUp (.peer q) = true) (bad : s.frameOk p = false) (type : Nat) (act : State → State) :
    s.receive q p type act = (s.fecCount (.peer q) p.fecCorr p.fecUncorr).tally (peerPort .PEER_PORT_ERR q.val) PEER_PORT_ERR.DISCARDS 1 := by
  unfold State.receive
  rw [port, if_neg (by decide), bad, Bool.false_and, if_neg Bool.false_ne_true, State.frameIn_unsound bad]
  rfl

theorem State.mgmtIn_unsound (port : s.portUp (.peer q) = true) (bad : s.frameOk p = false) (kind : Nat) (act : State → State) :
    s.mgmtIn q p kind act = (s.fecCount (.peer q) p.fecCorr p.fecUncorr).tally (peerPort .PEER_PORT_ERR q.val) PEER_PORT_ERR.DISCARDS 1 := by
  unfold State.mgmtIn
  rw [port, if_neg (by decide), bad, Bool.false_and, if_neg Bool.false_ne_true, State.frameIn_unsound bad]
  rfl

theorem State.exec_packetForward_unsound (live : s.life = .running) (port : s.portUp (.peer q) = true) (bad : s.frameOk p = false) :
    exec (.packetForward q p) s = .next ((s.fecCount (.peer q) p.fecCorr p.fecUncorr).tally (peerPort .PEER_PORT_ERR q.val) PEER_PORT_ERR.DISCARDS 1) := by
  change execPacketForward q p s = _
  rw [execPacketForward, State.live_run live, port, bad, Bool.false_and, if_neg (by decide), State.frameIn_unsound bad]
  rfl

/-! The rows a packet asks for, once they are performed (11 R433-R436). -/

theorem State.ackLater_remoteWrite (t : State) (q : Nat) {rows : List Nat} (kind : p.type = 1) (may : t.remoteRows p = .ok rows) : (t.remoteWrite q p).ackLater p = true := by
  unfold State.remoteWrite State.remoteRun
  rw [may]
  simp [State.ackLater, kind]

theorem State.remoteRun_refused (t : State) (q : Nat) {st : Status} (ask : State → List Nat → State) (may : t.remoteRows p = .error st) : t.remoteRun q p ask = t.respond p 5 st [] := by
  unfold State.remoteRun
  rw [may]

/-- The one packet whose rows are due is finished when all of them are performed. -/
theorem State.peersOn_done (one : s.peerDue = [d]) (done : ∀ r, r ∈ s.peerReqs d → r.stage = 2 ∧ r.due ≤ s.now) : s.peersOn = State.peerDone { s with peerDue := [] } d := by
  have all : (s.peerReqs d).all (fun r => r.stage == 2 && decide (r.due ≤ s.now)) = true := by
    rw [List.all_eq_true]
    intro r hr
    obtain ⟨stage, due⟩ := done r hr
    simp [stage, due]
  have due : s.peerDue.filter (fun d => (s.peerReqs d).all (fun r => r.stage == 2 && decide (r.due ≤ s.now))) = [d] := by
    rw [one, List.filter_cons_of_pos (by exact all), List.filter_nil]
  have rest : s.peerDue.filter (fun x => !([d].contains x)) = [] := by
    rw [one]
    simp
  unfold State.peersOn
  dsimp only
  rw [due, rest]
  rfl

/-- It waits while one of them is not. -/
theorem State.peersOn_waits {r : MemReq} (one : s.peerDue = [d]) (mem : r ∈ s.peerReqs d) (waits : r.stage ≠ 2 ∨ s.now < r.due) : s.peersOn = s := by
  have some' : ¬(s.peerReqs d).all (fun r => r.stage == 2 && decide (r.due ≤ s.now)) = true := by
    intro all
    have this := List.all_eq_true.1 all r mem
    simp only [Bool.and_eq_true, beq_iff_eq, decide_eq_true_eq] at this
    rcases waits with stage | early
    · exact stage this.1
    · omega
  have due : s.peerDue.filter (fun d => (s.peerReqs d).all (fun r => r.stage == 2 && decide (r.due ≤ s.now))) = [] := by
    rw [one, List.filter_cons_of_neg (by exact some'), List.filter_nil]
  unfold State.peersOn
  dsimp only
  rw [due]
  rfl

/-- A READ's rows are returned with their contents. -/
theorem State.peerDone_read (kind : d.pkt.type = 2) (epoch : d.pkt.epoch = (s.conn d.pkt.src.toNat d.pkt.vc.val).epoch) :
    State.peerDone { s with peerDue := [] } d = ({ s with peerDue := [], reqs := s.reqs.filter (fun r => !(s.peerReqs d).contains r) } : State).respond d.pkt 3 .ok ((s.peerReqs d).map (fun r => ⟨r.img.bytes, r.img.poison⟩)) := by
  have reqs : State.peerReqs { s with peerDue := [] } d = s.peerReqs d := rfl
  have write : ((2 : Nat) == 1) = false := rfl
  unfold State.peerDone
  dsimp only
  rw [kind, write]
  simp only [Bool.false_eq_true, if_false, reqs]
  have same : (d.pkt.epoch != (State.conn { s with peerDue := [], reqs := s.reqs.filter (fun r => !(s.peerReqs d).contains r) } d.pkt.src.toNat d.pkt.vc.val).epoch) = false := by
    rw [epoch]
    exact bne_self_eq_false _
  rw [same, if_neg Bool.false_ne_true]

/-- A WRITE's signals fire; it is acknowledged, and answered by a NAK where a row was not taken intact. -/
theorem State.peerDone_write (kind : d.pkt.type = 1) (e : u = d.rows.foldl (fun s row => s.signals row d.pkt.lease.val) { s with peerDue := [], reqs := s.reqs.filter (fun r => !(s.peerReqs d).contains r) })
    (epoch : d.pkt.epoch = (u.conn d.pkt.src.toNat d.pkt.vc.val).epoch) :
    State.peerDone { s with peerDue := [] } d = if (s.peerReqs d).any (·.fresh) then (u.sendAck d.pkt).respond d.pkt 5 .integrity [] else u.sendAck d.pkt := by
  have reqs : State.peerReqs { s with peerDue := [] } d = s.peerReqs d := rfl
  unfold State.peerDone
  dsimp only
  have same : (d.pkt.epoch != (u.conn d.pkt.src.toNat d.pkt.vc.val).epoch) = false := by
    rw [epoch]
    exact bne_self_eq_false _
  rw [kind]
  simp only [beq_self_eq_true, if_true, reqs]
  rw [← e, same, if_neg Bool.false_ne_true]

/-! READ_DATA (11 R434). -/

/-- What the rows brought change: the requests, their numbers, and what is perturbed. -/
def Brought (n : Nat) (s t : State) : Prop := ∃ i p l, t = { s with nextId := i, perturbed := p, reqs := s.reqs ++ l } ∧ l.length = n

theorem Brought.refl (s : State) : Brought 0 s s := ⟨s.nextId, s.perturbed, [], by rw [List.append_nil], rfl⟩

theorem Brought.trans {m n : Nat} (a : Brought m s t) (b : Brought n t u) : Brought (m + n) s u := by
  obtain ⟨i, p, l, rfl, hl⟩ := a
  obtain ⟨i', p', l', rfl, hl'⟩ := b
  exact ⟨i', p', l ++ l', by rw [List.append_assoc], by rw [List.length_append, hl, hl']⟩

theorem State.crossingsBack_eq (s : State) (o : ReqOwner) (home t : Nat) : ∃ p, (s.crossingsBack o home t).2 = { s with perturbed := p } := by
  obtain ⟨p, e⟩ := s.bridged_eq home o.die t
  unfold State.crossingsBack State.ownCrossing
  dsimp only
  rw [e]
  split
  · exact State.cross_eq { s with perturbed := p } ..
  · exact ⟨p, rfl⟩

theorem State.brought_bringRow (s : State) (q : Nat) (o : PktRow) (write : Bool) (lease : Nat) (img : RowImg) : Brought 1 s (s.bringRow q o write lease img) := by
  unfold State.bringRow
  dsimp only
  obtain ⟨p, e⟩ := s.cross_eq (q / 4) 12 ioLink (s.now + s.localPath (q / 4) (coreDie o.core))
  rw [e]
  obtain ⟨p', e'⟩ := State.crossingsBack_eq { s with perturbed := p } (s.newReq 0 0 write (.chan o.core o.ch o.xfer o.t o.buf o.row) (some lease) none img).owner (q / 4)
    (s.cross (q / 4) 12 ioLink (s.now + s.localPath (q / 4) (coreDie o.core))).1
  rw [e']
  exact ⟨s.nextId + 1, p', _, rfl, rfl⟩

theorem State.brought_bringRows (q lease : Nat) (write : Bool) (l : List (PktRow × PayRow)) (s : State) :
    Brought l.length s (l.foldl (fun s x => s.bringRow q x.1 write lease ⟨x.2.bytes, x.2.poison⟩) s) := by
  induction l generalizing s with
  | nil => exact .refl s
  | cons x l ih =>
    rw [List.foldl_cons, List.length_cons, Nat.add_comm]
    exact (s.brought_bringRow ..).trans (ih _)

theorem State.takeData_spec {w : ReadWait} (t : State) (q : Nat) (found : (t.conn p.src.toNat p.vc.val).reads.find? (fun w => w.tag == p.tag) = some w) (len : w.rows.length = p.pay.length) :
    (t.takeData q p).reqs.length = t.reqs.length + p.pay.length ∧ (t.takeData q p).mem = t.mem ∧ ((t.takeData q p).conn p.src.toNat p.vc.val).reads = (t.conn p.src.toNat p.vc.val).reads.erase w := by
  unfold State.takeData
  dsimp only
  rw [found]
  dsimp only
  obtain ⟨i, x, l, e, n⟩ := State.brought_bringRows q p.lease.val false (w.rows.zip p.pay) (t.setConn p.src.toNat p.vc.val { t.conn p.src.toNat p.vc.val with reads := (t.conn p.src.toNat p.vc.val).reads.erase w })
  rw [e]
  refine ⟨?_, rfl, ?_⟩
  · rw [List.length_append, n, List.length_zip, len, Nat.min_self]
    rfl
  · exact congrArg Conn.reads (t.conn_setConn_same ..)

end Sys2Proof.Machine

open Sys2Proof Sys2Proof.Machine

/-- Settles O51: a packet that arrives acts through the one way in for all; what is due is finished when its requests are performed. -/
theorem packetsForThisUnitAreTaken : Obligations.PacketsForThisUnitAreTaken := by
  unfold Obligations.PacketsForThisUnitAreTaken
  refine ⟨fun s t q p h => ?write, fun t q p rows kind may => t.ackLater_remoteWrite q kind may, fun s u d one done kind epoch e => ?readDone, fun s u d one done kind e epoch => ?writeDone,
    fun s d r one mem waits => State.peersOn_waits one mem waits, fun s t q p h => ?read, fun t q p st may => ⟨t.remoteRun_refused q _ may, t.remoteRun_refused q _ may⟩, fun s t q p h => ?data,
    fun t q p w found len => t.takeData_spec q found len, fun s t q p h => ?nak, fun s t q p h acked => ?ack, fun s t q p h => ?credit, fun s q p c kind live port bad => ?unsound⟩
  case write =>
    refine State.live_next (g := fun s => s.receive q p 1 (fun s => s.remoteWrite q.val p)) h.live ((h.receive _).trans ?_)
    cases (t.remoteWrite q.val p).ackLater p <;> rfl
  case readDone => rw [State.peersOn_done one done, State.peerDone_read kind epoch, e]
  case writeDone =>
    have finished := (State.peersOn_done one done).trans (State.peerDone_write kind e epoch)
    exact ⟨fun sound => finished.trans (if_neg (by rw [sound]; decide)), fun fresh => finished.trans (if_pos fresh)⟩
  case read => exact State.live_next (g := fun s => s.receive q p 2 (fun s => s.remoteRead q.val p)) h.live (h.acknowledged rfl (by decide) _)
  case data => exact State.live_next (g := fun s => s.receive q p 3 (fun s => s.takeData q.val p)) h.live (h.acknowledged rfl (by decide) _)
  case nak => exact State.live_next (g := fun s => s.receive q p 5 (fun s => s.takeNak p)) h.live (h.acknowledged rfl (by decide) _)
  case ack =>
    exact State.live_next (g := fun s => s.receive q p 4 (fun s => if p.ackv then s.fastResend p.src.toNat p.vc.val p.ack p.addr.toNat else s)) h.live ((h.alone rfl _).trans (if_pos acked))
  case credit => exact State.live_next (g := fun s => s.receive q p 6 id) h.live (h.alone rfl _)
  case unsound =>
    rcases kind with rfl | rfl | rfl | rfl | rfl | rfl | rfl | rfl | rfl
    · exact State.live_next (g := fun s => s.receive q p 1 (fun s => s.remoteWrite q.val p)) live (State.receive_unsound port bad _ _)
    · exact State.live_next (g := fun s => s.receive q p 2 (fun s => s.remoteRead q.val p)) live (State.receive_unsound port bad _ _)
    · exact State.live_next (g := fun s => s.receive q p 3 (fun s => s.takeData q.val p)) live (State.receive_unsound port bad _ _)
    · exact State.live_next (g := fun s => s.receive q p 5 (fun s => s.takeNak p)) live (State.receive_unsound port bad _ _)
    · exact State.live_next (g := fun s => s.receive q p 4 (fun s => if p.ackv then s.fastResend p.src.toNat p.vc.val p.ack p.addr.toNat else s)) live (State.receive_unsound port bad _ _)
    · exact State.live_next (g := fun s => s.receive q p 6 id) live (State.receive_unsound port bad _ _)
    · exact State.exec_packetForward_unsound live port bad
    · exact State.live_next (g := fun s => s.mgmtIn q p 4 (fun s => s.takeResync p)) live (State.mgmtIn_unsound port bad _ _)
    · exact State.live_next (g := fun s => s.mgmtIn q p 5 (fun s => s.takeResyncAck p)) live (State.mgmtIn_unsound port bad _ _)
end

section
set_option Elab.async false -- one proof after the other: the whole text stands near the memory limit of the check
/-! Forwarding, credits and connections that recover (11 R415-R431, 17 R608). -/
namespace Sys2Proof.Machine

variable {s t : State} {q : Fin 16} {p : DftPacket}

/-! The packet that leaves a port (11 R426). -/

/-- A response before a request, and the other way of entry before the same. -/
def firstOut (fwd : Bool) (l : List Egress) : Option Egress :=
  let l := if l.any (fun e => e.pkt.resp) then l.filter (fun e => e.pkt.resp) else l
  (l.find? (fun e => e.cells.isSome != fwd)).or l.head?

theorem firstOut_spec {fwd : Bool} {l : List Egress} {e : Egress} (h : firstOut fwd l = some e) : e ∈ l ∧ (e.pkt.resp = false → ∀ x ∈ l, x.pkt.resp = false) := by
  have of_or {l : List Egress} (h : (l.find? (fun e => e.cells.isSome != fwd)).or l.head? = some e) : e ∈ l := by
    rcases Option.or_eq_some_iff.1 h with found | ⟨-, head⟩
    · exact List.mem_of_find?_eq_some found
    · exact List.mem_of_head? head
  unfold firstOut at h
  dsimp only at h
  by_cases any : l.any (fun e => e.pkt.resp) = true
  · rw [if_pos any] at h
    obtain ⟨mem, resp⟩ := List.mem_filter.1 (of_or h)
    exact ⟨mem, fun no => absurd resp (by simp [no])⟩
  · rw [if_neg any] at h
    refine ⟨of_or h, fun _ x hx => ?_⟩
    cases r : x.pkt.resp
    · rfl
    · exact absurd (List.any_eq_true.2 ⟨x, hx, r⟩) any

/-- Of the packets of one virtual channel, a response goes before a request. -/
theorem firstOut_channel {fwd : Bool} {l m : List Egress} {e : Egress} {v : Nat} (h : firstOut fwd (m.filter (fun e => e.pkt.vc.val == v)) = some e)
    (whole : ∀ x ∈ l, x.pkt.vc.val = v → x ∈ m) : e ∈ m ∧ e.pkt.vc.val = v ∧ (e.pkt.resp = false → ∀ x, x ∈ l → x.pkt.vc = e.pkt.vc → x.pkt.resp = false) := by
  obtain ⟨mem, first⟩ := firstOut_spec h
  obtain ⟨mem, channel⟩ := List.mem_filter.1 mem
  have channel : e.pkt.vc.val = v := by simpa using channel
  refine ⟨mem, channel, fun no x hx vc => first no x (List.mem_filter.2 ⟨whole x hx (by rw [vc, channel]), by rw [vc, channel]; exact beq_self_eq_true _⟩)⟩

theorem State.pickEgress_eq (s : State) (n : Nat) (l : List Egress) :
    s.pickEgress n l = if (l.filter (fun e => e.pkt.vc.val != 0)).isEmpty || ((l.filter (fun e => e.pkt.vc.val != 0)).length < l.length && 15 ≤ (s.arbiter n).others) then
      (firstOut (s.arbiter n).fwd (l.filter (fun e => e.pkt.vc.val == 0))).map (fun e => (e, { s.arbiter n with others := 0, fwd := e.cells.isSome }))
    else
      (firstOut (s.arbiter n).fwd ((l.filter (fun e => e.pkt.vc.val != 0)).filter (fun e => e.pkt.vc.val == (s.nextChannel (s.arbiter n) ((l.filter (fun e => e.pkt.vc.val != 0)).map (fun e => e.pkt.vc.val))).1))).map
        (fun e => (e, ⟨min 15 ((s.arbiter n).others + 1), (s.nextChannel (s.arbiter n) ((l.filter (fun e => e.pkt.vc.val != 0)).map (fun e => e.pkt.vc.val))).2,
          (s.nextChannel (s.arbiter n) ((l.filter (fun e => e.pkt.vc.val != 0)).map (fun e => e.pkt.vc.val))).1, e.cells.isSome⟩)) := rfl

theorem State.pickEgress_spec {n : Nat} {l : List Egress} {e : Egress} {a : PortArb} (h : s.pickEgress n l = some (e, a)) :
    e ∈ l ∧ (e.pkt.vc.val = 0 → a.others = 0 ∧ (15 ≤ (s.arbiter n).others ∨ ∀ x, x ∈ l → x.pkt.vc.val = 0)) ∧
      (e.pkt.vc.val ≠ 0 → (s.arbiter n).others < 15 ∨ ∀ x, x ∈ l → x.pkt.vc.val ≠ 0) ∧ (e.pkt.resp = false → ∀ x, x ∈ l → x.pkt.vc = e.pkt.vc → x.pkt.resp = false) := by
  rw [State.pickEgress_eq] at h
  by_cases zero : ((l.filter (fun e => e.pkt.vc.val != 0)).isEmpty || (decide ((l.filter (fun e => e.pkt.vc.val != 0)).length < l.length) && decide (15 ≤ (s.arbiter n).others))) = true
  · rw [if_pos zero] at h
    obtain ⟨x, first, same⟩ := Option.map_eq_some_iff.1 h
    obtain ⟨rfl, rfl⟩ := Prod.mk.inj same
    obtain ⟨mem, channel, resp⟩ := firstOut_channel (l := l) first (fun x hx _ => hx)
    refine ⟨mem, fun _ => ⟨rfl, ?_⟩, fun other => absurd channel other, resp⟩
    rcases (Bool.or_eq_true _ _).mp zero with none | turn
    · refine .inr fun y hy => ?_
      have := List.filter_eq_nil_iff.1 (List.isEmpty_iff.1 none) y hy
      simpa using this
    · exact .inl (of_decide_eq_true ((Bool.and_eq_true _ _).mp turn).2)
  · rw [if_neg zero] at h
    obtain ⟨x, first, same⟩ := Option.map_eq_some_iff.1 h
    obtain ⟨rfl, rfl⟩ := Prod.mk.inj same
    generalize s.nextChannel (s.arbiter n) ((l.filter (fun e => e.pkt.vc.val != 0)).map (fun e => e.pkt.vc.val)) = c at first
    obtain ⟨mem, channel, -⟩ := firstOut_channel (l := []) first (fun _ h => absurd h List.not_mem_nil)
    obtain ⟨mem, other⟩ := List.mem_filter.1 mem
    have other : x.pkt.vc.val ≠ 0 := by simpa using other
    obtain ⟨-, -, resp⟩ := firstOut_channel (l := l) first (fun y hy vc => List.mem_filter.2 ⟨hy, by rw [vc, ← channel]; simpa using other⟩)
    refine ⟨mem, fun z => absurd z other, fun _ => ?_, resp⟩
    by_cases few : (s.arbiter n).others < 15
    · exact .inl few
    · refine .inr fun y hy => ?_
      have all : (l.filter (fun e => e.pkt.vc.val != 0)).length = l.length := by
        have le := List.length_filter_le (fun e : Egress => e.pkt.vc.val != 0) l
        simp only [Bool.or_eq_true, Bool.and_eq_true, decide_eq_true_eq, not_or, not_and] at zero
        have := zero.2
        omega
      have := List.length_filter_eq_length_iff.1 all y hy
      simpa using this

/-! Packets for another member (11 R415, R417). -/

theorem State.exec_packetForward (live : s.life = .running) (port : s.portUp (.peer q) = true) (target : p.dst.toNat ≠ s.self) (scope : linkScope p = false) (sound : (s.frameIn q p).2 = true) :
    exec (.packetForward q p) s = if p.hop ≤ 1 then .next (((s.frameIn q p).1.tally fabStat FAB_STAT.ROUTE_DROP 1).freeCells q.val p.vc.val (pktClass p) (pktCells p))
      else match (if (s.frameIn q p).1.member p.dst.toNat then (s.frameIn q p).1.route p.dst.toNat else none) with
        | none => .next ((s.frameIn q p).1.freeCells q.val p.vc.val (pktClass p) (pktCells p))
        | some dir => .next ((s.frameIn q p).1.forward q.val p dir) := by
  have other : (p.dst.toNat == s.self) = false := beq_eq_false_iff_ne.2 target
  change execPacketForward q p s = _
  rw [execPacketForward, State.live_run live]
  dsimp only
  rw [port, scope, other, sound, Bool.or_false, Bool.and_false]
  simp only [Bool.not_true, Bool.or_false, Bool.false_eq_true, if_false] <;> rfl

/-! Freed cells go back (11 R425). -/

theorem State.returnCells_spec {vc cls n : Nat} (port : s.portUp (.peer q) = true) (freed : tget 0 s.freed (creditKey q.val vc cls) = n) (pos : 0 < n) (few : n ≤ 2047) :
    tget 0 (s.returnCells q.val vc cls).freed (creditKey q.val vc cls) = 0 ∧
      (∃ m, tget? (s.returnCells q.val vc cls).wire q.val = some m ∧ m.type = 6 ∧ m.credit = vc * 8192 + cls * 2048 + n) ∧ (s.returnCells q.val vc cls).mem = s.mem ∧ (s.returnCells q.val vc cls).regs = s.regs := by
  have self : Fin.ofNat 16 q.val = q := Fin.ext (Nat.mod_eq_of_lt q.isLt)
  have some' : (n == 0) = false := beq_eq_false_iff_ne.2 (by omega)
  have all : Nat.min n 2047 = n := Nat.min_eq_left few
  unfold State.returnCells
  dsimp only
  rw [self, port, freed, some', if_neg (by decide), all, Nat.sub_self]
  refine ⟨tget_tset_same .., ⟨_, tget?_tset_same .., rfl, rfl⟩, rfl, rfl⟩

/-! Unacknowledged packets (11 R429). -/

theorem State.retransmitTimeout_due {u vc n : Nat} {o : OutPkt} (fail : State → State) (out : (s.conn u vc).out.find? (fun o => o.pkt.seq == n) = some o) (due : o.sent + s.rto o.tries ≤ s.now) :
    s.retransmitTimeout u vc n fail = if s.fld fabTmo FAB_TMO.RETRY ≤ o.tries then fail s else s.resend u vc n false := by
  unfold State.retransmitTimeout
  rw [out]
  exact if_neg (by omega)

/-! A connection that fails (11 R430). -/

/-- The connection of a key has nothing under way and waits for its resynchronisation. -/
def Resyncing (k : Nat) (r : Nat × Nat) (m : Memory) (s : State) : Prop :=
  (tget Conn.fresh s.conns k).out = [] ∧ (tget Conn.fresh s.conns k).reads = [] ∧ (tget Conn.fresh s.conns k).resync = some r ∧ s.mem = m

section
variable {k : Nat} {r : Nat × Nat} {m : Memory}

theorem Resyncing.of_eq (h : Resyncing k r m s) (conns : t.conns = s.conns) (mem : t.mem = s.mem) : Resyncing k r m t := by
  unfold Resyncing
  rwa [conns, mem]

theorem Sent.conns (h : Sent s t) : t.conns = s.conns := by obtain ⟨⟨_, _, _, _, _, _, rfl⟩, -⟩ := h; rfl

theorem Aside.conns (h : Aside s t) : t.conns = s.conns := by obtain ⟨⟨_, _, _, _, _, _, _, _, _, rfl⟩, -⟩ := h; rfl

theorem Resyncing.sent (h : Resyncing k r m s) (e : Sent s t) : Resyncing k r m t := h.of_eq e.conns e.mem

theorem Resyncing.aside (h : Resyncing k r m s) (e : Aside s t) : Resyncing k r m t := h.of_eq e.conns e.mem

theorem State.conns_setFld (s : State) (r : Reg) (f : Fld) (v : Nat) : (s.setFld r f v).conns = s.conns := rfl

theorem State.conns_refuse (s : State) (c : Nat) (st : Status) (bundle slot : Nat) : (s.refuse c st bundle slot).conns = s.conns := by
  unfold State.refuse
  cases (s.core c).kernel with
  | none => rfl
  | some x =>
    dsimp only
    split
    · rfl
    · simp only [State.faultRing, State.conns_setFld, State.onCore, State.setCore]

theorem Resyncing.rowFailed (h : Resyncing k r m s) (o : PktRow) (st : Status) : Resyncing k r m (s.rowFailed o st) := by
  unfold State.rowFailed
  split
  · split
    · exact h.of_eq (State.conns_refuse ..) (local_refuse _ o.core _ _ _).mem
    · exact h
  · exact h

theorem Resyncing.rowsFailed (h : Resyncing k r m s) (l : List PktRow) (st : Status) : Resyncing k r m (l.foldl (fun s o => s.rowFailed o st) s) := by
  induction l generalizing s with
  | nil => exact h
  | cons o l ih => exact ih (h.rowFailed o st)

/-- Another connection, or what waits on this one, may change. -/
theorem Resyncing.setConn (h : Resyncing k r m s) (u vc : Nat) {c : Conn} (keeps : connKey u vc = k → c.out = (s.conn u vc).out ∧ c.reads = (s.conn u vc).reads ∧ c.resync = (s.conn u vc).resync) :
    Resyncing k r m (s.setConn u vc c) := by
  unfold Resyncing State.setConn
  by_cases same : connKey u vc = k
  · obtain ⟨out, reads, resync⟩ := keeps same
    rw [same, tget_tset_same, out, reads, resync, State.conn, same]
    exact h
  · rw [tget_tset_ne _ _ _ (fun e => same e.symm)]
    exact h

theorem Resyncing.sendNow (h : Resyncing k r m s) {p : DftPacket} (room : s.connRoom p = true) (rows : List PktRow) : Resyncing k r m (s.sendNow p rows) := by
  have apart : connKey p.dst.toNat p.vc.val ≠ k := by
    rintro rfl
    obtain ⟨-, -, resync, -⟩ := h
    have none : (s.conn p.dst.toNat p.vc.val).resync.isNone = true := by
      simp only [State.connRoom, Bool.and_eq_true] at room
      exact room.1.2
    rw [State.conn, resync] at none
    exact absurd none Bool.false_ne_true
  exact (h.setConn _ _ (fun e => absurd e apart)).sent (State.sent_emit ..)

theorem Resyncing.sendWaitingOn (h : Resyncing k r m s) (u vc : Nat) : Resyncing k r m (s.sendWaitingOn u vc) := by
  unfold State.sendWaitingOn
  dsimp only
  generalize (s.conn u vc).waiting = l
  have started : Resyncing k r m (s.setConn u vc { s.conn u vc with waiting := [] }) := h.setConn u vc (fun _ => ⟨rfl, rfl, rfl⟩)
  revert started
  generalize s.setConn u vc { s.conn u vc with waiting := [] } = t
  intro started
  induction l generalizing t with
  | nil => exact started
  | cons x l ih =>
    refine ih _ ?_
    beta_reduce
    split
    case isTrue goes => exact started.sendNow ((Bool.and_eq_true _ _).mp goes).2 _
    case isFalse => exact started.setConn u vc (fun _ => ⟨rfl, rfl, rfl⟩)

theorem Resyncing.sendWaiting (h : Resyncing k r m s) : Resyncing k r m s.sendWaiting := by
  unfold State.sendWaiting
  generalize (s.conns.filter (fun c => !c.2.waiting.isEmpty)).map (·.1) = l
  induction l generalizing s with
  | nil => exact h
  | cons x l ih => exact ih (h.sendWaitingOn _ _)

end

theorem State.resyncing_connFail (s : State) (u vc : Nat) : Resyncing (connKey u vc) (((s.conn u vc).epoch + 1) % 256, s.now) s.mem (s.connFail u vc) := by
  have failed : Resyncing (connKey u vc) (((s.conn u vc).epoch + 1) % 256, s.now) s.mem
      (s.setConn u vc { s.conn u vc with out := [], reads := [], resync := some (((s.conn u vc).epoch + 1) % 256, s.now) }) := by
    unfold Resyncing State.setConn
    rw [tget_tset_same]
    exact ⟨rfl, rfl, rfl, rfl⟩
  unfold State.connFail
  dsimp only
  refine Resyncing.sendWaiting ?_
  refine Resyncing.sent ?_ (State.sent_emit ..)
  refine Resyncing.aside ?_ (State.aside_raise ..)
  exact (failed.rowsFailed _ .timeout).of_eq rfl rfl

/-! Management packets of connections (17 R608). -/

/-- What a management packet that is taken brings about. -/
theorem Managed.mgmtIn {kind : Nat} (h : Managed s q p kind t) (pos : 0 < kind) (known : kind ≤ 5) (act : State → State) : s.mgmtIn q p kind act = act t := by
  obtain ⟨-, port, -, type, target, scope, k, sound, taken⟩ := h
  have goes : ¬(s.frameOk p && (p.type != 8 || p.dst.toNat != s.self || linkScope p)) = true := by
    rw [type, target, scope]
    simp
  have one : ¬(kind == 0 || decide (5 < kind)) = true := by
    simp only [Bool.or_eq_true, beq_iff_eq, decide_eq_true_eq]
    omega
  unfold State.mgmtIn
  rw [port, if_neg (by decide), if_neg goes]
  dsimp only
  rw [sound, if_neg (by decide), k, if_neg one, bne_self_eq_false, if_neg Bool.false_ne_true, taken]

theorem State.exec_resyncRepeat {c : ConnId} {e n : Nat} (live : s.life = .running) (waits : (s.conn c.unit.toNat c.vc.val).resync = some (e, n)) (due : n + s.rto 0 ≤ s.now) :
    exec (.resyncRepeat c) s = .next ((s.setConn c.unit.toNat c.vc.val { s.conn c.unit.toNat c.vc.val with resync := some (e, s.now) }).sendResync 4 c.unit.toNat c.vc.val e) := by
  change execResyncRepeat c s = _
  rw [execResyncRepeat, State.live_run live]
  dsimp only
  rw [waits]
  exact if_neg (by omega)

end Sys2Proof.Machine

open Sys2Proof Sys2Proof.Machine

/-- Settles O52: what waits on a connection that failed cannot leave while its RESYNC is out. -/
theorem connectionsRecover : Obligations.ConnectionsRecover := by
  unfold Obligations.ConnectionsRecover
  refine ⟨fun s q l e a h => State.pickEgress_spec h, fun s q p dir live port _ target scope sound hops member route => ?forward, fun s q p live port _ target scope sound hops => ?hops,
    fun s q vc cls n live port kept freed pos few => ⟨_, ?returned, s.returnCells_spec port freed pos few⟩, fun s c n o live out due more => ?again, fun s c n o live out due last => ?fails,
    fun s u vc => s.resyncing_connFail u vc, fun s t q p h => ?resync, fun s t q p h => ?resyncAck, fun s c e n live waits due => State.exec_resyncRepeat live waits due⟩
  case forward =>
    rw [State.exec_packetForward live port target scope sound, if_neg (by omega), member, if_pos rfl, route]
  case hops => rw [State.exec_packetForward live port target scope sound, if_pos hops]
  case returned =>
    change execCreditReturn q vc cls s = _
    rw [execCreditReturn, State.live_run live]
    exact if_neg (by rw [kept]; decide)
  case again =>
    exact State.live_next (g := fun s => s.retransmitTimeout c.unit.toNat c.vc.val n (fun s => s.connLost c.unit.toNat c.vc.val)) live ((State.retransmitTimeout_due _ out due).trans (if_neg (by omega)))
  case fails =>
    exact State.live_next (g := fun s => s.retransmitTimeout c.unit.toNat c.vc.val n (fun s => s.connLost c.unit.toNat c.vc.val)) live ((State.retransmitTimeout_due _ out due).trans (if_pos last))
  case resync => exact State.live_next (g := fun s => s.mgmtIn q p 4 (fun s => s.takeResync p)) h.1 (h.mgmtIn (by decide) (by decide) _)
  case resyncAck => exact State.live_next (g := fun s => s.mgmtIn q p 5 (fun s => s.takeResyncAck p)) h.1 (h.mgmtIn (by decide) (by decide) _)
end

section
set_option Elab.async false -- one proof after the other: the whole text stands near the memory limit of the check
/-! Links take and replay rows, ports train (01 R19-R28, 11 R406-R412). -/
namespace Sys2Proof.Machine

variable {s t : State} {r : LinkRow} {e : LinkEnd} {cls : LinkClass}

/-! A tally, and the fields beside it. -/

theorem State.fld_noteFld (s : State) (r q : Reg) (f g : Fld) (v : Nat) : (s.noteFld r f v).fld q g = s.fld q g := rfl

theorem State.fld_tally_same (s : State) (r : Reg) (f : Fld) (n : Nat) (h : f.lo ≤ f.hi) (k : f.hi < 64) : (s.tally r f n).fld r f = min (2 ^ (f.hi + 1 - f.lo) - 1) (s.fld r f + n) := by
  rw [State.tally, State.fld_noteFld, State.fld_bump_same _ _ _ _ h k, satAdd, Nat.min_comm]

theorem State.fld_tally_other (s : State) (r : Reg) (f g : Fld) (n : Nat) (h : f.lo ≤ f.hi) (k : f.hi < 64) (o : g.hi < f.lo ∨ f.hi < g.lo) : (s.tally r f n).fld r g = s.fld r g := by
  rw [State.tally, State.fld_noteFld, State.fld_bump_other _ _ _ _ _ h k o]

/-! The words of a row (01 R20, R21). -/

theorem LinkRow.not_rowUncorrectable (single : ∀ n, n ∈ r.errs → n ≤ 1) (nth : Nat) : rowUncorrectable r nth = false := by
  refine List.any_eq_false.2 fun w hw => ?_
  have word : r.errs.getD w 0 ≤ 1 := by
    rw [List.getD_eq_getElem _ _ (List.mem_range.1 hw)]
    exact single _ (List.getElem_mem _)
  simp only [Bool.or_eq_true, beq_iff_eq, Bool.and_eq_true, decide_eq_true_eq, not_or, not_and]
  omega

theorem LinkRow.rowUncorrectable (double : 2 ∈ r.errs) (nth : Nat) : rowUncorrectable r nth = true := by
  obtain ⟨w, hw, word⟩ := List.getElem_of_mem double
  refine List.any_eq_true.2 ⟨w, List.mem_range.2 hw, ?_⟩
  rw [List.getD_eq_getElem _ _ hw, word]
  rfl

/-! A row received. -/

theorem State.exec_linkRowReceive (live : s.life = .running) (port : linkPort e.sel.val e.port.val = true) (up : s.fld (linkReg .LINK_STATUS e.sel.val e.port.val) LINK_STATUS.UP = 1)
    (room : s.linkFull e.sel.val e.port.val cls = false) (calm : s.inject = none) :
    exec (.linkRowReceive e cls r) s = match s.replayOf e.sel.val e.port.val cls with
      | some x => .next ({ s with replays := s.replays.map (fun y => if y == x then { y with held := y.held ++ [r] } else y) }.linkLate r.request (s.linkDue x.request))
      | none => .next (s.linkTake e.sel.val e.port.val cls r).1 := by
  have seen : s.linkSeen e.sel.val e.port.val r = (s, r) := by rw [State.linkSeen, calm]
  change execLinkRowReceive e cls r s = _
  rw [execLinkRowReceive, State.live_run live]
  dsimp only
  rw [port, up, room, if_neg (by decide), seen] <;> rfl

theorem State.exec_linkRowReceive_full (live : s.life = .running) (full : s.linkFull e.sel.val e.port.val cls = true) : exec (.linkRowReceive e cls r) s = .next s := by
  change execLinkRowReceive e cls r s = _
  rw [execLinkRowReceive, State.live_run live]
  exact if_pos (by rw [full, Bool.or_true])

theorem State.linkTake_sound {sel p : Nat} (single : ∀ n, n ∈ r.errs → n ≤ 1) :
    (s.linkTake sel p cls r).1 = (s.tally (linkReg .LINK_ERR_CNT sel p) LINK_ERR_CNT.CORR (rowCorrected r)).linkDeliver sel p cls r false := by
  unfold State.linkTake
  dsimp only
  rw [LinkRow.not_rowUncorrectable single, if_neg Bool.false_ne_true]

/-- A row put off changes nothing but the requests. -/
theorem State.linkLate_eq (s : State) (n : Option Nat) (c : Nat) : ∃ l, s.linkLate n c = { s with reqs := l } := by
  cases n with
  | none => exact ⟨s.reqs, rfl⟩
  | some n => exact ⟨_, rfl⟩

theorem addr_linkStatus_ne (sel p : Nat) : (linkReg .LINK_ERR_CNT sel p).addr ≠ (linkReg .LINK_STATUS sel p).addr := addr_ne_of_base _ _ _ (by decide)

theorem State.linkTake_replay {sel p : Nat} (double : 2 ∈ r.errs) :
    (s.linkTake sel p cls r).1.replays = s.replays ++ [⟨sel, p, cls, r.request, []⟩] ∧ (s.linkTake sel p cls r).1.fld (linkReg .LINK_STATUS sel p) LINK_STATUS.REPLAYING = 1 ∧ (s.linkTake sel p cls r).1.mem = s.mem ∧
      (s.linkTake sel p cls r).1.fld (linkReg .LINK_ERR_CNT sel p) LINK_ERR_CNT.REPLAY = min (2 ^ (LINK_ERR_CNT.REPLAY.hi + 1 - LINK_ERR_CNT.REPLAY.lo) - 1) (s.fld (linkReg .LINK_ERR_CNT sel p) LINK_ERR_CNT.REPLAY + 1) := by
  unfold State.linkTake
  dsimp only
  rw [LinkRow.rowUncorrectable double, if_pos rfl]
  dsimp only
  generalize hc : s.tally (linkReg .LINK_ERR_CNT sel p) LINK_ERR_CNT.CORR (rowCorrected r) = c
  generalize hd : ({ c with fresh := c.fresh + 1, replays := c.replays ++ [⟨sel, p, cls, r.request, []⟩] } : State) = d
  generalize (d.tally (linkReg .LINK_ERR_CNT sel p) LINK_ERR_CNT.REPLAY 1).linkDue r.request + 40 = due
  obtain ⟨l, late⟩ := (d.tally (linkReg .LINK_ERR_CNT sel p) LINK_ERR_CNT.REPLAY 1).linkLate_eq r.request due
  have count (q : Reg) (g : Fld) : ({ d.tally (linkReg .LINK_ERR_CNT sel p) LINK_ERR_CNT.REPLAY 1 with reqs := l } : State).fld q g = (d.tally (linkReg .LINK_ERR_CNT sel p) LINK_ERR_CNT.REPLAY 1).fld q g := by
    simp only [State.fld, State.reg]
  have before : d.fld (linkReg .LINK_ERR_CNT sel p) LINK_ERR_CNT.REPLAY = s.fld (linkReg .LINK_ERR_CNT sel p) LINK_ERR_CNT.REPLAY := by
    rw [← s.fld_tally_other (linkReg .LINK_ERR_CNT sel p) LINK_ERR_CNT.CORR LINK_ERR_CNT.REPLAY (rowCorrected r) (by decide) (by decide) (by decide), hc, ← hd]
    simp only [State.fld, State.reg]
  rw [late]
  refine ⟨?_, State.fld_setFld_same _ _ _ _ (by decide) (by decide), ?_, ?_⟩
  · change d.replays = _
    rw [← hd, ← hc]
    rfl
  · change d.mem = _
    rw [← hd, ← hc]
    rfl
  · rw [State.fld_setFld_ne _ _ _ _ (addr_linkStatus_ne sel p), count, State.fld_tally_same _ _ _ _ (by decide) (by decide), before]

/-! A row delivered (01 R19, R21). -/

/-- The register of a pool's status is none of a link's. -/
theorem addr_kvpStatus_ne_link (d i sel p : Nat) : (linkReg .LINK_ERR_CNT sel p).addr ≠ (kvp .KVP_STATUS d i).addr := by
  simp only [Reg.addr, linkReg, kvp, RegName.layout]
  omega

/-- The requests, replays, memory and error counts of the links are left alone. -/
def LinksKept (s t : State) : Prop :=
  t.reqs = s.reqs ∧ t.replays = s.replays ∧ t.mem = s.mem ∧ ∀ sel p g, t.fld (linkReg .LINK_ERR_CNT sel p) g = s.fld (linkReg .LINK_ERR_CNT sel p) g

theorem LinksKept.refl (s : State) : LinksKept s s := ⟨rfl, rfl, rfl, fun _ _ _ => rfl⟩

theorem State.linksKept_markKernel (s : State) (k : Nat) : LinksKept s (s.markKernel k) := ⟨rfl, rfl, rfl, fun _ _ _ => rfl⟩

theorem State.linksKept_firstStatus (s : State) (d p : Nat) (st : Status) : LinksKept s (s.firstStatus d p st) := by
  unfold State.firstStatus
  dsimp only
  split
  · exact ⟨rfl, rfl, rfl, fun sel n g => State.fld_setFld_ne _ _ _ _ (addr_kvpStatus_ne_link d p sel n)⟩
  · exact .refl s

theorem State.linksKept_linkIntegrity (s : State) (o : ReqOwner) (row : Nat) : LinksKept s (s.linkIntegrity o row) := by
  unfold State.linkIntegrity
  cases o with
  | chan => exact s.linksKept_markKernel _
  | awl => exact s.linksKept_markKernel _
  | engine e d i =>
    cases e with
    | welt => exact ⟨rfl, rfl, rfl, fun _ _ _ => rfl⟩
    | pool => exact s.linksKept_firstStatus ..
    | coll => exact ⟨rfl, rfl, rfl, fun _ _ _ => rfl⟩
    | host => exact ⟨rfl, rfl, rfl, fun _ _ _ => rfl⟩
    | index => exact s.linksKept_markKernel _
    | ring => exact s.linksKept_markKernel _
    | desc => exact s.linksKept_markKernel _
    | dump => exact s.linksKept_markKernel _
    | cache => exact .refl s
    | dcp => exact .refl s
    | peer => exact .refl s
  | _ => exact .refl s

theorem State.linkCredit_eq (s : State) (sel p : Nat) (c : LinkClass) : ∃ l, s.linkCredit sel p c = { s with linkHeld := l } := by
  unfold State.linkCredit
  dsimp only
  split
  · exact ⟨_, rfl⟩
  · exact ⟨s.linkHeld, rfl⟩

/-- A row without a word the receiver finds uncorrectable. -/
theorem State.linkDeliver_sound (s : State) (sel p : Nat) (c : LinkClass) (r : LinkRow) : (s.linkDeliver sel p c r false).replays = s.replays ∧ (s.linkDeliver sel p c r false).mem = s.mem := by
  obtain ⟨l, credit⟩ := s.linkCredit_eq sel p c
  unfold State.linkDeliver
  dsimp only
  rw [credit]
  split
  · split
    · rw [if_neg Bool.false_ne_true]
      exact ⟨rfl, rfl⟩
    · exact ⟨rfl, rfl⟩
  · rw [if_neg Bool.false_ne_true]
    exact ⟨rfl, rfl⟩

/-- The request of a row poisoned by its link carries the poison, unless it is a write already performed. -/
theorem MemReq.crossed_bad {q : MemReq} (r : LinkRow) (carries : q.write = false ∨ q.stage = 0) : (q.crossed r true).img.poison = true := by
  unfold MemReq.crossed
  dsimp only
  rw [if_neg (by rcases carries with read | waits <;> simp [*])]
  exact Bool.or_true _

theorem MemReq.crossed_id (q : MemReq) (r : LinkRow) (bad : Bool) : (q.crossed r bad).id = q.id := by
  unfold MemReq.crossed
  dsimp only
  split <;> rfl

theorem State.linkDeliver_bad {q : MemReq} (sel p : Nat) (c : LinkClass) (mem : q ∈ s.reqs) (only : ∀ z, z ∈ s.reqs → z.id = q.id → z = q) (request : r.request = some q.id) :
    ∃ u : State, u.reqs = s.reqs.map (fun x => if x.id == q.id then x.crossed r true else x) ∧ u.replays = s.replays ∧ u.mem = s.mem ∧ (∀ a g, u.fld a g = s.fld a g) ∧ LinksKept u (s.linkDeliver sel p c r true) := by
  obtain ⟨l, credit⟩ := s.linkCredit_eq sel p c
  have found : s.reqs.find? (fun x => x.id == q.id) = some q := by
    cases h : s.reqs.find? (fun x => x.id == q.id) with
    | none => exact absurd (List.find?_eq_none.1 h q mem) (by simp)
    | some x => rw [only x (List.mem_of_find?_eq_some h) (by simpa using List.find?_some h)]
  unfold State.linkDeliver
  dsimp only
  rw [credit, request, Option.bind_some]
  dsimp only
  rw [found]
  dsimp only
  rw [if_pos rfl]
  refine ⟨_, ?_, ?_, ?_, ?_, State.linksKept_linkIntegrity ..⟩
  · rfl
  · rfl
  · rfl
  · intro a g
    simp only [State.fld, State.reg]

/-! A row replayed (01 R21). -/

/-- The replay whose row came is over; its link replays nothing once no other waits. -/
def State.replayed (s : State) (sel p : Nat) : State :=
  if s.replays.any (fun y => y.sel == sel && y.port == p) then s else s.setFld (linkReg .LINK_STATUS sel p) LINK_STATUS.REPLAYING 0

theorem State.replayed_keeps (s : State) (sel p : Nat) : (s.replayed sel p).reqs = s.reqs ∧ (s.replayed sel p).replays = s.replays ∧ (s.replayed sel p).mem = s.mem ∧
    ∀ g, (s.replayed sel p).fld (linkReg .LINK_ERR_CNT sel p) g = s.fld (linkReg .LINK_ERR_CNT sel p) g := by
  unfold State.replayed
  split
  · exact ⟨rfl, rfl, rfl, fun _ => rfl⟩
  · exact ⟨rfl, rfl, rfl, fun g => State.fld_setFld_ne _ _ _ _ (addr_linkStatus_ne sel p)⟩

theorem State.replayed_done {sel p : Nat} (done : s.replays.any (fun y => y.sel == sel && y.port == p) = false) : (s.replayed sel p).fld (linkReg .LINK_STATUS sel p) LINK_STATUS.REPLAYING = 0 := by
  unfold State.replayed
  rw [done, if_neg Bool.false_ne_true]
  exact State.fld_setFld_same _ _ _ _ (by decide) (by decide)

theorem State.exec_linkReplay {x : Replay} (live : s.life = .running) (first : s.replays.find? (fun x => x.sel == e.sel.val && x.port == e.port.val) = some x) (free : x.held = [])
    {c : State} (hc : c = State.tally { s with replays := s.replays.erase x } (linkReg .LINK_ERR_CNT e.sel.val e.port.val) LINK_ERR_CNT.CORR (rowCorrected r)) :
    exec (.linkReplay e r) s = .next (((if rowUncorrectable r c.fresh then ({ c with fresh := c.fresh + 1 } : State).tally (linkReg .LINK_ERR_CNT e.sel.val e.port.val) LINK_ERR_CNT.UNCORR 1 else c).linkDeliver
      e.sel.val e.port.val x.cls { r with request := x.request } (rowUncorrectable r c.fresh)).replayed e.sel.val e.port.val) := by
  change execLinkReplay e r s = _
  rw [execLinkReplay, State.live_run live]
  dsimp only
  rw [first]
  dsimp only
  rw [free, State.linkHeldRows, ← hc]
  rfl

theorem State.exec_linkReplay_sound {x : Replay} (live : s.life = .running) (first : s.replays.find? (fun x => x.sel == e.sel.val && x.port == e.port.val) = some x) (free : x.held = []) (single : ∀ n, n ∈ r.errs → n ≤ 1) :
    ∃ t : State, exec (.linkReplay e r) s = .next t ∧ t.replays = s.replays.erase x ∧ t.mem = s.mem ∧
      ((s.replays.erase x).any (fun y => y.sel == e.sel.val && y.port == e.port.val) = false → t.fld (linkReg .LINK_STATUS e.sel.val e.port.val) LINK_STATUS.REPLAYING = 0) := by
  obtain ⟨c, hc⟩ : ∃ c, c = State.tally { s with replays := s.replays.erase x } (linkReg .LINK_ERR_CNT e.sel.val e.port.val) LINK_ERR_CNT.CORR (rowCorrected r) := ⟨_, rfl⟩
  refine ⟨_, State.exec_linkReplay live first free hc, ?_⟩
  rw [LinkRow.not_rowUncorrectable single, if_neg Bool.false_ne_true]
  obtain ⟨replays, mem⟩ := c.linkDeliver_sound e.sel.val e.port.val x.cls { r with request := x.request }
  have erased : (c.linkDeliver e.sel.val e.port.val x.cls { r with request := x.request } false).replays = s.replays.erase x := by rw [replays, hc, State.tally_replays]
  have kept := State.replayed_keeps (c.linkDeliver e.sel.val e.port.val x.cls { r with request := x.request } false) e.sel.val e.port.val
  refine ⟨kept.2.1.trans erased, ?_, fun done => State.replayed_done (by rw [erased]; exact done)⟩
  rw [kept.2.2.1, mem, hc, State.tally_mem]

theorem State.exec_linkReplay_bad {x : Replay} {q : MemReq} (live : s.life = .running) (first : s.replays.find? (fun x => x.sel == e.sel.val && x.port == e.port.val) = some x) (free : x.held = []) (double : 2 ∈ r.errs)
    (mem : q ∈ s.reqs) (only : ∀ z, z ∈ s.reqs → z.id = q.id → z = q) (request : x.request = some q.id) (carries : q.write = false ∨ q.stage = 0) :
    ∃ t : State, exec (.linkReplay e r) s = .next t ∧ (∀ z, z ∈ t.reqs → z.id = q.id → z.img.poison = true) ∧ t.replays = s.replays.erase x ∧ t.mem = s.mem ∧
      t.fld (linkReg .LINK_ERR_CNT e.sel.val e.port.val) LINK_ERR_CNT.UNCORR = min (2 ^ (LINK_ERR_CNT.UNCORR.hi + 1 - LINK_ERR_CNT.UNCORR.lo) - 1) (s.fld (linkReg .LINK_ERR_CNT e.sel.val e.port.val) LINK_ERR_CNT.UNCORR + 1) := by
  obtain ⟨b, hb⟩ : ∃ b : State, b = { s with replays := s.replays.erase x } := ⟨_, rfl⟩
  obtain ⟨c, hc⟩ : ∃ c, c = b.tally (linkReg .LINK_ERR_CNT e.sel.val e.port.val) LINK_ERR_CNT.CORR (rowCorrected r) := ⟨_, rfl⟩
  refine ⟨_, State.exec_linkReplay (c := c) live first free (by rw [hc, hb]), ?_⟩
  rw [LinkRow.rowUncorrectable double, if_pos rfl]
  obtain ⟨f, hf⟩ : ∃ f : State, f = { c with fresh := c.fresh + 1 } := ⟨_, rfl⟩
  rw [← hf]
  have reqs : (f.tally (linkReg .LINK_ERR_CNT e.sel.val e.port.val) LINK_ERR_CNT.UNCORR 1).reqs = s.reqs := by rw [State.tally_reqs, hf, hc, hb]; rfl
  obtain ⟨u, sent, replays, memory, regs, kept⟩ := State.linkDeliver_bad (s := f.tally (linkReg .LINK_ERR_CNT e.sel.val e.port.val) LINK_ERR_CNT.UNCORR 1) (r := { r with request := x.request }) e.sel.val e.port.val x.cls
    (by rw [reqs]; exact mem) (by rw [reqs]; exact only) request
  revert kept
  generalize (f.tally (linkReg .LINK_ERR_CNT e.sel.val e.port.val) LINK_ERR_CNT.UNCORR 1).linkDeliver e.sel.val e.port.val x.cls { r with request := x.request } true = v
  rintro ⟨reqs', replays', mem', fld'⟩
  obtain ⟨reqs'', replays'', mem'', fld''⟩ := v.replayed_keeps e.sel.val e.port.val
  refine ⟨fun z hz same => ?_, ?_, ?_, ?_⟩
  · rw [reqs'', reqs', sent, reqs] at hz
    obtain ⟨y, hy, rfl⟩ := List.mem_map.1 hz
    by_cases own : y.id = q.id
    · rw [if_pos (beq_iff_eq.2 own), only y hy own]
      exact MemReq.crossed_bad _ carries
    · rw [if_neg (fun h => own (beq_iff_eq.1 h))] at same
      exact absurd same own
  · rw [replays'', replays', replays, State.tally_replays, hf, hc]
    change (b.tally (linkReg .LINK_ERR_CNT e.sel.val e.port.val) LINK_ERR_CNT.CORR (rowCorrected r)).replays = _
    rw [State.tally_replays, hb]
  · rw [mem'', mem', memory, State.tally_mem, hf, hc]
    change (b.tally (linkReg .LINK_ERR_CNT e.sel.val e.port.val) LINK_ERR_CNT.CORR (rowCorrected r)).mem = _
    rw [State.tally_mem, hb]
  · have same : f.fld (linkReg .LINK_ERR_CNT e.sel.val e.port.val) LINK_ERR_CNT.UNCORR = c.fld (linkReg .LINK_ERR_CNT e.sel.val e.port.val) LINK_ERR_CNT.UNCORR := by
      rw [hf]
      simp only [State.fld, State.reg]
    have same' : b.fld (linkReg .LINK_ERR_CNT e.sel.val e.port.val) LINK_ERR_CNT.UNCORR = s.fld (linkReg .LINK_ERR_CNT e.sel.val e.port.val) LINK_ERR_CNT.UNCORR := by
      rw [hb]
      simp only [State.fld, State.reg]
    rw [fld'', fld', regs, State.fld_tally_same _ _ _ _ (by decide) (by decide), same, hc, State.fld_tally_other _ _ _ _ _ (by decide) (by decide) (by decide), same']

/-! Ports (11 R407-R412). -/

section
variable {p : EthPort} {up degraded : Bool} {speed lanes : Nat}

/-- A port's status register is no account word. -/
theorem addr_portStatus_ne_acct (p : EthPort) (n w : Nat) : (portRegs p).2.1.addr ≠ (acct n w).addr := by
  cases p with
  | peer q =>
    simp only [portRegs, Reg.addr, peerPort, acct, RegName.layout, selIo, selSv0]
    omega
  | host h =>
    simp only [portRegs, Reg.addr, acct, RegName.layout, selIo, selSv0]
    omega

theorem plain_portStatus (q : Fin 16) : Plain (portRegs (.peer q)).2.1 := by
  refine ⟨fun n w => addr_portStatus_ne_acct (.peer q) n w, fun k => ?_, ?_, fun ic x hx => ?_⟩
  · simp only [portRegs, Reg.addr, peerPort, hp, RegName.layout, selIo]
    omega
  · simp only [portRegs, Reg.addr, peerPort, RegName.layout, selIo, selSv0]
    omega
  · simp only [portRegs, Reg.addr, peerPort, icPending, RegName.layout, selIo, icSel]
    split <;> omega

theorem plain_portCfg (q : Fin 16) : Plain (portRegs (.peer q)).1 := by
  refine ⟨fun n w => ?_, fun k => ?_, ?_, fun ic x hx => ?_⟩
  · simp only [portRegs, Reg.addr, peerPort, acct, RegName.layout, selIo, selSv0]
    omega
  · simp only [portRegs, Reg.addr, peerPort, hp, RegName.layout, selIo]
    omega
  · simp only [portRegs, Reg.addr, peerPort, RegName.layout, selIo, selSv0]
    omega
  · simp only [portRegs, Reg.addr, peerPort, icPending, RegName.layout, selIo, icSel]
    split <;> omega

theorem plain_startStatus : Plain startStatus := plain_of_sv0 (o := 0xA00000) (by decide) (by decide) (by decide)

theorem addr_portCfg_ne (p : EthPort) : (portRegs p).1.addr ≠ (portRegs p).2.1.addr := by
  cases p with
  | peer q => exact addr_ne_of_base _ _ _ (by decide)
  | host h => exact addr_ne_of_base _ _ _ (by decide)

theorem addr_startStatus_ne (p : EthPort) : startStatus.addr ≠ (portRegs p).2.1.addr := by
  cases p with
  | peer q =>
    simp only [portRegs, Reg.addr, peerPort, startStatus, RegName.layout, selIo, selSv0]
    omega
  | host h =>
    simp only [portRegs, Reg.addr, startStatus, RegName.layout, selIo, selSv0]
    omega

theorem Aside.training (h : Aside s t) : t.training = s.training := by obtain ⟨⟨_, _, _, _, _, _, _, _, _, rfl⟩, -⟩ := h; rfl

/-- The port changes its state, speed and lanes alone: its count of trainings and its configuration are left. -/
def PortSet (p : EthPort) (s t : State) : Prop :=
  t.mem = s.mem ∧ t.cores = s.cores ∧ t.training = s.training ∧ t.now = s.now ∧ t.fld (portRegs p).2.1 PEER_PORT_STATUS.RETRAINS = s.fld (portRegs p).2.1 PEER_PORT_STATUS.RETRAINS ∧ t.portMode p = s.portMode p

theorem State.portMode_congr (cfg : ∀ g, t.fld (portRegs p).1 g = s.fld (portRegs p).1 g) (start : ∀ g, t.fld startStatus g = s.fld startStatus g) : t.portMode p = s.portMode p := by
  cases p with
  | peer q => exact cfg _
  | host h =>
    have minimal : t.minimal = s.minimal := by simp only [State.minimal, start]
    unfold State.portMode
    dsimp only
    rw [minimal, cfg]

theorem State.portEnabled_congr (cfg : ∀ g, t.fld (portRegs p).1 g = s.fld (portRegs p).1 g) (start : ∀ g, t.fld startStatus g = s.fld startStatus g) : t.portEnabled p = s.portEnabled p := by
  have minimal : t.minimal = s.minimal := by simp only [State.minimal, start]
  have stage : t.stage = s.stage := start _
  have mode := State.portMode_congr cfg start
  cases p with
  | peer q =>
    unfold State.portEnabled
    dsimp only
    rw [minimal, stage, mode, cfg]
  | host h =>
    unfold State.portEnabled
    dsimp only
    rw [minimal, stage, mode, cfg]

/-- What the interrupt of a changed port leaves. -/
theorem State.portChanged_keeps (s : State) (p : EthPort) : Aside s (s.portChanged p) ∧ (∀ g, (s.portChanged p).fld (portRegs p).2.1 g = s.fld (portRegs p).2.1 g) ∧ (s.portChanged p).portMode p = s.portMode p := by
  cases p with
  | peer q =>
    have raised := s.aside_raise 4 (8 + portDie (.peer q))
    exact ⟨raised, fun g => raised.fld (plain_portStatus q) g, State.portMode_congr (fun g => raised.fld (plain_portCfg q) g) (fun g => raised.fld plain_startStatus g)⟩
  | host h => exact ⟨.refl s, fun _ => rfl, rfl⟩

theorem Aside.now (h : Aside s t) : t.now = s.now := by obtain ⟨⟨_, _, _, _, _, _, _, _, _, rfl⟩, -⟩ := h; rfl

/-- The four fields of a port set. -/
def State.portWritten (s : State) (p : EthPort) (up degraded : Bool) (speed lanes : Nat) : State :=
  (((s.setFld (portRegs p).2.1 PEER_PORT_STATUS.UP (flag up)).setFld (portRegs p).2.1 PEER_PORT_STATUS.DEGRADED (flag degraded)).setFld (portRegs p).2.1 PEER_PORT_STATUS.SPEED speed).setFld (portRegs p).2.1 PEER_PORT_STATUS.LANES lanes

theorem State.portWritten_keeps (s : State) (p : EthPort) (up degraded : Bool) (speed lanes : Nat) : PortSet p s (s.portWritten p up degraded speed lanes) := by
  refine ⟨rfl, rfl, rfl, rfl, ?_, State.portMode_congr (fun g => ?_) (fun g => ?_)⟩ <;> unfold State.portWritten
  · rw [State.fld_setFld_other _ _ _ _ _ (by decide) (by decide) (by decide), State.fld_setFld_other _ _ _ _ _ (by decide) (by decide) (by decide),
      State.fld_setFld_other _ _ _ _ _ (by decide) (by decide) (by decide), State.fld_setFld_other _ _ _ _ _ (by decide) (by decide) (by decide)]
  · rw [State.fld_setFld_ne _ _ _ _ (addr_portCfg_ne p), State.fld_setFld_ne _ _ _ _ (addr_portCfg_ne p), State.fld_setFld_ne _ _ _ _ (addr_portCfg_ne p), State.fld_setFld_ne _ _ _ _ (addr_portCfg_ne p)]
  · rw [State.fld_setFld_ne _ _ _ _ (addr_startStatus_ne p), State.fld_setFld_ne _ _ _ _ (addr_startStatus_ne p), State.fld_setFld_ne _ _ _ _ (addr_startStatus_ne p), State.fld_setFld_ne _ _ _ _ (addr_startStatus_ne p)]

theorem State.portWritten_flds (s : State) (p : EthPort) (up degraded : Bool) (speed lanes : Nat) :
    (s.portWritten p up degraded speed lanes).fld (portRegs p).2.1 PEER_PORT_STATUS.UP = flag up ∧ (s.portWritten p up degraded speed lanes).fld (portRegs p).2.1 PEER_PORT_STATUS.SPEED = speed % 4 ∧
      (s.portWritten p up degraded speed lanes).fld (portRegs p).2.1 PEER_PORT_STATUS.LANES = lanes % 16 := by
  unfold State.portWritten
  refine ⟨?_, ?_, State.fld_setFld_same _ _ _ _ (by decide) (by decide)⟩
  · rw [State.fld_setFld_other _ _ _ _ _ (by decide) (by decide) (by decide), State.fld_setFld_other _ _ _ _ _ (by decide) (by decide) (by decide),
      State.fld_setFld_other _ _ _ _ _ (by decide) (by decide) (by decide), State.fld_setFld_same _ _ _ _ (by decide) (by decide)]
    cases up <;> rfl
  · rw [State.fld_setFld_other _ _ _ _ _ (by decide) (by decide) (by decide)]
    exact State.fld_setFld_same _ _ _ _ (by decide) (by decide)

/-- What follows for a port from what follows where its four fields are set. -/
theorem State.setPort_of (s : State) (p : EthPort) (up degraded : Bool) (speed lanes : Nat) : PortSet p s (s.setPort p up degraded speed lanes) ∧
    (s.setPort p up degraded speed lanes).fld (portRegs p).2.1 PEER_PORT_STATUS.UP = flag up ∧ (s.setPort p up degraded speed lanes).fld (portRegs p).2.1 PEER_PORT_STATUS.SPEED = speed % 4 ∧
      (s.setPort p up degraded speed lanes).fld (portRegs p).2.1 PEER_PORT_STATUS.LANES = lanes % 16 := by
  obtain ⟨mem, cores, training, now, retrains, mode⟩ := s.portWritten_keeps p up degraded speed lanes
  have flds := s.portWritten_flds p up degraded speed lanes
  unfold State.setPort
  change PortSet p s (if _ then (s.portWritten p up degraded speed lanes).portChanged p else s.portWritten p up degraded speed lanes) ∧
    (if _ then (s.portWritten p up degraded speed lanes).portChanged p else s.portWritten p up degraded speed lanes).fld _ _ = _ ∧ (if _ then (s.portWritten p up degraded speed lanes).portChanged p else s.portWritten p up degraded speed lanes).fld _ _ = _ ∧
      (if _ then (s.portWritten p up degraded speed lanes).portChanged p else s.portWritten p up degraded speed lanes).fld _ _ = _
  revert mem cores training now retrains mode flds
  generalize s.portWritten p up degraded speed lanes = w
  intro mem cores training now retrains mode flds
  split
  · obtain ⟨aside, same, kept⟩ := w.portChanged_keeps p
    refine ⟨⟨aside.mem.trans mem, aside.cores.trans cores, aside.training.trans training, aside.now.trans now, (same _).trans retrains, kept.trans mode⟩, ?_⟩
    rw [same, same, same]
    exact flds
  · exact ⟨⟨mem, cores, training, now, retrains, mode⟩, flds⟩

theorem Sent.training (h : Sent s t) : t.training = s.training := by obtain ⟨⟨_, _, _, _, _, _, rfl⟩, -⟩ := h; rfl

theorem Sent.portStatus (h : Sent s t) (p : EthPort) (g : Fld) : t.fld (portRegs p).2.1 g = s.fld (portRegs p).2.1 g := h.fld (addr_portStatus_ne_acct p) g

theorem State.portUp_of {b : Bool} (h : s.fld (portRegs p).2.1 PEER_PORT_STATUS.UP = flag b) : s.portUp p = b := by
  rw [State.portUp, h]
  cases b <;> rfl

theorem State.exec_portRetrain {x : BitVec 4} (live : s.life = .running) (isUp : s.portUp p = true) (lost : x ≠ 0 ∨ s.fecSurge p = true) :
    ∃ t : State, exec (.portRetrain p x) s = .next t ∧ t.portUp p = false ∧ tget? t.training (portKey p) = some ⟨if s.portMode p = 0 then x.toNat else 0, some (s.now + 220000000)⟩ ∧
      t.fld (portRegs p).2.1 PEER_PORT_STATUS.RETRAINS = min (2 ^ (PEER_PORT_STATUS.RETRAINS.hi + 1 - PEER_PORT_STATUS.RETRAINS.lo) - 1) (s.fld (portRegs p).2.1 PEER_PORT_STATUS.RETRAINS + 1) ∧ t.mem = s.mem ∧ t.cores = s.cores := by
  have goes : ¬(!s.portUp p || (x == 0#4 && !s.fecSurge p)) = true := by
    rcases lost with lane | surge
    · have lane : x ≠ 0#4 := lane
      simp [isUp, lane]
    · simp [isUp, surge]
  obtain ⟨⟨mem, cores, -, now, retrains, mode⟩, down, -, -⟩ := s.setPort_of p false (s.portMode p == 0 && x != 0#4) 0 0
  obtain ⟨w, hw⟩ : ∃ w, s.setPort p false (s.portMode p == 0 && x != 0#4) 0 0 = w := ⟨_, rfl⟩
  obtain ⟨b, hb⟩ : ∃ b, w.bump (portRegs p).2.1 PEER_PORT_STATUS.RETRAINS 1 = b := ⟨_, rfl⟩
  have mode' : b.portMode p = w.portMode p := by
    rw [← hb]
    exact State.portMode_congr (fun g => State.fld_bump_ne _ _ _ _ (addr_portCfg_ne p)) (fun g => State.fld_bump_ne _ _ _ _ (addr_startStatus_ne p))
  have now' : b.now = w.now := by rw [← hb]; rfl
  obtain ⟨v, hv⟩ : ∃ v, ({ b with training := tset b.training (portKey p) ⟨if b.portMode p == 0 then x.toNat else 0, some (b.now + ms 200)⟩, fecRecent := tdel b.fecRecent (portKey p) } : State) = v := ⟨_, rfl⟩
  have performed : exec (.portRetrain p x) s = .next v.drainEgress := by
    change execPortRetrain p x s = _
    rw [execPortRetrain, State.live_run live, ← hv, ← hb, ← hw]
    exact if_neg goes
  rw [hw] at mem cores now retrains mode down
  have same (g : Fld) : v.fld (portRegs p).2.1 g = b.fld (portRegs p).2.1 g := by
    rw [← hv]
    simp only [State.fld, State.reg]
  have sent := v.sent_drainEgress
  refine ⟨_, performed, State.portUp_of ?_, ?_, ?_, ?_, ?_⟩
  · rw [sent.portStatus, same, ← hb, State.fld_bump_other _ _ _ _ _ (by decide) (by decide) (by decide), down]
  · rw [sent.training, ← hv, mode', mode, now', now]
    simp only [tget?_tset_same, beq_iff_eq, ms]
  · rw [sent.portStatus, same, ← hb, State.fld_bump_same _ _ _ _ (by decide) (by decide), satAdd, Nat.min_comm, retrains]
  · rw [sent.mem, ← hv, ← hb]
    exact mem
  · rw [sent.cores, ← hv, ← hb]
    exact cores

theorem State.exec_portRetrain_none (live : s.life = .running) (calm : s.fecSurge p = false) : exec (.portRetrain p 0) s = .next s := by
  change execPortRetrain p 0 s = _
  rw [execPortRetrain, State.live_run live]
  exact if_pos (by rw [calm]; simp)

/-! Training (11 R408). -/

theorem trainRate_spec {m ex best l : Nat} {y : Nat × Nat} (h : trainRate m ex best l = some y) : y ∈ rateOrder ∧ y.2 &&& (l &&& (15 - ex)) = y.2 ∧ (m ≠ 0 → y.1 = (if m = 1 then 3 else if m = 2 then 1 else 2)) := by
  unfold trainRate at h
  obtain ⟨mem, mode⟩ := List.mem_filter.1 (List.mem_of_find?_eq_some h)
  refine ⟨(List.dropWhile_sublist _).subset mem, by simpa using List.find?_some h, fun some' => ?_⟩
  simp only [Bool.or_eq_true, Bool.and_eq_true, beq_iff_eq] at mode
  rcases mode with ((zero | ⟨rfl, rate⟩) | ⟨rfl, rate⟩) | ⟨rfl, rate⟩
  · exact absurd zero some'
  · exact rate
  · exact rate
  · exact rate

theorem rateOrder_small {y : Nat × Nat} (h : y ∈ rateOrder) : y.1 % 4 = y.1 ∧ y.2 % 16 = y.2 := by
  simp only [rateOrder, List.mem_cons, List.not_mem_nil, or_false] at h
  rcases h with rfl | rfl | rfl | rfl <;> exact ⟨rfl, rfl⟩

/-- The state in which a training has ended. -/
def State.trained (s : State) (p : EthPort) : State := { s with training := tdel s.training (portKey p), adverts := tdel s.adverts (portKey p) }

theorem State.fld_trained (s : State) (p : EthPort) (q : Reg) (g : Fld) : (s.trained p).fld q g = s.fld q g := by simp only [State.trained, State.fld, State.reg]

theorem State.portMode_trained (s : State) (p : EthPort) : (s.trained p).portMode p = s.portMode p := State.portMode_congr (fun g => s.fld_trained p _ g) (fun g => s.fld_trained p _ g)

theorem State.portEnabled_trained (s : State) (p : EthPort) : (s.trained p).portEnabled p = s.portEnabled p := State.portEnabled_congr (fun g => s.fld_trained p _ g) (fun g => s.fld_trained p _ g)

/-- What a port that is up again with a rate sends first. -/
def State.portOpened (s : State) : EthPort → State
  | .peer q => ({ s with spent := s.spent.filter (fun x => x.1 / 32 != q.val), freed := s.freed.filter (fun x => x.1 / 32 != q.val) } : State).drainEgress
  | .host _ => s

theorem State.sent_portOpened (s : State) (p : EthPort) : Sent s (s.portOpened p) := by
  cases p with
  | peer q => exact Sent.trans ⟨⟨s.regs, s.egress, s.arbiters, _, s.wire, _, rfl⟩, SameRegs.of_regs rfl⟩ (State.sent_drainEgress _)
  | host h => exact .refl s

theorem State.exec_portTrainEnd {l : BitVec 4} {x : Fin 4} {r : Training} (live : s.life = .running) (run : tget? s.training (portKey p) = some r) :
    exec (.portTrainEnd p l x) s = match (if s.portEnabled p && r.due.all (fun d => s.now ≤ d) then trainRate (s.portMode p) r.excluded x.val l.toNat else none) with
      | none => .next ((s.trained p).setPort p false false 0 0).drainEgress
      | some y => .next (((s.trained p).setPort p true ((if y.1 == 1 then 2 else 4) < modeLanes (s.portMode p)) y.1 y.2).portOpened p) := by
  change execPortTrainEnd p l x s = _
  rw [execPortTrainEnd, State.live_run live]
  dsimp only
  rw [run, ← s.portEnabled_trained p, ← s.portMode_trained p] <;> cases p <;> rfl

theorem State.exec_portTrainEnd_up {l : BitVec 4} {x : Fin 4} {r : Training} {y : Nat × Nat} (live : s.life = .running) (run : tget? s.training (portKey p) = some r) (may : s.portEnabled p = true)
    (due : ∀ d, r.due = some d → s.now ≤ d) (rate : trainRate (s.portMode p) r.excluded x.val l.toNat = some y) :
    ∃ t : State, exec (.portTrainEnd p l x) s = .next t ∧ t.portUp p = true ∧ t.fld (portRegs p).2.1 PEER_PORT_STATUS.SPEED = y.1 ∧ t.fld (portRegs p).2.1 PEER_PORT_STATUS.LANES = y.2 ∧ tget? t.training (portKey p) = none ∧
      t.mem = s.mem ∧ t.cores = s.cores := by
  have inTime : r.due.all (fun d => decide (s.now ≤ d)) = true := by
    cases h : r.due with
    | none => rfl
    | some d => exact decide_eq_true (due d h)
  obtain ⟨speedFits, lanesFit⟩ := rateOrder_small (trainRate_spec rate).1
  obtain ⟨⟨mem, cores, training, -⟩, isUp, speed, lanes⟩ := (s.trained p).setPort_of p true ((if y.1 == 1 then 2 else 4) < modeLanes (s.portMode p)) y.1 y.2
  refine ⟨_, by rw [State.exec_portTrainEnd live run, may, inTime, Bool.and_self, if_pos rfl, rate], ?_⟩
  have sent := ((s.trained p).setPort p true ((if y.1 == 1 then 2 else 4) < modeLanes (s.portMode p)) y.1 y.2).sent_portOpened p
  refine ⟨State.portUp_of ((sent.portStatus p _).trans isUp), ?_, ?_, ?_, sent.mem.trans mem, sent.cores.trans cores⟩
  · rw [sent.portStatus, speed, speedFits]
  · rw [sent.portStatus, lanes, lanesFit]
  · rw [sent.training, training]
    exact tget?_tdel_same ..

theorem State.exec_portTrainEnd_down {l : BitVec 4} {x : Fin 4} {r : Training} (live : s.life = .running) (run : tget? s.training (portKey p) = some r)
    (fails : trainRate (s.portMode p) r.excluded x.val l.toNat = none ∨ ∃ d, r.due = some d ∧ d < s.now) :
    ∃ t : State, exec (.portTrainEnd p l x) s = .next t ∧ t.portUp p = false ∧ tget? t.training (portKey p) = none ∧ t.mem = s.mem := by
  have no : (if s.portEnabled p && r.due.all (fun d => decide (s.now ≤ d)) then trainRate (s.portMode p) r.excluded x.val l.toNat else none) = none := by
    rcases fails with rate | ⟨d, due, late⟩
    · rw [rate, ite_self]
    · exact if_neg (by simp [due, late])
  obtain ⟨⟨mem, -, training, -⟩, down, -⟩ := (s.trained p).setPort_of p false false 0 0
  refine ⟨_, by rw [State.exec_portTrainEnd live run, no], ?_⟩
  have sent := ((s.trained p).setPort p false false 0 0).sent_drainEgress
  refine ⟨State.portUp_of ((sent.portStatus p _).trans down), ?_, sent.mem.trans mem⟩
  rw [sent.training, training]
  exact tget?_tdel_same ..

theorem State.exec_autoNegotiation (live : s.life = .running) (down : s.portUp p = false) (may : s.portEnabled p = true) (idle : tget? s.training (portKey p) = none) :
    exec (.autoNegotiation p) s = .next { s with training := tset s.training (portKey p) ⟨0, none⟩ } := by
  change execAutoNegotiation p s = _
  rw [execAutoNegotiation, State.live_run live]
  exact if_neg (by rw [down, may, idle]; decide)

end

end Sys2Proof.Machine

open Sys2Proof Sys2Proof.Machine

/-- Settles O50: a row is judged by its words, delivered or replayed; a port's state is set in one place. -/
theorem linksAndPortsCarryAndTrain : Obligations.LinksAndPortsCarryAndTrain := by
  unfold Obligations.LinksAndPortsCarryAndTrain
  refine ⟨fun s e cls r live port up room calm idle single => ?sound, fun s e cls r live port up room calm idle double => ?double, fun s e cls r x live port up room calm waits => ?held,
    fun s e cls r live full => State.exec_linkRowReceive_full live full, fun s e r x live first free single => State.exec_linkReplay_sound live first free single,
    fun s e r x q live first free double mem only request carries => State.exec_linkReplay_bad live first free double mem only request carries, fun s p x live up lost => State.exec_portRetrain live up lost,
    fun s p live calm => State.exec_portRetrain_none live calm, fun s p l x r y live run may due rate => State.exec_portTrainEnd_up live run may due rate, fun m ex best l y h => trainRate_spec h,
    fun s p l x r live run fails => State.exec_portTrainEnd_down live run fails, fun s p live down may idle => State.exec_autoNegotiation live down may idle⟩
  case sound =>
    rw [State.exec_linkRowReceive live port up room calm, idle]
    exact congrArg Host.Outcome.next (State.linkTake_sound single)
  case double => exact ⟨_, by rw [State.exec_linkRowReceive live port up room calm, idle], State.linkTake_replay double⟩
  case held => rw [State.exec_linkRowReceive live port up room calm, waits]
end

section
set_option Elab.async false -- one proof after the other: the whole text stands near the memory limit of the check
/-! Cache operations and accesses of a host-class core (12 R459-R471). -/
namespace Sys2Proof.Machine

variable {s t u : State} {h : HcId} {a k row : Nat} {c : CachedRow}

/-! A table filtered by key. -/

theorem tget?_cons {α : Type} (j : Nat) (w : α) (t : Tab α) (k : Nat) : tget? ((j, w) :: t) k = if j = k then some w else tget? t k := rfl

/-- What a filtered table holds at a key is of an entry the filter keeps. -/
theorem tget?_filter {α : Type} {p : Nat × α → Bool} {t : Tab α} {k : Nat} {v : α} (h : tget? (t.filter p) k = some v) : p (k, v) = true := by
  induction t with
  | nil => exact absurd h (by simp)
  | cons x t ih =>
    obtain ⟨j, w⟩ := x
    by_cases keeps : p (j, w) = true
    · rw [List.filter_cons_of_pos keeps, tget?_cons] at h
      by_cases key : j = k
      · rw [if_pos key, Option.some.injEq] at h
        exact key ▸ h ▸ keeps
      · exact ih ((if_neg key).symm.trans h)
    · rw [List.filter_cons_of_neg keeps] at h
      exact ih h

theorem tget?_filter_key {α : Type} (p : Nat → Bool) (t : Tab α) {k : Nat} (keeps : p k = true) : tget? (t.filter (fun c => p c.1)) k = tget? t k := by
  induction t with
  | nil => rfl
  | cons x t ih =>
    obtain ⟨j, w⟩ := x
    by_cases keep : p j = true
    · rw [List.filter_cons_of_pos (by exact keep), tget?_cons, tget?_cons, ih]
    · rw [List.filter_cons_of_neg (by exact keep), tget?_cons, if_neg (fun e : j = k => keep (e ▸ keeps)), ih]

theorem State.dropCached_cached (s : State) (row : Nat) : tget? (s.dropCached row).cached row = none ∧ ∀ j, j ≠ row → tget? (s.dropCached row).cached j = tget? s.cached j := by
  refine ⟨?_, fun j apart => tget?_filter_key (fun r => !(r == row)) s.cached (by simpa using apart)⟩
  cases found : tget? (s.dropCached row).cached row with
  | none => rfl
  | some c =>
    have keeps : (!(row == row)) = true := tget?_filter (p := fun c => !(c.1 == row)) found
    rw [beq_self_eq_true] at keeps
    exact absurd keeps (by decide)

/-! What an access does first (12 R459, R475). -/

theorem State.hcRow_hcWake (s : State) (k j a : Nat) : (s.hcWake j).hcRow k a = s.hcRow k a := rfl

theorem HcReaches.hcAccess {n : Nat} (r : HcReaches s h a n u) (eff : State → State) : s.hcAccess (hcKey h) a n eff = eff u := by
  obtain ⟨-, calm, bar, rfl⟩ := r
  unfold State.hcAccess
  rw [calm, if_neg Bool.false_ne_true, bar]

theorem HcReaches.hcCbo (r : HcReaches s h a 1 u) (may : s.hcRow (hcKey h) a = .ok row) (eff : Nat → State → State) : s.hcCbo h a eff = (eff row u).answer .ok 0 := by
  have e := r.hcAccess (fun s => match s.hcRow (hcKey h) a with
    | .error e => s.answer e 0
    | .ok row => (eff row s).answer .ok 0)
  obtain ⟨-, -, -, rfl⟩ := r
  unfold State.hcCbo
  refine e.trans ?_
  rw [State.hcRow_hcWake, may]

/-! Cache-block operations (12 R463). -/

theorem State.startBack_clean {by' : Nat} {l : Option Nat} (cached : tget? s.cached row = some c) (clean : c.dirty = false) : s.startBack by' row l = s := by
  unfold State.startBack
  rw [cached]
  exact if_pos (by rw [clean]; rfl)

theorem State.startBack_dirty {by' : Nat} {l : Option Nat} (cached : tget? s.cached row = some c) (dirty : c.dirty = true) (sound : ∀ x, x ∈ s.cacheUpsets → x.row ≠ row) :
    s.startBack by' row l = { s with writeBacks := s.writeBacks ++ [⟨by', row, c.img, l⟩], cached := tset s.cached row { c with dirty := false } } := by
  have none : s.cacheUpsets.filter (fun u => u.row == row && (u.core.isNone || u.core == some c.core)) = [] := by
    refine List.filter_eq_nil_iff.2 fun x hx => ?_
    simp [sound x hx]
  have held : tget c s.cached row = c := by rw [tget, cached]; rfl
  unfold State.startBack State.meetBack
  rw [cached]
  dsimp only
  rw [none, List.foldl_nil, held, dirty]
  exact if_neg (by decide)

/-- Of a row with no write-back under way, INVAL, CLEAN and FLUSH by what they do. -/
theorem State.cbo_eq (none : s.writeBacks = []) (op by' row : Nat) (l : Option Nat) :
    s.cbo op by' row l = if op == 0 then s.dropCached row else if op == 1 then s.startBack by' row l else (s.startBack by' row l).dropCached row := by
  unfold State.cbo
  rw [State.performBacks_none (by rw [none]; rfl)]

/-- CBO.ZERO writes a row of zeros, and a cached copy is that row. -/
theorem State.zeroed_cached {v : State} {z : CachedRow} :
    (∀ c, tget? (if (tget? v.cached row).isSome then tset v.cached row z else v.cached) row = some c → c = z) ∧
      ∀ j, j ≠ row → tget? (if (tget? v.cached row).isSome then tset v.cached row z else v.cached) j = tget? v.cached j := by
  cases held : tget? v.cached row with
  | none =>
    rw [Option.isSome_none, if_neg Bool.false_ne_true, held]
    exact ⟨nofun, fun _ _ => rfl⟩
  | some c =>
    rw [Option.isSome_some, if_pos rfl, tget?_tset_same]
    exact ⟨fun c e => (Option.some.inj e).symm, fun j apart => tget?_tset_ne _ _ apart⟩

/-! An access to a cached row (12 R461). -/

theorem State.meetCache_sound {line : Nat} (sound : ∀ x, x ∈ s.cacheUpsets → x.row ≠ row) : s.meetCache k row line = s := by
  have none : s.cacheUpsets.find? (fun u => u.row == row && u.core == (if (s.hcLines k).l2.contains line then some k else none)) = none := by
    refine List.find?_eq_none.2 fun x hx => ?_
    simp [sound x hx]
  unfold State.meetCache
  rw [none]
  cases tget? s.cached row <;> rfl

/-- What is brought into a core's own caches changes those alone. -/
theorem State.hcTouch_eq (s : State) (k line : Nat) (fetch : Bool) : ∃ n l, s.hcTouch k line fetch = { s with fresh := n, hcCaches := l } := by
  unfold State.hcTouch
  dsimp only
  by_cases held : ((s.hcLines k).l2.contains line && (if fetch then (s.hcLines k).l1i else (s.hcLines k).l1d).contains line) = true
  · rw [if_pos held]
    exact ⟨s.fresh, s.hcCaches, rfl⟩
  · rw [if_neg held]
    exact ⟨_, _, rfl⟩

theorem State.hcRow_low (may : s.hcRow k a = .ok row) : (bits a 47 44 == 8) = false := by
  unfold State.hcRow at may
  by_cases high : 2 < bits a 47 44
  · rw [if_pos high] at may
    exact absurd may nofun
  · exact beq_eq_false_iff_ne.2 (by omega)

/-- An access that reaches a cached row performs there, beside what it brings into the core's own caches. -/
theorem State.exec_l3DemandFill {addr : BitVec 48} {acc : HcAccess} (r : HcReaches s h addr.toNat (accLen acc) u) (may : s.hcRow (hcKey h) addr.toNat = .ok row) (cached : tget? s.cached row = some c)
    (sound : ∀ x, x ∈ s.cacheUpsets → x.row ≠ row) (aligned : (accAtomic acc && addr.toNat % accLen acc != 0) = false) :
    ∃ v n l, v = ({ u with fresh := n, hcCaches := l } : State) ∧ exec (.l3DemandFill h addr acc) s = .next (v.hcPerform (hcKey h) addr.toNat row c acc) := by
  obtain ⟨n, l, touched⟩ := u.hcTouch_eq (hcKey h) (row * 8 + addr.toNat % 512 / 64) (acc == .fetch)
  refine ⟨_, n, l, rfl, ?_⟩
  have waked : u = s.hcWake (hcKey h) := r.2.2.2
  have may' : u.hcRow (hcKey h) addr.toNat = .ok row := by rw [waked, State.hcRow_hcWake, may]
  have cached' : tget? u.cached row = some c := by rw [waked]; exact cached
  have sound' : ∀ x, x ∈ u.cacheUpsets → x.row ≠ row := by rw [waked]; exact sound
  change execL3DemandFill h addr acc s = _
  rw [execL3DemandFill, State.live_run r.1]
  dsimp only
  rw [r.hcAccess, State.hcRow_low may', if_neg Bool.false_ne_true, aligned, if_neg Bool.false_ne_true, may']
  dsimp only
  rw [State.meetCache_sound sound', cached', Option.isNone_some, Bool.false_and, if_neg Bool.false_ne_true, State.l3Fill, cached']
  dsimp only
  rw [touched]

/-- What an access of a row that is not poisoned, or one that consumes nothing, leaves. -/
theorem State.hcPerform_eq {v : State} {acc : HcAccess} {o line : Nat} (free : (accConsumes acc && c.img.poison) = false) (ho : o = a % 512) (hl : line = row * 8 + o / 64) :
    v.hcPerform k a row c acc =
      match accEffect acc (c.img.bytes.drop o) (tget? v.hcReserved k == some line) with
      | (value, none) => ({ v with hcReserved := reservedAfter v.hcReserved k line acc false } : State).answer .ok value
      | (value, some new) => ({ v with hcReserved := reservedAfter v.hcReserved k line acc true, cached := tset v.cached row ⟨⟨c.img.bytes.take o ++ new.take (512 - o) ++ c.img.bytes.drop (o + (new.take (512 - o)).length), c.img.poison⟩, true, k, c.source⟩ } : State).answer .ok value := by
  subst ho hl
  unfold State.hcPerform
  dsimp only
  rw [free, if_neg Bool.false_ne_true]
  rcases accEffect acc (c.img.bytes.drop (a % 512)) (tget? v.hcReserved k == some (row * 8 + a % 512 / 64)) with ⟨value, _ | new⟩ <;> rfl

/-! Errors met in the caches (12 R471). -/

/-- The errors of an upset counted. -/
def State.upsetCounted (s : State) (x : CacheUpset) : State :=
  (({ s with cacheUpsets := s.cacheUpsets.erase x } : State).tally (cacheCnt x) HC_ECC_CNT.CORR x.corr).tally (cacheCnt x) HC_ECC_CNT.UNCORR x.unc

theorem State.upsetCounted_keeps (s : State) (x : CacheUpset) : (s.upsetCounted x).cached = s.cached ∧ (s.upsetCounted x).mem = s.mem ∧
    (s.upsetCounted x).fld (cacheCnt x) HC_ECC_CNT.UNCORR = satAdd (HC_ECC_CNT.UNCORR.hi + 1 - HC_ECC_CNT.UNCORR.lo) (s.fld (cacheCnt x) HC_ECC_CNT.UNCORR) x.unc := by
  refine ⟨rfl, rfl, ?_⟩
  unfold State.upsetCounted
  rw [State.fld_tally_same _ _ _ _ (by decide) (by decide), State.fld_tally_other _ _ _ _ _ (by decide) (by decide) (by decide), satAdd, Nat.min_comm]
  simp only [State.fld, State.reg]

/-- A clean row with an uncorrectable word is discarded, a dirty one is poisoned. -/
theorem State.meetUpset_unc {x : CacheUpset} (own : x.row = row) (cached : tget? s.cached row = some c) (unc : 0 < x.unc) :
    s.meetUpset x = if c.dirty then { s.upsetCounted x with cached := tset s.cached row { c with img := ⟨c.img.bytes, true⟩, source := if x.core.isSome then 0 else 1 } } else (s.upsetCounted x).dropCached row := by
  subst own
  have some' : (x.unc == 0) = false := beq_eq_false_iff_ne.2 (by omega)
  unfold State.meetUpset
  change (if _ then s.upsetCounted x else match tget? (s.upsetCounted x).cached x.row with
    | none => s.upsetCounted x
    | some c => if c.dirty then { s.upsetCounted x with cached := tset (s.upsetCounted x).cached x.row { c with img := ⟨c.img.bytes, true⟩, source := if x.core.isSome then 0 else 1 } } else (s.upsetCounted x).dropCached x.row) = _
  rw [some', if_neg Bool.false_ne_true, (s.upsetCounted_keeps x).1, cached]

/-! The bytes an access gives (12 R457, R461). -/

theorem length_leBytes (n w : Nat) : (leBytes n w).length = n := by
  induction n generalizing w with
  | zero => rfl
  | succ n ih => exact congrArg Nat.succ (ih _)

/-- An aligned operation lies within its row. -/
theorem wideLen_fits {w : Bool} (aligned : a % wideLen w = 0) : a % 512 + wideLen w ≤ 512 := by
  cases w
  · change a % 4 = 0 at aligned
    change a % 512 + 4 ≤ 512
    omega
  · change a % 8 = 0 at aligned
    change a % 512 + 8 ≤ 512
    omega

theorem take_leBytes {w : Bool} {n : Nat} (aligned : a % wideLen w = 0) : (leBytes (wideLen w) n).take (512 - a % 512) = leBytes (wideLen w) n := by
  refine List.take_of_length_le ?_
  rw [length_leBytes]
  have := wideLen_fits aligned
  omega

end Sys2Proof.Machine

open Sys2Proof Sys2Proof.Machine

/-- Settles O24: every operation reaches its row through one access, and a cached row performs it there. -/
theorem cacheOperationsActOnTheRow : Obligations.CacheOperationsActOnTheRow := by
  unfold Obligations.CacheOperationsActOnTheRow
  refine ⟨fun s u h addr row c b r may idle cached clean => ?clean, fun s u h addr row c r may idle cached dirty sound => ?dirty, fun s u v h addr row r may e => ?zero, fun s h live calm => ?fence,
    fun s u h addr acc row c kind r may cached intact sound => ?load, fun s u h addr row line c l r may cached sound fits hl => ?store, fun s u h addr row line o c w v r may cached intact sound aligned ho hl => ?atomic,
    fun s k row line c x cached met unc => ?met⟩
  case clean =>
    have waked : u = s.hcWake (hcKey h) := r.2.2.2
    have idle' : u.writeBacks = [] := by rw [waked]; exact idle
    have cached' : tget? u.cached row = some c := by rw [waked]; exact cached
    have rows (j : Nat) : tget? u.cached j = tget? s.cached j := by rw [waked]; rfl
    have dropped := u.dropCached_cached row
    have flushed : (u.startBack (hcKey h) row (u.hcLease (hcKey h))).dropCached row = u.dropCached row := by rw [State.startBack_clean cached' clean]
    have kept : (u.dropCached row).writeBacks = [] ∧ (u.dropCached row).mem = s.mem ∧ (u.dropCached row).reqs = s.reqs := ⟨idle', by rw [waked]; exact rfl, by rw [waked]; exact rfl⟩
    refine ⟨⟨u.dropCached row, ?_, dropped.1, fun j apart => (dropped.2 j apart).trans (rows j), kept⟩, ?_, ⟨u.dropCached row, ?_, dropped.1, fun j apart => (dropped.2 j apart).trans (rows j), kept⟩⟩
    · refine State.live_next (g := fun s => s.hcCbo h addr.toNat (fun row s => s.cbo (if b || (s.runOn (hcKey h)).isSome then 2 else 0) (hcKey h) row (s.hcLease (hcKey h)))) r.1 ((r.hcCbo may _).trans ?_)
      rw [State.cbo_eq idle']
      split
      · exact congrArg (State.answer · .ok 0) flushed
      · rfl
    · refine State.live_next (g := fun s => s.hcCbo h addr.toNat (fun row s => s.cbo 1 (hcKey h) row (s.hcLease (hcKey h)))) r.1 ((r.hcCbo may _).trans ?_)
      rw [State.cbo_eq idle']
      exact congrArg (State.answer · .ok 0) (State.startBack_clean cached' clean)
    · refine State.live_next (g := fun s => s.hcCbo h addr.toNat (fun row s => s.cbo 2 (hcKey h) row (s.hcLease (hcKey h)))) r.1 ((r.hcCbo may _).trans ?_)
      rw [State.cbo_eq idle']
      exact congrArg (State.answer · .ok 0) flushed
  case dirty =>
    have waked : u = s.hcWake (hcKey h) := r.2.2.2
    have idle' : u.writeBacks = [] := by rw [waked]; exact idle
    have cached' : tget? u.cached row = some c := by rw [waked]; exact cached
    have sound' : ∀ x, x ∈ u.cacheUpsets → x.row ≠ row := by rw [waked]; exact sound
    have lease : u.hcLease (hcKey h) = s.hcLease (hcKey h) := by rw [waked]; rfl
    have mem : u.mem = s.mem := by rw [waked]; rfl
    have back : u.startBack (hcKey h) row (u.hcLease (hcKey h)) = { u with writeBacks := [⟨hcKey h, row, c.img, s.hcLease (hcKey h)⟩], cached := tset u.cached row { c with dirty := false } } := by
      rw [State.startBack_dirty cached' dirty sound', idle', lease, List.nil_append]
    refine ⟨fun free => ⟨u.dropCached row, ?_, (u.dropCached_cached row).1, idle', mem⟩, ⟨(u.startBack (hcKey h) row (u.hcLease (hcKey h))).dropCached row, ?_, ?_, (State.dropCached_cached _ row).1, ?_⟩,
      ⟨(u.startBack (hcKey h) row (u.hcLease (hcKey h))).dropCached row, ?_, ?_, (State.dropCached_cached _ row).1, ?_⟩, ⟨u.startBack (hcKey h) row (u.hcLease (hcKey h)), ?_, ?_, ?_, ?_⟩⟩
    · have free' : u.runOn (hcKey h) = none := by rw [waked]; exact free
      refine State.live_next (g := fun s => s.hcCbo h addr.toNat (fun row s => s.cbo (if false || (s.runOn (hcKey h)).isSome then 2 else 0) (hcKey h) row (s.hcLease (hcKey h)))) r.1 ((r.hcCbo may _).trans ?_)
      rw [State.cbo_eq idle', free']
      rfl
    · refine State.live_next (g := fun s => s.hcCbo h addr.toNat (fun row s => s.cbo (if true || (s.runOn (hcKey h)).isSome then 2 else 0) (hcKey h) row (s.hcLease (hcKey h)))) r.1 ((r.hcCbo may _).trans ?_)
      rw [State.cbo_eq idle', Bool.true_or]
      rfl
    · rw [back]
      rfl
    · rw [back]
      exact mem
    · refine State.live_next (g := fun s => s.hcCbo h addr.toNat (fun row s => s.cbo 2 (hcKey h) row (s.hcLease (hcKey h)))) r.1 ((r.hcCbo may _).trans ?_)
      rw [State.cbo_eq idle']
      rfl
    · rw [back]
      rfl
    · rw [back]
      exact mem
    · refine State.live_next (g := fun s => s.hcCbo h addr.toNat (fun row s => s.cbo 1 (hcKey h) row (s.hcLease (hcKey h)))) r.1 ((r.hcCbo may _).trans ?_)
      rw [State.cbo_eq idle']
      rfl
    · rw [back]
    · rw [back]
      exact tget?_tset_same ..
    · rw [back]
      exact mem
  case zero =>
    have lease : u.hcLease (hcKey h) = s.hcLease (hcKey h) := by rw [r.2.2.2]; rfl
    have die : (if hcKey h < 64 then hcKey h / 16 else hcKey h - 64) = hcKey h / 16 := if_pos (by have := h.die.isLt; have := h.h.isLt; simp only [hcKey]; omega)
    have sent : ({ u with writeBacks := u.writeBacks.filter (fun w => w.row != row), cacheUpsets := u.cacheUpsets.filter (fun x => x.row != row) } : State).performBack ⟨hcKey h, row, ⟨zeroRow, false⟩, u.hcLease (hcKey h)⟩ = v := by
      rw [e, State.performBack, WriteBack.agent]
      dsimp only
      rw [die, lease]
    obtain ⟨own, others⟩ := State.zeroed_cached (row := row) (v := v) (z := ⟨⟨zeroRow, false⟩, false, hcKey h, 2⟩)
    refine ⟨{ v with cached := if (tget? v.cached row).isSome then tset v.cached row ⟨⟨zeroRow, false⟩, false, hcKey h, 2⟩ else v.cached }, ?_, rfl, rfl, rfl, fun c held => by rw [own c held]; exact ⟨rfl, rfl⟩, others⟩
    change execCboZero h addr s = _
    rw [execCboZero, State.live_run r.1, r.hcCbo may]
    dsimp only
    rw [← sent]
    rfl
  case fence =>
    exact State.live_next (g := fun s => if s.hcPaused (hcKey h) then s else s.performBacks (fun w => w.by' == hcKey h)) live (if_neg (by rw [calm]; decide))
  case load =>
    rcases kind with rfl | rfl
    · obtain ⟨v, n, l, e, performed⟩ := State.exec_l3DemandFill (acc := .load) r may cached sound rfl
      rw [State.hcPerform_eq (by rw [intact]; rfl) rfl rfl] at performed
      refine ⟨_, performed, ?_⟩
      rw [e, r.2.2.2]
      exact ⟨rfl, rfl, rfl, rfl⟩
    · obtain ⟨v, n, l, e, performed⟩ := State.exec_l3DemandFill (acc := .fetch) r may cached sound rfl
      rw [State.hcPerform_eq (by rw [intact]; rfl) rfl rfl] at performed
      refine ⟨_, performed, ?_⟩
      rw [e, r.2.2.2]
      exact ⟨rfl, rfl, rfl, rfl⟩
  case store =>
    obtain ⟨v, n, m, e, performed⟩ := State.exec_l3DemandFill (acc := .store l) r may cached sound rfl
    have whole : l.take (512 - addr.toNat % 512) = l := List.take_of_length_le (by omega)
    rw [State.hcPerform_eq rfl rfl hl] at performed
    dsimp only [accEffect] at performed
    rw [whole] at performed
    refine ⟨_, performed, ?_⟩
    rw [e, r.2.2.2]
    refine ⟨rfl, rfl, fun j apart held => ?_, rfl⟩
    have kept : (j == hcKey h || line != line) = true := tget?_filter (p := fun r => r.1 == hcKey h || r.2 != line) held
    simp [apart] at kept
  case atomic =>
    have free : (false && c.img.poison) = false ∧ (true && c.img.poison) = false := ⟨rfl, by rw [intact]; rfl⟩
    have even : (true && addr.toNat % wideLen w != 0) = false := by rw [aligned]; rfl
    subst ho
    refine ⟨?_, fun lost => ?_, fun held => ?_, fun op old value => ?_⟩
    · obtain ⟨x, n, m, e, performed⟩ := State.exec_l3DemandFill (acc := .loadReserved w) r may cached sound even
      rw [State.hcPerform_eq (acc := .loadReserved w) free.2 rfl hl] at performed
      refine ⟨_, performed, ?_⟩
      rw [e, r.2.2.2]
      exact ⟨rfl, rfl, tget?_tset_same ..⟩
    · obtain ⟨x, n, m, e, performed⟩ := State.exec_l3DemandFill (acc := .storeConditional w v) r may cached sound even
      have no : (tget? x.hcReserved (hcKey h) == some line) = false := by
        rw [e, r.2.2.2]
        exact beq_eq_false_iff_ne.2 lost
      rw [State.hcPerform_eq (acc := .storeConditional w v) free.1 rfl hl, no] at performed
      refine ⟨_, performed, ?_⟩
      rw [e, r.2.2.2]
      exact ⟨rfl, rfl, tget?_tdel_same ..⟩
    · obtain ⟨x, n, m, e, performed⟩ := State.exec_l3DemandFill (acc := .storeConditional w v) r may cached sound even
      have yes : (tget? x.hcReserved (hcKey h) == some line) = true := by
        rw [e, r.2.2.2]
        exact beq_iff_eq.2 held
      rw [State.hcPerform_eq (acc := .storeConditional w v) free.1 rfl hl, yes] at performed
      dsimp only [accEffect] at performed
      rw [if_pos rfl] at performed
      dsimp only at performed
      rw [take_leBytes aligned, length_leBytes, intact] at performed
      refine ⟨_, performed, ?_⟩
      rw [e, r.2.2.2]
      exact ⟨rfl, tget?_tdel_same .., rfl⟩
    · obtain ⟨x, n, m, e, performed⟩ := State.exec_l3DemandFill (acc := .amo op w v) r may cached sound even
      rw [State.hcPerform_eq (acc := .amo op w v) free.2 rfl hl] at performed
      dsimp only [accEffect] at performed
      rw [← value, take_leBytes aligned, length_leBytes, intact] at performed
      refine ⟨_, performed, ?_⟩
      rw [e, r.2.2.2]
      exact ⟨rfl, rfl⟩
  case met =>
    have own : x.row = row := by
      have := List.find?_some met
      simp only [Bool.and_eq_true, beq_iff_eq] at this
      exact this.1
    have meets : s.meetCache k row line = s.meetUpset x := by
      unfold State.meetCache
      rw [cached, met]
    obtain ⟨rows, mem, count⟩ := s.upsetCounted_keeps x
    rw [meets, State.meetUpset_unc own cached unc]
    refine ⟨fun clean => ?_, fun dirty => ?_, ?_⟩
    · rw [clean, if_neg Bool.false_ne_true]
      exact (State.dropCached_cached _ row).1
    · rw [dirty, if_pos rfl]
      exact ⟨_, tget?_tset_same .., rfl, rfl⟩
    · split
      · exact ⟨count, mem⟩
      · exact ⟨count, mem⟩
end

section
set_option Elab.async false -- one proof after the other: the whole text stands near the memory limit of the check
/-! Host packets taken or counted, and sessions that open, idle out and end (14 R506-R533). -/
namespace Sys2Proof.Machine

variable {s t u : State} {h : Fin 2} {p : HostPacket}

/-! What a packet's FEC codewords leave (14 R508). -/

/-- The requests, error counts and noted codewords of a port aside, nothing differs in what a packet is judged by. -/
def Judged (h : Fin 2) (s t : State) : Prop := t.sessions = s.sessions ∧ t.hostRx = s.hostRx ∧ t.now = s.now ∧ ∀ q : Reg, q.addr ≠ (hp .HP_ERR h.val).addr → t.reg q = s.reg q

theorem State.judged_fecCount (s : State) (h : Fin 2) (corr uncorr : Nat) : Judged h s (s.fecCount (.host h) corr uncorr) := by
  have counted (g f : Fld) (m n : Nat) : Judged h s ((s.tally (hp .HP_ERR h.val) g m).tally (hp .HP_ERR h.val) f n) :=
    ⟨rfl, rfl, rfl, fun q apart => (State.reg_setFld_ne _ _ _ apart).trans (State.reg_setFld_ne _ _ _ apart)⟩
  unfold State.fecCount
  split
  · exact ⟨rfl, rfl, rfl, fun _ _ => rfl⟩
  · dsimp only
    split
    · exact counted ..
    · exact counted ..

section
variable (j : Judged h s t)
include j

theorem Judged.fld {q : Reg} (apart : q.addr ≠ (hp .HP_ERR h.val).addr) (f : Fld) : t.fld q f = s.fld q f := by rw [State.fld, j.2.2.2 q apart, State.fld]

theorem Judged.reg_hp {n : RegName} (other : n.layout.base ≠ 0x3000010 ∧ n.layout.strideI = 0 ∧ n.layout.strideJ = 0) : t.reg (hp n h.val) = s.reg (hp n h.val) := j.2.2.2 _ (addr_ne_of_base _ _ _ other)

theorem Judged.fld_hp {n : RegName} (other : n.layout.base ≠ 0x3000010 ∧ n.layout.strideI = 0 ∧ n.layout.strideJ = 0) (f : Fld) : t.fld (hp n h.val) f = s.fld (hp n h.val) f := j.fld (addr_ne_of_base _ _ _ other) f

theorem Judged.minimal : t.minimal = s.minimal := by
  have apart : startStatus.addr ≠ (hp .HP_ERR h.val).addr := by
    simp only [startStatus, hp, Reg.addr, RegName.layout, selSv0, selIo]
    omega
  rw [State.minimal, j.fld apart, State.minimal]

theorem Judged.hostTakes : t.hostTakes h.val p = s.hostTakes h.val p := by
  have ip6 (a : BitVec 128) : t.ownIp6 h.val a = s.ownIp6 h.val a := by
    simp only [State.ownIp6, j.reg_hp (n := .HP_IPV6_HI) (by decide), j.reg_hp (n := .HP_IPV6_LO) (by decide), j.fld_hp (n := .HP_CFG) (by decide)]
  have ip4 (a : BitVec 32) : t.ownIp4 h.val a = s.ownIp4 h.val a := by
    simp only [State.ownIp4, j.fld_hp (n := .HP_IPV4) (by decide), j.fld_hp (n := .HP_CFG) (by decide)]
  have net : t.netTaken h.val p = s.netTaken h.val p := by
    unfold State.netTaken
    simp only [j.fld_hp (n := .HP_CFG) (by decide), ip6, ip4]
  unfold State.hostTakes
  simp only [j.fld_hp (n := .HP_CFG) (by decide), net]

theorem Judged.hasRoom : t.hasRoom h.val p = s.hasRoom h.val p := by
  simp only [State.hasRoom, j.fld_hp (n := .HP_FIFO_PTR) (by decide), j.fld_hp (n := .HP_LAND_PTR) (by decide), j.fld_hp (n := .HP_LAND_ROWS) (by decide), j.minimal]

theorem Judged.packetSession : t.packetSession h.val p = s.packetSession h.val p := by simp only [State.packetSession, State.findSession, State.portSessions, j.1]

theorem Judged.verdict : t.verdict h.val p = s.verdict h.val p := by
  unfold State.verdict
  rw [j.packetSession]

end

/-! A packet stored (14 R527-R530). -/

/-- The packet's place in the FIFO and the landing ring. -/
def State.fifoPacket (s : State) (h : Nat) (p : HostPacket) : FifoPkt :=
  ⟨s.fld (hp .HP_FIFO_PTR h) HP_FIFO_PTR.TAIL, fifoRowsOf p, s.fld (hp .HP_LAND_PTR h) HP_LAND_PTR.TAIL, if s.minimal then 0 else landRowsOf p, s.now,
    s.lengthWord h p (s.verdict h p) (s.fld (hp .HP_LAND_PTR h) HP_LAND_PTR.TAIL), false⟩

/-- The packet's rows stored and its errors counted. -/
def State.hostStored (s : State) (h : Nat) (p : HostPacket) : State :=
  let t := (s.storeFifo h (s.fifoPacket h p).row p 0).fifoErrors h p
  if t.minimal then t else t.storeLanding h (s.fifoPacket h p).land p ((s.packetSession h p).bind (fun x => x.2.lease))

/-- The packet noted among those of the port. -/
def State.hostNoted (s : State) (h : Nat) (p : HostPacket) : State :=
  let t := s.hostStored h p
  (t.setRx h { t.rx h with pkts := (t.rx h).pkts ++ [s.fifoPacket h p] }).count (hp .HP_LAND_PTR h) HP_LAND_PTR.TAIL (s.fifoPacket h p).landRows

/-- The packet noted and its reception ended. -/
def State.hostClosed (s : State) (h : Nat) (p : HostPacket) : State := ((s.hostNoted h p).count (hp .HP_FIFO_PTR h) HP_FIFO_PTR.TAIL (fifoRowsOf p)).closePacket h (s.fifoPacket h p)

section
variable (live : s.life = .running) (up : s.portUp (.host h) = true) (free : s.receiving h.val = false)
include live up free

theorem State.exec_hostPacketReceive_other (e : t = s.fecCount (.host h) p.fecCorr p.fecUncorr) (other : t.hostTakes h.val p = false) :
    exec (.hostPacketReceive h p) s = .next (t.tally (hp .HP_ERR h.val) HP_ERR.DISCARDS 1) := by
  change execHostPacketReceive h p s = _
  rw [execHostPacketReceive, State.live_run live]
  dsimp only
  rw [up, free, if_neg (by decide), ← e, other]
  exact if_pos rfl

theorem State.exec_hostPacketReceive_asks (e : t = s.fecCount (.host h) p.fecCorr p.fecUncorr) (takes : t.hostTakes h.val p = true) (asks : netUdp p.net = false) :
    exec (.hostPacketReceive h p) s = .next (t.setRx h.val { t.rx h.val with answer := some (packetPeer p) }) := by
  change execHostPacketReceive h p s = _
  rw [execHostPacketReceive, State.live_run live]
  dsimp only
  rw [up, free, if_neg (by decide), ← e, takes, if_neg (by decide), asks]
  exact if_pos rfl

theorem State.exec_hostPacketReceive_full (e : t = s.fecCount (.host h) p.fecCorr p.fecUncorr) (takes : t.hostTakes h.val p = true) (udp : netUdp p.net = true) (full : t.hasRoom h.val p = false) :
    exec (.hostPacketReceive h p) s = .next (t.tally (hp .HP_FIFO_STAT h.val) HP_FIFO_STAT.OVERRUN 1) := by
  change execHostPacketReceive h p s = _
  rw [execHostPacketReceive, State.live_run live]
  dsimp only
  rw [up, free, if_neg (by decide), ← e, takes, if_neg (by decide), udp, if_neg (by decide), full]
  exact if_pos rfl

theorem State.exec_hostPacketReceive (e : t = s.fecCount (.host h) p.fecCorr p.fecUncorr) (takes : t.hostTakes h.val p = true) (udp : netUdp p.net = true) (room : t.hasRoom h.val p = true) :
    exec (.hostPacketReceive h p) s = if t.verdict h.val p == 4 then .next ((t.hostNoted h.val p).count (hp .HP_FIFO_PTR h.val) HP_FIFO_PTR.TAIL (fifoRowsOf p - 1))
      else if t.verdict h.val p == 2 then .next ((t.hostClosed h.val p).bump (hp .HP_SEC h.val) HP_SEC.AUTH_FAIL 1)
      else if t.verdict h.val p == 3 then .next ((t.hostClosed h.val p).bump (hp .HP_SEC h.val) HP_SEC.REPLAY 1)
      else if t.verdict h.val p == 1 || p.fifo.any (fun u => u.uncorr && u.row == 0) then .next (t.hostClosed h.val p)
      else match t.packetSession h.val p with
        | some x => .next ((t.hostClosed h.val p).takeCommand h.val x.1 x.2 p ((t.fifoPacket h.val p).land, (t.fifoPacket h.val p).landRows))
        | none => .next ((t.hostClosed h.val p).setRx h.val { (t.hostClosed h.val p).rx h.val with hellos := ((t.hostClosed h.val p).rx h.val).hellos ++ [helloIn p] }) := by
  change execHostPacketReceive h p s = _
  rw [execHostPacketReceive, State.live_run live]
  dsimp only
  rw [up, free, if_neg (by decide), ← e, takes, if_neg (by decide), udp, if_neg (by decide), room]
  exact if_neg (by decide)

/-- A good packet of no session is a HELLO. -/
theorem State.exec_hostPacketReceive_hello (e : t = s.fecCount (.host h) p.fecCorr p.fecUncorr) (takes : t.hostTakes h.val p = true) (udp : netUdp p.net = true) (room : t.hasRoom h.val p = true) (verdict : t.verdict h.val p = 0)
    (read : p.fifo.any (fun u => u.uncorr && u.row == 0) = false) (clear : t.packetSession h.val p = none) :
    exec (.hostPacketReceive h p) s = .next ((t.hostClosed h.val p).setRx h.val { (t.hostClosed h.val p).rx h.val with hellos := ((t.hostClosed h.val p).rx h.val).hellos ++ [helloIn p] }) := by
  rw [State.exec_hostPacketReceive live up free e takes udp room, verdict, read, clear]
  rfl

end

/-- What a packet that is stored leaves: the sessions, the HELLOs that wait and the count of failed tags. -/
def HostKept (h : Nat) (s t : State) : Prop := t.sessions = s.sessions ∧ (t.rx h).hellos = (s.rx h).hellos ∧ t.fld (hp .HP_SEC h) HP_SEC.AUTH_FAIL = s.fld (hp .HP_SEC h) HP_SEC.AUTH_FAIL

theorem HostKept.refl (h : Nat) (s : State) : HostKept h s s := ⟨rfl, rfl, rfl⟩

theorem HostKept.trans {h : Nat} (a : HostKept h s t) (b : HostKept h t u) : HostKept h s u := ⟨b.1.trans a.1, b.2.1.trans a.2.1, b.2.2.trans a.2.2⟩

theorem State.hostKept_setRx (s : State) {h : Nat} {x : HostRx} (hellos : x.hellos = (s.rx h).hellos) : HostKept h s (s.setRx h x) := ⟨rfl, by rw [State.rx_setRx_same, hellos], rfl⟩

theorem State.hostKept_count (s : State) (h : Nat) {n : RegName} (f : Fld) (m : Nat) (other : (0x3000020 : Nat) ≠ n.layout.base ∧ 0 = n.layout.strideI ∧ 0 = n.layout.strideJ) : HostKept h s (s.count (hp n h) f m) :=
  ⟨rfl, rfl, State.fld_count_ne _ _ _ _ (addr_ne_of_base (n := .HP_SEC) _ _ _ other)⟩

theorem State.hostKept_storeFifo (s : State) (h n : Nat) (p : HostPacket) (w : Nat) : HostKept h s (s.storeFifo h n p w) := State.hostKept_setRx _ rfl

theorem State.hostKept_fifoErrors (s : State) (h : Nat) (p : HostPacket) : HostKept h s (s.fifoErrors h p) := by
  have apart : (hp .HP_SEC h).addr ≠ (hp .HP_FIFO_STAT h).addr := addr_ne_of_base _ _ _ (by decide)
  unfold State.fifoErrors
  dsimp only
  split
  · exact .refl h s
  · exact ⟨rfl, rfl, (State.fld_setFld_ne _ _ _ _ apart).trans (State.fld_setFld_ne _ _ _ _ apart)⟩

theorem State.hostKept_agentWrite (s : State) (h : Nat) (g : Agent) (a : Nat) (img : RowImg) : HostKept h s (s.agentWrite g a img) := by
  unfold State.agentWrite State.agentPut
  split
  · exact .refl h s
  · obtain ⟨_, _, _, _, e⟩ := s.submit_eq { (if g.narrow then (s.newReq _ 0 true (.engine g.eng g.die g.i) g.lease (g.within.map (s.now + ·)) ⟨img.bytes, img.poison⟩).narrow
      else s.newReq _ 0 true (.engine g.eng g.die g.i) g.lease (g.within.map (s.now + ·)) ⟨img.bytes, img.poison⟩) with off := 0, bytes := img.bytes.length }
    unfold State.bookWrite
    dsimp only
    rw [e]
    exact ⟨rfl, rfl, rfl⟩

theorem State.hostKept_storeLanding (s : State) (h n : Nat) (p : HostPacket) (l : Option Nat) : HostKept h s (s.storeLanding h n p l) :=
  List.foldlRecOn (motive := HostKept h s) _ _ (.refl h s) fun t a _ _ => a.trans (t.hostKept_agentWrite ..)

theorem State.hostKept_hostStored (s : State) (h : Nat) (p : HostPacket) : HostKept h s (s.hostStored h p) := by
  have stored : HostKept h s ((s.storeFifo h (s.fifoPacket h p).row p 0).fifoErrors h p) := (s.hostKept_storeFifo ..).trans (State.hostKept_fifoErrors ..)
  unfold State.hostStored
  dsimp only
  split
  · exact stored
  · exact stored.trans (State.hostKept_storeLanding ..)

theorem State.hostKept_hostNoted (s : State) (h : Nat) (p : HostPacket) : HostKept h s (s.hostNoted h p) :=
  ((s.hostKept_hostStored h p).trans (State.hostKept_setRx (x := { (s.hostStored h p).rx h with pkts := ((s.hostStored h p).rx h).pkts ++ [s.fifoPacket h p] }) _ rfl)).trans (State.hostKept_count _ _ _ _ (by decide))

theorem State.hostKept_closePacket (s : State) (h : Nat) (k : FifoPkt) : HostKept h s (s.closePacket h k) := by
  unfold State.closePacket
  dsimp only
  generalize hm : ({ s with mem := s.mem.write (fifoByte h k.row) (leBytes 8 k.lenWord) } : State) = m
  have written : HostKept h s m := by rw [← hm]; exact ⟨rfl, rfl, rfl⟩
  exact written.trans (State.hostKept_setRx _ rfl)

theorem State.hostKept_hostClosed (s : State) (h : Nat) (p : HostPacket) : HostKept h s (s.hostClosed h p) :=
  ((s.hostKept_hostNoted h p).trans (State.hostKept_count _ _ _ _ (by decide))).trans (State.hostKept_closePacket ..)

/-- A packet noted is one that is being received. -/
theorem State.receiving_hostNoted (s : State) (h : Nat) (p : HostPacket) (f : Fld) (n : Nat) : ((s.hostNoted h p).count (hp .HP_FIFO_PTR h) f n).receiving h = true := by
  change ((s.hostNoted h p).rx h).pkts.any (fun q => !q.closed) = true
  unfold State.hostNoted
  dsimp only
  generalize s.hostStored h p = t
  change ((t.setRx h { t.rx h with pkts := (t.rx h).pkts ++ [s.fifoPacket h p] }).rx h).pkts.any (fun q => !q.closed) = true
  rw [State.rx_setRx_same]
  exact List.any_eq_true.2 ⟨_, List.mem_append_right _ (List.mem_singleton_self _), rfl⟩

/-! A packet never closed (14 R528). -/

theorem State.exec_fifoPacketTimeout {k : FifoPkt} (live : s.life = .running) (first : (s.rx h.val).pkts.find? (fun q => !q.closed) = some k) (due : k.since + 22000 ≤ s.now) (kept : (s.rx h.val).dropping = false) :
    exec (.fifoPacketTimeout h) s = .next ((s.count (hp .HP_FIFO_PTR h.val) HP_FIFO_PTR.TAIL 1).closePacket h.val k) := by
  have still : (((s.count (hp .HP_FIFO_PTR h.val) HP_FIFO_PTR.TAIL 1).closePacket h.val k).rx h.val).dropping = false := by
    unfold State.closePacket
    dsimp only
    rw [State.rx_setRx_same]
    exact kept
  change execFifoPacketTimeout h s = _
  rw [execFifoPacketTimeout, State.live_run live]
  dsimp only
  rw [first]
  dsimp only
  rw [if_neg (by omega), still, if_neg Bool.false_ne_true]

/-! HELLO (14 R509, R510). -/

section
variable {lo hi w : Nat} {key : List Byte} {i : HelloIn} {rest : List HelloIn}

theorem State.exec_hello_refused (live : s.life = .running) (first : (s.rx h.val).hellos = i :: rest) (wrong : i.resv = true ∨ i.plen ≠ 8 ∨ key.length ≠ 1568 ∨ chooseVersion lo hi = none) :
    exec (.hello h lo hi w key) s = .next ((s.setRx h.val { s.rx h.val with hellos := rest }).sendClear h.val i.peer .range [] []) := by
  change execHello h lo hi w key s = _
  rw [execHello, State.live_run live]
  dsimp only
  rw [first]
  dsimp only
  cases version : chooseVersion lo hi with
  | none => rfl
  | some v =>
    refine if_pos ?_
    rcases wrong with resv | plen | len | none
    · simp [resv]
    · simp [plen]
    · simp [len]
    · exact absurd (version.symm.trans none) nofun

theorem State.exec_hello {v n : Nat} (live : s.life = .running) (first : (s.rx h.val).hellos = i :: rest) (resv : i.resv = false) (plen : i.plen = 8) (version : chooseVersion lo hi = some v) (len : key.length = 1568)
    (pos : 1 ≤ w) (small : w ≤ 255) (high : hi ≤ 65535) (slot : findIdx (fun i => (tget? s.sessions (sesKey h.val i)).isNone) 256 = some n) :
    exec (.hello h lo hi w key) s = .next ((s.setRx h.val { s.rx h.val with hellos := rest }).offer h.val n v (min w (s.fld (hp .HP_CFG h.val) HP_CFG.WINDOW_MAX)) (beBytes 2 lo ++ beBytes 2 hi ++ beBytes 2 w ++ beBytes 2 0) key i.peer) := by
  have sound : ¬(i.resv || i.plen != 8 || key.length != 1568 || w == 0 || decide (255 < w) || decide (65535 < hi)) = true := by
    have zero : (w == 0) = false := beq_eq_false_iff_ne.2 (by omega)
    rw [resv, plen, len, zero, decide_eq_false (by omega), decide_eq_false (by omega)]
    decide
  change execHello h lo hi w key s = _
  rw [execHello, State.live_run live]
  dsimp only
  rw [first]
  dsimp only
  rw [version]
  dsimp only
  rw [if_neg sound]
  change (match findIdx (fun i => (tget? s.sessions (sesKey h.val i)).isNone) 256 with
    | none => _
    | some slot => _) = _
  rw [slot]
  rfl

/-- The session that a HELLO opens, with the keys of its secret and transcript. -/
theorem State.offer_spec (s : State) (p n v w : Nat) (hello key : List Byte) (peer : HostPeer) :
    ∃ x : Session, tget? (s.offer p n v w hello key peer).sessions (sesKey p n) = some x ∧ x.open' = false ∧ x.lease = none ∧ x.window = w ∧ x.next = 1 ∧ x.since = s.now ∧ x.peer = peer ∧ (s.offer p n v w hello key peer).hostRx = s.hostRx ∧
      x.digest = transcript hello key (beBytes 2 v ++ beBytes 2 x.window ++ beBytes 4 x.id ++ identityDigest) (Config.kemCipher key (s.offer p n v w hello key peer).fresh) ∧
        x.keys = Config.shake576 (Config.kemSecret key (s.offer p n v w hello key peer).fresh ++ x.digest) :=
  ⟨_, tget?_tset_same .., rfl, rfl, rfl, rfl, rfl, rfl, rfl, rfl, rfl⟩

end

/-! AUTH (14 R513-R516). -/

section
variable {q : DcpHdr} {role k : Nat} {d : List Byte} {sig : HostSig} {x : Session}

/-- Whether the key that an AUTH names is one that may open a session for its role. -/
def State.authKnown (s : State) (q : DcpHdr) (role : Nat) (d : List Byte) : Bool := if role == 0 then s.mgmtKeys.isEmpty || s.mgmtKeys.contains d else tget? s.leaseKeys q.lease.val == some d

theorem State.authKnown_lease (known : tget? s.leaseKeys q.lease.val = some d) : s.authKnown q 1 d = true := (if_neg (by decide)).trans (beq_iff_eq.2 known)

theorem State.authKnown_management (known : s.mgmtKeys.contains d = true) : s.authKnown q 0 d = true := (if_pos rfl).trans (by rw [known, Bool.or_true])

/-- What opens the session of an AUTH that passes. -/
def State.authOpened (u : State) (q : DcpHdr) (k role : Nat) (d : List Byte) : State :=
  ((if role == 0 && u.mgmtKeys.isEmpty then ({ u with mgmtKeys := [d] } : State) else u).onSession k (fun x => { x with open' := true, lease := if role == 1 then some q.lease.val else none })).reply k (replyOf q 2 .ok [] [])

/-- An AUTH in its turn, with its form right, is judged by mode, signature and key. -/
theorem State.exec_auth (live : s.life = .running) (turn : s.turn q 2 = some (k, x)) (closed : x.open' = false) (land : s.landRead q.port.val x.lease (x.landing q.seq) = (u, false)) (seq : q.seq = 1) (poison : q.poisoned = false)
    (spoiled : x.spoiled q.seq = false) (odd : x.oddHeader q.seq = false) (major : q.verMajor = x.verMajor) (minor : q.verMinor ≤ x.verMinor) (plen : q.plen = 8) (dlen : q.dlen = 3073) (resv : q.resv = false)
    (small : role ≤ 1) (named : (role == 1 || q.lease.val == 0) = true) (mode : (!u.minimal || role != 1) = true) :
    exec (.auth q role d sig) s = .next (if x.signedBy d role sig && s.authKnown q role d then u.authOpened q k role d else (u.reply k (replyOf q 2 .auth [] [])).freeSession k) := by
  change execAuth q role d sig s = _
  rw [execAuth, State.live_run live]
  dsimp only
  rw [turn]
  dsimp only
  have checks : firstFail
        [ need (q.verMajor == x.verMajor && decide (q.verMinor ≤ x.verMinor)) .range
        , need (q.seq == 1 && (role == 1 || q.lease.val == 0)) .auth
        , need (!u.minimal || role != 1) .minimalMode
        , need (q.plen == 8 && q.dlen == 3073 && decide (role ≤ 1) && !q.resv && !x.oddHeader q.seq) .range
        , need (x.signedBy d role sig && s.authKnown q role d) .auth ] = need (x.signedBy d role sig && s.authKnown q role d) .auth := by
    rw [major, beq_self_eq_true, decide_eq_true minor, odd, seq, named, mode, plen, dlen, decide_eq_true small, resv]
    cases x.signedBy d role sig && s.authKnown q role d <;> rfl
  rw [closed, if_neg Bool.false_ne_true, land, poison, spoiled]
  dsimp only
  rw [Bool.false_or, Bool.false_or, if_neg Bool.false_ne_true]
  have known : (if role == 0 then s.mgmtKeys.isEmpty || s.mgmtKeys.contains d else tget? s.leaseKeys q.lease.val == some d) = s.authKnown q role d := rfl
  rw [known, checks]
  cases x.signedBy d role sig && s.authKnown q role d <;> rfl

end

/-! Sessions that wait (14 R516-R522). -/

section
variable {id k : Nat} {x : Session} (live : s.life = .running) (found : s.findSession h.val id = some (k, x))
include live found

theorem State.exec_authTimeout (closed : x.open' = false) (none : x.cmds.any (fun c => c.opcode == 2) = false) (due : x.since + 1100000000 ≤ s.now) : exec (.authTimeout h id) s = .next (s.freeSession k) := by
  have second : ms 1000 = 1100000000 := rfl
  change execAuthTimeout h id s = _
  rw [execAuthTimeout, State.live_run live]
  rw [found]
  dsimp only
  rw [closed, none, decide_eq_false (by rw [second]; omega)]
  exact if_neg (by decide)

theorem State.exec_sessionIdleTimeout (isOpen : x.open' = true) (none : x.cmds = []) (due : x.lastPkt + 33000000000 ≤ s.now) : exec (.sessionIdleTimeout h id) s = .next (s.freeSession k) := by
  have half : ms 30000 = 33000000000 := rfl
  change execSessionIdleTimeout h id s = _
  rw [execSessionIdleTimeout, State.live_run live]
  rw [found]
  dsimp only
  rw [isOpen, none, decide_eq_false (by rw [half]; omega)]
  exact if_neg (by decide)

theorem State.exec_commandTimeout {c : DcpCmd} (late : x.cmds.find? (fun c => match c.begun with | some b => decide (b.1 + b.2 ≤ s.now) | none => false) = some c) :
    exec (.commandTimeout h id) s = .next (s.reply k ⟨c.seq, c.opcode, .timeout, [], []⟩) := by
  change execCommandTimeout h id s = _
  rw [execCommandTimeout, State.live_run live]
  rw [found]
  dsimp only
  refine Eq.trans (b := match some c with
    | none => .next s
    | some c => .next (s.reply k ⟨c.seq, c.opcode, .timeout, [], []⟩)) ?_ rfl
  rw [← late] <;> rfl

theorem State.exec_eventRetransmit_ends {e : DcpEvent} (mem : e ∈ x.events) (due : e.sent + 11000000 ≤ s.now) (last : 16 ≤ e.tries) : exec (.eventRetransmit h id) s = .next (s.freeSession k) := by
  change execEventRetransmit h id s = _
  rw [execEventRetransmit, State.live_run live]
  dsimp only
  rw [found]
  refine if_pos (List.any_eq_true.2 ⟨e, List.mem_filter.2 ⟨mem, decide_eq_true ?_⟩, decide_eq_true last⟩)
  simp only [ms]
  omega

theorem State.exec_eventRetransmit {e : DcpEvent} (one : x.events = [e]) (due : e.sent + 11000000 ≤ s.now) (more : e.tries < 16) :
    exec (.eventRetransmit h id) s = .next ((s.setSession k { x with events := [{ e with sent := s.now, tries := e.tries + 1 }] }).sendIn k e.seq e.code true e.status e.params []) := by
  have isDue : e.sent + ms 10 ≤ s.now := by
    simp only [ms]
    omega
  have filtered : [e].filter (fun e => decide (e.sent + ms 10 ≤ s.now)) = [e] := by rw [List.filter_cons_of_pos (by exact decide_eq_true isDue), List.filter_nil]
  have goes : ¬[e].any (fun e => decide (16 ≤ e.tries)) = true := by
    simp only [List.any_cons, List.any_nil, Bool.or_false, decide_eq_true_eq]
    omega
  change execEventRetransmit h id s = _
  rw [execEventRetransmit, State.live_run live]
  dsimp only
  rw [found]
  dsimp only
  rw [one, filtered, if_neg goes, List.map_singleton, if_pos isDue]
  rfl

end

end Sys2Proof.Machine

open Sys2Proof Sys2Proof.Machine

/-- Settles O54: what a packet is judged by is left by its own codewords; what is stored leaves sessions and HELLOs. -/
theorem packetsAndSessionsAreKept : Obligations.PacketsAndSessionsAreKept := by
  unfold Obligations.PacketsAndSessionsAreKept
  refine ⟨fun s h p live up free => ?packets, fun s h k live first due kept => State.exec_fifoPacketTimeout live first due kept, fun s h lo hi w key i rest v n live first resv plen version len pos small high slot => ?hello,
    fun s h lo hi w key i rest live first wrong => State.exec_hello_refused live first wrong, fun s q role d sig k x u live turn closed land seq poison spoiled odd major minor plen dlen resv => ⟨?lease, ?management, ?unsigned⟩,
    fun x d role b => rfl, fun s h id k x live found => ⟨fun closed none due => State.exec_authTimeout live found closed none due, fun isOpen none due => State.exec_sessionIdleTimeout live found isOpen none due,
      fun c late => State.exec_commandTimeout live found late, ?ends, fun e one due more => State.exec_eventRetransmit live found one due more⟩, fun s k x _ => ?freed⟩
  case packets =>
    have j := s.judged_fecCount h p.fecCorr p.fecUncorr
    obtain ⟨t, ht⟩ : ∃ t, t = s.fecCount (.host h) p.fecCorr p.fecUncorr := ⟨_, rfl⟩
    rw [← ht] at j ⊢
    have sec : t.fld (hp .HP_SEC h.val) HP_SEC.AUTH_FAIL = s.fld (hp .HP_SEC h.val) HP_SEC.AUTH_FAIL := j.fld_hp (by decide) _
    have rx : t.rx h.val = s.rx h.val := by rw [State.rx, j.2.1, State.rx]
    rw [← j.hostTakes, ← j.hasRoom, ← j.verdict]
    refine ⟨fun other => State.exec_hostPacketReceive_other live up free ht other, fun takes asks => ⟨_, State.exec_hostPacketReceive_asks live up free ht takes asks, ?_⟩,
      fun takes udp full => State.exec_hostPacketReceive_full live up free ht takes udp full, fun takes udp room verdict => ?_, fun takes udp room verdict => ?_, fun takes udp room verdict unread => ?_, fun takes udp room verdict hello read => ?_⟩
    · rw [State.rx_setRx_same, rx]
      exact ⟨rfl, rfl, j.1⟩
    · refine ⟨_, (State.exec_hostPacketReceive live up free ht takes udp room).trans (if_pos (by rw [verdict]; rfl)), t.receiving_hostNoted .., ?_⟩
      exact ((t.hostKept_hostNoted h.val p).trans (State.hostKept_count _ _ _ _ (by decide))).1.trans j.1
    · refine ⟨_, (State.exec_hostPacketReceive live up free ht takes udp room).trans ((if_neg (by rw [verdict]; decide)).trans (if_pos (by rw [verdict]; rfl))), ?_, ?_⟩
      · rw [State.bump_sessions]
        exact (t.hostKept_hostClosed h.val p).1.trans j.1
      · rw [State.fld_bump_same _ _ _ _ (by decide) (by decide), (t.hostKept_hostClosed h.val p).2.2, sec, satAdd, Nat.min_comm]
    · refine ⟨_, (State.exec_hostPacketReceive live up free ht takes udp room).trans
        ((if_neg (by rw [verdict]; decide)).trans ((if_neg (by rw [verdict]; decide)).trans ((if_neg (by rw [verdict]; decide)).trans (if_pos (by rw [unread, Bool.or_true]))))), ?_, ?_⟩
      · rw [(t.hostKept_hostClosed h.val p).2.1, rx]
      · exact (t.hostKept_hostClosed h.val p).1.trans j.1
    · have clear : t.packetSession h.val p = none := if_pos (by
        simp only [isHello, Bool.and_eq_true] at hello
        exact hello.1.1)
      refine ⟨_, State.exec_hostPacketReceive_hello live up free ht takes udp room verdict read clear, ?_, ?_⟩
      · rw [State.rx_setRx_same, (t.hostKept_hostClosed h.val p).2.1, rx]
      · rw [State.setRx_sessions]
        exact (t.hostKept_hostClosed h.val p).1.trans j.1
  case hello =>
    obtain ⟨x, held, closed, lease, window, next, since, peer, kept, digest, keys⟩ := (s.setRx h.val { s.rx h.val with hellos := rest }).offer_spec h.val n v (min w (s.fld (hp .HP_CFG h.val) HP_CFG.WINDOW_MAX))
      (beBytes 2 lo ++ beBytes 2 hi ++ beBytes 2 w ++ beBytes 2 0) key i.peer
    refine ⟨_, x, State.exec_hello live first resv plen version len pos small high slot, held, closed, lease, window, next, since, peer, ?_, digest, keys⟩
    rw [State.rx, kept]
    exact congrArg HostRx.hellos (State.rx_setRx_same ..)
  case lease =>
    rintro rfl mode signed known
    rw [State.exec_auth live turn closed land seq poison spoiled odd major minor plen dlen resv (by decide) rfl (by rw [mode]; rfl), signed, State.authKnown_lease known, Bool.and_self, if_pos rfl]
    rfl
  case management =>
    rintro rfl zero signed known keys
    rw [State.exec_auth live turn closed land seq poison spoiled odd major minor plen dlen resv (by decide) (by rw [zero]; rfl) (by cases u.minimal <;> rfl), signed, State.authKnown_management known, Bool.and_self,
      if_pos rfl, State.authOpened, keys]
    rfl
  case unsigned =>
    rintro rfl mode unsigned
    rw [State.exec_auth live turn closed land seq poison spoiled odd major minor plen dlen resv (by decide) rfl (by rw [mode]; rfl), unsigned, Bool.false_and, if_neg Bool.false_ne_true]
  case ends =>
    rintro ⟨e, mem, due, last⟩
    exact State.exec_eventRetransmit_ends live found mem due last
  case freed =>
    rw [State.sessions_freeSession]
    exact ⟨tget?_tdel_same .., fun j apart => tget?_tdel_ne _ apart⟩
end
